-- ==== Sys2Proof/Word.lean ====
section
/-!
DEFINITION. The word types of the device: 8-bit bytes and 32-bit register words.
Values that software only ever counts or compares are natural numbers elsewhere.
-/

namespace Sys2Proof

/-- One byte of memory. -/
abbrev Byte := BitVec 8

/-- A 32-bit register or micro-word register value. -/
abbrev Word := BitVec 32

/-- A 128-bit micro-word of a Room engine's control store. -/
abbrev MicroWord := BitVec 128

end Sys2Proof
end

