-- ==== Sys2Proof/Syntax.lean ====
section
/-!
DEFINITION. The commands of the block, one constructor per row of spec/opcode_table.json, and the
types of their operands.  What the outside world shows the block (a comparator, a sensor, a link)
is an operand of the command that brings it in; units are numbered as R4 gives.
-/

namespace Sys2Proof

/-- A bus master that reads or writes registers (R322), with the security block (R550). -/
inductive Master where
  | engine (k : Fin 64)
  | hearth (c : Fin 4)
  | steal
  | fabric
  | tap
  | security
  deriving DecidableEq, Repr

/-- Who sent a host command: the source node and the tag of the message (R491, R492). A source of
256 + k stands for the CMD of Room engine k (R287). -/
structure Hdr where
  src : Nat
  tag : Nat
  deriving DecidableEq, Repr

/-- Which clock was lost (R36). -/
inductive ClockLoss where
  | ref | corePll | hearthPll | cellarPll | modPll | tile (t : Fin 8)
  deriving DecidableEq, Repr

/-- What the outside world shows the loader during steps 3 to 11 of a bring-up (R81): whether a
flash answers, which fuse block fails its check twice or once, whether each tile's trim registers
agree with the fuses (R80), the density code of the Cellar channels and whether they train (R535),
the flash size in bytes (SFDP), whether its reads meet an error or a timeout (R100), and the FACT_STRAP
ball. -/
structure BootWorld where
  flashAnswers : Bool
  flashSize : Nat
  flashError : Bool
  fuseFail : Option (Fin 128)
  fuseRetry : Option (Fin 128)
  tileMismatch : Nat
  density : Fin 5
  trained : Nat
  factStrap : Bool
  deriving DecidableEq, Repr

/-- The two voltages of one channel in the contact check, in mV (R105, R106). -/
structure ContactSeen where
  v1 : Int
  vp : Int
  deriving DecidableEq, Repr

/-- What takes the chip out of SLEEP (R112). -/
inductive WakeCause where
  | fabric | doorbell | fault | warn
  deriving DecidableEq, Repr

/-- One sensor's conversion (R560, R564): the reading in 0.25 degrees, whether the raw code was at
full scale or zero, and whether the dual-bias check failed on this sample. -/
structure SensorRaw where
  reading : Int
  fullScale : Bool
  zero : Bool
  biasBad : Bool
  deriving DecidableEq, Repr

/-- What the comparators of one site channel showed in a vector (R139, R142): the outputs at E4, and
whether the condition broke between E4 and E5. -/
structure CmpSeen where
  hi : Bool
  lo : Bool
  broke : Bool
  deriving DecidableEq, Repr

/-- The read-to-clear counters of the Pantry. -/
inductive PanCounter where
  | underrun | evict | overbudget | decodeErr
  deriving DecidableEq, Repr

/-- The context a jump request names (R231). -/
inductive JumpTarget where
  | site (s : Fin 64)
  | smu (u : Fin 32)
  deriving DecidableEq, Repr

/-- A register of a timing set (R163). -/
inductive TimingReg where
  | period (site : Fin 64) (set : Fin 16)
  | edge (ch : Fin 512) (set : Fin 16) (e : Fin 6)
  deriving DecidableEq, Repr

/-- A threshold register of a window monitor. -/
inductive MonReg where
  | hi | lo | hyst
  deriving DecidableEq, Repr

/-- A unit with a monitor converter (R357). -/
inductive Supply where
  | dps (d : Fin 64)
  | smu (u : Fin 32)
  deriving DecidableEq, Repr

/-- An edge at a TDC input (R381, R383): the start or the stop input, rising or falling, its time in
ticks of 1/3 ps, the raw code r of its conversion, and the raw codes n1 and n2 of the reference
intervals of one and two periods that its interpolator converts after it. -/
structure TdcEdge where
  stop : Bool
  falling : Bool
  time : Nat
  r : Nat
  n1 : Nat
  n2 : Nat
  deriving DecidableEq, Repr

/-- What an acquisition unit sees at one sample instant (R404, R407): the voltage and current codes,
whether the output was in current limit or compliance, and whether a quantity exceeded its range. -/
structure AcqSeen where
  volt : Int
  curr : Int
  limited : Bool
  beyond : Bool
  deriving DecidableEq, Repr

/-- Who runs a task: an engine that took it by YIELD, or Hearth for a deque (R630). -/
inductive TaskRunner where
  | engine (k : Fin 64)
  | hearth (deque : Fin 64)
  deriving DecidableEq, Repr

/-- A unit whose push waits for room in a deque (R315, R414). -/
inductive Pusher where
  | site (s : Fin 64)
  | acq (u : Fin 96)
  deriving DecidableEq, Repr

/-- How a site command came: the SITE_CTRL host command, or a write of SITE_CMD. -/
inductive SiteOrigin where
  | host (h : Hdr)
  | reg (m : Master)
  deriving DecidableEq, Repr

/-- A store that reaches port B of the scratchpad on the cycle of an access to port A (R547). -/
structure PortB where
  engine : Fin 64
  x : Nat
  v : Nat
  deriving DecidableEq, Repr

/-- What a read of a Cellar block finds (R538). -/
inductive EccSeen where
  | clean | single | double
  deriving DecidableEq, Repr

/-- The arguments of CALIBRATE (R499). -/
structure CalArgs where
  flow : Nat
  tile : Nat
  vmax : Nat
  tdc : Nat
  dps : Nat
  smu : Nat
  chan : Nat
  mon : Nat
  deriving DecidableEq, Repr

/-- What a calibration flow found for one unit (R433, R434): the unit (channels 0-63, DPS 64-71,
SMUs 72-75, TDCs 76-91, monitors 92-111), whether it measured without error, and the correction
bytes it computed. -/
structure CalSeen where
  unit : Nat
  code : Nat
  bytes : List Byte
  deriving DecidableEq, Repr

/-- One item of REG_WR. -/
structure RegItem where
  addr : Nat
  value : Nat
  deriving DecidableEq, Repr

/-- One flit (R449, R450): the fields of its header, whether its CRC is good, and its payload in use. -/
structure Flit where
  typ : Nat
  dst : Nat
  src : Nat
  seq : Nat
  vc : Nat
  mc : Bool
  sr : Bool
  seg : Nat
  ttl : Nat
  crcOk : Bool
  payload : List Byte
  deriving DecidableEq, Repr

/-- A link block as a Porch receives it (R445, R459, R460): whether the block is good, whether its
codeword was corrected, the fillers that the elastic buffer inserted and deleted, and the
acknowledgement and the credits of its header for each virtual channel. -/
structure LinkBlock where
  ok : Bool
  corrected : Bool
  inserted : Nat
  deleted : Nat
  ack : Nat
  cr0 : Nat
  cr1 : Nat
  cr2 : Nat
  deriving DecidableEq, Repr

/-- The content of a LINK_INFO (R464). -/
structure LinkInfo where
  sid : Nat
  node : Nat
  porch : Fin 8
  fresh : Bool
  pam4Ok : Bool
  expected : Nat
  buf0 : Nat
  buf1 : Nat
  buf2 : Nat
  deriving DecidableEq, Repr

/-- Why a Porch retrains (R467). -/
inductive RetrainCause where
  | signal | align | errors | retries | request
  deriving DecidableEq, Repr


/-- The commands of the block: one constructor per row of spec/opcode_table.json.  Each docstring names
the row's rule. -/
inductive Instr where
  /-- PIN (R68). -/
  | pin (widthPs : Nat)
  /-- CLKFAIL (R36). -/
  | clkfail (loss : ClockLoss)
  /-- RST_SOFT (R67). -/
  | rstSoft (m : Master) (v : Nat)
  /-- WDOG_START (R67). -/
  | wdogStart (m : Master) (v : Nat)
  /-- RST_WDOG_KICK (R67). -/
  | rstWdogKick (m : Master) (v : Nat)
  /-- STANDBY_ENTRY (R81). -/
  | standbyEntry (w : BootWorld)
  /-- CONTACT_CHECK_DONE (R107). -/
  | contactCheckDone (seen : List ContactSeen)
  /-- CONTACT_CTL_START (R105). -/
  | contactCtlStart (m : Master) (v : Nat)
  /-- MODE (R112). -/
  | mode (h : Hdr) (target : Nat)
  /-- WAKE (R112). -/
  | wake (c : WakeCause)
  /-- CHIMNEY_SAMPLE (R561). -/
  | chimneySample (raw : List SensorRaw)
  /-- LANE_PRESET_UPDATE (R441). -/
  | lanePresetUpdate (p : Fin 8)
  /-- DEFERRED_START_RELEASE (R117). -/
  | deferredStartRelease (site : Fin 64)
  /-- START_TIMEOUT (R25). -/
  | startTimeout (site : Fin 64)
  /-- VECTOR_BOUNDARY (R165). -/
  | vectorBoundary (site : Fin 64) (seen : List CmpSeen)
  /-- STALL_LIMIT_EXPIRY (R239). -/
  | stallLimitExpiry (site : Fin 64)
  /-- LINE_DECODE_DONE (R220). -/
  | lineDecodeDone (pat line : Nat)
  /-- PAN_INVAL (R227). -/
  | panInval (m : Master) (v : Nat)
  /-- PAN_COUNTER_READ (R5). -/
  | panCounterRead (m : Master) (c : PanCounter)
  /-- JUMP_REQ_WRITE (R231). -/
  | jumpReqWrite (m : Master) (t : JumpTarget) (v : Nat)
  /-- JUMP_REQ_CANCEL (R234). -/
  | jumpReqCancel (m : Master) (t : JumpTarget) (v : Nat)
  /-- SMU_WAVE_SAMPLE (R218). -/
  | smuWaveSample (u : Fin 32)
  /-- TIMED_START (R190). -/
  | timedStart (site : Fin 64)
  /-- TILE_PHASE_MEASURE (R176). -/
  | tilePhaseMeasure (t : Fin 8) (err corr : Int)
  /-- CHIP_OFFSET_WRITE (R193). -/
  | chipOffsetWrite (m : Master) (v : Nat)
  /-- TRIG_FIRE (R185). -/
  | trigFire (m : Master) (i : Fin 8) (v : Nat)
  /-- TRIG_EMIT (R185). -/
  | trigEmit (i : Fin 8)
  /-- TRIG_ARRIVAL (R186). -/
  | trigArrival (i : Fin 8) (t : Nat)
  /-- TRIG_ACTION (R186). -/
  | trigAction (i : Fin 8)
  /-- TRIG_ACC_ENABLE (R187). -/
  | trigAccEnable (m : Master) (i : Fin 8) (v : Nat)
  /-- TIMING_SET_WRITE (R169). -/
  | timingSetWrite (m : Master) (r : TimingReg) (v : Nat)
  /-- CH_DSK_WRITE (R174). -/
  | chDskWrite (m : Master) (ch : Fin 512) (v : Nat)
  /-- CH_CTRL_WRITE (R132). -/
  | chCtrlWrite (m : Master) (ch : Fin 512) (v : Nat)
  /-- LEVEL_WRITE (R136). -/
  | levelWrite (m : Master) (ch : Fin 512) (lvl : Fin 10) (v : Nat)
  /-- LEVEL_SETTLED (R136). -/
  | levelSettled (ch : Fin 512)
  /-- PMU_CTRL_WRITE (R150). -/
  | pmuCtrlWrite (m : Master) (ch : Fin 512) (v : Nat)
  /-- PMU_CONNECT_DONE (R150). -/
  | pmuConnectDone (ch : Fin 512)
  /-- PMU_RANGE_DONE (R151). -/
  | pmuRangeDone (ch : Fin 512)
  /-- PMU_MEAS (R152). -/
  | pmuMeas (m : Master) (ch : Fin 512) (v : Nat)
  /-- PMU_MEAS_DONE (R152). -/
  | pmuMeasDone (ch : Fin 512) (mean : Int) (clamped beyond : Bool)
  /-- MONITOR_CROSSING (R368). -/
  | monitorCrossing (i : Fin 160) (high : Bool) (input : Int)
  /-- MON_LATCH_CLEAR (R369). -/
  | monLatchClear (m : Master) (i : Fin 160) (v : Nat)
  /-- MON_PERIOD_BOUNDARY (R369). -/
  | monPeriodBoundary (i : Fin 160)
  /-- MON_CTRL_WRITE (R366). -/
  | monCtrlWrite (m : Master) (i : Fin 160) (v : Nat)
  /-- MON_THRESHOLD_WRITE (R375). -/
  | monThresholdWrite (m : Master) (i : Fin 160) (r : MonReg) (v : Nat)
  /-- THRESHOLD_SETTLED (R366). -/
  | thresholdSettled (i : Fin 160)
  /-- DPS_CTRL_WRITE (R331). -/
  | dpsCtrlWrite (m : Master) (d : Fin 64) (v : Nat)
  /-- VSET_WRITE (R334). -/
  | vsetWrite (m : Master) (d : Fin 64) (v : Nat)
  /-- RAMP_END (R335). -/
  | rampEnd (d : Fin 64)
  /-- DPS_SETTLED (R336). -/
  | dpsSettled (d : Fin 64)
  /-- REG_LOSS (R328). -/
  | regLoss (d : Fin 64)
  /-- SENSE_DROP (R327). -/
  | senseDrop (d : Fin 64)
  /-- SHARE (R340). -/
  | share (d : Fin 64)
  /-- DPS_RANGE_DONE (R343). -/
  | dpsRangeDone (d : Fin 64)
  /-- MONITOR_SAMPLE (R357). -/
  | monitorSample (u : Supply) (volt curr : Int) (limited beyond : Bool)
  /-- DPS_MEAS (R357). -/
  | dpsMeas (m : Master) (d : Fin 64) (v : Nat)
  /-- SMU_MEAS (R357). -/
  | smuMeas (m : Master) (u : Fin 32) (v : Nat)
  /-- MEASUREMENT_DONE (R357). -/
  | measurementDone (u : Supply)
  /-- SMU_CTRL_WRITE (R349). -/
  | smuCtrlWrite (m : Master) (u : Fin 32) (v : Nat)
  /-- SMU_RANGE_DONE (R347). -/
  | smuRangeDone (u : Fin 32)
  /-- SINE_FREQ_WRITE (R352). -/
  | sineFreqWrite (m : Master) (u : Fin 32) (v : Nat)
  /-- SUPERVISION_MISMATCH (R354). -/
  | supervisionMismatch (u : Fin 32)
  /-- MISMATCH_CLEAR (R354). -/
  | mismatchClear (m : Master) (u : Fin 32) (v : Nat)
  /-- TDC_CTRL_ARM (R389). -/
  | tdcCtrlArm (m : Master) (j : Fin 128) (v : Nat)
  /-- TDC_CTRL_DISARM (R391). -/
  | tdcCtrlDisarm (m : Master) (j : Fin 128) (v : Nat)
  /-- TDC_OPEN (R390). -/
  | tdcOpen (j : Fin 128)
  /-- TDC_EVENT (R383). -/
  | tdcEvent (j : Fin 128) (e : TdcEdge)
  /-- PAIR_TIMEOUT (R393). -/
  | pairTimeout (j : Fin 128)
  /-- TDC_SPILL (R400). -/
  | tdcSpill (j : Fin 128) (n : Nat)
  /-- RING_RECHECK (R399). -/
  | ringRecheck (j : Fin 128)
  /-- ACQ_CTRL_ARM (R409). -/
  | acqCtrlArm (m : Master) (u : Fin 96) (v : Nat)
  /-- ACQ_CTRL_FORCE (R413). -/
  | acqCtrlForce (m : Master) (u : Fin 96) (v : Nat)
  /-- ACQ_CTRL_CANCEL (R415). -/
  | acqCtrlCancel (m : Master) (u : Fin 96) (v : Nat)
  /-- ACQ_SAMPLE (R410). -/
  | acqSample (u : Fin 96) (a : AcqSeen)
  /-- ACQ_COMPLETE (R414). -/
  | acqComplete (u : Fin 96)
  /-- FAIL_COMPRESS (R319). -/
  | failCompress (r : TaskRunner)
  /-- CAPTURE_REDUCE (R420). -/
  | captureReduce (r : TaskRunner)
  /-- RESULT_PACK (R320). -/
  | resultPack (r : TaskRunner)
  /-- DEQUE_PUSH_RETRY (R315). -/
  | dequePushRetry (p : Pusher)
  /-- HEARTH_TASK_TAKEOVER (R630). -/
  | hearthTaskTakeover (k : Fin 64)
  /-- START (R295). -/
  | start (o : SiteOrigin) (mask : Nat)
  /-- PAUSE (R296). -/
  | pause (o : SiteOrigin) (mask : Nat)
  /-- RESUME (R226). -/
  | resume (o : SiteOrigin) (mask : Nat)
  /-- RETEST (R297). -/
  | retest (o : SiteOrigin) (mask : Nat)
  /-- ABORT (R299). -/
  | abort (o : SiteOrigin) (mask : Nat)
  /-- SITE_FINISH (R298). -/
  | siteFinish (site : Fin 64)
  /-- SITE_BIND (R293). -/
  | siteBind (h : Hdr) (entry : List Byte)
  /-- SITE_UNBIND (R293). -/
  | siteUnbind (h : Hdr) (mask : Nat)
  /-- START_CHAIN (R253). -/
  | startChain (k : Fin 64) (entry : Nat)
  /-- PIN_JUMP (R253). -/
  | pinJump (k : Fin 64)
  /-- PIN_CANCEL (R253). -/
  | pinCancel (k : Fin 64)
  /-- TSET (R166). -/
  | tset (k : Fin 64) (set : Fin 16)
  /-- BANK (R137). -/
  | bank (k : Fin 64) (half : Fin 2) (value : Bool) (mask : Nat)
  /-- CMASK (R253). -/
  | cmask (k : Fin 64) (half : Fin 2) (mask : Nat)
  /-- DRV (R253). -/
  | drv (k : Fin 64) (half : Fin 2) (value : Bool) (mask : Nat)
  /-- TRIG (R185). -/
  | trig (k : Fin 64)
  /-- CLRFAIL (R253). -/
  | clrfail (k : Fin 64)
  /-- LEVEL (R253). -/
  | level (k : Fin 64) (lvl : Fin 5) (bankSel all : Bool) (chan : Fin 64) (value : Nat)
  /-- TERM (R253). -/
  | term (k : Fin 64) (half : Fin 2) (termMode : Fin 4) (mask : Nat)
  /-- DPS_SET (R255). -/
  | dpsSet (k : Fin 64) (idx : Fin 64) (imm : Nat)
  /-- DPS_ILIM (R255). -/
  | dpsIlim (k : Fin 64) (idx : Fin 64) (imm : Nat)
  /-- DPS_EN (R331). -/
  | dpsEn (k : Fin 64) (idx : Fin 64) (value : Bool)
  /-- DPS_RAMP (R334). -/
  | dpsRamp (k : Fin 64) (idx : Fin 64) (slew : Fin 32) (imm : Nat)
  /-- SMU_SET (R255). -/
  | smuSet (k : Fin 64) (idx : Fin 64) (imm : Nat)
  /-- SMU_CLAMP (R346). -/
  | smuClamp (k : Fin 64) (idx : Fin 64) (imm : Nat)
  /-- SMU_RANGE (R346). -/
  | smuRange (k : Fin 64) (idx : Fin 64) (rng : Fin 32)
  /-- SMU_EN (R349). -/
  | smuEn (k : Fin 64) (idx : Fin 64) (value : Bool)
  /-- SMU_WAVE (R217). -/
  | smuWave (k : Fin 64) (idx : Fin 64) (entry : Nat)
  /-- SMU_STOP (R351). -/
  | smuStop (k : Fin 64) (idx : Fin 64)
  /-- PMU_CFG (R255). -/
  | pmuCfg (k : Fin 64) (idx : Fin 64) (imm : Nat)
  /-- PMU_FORCE (R255). -/
  | pmuForce (k : Fin 64) (idx : Fin 64) (imm : Nat)
  /-- TDC_ARM (R389). -/
  | tdcArm (k : Fin 64) (idx : Fin 64) (imm : Nat)
  /-- TDC_STOP (R391). -/
  | tdcStop (k : Fin 64) (idx : Fin 64)
  /-- ACQ_ARM (R409). -/
  | acqArm (k : Fin 64) (idx : Fin 64) (imm : Nat)
  /-- ACQ_FORCE (R413). -/
  | acqForce (k : Fin 64) (idx : Fin 64)
  /-- WAIT (R257). -/
  | wait (k : Fin 64) (ns : Nat)
  /-- SETTLE (R257). -/
  | settle (k : Fin 64) (idx : Fin 64) (qty : Fin 5) (ns : Nat)
  /-- MEASURE (R257). -/
  | measure (k : Fin 64) (idx : Fin 64) (qty : Fin 5) (ns : Nat)
  /-- READ (R257). -/
  | read (k : Fin 64) (idx : Fin 64) (qty : Fin 5)
  /-- LONG_OPERATION_END (R257). -/
  | longOperationEnd (k : Fin 64)
  /-- COMMAND_REFUSED (R258). -/
  | commandRefused (k : Fin 64)
  /-- NEXT (R248). -/
  | next (k : Fin 64)
  /-- JUMP (R248). -/
  | jump (k : Fin 64)
  /-- CALL (R248). -/
  | call (k : Fin 64)
  /-- RET (R248). -/
  | ret (k : Fin 64)
  /-- BRT (R248). -/
  | brt (k : Fin 64)
  /-- BRF (R248). -/
  | brf (k : Fin 64)
  /-- LOOP (R248). -/
  | loop (k : Fin 64)
  /-- WAITEV (R248). -/
  | waitev (k : Fin 64)
  /-- WAITEV_END (R248). -/
  | waitevEnd (k : Fin 64)
  /-- DISPATCH (R248). -/
  | dispatch (k : Fin 64)
  /-- YIELD (R282). -/
  | yield (k : Fin 64)
  /-- TRAP (R248). -/
  | trap (k : Fin 64)
  /-- MRET (R274). -/
  | mret (k : Fin 64)
  /-- HALT (R278). -/
  | halt (k : Fin 64)
  /-- PARITY_ERROR (R266). -/
  | parityError (k : Fin 64)
  /-- TRAP_ENTRY (R271). -/
  | trapEntry (k : Fin 64)
  /-- ABORT_TIMEOUT (R279). -/
  | abortTimeout (k : Fin 64)
  /-- ENGINE_ENTRY (R280). -/
  | engineEntry (k : Fin 64)
  /-- LD (R259). -/
  | ld (k : Fin 64) (space : Fin 2) (off : Nat) (dst : Fin 64)
  /-- ST (R259). -/
  | st (k : Fin 64) (space : Fin 2) (off : Nat) (v : Nat)
  /-- LDP (R259). -/
  | ldp (k : Fin 64) (space : Fin 2) (off : Nat) (dst : Fin 64)
  /-- STP (R259). -/
  | stp (k : Fin 64) (space : Fin 2) (off : Nat) (v0 v1 : Nat)
  /-- LOAD_COMPLETE (R263). -/
  | loadComplete (k : Fin 64)
  /-- MEMORY_ERROR (R260). -/
  | memoryError (k : Fin 64)
  /-- SEM (R259). -/
  | sem (k : Fin 64) (n : Fin 64) (dst : Fin 64)
  /-- SEMREL (R555). -/
  | semrel (k : Fin 64) (n : Fin 64)
  /-- RECORD (R309). -/
  | record (k : Fin 64) (off : Nat) (n : Fin 16)
  /-- CMD (R287). -/
  | cmd (k : Fin 64) (off : Nat)
  /-- CMD_REPLY (R287). -/
  | cmdReply (k : Fin 64)
  /-- FLD (R259). -/
  | fld (k : Fin 64) (w : Fin 16) (dst : Fin 64)
  /-- FST (R259). -/
  | fst (k : Fin 64) (w : Fin 16) (v : Nat)
  /-- PUSHT (R319). -/
  | pusht (k : Fin 64) (dst : Fin 64)
  /-- ENG_GO (R284). -/
  | engGo (m : Master) (k : Fin 64) (v : Nat)
  /-- ENG_STOP (R279). -/
  | engStop (m : Master) (k : Fin 64) (v : Nat)
  /-- ENG_STEP (R279). -/
  | engStep (m : Master) (k : Fin 64) (v : Nat)
  /-- CONTROL_STORE_WRITE (R265). -/
  | controlStoreWrite (m : Master) (k : Fin 64) (w : Fin 4096) (part : Fin 4) (v : Nat)
  /-- SEM_ACQ_READ (R323). -/
  | semAcqRead (n : Fin 64) (readers : List Master)
  /-- SEM_ACQ_WRITE (R555). -/
  | semAcqWrite (m : Master) (n : Fin 64)
  /-- SEM_FORCE (R558). -/
  | semForce (m : Master) (v : Nat)
  /-- BIT_SET_ALIAS_WRITE (R548). -/
  | bitSetAliasWrite (m : Master) (x v : Nat) (b : Option PortB)
  /-- BIT_CLEAR_ALIAS_WRITE (R548). -/
  | bitClearAliasWrite (m : Master) (x v : Nat) (b : Option PortB)
  /-- SEC_WIPE (R551). -/
  | secWipe (m : Master) (v : Nat)
  /-- TAMPER (R614). -/
  | tamper (widthPs : Nat)
  /-- SCRUB_READ (R541). -/
  | scrubRead (err : EccSeen)
  /-- CALIBRATE (R430). -/
  | calibrate (h : Hdr) (a : CalArgs)
  /-- CAL_STOP (R437). -/
  | calStop (h : Hdr) (tile : Nat)
  /-- CAL_FLOW_DONE (R434). -/
  | calFlowDone (t : Fin 8) (flow : Nat) (results : List CalSeen)
  /-- CORRECTION_APPLY (R436). -/
  | correctionApply (t : Fin 8)
  /-- CAL_LOAD (R429). -/
  | calLoad (h : Hdr) (addr : Nat)
  /-- PAT_LOAD (R208). -/
  | patLoad (h : Hdr) (addr : Nat)
  /-- SEG_LOAD (R209). -/
  | segLoad (h : Hdr) (addr : Nat)
  /-- CS_LOAD (R501). -/
  | csLoad (h : Hdr) (k : Nat) (addr : Nat)
  /-- STATUS (R499). -/
  | status (h : Hdr)
  /-- REG_RD (R499). -/
  | regRd (h : Hdr) (addrs : List Nat)
  /-- REG_WR (R500). -/
  | regWr (h : Hdr) (items : List RegItem)
  /-- BLK_RD (R499). -/
  | blkRd (h : Hdr) (addr len : Nat)
  /-- BLK_WR (R500). -/
  | blkWr (h : Hdr) (addr : Nat) (data : List Byte)
  /-- FLASH_WR (R502). -/
  | flashWr (h : Hdr) (off : Nat) (data : List Byte)
  /-- FLASH_ERASE (R502). -/
  | flashErase (h : Hdr) (off sectors : Nat)
  /-- HOST_JUMP (R499). -/
  | hostJump (h : Hdr) (cancel smu : Bool) (mask : Nat)
  /-- SOFT_RESET (R503). -/
  | softReset (h : Hdr) (key : Nat)
  /-- BOOT_CLEAR (R114). -/
  | bootClear (h : Hdr)
  /-- PREPARE_REMOVE (R128). -/
  | prepareRemove (h : Hdr)
  /-- MBX_POST (R514). -/
  | mbxPost (h : Hdr) (mbx epoch : Nat) (words : List Nat)
  /-- MBX_READ (R514). -/
  | mbxRead (h : Hdr) (mbx max : Nat)
  /-- DOORBELL (R516). -/
  | doorbell (h : Hdr) (mbx : Nat)
  /-- MBX_RESET (R515). -/
  | mbxReset (h : Hdr) (mbx epoch : Nat)
  /-- RESERVED_OPCODE (R499). -/
  | reservedOpcode (h : Hdr) (op : Nat)
  /-- INJECT_FAULT (R588). -/
  | injectFault (h : Hdr) (index unit : Nat)
  /-- INJECT_INTERRUPT (R588). -/
  | injectInterrupt (h : Hdr) (index : Nat)
  /-- INJECT_SENSOR_READING (R588). -/
  | injectSensorReading (h : Hdr) (index value holdMs : Nat)
  /-- INJECT_SENSOR_BROKEN (R588). -/
  | injectSensorBroken (h : Hdr) (index cause : Nat)
  /-- FORCED_READING_EXPIRY (R588). -/
  | forcedReadingExpiry (n : Fin 40)
  /-- FUSE_READ (R620). -/
  | fuseRead (h : Hdr) (word : Nat)
  /-- FUSE_OR (R620). -/
  | fuseOr (h : Hdr) (word v : Nat)
  /-- VERSION_READ (R620). -/
  | versionRead (h : Hdr)
  /-- MBX_HOST_RX (R514). -/
  | mbxHostRx (m : Master) (b : Fin 4)
  /-- MBX_HOST_TX (R514). -/
  | mbxHostTx (m : Master) (b : Fin 4) (v : Nat)
  /-- MBX_HOST_DB (R516). -/
  | mbxHostDb (m : Master) (b : Fin 4) (v : Nat)
  /-- MBX_ENG_TX (R514). -/
  | mbxEngTx (m : Master) (k : Fin 64) (v : Nat)
  /-- MBX_ENG_RX (R514). -/
  | mbxEngRx (m : Master) (k : Fin 64)
  /-- MBX_ENG_DB (R516). -/
  | mbxEngDb (m : Master) (k : Fin 64) (v : Nat)
  /-- CSP_START (R519). -/
  | cspStart (m : Master) (n : Fin 2) (v : Nat)
  /-- CSP_ABORT (R523). -/
  | cspAbort (m : Master) (n : Fin 2) (v : Nat)
  /-- CSP_EN_WRITE (R521). -/
  | cspEnWrite (m : Master) (n : Fin 2) (v : Nat)
  /-- CSP_TRANSFER_DONE (R519). -/
  | cspTransferDone (n : Fin 2) (rx : List Bool)
  /-- SELECT_LOST (R522). -/
  | selectLost (n : Fin 2) (rx : List Bool)
  /-- FAULT_RAISE (R579). -/
  | faultRaise (src : Fin 128) (unit : Nat)
  /-- FLT_ACK (R580). -/
  | fltAck (m : Master) (v : Nat)
  /-- FLT_INJ (R587). -/
  | fltInj (m : Master) (v : Nat)
  /-- IRQ_SWSET (R594). -/
  | irqSwset (m : Master) (v : Nat)
  /-- SEC_RB_COMMIT (R612). -/
  | secRbCommit (m : Master) (v : Nat)
  /-- SEC_LC_REQ (R600). -/
  | secLcReq (m : Master) (v : Nat)
  /-- SEC_PROV_CMD (R598). -/
  | secProvCmd (m : Master) (v : Nat)
  /-- FUSE_PROGRAM_DONE (R598). -/
  | fuseProgramDone (ok : Bool)
  /-- DEBUG_UNLOCK (R619). -/
  | debugUnlock (m : Master) (v : Nat)
  /-- LINK_BLOCK_RECEIVE (R445). -/
  | linkBlockReceive (p : Fin 8) (b : LinkBlock)
  /-- FLIT_RECEIVE (R453). -/
  | flitReceive (p : Fin 8) (f : Flit)
  /-- RETRY_REQ (R455). -/
  | retryReq (p : Fin 8) (expected : Nat)
  /-- RETRY_REQ_RESEND (R454). -/
  | retryReqResend (p : Fin 8)
  /-- PARTNER_DETECT (R462). -/
  | partnerDetect (p : Fin 8)
  /-- LINK_INFO (R466). -/
  | linkInfo (p : Fin 8) (info : LinkInfo)
  /-- TRAINING_STEP_DONE (R462). -/
  | trainingStepDone (p : Fin 8) (ok : Bool)
  /-- LINK_UP (R462). -/
  | linkUp (p : Fin 8)
  /-- RETRAIN (R467). -/
  | retrain (p : Fin 8) (c : RetrainCause)
  /-- LINK_DOWN (R488). -/
  | linkDown (p : Fin 8)
  /-- DOWN_EXPIRY (R461). -/
  | downExpiry (p : Fin 8)
  /-- PORCH_EN_WRITE (R461). -/
  | porchEnWrite (m : Master) (p : Fin 8) (v : Nat)
  /-- QUIET_REQ (R468). -/
  | quietReq (p : Fin 8) (received : Bool)
  /-- QUIET_ACK (R468). -/
  | quietAck (p : Fin 8) (accept : Bool)
  /-- QUIET_EXIT (R468). -/
  | quietExit (p : Fin 8)
  /-- DEEP_REQ (R469). -/
  | deepReq (p : Fin 8) (received : Bool)
  /-- DEEP_ACK (R469). -/
  | deepAck (p : Fin 8)
  /-- DEEP_WAKE (R469). -/
  | deepWake (p : Fin 8)
  /-- WAKE_TIMEOUT (R470). -/
  | wakeTimeout (p : Fin 8)
  /-- LEAVE (R490). -/
  | leave (p : Fin 8)
  /-- DISCOVER (R482). -/
  | discover (p : Fin 8) (f : Flit)
  /-- ASSIGN (R484). -/
  | assign (p : Fin 8) (f : Flit)
  /-- ROUTE_SET (R485). -/
  | routeSet (p : Fin 8) (f : Flit)
  /-- REG_WRITE (R5). -/
  | regWrite (m : Master) (addr v : Nat)
  /-- THRESHOLD_ARMING (R365). -/
  | thresholdArming (i : Fin 160) (input : Int)
  /-- CURRENT_LIMIT (R330). -/
  | currentLimit (d : Fin 64) (limited : Bool)
  /-- SMU_COMPLIANCE (R346). -/
  | smuCompliance (u : Fin 32) (limited : Bool)
  /-- FLASH_OPERATION_DONE (R502). -/
  | flashOperationDone (ok : Bool)
  /-- LEAVE_WAIT_EXPIRY (R490). -/
  | leaveWaitExpiry (p : Fin 8)
  /-- SINE_GENERATOR_STEP (R352). -/
  | sineGeneratorStep (u : Fin 32)
  /-- REFRESH_RATE_REPORT (R440). -/
  | refreshRateReport (rate : Fin 3)
  /-- COMMAND_ACKNOWLEDGE (R263). -/
  | commandAcknowledge (k : Fin 64)
  /-- POR (R54). -/
  | por
  /-- BOR (R54). -/
  | bor
  /-- POR_RELEASE (R54). -/
  | porRelease
  /-- WDOG (R67). -/
  | wdog
  /-- WDOG_HALF (R589). -/
  | wdogHalf
  /-- SOFT (R67). -/
  | soft
  /-- DEBUG (R67). -/
  | debugReset
  /-- LOCKUP (R67). -/
  | lockup
  /-- LANE_REF (R36). -/
  | laneRef
  /-- SAFE_STATE_SEQUENCE (R74). -/
  | safeStateSequence
  /-- BRINGUP (R81). -/
  | bringup
  /-- REF_DETECT (R84). -/
  | refDetect
  /-- BOOT_TIMER_EXPIRY (R97). -/
  | bootTimerExpiry
  /-- THERMAL_LOG_RETRY (R576). -/
  | thermalLogRetry
  /-- WARM_HOLD_EXPIRY (R77). -/
  | warmHoldExpiry
  /-- MODE_TRANSITION_DONE (R112). -/
  | modeTransitionDone
  /-- PANTRY_LINE_GRANT (R20). -/
  | pantryLineGrant
  /-- LINE_DECODE_START (R220). -/
  | lineDecodeStart
  /-- INVALIDATION_DONE (R227). -/
  | invalidationDone
  /-- SYNC_EVENT (R180). -/
  | syncEvent
  /-- TIMEBASE_WRAP (R380). -/
  | timebaseWrap
  /-- STEAL_DISABLE (R292). -/
  | stealDisable
  /-- WIPE_DONE (R551). -/
  | wipeDone
  /-- EVENT_SEND (R508). -/
  | eventSend
  /-- FAULT_ESCALATION (R583). -/
  | faultEscalation
  /-- DEBUG_UNLOCK_DONE (R619). -/
  | debugUnlockDone
  deriving DecidableEq, Repr

end Sys2Proof
end

