-- ==== Sys2Proof/Machine/Bits.lean ====
section
/-!
DEFINITION. Bit-field, sign, byte-order and check-code helpers: little-endian bytes (00_scope.md),
CRC-32C and CRC-16/CCITT-FALSE (R11), unsigned LEB128 (R201, R317), saturation.
-/

namespace Sys2Proof.Machine

/-- Bits [lo+w-1:lo] of a number. -/
def bits (v lo w : Nat) : Nat := v / 2 ^ lo % 2 ^ w

/-- Bit i of a number. -/
def bit (v i : Nat) : Bool := v / 2 ^ i % 2 == 1

/-- 0 or 1. -/
def b2n (b : Bool) : Nat := if b then 1 else 0

/-- A number with bit i set. -/
def setBit (v i : Nat) : Nat := v ||| 2 ^ i

/-- A number with bit i clear. -/
def clrBit (v i : Nat) : Nat := if bit v i then v - 2 ^ i else v

/-- A number with bit i at b. -/
def putBit (v i : Nat) (b : Bool) : Nat := if b then setBit v i else clrBit v i

/-- Two's complement reading of the low w bits. -/
def sext (w v : Nat) : Int :=
  let x := v % 2 ^ w
  if x < 2 ^ (w - 1) then (x : Int) else (x : Int) - (2 ^ w : Nat)

/-- Two's complement code of an integer in w bits. -/
def code (w : Nat) (x : Int) : Nat := (x % ((2 ^ w : Nat) : Int)).toNat

/-- A number limited to the largest w-bit value (the saturating counters of 22_long_run.md). -/
def satAt (w v : Nat) : Nat := if v < 2 ^ w then v else 2 ^ w - 1

/-- An integer limited to a range. -/
def clampI (lo hi x : Int) : Int := if x < lo then lo else if hi < x then hi else x

/-- Division that rounds up. -/
def ceilDiv (a b : Nat) : Nat := (a + b - 1) / b

/-- How many of the low n bits of v are 1. -/
def popcount : Nat → Nat → Nat
  | 0, _ => 0
  | n + 1, v => b2n (v % 2 == 1) + popcount n (v / 2)

/-- The indices below n whose bit is 1 in v, ascending. -/
def bitsOf (n v : Nat) : List Nat := (List.range n).filter (fun i => bit v i)

/-- A mask with exactly the listed bits set. -/
def maskOf (l : List Nat) : Nat := l.foldl setBit 0

/-- n little-endian bytes of a number. -/
def leBytes : Nat → Nat → List Byte
  | 0, _ => []
  | n + 1, v => BitVec.ofNat 8 v :: leBytes n (v / 256)

/-- The number that little-endian bytes spell. -/
def ofLe : List Byte → Nat
  | [] => 0
  | b :: bs => b.toNat + 256 * ofLe bs

/-- n bytes of a list from an offset; bytes past its end read as 0. -/
def sliceB (l : List Byte) (off n : Nat) : List Byte :=
  ((l.drop off).take n) ++ List.replicate (n - ((l.drop off).take n).length) 0

/-- The little-endian number in n bytes of a list from an offset. -/
def fieldB (l : List Byte) (off n : Nat) : Nat := ofLe ((l.drop off).take n)

/-- n zero bytes. -/
def zeros (n : Nat) : List Byte := List.replicate n 0

/-- One bit step of the reflected CRC-32C (polynomial 0x1EDC_6F41, reflected 0x82F6_3B78, R11). -/
def crc32cStep (c : Nat) : Nat := if c % 2 = 1 then (c / 2) ^^^ 0x82F63B78 else c / 2

/-- Eight bit steps. -/
def crc32cByte (c : Nat) (b : Byte) : Nat :=
  let x := c ^^^ b.toNat
  crc32cStep (crc32cStep (crc32cStep (crc32cStep (crc32cStep (crc32cStep (crc32cStep (crc32cStep x)))))))

/-- CRC-32C of bytes carried on from an earlier CRC value. -/
def crc32cFrom (crc : Nat) (l : List Byte) : Nat :=
  (l.foldl crc32cByte (crc ^^^ 0xFFFFFFFF)) ^^^ 0xFFFFFFFF

/-- CRC-32C (R11): initial value and final XOR all ones. -/
def crc32c (l : List Byte) : Nat := crc32cFrom 0 l

/-- One bit step of CRC-16/CCITT-FALSE (polynomial 0x1021, R11). -/
def crc16Step (c : Nat) : Nat :=
  if c / 2 ^ 15 % 2 = 1 then (c * 2 % 2 ^ 16) ^^^ 0x1021 else c * 2 % 2 ^ 16

/-- One byte of CRC-16/CCITT-FALSE. -/
def crc16Byte (c : Nat) (b : Byte) : Nat :=
  let x := c ^^^ (b.toNat * 256)
  crc16Step (crc16Step (crc16Step (crc16Step (crc16Step (crc16Step (crc16Step (crc16Step x)))))))

/-- CRC-16/CCITT-FALSE: initial value 0xFFFF, not reflected, no final XOR (R11). -/
def crc16 (l : List Byte) : Nat := l.foldl crc16Byte 0xFFFF

/-- Unsigned LEB128 of a number, at most n bytes. -/
def leb128 : Nat → Nat → List Byte
  | 0, _ => []
  | n + 1, v => if v < 128 then [BitVec.ofNat 8 v] else BitVec.ofNat 8 (v % 128 + 128) :: leb128 n (v / 128)

/-- Reads an unsigned LEB128 of at most n bytes: the value and the bytes after it. -/
def readLeb : Nat → List Byte → Option (Nat × List Byte)
  | 0, _ => none
  | _ + 1, [] => none
  | n + 1, b :: bs =>
    if b.toNat < 128 then some (b.toNat, bs)
    else
      match readLeb n bs with
      | none => none
      | some (v, rest) => some (b.toNat % 128 + 128 * v, rest)

/-- The element of a list at an index, or a default. -/
def nthD {α : Type} (l : List α) (i : Nat) (d : α) : α := (l[i]?).getD d

/-- A list with the element at an index replaced. -/
def setNth {α : Type} : List α → Nat → α → List α
  | [], _, _ => []
  | _ :: xs, 0, a => a :: xs
  | x :: xs, n + 1, a => x :: setNth xs n a

end Sys2Proof.Machine
end

