-- ==== Sys2Proof/Machine/Flags.lean ====
section
/-!
DEFINITION. The ALU of a Room engine and its flags (R252), and the loop-counter operations (R261).
-/

namespace Sys2Proof.Machine

/-- The result of an ALU operation: the value for DST, if any, and the flags Z, N, C, V. -/
structure AluOut where
  dst : Option Nat
  z : Bool
  n : Bool
  c : Bool
  v : Bool
  deriving DecidableEq, Repr

/-- Flags of FLAGS (R242): Z, N, C, V. -/
def flZ (fl : Nat) : Bool := bit fl 0
def flN (fl : Nat) : Bool := bit fl 1
def flC (fl : Nat) : Bool := bit fl 2
def flV (fl : Nat) : Bool := bit fl 3
def flMIE : Nat := 4
def flRF : Nat := 5
def flME : Nat := 6
def flSL : Nat := 7

/-- Flags as FLAGS[3:0] with the other bits kept. -/
def AluOut.into (a : AluOut) (fl : Nat) : Nat :=
  putBit (putBit (putBit (putBit fl 0 a.z) 1 a.n) 2 a.c) 3 a.v

/-- ZN: Z and N follow the result, C and V stay. -/
def aluZN (fl r : Nat) (wr : Bool) : AluOut :=
  let x := r % 2 ^ 32
  ⟨if wr then some x else none, x == 0, bit x 31, flC fl, flV fl⟩

/-- ZN with V as given. -/
def aluZNV (fl r : Nat) (v : Bool) : AluOut := { aluZN fl r true with v := v }

/-- A + B + carry, all flags. -/
def aluAdd (a b cin : Nat) : AluOut :=
  let t := a + b + cin
  let r := t % 2 ^ 32
  ⟨some r, r == 0, bit r 31, decide (2 ^ 32 ≤ t), bit a 31 == bit b 31 && bit r 31 != bit a 31⟩

/-- A - B - borrow, all flags: C is 1 when no borrow leaves. -/
def aluSub (a b bin : Nat) (wr : Bool) : AluOut :=
  let r := (a + 2 ^ 32 - (b + bin) % 2 ^ 32) % 2 ^ 32
  ⟨if wr then some r else none, r == 0, bit r 31, decide (b + bin ≤ a), bit a 31 != bit b 31 && bit r 31 != bit a 31⟩

/-- Leading zeros of a 32-bit value. -/
def clz32 (a : Nat) : Nat := ((List.range 32).find? (fun j => bit a (31 - j))).getD 32

/-- A shifted right arithmetically. -/
def sar32 (a n : Nat) : Nat := code 32 ((sext 32 a) / ((2 ^ n : Nat) : Int))

/-- An ALU operation (R252): op the code [4:0], a and b the operands, cond the condition of the
word, fl FLAGS.  Codes 25 to 31 do not occur in a legal word. -/
def alu (op a b fl : Nat) (cond : Bool) : AluOut :=
  match op with
  | 1 => aluZN fl b true
  | 2 => aluAdd a b 0
  | 3 => aluSub a b 0 true
  | 4 => aluZN fl (a &&& b) true
  | 5 => aluZN fl (a ||| b) true
  | 6 => aluZN fl (a ^^^ b) true
  | 7 => aluZN fl (a * 2 ^ (b % 32)) true
  | 8 => aluZN fl (a / 2 ^ (b % 32)) true
  | 9 => aluZN fl (sar32 a (b % 32)) true
  | 10 => aluSub a b 0 false
  | 11 => aluZN fl (a &&& b) false
  | 12 => aluZN fl (if sext 32 a ≤ sext 32 b then a else b) true
  | 13 => aluZN fl (if sext 32 a ≤ sext 32 b then b else a) true
  | 14 => aluZN fl (min a b) true
  | 15 => aluZN fl (max a b) true
  | 16 => aluZN fl (a * b) true
  | 17 => aluZN fl (code 64 (sext 32 a * sext 32 b) / 2 ^ 32) true
  | 18 => aluZNV fl (code 32 (sext 32 a).natAbs) (a == 0x80000000)
  | 19 => aluAdd a b (b2n (flC fl))
  | 20 => aluSub a b (1 - b2n (flC fl)) true
  | 21 => aluZNV fl (code 32 (clampI (-32768) 32767 (sext 32 a))) (decide (clampI (-32768) 32767 (sext 32 a) ≠ sext 32 a))
  | 22 => aluZN fl (clz32 a) true
  | 23 => aluZN fl (popcount 32 a) true
  | 24 => aluZN fl (b2n cond) true
  | _ => ⟨none, flZ fl, flN fl, flC fl, flV fl⟩

/-- The ALU operation writes DST. -/
def aluWrites (op : Nat) : Bool := 1 ≤ op && op ≤ 24 && op != 10 && op != 11

/-- The ALU operation reads register SA, and reads operand B. -/
def aluUsesA (op : Nat) : Bool := 2 ≤ op && op ≤ 23
def aluUsesB (op : Nat) : Bool := (1 ≤ op && op ≤ 17) || op == 19 || op == 20

/-- A loop counter after a CNTOP operation (R261). -/
def cntStep (op old imm sb : Nat) : Nat :=
  match op with
  | 1 => imm
  | 2 => sb
  | 3 => old - 1
  | 4 => (old + 1) % 2 ^ 32
  | 5 => 0
  | _ => old

end Sys2Proof.Machine
end

