-- ==== Sys2Proof/Config.lean ====
section
/-!
DEFINITION. What the spec leaves open: free values (constants with no body, so that no proof can
know them) and the published algorithms the spec names by standard (R11), kept uninterpreted.
-/

namespace Sys2Proof

/-- A stream of free values: the n-th is what an open value takes the n-th time one is drawn. -/
opaque Config.free : Nat → Nat

/-- SHA-384 (FIPS 180-4) of a byte list, 48 bytes. -/
opaque Config.sha384 : List Byte → List Byte

/-- ECDSA P-384 verification (FIPS 186-5): public key, signed bytes, signature. -/
opaque Config.ecdsaOk : List Byte → List Byte → List Byte → Bool

/-- LMS verification with SHA-256/192 (NIST SP 800-208): public key, signed bytes, signature. -/
opaque Config.lmsOk : List Byte → List Byte → List Byte → Bool

/-- SHA-256 truncated to 192 bits, as the image key hashes use it. -/
opaque Config.sha256t : List Byte → List Byte

/-- AES-256-GCM decryption (FIPS 197, NIST SP 800-38D): key, IV, additional data, ciphertext, tag;
none when the tag does not match. -/
opaque Config.gcmOpen : List Byte → List Byte → List Byte → List Byte → List Byte → Option (List Byte)

/-- The ROM version word (SEC_ROM_VER). -/
opaque Config.romVersion : Nat

/-- The factory default firmware version word. -/
opaque Config.romFirmwareVersion : Nat

/-- The silicon ID in the fuses (FAB_SID): the spec gives no fuse words for it. -/
opaque Config.siliconId : Nat

/-- Spare columns in use by the fuses (SPD_REPAIR): 0 scratchpad, 1 Pantry, 2 control stores. -/
opaque Config.repairColumns : Nat → Nat

/-- Trim contents of the fuse array as the factory leaves them (words of blocks 0 to 103). -/
opaque Config.fuseWord : Nat → Nat

/-- The factory copy of the correction stores in the fuse array (R425), by tile x 0x10000 + offset from
TT + 0x80_1000. -/
opaque Config.factoryCorr : Nat → Byte

/-- The factory copy of CH_DSK in the fuse array (R425), by channel. -/
opaque Config.factoryDsk : Nat → Nat

/-- One period of the sine generator's fixed table (R352): entry 0 to 4,095, in 1/2^30 of full scale. -/
opaque Config.sineTable : Nat → Int

end Sys2Proof
end

