-- ==== Sys2Proof/Machine/RegName.lean ====
section
/-!
DEFINITION. The names of every register of the device (one per register of the index of
21_register_index.md, arrays counted once) and the shape of a register field (R5, R6).
-/

namespace Sys2Proof.Machine

/-- Every register the register index (R621) names.  An array of registers is one name;
the instance is the index that goes with it. -/
inductive RegName where
  | RST_CTRL | RST_SOFT | RST_CAUSE | RST_WARM_COUNT | RST_WDOG_CTL | RST_WDOG_KICK
  | BOOT_ATTEMPT | BOOT_REASON | BOOT_TIME | WARM_HELD_LO | WARM_HELD_HI | TB_CTRL
  | TB_LO | TB_HI | TB_EPOCH | SYNC_LOAD_LO | SYNC_LOAD_HI | SYNC_STEP
  | SYNC_TS_LO | SYNC_TS_HI | SYNC_STAT | CHIP_OFFSET | SKEW_CAL | TRIG_LAT
  | TRIG_CFG | TRIG_COMP | TRIG_FIRE_LO | TRIG_FIRE_HI | TRIG_REP | TRIG_ARR_LO
  | TRIG_ARR_HI | TRIG_STAT | TRIG_ACC_BASE_LO | TRIG_ACC_BASE_HI | TRIG_ACC_CTRL | TRIG_ACC_SUM
  | TRIG_ACC_CNT | TSET_PER | SITE_TCTRL | SITE_TSTART_LO | SITE_TSTART_HI | SITE_TSTAT
  | THM_STAT | THM_LIMIT_WARN | THM_LIMIT_THR | THM_LIMIT_SHUT | THM_BROKEN_LO | THM_BROKEN_HI
  | THM_THR | THM_THR_MS | THM_TMAX | THM_LOG_STAT | THM_LOG_SEQ | THM_SHUT_REC
  | THM_BAND | THM_BAND_CNT | THM_TEMP | FLT_STAT | FLT_SUM | FLT_ACK
  | FLT_TMO | FLT_LOG_WR | FLT_INJ | FLT_REACT | SEC_STAT | SEC_FUSE_STAT
  | SEC_RB_COMMIT | SEC_LC_REQ | SEC_PROV_CMD | SEC_WIPE | SEC_TAMPER_CFG | SEC_PROV_DATA
  | SEC_DBG_NONCE | SEC_DBG_TOKEN | SEC_DBG_CTRL | SEC_ROM_VER | SEC_FW_VER | CSP_CFG
  | CSP_LEN | CSP_CTRL | CSP_STAT | CSP_ALIVE | CSP_TX | CSP_RX
  | GPIO_OUT | GPIO_OE | GPIO_IN | GPIO_FUNC | MBX_HOST_RX | MBX_HOST_RXEP
  | MBX_HOST_TX | MBX_HOST_STAT | MBX_HOST_FLUSH | MBX_HOST_DB | MBX_EPOCH | EVT_STAT
  | EVT_LOST | CMDQ_STAT | MBX_ENG_TX | MBX_ENG_RX | MBX_ENG_STAT | MBX_ENG_DB
  | SEM_ACQ | SEM_PEEK | SEM_FORCE | SEM_CONTEST | SPD_STAT | SPD_COLL_ADDR
  | SPD_WIPES | SPD_REPAIR | STL_CTRL | STL_STAT | STL_STEALS_LO | STL_STEALS_HI
  | STL_FULL | IRQ_ROUTE | IRQ_PEND | IRQ_SWSET | IRQ_ENG_LOST | FAB_NODE
  | FAB_SID_LO | FAB_SID_HI | FAB_CTRL | FAB_DROP | FAB_DROP2 | FAB_CONFLICT
  | PORCH_CTRL | PORCH_STAT | PORCH_PSID_LO | PORCH_PSID_HI | PORCH_SEQ | PORCH_RETRY
  | PORCH_FEC_LO | PORCH_FEC_HI | PORCH_ERR | PORCH_FILL | PORCH_EVENTS | PORCH_LOST
  | PORCH_FLITS_LO | PORCH_FLITS_HI | FAB_RT | FAB_MC | CFG_STAT | CFG_VERSION
  | CFG_ROLLBACK | CFG_DIR_GEN | TRIM_STAT | CONTACT_CTL | LVL_LOAD_STAT | MODE_STAT
  | MODE_ENTRY_LO | MODE_ENTRY_HI | CFG_PART_ID | CEL_CFG | CEL_TOP_LO | CEL_TOP_HI
  | CEL_ECC_CORR | CEL_ECC_UNCORR | CEL_ECC_ADDR_LO | CEL_ECC_ADDR_HI | CEL_SCRUB | CEL_CLS_BYTES_LO
  | CEL_CLS_BYTES_HI | CEL_CLS_HELD | SEQ_STAB_COUNT | SEQ_ERR | SEQ_START | SEQ_CUR
  | SEQ_PASS | SEQ_JUMP_REQ | SEQ_UNDERRUN | SEQ_SSTAT | SEQ_VEC_LO | SEQ_VEC_HI
  | SEQ_STALL_LO | SEQ_STALL_HI | SEQ_REFETCH | SEQ_MARK | SEQ_START_TMO | SMUW_CUR
  | SMUW_JUMP_REQ | SITE_STATE | SITE_CMD | SITE_BIN | SITE_RUN | SITE_TAG_LO
  | SITE_TAG_HI | SITE_FAILVEC | SITE_FSIG | SITE_FAILSTORED | SITE_REC_WR_LO | SITE_REC_WR_HI
  | SITE_REC_LOST | SITE_TASKS | PAN_CTRL | PAN_PIN_LIMIT | PAN_STAT | PAN_UNDERRUN
  | PAN_DECODE_ERR | PAN_EVICT | PAN_INVAL | PAN_OVERBUDGET | ACQ_CFG | ACQ_CTRL
  | ACQ_PRE | ACQ_POST | ACQ_BUF_LO | ACQ_BUF_HI | ACQ_LEVEL | ACQ_HYST
  | ACQ_TTIME_LO | ACQ_TTIME_HI | ACQ_STAT | ACQ_TRIG_TS_LO | ACQ_TRIG_TS_HI | ACQ_WR_IDX
  | ACQ_COUNT | ACQ_FIRST_IDX | CH_CTRL | CH_STAT | CH_VIH0 | CH_VIL0
  | CH_VOH0 | CH_VOL0 | CH_VT0 | CH_VIH1 | CH_VIL1 | CH_VOH1
  | CH_VOL1 | CH_VT1 | CH_FAILCNT | CH_FIRSTFAIL_LO | CH_FIRSTFAIL_HI | PMU_CTRL
  | PMU_FORCE | PMU_VCLAMP | PMU_ICLAMP | PMU_RESULT | CH_DSK | TS_EDGE
  | DPS_CTRL | DPS_VSET | DPS_ILIM | DPS_EXT_SHUNT | DPS_STAT | DPS_MON_V
  | DPS_MON_I | DPS_MEAS | DPS_RES_V | DPS_RES_I | DPS_RES_STAT | DPS_OUT
  | SMU_CTRL | SMU_SET | SMU_ICOMP | SMU_VCOMP | SMU_STAT | SMU_SINE_FREQ
  | SMU_SINE_AMPL | SMU_SINE_PHASE0 | SMU_SUP | SMU_MON_V | SMU_MON_I | SMU_RB
  | SMU_MEAS | SMU_RES_V | SMU_RES_I | SMU_RES_STAT | TDC_CTRL | TDC_CFG
  | TDC_THR | TDC_AUX | TDC_GATE | TDC_RING_BASE_LO | TDC_RING_BASE_HI | TDC_RING_SIZE
  | TDC_STAT | TDC_ACC_LO | TDC_ACC_HI | TDC_CNT_A | TDC_CNT_B | TDC_DROP
  | TDC_DEAD | TDC_CALOLD | TDC_NVAL | TDC_MIN | TDC_MAX | TDC_SUM_LO
  | TDC_SUM_HI | TDC_LAST_LO | TDC_LAST_HI | TDC_WR_LO | TDC_WR_HI | TDC_DSK
  | MON_CTRL | MON_HI | MON_LO | MON_HYST | MON_PERIOD | MON_STAT
  | MON_COUNT | MON_TRIP_TS_LO | MON_TRIP_TS_HI | MON_TILE_LATCH | TCAL_OWN_LO | TCAL_OWN_HI
  | TCAL_OWN_UNIT | TCAL_PEND_LO | TCAL_PEND_HI | TCAL_PEND_UNIT | TCAL_STAT | TCAL_TJ
  | TCAL_GEN | TPH_STAT | TPH_CORR | ENG_CTRL | ENG_STAT | ENG_TMASK
  | ENG_GO | ENG_REFUSE | ENG_MEMERR | ENG_MEMERR_ADDR | ENG_HALT | ENG_CEL_BASE_LO
  | ENG_CEL_BASE_HI | ENG_ABORT_TMO | ENG_CS_STAT
  deriving DecidableEq, Repr

/-- The access types of R5. -/
inductive Access where
  | rw | ro | wo | w1c | w1s | rc | ra
  deriving DecidableEq, Repr

/-- What a warm reset does to a field (the Warm column, R6).  `hold` survives; `safe` survives
unless RST_CTRL.SAFE_ON_WARM was 1, then reads 0; `to v` takes the value v; `special` is set by
the reset operation from a rule of its own. -/
inductive Warm where
  | hold | safe | to (v : Nat) | special
  deriving DecidableEq, Repr

/-- One field of a register: its number in this model's table, its
lowest bit and width, its access type, its Cold value, its Warm rule, and whether a BOR keeps it
("hold after BOR" in the Cold column). -/
structure Field where
  id : Fin 2048
  lo : Nat
  width : Nat
  acc : Access
  cold : Nat
  warm : Warm
  borHold : Bool
  deriving DecidableEq, Repr

end Sys2Proof.Machine
end

