-- ==== Sys2Proof/Machine/Fields.lean ====
section
/-!
DEFINITION. Every field of every register, as the field tables of the chapters give it (R5, R6):
position, width, access type, Cold and Warm.  A Cold or Warm entry that is not a number is given by
the reset operations (Machine/Resets.lean) from the rule it names.
-/

namespace Sys2Proof.Machine

/-! Block RST. -/
/-- RST_CTRL.SAFE_ON_WARM [0:0] RW, 03_bringup.md. -/
def F.RST_CTRL_SAFE_ON_WARM : Field := ⟨0, 0, 1, .rw, 0, .hold, false⟩
/-- RST_CTRL.LOCKUP_EN [1:1] RW, 03_bringup.md. -/
def F.RST_CTRL_LOCKUP_EN : Field := ⟨1, 1, 1, .rw, 1, .hold, false⟩
/-- RST_CTRL.DBG_HALT [2:2] RW, 03_bringup.md. -/
def F.RST_CTRL_DBG_HALT : Field := ⟨2, 2, 1, .rw, 0, .hold, false⟩
/-- RST_SOFT.WARM [0:0] WO, 03_bringup.md. -/
def F.RST_SOFT_WARM : Field := ⟨3, 0, 1, .wo, 0, (.to 0), false⟩
/-- RST_SOFT.KEY [31:16] WO, 03_bringup.md. -/
def F.RST_SOFT_KEY : Field := ⟨4, 16, 16, .wo, 0, (.to 0), false⟩
/-- RST_CAUSE.POR [0:0] W1C, 03_bringup.md. -/
def F.RST_CAUSE_POR : Field := ⟨5, 0, 1, .w1c, 1, .hold, true⟩
/-- RST_CAUSE.BOR [1:1] W1C, 03_bringup.md. -/
def F.RST_CAUSE_BOR : Field := ⟨6, 1, 1, .w1c, 0, .hold, false⟩
/-- RST_CAUSE.PIN [2:2] W1C, 03_bringup.md. -/
def F.RST_CAUSE_PIN : Field := ⟨7, 2, 1, .w1c, 0, .special, true⟩
/-- RST_CAUSE.WDOG [3:3] W1C, 03_bringup.md. -/
def F.RST_CAUSE_WDOG : Field := ⟨8, 3, 1, .w1c, 0, .special, true⟩
/-- RST_CAUSE.SOFT [4:4] W1C, 03_bringup.md. -/
def F.RST_CAUSE_SOFT : Field := ⟨9, 4, 1, .w1c, 0, .special, true⟩
/-- RST_CAUSE.DEBUG [5:5] W1C, 03_bringup.md. -/
def F.RST_CAUSE_DEBUG : Field := ⟨10, 5, 1, .w1c, 0, .special, true⟩
/-- RST_CAUSE.CLKFAIL [6:6] W1C, 03_bringup.md. -/
def F.RST_CAUSE_CLKFAIL : Field := ⟨11, 6, 1, .w1c, 0, .special, true⟩
/-- RST_CAUSE.LOCKUP [7:7] W1C, 03_bringup.md. -/
def F.RST_CAUSE_LOCKUP : Field := ⟨12, 7, 1, .w1c, 0, .special, true⟩
/-- RST_WARM_COUNT.COUNT [15:0] RO, 03_bringup.md. -/
def F.RST_WARM_COUNT_COUNT : Field := ⟨13, 0, 16, .ro, 0, .special, true⟩
/-- RST_WDOG_CTL.EN [0:0] RW, 03_bringup.md. -/
def F.RST_WDOG_CTL_EN : Field := ⟨14, 0, 1, .rw, 0, (.to 0), false⟩
/-- RST_WDOG_CTL.TIMEOUT_MS [31:16] RW, 03_bringup.md. -/
def F.RST_WDOG_CTL_TIMEOUT_MS : Field := ⟨15, 16, 16, .rw, 1000, (.to 1000), false⟩
/-- RST_WDOG_KICK.KICK [15:0] WO, 03_bringup.md. -/
def F.RST_WDOG_KICK_KICK : Field := ⟨16, 0, 16, .wo, 0, (.to 0), false⟩
/-- BOOT_ATTEMPT.FAILS [1:0] RO, 03_bringup.md. -/
def F.BOOT_ATTEMPT_FAILS : Field := ⟨17, 0, 2, .ro, 0, .hold, true⟩
/-- BOOT_ATTEMPT.SLOT [2:2] RO, 03_bringup.md. -/
def F.BOOT_ATTEMPT_SLOT : Field := ⟨18, 2, 1, .ro, 0, .hold, false⟩
/-- BOOT_ATTEMPT.FROM_FLASH [3:3] RO, 03_bringup.md. -/
def F.BOOT_ATTEMPT_FROM_FLASH : Field := ⟨19, 3, 1, .ro, 0, (.to 0), true⟩
/-- BOOT_ATTEMPT.LAST_CODE [15:8] RO, 03_bringup.md. -/
def F.BOOT_ATTEMPT_LAST_CODE : Field := ⟨20, 8, 8, .ro, 0, .hold, true⟩
/-- BOOT_REASON.CODE [7:0] RO, 03_bringup.md. -/
def F.BOOT_REASON_CODE : Field := ⟨21, 0, 8, .ro, 0, (.to 0), false⟩
/-- BOOT_REASON.OUTCOME [10:8] RO, 03_bringup.md. -/
def F.BOOT_REASON_OUTCOME : Field := ⟨22, 8, 3, .ro, 0, (.to 0), false⟩
/-- BOOT_REASON.SLOT [11:11] RO, 03_bringup.md. -/
def F.BOOT_REASON_SLOT : Field := ⟨23, 11, 1, .ro, 0, (.to 0), false⟩
/-- BOOT_REASON.CELLAR_LOST [12:12] RO, 03_bringup.md. -/
def F.BOOT_REASON_CELLAR_LOST : Field := ⟨24, 12, 1, .ro, 1, .special, false⟩
/-- BOOT_REASON.TRIM_RETRY [13:13] RO, 03_bringup.md. -/
def F.BOOT_REASON_TRIM_RETRY : Field := ⟨25, 13, 1, .ro, 0, (.to 0), false⟩
/-- BOOT_REASON.FLASH_WR_SKIP [14:14] RO, 03_bringup.md. -/
def F.BOOT_REASON_FLASH_WR_SKIP : Field := ⟨26, 14, 1, .ro, 0, (.to 0), false⟩
/-- BOOT_REASON.STEP [19:16] RO, 03_bringup.md. -/
def F.BOOT_REASON_STEP : Field := ⟨27, 16, 4, .ro, 0, (.to 0), false⟩
/-- BOOT_TIME.TIME_US [31:0] RO, 03_bringup.md. -/
def F.BOOT_TIME_TIME_US : Field := ⟨28, 0, 32, .ro, 0, (.to 0), false⟩
/-- WARM_HELD_LO.HELD [31:0] W1C, 03_bringup.md. -/
def F.WARM_HELD_LO_HELD : Field := ⟨29, 0, 32, .w1c, 0, .special, false⟩
/-- WARM_HELD_HI.HELD [31:0] W1C, 03_bringup.md. -/
def F.WARM_HELD_HI_HELD : Field := ⟨30, 0, 32, .w1c, 0, .special, false⟩
/-! Block CLK. -/
/-- TB_CTRL.SYNC_MODE [1:0] RW, 06_timing.md. -/
def F.TB_CTRL_SYNC_MODE : Field := ⟨31, 0, 2, .rw, 0, .hold, false⟩
/-- TB_LO.TB_LO [31:0] RO, 06_timing.md. -/
def F.TB_LO_TB_LO : Field := ⟨32, 0, 32, .ro, 0, .hold, false⟩
/-- TB_HI.TB_HI [31:0] RO, 06_timing.md. -/
def F.TB_HI_TB_HI : Field := ⟨33, 0, 32, .ro, 0, .hold, false⟩
/-- TB_EPOCH.EPOCH [15:0] RO, 06_timing.md. -/
def F.TB_EPOCH_EPOCH : Field := ⟨34, 0, 16, .ro, 0, .hold, false⟩
/-- SYNC_LOAD_LO.LOAD_LO [31:0] RW, 06_timing.md. -/
def F.SYNC_LOAD_LO_LOAD_LO : Field := ⟨35, 0, 32, .rw, 0, .hold, false⟩
/-- SYNC_LOAD_HI.LOAD_HI [19:0] RW, 06_timing.md. -/
def F.SYNC_LOAD_HI_LOAD_HI : Field := ⟨36, 0, 20, .rw, 0, .hold, false⟩
/-- SYNC_STEP.STEP [31:0] RW, 06_timing.md. -/
def F.SYNC_STEP_STEP : Field := ⟨37, 0, 32, .rw, 0, .hold, false⟩
/-- SYNC_TS_LO.TS_LO [31:0] RO, 06_timing.md. -/
def F.SYNC_TS_LO_TS_LO : Field := ⟨38, 0, 32, .ro, 0, .hold, false⟩
/-- SYNC_TS_HI.TS_HI [31:0] RO, 06_timing.md. -/
def F.SYNC_TS_HI_TS_HI : Field := ⟨39, 0, 32, .ro, 0, .hold, false⟩
/-- SYNC_STAT.COUNT [15:0] RO, 06_timing.md. -/
def F.SYNC_STAT_COUNT : Field := ⟨40, 0, 16, .ro, 0, .hold, false⟩
/-- SYNC_STAT.LOADED [16:16] W1C, 06_timing.md. -/
def F.SYNC_STAT_LOADED : Field := ⟨41, 16, 1, .w1c, 0, .hold, false⟩
/-- SYNC_STAT.SLIP [17:17] W1C, 06_timing.md. -/
def F.SYNC_STAT_SLIP : Field := ⟨42, 17, 1, .w1c, 0, .hold, false⟩
/-- SYNC_STAT.IGNORED [18:18] W1C, 06_timing.md. -/
def F.SYNC_STAT_IGNORED : Field := ⟨43, 18, 1, .w1c, 0, .hold, false⟩
/-- SYNC_STAT.UNSYNCED [19:19] RO, 06_timing.md. -/
def F.SYNC_STAT_UNSYNCED : Field := ⟨44, 19, 1, .ro, 1, .special, false⟩
/-- SYNC_STAT.REF_LOST [20:20] W1C, 06_timing.md. -/
def F.SYNC_STAT_REF_LOST : Field := ⟨45, 20, 1, .w1c, 0, .special, false⟩
/-- CHIP_OFFSET.OFFSET [23:0] RW, 06_timing.md. -/
def F.CHIP_OFFSET_OFFSET : Field := ⟨46, 0, 24, .rw, 0, .hold, false⟩
/-- SKEW_CAL.TJ [7:0] RO, 06_timing.md. -/
def F.SKEW_CAL_TJ : Field := ⟨47, 0, 8, .ro, 0, .hold, false⟩
/-- SKEW_CAL.DRIFT [8:8] RO, 06_timing.md. -/
def F.SKEW_CAL_DRIFT : Field := ⟨48, 8, 1, .ro, 0, .special, false⟩
/-- TRIG_LAT.CYCLES [11:0] RW, 06_timing.md. -/
def F.TRIG_LAT_CYCLES : Field := ⟨49, 0, 12, .rw, 150, .hold, false⟩
/-- TRIG_CFG.OUT_EN [0:0] RW, 06_timing.md. -/
def F.TRIG_CFG_OUT_EN : Field := ⟨50, 0, 1, .rw, 0, .hold, false⟩
/-- TRIG_CFG.ACT_EN [1:1] RW, 06_timing.md. -/
def F.TRIG_CFG_ACT_EN : Field := ⟨51, 1, 1, .rw, 0, .hold, false⟩
/-- TRIG_COMP.COMP [23:0] RW, 06_timing.md. -/
def F.TRIG_COMP_COMP : Field := ⟨52, 0, 24, .rw, 0, .hold, false⟩
/-- TRIG_FIRE_LO.F_LO [31:0] RW, 06_timing.md. -/
def F.TRIG_FIRE_LO_F_LO : Field := ⟨53, 0, 32, .rw, 0, (.to 0), false⟩
/-- TRIG_FIRE_HI.F_HI [31:0] RW, 06_timing.md. -/
def F.TRIG_FIRE_HI_F_HI : Field := ⟨54, 0, 32, .rw, 0, (.to 0), false⟩
/-- TRIG_REP.COUNT [15:0] RW, 06_timing.md. -/
def F.TRIG_REP_COUNT : Field := ⟨55, 0, 16, .rw, 0, .hold, false⟩
/-- TRIG_REP.INTERVAL [31:16] RW, 06_timing.md. -/
def F.TRIG_REP_INTERVAL : Field := ⟨56, 16, 16, .rw, 90, .hold, false⟩
/-- TRIG_ARR_LO.A_LO [31:0] RO, 06_timing.md. -/
def F.TRIG_ARR_LO_A_LO : Field := ⟨57, 0, 32, .ro, 0, .hold, false⟩
/-- TRIG_ARR_HI.A_HI [31:0] RO, 06_timing.md. -/
def F.TRIG_ARR_HI_A_HI : Field := ⟨58, 0, 32, .ro, 0, .hold, false⟩
/-- TRIG_STAT.ARR_COUNT [15:0] RO, 06_timing.md. -/
def F.TRIG_STAT_ARR_COUNT : Field := ⟨59, 0, 16, .ro, 0, .hold, false⟩
/-- TRIG_STAT.FIRE_LATE [16:16] W1C, 06_timing.md. -/
def F.TRIG_STAT_FIRE_LATE : Field := ⟨60, 16, 1, .w1c, 0, .hold, false⟩
/-- TRIG_STAT.ACT_LATE [17:17] W1C, 06_timing.md. -/
def F.TRIG_STAT_ACT_LATE : Field := ⟨61, 17, 1, .w1c, 0, .hold, false⟩
/-- TRIG_STAT.OVERRUN [18:18] W1C, 06_timing.md. -/
def F.TRIG_STAT_OVERRUN : Field := ⟨62, 18, 1, .w1c, 0, .hold, false⟩
/-- TRIG_STAT.ARMED [19:19] RO, 06_timing.md. -/
def F.TRIG_STAT_ARMED : Field := ⟨63, 19, 1, .ro, 0, (.to 0), false⟩
/-- TRIG_ACC_BASE_LO.B_LO [31:0] RW, 06_timing.md. -/
def F.TRIG_ACC_BASE_LO_B_LO : Field := ⟨64, 0, 32, .rw, 0, .hold, false⟩
/-- TRIG_ACC_BASE_HI.B_HI [31:0] RW, 06_timing.md. -/
def F.TRIG_ACC_BASE_HI_B_HI : Field := ⟨65, 0, 32, .rw, 0, .hold, false⟩
/-- TRIG_ACC_CTRL.EN [0:0] RW, 06_timing.md. -/
def F.TRIG_ACC_CTRL_EN : Field := ⟨66, 0, 1, .rw, 0, (.to 0), false⟩
/-- TRIG_ACC_CTRL.WIN [15:8] RW, 06_timing.md. -/
def F.TRIG_ACC_CTRL_WIN : Field := ⟨67, 8, 8, .rw, 20, .hold, false⟩
/-- TRIG_ACC_CTRL.STEP [31:16] RW, 06_timing.md. -/
def F.TRIG_ACC_CTRL_STEP : Field := ⟨68, 16, 16, .rw, 90, .hold, false⟩
/-- TRIG_ACC_SUM.SUM [31:0] RO, 06_timing.md. -/
def F.TRIG_ACC_SUM_SUM : Field := ⟨69, 0, 32, .ro, 0, .hold, false⟩
/-- TRIG_ACC_CNT.CNT [15:0] RO, 06_timing.md. -/
def F.TRIG_ACC_CNT_CNT : Field := ⟨70, 0, 16, .ro, 0, .hold, false⟩
/-- TRIG_ACC_CNT.SAT [16:16] W1C, 06_timing.md. -/
def F.TRIG_ACC_CNT_SAT : Field := ⟨71, 16, 1, .w1c, 0, .hold, false⟩
/-- TSET_PER.CYC_M1 [19:0] RW, 06_timing.md. -/
def F.TSET_PER_CYC_M1 : Field := ⟨72, 0, 20, .rw, 1499, .hold, false⟩
/-- TSET_PER.FINE [29:20] RW, 06_timing.md. -/
def F.TSET_PER_FINE : Field := ⟨73, 20, 10, .rw, 0, .hold, false⟩
/-- SITE_TCTRL.TSET [3:0] RW, 06_timing.md. -/
def F.SITE_TCTRL_TSET : Field := ⟨74, 0, 4, .rw, 0, .hold, false⟩
/-- SITE_TCTRL.ACTIVE [7:4] RO, 06_timing.md. -/
def F.SITE_TCTRL_ACTIVE : Field := ⟨75, 4, 4, .ro, 0, (.to 0), false⟩
/-- SITE_TCTRL.START_SRC [9:8] RW, 06_timing.md. -/
def F.SITE_TCTRL_START_SRC : Field := ⟨76, 8, 2, .rw, 0, .hold, false⟩
/-- SITE_TCTRL.TRIG_LINE [12:10] RW, 06_timing.md. -/
def F.SITE_TCTRL_TRIG_LINE : Field := ⟨77, 10, 3, .rw, 0, .hold, false⟩
/-- SITE_TSTART_LO.T_LO [31:0] RW, 06_timing.md. -/
def F.SITE_TSTART_LO_T_LO : Field := ⟨78, 0, 32, .rw, 0, .hold, false⟩
/-- SITE_TSTART_HI.T_HI [31:0] RW, 06_timing.md. -/
def F.SITE_TSTART_HI_T_HI : Field := ⟨79, 0, 32, .rw, 0, .hold, false⟩
/-- SITE_TSTAT.EDGE_RANGE [0:0] W1C, 06_timing.md. -/
def F.SITE_TSTAT_EDGE_RANGE : Field := ⟨80, 0, 1, .w1c, 0, (.to 0), false⟩
/-- SITE_TSTAT.EDGE_ORDER [1:1] W1C, 06_timing.md. -/
def F.SITE_TSTAT_EDGE_ORDER : Field := ⟨81, 1, 1, .w1c, 0, (.to 0), false⟩
/-- SITE_TSTAT.TIMED_LATE [2:2] W1C, 06_timing.md. -/
def F.SITE_TSTAT_TIMED_LATE : Field := ⟨82, 2, 1, .w1c, 0, (.to 0), false⟩
/-- SITE_TSTAT.TSET_COLL [3:3] W1C, 06_timing.md. -/
def F.SITE_TSTAT_TSET_COLL : Field := ⟨83, 3, 1, .w1c, 0, (.to 0), false⟩
/-- SITE_TSTAT.PER_CLAMP [4:4] W1C, 06_timing.md. -/
def F.SITE_TSTAT_PER_CLAMP : Field := ⟨84, 4, 1, .w1c, 0, (.to 0), false⟩
/-- SITE_TSTAT.WAIT_START [5:5] RO, 06_timing.md. -/
def F.SITE_TSTAT_WAIT_START : Field := ⟨85, 5, 1, .ro, 0, (.to 0), false⟩
/-- SITE_TSTAT.RESTARTS [31:16] RO, 06_timing.md. -/
def F.SITE_TSTAT_RESTARTS : Field := ⟨86, 16, 16, .ro, 0, (.to 0), false⟩
/-! Block THM. -/
/-- THM_STAT.TJ [15:0] RO, 19_thermal_faults.md. -/
def F.THM_STAT_TJ : Field := ⟨87, 0, 16, .ro, 0, .special, false⟩
/-- THM_STAT.WARN [16:16] RO, 19_thermal_faults.md. -/
def F.THM_STAT_WARN : Field := ⟨88, 16, 1, .ro, 0, .special, false⟩
/-- THM_STAT.THROTTLE [17:17] RO, 19_thermal_faults.md. -/
def F.THM_STAT_THROTTLE : Field := ⟨89, 17, 1, .ro, 0, .special, false⟩
/-- THM_STAT.FAST [18:18] RO, 19_thermal_faults.md. -/
def F.THM_STAT_FAST : Field := ⟨90, 18, 1, .ro, 0, .special, false⟩
/-- THM_STAT.BROKEN_ANY [19:19] RO, 19_thermal_faults.md. -/
def F.THM_STAT_BROKEN_ANY : Field := ⟨91, 19, 1, .ro, 0, .hold, false⟩
/-- THM_STAT.TILE_OFF [27:20] RO, 19_thermal_faults.md. -/
def F.THM_STAT_TILE_OFF : Field := ⟨92, 20, 8, .ro, 0, .hold, false⟩
/-- THM_LIMIT_WARN.SET [15:0] RO, 19_thermal_faults.md. -/
def F.THM_LIMIT_WARN_SET : Field := ⟨93, 0, 16, .ro, 380, .hold, false⟩
/-- THM_LIMIT_WARN.CLEAR [31:16] RO, 19_thermal_faults.md. -/
def F.THM_LIMIT_WARN_CLEAR : Field := ⟨94, 16, 16, .ro, 360, .hold, false⟩
/-- THM_LIMIT_THR.SET [15:0] RO, 19_thermal_faults.md. -/
def F.THM_LIMIT_THR_SET : Field := ⟨95, 0, 16, .ro, 420, .hold, false⟩
/-- THM_LIMIT_THR.CLEAR [31:16] RO, 19_thermal_faults.md. -/
def F.THM_LIMIT_THR_CLEAR : Field := ⟨96, 16, 16, .ro, 400, .hold, false⟩
/-- THM_LIMIT_SHUT.SET [15:0] RO, 19_thermal_faults.md. -/
def F.THM_LIMIT_SHUT_SET : Field := ⟨97, 0, 16, .ro, 480, .hold, false⟩
/-- THM_LIMIT_SHUT.CLEAR [31:16] RO, 19_thermal_faults.md. -/
def F.THM_LIMIT_SHUT_CLEAR : Field := ⟨98, 16, 16, .ro, 460, .hold, false⟩
/-- THM_BROKEN_LO.SENS [31:0] RO, 19_thermal_faults.md. -/
def F.THM_BROKEN_LO_SENS : Field := ⟨99, 0, 32, .ro, 0, .hold, false⟩
/-- THM_BROKEN_HI.SENS [7:0] RO, 19_thermal_faults.md. -/
def F.THM_BROKEN_HI_SENS : Field := ⟨100, 0, 8, .ro, 0, .hold, false⟩
/-- THM_THR.EPISODES [15:0] RO, 19_thermal_faults.md. -/
def F.THM_THR_EPISODES : Field := ⟨101, 0, 16, .ro, 0, .hold, false⟩
/-- THM_THR_MS.MS [31:0] RO, 19_thermal_faults.md. -/
def F.THM_THR_MS_MS : Field := ⟨102, 0, 32, .ro, 0, .hold, false⟩
/-- THM_TMAX.MAX [15:0] RO, 19_thermal_faults.md. -/
def F.THM_TMAX_MAX : Field := ⟨103, 0, 16, .ro, 0, .hold, false⟩
/-- THM_LOG_STAT.REC_VALID [0:0] RO, 19_thermal_faults.md. -/
def F.THM_LOG_STAT_REC_VALID : Field := ⟨104, 0, 1, .ro, 0, .hold, true⟩
/-- THM_LOG_STAT.COMMIT_PEND [1:1] RO, 19_thermal_faults.md. -/
def F.THM_LOG_STAT_COMMIT_PEND : Field := ⟨105, 1, 1, .ro, 0, (.to 0), false⟩
/-- THM_LOG_STAT.ERASE_SKIP [2:2] W1C, 19_thermal_faults.md. -/
def F.THM_LOG_STAT_ERASE_SKIP : Field := ⟨106, 2, 1, .w1c, 0, (.to 0), false⟩
/-- THM_LOG_STAT.HOLD_EXIT [3:3] RO, 19_thermal_faults.md. -/
def F.THM_LOG_STAT_HOLD_EXIT : Field := ⟨107, 3, 1, .ro, 0, .hold, true⟩
/-- THM_LOG_STAT.FREE [15:8] RO, 19_thermal_faults.md. -/
def F.THM_LOG_STAT_FREE : Field := ⟨108, 8, 8, .ro, 0, (.to 0), false⟩
/-- THM_LOG_STAT.SKIPPED [31:16] RO, 19_thermal_faults.md. -/
def F.THM_LOG_STAT_SKIPPED : Field := ⟨109, 16, 16, .ro, 0, .hold, false⟩
/-- THM_LOG_SEQ.SEQ [31:0] RO, 19_thermal_faults.md. -/
def F.THM_LOG_SEQ_SEQ : Field := ⟨110, 0, 32, .ro, 0, (.to 0), false⟩
/-- THM_SHUT_REC.BYTES [31:0] RO, 19_thermal_faults.md. -/
def F.THM_SHUT_REC_BYTES : Field := ⟨111, 0, 32, .ro, 0, .hold, true⟩
/-- THM_BAND.CEL [1:0] RO, 14_calibration.md. -/
def F.THM_BAND_CEL : Field := ⟨112, 0, 2, .ro, 0, .special, false⟩
/-- THM_BAND.CEL_MR [2:2] RO, 14_calibration.md. -/
def F.THM_BAND_CEL_MR : Field := ⟨113, 2, 1, .ro, 0, .special, false⟩
/-- THM_BAND.LANE [5:4] RO, 14_calibration.md. -/
def F.THM_BAND_LANE : Field := ⟨114, 4, 2, .ro, 0, .special, false⟩
/-- THM_BAND.TDC [31:16] RO, 14_calibration.md. -/
def F.THM_BAND_TDC : Field := ⟨115, 16, 16, .ro, 0, .special, false⟩
/-- THM_BAND_CNT.COUNT [31:0] RO, 14_calibration.md. -/
def F.THM_BAND_CNT_COUNT : Field := ⟨116, 0, 32, .ro, 0, .hold, false⟩
/-- THM_TEMP.READING [15:0] RO, 19_thermal_faults.md. -/
def F.THM_TEMP_READING : Field := ⟨117, 0, 16, .ro, 0, .special, false⟩
/-- THM_TEMP.BROKEN [16:16] RO, 19_thermal_faults.md. -/
def F.THM_TEMP_BROKEN : Field := ⟨118, 16, 1, .ro, 0, .hold, false⟩
/-- THM_TEMP.CAUSE [18:17] RO, 19_thermal_faults.md. -/
def F.THM_TEMP_CAUSE : Field := ⟨119, 17, 2, .ro, 0, .hold, false⟩
/-- THM_TEMP.FORCED [19:19] RO, 19_thermal_faults.md. -/
def F.THM_TEMP_FORCED : Field := ⟨120, 19, 1, .ro, 0, .special, false⟩
/-! Block FLT. -/
/-- FLT_STAT.STICKY [31:0] W1C, 19_thermal_faults.md. -/
def F.FLT_STAT_STICKY : Field := ⟨121, 0, 32, .w1c, 0, .hold, false⟩
/-- FLT_SUM.ACTIVE [6:0] RO, 19_thermal_faults.md. -/
def F.FLT_SUM_ACTIVE : Field := ⟨122, 0, 7, .ro, 0, (.to 0), false⟩
/-- FLT_SUM.BUSY [7:7] RO, 19_thermal_faults.md. -/
def F.FLT_SUM_BUSY : Field := ⟨123, 7, 1, .ro, 0, (.to 0), false⟩
/-- FLT_SUM.MERGED [15:8] RO, 19_thermal_faults.md. -/
def F.FLT_SUM_MERGED : Field := ⟨124, 8, 8, .ro, 0, (.to 0), false⟩
/-- FLT_SUM.ESCALATED [16:16] RO, 19_thermal_faults.md. -/
def F.FLT_SUM_ESCALATED : Field := ⟨125, 16, 1, .ro, 0, (.to 0), false⟩
/-- FLT_SUM.FAULT_N [17:17] RO, 19_thermal_faults.md. -/
def F.FLT_SUM_FAULT_N : Field := ⟨126, 17, 1, .ro, 0, .special, false⟩
/-- FLT_ACK.SOURCE [6:0] WO, 19_thermal_faults.md. -/
def F.FLT_ACK_SOURCE : Field := ⟨127, 0, 7, .wo, 0, (.to 0), false⟩
/-- FLT_TMO.MS [15:0] RW, 19_thermal_faults.md. -/
def F.FLT_TMO_MS : Field := ⟨128, 0, 16, .rw, 10, .hold, false⟩
/-- FLT_LOG_WR.COUNT [31:0] RO, 19_thermal_faults.md. -/
def F.FLT_LOG_WR_COUNT : Field := ⟨129, 0, 32, .ro, 0, .hold, false⟩
/-- FLT_INJ.SOURCE [6:0] WO, 19_thermal_faults.md. -/
def F.FLT_INJ_SOURCE : Field := ⟨130, 0, 7, .wo, 0, (.to 0), false⟩
/-- FLT_INJ.UNIT [15:8] WO, 19_thermal_faults.md. -/
def F.FLT_INJ_UNIT : Field := ⟨131, 8, 8, .wo, 0, (.to 0), false⟩
/-- FLT_INJ.GO [16:16] WO, 19_thermal_faults.md. -/
def F.FLT_INJ_GO : Field := ⟨132, 16, 1, .wo, 0, (.to 0), false⟩
/-- FLT_REACT.REACT0 [2:0] RW, 19_thermal_faults.md. -/
def F.FLT_REACT_REACT0 : Field := ⟨133, 0, 3, .rw, 0, .hold, false⟩
/-- FLT_REACT.ESC0 [6:4] RW, 19_thermal_faults.md. -/
def F.FLT_REACT_ESC0 : Field := ⟨134, 4, 3, .rw, 0, .hold, false⟩
/-- FLT_REACT.REACT1 [10:8] RW, 19_thermal_faults.md. -/
def F.FLT_REACT_REACT1 : Field := ⟨135, 8, 3, .rw, 0, .hold, false⟩
/-- FLT_REACT.ESC1 [14:12] RW, 19_thermal_faults.md. -/
def F.FLT_REACT_ESC1 : Field := ⟨136, 12, 3, .rw, 0, .hold, false⟩
/-- FLT_REACT.REACT2 [18:16] RW, 19_thermal_faults.md. -/
def F.FLT_REACT_REACT2 : Field := ⟨137, 16, 3, .rw, 0, .hold, false⟩
/-- FLT_REACT.ESC2 [22:20] RW, 19_thermal_faults.md. -/
def F.FLT_REACT_ESC2 : Field := ⟨138, 20, 3, .rw, 0, .hold, false⟩
/-- FLT_REACT.REACT3 [26:24] RW, 19_thermal_faults.md. -/
def F.FLT_REACT_REACT3 : Field := ⟨139, 24, 3, .rw, 0, .hold, false⟩
/-- FLT_REACT.ESC3 [30:28] RW, 19_thermal_faults.md. -/
def F.FLT_REACT_ESC3 : Field := ⟨140, 28, 3, .rw, 0, .hold, false⟩
/-! Block SEC. -/
/-- SEC_STAT.TAMPER [0:0] RO, 20_security.md. -/
def F.SEC_STAT_TAMPER : Field := ⟨141, 0, 1, .ro, 0, .hold, true⟩
/-- SEC_STAT.KEY_LOADED [1:1] RO, 20_security.md. -/
def F.SEC_STAT_KEY_LOADED : Field := ⟨142, 1, 1, .ro, 0, (.to 0), false⟩
/-- SEC_STAT.BUSY [2:2] RO, 20_security.md. -/
def F.SEC_STAT_BUSY : Field := ⟨143, 2, 1, .ro, 0, (.to 0), false⟩
/-- SEC_STAT.PROG_RES [6:4] RO, 20_security.md. -/
def F.SEC_STAT_PROG_RES : Field := ⟨144, 4, 3, .ro, 0, (.to 0), false⟩
/-- SEC_STAT.LC_STATE [9:8] RO, 20_security.md. -/
def F.SEC_STAT_LC_STATE : Field := ⟨145, 8, 2, .ro, 0, .special, false⟩
/-- SEC_STAT.SLOT_EMPTY [19:16] RO, 20_security.md. -/
def F.SEC_STAT_SLOT_EMPTY : Field := ⟨146, 16, 4, .ro, 0, .special, false⟩
/-- SEC_STAT.SLOT_REVOKED [23:20] RO, 20_security.md. -/
def F.SEC_STAT_SLOT_REVOKED : Field := ⟨147, 20, 4, .ro, 0, .special, false⟩
/-- SEC_STAT.IMAGE_SLOT [25:24] RO, 20_security.md. -/
def F.SEC_STAT_IMAGE_SLOT : Field := ⟨148, 24, 2, .ro, 0, (.to 0), false⟩
/-- SEC_STAT.SELF_SIGNED [26:26] RO, 20_security.md. -/
def F.SEC_STAT_SELF_SIGNED : Field := ⟨149, 26, 1, .ro, 0, (.to 0), false⟩
/-- SEC_FUSE_STAT.RB_FREE [3:0] RO, 20_security.md. -/
def F.SEC_FUSE_STAT_RB_FREE : Field := ⟨150, 0, 4, .ro, 0, .special, false⟩
/-- SEC_FUSE_STAT.LC_FREE [5:4] RO, 20_security.md. -/
def F.SEC_FUSE_STAT_LC_FREE : Field := ⟨151, 4, 2, .ro, 0, .special, false⟩
/-- SEC_FUSE_STAT.SPOILED [12:8] RO, 20_security.md. -/
def F.SEC_FUSE_STAT_SPOILED : Field := ⟨152, 8, 5, .ro, 0, .special, false⟩
/-- SEC_RB_COMMIT.GO [0:0] WO, 20_security.md. -/
def F.SEC_RB_COMMIT_GO : Field := ⟨153, 0, 1, .wo, 0, (.to 0), false⟩
/-- SEC_RB_COMMIT.KEY [31:16] WO, 20_security.md. -/
def F.SEC_RB_COMMIT_KEY : Field := ⟨154, 16, 16, .wo, 0, (.to 0), false⟩
/-- SEC_LC_REQ.TARGET [1:0] WO, 20_security.md. -/
def F.SEC_LC_REQ_TARGET : Field := ⟨155, 0, 2, .wo, 0, (.to 0), false⟩
/-- SEC_LC_REQ.KEY [31:16] WO, 20_security.md. -/
def F.SEC_LC_REQ_KEY : Field := ⟨156, 16, 16, .wo, 0, (.to 0), false⟩
/-- SEC_PROV_CMD.TARGET [1:0] WO, 20_security.md. -/
def F.SEC_PROV_CMD_TARGET : Field := ⟨157, 0, 2, .wo, 0, (.to 0), false⟩
/-- SEC_PROV_CMD.SLOT [3:2] WO, 20_security.md. -/
def F.SEC_PROV_CMD_SLOT : Field := ⟨158, 2, 2, .wo, 0, (.to 0), false⟩
/-- SEC_PROV_CMD.GO [4:4] WO, 20_security.md. -/
def F.SEC_PROV_CMD_GO : Field := ⟨159, 4, 1, .wo, 0, (.to 0), false⟩
/-- SEC_PROV_CMD.KEY [31:16] WO, 20_security.md. -/
def F.SEC_PROV_CMD_KEY : Field := ⟨160, 16, 16, .wo, 0, (.to 0), false⟩
/-- SEC_WIPE.GO [0:0] WO, 20_security.md. -/
def F.SEC_WIPE_GO : Field := ⟨161, 0, 1, .wo, 0, (.to 0), false⟩
/-- SEC_WIPE.KEY [31:16] WO, 20_security.md. -/
def F.SEC_WIPE_KEY : Field := ⟨162, 16, 16, .wo, 0, (.to 0), false⟩
/-- SEC_TAMPER_CFG.KEY_CLEAR [0:0] RW, 20_security.md. -/
def F.SEC_TAMPER_CFG_KEY_CLEAR : Field := ⟨163, 0, 1, .rw, 1, (.to 1), false⟩
/-- SEC_PROV_DATA.WORD [31:0] WO, 20_security.md. -/
def F.SEC_PROV_DATA_WORD : Field := ⟨164, 0, 32, .wo, 0, (.to 0), false⟩
/-- SEC_DBG_NONCE.NONCE [31:0] RO, 20_security.md. -/
def F.SEC_DBG_NONCE_NONCE : Field := ⟨165, 0, 32, .ro, 0, .special, false⟩
/-- SEC_DBG_TOKEN.OFFSET [17:4] RW, 20_security.md. -/
def F.SEC_DBG_TOKEN_OFFSET : Field := ⟨166, 4, 14, .rw, 0, (.to 0), false⟩
/-- SEC_DBG_CTRL.RIGHTS_REQ [4:0] RW, 20_security.md. -/
def F.SEC_DBG_CTRL_RIGHTS_REQ : Field := ⟨167, 0, 5, .rw, 0, (.to 0), false⟩
/-- SEC_DBG_CTRL.GO [8:8] WO, 20_security.md. -/
def F.SEC_DBG_CTRL_GO : Field := ⟨168, 8, 1, .wo, 0, (.to 0), false⟩
/-- SEC_DBG_CTRL.RESULT [11:9] RO, 20_security.md. -/
def F.SEC_DBG_CTRL_RESULT : Field := ⟨169, 9, 3, .ro, 0, (.to 0), false⟩
/-- SEC_DBG_CTRL.RIGHTS [20:16] RO, 20_security.md. -/
def F.SEC_DBG_CTRL_RIGHTS : Field := ⟨170, 16, 5, .ro, 0, (.to 0), false⟩
/-- SEC_ROM_VER.VERSION [31:0] RO, 20_security.md. -/
def F.SEC_ROM_VER_VERSION : Field := ⟨171, 0, 32, .ro, 0, .special, false⟩
/-- SEC_FW_VER.VERSION [31:0] RO, 20_security.md. -/
def F.SEC_FW_VER_VERSION : Field := ⟨172, 0, 32, .ro, 0, (.to 0), false⟩
/-! Block CSP. -/
/-- CSP_CFG.CPHA [0:0] RW, 17_serial_port.md. -/
def F.CSP_CFG_CPHA : Field := ⟨173, 0, 1, .rw, 0, (.to 0), false⟩
/-- CSP_CFG.CPOL [1:1] RW, 17_serial_port.md. -/
def F.CSP_CFG_CPOL : Field := ⟨174, 1, 1, .rw, 0, (.to 0), false⟩
/-- CSP_CFG.FRAME [2:2] RW, 17_serial_port.md. -/
def F.CSP_CFG_FRAME : Field := ⟨175, 2, 1, .rw, 0, (.to 0), false⟩
/-- CSP_CFG.SEL_HIGH [3:3] RW, 17_serial_port.md. -/
def F.CSP_CFG_SEL_HIGH : Field := ⟨176, 3, 1, .rw, 0, (.to 0), false⟩
/-- CSP_CFG.SEL_GPIO [8:4] RW, 17_serial_port.md. -/
def F.CSP_CFG_SEL_GPIO : Field := ⟨177, 4, 5, .rw, 0, .special, false⟩
/-- CSP_CFG.DIV [23:16] RW, 17_serial_port.md. -/
def F.CSP_CFG_DIV : Field := ⟨178, 16, 8, .rw, 99, (.to 99), false⟩
/-- CSP_CFG.LEAD [27:24] RW, 17_serial_port.md. -/
def F.CSP_CFG_LEAD : Field := ⟨179, 24, 4, .rw, 2, (.to 2), false⟩
/-- CSP_CFG.TRAIL [31:28] RW, 17_serial_port.md. -/
def F.CSP_CFG_TRAIL : Field := ⟨180, 28, 4, .rw, 2, (.to 2), false⟩
/-- CSP_LEN.BITS [12:0] RW, 17_serial_port.md. -/
def F.CSP_LEN_BITS : Field := ⟨181, 0, 13, .rw, 16, (.to 16), false⟩
/-- CSP_CTRL.START [0:0] WO, 17_serial_port.md. -/
def F.CSP_CTRL_START : Field := ⟨182, 0, 1, .wo, 0, (.to 0), false⟩
/-- CSP_CTRL.ABORT [1:1] WO, 17_serial_port.md. -/
def F.CSP_CTRL_ABORT : Field := ⟨183, 1, 1, .wo, 0, (.to 0), false⟩
/-- CSP_CTRL.BUSY [2:2] RO, 17_serial_port.md. -/
def F.CSP_CTRL_BUSY : Field := ⟨184, 2, 1, .ro, 0, (.to 0), false⟩
/-- CSP_CTRL.EN [3:3] RW, 17_serial_port.md. -/
def F.CSP_CTRL_EN : Field := ⟨185, 3, 1, .rw, 0, (.to 0), false⟩
/-- CSP_STAT.DONE [0:0] W1C, 17_serial_port.md. -/
def F.CSP_STAT_DONE : Field := ⟨186, 0, 1, .w1c, 0, (.to 0), false⟩
/-- CSP_STAT.SEL_LOST [1:1] W1C, 17_serial_port.md. -/
def F.CSP_STAT_SEL_LOST : Field := ⟨187, 1, 1, .w1c, 0, (.to 0), false⟩
/-- CSP_STAT.RX_CRC_ERR [2:2] W1C, 17_serial_port.md. -/
def F.CSP_STAT_RX_CRC_ERR : Field := ⟨188, 2, 1, .w1c, 0, (.to 0), false⟩
/-- CSP_STAT.RX_ALIVE_ERR [3:3] W1C, 17_serial_port.md. -/
def F.CSP_STAT_RX_ALIVE_ERR : Field := ⟨189, 3, 1, .w1c, 0, (.to 0), false⟩
/-- CSP_STAT.RX_LEN_ERR [4:4] W1C, 17_serial_port.md. -/
def F.CSP_STAT_RX_LEN_ERR : Field := ⟨190, 4, 1, .w1c, 0, (.to 0), false⟩
/-- CSP_STAT.RX_FLAGS [5:5] W1C, 17_serial_port.md. -/
def F.CSP_STAT_RX_FLAGS : Field := ⟨191, 5, 1, .w1c, 0, (.to 0), false⟩
/-- CSP_STAT.ABORTED [6:6] W1C, 17_serial_port.md. -/
def F.CSP_STAT_ABORTED : Field := ⟨192, 6, 1, .w1c, 0, (.to 0), false⟩
/-- CSP_STAT.BITS [28:16] RO, 17_serial_port.md. -/
def F.CSP_STAT_BITS : Field := ⟨193, 16, 13, .ro, 0, (.to 0), false⟩
/-- CSP_ALIVE.NEXT [7:0] RW, 17_serial_port.md. -/
def F.CSP_ALIVE_NEXT : Field := ⟨194, 0, 8, .rw, 0, (.to 0), false⟩
/-- CSP_ALIVE.LAST [15:8] RO, 17_serial_port.md. -/
def F.CSP_ALIVE_LAST : Field := ⟨195, 8, 8, .ro, 0, (.to 0), false⟩
/-- CSP_ALIVE.FIRST [16:16] RO, 17_serial_port.md. -/
def F.CSP_ALIVE_FIRST : Field := ⟨196, 16, 1, .ro, 1, (.to 1), false⟩
/-- CSP_TX.HW [31:0] RW, 17_serial_port.md. -/
def F.CSP_TX_HW : Field := ⟨197, 0, 32, .rw, 0, (.to 0), false⟩
/-- CSP_RX.HW [31:0] RO, 17_serial_port.md. -/
def F.CSP_RX_HW : Field := ⟨198, 0, 32, .ro, 0, (.to 0), false⟩
/-! Block GPIO. -/
/-- GPIO_OUT.OUT [31:0] RW, 17_serial_port.md. -/
def F.GPIO_OUT_OUT : Field := ⟨199, 0, 32, .rw, 0, (.to 0), false⟩
/-- GPIO_OE.OE [31:0] RW, 17_serial_port.md. -/
def F.GPIO_OE_OE : Field := ⟨200, 0, 32, .rw, 0, (.to 0), false⟩
/-- GPIO_IN.IN [31:0] RO, 17_serial_port.md. -/
def F.GPIO_IN_IN : Field := ⟨201, 0, 32, .ro, 0, .special, false⟩
/-- GPIO_FUNC.LED31 [0:0] RW, 17_serial_port.md. -/
def F.GPIO_FUNC_LED31 : Field := ⟨202, 0, 1, .rw, 1, (.to 1), false⟩
/-! Block MBX. -/
/-- MBX_HOST_RX.WORD [31:0] RC, 16_host_protocol.md. -/
def F.MBX_HOST_RX_WORD : Field := ⟨203, 0, 32, .rc, 0, (.to 0), false⟩
/-- MBX_HOST_RXEP.EPOCH [7:0] RO, 16_host_protocol.md. -/
def F.MBX_HOST_RXEP_EPOCH : Field := ⟨204, 0, 8, .ro, 0, (.to 0), false⟩
/-- MBX_HOST_RXEP.VALID [8:8] RO, 16_host_protocol.md. -/
def F.MBX_HOST_RXEP_VALID : Field := ⟨205, 8, 1, .ro, 0, (.to 0), false⟩
/-- MBX_HOST_TX.WORD [31:0] WO, 16_host_protocol.md. -/
def F.MBX_HOST_TX_WORD : Field := ⟨206, 0, 32, .wo, 0, (.to 0), false⟩
/-- MBX_HOST_STAT.RX_COUNT [4:0] RO, 16_host_protocol.md. -/
def F.MBX_HOST_STAT_RX_COUNT : Field := ⟨207, 0, 5, .ro, 0, (.to 0), false⟩
/-- MBX_HOST_STAT.TX_COUNT [12:8] RO, 16_host_protocol.md. -/
def F.MBX_HOST_STAT_TX_COUNT : Field := ⟨208, 8, 5, .ro, 0, .hold, false⟩
/-- MBX_HOST_STAT.TX_FULL [16:16] RO, 16_host_protocol.md. -/
def F.MBX_HOST_STAT_TX_FULL : Field := ⟨209, 16, 1, .ro, 0, .hold, false⟩
/-- MBX_HOST_STAT.FLUSHED [17:17] W1C, 16_host_protocol.md. -/
def F.MBX_HOST_STAT_FLUSHED : Field := ⟨210, 17, 1, .w1c, 0, .special, false⟩
/-- MBX_HOST_STAT.HOST_EPOCH [31:24] RO, 16_host_protocol.md. -/
def F.MBX_HOST_STAT_HOST_EPOCH : Field := ⟨211, 24, 8, .ro, 0, .hold, false⟩
/-- MBX_HOST_FLUSH.COUNT [15:0] RO, 16_host_protocol.md. -/
def F.MBX_HOST_FLUSH_COUNT : Field := ⟨212, 0, 16, .ro, 0, .special, false⟩
/-- MBX_HOST_DB.RING [0:0] WO, 16_host_protocol.md. -/
def F.MBX_HOST_DB_RING : Field := ⟨213, 0, 1, .wo, 0, (.to 0), false⟩
/-- MBX_HOST_DB.RX_DB [1:1] W1C, 16_host_protocol.md. -/
def F.MBX_HOST_DB_RX_DB : Field := ⟨214, 1, 1, .w1c, 0, (.to 0), false⟩
/-- MBX_EPOCH.HEARTH [7:0] RO, 16_host_protocol.md. -/
def F.MBX_EPOCH_HEARTH : Field := ⟨215, 0, 8, .ro, 0, .special, false⟩
/-- EVT_STAT.EVSEQ [15:0] RO, 16_host_protocol.md. -/
def F.EVT_STAT_EVSEQ : Field := ⟨216, 0, 16, .ro, 0, .hold, false⟩
/-- EVT_STAT.QUEUED [22:16] RO, 16_host_protocol.md. -/
def F.EVT_STAT_QUEUED : Field := ⟨217, 16, 7, .ro, 0, .hold, false⟩
/-- EVT_LOST.COUNT [31:0] RO, 16_host_protocol.md. -/
def F.EVT_LOST_COUNT : Field := ⟨218, 0, 32, .ro, 0, .hold, false⟩
/-- CMDQ_STAT.OUTSTANDING [5:0] RO, 16_host_protocol.md. -/
def F.CMDQ_STAT_OUTSTANDING : Field := ⟨219, 0, 6, .ro, 0, (.to 0), false⟩
/-- CMDQ_STAT.ABANDONED [31:16] RO, 16_host_protocol.md. -/
def F.CMDQ_STAT_ABANDONED : Field := ⟨220, 16, 16, .ro, 0, .special, false⟩
/-- MBX_ENG_TX.WORD [31:0] WO, 16_host_protocol.md. -/
def F.MBX_ENG_TX_WORD : Field := ⟨221, 0, 32, .wo, 0, (.to 0), false⟩
/-- MBX_ENG_RX.WORD [31:0] RC, 16_host_protocol.md. -/
def F.MBX_ENG_RX_WORD : Field := ⟨222, 0, 32, .rc, 0, (.to 0), false⟩
/-- MBX_ENG_STAT.TX_COUNT [3:0] RO, 16_host_protocol.md. -/
def F.MBX_ENG_STAT_TX_COUNT : Field := ⟨223, 0, 4, .ro, 0, (.to 0), false⟩
/-- MBX_ENG_STAT.RX_COUNT [7:4] RO, 16_host_protocol.md. -/
def F.MBX_ENG_STAT_RX_COUNT : Field := ⟨224, 4, 4, .ro, 0, (.to 0), false⟩
/-- MBX_ENG_STAT.TX_FULL [8:8] RO, 16_host_protocol.md. -/
def F.MBX_ENG_STAT_TX_FULL : Field := ⟨225, 8, 1, .ro, 0, (.to 0), false⟩
/-- MBX_ENG_STAT.FLUSHED [9:9] W1C, 16_host_protocol.md. -/
def F.MBX_ENG_STAT_FLUSHED : Field := ⟨226, 9, 1, .w1c, 0, .special, false⟩
/-- MBX_ENG_STAT.RX_EPOCH [23:16] RO, 16_host_protocol.md. -/
def F.MBX_ENG_STAT_RX_EPOCH : Field := ⟨227, 16, 8, .ro, 0, (.to 0), false⟩
/-- MBX_ENG_STAT.ENG_EPOCH [31:24] RO, 16_host_protocol.md. -/
def F.MBX_ENG_STAT_ENG_EPOCH : Field := ⟨228, 24, 8, .ro, 0, .special, false⟩
/-- MBX_ENG_DB.RING [0:0] WO, 16_host_protocol.md. -/
def F.MBX_ENG_DB_RING : Field := ⟨229, 0, 1, .wo, 0, (.to 0), false⟩
/-! Block SEM. -/
/-- SEM_ACQ.OWNER [6:0] RA, 18_memory.md. -/
def F.SEM_ACQ_OWNER : Field := ⟨230, 0, 7, .ra, 0, (.to 0), false⟩
/-- SEM_ACQ.HELD [31:31] RA, 18_memory.md. -/
def F.SEM_ACQ_HELD : Field := ⟨231, 31, 1, .ra, 0, (.to 0), false⟩
/-- SEM_PEEK.OWNER [6:0] RO, 18_memory.md. -/
def F.SEM_PEEK_OWNER : Field := ⟨232, 0, 7, .ro, 0, (.to 0), false⟩
/-- SEM_PEEK.PTR [14:8] RO, 18_memory.md. -/
def F.SEM_PEEK_PTR : Field := ⟨233, 8, 7, .ro, 0, (.to 0), false⟩
/-- SEM_PEEK.HELD [31:31] RO, 18_memory.md. -/
def F.SEM_PEEK_HELD : Field := ⟨234, 31, 1, .ro, 0, (.to 0), false⟩
/-- SEM_FORCE.SEM [5:0] WO, 18_memory.md. -/
def F.SEM_FORCE_SEM : Field := ⟨235, 0, 6, .wo, 0, (.to 0), false⟩
/-- SEM_FORCE.KEY [31:16] WO, 18_memory.md. -/
def F.SEM_FORCE_KEY : Field := ⟨236, 16, 16, .wo, 0, (.to 0), false⟩
/-- SEM_CONTEST.COUNT [31:0] RO, 18_memory.md. -/
def F.SEM_CONTEST_COUNT : Field := ⟨237, 0, 32, .ro, 0, (.to 0), false⟩
/-- SPD_STAT.DP_COLL [0:0] W1C, 18_memory.md. -/
def F.SPD_STAT_DP_COLL : Field := ⟨238, 0, 1, .w1c, 0, .hold, false⟩
/-- SPD_STAT.WIPING [1:1] RO, 18_memory.md. -/
def F.SPD_STAT_WIPING : Field := ⟨239, 1, 1, .ro, 0, .special, false⟩
/-- SPD_STAT.WIPED [2:2] W1C, 18_memory.md. -/
def F.SPD_STAT_WIPED : Field := ⟨240, 2, 1, .w1c, 1, (.to 1), false⟩
/-- SPD_STAT.COLL_COUNT [31:16] RO, 18_memory.md. -/
def F.SPD_STAT_COLL_COUNT : Field := ⟨241, 16, 16, .ro, 0, .hold, false⟩
/-- SPD_COLL_ADDR.ADDR [31:0] RO, 18_memory.md. -/
def F.SPD_COLL_ADDR_ADDR : Field := ⟨242, 0, 32, .ro, 0, .hold, false⟩
/-- SPD_WIPES.COUNT [15:0] RO, 18_memory.md. -/
def F.SPD_WIPES_COUNT : Field := ⟨243, 0, 16, .ro, 0, .hold, false⟩
/-- SPD_REPAIR.SCRATCH [6:0] RO, 18_memory.md. -/
def F.SPD_REPAIR_SCRATCH : Field := ⟨244, 0, 7, .ro, 0, .hold, false⟩
/-- SPD_REPAIR.PANTRY [17:8] RO, 18_memory.md. -/
def F.SPD_REPAIR_PANTRY : Field := ⟨245, 8, 10, .ro, 0, .hold, false⟩
/-- SPD_REPAIR.CSTORE [25:18] RO, 18_memory.md. -/
def F.SPD_REPAIR_CSTORE : Field := ⟨246, 18, 8, .ro, 0, .hold, false⟩
/-- STL_CTRL.EN [0:0] RW, 09_multisite.md. -/
def F.STL_CTRL_EN : Field := ⟨247, 0, 1, .rw, 0, (.to 0), false⟩
/-- STL_STAT.BADTASK [15:0] RO, 09_multisite.md. -/
def F.STL_STAT_BADTASK : Field := ⟨248, 0, 16, .ro, 0, (.to 0), false⟩
/-- STL_STAT.BUSY [16:16] RO, 09_multisite.md. -/
def F.STL_STAT_BUSY : Field := ⟨249, 16, 1, .ro, 0, (.to 0), false⟩
/-- STL_STEALS_LO.N_LO [31:0] RO, 09_multisite.md. -/
def F.STL_STEALS_LO_N_LO : Field := ⟨250, 0, 32, .ro, 0, (.to 0), false⟩
/-- STL_STEALS_HI.N_HI [31:0] RO, 09_multisite.md. -/
def F.STL_STEALS_HI_N_HI : Field := ⟨251, 0, 32, .ro, 0, (.to 0), false⟩
/-- STL_FULL.COUNT [31:0] RO, 09_multisite.md. -/
def F.STL_FULL_COUNT : Field := ⟨252, 0, 32, .ro, 0, (.to 0), false⟩
/-! Block IRQ. -/
/-- IRQ_ROUTE.H_EN [0:0] RW, 19_thermal_faults.md. -/
def F.IRQ_ROUTE_H_EN : Field := ⟨253, 0, 1, .rw, 0, (.to 0), false⟩
/-- IRQ_ROUTE.CORE [2:1] RW, 19_thermal_faults.md. -/
def F.IRQ_ROUTE_CORE : Field := ⟨254, 1, 2, .rw, 0, (.to 0), false⟩
/-- IRQ_ROUTE.E_EN [3:3] RW, 19_thermal_faults.md. -/
def F.IRQ_ROUTE_E_EN : Field := ⟨255, 3, 1, .rw, 0, (.to 0), false⟩
/-- IRQ_ROUTE.ENGINE [9:4] RW, 19_thermal_faults.md. -/
def F.IRQ_ROUTE_ENGINE : Field := ⟨256, 4, 6, .rw, 0, (.to 0), false⟩
/-- IRQ_ROUTE.HOST_EN [10:10] RW, 19_thermal_faults.md. -/
def F.IRQ_ROUTE_HOST_EN : Field := ⟨257, 10, 1, .rw, 0, (.to 0), false⟩
/-- IRQ_PEND.PEND [31:0] W1C, 19_thermal_faults.md. -/
def F.IRQ_PEND_PEND : Field := ⟨258, 0, 32, .w1c, 0, (.to 0), false⟩
/-- IRQ_SWSET.SOURCE [7:0] WO, 19_thermal_faults.md. -/
def F.IRQ_SWSET_SOURCE : Field := ⟨259, 0, 8, .wo, 0, (.to 0), false⟩
/-- IRQ_ENG_LOST.COUNT [31:0] RO, 19_thermal_faults.md. -/
def F.IRQ_ENG_LOST_COUNT : Field := ⟨260, 0, 32, .ro, 0, (.to 0), false⟩
/-! Block FAB. -/
/-- FAB_NODE.NODE_ID [7:0] RO, 15_fabric.md. -/
def F.FAB_NODE_NODE_ID : Field := ⟨261, 0, 8, .ro, 0, .hold, false⟩
/-- FAB_NODE.HOST_NODE [15:8] RO, 15_fabric.md. -/
def F.FAB_NODE_HOST_NODE : Field := ⟨262, 8, 8, .ro, 0, .hold, false⟩
/-- FAB_NODE.HOME_PORCH [18:16] RO, 15_fabric.md. -/
def F.FAB_NODE_HOME_PORCH : Field := ⟨263, 16, 3, .ro, 0, .hold, false⟩
/-- FAB_NODE.RT_VALID [19:19] RO, 15_fabric.md. -/
def F.FAB_NODE_RT_VALID : Field := ⟨264, 19, 1, .ro, 0, .hold, false⟩
/-- FAB_SID_LO.SID_LO [31:0] RO, 15_fabric.md. -/
def F.FAB_SID_LO_SID_LO : Field := ⟨265, 0, 32, .ro, 0, .hold, false⟩
/-- FAB_SID_HI.SID_HI [31:0] RO, 15_fabric.md. -/
def F.FAB_SID_HI_SID_HI : Field := ⟨266, 0, 32, .ro, 0, .hold, false⟩
/-- FAB_CTRL.TTL [7:0] RW, 15_fabric.md. -/
def F.FAB_CTRL_TTL : Field := ⟨267, 0, 8, .rw, 64, .hold, false⟩
/-- FAB_CTRL.QUIET_IDLE_US [15:8] RW, 15_fabric.md. -/
def F.FAB_CTRL_QUIET_IDLE_US : Field := ⟨268, 8, 8, .rw, 10, .hold, false⟩
/-- FAB_CTRL.LINKDOWN_MS [23:16] RW, 15_fabric.md. -/
def F.FAB_CTRL_LINKDOWN_MS : Field := ⟨269, 16, 8, .rw, 10, .hold, false⟩
/-- FAB_CTRL.PAM4_EN [24:24] RW, 15_fabric.md. -/
def F.FAB_CTRL_PAM4_EN : Field := ⟨270, 24, 1, .rw, 1, .hold, false⟩
/-- FAB_DROP.NOROUTE [15:0] RO, 15_fabric.md. -/
def F.FAB_DROP_NOROUTE : Field := ⟨271, 0, 16, .ro, 0, .hold, false⟩
/-- FAB_DROP.TTL [31:16] RO, 15_fabric.md. -/
def F.FAB_DROP_TTL : Field := ⟨272, 16, 16, .ro, 0, .hold, false⟩
/-- FAB_DROP2.BADTYPE [15:0] RO, 15_fabric.md. -/
def F.FAB_DROP2_BADTYPE : Field := ⟨273, 0, 16, .ro, 0, .hold, false⟩
/-- FAB_DROP2.BAD_SR [31:16] RO, 15_fabric.md. -/
def F.FAB_DROP2_BAD_SR : Field := ⟨274, 16, 16, .ro, 0, .hold, false⟩
/-- FAB_CONFLICT.COUNT [15:0] RO, 15_fabric.md. -/
def F.FAB_CONFLICT_COUNT : Field := ⟨275, 0, 16, .ro, 0, .hold, false⟩
/-- FAB_CONFLICT.PORCH [18:16] RO, 15_fabric.md. -/
def F.FAB_CONFLICT_PORCH : Field := ⟨276, 16, 3, .ro, 0, .hold, false⟩
/-- PORCH_CTRL.EN [0:0] RW, 15_fabric.md. -/
def F.PORCH_CTRL_EN : Field := ⟨277, 0, 1, .rw, 1, .hold, false⟩
/-- PORCH_CTRL.FORCE_NRZ [1:1] RW, 15_fabric.md. -/
def F.PORCH_CTRL_FORCE_NRZ : Field := ⟨278, 1, 1, .rw, 0, .hold, false⟩
/-- PORCH_CTRL.RETRAIN [2:2] WO, 15_fabric.md. -/
def F.PORCH_CTRL_RETRAIN : Field := ⟨279, 2, 1, .wo, 0, (.to 0), false⟩
/-- PORCH_CTRL.QUIET_EN [3:3] RW, 15_fabric.md. -/
def F.PORCH_CTRL_QUIET_EN : Field := ⟨280, 3, 1, .rw, 1, .hold, false⟩
/-- PORCH_STAT.STATE [3:0] RO, 15_fabric.md. -/
def F.PORCH_STAT_STATE : Field := ⟨281, 0, 4, .ro, 0, .special, false⟩
/-- PORCH_STAT.DEGRADED [4:4] RO, 15_fabric.md. -/
def F.PORCH_STAT_DEGRADED : Field := ⟨282, 4, 1, .ro, 0, .special, false⟩
/-- PORCH_STAT.PLANNED [5:5] RO, 15_fabric.md. -/
def F.PORCH_STAT_PLANNED : Field := ⟨283, 5, 1, .ro, 0, .hold, false⟩
/-- PORCH_STAT.LEAVE_RX [6:6] W1C, 15_fabric.md. -/
def F.PORCH_STAT_LEAVE_RX : Field := ⟨284, 6, 1, .w1c, 0, .hold, false⟩
/-- PORCH_STAT.PARTNER [7:7] RO, 15_fabric.md. -/
def F.PORCH_STAT_PARTNER : Field := ⟨285, 7, 1, .ro, 0, .special, false⟩
/-- PORCH_STAT.PARTNER_NODE [23:16] RO, 15_fabric.md. -/
def F.PORCH_STAT_PARTNER_NODE : Field := ⟨286, 16, 8, .ro, 0, .special, false⟩
/-- PORCH_STAT.PARTNER_PORCH [26:24] RO, 15_fabric.md. -/
def F.PORCH_STAT_PARTNER_PORCH : Field := ⟨287, 24, 3, .ro, 0, .special, false⟩
/-- PORCH_PSID_LO.SID_LO [31:0] RO, 15_fabric.md. -/
def F.PORCH_PSID_LO_SID_LO : Field := ⟨288, 0, 32, .ro, 0, .special, false⟩
/-- PORCH_PSID_HI.SID_HI [31:0] RO, 15_fabric.md. -/
def F.PORCH_PSID_HI_SID_HI : Field := ⟨289, 0, 32, .ro, 0, .special, false⟩
/-- PORCH_SEQ.NEXT_TX [11:0] RO, 15_fabric.md. -/
def F.PORCH_SEQ_NEXT_TX : Field := ⟨290, 0, 12, .ro, 0, .hold, false⟩
/-- PORCH_SEQ.ACKED [27:16] RO, 15_fabric.md. -/
def F.PORCH_SEQ_ACKED : Field := ⟨291, 16, 12, .ro, 0, .hold, false⟩
/-- PORCH_RETRY.REQ_SENT [15:0] RO, 15_fabric.md. -/
def F.PORCH_RETRY_REQ_SENT : Field := ⟨292, 0, 16, .ro, 0, .hold, false⟩
/-- PORCH_RETRY.REPLAYS [31:16] RO, 15_fabric.md. -/
def F.PORCH_RETRY_REPLAYS : Field := ⟨293, 16, 16, .ro, 0, .hold, false⟩
/-- PORCH_FEC_LO.CORR_LO [31:0] RO, 15_fabric.md. -/
def F.PORCH_FEC_LO_CORR_LO : Field := ⟨294, 0, 32, .ro, 0, .hold, false⟩
/-- PORCH_FEC_HI.CORR_HI [31:0] RO, 15_fabric.md. -/
def F.PORCH_FEC_HI_CORR_HI : Field := ⟨295, 0, 32, .ro, 0, .hold, false⟩
/-- PORCH_ERR.UNCORR [15:0] RO, 15_fabric.md. -/
def F.PORCH_ERR_UNCORR : Field := ⟨296, 0, 16, .ro, 0, .hold, false⟩
/-- PORCH_ERR.CRC [31:16] RO, 15_fabric.md. -/
def F.PORCH_ERR_CRC : Field := ⟨297, 16, 16, .ro, 0, .hold, false⟩
/-- PORCH_FILL.INSERTED [15:0] RO, 15_fabric.md. -/
def F.PORCH_FILL_INSERTED : Field := ⟨298, 0, 16, .ro, 0, .hold, false⟩
/-- PORCH_FILL.DELETED [31:16] RO, 15_fabric.md. -/
def F.PORCH_FILL_DELETED : Field := ⟨299, 16, 16, .ro, 0, .hold, false⟩
/-- PORCH_EVENTS.UP [7:0] RO, 15_fabric.md. -/
def F.PORCH_EVENTS_UP : Field := ⟨300, 0, 8, .ro, 0, .hold, false⟩
/-- PORCH_EVENTS.DOWN [15:8] RO, 15_fabric.md. -/
def F.PORCH_EVENTS_DOWN : Field := ⟨301, 8, 8, .ro, 0, .hold, false⟩
/-- PORCH_EVENTS.RETRAINS [23:16] RO, 15_fabric.md. -/
def F.PORCH_EVENTS_RETRAINS : Field := ⟨302, 16, 8, .ro, 0, .hold, false⟩
/-- PORCH_EVENTS.FULL_TRAIN [31:24] RO, 15_fabric.md. -/
def F.PORCH_EVENTS_FULL_TRAIN : Field := ⟨303, 24, 8, .ro, 0, .hold, false⟩
/-- PORCH_LOST.FLITS [15:0] RO, 15_fabric.md. -/
def F.PORCH_LOST_FLITS : Field := ⟨304, 0, 16, .ro, 0, .hold, false⟩
/-- PORCH_FLITS_LO.N_LO [31:0] RO, 15_fabric.md. -/
def F.PORCH_FLITS_LO_N_LO : Field := ⟨305, 0, 32, .ro, 0, .hold, false⟩
/-- PORCH_FLITS_HI.N_HI [31:0] RO, 15_fabric.md. -/
def F.PORCH_FLITS_HI_N_HI : Field := ⟨306, 0, 32, .ro, 0, .hold, false⟩
/-- FAB_RT.PORCH0 [2:0] RO, 15_fabric.md. -/
def F.FAB_RT_PORCH0 : Field := ⟨307, 0, 3, .ro, 0, .special, false⟩
/-- FAB_RT.VALID0 [3:3] RO, 15_fabric.md. -/
def F.FAB_RT_VALID0 : Field := ⟨308, 3, 1, .ro, 0, .special, false⟩
/-- FAB_RT.PORCH1 [6:4] RO, 15_fabric.md. -/
def F.FAB_RT_PORCH1 : Field := ⟨309, 4, 3, .ro, 0, .special, false⟩
/-- FAB_RT.VALID1 [7:7] RO, 15_fabric.md. -/
def F.FAB_RT_VALID1 : Field := ⟨310, 7, 1, .ro, 0, .special, false⟩
/-- FAB_RT.PORCH2 [10:8] RO, 15_fabric.md. -/
def F.FAB_RT_PORCH2 : Field := ⟨311, 8, 3, .ro, 0, .special, false⟩
/-- FAB_RT.VALID2 [11:11] RO, 15_fabric.md. -/
def F.FAB_RT_VALID2 : Field := ⟨312, 11, 1, .ro, 0, .special, false⟩
/-- FAB_RT.PORCH3 [14:12] RO, 15_fabric.md. -/
def F.FAB_RT_PORCH3 : Field := ⟨313, 12, 3, .ro, 0, .special, false⟩
/-- FAB_RT.VALID3 [15:15] RO, 15_fabric.md. -/
def F.FAB_RT_VALID3 : Field := ⟨314, 15, 1, .ro, 0, .special, false⟩
/-- FAB_RT.PORCH4 [18:16] RO, 15_fabric.md. -/
def F.FAB_RT_PORCH4 : Field := ⟨315, 16, 3, .ro, 0, .special, false⟩
/-- FAB_RT.VALID4 [19:19] RO, 15_fabric.md. -/
def F.FAB_RT_VALID4 : Field := ⟨316, 19, 1, .ro, 0, .special, false⟩
/-- FAB_RT.PORCH5 [22:20] RO, 15_fabric.md. -/
def F.FAB_RT_PORCH5 : Field := ⟨317, 20, 3, .ro, 0, .special, false⟩
/-- FAB_RT.VALID5 [23:23] RO, 15_fabric.md. -/
def F.FAB_RT_VALID5 : Field := ⟨318, 23, 1, .ro, 0, .special, false⟩
/-- FAB_RT.PORCH6 [26:24] RO, 15_fabric.md. -/
def F.FAB_RT_PORCH6 : Field := ⟨319, 24, 3, .ro, 0, .special, false⟩
/-- FAB_RT.VALID6 [27:27] RO, 15_fabric.md. -/
def F.FAB_RT_VALID6 : Field := ⟨320, 27, 1, .ro, 0, .special, false⟩
/-- FAB_RT.PORCH7 [30:28] RO, 15_fabric.md. -/
def F.FAB_RT_PORCH7 : Field := ⟨321, 28, 3, .ro, 0, .special, false⟩
/-- FAB_RT.VALID7 [31:31] RO, 15_fabric.md. -/
def F.FAB_RT_VALID7 : Field := ⟨322, 31, 1, .ro, 0, .special, false⟩
/-- FAB_MC.PORCHES [7:0] RO, 15_fabric.md. -/
def F.FAB_MC_PORCHES : Field := ⟨323, 0, 8, .ro, 0, .special, false⟩
/-- FAB_MC.LOCAL [8:8] RO, 15_fabric.md. -/
def F.FAB_MC_LOCAL : Field := ⟨324, 8, 1, .ro, 0, .hold, false⟩
/-! Block CFG. -/
/-- CFG_STAT.SOURCE [1:0] RO, 03_bringup.md. -/
def F.CFG_STAT_SOURCE : Field := ⟨325, 0, 2, .ro, 3, (.to 3), false⟩
/-- CFG_STAT.ENCRYPTED [2:2] RO, 03_bringup.md. -/
def F.CFG_STAT_ENCRYPTED : Field := ⟨326, 2, 1, .ro, 0, (.to 0), false⟩
/-- CFG_STAT.AUTORUN [3:3] RO, 03_bringup.md. -/
def F.CFG_STAT_AUTORUN : Field := ⟨327, 3, 1, .ro, 0, (.to 0), false⟩
/-- CFG_STAT.SECTIONS [15:8] RO, 03_bringup.md. -/
def F.CFG_STAT_SECTIONS : Field := ⟨328, 8, 8, .ro, 0, (.to 0), false⟩
/-- CFG_VERSION.IMAGE_VERSION [31:0] RO, 03_bringup.md. -/
def F.CFG_VERSION_IMAGE_VERSION : Field := ⟨329, 0, 32, .ro, 0, (.to 0), false⟩
/-- CFG_ROLLBACK.IMAGE_CTR [6:0] RO, 03_bringup.md. -/
def F.CFG_ROLLBACK_IMAGE_CTR : Field := ⟨330, 0, 7, .ro, 0, (.to 0), false⟩
/-- CFG_ROLLBACK.FUSE_CTR [14:8] RO, 03_bringup.md. -/
def F.CFG_ROLLBACK_FUSE_CTR : Field := ⟨331, 8, 7, .ro, 0, (.to 0), false⟩
/-- CFG_DIR_GEN.GEN [31:0] RO, 03_bringup.md. -/
def F.CFG_DIR_GEN_GEN : Field := ⟨332, 0, 32, .ro, 0, (.to 0), false⟩
/-- TRIM_STAT.DONE [0:0] RO, 03_bringup.md. -/
def F.TRIM_STAT_DONE : Field := ⟨333, 0, 1, .ro, 0, (.to 0), false⟩
/-- TRIM_STAT.RETRIED [1:1] RO, 03_bringup.md. -/
def F.TRIM_STAT_RETRIED : Field := ⟨334, 1, 1, .ro, 0, (.to 0), false⟩
/-- TRIM_STAT.TILE_MISMATCH [9:2] RO, 03_bringup.md. -/
def F.TRIM_STAT_TILE_MISMATCH : Field := ⟨335, 2, 8, .ro, 0, (.to 0), false⟩
/-- TRIM_STAT.BLOCK [22:16] RO, 03_bringup.md. -/
def F.TRIM_STAT_BLOCK : Field := ⟨336, 16, 7, .ro, 0, (.to 0), false⟩
/-- CONTACT_CTL.START [0:0] WO, 03_bringup.md. -/
def F.CONTACT_CTL_START : Field := ⟨337, 0, 1, .wo, 0, (.to 0), false⟩
/-- CONTACT_CTL.BUSY [1:1] RO, 03_bringup.md. -/
def F.CONTACT_CTL_BUSY : Field := ⟨338, 1, 1, .ro, 0, (.to 0), false⟩
/-- CONTACT_CTL.DONE [2:2] W1C, 03_bringup.md. -/
def F.CONTACT_CTL_DONE : Field := ⟨339, 2, 1, .w1c, 0, (.to 0), false⟩
/-- CONTACT_CTL.REFUSED [3:3] W1C, 03_bringup.md. -/
def F.CONTACT_CTL_REFUSED : Field := ⟨340, 3, 1, .w1c, 0, (.to 0), false⟩
/-- LVL_LOAD_STAT.APPLIED [12:0] RO, 05_pin_electronics.md. -/
def F.LVL_LOAD_STAT_APPLIED : Field := ⟨341, 0, 13, .ro, 0, (.to 0), false⟩
/-- LVL_LOAD_STAT.SKIPPED [28:16] RO, 05_pin_electronics.md. -/
def F.LVL_LOAD_STAT_SKIPPED : Field := ⟨342, 16, 13, .ro, 0, (.to 0), false⟩
/-- MODE_STAT.MODE [2:0] RO, 04_modes.md. -/
def F.MODE_STAT_MODE : Field := ⟨343, 0, 3, .ro, 0, (.to 0), false⟩
/-- MODE_STAT.TRANSIT [3:3] RO, 04_modes.md. -/
def F.MODE_STAT_TRANSIT : Field := ⟨344, 3, 1, .ro, 0, (.to 0), false⟩
/-- MODE_STAT.TARGET [6:4] RO, 04_modes.md. -/
def F.MODE_STAT_TARGET : Field := ⟨345, 4, 3, .ro, 0, (.to 0), false⟩
/-- MODE_STAT.THROTTLE [7:7] RO, 04_modes.md. -/
def F.MODE_STAT_THROTTLE : Field := ⟨346, 7, 1, .ro, 0, .special, false⟩
/-- MODE_STAT.WARN [8:8] RO, 04_modes.md. -/
def F.MODE_STAT_WARN : Field := ⟨347, 8, 1, .ro, 0, .special, false⟩
/-- MODE_STAT.PREV_MODE [11:9] RO, 04_modes.md. -/
def F.MODE_STAT_PREV_MODE : Field := ⟨348, 9, 3, .ro, 0, .special, false⟩
/-- MODE_STAT.HELD [12:12] RO, 04_modes.md. -/
def F.MODE_STAT_HELD : Field := ⟨349, 12, 1, .ro, 0, .special, false⟩
/-- MODE_STAT.REMOVE_READY [13:13] RO, 04_modes.md. -/
def F.MODE_STAT_REMOVE_READY : Field := ⟨350, 13, 1, .ro, 0, (.to 0), false⟩
/-- MODE_STAT.ACTIVE_SITES [22:16] RO, 04_modes.md. -/
def F.MODE_STAT_ACTIVE_SITES : Field := ⟨351, 16, 7, .ro, 0, (.to 0), false⟩
/-- MODE_ENTRY_LO.TS_LO [31:0] RO, 04_modes.md. -/
def F.MODE_ENTRY_LO_TS_LO : Field := ⟨352, 0, 32, .ro, 0, (.to 0), false⟩
/-- MODE_ENTRY_HI.TS_HI [31:0] RO, 04_modes.md. -/
def F.MODE_ENTRY_HI_TS_HI : Field := ⟨353, 0, 32, .ro, 0, (.to 0), false⟩
/-- CFG_PART_ID.PART_ID [31:0] RO, 21_register_index.md. -/
def F.CFG_PART_ID_PART_ID : Field := ⟨354, 0, 32, .ro, 224265490, (.to 224265490), false⟩
/-! Block CEL. -/
/-- CEL_CFG.DENSITY [2:0] RO, 18_memory.md. -/
def F.CEL_CFG_DENSITY : Field := ⟨355, 0, 3, .ro, 0, .hold, false⟩
/-- CEL_CFG.CH_OK [15:8] RO, 18_memory.md. -/
def F.CEL_CFG_CH_OK : Field := ⟨356, 8, 8, .ro, 0, .hold, false⟩
/-- CEL_CFG.READY [16:16] RO, 18_memory.md. -/
def F.CEL_CFG_READY : Field := ⟨357, 16, 1, .ro, 0, .hold, false⟩
/-- CEL_CFG.SELF_REF [17:17] RO, 18_memory.md. -/
def F.CEL_CFG_SELF_REF : Field := ⟨358, 17, 1, .ro, 0, .special, false⟩
/-- CEL_TOP_LO.TOP_LO [31:0] RO, 18_memory.md. -/
def F.CEL_TOP_LO_TOP_LO : Field := ⟨359, 0, 32, .ro, 0, .hold, false⟩
/-- CEL_TOP_HI.TOP_HI [7:0] RO, 18_memory.md. -/
def F.CEL_TOP_HI_TOP_HI : Field := ⟨360, 0, 8, .ro, 128, .hold, false⟩
/-- CEL_ECC_CORR.COUNT [31:0] RO, 18_memory.md. -/
def F.CEL_ECC_CORR_COUNT : Field := ⟨361, 0, 32, .ro, 0, .hold, false⟩
/-- CEL_ECC_UNCORR.COUNT [31:0] RO, 18_memory.md. -/
def F.CEL_ECC_UNCORR_COUNT : Field := ⟨362, 0, 32, .ro, 0, .hold, false⟩
/-- CEL_ECC_ADDR_LO.ADDR_LO [31:6] RO, 18_memory.md. -/
def F.CEL_ECC_ADDR_LO_ADDR_LO : Field := ⟨363, 6, 26, .ro, 0, .hold, false⟩
/-- CEL_ECC_ADDR_HI.ADDR_HI [7:0] RO, 18_memory.md. -/
def F.CEL_ECC_ADDR_HI_ADDR_HI : Field := ⟨364, 0, 8, .ro, 0, .hold, false⟩
/-- CEL_ECC_ADDR_HI.CLASS [18:16] RO, 18_memory.md. -/
def F.CEL_ECC_ADDR_HI_CLASS : Field := ⟨365, 16, 3, .ro, 0, .hold, false⟩
/-- CEL_SCRUB.HOURS [7:0] RW, 18_memory.md. -/
def F.CEL_SCRUB_HOURS : Field := ⟨366, 0, 8, .rw, 24, .hold, false⟩
/-- CEL_SCRUB.PASSES [31:16] RO, 18_memory.md. -/
def F.CEL_SCRUB_PASSES : Field := ⟨367, 16, 16, .ro, 0, .hold, false⟩
/-- CEL_CLS_BYTES_LO.B_LO [31:0] RO, 18_memory.md. -/
def F.CEL_CLS_BYTES_LO_B_LO : Field := ⟨368, 0, 32, .ro, 0, .hold, false⟩
/-- CEL_CLS_BYTES_HI.B_HI [31:0] RO, 18_memory.md. -/
def F.CEL_CLS_BYTES_HI_B_HI : Field := ⟨369, 0, 32, .ro, 0, .hold, false⟩
/-- CEL_CLS_HELD.COUNT [31:0] RO, 18_memory.md. -/
def F.CEL_CLS_HELD_COUNT : Field := ⟨370, 0, 32, .ro, 0, .hold, false⟩
/-! Block SEQ. -/
/-- SEQ_STAB_COUNT.COUNT [15:0] RW, 07_pattern_store.md. -/
def F.SEQ_STAB_COUNT_COUNT : Field := ⟨371, 0, 16, .rw, 0, .special, false⟩
/-- SEQ_ERR.ENTRY [15:0] RO, 07_pattern_store.md. -/
def F.SEQ_ERR_ENTRY : Field := ⟨372, 0, 16, .ro, 0, (.to 0), false⟩
/-- SEQ_ERR.REASON [19:16] RO, 07_pattern_store.md. -/
def F.SEQ_ERR_REASON : Field := ⟨373, 16, 4, .ro, 0, (.to 0), false⟩
/-- SEQ_ERR.SITE [25:20] RO, 07_pattern_store.md. -/
def F.SEQ_ERR_SITE : Field := ⟨374, 20, 6, .ro, 0, (.to 0), false⟩
/-- SEQ_START.ENTRY [15:0] RW, 07_pattern_store.md. -/
def F.SEQ_START_ENTRY : Field := ⟨375, 0, 16, .rw, 0, (.to 0), false⟩
/-- SEQ_CUR.ENTRY [15:0] RO, 07_pattern_store.md. -/
def F.SEQ_CUR_ENTRY : Field := ⟨376, 0, 16, .ro, 0, (.to 0), false⟩
/-- SEQ_CUR.DECIDED [31:16] RO, 07_pattern_store.md. -/
def F.SEQ_CUR_DECIDED : Field := ⟨377, 16, 16, .ro, 65535, (.to 65535), false⟩
/-- SEQ_PASS.PASS [31:0] RO, 07_pattern_store.md. -/
def F.SEQ_PASS_PASS : Field := ⟨378, 0, 32, .ro, 0, (.to 0), false⟩
/-- SEQ_JUMP_REQ.REQ [0:0] W1S, 07_pattern_store.md. -/
def F.SEQ_JUMP_REQ_REQ : Field := ⟨379, 0, 1, .w1s, 0, (.to 0), false⟩
/-- SEQ_JUMP_REQ.CANCEL [1:1] WO, 07_pattern_store.md. -/
def F.SEQ_JUMP_REQ_CANCEL : Field := ⟨380, 1, 1, .wo, 0, (.to 0), false⟩
/-- SEQ_JUMP_REQ.PENDING [2:2] RO, 07_pattern_store.md. -/
def F.SEQ_JUMP_REQ_PENDING : Field := ⟨381, 2, 1, .ro, 0, (.to 0), false⟩
/-- SEQ_JUMP_REQ.JUMP_LATE [3:3] W1C, 07_pattern_store.md. -/
def F.SEQ_JUMP_REQ_JUMP_LATE : Field := ⟨382, 3, 1, .w1c, 0, (.to 0), false⟩
/-- SEQ_UNDERRUN.POLICY [0:0] RW, 07_pattern_store.md. -/
def F.SEQ_UNDERRUN_POLICY : Field := ⟨383, 0, 1, .rw, 0, (.to 0), false⟩
/-- SEQ_UNDERRUN.STALL_LIMIT_US [31:16] RW, 07_pattern_store.md. -/
def F.SEQ_UNDERRUN_STALL_LIMIT_US : Field := ⟨384, 16, 16, .rw, 0, (.to 0), false⟩
/-- SEQ_SSTAT.TIMING_BROKEN [0:0] RO, 07_pattern_store.md. -/
def F.SEQ_SSTAT_TIMING_BROKEN : Field := ⟨385, 0, 1, .ro, 0, (.to 0), false⟩
/-- SEQ_SSTAT.CHAIN_DONE [1:1] RO, 07_pattern_store.md. -/
def F.SEQ_SSTAT_CHAIN_DONE : Field := ⟨386, 1, 1, .ro, 0, (.to 0), false⟩
/-- SEQ_SSTAT.STALLING [2:2] RO, 07_pattern_store.md. -/
def F.SEQ_SSTAT_STALLING : Field := ⟨387, 2, 1, .ro, 0, (.to 0), false⟩
/-- SEQ_SSTAT.DECODE_ERR [3:3] W1C, 07_pattern_store.md. -/
def F.SEQ_SSTAT_DECODE_ERR : Field := ⟨388, 3, 1, .w1c, 0, (.to 0), false⟩
/-- SEQ_SSTAT.WIDTH_ERR [4:4] W1C, 07_pattern_store.md. -/
def F.SEQ_SSTAT_WIDTH_ERR : Field := ⟨389, 4, 1, .w1c, 0, (.to 0), false⟩
/-- SEQ_SSTAT.ENTRY_ERR [5:5] W1C, 07_pattern_store.md. -/
def F.SEQ_SSTAT_ENTRY_ERR : Field := ⟨390, 5, 1, .w1c, 0, (.to 0), false⟩
/-- SEQ_SSTAT.START_DEFERRED [6:6] RO, 07_pattern_store.md. -/
def F.SEQ_SSTAT_START_DEFERRED : Field := ⟨391, 6, 1, .ro, 0, (.to 0), false⟩
/-- SEQ_SSTAT.UNPINNED [7:7] W1C, 07_pattern_store.md. -/
def F.SEQ_SSTAT_UNPINNED : Field := ⟨392, 7, 1, .w1c, 0, (.to 0), false⟩
/-- SEQ_SSTAT.UNDERRUNS [31:16] RO, 07_pattern_store.md. -/
def F.SEQ_SSTAT_UNDERRUNS : Field := ⟨393, 16, 16, .ro, 0, (.to 0), false⟩
/-- SEQ_VEC_LO.VEC_LO [31:0] RO, 07_pattern_store.md. -/
def F.SEQ_VEC_LO_VEC_LO : Field := ⟨394, 0, 32, .ro, 0, (.to 0), false⟩
/-- SEQ_VEC_HI.VEC_HI [31:0] RO, 07_pattern_store.md. -/
def F.SEQ_VEC_HI_VEC_HI : Field := ⟨395, 0, 32, .ro, 0, (.to 0), false⟩
/-- SEQ_STALL_LO.ST_LO [31:0] RO, 07_pattern_store.md. -/
def F.SEQ_STALL_LO_ST_LO : Field := ⟨396, 0, 32, .ro, 0, (.to 0), false⟩
/-- SEQ_STALL_HI.ST_HI [31:0] RO, 07_pattern_store.md. -/
def F.SEQ_STALL_HI_ST_HI : Field := ⟨397, 0, 32, .ro, 0, (.to 0), false⟩
/-- SEQ_REFETCH.COUNT [31:0] RO, 07_pattern_store.md. -/
def F.SEQ_REFETCH_COUNT : Field := ⟨398, 0, 32, .ro, 0, (.to 0), false⟩
/-- SEQ_MARK.MK0 [15:0] RO, 07_pattern_store.md. -/
def F.SEQ_MARK_MK0 : Field := ⟨399, 0, 16, .ro, 0, (.to 0), false⟩
/-- SEQ_MARK.MK1 [31:16] RO, 07_pattern_store.md. -/
def F.SEQ_MARK_MK1 : Field := ⟨400, 16, 16, .ro, 0, (.to 0), false⟩
/-- SEQ_START_TMO.TMO_MS [15:0] RW, 07_pattern_store.md. -/
def F.SEQ_START_TMO_TMO_MS : Field := ⟨401, 0, 16, .rw, 500, (.to 500), false⟩
/-- SMUW_CUR.ENTRY [15:0] RO, 07_pattern_store.md. -/
def F.SMUW_CUR_ENTRY : Field := ⟨402, 0, 16, .ro, 0, (.to 0), false⟩
/-- SMUW_CUR.PLAYING [16:16] RO, 07_pattern_store.md. -/
def F.SMUW_CUR_PLAYING : Field := ⟨403, 16, 1, .ro, 0, (.to 0), false⟩
/-- SMUW_CUR.CHAIN_DONE [17:17] RO, 07_pattern_store.md. -/
def F.SMUW_CUR_CHAIN_DONE : Field := ⟨404, 17, 1, .ro, 0, (.to 0), false⟩
/-- SMUW_JUMP_REQ.REQ [0:0] W1S, 07_pattern_store.md. -/
def F.SMUW_JUMP_REQ_REQ : Field := ⟨405, 0, 1, .w1s, 0, (.to 0), false⟩
/-- SMUW_JUMP_REQ.CANCEL [1:1] WO, 07_pattern_store.md. -/
def F.SMUW_JUMP_REQ_CANCEL : Field := ⟨406, 1, 1, .wo, 0, (.to 0), false⟩
/-- SMUW_JUMP_REQ.PENDING [2:2] RO, 07_pattern_store.md. -/
def F.SMUW_JUMP_REQ_PENDING : Field := ⟨407, 2, 1, .ro, 0, (.to 0), false⟩
/-- SMUW_JUMP_REQ.JUMP_LATE [3:3] W1C, 07_pattern_store.md. -/
def F.SMUW_JUMP_REQ_JUMP_LATE : Field := ⟨408, 3, 1, .w1c, 0, (.to 0), false⟩
/-- SITE_STATE.STATE [3:0] RO, 09_multisite.md. -/
def F.SITE_STATE_STATE : Field := ⟨409, 0, 4, .ro, 0, .special, false⟩
/-- SITE_STATE.FINISHING [4:4] RO, 09_multisite.md. -/
def F.SITE_STATE_FINISHING : Field := ⟨410, 4, 1, .ro, 0, (.to 0), false⟩
/-- SITE_STATE.STEAL_EN [5:5] RO, 09_multisite.md. -/
def F.SITE_STATE_STEAL_EN : Field := ⟨411, 5, 1, .ro, 0, .special, false⟩
/-- SITE_STATE.END_SAFE [6:6] RO, 09_multisite.md. -/
def F.SITE_STATE_END_SAFE : Field := ⟨412, 6, 1, .ro, 0, .special, false⟩
/-- SITE_STATE.ENGINE [13:8] RO, 09_multisite.md. -/
def F.SITE_STATE_ENGINE : Field := ⟨413, 8, 6, .ro, 0, .special, false⟩
/-- SITE_STATE.TILE [18:16] RO, 09_multisite.md. -/
def F.SITE_STATE_TILE : Field := ⟨414, 16, 3, .ro, 0, .special, false⟩
/-- SITE_CMD.CMD [2:0] WO, 09_multisite.md. -/
def F.SITE_CMD_CMD : Field := ⟨415, 0, 3, .wo, 0, (.to 0), false⟩
/-- SITE_BIN.BIN [15:0] RO, 09_multisite.md. -/
def F.SITE_BIN_BIN : Field := ⟨416, 0, 16, .ro, 0, (.to 0), false⟩
/-- SITE_BIN.CAUSE [18:16] RO, 09_multisite.md. -/
def F.SITE_BIN_CAUSE : Field := ⟨417, 16, 3, .ro, 0, (.to 0), false⟩
/-- SITE_RUN.RUN [15:0] RO, 09_multisite.md. -/
def F.SITE_RUN_RUN : Field := ⟨418, 0, 16, .ro, 0, .special, false⟩
/-- SITE_RUN.RETESTS [31:16] RO, 09_multisite.md. -/
def F.SITE_RUN_RETESTS : Field := ⟨419, 16, 16, .ro, 0, (.to 0), false⟩
/-- SITE_TAG_LO.TAG_LO [31:0] RW, 09_multisite.md. -/
def F.SITE_TAG_LO_TAG_LO : Field := ⟨420, 0, 32, .rw, 0, (.to 0), false⟩
/-- SITE_TAG_HI.TAG_HI [31:0] RW, 09_multisite.md. -/
def F.SITE_TAG_HI_TAG_HI : Field := ⟨421, 0, 32, .rw, 0, (.to 0), false⟩
/-- SITE_FAILVEC.COUNT [31:0] RO, 09_multisite.md. -/
def F.SITE_FAILVEC_COUNT : Field := ⟨422, 0, 32, .ro, 0, (.to 0), false⟩
/-- SITE_FSIG.FSIG [31:0] RO, 09_multisite.md. -/
def F.SITE_FSIG_FSIG : Field := ⟨423, 0, 32, .ro, 0, (.to 0), false⟩
/-- SITE_FAILSTORED.COUNT [31:0] RO, 09_multisite.md. -/
def F.SITE_FAILSTORED_COUNT : Field := ⟨424, 0, 32, .ro, 0, (.to 0), false⟩
/-- SITE_REC_WR_LO.WR_LO [31:0] RO, 09_multisite.md. -/
def F.SITE_REC_WR_LO_WR_LO : Field := ⟨425, 0, 32, .ro, 0, .special, false⟩
/-- SITE_REC_WR_HI.WR_HI [31:0] RO, 09_multisite.md. -/
def F.SITE_REC_WR_HI_WR_HI : Field := ⟨426, 0, 32, .ro, 0, .special, false⟩
/-- SITE_REC_LOST.LOST [31:0] RO, 09_multisite.md. -/
def F.SITE_REC_LOST_LOST : Field := ⟨427, 0, 32, .ro, 0, .special, false⟩
/-- SITE_TASKS.QUEUED [5:0] RO, 09_multisite.md. -/
def F.SITE_TASKS_QUEUED : Field := ⟨428, 0, 6, .ro, 0, (.to 0), false⟩
/-- SITE_TASKS.HELD [13:8] RO, 09_multisite.md. -/
def F.SITE_TASKS_HELD : Field := ⟨429, 8, 6, .ro, 0, (.to 0), false⟩
/-! Block PAN. -/
/-- PAN_CTRL.RESIDENCY_US [15:0] RW, 07_pattern_store.md. -/
def F.PAN_CTRL_RESIDENCY_US : Field := ⟨430, 0, 16, .rw, 1000, (.to 1000), false⟩
/-- PAN_CTRL.AHEAD [23:16] RW, 07_pattern_store.md. -/
def F.PAN_CTRL_AHEAD : Field := ⟨431, 16, 8, .rw, 32, (.to 32), false⟩
/-- PAN_CTRL.PIN_EN [24:24] RW, 07_pattern_store.md. -/
def F.PAN_CTRL_PIN_EN : Field := ⟨432, 24, 1, .rw, 1, (.to 1), false⟩
/-- PAN_PIN_LIMIT.LINES [11:0] RW, 07_pattern_store.md. -/
def F.PAN_PIN_LIMIT_LINES : Field := ⟨433, 0, 12, .rw, 1024, (.to 1024), false⟩
/-- PAN_STAT.RESIDENT [13:0] RO, 07_pattern_store.md. -/
def F.PAN_STAT_RESIDENT : Field := ⟨434, 0, 14, .ro, 0, (.to 0), false⟩
/-- PAN_STAT.PINNED [27:16] RO, 07_pattern_store.md. -/
def F.PAN_STAT_PINNED : Field := ⟨435, 16, 12, .ro, 0, (.to 0), false⟩
/-- PAN_STAT.DECODERS [31:28] RO, 07_pattern_store.md. -/
def F.PAN_STAT_DECODERS : Field := ⟨436, 28, 4, .ro, 0, (.to 0), false⟩
/-- PAN_UNDERRUN.COUNT [31:0] RC, 07_pattern_store.md. -/
def F.PAN_UNDERRUN_COUNT : Field := ⟨437, 0, 32, .rc, 0, (.to 0), false⟩
/-- PAN_DECODE_ERR.COUNT [15:0] RC, 07_pattern_store.md. -/
def F.PAN_DECODE_ERR_COUNT : Field := ⟨438, 0, 16, .rc, 0, (.to 0), false⟩
/-- PAN_DECODE_ERR.PAT_ID [27:16] RO, 07_pattern_store.md. -/
def F.PAN_DECODE_ERR_PAT_ID : Field := ⟨439, 16, 12, .ro, 0, (.to 0), false⟩
/-- PAN_EVICT.COUNT [31:0] RC, 07_pattern_store.md. -/
def F.PAN_EVICT_COUNT : Field := ⟨440, 0, 32, .rc, 0, (.to 0), false⟩
/-- PAN_INVAL.PAT_ID [11:0] WO, 07_pattern_store.md. -/
def F.PAN_INVAL_PAT_ID : Field := ⟨441, 0, 12, .wo, 0, (.to 0), false⟩
/-- PAN_INVAL.ALL [16:16] WO, 07_pattern_store.md. -/
def F.PAN_INVAL_ALL : Field := ⟨442, 16, 1, .wo, 0, (.to 0), false⟩
/-- PAN_INVAL.BUSY [31:31] RO, 07_pattern_store.md. -/
def F.PAN_INVAL_BUSY : Field := ⟨443, 31, 1, .ro, 0, (.to 0), false⟩
/-- PAN_OVERBUDGET.COUNT [31:0] RC, 07_pattern_store.md. -/
def F.PAN_OVERBUDGET_COUNT : Field := ⟨444, 0, 32, .rc, 0, (.to 0), false⟩
/-! Block ACQ. -/
/-- ACQ_CFG.TRIG_SRC [3:0] RW, 13_acquisition.md. -/
def F.ACQ_CFG_TRIG_SRC : Field := ⟨445, 0, 4, .rw, 0, (.to 0), false⟩
/-- ACQ_CFG.TRIG_LINE [6:4] RW, 13_acquisition.md. -/
def F.ACQ_CFG_TRIG_LINE : Field := ⟨446, 4, 3, .rw, 0, (.to 0), false⟩
/-- ACQ_CFG.WAIT_PRE [7:7] RW, 13_acquisition.md. -/
def F.ACQ_CFG_WAIT_PRE : Field := ⟨447, 7, 1, .rw, 1, (.to 1), false⟩
/-- ACQ_CFG.AUTO_REDUCE [8:8] RW, 13_acquisition.md. -/
def F.ACQ_CFG_AUTO_REDUCE : Field := ⟨448, 8, 1, .rw, 1, (.to 1), false⟩
/-- ACQ_CFG.STREAMS [15:12] RW, 13_acquisition.md. -/
def F.ACQ_CFG_STREAMS : Field := ⟨449, 12, 4, .rw, 6, (.to 6), false⟩
/-- ACQ_CFG.P [18:16] RW, 13_acquisition.md. -/
def F.ACQ_CFG_P : Field := ⟨450, 16, 3, .rw, 0, (.to 0), false⟩
/-- ACQ_CTRL.ARM [0:0] WO, 13_acquisition.md. -/
def F.ACQ_CTRL_ARM : Field := ⟨451, 0, 1, .wo, 0, (.to 0), false⟩
/-- ACQ_CTRL.FORCE [1:1] WO, 13_acquisition.md. -/
def F.ACQ_CTRL_FORCE : Field := ⟨452, 1, 1, .wo, 0, (.to 0), false⟩
/-- ACQ_CTRL.CANCEL [2:2] WO, 13_acquisition.md. -/
def F.ACQ_CTRL_CANCEL : Field := ⟨453, 2, 1, .wo, 0, (.to 0), false⟩
/-- ACQ_CTRL.STATE [6:4] RO, 13_acquisition.md. -/
def F.ACQ_CTRL_STATE : Field := ⟨454, 4, 3, .ro, 0, (.to 0), false⟩
/-- ACQ_CTRL.SITE [21:16] RO, 13_acquisition.md. -/
def F.ACQ_CTRL_SITE : Field := ⟨455, 16, 6, .ro, 0, .hold, false⟩
/-- ACQ_CTRL.BOUND [22:22] RO, 13_acquisition.md. -/
def F.ACQ_CTRL_BOUND : Field := ⟨456, 22, 1, .ro, 0, .hold, false⟩
/-- ACQ_PRE.N [23:0] RW, 13_acquisition.md. -/
def F.ACQ_PRE_N : Field := ⟨457, 0, 24, .rw, 0, (.to 0), false⟩
/-- ACQ_POST.N [23:0] RW, 13_acquisition.md. -/
def F.ACQ_POST_N : Field := ⟨458, 0, 24, .rw, 1, (.to 1), false⟩
/-- ACQ_BUF_LO.BASE_LO [31:12] RW, 13_acquisition.md. -/
def F.ACQ_BUF_LO_BASE_LO : Field := ⟨459, 12, 20, .rw, 0, (.to 0), false⟩
/-- ACQ_BUF_HI.BASE_HI [7:0] RW, 13_acquisition.md. -/
def F.ACQ_BUF_HI_BASE_HI : Field := ⟨460, 0, 8, .rw, 0, (.to 0), false⟩
/-- ACQ_BUF_HI.LOG2 [20:16] RW, 13_acquisition.md. -/
def F.ACQ_BUF_HI_LOG2 : Field := ⟨461, 16, 5, .rw, 0, (.to 0), false⟩
/-- ACQ_LEVEL.CODE [23:0] RW, 13_acquisition.md. -/
def F.ACQ_LEVEL_CODE : Field := ⟨462, 0, 24, .rw, 0, (.to 0), false⟩
/-- ACQ_HYST.CODE [23:0] RW, 13_acquisition.md. -/
def F.ACQ_HYST_CODE : Field := ⟨463, 0, 24, .rw, 4, (.to 4), false⟩
/-- ACQ_TTIME_LO.T_LO [31:0] RW, 13_acquisition.md. -/
def F.ACQ_TTIME_LO_T_LO : Field := ⟨464, 0, 32, .rw, 0, (.to 0), false⟩
/-- ACQ_TTIME_HI.T_HI [31:0] RW, 13_acquisition.md. -/
def F.ACQ_TTIME_HI_T_HI : Field := ⟨465, 0, 32, .rw, 0, (.to 0), false⟩
/-- ACQ_STAT.FORCED [0:0] W1C, 13_acquisition.md. -/
def F.ACQ_STAT_FORCED : Field := ⟨466, 0, 1, .w1c, 0, (.to 0), false⟩
/-- ACQ_STAT.PRE_SHORT [1:1] W1C, 13_acquisition.md. -/
def F.ACQ_STAT_PRE_SHORT : Field := ⟨467, 1, 1, .w1c, 0, (.to 0), false⟩
/-- ACQ_STAT.POST_SHORT [2:2] W1C, 13_acquisition.md. -/
def F.ACQ_STAT_POST_SHORT : Field := ⟨468, 2, 1, .w1c, 0, (.to 0), false⟩
/-- ACQ_STAT.DROP [3:3] W1C, 13_acquisition.md. -/
def F.ACQ_STAT_DROP : Field := ⟨469, 3, 1, .w1c, 0, (.to 0), false⟩
/-- ACQ_STAT.STALE [4:4] W1C, 13_acquisition.md. -/
def F.ACQ_STAT_STALE : Field := ⟨470, 4, 1, .w1c, 0, (.to 0), false⟩
/-- ACQ_STAT.RANGED [5:5] W1C, 13_acquisition.md. -/
def F.ACQ_STAT_RANGED : Field := ⟨471, 5, 1, .w1c, 0, (.to 0), false⟩
/-- ACQ_STAT.LATE [6:6] W1C, 13_acquisition.md. -/
def F.ACQ_STAT_LATE : Field := ⟨472, 6, 1, .w1c, 0, (.to 0), false⟩
/-- ACQ_STAT.CANCELLED [7:7] W1C, 13_acquisition.md. -/
def F.ACQ_STAT_CANCELLED : Field := ⟨473, 7, 1, .w1c, 0, (.to 0), false⟩
/-- ACQ_TRIG_TS_LO.TS_LO [31:0] RO, 13_acquisition.md. -/
def F.ACQ_TRIG_TS_LO_TS_LO : Field := ⟨474, 0, 32, .ro, 0, (.to 0), false⟩
/-- ACQ_TRIG_TS_HI.TS_HI [31:0] RO, 13_acquisition.md. -/
def F.ACQ_TRIG_TS_HI_TS_HI : Field := ⟨475, 0, 32, .ro, 0, (.to 0), false⟩
/-- ACQ_WR_IDX.IDX [23:0] RO, 13_acquisition.md. -/
def F.ACQ_WR_IDX_IDX : Field := ⟨476, 0, 24, .ro, 0, (.to 0), false⟩
/-- ACQ_COUNT.CAPTURES [15:0] RO, 13_acquisition.md. -/
def F.ACQ_COUNT_CAPTURES : Field := ⟨477, 0, 16, .ro, 0, (.to 0), false⟩
/-- ACQ_COUNT.EXTRA [31:16] RO, 13_acquisition.md. -/
def F.ACQ_COUNT_EXTRA : Field := ⟨478, 16, 16, .ro, 0, (.to 0), false⟩
/-- ACQ_FIRST_IDX.IDX [23:0] RO, 13_acquisition.md. -/
def F.ACQ_FIRST_IDX_IDX : Field := ⟨479, 0, 24, .ro, 0, (.to 0), false⟩
/-! Block CHAN. -/
/-- CH_CTRL.DRV_EN [0:0] RW, 05_pin_electronics.md. -/
def F.CH_CTRL_DRV_EN : Field := ⟨480, 0, 1, .rw, 0, .safe, false⟩
/-- CH_CTRL.TERM_MODE [2:1] RW, 05_pin_electronics.md. -/
def F.CH_CTRL_TERM_MODE : Field := ⟨481, 1, 2, .rw, 0, .hold, false⟩
/-- CH_CTRL.KEEP_MODE [4:3] RW, 05_pin_electronics.md. -/
def F.CH_CTRL_KEEP_MODE : Field := ⟨482, 3, 2, .rw, 0, .hold, false⟩
/-- CH_CTRL.CMP_MODE [5:5] RW, 05_pin_electronics.md. -/
def F.CH_CTRL_CMP_MODE : Field := ⟨483, 5, 1, .rw, 0, .hold, false⟩
/-- CH_CTRL.PAIR [6:6] RW, 05_pin_electronics.md. -/
def F.CH_CTRL_PAIR : Field := ⟨484, 6, 1, .rw, 0, .hold, false⟩
/-- CH_CTRL.BANK [7:7] RW, 05_pin_electronics.md. -/
def F.CH_CTRL_BANK : Field := ⟨485, 7, 1, .rw, 0, .hold, false⟩
/-- CH_CTRL.MASK [8:8] RW, 05_pin_electronics.md. -/
def F.CH_CTRL_MASK : Field := ⟨486, 8, 1, .rw, 0, .hold, false⟩
/-- CH_CTRL.SITE [21:16] RO, 05_pin_electronics.md. -/
def F.CH_CTRL_SITE : Field := ⟨487, 16, 6, .ro, 0, .hold, false⟩
/-- CH_CTRL.BOUND [22:22] RO, 05_pin_electronics.md. -/
def F.CH_CTRL_BOUND : Field := ⟨488, 22, 1, .ro, 0, .hold, false⟩
/-- CH_STAT.FAIL [0:0] W1C, 05_pin_electronics.md. -/
def F.CH_STAT_FAIL : Field := ⟨489, 0, 1, .w1c, 0, .hold, false⟩
/-- CH_STAT.LVL_CLAMP [1:1] W1C, 05_pin_electronics.md. -/
def F.CH_STAT_LVL_CLAMP : Field := ⟨490, 1, 1, .w1c, 0, .hold, false⟩
/-- CH_STAT.CODE_ERR [2:2] W1C, 05_pin_electronics.md. -/
def F.CH_STAT_CODE_ERR : Field := ⟨491, 2, 1, .w1c, 0, .hold, false⟩
/-- CH_STAT.PMU_CLAMP [3:3] W1C, 05_pin_electronics.md. -/
def F.CH_STAT_PMU_CLAMP : Field := ⟨492, 3, 1, .w1c, 0, .hold, false⟩
/-- CH_STAT.TRIP_SEEN [4:4] W1C, 05_pin_electronics.md. -/
def F.CH_STAT_TRIP_SEEN : Field := ⟨493, 4, 1, .w1c, 0, .hold, false⟩
/-- CH_STAT.SAFE [8:8] RO, 05_pin_electronics.md. -/
def F.CH_STAT_SAFE : Field := ⟨494, 8, 1, .ro, 1, .special, false⟩
/-- CH_STAT.TRIPPED [9:9] RO, 05_pin_electronics.md. -/
def F.CH_STAT_TRIPPED : Field := ⟨495, 9, 1, .ro, 0, .special, false⟩
/-- CH_STAT.SETTLING [10:10] RO, 05_pin_electronics.md. -/
def F.CH_STAT_SETTLING : Field := ⟨496, 10, 1, .ro, 0, .special, false⟩
/-- CH_STAT.PAIRED_ODD [11:11] RO, 05_pin_electronics.md. -/
def F.CH_STAT_PAIRED_ODD : Field := ⟨497, 11, 1, .ro, 0, .special, false⟩
/-- CH_STAT.CMP_HI [12:12] RO, 05_pin_electronics.md. -/
def F.CH_STAT_CMP_HI : Field := ⟨498, 12, 1, .ro, 0, .special, false⟩
/-- CH_STAT.CMP_LO [13:13] RO, 05_pin_electronics.md. -/
def F.CH_STAT_CMP_LO : Field := ⟨499, 13, 1, .ro, 0, .special, false⟩
/-- CH_STAT.STALE [14:14] RO, 05_pin_electronics.md. -/
def F.CH_STAT_STALE : Field := ⟨500, 14, 1, .ro, 0, .special, false⟩
/-- CH_VIH0.VALUE [15:0] RW, 05_pin_electronics.md. -/
def F.CH_VIH0_VALUE : Field := ⟨501, 0, 16, .rw, 0, .hold, false⟩
/-- CH_VIL0.VALUE [15:0] RW, 05_pin_electronics.md. -/
def F.CH_VIL0_VALUE : Field := ⟨502, 0, 16, .rw, 0, .hold, false⟩
/-- CH_VOH0.VALUE [15:0] RW, 05_pin_electronics.md. -/
def F.CH_VOH0_VALUE : Field := ⟨503, 0, 16, .rw, 0, .hold, false⟩
/-- CH_VOL0.VALUE [15:0] RW, 05_pin_electronics.md. -/
def F.CH_VOL0_VALUE : Field := ⟨504, 0, 16, .rw, 0, .hold, false⟩
/-- CH_VT0.VALUE [15:0] RW, 05_pin_electronics.md. -/
def F.CH_VT0_VALUE : Field := ⟨505, 0, 16, .rw, 0, .hold, false⟩
/-- CH_VIH1.VALUE [15:0] RW, 05_pin_electronics.md. -/
def F.CH_VIH1_VALUE : Field := ⟨506, 0, 16, .rw, 0, .hold, false⟩
/-- CH_VIL1.VALUE [15:0] RW, 05_pin_electronics.md. -/
def F.CH_VIL1_VALUE : Field := ⟨507, 0, 16, .rw, 0, .hold, false⟩
/-- CH_VOH1.VALUE [15:0] RW, 05_pin_electronics.md. -/
def F.CH_VOH1_VALUE : Field := ⟨508, 0, 16, .rw, 0, .hold, false⟩
/-- CH_VOL1.VALUE [15:0] RW, 05_pin_electronics.md. -/
def F.CH_VOL1_VALUE : Field := ⟨509, 0, 16, .rw, 0, .hold, false⟩
/-- CH_VT1.VALUE [15:0] RW, 05_pin_electronics.md. -/
def F.CH_VT1_VALUE : Field := ⟨510, 0, 16, .rw, 0, .hold, false⟩
/-- CH_FAILCNT.COUNT [31:0] RO, 05_pin_electronics.md. -/
def F.CH_FAILCNT_COUNT : Field := ⟨511, 0, 32, .ro, 0, (.to 0), false⟩
/-- CH_FIRSTFAIL_LO.VEC_LO [31:0] RO, 05_pin_electronics.md. -/
def F.CH_FIRSTFAIL_LO_VEC_LO : Field := ⟨512, 0, 32, .ro, 4294967295, (.to 4294967295), false⟩
/-- CH_FIRSTFAIL_HI.VEC_HI [31:0] RO, 05_pin_electronics.md. -/
def F.CH_FIRSTFAIL_HI_VEC_HI : Field := ⟨513, 0, 32, .ro, 4294967295, (.to 4294967295), false⟩
/-- PMU_CTRL.MODE [2:0] RW, 05_pin_electronics.md. -/
def F.PMU_CTRL_MODE : Field := ⟨514, 0, 3, .rw, 0, .hold, false⟩
/-- PMU_CTRL.RANGE [6:4] RW, 05_pin_electronics.md. -/
def F.PMU_CTRL_RANGE : Field := ⟨515, 4, 3, .rw, 0, .hold, false⟩
/-- PMU_CTRL.CONNECT [8:8] RW, 05_pin_electronics.md. -/
def F.PMU_CTRL_CONNECT : Field := ⟨516, 8, 1, .rw, 0, .safe, false⟩
/-- PMU_CTRL.AVG [11:9] RW, 05_pin_electronics.md. -/
def F.PMU_CTRL_AVG : Field := ⟨517, 9, 3, .rw, 0, .hold, false⟩
/-- PMU_CTRL.MEAS [12:12] WO, 05_pin_electronics.md. -/
def F.PMU_CTRL_MEAS : Field := ⟨518, 12, 1, .wo, 0, (.to 0), false⟩
/-- PMU_CTRL.BUSY [13:13] RO, 05_pin_electronics.md. -/
def F.PMU_CTRL_BUSY : Field := ⟨519, 13, 1, .ro, 0, (.to 0), false⟩
/-- PMU_CTRL.RANGING [14:14] RO, 05_pin_electronics.md. -/
def F.PMU_CTRL_RANGING : Field := ⟨520, 14, 1, .ro, 0, (.to 0), false⟩
/-- PMU_FORCE.VALUE [15:0] RW, 05_pin_electronics.md. -/
def F.PMU_FORCE_VALUE : Field := ⟨521, 0, 16, .rw, 0, .hold, false⟩
/-- PMU_VCLAMP.VCL_HI [15:0] RW, 05_pin_electronics.md. -/
def F.PMU_VCLAMP_VCL_HI : Field := ⟨522, 0, 16, .rw, 6000, .hold, false⟩
/-- PMU_VCLAMP.VCL_LO [31:16] RW, 05_pin_electronics.md. -/
def F.PMU_VCLAMP_VCL_LO : Field := ⟨523, 16, 16, .rw, 59536, .hold, false⟩
/-- PMU_ICLAMP.ICL [15:0] RW, 05_pin_electronics.md. -/
def F.PMU_ICLAMP_ICL : Field := ⟨524, 0, 16, .rw, 32767, .hold, false⟩
/-- PMU_RESULT.VALUE [15:0] RO, 05_pin_electronics.md. -/
def F.PMU_RESULT_VALUE : Field := ⟨525, 0, 16, .ro, 0, (.to 0), false⟩
/-- PMU_RESULT.VALID [16:16] RO, 05_pin_electronics.md. -/
def F.PMU_RESULT_VALID : Field := ⟨526, 16, 1, .ro, 0, (.to 0), false⟩
/-- PMU_RESULT.CLAMPED [17:17] RO, 05_pin_electronics.md. -/
def F.PMU_RESULT_CLAMPED : Field := ⟨527, 17, 1, .ro, 0, (.to 0), false⟩
/-- PMU_RESULT.OVER [18:18] RO, 05_pin_electronics.md. -/
def F.PMU_RESULT_OVER : Field := ⟨528, 18, 1, .ro, 0, (.to 0), false⟩
/-- PMU_RESULT.STALE [19:19] RO, 05_pin_electronics.md. -/
def F.PMU_RESULT_STALE : Field := ⟨529, 19, 1, .ro, 0, (.to 0), false⟩
/-- CH_DSK.DSK_DRV [12:0] RW, 06_timing.md. -/
def F.CH_DSK_DSK_DRV : Field := ⟨530, 0, 13, .rw, 0, .hold, false⟩
/-- CH_DSK.DSK_CMP [28:16] RW, 06_timing.md. -/
def F.CH_DSK_DSK_CMP : Field := ⟨531, 16, 13, .rw, 0, .hold, false⟩
/-- CH_DSK.PEND [31:31] RO, 06_timing.md. -/
def F.CH_DSK_PEND : Field := ⟨532, 31, 1, .ro, 0, (.to 0), false⟩
/-- TS_EDGE.TIME [29:0] RW, 06_timing.md. -/
def F.TS_EDGE_TIME : Field := ⟨533, 0, 30, .rw, 0, .hold, false⟩
/-! Block DPS. -/
/-- DPS_CTRL.EN [0:0] RW, 10_supplies_smu.md. -/
def F.DPS_CTRL_EN : Field := ⟨534, 0, 1, .rw, 0, .safe, false⟩
/-- DPS_CTRL.IRANGE [3:1] RW, 10_supplies_smu.md. -/
def F.DPS_CTRL_IRANGE : Field := ⟨535, 1, 3, .rw, 5, .hold, false⟩
/-- DPS_CTRL.COMP [5:4] RW, 10_supplies_smu.md. -/
def F.DPS_CTRL_COMP : Field := ⟨536, 4, 2, .rw, 0, .hold, false⟩
/-- DPS_CTRL.EXT [6:6] RW, 10_supplies_smu.md. -/
def F.DPS_CTRL_EXT : Field := ⟨537, 6, 1, .rw, 0, .hold, false⟩
/-- DPS_CTRL.SLEW [12:8] RW, 10_supplies_smu.md. -/
def F.DPS_CTRL_SLEW : Field := ⟨538, 8, 5, .rw, 10, .hold, false⟩
/-- DPS_CTRL.SITE [21:16] RO, 10_supplies_smu.md. -/
def F.DPS_CTRL_SITE : Field := ⟨539, 16, 6, .ro, 0, .hold, false⟩
/-- DPS_CTRL.BOUND [22:22] RO, 10_supplies_smu.md. -/
def F.DPS_CTRL_BOUND : Field := ⟨540, 22, 1, .ro, 0, .hold, false⟩
/-- DPS_CTRL.LEAD [23:23] RO, 10_supplies_smu.md. -/
def F.DPS_CTRL_LEAD : Field := ⟨541, 23, 1, .ro, 1, .hold, false⟩
/-- DPS_CTRL.MEMBERS [26:24] RO, 10_supplies_smu.md. -/
def F.DPS_CTRL_MEMBERS : Field := ⟨542, 24, 3, .ro, 0, .hold, false⟩
/-- DPS_VSET.VALUE [15:0] RW, 10_supplies_smu.md. -/
def F.DPS_VSET_VALUE : Field := ⟨543, 0, 16, .rw, 0, .hold, false⟩
/-- DPS_ILIM.VALUE [31:0] RW, 10_supplies_smu.md. -/
def F.DPS_ILIM_VALUE : Field := ⟨544, 0, 32, .rw, 1000, .hold, false⟩
/-- DPS_EXT_SHUNT.UOHM [23:0] RW, 10_supplies_smu.md. -/
def F.DPS_EXT_SHUNT_UOHM : Field := ⟨545, 0, 24, .rw, 12500, .hold, false⟩
/-- DPS_STAT.CLAMP [0:0] W1C, 10_supplies_smu.md. -/
def F.DPS_STAT_CLAMP : Field := ⟨546, 0, 1, .w1c, 0, .hold, false⟩
/-- DPS_STAT.ILIM_SEEN [1:1] W1C, 10_supplies_smu.md. -/
def F.DPS_STAT_ILIM_SEEN : Field := ⟨547, 1, 1, .w1c, 0, .hold, false⟩
/-- DPS_STAT.RAMP_HELD [2:2] W1C, 10_supplies_smu.md. -/
def F.DPS_STAT_RAMP_HELD : Field := ⟨548, 2, 1, .w1c, 0, .hold, false⟩
/-- DPS_STAT.REG_LOSS [3:3] W1C, 10_supplies_smu.md. -/
def F.DPS_STAT_REG_LOSS : Field := ⟨549, 3, 1, .w1c, 0, .hold, false⟩
/-- DPS_STAT.SENSE_DROP [4:4] W1C, 10_supplies_smu.md. -/
def F.DPS_STAT_SENSE_DROP : Field := ⟨550, 4, 1, .w1c, 0, .hold, false⟩
/-- DPS_STAT.SHARE [5:5] W1C, 10_supplies_smu.md. -/
def F.DPS_STAT_SHARE : Field := ⟨551, 5, 1, .w1c, 0, .hold, false⟩
/-- DPS_STAT.THERM_REF [6:6] W1C, 10_supplies_smu.md. -/
def F.DPS_STAT_THERM_REF : Field := ⟨552, 6, 1, .w1c, 0, .hold, false⟩
/-- DPS_STAT.TRIP_SEEN [7:7] W1C, 10_supplies_smu.md. -/
def F.DPS_STAT_TRIP_SEEN : Field := ⟨553, 7, 1, .w1c, 0, .hold, false⟩
/-- DPS_STAT.ON [16:16] RO, 10_supplies_smu.md. -/
def F.DPS_STAT_ON : Field := ⟨554, 16, 1, .ro, 0, .special, false⟩
/-- DPS_STAT.RAMPING [17:17] RO, 10_supplies_smu.md. -/
def F.DPS_STAT_RAMPING : Field := ⟨555, 17, 1, .ro, 0, .special, false⟩
/-- DPS_STAT.SETTLED [18:18] RO, 10_supplies_smu.md. -/
def F.DPS_STAT_SETTLED : Field := ⟨556, 18, 1, .ro, 0, .special, false⟩
/-- DPS_STAT.IN_LIMIT [19:19] RO, 10_supplies_smu.md. -/
def F.DPS_STAT_IN_LIMIT : Field := ⟨557, 19, 1, .ro, 0, .special, false⟩
/-- DPS_STAT.TRIPPED [20:20] RO, 10_supplies_smu.md. -/
def F.DPS_STAT_TRIPPED : Field := ⟨558, 20, 1, .ro, 0, .special, false⟩
/-- DPS_STAT.RANGING [21:21] RO, 10_supplies_smu.md. -/
def F.DPS_STAT_RANGING : Field := ⟨559, 21, 1, .ro, 0, .special, false⟩
/-- DPS_STAT.STALE [22:22] RO, 10_supplies_smu.md. -/
def F.DPS_STAT_STALE : Field := ⟨560, 22, 1, .ro, 0, .special, false⟩
/-- DPS_MON_V.VALUE [15:0] RO, 10_supplies_smu.md. -/
def F.DPS_MON_V_VALUE : Field := ⟨561, 0, 16, .ro, 0, .special, false⟩
/-- DPS_MON_I.VALUE [31:0] RO, 10_supplies_smu.md. -/
def F.DPS_MON_I_VALUE : Field := ⟨562, 0, 32, .ro, 0, .special, false⟩
/-- DPS_MEAS.AVG [2:0] RW, 10_supplies_smu.md. -/
def F.DPS_MEAS_AVG : Field := ⟨563, 0, 3, .rw, 0, .hold, false⟩
/-- DPS_MEAS.MEAS [3:3] WO, 10_supplies_smu.md. -/
def F.DPS_MEAS_MEAS : Field := ⟨564, 3, 1, .wo, 0, (.to 0), false⟩
/-- DPS_MEAS.BUSY [4:4] RO, 10_supplies_smu.md. -/
def F.DPS_MEAS_BUSY : Field := ⟨565, 4, 1, .ro, 0, (.to 0), false⟩
/-- DPS_RES_V.VALUE [15:0] RO, 10_supplies_smu.md. -/
def F.DPS_RES_V_VALUE : Field := ⟨566, 0, 16, .ro, 0, (.to 0), false⟩
/-- DPS_RES_I.VALUE [31:0] RO, 10_supplies_smu.md. -/
def F.DPS_RES_I_VALUE : Field := ⟨567, 0, 32, .ro, 0, (.to 0), false⟩
/-- DPS_RES_STAT.VALID [0:0] RO, 10_supplies_smu.md. -/
def F.DPS_RES_STAT_VALID : Field := ⟨568, 0, 1, .ro, 0, (.to 0), false⟩
/-- DPS_RES_STAT.LIMITED [1:1] RO, 10_supplies_smu.md. -/
def F.DPS_RES_STAT_LIMITED : Field := ⟨569, 1, 1, .ro, 0, (.to 0), false⟩
/-- DPS_RES_STAT.OVER [2:2] RO, 10_supplies_smu.md. -/
def F.DPS_RES_STAT_OVER : Field := ⟨570, 2, 1, .ro, 0, (.to 0), false⟩
/-- DPS_RES_STAT.STALE [3:3] RO, 10_supplies_smu.md. -/
def F.DPS_RES_STAT_STALE : Field := ⟨571, 3, 1, .ro, 0, (.to 0), false⟩
/-- DPS_OUT.POINT [15:0] RO, 10_supplies_smu.md. -/
def F.DPS_OUT_POINT : Field := ⟨572, 0, 16, .ro, 0, .special, false⟩
/-! Block SMU. -/
/-- SMU_CTRL.EN [0:0] RW, 10_supplies_smu.md. -/
def F.SMU_CTRL_EN : Field := ⟨573, 0, 1, .rw, 0, .safe, false⟩
/-- SMU_CTRL.SRC [2:1] RW, 10_supplies_smu.md. -/
def F.SMU_CTRL_SRC : Field := ⟨574, 1, 2, .rw, 0, (.to 0), false⟩
/-- SMU_CTRL.FMODE [3:3] RW, 10_supplies_smu.md. -/
def F.SMU_CTRL_FMODE : Field := ⟨575, 3, 1, .rw, 0, .hold, false⟩
/-- SMU_CTRL.VRANGE [4:4] RW, 10_supplies_smu.md. -/
def F.SMU_CTRL_VRANGE : Field := ⟨576, 4, 1, .rw, 1, .hold, false⟩
/-- SMU_CTRL.IRANGE [7:5] RW, 10_supplies_smu.md. -/
def F.SMU_CTRL_IRANGE : Field := ⟨577, 5, 3, .rw, 4, .hold, false⟩
/-- SMU_CTRL.SITE [21:16] RO, 10_supplies_smu.md. -/
def F.SMU_CTRL_SITE : Field := ⟨578, 16, 6, .ro, 0, .hold, false⟩
/-- SMU_CTRL.BOUND [22:22] RO, 10_supplies_smu.md. -/
def F.SMU_CTRL_BOUND : Field := ⟨579, 22, 1, .ro, 0, .hold, false⟩
/-- SMU_SET.VALUE [31:0] RW, 10_supplies_smu.md. -/
def F.SMU_SET_VALUE : Field := ⟨580, 0, 32, .rw, 0, .special, false⟩
/-- SMU_ICOMP.VALUE [22:0] RW, 10_supplies_smu.md. -/
def F.SMU_ICOMP_VALUE : Field := ⟨581, 0, 23, .rw, 400000, .hold, false⟩
/-- SMU_VCOMP.VALUE [22:0] RW, 10_supplies_smu.md. -/
def F.SMU_VCOMP_VALUE : Field := ⟨582, 0, 23, .rw, 400000, .hold, false⟩
/-- SMU_STAT.CLAMP [0:0] W1C, 10_supplies_smu.md. -/
def F.SMU_STAT_CLAMP : Field := ⟨583, 0, 1, .w1c, 0, .hold, false⟩
/-- SMU_STAT.COMP_SEEN [1:1] W1C, 10_supplies_smu.md. -/
def F.SMU_STAT_COMP_SEEN : Field := ⟨584, 1, 1, .w1c, 0, .hold, false⟩
/-- SMU_STAT.CLIP [2:2] W1C, 10_supplies_smu.md. -/
def F.SMU_STAT_CLIP : Field := ⟨585, 2, 1, .w1c, 0, .hold, false⟩
/-- SMU_STAT.MISMATCH [3:3] W1C, 10_supplies_smu.md. -/
def F.SMU_STAT_MISMATCH : Field := ⟨586, 3, 1, .w1c, 0, .hold, false⟩
/-- SMU_STAT.TRIP_SEEN [4:4] W1C, 10_supplies_smu.md. -/
def F.SMU_STAT_TRIP_SEEN : Field := ⟨587, 4, 1, .w1c, 0, .hold, false⟩
/-- SMU_STAT.CLOSED [16:16] RO, 10_supplies_smu.md. -/
def F.SMU_STAT_CLOSED : Field := ⟨588, 16, 1, .ro, 0, .special, false⟩
/-- SMU_STAT.IN_COMP [17:17] RO, 10_supplies_smu.md. -/
def F.SMU_STAT_IN_COMP : Field := ⟨589, 17, 1, .ro, 0, .special, false⟩
/-- SMU_STAT.RANGING [18:18] RO, 10_supplies_smu.md. -/
def F.SMU_STAT_RANGING : Field := ⟨590, 18, 1, .ro, 0, .special, false⟩
/-- SMU_STAT.TRIPPED [19:19] RO, 10_supplies_smu.md. -/
def F.SMU_STAT_TRIPPED : Field := ⟨591, 19, 1, .ro, 0, .special, false⟩
/-- SMU_STAT.STALE [20:20] RO, 10_supplies_smu.md. -/
def F.SMU_STAT_STALE : Field := ⟨592, 20, 1, .ro, 0, .special, false⟩
/-- SMU_STAT.SETTLED [21:21] RO, 10_supplies_smu.md. -/
def F.SMU_STAT_SETTLED : Field := ⟨593, 21, 1, .ro, 0, .special, false⟩
/-- SMU_SINE_FREQ.FREQ [31:0] RW, 10_supplies_smu.md. -/
def F.SMU_SINE_FREQ_FREQ : Field := ⟨594, 0, 32, .rw, 0, .hold, false⟩
/-- SMU_SINE_AMPL.AMPL [22:0] RW, 10_supplies_smu.md. -/
def F.SMU_SINE_AMPL_AMPL : Field := ⟨595, 0, 23, .rw, 0, .hold, false⟩
/-- SMU_SINE_PHASE0.PHASE [31:0] RW, 10_supplies_smu.md. -/
def F.SMU_SINE_PHASE0_PHASE : Field := ⟨596, 0, 32, .rw, 0, .hold, false⟩
/-- SMU_SUP.TOL [9:0] RW, 10_supplies_smu.md. -/
def F.SMU_SUP_TOL : Field := ⟨597, 0, 10, .rw, 20, .hold, false⟩
/-- SMU_SUP.TIME [23:16] RW, 10_supplies_smu.md. -/
def F.SMU_SUP_TIME : Field := ⟨598, 16, 8, .rw, 10, .hold, false⟩
/-- SMU_MON_V.VALUE [31:0] RO, 10_supplies_smu.md. -/
def F.SMU_MON_V_VALUE : Field := ⟨599, 0, 32, .ro, 0, .special, false⟩
/-- SMU_MON_I.VALUE [31:0] RO, 10_supplies_smu.md. -/
def F.SMU_MON_I_VALUE : Field := ⟨600, 0, 32, .ro, 0, .special, false⟩
/-- SMU_RB.RAW [15:0] RO, 10_supplies_smu.md. -/
def F.SMU_RB_RAW : Field := ⟨601, 0, 16, .ro, 0, .special, false⟩
/-- SMU_MEAS.AVG [2:0] RW, 10_supplies_smu.md. -/
def F.SMU_MEAS_AVG : Field := ⟨602, 0, 3, .rw, 0, .hold, false⟩
/-- SMU_MEAS.MEAS [3:3] WO, 10_supplies_smu.md. -/
def F.SMU_MEAS_MEAS : Field := ⟨603, 3, 1, .wo, 0, (.to 0), false⟩
/-- SMU_MEAS.BUSY [4:4] RO, 10_supplies_smu.md. -/
def F.SMU_MEAS_BUSY : Field := ⟨604, 4, 1, .ro, 0, (.to 0), false⟩
/-- SMU_RES_V.VALUE [31:0] RO, 10_supplies_smu.md. -/
def F.SMU_RES_V_VALUE : Field := ⟨605, 0, 32, .ro, 0, (.to 0), false⟩
/-- SMU_RES_I.VALUE [31:0] RO, 10_supplies_smu.md. -/
def F.SMU_RES_I_VALUE : Field := ⟨606, 0, 32, .ro, 0, (.to 0), false⟩
/-- SMU_RES_STAT.VALID [0:0] RO, 10_supplies_smu.md. -/
def F.SMU_RES_STAT_VALID : Field := ⟨607, 0, 1, .ro, 0, (.to 0), false⟩
/-- SMU_RES_STAT.LIMITED [1:1] RO, 10_supplies_smu.md. -/
def F.SMU_RES_STAT_LIMITED : Field := ⟨608, 1, 1, .ro, 0, (.to 0), false⟩
/-- SMU_RES_STAT.OVER [2:2] RO, 10_supplies_smu.md. -/
def F.SMU_RES_STAT_OVER : Field := ⟨609, 2, 1, .ro, 0, (.to 0), false⟩
/-- SMU_RES_STAT.STALE [3:3] RO, 10_supplies_smu.md. -/
def F.SMU_RES_STAT_STALE : Field := ⟨610, 3, 1, .ro, 0, (.to 0), false⟩
/-! Block TDC. -/
/-- TDC_CTRL.ARM [0:0] WO, 12_time_measurement.md. -/
def F.TDC_CTRL_ARM : Field := ⟨611, 0, 1, .wo, 0, (.to 0), false⟩
/-- TDC_CTRL.DISARM [1:1] WO, 12_time_measurement.md. -/
def F.TDC_CTRL_DISARM : Field := ⟨612, 1, 1, .wo, 0, (.to 0), false⟩
/-- TDC_CTRL.ARMED [2:2] RO, 12_time_measurement.md. -/
def F.TDC_CTRL_ARMED : Field := ⟨613, 2, 1, .ro, 0, (.to 0), false⟩
/-- TDC_CTRL.OPEN [3:3] RO, 12_time_measurement.md. -/
def F.TDC_CTRL_OPEN : Field := ⟨614, 3, 1, .ro, 0, (.to 0), false⟩
/-- TDC_CTRL.BAND_PEND [4:4] RO, 12_time_measurement.md. -/
def F.TDC_CTRL_BAND_PEND : Field := ⟨615, 4, 1, .ro, 0, (.to 0), false⟩
/-- TDC_CTRL.STALE [5:5] RO, 12_time_measurement.md. -/
def F.TDC_CTRL_STALE : Field := ⟨616, 5, 1, .ro, 0, (.to 0), false⟩
/-- TDC_CTRL.SITE [21:16] RO, 12_time_measurement.md. -/
def F.TDC_CTRL_SITE : Field := ⟨617, 16, 6, .ro, 0, .hold, false⟩
/-- TDC_CTRL.BOUND [22:22] RO, 12_time_measurement.md. -/
def F.TDC_CTRL_BOUND : Field := ⟨618, 22, 1, .ro, 0, .hold, false⟩
/-- TDC_CFG.MODE [1:0] RW, 12_time_measurement.md. -/
def F.TDC_CFG_MODE : Field := ⟨619, 0, 2, .rw, 0, (.to 0), false⟩
/-- TDC_CFG.ST_EV [2:2] RW, 12_time_measurement.md. -/
def F.TDC_CFG_ST_EV : Field := ⟨620, 2, 1, .rw, 0, (.to 0), false⟩
/-- TDC_CFG.ST_VAL [3:3] RW, 12_time_measurement.md. -/
def F.TDC_CFG_ST_VAL : Field := ⟨621, 3, 1, .rw, 0, (.to 0), false⟩
/-- TDC_CFG.START_SRC [7:4] RW, 12_time_measurement.md. -/
def F.TDC_CFG_START_SRC : Field := ⟨622, 4, 4, .rw, 15, (.to 15), false⟩
/-- TDC_CFG.START_CH [13:8] RW, 12_time_measurement.md. -/
def F.TDC_CFG_START_CH : Field := ⟨623, 8, 6, .rw, 0, (.to 0), false⟩
/-- TDC_CFG.START_SLOPE [15:14] RW, 12_time_measurement.md. -/
def F.TDC_CFG_START_SLOPE : Field := ⟨624, 14, 2, .rw, 0, (.to 0), false⟩
/-- TDC_CFG.STOP_SRC [19:16] RW, 12_time_measurement.md. -/
def F.TDC_CFG_STOP_SRC : Field := ⟨625, 16, 4, .rw, 15, (.to 15), false⟩
/-- TDC_CFG.STOP_CH [25:20] RW, 12_time_measurement.md. -/
def F.TDC_CFG_STOP_CH : Field := ⟨626, 20, 6, .rw, 0, (.to 0), false⟩
/-- TDC_CFG.STOP_SLOPE [27:26] RW, 12_time_measurement.md. -/
def F.TDC_CFG_STOP_SLOPE : Field := ⟨627, 26, 2, .rw, 0, (.to 0), false⟩
/-- TDC_THR.START_THR [15:0] RW, 12_time_measurement.md. -/
def F.TDC_THR_START_THR : Field := ⟨628, 0, 16, .rw, 0, (.to 0), false⟩
/-- TDC_THR.STOP_THR [31:16] RW, 12_time_measurement.md. -/
def F.TDC_THR_STOP_THR : Field := ⟨629, 16, 16, .rw, 0, (.to 0), false⟩
/-- TDC_AUX.HYST [1:0] RW, 12_time_measurement.md. -/
def F.TDC_AUX_HYST : Field := ⟨630, 0, 2, .rw, 1, (.to 1), false⟩
/-- TDC_AUX.OPEN_SRC [5:4] RW, 12_time_measurement.md. -/
def F.TDC_AUX_OPEN_SRC : Field := ⟨631, 4, 2, .rw, 0, (.to 0), false⟩
/-- TDC_AUX.OPEN_LINE [10:8] RW, 12_time_measurement.md. -/
def F.TDC_AUX_OPEN_LINE : Field := ⟨632, 8, 3, .rw, 0, (.to 0), false⟩
/-- TDC_AUX.PAIR_TMO_US [31:16] RW, 12_time_measurement.md. -/
def F.TDC_AUX_PAIR_TMO_US : Field := ⟨633, 16, 16, .rw, 0, (.to 0), false⟩
/-- TDC_GATE.GATE_N [23:0] RW, 12_time_measurement.md. -/
def F.TDC_GATE_GATE_N : Field := ⟨634, 0, 24, .rw, 1, (.to 1), false⟩
/-- TDC_RING_BASE_LO.BASE_LO [31:12] RW, 12_time_measurement.md. -/
def F.TDC_RING_BASE_LO_BASE_LO : Field := ⟨635, 12, 20, .rw, 0, (.to 0), false⟩
/-- TDC_RING_BASE_HI.BASE_HI [7:0] RW, 12_time_measurement.md. -/
def F.TDC_RING_BASE_HI_BASE_HI : Field := ⟨636, 0, 8, .rw, 0, (.to 0), false⟩
/-- TDC_RING_SIZE.LOG2 [4:0] RW, 12_time_measurement.md. -/
def F.TDC_RING_SIZE_LOG2 : Field := ⟨637, 0, 5, .rw, 0, (.to 0), false⟩
/-- TDC_STAT.OVERRUN_SEEN [0:0] W1C, 12_time_measurement.md. -/
def F.TDC_STAT_OVERRUN_SEEN : Field := ⟨638, 0, 1, .w1c, 0, (.to 0), false⟩
/-- TDC_STAT.DEAD_SEEN [1:1] W1C, 12_time_measurement.md. -/
def F.TDC_STAT_DEAD_SEEN : Field := ⟨639, 1, 1, .w1c, 0, (.to 0), false⟩
/-- TDC_STAT.CAL_OLD_SEEN [2:2] W1C, 12_time_measurement.md. -/
def F.TDC_STAT_CAL_OLD_SEEN : Field := ⟨640, 2, 1, .w1c, 0, (.to 0), false⟩
/-- TDC_STAT.PAIR_SEEN [3:3] W1C, 12_time_measurement.md. -/
def F.TDC_STAT_PAIR_SEEN : Field := ⟨641, 3, 1, .w1c, 0, (.to 0), false⟩
/-- TDC_STAT.NEAR_SEEN [4:4] W1C, 12_time_measurement.md. -/
def F.TDC_STAT_NEAR_SEEN : Field := ⟨642, 4, 1, .w1c, 0, (.to 0), false⟩
/-- TDC_STAT.RING_FULL [5:5] RO, 12_time_measurement.md. -/
def F.TDC_STAT_RING_FULL : Field := ⟨643, 5, 1, .ro, 0, (.to 0), false⟩
/-- TDC_STAT.QUEUE [25:16] RO, 12_time_measurement.md. -/
def F.TDC_STAT_QUEUE : Field := ⟨644, 16, 10, .ro, 0, (.to 0), false⟩
/-- TDC_ACC_LO.N_LO [31:0] RO, 12_time_measurement.md. -/
def F.TDC_ACC_LO_N_LO : Field := ⟨645, 0, 32, .ro, 0, (.to 0), false⟩
/-- TDC_ACC_HI.N_HI [31:0] RO, 12_time_measurement.md. -/
def F.TDC_ACC_HI_N_HI : Field := ⟨646, 0, 32, .ro, 0, (.to 0), false⟩
/-- TDC_CNT_A.ORPHAN_STOP [15:0] RO, 12_time_measurement.md. -/
def F.TDC_CNT_A_ORPHAN_STOP : Field := ⟨647, 0, 16, .ro, 0, (.to 0), false⟩
/-- TDC_CNT_A.DOUBLE_START [31:16] RO, 12_time_measurement.md. -/
def F.TDC_CNT_A_DOUBLE_START : Field := ⟨648, 16, 16, .ro, 0, (.to 0), false⟩
/-- TDC_CNT_B.NEAR [15:0] RO, 12_time_measurement.md. -/
def F.TDC_CNT_B_NEAR : Field := ⟨649, 0, 16, .ro, 0, (.to 0), false⟩
/-- TDC_CNT_B.PAIR_TMO [31:16] RO, 12_time_measurement.md. -/
def F.TDC_CNT_B_PAIR_TMO : Field := ⟨650, 16, 16, .ro, 0, (.to 0), false⟩
/-- TDC_DROP.COUNT [31:0] RO, 12_time_measurement.md. -/
def F.TDC_DROP_COUNT : Field := ⟨651, 0, 32, .ro, 0, (.to 0), false⟩
/-- TDC_DEAD.COUNT [31:0] RO, 12_time_measurement.md. -/
def F.TDC_DEAD_COUNT : Field := ⟨652, 0, 32, .ro, 0, (.to 0), false⟩
/-- TDC_CALOLD.COUNT [31:0] RO, 12_time_measurement.md. -/
def F.TDC_CALOLD_COUNT : Field := ⟨653, 0, 32, .ro, 0, (.to 0), false⟩
/-- TDC_NVAL.COUNT [31:0] RO, 12_time_measurement.md. -/
def F.TDC_NVAL_COUNT : Field := ⟨654, 0, 32, .ro, 0, (.to 0), false⟩
/-- TDC_MIN.MIN [31:0] RO, 12_time_measurement.md. -/
def F.TDC_MIN_MIN : Field := ⟨655, 0, 32, .ro, 4294967295, (.to 4294967295), false⟩
/-- TDC_MAX.MAX [31:0] RO, 12_time_measurement.md. -/
def F.TDC_MAX_MAX : Field := ⟨656, 0, 32, .ro, 0, (.to 0), false⟩
/-- TDC_SUM_LO.S_LO [31:0] RO, 12_time_measurement.md. -/
def F.TDC_SUM_LO_S_LO : Field := ⟨657, 0, 32, .ro, 0, (.to 0), false⟩
/-- TDC_SUM_HI.S_HI [31:0] RO, 12_time_measurement.md. -/
def F.TDC_SUM_HI_S_HI : Field := ⟨658, 0, 32, .ro, 0, (.to 0), false⟩
/-- TDC_LAST_LO.V_LO [31:0] RO, 12_time_measurement.md. -/
def F.TDC_LAST_LO_V_LO : Field := ⟨659, 0, 32, .ro, 0, (.to 0), false⟩
/-- TDC_LAST_HI.V_HI [31:0] RO, 12_time_measurement.md. -/
def F.TDC_LAST_HI_V_HI : Field := ⟨660, 0, 32, .ro, 0, (.to 0), false⟩
/-- TDC_WR_LO.WR_LO [31:0] RO, 12_time_measurement.md. -/
def F.TDC_WR_LO_WR_LO : Field := ⟨661, 0, 32, .ro, 0, (.to 0), false⟩
/-- TDC_WR_HI.WR_HI [31:0] RO, 12_time_measurement.md. -/
def F.TDC_WR_HI_WR_HI : Field := ⟨662, 0, 32, .ro, 0, (.to 0), false⟩
/-- TDC_DSK.START_DSK [12:0] RW, 12_time_measurement.md. -/
def F.TDC_DSK_START_DSK : Field := ⟨663, 0, 13, .rw, 0, (.to 0), false⟩
/-- TDC_DSK.STOP_DSK [28:16] RW, 12_time_measurement.md. -/
def F.TDC_DSK_STOP_DSK : Field := ⟨664, 16, 13, .rw, 0, (.to 0), false⟩
/-! Block MON. -/
/-- MON_CTRL.EN [0:0] RW, 11_monitors_trip.md. -/
def F.MON_CTRL_EN : Field := ⟨665, 0, 1, .rw, 0, .hold, false⟩
/-- MON_CTRL.TRIP_EN [1:1] RW, 11_monitors_trip.md. -/
def F.MON_CTRL_TRIP_EN : Field := ⟨666, 1, 1, .rw, 0, .hold, false⟩
/-- MON_CTRL.SPEED [3:2] RW, 11_monitors_trip.md. -/
def F.MON_CTRL_SPEED : Field := ⟨667, 2, 2, .rw, 0, .hold, false⟩
/-- MON_CTRL.CLR_MODE [4:4] RW, 11_monitors_trip.md. -/
def F.MON_CTRL_CLR_MODE : Field := ⟨668, 4, 1, .rw, 0, .hold, false⟩
/-- MON_CTRL.HI_EN [5:5] RW, 11_monitors_trip.md. -/
def F.MON_CTRL_HI_EN : Field := ⟨669, 5, 1, .rw, 1, .hold, false⟩
/-- MON_CTRL.LO_EN [6:6] RW, 11_monitors_trip.md. -/
def F.MON_CTRL_LO_EN : Field := ⟨670, 6, 1, .rw, 1, .hold, false⟩
/-- MON_CTRL.SCOPE [7:7] RW, 11_monitors_trip.md. -/
def F.MON_CTRL_SCOPE : Field := ⟨671, 7, 1, .rw, 0, .hold, false⟩
/-- MON_CTRL.SEL [8:8] RW, 11_monitors_trip.md. -/
def F.MON_CTRL_SEL : Field := ⟨672, 8, 1, .rw, 0, .hold, false⟩
/-- MON_CTRL.SCALE [11:9] RW, 11_monitors_trip.md. -/
def F.MON_CTRL_SCALE : Field := ⟨673, 9, 3, .rw, 5, .hold, false⟩
/-- MON_CTRL.SELFCHK [13:12] RW, 11_monitors_trip.md. -/
def F.MON_CTRL_SELFCHK : Field := ⟨674, 12, 2, .rw, 0, .hold, false⟩
/-- MON_HI.VALUE [31:0] RW, 11_monitors_trip.md. -/
def F.MON_HI_VALUE : Field := ⟨675, 0, 32, .rw, 2147483647, .hold, false⟩
/-- MON_LO.VALUE [31:0] RW, 11_monitors_trip.md. -/
def F.MON_LO_VALUE : Field := ⟨676, 0, 32, .rw, 2147483648, .hold, false⟩
/-- MON_HYST.VALUE [31:0] RW, 11_monitors_trip.md. -/
def F.MON_HYST_VALUE : Field := ⟨677, 0, 32, .rw, 0, .hold, false⟩
/-- MON_PERIOD.US [15:0] RW, 11_monitors_trip.md. -/
def F.MON_PERIOD_US : Field := ⟨678, 0, 16, .rw, 0, .hold, false⟩
/-- MON_STAT.LATCH [0:0] W1C, 11_monitors_trip.md. -/
def F.MON_STAT_LATCH : Field := ⟨679, 0, 1, .w1c, 0, .hold, false⟩
/-- MON_STAT.LATCH_HI [1:1] RO, 11_monitors_trip.md. -/
def F.MON_STAT_LATCH_HI : Field := ⟨680, 1, 1, .ro, 0, .hold, false⟩
/-- MON_STAT.LATCH_LO [2:2] RO, 11_monitors_trip.md. -/
def F.MON_STAT_LATCH_LO : Field := ⟨681, 2, 1, .ro, 0, .hold, false⟩
/-- MON_STAT.ARM_HI [5:4] RO, 11_monitors_trip.md. -/
def F.MON_STAT_ARM_HI : Field := ⟨682, 4, 2, .ro, 3, .special, false⟩
/-- MON_STAT.ARM_LO [7:6] RO, 11_monitors_trip.md. -/
def F.MON_STAT_ARM_LO : Field := ⟨683, 6, 2, .ro, 3, .special, false⟩
/-- MON_STAT.CHK_HI [8:8] RO, 11_monitors_trip.md. -/
def F.MON_STAT_CHK_HI : Field := ⟨684, 8, 1, .ro, 0, .special, false⟩
/-- MON_STAT.CHK_LO [9:9] RO, 11_monitors_trip.md. -/
def F.MON_STAT_CHK_LO : Field := ⟨685, 9, 1, .ro, 0, .special, false⟩
/-- MON_COUNT.CROSSINGS [15:0] RO, 11_monitors_trip.md. -/
def F.MON_COUNT_CROSSINGS : Field := ⟨686, 0, 16, .ro, 0, .hold, false⟩
/-- MON_TRIP_TS_LO.TS_LO [31:0] RO, 11_monitors_trip.md. -/
def F.MON_TRIP_TS_LO_TS_LO : Field := ⟨687, 0, 32, .ro, 0, .hold, false⟩
/-- MON_TRIP_TS_HI.TS_HI [31:0] RO, 11_monitors_trip.md. -/
def F.MON_TRIP_TS_HI_TS_HI : Field := ⟨688, 0, 32, .ro, 0, .hold, false⟩
/-! Block TILEMON. -/
/-- MON_TILE_LATCH.LATCH [19:0] RO, 11_monitors_trip.md. -/
def F.MON_TILE_LATCH_LATCH : Field := ⟨689, 0, 20, .ro, 0, .hold, false⟩
/-! Block TILECAL. -/
/-- TCAL_OWN_LO.CH [31:0] RO, 14_calibration.md. -/
def F.TCAL_OWN_LO_CH : Field := ⟨690, 0, 32, .ro, 0, (.to 0), false⟩
/-- TCAL_OWN_HI.CH [31:0] RO, 14_calibration.md. -/
def F.TCAL_OWN_HI_CH : Field := ⟨691, 0, 32, .ro, 0, (.to 0), false⟩
/-- TCAL_OWN_UNIT.DPS [7:0] RO, 14_calibration.md. -/
def F.TCAL_OWN_UNIT_DPS : Field := ⟨692, 0, 8, .ro, 0, (.to 0), false⟩
/-- TCAL_OWN_UNIT.SMU [11:8] RO, 14_calibration.md. -/
def F.TCAL_OWN_UNIT_SMU : Field := ⟨693, 8, 4, .ro, 0, (.to 0), false⟩
/-- TCAL_OWN_UNIT.TDC [27:12] RO, 14_calibration.md. -/
def F.TCAL_OWN_UNIT_TDC : Field := ⟨694, 12, 16, .ro, 0, (.to 0), false⟩
/-- TCAL_PEND_LO.CH [31:0] RO, 14_calibration.md. -/
def F.TCAL_PEND_LO_CH : Field := ⟨695, 0, 32, .ro, 0, .special, false⟩
/-- TCAL_PEND_HI.CH [31:0] RO, 14_calibration.md. -/
def F.TCAL_PEND_HI_CH : Field := ⟨696, 0, 32, .ro, 0, .special, false⟩
/-- TCAL_PEND_UNIT.DPS [7:0] RO, 14_calibration.md. -/
def F.TCAL_PEND_UNIT_DPS : Field := ⟨697, 0, 8, .ro, 0, .special, false⟩
/-- TCAL_PEND_UNIT.SMU [11:8] RO, 14_calibration.md. -/
def F.TCAL_PEND_UNIT_SMU : Field := ⟨698, 8, 4, .ro, 0, .special, false⟩
/-- TCAL_PEND_UNIT.TDC [27:12] RO, 14_calibration.md. -/
def F.TCAL_PEND_UNIT_TDC : Field := ⟨699, 12, 16, .ro, 0, (.to 0), false⟩
/-- TCAL_PEND_UNIT.MON [28:28] RO, 14_calibration.md. -/
def F.TCAL_PEND_UNIT_MON : Field := ⟨700, 28, 1, .ro, 0, (.to 0), false⟩
/-- TCAL_STAT.LAST_FLOW [3:0] RO, 14_calibration.md. -/
def F.TCAL_STAT_LAST_FLOW : Field := ⟨701, 0, 4, .ro, 0, .hold, false⟩
/-- TCAL_STAT.LAST_RES [7:4] RO, 14_calibration.md. -/
def F.TCAL_STAT_LAST_RES : Field := ⟨702, 4, 4, .ro, 0, .hold, false⟩
/-- TCAL_STAT.DRIFT [8:8] RO, 14_calibration.md. -/
def F.TCAL_STAT_DRIFT : Field := ⟨703, 8, 1, .ro, 0, .special, false⟩
/-- TCAL_STAT.UNCAL [9:9] RO, 14_calibration.md. -/
def F.TCAL_STAT_UNCAL : Field := ⟨704, 9, 1, .ro, 0, .special, false⟩
/-- TCAL_STAT.FAILS [31:16] RO, 14_calibration.md. -/
def F.TCAL_STAT_FAILS : Field := ⟨705, 16, 16, .ro, 0, .hold, false⟩
/-- TCAL_TJ.TJ_LEVEL [7:0] RO, 14_calibration.md. -/
def F.TCAL_TJ_TJ_LEVEL : Field := ⟨706, 0, 8, .ro, 0, .special, false⟩
/-- TCAL_TJ.TJ_DESKEW [15:8] RO, 14_calibration.md. -/
def F.TCAL_TJ_TJ_DESKEW : Field := ⟨707, 8, 8, .ro, 0, .special, false⟩
/-- TCAL_TJ.TJ_DPS [23:16] RO, 14_calibration.md. -/
def F.TCAL_TJ_TJ_DPS : Field := ⟨708, 16, 8, .ro, 0, .special, false⟩
/-- TCAL_TJ.TJ_SMU [31:24] RO, 14_calibration.md. -/
def F.TCAL_TJ_TJ_SMU : Field := ⟨709, 24, 8, .ro, 0, .special, false⟩
/-- TCAL_GEN.COUNT [31:0] RO, 14_calibration.md. -/
def F.TCAL_GEN_COUNT : Field := ⟨710, 0, 32, .ro, 0, .hold, false⟩
/-- TPH_STAT.ERR [15:0] RO, 06_timing.md. -/
def F.TPH_STAT_ERR : Field := ⟨711, 0, 16, .ro, 0, .special, false⟩
/-- TPH_STAT.OVER [16:16] W1C, 06_timing.md. -/
def F.TPH_STAT_OVER : Field := ⟨712, 16, 1, .w1c, 0, .hold, false⟩
/-- TPH_CORR.CORR [15:0] RO, 06_timing.md. -/
def F.TPH_CORR_CORR : Field := ⟨713, 0, 16, .ro, 0, .hold, false⟩
/-! Block ENG. -/
/-- ENG_CTRL.BRK_EN [1:0] RW, 08_room_engines.md. -/
def F.ENG_CTRL_BRK_EN : Field := ⟨714, 0, 2, .rw, 0, (.to 0), false⟩
/-- ENG_CTRL.STOP [2:2] RW, 08_room_engines.md. -/
def F.ENG_CTRL_STOP : Field := ⟨715, 2, 1, .rw, 0, (.to 0), false⟩
/-- ENG_CTRL.STEP [3:3] WO, 08_room_engines.md. -/
def F.ENG_CTRL_STEP : Field := ⟨716, 3, 1, .wo, 0, (.to 0), false⟩
/-- ENG_CTRL.STEAL_EN [4:4] RW, 08_room_engines.md. -/
def F.ENG_CTRL_STEAL_EN : Field := ⟨717, 4, 1, .rw, 0, (.to 0), false⟩
/-- ENG_CTRL.IDLE_PC [27:16] RW, 08_room_engines.md. -/
def F.ENG_CTRL_IDLE_PC : Field := ⟨718, 16, 12, .rw, 3584, (.to 3584), false⟩
/-- ENG_STAT.STATE [2:0] RO, 08_room_engines.md. -/
def F.ENG_STAT_STATE : Field := ⟨719, 0, 3, .ro, 1, (.to 1), false⟩
/-- ENG_STAT.PC [15:4] RO, 08_room_engines.md. -/
def F.ENG_STAT_PC : Field := ⟨720, 4, 12, .ro, 0, (.to 0), false⟩
/-- ENG_STAT.DEPTH [19:16] RO, 08_room_engines.md. -/
def F.ENG_STAT_DEPTH : Field := ⟨721, 16, 4, .ro, 0, (.to 0), false⟩
/-- ENG_STAT.RSP [24:20] RO, 08_room_engines.md. -/
def F.ENG_STAT_RSP : Field := ⟨722, 20, 5, .ro, 0, (.to 0), false⟩
/-- ENG_STAT.TASK_HELD [25:25] RO, 08_room_engines.md. -/
def F.ENG_STAT_TASK_HELD : Field := ⟨723, 25, 1, .ro, 0, (.to 0), false⟩
/-- ENG_STAT.AUTORUN [26:26] RO, 08_room_engines.md. -/
def F.ENG_STAT_AUTORUN : Field := ⟨724, 26, 1, .ro, 0, (.to 0), false⟩
/-- ENG_TMASK.MASK [15:0] RW, 08_room_engines.md. -/
def F.ENG_TMASK_MASK : Field := ⟨725, 0, 16, .rw, 384, (.to 384), false⟩
/-- ENG_TMASK.PEND [31:16] RO, 08_room_engines.md. -/
def F.ENG_TMASK_PEND : Field := ⟨726, 16, 16, .ro, 0, (.to 0), false⟩
/-- ENG_GO.PC [11:0] WO, 08_room_engines.md. -/
def F.ENG_GO_PC : Field := ⟨727, 0, 12, .wo, 0, (.to 0), false⟩
/-- ENG_REFUSE.WORD [11:0] RO, 08_room_engines.md. -/
def F.ENG_REFUSE_WORD : Field := ⟨728, 0, 12, .ro, 0, (.to 0), false⟩
/-- ENG_REFUSE.REASON [15:12] RO, 08_room_engines.md. -/
def F.ENG_REFUSE_REASON : Field := ⟨729, 12, 4, .ro, 0, (.to 0), false⟩
/-- ENG_REFUSE.ANA [16:16] RO, 08_room_engines.md. -/
def F.ENG_REFUSE_ANA : Field := ⟨730, 16, 1, .ro, 0, (.to 0), false⟩
/-- ENG_MEMERR.WORD [11:0] RO, 08_room_engines.md. -/
def F.ENG_MEMERR_WORD : Field := ⟨731, 0, 12, .ro, 0, (.to 0), false⟩
/-- ENG_MEMERR.STORE [12:12] RO, 08_room_engines.md. -/
def F.ENG_MEMERR_STORE : Field := ⟨732, 12, 1, .ro, 0, (.to 0), false⟩
/-- ENG_MEMERR.REASON [15:13] RO, 08_room_engines.md. -/
def F.ENG_MEMERR_REASON : Field := ⟨733, 13, 3, .ro, 0, (.to 0), false⟩
/-- ENG_MEMERR_ADDR.OFFSET [31:0] RO, 08_room_engines.md. -/
def F.ENG_MEMERR_ADDR_OFFSET : Field := ⟨734, 0, 32, .ro, 0, (.to 0), false⟩
/-- ENG_HALT.PC [11:0] RO, 08_room_engines.md. -/
def F.ENG_HALT_PC : Field := ⟨735, 0, 12, .ro, 0, (.to 0), false⟩
/-- ENG_HALT.CAUSE [15:12] RO, 08_room_engines.md. -/
def F.ENG_HALT_CAUSE : Field := ⟨736, 12, 4, .ro, 0, (.to 0), false⟩
/-- ENG_CEL_BASE_LO.BASE_LO [31:12] RW, 08_room_engines.md. -/
def F.ENG_CEL_BASE_LO_BASE_LO : Field := ⟨737, 12, 20, .rw, 0, (.to 0), false⟩
/-- ENG_CEL_BASE_HI.BASE_HI [7:0] RW, 08_room_engines.md. -/
def F.ENG_CEL_BASE_HI_BASE_HI : Field := ⟨738, 0, 8, .rw, 128, (.to 128), false⟩
/-- ENG_ABORT_TMO.US [15:0] RW, 08_room_engines.md. -/
def F.ENG_ABORT_TMO_US : Field := ⟨739, 0, 16, .rw, 100, (.to 100), false⟩
/-- ENG_CS_STAT.PERR [0:0] W1C, 08_room_engines.md. -/
def F.ENG_CS_STAT_PERR : Field := ⟨740, 0, 1, .w1c, 0, (.to 0), false⟩
/-- ENG_CS_STAT.BADPAR_WR [1:1] W1C, 08_room_engines.md. -/
def F.ENG_CS_STAT_BADPAR_WR : Field := ⟨741, 1, 1, .w1c, 0, (.to 0), false⟩
/-- ENG_CS_STAT.PERR_WORD [27:16] RO, 08_room_engines.md. -/
def F.ENG_CS_STAT_PERR_WORD : Field := ⟨742, 16, 12, .ro, 0, (.to 0), false⟩

/-- The fields of each register, lowest bit first (R5). -/
def RegName.fields : RegName → List Field
  | .RST_CTRL => [F.RST_CTRL_SAFE_ON_WARM, F.RST_CTRL_LOCKUP_EN, F.RST_CTRL_DBG_HALT]
  | .RST_SOFT => [F.RST_SOFT_WARM, F.RST_SOFT_KEY]
  | .RST_CAUSE => [F.RST_CAUSE_POR, F.RST_CAUSE_BOR, F.RST_CAUSE_PIN, F.RST_CAUSE_WDOG, F.RST_CAUSE_SOFT, F.RST_CAUSE_DEBUG, F.RST_CAUSE_CLKFAIL, F.RST_CAUSE_LOCKUP]
  | .RST_WARM_COUNT => [F.RST_WARM_COUNT_COUNT]
  | .RST_WDOG_CTL => [F.RST_WDOG_CTL_EN, F.RST_WDOG_CTL_TIMEOUT_MS]
  | .RST_WDOG_KICK => [F.RST_WDOG_KICK_KICK]
  | .BOOT_ATTEMPT => [F.BOOT_ATTEMPT_FAILS, F.BOOT_ATTEMPT_SLOT, F.BOOT_ATTEMPT_FROM_FLASH, F.BOOT_ATTEMPT_LAST_CODE]
  | .BOOT_REASON => [F.BOOT_REASON_CODE, F.BOOT_REASON_OUTCOME, F.BOOT_REASON_SLOT, F.BOOT_REASON_CELLAR_LOST, F.BOOT_REASON_TRIM_RETRY, F.BOOT_REASON_FLASH_WR_SKIP, F.BOOT_REASON_STEP]
  | .BOOT_TIME => [F.BOOT_TIME_TIME_US]
  | .WARM_HELD_LO => [F.WARM_HELD_LO_HELD]
  | .WARM_HELD_HI => [F.WARM_HELD_HI_HELD]
  | .TB_CTRL => [F.TB_CTRL_SYNC_MODE]
  | .TB_LO => [F.TB_LO_TB_LO]
  | .TB_HI => [F.TB_HI_TB_HI]
  | .TB_EPOCH => [F.TB_EPOCH_EPOCH]
  | .SYNC_LOAD_LO => [F.SYNC_LOAD_LO_LOAD_LO]
  | .SYNC_LOAD_HI => [F.SYNC_LOAD_HI_LOAD_HI]
  | .SYNC_STEP => [F.SYNC_STEP_STEP]
  | .SYNC_TS_LO => [F.SYNC_TS_LO_TS_LO]
  | .SYNC_TS_HI => [F.SYNC_TS_HI_TS_HI]
  | .SYNC_STAT => [F.SYNC_STAT_COUNT, F.SYNC_STAT_LOADED, F.SYNC_STAT_SLIP, F.SYNC_STAT_IGNORED, F.SYNC_STAT_UNSYNCED, F.SYNC_STAT_REF_LOST]
  | .CHIP_OFFSET => [F.CHIP_OFFSET_OFFSET]
  | .SKEW_CAL => [F.SKEW_CAL_TJ, F.SKEW_CAL_DRIFT]
  | .TRIG_LAT => [F.TRIG_LAT_CYCLES]
  | .TRIG_CFG => [F.TRIG_CFG_OUT_EN, F.TRIG_CFG_ACT_EN]
  | .TRIG_COMP => [F.TRIG_COMP_COMP]
  | .TRIG_FIRE_LO => [F.TRIG_FIRE_LO_F_LO]
  | .TRIG_FIRE_HI => [F.TRIG_FIRE_HI_F_HI]
  | .TRIG_REP => [F.TRIG_REP_COUNT, F.TRIG_REP_INTERVAL]
  | .TRIG_ARR_LO => [F.TRIG_ARR_LO_A_LO]
  | .TRIG_ARR_HI => [F.TRIG_ARR_HI_A_HI]
  | .TRIG_STAT => [F.TRIG_STAT_ARR_COUNT, F.TRIG_STAT_FIRE_LATE, F.TRIG_STAT_ACT_LATE, F.TRIG_STAT_OVERRUN, F.TRIG_STAT_ARMED]
  | .TRIG_ACC_BASE_LO => [F.TRIG_ACC_BASE_LO_B_LO]
  | .TRIG_ACC_BASE_HI => [F.TRIG_ACC_BASE_HI_B_HI]
  | .TRIG_ACC_CTRL => [F.TRIG_ACC_CTRL_EN, F.TRIG_ACC_CTRL_WIN, F.TRIG_ACC_CTRL_STEP]
  | .TRIG_ACC_SUM => [F.TRIG_ACC_SUM_SUM]
  | .TRIG_ACC_CNT => [F.TRIG_ACC_CNT_CNT, F.TRIG_ACC_CNT_SAT]
  | .TSET_PER => [F.TSET_PER_CYC_M1, F.TSET_PER_FINE]
  | .SITE_TCTRL => [F.SITE_TCTRL_TSET, F.SITE_TCTRL_ACTIVE, F.SITE_TCTRL_START_SRC, F.SITE_TCTRL_TRIG_LINE]
  | .SITE_TSTART_LO => [F.SITE_TSTART_LO_T_LO]
  | .SITE_TSTART_HI => [F.SITE_TSTART_HI_T_HI]
  | .SITE_TSTAT => [F.SITE_TSTAT_EDGE_RANGE, F.SITE_TSTAT_EDGE_ORDER, F.SITE_TSTAT_TIMED_LATE, F.SITE_TSTAT_TSET_COLL, F.SITE_TSTAT_PER_CLAMP, F.SITE_TSTAT_WAIT_START, F.SITE_TSTAT_RESTARTS]
  | .THM_STAT => [F.THM_STAT_TJ, F.THM_STAT_WARN, F.THM_STAT_THROTTLE, F.THM_STAT_FAST, F.THM_STAT_BROKEN_ANY, F.THM_STAT_TILE_OFF]
  | .THM_LIMIT_WARN => [F.THM_LIMIT_WARN_SET, F.THM_LIMIT_WARN_CLEAR]
  | .THM_LIMIT_THR => [F.THM_LIMIT_THR_SET, F.THM_LIMIT_THR_CLEAR]
  | .THM_LIMIT_SHUT => [F.THM_LIMIT_SHUT_SET, F.THM_LIMIT_SHUT_CLEAR]
  | .THM_BROKEN_LO => [F.THM_BROKEN_LO_SENS]
  | .THM_BROKEN_HI => [F.THM_BROKEN_HI_SENS]
  | .THM_THR => [F.THM_THR_EPISODES]
  | .THM_THR_MS => [F.THM_THR_MS_MS]
  | .THM_TMAX => [F.THM_TMAX_MAX]
  | .THM_LOG_STAT => [F.THM_LOG_STAT_REC_VALID, F.THM_LOG_STAT_COMMIT_PEND, F.THM_LOG_STAT_ERASE_SKIP, F.THM_LOG_STAT_HOLD_EXIT, F.THM_LOG_STAT_FREE, F.THM_LOG_STAT_SKIPPED]
  | .THM_LOG_SEQ => [F.THM_LOG_SEQ_SEQ]
  | .THM_SHUT_REC => [F.THM_SHUT_REC_BYTES]
  | .THM_BAND => [F.THM_BAND_CEL, F.THM_BAND_CEL_MR, F.THM_BAND_LANE, F.THM_BAND_TDC]
  | .THM_BAND_CNT => [F.THM_BAND_CNT_COUNT]
  | .THM_TEMP => [F.THM_TEMP_READING, F.THM_TEMP_BROKEN, F.THM_TEMP_CAUSE, F.THM_TEMP_FORCED]
  | .FLT_STAT => [F.FLT_STAT_STICKY]
  | .FLT_SUM => [F.FLT_SUM_ACTIVE, F.FLT_SUM_BUSY, F.FLT_SUM_MERGED, F.FLT_SUM_ESCALATED, F.FLT_SUM_FAULT_N]
  | .FLT_ACK => [F.FLT_ACK_SOURCE]
  | .FLT_TMO => [F.FLT_TMO_MS]
  | .FLT_LOG_WR => [F.FLT_LOG_WR_COUNT]
  | .FLT_INJ => [F.FLT_INJ_SOURCE, F.FLT_INJ_UNIT, F.FLT_INJ_GO]
  | .FLT_REACT => [F.FLT_REACT_REACT0, F.FLT_REACT_ESC0, F.FLT_REACT_REACT1, F.FLT_REACT_ESC1, F.FLT_REACT_REACT2, F.FLT_REACT_ESC2, F.FLT_REACT_REACT3, F.FLT_REACT_ESC3]
  | .SEC_STAT => [F.SEC_STAT_TAMPER, F.SEC_STAT_KEY_LOADED, F.SEC_STAT_BUSY, F.SEC_STAT_PROG_RES, F.SEC_STAT_LC_STATE, F.SEC_STAT_SLOT_EMPTY, F.SEC_STAT_SLOT_REVOKED, F.SEC_STAT_IMAGE_SLOT, F.SEC_STAT_SELF_SIGNED]
  | .SEC_FUSE_STAT => [F.SEC_FUSE_STAT_RB_FREE, F.SEC_FUSE_STAT_LC_FREE, F.SEC_FUSE_STAT_SPOILED]
  | .SEC_RB_COMMIT => [F.SEC_RB_COMMIT_GO, F.SEC_RB_COMMIT_KEY]
  | .SEC_LC_REQ => [F.SEC_LC_REQ_TARGET, F.SEC_LC_REQ_KEY]
  | .SEC_PROV_CMD => [F.SEC_PROV_CMD_TARGET, F.SEC_PROV_CMD_SLOT, F.SEC_PROV_CMD_GO, F.SEC_PROV_CMD_KEY]
  | .SEC_WIPE => [F.SEC_WIPE_GO, F.SEC_WIPE_KEY]
  | .SEC_TAMPER_CFG => [F.SEC_TAMPER_CFG_KEY_CLEAR]
  | .SEC_PROV_DATA => [F.SEC_PROV_DATA_WORD]
  | .SEC_DBG_NONCE => [F.SEC_DBG_NONCE_NONCE]
  | .SEC_DBG_TOKEN => [F.SEC_DBG_TOKEN_OFFSET]
  | .SEC_DBG_CTRL => [F.SEC_DBG_CTRL_RIGHTS_REQ, F.SEC_DBG_CTRL_GO, F.SEC_DBG_CTRL_RESULT, F.SEC_DBG_CTRL_RIGHTS]
  | .SEC_ROM_VER => [F.SEC_ROM_VER_VERSION]
  | .SEC_FW_VER => [F.SEC_FW_VER_VERSION]
  | .CSP_CFG => [F.CSP_CFG_CPHA, F.CSP_CFG_CPOL, F.CSP_CFG_FRAME, F.CSP_CFG_SEL_HIGH, F.CSP_CFG_SEL_GPIO, F.CSP_CFG_DIV, F.CSP_CFG_LEAD, F.CSP_CFG_TRAIL]
  | .CSP_LEN => [F.CSP_LEN_BITS]
  | .CSP_CTRL => [F.CSP_CTRL_START, F.CSP_CTRL_ABORT, F.CSP_CTRL_BUSY, F.CSP_CTRL_EN]
  | .CSP_STAT => [F.CSP_STAT_DONE, F.CSP_STAT_SEL_LOST, F.CSP_STAT_RX_CRC_ERR, F.CSP_STAT_RX_ALIVE_ERR, F.CSP_STAT_RX_LEN_ERR, F.CSP_STAT_RX_FLAGS, F.CSP_STAT_ABORTED, F.CSP_STAT_BITS]
  | .CSP_ALIVE => [F.CSP_ALIVE_NEXT, F.CSP_ALIVE_LAST, F.CSP_ALIVE_FIRST]
  | .CSP_TX => [F.CSP_TX_HW]
  | .CSP_RX => [F.CSP_RX_HW]
  | .GPIO_OUT => [F.GPIO_OUT_OUT]
  | .GPIO_OE => [F.GPIO_OE_OE]
  | .GPIO_IN => [F.GPIO_IN_IN]
  | .GPIO_FUNC => [F.GPIO_FUNC_LED31]
  | .MBX_HOST_RX => [F.MBX_HOST_RX_WORD]
  | .MBX_HOST_RXEP => [F.MBX_HOST_RXEP_EPOCH, F.MBX_HOST_RXEP_VALID]
  | .MBX_HOST_TX => [F.MBX_HOST_TX_WORD]
  | .MBX_HOST_STAT => [F.MBX_HOST_STAT_RX_COUNT, F.MBX_HOST_STAT_TX_COUNT, F.MBX_HOST_STAT_TX_FULL, F.MBX_HOST_STAT_FLUSHED, F.MBX_HOST_STAT_HOST_EPOCH]
  | .MBX_HOST_FLUSH => [F.MBX_HOST_FLUSH_COUNT]
  | .MBX_HOST_DB => [F.MBX_HOST_DB_RING, F.MBX_HOST_DB_RX_DB]
  | .MBX_EPOCH => [F.MBX_EPOCH_HEARTH]
  | .EVT_STAT => [F.EVT_STAT_EVSEQ, F.EVT_STAT_QUEUED]
  | .EVT_LOST => [F.EVT_LOST_COUNT]
  | .CMDQ_STAT => [F.CMDQ_STAT_OUTSTANDING, F.CMDQ_STAT_ABANDONED]
  | .MBX_ENG_TX => [F.MBX_ENG_TX_WORD]
  | .MBX_ENG_RX => [F.MBX_ENG_RX_WORD]
  | .MBX_ENG_STAT => [F.MBX_ENG_STAT_TX_COUNT, F.MBX_ENG_STAT_RX_COUNT, F.MBX_ENG_STAT_TX_FULL, F.MBX_ENG_STAT_FLUSHED, F.MBX_ENG_STAT_RX_EPOCH, F.MBX_ENG_STAT_ENG_EPOCH]
  | .MBX_ENG_DB => [F.MBX_ENG_DB_RING]
  | .SEM_ACQ => [F.SEM_ACQ_OWNER, F.SEM_ACQ_HELD]
  | .SEM_PEEK => [F.SEM_PEEK_OWNER, F.SEM_PEEK_PTR, F.SEM_PEEK_HELD]
  | .SEM_FORCE => [F.SEM_FORCE_SEM, F.SEM_FORCE_KEY]
  | .SEM_CONTEST => [F.SEM_CONTEST_COUNT]
  | .SPD_STAT => [F.SPD_STAT_DP_COLL, F.SPD_STAT_WIPING, F.SPD_STAT_WIPED, F.SPD_STAT_COLL_COUNT]
  | .SPD_COLL_ADDR => [F.SPD_COLL_ADDR_ADDR]
  | .SPD_WIPES => [F.SPD_WIPES_COUNT]
  | .SPD_REPAIR => [F.SPD_REPAIR_SCRATCH, F.SPD_REPAIR_PANTRY, F.SPD_REPAIR_CSTORE]
  | .STL_CTRL => [F.STL_CTRL_EN]
  | .STL_STAT => [F.STL_STAT_BADTASK, F.STL_STAT_BUSY]
  | .STL_STEALS_LO => [F.STL_STEALS_LO_N_LO]
  | .STL_STEALS_HI => [F.STL_STEALS_HI_N_HI]
  | .STL_FULL => [F.STL_FULL_COUNT]
  | .IRQ_ROUTE => [F.IRQ_ROUTE_H_EN, F.IRQ_ROUTE_CORE, F.IRQ_ROUTE_E_EN, F.IRQ_ROUTE_ENGINE, F.IRQ_ROUTE_HOST_EN]
  | .IRQ_PEND => [F.IRQ_PEND_PEND]
  | .IRQ_SWSET => [F.IRQ_SWSET_SOURCE]
  | .IRQ_ENG_LOST => [F.IRQ_ENG_LOST_COUNT]
  | .FAB_NODE => [F.FAB_NODE_NODE_ID, F.FAB_NODE_HOST_NODE, F.FAB_NODE_HOME_PORCH, F.FAB_NODE_RT_VALID]
  | .FAB_SID_LO => [F.FAB_SID_LO_SID_LO]
  | .FAB_SID_HI => [F.FAB_SID_HI_SID_HI]
  | .FAB_CTRL => [F.FAB_CTRL_TTL, F.FAB_CTRL_QUIET_IDLE_US, F.FAB_CTRL_LINKDOWN_MS, F.FAB_CTRL_PAM4_EN]
  | .FAB_DROP => [F.FAB_DROP_NOROUTE, F.FAB_DROP_TTL]
  | .FAB_DROP2 => [F.FAB_DROP2_BADTYPE, F.FAB_DROP2_BAD_SR]
  | .FAB_CONFLICT => [F.FAB_CONFLICT_COUNT, F.FAB_CONFLICT_PORCH]
  | .PORCH_CTRL => [F.PORCH_CTRL_EN, F.PORCH_CTRL_FORCE_NRZ, F.PORCH_CTRL_RETRAIN, F.PORCH_CTRL_QUIET_EN]
  | .PORCH_STAT => [F.PORCH_STAT_STATE, F.PORCH_STAT_DEGRADED, F.PORCH_STAT_PLANNED, F.PORCH_STAT_LEAVE_RX, F.PORCH_STAT_PARTNER, F.PORCH_STAT_PARTNER_NODE, F.PORCH_STAT_PARTNER_PORCH]
  | .PORCH_PSID_LO => [F.PORCH_PSID_LO_SID_LO]
  | .PORCH_PSID_HI => [F.PORCH_PSID_HI_SID_HI]
  | .PORCH_SEQ => [F.PORCH_SEQ_NEXT_TX, F.PORCH_SEQ_ACKED]
  | .PORCH_RETRY => [F.PORCH_RETRY_REQ_SENT, F.PORCH_RETRY_REPLAYS]
  | .PORCH_FEC_LO => [F.PORCH_FEC_LO_CORR_LO]
  | .PORCH_FEC_HI => [F.PORCH_FEC_HI_CORR_HI]
  | .PORCH_ERR => [F.PORCH_ERR_UNCORR, F.PORCH_ERR_CRC]
  | .PORCH_FILL => [F.PORCH_FILL_INSERTED, F.PORCH_FILL_DELETED]
  | .PORCH_EVENTS => [F.PORCH_EVENTS_UP, F.PORCH_EVENTS_DOWN, F.PORCH_EVENTS_RETRAINS, F.PORCH_EVENTS_FULL_TRAIN]
  | .PORCH_LOST => [F.PORCH_LOST_FLITS]
  | .PORCH_FLITS_LO => [F.PORCH_FLITS_LO_N_LO]
  | .PORCH_FLITS_HI => [F.PORCH_FLITS_HI_N_HI]
  | .FAB_RT => [F.FAB_RT_PORCH0, F.FAB_RT_VALID0, F.FAB_RT_PORCH1, F.FAB_RT_VALID1, F.FAB_RT_PORCH2, F.FAB_RT_VALID2, F.FAB_RT_PORCH3, F.FAB_RT_VALID3, F.FAB_RT_PORCH4, F.FAB_RT_VALID4, F.FAB_RT_PORCH5, F.FAB_RT_VALID5, F.FAB_RT_PORCH6, F.FAB_RT_VALID6, F.FAB_RT_PORCH7, F.FAB_RT_VALID7]
  | .FAB_MC => [F.FAB_MC_PORCHES, F.FAB_MC_LOCAL]
  | .CFG_STAT => [F.CFG_STAT_SOURCE, F.CFG_STAT_ENCRYPTED, F.CFG_STAT_AUTORUN, F.CFG_STAT_SECTIONS]
  | .CFG_VERSION => [F.CFG_VERSION_IMAGE_VERSION]
  | .CFG_ROLLBACK => [F.CFG_ROLLBACK_IMAGE_CTR, F.CFG_ROLLBACK_FUSE_CTR]
  | .CFG_DIR_GEN => [F.CFG_DIR_GEN_GEN]
  | .TRIM_STAT => [F.TRIM_STAT_DONE, F.TRIM_STAT_RETRIED, F.TRIM_STAT_TILE_MISMATCH, F.TRIM_STAT_BLOCK]
  | .CONTACT_CTL => [F.CONTACT_CTL_START, F.CONTACT_CTL_BUSY, F.CONTACT_CTL_DONE, F.CONTACT_CTL_REFUSED]
  | .LVL_LOAD_STAT => [F.LVL_LOAD_STAT_APPLIED, F.LVL_LOAD_STAT_SKIPPED]
  | .MODE_STAT => [F.MODE_STAT_MODE, F.MODE_STAT_TRANSIT, F.MODE_STAT_TARGET, F.MODE_STAT_THROTTLE, F.MODE_STAT_WARN, F.MODE_STAT_PREV_MODE, F.MODE_STAT_HELD, F.MODE_STAT_REMOVE_READY, F.MODE_STAT_ACTIVE_SITES]
  | .MODE_ENTRY_LO => [F.MODE_ENTRY_LO_TS_LO]
  | .MODE_ENTRY_HI => [F.MODE_ENTRY_HI_TS_HI]
  | .CFG_PART_ID => [F.CFG_PART_ID_PART_ID]
  | .CEL_CFG => [F.CEL_CFG_DENSITY, F.CEL_CFG_CH_OK, F.CEL_CFG_READY, F.CEL_CFG_SELF_REF]
  | .CEL_TOP_LO => [F.CEL_TOP_LO_TOP_LO]
  | .CEL_TOP_HI => [F.CEL_TOP_HI_TOP_HI]
  | .CEL_ECC_CORR => [F.CEL_ECC_CORR_COUNT]
  | .CEL_ECC_UNCORR => [F.CEL_ECC_UNCORR_COUNT]
  | .CEL_ECC_ADDR_LO => [F.CEL_ECC_ADDR_LO_ADDR_LO]
  | .CEL_ECC_ADDR_HI => [F.CEL_ECC_ADDR_HI_ADDR_HI, F.CEL_ECC_ADDR_HI_CLASS]
  | .CEL_SCRUB => [F.CEL_SCRUB_HOURS, F.CEL_SCRUB_PASSES]
  | .CEL_CLS_BYTES_LO => [F.CEL_CLS_BYTES_LO_B_LO]
  | .CEL_CLS_BYTES_HI => [F.CEL_CLS_BYTES_HI_B_HI]
  | .CEL_CLS_HELD => [F.CEL_CLS_HELD_COUNT]
  | .SEQ_STAB_COUNT => [F.SEQ_STAB_COUNT_COUNT]
  | .SEQ_ERR => [F.SEQ_ERR_ENTRY, F.SEQ_ERR_REASON, F.SEQ_ERR_SITE]
  | .SEQ_START => [F.SEQ_START_ENTRY]
  | .SEQ_CUR => [F.SEQ_CUR_ENTRY, F.SEQ_CUR_DECIDED]
  | .SEQ_PASS => [F.SEQ_PASS_PASS]
  | .SEQ_JUMP_REQ => [F.SEQ_JUMP_REQ_REQ, F.SEQ_JUMP_REQ_CANCEL, F.SEQ_JUMP_REQ_PENDING, F.SEQ_JUMP_REQ_JUMP_LATE]
  | .SEQ_UNDERRUN => [F.SEQ_UNDERRUN_POLICY, F.SEQ_UNDERRUN_STALL_LIMIT_US]
  | .SEQ_SSTAT => [F.SEQ_SSTAT_TIMING_BROKEN, F.SEQ_SSTAT_CHAIN_DONE, F.SEQ_SSTAT_STALLING, F.SEQ_SSTAT_DECODE_ERR, F.SEQ_SSTAT_WIDTH_ERR, F.SEQ_SSTAT_ENTRY_ERR, F.SEQ_SSTAT_START_DEFERRED, F.SEQ_SSTAT_UNPINNED, F.SEQ_SSTAT_UNDERRUNS]
  | .SEQ_VEC_LO => [F.SEQ_VEC_LO_VEC_LO]
  | .SEQ_VEC_HI => [F.SEQ_VEC_HI_VEC_HI]
  | .SEQ_STALL_LO => [F.SEQ_STALL_LO_ST_LO]
  | .SEQ_STALL_HI => [F.SEQ_STALL_HI_ST_HI]
  | .SEQ_REFETCH => [F.SEQ_REFETCH_COUNT]
  | .SEQ_MARK => [F.SEQ_MARK_MK0, F.SEQ_MARK_MK1]
  | .SEQ_START_TMO => [F.SEQ_START_TMO_TMO_MS]
  | .SMUW_CUR => [F.SMUW_CUR_ENTRY, F.SMUW_CUR_PLAYING, F.SMUW_CUR_CHAIN_DONE]
  | .SMUW_JUMP_REQ => [F.SMUW_JUMP_REQ_REQ, F.SMUW_JUMP_REQ_CANCEL, F.SMUW_JUMP_REQ_PENDING, F.SMUW_JUMP_REQ_JUMP_LATE]
  | .SITE_STATE => [F.SITE_STATE_STATE, F.SITE_STATE_FINISHING, F.SITE_STATE_STEAL_EN, F.SITE_STATE_END_SAFE, F.SITE_STATE_ENGINE, F.SITE_STATE_TILE]
  | .SITE_CMD => [F.SITE_CMD_CMD]
  | .SITE_BIN => [F.SITE_BIN_BIN, F.SITE_BIN_CAUSE]
  | .SITE_RUN => [F.SITE_RUN_RUN, F.SITE_RUN_RETESTS]
  | .SITE_TAG_LO => [F.SITE_TAG_LO_TAG_LO]
  | .SITE_TAG_HI => [F.SITE_TAG_HI_TAG_HI]
  | .SITE_FAILVEC => [F.SITE_FAILVEC_COUNT]
  | .SITE_FSIG => [F.SITE_FSIG_FSIG]
  | .SITE_FAILSTORED => [F.SITE_FAILSTORED_COUNT]
  | .SITE_REC_WR_LO => [F.SITE_REC_WR_LO_WR_LO]
  | .SITE_REC_WR_HI => [F.SITE_REC_WR_HI_WR_HI]
  | .SITE_REC_LOST => [F.SITE_REC_LOST_LOST]
  | .SITE_TASKS => [F.SITE_TASKS_QUEUED, F.SITE_TASKS_HELD]
  | .PAN_CTRL => [F.PAN_CTRL_RESIDENCY_US, F.PAN_CTRL_AHEAD, F.PAN_CTRL_PIN_EN]
  | .PAN_PIN_LIMIT => [F.PAN_PIN_LIMIT_LINES]
  | .PAN_STAT => [F.PAN_STAT_RESIDENT, F.PAN_STAT_PINNED, F.PAN_STAT_DECODERS]
  | .PAN_UNDERRUN => [F.PAN_UNDERRUN_COUNT]
  | .PAN_DECODE_ERR => [F.PAN_DECODE_ERR_COUNT, F.PAN_DECODE_ERR_PAT_ID]
  | .PAN_EVICT => [F.PAN_EVICT_COUNT]
  | .PAN_INVAL => [F.PAN_INVAL_PAT_ID, F.PAN_INVAL_ALL, F.PAN_INVAL_BUSY]
  | .PAN_OVERBUDGET => [F.PAN_OVERBUDGET_COUNT]
  | .ACQ_CFG => [F.ACQ_CFG_TRIG_SRC, F.ACQ_CFG_TRIG_LINE, F.ACQ_CFG_WAIT_PRE, F.ACQ_CFG_AUTO_REDUCE, F.ACQ_CFG_STREAMS, F.ACQ_CFG_P]
  | .ACQ_CTRL => [F.ACQ_CTRL_ARM, F.ACQ_CTRL_FORCE, F.ACQ_CTRL_CANCEL, F.ACQ_CTRL_STATE, F.ACQ_CTRL_SITE, F.ACQ_CTRL_BOUND]
  | .ACQ_PRE => [F.ACQ_PRE_N]
  | .ACQ_POST => [F.ACQ_POST_N]
  | .ACQ_BUF_LO => [F.ACQ_BUF_LO_BASE_LO]
  | .ACQ_BUF_HI => [F.ACQ_BUF_HI_BASE_HI, F.ACQ_BUF_HI_LOG2]
  | .ACQ_LEVEL => [F.ACQ_LEVEL_CODE]
  | .ACQ_HYST => [F.ACQ_HYST_CODE]
  | .ACQ_TTIME_LO => [F.ACQ_TTIME_LO_T_LO]
  | .ACQ_TTIME_HI => [F.ACQ_TTIME_HI_T_HI]
  | .ACQ_STAT => [F.ACQ_STAT_FORCED, F.ACQ_STAT_PRE_SHORT, F.ACQ_STAT_POST_SHORT, F.ACQ_STAT_DROP, F.ACQ_STAT_STALE, F.ACQ_STAT_RANGED, F.ACQ_STAT_LATE, F.ACQ_STAT_CANCELLED]
  | .ACQ_TRIG_TS_LO => [F.ACQ_TRIG_TS_LO_TS_LO]
  | .ACQ_TRIG_TS_HI => [F.ACQ_TRIG_TS_HI_TS_HI]
  | .ACQ_WR_IDX => [F.ACQ_WR_IDX_IDX]
  | .ACQ_COUNT => [F.ACQ_COUNT_CAPTURES, F.ACQ_COUNT_EXTRA]
  | .ACQ_FIRST_IDX => [F.ACQ_FIRST_IDX_IDX]
  | .CH_CTRL => [F.CH_CTRL_DRV_EN, F.CH_CTRL_TERM_MODE, F.CH_CTRL_KEEP_MODE, F.CH_CTRL_CMP_MODE, F.CH_CTRL_PAIR, F.CH_CTRL_BANK, F.CH_CTRL_MASK, F.CH_CTRL_SITE, F.CH_CTRL_BOUND]
  | .CH_STAT => [F.CH_STAT_FAIL, F.CH_STAT_LVL_CLAMP, F.CH_STAT_CODE_ERR, F.CH_STAT_PMU_CLAMP, F.CH_STAT_TRIP_SEEN, F.CH_STAT_SAFE, F.CH_STAT_TRIPPED, F.CH_STAT_SETTLING, F.CH_STAT_PAIRED_ODD, F.CH_STAT_CMP_HI, F.CH_STAT_CMP_LO, F.CH_STAT_STALE]
  | .CH_VIH0 => [F.CH_VIH0_VALUE]
  | .CH_VIL0 => [F.CH_VIL0_VALUE]
  | .CH_VOH0 => [F.CH_VOH0_VALUE]
  | .CH_VOL0 => [F.CH_VOL0_VALUE]
  | .CH_VT0 => [F.CH_VT0_VALUE]
  | .CH_VIH1 => [F.CH_VIH1_VALUE]
  | .CH_VIL1 => [F.CH_VIL1_VALUE]
  | .CH_VOH1 => [F.CH_VOH1_VALUE]
  | .CH_VOL1 => [F.CH_VOL1_VALUE]
  | .CH_VT1 => [F.CH_VT1_VALUE]
  | .CH_FAILCNT => [F.CH_FAILCNT_COUNT]
  | .CH_FIRSTFAIL_LO => [F.CH_FIRSTFAIL_LO_VEC_LO]
  | .CH_FIRSTFAIL_HI => [F.CH_FIRSTFAIL_HI_VEC_HI]
  | .PMU_CTRL => [F.PMU_CTRL_MODE, F.PMU_CTRL_RANGE, F.PMU_CTRL_CONNECT, F.PMU_CTRL_AVG, F.PMU_CTRL_MEAS, F.PMU_CTRL_BUSY, F.PMU_CTRL_RANGING]
  | .PMU_FORCE => [F.PMU_FORCE_VALUE]
  | .PMU_VCLAMP => [F.PMU_VCLAMP_VCL_HI, F.PMU_VCLAMP_VCL_LO]
  | .PMU_ICLAMP => [F.PMU_ICLAMP_ICL]
  | .PMU_RESULT => [F.PMU_RESULT_VALUE, F.PMU_RESULT_VALID, F.PMU_RESULT_CLAMPED, F.PMU_RESULT_OVER, F.PMU_RESULT_STALE]
  | .CH_DSK => [F.CH_DSK_DSK_DRV, F.CH_DSK_DSK_CMP, F.CH_DSK_PEND]
  | .TS_EDGE => [F.TS_EDGE_TIME]
  | .DPS_CTRL => [F.DPS_CTRL_EN, F.DPS_CTRL_IRANGE, F.DPS_CTRL_COMP, F.DPS_CTRL_EXT, F.DPS_CTRL_SLEW, F.DPS_CTRL_SITE, F.DPS_CTRL_BOUND, F.DPS_CTRL_LEAD, F.DPS_CTRL_MEMBERS]
  | .DPS_VSET => [F.DPS_VSET_VALUE]
  | .DPS_ILIM => [F.DPS_ILIM_VALUE]
  | .DPS_EXT_SHUNT => [F.DPS_EXT_SHUNT_UOHM]
  | .DPS_STAT => [F.DPS_STAT_CLAMP, F.DPS_STAT_ILIM_SEEN, F.DPS_STAT_RAMP_HELD, F.DPS_STAT_REG_LOSS, F.DPS_STAT_SENSE_DROP, F.DPS_STAT_SHARE, F.DPS_STAT_THERM_REF, F.DPS_STAT_TRIP_SEEN, F.DPS_STAT_ON, F.DPS_STAT_RAMPING, F.DPS_STAT_SETTLED, F.DPS_STAT_IN_LIMIT, F.DPS_STAT_TRIPPED, F.DPS_STAT_RANGING, F.DPS_STAT_STALE]
  | .DPS_MON_V => [F.DPS_MON_V_VALUE]
  | .DPS_MON_I => [F.DPS_MON_I_VALUE]
  | .DPS_MEAS => [F.DPS_MEAS_AVG, F.DPS_MEAS_MEAS, F.DPS_MEAS_BUSY]
  | .DPS_RES_V => [F.DPS_RES_V_VALUE]
  | .DPS_RES_I => [F.DPS_RES_I_VALUE]
  | .DPS_RES_STAT => [F.DPS_RES_STAT_VALID, F.DPS_RES_STAT_LIMITED, F.DPS_RES_STAT_OVER, F.DPS_RES_STAT_STALE]
  | .DPS_OUT => [F.DPS_OUT_POINT]
  | .SMU_CTRL => [F.SMU_CTRL_EN, F.SMU_CTRL_SRC, F.SMU_CTRL_FMODE, F.SMU_CTRL_VRANGE, F.SMU_CTRL_IRANGE, F.SMU_CTRL_SITE, F.SMU_CTRL_BOUND]
  | .SMU_SET => [F.SMU_SET_VALUE]
  | .SMU_ICOMP => [F.SMU_ICOMP_VALUE]
  | .SMU_VCOMP => [F.SMU_VCOMP_VALUE]
  | .SMU_STAT => [F.SMU_STAT_CLAMP, F.SMU_STAT_COMP_SEEN, F.SMU_STAT_CLIP, F.SMU_STAT_MISMATCH, F.SMU_STAT_TRIP_SEEN, F.SMU_STAT_CLOSED, F.SMU_STAT_IN_COMP, F.SMU_STAT_RANGING, F.SMU_STAT_TRIPPED, F.SMU_STAT_STALE, F.SMU_STAT_SETTLED]
  | .SMU_SINE_FREQ => [F.SMU_SINE_FREQ_FREQ]
  | .SMU_SINE_AMPL => [F.SMU_SINE_AMPL_AMPL]
  | .SMU_SINE_PHASE0 => [F.SMU_SINE_PHASE0_PHASE]
  | .SMU_SUP => [F.SMU_SUP_TOL, F.SMU_SUP_TIME]
  | .SMU_MON_V => [F.SMU_MON_V_VALUE]
  | .SMU_MON_I => [F.SMU_MON_I_VALUE]
  | .SMU_RB => [F.SMU_RB_RAW]
  | .SMU_MEAS => [F.SMU_MEAS_AVG, F.SMU_MEAS_MEAS, F.SMU_MEAS_BUSY]
  | .SMU_RES_V => [F.SMU_RES_V_VALUE]
  | .SMU_RES_I => [F.SMU_RES_I_VALUE]
  | .SMU_RES_STAT => [F.SMU_RES_STAT_VALID, F.SMU_RES_STAT_LIMITED, F.SMU_RES_STAT_OVER, F.SMU_RES_STAT_STALE]
  | .TDC_CTRL => [F.TDC_CTRL_ARM, F.TDC_CTRL_DISARM, F.TDC_CTRL_ARMED, F.TDC_CTRL_OPEN, F.TDC_CTRL_BAND_PEND, F.TDC_CTRL_STALE, F.TDC_CTRL_SITE, F.TDC_CTRL_BOUND]
  | .TDC_CFG => [F.TDC_CFG_MODE, F.TDC_CFG_ST_EV, F.TDC_CFG_ST_VAL, F.TDC_CFG_START_SRC, F.TDC_CFG_START_CH, F.TDC_CFG_START_SLOPE, F.TDC_CFG_STOP_SRC, F.TDC_CFG_STOP_CH, F.TDC_CFG_STOP_SLOPE]
  | .TDC_THR => [F.TDC_THR_START_THR, F.TDC_THR_STOP_THR]
  | .TDC_AUX => [F.TDC_AUX_HYST, F.TDC_AUX_OPEN_SRC, F.TDC_AUX_OPEN_LINE, F.TDC_AUX_PAIR_TMO_US]
  | .TDC_GATE => [F.TDC_GATE_GATE_N]
  | .TDC_RING_BASE_LO => [F.TDC_RING_BASE_LO_BASE_LO]
  | .TDC_RING_BASE_HI => [F.TDC_RING_BASE_HI_BASE_HI]
  | .TDC_RING_SIZE => [F.TDC_RING_SIZE_LOG2]
  | .TDC_STAT => [F.TDC_STAT_OVERRUN_SEEN, F.TDC_STAT_DEAD_SEEN, F.TDC_STAT_CAL_OLD_SEEN, F.TDC_STAT_PAIR_SEEN, F.TDC_STAT_NEAR_SEEN, F.TDC_STAT_RING_FULL, F.TDC_STAT_QUEUE]
  | .TDC_ACC_LO => [F.TDC_ACC_LO_N_LO]
  | .TDC_ACC_HI => [F.TDC_ACC_HI_N_HI]
  | .TDC_CNT_A => [F.TDC_CNT_A_ORPHAN_STOP, F.TDC_CNT_A_DOUBLE_START]
  | .TDC_CNT_B => [F.TDC_CNT_B_NEAR, F.TDC_CNT_B_PAIR_TMO]
  | .TDC_DROP => [F.TDC_DROP_COUNT]
  | .TDC_DEAD => [F.TDC_DEAD_COUNT]
  | .TDC_CALOLD => [F.TDC_CALOLD_COUNT]
  | .TDC_NVAL => [F.TDC_NVAL_COUNT]
  | .TDC_MIN => [F.TDC_MIN_MIN]
  | .TDC_MAX => [F.TDC_MAX_MAX]
  | .TDC_SUM_LO => [F.TDC_SUM_LO_S_LO]
  | .TDC_SUM_HI => [F.TDC_SUM_HI_S_HI]
  | .TDC_LAST_LO => [F.TDC_LAST_LO_V_LO]
  | .TDC_LAST_HI => [F.TDC_LAST_HI_V_HI]
  | .TDC_WR_LO => [F.TDC_WR_LO_WR_LO]
  | .TDC_WR_HI => [F.TDC_WR_HI_WR_HI]
  | .TDC_DSK => [F.TDC_DSK_START_DSK, F.TDC_DSK_STOP_DSK]
  | .MON_CTRL => [F.MON_CTRL_EN, F.MON_CTRL_TRIP_EN, F.MON_CTRL_SPEED, F.MON_CTRL_CLR_MODE, F.MON_CTRL_HI_EN, F.MON_CTRL_LO_EN, F.MON_CTRL_SCOPE, F.MON_CTRL_SEL, F.MON_CTRL_SCALE, F.MON_CTRL_SELFCHK]
  | .MON_HI => [F.MON_HI_VALUE]
  | .MON_LO => [F.MON_LO_VALUE]
  | .MON_HYST => [F.MON_HYST_VALUE]
  | .MON_PERIOD => [F.MON_PERIOD_US]
  | .MON_STAT => [F.MON_STAT_LATCH, F.MON_STAT_LATCH_HI, F.MON_STAT_LATCH_LO, F.MON_STAT_ARM_HI, F.MON_STAT_ARM_LO, F.MON_STAT_CHK_HI, F.MON_STAT_CHK_LO]
  | .MON_COUNT => [F.MON_COUNT_CROSSINGS]
  | .MON_TRIP_TS_LO => [F.MON_TRIP_TS_LO_TS_LO]
  | .MON_TRIP_TS_HI => [F.MON_TRIP_TS_HI_TS_HI]
  | .MON_TILE_LATCH => [F.MON_TILE_LATCH_LATCH]
  | .TCAL_OWN_LO => [F.TCAL_OWN_LO_CH]
  | .TCAL_OWN_HI => [F.TCAL_OWN_HI_CH]
  | .TCAL_OWN_UNIT => [F.TCAL_OWN_UNIT_DPS, F.TCAL_OWN_UNIT_SMU, F.TCAL_OWN_UNIT_TDC]
  | .TCAL_PEND_LO => [F.TCAL_PEND_LO_CH]
  | .TCAL_PEND_HI => [F.TCAL_PEND_HI_CH]
  | .TCAL_PEND_UNIT => [F.TCAL_PEND_UNIT_DPS, F.TCAL_PEND_UNIT_SMU, F.TCAL_PEND_UNIT_TDC, F.TCAL_PEND_UNIT_MON]
  | .TCAL_STAT => [F.TCAL_STAT_LAST_FLOW, F.TCAL_STAT_LAST_RES, F.TCAL_STAT_DRIFT, F.TCAL_STAT_UNCAL, F.TCAL_STAT_FAILS]
  | .TCAL_TJ => [F.TCAL_TJ_TJ_LEVEL, F.TCAL_TJ_TJ_DESKEW, F.TCAL_TJ_TJ_DPS, F.TCAL_TJ_TJ_SMU]
  | .TCAL_GEN => [F.TCAL_GEN_COUNT]
  | .TPH_STAT => [F.TPH_STAT_ERR, F.TPH_STAT_OVER]
  | .TPH_CORR => [F.TPH_CORR_CORR]
  | .ENG_CTRL => [F.ENG_CTRL_BRK_EN, F.ENG_CTRL_STOP, F.ENG_CTRL_STEP, F.ENG_CTRL_STEAL_EN, F.ENG_CTRL_IDLE_PC]
  | .ENG_STAT => [F.ENG_STAT_STATE, F.ENG_STAT_PC, F.ENG_STAT_DEPTH, F.ENG_STAT_RSP, F.ENG_STAT_TASK_HELD, F.ENG_STAT_AUTORUN]
  | .ENG_TMASK => [F.ENG_TMASK_MASK, F.ENG_TMASK_PEND]
  | .ENG_GO => [F.ENG_GO_PC]
  | .ENG_REFUSE => [F.ENG_REFUSE_WORD, F.ENG_REFUSE_REASON, F.ENG_REFUSE_ANA]
  | .ENG_MEMERR => [F.ENG_MEMERR_WORD, F.ENG_MEMERR_STORE, F.ENG_MEMERR_REASON]
  | .ENG_MEMERR_ADDR => [F.ENG_MEMERR_ADDR_OFFSET]
  | .ENG_HALT => [F.ENG_HALT_PC, F.ENG_HALT_CAUSE]
  | .ENG_CEL_BASE_LO => [F.ENG_CEL_BASE_LO_BASE_LO]
  | .ENG_CEL_BASE_HI => [F.ENG_CEL_BASE_HI_BASE_HI]
  | .ENG_ABORT_TMO => [F.ENG_ABORT_TMO_US]
  | .ENG_CS_STAT => [F.ENG_CS_STAT_PERR, F.ENG_CS_STAT_BADPAR_WR, F.ENG_CS_STAT_PERR_WORD]

/-- The registers of block RST. -/
def regsRST : List RegName := [.RST_CTRL, .RST_SOFT, .RST_CAUSE, .RST_WARM_COUNT, .RST_WDOG_CTL, .RST_WDOG_KICK, .BOOT_ATTEMPT, .BOOT_REASON, .BOOT_TIME, .WARM_HELD_LO, .WARM_HELD_HI]
/-- The registers of block CLK. -/
def regsCLK : List RegName := [.TB_CTRL, .TB_LO, .TB_HI, .TB_EPOCH, .SYNC_LOAD_LO, .SYNC_LOAD_HI, .SYNC_STEP, .SYNC_TS_LO, .SYNC_TS_HI, .SYNC_STAT, .CHIP_OFFSET, .SKEW_CAL, .TRIG_LAT, .TRIG_CFG, .TRIG_COMP, .TRIG_FIRE_LO, .TRIG_FIRE_HI, .TRIG_REP, .TRIG_ARR_LO, .TRIG_ARR_HI, .TRIG_STAT, .TRIG_ACC_BASE_LO, .TRIG_ACC_BASE_HI, .TRIG_ACC_CTRL, .TRIG_ACC_SUM, .TRIG_ACC_CNT, .TSET_PER, .SITE_TCTRL, .SITE_TSTART_LO, .SITE_TSTART_HI, .SITE_TSTAT]
/-- The registers of block THM. -/
def regsTHM : List RegName := [.THM_STAT, .THM_LIMIT_WARN, .THM_LIMIT_THR, .THM_LIMIT_SHUT, .THM_BROKEN_LO, .THM_BROKEN_HI, .THM_THR, .THM_THR_MS, .THM_TMAX, .THM_LOG_STAT, .THM_LOG_SEQ, .THM_SHUT_REC, .THM_BAND, .THM_BAND_CNT, .THM_TEMP]
/-- The registers of block FLT. -/
def regsFLT : List RegName := [.FLT_STAT, .FLT_SUM, .FLT_ACK, .FLT_TMO, .FLT_LOG_WR, .FLT_INJ, .FLT_REACT]
/-- The registers of block SEC. -/
def regsSEC : List RegName := [.SEC_STAT, .SEC_FUSE_STAT, .SEC_RB_COMMIT, .SEC_LC_REQ, .SEC_PROV_CMD, .SEC_WIPE, .SEC_TAMPER_CFG, .SEC_PROV_DATA, .SEC_DBG_NONCE, .SEC_DBG_TOKEN, .SEC_DBG_CTRL, .SEC_ROM_VER, .SEC_FW_VER]
/-- The registers of block CSP. -/
def regsCSP : List RegName := [.CSP_CFG, .CSP_LEN, .CSP_CTRL, .CSP_STAT, .CSP_ALIVE, .CSP_TX, .CSP_RX]
/-- The registers of block GPIO. -/
def regsGPIO : List RegName := [.GPIO_OUT, .GPIO_OE, .GPIO_IN, .GPIO_FUNC]
/-- The registers of block MBX. -/
def regsMBX : List RegName := [.MBX_HOST_RX, .MBX_HOST_RXEP, .MBX_HOST_TX, .MBX_HOST_STAT, .MBX_HOST_FLUSH, .MBX_HOST_DB, .MBX_EPOCH, .EVT_STAT, .EVT_LOST, .CMDQ_STAT, .MBX_ENG_TX, .MBX_ENG_RX, .MBX_ENG_STAT, .MBX_ENG_DB]
/-- The registers of block SEM. -/
def regsSEM : List RegName := [.SEM_ACQ, .SEM_PEEK, .SEM_FORCE, .SEM_CONTEST, .SPD_STAT, .SPD_COLL_ADDR, .SPD_WIPES, .SPD_REPAIR, .STL_CTRL, .STL_STAT, .STL_STEALS_LO, .STL_STEALS_HI, .STL_FULL]
/-- The registers of block IRQ. -/
def regsIRQ : List RegName := [.IRQ_ROUTE, .IRQ_PEND, .IRQ_SWSET, .IRQ_ENG_LOST]
/-- The registers of block FAB. -/
def regsFAB : List RegName := [.FAB_NODE, .FAB_SID_LO, .FAB_SID_HI, .FAB_CTRL, .FAB_DROP, .FAB_DROP2, .FAB_CONFLICT, .PORCH_CTRL, .PORCH_STAT, .PORCH_PSID_LO, .PORCH_PSID_HI, .PORCH_SEQ, .PORCH_RETRY, .PORCH_FEC_LO, .PORCH_FEC_HI, .PORCH_ERR, .PORCH_FILL, .PORCH_EVENTS, .PORCH_LOST, .PORCH_FLITS_LO, .PORCH_FLITS_HI, .FAB_RT, .FAB_MC]
/-- The registers of block CFG. -/
def regsCFG : List RegName := [.CFG_STAT, .CFG_VERSION, .CFG_ROLLBACK, .CFG_DIR_GEN, .TRIM_STAT, .CONTACT_CTL, .LVL_LOAD_STAT, .MODE_STAT, .MODE_ENTRY_LO, .MODE_ENTRY_HI, .CFG_PART_ID]
/-- The registers of block CEL. -/
def regsCEL : List RegName := [.CEL_CFG, .CEL_TOP_LO, .CEL_TOP_HI, .CEL_ECC_CORR, .CEL_ECC_UNCORR, .CEL_ECC_ADDR_LO, .CEL_ECC_ADDR_HI, .CEL_SCRUB, .CEL_CLS_BYTES_LO, .CEL_CLS_BYTES_HI, .CEL_CLS_HELD]
/-- The registers of block SEQ. -/
def regsSEQ : List RegName := [.SEQ_STAB_COUNT, .SEQ_ERR, .SEQ_START, .SEQ_CUR, .SEQ_PASS, .SEQ_JUMP_REQ, .SEQ_UNDERRUN, .SEQ_SSTAT, .SEQ_VEC_LO, .SEQ_VEC_HI, .SEQ_STALL_LO, .SEQ_STALL_HI, .SEQ_REFETCH, .SEQ_MARK, .SEQ_START_TMO, .SMUW_CUR, .SMUW_JUMP_REQ, .SITE_STATE, .SITE_CMD, .SITE_BIN, .SITE_RUN, .SITE_TAG_LO, .SITE_TAG_HI, .SITE_FAILVEC, .SITE_FSIG, .SITE_FAILSTORED, .SITE_REC_WR_LO, .SITE_REC_WR_HI, .SITE_REC_LOST, .SITE_TASKS]
/-- The registers of block PAN. -/
def regsPAN : List RegName := [.PAN_CTRL, .PAN_PIN_LIMIT, .PAN_STAT, .PAN_UNDERRUN, .PAN_DECODE_ERR, .PAN_EVICT, .PAN_INVAL, .PAN_OVERBUDGET]
/-- The registers of block ACQ. -/
def regsACQ : List RegName := [.ACQ_CFG, .ACQ_CTRL, .ACQ_PRE, .ACQ_POST, .ACQ_BUF_LO, .ACQ_BUF_HI, .ACQ_LEVEL, .ACQ_HYST, .ACQ_TTIME_LO, .ACQ_TTIME_HI, .ACQ_STAT, .ACQ_TRIG_TS_LO, .ACQ_TRIG_TS_HI, .ACQ_WR_IDX, .ACQ_COUNT, .ACQ_FIRST_IDX]
/-- The registers of block CHAN. -/
def regsCHAN : List RegName := [.CH_CTRL, .CH_STAT, .CH_VIH0, .CH_VIL0, .CH_VOH0, .CH_VOL0, .CH_VT0, .CH_VIH1, .CH_VIL1, .CH_VOH1, .CH_VOL1, .CH_VT1, .CH_FAILCNT, .CH_FIRSTFAIL_LO, .CH_FIRSTFAIL_HI, .PMU_CTRL, .PMU_FORCE, .PMU_VCLAMP, .PMU_ICLAMP, .PMU_RESULT, .CH_DSK, .TS_EDGE]
/-- The registers of block DPS. -/
def regsDPS : List RegName := [.DPS_CTRL, .DPS_VSET, .DPS_ILIM, .DPS_EXT_SHUNT, .DPS_STAT, .DPS_MON_V, .DPS_MON_I, .DPS_MEAS, .DPS_RES_V, .DPS_RES_I, .DPS_RES_STAT, .DPS_OUT]
/-- The registers of block SMU. -/
def regsSMU : List RegName := [.SMU_CTRL, .SMU_SET, .SMU_ICOMP, .SMU_VCOMP, .SMU_STAT, .SMU_SINE_FREQ, .SMU_SINE_AMPL, .SMU_SINE_PHASE0, .SMU_SUP, .SMU_MON_V, .SMU_MON_I, .SMU_RB, .SMU_MEAS, .SMU_RES_V, .SMU_RES_I, .SMU_RES_STAT]
/-- The registers of block TDC. -/
def regsTDC : List RegName := [.TDC_CTRL, .TDC_CFG, .TDC_THR, .TDC_AUX, .TDC_GATE, .TDC_RING_BASE_LO, .TDC_RING_BASE_HI, .TDC_RING_SIZE, .TDC_STAT, .TDC_ACC_LO, .TDC_ACC_HI, .TDC_CNT_A, .TDC_CNT_B, .TDC_DROP, .TDC_DEAD, .TDC_CALOLD, .TDC_NVAL, .TDC_MIN, .TDC_MAX, .TDC_SUM_LO, .TDC_SUM_HI, .TDC_LAST_LO, .TDC_LAST_HI, .TDC_WR_LO, .TDC_WR_HI, .TDC_DSK]
/-- The registers of block MON. -/
def regsMON : List RegName := [.MON_CTRL, .MON_HI, .MON_LO, .MON_HYST, .MON_PERIOD, .MON_STAT, .MON_COUNT, .MON_TRIP_TS_LO, .MON_TRIP_TS_HI]
/-- The registers of block TILEMON. -/
def regsTILEMON : List RegName := [.MON_TILE_LATCH]
/-- The registers of block TILECAL. -/
def regsTILECAL : List RegName := [.TCAL_OWN_LO, .TCAL_OWN_HI, .TCAL_OWN_UNIT, .TCAL_PEND_LO, .TCAL_PEND_HI, .TCAL_PEND_UNIT, .TCAL_STAT, .TCAL_TJ, .TCAL_GEN, .TPH_STAT, .TPH_CORR]
/-- The registers of block ENG. -/
def regsENG : List RegName := [.ENG_CTRL, .ENG_STAT, .ENG_TMASK, .ENG_GO, .ENG_REFUSE, .ENG_MEMERR, .ENG_MEMERR_ADDR, .ENG_HALT, .ENG_CEL_BASE_LO, .ENG_CEL_BASE_HI, .ENG_ABORT_TMO, .ENG_CS_STAT]

end Sys2Proof.Machine
end

