-- ==== Sys2Proof/Machine/AddrMap.lean ====
section
/-!
DEFINITION. The address map of the registers (21_register_index.md, R621): blocks with their bases
and per-unit strides, the offset of each register in its block, and the reading of an address as a
register and an instance.
-/

namespace Sys2Proof.Machine

/-- One dimension of an array of units or registers: how many, and the address step. -/
structure Dim where
  count : Nat
  stride : Nat
  deriving DecidableEq, Repr

/-- A register (or an array of registers) at an offset of its block. -/
structure Slot where
  off : Nat
  dims : List Dim
  reg : RegName
  deriving DecidableEq, Repr

/-- A block of registers, repeated for each unit by `dims`; `span` is the bytes one unit has. -/
structure Block where
  base : Nat
  dims : List Dim
  span : Nat
  slots : List Slot
  deriving DecidableEq, Repr

/-- How many instances a list of dimensions gives. -/
def dimTotal : List Dim → Nat
  | [] => 1
  | d :: ds => d.count * dimTotal ds

/-- An offset read through a list of dimensions: the instance and the bytes that remain. -/
def splitDims : List Dim → Nat → Nat → Option (Nat × Nat)
  | [], acc, off => some (acc, off)
  | d :: ds, acc, off =>
    if off / d.stride < d.count then splitDims ds (acc * d.count + off / d.stride) (off % d.stride)
    else none

/-- The bytes that an instance adds to the base. -/
def joinDims : List Dim → Nat → Nat
  | [], _ => 0
  | d :: ds, i => (i / dimTotal ds) * d.stride + joinDims ds (i % dimTotal ds)

/-- Block RST (R621 and the register index). -/
def blockRST : Block :=
  ⟨0, [], 0x10000, [
    ⟨0, [], .RST_CTRL⟩,
    ⟨4, [], .RST_SOFT⟩,
    ⟨0x10, [], .RST_CAUSE⟩,
    ⟨0x14, [], .RST_WARM_COUNT⟩,
    ⟨0x20, [], .RST_WDOG_CTL⟩,
    ⟨0x24, [], .RST_WDOG_KICK⟩,
    ⟨0x30, [], .BOOT_ATTEMPT⟩,
    ⟨0x34, [], .BOOT_REASON⟩,
    ⟨0x38, [], .BOOT_TIME⟩,
    ⟨0x40, [], .WARM_HELD_LO⟩,
    ⟨0x44, [], .WARM_HELD_HI⟩]⟩
/-- Block CLK (R621 and the register index). -/
def blockCLK : Block :=
  ⟨0x10000, [], 0x10000, [
    ⟨0x100, [], .TB_CTRL⟩,
    ⟨0x104, [], .TB_LO⟩,
    ⟨0x108, [], .TB_HI⟩,
    ⟨0x10c, [], .TB_EPOCH⟩,
    ⟨0x110, [], .SYNC_LOAD_LO⟩,
    ⟨0x114, [], .SYNC_LOAD_HI⟩,
    ⟨0x118, [], .SYNC_STEP⟩,
    ⟨0x120, [], .SYNC_TS_LO⟩,
    ⟨0x124, [], .SYNC_TS_HI⟩,
    ⟨0x128, [], .SYNC_STAT⟩,
    ⟨0x130, [], .CHIP_OFFSET⟩,
    ⟨0x134, [], .SKEW_CAL⟩,
    ⟨0x180, [], .TRIG_LAT⟩,
    ⟨0x200, [⟨8, 0x40⟩], .TRIG_CFG⟩,
    ⟨0x204, [⟨8, 0x40⟩], .TRIG_COMP⟩,
    ⟨0x208, [⟨8, 0x40⟩], .TRIG_FIRE_LO⟩,
    ⟨0x20c, [⟨8, 0x40⟩], .TRIG_FIRE_HI⟩,
    ⟨0x210, [⟨8, 0x40⟩], .TRIG_REP⟩,
    ⟨0x214, [⟨8, 0x40⟩], .TRIG_ARR_LO⟩,
    ⟨0x218, [⟨8, 0x40⟩], .TRIG_ARR_HI⟩,
    ⟨0x21c, [⟨8, 0x40⟩], .TRIG_STAT⟩,
    ⟨0x220, [⟨8, 0x40⟩], .TRIG_ACC_BASE_LO⟩,
    ⟨0x224, [⟨8, 0x40⟩], .TRIG_ACC_BASE_HI⟩,
    ⟨0x228, [⟨8, 0x40⟩], .TRIG_ACC_CTRL⟩,
    ⟨0x22c, [⟨8, 0x40⟩], .TRIG_ACC_SUM⟩,
    ⟨0x230, [⟨8, 0x40⟩], .TRIG_ACC_CNT⟩,
    ⟨0x1000, [⟨64, 0x40⟩, ⟨16, 4⟩], .TSET_PER⟩,
    ⟨0x2000, [⟨64, 0x10⟩], .SITE_TCTRL⟩,
    ⟨0x2004, [⟨64, 0x10⟩], .SITE_TSTART_LO⟩,
    ⟨0x2008, [⟨64, 0x10⟩], .SITE_TSTART_HI⟩,
    ⟨0x200c, [⟨64, 0x10⟩], .SITE_TSTAT⟩]⟩
/-- Block THM (R621 and the register index). -/
def blockTHM : Block :=
  ⟨0x20000, [], 0x10000, [
    ⟨0, [], .THM_STAT⟩,
    ⟨0x10, [], .THM_LIMIT_WARN⟩,
    ⟨0x14, [], .THM_LIMIT_THR⟩,
    ⟨0x18, [], .THM_LIMIT_SHUT⟩,
    ⟨0x20, [], .THM_BROKEN_LO⟩,
    ⟨0x24, [], .THM_BROKEN_HI⟩,
    ⟨0x28, [], .THM_THR⟩,
    ⟨0x2c, [], .THM_THR_MS⟩,
    ⟨0x30, [], .THM_TMAX⟩,
    ⟨0x34, [], .THM_LOG_STAT⟩,
    ⟨0x38, [], .THM_LOG_SEQ⟩,
    ⟨0x40, [⟨8, 4⟩], .THM_SHUT_REC⟩,
    ⟨0x100, [], .THM_BAND⟩,
    ⟨0x104, [], .THM_BAND_CNT⟩,
    ⟨0x200, [⟨40, 4⟩], .THM_TEMP⟩]⟩
/-- Block FLT (R621 and the register index). -/
def blockFLT : Block :=
  ⟨0x30000, [], 0x10000, [
    ⟨0, [⟨4, 4⟩], .FLT_STAT⟩,
    ⟨0x10, [], .FLT_SUM⟩,
    ⟨0x14, [], .FLT_ACK⟩,
    ⟨0x18, [], .FLT_TMO⟩,
    ⟨0x20, [], .FLT_LOG_WR⟩,
    ⟨0x24, [], .FLT_INJ⟩,
    ⟨0x40, [⟨32, 4⟩], .FLT_REACT⟩]⟩
/-- Block SEC (R621 and the register index). -/
def blockSEC : Block :=
  ⟨0x40000, [], 0x10000, [
    ⟨0, [], .SEC_STAT⟩,
    ⟨4, [], .SEC_FUSE_STAT⟩,
    ⟨0x10, [], .SEC_RB_COMMIT⟩,
    ⟨0x14, [], .SEC_LC_REQ⟩,
    ⟨0x18, [], .SEC_PROV_CMD⟩,
    ⟨0x1c, [], .SEC_WIPE⟩,
    ⟨0x20, [], .SEC_TAMPER_CFG⟩,
    ⟨0x40, [⟨12, 4⟩], .SEC_PROV_DATA⟩,
    ⟨0x80, [⟨8, 4⟩], .SEC_DBG_NONCE⟩,
    ⟨0xa0, [], .SEC_DBG_TOKEN⟩,
    ⟨0xa4, [], .SEC_DBG_CTRL⟩,
    ⟨0xa8, [], .SEC_ROM_VER⟩,
    ⟨0xac, [], .SEC_FW_VER⟩]⟩
/-- Block CSP (R621 and the register index). -/
def blockCSP : Block :=
  ⟨0x50000, [⟨2, 0x1000⟩], 0x1000, [
    ⟨0, [], .CSP_CFG⟩,
    ⟨4, [], .CSP_LEN⟩,
    ⟨8, [], .CSP_CTRL⟩,
    ⟨0xc, [], .CSP_STAT⟩,
    ⟨0x10, [], .CSP_ALIVE⟩,
    ⟨0x200, [⟨128, 4⟩], .CSP_TX⟩,
    ⟨0x400, [⟨128, 4⟩], .CSP_RX⟩]⟩
/-- Block GPIO (R621 and the register index). -/
def blockGPIO : Block :=
  ⟨0x60000, [], 0x10000, [
    ⟨0, [], .GPIO_OUT⟩,
    ⟨4, [], .GPIO_OE⟩,
    ⟨8, [], .GPIO_IN⟩,
    ⟨0xc, [], .GPIO_FUNC⟩]⟩
/-- Block MBX (R621 and the register index). -/
def blockMBX : Block :=
  ⟨0x70000, [], 0x10000, [
    ⟨0, [⟨4, 0x20⟩], .MBX_HOST_RX⟩,
    ⟨4, [⟨4, 0x20⟩], .MBX_HOST_RXEP⟩,
    ⟨8, [⟨4, 0x20⟩], .MBX_HOST_TX⟩,
    ⟨0xc, [⟨4, 0x20⟩], .MBX_HOST_STAT⟩,
    ⟨0x10, [⟨4, 0x20⟩], .MBX_HOST_FLUSH⟩,
    ⟨0x14, [⟨4, 0x20⟩], .MBX_HOST_DB⟩,
    ⟨0xf00, [], .MBX_EPOCH⟩,
    ⟨0xf10, [], .EVT_STAT⟩,
    ⟨0xf14, [], .EVT_LOST⟩,
    ⟨0xf20, [], .CMDQ_STAT⟩,
    ⟨0x1000, [⟨64, 0x10⟩], .MBX_ENG_TX⟩,
    ⟨0x1004, [⟨64, 0x10⟩], .MBX_ENG_RX⟩,
    ⟨0x1008, [⟨64, 0x10⟩], .MBX_ENG_STAT⟩,
    ⟨0x100c, [⟨64, 0x10⟩], .MBX_ENG_DB⟩]⟩
/-- Block SEM (R621 and the register index). -/
def blockSEM : Block :=
  ⟨0x80000, [], 0x10000, [
    ⟨0, [⟨64, 4⟩], .SEM_ACQ⟩,
    ⟨0x100, [⟨64, 4⟩], .SEM_PEEK⟩,
    ⟨0x200, [], .SEM_FORCE⟩,
    ⟨0x204, [], .SEM_CONTEST⟩,
    ⟨0x800, [], .SPD_STAT⟩,
    ⟨0x804, [], .SPD_COLL_ADDR⟩,
    ⟨0x808, [], .SPD_WIPES⟩,
    ⟨0x80c, [], .SPD_REPAIR⟩,
    ⟨0x1000, [], .STL_CTRL⟩,
    ⟨0x1004, [], .STL_STAT⟩,
    ⟨0x1008, [], .STL_STEALS_LO⟩,
    ⟨0x100c, [], .STL_STEALS_HI⟩,
    ⟨0x1010, [], .STL_FULL⟩]⟩
/-- Block IRQ (R621 and the register index). -/
def blockIRQ : Block :=
  ⟨0x90000, [], 0x10000, [
    ⟨0, [⟨256, 4⟩], .IRQ_ROUTE⟩,
    ⟨0x400, [⟨8, 4⟩], .IRQ_PEND⟩,
    ⟨0x460, [], .IRQ_SWSET⟩,
    ⟨0x470, [], .IRQ_ENG_LOST⟩]⟩
/-- Block FAB (R621 and the register index). -/
def blockFAB : Block :=
  ⟨0xa0000, [], 0x10000, [
    ⟨0, [], .FAB_NODE⟩,
    ⟨4, [], .FAB_SID_LO⟩,
    ⟨8, [], .FAB_SID_HI⟩,
    ⟨0xc, [], .FAB_CTRL⟩,
    ⟨0x10, [], .FAB_DROP⟩,
    ⟨0x14, [], .FAB_DROP2⟩,
    ⟨0x18, [], .FAB_CONFLICT⟩,
    ⟨0x100, [⟨8, 0x40⟩], .PORCH_CTRL⟩,
    ⟨0x104, [⟨8, 0x40⟩], .PORCH_STAT⟩,
    ⟨0x108, [⟨8, 0x40⟩], .PORCH_PSID_LO⟩,
    ⟨0x10c, [⟨8, 0x40⟩], .PORCH_PSID_HI⟩,
    ⟨0x110, [⟨8, 0x40⟩], .PORCH_SEQ⟩,
    ⟨0x114, [⟨8, 0x40⟩], .PORCH_RETRY⟩,
    ⟨0x118, [⟨8, 0x40⟩], .PORCH_FEC_LO⟩,
    ⟨0x11c, [⟨8, 0x40⟩], .PORCH_FEC_HI⟩,
    ⟨0x120, [⟨8, 0x40⟩], .PORCH_ERR⟩,
    ⟨0x124, [⟨8, 0x40⟩], .PORCH_FILL⟩,
    ⟨0x128, [⟨8, 0x40⟩], .PORCH_EVENTS⟩,
    ⟨0x12c, [⟨8, 0x40⟩], .PORCH_LOST⟩,
    ⟨0x130, [⟨8, 0x40⟩], .PORCH_FLITS_LO⟩,
    ⟨0x134, [⟨8, 0x40⟩], .PORCH_FLITS_HI⟩,
    ⟨0x1000, [⟨32, 4⟩], .FAB_RT⟩,
    ⟨0x1080, [⟨16, 4⟩], .FAB_MC⟩]⟩
/-- Block CFG (R621 and the register index). -/
def blockCFG : Block :=
  ⟨0xb0000, [], 0x10000, [
    ⟨0, [], .CFG_STAT⟩,
    ⟨4, [], .CFG_VERSION⟩,
    ⟨8, [], .CFG_ROLLBACK⟩,
    ⟨0xc, [], .CFG_DIR_GEN⟩,
    ⟨0x10, [], .TRIM_STAT⟩,
    ⟨0x20, [], .CONTACT_CTL⟩,
    ⟨0x24, [], .LVL_LOAD_STAT⟩,
    ⟨0x30, [], .MODE_STAT⟩,
    ⟨0x38, [], .MODE_ENTRY_LO⟩,
    ⟨0x3c, [], .MODE_ENTRY_HI⟩,
    ⟨0x40, [], .CFG_PART_ID⟩]⟩
/-- Block CEL (R621 and the register index). -/
def blockCEL : Block :=
  ⟨0xc0000, [], 0x10000, [
    ⟨0, [], .CEL_CFG⟩,
    ⟨4, [], .CEL_TOP_LO⟩,
    ⟨8, [], .CEL_TOP_HI⟩,
    ⟨0x10, [], .CEL_ECC_CORR⟩,
    ⟨0x14, [], .CEL_ECC_UNCORR⟩,
    ⟨0x18, [], .CEL_ECC_ADDR_LO⟩,
    ⟨0x1c, [], .CEL_ECC_ADDR_HI⟩,
    ⟨0x24, [], .CEL_SCRUB⟩,
    ⟨0x100, [⟨5, 8⟩], .CEL_CLS_BYTES_LO⟩,
    ⟨0x104, [⟨5, 8⟩], .CEL_CLS_BYTES_HI⟩,
    ⟨0x140, [⟨5, 4⟩], .CEL_CLS_HELD⟩]⟩
/-- Block SEQ (R621 and the register index). -/
def blockSEQ : Block :=
  ⟨0xd0000, [], 0x10000, [
    ⟨0, [], .SEQ_STAB_COUNT⟩,
    ⟨4, [], .SEQ_ERR⟩,
    ⟨0x1000, [⟨64, 0x40⟩], .SEQ_START⟩,
    ⟨0x1004, [⟨64, 0x40⟩], .SEQ_CUR⟩,
    ⟨0x1008, [⟨64, 0x40⟩], .SEQ_PASS⟩,
    ⟨0x100c, [⟨64, 0x40⟩], .SEQ_JUMP_REQ⟩,
    ⟨0x1010, [⟨64, 0x40⟩], .SEQ_UNDERRUN⟩,
    ⟨0x1014, [⟨64, 0x40⟩], .SEQ_SSTAT⟩,
    ⟨0x1018, [⟨64, 0x40⟩], .SEQ_VEC_LO⟩,
    ⟨0x101c, [⟨64, 0x40⟩], .SEQ_VEC_HI⟩,
    ⟨0x1020, [⟨64, 0x40⟩], .SEQ_STALL_LO⟩,
    ⟨0x1024, [⟨64, 0x40⟩], .SEQ_STALL_HI⟩,
    ⟨0x1028, [⟨64, 0x40⟩], .SEQ_REFETCH⟩,
    ⟨0x102c, [⟨64, 0x40⟩], .SEQ_MARK⟩,
    ⟨0x1030, [⟨64, 0x40⟩], .SEQ_START_TMO⟩,
    ⟨0x3000, [⟨32, 0x10⟩], .SMUW_CUR⟩,
    ⟨0x3004, [⟨32, 0x10⟩], .SMUW_JUMP_REQ⟩,
    ⟨0x4000, [⟨64, 0x40⟩], .SITE_STATE⟩,
    ⟨0x4004, [⟨64, 0x40⟩], .SITE_CMD⟩,
    ⟨0x4008, [⟨64, 0x40⟩], .SITE_BIN⟩,
    ⟨0x400c, [⟨64, 0x40⟩], .SITE_RUN⟩,
    ⟨0x4010, [⟨64, 0x40⟩], .SITE_TAG_LO⟩,
    ⟨0x4014, [⟨64, 0x40⟩], .SITE_TAG_HI⟩,
    ⟨0x4018, [⟨64, 0x40⟩], .SITE_FAILVEC⟩,
    ⟨0x401c, [⟨64, 0x40⟩], .SITE_FSIG⟩,
    ⟨0x4020, [⟨64, 0x40⟩], .SITE_FAILSTORED⟩,
    ⟨0x4028, [⟨64, 0x40⟩], .SITE_REC_WR_LO⟩,
    ⟨0x402c, [⟨64, 0x40⟩], .SITE_REC_WR_HI⟩,
    ⟨0x4030, [⟨64, 0x40⟩], .SITE_REC_LOST⟩,
    ⟨0x4034, [⟨64, 0x40⟩], .SITE_TASKS⟩]⟩
/-- Block PAN (R621 and the register index). -/
def blockPAN : Block :=
  ⟨0xe0000, [], 0x10000, [
    ⟨0, [], .PAN_CTRL⟩,
    ⟨4, [], .PAN_PIN_LIMIT⟩,
    ⟨8, [], .PAN_STAT⟩,
    ⟨0xc, [], .PAN_UNDERRUN⟩,
    ⟨0x10, [], .PAN_DECODE_ERR⟩,
    ⟨0x14, [], .PAN_EVICT⟩,
    ⟨0x18, [], .PAN_INVAL⟩,
    ⟨0x1c, [], .PAN_OVERBUDGET⟩]⟩
/-- Block ACQ (R621 and the register index). -/
def blockACQ : Block :=
  ⟨0xf0000, [⟨96, 0x40⟩], 0x40, [
    ⟨0, [], .ACQ_CFG⟩,
    ⟨4, [], .ACQ_CTRL⟩,
    ⟨8, [], .ACQ_PRE⟩,
    ⟨0xc, [], .ACQ_POST⟩,
    ⟨0x10, [], .ACQ_BUF_LO⟩,
    ⟨0x14, [], .ACQ_BUF_HI⟩,
    ⟨0x18, [], .ACQ_LEVEL⟩,
    ⟨0x1c, [], .ACQ_HYST⟩,
    ⟨0x20, [], .ACQ_TTIME_LO⟩,
    ⟨0x24, [], .ACQ_TTIME_HI⟩,
    ⟨0x28, [], .ACQ_STAT⟩,
    ⟨0x2c, [], .ACQ_TRIG_TS_LO⟩,
    ⟨0x30, [], .ACQ_TRIG_TS_HI⟩,
    ⟨0x34, [], .ACQ_WR_IDX⟩,
    ⟨0x38, [], .ACQ_COUNT⟩,
    ⟨0x3c, [], .ACQ_FIRST_IDX⟩]⟩
/-- Block CHAN (R621 and the register index). -/
def blockCHAN : Block :=
  ⟨0x10000000, [⟨8, 0x1000000⟩, ⟨64, 0x1000⟩], 0x1000, [
    ⟨0, [], .CH_CTRL⟩,
    ⟨4, [], .CH_STAT⟩,
    ⟨0x10, [], .CH_VIH0⟩,
    ⟨0x14, [], .CH_VIL0⟩,
    ⟨0x18, [], .CH_VOH0⟩,
    ⟨0x1c, [], .CH_VOL0⟩,
    ⟨0x20, [], .CH_VT0⟩,
    ⟨0x30, [], .CH_VIH1⟩,
    ⟨0x34, [], .CH_VIL1⟩,
    ⟨0x38, [], .CH_VOH1⟩,
    ⟨0x3c, [], .CH_VOL1⟩,
    ⟨0x40, [], .CH_VT1⟩,
    ⟨0x50, [], .CH_FAILCNT⟩,
    ⟨0x54, [], .CH_FIRSTFAIL_LO⟩,
    ⟨0x58, [], .CH_FIRSTFAIL_HI⟩,
    ⟨0x100, [], .PMU_CTRL⟩,
    ⟨0x104, [], .PMU_FORCE⟩,
    ⟨0x108, [], .PMU_VCLAMP⟩,
    ⟨0x10c, [], .PMU_ICLAMP⟩,
    ⟨0x110, [], .PMU_RESULT⟩,
    ⟨0x180, [], .CH_DSK⟩,
    ⟨0x200, [⟨16, 0x20⟩, ⟨6, 4⟩], .TS_EDGE⟩]⟩
/-- Block DPS (R621 and the register index). -/
def blockDPS : Block :=
  ⟨0x10400000, [⟨8, 0x1000000⟩, ⟨8, 0x100⟩], 0x100, [
    ⟨0, [], .DPS_CTRL⟩,
    ⟨4, [], .DPS_VSET⟩,
    ⟨8, [], .DPS_ILIM⟩,
    ⟨0xc, [], .DPS_EXT_SHUNT⟩,
    ⟨0x10, [], .DPS_STAT⟩,
    ⟨0x14, [], .DPS_MON_V⟩,
    ⟨0x18, [], .DPS_MON_I⟩,
    ⟨0x1c, [], .DPS_MEAS⟩,
    ⟨0x20, [], .DPS_RES_V⟩,
    ⟨0x24, [], .DPS_RES_I⟩,
    ⟨0x28, [], .DPS_RES_STAT⟩,
    ⟨0x2c, [], .DPS_OUT⟩]⟩
/-- Block SMU (R621 and the register index). -/
def blockSMU : Block :=
  ⟨0x10500000, [⟨8, 0x1000000⟩, ⟨4, 0x100⟩], 0x100, [
    ⟨0, [], .SMU_CTRL⟩,
    ⟨4, [], .SMU_SET⟩,
    ⟨8, [], .SMU_ICOMP⟩,
    ⟨0xc, [], .SMU_VCOMP⟩,
    ⟨0x10, [], .SMU_STAT⟩,
    ⟨0x14, [], .SMU_SINE_FREQ⟩,
    ⟨0x18, [], .SMU_SINE_AMPL⟩,
    ⟨0x1c, [], .SMU_SINE_PHASE0⟩,
    ⟨0x20, [], .SMU_SUP⟩,
    ⟨0x24, [], .SMU_MON_V⟩,
    ⟨0x28, [], .SMU_MON_I⟩,
    ⟨0x2c, [], .SMU_RB⟩,
    ⟨0x30, [], .SMU_MEAS⟩,
    ⟨0x34, [], .SMU_RES_V⟩,
    ⟨0x38, [], .SMU_RES_I⟩,
    ⟨0x3c, [], .SMU_RES_STAT⟩]⟩
/-- Block TDC (R621 and the register index). -/
def blockTDC : Block :=
  ⟨0x10600000, [⟨8, 0x1000000⟩, ⟨16, 0x100⟩], 0x100, [
    ⟨0, [], .TDC_CTRL⟩,
    ⟨4, [], .TDC_CFG⟩,
    ⟨8, [], .TDC_THR⟩,
    ⟨0xc, [], .TDC_AUX⟩,
    ⟨0x10, [], .TDC_GATE⟩,
    ⟨0x14, [], .TDC_RING_BASE_LO⟩,
    ⟨0x18, [], .TDC_RING_BASE_HI⟩,
    ⟨0x1c, [], .TDC_RING_SIZE⟩,
    ⟨0x20, [], .TDC_STAT⟩,
    ⟨0x24, [], .TDC_ACC_LO⟩,
    ⟨0x28, [], .TDC_ACC_HI⟩,
    ⟨0x2c, [], .TDC_CNT_A⟩,
    ⟨0x30, [], .TDC_CNT_B⟩,
    ⟨0x34, [], .TDC_DROP⟩,
    ⟨0x38, [], .TDC_DEAD⟩,
    ⟨0x3c, [], .TDC_CALOLD⟩,
    ⟨0x40, [], .TDC_NVAL⟩,
    ⟨0x44, [], .TDC_MIN⟩,
    ⟨0x48, [], .TDC_MAX⟩,
    ⟨0x4c, [], .TDC_SUM_LO⟩,
    ⟨0x50, [], .TDC_SUM_HI⟩,
    ⟨0x54, [], .TDC_LAST_LO⟩,
    ⟨0x58, [], .TDC_LAST_HI⟩,
    ⟨0x5c, [], .TDC_WR_LO⟩,
    ⟨0x60, [], .TDC_WR_HI⟩,
    ⟨0x64, [], .TDC_DSK⟩]⟩
/-- Block MON (R621 and the register index). -/
def blockMON : Block :=
  ⟨0x10700000, [⟨8, 0x1000000⟩, ⟨20, 0x40⟩], 0x40, [
    ⟨0, [], .MON_CTRL⟩,
    ⟨4, [], .MON_HI⟩,
    ⟨8, [], .MON_LO⟩,
    ⟨0xc, [], .MON_HYST⟩,
    ⟨0x10, [], .MON_PERIOD⟩,
    ⟨0x14, [], .MON_STAT⟩,
    ⟨0x18, [], .MON_COUNT⟩,
    ⟨0x20, [], .MON_TRIP_TS_LO⟩,
    ⟨0x24, [], .MON_TRIP_TS_HI⟩]⟩
/-- Block TILEMON (R621 and the register index). -/
def blockTILEMON : Block :=
  ⟨0x10700800, [⟨8, 0x1000000⟩], 0x100, [
    ⟨0, [], .MON_TILE_LATCH⟩]⟩
/-- Block TILECAL (R621 and the register index). -/
def blockTILECAL : Block :=
  ⟨0x10800000, [⟨8, 0x1000000⟩], 0x1000, [
    ⟨0, [], .TCAL_OWN_LO⟩,
    ⟨4, [], .TCAL_OWN_HI⟩,
    ⟨8, [], .TCAL_OWN_UNIT⟩,
    ⟨0xc, [], .TCAL_PEND_LO⟩,
    ⟨0x10, [], .TCAL_PEND_HI⟩,
    ⟨0x14, [], .TCAL_PEND_UNIT⟩,
    ⟨0x18, [], .TCAL_STAT⟩,
    ⟨0x1c, [], .TCAL_TJ⟩,
    ⟨0x20, [], .TCAL_GEN⟩,
    ⟨0x100, [], .TPH_STAT⟩,
    ⟨0x104, [], .TPH_CORR⟩]⟩
/-- Block ENG (R621 and the register index). -/
def blockENG : Block :=
  ⟨0x20080000, [⟨64, 0x100000⟩], 0x100, [
    ⟨0, [], .ENG_CTRL⟩,
    ⟨4, [], .ENG_STAT⟩,
    ⟨8, [], .ENG_TMASK⟩,
    ⟨0xc, [], .ENG_GO⟩,
    ⟨0x10, [], .ENG_REFUSE⟩,
    ⟨0x14, [], .ENG_MEMERR⟩,
    ⟨0x18, [], .ENG_MEMERR_ADDR⟩,
    ⟨0x1c, [], .ENG_HALT⟩,
    ⟨0x20, [], .ENG_CEL_BASE_LO⟩,
    ⟨0x24, [], .ENG_CEL_BASE_HI⟩,
    ⟨0x28, [], .ENG_ABORT_TMO⟩,
    ⟨0x2c, [], .ENG_CS_STAT⟩]⟩

/-- All the register blocks. -/
def allBlocks : List Block :=
  [blockRST, blockCLK, blockTHM, blockFLT, blockSEC, blockCSP, blockGPIO, blockMBX, blockSEM, blockIRQ, blockFAB, blockCFG, blockCEL, blockSEQ, blockPAN, blockACQ, blockCHAN, blockDPS, blockSMU, blockTDC, blockMON, blockTILEMON, blockTILECAL, blockENG]

/-- The slot of a block, and the instance in it, at an offset of one unit. -/
def findSlot : List Slot → Nat → Option (Slot × Nat)
  | [], _ => none
  | sl :: rest, off =>
    if off < sl.off then findSlot rest off
    else
      match splitDims sl.dims 0 (off - sl.off) with
      | some (j, 0) => some (sl, j)
      | _ => findSlot rest off

/-- The register at an address of one block. -/
def Block.find (b : Block) (addr : Nat) : Option (RegName × Nat) :=
  if addr < b.base then none
  else
    match splitDims b.dims 0 (addr - b.base) with
    | none => none
    | some (u, off) =>
      if off < b.span then
        match findSlot b.slots off with
        | none => none
        | some (sl, j) => some (sl.reg, u * dimTotal sl.dims + j)
      else none

/-- The register that an address names, if any (R621). -/
def decodeAddrIn : List Block → Nat → Option (RegName × Nat)
  | [], _ => none
  | b :: bs, addr =>
    match b.find addr with
    | some r => some r
    | none => decodeAddrIn bs addr

/-- The register that an address names, if any (R621). -/
def decodeAddr (addr : Nat) : Option (RegName × Nat) := decodeAddrIn allBlocks addr

/-- The block that holds a register. -/
def RegName.block : RegName → Block
  | .RST_CTRL => blockRST
  | .RST_SOFT => blockRST
  | .RST_CAUSE => blockRST
  | .RST_WARM_COUNT => blockRST
  | .RST_WDOG_CTL => blockRST
  | .RST_WDOG_KICK => blockRST
  | .BOOT_ATTEMPT => blockRST
  | .BOOT_REASON => blockRST
  | .BOOT_TIME => blockRST
  | .WARM_HELD_LO => blockRST
  | .WARM_HELD_HI => blockRST
  | .TB_CTRL => blockCLK
  | .TB_LO => blockCLK
  | .TB_HI => blockCLK
  | .TB_EPOCH => blockCLK
  | .SYNC_LOAD_LO => blockCLK
  | .SYNC_LOAD_HI => blockCLK
  | .SYNC_STEP => blockCLK
  | .SYNC_TS_LO => blockCLK
  | .SYNC_TS_HI => blockCLK
  | .SYNC_STAT => blockCLK
  | .CHIP_OFFSET => blockCLK
  | .SKEW_CAL => blockCLK
  | .TRIG_LAT => blockCLK
  | .TRIG_CFG => blockCLK
  | .TRIG_COMP => blockCLK
  | .TRIG_FIRE_LO => blockCLK
  | .TRIG_FIRE_HI => blockCLK
  | .TRIG_REP => blockCLK
  | .TRIG_ARR_LO => blockCLK
  | .TRIG_ARR_HI => blockCLK
  | .TRIG_STAT => blockCLK
  | .TRIG_ACC_BASE_LO => blockCLK
  | .TRIG_ACC_BASE_HI => blockCLK
  | .TRIG_ACC_CTRL => blockCLK
  | .TRIG_ACC_SUM => blockCLK
  | .TRIG_ACC_CNT => blockCLK
  | .TSET_PER => blockCLK
  | .SITE_TCTRL => blockCLK
  | .SITE_TSTART_LO => blockCLK
  | .SITE_TSTART_HI => blockCLK
  | .SITE_TSTAT => blockCLK
  | .THM_STAT => blockTHM
  | .THM_LIMIT_WARN => blockTHM
  | .THM_LIMIT_THR => blockTHM
  | .THM_LIMIT_SHUT => blockTHM
  | .THM_BROKEN_LO => blockTHM
  | .THM_BROKEN_HI => blockTHM
  | .THM_THR => blockTHM
  | .THM_THR_MS => blockTHM
  | .THM_TMAX => blockTHM
  | .THM_LOG_STAT => blockTHM
  | .THM_LOG_SEQ => blockTHM
  | .THM_SHUT_REC => blockTHM
  | .THM_BAND => blockTHM
  | .THM_BAND_CNT => blockTHM
  | .THM_TEMP => blockTHM
  | .FLT_STAT => blockFLT
  | .FLT_SUM => blockFLT
  | .FLT_ACK => blockFLT
  | .FLT_TMO => blockFLT
  | .FLT_LOG_WR => blockFLT
  | .FLT_INJ => blockFLT
  | .FLT_REACT => blockFLT
  | .SEC_STAT => blockSEC
  | .SEC_FUSE_STAT => blockSEC
  | .SEC_RB_COMMIT => blockSEC
  | .SEC_LC_REQ => blockSEC
  | .SEC_PROV_CMD => blockSEC
  | .SEC_WIPE => blockSEC
  | .SEC_TAMPER_CFG => blockSEC
  | .SEC_PROV_DATA => blockSEC
  | .SEC_DBG_NONCE => blockSEC
  | .SEC_DBG_TOKEN => blockSEC
  | .SEC_DBG_CTRL => blockSEC
  | .SEC_ROM_VER => blockSEC
  | .SEC_FW_VER => blockSEC
  | .CSP_CFG => blockCSP
  | .CSP_LEN => blockCSP
  | .CSP_CTRL => blockCSP
  | .CSP_STAT => blockCSP
  | .CSP_ALIVE => blockCSP
  | .CSP_TX => blockCSP
  | .CSP_RX => blockCSP
  | .GPIO_OUT => blockGPIO
  | .GPIO_OE => blockGPIO
  | .GPIO_IN => blockGPIO
  | .GPIO_FUNC => blockGPIO
  | .MBX_HOST_RX => blockMBX
  | .MBX_HOST_RXEP => blockMBX
  | .MBX_HOST_TX => blockMBX
  | .MBX_HOST_STAT => blockMBX
  | .MBX_HOST_FLUSH => blockMBX
  | .MBX_HOST_DB => blockMBX
  | .MBX_EPOCH => blockMBX
  | .EVT_STAT => blockMBX
  | .EVT_LOST => blockMBX
  | .CMDQ_STAT => blockMBX
  | .MBX_ENG_TX => blockMBX
  | .MBX_ENG_RX => blockMBX
  | .MBX_ENG_STAT => blockMBX
  | .MBX_ENG_DB => blockMBX
  | .SEM_ACQ => blockSEM
  | .SEM_PEEK => blockSEM
  | .SEM_FORCE => blockSEM
  | .SEM_CONTEST => blockSEM
  | .SPD_STAT => blockSEM
  | .SPD_COLL_ADDR => blockSEM
  | .SPD_WIPES => blockSEM
  | .SPD_REPAIR => blockSEM
  | .STL_CTRL => blockSEM
  | .STL_STAT => blockSEM
  | .STL_STEALS_LO => blockSEM
  | .STL_STEALS_HI => blockSEM
  | .STL_FULL => blockSEM
  | .IRQ_ROUTE => blockIRQ
  | .IRQ_PEND => blockIRQ
  | .IRQ_SWSET => blockIRQ
  | .IRQ_ENG_LOST => blockIRQ
  | .FAB_NODE => blockFAB
  | .FAB_SID_LO => blockFAB
  | .FAB_SID_HI => blockFAB
  | .FAB_CTRL => blockFAB
  | .FAB_DROP => blockFAB
  | .FAB_DROP2 => blockFAB
  | .FAB_CONFLICT => blockFAB
  | .PORCH_CTRL => blockFAB
  | .PORCH_STAT => blockFAB
  | .PORCH_PSID_LO => blockFAB
  | .PORCH_PSID_HI => blockFAB
  | .PORCH_SEQ => blockFAB
  | .PORCH_RETRY => blockFAB
  | .PORCH_FEC_LO => blockFAB
  | .PORCH_FEC_HI => blockFAB
  | .PORCH_ERR => blockFAB
  | .PORCH_FILL => blockFAB
  | .PORCH_EVENTS => blockFAB
  | .PORCH_LOST => blockFAB
  | .PORCH_FLITS_LO => blockFAB
  | .PORCH_FLITS_HI => blockFAB
  | .FAB_RT => blockFAB
  | .FAB_MC => blockFAB
  | .CFG_STAT => blockCFG
  | .CFG_VERSION => blockCFG
  | .CFG_ROLLBACK => blockCFG
  | .CFG_DIR_GEN => blockCFG
  | .TRIM_STAT => blockCFG
  | .CONTACT_CTL => blockCFG
  | .LVL_LOAD_STAT => blockCFG
  | .MODE_STAT => blockCFG
  | .MODE_ENTRY_LO => blockCFG
  | .MODE_ENTRY_HI => blockCFG
  | .CFG_PART_ID => blockCFG
  | .CEL_CFG => blockCEL
  | .CEL_TOP_LO => blockCEL
  | .CEL_TOP_HI => blockCEL
  | .CEL_ECC_CORR => blockCEL
  | .CEL_ECC_UNCORR => blockCEL
  | .CEL_ECC_ADDR_LO => blockCEL
  | .CEL_ECC_ADDR_HI => blockCEL
  | .CEL_SCRUB => blockCEL
  | .CEL_CLS_BYTES_LO => blockCEL
  | .CEL_CLS_BYTES_HI => blockCEL
  | .CEL_CLS_HELD => blockCEL
  | .SEQ_STAB_COUNT => blockSEQ
  | .SEQ_ERR => blockSEQ
  | .SEQ_START => blockSEQ
  | .SEQ_CUR => blockSEQ
  | .SEQ_PASS => blockSEQ
  | .SEQ_JUMP_REQ => blockSEQ
  | .SEQ_UNDERRUN => blockSEQ
  | .SEQ_SSTAT => blockSEQ
  | .SEQ_VEC_LO => blockSEQ
  | .SEQ_VEC_HI => blockSEQ
  | .SEQ_STALL_LO => blockSEQ
  | .SEQ_STALL_HI => blockSEQ
  | .SEQ_REFETCH => blockSEQ
  | .SEQ_MARK => blockSEQ
  | .SEQ_START_TMO => blockSEQ
  | .SMUW_CUR => blockSEQ
  | .SMUW_JUMP_REQ => blockSEQ
  | .SITE_STATE => blockSEQ
  | .SITE_CMD => blockSEQ
  | .SITE_BIN => blockSEQ
  | .SITE_RUN => blockSEQ
  | .SITE_TAG_LO => blockSEQ
  | .SITE_TAG_HI => blockSEQ
  | .SITE_FAILVEC => blockSEQ
  | .SITE_FSIG => blockSEQ
  | .SITE_FAILSTORED => blockSEQ
  | .SITE_REC_WR_LO => blockSEQ
  | .SITE_REC_WR_HI => blockSEQ
  | .SITE_REC_LOST => blockSEQ
  | .SITE_TASKS => blockSEQ
  | .PAN_CTRL => blockPAN
  | .PAN_PIN_LIMIT => blockPAN
  | .PAN_STAT => blockPAN
  | .PAN_UNDERRUN => blockPAN
  | .PAN_DECODE_ERR => blockPAN
  | .PAN_EVICT => blockPAN
  | .PAN_INVAL => blockPAN
  | .PAN_OVERBUDGET => blockPAN
  | .ACQ_CFG => blockACQ
  | .ACQ_CTRL => blockACQ
  | .ACQ_PRE => blockACQ
  | .ACQ_POST => blockACQ
  | .ACQ_BUF_LO => blockACQ
  | .ACQ_BUF_HI => blockACQ
  | .ACQ_LEVEL => blockACQ
  | .ACQ_HYST => blockACQ
  | .ACQ_TTIME_LO => blockACQ
  | .ACQ_TTIME_HI => blockACQ
  | .ACQ_STAT => blockACQ
  | .ACQ_TRIG_TS_LO => blockACQ
  | .ACQ_TRIG_TS_HI => blockACQ
  | .ACQ_WR_IDX => blockACQ
  | .ACQ_COUNT => blockACQ
  | .ACQ_FIRST_IDX => blockACQ
  | .CH_CTRL => blockCHAN
  | .CH_STAT => blockCHAN
  | .CH_VIH0 => blockCHAN
  | .CH_VIL0 => blockCHAN
  | .CH_VOH0 => blockCHAN
  | .CH_VOL0 => blockCHAN
  | .CH_VT0 => blockCHAN
  | .CH_VIH1 => blockCHAN
  | .CH_VIL1 => blockCHAN
  | .CH_VOH1 => blockCHAN
  | .CH_VOL1 => blockCHAN
  | .CH_VT1 => blockCHAN
  | .CH_FAILCNT => blockCHAN
  | .CH_FIRSTFAIL_LO => blockCHAN
  | .CH_FIRSTFAIL_HI => blockCHAN
  | .PMU_CTRL => blockCHAN
  | .PMU_FORCE => blockCHAN
  | .PMU_VCLAMP => blockCHAN
  | .PMU_ICLAMP => blockCHAN
  | .PMU_RESULT => blockCHAN
  | .CH_DSK => blockCHAN
  | .TS_EDGE => blockCHAN
  | .DPS_CTRL => blockDPS
  | .DPS_VSET => blockDPS
  | .DPS_ILIM => blockDPS
  | .DPS_EXT_SHUNT => blockDPS
  | .DPS_STAT => blockDPS
  | .DPS_MON_V => blockDPS
  | .DPS_MON_I => blockDPS
  | .DPS_MEAS => blockDPS
  | .DPS_RES_V => blockDPS
  | .DPS_RES_I => blockDPS
  | .DPS_RES_STAT => blockDPS
  | .DPS_OUT => blockDPS
  | .SMU_CTRL => blockSMU
  | .SMU_SET => blockSMU
  | .SMU_ICOMP => blockSMU
  | .SMU_VCOMP => blockSMU
  | .SMU_STAT => blockSMU
  | .SMU_SINE_FREQ => blockSMU
  | .SMU_SINE_AMPL => blockSMU
  | .SMU_SINE_PHASE0 => blockSMU
  | .SMU_SUP => blockSMU
  | .SMU_MON_V => blockSMU
  | .SMU_MON_I => blockSMU
  | .SMU_RB => blockSMU
  | .SMU_MEAS => blockSMU
  | .SMU_RES_V => blockSMU
  | .SMU_RES_I => blockSMU
  | .SMU_RES_STAT => blockSMU
  | .TDC_CTRL => blockTDC
  | .TDC_CFG => blockTDC
  | .TDC_THR => blockTDC
  | .TDC_AUX => blockTDC
  | .TDC_GATE => blockTDC
  | .TDC_RING_BASE_LO => blockTDC
  | .TDC_RING_BASE_HI => blockTDC
  | .TDC_RING_SIZE => blockTDC
  | .TDC_STAT => blockTDC
  | .TDC_ACC_LO => blockTDC
  | .TDC_ACC_HI => blockTDC
  | .TDC_CNT_A => blockTDC
  | .TDC_CNT_B => blockTDC
  | .TDC_DROP => blockTDC
  | .TDC_DEAD => blockTDC
  | .TDC_CALOLD => blockTDC
  | .TDC_NVAL => blockTDC
  | .TDC_MIN => blockTDC
  | .TDC_MAX => blockTDC
  | .TDC_SUM_LO => blockTDC
  | .TDC_SUM_HI => blockTDC
  | .TDC_LAST_LO => blockTDC
  | .TDC_LAST_HI => blockTDC
  | .TDC_WR_LO => blockTDC
  | .TDC_WR_HI => blockTDC
  | .TDC_DSK => blockTDC
  | .MON_CTRL => blockMON
  | .MON_HI => blockMON
  | .MON_LO => blockMON
  | .MON_HYST => blockMON
  | .MON_PERIOD => blockMON
  | .MON_STAT => blockMON
  | .MON_COUNT => blockMON
  | .MON_TRIP_TS_LO => blockMON
  | .MON_TRIP_TS_HI => blockMON
  | .MON_TILE_LATCH => blockTILEMON
  | .TCAL_OWN_LO => blockTILECAL
  | .TCAL_OWN_HI => blockTILECAL
  | .TCAL_OWN_UNIT => blockTILECAL
  | .TCAL_PEND_LO => blockTILECAL
  | .TCAL_PEND_HI => blockTILECAL
  | .TCAL_PEND_UNIT => blockTILECAL
  | .TCAL_STAT => blockTILECAL
  | .TCAL_TJ => blockTILECAL
  | .TCAL_GEN => blockTILECAL
  | .TPH_STAT => blockTILECAL
  | .TPH_CORR => blockTILECAL
  | .ENG_CTRL => blockENG
  | .ENG_STAT => blockENG
  | .ENG_TMASK => blockENG
  | .ENG_GO => blockENG
  | .ENG_REFUSE => blockENG
  | .ENG_MEMERR => blockENG
  | .ENG_MEMERR_ADDR => blockENG
  | .ENG_HALT => blockENG
  | .ENG_CEL_BASE_LO => blockENG
  | .ENG_CEL_BASE_HI => blockENG
  | .ENG_ABORT_TMO => blockENG
  | .ENG_CS_STAT => blockENG

/-- The slot of a register in a list of slots. -/
def slotOf (r : RegName) : List Slot → Slot
  | [] => ⟨0, [], r⟩
  | sl :: rest => if sl.reg = r then sl else slotOf r rest

/-- The address of an instance of a register (R621). -/
def addrOf (r : RegName) (i : Nat) : Nat :=
  let b := r.block
  let sl := slotOf r b.slots
  b.base + joinDims b.dims (i / dimTotal sl.dims) + sl.off + joinDims sl.dims (i % dimTotal sl.dims)

/-- How many instances a register has. -/
def RegName.count (r : RegName) : Nat :=
  dimTotal r.block.dims * dimTotal (slotOf r r.block.slots).dims

end Sys2Proof.Machine
end

