-- ==== Sys2Proof/Machine/Hidden.lean ====
section
/-!
DEFINITION. State the spec gives its units that no register shows: kept beside the register fields
in the field file, one named field each (H.*).  Times are in ticks of 1/3 ps; a time that may be
absent is stored plus one, with 0 for none.
-/

namespace Sys2Proof.Machine

/-- the driver has been turned on by a drive edge (R132, R141). -/
def H.CH_DRV_ON : Field := ⟨800, 0, 1, .ro, 0, .hold, false⟩
/-- last driven level: 1 VIH, 0 VIL (R141). -/
def H.CH_DRV_LVL : Field := ⟨801, 0, 1, .ro, 0, .hold, false⟩
/-- in TERM_MODE COMPARE, the termination is connected (R145). -/
def H.CH_TERM_ON : Field := ⟨802, 0, 1, .ro, 0, .hold, false⟩
/-- the PMU switch is closed (R150). -/
def H.CH_PMU_ON : Field := ⟨803, 0, 1, .ro, 0, .hold, false⟩
/-- end of the connect or disconnect sequence, time + 1, 0 none (R150). -/
def H.CH_PMU_SW_END : Field := ⟨804, 0, 128, .ro, 0, .hold, false⟩
/-- end of the PMU range change, time + 1, 0 none (R151). -/
def H.CH_PMU_RNG_END : Field := ⟨805, 0, 128, .ro, 0, .hold, false⟩
/-- PMU range left by the change in progress (R151). -/
def H.CH_PMU_OLD_RANGE : Field := ⟨806, 0, 3, .ro, 0, .hold, false⟩
/-- end of the PMU measurement, time + 1, 0 none (R152). -/
def H.CH_PMU_MEAS_END : Field := ⟨807, 0, 128, .ro, 0, (.to 0), false⟩
/-- a measurement waits for the range change to end (R151). -/
def H.CH_PMU_MEAS_WAIT : Field := ⟨808, 0, 1, .ro, 0, (.to 0), false⟩
/-- until when the active level settles, time + 1 (R136). -/
def H.CH_SETTLE_END : Field := ⟨809, 0, 128, .ro, 0, .hold, false⟩
/-- until when the inactive bank settles, time + 1 (R137). -/
def H.CH_SETTLE_END1 : Field := ⟨810, 0, 128, .ro, 0, .hold, false⟩
/-- end of the 10 ns mask after a bank switch, time + 1 (R137). -/
def H.CH_BANK_END : Field := ⟨811, 0, 128, .ro, 0, .hold, false⟩
/-- level bank in force (R137). -/
def H.CH_BANK_NOW : Field := ⟨812, 0, 1, .ro, 0, .hold, false⟩
/-- a calibration flow owns the channel (R143). -/
def H.CH_CAL_OWNED : Field := ⟨813, 0, 1, .ro, 0, (.to 0), false⟩
/-- the site's compare mask covers the channel (R143, R253). -/
def H.CH_CMASK : Field := ⟨814, 0, 1, .ro, 0, (.to 0), false⟩
/-- DSK_DRV in force (R174). -/
def H.CH_DSK_USE_DRV : Field := ⟨815, 0, 13, .ro, 0, .hold, false⟩
/-- DSK_CMP in force (R174). -/
def H.CH_DSK_USE_CMP : Field := ⟨816, 0, 13, .ro, 0, .hold, false⟩
/-- the site's chain plays (its vector clock runs). -/
def H.SQ_PLAYING : Field := ⟨817, 0, 1, .ro, 0, (.to 0), false⟩
/-- start that waits: 0 none, 1 first line, 2 timed, 3 trigger, 4 held by budget or throttle (R25, R117, R189, R190). -/
def H.SQ_WAIT : Field := ⟨818, 0, 3, .ro, 0, (.to 0), false⟩
/-- entry of the waiting start. -/
def H.SQ_START_ENTRY : Field := ⟨819, 0, 16, .ro, 0, (.to 0), false⟩
/-- who asked: 0 START or RETEST, 1 START_CHAIN, 2 a host command (R25). -/
def H.SQ_START_BY : Field := ⟨820, 0, 2, .ro, 0, (.to 0), false⟩
/-- micro-word of the START_CHAIN that is held (R258). -/
def H.SQ_START_WORD : Field := ⟨821, 0, 12, .ro, 0, (.to 0), false⟩
/-- time of a TIMED start, or of a late trigger start. -/
def H.SQ_START_AT : Field := ⟨822, 0, 128, .ro, 0, (.to 0), false⟩
/-- end of the start timeout of a held start (R25). -/
def H.SQ_HOLD_END : Field := ⟨823, 0, 128, .ro, 0, (.to 0), false⟩
/-- vector of the pass that plays next. -/
def H.SQ_VPOS : Field := ⟨824, 0, 64, .ro, 0, (.to 0), false⟩
/-- the pass ends by a jump (R213). -/
def H.SQ_DECIDED_JUMP : Field := ⟨825, 0, 1, .ro, 0, (.to 0), false⟩
/-- the chain ends after this pass (R213). -/
def H.SQ_DECIDED_END : Field := ⟨826, 0, 1, .ro, 0, (.to 0), false⟩
/-- PAUSE waits for the end of the pass (R226). -/
def H.SQ_PAUSE_REQ : Field := ⟨827, 0, 1, .ro, 0, (.to 0), false⟩
/-- the chain stops at the next boundary: 1 HALT or ABORT, 2 sequencer stop. -/
def H.SQ_STOP_REQ : Field := ⟨828, 0, 2, .ro, 0, (.to 0), false⟩
/-- a decided pass waits for RESUME (R226). -/
def H.SQ_CHAIN_PAUSED : Field := ⟨829, 0, 1, .ro, 0, (.to 0), false⟩
/-- stall vectors of the present episode (R238). -/
def H.SQ_STALL_N : Field := ⟨830, 0, 64, .ro, 0, (.to 0), false⟩
/-- vector count at the first stalled boundary (R238). -/
def H.SQ_STALL_VEC : Field := ⟨831, 0, 64, .ro, 0, (.to 0), false⟩
/-- common time of the first stalled boundary (R238). -/
def H.SQ_STALL_TS : Field := ⟨832, 0, 64, .ro, 0, (.to 0), false⟩
/-- time at which the stall began (R239). -/
def H.SQ_STALL_T0 : Field := ⟨833, 0, 128, .ro, 0, (.to 0), false⟩
/-- set named by a TSET PINOP for the next boundary, + 1, 0 none (R166). -/
def H.SQ_TSET_PIN : Field := ⟨834, 0, 5, .ro, 0, (.to 0), false⟩
/-- a TRIG PINOP waits for the next boundary (R185). -/
def H.SQ_TRIG_PIN : Field := ⟨835, 0, 1, .ro, 0, (.to 0), false⟩
/-- marker signal MK0 (R216). -/
def H.SQ_MK0 : Field := ⟨836, 0, 1, .ro, 0, (.to 0), false⟩
/-- marker signal MK1 (R216). -/
def H.SQ_MK1 : Field := ⟨837, 0, 1, .ro, 0, (.to 0), false⟩
/-- period in force, ticks of 1/3 ps. -/
def H.SQ_PERIOD : Field := ⟨838, 0, 64, .ro, 0, (.to 0), false⟩
/-- time of the next vector boundary (R165). -/
def H.SQ_NEXT_T : Field := ⟨839, 0, 128, .ro, 0, (.to 0), false⟩
/-- the next vector is the first of a chain or of a resumed pass. -/
def H.SQ_NEWCHAIN : Field := ⟨840, 0, 1, .ro, 0, (.to 0), false⟩
/-- common time of the first pattern vector (R311). -/
def H.SQ_T_FIRST : Field := ⟨841, 0, 64, .ro, 0xFFFFFFFFFFFFFFFF, .special, false⟩
/-- common time at which the chain last stopped (R311). -/
def H.SQ_T_END : Field := ⟨842, 0, 64, .ro, 0xFFFFFFFFFFFFFFFF, .special, false⟩
/-- a chain has played in this test (R311). -/
def H.SQ_CHAINED : Field := ⟨843, 0, 1, .ro, 0, (.to 0), false⟩
/-- reason found for the entry chosen next, 0 good (R212). -/
def H.SQ_ENTRY_BAD : Field := ⟨844, 0, 4, .ro, 0, (.to 0), false⟩
/-- a compare has failed since START or RETEST (R250). -/
def H.ST_SITE_FAIL : Field := ⟨845, 0, 1, .ro, 0, (.to 0), false⟩
/-- a compare has failed since START, RETEST or CLRFAIL (R250). -/
def H.ST_MARK_FAIL : Field := ⟨846, 0, 1, .ro, 0, (.to 0), false⟩
/-- MARK_FAIL by groups of eight channels (R250). -/
def H.ST_GFAIL : Field := ⟨847, 0, 8, .ro, 0, (.to 0), false⟩
/-- vector number of the first failing vector (R311). -/
def H.ST_FIRST_FAIL : Field := ⟨848, 0, 64, .ro, 0xFFFFFFFFFFFFFFFF, .special, false⟩
/-- an entry lay beyond FAIL_LIMIT (R314). -/
def H.ST_FAIL_LIMIT : Field := ⟨849, 0, 1, .ro, 0, (.to 0), false⟩
/-- an entry met a full queue (R314). -/
def H.ST_FAIL_OVF : Field := ⟨850, 0, 1, .ro, 0, (.to 0), false⟩
/-- raw entries already handed to FAIL_COMPRESS tasks (R315). -/
def H.ST_PUSHED : Field := ⟨851, 0, 32, .ro, 0, (.to 0), false⟩
/-- FAIL_COMPRESS pushes that found the deque full (R315). -/
def H.ST_PUSH_WAIT : Field := ⟨852, 0, 2, .ro, 0, (.to 0), false⟩
/-- a record of the test was dropped (R306). -/
def H.ST_REC_LOST : Field := ⟨853, 0, 1, .ro, 0, (.to 0), false⟩
/-- a monitor of the site tripped during the test (R300). -/
def H.ST_TRIPPED : Field := ⟨854, 0, 1, .ro, 0, (.to 0), false⟩
/-- queued tasks were dropped (R300). -/
def H.ST_TASKS_CUT : Field := ⟨855, 0, 1, .ro, 0, (.to 0), false⟩
/-- what ended the test first: 1 HALT, 2 ABORT, 3 STOP, 4 RETEST, 5 WARM (R303). -/
def H.ST_CAUSE : Field := ⟨856, 0, 3, .ro, 0, (.to 0), false⟩
/-- bin of the first cause (R303): 0 none yet, a reserved bin + 1, or 0x10001 + the engine's BIN at that moment. -/
def H.ST_BIN_FORCE : Field := ⟨857, 0, 18, .ro, 0, (.to 0), false⟩
/-- the test was begun by RETEST. -/
def H.ST_IS_RETEST : Field := ⟨858, 0, 1, .ro, 0, (.to 0), false⟩
/-- test that waits for the finish of the previous one: 1 START, 2 RETEST (R295, R297). -/
def H.ST_NEXT : Field := ⟨859, 0, 2, .ro, 0, (.to 0), false⟩
/-- the finish takes the outputs safe (R298, R299). -/
def H.ST_OUT_SAFE : Field := ⟨860, 0, 1, .ro, 0, (.to 0), false⟩
/-- common time of the HALT or ABORT (R311). -/
def H.ST_HALT_T : Field := ⟨861, 0, 64, .ro, 0, (.to 0), false⟩
/-- the engine has ended its part of the test. -/
def H.ST_HALTED : Field := ⟨862, 0, 1, .ro, 0, (.to 0), false⟩
/-- arrival on the site's TRIG_LINE since the condition was last taken (R250). -/
def H.ST_TRIG_ARR : Field := ⟨863, 0, 1, .ro, 0, (.to 0), false⟩
/-- time at which the START was accepted (R190). -/
def H.ST_ACCEPT_T : Field := ⟨864, 0, 128, .ro, 0, (.to 0), false⟩
/-- site served, 64 none (R242). -/
def H.ENG_SITE : Field := ⟨865, 0, 7, .ro, 64, (.to 64), false⟩
/-- FLAGS (R242). -/
def H.ENG_FLAGS : Field := ⟨866, 0, 32, .ro, 0, (.to 0), false⟩
/-- RESULT (R242). -/
def H.ENG_RESULT : Field := ⟨867, 0, 32, .ro, 0, (.to 0), false⟩
/-- RESSTAT (R242). -/
def H.ENG_RESSTAT : Field := ⟨868, 0, 32, .ro, 0, (.to 0), false⟩
/-- BIN (R242). -/
def H.ENG_BIN : Field := ⟨869, 0, 16, .ro, 0, (.to 0), false⟩
/-- TNOW_HI as snapshotted (R242). -/
def H.ENG_TNOW_HI : Field := ⟨870, 0, 32, .ro, 0, (.to 0), false⟩
/-- VEC_HI as snapshotted (R242). -/
def H.ENG_VEC_HI : Field := ⟨871, 0, 32, .ro, 0, (.to 0), false⟩
/-- TCAUSE (R242). -/
def H.ENG_TCAUSE : Field := ⟨872, 0, 32, .ro, 0, (.to 0), false⟩
/-- consecutive words with ATOM at 1 (R275). -/
def H.ENG_ATOM_N : Field := ⟨873, 0, 5, .ro, 0, (.to 0), false⟩
/-- what the word waits for: 0 nothing, 1 WAIT, 2 SETTLE, 3 MEASURE, 4 WAITEV, 5 load, 6 full command queue, 7 READ. -/
def H.ENG_WAIT : Field := ⟨874, 0, 4, .ro, 0, (.to 0), false⟩
/-- unit of SETTLE, MEASURE or READ, global number. -/
def H.ENG_WAIT_UNIT : Field := ⟨875, 0, 12, .ro, 0, (.to 0), false⟩
/-- quantity of SETTLE, MEASURE or READ (R256). -/
def H.ENG_WAIT_QTY : Field := ⟨876, 0, 3, .ro, 0, (.to 0), false⟩
/-- end of the wait, time + 1, 0 without limit (R257). -/
def H.ENG_WAIT_END : Field := ⟨877, 0, 128, .ro, 0, (.to 0), false⟩
/-- the unit's measurement of the wait has completed. -/
def H.ENG_WAIT_DONE : Field := ⟨878, 0, 1, .ro, 0, (.to 0), false⟩
/-- SITE of the stolen task (R319). -/
def H.ENG_TASK_SITE : Field := ⟨879, 0, 6, .ro, 0, (.to 0), false⟩
/-- RUN of the stolen task (R319). -/
def H.ENG_TASK_RUN : Field := ⟨880, 0, 16, .ro, 0, (.to 0), false⟩
/-- deque the stolen task was taken from (R321). -/
def H.ENG_TASK_DEQUE : Field := ⟨881, 0, 6, .ro, 0, (.to 0), false⟩
/-- time at which the task was taken. -/
def H.ENG_TASK_T0 : Field := ⟨882, 0, 128, .ro, 0, (.to 0), false⟩
/-- abort that waits or runs: 0 none, 1 by command, 2 by the sequencer (R279). -/
def H.ENG_ABORT : Field := ⟨883, 0, 2, .ro, 0, (.to 0), false⟩
/-- end of the abort timeout, time + 1 (R279). -/
def H.ENG_ABORT_END : Field := ⟨884, 0, 128, .ro, 0, (.to 0), false⟩
/-- a START or RETEST waits for the engine (R250). -/
def H.ENG_START_PEND : Field := ⟨885, 0, 1, .ro, 0, (.to 0), false⟩
/-- an ABORT cancelled the waiting entry (R280). -/
def H.ENG_START_CUT : Field := ⟨886, 0, 1, .ro, 0, (.to 0), false⟩
/-- a STEP runs one word or group (R279). -/
def H.ENG_STEPPING : Field := ⟨887, 0, 1, .ro, 0, (.to 0), false⟩
/-- staging register of the control-store window (R265). -/
def H.ENG_STAGE : Field := ⟨888, 0, 96, .ro, 0, (.to 0), false⟩
/-- ENTRY of the autorun routine (R286). -/
def H.ENG_AUTO_FIRST : Field := ⟨889, 0, 12, .ro, 0, .hold, false⟩
/-- the engine is the autorun engine (R286). -/
def H.ENG_AUTO_ON : Field := ⟨890, 0, 1, .ro, 0, .hold, false⟩
/-- parameter offset of the autorun routine (R286). -/
def H.ENG_AUTO_G0 : Field := ⟨891, 0, 32, .ro, 0, .hold, false⟩
/-- TARGET of the autorun section (R286). -/
def H.ENG_AUTO_BASE : Field := ⟨892, 0, 40, .ro, 0, .hold, false⟩
/-- G0-G47, index engine x 64 + register (R242). -/
def H.ENG_G : Field := ⟨893, 0, 32, .ro, 0, (.to 0), false⟩
/-- L0-L3, index engine x 4 + counter (R242). -/
def H.ENG_L : Field := ⟨894, 0, 32, .ro, 0, (.to 0), false⟩
/-- return stack, index engine x 16 + entry (R248). -/
def H.ENG_RSTK : Field := ⟨895, 0, 12, .ro, 0, (.to 0), false⟩
/-- shadow frame, index engine x 16 + word (R272). -/
def H.ENG_FRAME : Field := ⟨896, 0, 32, .ro, 0, (.to 0), false⟩
/-- ramp point at DPS_PT_T, voltage code (R334). -/
def H.DPS_POINT : Field := ⟨897, 0, 16, .ro, 0, .hold, false⟩
/-- time at which the ramp point stood there. -/
def H.DPS_PT_T : Field := ⟨898, 0, 128, .ro, 0, .hold, false⟩
/-- the ramp point is stopped (R335). -/
def H.DPS_HELD : Field := ⟨899, 0, 1, .ro, 0, .hold, false⟩
/-- end of the range change, time + 1 (R343). -/
def H.DPS_RNG_END : Field := ⟨900, 0, 128, .ro, 0, .hold, false⟩
/-- range left by the change (R343). -/
def H.DPS_OLD_RANGE : Field := ⟨901, 0, 3, .ro, 5, .hold, false⟩
/-- samples the measurement still takes (R357). -/
def H.DPS_MEAS_LEFT : Field := ⟨902, 0, 8, .ro, 0, (.to 0), false⟩
/-- sum of the voltage samples, offset 2^63. -/
def H.DPS_SUM_V : Field := ⟨903, 0, 64, .ro, 0, (.to 0), false⟩
/-- sum of the current samples, offset 2^63. -/
def H.DPS_SUM_I : Field := ⟨904, 0, 64, .ro, 0, (.to 0), false⟩
/-- LIMITED seen during the measurement. -/
def H.DPS_ACC_LIM : Field := ⟨905, 0, 1, .ro, 0, (.to 0), false⟩
/-- OVER seen during the measurement. -/
def H.DPS_ACC_OVER : Field := ⟨906, 0, 1, .ro, 0, (.to 0), false⟩
/-- a calibration flow owns the DPS (R343). -/
def H.DPS_CAL_OWNED : Field := ⟨907, 0, 1, .ro, 0, (.to 0), false⟩
/-- the 1 kOhm discharge is connected (R337). -/
def H.DPS_DISCH : Field := ⟨908, 0, 1, .ro, 1, .hold, false⟩
/-- end of the switch movement, time + 1 (R349). -/
def H.SMU_SW_END : Field := ⟨909, 0, 128, .ro, 0, .hold, false⟩
/-- source value in the DAC, code (R348). -/
def H.SMU_DAC : Field := ⟨910, 0, 32, .ro, 0, .hold, false⟩
/-- phase accumulator (R352). -/
def H.SMU_PHASE : Field := ⟨911, 0, 32, .ro, 0, .hold, false⟩
/-- SINE_PHASE0 is loaded at the next MOD cycle (R352). -/
def H.SMU_LOAD_PH : Field := ⟨912, 0, 1, .ro, 0, .hold, false⟩
/-- end of the range change, time + 1 (R347). -/
def H.SMU_RNG_END : Field := ⟨913, 0, 128, .ro, 0, .hold, false⟩
/-- samples the measurement still takes (R357). -/
def H.SMU_MEAS_LEFT : Field := ⟨914, 0, 8, .ro, 0, (.to 0), false⟩
/-- sum of the voltage samples, offset 2^63. -/
def H.SMU_SUM_V : Field := ⟨915, 0, 64, .ro, 0, (.to 0), false⟩
/-- sum of the current samples, offset 2^63. -/
def H.SMU_SUM_I : Field := ⟨916, 0, 64, .ro, 0, (.to 0), false⟩
/-- LIMITED seen during the measurement. -/
def H.SMU_ACC_LIM : Field := ⟨917, 0, 1, .ro, 0, (.to 0), false⟩
/-- OVER seen during the measurement. -/
def H.SMU_ACC_OVER : Field := ⟨918, 0, 1, .ro, 0, (.to 0), false⟩
/-- a calibration flow owns the SMU (R356). -/
def H.SMU_CAL_OWNED : Field := ⟨919, 0, 1, .ro, 0, (.to 0), false⟩
/-- the DAC holds the 0 V code until the next enable (R349, R62). -/
def H.SMU_DAC0 : Field := ⟨920, 0, 1, .ro, 1, .hold, false⟩
/-- the output stage is on (R354, R356). -/
def H.SMU_STAGE : Field := ⟨921, 0, 1, .ro, 0, .hold, false⟩
/-- time of the next sample (R218). -/
def H.SW_NEXT_T : Field := ⟨922, 0, 128, .ro, 0, (.to 0), false⟩
/-- sample of the pass that is written next. -/
def H.SW_POS : Field := ⟨923, 0, 64, .ro, 0, (.to 0), false⟩
/-- passes of the entry completed. -/
def H.SW_PASS : Field := ⟨924, 0, 32, .ro, 0, (.to 0), false⟩
/-- the pass ends by a jump. -/
def H.SW_JUMP : Field := ⟨925, 0, 1, .ro, 0, (.to 0), false⟩
/-- entry chosen next, + 1, 0 before the decision, 0x10000 and above chain end. -/
def H.SW_DECIDED : Field := ⟨926, 0, 17, .ro, 0, (.to 0), false⟩
/-- held samples of the present episode (R219). -/
def H.SW_STALL_N : Field := ⟨927, 0, 64, .ro, 0, (.to 0), false⟩
/-- sample number at the first held sample. -/
def H.SW_STALL_VEC : Field := ⟨928, 0, 64, .ro, 0, (.to 0), false⟩
/-- common time of the first held sample. -/
def H.SW_STALL_TS : Field := ⟨929, 0, 64, .ro, 0, (.to 0), false⟩
/-- time at which the stall began. -/
def H.SW_STALL_T0 : Field := ⟨930, 0, 128, .ro, 0, (.to 0), false⟩
/-- the context has been started in this test (R250). -/
def H.SW_STARTED : Field := ⟨931, 0, 1, .ro, 0, (.to 0), false⟩
/-- samples written since the start. -/
def H.SW_SAMPLES : Field := ⟨932, 0, 64, .ro, 0, (.to 0), false⟩
/-- end of the threshold DAC settling, time + 1 (R375). -/
def H.MON_SET_END : Field := ⟨933, 0, 128, .ro, 0, .hold, false⟩
/-- HI in force before the write (R375). -/
def H.MON_OLD_HI : Field := ⟨934, 0, 32, .ro, 0, .hold, false⟩
/-- LO in force before the write (R375). -/
def H.MON_OLD_LO : Field := ⟨935, 0, 32, .ro, 0, .hold, false⟩
/-- thresholds that the settling write changes: bit 0 HI, bit 1 LO (R366). -/
def H.MON_CHG : Field := ⟨936, 0, 2, .ro, 0, .hold, false⟩
/-- last input value, threshold code, offset 2^63. -/
def H.MON_IN : Field := ⟨937, 0, 64, .ro, 9223372036854775808, .hold, false⟩
/-- time of the last write of EN to 1 (R369). -/
def H.MON_EN_T : Field := ⟨938, 0, 128, .ro, 0, .hold, false⟩
/-- membership latch: the watched unit belongs to a site (R373). -/
def H.MON_MEM_BOUND : Field := ⟨939, 0, 1, .ro, 0, .hold, false⟩
/-- membership latch: the site (R373). -/
def H.MON_MEM_SITE : Field := ⟨940, 0, 6, .ro, 0, .hold, false⟩
/-- PD_CORE is on. -/
def H.PD_CORE : Field := ⟨941, 0, 1, .ro, 0, .hold, false⟩
/-- PD_PANTRY is on. -/
def H.PD_PANTRY : Field := ⟨942, 0, 1, .ro, 0, .hold, false⟩
/-- PD_H0 is on. -/
def H.PD_H0 : Field := ⟨943, 0, 1, .ro, 0, .hold, false⟩
/-- PD_H123 is on. -/
def H.PD_H123 : Field := ⟨944, 0, 1, .ro, 0, .hold, false⟩
/-- PD_ENGg is on, index group. -/
def H.PD_ENG : Field := ⟨945, 0, 1, .ro, 0, .hold, false⟩
/-- PD_CELLAR is on. -/
def H.PD_CELLAR : Field := ⟨946, 0, 1, .ro, 0, .hold, false⟩
/-- PD_FABRIC is on. -/
def H.PD_FABRIC : Field := ⟨947, 0, 1, .ro, 0, .hold, false⟩
/-- PD_PORCHp is on, index Porch. -/
def H.PD_PORCH : Field := ⟨948, 0, 1, .ro, 0, .hold, false⟩
/-- PD_TILEt is on, index tile. -/
def H.PD_TILE : Field := ⟨949, 0, 1, .ro, 0, .hold, false⟩
/-- the tile stays unpowered until the next cold reset (R80, R566). -/
def H.PD_TILE_BARRED : Field := ⟨950, 0, 1, .ro, 0, .hold, false⟩
/-- bring-up: 0 held in reset, 1 reset released, 2 waiting for REF, 3 steps 3 to 11, 4 ended. -/
def H.BOOT_PHASE : Field := ⟨951, 0, 3, .ro, 0, .special, false⟩
/-- release of the reset. -/
def H.BOOT_T0 : Field := ⟨952, 0, 128, .ro, 0, .special, false⟩
/-- end of the boot timer, time + 1, 0 stopped (R97). -/
def H.BOOT_TMR_END : Field := ⟨953, 0, 128, .ro, 0, .hold, false⟩
/-- assertion of the last warm reset (R74). -/
def H.RST_T0 : Field := ⟨954, 0, 128, .ro, 0, .special, false⟩
/-- SOFT reset asked for by SOFT_RESET, time + 1 (R503). -/
def H.RST_SOFT_DUE : Field := ⟨955, 0, 128, .ro, 0, (.to 0), false⟩
/-- last restart of the firmware watchdog. -/
def H.WDOG_T0 : Field := ⟨956, 0, 128, .ro, 0, (.to 0), false⟩
/-- WDOG_HALF raised since the last restart (R589). -/
def H.WDOG_HALF_SEEN : Field := ⟨957, 0, 1, .ro, 0, (.to 0), false⟩
/-- end of the warm hold limit, time + 1, 0 none (R77). -/
def H.WARM_HOLD_END : Field := ⟨958, 0, 128, .ro, 0, (.to 0), false⟩
/-- warm hold limit of the image header (R91). -/
def H.HDR_WARM_HOLD_MS : Field := ⟨959, 0, 32, .ro, 0, (.to 0), false⟩
/-- watchdog timeout of the image header (R91). -/
def H.HDR_WDOG_MS : Field := ⟨960, 0, 16, .ro, 0x3E8, (.to 0x3E8), false⟩
/-- CONTACT_CHECK of the image header (R91). -/
def H.HDR_CONTACT : Field := ⟨961, 0, 1, .ro, 0, (.to 0), false⟩
/-- end of the contact check, time + 1 (R105). -/
def H.CONTACT_END : Field := ⟨962, 0, 128, .ro, 0, (.to 0), false⟩
/-- pattern of GPIO 31: 0 off, 1 4 Hz, 2 on, 3 1 Hz, 4 double blink, 5 MINIMAL (R108). -/
def H.STAT_LED : Field := ⟨963, 0, 3, .ro, 0, (.to 0), false⟩
/-- end of the mode transition, time + 1 (R112). -/
def H.MODE_END : Field := ⟨964, 0, 128, .ro, 0, (.to 0), false⟩
/-- cause of the transition in progress (R110). -/
def H.MODE_CAUSE : Field := ⟨965, 0, 3, .ro, 0, (.to 0), false⟩
/-- source of the MODE command to answer, + 1. -/
def H.MODE_SRC : Field := ⟨966, 0, 16, .ro, 0, (.to 0), false⟩
/-- tag of the MODE command to answer, or the offset of its block (R504). -/
def H.MODE_TAG : Field := ⟨967, 0, 32, .ro, 0, (.to 0), false⟩
/-- mode from which CALIBRATE was entered (R112). -/
def H.CAL_FROM : Field := ⟨968, 0, 3, .ro, 0, (.to 0), false⟩
/-- PREPARE_REMOVE has completed: every command is refused (R128). -/
def H.UNAVAIL : Field := ⟨969, 0, 1, .ro, 0, (.to 0), false⟩
/-- PREPARE_REMOVE waits for its completion. -/
def H.REMOVE_WAIT : Field := ⟨970, 0, 1, .ro, 0, (.to 0), false⟩
/-- size of the flash in bytes (SFDP). -/
def H.FLASH_SIZE : Field := ⟨971, 0, 32, .ro, 0, .hold, false⟩
/-- time at which the coarse count was 0, offset 2^190. -/
def H.TB_ORIGIN : Field := ⟨972, 0, 192, .ro, 1569275433846670190958947355801916604025588861116008628224, .special, false⟩
/-- wraps of the coarse count already counted (R177). -/
def H.TB_EPOCH_SEEN : Field := ⟨973, 0, 64, .ro, 0, .special, false⟩
/-- end of the escalation timer of the reaction, time + 1 (R583). -/
def H.FLT_END : Field := ⟨974, 0, 128, .ro, 0, (.to 0), false⟩
/-- fault-log entry of the active fault, + 1, 0 none. -/
def H.FLT_SEQ : Field := ⟨975, 0, 32, .ro, 0, (.to 0), false⟩
/-- site of the active fault, 64 none. -/
def H.FLT_SITE : Field := ⟨976, 0, 7, .ro, 64, (.to 64), false⟩
/-- tile of the active fault, 8 none. -/
def H.FLT_TILE : Field := ⟨977, 0, 4, .ro, 8, (.to 8), false⟩
/-- the last sample of the sensor was implausible (R564). -/
def H.THM_IMPL : Field := ⟨978, 0, 1, .ro, 0, .hold, false⟩
/-- end of the forced reading, time + 1, 0 without end (R588). -/
def H.THM_FORCE_END : Field := ⟨979, 0, 128, .ro, 0, .hold, false⟩
/-- forced reading. -/
def H.THM_FORCE_VAL : Field := ⟨980, 0, 16, .ro, 0, .hold, false⟩
/-- a reading has been taken. -/
def H.THM_SEEN : Field := ⟨981, 0, 1, .ro, 0, .hold, false⟩
/-- start of the throttle episode (R568). -/
def H.THM_THR_T0 : Field := ⟨982, 0, 128, .ro, 0, .hold, false⟩
/-- highest Tj of the throttle episode. -/
def H.THM_THR_PEAK : Field := ⟨983, 0, 16, .ro, 0, .hold, false⟩
/-- record of the throttle episode as its start left it, 32 bytes (R575). -/
def H.THM_THR_REC : Field := ⟨984, 0, 256, .ro, 0, .hold, false⟩
/-- BROKEN record of the sensor that waits for the log, 0 none (R576). -/
def H.THM_BRK_REC : Field := ⟨985, 0, 256, .ro, 0, .hold, false⟩
/-- TILE_SHUT record that waits for the log, index tile, 0 none (R576). -/
def H.THM_TILE_REC : Field := ⟨986, 0, 256, .ro, 0, .hold, false⟩
/-- SEQ of the latest thermal-log record (R575). -/
def H.THM_LSEQ : Field := ⟨987, 0, 32, .ro, 0, .hold, false⟩
/-- entry into HOLD (R572). -/
def H.THM_HOLD_T0 : Field := ⟨988, 0, 128, .ro, 0, .hold, false⟩
/-- slot of the latest thermal-log record (R574). -/
def H.THM_SLOT : Field := ⟨989, 0, 9, .ro, 0, .hold, false⟩
/-- step of R576 that waits: 1 erase, 2 commit, 3 broken records. -/
def H.THM_LOG_STEP : Field := ⟨990, 0, 2, .ro, 0, (.to 0), false⟩
/-- time of the next sample (R561). -/
def H.THM_NEXT_T : Field := ⟨991, 0, 128, .ro, 0, .hold, false⟩
/-- time of the next try of a refused log step (R576). -/
def H.THM_LOG_NEXT_T : Field := ⟨992, 0, 128, .ro, 0, (.to 0), false⟩
/-- pulses left of the armed emission (R185). -/
def H.TRIG_LEFT : Field := ⟨993, 0, 17, .ro, 0, (.to 0), false⟩
/-- time of the next pulse (R185). -/
def H.TRIG_NEXT_T : Field := ⟨994, 0, 128, .ro, 0, (.to 0), false⟩
/-- accumulation has stopped by overflow (R187). -/
def H.TRIG_ACC_STOP : Field := ⟨995, 0, 1, .ro, 0, .hold, false⟩
/-- tile phase correction the site holds, index site (R176). -/
def H.TPH_SITE_CORR : Field := ⟨996, 0, 16, .ro, 0, .hold, false⟩
/-- end of the secure-region wipe, time + 1 (R551). -/
def H.WIPE_END : Field := ⟨997, 0, 128, .ro, 0, (.to 0), false⟩
/-- block the scrubber reads next, offset (R541). -/
def H.SCRUB_ADDR : Field := ⟨998, 0, 40, .ro, 0, .hold, false⟩
/-- refresh rate: 0 1x, 1 2x, 2 4x (R440). -/
def H.CEL_FACTOR : Field := ⟨999, 0, 2, .ro, 0, .hold, false⟩
/-- refresh rate that the memory devices ask for: 0 1x, 1 2x, 2 4x (R440). -/
def H.CEL_REPORT : Field := ⟨1000, 0, 2, .ro, 0, .hold, false⟩
/-- read port after the one granted last (R20). -/
def H.PAN_RR : Field := ⟨1001, 0, 6, .ro, 0, (.to 0), false⟩
/-- end of the invalidation, time + 1 (R227). -/
def H.PAN_INVAL_END : Field := ⟨1002, 0, 128, .ro, 0, (.to 0), false⟩
/-- stealing ends once no task is left (R292). -/
def H.STL_OFF_PEND : Field := ⟨1003, 0, 1, .ro, 0, (.to 0), false⟩
/-- time of the last accepted event (R383). -/
def H.TDC_T1 : Field := ⟨1004, 0, 128, .ro, 0, (.to 0), false⟩
/-- time of the last-but-one accepted event (R383). -/
def H.TDC_T2 : Field := ⟨1005, 0, 128, .ro, 0, (.to 0), false⟩
/-- interpolator that took the last accepted event (R383). -/
def H.TDC_INTERP : Field := ⟨1006, 0, 1, .ro, 0, (.to 0), false⟩
/-- code r1 of an interpolator (R381). -/
def H.TDC_PAIR1 : Field := ⟨1007, 0, 16, .ro, 0, (.to 0), false⟩
/-- code r2 of an interpolator (R381). -/
def H.TDC_PAIR2 : Field := ⟨1008, 0, 16, .ro, 1026, (.to 1026), false⟩
/-- code r1 of the factory pair of an interpolator (R382). -/
def H.TDC_FACT1 : Field := ⟨1009, 0, 16, .ro, 0, .hold, false⟩
/-- code r2 of the factory pair of an interpolator (R382). -/
def H.TDC_FACT2 : Field := ⟨1010, 0, 16, .ro, 1026, .hold, false⟩
/-- events dropped since the last DEAD entry (R398). -/
def H.TDC_DEADN : Field := ⟨1011, 0, 38, .ro, 0, (.to 0), false⟩
/-- entries dropped since the last OVERRUN entry (R398). -/
def H.TDC_OVRN : Field := ⟨1012, 0, 38, .ro, 0, (.to 0), false⟩
/-- EPOCH entry held for room, epoch + 1, 0 none (R380). -/
def H.TDC_EPOCH_P : Field := ⟨1013, 0, 17, .ro, 0, (.to 0), false⟩
/-- DISARM entry held for room, reason + 1, 0 none (R391). -/
def H.TDC_DIS_P : Field := ⟨1014, 0, 4, .ro, 0, (.to 0), false⟩
/-- a start is pending (R393). -/
def H.TDC_START_P : Field := ⟨1015, 0, 1, .ro, 0, (.to 0), false⟩
/-- time of the pending start in 1/1,024 cycles. -/
def H.TDC_START_U : Field := ⟨1016, 0, 64, .ro, 0, (.to 0), false⟩
/-- moment of the pending start. -/
def H.TDC_START_AT : Field := ⟨1017, 0, 128, .ro, 0, (.to 0), false⟩
/-- a gate is open (R395). -/
def H.TDC_GATE_ON : Field := ⟨1018, 0, 1, .ro, 0, (.to 0), false⟩
/-- time at which the gate opened in 1/1,024 cycles. -/
def H.TDC_GATE_U : Field := ⟨1019, 0, 64, .ro, 0, (.to 0), false⟩
/-- events of the gate so far. -/
def H.TDC_GATE_CNT : Field := ⟨1020, 0, 24, .ro, 0, (.to 0), false⟩
/-- an event was dropped in the gate (R395). -/
def H.TDC_GATE_BAD : Field := ⟨1021, 0, 1, .ro, 0, (.to 0), false⟩
/-- end of the threshold settling, time + 1 (R387). -/
def H.TDC_THR_T : Field := ⟨1022, 0, 128, .ro, 0, (.to 0), false⟩
/-- moment from which the armed TDC takes events (R387, R389). -/
def H.TDC_ARM_T : Field := ⟨1023, 0, 128, .ro, 0, (.to 0), false⟩
/-- moment of the opening, time + 1 (R390). -/
def H.TDC_OPEN_DUE : Field := ⟨1024, 0, 128, .ro, 0, (.to 0), false⟩
/-- a calibration flow owns the TDC (R389). -/
def H.TDC_CAL_OWNED : Field := ⟨1025, 0, 1, .ro, 0, (.to 0), false⟩
/-- interpolator trim in force, band of the TDC (R385). -/
def H.TDC_TRIM : Field := ⟨1026, 0, 16, .ro, 0, (.to 0), false⟩
/-- samples written since the arm (R410). -/
def H.ACQ_N : Field := ⟨1027, 0, 32, .ro, 0, (.to 0), false⟩
/-- voltage instant of the next sample (R404). -/
def H.ACQ_NEXT : Field := ⟨1028, 0, 128, .ro, 0, (.to 0), false⟩
/-- voltage instant of the first sample since the arm. -/
def H.ACQ_T_FIRST : Field := ⟨1029, 0, 128, .ro, 0, (.to 0), false⟩
/-- number of the trigger sample since the arm (R411). -/
def H.ACQ_TRIG_N : Field := ⟨1030, 0, 32, .ro, 0, (.to 0), false⟩
/-- samples of POST still to write (R414). -/
def H.ACQ_LEFT : Field := ⟨1031, 0, 25, .ro, 0, (.to 0), false⟩
/-- source code that fired, 15 when forced (R408). -/
def H.ACQ_KIND : Field := ⟨1032, 0, 4, .ro, 0, (.to 0), false⟩
/-- trigger time of an exact source, timestamp (R408). -/
def H.ACQ_EXACT : Field := ⟨1033, 0, 64, .ro, 0, (.to 0), false⟩
/-- the level source is armed (R412). -/
def H.ACQ_LVL_OK : Field := ⟨1034, 0, 1, .ro, 0, (.to 0), false⟩
/-- the previous sample was in a range change (R412). -/
def H.ACQ_RANGED_P : Field := ⟨1035, 0, 1, .ro, 0, (.to 0), false⟩
/-- a force waits for the next sample (R413). -/
def H.ACQ_FORCE_P : Field := ⟨1036, 0, 1, .ro, 0, (.to 0), false⟩
/-- ACQ_CFG at the arm (R408). -/
def H.ACQ_SETUP : Field := ⟨1037, 0, 32, .ro, 0, (.to 0), false⟩
/-- ACQ_LEVEL at the arm (R408). -/
def H.ACQ_LVL : Field := ⟨1038, 0, 24, .ro, 0, (.to 0), false⟩
/-- samples lost in this capture (R410). -/
def H.ACQ_DROPPED : Field := ⟨1039, 0, 32, .ro, 0, (.to 0), false⟩
/-- lost samples whose DROP entries are not yet written (R410). -/
def H.ACQ_DROP_P : Field := ⟨1040, 0, 32, .ro, 0, (.to 0), false⟩
/-- FLAGS of the capture (R408, R422). -/
def H.ACQ_FLAGS : Field := ⟨1041, 0, 16, .ro, 0, (.to 0), false⟩
/-- triggers ignored in this capture (R408). -/
def H.ACQ_XTRA : Field := ⟨1042, 0, 16, .ro, 0, (.to 0), false⟩
/-- the first reduction task waits for room in the deque (R421). -/
def H.ACQ_PUSH_WAIT : Field := ⟨1043, 0, 1, .ro, 0, (.to 0), false⟩
/-- RUN of the test at the arm. -/
def H.ACQ_RUN : Field := ⟨1044, 0, 16, .ro, 0, (.to 0), false⟩
/-- descriptor of the stolen task (R282). -/
def H.ENG_TASK_D : Field := ⟨1045, 0, 128, .ro, 0, (.to 0), false⟩
/-- the routine of the stolen task has written its output. -/
def H.ENG_TASK_RAN : Field := ⟨1046, 0, 1, .ro, 0, (.to 0), false⟩
/-- unit of the interrupted SETTLE or MEASURE. -/
def H.ENG_FW_UNIT : Field := ⟨1047, 0, 12, .ro, 0, (.to 0), false⟩
/-- quantity of the interrupted SETTLE or MEASURE. -/
def H.ENG_FW_QTY : Field := ⟨1048, 0, 3, .ro, 0, (.to 0), false⟩
/-- IMM of the interrupted long operation. -/
def H.ENG_FW_IMM : Field := ⟨1049, 0, 32, .ro, 0, (.to 0), false⟩
/-- IMM of the word that waits. -/
def H.ENG_WAIT_IMM : Field := ⟨1050, 0, 32, .ro, 0, (.to 0), false⟩
/-- a word waits for its load (R263). -/
def H.ENG_LD_ON : Field := ⟨1051, 0, 1, .ro, 0, (.to 0), false⟩
/-- next address that the word in progress chose (R248). -/
def H.ENG_NEXT : Field := ⟨1052, 0, 12, .ro, 0, (.to 0), false⟩
/-- state that a stop left, + 0 while not stopped (R279). -/
def H.ENG_PRE_STOP : Field := ⟨1053, 0, 3, .ro, 0, (.to 0), false⟩
/-- the word at PC runs past its breakpoint once. -/
def H.ENG_BRK_SKIP : Field := ⟨1054, 0, 1, .ro, 0, (.to 0), false⟩
/-- unit index of the word that waits (R255). -/
def H.ENG_WAIT_IDX : Field := ⟨1055, 0, 6, .ro, 0, (.to 0), false⟩
/-- next address of the interrupted word, index as ENG_FW_UNIT. -/
def H.ENG_FW_NEXT : Field := ⟨1056, 0, 12, .ro, 0, (.to 0), false⟩
/-- unit index of the interrupted word, index as ENG_FW_UNIT. -/
def H.ENG_FW_IDX : Field := ⟨1057, 0, 6, .ro, 0, (.to 0), false⟩
/-- frame PC as saved, index as ENG_FW_UNIT. -/
def H.ENG_FW_PC : Field := ⟨1058, 0, 12, .ro, 0, (.to 0), false⟩
/-- the next expected arrival that accumulation may take (R187), index line. -/
def H.TRIG_ACC_K : Field := ⟨1059, 0, 64, .ro, 0, .hold, false⟩
/-- START_SRC applies to the next START_CHAIN (R295). -/
def H.SQ_SRC_NEXT : Field := ⟨1060, 0, 1, .ro, 0, (.to 0), false⟩
/-- start time in effect, as its LO write left it (SITE_TSTART). -/
def H.ST_TSTART : Field := ⟨1061, 0, 64, .ro, 0, .hold, false⟩
/-- the test began while throttle lasted (R116). -/
def H.ST_THR : Field := ⟨1062, 0, 1, .ro, 0, (.to 0), false⟩
/-- STEAL_FREE of the site map: engines bound to no site that steal (R289). -/
def H.SITE_FREE : Field := ⟨1063, 0, 64, .ro, 0, (.to 0), false⟩
/-- the reset in progress is a warm one (R505). -/
def H.WAS_WARM : Field := ⟨1064, 0, 1, .ro, 0, .special, false⟩
/-- the last cold reset was a BOR (R101). -/
def H.WAS_BOR : Field := ⟨1065, 0, 1, .ro, 0, .special, false⟩
/-- the unit runs on values of a CAL record or a flow (R428), index tile x 128 + unit. -/
def H.CAL_MADE : Field := ⟨1066, 0, 1, .ro, 0, .hold, false⟩
/-- start of the second in which the event log counts (R626). -/
def H.HEL_T0 : Field := ⟨1067, 0, 128, .ro, 0, (.to 0), false⟩
/-- entries written in that second (R626). -/
def H.HEL_N : Field := ⟨1068, 0, 32, .ro, 0, (.to 0), false⟩
/-- next sequence number expected (R453). -/
def H.RX_EXP : Field := ⟨1069, 0, 12, .ro, 0, .hold, false⟩
/-- the receiver is in retry wait (R454). -/
def H.RX_WAIT : Field := ⟨1070, 0, 1, .ro, 0, .hold, false⟩
/-- RETRY_REQ sent with the present EXP (R454). -/
def H.RX_REQS : Field := ⟨1071, 0, 5, .ro, 0, .hold, false⟩
/-- time of the next RETRY_REQ + 1, 0 none (R454). -/
def H.RX_REQ_T : Field := ⟨1072, 0, 128, .ro, 0, .hold, false⟩
/-- credits for the partner's buffers (R456). -/
def H.TX_CR : Field := ⟨1073, 0, 16, .ro, 0, .hold, false⟩
/-- slots left of the present 16 (R457). -/
def H.TX_BUD : Field := ⟨1074, 0, 4, .ro, 0, .hold, false⟩
/-- the receive state has been reset since the last LINK_INFO sent (R465). -/
def H.PO_FRESH : Field := ⟨1075, 0, 1, .ro, 1, .hold, false⟩
/-- training steps completed (R462). -/
def H.PO_STEP : Field := ⟨1076, 0, 3, .ro, 0, .hold, false⟩
/-- PAM4 steps failed in a row (R463). -/
def H.PO_FAILS : Field := ⟨1077, 0, 2, .ro, 0, .hold, false⟩
/-- the Porch runs, or will run, in NRZ mode (R463). -/
def H.PO_NRZ : Field := ⟨1078, 0, 1, .ro, 0, .hold, false⟩
/-- a LINK_INFO of this training has arrived. -/
def H.PO_INFO : Field := ⟨1079, 0, 1, .ro, 0, .hold, false⟩
/-- the LINK_INFO allows the link to resume (R466). -/
def H.PO_RESUME : Field := ⟨1080, 0, 1, .ro, 0, .hold, false⟩
/-- EXP of that LINK_INFO. -/
def H.PO_EXP : Field := ⟨1081, 0, 12, .ro, 0, .hold, false⟩
/-- buffer counts of that LINK_INFO (index Porch x 3 + virtual channel). -/
def H.PO_BUF : Field := ⟨1082, 0, 16, .ro, 0, .hold, false⟩
/-- the partner shows PAM4_OK. -/
def H.PO_PAM4_OK : Field := ⟨1083, 0, 1, .ro, 0, .hold, false⟩
/-- the link was up before the present training. -/
def H.PO_WAS_UP : Field := ⟨1084, 0, 1, .ro, 0, .hold, false⟩
/-- time of the detection or of the entry into RETRAIN. -/
def H.PO_T0 : Field := ⟨1085, 0, 128, .ro, 0, .hold, false⟩
/-- cause of the RETRAIN: 1 signal, 2 other, 3 a RETRAIN command. -/
def H.PO_CAUSE : Field := ⟨1086, 0, 3, .ro, 0, .hold, false⟩
/-- end of the stay in DOWN, time + 1 (R461). -/
def H.PO_DOWN_END : Field := ⟨1087, 0, 128, .ro, 0, .hold, false⟩
/-- QUIET_REQ sent, QUIET_ACK awaited (R468). -/
def H.PO_QREQ : Field := ⟨1088, 0, 1, .ro, 0, .hold, false⟩
/-- DEEP_REQ sent, DEEP_ACK awaited (R469). -/
def H.PO_DREQ : Field := ⟨1089, 0, 1, .ro, 0, .hold, false⟩
/-- DEEP_ACK waits until every flit is acknowledged (R469). -/
def H.PO_DPEND : Field := ⟨1090, 0, 1, .ro, 0, .hold, false⟩
/-- end of the wake timeout, time + 1 (R470). -/
def H.PO_WAKE_END : Field := ⟨1091, 0, 128, .ro, 0, .hold, false⟩
/-- LEAVE received: no new flit, the next loss is planned (R490). -/
def H.PO_LEFT : Field := ⟨1092, 0, 1, .ro, 0, .hold, false⟩
/-- end of the wait for acknowledgements after LEAVE, time + 1 (R490). -/
def H.PO_LEAVE_END : Field := ⟨1093, 0, 128, .ro, 0, .hold, false⟩
/-- the transmitters of a LEAVING Porch are idle (R490). -/
def H.PO_IDLED : Field := ⟨1094, 0, 1, .ro, 0, .hold, false⟩
/-- equaliser preset in force (R441). -/
def H.PO_LANE : Field := ⟨1095, 0, 2, .ro, 0, .hold, false⟩
/-- time at which the preset of the band changed, + 1 (R441). -/
def H.PO_LANE_T : Field := ⟨1096, 0, 128, .ro, 0, .hold, false⟩
/-- source of the PREPARE_REMOVE to answer. -/
def H.REMOVE_SRC : Field := ⟨1097, 0, 16, .ro, 0, (.to 0), false⟩
/-- tag of the PREPARE_REMOVE to answer. -/
def H.REMOVE_TAG : Field := ⟨1098, 0, 16, .ro, 0, (.to 0), false⟩
/-- fuse block being programmed (R598). -/
def H.SEC_PROG_BLK : Field := ⟨1099, 0, 7, .ro, 0, (.to 0), false⟩
/-- words 0-11 of the record being programmed. -/
def H.SEC_PROG_D : Field := ⟨1100, 0, 384, .ro, 0, (.to 0), false⟩
/-- end of the programming, time + 1 (R598). -/
def H.SEC_PROG_END : Field := ⟨1101, 0, 128, .ro, 0, (.to 0), false⟩
/-- the record is a life-cycle record: a SOFT reset follows (R600). -/
def H.SEC_PROG_LC : Field := ⟨1102, 0, 1, .ro, 0, (.to 0), false⟩
/-- end of the unlock check, time + 1 (R619). -/
def H.SEC_UNLOCK_END : Field := ⟨1103, 0, 128, .ro, 0, (.to 0), false⟩
/-- fuse blocks that failed two reads at the last load (R596). -/
def H.SEC_SPOIL : Field := ⟨1104, 0, 128, .ro, 0, (.to 0), false⟩
/-- the loaded image was verified under a usable slot (R600). -/
def H.IMG_USABLE : Field := ⟨1105, 0, 1, .ro, 0, (.to 0), false⟩
/-- Hearth core 0 stands at its reset vector (RST_CTRL.DBG_HALT). -/
def H.CORE0_HALT : Field := ⟨1106, 0, 1, .ro, 0, (.to 0), false⟩
/-- when the transfer in progress asserts its select (R519). -/
def H.CSP_T0 : Field := ⟨1107, 0, 128, .ro, 0, (.to 0), false⟩
/-- end of the gap after the last transfer (R519). -/
def H.CSP_GAP_T : Field := ⟨1108, 0, 128, .ro, 0, (.to 0), false⟩
/-- EN has been written to 0 during the transfer (R522). -/
def H.CSP_LOST : Field := ⟨1109, 0, 1, .ro, 0, (.to 0), false⟩
/-- an abort ends the transfer after the bit in progress (R523). -/
def H.CSP_ABT : Field := ⟨1110, 0, 1, .ro, 0, (.to 0), false⟩
/-- the Cellar had lost its contents when the bindings were held (R105, R292). -/
def H.BIND_LOST : Field := ⟨1111, 0, 1, .ro, 0, (.to 0), false⟩
/-- voltage instant of the last monitor sample of the DPS, time + 1 (R357). -/
def H.DPS_SAMP_T : Field := ⟨1112, 0, 128, .ro, 0, (.to 0), false⟩
/-- voltage instant of the last monitor sample of the SMU, time + 1 (R357). -/
def H.SMU_SAMP_T : Field := ⟨1113, 0, 128, .ro, 0, (.to 0), false⟩
/-- last MOD cycle at which the sine generator of the SMU stepped, time + 1 (R352). -/
def H.SMU_MOD_T : Field := ⟨1114, 0, 128, .ro, 0, (.to 0), false⟩
/-- samples of the measurement in progress or last completed (R357). -/
def H.DPS_MEAS_N : Field := ⟨1115, 0, 8, .ro, 1, (.to 1), false⟩
/-- samples of the measurement in progress or last completed (R357). -/
def H.SMU_MEAS_N : Field := ⟨1116, 0, 8, .ro, 1, (.to 1), false⟩
/-- a clock failure with REF good has restarted the timebase, and no SYNC event has loaded it since (R182). -/
def H.TB_RELOAD : Field := ⟨1117, 0, 1, .ro, 0, .special, false⟩
/-- the fast resume of R469 has failed, and the Porch trains by the steps of R462. -/
def H.PO_FULL : Field := ⟨1118, 0, 1, .ro, 0, .hold, false⟩
/-- silicon ID of the partner of the link in being, or of the last one (R466). -/
def H.PO_SID : Field := ⟨1119, 0, 64, .ro, 0, .hold, false⟩

/-- Every field of this file. -/
def hiddenFields : List Field :=
  [H.CH_DRV_ON, H.CH_DRV_LVL, H.CH_TERM_ON, H.CH_PMU_ON, H.CH_PMU_SW_END, H.CH_PMU_RNG_END, H.CH_PMU_OLD_RANGE, H.CH_PMU_MEAS_END, H.CH_PMU_MEAS_WAIT, H.CH_SETTLE_END, H.CH_SETTLE_END1, H.CH_BANK_END, H.CH_BANK_NOW, H.CH_CAL_OWNED, H.CH_CMASK, H.CH_DSK_USE_DRV, H.CH_DSK_USE_CMP, H.SQ_PLAYING, H.SQ_WAIT, H.SQ_START_ENTRY, H.SQ_START_BY, H.SQ_START_WORD, H.SQ_START_AT, H.SQ_HOLD_END, H.SQ_VPOS, H.SQ_DECIDED_JUMP, H.SQ_DECIDED_END, H.SQ_PAUSE_REQ, H.SQ_STOP_REQ, H.SQ_CHAIN_PAUSED, H.SQ_STALL_N, H.SQ_STALL_VEC, H.SQ_STALL_TS, H.SQ_STALL_T0, H.SQ_TSET_PIN, H.SQ_TRIG_PIN, H.SQ_MK0, H.SQ_MK1, H.SQ_PERIOD, H.SQ_NEXT_T, H.SQ_NEWCHAIN, H.SQ_T_FIRST, H.SQ_T_END, H.SQ_CHAINED, H.SQ_ENTRY_BAD, H.ST_SITE_FAIL, H.ST_MARK_FAIL, H.ST_GFAIL, H.ST_FIRST_FAIL, H.ST_FAIL_LIMIT, H.ST_FAIL_OVF, H.ST_PUSHED, H.ST_PUSH_WAIT, H.ST_REC_LOST, H.ST_TRIPPED, H.ST_TASKS_CUT, H.ST_CAUSE, H.ST_BIN_FORCE, H.ST_IS_RETEST, H.ST_NEXT, H.ST_OUT_SAFE, H.ST_HALT_T, H.ST_HALTED, H.ST_TRIG_ARR, H.ST_ACCEPT_T, H.ENG_SITE, H.ENG_FLAGS, H.ENG_RESULT, H.ENG_RESSTAT, H.ENG_BIN, H.ENG_TNOW_HI, H.ENG_VEC_HI, H.ENG_TCAUSE, H.ENG_ATOM_N, H.ENG_WAIT, H.ENG_WAIT_UNIT, H.ENG_WAIT_QTY, H.ENG_WAIT_END, H.ENG_WAIT_DONE, H.ENG_TASK_SITE, H.ENG_TASK_RUN, H.ENG_TASK_DEQUE, H.ENG_TASK_T0, H.ENG_ABORT, H.ENG_ABORT_END, H.ENG_START_PEND, H.ENG_START_CUT, H.ENG_STEPPING, H.ENG_STAGE, H.ENG_AUTO_FIRST, H.ENG_AUTO_ON, H.ENG_AUTO_G0, H.ENG_AUTO_BASE, H.ENG_G, H.ENG_L, H.ENG_RSTK, H.ENG_FRAME, H.DPS_POINT, H.DPS_PT_T, H.DPS_HELD, H.DPS_RNG_END, H.DPS_OLD_RANGE, H.DPS_MEAS_LEFT, H.DPS_SUM_V, H.DPS_SUM_I, H.DPS_ACC_LIM, H.DPS_ACC_OVER, H.DPS_CAL_OWNED, H.DPS_DISCH, H.SMU_SW_END, H.SMU_DAC, H.SMU_PHASE, H.SMU_LOAD_PH, H.SMU_RNG_END, H.SMU_MEAS_LEFT, H.SMU_SUM_V, H.SMU_SUM_I, H.SMU_ACC_LIM, H.SMU_ACC_OVER, H.SMU_CAL_OWNED, H.SMU_DAC0, H.SMU_STAGE, H.SW_NEXT_T, H.SW_POS, H.SW_PASS, H.SW_JUMP, H.SW_DECIDED, H.SW_STALL_N, H.SW_STALL_VEC, H.SW_STALL_TS, H.SW_STALL_T0, H.SW_STARTED, H.SW_SAMPLES, H.MON_SET_END, H.MON_OLD_HI, H.MON_OLD_LO, H.MON_CHG, H.MON_IN, H.MON_EN_T, H.MON_MEM_BOUND, H.MON_MEM_SITE, H.PD_CORE, H.PD_PANTRY, H.PD_H0, H.PD_H123, H.PD_ENG, H.PD_CELLAR, H.PD_FABRIC, H.PD_PORCH, H.PD_TILE, H.PD_TILE_BARRED, H.BOOT_PHASE, H.BOOT_T0, H.BOOT_TMR_END, H.RST_T0, H.RST_SOFT_DUE, H.WDOG_T0, H.WDOG_HALF_SEEN, H.WARM_HOLD_END, H.HDR_WARM_HOLD_MS, H.HDR_WDOG_MS, H.HDR_CONTACT, H.CONTACT_END, H.STAT_LED, H.MODE_END, H.MODE_CAUSE, H.MODE_SRC, H.MODE_TAG, H.CAL_FROM, H.UNAVAIL, H.REMOVE_WAIT, H.FLASH_SIZE, H.TB_ORIGIN, H.TB_EPOCH_SEEN, H.FLT_END, H.FLT_SEQ, H.FLT_SITE, H.FLT_TILE, H.THM_IMPL, H.THM_FORCE_END, H.THM_FORCE_VAL, H.THM_SEEN, H.THM_THR_T0, H.THM_THR_PEAK, H.THM_THR_REC, H.THM_BRK_REC, H.THM_TILE_REC, H.THM_LSEQ, H.THM_HOLD_T0, H.THM_SLOT, H.THM_LOG_STEP, H.THM_NEXT_T, H.THM_LOG_NEXT_T, H.TRIG_LEFT, H.TRIG_NEXT_T, H.TRIG_ACC_STOP, H.TPH_SITE_CORR, H.WIPE_END, H.SCRUB_ADDR, H.CEL_FACTOR, H.CEL_REPORT, H.PAN_RR, H.PAN_INVAL_END, H.STL_OFF_PEND, H.TDC_T1, H.TDC_T2, H.TDC_INTERP, H.TDC_PAIR1, H.TDC_PAIR2, H.TDC_FACT1, H.TDC_FACT2, H.TDC_DEADN, H.TDC_OVRN, H.TDC_EPOCH_P, H.TDC_DIS_P, H.TDC_START_P, H.TDC_START_U, H.TDC_START_AT, H.TDC_GATE_ON, H.TDC_GATE_U, H.TDC_GATE_CNT, H.TDC_GATE_BAD, H.TDC_THR_T, H.TDC_ARM_T, H.TDC_OPEN_DUE, H.TDC_CAL_OWNED, H.TDC_TRIM, H.ACQ_N, H.ACQ_NEXT, H.ACQ_T_FIRST, H.ACQ_TRIG_N, H.ACQ_LEFT, H.ACQ_KIND, H.ACQ_EXACT, H.ACQ_LVL_OK, H.ACQ_RANGED_P, H.ACQ_FORCE_P, H.ACQ_SETUP, H.ACQ_LVL, H.ACQ_DROPPED, H.ACQ_DROP_P, H.ACQ_FLAGS, H.ACQ_XTRA, H.ACQ_PUSH_WAIT, H.ACQ_RUN, H.ENG_TASK_D, H.ENG_TASK_RAN, H.ENG_FW_UNIT, H.ENG_FW_QTY, H.ENG_FW_IMM, H.ENG_WAIT_IMM, H.ENG_LD_ON, H.ENG_NEXT, H.ENG_PRE_STOP, H.ENG_BRK_SKIP, H.ENG_WAIT_IDX, H.ENG_FW_NEXT, H.ENG_FW_IDX, H.ENG_FW_PC, H.TRIG_ACC_K, H.SQ_SRC_NEXT, H.ST_TSTART, H.ST_THR, H.SITE_FREE, H.WAS_WARM, H.WAS_BOR, H.CAL_MADE, H.HEL_T0, H.HEL_N, H.RX_EXP, H.RX_WAIT, H.RX_REQS, H.RX_REQ_T, H.TX_CR, H.TX_BUD, H.PO_FRESH, H.PO_STEP, H.PO_FAILS, H.PO_NRZ, H.PO_INFO, H.PO_RESUME, H.PO_EXP, H.PO_BUF, H.PO_PAM4_OK, H.PO_WAS_UP, H.PO_T0, H.PO_CAUSE, H.PO_DOWN_END, H.PO_QREQ, H.PO_DREQ, H.PO_DPEND, H.PO_WAKE_END, H.PO_LEFT, H.PO_LEAVE_END, H.PO_IDLED, H.PO_LANE, H.PO_LANE_T, H.REMOVE_SRC, H.REMOVE_TAG, H.SEC_PROG_BLK, H.SEC_PROG_D, H.SEC_PROG_END, H.SEC_PROG_LC, H.SEC_UNLOCK_END, H.SEC_SPOIL, H.IMG_USABLE, H.CORE0_HALT, H.CSP_T0, H.CSP_GAP_T, H.CSP_LOST, H.CSP_ABT, H.BIND_LOST, H.DPS_SAMP_T, H.SMU_SAMP_T, H.SMU_MOD_T, H.DPS_MEAS_N, H.SMU_MEAS_N, H.TB_RELOAD, H.PO_FULL, H.PO_SID]

end Sys2Proof.Machine
end

