-- ==== Sys2Proof/Machine/Sparse.lean ====
section
/-!
DEFINITION. Sparse stores in canonical form: a list of (key, value) pairs with rising keys in which
no entry equals what an unlisted key reads as.  The field file and every memory are kept this way,
so that equal contents are equal data.
-/

namespace Sys2Proof.Machine

/-- The value a list gives a key, if it lists it. -/
def lookKey {α : Type} (k : Nat) : List (Nat × α) → Option α
  | [] => none
  | (k', v) :: t => if k' = k then some v else lookKey k t

/-- The list with a key's value put in its place in rising order. -/
def insKey {α : Type} (k : Nat) (v : α) : List (Nat × α) → List (Nat × α)
  | [] => [(k, v)]
  | (k', v') :: t =>
    if k' = k then (k, v) :: t
    else if k < k' then (k, v) :: (k', v') :: t
    else (k', v') :: insKey k v t

/-- The list without a key. -/
def delKey {α : Type} (k : Nat) (l : List (Nat × α)) : List (Nat × α) :=
  l.filter (fun p => p.1 ≠ k)

/-- Writes a key: the value an unlisted key reads as is not listed. -/
def storeKey {α : Type} [DecidableEq α] (dflt : α) (k : Nat) (v : α) (l : List (Nat × α)) :
    List (Nat × α) :=
  if v = dflt then delKey k l else insKey k v l

/-- Keys rise strictly. -/
def keysRise {α : Type} : List (Nat × α) → Bool
  | [] => true
  | [_] => true
  | a :: b :: t => decide (a.1 < b.1) && keysRise (b :: t)

/-- The canonical form of a store whose unlisted keys read as `dflt`. -/
def storeWf {α : Type} [DecidableEq α] (dflt : α) (l : List (Nat × α)) : Bool :=
  keysRise l && l.all (fun p => decide (p.2 ≠ dflt))

/-- A byte memory: address and byte pairs. -/
abbrev Memory := List Host.Cell

/-- The canonical form of a byte memory whose unlisted bytes read as `d`. -/
def Memory.wf (d : Byte) (m : Memory) : Bool := storeWf d m

/-- One byte of a memory. -/
def memByte (d : Byte) (m : Memory) (a : Nat) : Byte := (lookKey a m).getD d

/-- One byte written. -/
def memSetByte (d : Byte) (m : Memory) (a : Nat) (b : Byte) : Memory := storeKey d a b m

/-- n bytes from an address. -/
def memBytes (d : Byte) (m : Memory) : Nat → Nat → List Byte
  | _, 0 => []
  | a, n + 1 => memByte d m a :: memBytes d m (a + 1) n

/-- Bytes written from an address on. -/
def memSetBytes (d : Byte) (m : Memory) : Nat → List Byte → Memory
  | _, [] => m
  | a, b :: bs => memSetBytes d (memSetByte d m a b) (a + 1) bs

/-- The memory with a range put back to what an unlisted byte reads as. -/
def memClear (m : Memory) (lo n : Nat) : Memory :=
  m.filter (fun p => p.1 < lo || lo + n ≤ p.1)

end Sys2Proof.Machine
end

