-- ==== Sys2Proof/Machine/State.lean ====
section
/-!
DEFINITION. The state of the block as plain data: the register fields and the unnamed unit state
(the field file), the memories, the queues, and the commands that wait.
-/

namespace Sys2Proof.Machine

/-- Why a command can stop. -/
inductive Fault where
  /-- Raised by CHIMNEY_SAMPLE, CONTACT_CHECK_DONE and SITE_BIND when a list operand has not the
  length the spec gives it (40 readings, 512 channels, 64 bytes): no such command exists.  Safe. -/
  | illFormed
  deriving DecidableEq, Repr

/-- Why a command has no meaning. -/
inductive Refusal where
  /-- Raised by an arm of the dispatch whose command has no meaning yet.  Safe. -/
  | notModelled (mnemonic : String)
  deriving DecidableEq, Repr

/-- What a register access answers (R7). -/
inductive Resp where
  | value (v : Nat)
  | done
  | error
  deriving DecidableEq, Repr

/-- A site entry (R290), as bound. -/
structure SiteEntry where
  site : Nat
  engine : Nat
  tile : Nat
  flags : Nat
  pair : Nat
  chMask : Nat
  dps : Nat
  gang : Nat
  smu : Nat
  tdc : Nat
  stallLimit : Nat
  startTmo : Nat
  startEntry : Nat
  recBase : Nat
  recSize : Nat
  failLimit : Nat
  failBase : Nat
  failSize : Nat
  deriving DecidableEq, Repr

/-- A resident line of the Pantry (R194, R221-R225): its pattern and index, the SRAM line it lies
in, whether it is bad, the entries that pin it, when it was filled, and its bytes. -/
structure PanLine where
  pat : Nat
  line : Nat
  slot : Nat
  bad : Bool
  pins : List Nat
  filled : Nat
  data : List Byte
  deriving DecidableEq, Repr

/-- A line in a prefetch buffer (R21) or a waveform buffer (R218), copied at its grant. -/
structure BufLine where
  pat : Nat
  line : Nat
  bad : Bool
  data : List Byte
  deriving DecidableEq, Repr

/-- A line request to the decoders: priority class 1 to 3 (R220), the site it is for (64 + u for
the context of SMU u), and whether it refetches an evicted line (R24). -/
structure LineReq where
  pat : Nat
  line : Nat
  cls : Nat
  site : Nat
  refetch : Bool
  deriving DecidableEq, Repr

/-- A decode in progress: its request, the line of the SRAM it will fill, and the index entry, the
dictionary and the block bytes it fetched (none where a fetch gave no data). -/
structure DecJob where
  req : LineReq
  slot : Nat
  idx : Option (List Byte)
  dict : Option (List Byte)
  block : Option (List Byte)
  deriving DecidableEq, Repr

/-- A register write that waits for the owning site's next vector boundary (R136, R137): a level of a
channel, or its bank. -/
inductive PendWrite where
  | level (ch lvl : Nat)
  | bank (ch v : Nat)
  deriving DecidableEq, Repr

/-- A PINOP or ANAOP in the site command queue of an engine (R263): the operation word, IMM, the
micro-word that issued it, whether the tile has acted on it, and whether it is an ANAOP. -/
structure QCmd where
  ana : Bool
  op : Nat
  imm : Nat
  word : Nat
  acted : Bool
  deriving DecidableEq, Repr

/-- A MEMOP that a word has issued (R259): operation byte, offset, operands, DST, IMM and word. -/
structure MemCmd where
  op : Nat
  off : Nat
  v0 : Nat
  v1 : Nat
  dst : Nat
  imm : Nat
  word : Nat
  deriving DecidableEq, Repr

/-- A refusal that is not yet known to the engine (R258). -/
structure Refused where
  word : Nat
  reason : Nat
  ana : Bool
  deriving DecidableEq, Repr

/-- A memory error that has not yet reached the engine (R260). -/
structure MemErr where
  word : Nat
  store : Bool
  reason : Nat
  off : Nat
  deriving DecidableEq, Repr

/-- An event for the host (R508). -/
structure Event where
  code : Nat
  seq : Nat
  ts : Nat
  data : List Byte
  deriving DecidableEq, Repr

/-- A reply that leaves the chip (R492, R496): its destination, tag, type and data. -/
structure Reply where
  dst : Nat
  tag : Nat
  typ : Nat
  data : List Byte
  deriving DecidableEq, Repr

/-- A host command accepted and not yet answered (R494). -/
structure HostCmd where
  src : Nat
  tag : Nat
  op : Nat
  deriving DecidableEq, Repr

/-- A message in assembly (R493): source, tag, opcode, next FIDX and the data so far. -/
structure Assembly where
  src : Nat
  tag : Nat
  op : Nat
  fidx : Nat
  data : List Byte
  deriving DecidableEq, Repr

/-- A mailbox word with its sender's epoch (R512). -/
structure MbxWord where
  word : Nat
  epoch : Nat
  deriving DecidableEq, Repr

/-- The outputs a timed safe sequence removes (R74): those of a warm reset or shutdown (all bound
channels and every supply), of a tile, or of a site's resources on its tile. -/
inductive SafeScope where
  | all
  | tile (t : Nat)
  | units (site tile chMask dps smu : Nat)
  deriving DecidableEq, Repr

/-- A safe sequence in progress: its outputs, its start, the next stage (0 timing stops, 1 drivers,
2 DPS, 3 SMUs), and the unbind that waits for its end (R293): the site and whether its command is to
be answered with it. -/
structure SafeSeq where
  scope : SafeScope
  t0 : Nat
  stage : Nat
  unbind : Option Nat
  answer : Option Hdr
  deriving DecidableEq, Repr

/-- One correction held for a boundary (R435): the unit (index as CalSeen), its store image and, for a
channel, its CH_DSK (R427), the flow that made it (0 the factory or a record without one), and the
temperature in degrees at which it was made. -/
structure PendCorr where
  unit : Nat
  bytes : List Byte
  flow : Nat
  tj : Nat
  deriving DecidableEq, Repr

/-- A calibration flow in progress on a tile (R430). -/
structure Flow where
  flow : Nat
  args : CalArgs
  src : Nat
  tag : Nat
  stopping : Bool
  deriving DecidableEq, Repr

/-- A time-stamped entry of a TDC queue (R395): the 8 bytes that are spilled. -/
structure TdcEntry where
  word : Nat
  deriving DecidableEq, Repr

/-- A control-store body that Hearth keeps a copy of (R269): the engines it loads, as a mask, and its
bytes. -/
structure CsBody where
  engines : Nat
  bytes : List Byte
  deriving DecidableEq, Repr

/-- A broadcast that the router has seen (R476): its source, its ID and when. -/
structure BcastSeen where
  src : Nat
  id : Nat
  t : Nat
  deriving DecidableEq, Repr

/-- A flash command accepted and not yet answered (R502): a write of bytes, or an erase of a range (data
empty). -/
structure FlashOp where
  h : Hdr
  write : Bool
  off : Nat
  len : Nat
  data : List Byte
  deriving DecidableEq, Repr

/-- The state of the block. -/
structure State where
  /-- Commands that wait, first in first out. -/
  pending : List Instr
  /-- Time since power-up in ticks of 1/3 ps (a CORE cycle is 2,000 ticks). -/
  now : Nat
  /-- How many free values have been drawn (the model's own). -/
  free : Nat
  /-- Register fields and unnamed unit state that differ from their Cold values. -/
  ff : List (Nat × Nat)
  /-- HI halves as snapshotted by a read of LO (R380 and the register descriptions). -/
  snaps : List (Nat × Nat)
  /-- What the last register access answered (the model's own view of the bus). -/
  lastResp : Resp
  /-- Scratchpad, by offset from 0x00_4000_0000 (R544). -/
  scratch : Memory
  /-- Cellar, by offset from 0x80_0000_0000 (R536). -/
  cellar : Memory
  /-- Cellar blocks that hold an error: 1 single-bit, 2 uncorrectable (R538). -/
  celErr : List (Nat × Nat)
  /-- Configuration flash (R86). -/
  flash : Memory
  /-- Fault log, by offset from FLT + 0x0400 (R586). -/
  fltLog : Memory
  /-- Correction stores of the tiles (R424), by tile x 0x10000 + offset from TT + 0x80_1000: the bytes
  that differ from the factory copy. -/
  corr : Memory
  /-- Fuse words that have been programmed beyond the factory contents (R598), by word. -/
  fuses : List (Nat × Nat)
  /-- Control stores, by engine x 4,096 + word (R264). -/
  cstore : List (Nat × Nat)
  /-- Copies of the control-store bodies, oldest first (R269). -/
  csBodies : List CsBody
  /-- Site entries bound, by site. -/
  entries : List (Nat × SiteEntry)
  /-- Site entries that wait for the contact map (R105). -/
  heldEntries : List SiteEntry
  /-- Writes that wait for a boundary, by site. -/
  pendW : List (Nat × List PendWrite)
  /-- Read-port buffers, by site (R21). -/
  ports : List (Nat × List BufLine)
  /-- Buffers of the waveform contexts, by SMU (R218). -/
  waveBuf : List (Nat × List BufLine)
  /-- Lines evicted while they had readers: pattern and line (R24). -/
  evicted : List (Nat × Nat)
  /-- Resident lines of the Pantry. -/
  lines : List PanLine
  /-- Requests that wait for a decoder, oldest first. -/
  reqs : List LineReq
  /-- Decodes in progress (at most 16). -/
  jobs : List DecJob
  /-- Patterns being invalidated (4,096 means all) with PAN_INVAL.BUSY. -/
  inval : List Nat
  /-- Site command queues, by engine. -/
  cmdq : List (Nat × List QCmd)
  /-- MEMOPs issued, by engine. -/
  memq : List (Nat × List MemCmd)
  /-- Refusals not yet known, by engine. -/
  refused : List (Nat × List Refused)
  /-- Memory errors not yet known, by engine. -/
  memErrs : List (Nat × List MemErr)
  /-- Event-source queues of the engines, at most 4 entries each (R592). -/
  evq : List (Nat × List Nat)
  /-- Raw fail entries that wait in a site's fail capture queue (R314): vector and mask. -/
  failq : List (Nat × List (Nat × Nat))
  /-- Events that wait for credit or a route (R509). -/
  events : List Event
  /-- Replies sent, oldest first. -/
  replies : List Reply
  /-- Commands accepted and not answered (R494). -/
  accepted : List HostCmd
  /-- Output queues of the Porches (R457, R470), oldest first. -/
  outq : List (Nat × List Flit)
  /-- Replay buffers: flits sent and not acknowledged, oldest first (R452). -/
  replay : List (Nat × List Flit)
  /-- Broadcasts seen (R476). -/
  bcasts : List BcastSeen
  /-- Messages in assembly (R493). -/
  asm : List Assembly
  /-- Host mailbox queues H2D and D2H, by mailbox (R512). -/
  h2d : List (Nat × List MbxWord)
  d2h : List (Nat × List MbxWord)
  /-- Engine mailbox queues H2E and E2H, by engine. -/
  h2e : List (Nat × List MbxWord)
  e2h : List (Nat × List MbxWord)
  /-- Output removals in progress. -/
  safe : List SafeSeq
  /-- Pending trigger actions, by line: their times (R186). -/
  trigActs : List (Nat × List Nat)
  /-- Calibration flows in progress, by tile, and corrections held, by tile. -/
  flows : List (Nat × List Flow)
  corrPend : List (Nat × List PendCorr)
  /-- TDC queues, by TDC (R395). -/
  tdcq : List (Nat × List TdcEntry)
  /-- Flash commands in progress and waiting, oldest first (R502). -/
  flashOps : List FlashOp
  deriving DecidableEq, Repr

/-- The machine right after a power-on reset, before its release: every register at its Cold value
(nothing listed in the field file differs from it), memories with nothing listed, queues empty. -/
def State.reset : State where
  pending := []
  now := 0
  free := 0
  ff := []
  snaps := []
  lastResp := .done
  scratch := []
  cellar := []
  celErr := []
  flash := []
  fltLog := []
  corr := []
  fuses := []
  cstore := []
  csBodies := []
  entries := []
  heldEntries := []
  pendW := []
  ports := []
  waveBuf := []
  evicted := []
  lines := []
  reqs := []
  jobs := []
  inval := []
  cmdq := []
  memq := []
  refused := []
  memErrs := []
  evq := []
  failq := []
  events := []
  replies := []
  accepted := []
  outq := []
  replay := []
  bcasts := []
  asm := []
  h2d := []
  d2h := []
  h2e := []
  e2h := []
  safe := []
  trigActs := []
  flows := []
  corrPend := []
  tdcq := []
  flashOps := []

end Sys2Proof.Machine
end

