-- ==== Sys2Proof/Machine/Ops.lean ====
section
/-!
DEFINITION. The named operations on the state: fields, queues and memories by key, time and
timestamps, interrupts, events, replies.  Everything that a meaning changes it changes through
these.
-/

namespace Sys2Proof.Machine

/-- What every meaning answers. -/
abbrev Out := Host.Outcome State Fault Refusal

/-! ## The field file -/

/-- The key of an instance of a field. -/
def fkey (f : Field) (i : Nat) : Nat := i * 2048 + f.id.val

/-- The initial reaction and escalation of a fault source (R578): REACT and ESC codes. -/
def faultCold (n : Nat) : Nat × Nat :=
  if n < 64 then (3, 0)
  else if n < 80 then (2, 0)
  else if n < 88 then (2, 4)
  else if n < 96 then (2, 3)
  else if n < 117 then (2, 0)
  else (0, 0)

/-- The Cold value of an instance of a field (R6): the table's value, or where the Cold column
depends on the instance, the value its description gives. -/
def coldAt (f : Field) (i : Nat) : Nat :=
  if f.id = F.MON_HI_VALUE.id then (if i % 20 < 16 && i % 2 == 0 then 0x7FFF else 0x7FFFFFFF)
  else if f.id = F.MON_LO_VALUE.id then (if i % 20 < 16 && i % 2 == 0 then 0x8000 else 0x80000000)
  else if f.id = F.CSP_CFG_SEL_GPIO.id then i
  else if f.id = F.FLT_REACT_REACT0.id then (faultCold (4 * i)).1
  else if f.id = F.FLT_REACT_REACT1.id then (faultCold (4 * i + 1)).1
  else if f.id = F.FLT_REACT_REACT2.id then (faultCold (4 * i + 2)).1
  else if f.id = F.FLT_REACT_REACT3.id then (faultCold (4 * i + 3)).1
  else if f.id = F.FLT_REACT_ESC0.id then (faultCold (4 * i)).2
  else if f.id = F.FLT_REACT_ESC1.id then (faultCold (4 * i + 1)).2
  else if f.id = F.FLT_REACT_ESC2.id then (faultCold (4 * i + 2)).2
  else if f.id = F.FLT_REACT_ESC3.id then (faultCold (4 * i + 3)).2
  else if f.id = F.FAB_SID_LO_SID_LO.id then Config.siliconId % 2 ^ 32
  else if f.id = F.FAB_SID_HI_SID_HI.id then Config.siliconId / 2 ^ 32 % 2 ^ 32
  else if f.id = F.SEC_ROM_VER_VERSION.id then Config.romVersion % 2 ^ 32
  else if f.id = F.SPD_REPAIR_SCRATCH.id then Config.repairColumns 0 % 2 ^ 7
  else if f.id = F.SPD_REPAIR_PANTRY.id then Config.repairColumns 1 % 2 ^ 10
  else if f.id = F.SPD_REPAIR_CSTORE.id then Config.repairColumns 2 % 2 ^ 8
  else f.cold

/-- A field of an instance of a register. -/
def State.get (s : State) (f : Field) (i : Nat) : Nat := (lookKey (fkey f i) s.ff).getD (coldAt f i)

/-- A field written; the value is cut to the field's width. -/
def State.put (s : State) (f : Field) (i v : Nat) : State :=
  { s with ff := storeKey (coldAt f i) (fkey f i) (v % 2 ^ f.width) s.ff }

/-- A one-bit field read as a truth value. -/
def State.on (s : State) (f : Field) (i : Nat) : Bool := s.get f i != 0

/-- A one-bit field written. -/
def State.setB (s : State) (f : Field) (i : Nat) (b : Bool) : State := s.put f i (b2n b)

/-- A field read as two's complement of its width. -/
def State.getI (s : State) (f : Field) (i : Nat) : Int := sext f.width (s.get f i)

/-- A field written with an integer, in two's complement of its width. -/
def State.putI (s : State) (f : Field) (i : Nat) (x : Int) : State := s.put f i (code f.width x)

/-- A counter that wraps. -/
def State.incW (s : State) (f : Field) (i : Nat) : State := s.put f i (s.get f i + 1)

/-- A counter that stays at its largest value, advanced by n. -/
def State.addSat (s : State) (f : Field) (i n : Nat) : State :=
  s.put f i (satAt f.width (s.get f i + n))

/-- A counter that stays at its largest value. -/
def State.incSat (s : State) (f : Field) (i : Nat) : State := s.addSat f i 1

/-- A field back to its Cold value. -/
def State.clear (s : State) (f : Field) (i : Nat) : State := s.put f i (coldAt f i)

/-- A LO and HI pair of 32-bit fields read as one value. -/
def State.get2 (s : State) (lo hi : Field) (i : Nat) : Nat := s.get lo i + s.get hi i * 2 ^ 32

/-- A LO and HI pair written. -/
def State.put2 (s : State) (lo hi : Field) (i v : Nat) : State :=
  (s.put lo i v).put hi i (v / 2 ^ 32)

/-- An action on every element of a list, in order. -/
def State.each {α : Type} (s : State) (l : List α) (g : State → α → State) : State := l.foldl g s

/-! ## Times -/

/-- Ticks of 1/3 ps in one CORE cycle. -/
def coreCycle : Nat := 2000
/-- Ticks in 1 ps, 1 ns, 1 µs and 1 ms. -/
def ps : Nat := 3
def ns : Nat := 3000
def us : Nat := 3000000
def ms : Nat := 3000000000

/-- Time moved forward to a moment, never back. -/
def State.upTo (s : State) (t : Nat) : State := { s with now := max s.now t }

/-- A stored deadline: none while the field is 0. -/
def State.due (s : State) (f : Field) (i : Nat) : Option Nat :=
  match s.get f i with
  | 0 => none
  | t + 1 => some t

/-- A deadline stored. -/
def State.setDue (s : State) (f : Field) (i t : Nat) : State := s.put f i (t + 1)

/-- A deadline dropped. -/
def State.noDue (s : State) (f : Field) (i : Nat) : State := s.put f i 0

/-- Local time in ticks at a moment (R177): counted from the origin of the timebase. -/
def State.localAt (s : State) (t : Nat) : Nat :=
  ((t : Int) - ((s.get H.TB_ORIGIN 0 : Int) - 2 ^ 190)).toNat

/-- The timestamp of a local time in ticks (R379): coarse count in [63:12], fine in [11:2]. -/
def stampOf (ticks : Nat) : Nat :=
  (ticks / coreCycle % 2 ^ 52) * 4096 + (ticks % coreCycle * 1024 / coreCycle) * 4

/-- The ticks that a timestamp names, within one epoch. -/
def ticksOf (stamp : Nat) : Nat := stamp / 4096 * coreCycle + bits stamp 2 10 * coreCycle / 1024

/-- Common time in ticks at a moment (R177). -/
def State.commonAt (s : State) (t : Nat) : Nat :=
  ((s.localAt t : Int) + s.getI F.CHIP_OFFSET_OFFSET 0 * 3).toNat

/-- The common timestamp now. -/
def State.ts (s : State) : Nat := stampOf (s.commonAt s.now)

/-- The moment at which common time shows a timestamp, in the present epoch (R177). -/
def State.whenCommon (s : State) (stamp : Nat) : Nat :=
  let epoch := s.commonAt s.now / (coreCycle * 2 ^ 52)
  ((ticksOf stamp + epoch * coreCycle * 2 ^ 52 : Nat) - s.getI F.CHIP_OFFSET_OFFSET 0 * 3
    + ((s.get H.TB_ORIGIN 0 : Int) - 2 ^ 190)).toNat

/-- A free value drawn (values the spec leaves open): the value and the state that has drawn it. -/
def State.draw (s : State) : Nat × State := (Config.free s.free, { s with free := s.free + 1 })

/-! ## Queues by key -/

/-- The queue of a key. -/
def qGet {α : Type} (l : List (Nat × List α)) (k : Nat) : List α := (lookKey k l).getD []

/-- The queue of a key written; an empty queue is not listed. -/
def qSet {α : Type} [DecidableEq α] (l : List (Nat × List α)) (k : Nat) (q : List α) :
    List (Nat × List α) := storeKey [] k q l

/-! ## Modes and sites -/

/-- Mode codes (R109). -/
def mBRINGUP : Nat := 0
def mMINIMAL : Nat := 1
def mSTANDBY : Nat := 2
def mRUN : Nat := 3
def mCALIBRATE : Nat := 4
def mHOLD : Nat := 5
def mSLEEP : Nat := 6
def mFACTORY : Nat := 7

/-- The mode (R109). -/
def State.mode (s : State) : Nat := s.get F.MODE_STAT_MODE 0

/-- Site state codes (R119). -/
def sUNBOUND : Nat := 0
def sIDLE : Nat := 1
def sRUNNING : Nat := 2
def sPAUSED : Nat := 3
def sHELD : Nat := 4
def sENDED : Nat := 5

/-- The state of a site (R294). -/
def State.siteState (s : State) (i : Nat) : Nat := s.get F.SITE_STATE_STATE i

/-- The site is RUNNING or PAUSED. -/
def State.active (s : State) (i : Nat) : Bool :=
  s.siteState i == sRUNNING || s.siteState i == sPAUSED

/-- All site numbers. -/
def allSites : List Nat := List.range 64

/-- Some site is RUNNING or PAUSED. -/
def State.anyActive (s : State) : Bool := allSites.any s.active

/-- Sites in the RUNNING or PAUSED state (MODE_STAT.ACTIVE_SITES). -/
def State.activeCount (s : State) : Nat := (allSites.filter s.active).length

/-- The entry of a bound site. -/
def State.entryOf (s : State) (i : Nat) : Option SiteEntry := lookKey i s.entries

/-- The site that an engine serves, if any (R242). -/
def State.engSite (s : State) (k : Nat) : Option Nat :=
  if s.get H.ENG_SITE k < 64 then some (s.get H.ENG_SITE k) else none

/-- Channels of a site, ascending (R288). -/
def SiteEntry.channels (e : SiteEntry) : List Nat := (bitsOf 64 e.chMask).map (e.tile * 64 + ·)
/-- DPS of a site, ascending. -/
def SiteEntry.dpsList (e : SiteEntry) : List Nat := (bitsOf 8 e.dps).map (e.tile * 8 + ·)
/-- SMUs of a site, ascending. -/
def SiteEntry.smuList (e : SiteEntry) : List Nat := (bitsOf 4 e.smu).map (e.tile * 4 + ·)
/-- TDCs of a site, ascending. -/
def SiteEntry.tdcList (e : SiteEntry) : List Nat := (bitsOf 16 e.tdc).map (e.tile * 16 + ·)
/-- Acquisition units of a site: those of its DPS and SMUs, ascending (R403). -/
def SiteEntry.acqList (e : SiteEntry) : List Nat := e.dpsList ++ e.smuList.map (64 + ·)

/-- Channels of a site by number. -/
def State.siteChans (s : State) (i : Nat) : List Nat :=
  match s.entryOf i with
  | none => []
  | some e => e.channels

/-- The site that owns a channel, if it is bound. -/
def State.chSite (s : State) (ch : Nat) : Option Nat :=
  if s.on F.CH_CTRL_BOUND ch then some (s.get F.CH_CTRL_SITE ch) else none

/-- The site that owns a DPS, if it is bound. -/
def State.dpsSite (s : State) (d : Nat) : Option Nat :=
  if s.on F.DPS_CTRL_BOUND d then some (s.get F.DPS_CTRL_SITE d) else none

/-- The site that owns an SMU, if it is bound. -/
def State.smuSite (s : State) (u : Nat) : Option Nat :=
  if s.on F.SMU_CTRL_BOUND u then some (s.get F.SMU_CTRL_SITE u) else none

/-- The members of the gang that a DPS belongs to, lead first (R290, R338). -/
def State.gangOf (s : State) (d : Nat) : List Nat :=
  let lead := if s.on F.DPS_CTRL_LEAD d then d
    else (((List.range (d % 8 + 1)).map (fun j => d - j)).find? (fun x => s.on F.DPS_CTRL_LEAD x)).getD d
  (List.range (s.get F.DPS_CTRL_MEMBERS lead + 1)).map (lead + ·)

/-- The lead of the gang of a DPS. -/
def State.leadOf (s : State) (d : Nat) : Nat := (s.gangOf d).headD d

/-- The register index of a monitor (tile x 20 + local) from its global number (R361). -/
def monIdx (g : Nat) : Nat := if g < 128 then g / 16 * 20 + g % 16 else (g - 128) / 4 * 20 + 16 + (g - 128) % 4

/-- The global number of a monitor from its register index. -/
def monGlobal (i : Nat) : Nat := if i % 20 < 16 then i / 20 * 16 + i % 20 else 128 + i / 20 * 4 + (i % 20 - 16)

/-- Register indices of the two monitors of a DPS: voltage, current. -/
def dpsMons (d : Nat) : List Nat := [monIdx (2 * d), monIdx (2 * d + 1)]

/-- Register index of the monitor of an SMU. -/
def smuMon (u : Nat) : Nat := monIdx (128 + u)

/-- Every register index of a monitor that watches a unit of a site. -/
def SiteEntry.mons (e : SiteEntry) : List Nat :=
  (e.dpsList.map dpsMons).flatten ++ e.smuList.map smuMon

/-! ## Memories -/

/-- The byte that an unlisted address of the scratchpad or the Cellar reads as. -/
def ramByte : Byte := 0
/-- An erased byte of flash. -/
def flashByte : Byte := 0xFF

/-- The size of the scratchpad (R544). -/
def scratchSize : Nat := 0x200000

/-- An offset lies in the secure region (R544). -/
def inSecure (x : Nat) : Bool := 0x1F0000 ≤ x && x < 0x200000

/-- Scratchpad bytes. -/
def State.spRead (s : State) (x n : Nat) : List Byte := memBytes ramByte s.scratch x n
/-- Scratchpad bytes written. -/
def State.spWrite (s : State) (x : Nat) (l : List Byte) : State :=
  { s with scratch := memSetBytes ramByte s.scratch x l }
/-- A 32-bit scratchpad word. -/
def State.spWord (s : State) (x : Nat) : Nat := ofLe (s.spRead x 4)
/-- A 32-bit scratchpad word written. -/
def State.spPut (s : State) (x v : Nat) : State := s.spWrite x (leBytes 4 v)

/-- The bytes of the Cellar window that are backed: CEL_TOP less its base (R536). -/
def State.celTop (s : State) : Nat :=
  s.get F.CEL_TOP_LO_TOP_LO 0 + s.get F.CEL_TOP_HI_TOP_HI 0 * 2 ^ 32 - 0x8000000000

/-- The Cellar takes requests (R38, R535, R543). -/
def State.celReady (s : State) : Bool :=
  s.on F.CEL_CFG_READY 0 && s.on H.PD_CELLAR 0 && !s.on F.CEL_CFG_SELF_REF 0

/-- An access of n bytes at a Cellar offset lies in the backed window. -/
def State.celBacked (s : State) (o n : Nat) : Bool := s.celReady && o + n ≤ s.celTop

/-- Cellar bytes by offset, as stored. -/
def State.celRaw (s : State) (o n : Nat) : List Byte := memBytes ramByte s.cellar o n

/-- The blocks of 64 bytes that a range meets. -/
def celBlocks (o n : Nat) : List Nat := (List.range ((o + n + 63) / 64 - o / 64)).map (o / 64 + ·)

/-- Bytes served for a Cellar class are counted (CEL_CLS_BYTES). -/
def State.celCount (s : State) (cls n : Nat) : State :=
  if cls < 5 then
    let v := s.get2 F.CEL_CLS_BYTES_LO_B_LO F.CEL_CLS_BYTES_HI_B_HI cls + n
    s.put2 F.CEL_CLS_BYTES_LO_B_LO F.CEL_CLS_BYTES_HI_B_HI cls (v % 2 ^ 64)
  else s

/-- Cellar bytes written as they stand (R539, R540): whole blocks get a fresh code, and the bytes
replace those stored. -/
def State.celWrite (s : State) (o : Nat) (l : List Byte) : State :=
  { s with cellar := memSetBytes ramByte s.cellar o l }

/-- Flash bytes. -/
def State.flRead (s : State) (a n : Nat) : List Byte := memBytes flashByte s.flash a n
/-- Flash bytes programmed: a program clears bits and sets none. -/
def State.flProgram (s : State) (a : Nat) (l : List Byte) : State :=
  { s with flash := memSetBytes flashByte s.flash a (List.zipWith (fun x y => x &&& y) (s.flRead a l.length) l) }
/-- Flash sectors of 4 KiB erased. -/
def State.flErase (s : State) (a n : Nat) : State := { s with flash := memClear s.flash a n }

/-! ## Events, replies and interrupts -/

/-- The header of the Hearth event log (R626): entries written, entries read, entries lost. -/
def State.helWr (s : State) : Nat := ofLe (s.spRead 0xF800 8)
def State.helRd (s : State) : Nat := ofLe (s.spRead 0xF808 8)
def State.helLost (s : State) : Nat := s.spWord 0xF810

/-- An entry of the Hearth event log lost. -/
def State.helLose (s : State) : State := s.spPut 0xF810 (satAt 32 (s.helLost + 1))

/-- An entry of the Hearth event log (R626): 32 bytes in scratchpad bank 1, at most 10,000 in a second. -/
def State.helWrite (s : State) (c : Nat) (data : List Byte) : State :=
  if !s.on H.PD_H123 0 then s
  else
    let fresh := decide (s.get H.HEL_T0 0 + 1000 * ms ≤ s.now) || s.get H.HEL_N 0 == 0
    let s1 := if fresh then (s.put H.HEL_T0 0 s.now).put H.HEL_N 0 0 else s
    if 10000 ≤ s1.get H.HEL_N 0 then s1.helLose
    else
      let wr := s1.helWr
      let s2 := if wr - s1.helRd = 4096 then s1.helLose else s1
      let s3 := s2.spWrite (0x20000 + wr % 4096 * 32)
        (leBytes 2 c ++ zeros 2 ++ leBytes 4 wr ++ leBytes 8 s.ts ++ sliceB data 0 16)
      (s3.spWrite 0xF800 (leBytes 8 (wr + 1))).incW H.HEL_N 0

/-- How many events wait at most (R509): while the chip has no node ID, the queue of R477 holds 16. -/
def State.eventCap (s : State) : Nat := if s.get F.FAB_NODE_NODE_ID 0 = 0 then 16 else 64

/-- An event raised (R508, R509): numbered, entered in the Hearth event log, and queued for the host;
one that finds no room displaces the oldest. -/
def State.event (s : State) (c : Nat) (data : List Byte) : State :=
  let ev : Event := ⟨c, s.get F.EVT_STAT_EVSEQ 0, s.ts, data⟩
  let s1 := (s.incW F.EVT_STAT_EVSEQ 0).helWrite c data
  if s.events.length < s.eventCap then { s1 with events := s.events ++ [ev] }
  else { s1.incSat F.EVT_LOST_COUNT 0 with events := s.events.drop 1 ++ [ev] }

/-- The power group of an engine is on (R38). -/
def State.engPowered (s : State) (k : Nat) : Bool := s.on H.PD_ENG (k / 8)

/-- A trap made pending for an engine (ENG_TMASK.PEND). -/
def State.pendTrap (s : State) (k v : Nat) : State :=
  s.put F.ENG_TMASK_PEND k (setBit (s.get F.ENG_TMASK_PEND k) v)

/-- A pending trap taken back. -/
def State.unpendTrap (s : State) (k v : Nat) : State :=
  s.put F.ENG_TMASK_PEND k (clrBit (s.get F.ENG_TMASK_PEND k) v)

/-- A trap is pending. -/
def State.trapPending (s : State) (k v : Nat) : Bool := bit (s.get F.ENG_TMASK_PEND k) v

/-- Delivery of an interrupt source to a Room engine's event queue (R592). -/
def State.irqToEngine (s : State) (k n : Nat) : State :=
  if s.engPowered k && (qGet s.evq k).length < 4 then
    ({ s with evq := qSet s.evq k (qGet s.evq k ++ [n]) }).pendTrap k 13
  else s.incSat F.IRQ_ENG_LOST_COUNT 0

/-- An interrupt source raised (R589-R593): its pending bit, and the targets its route names.  In HOLD
the interrupt controller is off (R111). -/
def State.irq (s : State) (n : Nat) (data : List Byte := []) : State :=
  if s.mode = mHOLD then s
  else
  let s1 := s.put F.IRQ_PEND_PEND (n / 32) (setBit (s.get F.IRQ_PEND_PEND (n / 32)) (n % 32))
  let s2 := if s.on F.IRQ_ROUTE_E_EN n then s1.irqToEngine (s.get F.IRQ_ROUTE_ENGINE n) n else s1
  if s.on F.IRQ_ROUTE_HOST_EN n then s2.event (0x0500 + n) data else s2

/-- Site change of state (R294): the new code, and the interrupt source of the site (R589). -/
def State.toSiteState (s : State) (i st : Nat) : State :=
  if s.siteState i = st then s else (s.put F.SITE_STATE_STATE i st).irq (64 + i)

/-- A reply leaves the chip (R492). -/
def State.reply (s : State) (r : Reply) : State := { s with replies := s.replies ++ [r] }

end Sys2Proof.Machine
end

