-- ==== Sys2Proof/Machine/Store.lean ====
section
/-!
DEFINITION. Shared operations over the stores: fault bookkeeping (R578-R586), Cellar access with its
error correction (R536-R540), scratchpad access by engines and full-address masters (R545-R550),
record streams (R304-R307), task deques (R318-R321), semaphores (R322-R324, R554-R559).
-/

namespace Sys2Proof.Machine

/-- The 32 bits of a register, reserved bits 0 (R7). -/
def State.regRaw (s : State) (r : RegName) (i : Nat) : Nat :=
  (r.fields.map (fun f => s.get f i * 2 ^ f.lo)).sum

/-! ## Faults -/

/-- The reaction field of a fault source. -/
def reactField (n : Nat) : Field :=
  match n % 4 with
  | 0 => F.FLT_REACT_REACT0
  | 1 => F.FLT_REACT_REACT1
  | 2 => F.FLT_REACT_REACT2
  | _ => F.FLT_REACT_REACT3

/-- The escalation field of a fault source. -/
def escField (n : Nat) : Field :=
  match n % 4 with
  | 0 => F.FLT_REACT_ESC0
  | 1 => F.FLT_REACT_ESC1
  | 2 => F.FLT_REACT_ESC2
  | _ => F.FLT_REACT_ESC3

/-- REACT and ESC of a source (R579). -/
def State.react (s : State) (n : Nat) : Nat := s.get (reactField n) (n / 4)
def State.esc (s : State) (n : Nat) : Nat := s.get (escField n) (n / 4)

/-- The sticky bit of a source. -/
def State.sticky (s : State) (n : Nat) : Bool := bit (s.get F.FLT_STAT_STICKY (n / 32)) (n % 32)

/-- FAULT_N is driven low (R584): a reaction is in progress, or a sticky bit of a source with REACT
NOTIFY or higher is set, or the bring-up holds it low (R81, R570). -/
def State.faultN (s : State) : Bool :=
  s.on F.FLT_SUM_BUSY 0 || s.mode == mBRINGUP || s.mode == mHOLD || s.mode == mMINIMAL
    || (List.range 117).any (fun n => s.sticky n && 2 ≤ s.react n)

/-- The 16-byte fault-log entry (R586). -/
def faultEntry (n applied unit : Nat) (site : Option Nat) (seq ts : Nat) : List Byte :=
  leBytes 1 n ++ leBytes 1 applied ++ leBytes 1 unit ++ leBytes 1 (site.getD 0xFF)
    ++ leBytes 4 seq ++ leBytes 8 ts

/-- The 16 bytes of a fault-log entry as they stand. -/
def State.faultEntryAt (s : State) (seq : Nat) : List Byte :=
  memBytes ramByte s.fltLog (seq % 64 * 16) 16

/-- A fault entry written (R586): it replaces the oldest, and FLT_LOG_WR advances. -/
def State.faultLog (s : State) (n applied unit : Nat) (site : Option Nat) : State :=
  let seq := s.get F.FLT_LOG_WR_COUNT 0
  ({ s with fltLog :=
      memSetBytes ramByte s.fltLog (seq % 64 * 16) (faultEntry n applied unit site seq s.ts) }).incW
    F.FLT_LOG_WR_COUNT 0

/-- A fault source raised, up to its NOTIFY effects (R579-R582, R586): the sticky bit; merged while
a reaction is in progress; else logged and, from NOTIFY on, a reaction in progress begins with its
escalation timer and interrupt FAULT.  The second result is the reaction applied, 0 when merged.  In HOLD the
collector is off (R111). -/
def State.faultCore (s : State) (n unit : Nat) (site tile : Option Nat) (injected : Bool) :
    State × Nat :=
  if s.mode = mHOLD then (s, 0)
  else
  let s1 := s.put F.FLT_STAT_STICKY (n / 32) (setBit (s.get F.FLT_STAT_STICKY (n / 32)) (n % 32))
  if s1.on F.FLT_SUM_BUSY 0 then (s1.incSat F.FLT_SUM_MERGED 0, 0)
  else
    let r := s1.react n
    let seq := s1.get F.FLT_LOG_WR_COUNT 0
    let s2 := if 1 ≤ r then s1.faultLog n (r + 16 * b2n injected) unit site else s1
    if 2 ≤ r then
      let s3 := ((((((s2.setB F.FLT_SUM_BUSY 0 true).put F.FLT_SUM_ACTIVE 0 n).put F.FLT_SUM_MERGED 0 0).setB
        F.FLT_SUM_ESCALATED 0 false).setDue H.FLT_END 0 (s2.now + s2.get F.FLT_TMO_MS 0 * ms)).put
        H.FLT_SEQ 0 (seq + 1)).put H.FLT_SITE 0 (site.getD 64)
      let s4 := s3.put H.FLT_TILE 0 (tile.getD 8)
      (s4.irq 173 (s4.faultEntryAt seq), r)
    else (s2, r)

/-! ## The Cellar -/

/-- Cellar classes in the order of R41, and 5 for the scrubber. -/
def clsPattern : Nat := 0
def clsAcq : Nat := 1
def clsTime : Nat := 2
def clsHost : Nat := 3
def clsHearth : Nat := 4
def clsScrub : Nat := 5

/-- An uncorrectable error of a block recorded (R538). -/
def State.celUncorr (s : State) (cls block : Nat) : State :=
  let a := 0x8000000000 + block * 64
  let s1 := s.incSat F.CEL_ECC_UNCORR_COUNT 0
  let s2 := (s1.put F.CEL_ECC_ADDR_LO_ADDR_LO 0 (bits a 6 26)).put F.CEL_ECC_ADDR_HI_ADDR_HI 0 (a / 2 ^ 32)
  ((s2.put F.CEL_ECC_ADDR_HI_CLASS 0 cls).faultCore 114 cls none none false).1

/-- A single-bit error of a block corrected and written back (R538). -/
def State.celCorr (s : State) (block : Nat) : State :=
  ({ s with celErr := delKey block s.celErr }.incSat F.CEL_ECC_CORR_COUNT 0).irq 187

/-- A block read through the code: its errors counted; false where it gives no data (R538). -/
def State.celBlock (s : State) (cls block : Nat) : State × Bool :=
  match lookKey block s.celErr with
  | none => (s, true)
  | some e => if e = 1 then (s.celCorr block, true) else (s.celUncorr cls block, false)

/-- Blocks read in turn: true when every one gives data. -/
def State.celBlocksOk (s : State) (cls : Nat) : List Nat → State × Bool
  | [] => (s, true)
  | b :: bs =>
    let r := s.celBlock cls b
    let t := r.1.celBlocksOk cls bs
    (t.1, r.2 && t.2)

/-- A Cellar read by a class (R536, R538): none where the address is not backed or a block gives no
data. -/
def State.celRead (s : State) (cls o n : Nat) : State × Option (List Byte) :=
  if s.celBacked o n then
    let r := (s.celCount cls n).celBlocksOk cls (celBlocks o n)
    (r.1, if r.2 then some (s.celRaw o n) else none)
  else (s, none)

/-- A write covers a whole block. -/
def coversBlock (o n b : Nat) : Bool := o ≤ b * 64 && b * 64 + 64 ≤ o + n

/-- Blocks that a write only partly covers and that hold an uncorrectable error (R539). -/
def State.celStuck (s : State) (o n : Nat) : List Nat :=
  (celBlocks o n).filter (fun b => !coversBlock o n b && decide (lookKey b s.celErr = some 2))

/-- A Cellar write by a class (R536, R539): false where it completes with an error response.  Whole
blocks get a fresh code; a partial write reads its block first. -/
def State.celStore (s : State) (cls o : Nat) (l : List Byte) : State × Bool :=
  if s.celBacked o l.length then
    match s.celStuck o l.length with
    | b :: _ => (s.celUncorr cls b, false)
    | [] =>
      let bs := celBlocks o l.length
      let s1 := (s.celCount cls l.length).each
        (bs.filter (fun b => !coversBlock o l.length b && decide (lookKey b s.celErr = some 1)))
        (fun t b => t.celCorr b)
      let s2 := { s1 with celErr := s1.celErr.filter (fun p => !bs.contains p.1) }
      (s2.celWrite o l, true)
  else (s, false)

/-- A Cellar write whose answer does not matter to the writer. -/
def State.celPut (s : State) (cls o : Nat) (l : List Byte) : State := (s.celStore cls o l).1

/-! ## The secure region -/

/-- The secure region wiped at once (R551): every byte 0. -/
def State.wipeNow (s : State) : State :=
  let s1 := { s with scratch := memClear s.scratch 0x1F0000 0x10000 }
  ((s1.setB F.SPD_STAT_WIPED 0 true).setB F.SPD_STAT_WIPING 0 false).incSat F.SPD_WIPES_COUNT 0

/-- A wipe begun, which ends within 4 µs (R551). -/
def State.wipeStart (s : State) : State :=
  let s1 := { s with scratch := memClear s.scratch 0x1F0000 0x10000 }
  (s1.setB F.SPD_STAT_WIPING 0 true).setDue H.WIPE_END 0 (s1.now + 4 * us)

/-! ## Flash operations -/

/-- A flash operation done whole (R502). -/
def State.flashAct (s : State) (o : FlashOp) : State := if o.write then s.flProgram o.off o.data else s.flErase o.off o.len

/-- A flash operation cut short: how far it has come is a free value. -/
def State.flashPart (s : State) (o : FlashOp) : State :=
  let d := s.draw
  if o.write then d.2.flProgram o.off (o.data.take (d.1 % (o.data.length + 1)))
  else d.2.flErase o.off (d.1 % (o.len / 0x1000 + 1) * 0x1000)

/-- Flash operations cut short by a reset: the one in progress, while those that wait never begin. -/
def State.flashCut (s : State) : State :=
  match s.flashOps with
  | [] => s
  | o :: _ => State.flashPart { s with flashOps := [] } o

/-! ## Fuses -/

/-- A fuse word (R78, R595): blocks 0 to 103 hold the factory's trims, the security blocks are blank
until they are programmed. -/
def State.fuse (s : State) (w : Nat) : Nat :=
  (lookKey w s.fuses).getD (if w < 104 * 32 then Config.fuseWord w % 2 ^ 32 else 0)

/-- A fuse word programmed: bits set, none cleared. -/
def State.fuseOr (s : State) (w v : Nat) : State :=
  { s with fuses := insKey w (s.fuse w ||| (v % 2 ^ 32)) s.fuses }

/-- The check word of 31 words (R78). -/
def fuseCheck (l : List Nat) : Nat := crc32c ((l.take 31).map (leBytes 4)).flatten

/-- The words of the record being programmed. -/
def State.progWords (s : State) : List Nat :=
  let l := leBytes 48 (s.get H.SEC_PROG_D 0)
  (List.range 12).map (fun j => fieldB l (4 * j) 4) ++ List.replicate 19 0

/-- Fuse programming cut short by a reset (R598): the words of the record for which 20 µs each have passed are
programmed, and what the word in progress holds is a free value within its bits. -/
def State.fuseCut (s : State) : State :=
  match s.due H.SEC_PROG_END 0 with
  | none => s
  | some t =>
    let n := (s.now + 640 * us - t) / (20 * us)
    let b := s.get H.SEC_PROG_BLK 0
    let d := s.draw
    d.2.each (s.progWords ++ [fuseCheck s.progWords]).zipIdx (fun u p =>
      if p.2 < n then u.fuseOr (32 * b + p.2) p.1 else if p.2 = n then u.fuseOr (32 * b + n) (p.1 &&& d.1) else u)

/-! ## Record streams -/

/-- Offset in the Cellar window of a Cellar local address. -/
def celOff (a : Nat) : Nat := a - 0x8000000000

/-- Header fields of a site's record area (R304). -/
def State.recWr (s : State) (e : SiteEntry) : Nat := ofLe (s.celRaw (celOff e.recBase) 8)
def State.recRd (s : State) (e : SiteEntry) : Nat := ofLe (s.celRaw (celOff e.recBase + 8) 8)
def State.recOpen (s : State) (e : SiteEntry) : Nat := ofLe (s.celRaw (celOff e.recBase + 0x10) 8)
def State.recRun (s : State) (e : SiteEntry) : Nat := ofLe (s.celRaw (celOff e.recBase + 0x18) 2)
def State.recLost (s : State) (e : SiteEntry) : Nat := ofLe (s.celRaw (celOff e.recBase + 0x1C) 4)

/-- A header field written. -/
def State.recHdr (s : State) (e : SiteEntry) (off n v : Nat) : State :=
  s.celPut clsHearth (celOff e.recBase + off) (leBytes n v)

/-- Bytes free in a site's record area (R306). -/
def State.recFree (s : State) (e : SiteEntry) : Nat := e.recSize - (s.recWr e - s.recRd e)

/-- The PAD that a record of n bytes needs at the present position (R305). -/
def State.recPad (s : State) (e : SiteEntry) (n : Nat) : Nat :=
  let pos := s.recWr e % e.recSize
  if e.recSize < pos + n then e.recSize - pos else 0

/-- A record fits (R306). -/
def State.recFits (s : State) (e : SiteEntry) (n : Nat) : Bool :=
  s.recPad e n + n + 128 ≤ s.recFree e

/-- A record written with its PAD, and WR moved over it (R304, R305). -/
def State.recWrite (s : State) (site : Nat) (e : SiteEntry) (l : List Byte) : State :=
  let wr := s.recWr e
  let pad := s.recPad e l.length
  let data := celOff e.recBase + 0x1000
  let s1 := if pad = 0 then s else s.celPut clsHearth (data + wr % e.recSize) [0]
  let s2 := s1.celPut clsHearth (data + (wr + pad) % e.recSize) l
  let s3 := s2.recHdr e 0 8 (wr + pad + l.length)
  s3.put2 F.SITE_REC_WR_LO_WR_LO F.SITE_REC_WR_HI_WR_HI site (wr + pad + l.length)

/-- A record other than RESULT appended, or dropped and counted when it does not fit (R306). -/
def State.recAppend (s : State) (site : Nat) (l : List Byte) : State :=
  match s.entryOf site with
  | none => s
  | some e =>
    if s.recFits e l.length then s.recWrite site e l
    else
      let lost := satAt 32 (s.recLost e + 1)
      ((s.recHdr e 0x1C 4 lost).put F.SITE_REC_LOST_LOST site lost).setB H.ST_REC_LOST site true

/-- A RESULT record appended: always written (R306). -/
def State.recResult (s : State) (site : Nat) (l : List Byte) : State :=
  match s.entryOf site with
  | none => s
  | some e => s.recWrite site e l

/-! ## Task deques -/

/-- Control words of the deque of an engine (R318). -/
def dqTopA (k : Nat) : Nat := 0x48000 + k * 16
def dqBotA (k : Nat) : Nat := 0x48004 + k * 16
def dqDoneA (k : Nat) : Nat := 0x48008 + k * 16
/-- Place of entry n of a deque. -/
def dqEntryA (k n : Nat) : Nat := 0x48400 + k * 0x200 + n % 32 * 16

/-- Tasks queued in a deque. -/
def State.dqLen (s : State) (k : Nat) : Nat :=
  (s.spWord (dqBotA k) + 2 ^ 32 - s.spWord (dqTopA k)) % 2 ^ 32

/-- The descriptor at a place of a deque: 16 bytes. -/
def State.dqAt (s : State) (k n : Nat) : List Byte := s.spRead (dqEntryA k n) 16

/-- A push at the bottom (R318, R321): false when the deque is full, which is counted. -/
def State.dqPush (s : State) (k : Nat) (d : List Byte) : State × Bool :=
  if s.dqLen k = 32 then (s.incSat F.STL_FULL_COUNT 0, false)
  else
    let b := s.spWord (dqBotA k)
    ((s.spWrite (dqEntryA k b) d).spPut (dqBotA k) ((b + 1) % 2 ^ 32), true)

/-- The bottom task popped by its owner. -/
def State.dqPop (s : State) (k : Nat) : Option (State × List Byte) :=
  if s.dqLen k = 0 then none
  else
    let b := (s.spWord (dqBotA k) + 2 ^ 32 - 1) % 2 ^ 32
    some (s.spPut (dqBotA k) b, s.dqAt k b)

/-- The oldest task taken from the top. -/
def State.dqTake (s : State) (k : Nat) : Option (State × List Byte) :=
  if s.dqLen k = 0 then none
  else
    let t := s.spWord (dqTopA k)
    some (s.spPut (dqTopA k) ((t + 1) % 2 ^ 32), s.dqAt k t)

/-- DONE of a deque advances (R321). -/
def State.dqDone (s : State) (k : Nat) : State :=
  s.spPut (dqDoneA k) ((s.spWord (dqDoneA k) + 1) % 2 ^ 32)

/-- Every deque emptied (R318). -/
def State.dqClearAll (s : State) : State :=
  s.each (List.range 64) (fun t k => ((t.spPut (dqTopA k) 0).spPut (dqBotA k) 0).spPut (dqDoneA k) 0)

/-- The site of a task descriptor (R319). -/
def taskSite (d : List Byte) : Nat := bits (ofLe (d.take 4)) 8 6
/-- RUN of a task descriptor. -/
def taskRun (d : List Byte) : Nat := bits (ofLe (d.take 4)) 16 16
/-- TYPE of a task descriptor. -/
def taskType (d : List Byte) : Nat := bits (ofLe (d.take 4)) 0 8
/-- ARG0, ARG1 and ARG2. -/
def taskArg (d : List Byte) (n : Nat) : Nat := fieldB d (4 + 4 * n) 4

/-- A descriptor (R319). -/
def mkTask (typ site run a0 a1 a2 : Nat) : List Byte :=
  leBytes 4 (typ % 256 + site % 64 * 256 + run % 65536 * 65536) ++ leBytes 4 a0 ++ leBytes 4 a1 ++ leBytes 4 a2

/-- The descriptors queued in a deque, oldest first. -/
def State.dqTasks (s : State) (k : Nat) : List (List Byte) :=
  (List.range (s.dqLen k)).map (fun j => s.dqAt k ((s.spWord (dqTopA k) + j) % 2 ^ 32))

/-- Tasks of a site that wait in any deque. -/
def State.siteQueued (s : State) (site : Nat) : Nat :=
  ((List.range 64).map (fun k => ((s.dqTasks k).filter (fun d => taskSite d == site)).length)).sum

/-- Tasks of a site that engines hold (SITE_TASKS.HELD). -/
def State.siteHeld (s : State) (site : Nat) : Nat :=
  ((List.range 64).filter (fun k => s.on F.ENG_STAT_TASK_HELD k && s.get H.ENG_TASK_SITE k == site)).length

/-- The queued tasks of a site dropped from every deque (R300). -/
def State.dqDropSite (s : State) (site : Nat) : State :=
  s.each (List.range 64) (fun t k =>
    let keep := (t.dqTasks k).filter (fun d => taskSite d != site)
    let top := t.spWord (dqTopA k)
    let t1 := t.each keep.zipIdx (fun u p => u.spWrite (dqEntryA k (top + p.2)) p.1)
    t1.spPut (dqBotA k) ((top + keep.length) % 2 ^ 32))

/-! ## Semaphores -/

/-- The arbitration ID of a master (R322). -/
def masterId : Master → Nat
  | .engine k => k.val
  | .hearth c => 0x40 + c.val
  | .steal => 0x44
  | .fabric => 0x45
  | .tap => 0x46
  | .security => 0x47

/-- The semaphore is held. -/
def State.semHeld (s : State) (n : Nat) : Bool := s.on F.SEM_PEEK_HELD n

/-- What a read of a held semaphore returns (R323). -/
def State.semBusyWord (s : State) (n : Nat) : Nat := 0x80000000 + s.get F.SEM_PEEK_OWNER n

/-- A semaphore freed. -/
def State.semFree (s : State) (n : Nat) : State :=
  (s.setB F.SEM_PEEK_HELD n false).put F.SEM_PEEK_OWNER n 0

/-- A semaphore acquired by an ID. -/
def State.semTake (s : State) (n id : Nat) : State :=
  (s.setB F.SEM_PEEK_HELD n true).put F.SEM_PEEK_OWNER n id

/-- The winner among IDs: the first at or after the rotation pointer, wrapping from 0x46 (R323). -/
def semWinner (ptr : Nat) (ids : List Nat) : Option Nat :=
  match (List.range 71).find? (fun j => ids.contains ((ptr + j) % 71)) with
  | none => none
  | some j => some ((ptr + j) % 71)

/-- Reads of one semaphore on one HEARTH cycle (R323): what each reader receives, in order. -/
def State.semRead (s : State) (n : Nat) (ids : List Nat) : State × List Nat :=
  if s.semHeld n then (s, ids.map (fun _ => s.semBusyWord n))
  else
    match semWinner (s.get F.SEM_PEEK_PTR n) ids with
    | none => (s, ids.map (fun _ => 0))
    | some w =>
      let s1 := s.semTake n w
      let s2 := if ids.length ≤ 1 then s1
        else (s1.put F.SEM_PEEK_PTR n ((w + 1) % 71)).incSat F.SEM_CONTEST_COUNT 0
      (s2, ids.map (fun id => if id = w then 0 else 0x80000000 + w))

/-- A semaphore that the steal unit keeps to itself (R27, R559). -/
def State.semReserved (s : State) (n : Nat) : Bool := 56 ≤ n && s.on F.STL_CTRL_EN 0

/-- A release by an ID (R555): true when it takes effect. -/
def State.semRelease (s : State) (n id : Nat) : State × Bool :=
  if s.semHeld n && s.get F.SEM_PEEK_OWNER n == id then (s.semFree n, true) else (s, false)

/-- Every semaphore of an owner freed (R324). -/
def State.semFreeAll (s : State) (id : Nat) : State :=
  s.each (List.range 64) (fun t n => if t.semHeld n && t.get F.SEM_PEEK_OWNER n == id then t.semFree n else t)

end Sys2Proof.Machine
end

