-- ==== Sys2Proof/Machine/Outputs.lean ====
section
/-!
DEFINITION. The outputs of the device and how they go on and off: pin channels and their PMUs
(R130-R156), DPS (R325-R343), SMUs (R344-R356), and the safe sequences of R74.
-/

namespace Sys2Proof.Machine

/-- A write that takes effect. -/
def State.ok (s : State) : State × Resp := (s, .done)
/-- A write that completes with an error response and has no effect (R7). -/
def State.bad (s : State) : State × Resp := (s, .error)

/-- The register domain of a tile is on (R38, R566). -/
def State.tileOn (s : State) (t : Nat) : Bool := s.on H.PD_TILE t

/-- The site plays vectors (R136): from the first vector boundary of its chain to the boundary at
which it stops, stall vectors included. -/
def State.plays (s : State) (site : Nat) : Bool := s.on H.SQ_PLAYING site && !s.on H.SQ_NEWCHAIN site

/-- A write put in the line of a site for its next vector boundary. -/
def State.pend (s : State) (site : Nat) (w : PendWrite) : State :=
  { s with pendW := qSet s.pendW site (qGet s.pendW site ++ [w]) }

/-- The mean of n samples whose exact sum is given: where the sum does not divide, the spec does not
say how it is rounded, and a free value decides. -/
def State.mean (s : State) (sum : Int) (n : Nat) : Int × State :=
  if sum % (n : Int) = 0 then (sum / (n : Int), s)
  else
    let d := s.draw
    (sum / (n : Int) + (d.1 % 2 : Nat), d.2)

/-- Units of SETTLE, MEASURE and READ in one numbering: DPS, SMUs from 64, channels from 128. -/
def unitDps (d : Nat) : Nat := d
def unitSmu (u : Nat) : Nat := 64 + u
def unitChan (c : Nat) : Nat := 128 + c

/-! ## Sensors -/

/-- Some sensor of a list reads below 0 °C or above 105 °C, or is broken (R331, R569). -/
def State.thermalOut (s : State) (l : List Nat) : Bool :=
  l.any (fun n => s.on F.THM_TEMP_BROKEN n || decide (s.getI F.THM_TEMP_READING n < 0)
    || decide (420 < s.getI F.THM_TEMP_READING n))

/-- The sensors of a tile (R560). -/
def tileSensors (t : Nat) : List Nat := [8 + 4 * t, 9 + 4 * t, 10 + 4 * t, 11 + 4 * t]

/-- The sensors of the core die (R560). -/
def coreSensors : List Nat := [0, 1, 2, 3, 4, 5, 6, 7]

/-! ## Monitor latches -/

/-- A monitor's latch is set. -/
def State.latched (s : State) (i : Nat) : Bool := s.on F.MON_STAT_LATCH i

/-- A latch that pulled the trip path (R368). -/
def State.tripLatched (s : State) (i : Nat) : Bool := s.latched i && s.on F.MON_CTRL_TRIP_EN i

/-- Register indices of all monitors. -/
def allMons : List Nat := List.range 160

/-- Some monitor that watches a unit of a site has tripped and is not cleared (R156, R250). -/
def State.siteTripped (s : State) (site : Nat) : Bool :=
  match s.entryOf site with
  | none => false
  | some e => e.mons.any s.tripLatched

/-- A channel's trip has not been cleared at its monitor. -/
def State.chTripHeld (s : State) (ch : Nat) : Bool :=
  s.on F.CH_STAT_TRIPPED ch && (match s.chSite ch with | none => false | some i => s.siteTripped i)

/-! ## Pin channels -/

/-- The channel is the odd member of an active pair (R153). -/
def State.pairedOdd (s : State) (ch : Nat) : Bool := ch % 2 == 1 && s.on F.CH_CTRL_PAIR (ch - 1)

/-- The channel belongs to an active pair. -/
def State.paired (s : State) (ch : Nat) : Bool := s.on F.CH_CTRL_PAIR (ch - ch % 2)

/-- A PMU force is connected (R131, R148). -/
def State.pmuForcing (s : State) (ch : Nat) : Bool :=
  s.on H.CH_PMU_ON ch && decide (1 ≤ s.get F.PMU_CTRL_MODE ch) && decide (s.get F.PMU_CTRL_MODE ch ≤ 3)

/-- Driver off and termination of the COMPARE mode disconnected. -/
def State.drvOff (s : State) (ch : Nat) : State :=
  (s.setB H.CH_DRV_ON ch false).setB H.CH_TERM_ON ch false

/-- The channel in the safe state (R62): DRV_EN and CONNECT clear, and every part disconnected. -/
def State.chSafe (s : State) (ch : Nat) : State :=
  (((((s.setB F.CH_CTRL_DRV_EN ch false).setB F.PMU_CTRL_CONNECT ch false).drvOff ch).setB
    H.CH_PMU_ON ch false).noDue H.CH_PMU_SW_END ch)

/-- A trip reaches the channel (R156). -/
def State.chTrip (s : State) (ch : Nat) : State :=
  ((s.chSafe ch).setB F.CH_STAT_TRIPPED ch true).setB F.CH_STAT_TRIP_SEEN ch true

/-- The channel is in the safe state (CH_STAT.SAFE). -/
def State.chIsSafe (s : State) (ch : Nat) : Bool :=
  s.pairedOdd ch || (!s.on F.CH_CTRL_DRV_EN ch && !s.on H.CH_PMU_ON ch)

/-- The active level settles (R136). -/
def State.settling (s : State) (ch : Nat) : Bool :=
  match s.due H.CH_SETTLE_END ch with
  | none => false
  | some t => decide (s.now < t)

/-- Compares of the channel are masked (R143). -/
def State.cmpMasked (s : State) (ch : Nat) : Bool :=
  s.on F.CH_CTRL_MASK ch || s.on H.CH_CMASK ch || s.settling ch
    || (match s.due H.CH_BANK_END ch with | none => false | some t => decide (s.now < t))
    || s.pmuForcing (ch - (if s.pairedOdd ch then 1 else 0)) || s.on F.CH_STAT_TRIPPED ch
    || s.on H.CH_CAL_OWNED ch

/-- A bank switch takes effect (R137): 10 ns of masking, or until the new bank has settled. -/
def State.bankNow (s : State) (ch v : Nat) : State :=
  if s.get H.CH_BANK_NOW ch = v % 2 then s
  else
    let a := s.get H.CH_SETTLE_END ch
    let b := s.get H.CH_SETTLE_END1 ch
    (((s.put H.CH_BANK_NOW ch v).put H.CH_SETTLE_END ch b).put H.CH_SETTLE_END1 ch a).setDue
      H.CH_BANK_END ch (s.now + 10 * ns)

/-- A write of a bank, at the next boundary while the site plays vectors and at once otherwise. -/
def State.bankSet (s : State) (ch v : Nat) : State :=
  let s1 := s.put F.CH_CTRL_BANK ch v
  match s.chSite ch with
  | none => s1.bankNow ch v
  | some i => if s.plays i then s1.pend i (.bank ch v) else s1.bankNow ch v

/-- The register fields of the ten levels of a channel, bank 0 first (VIH, VIL, VOH, VOL, VT). -/
def levelField (lvl : Nat) : Field :=
  match lvl with
  | 0 => F.CH_VIH0_VALUE
  | 1 => F.CH_VIL0_VALUE
  | 2 => F.CH_VOH0_VALUE
  | 3 => F.CH_VOL0_VALUE
  | 4 => F.CH_VT0_VALUE
  | 5 => F.CH_VIH1_VALUE
  | 6 => F.CH_VIL1_VALUE
  | 7 => F.CH_VOH1_VALUE
  | 8 => F.CH_VOL1_VALUE
  | _ => F.CH_VT1_VALUE

/-- The limits of a level in codes of 250 µV (R133). -/
def levelLimits (pair : Bool) (lvl : Nat) : Int × Int :=
  match lvl % 5, pair with
  | 0, false => (-6000, 26000)
  | 1, false => (-6000, 26000)
  | 2, false => (-8000, 28000)
  | 3, false => (-8000, 28000)
  | _, false => (-6000, 20000)
  | 0, true => (-2000, 13200)
  | 1, true => (-2000, 13200)
  | 2, true => (-4000, 16000)
  | 3, true => (-4000, 16000)
  | _, true => (-2000, 13200)

/-- The level of a bank begins to settle (R136). -/
def State.levelNow (s : State) (ch lvl : Nat) : State :=
  if lvl / 5 = s.get H.CH_BANK_NOW ch then s.setDue H.CH_SETTLE_END ch (s.now + 2 * us)
  else s.setDue H.CH_SETTLE_END1 ch (s.now + 2 * us)

/-- A level written (R133, R136): stored at its nearest limit, in effect at the next vector boundary
when the level is of the active bank and the site plays vectors, else at once. -/
def State.levelSet (s : State) (ch lvl v : Nat) : State :=
  let lim := levelLimits (s.paired ch) lvl
  let x := sext 16 v
  let y := clampI lim.1 lim.2 x
  let s1 := s.putI (levelField lvl) ch y
  let s2 := if x = y then s1 else s1.setB F.CH_STAT_LVL_CLAMP ch true
  match s.chSite ch with
  | none => s2.levelNow ch lvl
  | some i =>
    if s.plays i && lvl / 5 == s.get H.CH_BANK_NOW ch then s2.pend i (.level ch lvl)
    else s2.levelNow ch lvl

/-- DRV_EN written (R132): a rise arms the driver, a fall disconnects driver, termination and
keeper. -/
def State.drvEnSet (s : State) (ch : Nat) (b : Bool) : State :=
  if b then
    if s.on F.CH_CTRL_DRV_EN ch then s.setB F.CH_STAT_TRIPPED ch false
    else
      (((s.setB F.CH_CTRL_DRV_EN ch true).drvOff ch).setB H.CH_DRV_LVL ch false).setB F.CH_STAT_TRIPPED ch false
  else (s.setB F.CH_CTRL_DRV_EN ch false).drvOff ch

/-- PAIR of an even channel may change (R154): both channels of one site or of none, and that site
UNBOUND, IDLE or ENDED. -/
def State.pairOk (s : State) (ch : Nat) : Bool :=
  match s.chSite ch, s.chSite (ch + 1) with
  | none, none => true
  | some i, some j => i == j && (s.siteState i == sUNBOUND || s.siteState i == sIDLE || s.siteState i == sENDED)
  | _, _ => false

/-- A write of CH_CTRL (R132, R137, R145, R146, R154, R156). -/
def State.writeChCtrl (s : State) (ch v : Nat) : State × Resp :=
  let pairNew := bit v 6
  if bit v 0 && s.chTripHeld ch then s.bad
  else if ch % 2 == 0 && pairNew != s.on F.CH_CTRL_PAIR ch && !s.pairOk ch then s.bad
  else
    let s1 := if ch % 2 == 0 then s.setB F.CH_CTRL_PAIR ch pairNew else s
    let s2 := (s1.drvEnSet ch (bit v 0)).put F.CH_CTRL_TERM_MODE ch (bits v 1 2)
    let s3 := (s2.put F.CH_CTRL_KEEP_MODE ch (bits v 3 2)).setB F.CH_CTRL_CMP_MODE ch (bit v 5)
    let s4 := s3.setB F.CH_CTRL_MASK ch (bit v 8)
    let s5 := if pairNew && ch % 2 == 0 then s4.chSafe (ch + 1) else s4
    (if bits v 7 1 = s.get F.CH_CTRL_BANK ch then s5 else s5.bankSet ch (bits v 7 1)).ok

/-! ## The per-pin PMU -/

/-- The PMU is to be connected: CONNECT 1 and a mode (R130). -/
def State.pmuWanted (s : State) (ch : Nat) : Bool :=
  s.on F.PMU_CTRL_CONNECT ch && s.get F.PMU_CTRL_MODE ch != 0

/-- The PMU switch follows CONNECT and MODE in 5 µs (R150). -/
def State.pmuMove (s : State) (ch : Nat) (was : Bool) : State :=
  if s.pmuWanted ch = was then s
  else if s.pmuWanted ch = s.on H.CH_PMU_ON ch then s.noDue H.CH_PMU_SW_END ch
  else s.setDue H.CH_PMU_SW_END ch (s.now + 5 * us)

/-- A forcing PMU displaces driver, termination and keeper (R131). -/
def State.pmuDisplace (s : State) (ch : Nat) : State := if s.pmuForcing ch then s.drvOff ch else s

/-- The PMU switch has moved (R150). -/
def State.pmuMoved (s : State) (ch : Nat) : State :=
  ((s.setB H.CH_PMU_ON ch (s.pmuWanted ch)).noDue H.CH_PMU_SW_END ch).pmuDisplace ch

/-- A measurement starts (R152), or waits for the range change to end (R151). -/
def State.pmuStart (s : State) (ch : Nat) : State :=
  if s.on F.PMU_CTRL_BUSY ch then s
  else
    let s1 := (s.setB F.PMU_CTRL_BUSY ch true).setB F.PMU_RESULT_VALID ch false
    if s1.on F.PMU_CTRL_RANGING ch then s1.setB H.CH_PMU_MEAS_WAIT ch true
    else s1.setDue H.CH_PMU_MEAS_END ch (s1.now + 2 ^ s1.get F.PMU_CTRL_AVG ch * (2 * us))

/-- PMU_CTRL bits [11:0] written (R148, R149, R150, R151). -/
def State.pmuConfig (s : State) (ch v : Nat) : State :=
  let was := s.pmuWanted ch
  let mode := if bits v 0 3 ≤ 4 then bits v 0 3 else 0
  let range := if bits v 4 3 ≤ 4 then bits v 4 3 else 4
  let s1 := (s.put F.PMU_CTRL_MODE ch mode).put F.PMU_CTRL_AVG ch (bits v 9 3)
  let s2 := if bit v 8 then (s1.setB F.PMU_CTRL_CONNECT ch true).setB F.CH_STAT_TRIPPED ch false
    else s1.setB F.PMU_CTRL_CONNECT ch false
  let s3 := if range = s.get F.PMU_CTRL_RANGE ch then s2
    else (((s2.put H.CH_PMU_OLD_RANGE ch (s.get F.PMU_CTRL_RANGE ch)).put F.PMU_CTRL_RANGE ch range).setB
      F.PMU_CTRL_RANGING ch true).setDue H.CH_PMU_RNG_END ch (s.now + 10 * us)
  (s3.pmuMove ch was).pmuDisplace ch

/-- A write of CONNECT 1 that is not allowed: a trip not cleared (R156), or the odd channel of a
pair (R155). -/
def State.pmuBarred (s : State) (ch v : Nat) : Bool := bit v 8 && (s.chTripHeld ch || s.pairedOdd ch)

/-- A write of PMU_CTRL. -/
def State.writePmuCtrl (s : State) (ch v : Nat) : State × Resp :=
  if s.pmuBarred ch v then s.bad
  else
    let s1 := s.pmuConfig ch v
    (if bit v 12 then s1.pmuStart ch else s1).ok

/-- A write of PMU_FORCE (R149): a force voltage is limited, a force current is not. -/
def State.pmuForceSet (s : State) (ch v : Nat) : State :=
  let m := s.get F.PMU_CTRL_MODE ch
  let x := sext 16 v
  let y := if m = 1 ∨ m = 3 then clampI (-8000) 26000 x else x
  let s1 := s.putI F.PMU_FORCE_VALUE ch y
  if x = y then s1 else s1.setB F.CH_STAT_LVL_CLAMP ch true

/-- A write of PMU_VCLAMP (R149). -/
def State.pmuVclampSet (s : State) (ch v : Nat) : State :=
  let hi := clampI (-8000) 26000 (sext 16 v)
  let lo0 := clampI (-8000) 26000 (sext 16 (v / 65536))
  let lo := if hi < lo0 then hi else lo0
  let s1 := (s.putI F.PMU_VCLAMP_VCL_HI ch hi).putI F.PMU_VCLAMP_VCL_LO ch lo
  if hi = sext 16 v ∧ lo = sext 16 (v / 65536) then s1 else s1.setB F.CH_STAT_LVL_CLAMP ch true

/-- A PMU measurement completes with a mean (R152). -/
def State.pmuDone (s : State) (ch : Nat) (m : Int) (clamped beyond : Bool) : State :=
  let s1 := ((s.setB F.PMU_CTRL_BUSY ch false).noDue H.CH_PMU_MEAS_END ch).setB F.PMU_RESULT_VALID ch true
  if s.on H.CH_CAL_OWNED ch then s1.setB F.PMU_RESULT_STALE ch true
  else
    let s3 := (s1.putI F.PMU_RESULT_VALUE ch (clampI (-32768) 32767 m)).setB F.PMU_RESULT_CLAMPED ch clamped
    let s4 := (s3.setB F.PMU_RESULT_OVER ch beyond).setB F.PMU_RESULT_STALE ch false
    if clamped then s4.setB F.CH_STAT_PMU_CLAMP ch true else s4

/-! ## DPS -/

/-- The tile of a DPS, an SMU, a channel, a TDC. -/
def dpsTile (d : Nat) : Nat := d / 8
def smuTile (u : Nat) : Nat := u / 4
def chTile (ch : Nat) : Nat := ch / 64
def tdcTile (j : Nat) : Nat := j / 16

/-- The ramp point of a stage at a moment (R333, R334): it moves from where it stood toward VSET at
10 V/µs / 2^SLEW, one code in 75 x 2^SLEW ticks, while the stage is on and the ramp is not held. -/
def State.rampAt (s : State) (d t : Nat) : Int :=
  let p := s.getI H.DPS_POINT d
  let v := s.getI F.DPS_VSET_VALUE d
  if !s.on F.DPS_STAT_ON d || s.on H.DPS_HELD d then p
  else
    let n : Int := ((t - s.get H.DPS_PT_T d) / (75 * 2 ^ s.get F.DPS_CTRL_SLEW d) : Nat)
    if p ≤ v then (if v ≤ p + n then v else p + n) else (if p - n ≤ v then v else p - n)

/-- The ramp point now (DPS_OUT); a gang member regulates to its lead's (R338). -/
def State.dpsPoint (s : State) (d : Nat) : Int := s.rampAt (s.leadOf d) s.now

/-- The ramp point made to stand at where it is now. -/
def State.dpsFreeze (s : State) (d : Nat) : State :=
  (s.putI H.DPS_POINT d (s.rampAt d s.now)).put H.DPS_PT_T d (max s.now (s.get H.DPS_PT_T d))

/-- The ramp runs: the stage is on and its point is short of VSET. -/
def State.ramping (s : State) (d : Nat) : Bool :=
  s.on F.DPS_STAT_ON d && decide (s.rampAt (s.leadOf d) s.now ≠ s.getI F.DPS_VSET_VALUE (s.leadOf d))

/-- One stage off with its discharge connected (R337). -/
def State.dpsStageOff (s : State) (d : Nat) : State :=
  let s1 := ((s.dpsFreeze d).setB F.DPS_CTRL_EN d false).setB F.DPS_STAT_ON d false
  let s2 := ((s1.setB F.DPS_STAT_SETTLED d false).setB F.DPS_STAT_IN_LIMIT d false).setB H.DPS_HELD d false
  s2.setB H.DPS_DISCH d true

/-- Every stage of the gang of a DPS off. -/
def State.dpsGangOff (s : State) (d : Nat) : State := s.each (s.gangOf d) State.dpsStageOff

/-- A trip reaches a DPS (R343): every stage of its gang. -/
def State.dpsTrip (s : State) (d : Nat) : State :=
  s.each (s.gangOf d) (fun t m =>
    ((t.dpsStageOff m).setB F.DPS_STAT_TRIPPED m true).setB F.DPS_STAT_TRIP_SEEN m true)

/-- Why an enable is refused (R258 codes): 1 THERMAL_RANGE, 2 TRIPPED, 4 STATE; 0 accepted (R331,
R339, R377). -/
def State.dpsEnRefusal (s : State) (d : Nat) : Nat :=
  if !s.tileOn (dpsTile d) then 4
  else if s.thermalOut (tileSensors (dpsTile d)) then 1
  else if (s.gangOf d).any (fun m => (dpsMons m).any s.latched) then 2
  else if (s.gangOf d).any (fun m => s.on H.DPS_CAL_OWNED m) then 4
  else if !s.on F.DPS_CTRL_LEAD d then 4
  else if (s.gangOf d).any (fun m => (dpsMons m).any (fun i => s.get F.MON_CTRL_SELFCHK i != 0)) then 4
  else 0

/-- An accepted enable (R332): the discharge opens, and the ramp point starts, 2 µs on, at the
voltage then measured. -/
def State.dpsOn (s : State) (d : Nat) : State :=
  s.each (s.gangOf d) (fun t m =>
    let t1 := ((t.setB F.DPS_CTRL_EN m true).setB F.DPS_STAT_ON m true).setB H.DPS_DISCH m false
    let t2 := (t1.put H.DPS_POINT m (t.get F.DPS_MON_V_VALUE m)).put H.DPS_PT_T m (t.now + 2 * us)
    ((t2.setB H.DPS_HELD m false).setB F.DPS_STAT_SETTLED m false).setB F.DPS_STAT_TRIPPED m false)

/-- The voltage limits of a DPS (R326), in codes. -/
def dpsVClamp (x : Int) : Int := clampI (-2000) 28000 x

/-- VSET written (R334): the ramp turns toward it from where it stands. -/
def State.dpsVsetSet (s : State) (d v : Nat) : State :=
  let x := sext 16 v
  let y := dpsVClamp x
  let s1 := ((s.dpsFreeze d).putI F.DPS_VSET_VALUE d y).setB F.DPS_STAT_SETTLED d false
  if x = y then s1 else s1.setB F.DPS_STAT_CLAMP d true

/-- SLEW written (R333): codes 21 to 31 are stored as 20. -/
def State.dpsSlewSet (s : State) (d v : Nat) : State :=
  (s.dpsFreeze d).put F.DPS_CTRL_SLEW d (min (v % 32) 20)

/-- The largest limit code of a gang (R325, R326, R341): 30,000 codes a stage, 8 A in external-stage
mode. -/
def State.dpsIlimMax (s : State) (d : Nat) : Nat :=
  if s.on F.DPS_CTRL_EXT d then 80000 else 30000 * (s.get F.DPS_CTRL_MEMBERS d + 1)

/-- ILIM written (R325, R326): a magnitude, stored at most at its limit. -/
def State.dpsIlimSet (s : State) (d v : Nat) : State :=
  let m := (sext 32 v).natAbs
  let y := min m (s.dpsIlimMax d)
  let s1 := s.put F.DPS_ILIM_VALUE d y
  if m = y then s1 else s1.setB F.DPS_STAT_CLAMP d true

/-- The current limit in force, per stage of a gang, in codes of the range in force (R326, R338,
R341, R343). -/
def State.dpsLimit (s : State) (d : Nat) : Nat :=
  let l := s.leadOf d
  if s.on F.DPS_CTRL_EXT l then
    min (s.get F.DPS_ILIM_VALUE l) (min 80000 (1000000000 / s.get F.DPS_EXT_SHUNT_UOHM l))
  else min (s.get F.DPS_ILIM_VALUE l / (s.get F.DPS_CTRL_MEMBERS l + 1)) 30000

/-- A write of the control, VSET or ILIM register of a DPS is refused: a gang member that is not the
lead (R339), or a DPS that a calibration flow owns (R343). -/
def State.dpsBarred (s : State) (d : Nat) : Bool := !s.on F.DPS_CTRL_LEAD d || s.on H.DPS_CAL_OWNED d

/-- EXT may change (R341). -/
def State.extOk (s : State) (d : Nat) : Bool :=
  d % 2 == 0 && s.get F.DPS_CTRL_MEMBERS d == 1 && !s.on F.DPS_CTRL_EN d
    && (match s.dpsSite d with
        | none => true
        | some i => s.siteState i == sUNBOUND || s.siteState i == sIDLE || s.siteState i == sENDED)

/-- EXT written (R341, R363). -/
def State.extSet (s : State) (d : Nat) (b : Bool) : State :=
  if b = s.on F.DPS_CTRL_EXT d then s
  else if b then
    let s1 := (s.setB F.DPS_CTRL_EXT d true).put F.DPS_CTRL_IRANGE d 6
    s1.each (dpsMons (d + 1)) (fun t i =>
      ((t.setB F.MON_CTRL_EN i false).put F.MON_STAT_ARM_HI i 3).put F.MON_STAT_ARM_LO i 3)
  else (s.setB F.DPS_CTRL_EXT d false).put F.DPS_CTRL_IRANGE d 5

/-- IRANGE written (R325, R343): with EN at 1 the change takes 20 µs. -/
def State.dpsRangeSet (s : State) (d v : Nat) : State :=
  let r := if 6 ≤ v then 5 else v
  if s.on F.DPS_CTRL_EXT d || r == s.get F.DPS_CTRL_IRANGE d then s
  else
    let s1 := (s.put H.DPS_OLD_RANGE d (s.get F.DPS_CTRL_IRANGE d)).put F.DPS_CTRL_IRANGE d r
    if s.on F.DPS_CTRL_EN d then s1.setDue H.DPS_RNG_END d (s.now + 20 * us) else s1

/-- EN written (R331, R332, R337): the reason of a refusal, 0 where the write is accepted. -/
def State.dpsEnSet (s : State) (d : Nat) (b : Bool) : State × Nat :=
  if b then
    if s.on F.DPS_CTRL_EN d then (s, 0)
    else
      let r := s.dpsEnRefusal d
      if r = 0 then (s.dpsOn d, 0)
      else if r = 1 then (s.setB F.DPS_STAT_THERM_REF d true, 1)
      else (s, r)
  else if s.on F.DPS_CTRL_EN d then (s.dpsGangOff d, 0) else (s, 0)

/-- A write of DPS_CTRL (R325, R329, R331, R333, R337, R339, R341, R343).  A refused enable has no
effect but THERM_REF. -/
def State.writeDpsCtrl (s : State) (d v : Nat) : State × Resp :=
  let en := bit v 0
  let refusal := if en && !s.on F.DPS_CTRL_EN d then s.dpsEnRefusal d else 0
  if s.dpsBarred d then s.bad
  else if bits v 4 2 ≠ s.get F.DPS_CTRL_COMP d ∧ s.on F.DPS_CTRL_EN d = true then s.bad
  else if bit v 6 ≠ s.on F.DPS_CTRL_EXT d ∧ s.extOk d = false then s.bad
  else if refusal ≠ 0 then
    (if refusal = 1 then s.setB F.DPS_STAT_THERM_REF d true else s).bad
  else
    let s1 := (s.put F.DPS_CTRL_COMP d (bits v 4 2)).extSet d (bit v 6)
    let s2 := (if bits v 8 5 = s.get F.DPS_CTRL_SLEW d then s1 else s1.dpsSlewSet d (bits v 8 5))
    ((s2.dpsRangeSet d (bits v 1 3)).dpsEnSet d en).1.ok

/-- A measurement of a DPS starts (R357). -/
def State.dpsMeasStart (s : State) (d : Nat) : State :=
  if s.on F.DPS_MEAS_BUSY d then s
  else
    let s1 := (s.setB F.DPS_MEAS_BUSY d true).setB F.DPS_RES_STAT_VALID d false
    let n := 2 ^ s.get F.DPS_MEAS_AVG d
    let s2 := ((s1.put H.DPS_MEAS_LEFT d n).put H.DPS_MEAS_N d n).put H.DPS_SUM_V d (2 ^ 63)
    ((s2.put H.DPS_SUM_I d (2 ^ 63)).setB H.DPS_ACC_LIM d false).setB H.DPS_ACC_OVER d false

/-- A range change of the DPS is in progress (R343). -/
def State.dpsRanging (s : State) (d : Nat) : Bool :=
  match s.due H.DPS_RNG_END d with
  | none => false
  | some t => decide (s.now < t)

/-! ## SMUs -/

/-- The code in the source DAC of an SMU (R348, R349). -/
def State.smuCode (s : State) (u : Nat) : Int := if s.on H.SMU_DAC0 u then 0 else s.getI H.SMU_DAC u

/-- The output switch is closed (SMU_STAT.CLOSED): a movement takes 20 µs (R349). -/
def State.smuClosed (s : State) (u : Nat) : Bool :=
  match s.due H.SMU_SW_END u with
  | none => s.on F.SMU_STAT_CLOSED u
  | some t => if s.now < t then s.on F.SMU_STAT_CLOSED u else s.on F.SMU_CTRL_EN u

/-- The switch begins to move to where EN puts it. -/
def State.smuSwitch (s : State) (u : Nat) (en : Bool) : State :=
  let s1 := s.setB F.SMU_STAT_CLOSED u (s.smuClosed u)
  (s1.setB F.SMU_CTRL_EN u en).setDue H.SMU_SW_END u (s.now + 20 * us)

/-- A range change of the SMU is in progress (R347). -/
def State.smuRanging (s : State) (u : Nat) : Bool :=
  match s.due H.SMU_RNG_END u with
  | none => false
  | some t => decide (s.now < t)

/-- SMU codes are limited to ±4,200,000 (R345). -/
def smuClamp (x : Int) : Int := clampI (-4200000) 4200000 x

/-- The waveform context of an SMU plays. -/
def State.wavePlays (s : State) (u : Nat) : Bool := s.on F.SMUW_CUR_PLAYING u

/-- The waveform context or the sine stops (R351): SRC becomes DC and SMU_SET takes the last value. -/
def State.smuHold (s : State) (u : Nat) : State :=
  let s1 := if s.get F.SMU_CTRL_SRC u = 0 then s
    else (s.put F.SMU_CTRL_SRC u 0).put F.SMU_SET_VALUE u (s.get H.SMU_DAC u)
  let s2 := ((s1.setB F.SMUW_CUR_PLAYING u false).setB F.SMUW_JUMP_REQ_PENDING u false).put H.SW_DECIDED u 0
  { s2 with waveBuf := qSet s2.waveBuf u [] }

/-- The SMU off at once, its switch opening (a trip, R356, or a mismatch, R354). -/
def State.smuOff (s : State) (u : Nat) : State :=
  (((s.smuHold u).smuSwitch u false).setB H.SMU_STAGE u false).setB F.SMU_STAT_IN_COMP u false

/-- The SMU in the safe state (R62): switch open and DAC at the 0 V code. -/
def State.smuSafe (s : State) (u : Nat) : State :=
  (((s.smuOff u).noDue H.SMU_SW_END u).setB F.SMU_STAT_CLOSED u false).setB H.SMU_DAC0 u true

/-- A trip reaches an SMU (R356). -/
def State.smuTrip (s : State) (u : Nat) : State :=
  ((s.smuOff u).setB F.SMU_STAT_TRIPPED u true).setB F.SMU_STAT_TRIP_SEEN u true

/-- Why an SMU enable is refused (R349, R377): 2 TRIPPED, 4 STATE, 0 accepted. -/
def State.smuEnRefusal (s : State) (u : Nat) : Nat :=
  if !s.tileOn (smuTile u) then 4
  else if s.latched (smuMon u) then 2
  else if s.on H.SMU_CAL_OWNED u then 4
  else if s.on F.SMU_STAT_MISMATCH u then 4
  else if s.get F.MON_CTRL_SELFCHK (smuMon u) ≠ 0 then 4
  else 0

/-- The source value put in the DAC (R348, R350): SMU_SET while SRC is DC. -/
def State.smuSource (s : State) (u : Nat) : State :=
  if s.get F.SMU_CTRL_SRC u = 0 then s.put H.SMU_DAC u (s.get F.SMU_SET_VALUE u) else s

/-- EN of an SMU written (R349): the reason of a refusal, 0 where it is accepted. -/
def State.smuEnSet (s : State) (u : Nat) (b : Bool) : State × Nat :=
  if b then
    if s.on F.SMU_CTRL_EN u then (s, 0)
    else
      let r := s.smuEnRefusal u
      if r = 0 then
        (((((s.smuSource u).setB H.SMU_DAC0 u false).smuSwitch u true).setB H.SMU_STAGE u true).setB
          F.SMU_STAT_TRIPPED u false, 0)
      else (s, r)
  else if s.on F.SMU_CTRL_EN u then ((s.smuSwitch u false).setB H.SMU_STAGE u false, 0) else (s, 0)

/-- SMU_SET written (R345, R351). -/
def State.smuSetSet (s : State) (u v : Nat) : State :=
  let x := sext 32 v
  let y := smuClamp x
  let s1 := (s.putI F.SMU_SET_VALUE u y).smuSource u
  if x = y then s1 else s1.setB F.SMU_STAT_CLAMP u true

/-- A compliance written (R345, R346). -/
def State.smuCompSet (s : State) (f : Field) (u v : Nat) : State :=
  let y := min v 4200000
  let s1 := s.put f u y
  if v = y then s1 else s1.setB F.SMU_STAT_CLAMP u true

/-- A change of range and force mode (R347): true where it is accepted. -/
def State.smuRangeSet (s : State) (u ir vr fm : Nat) : State × Bool :=
  let ir := min ir 4
  let newRange := ir ≠ s.get F.SMU_CTRL_IRANGE u ∨ vr ≠ s.get F.SMU_CTRL_VRANGE u
  if fm ≠ s.get F.SMU_CTRL_FMODE u ∧ s.on F.SMU_CTRL_EN u = true then (s, false)
  else if newRange ∧ s.get F.SMU_CTRL_SRC u ≠ 0 then (s, false)
  else
    let s1 := ((s.put F.SMU_CTRL_IRANGE u ir).put F.SMU_CTRL_VRANGE u vr).put F.SMU_CTRL_FMODE u fm
    (if newRange ∧ s.on F.SMU_CTRL_EN u = true then s1.setDue H.SMU_RNG_END u (s.now + 50 * us) else s1, true)

/-- SRC written (R350, R351): 1 cannot be written, 3 is stored as 0. -/
def State.smuSrcSet (s : State) (u v : Nat) : State :=
  let v := if v = 3 then 0 else v
  let cur := s.get F.SMU_CTRL_SRC u
  if v = 1 ∨ v = cur then s
  else if cur = 1 then
    let s1 := s.smuHold u
    if v = 2 then s1.put F.SMU_CTRL_SRC u 2 else s1
  else (s.put F.SMU_CTRL_SRC u v).smuSource u

/-- A write of SMU_CTRL (R345-R351, R356). -/
def State.writeSmuCtrl (s : State) (u v : Nat) : State × Resp :=
  if s.on H.SMU_CAL_OWNED u then s.bad
  else if bit v 0 && !s.on F.SMU_CTRL_EN u && s.smuEnRefusal u != 0 then s.bad
  else
    let r := s.smuRangeSet u (bits v 5 3) (bits v 4 1) (bits v 3 1)
    if r.2 then ((r.1.smuSrcSet u (bits v 1 2)).smuEnSet u (bit v 0)).1.ok else s.bad

/-- A measurement of an SMU starts (R357). -/
def State.smuMeasStart (s : State) (u : Nat) : State :=
  if s.on F.SMU_MEAS_BUSY u then s
  else
    let s1 := (s.setB F.SMU_MEAS_BUSY u true).setB F.SMU_RES_STAT_VALID u false
    let n := 2 ^ s.get F.SMU_MEAS_AVG u
    let s2 := ((s1.put H.SMU_MEAS_LEFT u n).put H.SMU_MEAS_N u n).put H.SMU_SUM_V u (2 ^ 63)
    ((s2.put H.SMU_SUM_I u (2 ^ 63)).setB H.SMU_ACC_LIM u false).setB H.SMU_ACC_OVER u false

/-! ## Safe sequences -/

/-- Channels, DPS and SMUs that a scope names: for a warm reset or shutdown every bound channel. -/
def State.scopeChans (s : State) : SafeScope → List Nat
  | .all => (List.range 512).filter (fun ch => s.on F.CH_CTRL_BOUND ch)
  | .tile t => (List.range 64).map (t * 64 + ·)
  | .units _ t m _ _ => (bitsOf 64 m).map (t * 64 + ·)
def scopeDps : SafeScope → List Nat
  | .all => List.range 64
  | .tile t => (List.range 8).map (t * 8 + ·)
  | .units _ t _ d _ => (bitsOf 8 d).map (t * 8 + ·)
def scopeSmus : SafeScope → List Nat
  | .all => List.range 32
  | .tile t => (List.range 4).map (t * 4 + ·)
  | .units _ t _ _ u => (bitsOf 4 u).map (t * 4 + ·)

/-- The time of a stage of a safe sequence from its start (R74): drivers 1.2 µs, DPS 1.5 µs, SMUs
20 µs. -/
def safeStageTime (n : Nat) : Nat :=
  match n with
  | 0 => us
  | 1 => 1200 * ns
  | 2 => 1500 * ns
  | _ => 20 * us

/-- One stage of a safe sequence (R74): drivers and PMUs, then DPS, then SMUs. -/
def State.safeStage (s : State) (sc : SafeScope) (n : Nat) : State :=
  match n with
  | 0 => s
  | 1 => s.each (s.scopeChans sc) State.chSafe
  | 2 => s.each (scopeDps sc) State.dpsStageOff
  | _ => s.each (scopeSmus sc) State.smuSafe

/-- A safe sequence begins now. -/
def State.safeStart (s : State) (sc : SafeScope) : State :=
  { s with safe := s.safe ++ [⟨sc, s.now, 1, none, none⟩] }

/-- The outputs of a site in the order of R74. -/
def siteScope (i : Nat) (e : SiteEntry) : SafeScope := .units i e.tile e.chMask e.dps e.smu

/-- The outputs of a site begin to go safe. -/
def State.siteSafeStart (s : State) (i : Nat) : State :=
  match s.entryOf i with
  | none => s
  | some e => s.safeStart (siteScope i e)

/-- A safe sequence of a site is in progress. -/
def State.siteSafeBusy (s : State) (i : Nat) : Bool :=
  s.safe.any (fun q => match q.scope with | .units j _ _ _ _ => j == i | _ => false)

/-- Every output safe at once: what a cold reset leaves (R62). -/
def State.allSafe (s : State) : State :=
  ((s.each (List.range 512) State.chSafe).each (List.range 64) State.dpsStageOff).each (List.range 32) State.smuSafe

end Sys2Proof.Machine
end

