-- ==== Sys2Proof/Machine/Capture.lean ====
section
/-!
DEFINITION. Time-interval measurement (R379-R401) and triggered acquisition (R403-R415): rings,
queues, capture buffers, arming, and what a trigger, a marker or a latch does to them.
-/

namespace Sys2Proof.Machine

/-- A duration or time in units of 1/1,024 CORE cycle as the layout of R379. -/
def unitsWord (u : Nat) : Nat := (u / 1024 % 2 ^ 52) * 4096 + u % 1024 * 4

/-- The units that a timestamp counts. -/
def wordUnits (w : Nat) : Nat := w / 4096 * 1024 + bits w 2 10

/-- A Cellar range lies wholly in the Cellar window. -/
def State.inWindow (s : State) (base n : Nat) : Bool :=
  0x8000000000 ≤ base && base - 0x8000000000 + n ≤ s.celTop

/-- A Cellar range meets the sequencer region, the first 4 MiB (R207). -/
def meetsSeq (base : Nat) : Bool := base < 0x8000000000 + 0x400000

/-! ## TDC streams -/

/-- Base address and size in bytes of the ring of a TDC (R399). -/
def State.ringBase (s : State) (j : Nat) : Nat :=
  s.get F.TDC_RING_BASE_LO_BASE_LO j * 4096 + s.get F.TDC_RING_BASE_HI_BASE_HI j * 2 ^ 32
def State.ringSize (s : State) (j : Nat) : Nat := 2 ^ s.get F.TDC_RING_SIZE_LOG2 j

/-- The ring is valid (R399). -/
def State.ringValid (s : State) (j : Nat) : Bool :=
  decide (12 ≤ s.get F.TDC_RING_SIZE_LOG2 j) && decide (s.get F.TDC_RING_SIZE_LOG2 j ≤ 30)
    && s.inWindow (s.ringBase j) (0x1000 + s.ringSize j) && !meetsSeq (s.ringBase j)

/-- Header fields of a ring. -/
def State.ringWr (s : State) (j : Nat) : Nat := s.get2 F.TDC_WR_LO_WR_LO F.TDC_WR_HI_WR_HI j
def State.ringRd (s : State) (j : Nat) : Nat := ofLe (s.celRaw (celOff (s.ringBase j) + 8) 8)
def State.ringDropped (s : State) (j : Nat) : Nat := ofLe (s.celRaw (celOff (s.ringBase j) + 16) 8)

/-- The queue of a TDC. -/
def State.tdcQueue (s : State) (j : Nat) : List TdcEntry := qGet s.tdcq j

/-- The queue of a TDC written. -/
def State.tdcQueueSet (s : State) (j : Nat) (q : List TdcEntry) : State :=
  { s with tdcq := qSet s.tdcq j q }

/-- An entry put in the queue when there is room (R400): 512 entries. -/
def State.tdcEnq (s : State) (j w : Nat) : State :=
  if (s.tdcQueue j).length < 512 then s.tdcQueueSet j (s.tdcQueue j ++ [⟨w⟩]) else s

/-- There is room in the queue. -/
def State.tdcRoom (s : State) (j : Nat) : Bool := decide ((s.tdcQueue j).length < 512)

/-- A control entry (R397, R398). -/
def ctlWord (typ a b : Nat) : Nat :=
  typ % 256 * 2 ^ 56 + a % 65536 * 2 ^ 40 + min b (2 ^ 38 - 1) * 4 + 3

/-- When the queue has room it takes first an OVERRUN entry, then a held EPOCH entry, then a held
DISARM entry (R380, R391, R401). -/
def State.tdcRefill (s : State) (j : Nat) : State :=
  let s1 := if s.get H.TDC_OVRN j != 0 && s.tdcRoom j then
      (s.tdcEnq j (ctlWord 3 0 (s.get H.TDC_OVRN j))).put H.TDC_OVRN j 0 else s
  let s2 := if s1.get H.TDC_EPOCH_P j != 0 && s1.tdcRoom j && s1.get H.TDC_OVRN j == 0 then
      (s1.tdcEnq j (ctlWord 2 (s1.get H.TDC_EPOCH_P j - 1) 0)).put H.TDC_EPOCH_P j 0 else s1
  if s2.get H.TDC_DIS_P j != 0 && s2.tdcRoom j && s2.get H.TDC_OVRN j == 0 && s2.get H.TDC_EPOCH_P j == 0 then
    (s2.tdcEnq j (ctlWord 5 (s2.get H.TDC_DIS_P j - 1) (s2.get2 F.TDC_ACC_LO_N_LO F.TDC_ACC_HI_N_HI j))).put
      H.TDC_DIS_P j 0
  else s2

/-- An event or value entry (R401): dropped and counted where the queue is full. -/
def State.tdcPush (s : State) (j w : Nat) : State :=
  let s1 := s.tdcRefill j
  if s1.tdcRoom j && s1.get H.TDC_OVRN j == 0 && s1.get H.TDC_EPOCH_P j == 0 then s1.tdcEnq j w
  else
    let s2 := ((s1.incSat F.TDC_DROP_COUNT j).setB F.TDC_STAT_OVERRUN_SEEN j true).incSat H.TDC_OVRN j
    let s3 := s2.setB H.TDC_GATE_BAD j true
    if s3.ringValid j then
      s3.celPut clsTime (celOff (s3.ringBase j) + 16) (leBytes 8 (s3.ringDropped j + 1))
    else s3

/-- One entry spilled to the ring (R399, R400): none while the ring is full or takes nothing. -/
def State.tdcSpill1 (s : State) (j : Nat) : State :=
  match s.tdcQueue j with
  | [] => s
  | e :: q =>
    let wr := s.ringWr j
    if !s.ringValid j then s
    else if s.ringSize j ≤ wr - s.ringRd j then s.setB F.TDC_STAT_RING_FULL j true
    else
      let r := s.celStore clsTime (celOff (s.ringBase j) + 0x1000 + wr % s.ringSize j) (leBytes 8 e.word)
      if r.2 then
        let s1 := (r.1.celPut clsTime (celOff (s.ringBase j)) (leBytes 8 (wr + 8))).tdcQueueSet j q
        ((s1.put2 F.TDC_WR_LO_WR_LO F.TDC_WR_HI_WR_HI j (wr + 8)).setB F.TDC_STAT_RING_FULL j
          (decide (s.ringSize j ≤ wr + 8 - s.ringRd j))).tdcRefill j
      else r.1

/-- n entries spilled. -/
def State.tdcSpill (s : State) (j : Nat) : Nat → State
  | 0 => s
  | n + 1 => (s.tdcSpill1 j).tdcSpill j n

/-- The whole queue drained as far as the ring takes it (R391). -/
def State.tdcDrain (s : State) (j : Nat) : State := s.tdcSpill j 516

/-! ## TDC arming -/

/-- A source code that a mode word may hold: 0 to 3, 15, and 4 inside a calibration flow (R386,
R388, R389). -/
def State.tdcSrcOk (s : State) (j src : Nat) : Bool :=
  src ≤ 3 || src == 15 || (src == 4 && s.on H.TDC_CAL_OWNED j)

/-- A channel source names a channel of the site, and not the odd member of a pair (R389). -/
def State.tdcChanOk (s : State) (j src ch : Nat) : Bool :=
  if src ≠ 0 then true
  else if s.on F.TDC_CTRL_BOUND j then
    match (s.siteChans (s.get F.TDC_CTRL_SITE j))[ch]? with
    | none => false
    | some c => !s.pairedOdd c
  else false

/-- Why an arm with a mode word is refused: 3 NOT_BOUND, 4 STATE, 0 accepted (R389). -/
def State.tdcArmRefusal (s : State) (j w : Nat) : Nat :=
  let cal := s.on H.TDC_CAL_OWNED j
  if !s.tileOn (tdcTile j) then 4
  else if !cal && (!s.on F.TDC_CTRL_BOUND j || !s.tdcChanOk j (bits w 4 4) (bits w 8 6) || !s.tdcChanOk j (bits w 16 4) (bits w 20 6)) then 3
  else if s.on F.TDC_CTRL_ARMED j || cal then 4
  else if bits w 0 2 == 3 || bits w 14 2 == 3 || bits w 26 2 == 3 || !s.tdcSrcOk j (bits w 4 4)
      || !s.tdcSrcOk j (bits w 16 4) then 4
  else if (bit w 2 || bit w 3) && !s.ringValid j then 4
  else 0

/-- TDC_CFG written. -/
def State.tdcCfgSet (s : State) (j w : Nat) : State :=
  let s1 := ((s.put F.TDC_CFG_MODE j (bits w 0 2)).setB F.TDC_CFG_ST_EV j (bit w 2)).setB F.TDC_CFG_ST_VAL j (bit w 3)
  let s2 := ((s1.put F.TDC_CFG_START_SRC j (bits w 4 4)).put F.TDC_CFG_START_CH j (bits w 8 6)).put
    F.TDC_CFG_START_SLOPE j (bits w 14 2)
  ((s2.put F.TDC_CFG_STOP_SRC j (bits w 16 4)).put F.TDC_CFG_STOP_CH j (bits w 20 6)).put
    F.TDC_CFG_STOP_SLOPE j (bits w 26 2)

/-- The mode word as it stands, bits [27:0]. -/
def State.tdcWord (s : State) (j : Nat) : Nat := s.regRaw .TDC_CFG j

/-- The statistics and counters that an arm clears (R389). -/
def tdcCleared : List Field :=
  [F.TDC_ACC_LO_N_LO, F.TDC_ACC_HI_N_HI, F.TDC_CNT_A_ORPHAN_STOP, F.TDC_CNT_A_DOUBLE_START, F.TDC_CNT_B_NEAR,
   F.TDC_CNT_B_PAIR_TMO, F.TDC_DROP_COUNT, F.TDC_DEAD_COUNT, F.TDC_CALOLD_COUNT, F.TDC_NVAL_COUNT, F.TDC_MIN_MIN,
   F.TDC_MAX_MAX, F.TDC_SUM_LO_S_LO, F.TDC_SUM_HI_S_HI, F.TDC_LAST_LO_V_LO, F.TDC_LAST_HI_V_HI, H.TDC_DEADN,
   H.TDC_OVRN, H.TDC_START_P, H.TDC_GATE_ON, H.TDC_GATE_CNT, H.TDC_GATE_BAD, H.TDC_INTERP, H.TDC_OPEN_DUE]

/-- The reference pairs of both interpolators dropped. -/
def State.tdcNoPairs (s : State) (j : Nat) : State :=
  (((s.clear H.TDC_PAIR1 (2 * j)).clear H.TDC_PAIR2 (2 * j)).clear H.TDC_PAIR1 (2 * j + 1)).clear H.TDC_PAIR2 (2 * j + 1)

/-- A reference pair is plausible (R382): r2 - r1 within 12 % of 1,026. -/
def refPairOk (r1 r2 : Nat) : Bool := 90288 ≤ 100 * (r2 - r1) && 100 * (r2 - r1) ≤ 114912

/-- The conversion of the reference intervals after an event (R381, R382). -/
def State.tdcConvert (s : State) (j i n1 n2 : Nat) : State :=
  if refPairOk n1 n2 then (s.put H.TDC_PAIR1 (2 * j + i) n1).put H.TDC_PAIR2 (2 * j + i) n2
  else (s.incSat F.TDC_CALOLD_COUNT j).setB F.TDC_STAT_CAL_OLD_SEEN j true

/-- An accepted arm (R387, R389, R390): counters cleared, an ARM entry, both interpolators busy for
10 CORE cycles with a reference pair whose codes the spec does not give (free values), a pair that is not
plausible discarded as any other; it waits for
a threshold that still settles. -/
def State.tdcArm (s : State) (j : Nat) : State :=
  let t := match s.due H.TDC_THR_T j with | none => s.now | some e => max s.now e
  let s1 := (tdcCleared.foldl (fun u f => u.clear f j) s).tdcNoPairs j
  let s2 := (s1.setB F.TDC_CTRL_ARMED j true).setB F.TDC_CTRL_OPEN j false
  let s3 := ((s2.put H.TDC_T1 j t).put H.TDC_T2 j t).put H.TDC_ARM_T j t
  let s4 := if s3.get F.TDC_AUX_OPEN_SRC j = 0 then s3.setDue H.TDC_OPEN_DUE j t else s3
  let r1 := s4.draw
  let r2 := r1.2.draw
  let r3 := r2.2.draw
  let r4 := r3.2.draw
  let s5 := (r4.2.tdcConvert j 0 (r1.1 % 65536) (r2.1 % 65536)).tdcConvert j 1 (r3.1 % 65536) (r4.1 % 65536)
  s5.tdcPush j (ctlWord 1 (s5.get F.TB_EPOCH_EPOCH 0) (s5.tdcWord j))

/-- A disarm with a reason (R385, R391). -/
def State.tdcDisarm (s : State) (j reason : Nat) : State :=
  if s.on F.TDC_CTRL_ARMED j then
    let s1 := ((s.setB F.TDC_CTRL_ARMED j false).setB F.TDC_CTRL_OPEN j false).setB H.TDC_START_P j false
    let s2 := (s1.noDue H.TDC_OPEN_DUE j).setB H.TDC_GATE_ON j false
    let s3 := if s2.on F.TDC_CTRL_BAND_PEND j then
        (s2.setB F.TDC_CTRL_BAND_PEND j false).put H.TDC_TRIM j (bits (s2.get F.THM_BAND_TDC 0) (2 * tdcTile j) 2)
      else s2
    (s3.put H.TDC_DIS_P j (reason + 1)).tdcRefill j
  else s

/-- An EPOCH entry is written to the stream of an armed TDC (R380). -/
def State.tdcEpoch (s : State) (j : Nat) : State :=
  if s.on F.TDC_CTRL_ARMED j then (s.put H.TDC_EPOCH_P j (s.get F.TB_EPOCH_EPOCH 0 + 1)).tdcRefill j else s

/-! ## TDC events -/

/-- The time of an event in units of 1/1,024 cycle of common time: coarse count and fine value of
R381, then chip offset and deskew (R177, R388). -/
def State.tdcUnits (s : State) (time : Nat) (dsk : Int) (fine : Nat) : Nat :=
  let coarse := s.localAt time / coreCycle
  let shift := (s.getI F.CHIP_OFFSET_OFFSET 0 + dsk) * 3 * 1024 / 2000
  (((coarse * 1024 + fine : Nat) : Int) + shift).toNat

/-- The fine value of a conversion (R381). -/
def fineOf (r r1 r2 : Nat) : Nat :=
  (clampI 0 1023 (((1024 * ((r2 : Int) - r))).fdiv ((r2 : Int) - r1))).toNat

/-- A value formed (R396): statistics, and a value entry when values are stored; a value entry that is dropped
spoils no gate, since it is no event (R395). -/
def State.tdcValue (s : State) (j u : Nat) (store : Bool) : State :=
  let w := unitsWord u + 2
  let m := min u 0xFFFFFFFF
  let s1 := (s.incSat F.TDC_NVAL_COUNT j).put F.TDC_MIN_MIN j (min m (s.get F.TDC_MIN_MIN j))
  let s2 := s1.put F.TDC_MAX_MAX j (max m (s.get F.TDC_MAX_MAX j))
  let s3 := s2.put2 F.TDC_SUM_LO_S_LO F.TDC_SUM_HI_S_HI j
    ((s2.get2 F.TDC_SUM_LO_S_LO F.TDC_SUM_HI_S_HI j + u) % 2 ^ 64)
  let s4 := s3.put2 F.TDC_LAST_LO_V_LO F.TDC_LAST_HI_V_HI j w
  if store then (s4.tdcPush j w).put H.TDC_GATE_BAD j (s4.get H.TDC_GATE_BAD j) else s4

/-- The whole coarse range in units of 1/1,024 cycle. -/
def coarseWrap : Nat := 2 ^ 62

/-- A pair closed by a stop (R393, R394). -/
def State.tdcPair (s : State) (j stop : Nat) : State :=
  let start := s.get H.TDC_START_U j
  let d := (stop + coarseWrap - start % coarseWrap) % coarseWrap
  let near := d ≤ 4 || coarseWrap / 2 ≤ d
  let s1 := if s.on F.TDC_CFG_ST_EV j then (s.tdcPush j (unitsWord start)).tdcPush j (unitsWord stop + 1) else s
  let s2 := if near then (s1.incSat F.TDC_CNT_B_NEAR j).setB F.TDC_STAT_NEAR_SEEN j true else s1
  (s2.tdcValue j (if near then 0 else d) (s.on F.TDC_CFG_ST_VAL j)).setB H.TDC_START_P j false

/-- A start becomes the pending start. -/
def State.tdcStart (s : State) (j u t : Nat) : State :=
  ((s.setB H.TDC_START_P j true).put H.TDC_START_U j u).put H.TDC_START_AT j t

/-- The start and stop inputs name the same source and slope (R393). -/
def State.tdcSame (s : State) (j : Nat) : Bool :=
  s.get F.TDC_CFG_START_SRC j == s.get F.TDC_CFG_STOP_SRC j
    && s.get F.TDC_CFG_START_CH j == s.get F.TDC_CFG_STOP_CH j
    && s.get F.TDC_CFG_START_SLOPE j == s.get F.TDC_CFG_STOP_SLOPE j

/-- An accepted event in INTERVAL mode (R393). -/
def State.tdcInterval (s : State) (j : Nat) (stop : Bool) (u t : Nat) : State :=
  let p := s.on H.TDC_START_P j
  if s.tdcSame j then (if p then s.tdcPair j u else s).tdcStart j u t
  else if stop then
    if p then s.tdcPair j u
    else (s.incSat F.TDC_CNT_A_ORPHAN_STOP j).setB F.TDC_STAT_PAIR_SEEN j true
  else if p then (s.incSat F.TDC_CNT_A_DOUBLE_START j).setB F.TDC_STAT_PAIR_SEEN j true
  else s.tdcStart j u t

/-- An accepted start event in FREQUENCY mode (R395): a gate in which an event was dropped restarts here; where
the event's own entry is dropped, the gate that it opens or lies in is spoilt. -/
def State.tdcGate (s : State) (j u : Nat) : State :=
  let t := s.setB H.TDC_GATE_BAD j false
  let s0 := if s.on F.TDC_CFG_ST_EV j then t.tdcPush j (unitsWord u) else t
  let opened := ((s0.setB H.TDC_GATE_ON j true).put H.TDC_GATE_U j u).put H.TDC_GATE_CNT j 0
  if !s.on H.TDC_GATE_ON j || s.on H.TDC_GATE_BAD j then opened
  else
    let n := s.get H.TDC_GATE_CNT j + 1
    if n < s.get F.TDC_GATE_GATE_N j then s0.put H.TDC_GATE_CNT j n
    else
      let d := (u + coarseWrap - s.get H.TDC_GATE_U j % coarseWrap) % coarseWrap
      opened.tdcValue j d (s.on F.TDC_CFG_ST_VAL j)

/-- The mode's use of an accepted event at a time in units (R392). -/
def State.tdcUse (s : State) (j : Nat) (stop : Bool) (u t : Nat) : State :=
  match s.get F.TDC_CFG_MODE j with
  | 0 => if s.on F.TDC_CFG_ST_EV j then s.tdcPush j (unitsWord u + b2n stop) else s
  | 1 => s.tdcInterval j stop u t
  | _ => s.tdcGate j u

/-- An event is of the selected slope (R386): 0 rising, 1 falling, 2 both. -/
def slopeOk (sl : Nat) (falling : Bool) : Bool := sl == 2 || (sl == 1) == falling

/-- The counts of an accepted event (R383, R398): a DEAD entry goes ahead of its own entry. -/
def State.tdcAccept (s : State) (j : Nat) : State :=
  let n := s.get2 F.TDC_ACC_LO_N_LO F.TDC_ACC_HI_N_HI j + 1
  let s1 := s.put2 F.TDC_ACC_LO_N_LO F.TDC_ACC_HI_N_HI j (n % 2 ^ 64)
  if s1.get H.TDC_DEADN j = 0 then s1
  else if s1.tdcRoom j then (s1.tdcEnq j (ctlWord 4 0 (s1.get H.TDC_DEADN j))).put H.TDC_DEADN j 0
  else s1

/-- The pair that an interpolator uses: its last plausible pair, or the factory pair (R382). -/
def State.tdcPairOf (s : State) (j i : Nat) : Nat × Nat :=
  if refPairOk (s.get H.TDC_PAIR1 (2 * j + i)) (s.get H.TDC_PAIR2 (2 * j + i)) then
    (s.get H.TDC_PAIR1 (2 * j + i), s.get H.TDC_PAIR2 (2 * j + i))
  else (s.get H.TDC_FACT1 (2 * j + i), s.get H.TDC_FACT2 (2 * j + i))

/-- An edge at an input of an open TDC (R381-R384, R392): marker events bypass the interpolators;
any other event goes to the interpolator that did not take the last one, or is dropped while that
one is busy for 10 CORE cycles. -/
def State.tdcEdge (s : State) (j : Nat) (e : TdcEdge) : State :=
  let src := if e.stop then s.get F.TDC_CFG_STOP_SRC j else s.get F.TDC_CFG_START_SRC j
  let slope := if e.stop then s.get F.TDC_CFG_STOP_SLOPE j else s.get F.TDC_CFG_START_SLOPE j
  let dsk := if e.stop then s.getI F.TDC_DSK_STOP_DSK j else s.getI F.TDC_DSK_START_DSK j
  if !s.on F.TDC_CTRL_ARMED j || !s.on F.TDC_CTRL_OPEN j || e.time < s.get H.TDC_ARM_T j || src == 15
      || !slopeOk slope e.falling || (e.stop && s.get F.TDC_CFG_MODE j == 2) then s
  else
    let s0 := s.upTo e.time
    if src == 2 || src == 3 then
      (s0.tdcAccept j).tdcUse j e.stop (s0.commonAt e.time * 1024 / coreCycle) e.time
    else if e.time < s.get H.TDC_T2 j + 10 * coreCycle then
      (((s0.incSat F.TDC_DEAD_COUNT j).setB F.TDC_STAT_DEAD_SEEN j true).incSat H.TDC_DEADN j).setB H.TDC_GATE_BAD j true
    else
      let i := 1 - s.get H.TDC_INTERP j
      let p := s.tdcPairOf j i
      let u := s0.tdcUnits e.time dsk (fineOf e.r p.1 p.2)
      let s1 := ((s0.put H.TDC_T2 j (s.get H.TDC_T1 j)).put H.TDC_T1 j e.time).put H.TDC_INTERP j i
      ((s1.tdcConvert j i e.n1 e.n2).tdcAccept j).tdcUse j e.stop u e.time

/-! ## Acquisition units -/

def aIDLE : Nat := 0
def aPRE : Nat := 1
def aREADY : Nat := 2
def aPOST : Nat := 3
def aREDUCING : Nat := 4
def aDONE : Nat := 5

/-- The state of an acquisition unit. -/
def State.acqState (s : State) (u : Nat) : Nat := s.get F.ACQ_CTRL_STATE u

/-- A capture of the unit is in progress. -/
def State.acqLive (s : State) (u : Nat) : Bool := 1 ≤ s.acqState u && s.acqState u ≤ 3

/-- Base address and entries of a capture buffer (R406). -/
def State.acqBase (s : State) (u : Nat) : Nat :=
  s.get F.ACQ_BUF_LO_BASE_LO u * 4096 + s.get F.ACQ_BUF_HI_BASE_HI u * 2 ^ 32
def State.acqSize (s : State) (u : Nat) : Nat := 2 ^ s.get F.ACQ_BUF_HI_LOG2 u

/-- The buffer is valid (R406). -/
def State.acqBufOk (s : State) (u : Nat) : Bool :=
  decide (10 ≤ s.get F.ACQ_BUF_HI_LOG2 u) && decide (s.get F.ACQ_BUF_HI_LOG2 u ≤ 24)
    && s.inWindow (s.acqBase u) (0x1000 + 8 * s.acqSize u) && !meetsSeq (s.acqBase u)

/-- A calibration flow owns the sampled unit. -/
def State.acqCalOwned (s : State) (u : Nat) : Bool :=
  if u < 64 then s.on H.DPS_CAL_OWNED u else s.on H.SMU_CAL_OWNED (u - 64)

/-- The tile of an acquisition unit's DPS or SMU. -/
def acqTile (u : Nat) : Nat := if u < 64 then u / 8 else (u - 64) / 4

/-- Why an arm is refused (R405, R409, R566): 4 STATE, 0 accepted. -/
def State.acqArmRefusal (s : State) (u src : Nat) : Nat :=
  if !s.tileOn (acqTile u) then 4
  else if s.acqState u ≠ aIDLE ∧ s.acqState u ≠ aDONE then 4
  else if !s.acqBufOk u || decide (s.acqSize u < s.get F.ACQ_PRE_N u + s.get F.ACQ_POST_N u) then 4
  else if 10 ≤ src ∧ src ≤ 14 then 4
  else if s.acqCalOwned u then 4
  else if u < 64 ∧ u % 2 = 1 ∧ s.on F.DPS_CTRL_EXT (u - 1) = true then 4
  else 0

/-- The first voltage instant at or after a moment (R404): local coarse counts that are multiples of
1,500. -/
def State.gridFrom (s : State) (t : Nat) : Nat :=
  let l := s.localAt t
  let p := 1500 * coreCycle
  t + (p - l % p) % p

/-- ACQ_CFG written. -/
def State.acqCfgSet (s : State) (u w : Nat) : State :=
  let s1 := ((s.put F.ACQ_CFG_TRIG_SRC u (bits w 0 4)).put F.ACQ_CFG_TRIG_LINE u (bits w 4 3)).setB
    F.ACQ_CFG_WAIT_PRE u (bit w 7)
  ((s1.setB F.ACQ_CFG_AUTO_REDUCE u (bit w 8)).put F.ACQ_CFG_STREAMS u (bits w 12 4)).put F.ACQ_CFG_P u
    (min (bits w 16 3) 6)

/-- What an arm starts afresh. -/
def acqCleared : List Field :=
  [H.ACQ_N, H.ACQ_TRIG_N, H.ACQ_LEFT, H.ACQ_KIND, H.ACQ_EXACT, H.ACQ_LVL_OK, H.ACQ_RANGED_P, H.ACQ_FORCE_P,
   H.ACQ_DROPPED, H.ACQ_DROP_P, H.ACQ_FLAGS, H.ACQ_XTRA, H.ACQ_PUSH_WAIT, F.ACQ_WR_IDX_IDX]

/-- An accepted arm (R409, R410, R413): until the unit fires, H.ACQ_EXACT tells that a timed trigger was past at
the arm. -/
def State.acqArm (s : State) (u : Nat) : State :=
  let s1 := acqCleared.foldl (fun t f => t.clear f u) s
  let s2 := (s1.put H.ACQ_SETUP u (s1.regRaw .ACQ_CFG u)).put H.ACQ_LVL u (s1.get F.ACQ_LEVEL_CODE u)
  let s3 := (s2.put H.ACQ_NEXT u (s2.gridFrom s2.now)).put H.ACQ_RUN u
    (s2.get F.SITE_RUN_RUN (s2.get F.ACQ_CTRL_SITE u))
  let late := s3.get F.ACQ_CFG_TRIG_SRC u == 8
    && decide (s3.whenCommon (s3.get2 F.ACQ_TTIME_LO_T_LO F.ACQ_TTIME_HI_T_HI u) < s3.now)
  (s3.put H.ACQ_EXACT u (b2n late)).put F.ACQ_CTRL_STATE u (if s3.on F.ACQ_CFG_WAIT_PRE u && s3.get F.ACQ_PRE_N u != 0 then aPRE else aREADY)

/-- A flag of the capture set, and its bit of ACQ_STAT where it has one (R408, R422). -/
def State.acqFlag (s : State) (u b : Nat) : State :=
  let s1 := s.put H.ACQ_FLAGS u (setBit (s.get H.ACQ_FLAGS u) b)
  match b with
  | 0 => s1.setB F.ACQ_STAT_FORCED u true
  | 1 => s1.setB F.ACQ_STAT_PRE_SHORT u true
  | 2 => s1.setB F.ACQ_STAT_POST_SHORT u true
  | 3 => s1.setB F.ACQ_STAT_DROP u true
  | 4 => s1.setB F.ACQ_STAT_STALE u true
  | 7 => s1.setB F.ACQ_STAT_RANGED u true
  | 9 => s1.setB F.ACQ_STAT_LATE u true
  | _ => s1

/-- The voltage instant of the first sample of a capture (R410). -/
def State.acqT0 (s : State) (u : Nat) : Nat := if s.get H.ACQ_N u = 0 then s.get H.ACQ_NEXT u else s.get H.ACQ_T_FIRST u

/-- The unit goes to POST with a trigger sample (R414): POST counts from the trigger sample, which may be one
that is still to come. -/
def State.acqFire (s : State) (u n kind exact : Nat) : State :=
  let s1 := ((s.put F.ACQ_CTRL_STATE u aPOST).put H.ACQ_TRIG_N u n).put H.ACQ_KIND u kind
  let s2 := (s1.put H.ACQ_EXACT u exact).put H.ACQ_LEFT u (s.get F.ACQ_POST_N u + n - s.get H.ACQ_N u)
  s2.put2 F.ACQ_TRIG_TS_LO_TS_LO F.ACQ_TRIG_TS_HI_TS_HI u (stampOf (s.commonAt (s.acqT0 u + n * us)))

/-- A trigger at an exact time reaches a unit (R411, R415): the trigger sample is the last one whose
voltage instant is at or before it. -/
def State.acqTrigger (s : State) (u kind t : Nat) : State :=
  if s.acqState u = aPOST then (s.incSat F.ACQ_COUNT_EXTRA u).incSat H.ACQ_XTRA u
  else if s.acqState u = aREADY then s.acqFire u ((t - s.acqT0 u) / us) kind (stampOf (s.commonAt t))
  else s

/-- The capture ends without a descriptor (R415). -/
def State.acqCancel (s : State) (u : Nat) : State :=
  if s.acqLive u then
    ((s.put F.ACQ_CTRL_STATE u aIDLE).setB F.ACQ_STAT_CANCELLED u true).setB H.ACQ_FORCE_P u false
  else s

/-- An entry of the buffer (R407). -/
def acqEntry (v i : Int) (ir vr : Nat) (lim beyond stale ranging drop : Bool) : Nat :=
  code 24 v + code 24 i * 2 ^ 24 + ir % 8 * 2 ^ 48 + vr % 2 * 2 ^ 51 + b2n lim * 2 ^ 52 + b2n beyond * 2 ^ 53
    + b2n stale * 2 ^ 54 + b2n ranging * 2 ^ 55 + b2n drop * 2 ^ 56

/-- A buffer entry written at an index; false where the Cellar does not take it. -/
def State.acqPutAt (s : State) (u idx w : Nat) : State × Bool :=
  s.celStore clsAcq (celOff (s.acqBase u) + 0x1000 + idx % s.acqSize u * 8) (leBytes 8 w)

/-- One sample stored (R410): a sample that is not taken is lost, and its entry is written with DROP
once the Cellar takes entries again. -/
def State.acqStore (s : State) (u w : Nat) : State :=
  let idx := s.get F.ACQ_WR_IDX_IDX u
  let lost := s.get H.ACQ_DROP_P u
  let r := s.acqPutAt u idx w
  let s1 := if r.2 then
      ((List.range lost).foldl (fun t m =>
        (t.acqPutAt u (idx + t.acqSize u - (m + 1)) (2 ^ 56)).1) r.1).put H.ACQ_DROP_P u 0
    else ((r.1.incSat H.ACQ_DROPPED u).incSat H.ACQ_DROP_P u).acqFlag u 3
  (s1.put F.ACQ_WR_IDX_IDX u ((idx + 1) % s1.acqSize u)).incW H.ACQ_N u

/-- What the level source makes of a sample (R412): whether it is armed after it, and whether it
fires. -/
def levelStep (src : Nat) (ok : Bool) (level hyst v i : Int) : Bool × Bool :=
  let x := if src = 4 ∨ src = 5 then v else i
  if src = 4 ∨ src = 6 then
    if ok && decide (level ≤ x) then (true, true) else (ok || decide (x ≤ level - hyst), false)
  else
    if ok && decide (x ≤ level) then (true, true) else (ok || decide (level + hyst ≤ x), false)

/-- The trigger source after a sample in READY (R411-R413): n is the number of that sample and t its
voltage instant; the time of a timed trigger that came in PRE is past. -/
def State.acqSource (s : State) (u n t : Nat) (v i : Int) (blind : Bool) : State :=
  let src := s.get F.ACQ_CFG_TRIG_SRC u
  if 4 ≤ src ∧ src ≤ 7 then
    if blind then s
    else
      let st := levelStep src (s.on H.ACQ_LVL_OK u) (s.getI H.ACQ_LVL u) (s.get F.ACQ_HYST_CODE u) v i
      let s1 := s.setB H.ACQ_LVL_OK u st.1
      if st.2 then s1.acqFire u n src 0 else s1
  else if src = 8 then
    let want := s.get2 F.ACQ_TTIME_LO_T_LO F.ACQ_TTIME_HI_T_HI u
    let tt := s.whenCommon want
    if s.get H.ACQ_EXACT u = 1 ∧ tt < s.get H.ACQ_T_FIRST u then (s.acqFlag u 9).acqFire u n 8 want
    else if tt ≤ t ∧ (n = 0 ∨ t < tt + us) then s.acqFire u (if tt = t ∨ n = 0 then n else n - 1) 8 want
    else s
  else s

/-- A level source in PRE (R412, R415): it arms, and a trigger there is ignored. -/
def State.acqPreSource (s : State) (u : Nat) (v i : Int) (blind : Bool) : State :=
  let src := s.get F.ACQ_CFG_TRIG_SRC u
  if 4 ≤ src ∧ src ≤ 7 ∧ blind = false then
    let st := levelStep src (s.on H.ACQ_LVL_OK u) (s.getI H.ACQ_LVL u) (s.get F.ACQ_HYST_CODE u) v i
    s.setB H.ACQ_LVL_OK u (st.1 && !st.2)
  else s

/-- IRANGE and VRANGE in force of the sampled unit, and whether it is in a range change. -/
def State.acqRanges (s : State) (u : Nat) : Nat × Nat × Bool :=
  if u < 64 then (s.get F.DPS_CTRL_IRANGE (s.leadOf u), 0, s.dpsRanging (s.leadOf u))
  else (s.get F.SMU_CTRL_IRANGE (u - 64), s.get F.SMU_CTRL_VRANGE (u - 64), s.smuRanging (u - 64))

/-- A sample of a unit (R404, R407, R410-R415). -/
def State.acqSample (s : State) (u : Nat) (a : AcqSeen) : State :=
  if !s.acqLive u || (s.acqState u == aPOST && s.get H.ACQ_LEFT u == 0) then s
  else
    let t := s.get H.ACQ_NEXT u
    let s0 := (s.upTo (t + 500 * ns)).put H.ACQ_NEXT u (t + us)
    let rg := s0.acqRanges u
    let v := clampI (-(2 ^ 23)) (2 ^ 23 - 1) a.volt
    let i := clampI (-(2 ^ 23)) (2 ^ 23 - 1) a.curr
    let beyond := a.beyond || decide (v ≠ a.volt) || decide (i ≠ a.curr)
    let stale := s0.acqCalOwned u
    let n := s0.get H.ACQ_N u
    let s1 := (if n = 0 then s0.put H.ACQ_T_FIRST u t else s0).acqStore u
      (acqEntry v i rg.1 rg.2.1 a.limited beyond stale rg.2.2 false)
    let s2 := if stale then s1.acqFlag u 4 else s1
    let s3 := if a.limited then s2.acqFlag u 5 else s2
    let s4 := if beyond then s3.acqFlag u 6 else s3
    let s5 := if rg.2.2 then s4.acqFlag u 7 else s4
    let blind := rg.2.2 || s5.on H.ACQ_RANGED_P u
    let s6 := s5.setB H.ACQ_RANGED_P u rg.2.2
    let st := s6.acqState u
    if st = aPOST then s6.put H.ACQ_LEFT u (s6.get H.ACQ_LEFT u - 1)
    else
      let s7 := if st = aREADY then s6.acqSource u n t v i blind else s6.acqPreSource u v i blind
      if s7.acqState u = aPOST then s7.setB H.ACQ_FORCE_P u false
      else if s7.on H.ACQ_FORCE_P u then
        ((s7.setB H.ACQ_FORCE_P u false).acqFlag u 0).acqFire u n 15 (stampOf (s7.commonAt t))
      else if st = aPRE ∧ s7.get F.ACQ_PRE_N u ≤ n + 1 then s7.put F.ACQ_CTRL_STATE u aREADY
      else s7

/-- PRE' of a capture (R414): pre-trigger samples that precede the trigger sample. -/
def State.acqPre (s : State) (u : Nat) : Nat := min (s.get F.ACQ_PRE_N u) (s.get H.ACQ_TRIG_N u)

/-- POST samples of a capture that exist. -/
def State.acqPost (s : State) (u : Nat) : Nat :=
  min (s.get F.ACQ_POST_N u) (s.get H.ACQ_N u - s.get H.ACQ_TRIG_N u)

/-- FIRST of a capture: the buffer index of capture sample 0. -/
def State.acqFirst (s : State) (u : Nat) : Nat :=
  (s.get H.ACQ_TRIG_N u - s.acqPre u) % s.acqSize u

/-- The capture descriptor (R408). -/
def State.acqDescriptor (s : State) (u seq : Nat) : List Byte :=
  let pre := s.acqPre u
  let kind := s.get H.ACQ_KIND u
  let exact := if 4 ≤ kind ∧ kind ≤ 7 then 0 else s.get H.ACQ_EXACT u
  leBytes 2 seq ++ leBytes 2 (s.get H.ACQ_FLAGS u) ++ leBytes 1 u ++ leBytes 1 kind
    ++ leBytes 2 (s.get H.ACQ_XTRA u) ++ leBytes 4 (s.acqFirst u) ++ leBytes 4 (pre + s.acqPost u)
    ++ leBytes 4 pre ++ leBytes 4 (s.get H.ACQ_SETUP u)
    ++ leBytes 8 (stampOf (s.commonAt (s.get H.ACQ_T_FIRST u + (s.get H.ACQ_TRIG_N u - pre) * us)))
    ++ leBytes 8 exact ++ leBytes 4 (s.get H.ACQ_DROPPED u) ++ leBytes 4 (s.get H.ACQ_LVL u) ++ zeros 16

/-- The first reduction task of a capture (R420). -/
def State.acqTask (s : State) (u : Nat) : List Byte :=
  mkTask 2 (s.get F.ACQ_CTRL_SITE u) (s.get H.ACQ_RUN u) u (s.get F.ACQ_COUNT_CAPTURES u) 0

/-- The engine that serves the site of a unit (R421). -/
def State.siteEngine (s : State) (i : Nat) : Nat := s.get F.SITE_STATE_ENGINE i

/-- The first reduction task pushed, or left to wait for room (R421). -/
def State.acqPush (s : State) (u : Nat) : State :=
  let r := s.dqPush (s.siteEngine (s.get F.ACQ_CTRL_SITE u)) (s.acqTask u)
  if r.2 then (r.1.setB H.ACQ_PUSH_WAIT u false).put F.ACQ_CTRL_STATE u aREDUCING
  else r.1.setB H.ACQ_PUSH_WAIT u true

/-- A capture completes (R414, R421): descriptor, count, and the first task with AUTO_REDUCE. -/
def State.acqFinish (s : State) (u : Nat) : State :=
  let s0 := if s.acqPre u < s.get F.ACQ_PRE_N u then s.acqFlag u 1 else s
  let seq := (s0.get F.ACQ_COUNT_CAPTURES u + 1) % 65536
  let s1 := s0.celPut clsAcq (celOff (s0.acqBase u)) (s0.acqDescriptor u seq)
  let s2 := (s1.put F.ACQ_COUNT_CAPTURES u seq).put F.ACQ_FIRST_IDX_IDX u (s1.acqFirst u)
  let s3 := s2.put F.ACQ_CTRL_STATE u aDONE
  if s3.on F.ACQ_CFG_AUTO_REDUCE u && s3.on F.ACQ_CTRL_BOUND u then s3.acqPush u else s3

/-- The finish of a site reaches a unit (R415): PRE or READY is cancelled, POST completes with what it
has. -/
def State.acqSiteEnd (s : State) (u : Nat) : State :=
  if s.acqState u = aPOST then
    (if s.get H.ACQ_LEFT u = 0 then s else s.acqFlag u 2).acqFinish u
  else s.acqCancel u

/-! ## What markers, trigger actions and latches reach -/

/-- The units of a site. -/
def State.siteTdcs (s : State) (i : Nat) : List Nat :=
  match s.entryOf i with | none => [] | some e => e.tdcList
def State.siteAcqs (s : State) (i : Nat) : List Nat :=
  match s.entryOf i with | none => [] | some e => e.acqList

/-- An armed TDC that waits for an opening of a kind opens at a moment (R390). -/
def State.tdcOpenBy (s : State) (j src t : Nat) : State :=
  if s.on F.TDC_CTRL_ARMED j && !s.on F.TDC_CTRL_OPEN j && s.get F.TDC_AUX_OPEN_SRC j == src
      && s.get H.TDC_OPEN_DUE j == 0 then s.setDue H.TDC_OPEN_DUE j (max t (s.get H.TDC_ARM_T j))
  else s

/-- A rising edge of a marker of a site (R216, R390, R411): mk 0 or 1. -/
def State.markerRise (s : State) (i mk t : Nat) : State :=
  let s1 := s.each (s.siteTdcs i) (fun u j => u.tdcOpenBy j (2 + mk) t)
  s1.each (s1.siteAcqs i) (fun u a =>
    if u.get F.ACQ_CFG_TRIG_SRC a = 2 + mk then u.acqTrigger a (2 + mk) t else u)

/-- A trigger action reaches TDCs and acquisition units (R186, R390, R411). -/
def State.trigReaches (s : State) (line t : Nat) : State :=
  let s1 := s.each (List.range 128) (fun u j =>
    if u.get F.TDC_AUX_OPEN_LINE j = line then u.tdcOpenBy j 1 t else u)
  s1.each (List.range 96) (fun u a =>
    if u.get F.ACQ_CFG_TRIG_SRC a = 1 ∧ u.get F.ACQ_CFG_TRIG_LINE a = line then u.acqTrigger a 1 t else u)

/-- The acquisition unit of the DPS or SMU that a monitor watches. -/
def monAcq (i : Nat) : Nat := if i % 20 < 16 then i / 20 * 8 + i % 20 / 2 else 64 + i / 20 * 4 + (i % 20 - 16)

/-- A latch of a monitor reaches the unit that samples its supply (R411). -/
def State.latchReaches (s : State) (i t : Nat) : State :=
  let a := monAcq i
  if s.get F.ACQ_CFG_TRIG_SRC a = 9 then s.acqTrigger a 9 t else s

end Sys2Proof.Machine
end

