-- ==== Sys2Proof/Machine/Records.lean ====
section
/-!
DEFINITION. The records of a site's stream (R304-R320, R238, R422) and the vendor task routines that
write them: fail compression, capture reduction, result packing (R315-R320, R416-R422, R630).
-/

namespace Sys2Proof.Machine

/-! ## Arithmetic of the reductions -/

/-- a / b rounded to the nearest integer, halves away from zero (R417). -/
def rdiv (a : Int) (b : Nat) : Int :=
  if 0 ≤ a then (2 * a + b) / (2 * b : Nat) else -((-2 * a + b) / (2 * b : Nat))

/-- The integer square root, one bit at a time from bit n - 1 down. -/
def isqrtAux : Nat → Nat → Nat → Nat
  | 0, _, r => r
  | n + 1, v, r => isqrtAux n v (if (r + 2 ^ n) * (r + 2 ^ n) ≤ v then r + 2 ^ n else r)

/-- The integer square root of a number below 2^128. -/
def isqrt (v : Nat) : Nat := isqrtAux 64 v 0

/-- The square root of sum / n rounded to the nearest integer (R419). -/
def rms (sum n : Nat) : Nat :=
  let m := isqrt (sum / n)
  if n * ((2 * m + 1) * (2 * m + 1)) ≤ 4 * sum then m + 1 else m

/-- Bytes padded with zeros to a multiple of eight. -/
def pad8 (l : List Byte) : List Byte := l ++ zeros ((8 - l.length % 8) % 8)

/-! ## START, RESULT, STALL and EPOCH records -/

/-- The START record (R310). -/
def State.startRecord (s : State) (i kind engine : Nat) : List Byte :=
  leBytes 1 0x10 ++ leBytes 1 i ++ leBytes 1 kind ++ leBytes 1 engine
    ++ leBytes 2 (s.get F.SITE_RUN_RUN i) ++ leBytes 2 (s.get F.SEQ_START_ENTRY i)
    ++ leBytes 4 (s.get F.SITE_TAG_LO_TAG_LO i) ++ leBytes 4 (s.get F.SITE_TAG_HI_TAG_HI i)
    ++ leBytes 8 s.ts ++ leBytes 2 (s.get F.TB_EPOCH_EPOCH 0) ++ zeros 6

/-- A RESULT record from its fields (R311). -/
def resultBytes (i cause engine bin run flags under stalls vectors tFirst tEnd firstFail failN fsig stored : Nat) :
    List Byte :=
  let l := leBytes 1 0x20 ++ leBytes 1 i ++ leBytes 1 cause ++ leBytes 1 engine ++ leBytes 2 bin ++ leBytes 2 run
    ++ leBytes 2 flags ++ leBytes 2 under ++ leBytes 4 stalls ++ leBytes 8 vectors ++ leBytes 8 tFirst
    ++ leBytes 8 tEnd ++ leBytes 8 firstFail ++ leBytes 4 failN ++ leBytes 4 fsig ++ leBytes 4 stored
  l ++ leBytes 4 (crc32c l)

/-- The bin of a test that ends (R302, R303): the reserved bin of its first cause, or the engine's
BIN at that moment, where a reserved value is recorded as 0xFFFF with BIN_RANGE. -/
def State.finalBin (s : State) (i : Nat) : Nat × Bool :=
  let forced := s.get H.ST_BIN_FORCE i
  if forced ≠ 0 ∧ forced ≤ 0x10000 then (forced - 1, false)
  else
    let b := if forced = 0 then s.get H.ENG_BIN (s.siteEngine i) else forced - 0x10001
    if 0xFFF0 ≤ b then (0xFFFF, true) else (b, false)

/-- FLAGS of a RESULT record. -/
def State.resultFlags (s : State) (i : Nat) (binRange : Bool) : Nat :=
  b2n (s.on F.SEQ_SSTAT_TIMING_BROKEN i) + b2n (s.on H.ST_SITE_FAIL i) * 2 + b2n (s.on H.ST_TRIPPED i) * 4
    + b2n (s.on H.ST_FAIL_LIMIT i) * 8 + b2n (s.on H.ST_FAIL_OVF i) * 16 + b2n (s.on H.ST_REC_LOST i) * 32
    + b2n (s.on F.SEQ_SSTAT_DECODE_ERR i) * 64 + b2n binRange * 128 + b2n (s.on H.ST_IS_RETEST i) * 256
    + b2n (s.on H.ST_TASKS_CUT i) * 1024

/-- Vectors that a site has played since its START (SEQ_VEC). -/
def State.seqVec (s : State) (i : Nat) : Nat := s.get2 F.SEQ_VEC_LO_VEC_LO F.SEQ_VEC_HI_VEC_HI i

/-- The RESULT record of the test that ends (R311). -/
def State.resultRecord (s : State) (i : Nat) : List Byte :=
  let b := s.finalBin i
  let tEnd := if s.on H.SQ_CHAINED i then s.get H.SQ_T_END i else s.get H.ST_HALT_T i
  resultBytes i (s.get H.ST_CAUSE i) (s.siteEngine i) b.1 (s.get F.SITE_RUN_RUN i) (s.resultFlags i b.2)
    (s.get F.SEQ_SSTAT_UNDERRUNS i) (satAt 32 (s.get2 F.SEQ_STALL_LO_ST_LO F.SEQ_STALL_HI_ST_HI i)) (s.seqVec i)
    (s.get H.SQ_T_FIRST i) tEnd (s.get H.ST_FIRST_FAIL i) (s.get F.SITE_FAILVEC_COUNT i)
    (s.get F.SITE_FSIG_FSIG i) (s.get F.SITE_FAILSTORED_COUNT i)

/-- The RESULT record of a test cut by a warm reset (R301). -/
def warmResult (i engine run : Nat) (held : Bool) : List Byte :=
  resultBytes i 5 engine 0xFFFD run (b2n held * 512) 0 0 0 (2 ^ 64 - 1) (2 ^ 64 - 1) (2 ^ 64 - 1) 0 0 0

/-- A STALL record (R238). -/
def stallBytes (i entry flags vec count ts : Nat) : List Byte :=
  leBytes 1 0x31 ++ leBytes 1 i ++ leBytes 2 entry ++ leBytes 2 flags ++ zeros 2 ++ leBytes 8 vec
    ++ leBytes 8 count ++ leBytes 8 ts

/-- An EPOCH record (R312). -/
def epochBytes (i epoch ts : Nat) : List Byte :=
  leBytes 1 0x30 ++ leBytes 1 i ++ leBytes 2 epoch ++ zeros 4 ++ leBytes 8 ts

/-! ## FAIL_COMPRESS -/

/-- Tokens in making (R317): the previous vector and mask, the run so far, and the bytes. -/
structure TokState where
  first : Bool
  vec : Nat
  mask : Nat
  run : Nat
  out : List Byte
  deriving DecidableEq, Repr

/-- The run written as a RUN token. -/
def TokState.flush (t : TokState) : TokState :=
  if t.run = 0 then t else { t with run := 0, out := t.out ++ leBytes 1 (0x7F + t.run) }

/-- The channel of a mask with exactly one bit set. -/
def oneBit (m : Nat) : Option Nat := (List.range 64).find? (fun j => 2 ^ j == m)

/-- One raw entry added: RUN where it can, then SAME, ONE and FULL (R317; which token where several
fit is the model's choice). -/
def TokState.add (t : TokState) (v m : Nat) : TokState :=
  if !t.first && v == t.vec + 1 && m == t.mask then
    let u := if t.run = 64 then t.flush else t
    { u with vec := v, run := u.run + 1 }
  else
    let u := t.flush
    let delta := leb128 10 (if t.first then 0 else v - t.vec)
    let tok :=
      if m = t.mask then leBytes 1 0 ++ delta
      else
        match oneBit m with
        | some j => leBytes 1 (j + 1) ++ delta
        | none => leBytes 1 0x41 ++ delta ++ leBytes 8 m
    { u with first := false, vec := v, mask := m, out := u.out ++ tok }

/-- The tokens of raw entries, END included. -/
def failTokens (l : List (Nat × Nat)) : List Byte :=
  (l.foldl (fun (t : TokState) e => t.add e.1 e.2) (⟨true, 0, 0, 0, []⟩ : TokState)).flush.out ++ leBytes 1 0x42

/-- A FAILLOG record (R316). -/
def faillogBytes (i run first : Nat) (l : List (Nat × Nat)) : List Byte :=
  let base := match l with | [] => 0 | e :: _ => e.1
  let toks := pad8 (failTokens l)
  leBytes 1 0x22 ++ leBytes 1 i ++ leBytes 2 ((24 + toks.length) / 8) ++ leBytes 2 run ++ leBytes 2 l.length
    ++ leBytes 8 base ++ leBytes 4 first ++ zeros 4 ++ toks

/-- Raw entries from the bytes of the buffer (R313). -/
def rawEntries (b : List Byte) (n : Nat) : List (Nat × Nat) :=
  (List.range n).map (fun j => (fieldB b (16 * j) 8, fieldB b (16 * j + 8) 8))

/-! ## CAPTURE_REDUCE -/

/-- Fields of an entry of a capture buffer (R407). -/
def entV (w : Nat) : Int := sext 24 w
def entI (w : Nat) : Int := sext 24 (w / 2 ^ 24)
def entIR (w : Nat) : Nat := bits w 48 3
def entVR (w : Nat) : Nat := bits w 51 1
/-- The entry is left out of MINMAX, MEAN and RMS (R419): DROP or STALE. -/
def entOut (w : Nat) : Bool := bit w 56 || bit w 54
/-- The sample was lost. -/
def entDrop (w : Nat) : Bool := bit w 56

/-- A value of range r in codes of the reference range (R418): each range is ten times the one
below. -/
def toRef (x : Int) (r ref : Nat) : Int := rdiv x (10 ^ (ref - r))

/-- Voltage and current of an entry in the reference ranges. -/
def refV (ref w : Nat) : Int := toRef (entV w) (entVR w) ref
def refI (ref w : Nat) : Int := toRef (entI w) (entIR w) ref

/-- The least of k, k + 1, ... below k + fuel for which a test holds. -/
def firstFrom (p : Nat → Bool) : Nat → Nat → Nat
  | 0, k => k
  | fuel + 1, k => if p k then k else firstFrom p fuel (k + 1)

/-- BLOCK_LOG2 of n samples in at most m points (R419). -/
def blockLog2 (n m : Nat) : Nat := firstFrom (fun b => ceilDiv n (2 ^ b) ≤ m) 32 0

/-- The samples of block b. -/
def blockOf (l : List Nat) (b lg : Nat) : List Nat := (l.drop (b * 2 ^ lg)).take (2 ^ lg)

/-- A field of a block that has no sample left. -/
def noSample : List Byte := leBytes 4 0x80000000

/-- A signed 32-bit field. -/
def s32 (x : Int) : List Byte := leBytes 4 (code 32 x)

/-- MINMAX of one quantity over a block: minimum and maximum. -/
def minmaxOf : List Int → Option (Int × Int)
  | [] => none
  | x :: xs => some (xs.foldl (fun p y => (min p.1 y, max p.2 y)) (x, x))

/-- The MINMAX element. -/
def minmaxElem (vs is : List Int) : List Byte :=
  match minmaxOf vs, minmaxOf is with
  | some v, some i => s32 v.1 ++ s32 v.2 ++ s32 i.1 ++ s32 i.2
  | _, _ => noSample ++ noSample ++ noSample ++ noSample

/-- The MEAN field of one quantity. -/
def meanElem (l : List Int) : List Byte := if l.isEmpty then noSample else s32 (rdiv l.sum l.length)

/-- The RMS field of one quantity. -/
def rmsElem (l : List Int) : List Byte :=
  if l.isEmpty then noSample else leBytes 4 (rms (l.map (fun x => (x * x).toNat)).sum l.length)

/-- The streams that a mask selects, in the order RAW, MINMAX, MEAN, RMS (R419, R422). -/
def streamBytes (streams vref iref lg points : Nat) (l : List Nat) : List Byte :=
  let blocks := (List.range points).map (fun b => blockOf l b lg)
  let good := blocks.map (fun bl => bl.filter (fun w => !entOut w))
  let raw := if bit streams 0 then (blocks.map (fun bl => leBytes 8 (bl.headD 0))).flatten else []
  let mm := if bit streams 1 then
    (good.map (fun bl => minmaxElem (bl.map (refV vref)) (bl.map (refI iref)))).flatten else []
  let mean := if bit streams 2 then
    (good.map (fun bl => meanElem (bl.map (refV vref)) ++ meanElem (bl.map (refI iref)))).flatten else []
  let rm := if bit streams 3 then
    (good.map (fun bl => rmsElem (bl.map (refV vref)) ++ rmsElem (bl.map (refI iref)))).flatten else []
  raw ++ mm ++ mean ++ rm

/-- The last usable sample at or before index k, and the first at or after it (R417). -/
def usableBefore (l : List Nat) (k : Nat) : Option Nat :=
  ((List.range (k + 1)).map (fun j => k - j)).find? (fun j => match l[j]? with | none => false | some w => !entDrop w)
def usableAfter (l : List Nat) (k : Nat) : Option Nat :=
  ((List.range (l.length - k)).map (fun j => k + j)).find? (fun j => match l[j]? with | none => false | some w => !entDrop w)

/-- Units of 1/1,024 cycle between samples (R404). -/
def stepU : Nat := 1500 * 1024

/-- The value of one quantity at a trigger time (R417), x units of 1/1,024 cycle after the quantity's
instant of capture sample 0, and whether TRIG_EDGE is set for it.  A sample marked DROP gives way to
the nearest usable one: the earlier of the bracket to the one before it, the later to the one after. -/
def interpAt (l : List Nat) (val : Nat → Int) (x : Int) : Int × Bool :=
  let at' (j : Nat) : Int := match l[j]? with | none => 0 | some w => val w
  let near (k : Nat) : Int :=
    match usableBefore l k, usableAfter l k with
    | some a, some b => if k - a ≤ b - k then at' a else at' b
    | some a, none => at' a
    | none, some b => at' b
    | none, none => 0
  if x < 0 then (near 0, true)
  else
    let k := x.toNat / stepU
    let r := x.toNat % stepU
    if l.length ≤ k + (if r = 0 then 0 else 1) then (near (l.length - 1), true)
    else if r = 0 then (near k, false)
    else
      match usableBefore l k, usableAfter l (k + 1) with
      | some a, some b =>
        let span := (b - a) * stepU
        (rdiv (at' a * ((b * stepU : Nat) - x) + at' b * (x - (a * stepU : Nat))) span, false)
      | _, _ => (near k, false)

/-- The arguments of a CAPTURE_REDUCE task (R420). -/
def redUnit (d : List Byte) : Nat := bits (taskArg d 0) 0 7
def redSeq (d : List Byte) : Nat := bits (taskArg d 1) 0 16
def redSlice (d : List Byte) : Nat := bits (taskArg d 1) 16 16

/-- The header page of a unit's buffer. -/
def State.capHeader (s : State) (u : Nat) : List Byte := s.celRaw (celOff (s.acqBase u)) 64

/-- The samples of a capture in order. -/
def State.capSamples (s : State) (u first n : Nat) : List Nat :=
  (List.range n).map (fun j =>
    ofLe (s.celRaw (celOff (s.acqBase u) + 0x1000 + (first + j) % s.acqSize u * 8) 8))

/-- The trigger time of a level source (R416), in units of 1/1,024 cycle from the voltage instant of
capture sample 0, and whether TRIG_EDGE is set; the fraction of a unit is left open, and so is the
whole interpolation where the two samples around the level are equal. -/
def State.levelTime (s : State) (kind k : Nat) (level : Int) (l : List Nat) : (Int × Bool) × State :=
  let cur : Bool := kind == 6 || kind == 7
  let x (j : Nat) : Int := let w := nthD l j 0; if cur then entI w else entV w
  let off : Nat := if cur then 750 * 1024 else 0
  if k = 0 then (((off : Int), true), s)
  else
    let num := (level - x (k - 1)) * stepU
    let den := x k - x (k - 1)
    let d := s.draw
    let m : Int × State := if den = 0 then ((d.1 : Int), d.2)
      else if den < 0 then s.mean (-num) (-den).toNat else s.mean num den.toNat
    ((((((k - 1) * stepU + off : Nat) : Int) + m.1), false), m.2)

/-- The CAPTURE record of a capture (R416-R422). -/
def State.captureRecord (s : State) (site run : Nat) (d : List Byte) : List Byte × State :=
  let u := redUnit d
  let h := s.capHeader u
  let n := fieldB h 0xC 4
  let pre := fieldB h 0x10 4
  let setup := fieldB h 0x14 4
  let a2 := taskArg d 2
  let streams := if a2 = 0 then bits setup 12 4 else bits a2 0 4
  let p := min (if a2 = 0 then bits setup 16 3 else bits a2 4 3) 6
  let l := s.capSamples u (fieldB h 8 4) n
  let kind := fieldB h 5 1
  let t0 := wordUnits (fieldB h 0x18 8)
  let lt := if 4 ≤ kind ∧ kind ≤ 7 then s.levelTime kind pre (sext 24 (fieldB h 0x2C 4)) l
    else (((((wordUnits (fieldB h 0x20 8) : Nat) : Int) - t0), false), s)
  let vref := (l.map entVR).foldl max 0
  let iref := (l.map entIR).foldl max 0
  let v := interpAt l (refV vref) lt.1.1
  let i := interpAt l (refI iref) (lt.1.1 - (750 * 1024 : Nat))
  let edge := lt.1.2 || v.2 || i.2
  let lg := blockLog2 n (128 * 2 ^ p)
  let points := ceilDiv n (2 ^ lg)
  let data := streamBytes streams vref iref lg points l
  let flags := fieldB h 2 2 % 1024
  let hdr := leBytes 1 0x24 ++ leBytes 1 site ++ leBytes 2 ((64 + data.length) / 8) ++ leBytes 2 run
    ++ leBytes 1 u ++ leBytes 1 kind ++ leBytes 2 (if edge then setBit flags 8 else flags) ++ leBytes 1 streams
    ++ leBytes 1 lg ++ leBytes 4 points ++ leBytes 4 n ++ leBytes 4 pre ++ leBytes 8 (fieldB h 0x18 8)
    ++ leBytes 8 (unitsWord ((t0 : Int) + lt.1.1).toNat) ++ s32 v.1 ++ s32 i.1 ++ leBytes 1 vref ++ leBytes 1 iref
    ++ leBytes 2 (redSeq d) ++ leBytes 2 (fieldB h 6 2) ++ zeros 6
  (hdr ++ leBytes 4 (crc32c (hdr ++ data)) ++ data, lt.2)

/-! ## The task routines -/

/-- A bad task counted (R319). -/
def State.badTask (s : State) : State := s.incSat F.STL_STAT_BADTASK 0

/-- FAIL_COMPRESS (R315-R317, R319). -/
def State.runFailCompress (s : State) (d : List Byte) : State :=
  let i := taskSite d
  let first := taskArg d 0
  let n := taskArg d 1
  match s.entryOf i with
  | none => s.badTask
  | some e =>
    if n = 0 ∨ 512 < n ∨ s.get F.SITE_FAILSTORED_COUNT i < first + n then s.badTask
    else
      let r := s.celRead clsHearth (celOff e.failBase + first * 16) (n * 16)
      match r.2 with
      | none => r.1
      | some b => r.1.recAppend i (faillogBytes i (taskRun d) first (rawEntries b n))

/-- RESULT_PACK (R319, R320). -/
def State.runResultPack (s : State) (d : List Byte) : State :=
  let a := taskArg d 0
  let n := taskArg d 1
  if a % 8 ≠ 0 ∨ n = 0 ∨ 255 < n ∨ 0x1F0000 < a + 8 * n then s.badTask
  else
    s.recAppend (taskSite d) (leBytes 1 0x23 ++ leBytes 1 (taskSite d) ++ leBytes 2 (1 + n) ++ leBytes 2 (taskRun d)
      ++ leBytes 1 n ++ leBytes 1 0 ++ s.spRead a (8 * n))

/-- The last task of a chain completes: the unit shows DONE (R421). -/
def State.reduced (s : State) (u : Nat) : State :=
  if s.acqState u = aREDUCING then s.put F.ACQ_CTRL_STATE u aDONE else s

/-- The task of the next slice (R420). -/
def nextSlice (d : List Byte) : List Byte :=
  mkTask 2 (taskSite d) (taskRun d) (taskArg d 0) ((taskArg d 1 + 65536) % 2 ^ 32) (taskArg d 2)

/-- The record of a whole capture, whoever performs the last slice. -/
def State.finishReduce (s : State) (d : List Byte) : State :=
  let r := s.captureRecord (taskSite d) (taskRun d) d
  (r.2.recAppend (taskSite d) r.1).reduced (redUnit d)

/-- CAPTURE_REDUCE (R420): a slice that is not the last pushes the next on a deque, or the runner
performs it itself where the deque is full (R26). -/
def State.runCaptureReduce (s : State) (d : List Byte) (deque : Nat) : State :=
  let u := redUnit d
  if 96 ≤ u ∨ redSeq d ≠ fieldB (s.capHeader u) 0 2 then s.badTask
  else if (redSlice d + 1) * 4096 < fieldB (s.capHeader u) 0xC 4 then
    let r := s.dqPush deque (nextSlice d)
    if r.2 then r.1 else r.1.finishReduce d
  else s.finishReduce d

/-- A task run, whatever its type (R319). -/
def State.runTask (s : State) (d : List Byte) (deque : Nat) : State :=
  match taskType d with
  | 1 => s.runFailCompress d
  | 2 => s.runCaptureReduce d deque
  | 3 => s.runResultPack d
  | _ => s.badTask

/-- The task that an engine holds. -/
def State.heldTask (s : State) (k : Nat) : List Byte := leBytes 16 (s.get H.ENG_TASK_D k)

/-- The routine of the task that an engine holds, once. -/
def State.engTaskRun (s : State) (k : Nat) : State :=
  if s.on F.ENG_STAT_TASK_HELD k && !s.on H.ENG_TASK_RAN k then
    (s.runTask (s.heldTask k) k).setB H.ENG_TASK_RAN k true
  else s

/-- The held task completed (R282, R321): DONE of the deque it was taken from advances. -/
def State.engTaskDone (s : State) (k : Nat) : State :=
  if s.on F.ENG_STAT_TASK_HELD k then
    (((s.engTaskRun k).dqDone (s.get H.ENG_TASK_DEQUE k)).setB F.ENG_STAT_TASK_HELD k false).setB H.ENG_TASK_RAN k false
  else s

/-- A task routine runs at its row (R319, R630): an engine runs the task it holds; Hearth takes the
oldest task of a deque whose owner never pops it. -/
def State.taskRow (s : State) (r : TaskRunner) (typ : Nat) : State :=
  match r with
  | .engine k =>
    if s.on F.ENG_STAT_TASK_HELD k && taskType (s.heldTask k) == typ then s.engTaskRun k else s
  | .hearth q =>
    if s.on F.ENG_CTRL_STEAL_EN q then s
    else
      match s.dqTake q with
      | none => s
      | some (t, d) => if taskType d = typ then (t.runTask d q).dqDone q else s

end Sys2Proof.Machine
end

