-- ==== Sys2Proof/Machine/Operands.lean ====
section
/-!
DEFINITION. The operands of a micro-word: its fields (R245), the registers that microcode sees
(R242-R244) and the 64 conditions (R250).
-/

namespace Sys2Proof.Machine

/-! ## The micro-word -/

/-- Word w of the control store of engine k: an unloaded word is all zeros (R264). -/
def State.csWord (s : State) (k w : Nat) : Nat := (lookKey (k * 4096 + w) s.cstore).getD 0

/-- A word of the control store written. -/
def State.csPut (s : State) (k w v : Nat) : State :=
  { s with cstore := storeKey 0 (k * 4096 + w % 4096) (v % 2 ^ 128) s.cstore }

/-- Fields of a micro-word (R245). -/
def wSEQ (w : Nat) : Nat := bits w 124 4
def wCOND (w : Nat) : Nat := bits w 118 6
def wTGT (w : Nat) : Nat := bits w 106 12
def wALU (w : Nat) : Nat := bits w 100 6
def wSA (w : Nat) : Nat := bits w 94 6
def wSB (w : Nat) : Nat := bits w 88 6
def wDST (w : Nat) : Nat := bits w 82 6
def wIMM (w : Nat) : Nat := bits w 50 32
def wPIN (w : Nat) : Nat := bits w 34 16
def wANA (w : Nat) : Nat := bits w 18 16
def wMEM (w : Nat) : Nat := bits w 10 8
def wCNT (w : Nat) : Nat := bits w 4 6
def wATOM (w : Nat) : Bool := bit w 3
def wBRK (w : Nat) : Bool := bit w 2
def wRSV (w : Nat) : Bool := bit w 1

/-- The parity of a word is good: an odd number of ones in all (R245). -/
def parityOk (w : Nat) : Bool := popcount 128 w % 2 == 1

/-- The operation codes of PINOP, ANAOP and MEMOP. -/
def pinCode (p : Nat) : Nat := bits p 12 4
def anaCode (a : Nat) : Nat := bits a 11 5
def anaIdx (a : Nat) : Nat := bits a 5 6
def anaArg (a : Nat) : Nat := bits a 0 5
def memCode (m : Nat) : Nat := bits m 4 4

/-- A long ANAOP: WAIT, SETTLE or MEASURE (R257). -/
def anaLong (a : Nat) : Bool := anaCode a == 24 || anaCode a == 25 || anaCode a == 26

/-- A MEMOP that gives DST a value (R259). -/
def memLoads (m : Nat) : Bool :=
  memCode m == 1 || memCode m == 3 || memCode m == 5 || memCode m == 9 || memCode m == 11

/-- A MEMOP whose store is posted. -/
def memStores (m : Nat) : Bool := memCode m == 2 || memCode m == 4

/-- A MEMOP that takes its offset from SA. -/
def memOffset (m : Nat) : Bool :=
  memCode m == 1 || memCode m == 2 || memCode m == 3 || memCode m == 4 || memCode m == 7 || memCode m == 8

/-- The word reads SA, and reads SB, as a source (R247). -/
def wordUsesA (w : Nat) : Bool := aluUsesA (wALU w % 32) || memOffset (wMEM w) || wSEQ w == 8
def wordUsesB (w : Nat) : Bool :=
  (aluUsesB (wALU w % 32) && !bit (wALU w) 5) || memStores (wMEM w) || memCode (wMEM w) == 10 || wCNT w % 16 == 2

/-! ## Registers -/

/-- PC, frame depth and return-stack depth of an engine. -/
def State.pcOf (s : State) (k : Nat) : Nat := s.get F.ENG_STAT_PC k
def State.depthOf (s : State) (k : Nat) : Nat := s.get F.ENG_STAT_DEPTH k
def State.rspOf (s : State) (k : Nat) : Nat := s.get F.ENG_STAT_RSP k

/-- A register of an engine as it stands (R242). -/
def State.engReg (s : State) (k i : Nat) : Nat :=
  if i < 48 then s.get H.ENG_G (k * 64 + i)
  else if i < 52 then s.get H.ENG_L (k * 4 + (i - 48))
  else
    match i with
    | 52 => match s.engSite k with | some j => j | none => 0x80000000
    | 53 => s.get H.ENG_FLAGS k
    | 54 => s.get H.ENG_RESULT k
    | 55 => s.get H.ENG_RESSTAT k
    | 56 => s.get H.ENG_BIN k
    | 57 => s.ts % 2 ^ 32
    | 58 => s.get H.ENG_TNOW_HI k
    | 59 => match qGet s.h2e k with | [] => 0 | m :: _ => m.word
    | 60 => s.get H.ENG_TCAUSE k
    | 61 => match s.engSite k with | some j => s.seqVec j % 2 ^ 32 | none => 0
    | 62 => s.get H.ENG_VEC_HI k
    | _ => 0

/-- What a read of a register changes (R242, R244): snapshots, and the head word of MBX. -/
def State.engRegTake (s : State) (k i : Nat) : State :=
  match i with
  | 57 => s.put H.ENG_TNOW_HI k (s.ts / 2 ^ 32)
  | 59 => { s with h2e := qSet s.h2e k ((qGet s.h2e k).drop 1) }
  | 61 => s.put H.ENG_VEC_HI k (match s.engSite k with | some j => s.seqVec j / 2 ^ 32 | none => 0)
  | _ => s

/-- A bit of FLAGS set. -/
def State.flagSet (s : State) (k b : Nat) (v : Bool) : State :=
  s.put H.ENG_FLAGS k (putBit (s.get H.ENG_FLAGS k) b v)

/-- A word that an engine posts to Hearth (R244, R514, R516). -/
def State.engPost (s : State) (k v : Nat) : State :=
  if (qGet s.e2h k).length < 8 then
    ({ s with e2h := qSet s.e2h k (qGet s.e2h k ++ [(⟨v, s.get F.MBX_ENG_STAT_ENG_EPOCH k⟩ : MbxWord)]) }).irq k
  else s.flagSet k flME true

/-- Engine state codes (ENG_STAT). -/
def eOFF : Nat := 0
def eIDLE : Nat := 1
def eRUN : Nat := 2
def eWAIT : Nat := 3
def eTASK : Nat := 4
def eSTOPPED : Nat := 5
def eHALTED : Nat := 6
def eABORTING : Nat := 7

/-- The state that the engine is in, a wait aside. -/
def State.engState (s : State) (k : Nat) : Nat := if s.engPowered k then s.get F.ENG_STAT_STATE k else eOFF

/-- The engine runs an abort handler (R279). -/
def State.aborting (s : State) (k : Nat) : Bool :=
  s.get F.ENG_STAT_STATE k == eABORTING || (s.get F.ENG_STAT_STATE k == eSTOPPED && s.get H.ENG_PRE_STOP k == eABORTING)

/-- A register of an engine written by microcode (R242, R244); an abort handler's write of BIN is
discarded (R279). -/
def State.engRegPut (s : State) (k i v : Nat) : State :=
  if i < 48 then s.put H.ENG_G (k * 64 + i) v
  else if i < 52 then s.put H.ENG_L (k * 4 + (i - 48)) v
  else
    match i with
    | 53 => s.put H.ENG_FLAGS k (v % 256)
    | 56 => if s.aborting k then s else s.put H.ENG_BIN k v
    | 59 => s.engPost k v
    | _ => s

/-! ## Conditions -/

/-- A word of a site is not yet acknowledged by the tile: PINOPs, or ANAOPs. -/
def State.unacked (s : State) (k : Nat) (ana : Bool) : Bool := (qGet s.cmdq k).any (fun c => c.ana == ana)

/-- A channel's PMU has an operation in progress. -/
def State.pmuBusy (s : State) (ch : Nat) : Bool :=
  s.on F.PMU_CTRL_BUSY ch || s.on F.PMU_CTRL_RANGING ch || s.get H.CH_PMU_SW_END ch != 0

/-- A DPS has an operation in progress: a ramp, a range change, a measurement. -/
def State.dpsBusy (s : State) (d : Nat) : Bool := s.ramping d || s.dpsRanging d || s.on F.DPS_MEAS_BUSY d

/-- An SMU has an operation in progress: its switch, a range change, a measurement. -/
def State.smuBusy (s : State) (u : Nat) : Bool :=
  s.smuRanging u || s.on F.SMU_MEAS_BUSY u
    || (match s.due H.SMU_SW_END u with | none => false | some t => decide (s.now < t))

/-- ANA_BUSY (R272): site DPS 0-7, site SMU 0-3, a PMU, an acquisition unit, a TDC with an operation
in progress.  A TDC is busy while its interpolators convert the references of its arm. -/
def State.anaBusyMask (s : State) (k : Nat) : Nat :=
  match (s.engSite k).bind s.entryOf with
  | none => 0
  | some e =>
    maskOf ((e.dpsList.zipIdx.filter (fun p => s.dpsBusy p.1)).map (fun p => p.2))
      + maskOf ((e.smuList.zipIdx.filter (fun p => s.smuBusy p.1)).map (fun p => p.2)) * 256
      + b2n (e.channels.any s.pmuBusy) * 2 ^ 12 + b2n (e.acqList.any s.acqLive) * 2 ^ 13
      + b2n (e.tdcList.any (fun j => s.on F.TDC_CTRL_ARMED j && decide (s.now < s.get H.TDC_ARM_T j + 10 * coreCycle))) * 2 ^ 14

/-- The condition of a site (R250), codes 13 to 22, 30, 33 to 37, 40, 48 to 55. -/
def State.siteCond (s : State) (k i c : Nat) : Bool :=
  match c with
  | 13 => s.on H.ST_SITE_FAIL i
  | 14 => s.on H.ST_MARK_FAIL i
  | 15 => s.on F.SEQ_SSTAT_CHAIN_DONE i
  | 16 => s.get F.SEQ_CUR_DECIDED i != 0xFFFF
  | 17 => s.on F.SEQ_JUMP_REQ_PENDING i
  | 18 => s.on F.SEQ_SSTAT_STALLING i
  | 19 => s.on F.SEQ_SSTAT_TIMING_BROKEN i
  | 20 => s.on F.SITE_TSTAT_WAIT_START i
  | 21 => s.on H.SQ_MK0 i
  | 22 => s.on H.SQ_MK1 i
  | 30 => s.siteTripped i
  | 33 =>
    match s.entryOf i with
    | none => true
    | some e => e.smuList.all (fun u => !s.on H.SW_STARTED u || s.on F.SMUW_CUR_CHAIN_DONE u)
  | 34 => (s.siteTdcs i).any (fun j => !(s.tdcQueue j).isEmpty)
  | 35 => (s.siteAcqs i).all (fun u => !s.acqLive u)
  | 36 => s.on H.ST_TRIG_ARR i
  | 37 => s.siteState i == sPAUSED
  | 40 => s.on F.SEQ_SSTAT_START_DEFERRED i
  | 41 => s.on H.ENG_START_PEND k
  | _ => if 48 ≤ c then bit (s.get H.ST_GFAIL i) (c - 48) else false

/-- A condition of an engine (R250). -/
def State.cond (s : State) (k c : Nat) : Bool :=
  let fl := s.get H.ENG_FLAGS k
  let rs := s.get H.ENG_RESSTAT k
  match c with
  | 0 => true
  | 1 => flZ fl
  | 2 => flN fl
  | 3 => flC fl
  | 4 => flV fl
  | 5 => flN fl != flV fl
  | 6 => flZ fl || flN fl != flV fl
  | 7 => !flC fl
  | 8 => !flC fl || flZ fl
  | 9 => s.get H.ENG_L (k * 4) == 0
  | 10 => s.get H.ENG_L (k * 4 + 1) == 0
  | 11 => s.get H.ENG_L (k * 4 + 2) == 0
  | 12 => s.get H.ENG_L (k * 4 + 3) == 0
  | 23 => s.unacked k false
  | 24 => s.unacked k true || s.anaBusyMask k != 0
  | 25 => bit fl flRF
  | 26 => bit rs 0
  | 27 => bit rs 1
  | 28 => bit rs 2
  | 29 => bit rs 3
  | 31 => !(qGet s.h2e k).isEmpty
  | 32 => decide (8 ≤ (qGet s.e2h k).length)
  | 38 => s.on F.MODE_STAT_THROTTLE 0
  | 39 => s.on F.MODE_STAT_WARN 0
  | 42 => s.on F.ENG_STAT_TASK_HELD k
  | 43 => bit fl flME
  | 44 => bit fl flSL
  | _ =>
    match s.engSite k with
    | none => false
    | some i => if c ≤ 55 then s.siteCond k i c else false

/-- TRIG_ARR is taken by a BRT, BRF or WAITEV that finds it true (R251). -/
def State.condTake (s : State) (k c : Nat) : State :=
  if c = 36 then
    match s.engSite k with
    | none => s
    | some i => s.setB H.ST_TRIG_ARR i false
  else s

end Sys2Proof.Machine
end

