-- ==== Sys2Proof/Machine/Engine.lean ====
section
/-!
DEFINITION. How a chain stops, how a test ends, and the traps, waits, halts and aborts of a Room
engine (R271-R284, R240, R298-R303).
-/

namespace Sys2Proof.Machine

/-! ## The chain stops -/

/-- A write that waited for a boundary takes effect (R136, R137). -/
def State.pendAct (s : State) : PendWrite → State
  | .level ch lvl => s.levelNow ch lvl
  | .bank ch v => s.bankNow ch v

/-- All writes that wait for a boundary of a site take effect. -/
def State.pendApply (s : State) (i : Nat) : State :=
  let s1 := { s with pendW := qSet s.pendW i [] }
  s1.each (qGet s.pendW i) State.pendAct

/-- The STALL record of the present episode (R238), and the end of stalling. -/
def State.stallEnd (s : State) (i flags : Nat) : State :=
  if s.on F.SEQ_SSTAT_STALLING i then
    (s.setB F.SEQ_SSTAT_STALLING i false).recAppend i
      (stallBytes i (s.get F.SEQ_CUR_ENTRY i) flags (s.get H.SQ_STALL_VEC i) (s.get H.SQ_STALL_N i) (s.get H.SQ_STALL_TS i))
  else s

/-- A waiting chain start is dropped (R190, R299). -/
def State.waitDrop (s : State) (i : Nat) : State :=
  (((s.put H.SQ_WAIT i 0).setB F.SITE_TSTAT_WAIT_START i false).setB F.SEQ_SSTAT_START_DEFERRED i false).noDue
    H.SQ_HOLD_END i

/-- The chain plays nothing further from now on: drivers keep their last static level, compares are
masked, the site leaves its pass (R214, R223, R278). -/
def State.chainOff (s : State) (i : Nat) : State :=
  let s1 := (((s.setB H.SQ_PLAYING i false).put H.SQ_STOP_REQ i 0).setB H.SQ_MK0 i false).setB H.SQ_MK1 i false
  let s2 := ((s1.put F.SEQ_CUR_DECIDED i 0xFFFF).setB H.SQ_CHAIN_PAUSED i false).put H.SQ_T_END i s.ts
  let s3 := { s2 with ports := qSet s2.ports i [] }
  (s3.setB H.SQ_PAUSE_REQ i false).pendApply i

/-- The chain stops at this boundary: a stall in progress is recorded with OPEN and the other flags
given. -/
def State.chainStopNow (s : State) (i flags : Nat) : State :=
  if s.on H.SQ_PLAYING i then (s.stallEnd i (flags ||| 4)).chainOff i
  else ((s.waitDrop i).setB H.SQ_CHAIN_PAUSED i false)

/-- The chain stops at its next vector boundary, or at once where none plays (R278, R299). -/
def State.chainStopNext (s : State) (i : Nat) : State :=
  if s.on H.SQ_PLAYING i then s.put H.SQ_STOP_REQ i 1 else s.chainStopNow i 0

/-! ## Ends of a test -/

/-- A test of the site runs and has not begun to finish. -/
def State.testOpen (s : State) (i : Nat) : Bool := s.active i && !s.on F.SITE_STATE_FINISHING i

/-- The first cause that ends a test decides CAUSE and bin (R303): a bin of 0 takes the engine's, as BIN stands
at that moment. -/
def State.testCause (s : State) (i cause bin : Nat) : State :=
  if s.get H.ST_CAUSE i = 0 then
    ((s.put H.ST_CAUSE i cause).put H.ST_BIN_FORCE i
      (if bin = 0 then 0x10001 + s.get H.ENG_BIN (s.siteEngine i) else bin + 1)).put H.ST_HALT_T i s.ts
  else s

/-- Semaphores held by an owner. -/
def State.semsOf (s : State) (id : Nat) : List Nat :=
  (List.range 64).filter (fun n => s.semHeld n && s.get F.SEM_PEEK_OWNER n == id)

/-- The release of a semaphore entered in the Hearth event log (R324, R626): its code in 0x8000 to 0xFFFF
and its data are left open. -/
def State.logRelease (s : State) : State :=
  let c := s.draw
  let d := c.2.draw
  d.2.helWrite (0x8000 + c.1 % 0x8000) (leBytes 16 d.1)

/-- Semaphores of a halted engine, or of one that enters vector 0, are released, and each release is
logged (R324). -/
def State.engSems (s : State) (k : Nat) : State :=
  (s.each (s.semsOf k) (fun t _ => t.logRelease)).semFreeAll k

/-- The engine waits for nothing: waits and loads in progress are cancelled. -/
def State.engNoWait (s : State) (k : Nat) : State :=
  ((s.put H.ENG_WAIT k 0).noDue H.ENG_WAIT_END k).setB H.ENG_LD_ON k false

/-- Every frame is discarded, and the return stack is empty. -/
def State.engNoFrames (s : State) (k : Nat) : State :=
  ((s.put F.ENG_STAT_DEPTH k 0).put F.ENG_STAT_RSP k 0).put H.ENG_ATOM_N k 0

/-- The site of an engine does not need it: none, IDLE, ENDED, or its test has been halted. -/
def State.engFree (s : State) (k : Nat) : Bool :=
  match s.engSite k with
  | none => true
  | some i => !s.active i || s.on H.ST_HALTED i

/-- Modes in which engines run stolen tasks (R111). -/
def State.stealModes (s : State) : Bool := s.mode == mRUN || s.mode == mCALIBRATE || s.mode == mFACTORY

/-- A stealing engine with nothing of its own to do runs its idle routine (R111, R281). -/
def State.engIdle (s : State) (k : Nat) : State :=
  if s.on F.ENG_CTRL_STEAL_EN k && s.engFree k && s.stealModes then
    (((s.put F.ENG_STAT_STATE k eRUN).put F.ENG_STAT_PC k (s.get F.ENG_CTRL_IDLE_PC k)).put H.ENG_PRE_STOP k 0).engNoWait k
  else s

/-- The engine stands with nothing to run: IDLE or HALTED. -/
def State.engRests (s : State) (k : Nat) : Bool := s.engState k == eIDLE || s.engState k == eHALTED

/-- An engine that rests goes to its idle routine where it may (R281). -/
def State.engIdleStart (s : State) (k : Nat) : State := if s.engRests k then s.engIdle k else s

/-- Outputs of a site begin to go safe unless they already do (R298, R299). -/
def State.siteOutSafe (s : State) (i : Nat) : State := if s.siteSafeBusy i then s else s.siteSafeStart i

/-- What the halt of its engine does to a site's test (R278, R298, R299): FINISHING, the chain stop,
and the outputs safe with END_SAFE or after an abort. -/
def State.testHalted (s : State) (i cause : Nat) (aborted : Bool) : State :=
  if s.active i && !s.on H.ST_HALTED i then
    let s1 := if cause = 0 then s.testCause i 1 0 else s.testCause i 3 0xFFFF
    let s2 := ((s1.setB H.ST_HALTED i true).setB F.SITE_STATE_FINISHING i true).chainStopNext i
    if aborted || cause != 0 || s2.on F.SITE_STATE_END_SAFE i then s2.siteOutSafe i else s2
  else s

/-- The engine halts (R278): frames are discarded, its semaphores are free, the test of its site ends,
and a stealing engine goes on with its idle routine. -/
def State.engHalt (s : State) (k cause : Nat) : State :=
  let aborted := s.aborting k || s.get H.ENG_ABORT k != 0
  let s1 := ((s.engTaskDone k).put F.ENG_HALT_PC k (s.pcOf k)).put F.ENG_HALT_CAUSE k cause
  let s2 := ((s1.put F.ENG_STAT_STATE k eHALTED).setB F.ENG_STAT_AUTORUN k false).put H.ENG_PRE_STOP k 0
  let s3 := (((s2.engNoWait k).engNoFrames k).put H.ENG_ABORT k 0).noDue H.ENG_ABORT_END k
  let s4 := ((s3.unpendTrap k 11).setB H.ENG_STEPPING k false).engSems k
  let s5 := match s.engSite k with | none => s4 | some i => s4.testHalted i cause aborted
  s5.engIdle k

/-- An abort reaches the engine of a site (R279): trap 11 becomes pending and the abort timeout
starts; a second one is merged.  An abort by the sequencer puts the infrastructure bin in BIN.  An
entry at vector 0 that still waits is cancelled (R280). -/
def State.engAbort (s : State) (k by_ : Nat) : State :=
  if s.get H.ENG_ABORT k ≠ 0 then s
  else
    let s1 := if by_ = 2 then s.put H.ENG_BIN k 0xFFFF else s
    let s2 := ((s1.put H.ENG_ABORT k by_).pendTrap k 11).setDue H.ENG_ABORT_END k
      (s.now + s.get F.ENG_ABORT_TMO_US k * us)
    if s.on H.ENG_START_PEND k then s2.setB H.ENG_START_CUT k true else s2

/-- A sequencer stop (R240): an ABORT with the infrastructure bin, the chain stopping now. -/
def State.seqStop (s : State) (i flags : Nat) : State :=
  if s.testOpen i then
    (((s.testCause i 3 0xFFFF).chainStopNow i flags).setB H.ST_OUT_SAFE i true).engAbort
      (s.siteEngine i) 2
  else if s.active i then s.chainStopNow i flags
  else s

/-! ## Waits and frames -/

/-- One ENG cycle in ticks: 1.333 ns. -/
def engCycle : Nat := 4000

/-- A word of the shadow frame. -/
def State.frameW (s : State) (k w : Nat) : Nat := s.get H.ENG_FRAME (k * 16 + w % 16)

/-- A word of the shadow frame written. -/
def State.framePut (s : State) (k w v : Nat) : State := s.put H.ENG_FRAME (k * 16 + w % 16) v

/-- Spill slot n - 1 of an engine (R273): the place of frame n. -/
def spillAt (k n : Nat) : Nat := 0x40000 + k * 0x200 + (n - 1) * 0x40

/-- The shadow frame spilled to the slot of frame n. -/
def State.frameSpill (s : State) (k n : Nat) : State :=
  s.spWrite (spillAt k n) ((List.range 16).map (fun w => leBytes 4 (s.frameW k w))).flatten

/-- The shadow frame filled from the slot of frame n. -/
def State.frameFill (s : State) (k n : Nat) : State :=
  s.each (List.range 16) (fun t w => t.framePut k w (s.spWord (spillAt k n + 4 * w)))

/-- A word of frame n, shadow or spilled. -/
def State.frameWordAt (s : State) (k n w : Nat) : Nat :=
  if n = s.depthOf k then s.frameW k w else s.spWord (spillAt k n + 4 * w)

/-- A word of frame n written. -/
def State.frameWordPut (s : State) (k n w v : Nat) : State :=
  if n = s.depthOf k then s.framePut k w v else s.spPut (spillAt k n + 4 * w) v

/-- Frames in use: 1 to the depth. -/
def State.framesOf (s : State) (k : Nat) : List Nat := (List.range (s.depthOf k)).map (· + 1)

/-- LONG of a frame (R272): ACTIVE, REISSUE, kind, PEND. -/
def lACTIVE (l : Nat) : Bool := bit l 0
def lREISSUE (l : Nat) : Bool := bit l 1
def lKIND (l : Nat) : Nat := bits l 2 2
def lPEND (l : Nat) : Bool := bit l 4

/-- The engine waits in a long operation or WAITEV. -/
def State.waits (s : State) (k : Nat) : Bool := 1 ≤ s.get H.ENG_WAIT k && s.get H.ENG_WAIT k ≤ 4

/-- Remaining ENG cycles of the wait (R272): all ones without a limit. -/
def State.waitRem (s : State) (k : Nat) : Nat :=
  match s.due H.ENG_WAIT_END k with
  | none => 0xFFFFFFFF
  | some t => ceilDiv (t - s.now) engCycle

/-- The frame of a trap saved in the shadow (R271, R272): fpc the frame PC, wait the interrupted wait
is kept. -/
def State.frameSave (s : State) (k v code fpc : Nat) (keepWait : Bool) : State :=
  let broken := s.get H.ENG_ATOM_N k != 0
  let w := keepWait && s.waits k
  let long := if w then 1 + (s.get H.ENG_WAIT k - 1) * 4 else 0
  let fr := [fpc % 4096 + s.rspOf k * 4096 + b2n broken * 2 ^ 17 + v * 2 ^ 20 + code % 256 * 2 ^ 24, s.get H.ENG_FLAGS k,
    s.get H.ENG_L (k * 4), s.get H.ENG_L (k * 4 + 1), s.get H.ENG_L (k * 4 + 2), s.get H.ENG_L (k * 4 + 3), long,
    if w then s.waitRem k else 0, b2n (s.unacked k false), s.anaBusyMask k, s.ts % 2 ^ 32, s.ts / 2 ^ 32,
    s.get H.ENG_RESULT k, s.get H.ENG_RESSTAT k, 0, 0]
  let d := s.depthOf k + 1
  let s1 := s.each fr.zipIdx (fun t p => t.framePut k p.2 p.1)
  let s2 := ((s1.put H.ENG_FW_UNIT (k * 16 + d) (s.get H.ENG_WAIT_UNIT k)).put H.ENG_FW_QTY (k * 16 + d)
    (s.get H.ENG_WAIT_QTY k)).put H.ENG_FW_IMM (k * 16 + d) (s.get H.ENG_WAIT_IMM k)
  let s3 := (s2.put H.ENG_FW_NEXT (k * 16 + d) (s.get H.ENG_NEXT k)).put H.ENG_FW_IDX (k * 16 + d) (s.get H.ENG_WAIT_IDX k)
  ((s3.put H.ENG_FW_PC (k * 16 + d) fpc).engNoWait k).put F.ENG_STAT_DEPTH k d

/-- Non-maskable vectors whose taking in an abort handler halts the engine (R279): all but ABORT. -/
def nonMaskable (v : Nat) : Bool := v == 1 || v == 2 || v == 3 || v == 4 || v == 9 || v == 12

/-- A trap with a frame is taken (R271-R273, R279). -/
def State.takeTrap (s : State) (k v code fpc : Nat) (keepWait : Bool) : State :=
  if s.aborting k && nonMaskable v then s.engHalt k 3
  else if 8 ≤ s.depthOf k then
    match s.engSite k with
    | none => s.engHalt k 1
    | some i => (s.seqStop i 0).engHalt k 1
  else
    let d := s.depthOf k
    let s1 := if d = 0 then s else s.frameSpill k d
    let s2 := ((s1.frameSave k v code fpc keepWait).flagSet k flMIE false).put H.ENG_TCAUSE k
      (v + code % 256 * 256 + (d + 1) * 65536)
    ((s2.put F.ENG_STAT_PC k v).put H.ENG_ATOM_N k 0).unpendTrap k v

/-- Trap 11 (R279): waits and frames are gone, MIE is clear, the handler runs at vector 11. -/
def State.takeAbort (s : State) (k : Nat) : State :=
  let s1 := (((s.engNoWait k).engNoFrames k).flagSet k flMIE false).unpendTrap k 11
  ((s1.put F.ENG_STAT_STATE k eABORTING).put F.ENG_STAT_PC k 11).put H.ENG_TCAUSE k 11

/-- The state of an engine that enters vector 0 or is started (R243). -/
def State.engFresh (s : State) (k pc : Nat) : State :=
  let s1 := s.each (List.range 4) (fun t n => t.put H.ENG_L (k * 4 + n) 0)
  let s2 := (((s1.put H.ENG_FLAGS k (2 ^ flMIE)).put H.ENG_RESULT k 0).put H.ENG_RESSTAT k 0).put H.ENG_BIN k 0
  (((s2.engNoFrames k).engNoWait k).put F.ENG_STAT_PC k pc).put F.ENG_STAT_STATE k eRUN

/-- START or RETEST reaches the engine (R280): pending traps clear and it enters vector 0; an entry
that an ABORT has cancelled takes the fresh state and then trap 11. -/
def State.engEnter (s : State) (k : Nat) : State :=
  let cut := s.on H.ENG_START_CUT k
  let s1 := ((s.engFresh k 0).setB H.ENG_START_PEND k false).setB H.ENG_START_CUT k false
  let s2 := { (s1.put F.ENG_TMASK_PEND k 0).addSat F.IRQ_ENG_LOST_COUNT 0 (qGet s1.evq k).length with
    evq := qSet s1.evq k [] }
  let s3 := (s2.put H.ENG_PRE_STOP k 0).engSems k
  let s4 := (s3.put H.ENG_ABORT k 0).noDue H.ENG_ABORT_END k
  if cut then (if s.get H.ENG_ABORT k = 2 then s3.put H.ENG_BIN k 0xFFFF else s3).takeAbort k else s4

/-! ## Stops and steps -/

/-- The engine runs words: RUN, TASK or ABORTING, powered. -/
def State.engRuns (s : State) (k : Nat) : Bool :=
  s.engState k == eRUN || s.engState k == eTASK || s.engState k == eABORTING

/-- The engine stands at a boundary of words: it runs and waits for nothing. -/
def State.atBoundary (s : State) (k : Nat) : Bool :=
  s.engRuns k && s.get H.ENG_WAIT k == 0 && !s.on H.ENG_LD_ON k

/-- The engine is stopped, and what it left is kept. -/
def State.engStopNow (s : State) (k : Nat) : State :=
  (s.put H.ENG_PRE_STOP k (s.get F.ENG_STAT_STATE k)).put F.ENG_STAT_STATE k eSTOPPED

/-- A stopped engine goes on. -/
def State.engGoOn (s : State) (k : Nat) : State :=
  if s.get F.ENG_STAT_STATE k = eSTOPPED then
    ((s.put F.ENG_STAT_STATE k (s.get H.ENG_PRE_STOP k)).put H.ENG_PRE_STOP k 0).setB H.ENG_BRK_SKIP k true
  else s

/-- A stop asked for, or the end of a step, takes effect at a boundary outside a group. -/
def State.engStopCheck (s : State) (k : Nat) : State :=
  if s.atBoundary k && s.get H.ENG_ATOM_N k == 0 && s.on F.ENG_CTRL_STOP k && !s.on H.ENG_STEPPING k then s.engStopNow k
  else s

/-- A trap that a word itself causes is taken, and a stop asked for takes effect at the boundary that it makes. -/
def State.trapStop (s : State) (k v code fpc : Nat) : State := (s.takeTrap k v code fpc false).engStopCheck k

/-- A step ends after its word or group. -/
def State.engStepEnd (s : State) (k : Nat) : State :=
  if s.on H.ENG_STEPPING k && s.get H.ENG_ATOM_N k == 0 && s.atBoundary k then (s.setB H.ENG_STEPPING k false).engStopNow k
  else s

/-! ## Choice of the next address -/

/-- The trap that is taken at a boundary (R270, R271): the earliest in priority that is pending and
may be taken.  Inside an atomic group none is. -/
def State.trapDue (s : State) (k : Nat) : Option Nat :=
  if s.get H.ENG_ATOM_N k ≠ 0 then none
  else
    [9, 11, 7, 8, 6, 13, 10, 5].find? (fun v =>
      s.trapPending k v
        && (v == 9 || v == 11 || (bit (s.get H.ENG_FLAGS k) flMIE && bit (s.get F.ENG_TMASK_MASK k) v)))

/-- The next address that a word chooses when it issues (R248), from its sources. -/
def State.seqNext (s : State) (k w : Nat) (cond : Bool) (a : Nat) : Nat :=
  let next := (s.pcOf k + 1) % 4096
  let tgt := wTGT w
  match wSEQ w with
  | 1 => tgt
  | 2 => tgt
  | 3 => s.get H.ENG_RSTK (k * 16 + (s.rspOf k - 1) % 16)
  | 4 => if cond then tgt else next
  | 5 => if cond then next else tgt
  | 6 => if s.get H.ENG_L (k * 4 + wCOND w % 4) = 0 then next else tgt
  | 7 => tgt
  | 8 => (tgt + a % 256) % 4096
  | _ => next

/-- The deque that an idle engine steals from (R283): the next one in number that is not empty. -/
def State.dqVictim (s : State) (k : Nat) : Option Nat :=
  ((List.range 63).map (fun j => (k + 1 + j) % 64)).find? (fun q => s.dqLen q != 0)

/-- An engine takes a task of deque q (R283, R321): its descriptor in G44 to G47, and the task word at tgt. -/
def State.taskAccept (s : State) (k tgt q : Nat) (l : List Byte) (t0 : Nat) : State :=
  let t := s.put H.ENG_TASK_D k (ofLe l)
  let t1 := t.each (List.range 4) (fun u n => u.put H.ENG_G (k * 64 + 44 + n) (fieldB l (4 * n) 4))
  let t2 := ((t1.put H.ENG_TASK_SITE k (taskSite l)).put H.ENG_TASK_RUN k (taskRun l)).put H.ENG_TASK_DEQUE k q
  let t3 := ((t2.setB F.ENG_STAT_TASK_HELD k true).setB H.ENG_TASK_RAN k false).put H.ENG_TASK_T0 k t0
  (t3.put F.ENG_STAT_STATE k eTASK).put F.ENG_STAT_PC k tgt

/-- The oldest task of the victim's deque, if it can be taken. -/
def State.dqVictimTake (s : State) (k : Nat) : Option (Nat × State × List Byte) :=
  (s.dqVictim k).bind (fun q => (s.dqTake q).map (fun r => (q, r)))

/-- A steal (R283, R321): the oldest task of the next deque that is not empty; with none the engine goes on. -/
def State.stealTask (s : State) (o : Option (Nat × State × List Byte)) (k tgt next t0 : Nat) : State :=
  match o with
  | none => s.put F.ENG_STAT_PC k next
  | some r =>
    let n := r.2.1.get2 F.STL_STEALS_LO_N_LO F.STL_STEALS_HI_N_HI 0 + 1
    (r.2.1.put2 F.STL_STEALS_LO_N_LO F.STL_STEALS_HI_N_HI 0 (n % 2 ^ 64)).taskAccept k tgt r.1 r.2.2 t0

/-- YIELD (R282), at its boundary. -/
def State.engYield (s : State) (k tgt next : Nat) : State :=
  let s1 := s.engTaskDone k
  let s2 := if s1.get F.ENG_STAT_STATE k = eTASK then s1.put F.ENG_STAT_STATE k eRUN else s1
  if s2.on H.ENG_START_PEND k then s2.engEnter k
  else if s2.trapPending k 11 then s2.takeAbort k
  else if s2.on F.ENG_CTRL_STEAL_EN k then
    match s2.dqPop k with
    | some r => r.1.taskAccept k tgt k r.2 s.now
    | none => s2.stealTask (s2.dqVictimTake k) k tgt next s.now
  else s2.put F.ENG_STAT_PC k next

/-- A resumed wait (R276): the wait of a restored frame goes on, or starts again with REISSUE.  A MEASURE
whose result came during the trap, which MRET has just written, has nothing left to wait for. -/
def State.waitResume (s : State) (k d long rem : Nat) (samePc : Bool) : State :=
  let kind := lKIND long
  let i := k * 16 + d
  let s1 := ((s.put H.ENG_WAIT k (kind + 1)).put H.ENG_WAIT_UNIT k (s.get H.ENG_FW_UNIT i)).put H.ENG_WAIT_QTY k (s.get H.ENG_FW_QTY i)
  let s2 := (s1.put H.ENG_WAIT_IMM k (s.get H.ENG_FW_IMM i)).put H.ENG_WAIT_IDX k (s.get H.ENG_FW_IDX i)
  let w := s2.csWord k (s2.pcOf k)
  let s3 := s2.put H.ENG_NEXT k
    (if samePc then s.get H.ENG_FW_NEXT i else s2.seqNext k w (s2.cond k (wCOND w)) (s2.engReg k (wSA w)))
  let s4 := s3.setB H.ENG_WAIT_DONE k false
  if lREISSUE long then
    let imm := s.get H.ENG_FW_IMM i
    if kind = 0 then s4.setDue H.ENG_WAIT_END k (s.now + ceilDiv (imm * 3) 4 * engCycle)
    else if imm = 0 then s4.noDue H.ENG_WAIT_END k
    else s4.setDue H.ENG_WAIT_END k (s.now + imm * ns)
  else if kind = 2 ∧ lPEND long = true then (s4.put H.ENG_WAIT k 1).setDue H.ENG_WAIT_END k s.now
  else if rem = 0xFFFFFFFF then s4.noDue H.ENG_WAIT_END k
  else s4.setDue H.ENG_WAIT_END k (s.now + rem * engCycle)

/-- MRET (R274): what the frame holds is restored, and an interrupted wait resumes. -/
def State.engMret (s : State) (k : Nat) : State :=
  let d := s.depthOf k
  let w0 := s.frameW k 0
  let long := s.frameW k 6
  let s1 := ((s.put F.ENG_STAT_PC k w0).put F.ENG_STAT_RSP k (bits w0 12 5)).put H.ENG_FLAGS k (s.frameW k 1 % 256)
  let s2 := s1.each (List.range 4) (fun t n => t.put H.ENG_L (k * 4 + n) (s.frameW k (2 + n)))
  let s3 := (s2.put H.ENG_RESULT k (s.frameW k 12)).put H.ENG_RESSTAT k (s.frameW k 13)
  let s4 := if lPEND long then (s3.put H.ENG_RESULT k (s.frameW k 14)).put H.ENG_RESSTAT k (s.frameW k 15) else s3
  let s5 := (if 2 ≤ d then s4.frameFill k (d - 1) else s4).put F.ENG_STAT_DEPTH k (d - 1)
  if lACTIVE long then s5.waitResume k d long (s.frameW k 7) (w0 % 4096 == s.get H.ENG_FW_PC (k * 16 + d)) else s5

end Sys2Proof.Machine
end

