-- ==== Sys2Proof/Machine/Words.lean ====
section
/-!
DEFINITION. How a micro-word runs (R247-R264, R275-R283) and how its commands reach the tile and the
memories (R253-R260): the word rows, the command rows and the memory rows share these operations.
-/

namespace Sys2Proof.Machine

/-! ## Illegal words -/

/-- A MEMOP breaks R262. -/
def State.memIllegal (s : State) (k w : Nat) : Bool :=
  let m := memCode (wMEM w)
  12 ≤ m || (1 ≤ m && m ≤ 4 && 2 ≤ bits (wMEM w) 2 2) || (memLoads (wMEM w) && aluWrites (wALU w % 32))
    || (m == 3 && (wDST w % 2 == 1 || 46 < wDST w)) || (m == 4 && (wSB w % 2 == 1 || 46 < wSB w))
    || (m == 10 && s.depthOf k == 0) || (m == 8 && !s.on H.ENG_AUTO_ON k)

/-- PINOP or ANAOP breaks R262. -/
def State.tileIllegal (s : State) (k w : Nat) : Bool :=
  let p := pinCode (wPIN w)
  let a := anaCode (wANA w)
  12 ≤ p || (17 ≤ a && a ≤ 23) || 28 ≤ a || (25 ≤ a && a ≤ 27 && 5 ≤ anaArg (wANA w) % 8)
    || (p == 10 && 5 ≤ bits (wPIN w) 9 3)
    || ((p != 0 || a != 0) && (s.on F.ENG_STAT_TASK_HELD k || (s.engSite k).isNone))

/-- The atomic-group rules are broken (R275). -/
def State.atomIllegal (s : State) (k w : Nat) : Bool :=
  wATOM w && (anaLong (wANA w) || wSEQ w == 7 || wSEQ w == 9 || wSEQ w == 10 || wSEQ w == 11 || wSEQ w == 12
    || 15 ≤ s.get H.ENG_ATOM_N k)

/-- The word is illegal (R262). -/
def State.wordIllegal (s : State) (k w : Nat) : Bool :=
  13 ≤ wSEQ w || 25 ≤ wALU w % 32 || 6 ≤ wCNT w % 16 || wRSV w || (wSEQ w == 6 && wCOND w / 4 != 0)
    || (wSEQ w == 7 && anaLong (wANA w)) || (wSEQ w == 8 && decide (4095 < wTGT w + s.engReg k (wSA w) % 256))
    || (wSEQ w == 11 && s.depthOf k == 0) || s.memIllegal k w || s.tileIllegal k w || s.atomIllegal k w

/-! ## The end of a word -/

/-- SEQ acts (R248): the return stack, and the next word. -/
def State.seqAct (s : State) (k w : Nat) : State :=
  let next := (s.pcOf k + 1) % 4096
  match wSEQ w with
  | 2 =>
    ((s.put H.ENG_RSTK (k * 16 + s.rspOf k % 16) next).put F.ENG_STAT_RSP k (s.rspOf k + 1)).put F.ENG_STAT_PC k
      (s.get H.ENG_NEXT k)
  | 3 => (s.put F.ENG_STAT_RSP k (s.rspOf k - 1)).put F.ENG_STAT_PC k (s.get H.ENG_NEXT k)
  | 9 => s.engYield k (wTGT w) next
  | 10 => s.takeTrap k 4 (wIMM w % 256) next false
  | 11 => s.engMret k
  | 12 => s.engHalt k 0
  | _ => s.put F.ENG_STAT_PC k (s.get H.ENG_NEXT k)

/-- A word ends: SEQ acts, and a step or a stop takes effect at the boundary. -/
def State.wordEnd (s : State) (k : Nat) : State :=
  (((s.seqAct k (s.csWord k (s.pcOf k))).setB H.ENG_BRK_SKIP k false).engStepEnd k).engStopCheck k

/-- The word ends where it waits for nothing more. -/
def State.wordOver (s : State) (k : Nat) : State :=
  if s.get H.ENG_WAIT k = 0 ∧ s.on H.ENG_LD_ON k = false then s.wordEnd k else s

/-- The wait of the word is over. -/
def State.waitOver (s : State) (k : Nat) : State := ((s.put H.ENG_WAIT k 0).noDue H.ENG_WAIT_END k).wordOver k

/-! ## The issue of a word -/

/-- The unit that an index and a quantity name on the engine's site (R255, R256), in the numbering of
unitDps, unitSmu and unitChan. -/
def State.unitOf (s : State) (k idx qty : Nat) : Option Nat :=
  match (s.engSite k).bind s.entryOf with
  | none => none
  | some e =>
    if qty ≤ 1 then (e.dpsList[idx]?).map unitDps
    else if qty ≤ 3 then (e.smuList[idx]?).map unitSmu
    else if qty = 4 then (e.channels[idx]?).map unitChan
    else none

/-- A unit number that names none. -/
def noUnit : Nat := 0xFFF

/-- The wait of a long ANAOP, READ or WAITEV begins (R257). -/
def State.waitBegin (s : State) (k kind idx qty imm : Nat) : State :=
  let s1 := (((s.put H.ENG_WAIT k kind).put H.ENG_WAIT_UNIT k ((s.unitOf k idx qty).getD noUnit)).put H.ENG_WAIT_QTY k
    qty).put H.ENG_WAIT_IMM k imm
  let s2 := (s1.put H.ENG_WAIT_IDX k idx).setB H.ENG_WAIT_DONE k false
  if kind = 1 then s2.setDue H.ENG_WAIT_END k (s.now + ceilDiv (imm * 3) 4 * engCycle)
  else if imm = 0 ∨ kind = 7 then s2.noDue H.ENG_WAIT_END k
  else s2.setDue H.ENG_WAIT_END k (s.now + imm * ns)

/-- The wait kind of an ANAOP: 0 none, 1 WAIT, 2 SETTLE, 3 MEASURE, 7 READ. -/
def anaWait (a : Nat) : Nat :=
  match anaCode a with
  | 24 => 1
  | 25 => 2
  | 26 => 3
  | 27 => 7
  | _ => 0

/-- Commands of a word put in the site command queue, PINOP first (R247, R263). -/
def State.queueCmds (s : State) (k w : Nat) : State :=
  let pc := s.pcOf k
  let p : List QCmd := if pinCode (wPIN w) = 0 then [] else [⟨false, wPIN w, wIMM w, pc, false⟩]
  let a : List QCmd := if anaCode (wANA w) = 0 then [] else [⟨true, wANA w, wIMM w, pc, false⟩]
  { s with cmdq := qSet s.cmdq k (qGet s.cmdq k ++ p ++ a) }

/-- The site command queue has no room for the commands of a word (R263). -/
def State.queueFull (s : State) (k w : Nat) : Bool :=
  16 < (qGet s.cmdq k).length + b2n (pinCode (wPIN w) != 0) + b2n (anaCode (wANA w) != 0)

/-- A ninth posted store would be outstanding (R260). -/
def State.storesFull (s : State) (k w : Nat) : Bool :=
  memStores (wMEM w) && decide (8 ≤ ((qGet s.memq k).filter (fun m => m.op == 2 || m.op == 4)).length)

/-- The MEMOP of a word issued, with its operands as they stood (R247). -/
def State.queueMem (s : State) (k w a b b1 : Nat) : State :=
  if memCode (wMEM w) = 0 then s
  else
    let m : MemCmd := ⟨memCode (wMEM w), (a + wIMM w) % 2 ^ 32, b, b1, wDST w, wIMM w, s.pcOf k⟩
    { s with memq := qSet s.memq k (qGet s.memq k ++ [m]) }

/-- The register part of a word (R247): FLAGS, DST, LOOP and CNTOP. -/
def State.wordRegs (s : State) (k w a b : Nat) (cond : Bool) : State :=
  let fl := s.get H.ENG_FLAGS k
  let r := alu (wALU w % 32) a (if bit (wALU w) 5 then wIMM w else b) fl cond
  let n := k * 4 + wCOND w % 4
  let m := k * 4 + wCNT w / 16
  let s1 := if wALU w % 32 = 0 then s else s.put H.ENG_FLAGS k (r.into fl)
  let s2 := match r.dst with | none => s1 | some v => s1.engRegPut k (wDST w) v
  let s3 := if wSEQ w = 6 ∧ s.get H.ENG_L n ≠ 0 then s2.put H.ENG_L n (s.get H.ENG_L n - 1) else s2
  if wCNT w % 16 = 0 then s3 else s3.put H.ENG_L m (cntStep (wCNT w % 16) (s.get H.ENG_L m) (wIMM w) b)

/-- What the reads of a word take: MBX and the snapshots, once for SA and once for another SB. -/
def State.wordTakes (s : State) (k w : Nat) (cond : Bool) : State :=
  let s1 := if wordUsesA w then s.engRegTake k (wSA w) else s
  let s2 := if wordUsesB w && !(wordUsesA w && wSA w == wSB w) then s1.engRegTake k (wSB w) else s1
  if (wSEQ w == 4 || wSEQ w == 5 || wSEQ w == 7) && cond then s2.condTake k (wCOND w) else s2

/-- A legal word issues (R247). -/
def State.wordIssue (s : State) (k w : Nat) : State :=
  let a := s.engReg k (wSA w)
  let b := s.engReg k (wSB w)
  let b1 := s.engReg k (wSB w + 1)
  let cond := s.cond k (wCOND w)
  let nxt := s.seqNext k w cond a
  let s1 := ((s.wordTakes k w cond).wordRegs k w a b cond).put H.ENG_NEXT k nxt
  let s2 := s1.put H.ENG_ATOM_N k (if wATOM w then s.get H.ENG_ATOM_N k + 1 else 0)
  let s3 := (s2.queueCmds k w).queueMem k w a b b1
  let s4 := if memLoads (wMEM w) then s3.setB H.ENG_LD_ON k true else s3
  let kind := anaWait (wANA w)
  let s5 :=
    if kind ≠ 0 then s4.waitBegin k kind (anaIdx (wANA w)) (anaArg (wANA w) % 8) (wIMM w)
    else if wSEQ w = 7 ∧ cond = false then s4.waitBegin k 4 0 5 (wIMM w)
    else s4
  s5.wordOver k

/-- The word at PC runs at its row (R248): only a running engine at a boundary, with good parity and
the row's SEQ, and no trap that comes before it, runs it. -/
def State.wordRow (s : State) (k seq : Nat) : State :=
  let w := s.csWord k (s.pcOf k)
  if !s.atBoundary k || !parityOk w || wSEQ w != seq then s
  else if s.wordIllegal k w then s.trapStop k 1 0 (s.pcOf k)
  else if (seq == 2 && decide (16 ≤ s.rspOf k)) || (seq == 3 && s.rspOf k == 0) then s.trapStop k 12 0 (s.pcOf k)
  else if s.trapDue k = some 9 then s
  else if wBRK w && !s.on H.ENG_BRK_SKIP k && s.get F.ENG_CTRL_BRK_EN k == 1 then s.trapStop k 3 0 (s.pcOf k)
  else if wBRK w && !s.on H.ENG_BRK_SKIP k && s.get F.ENG_CTRL_BRK_EN k == 2 then s.engStopNow k
  else if (s.trapDue k).isSome then s
  else if s.queueFull k w then s.put H.ENG_WAIT k 6
  else if s.storesFull k w then s
  else s.wordIssue k w

/-! ## Results of long operations -/

/-- RESSTAT of a result (R242). -/
def resStat (valid clamped beyond stale : Bool) (qty idx : Nat) : Nat :=
  b2n valid + b2n clamped * 2 + b2n beyond * 4 + b2n stale * 8 + qty % 8 * 16 + idx % 64 * 256

/-- The result of a measurement of a unit (R257, R357): value and RESSTAT. -/
def State.unitResult (s : State) (unit qty idx : Nat) : Nat × Nat :=
  if unit < 64 then
    (code 32 (if qty = 0 then s.getI F.DPS_RES_V_VALUE unit else s.getI F.DPS_RES_I_VALUE unit),
      resStat true (s.on F.DPS_RES_STAT_LIMITED unit) (s.on F.DPS_RES_STAT_OVER unit) (s.on F.DPS_RES_STAT_STALE unit) qty idx)
  else if unit < 128 then
    let u := unit - 64
    (code 32 (if qty = 2 then s.getI F.SMU_RES_V_VALUE u else s.getI F.SMU_RES_I_VALUE u),
      resStat true (s.on F.SMU_RES_STAT_LIMITED u) (s.on F.SMU_RES_STAT_OVER u) (s.on F.SMU_RES_STAT_STALE u) qty idx)
  else
    let c := unit - 128
    (code 32 (s.getI F.PMU_RESULT_VALUE c),
      resStat true (s.on F.PMU_RESULT_CLAMPED c) (s.on F.PMU_RESULT_OVER c) (s.on F.PMU_RESULT_STALE c) qty idx)

/-- The latest monitor value of a unit (READ, R257, R357). -/
def State.unitLatest (s : State) (unit qty idx : Nat) : Nat × Nat :=
  if unit < 64 then
    (code 32 (if qty = 0 then s.getI F.DPS_MON_V_VALUE unit else s.getI F.DPS_MON_I_VALUE unit),
      resStat true (s.on F.DPS_STAT_IN_LIMIT unit) false (s.on H.DPS_CAL_OWNED unit) qty idx)
  else if unit < 128 then
    let u := unit - 64
    (code 32 (if qty = 2 then s.getI F.SMU_MON_V_VALUE u else s.getI F.SMU_MON_I_VALUE u),
      resStat true (s.on F.SMU_STAT_IN_COMP u) false (s.on H.SMU_CAL_OWNED u) qty idx)
  else s.unitResult unit qty idx

/-- RESULT and RESSTAT written. -/
def State.engResult (s : State) (k : Nat) (r : Nat × Nat) : State :=
  (s.put H.ENG_RESULT k r.1).put H.ENG_RESSTAT k r.2

/-- RESSTAT with VALID as given, RESULT unchanged (R257). -/
def State.engValid (s : State) (k : Nat) (v : Bool) : State :=
  s.put H.ENG_RESSTAT k (resStat v false false false (s.get H.ENG_WAIT_QTY k) (s.get H.ENG_WAIT_IDX k))

/-- A measurement of a unit completes (R257, R272, R276): the word that waits sees it, where its MEASURE has
reached the tile, and a frame of an interrupted MEASURE keeps its result. -/
def State.engMeasured (s : State) (unit : Nat) : State :=
  s.each (List.range 64) (fun t k =>
    let waits := t.get H.ENG_WAIT k == 3 && t.get H.ENG_WAIT_UNIT k == unit && (qGet t.cmdq k).all (fun c => c.acted)
    let t1 := if waits then t.setB H.ENG_WAIT_DONE k true else t
    t1.each (t1.framesOf k) (fun u n =>
      let long := u.frameWordAt k n 6
      if lACTIVE long && lKIND long == 2 && u.get H.ENG_FW_UNIT (k * 16 + n) == unit then
        let r := u.unitResult unit (u.get H.ENG_FW_QTY (k * 16 + n)) (u.get H.ENG_FW_IDX (k * 16 + n))
        ((u.frameWordPut k n 6 (setBit long 4)).frameWordPut k n 14 r.1).frameWordPut k n 15 r.2
      else u))

/-- The unit has settled (R257, R336): for an SMU the spec does not say when, and a free value
decides. -/
def State.unitSettled (s : State) (unit : Nat) : Bool × State :=
  if unit < 64 then (s.on F.DPS_STAT_SETTLED unit, s)
  else if unit < 128 then
    let u := unit - 64
    if s.smuBusy u then (false, s)
    else
      let d := s.draw
      (d.1 % 2 == 1, d.2)
  else
    let c := unit - 128
    (!s.on F.PMU_CTRL_RANGING c && s.get H.CH_PMU_SW_END c == 0 && !s.settling c, s)

/-- The long operation of the word that waits ends, by completion or by its timeout (R257). -/
def State.longEnd (s : State) (k : Nat) : State :=
  match s.get H.ENG_WAIT k with
  | 1 => (match s.due H.ENG_WAIT_END k with | none => s | some t => s.upTo t).waitOver k
  | 2 =>
    let r := s.unitSettled (s.get H.ENG_WAIT_UNIT k)
    if r.1 then (r.2.engValid k true).waitOver k
    else
      match s.due H.ENG_WAIT_END k with
      | none => r.2
      | some t => ((r.2.upTo t).engValid k false).waitOver k
  | 3 =>
    if s.on H.ENG_WAIT_DONE k then
      (s.engResult k (s.unitResult (s.get H.ENG_WAIT_UNIT k) (s.get H.ENG_WAIT_QTY k) (s.get H.ENG_WAIT_IDX k))).waitOver k
    else
      match s.due H.ENG_WAIT_END k with
      | none => s
      | some t => ((s.upTo t).engValid k false).waitOver k
  | _ => s

/-- The end of a WAITEV, met or timed out: a branching word goes to its target or to the next word. -/
def State.waitevGo (s : State) (k : Nat) (met : Bool) : State :=
  let w := s.csWord k (s.pcOf k)
  (if wSEQ w = 7 then s.put H.ENG_NEXT k (if met then wTGT w else (s.pcOf k + 1) % 4096) else s).waitOver k

/-- A WAITEV ends (R248, R251): its condition holds, or its time has passed. -/
def State.waitevOver (s : State) (k : Nat) : State :=
  if s.get H.ENG_WAIT k ≠ 4 then s
  else
    let c := wCOND (s.csWord k (s.pcOf k))
    if s.cond k c then (s.condTake k c).waitevGo k true
    else
      match s.due H.ENG_WAIT_END k with
      | none => s
      | some t => (s.upTo t).waitevGo k false

/-! ## Commands at the tile -/

/-- The first command that the tile has not yet acted on, if its operation is the given one. -/
def qMatch (l : List QCmd) (ana : Bool) (op : Nat) : Option QCmd :=
  match l.find? (fun c => !c.acted) with
  | none => none
  | some c => if c.ana = ana ∧ (if ana then anaCode c.op else pinCode c.op) = op then some c else none

/-- The first command not yet acted on, marked as acted. -/
def qMark : List QCmd → List QCmd
  | [] => []
  | c :: cs => if c.acted then c :: qMark cs else { c with acted := true } :: cs

/-- A refusal kept until it is known to the engine (R258). -/
def State.refuse (s : State) (k word reason : Nat) (ana : Bool) : State :=
  { s with refused := qSet s.refused k (qGet s.refused k ++ [(⟨word, reason, ana⟩ : Refused)]) }

/-- The word whose command acts now. -/
def State.cmdWord (s : State) (k : Nat) (ana : Bool) (op : Nat) : Nat :=
  match qMatch (qGet s.cmdq k) ana op with
  | none => s.pcOf k
  | some c => c.word

/-- The command marked as acted on. -/
def State.cmdActed (s : State) (k : Nat) (ana : Bool) (op : Nat) : State :=
  match qMatch (qGet s.cmdq k) ana op with
  | none => s
  | some _ => { s with cmdq := qSet s.cmdq k (qMark (qGet s.cmdq k)) }

/-- A command of an engine reaches the tile (R253-R258): its effect on the site it serves, or its
refusal with a reason.  An engine without a site commands no tile. -/
def State.tileCmd (s : State) (k : Nat) (ana : Bool) (op : Nat) (eff : State → Nat → SiteEntry → State × Nat) : State :=
  let word := s.cmdWord k ana op
  let s1 := s.cmdActed k ana op
  match s.engSite k with
  | none => s1.refuse k word 3 ana
  | some i =>
    match s1.entryOf i with
    | none => s1.refuse k word 3 ana
    | some e =>
      let r := eff s1 i e
      if r.2 = 0 then r.1 else r.1.refuse k word r.2 ana

/-- The bit of ANA_BUSY that a unit of a site has (R272). -/
def busyBit (e : SiteEntry) (unit : Nat) : Nat :=
  if unit < 64 then e.dpsList.idxOf unit
  else if unit < 128 then 8 + e.smuList.idxOf (unit - 64)
  else 12

/-- A handler's command to a unit that an interrupted operation still keeps busy waits (R277). -/
def State.handlerWaits (s : State) (k b : Nat) : Bool :=
  bit (s.anaBusyMask k) b && (s.framesOf k).any (fun n => bit (s.frameWordAt k n 9) b)

/-- A handler's ANAOP to the unit that an interrupted SETTLE or MEASURE names sets REISSUE (R277). -/
def State.reissue (s : State) (k unit : Nat) : State :=
  s.each (s.framesOf k) (fun t n =>
    let long := t.frameWordAt k n 6
    if lACTIVE long && (lKIND long == 1 || lKIND long == 2) && t.get H.ENG_FW_UNIT (k * 16 + n) == unit then
      t.frameWordPut k n 6 (setBit long 1)
    else t)

/-- An ANAOP on a unit of the site (R255): refused with NOT_BOUND where the site has none, waiting
where an interrupted operation keeps the unit busy. -/
def State.unitCmd (s : State) (k op idx qty : Nat) (eff : State → Nat → State × Nat) : State :=
  match (s.engSite k).bind s.entryOf, s.unitOf k idx qty with
  | some e, some u =>
    if s.handlerWaits k (busyBit e u) then s
    else
      s.tileCmd k true op (fun t _ _ =>
        let n := if u < 64 then u else if u < 128 then u - 64 else u - 128
        eff (t.reissue k u) n)
  | _, _ => s.tileCmd k true op (fun t _ _ => (t, 3))

/-- The wait of a long command begins at its row where its word has not begun it. -/
def State.longRow (s : State) (k kind idx qty imm : Nat) : State :=
  if s.get H.ENG_WAIT k = 0 ∧ s.engRuns k = true then s.waitBegin k kind idx qty imm else s

/-- A command leaves the queue when the tile has acted on it (R263); a word that waits for room goes
on. -/
def State.cmdAck (s : State) (k : Nat) : State :=
  match qGet s.cmdq k with
  | [] => s
  | c :: cs =>
    if c.acted then
      let s1 := { s with cmdq := qSet s.cmdq k cs }
      if s1.get H.ENG_WAIT k = 6 then s1.put H.ENG_WAIT k 0 else s1
    else s

/-- A refusal becomes known (R258): RF, ENG_REFUSE and trap 8; a word that waits in the refused
command ends. -/
def State.refusalKnown (s : State) (k : Nat) (r : Refused) : State :=
  let s1 := ((s.flagSet k flRF true).put F.ENG_REFUSE_WORD k r.word).put F.ENG_REFUSE_REASON k r.reason
  let s2 := (s1.setB F.ENG_REFUSE_ANA k r.ana).pendTrap k 8
  let w := s2.get H.ENG_WAIT k
  if r.ana && (w == 2 || w == 3 || w == 7) && r.word == s2.pcOf k then (s2.engValid k false).waitOver k else s2

/-- The oldest refusal becomes known. -/
def State.refusalNext (s : State) (k : Nat) : State :=
  match qGet s.refused k with
  | [] => s
  | r :: rs => ({ s with refused := qSet s.refused k rs }).refusalKnown k r

/-! ## Memory operations -/

/-- The MEMOP of a code that was issued first leaves the queue; the word that issued it. -/
def State.memTake (s : State) (k op : Nat) : State × Nat :=
  match (qGet s.memq k).find? (fun m => m.op == op) with
  | none => (s, s.pcOf k)
  | some m => ({ s with memq := qSet s.memq k ((qGet s.memq k).erase m) }, m.word)

/-- A memory error kept until it reaches the engine (R260). -/
def State.memFail (s : State) (k word : Nat) (store : Bool) (reason off : Nat) : State :=
  { s with memErrs := qSet s.memErrs k (qGet s.memErrs k ++ [(⟨word, store, reason, off⟩ : MemErr)]) }

/-- The oldest memory error reaches the engine (R260): ME, ENG_MEMERR and trap 9. -/
def State.memErrNext (s : State) (k : Nat) : State :=
  match qGet s.memErrs k with
  | [] => s
  | e :: es =>
    let s1 := ({ s with memErrs := qSet s.memErrs k es }).flagSet k flME true
    let s2 := ((s1.put F.ENG_MEMERR_WORD k e.word).setB F.ENG_MEMERR_STORE k e.store).put F.ENG_MEMERR_REASON k e.reason
    (s2.put F.ENG_MEMERR_ADDR_OFFSET k e.off).pendTrap k 9

/-- Offset in the Cellar window of an offset in space 1 (R260). -/
def State.engCel (s : State) (k off : Nat) : Nat :=
  s.get F.ENG_CEL_BASE_LO_BASE_LO k * 4096 + s.get F.ENG_CEL_BASE_HI_BASE_HI k * 2 ^ 32 + off - 0x8000000000

/-- Why a load or store of n bytes is a memory error before it is issued (R260): 1 alignment, 3 the
secure region, 0 none. -/
def memBad (space off n : Nat) : Nat :=
  if off % n ≠ 0 then 1
  else if space = 0 ∧ inSecure (off % scratchSize) then 3
  else 0

/-- n bytes read by an engine (R260, R536): none with a reason where it is a memory error. -/
def State.engRead (s : State) (k space off n : Nat) : State × Option (List Byte) × Nat :=
  let r := memBad space off n
  if r ≠ 0 then (s, none, r)
  else if space = 0 then (s, some (s.spRead (off % scratchSize) n), 0)
  else
    let c := s.celRead clsHearth (s.engCel k off) n
    (c.1, c.2, match c.2 with | none => 2 | some _ => 0)

/-- Bytes written by an engine: 0, or the reason of the memory error. -/
def State.engWrite (s : State) (k space off : Nat) (l : List Byte) : State × Nat :=
  let r := memBad space off l.length
  if r ≠ 0 then (s, r)
  else if space = 0 then (s.spWrite (off % scratchSize) l, 0)
  else
    let c := s.celStore clsHearth (s.engCel k off) l
    (c.1, if c.2 then 0 else 2)

/-- A load row (R259): DST receives the word, or the access is a memory error. -/
def State.loadRow (s : State) (k op space off dst n : Nat) : State :=
  let m := s.memTake k op
  let r := m.1.engRead k space off n
  match r.2.1 with
  | none => r.1.memFail k m.2 false r.2.2 off
  | some b =>
    let s1 := r.1.engRegPut k dst (fieldB b 0 4)
    if n = 8 then s1.engRegPut k (dst + 1) (fieldB b 4 4) else s1

/-- A store row (R259). -/
def State.storeRow (s : State) (k op space off : Nat) (l : List Byte) : State :=
  let m := s.memTake k op
  let r := m.1.engWrite k space off l
  if r.2 = 0 then r.1 else r.1.memFail k m.2 true r.2 off

/-- The load of a word has come (R263): the word goes on. -/
def State.loadDone (s : State) (k : Nat) : State :=
  if s.on H.ENG_LD_ON k && !(qGet s.memq k).any (fun m => memLoads (m.op * 16)) then
    (s.setB H.ENG_LD_ON k false).wordOver k
  else s

/-- The site and run under which an engine writes records and pushes tasks (R283, R319). -/
def State.engStream (s : State) (k : Nat) : Option (Nat × Nat) :=
  if s.on F.ENG_STAT_TASK_HELD k then some (s.get H.ENG_TASK_SITE k, s.get H.ENG_TASK_RUN k)
  else
    match s.engSite k with
    | none => none
    | some i => some (i, s.get F.SITE_RUN_RUN i)

end Sys2Proof.Machine
end

