-- ==== Sys2Proof/Machine/Pantry.lean ====
section
/-!
DEFINITION. The pattern store (R194-R212), the Pantry and its decoders (R220-R228), and the lines that
sites and waveform contexts want (R20-R24, R218, R221-R223).
-/

namespace Sys2Proof.Machine

/-! ## Pattern table and segment table -/

/-- The 64-byte descriptor of a pattern (R199, R207), and the 32-byte entry of the segment table. -/
def State.patDesc (s : State) (p : Nat) : List Byte := s.celRaw (p % 4096 * 64) 64
def State.segEntry (s : State) (n : Nat) : List Byte := s.celRaw (0x40000 + n * 32) 32

/-- Fields of a descriptor. -/
def pdKind (d : List Byte) : Nat := fieldB d 2 1
def pdSlots (d : List Byte) : Nat := fieldB d 3 1
def pdMarker (d : List Byte) : Bool := bit (fieldB d 4 1) 0
def pdValid (d : List Byte) : Bool := bit (fieldB d 5 1) 0
def pdDictN (d : List Byte) : Nat := fieldB d 6 2
def pdVectors (d : List Byte) : Nat := fieldB d 8 8
def pdBlocks (d : List Byte) : Nat := fieldB d 0x10 4
def pdFetch (d : List Byte) : Nat := fieldB d 0x14 4
def pdRate (d : List Byte) : Nat := fieldB d 0x18 4
def pdDict (d : List Byte) : Nat := fieldB d 0x20 8
def pdIndex (d : List Byte) : Nat := fieldB d 0x28 8
def pdData (d : List Byte) : Nat := fieldB d 0x30 8
def pdDataLen (d : List Byte) : Nat := fieldB d 0x38 8

/-- Bytes of a vector or sample and vectors per line (R195, R197). -/
def pdBytes (d : List Byte) : Nat := if pdKind d = 1 then 4 else (pdSlots d + 1) / 2
def pdVpl (d : List Byte) : Nat := 4096 / pdBytes d

/-- Channels of a pin pattern (R194). -/
def pdWidth (d : List Byte) : Nat := pdSlots d - b2n (pdMarker d)

/-- Fields of a segment entry (R210). -/
def sgPat (e : List Byte) : Nat := fieldB e 0 2
def sgValid (e : List Byte) : Bool := bit (fieldB e 2 1) 0
def sgSmu (e : List Byte) : Bool := bit (fieldB e 2 1) 1
def sgCalSafe (e : List Byte) : Bool := bit (fieldB e 2 1) 2
def sgOutSel (e : List Byte) : Bool := bit (fieldB e 2 1) 3
def sgTsetEn (e : List Byte) : Bool := bit (fieldB e 2 1) 4
def sgEnd (e : List Byte) : Bool := bit (fieldB e 2 1) 5
def sgTset (e : List Byte) : Nat := fieldB e 3 1 % 16
def sgStart (e : List Byte) : Nat := fieldB e 4 4
def sgLen (e : List Byte) : Nat := fieldB e 8 4
def sgRepeat (e : List Byte) : Nat := fieldB e 0xC 4
def sgNext (e : List Byte) : Nat := fieldB e 0x10 2
def sgJump (e : List Byte) : Nat := fieldB e 0x12 2
def sgSmuEntry (e : List Byte) : Nat := fieldB e 0x14 2
def sgSmuSel (e : List Byte) : Nat := fieldB e 0x16 2

/-- Granule of an entry: 256 vectors, or 64 samples (R211). -/
def sgGran (e : List Byte) : Nat := if sgSmu e then 64 else 256

/-- First vector of an entry, and its length. -/
def sgFirst (e : List Byte) : Nat := sgStart e * sgGran e
def sgVecs (e : List Byte) : Nat := sgLen e * sgGran e

/-- Why an entry is bad (R212, SEQ_ERR.REASON): 0 good.  `smu` tells what plays it and `chans` the
channels of the site. -/
def State.entryBad (s : State) (n : Nat) (smu : Bool) (chans : Nat) : Nat :=
  let e := s.segEntry n
  let d := s.patDesc (sgPat e)
  if s.get F.SEQ_STAB_COUNT_COUNT 0 ≤ n then 1
  else if !sgValid e then 2
  else if 4096 ≤ sgPat e || !pdValid d || sgSmu e != (pdKind d == 1) || sgSmu e != smu then 3
  else if sgLen e < 4 ∨ pdVectors d / sgGran e < sgStart e + sgLen e then 4
  else if !smu && decide (chans < pdWidth d) then 5
  else if smu && decide (sgSmuSel e < 48) then 6
  else 0

/-- The entry is bad for the pin chain of a site. -/
def State.pinBad (s : State) (i n : Nat) : Nat := s.entryBad n false (s.siteChans i).length

/-- Lines of a pattern that an entry touches from vector v of its pass on (R195, R225): pattern and
line numbers. -/
def State.passLines (s : State) (n v : Nat) : List (Nat × Nat) :=
  let e := s.segEntry n
  let d := s.patDesc (sgPat e)
  let vpl := pdVpl d
  let a := (sgFirst e + v) / vpl
  let b := (sgFirst e + sgVecs e - 1) / vpl
  if vpl = 0 ∨ sgVecs e ≤ v then [] else (List.range (b + 1 - a)).map (fun j => (sgPat e, a + j))

/-! ## Blocks -/

/-- The nibble at slot i of a vector (R195). -/
def nibble (l : List Byte) (i : Nat) : Nat := bits ((nthD l (i / 2) 0).toNat) (4 * (i % 2)) 4

/-- A vector with the nibble at slot i replaced. -/
def setNibble (l : List Byte) (i c : Nat) : List Byte :=
  let b := (nthD l (i / 2) 0).toNat
  setNth l (i / 2) (BitVec.ofNat 8 (if i % 2 = 0 then b / 16 * 16 + c % 16 else b % 16 + c % 16 * 16))

/-- A vector with every channel slot at a code and the marker slot as in another vector. -/
def allAt (slots width c : Nat) (prev : List Byte) : List Byte :=
  (List.range slots).foldl (fun v i => setNibble v i (if i < width then c else nibble prev i)) (prev.map (fun _ => 0))

/-- The shape of a pattern's vectors as the decoder needs it: bytes of a vector, slots, channels, and
whether it is an SMU waveform. -/
structure Shape where
  bytes : Nat
  slots : Nat
  width : Nat
  smu : Bool
  deriving DecidableEq, Repr

/-- The vector before the first token of a block (R201). -/
def Shape.before (p : Shape) : List Byte :=
  if p.smu then zeros 4 else allAt p.slots p.width 9 (zeros p.bytes)

/-- n copies of the vector d places back, each counted from the vectors then decoded (COPY may
overlap). Vectors are kept latest first. -/
def copyVecs (d : Nat) : Nat → List (List Byte) → List (List Byte)
  | 0, out => out
  | n + 1, out => copyVecs d n (nthD out (d - 1) [] :: out)

/-- n vectors cut from bytes, latest first, and the bytes that remain. -/
def litVecs (b : Nat) : Nat → List Byte → List (List Byte) → Option (List (List Byte) × List Byte)
  | 0, l, out => some (out, l)
  | n + 1, l, out => if l.length < b then none else litVecs b n (l.drop b) (l.take b :: out)

/-- The pairs of a DELTA token applied. -/
def deltaPairs (slots : Nat) : Nat → List Byte → List Byte → Option (List Byte × List Byte)
  | 0, v, l => some (v, l)
  | n + 1, v, a :: c :: rest =>
    if slots ≤ a.toNat ∨ 16 ≤ c.toNat then none else deltaPairs slots n (setNibble v a.toNat c.toNat) rest
  | _ + 1, _, _ => none

/-- A count of at least 1 (R201). -/
def readCount (l : List Byte) : Option (Nat × List Byte) :=
  match readLeb 3 l with
  | none => none
  | some (v, r) => if v = 0 then none else some (v, r)

/-- One token (R201, R202): the vectors after it, latest first, and the bytes that remain; none where
the block is malformed.  `room` is how many vectors the block still holds. -/
def tokenStep (p : Shape) (dict : List Byte) (dictN room op low : Nat) (l : List Byte) (out : List (List Byte)) :
    Option (List (List Byte) × List Byte) :=
  let prev := out.headD p.before
  match op with
  | 1 =>
    match readCount l with
    | some (n, r) => if low ≠ 0 ∨ room < n then none else litVecs p.bytes n r out
    | none => none
  | 2 =>
    match readCount l with
    | some (n, r) => if low ≠ 0 ∨ room < n then none else some (List.replicate n prev ++ out, r)
    | none => none
  | 3 =>
    match readCount l with
    | some (d, r) =>
      match readCount r with
      | some (n, r2) => if low ≠ 0 ∨ room < n ∨ out.length < d then none else some (copyVecs d n out, r2)
      | none => none
    | none => none
  | 4 =>
    match l with
    | k :: r =>
      match readCount r with
      | some (n, r2) =>
        if low ≠ 0 ∨ room < n ∨ dictN ≤ k.toNat then none
        else some (List.replicate n (sliceB dict (k.toNat * p.bytes) p.bytes) ++ out, r2)
      | none => none
    | [] => none
  | 5 =>
    if p.smu || room == 0 then none
    else
      match deltaPairs p.slots (low + 1) prev l with
      | some (v, r) => some (v :: out, r)
      | none => none
  | 6 =>
    match readCount l with
    | some (n, r) => if p.smu || decide (room < n) then none else some (List.replicate n (allAt p.slots p.width low prev) ++ out, r)
    | none => none
  | _ => none

/-- A block decoded (R201, R202): its vectors in order, or none where it is malformed. The fuel is the
number of its bytes. -/
def decodeToks (p : Shape) (dict : List Byte) (dictN want : Nat) : Nat → List Byte → List (List Byte) → Option (List (List Byte))
  | 0, _, _ => none
  | _ + 1, [], _ => none
  | f + 1, t :: rest, out =>
    let op := t.toNat / 16
    let low := t.toNat % 16
    if op = 0 then (if low ≠ 0 ∨ out.length ≠ want ∨ rest.isEmpty = false then none else some out.reverse)
    else
      match tokenStep p dict dictN (want - out.length) op low rest out with
      | none => none
      | some (out', rest') => decodeToks p dict dictN want f rest' out'

/-- The shape of a pattern. -/
def pdShape (d : List Byte) : Shape := ⟨pdBytes d, pdSlots d, pdWidth d, pdKind d == 1⟩

/-- Vectors that block k of a pattern must hold (R200, R202). -/
def pdBlockVecs (d : List Byte) (k : Nat) : Nat :=
  if k + 1 = pdBlocks d then pdVectors d - (pdBlocks d - 1) * pdVpl d else pdVpl d

/-- The index entry is good (R202). -/
def indexOk (d : List Byte) (k : Nat) (ix : List Byte) : Bool :=
  let len := fieldB ix 4 2
  decide (fieldB ix 6 2 = pdBlockVecs d k) && decide (1 ≤ len) && decide (len ≤ 4352)
    && decide (fieldB ix 0 4 + len ≤ pdDataLen d)

/-- The 4 KiB line that a job decodes to, or none where the decode fails (R202, R203). -/
def State.jobLine (s : State) (j : DecJob) : Option (List Byte) :=
  let d := s.patDesc j.req.pat
  match j.idx, j.dict, j.block with
  | some ix, some dict, some blk =>
    if !indexOk d j.req.line ix || crc32c blk != fieldB ix 8 4 then none
    else
      match decodeToks (pdShape d) dict (pdDictN d) (pdBlockVecs d j.req.line) blk.length blk [] with
      | none => none
      | some vs => let l := vs.flatten; some (l ++ zeros (4096 - l.length))
  | _, _, _ => none

/-! ## What contexts want -/

/-- A line is resident and not being invalidated (R227). -/
def State.resident (s : State) (p l : Nat) : Option PanLine :=
  if s.inval.contains p || s.inval.contains 4096 then none
  else s.lines.find? (fun x => x.pat == p && x.line == l)

/-- A buffer holds a line. -/
def inBuf (b : List BufLine) (p l : Nat) : Bool := b.any (fun x => x.pat == p && x.line == l)

/-- The site has a pass that it plays or will play next: it plays, waits for its first line or time,
or is paused with a decided pass. -/
def State.hasPass (s : State) (i : Nat) : Bool :=
  s.on H.SQ_PLAYING i || (1 ≤ s.get H.SQ_WAIT i && s.get H.SQ_WAIT i ≤ 3) || s.on H.SQ_CHAIN_PAUSED i

/-- The entry of the present pass, and the vector of the pass that plays next. -/
def State.curEntry (s : State) (i : Nat) : Nat := s.get F.SEQ_CUR_ENTRY i
def State.curPos (s : State) (i : Nat) : Nat := s.get H.SQ_VPOS i

/-- What may follow the present pass (R213, R222): before the decision point the JUMP entry, and
another pass or the NEXT entry; after it, what was decided. -/
def State.candidates (s : State) (i : Nat) : List Nat :=
  let e := s.segEntry (s.curEntry i)
  let dec := s.get F.SEQ_CUR_DECIDED i
  if dec ≠ 0xFFFF then [dec]
  else if s.on H.SQ_DECIDED_END i then []
  else
    let again := sgRepeat e = 0xFFFFFFFF ∨ s.get F.SEQ_PASS_PASS i + 1 < sgRepeat e + 1
    [sgJump e] ++ (if again then [s.curEntry i] else if sgEnd e then [] else [sgNext e])

/-- Lines that the pin port of a site wants, in order (R21, R222): what is left of the present pass,
and once its last line is in the buffer the heads of the candidates, or the whole of the decided
entry. -/
def State.pinWants (s : State) (i : Nat) : List (Nat × Nat) :=
  if !s.hasPass i then []
  else
    let pass := s.passLines (s.curEntry i) (s.curPos i)
    let buf := qGet s.ports i
    let rest := if (match pass.getLast? with | none => true | some x => inBuf buf x.1 x.2) then
        (s.candidates i).flatMap (fun n =>
          if s.get F.SEQ_CUR_DECIDED i = 0xFFFF then (s.passLines n 0).take 4 else s.passLines n 0)
      else []
    pass ++ rest

/-- Lines that a waveform context wants (R218): its present pass, and after its decision point the
next entry's. -/
def State.waveWants (s : State) (u : Nat) : List (Nat × Nat) :=
  if s.wavePlays u then
    let dec := s.get H.SW_DECIDED u
    s.passLines (s.get F.SMUW_CUR_ENTRY u) (s.get H.SW_POS u)
      ++ (if dec = 0 ∨ 0x10000 < dec then [] else s.passLines (dec - 1) 0)
  else []

/-- The site that owns an SMU's context. -/
def State.waveSite (s : State) (u : Nat) : Nat := s.get F.SMU_CTRL_SITE u

/-- Samples that a waveform context still holds (R218). -/
def State.waveHeld (s : State) (u : Nat) : Nat :=
  let l := s.waveWants u
  ((l.takeWhile (fun x => inBuf (qGet s.waveBuf u) x.1 x.2)).length) * 1024 - s.get H.SW_POS u % 1024

/-- What the read port of a site asks for next (R21, R218): a context's line (the SMU, then the
line), or a pin line. -/
def State.portAsks (s : State) (i : Nat) : Option (Option Nat × Nat × Nat) :=
  let smus := match s.entryOf i with | none => [] | some e => e.smuList.filter s.wavePlays
  let wave (u : Nat) : Option (Option Nat × Nat × Nat) :=
    if 4 ≤ (qGet s.waveBuf u).length then none
    else ((s.waveWants u).find? (fun x => !inBuf (qGet s.waveBuf u) x.1 x.2)).map (fun x => (some u, x.1, x.2))
  let pin : Option (Option Nat × Nat × Nat) :=
    if 12 ≤ (qGet s.ports i).length then none
    else ((s.pinWants i).find? (fun x => !inBuf (qGet s.ports i) x.1 x.2)).map (fun x => (none, x.1, x.2))
  match (smus.filter (fun u => s.waveHeld u < 1024)).findSome? wave with
  | some r => some r
  | none =>
    match pin with
    | some r => some r
    | none => smus.findSome? wave

/-- A port request that can be granted: its line is resident. -/
def State.portReady (s : State) (i : Nat) : Option (Option Nat × PanLine) :=
  match s.portAsks i with
  | none => none
  | some (u, p, l) => (s.resident p l).map (fun x => (u, x))

/-- One line transfer (R20, R21): the port after the one granted last that has a request pending. -/
def State.lineGrant (s : State) : State :=
  let rr := s.get H.PAN_RR 0
  match ((List.range 64).map (fun j => (rr + 1 + j) % 64)).find? (fun i => (s.portReady i).isSome) with
  | none => s
  | some i =>
    match s.portReady i with
    | none => s
    | some (u, x) =>
      let b : BufLine := ⟨x.pat, x.line, x.bad, x.data⟩
      let s1 := s.put H.PAN_RR 0 i
      match u with
      | none => { s1 with ports := qSet s1.ports i (qGet s1.ports i ++ [b]) }
      | some v => { s1 with waveBuf := qSet s1.waveBuf v (qGet s1.waveBuf v ++ [b]) }

/-! ## Readers, eviction and decoding -/

/-- Registered passes of a site and its contexts as lines not yet passed (R223, R226). -/
def State.readsLine (s : State) (i p l : Nat) : Bool :=
  let pins := if s.hasPass i then
      s.passLines (s.curEntry i) (s.curPos i)
        ++ (if s.get F.SEQ_CUR_DECIDED i = 0xFFFF then [] else s.passLines (s.get F.SEQ_CUR_DECIDED i) 0)
    else []
  pins.contains (p, l)
    || (match s.entryOf i with
        | none => false
        | some e => e.smuList.any (fun u => (s.waveWants u).contains (p, l)))

/-- Sites that count as readers of a line (R22, R223). -/
def State.readersOf (s : State) (p l : Nat) : List Nat := allSites.filter (fun i => s.readsLine i p l)

/-- The line that leaves the Pantry when a decoder needs space (R23, R224): unread lines oldest first,
then lines older than the residency window oldest first; pinned lines never, and no bad line, which is never
retried (R203). -/
def State.victim (s : State) : Option PanLine :=
  let free := s.lines.filter (fun x => x.pins.isEmpty && !x.bad)
  let oldest (l : List PanLine) : Option PanLine :=
    match l with
    | [] => none
    | x :: xs => some (xs.foldl (fun a y => if y.filled < a.filled then y else a) x)
  match oldest (free.filter (fun x => (s.readersOf x.pat x.line).isEmpty)) with
  | some x => some x
  | none => oldest (free.filter (fun x => x.filled + s.get F.PAN_CTRL_RESIDENCY_US 0 * us < s.now))

/-- A line evicted; with readers it is counted and remembered for R24. -/
def State.evict (s : State) (x : PanLine) : State :=
  let s1 := { s with lines := s.lines.filter (fun y => y.slot != x.slot) }
  if (s.readersOf x.pat x.line).isEmpty then s1
  else { s1.incSat F.PAN_EVICT_COUNT 0 with evicted := s1.evicted ++ [(x.pat, x.line)] }

/-- The lowest line of the SRAM that is neither resident nor being filled. -/
def State.freeSlot (s : State) : Option Nat :=
  (List.range 8192).find? (fun n => !(s.lines.any (fun x => x.slot == n)) && !(s.jobs.any (fun j => j.slot == n)))

/-- A line that is neither resident nor being decoded (R221). -/
def State.absent (s : State) (p l : Nat) : Bool :=
  !(s.lines.any (fun x => x.pat == p && x.line == l)) && !(s.jobs.any (fun j => j.req.pat == p && j.req.line == l))

/-- Lines ahead of the reader of a site (R221): up to AHEAD lines beyond its position within the pass. -/
def State.aheadLines (s : State) (i : Nat) : List (Nat × Nat) :=
  if s.hasPass i then (s.passLines (s.curEntry i) (s.curPos i)).take (s.get F.PAN_CTRL_AHEAD 0 + 1) else []

/-- The requests that the ports and the sequencer make now (R220-R222), by class. -/
def State.wantedReqs (s : State) : List LineReq :=
  let sites := allSites.filter (fun i => s.hasPass i || (match s.entryOf i with | none => false | some e => e.smuList.any s.wavePlays))
  let asks := sites.filterMap (fun i =>
    (s.portAsks i).map (fun r =>
      (⟨r.2.1, r.2.2, if (qGet s.ports i).length < 4 then 1 else 3, i, s.evicted.contains (r.2.1, r.2.2)⟩ : LineReq)))
  let heads := sites.flatMap (fun i =>
    ((s.pinWants i).filter (fun x => !(s.passLines (s.curEntry i) (s.curPos i)).contains x)).map (fun x =>
      (⟨x.1, x.2, 2, i, s.evicted.contains x⟩ : LineReq)))
  let ahead := sites.flatMap (fun i => (s.aheadLines i).map (fun x => (⟨x.1, x.2, 3, i, s.evicted.contains x⟩ : LineReq)))
  (asks ++ heads ++ ahead).filter (fun r => s.absent r.pat r.line)

/-- The first request of a list for each line. -/
def dedupReqs : List LineReq → List LineReq
  | [] => []
  | r :: rs => r :: (dedupReqs rs).filter (fun x => !(x.pat == r.pat && x.line == r.line))

/-- The stored requests brought up to date: those still wanted keep their place and take their present
class, new ones follow. -/
def State.reqsNow (s : State) : State :=
  let want := dedupReqs s.wantedReqs
  let kept := s.reqs.filterMap (fun r => want.find? (fun x => x.pat == r.pat && x.line == r.line))
  let fresh := want.filter (fun x => !(kept.any (fun r => r.pat == x.pat && r.line == x.line)))
  { s with reqs := kept ++ fresh }

/-- A Cellar read through the code that is not counted as served traffic (R204: a line costs its block
and its index entry). -/
def State.celFetch (s : State) (o n : Nat) : State × Option (List Byte) :=
  if s.celBacked o n then
    let r := s.celBlocksOk clsPattern (celBlocks o n)
    (r.1, if r.2 then some (s.celRaw o n) else none)
  else (s, none)

/-- A decoder fetches what a line needs (R200, R204). -/
def State.jobFetch (s : State) (r : LineReq) (slot : Nat) : State × DecJob :=
  let d := s.patDesc r.pat
  let a := s.celRead clsPattern (celOff (pdIndex d) + r.line * 16) 16
  let c := if pdDictN d = 0 then (a.1, some []) else a.1.celFetch (celOff (pdDict d)) (pdDictN d * pdBytes d)
  let b := match a.2 with
    | none => (c.1, none)
    | some ix =>
      if indexOk d r.line ix then c.1.celRead clsPattern (celOff (pdData d) + fieldB ix 0 4) (fieldB ix 4 2)
      else (c.1, none)
  (b.1, ⟨r, slot, a.2, c.2, b.2⟩)

/-- The request that the next free decoder takes (R220, R227): the oldest of the lowest class whose
pattern is not being invalidated. -/
def State.nextReq (s : State) : Option LineReq :=
  let ok := s.reqs.filter (fun r => !s.inval.contains r.pat && !s.inval.contains 4096)
  match ok.find? (fun r => r.cls == 1) with
  | some r => some r
  | none =>
    match ok.find? (fun r => r.cls == 2) with
    | some r => some r
    | none => ok.head?

/-- The line of the SRAM that a decode will fill (R221, R223): a free one, or that of the line evicted for it. -/
def State.slotRoom (s : State) : Option (State × Nat) :=
  (s.freeSlot.map (fun n => (s, n))).or (s.victim.map (fun x => (s.evict x, x.slot)))

/-- A decode begins in the room found for it (R203, R220); a line fetched again is counted (R24). -/
def State.decodeInto (s : State) (r : LineReq) (room : Option (State × Nat)) : State :=
  match room with
  | none => s
  | some (s1, n) =>
    let s2 := if r.refetch then
        { s1.incSat F.SEQ_REFETCH_COUNT r.site with evicted := s1.evicted.filter (fun x => x != (r.pat, r.line)) }
      else s1
    let f := s2.jobFetch r n
    { f.1 with jobs := f.1.jobs ++ [f.2], reqs := f.1.reqs.filter (fun x => !(x.pat == r.pat && x.line == r.line)) }

/-- A free decoder takes a request (R220, R23, R24). -/
def State.decodeStart (s : State) : State :=
  let s0 := s.reqsNow
  if 16 ≤ s0.jobs.length then s0
  else
    match s0.nextReq with
    | none => s0
    | some r => s0.decodeInto r s0.slotRoom

/-- A decode ends (R203, R220): the line is resident, marked bad where it failed. -/
def State.decodeDone (s : State) (j : DecJob) : State × Bool :=
  let line := s.jobLine j
  let x : PanLine := ⟨j.req.pat, j.req.line, j.slot, line.isNone, [], s.now, line.getD []⟩
  let s1 := { s with jobs := s.jobs.erase j, lines := s.lines ++ [x] }
  (if line.isNone then (s1.incSat F.PAN_DECODE_ERR_COUNT 0).put F.PAN_DECODE_ERR_PAT_ID 0 j.req.pat else s1, line.isNone)

/-! ## Pinning -/

/-- Lines of an entry that a pin would hold (R225). -/
def State.pinnedLines (s : State) : Nat := (s.lines.filter (fun x => !x.pins.isEmpty)).length

/-- Pins of entries for which no site is registered are dropped (R225). -/
def State.unpinIdle (s : State) : State :=
  let used := (allSites.filter s.hasPass).flatMap (fun i =>
    [s.curEntry i] ++ (if s.get F.SEQ_CUR_DECIDED i = 0xFFFF then [] else [s.get F.SEQ_CUR_DECIDED i]))
  { s with lines := s.lines.map (fun x => { x with pins := x.pins.filter (fun n => used.contains n) }) }

/-- The entry of a pass that ends is pinned where R225 says so. -/
def State.pinEntry (s : State) (i n : Nat) : State :=
  let e := s.segEntry n
  let ls := s.passLines n 0
  if !s.on F.PAN_CTRL_PIN_EN 0 || sgRepeat e == 0 || decide (16 < ls.length) then s
  else
    let isNew (x : PanLine) : Bool := ls.contains (x.pat, x.line) && x.pins.isEmpty
    if s.get F.PAN_PIN_LIMIT_LINES 0 < s.pinnedLines + (s.lines.filter isNew).length then
      s.setB F.SEQ_SSTAT_UNPINNED i true
    else
      { s with lines := s.lines.map (fun x =>
          if ls.contains (x.pat, x.line) && !x.pins.contains n then { x with pins := x.pins ++ [n] } else x) }

/-! ## Invalidation -/

/-- Some running or paused site is registered for a line that an invalidation would take (R227). -/
def State.invalBarred (s : State) (all : Bool) (p : Nat) : Bool :=
  s.lines.any (fun x => (all || x.pat == p) && (s.readersOf x.pat x.line).any s.active)

/-- An invalidation begins: named lines count as not resident from now on, and are freed within
20 µs. -/
def State.invalStart (s : State) (all : Bool) (p : Nat) : State :=
  let t := { s with inval := [if all then 4096 else p] }
  (t.setB F.PAN_INVAL_BUSY 0 true).setDue H.PAN_INVAL_END 0 (t.now + 20 * us)

/-- The last named line is freed. -/
def State.invalEnd (s : State) : State :=
  let keep (x : PanLine) : Bool := !s.inval.contains x.pat && !s.inval.contains 4096
  ({ s with lines := s.lines.filter keep, inval := [] }.setB F.PAN_INVAL_BUSY 0 false).noDue H.PAN_INVAL_END 0

/-- Lines of a pattern dropped at once (R208). -/
def State.dropPattern (s : State) (p : Nat) : State := { s with lines := s.lines.filter (fun x => x.pat != p) }

/-! ## The start-time budget (R25, R229, R230) -/

/-- Contexts that play or are about to: entry and vector rate as a fraction of vectors per second
(numerator 3 * 10^12 ticks per second over ticks per vector). -/
def State.running (s : State) : List (Nat × Nat) :=
  let pins := (allSites.filter (fun i => s.on H.SQ_PLAYING i || (1 ≤ s.get H.SQ_WAIT i && s.get H.SQ_WAIT i ≤ 3))).map
    (fun i => (s.curEntry i, s.get H.SQ_PERIOD i))
  let waves := ((List.range 32).filter s.wavePlays).map (fun u =>
    (s.get F.SMUW_CUR_ENTRY u, sgSmuSel (s.segEntry (s.get F.SMUW_CUR_ENTRY u)) * 62500))
  pins ++ waves

/-- Each entry once, at the period of its fastest site (R229). -/
def fastest : List (Nat × Nat) → List (Nat × Nat)
  | [] => []
  | (n, p) :: t =>
    let rest := fastest t
    match rest.find? (fun x => x.1 == n) with
    | none => (n, p) :: rest
    | some x => (n, min p x.2) :: rest.filter (fun y => y.1 != n)

/-- The lines of an entry are all in the Pantry (R229). -/
def State.heldFull (s : State) (n : Nat) : Bool := (s.passLines n 0).all (fun x => (s.resident x.1 x.2).isSome)

/-- The sum of terms cost * rate, cost in MB/s per GV/s and the rate 1,000,000,000 * 3,000 / ticks
vectors per second, stays within a limit in MB/s: exact, by cross multiplication. -/
def sumWithin (limit : Nat) (l : List (Nat × Nat)) : Bool :=
  let den := (l.map (fun x => x.2)).foldl (fun a p => a * max p 1) 1
  decide ((l.map (fun x => x.1 * 3000 * (den / max x.2 1))).sum ≤ limit * den)

/-- The budget allows a set of entries with their periods (R25, R229): fetch within 96,000 MB/s and
decode within 128,000 MB/s. -/
def State.budgetOk (s : State) (l : List (Nat × Nat)) : Bool :=
  let f := fastest l
  let desc (n : Nat) : List Byte := s.patDesc (sgPat (s.segEntry n))
  sumWithin 96000 (f.map (fun x => (pdFetch (desc x.1), x.2)))
    && sumWithin 128000 ((f.filter (fun x => !s.heldFull x.1)).map (fun x => (pdRate (desc x.1), x.2)))

/-- A start of an entry at a period is within the budget; an entry already counted adds nothing. -/
def State.budgetAllows (s : State) (n p : Nat) : Bool :=
  s.running.any (fun x => x.1 == n) || s.budgetOk (s.running ++ [(n, p)])

end Sys2Proof.Machine
end

