-- ==== Sys2Proof/Machine/Corrections.lean ====
section
/-!
DEFINITION. The correction stores of the tiles (R423-R425), the records that carry their values (R427,
R433), and how a pending value takes effect (R435, R436).
-/

namespace Sys2Proof.Machine

/-! ## Units of a tile -/

/-- The kind of a unit: 1 channel, 2 DPS, 3 SMU, 4 TDC, 5 monitor (R427). -/
def calKind (u : Nat) : Nat := if u < 64 then 1 else if u < 72 then 2 else if u < 76 then 3 else if u < 92 then 4 else 5

/-- The first unit of a kind and how many a tile has. -/
def calFirst (k : Nat) : Nat := match k with | 1 => 0 | 2 => 64 | 3 => 72 | 4 => 76 | _ => 92
def calCount (k : Nat) : Nat := match k with | 1 => 64 | 2 => 8 | 3 => 4 | 4 => 16 | _ => 20

/-- The local index of a unit. -/
def calLocal (u : Nat) : Nat := u - calFirst (calKind u)

/-- Place and size of a unit's part of the store (R424), from TT + 0x80_1000. -/
def calOff (u : Nat) : Nat :=
  match calKind u with
  | 1 => calLocal u * 0x40
  | 2 => 0x1000 + calLocal u * 0x40
  | 3 => 0x1200 + calLocal u * 0x40
  | 4 => 0x1300 + calLocal u * 0x20
  | _ => 0x1500 + calLocal u * 0x10
def calSize (u : Nat) : Nat := match calKind u with | 4 => 32 | 5 => 16 | _ => 64

/-- A byte of a tile's store. -/
def State.corrByte (s : State) (a : Nat) : Byte := (lookKey a s.corr).getD (Config.factoryCorr a)

/-- Bytes of a tile's store. -/
def State.corrBytes (s : State) (a n : Nat) : List Byte := (List.range n).map (fun j => s.corrByte (a + j))

/-- A byte of a tile's store written. -/
def State.corrPut1 (s : State) (a : Nat) (b : Byte) : State :=
  { s with corr := storeKey (Config.factoryCorr a) a b s.corr }

/-- Bytes of a tile's store written. -/
def State.corrPut (s : State) (a : Nat) (l : List Byte) : State :=
  (l.zipIdx).foldl (fun t p => t.corrPut1 (a + p.2) p.1) s

/-- The correction of R423: a gain in ppm and an offset, rounded to the nearest code. -/
def corrected (c g o : Int) : Int := c + rdiv (c * g) 1000000 + o

/-- The gain and offset at a place of a store. -/
def State.corrTerm (s : State) (a : Nat) : Int × Int :=
  (sext 16 (ofLe (s.corrBytes a 2)), sext 16 (ofLe (s.corrBytes (a + 2) 2)))

/-- The DAC code of a level of a channel (R423, R424). -/
def State.levelDac (s : State) (ch lvl : Nat) : Int :=
  let g := s.corrTerm (ch / 64 * 0x10000 + calOff (ch % 64) + 4 * lvl)
  corrected (s.getI (levelField lvl) ch) g.1 g.2

/-! ## Images of a unit's values -/

/-- The values of a unit in force: its part of the store and, for a channel, CH_DSK and 4 bytes. -/
def State.calNow (s : State) (t u : Nat) : List Byte :=
  let l := s.corrBytes (t * 0x10000 + calOff u) (calSize u)
  if calKind u = 1 then l ++ leBytes 4 (s.regRaw .CH_DSK (t * 64 + u) % 0x20000000) ++ zeros 4 else l

/-- The values that a unit will have: those that wait for it, else those in force. -/
def State.calImage (s : State) (t u : Nat) : List Byte :=
  match (qGet s.corrPend t).find? (fun p => p.unit == u) with
  | some p => p.bytes
  | none => s.calNow t u

/-- Bytes replaced from a place on. -/
def spliceB (l : List Byte) (off : Nat) (x : List Byte) : List Byte := l.take off ++ x ++ l.drop (off + x.length)

/-- A value made pending; a later one replaces an earlier (R437). -/
def State.calPend (s : State) (t : Nat) (p : PendCorr) : State :=
  { s with corrPend := qSet s.corrPend t ((qGet s.corrPend t).filter (fun q => q.unit != p.unit) ++ [p]) }

/-! ## Plausibility (R433) -/

/-- Terms from a place lie within limits: n pairs of gain and offset. -/
def termsOk (l : List Byte) (off n : Nat) (g o : Nat) : Bool :=
  (List.range n).all (fun j =>
    decide ((sext 16 (fieldB l (off + 4 * j) 2)).natAbs ≤ g) && decide ((sext 16 (fieldB l (off + 4 * j + 2) 2)).natAbs ≤ o))

/-- A ball deskew beside the fuse value. -/
def dskBallOk (x fuse : Int) : Bool := decide (x.natAbs ≤ 1000) && decide ((x - fuse).natAbs ≤ 100)

/-- A one-way needle delay. -/
def delayOk (d : Int) : Bool := decide (20 ≤ d) && decide (d ≤ 1500)

/-- CH_DSK of a new image: a needle deskew takes the delay off the drive and adds it to the compare of
the deskew before it. -/
def dskOk (flow new old fuse : Nat) : Bool :=
  if flow = 3 then
    delayOk (sext 13 old - sext 13 new) && delayOk (sext 13 (new / 65536) - sext 13 (old / 65536))
  else dskBallOk (sext 13 new) (sext 13 fuse) && dskBallOk (sext 13 (new / 65536)) (sext 13 (fuse / 65536))

/-- The level and PMU terms of a channel lie within their limits. -/
def levelsOk (l : List Byte) : Bool := termsOk l 0 10 4000 80 && termsOk l 0x28 1 4000 260 && termsOk l 0x2C 5 4000 327

/-- The reference pairs of a TDC are plausible (R382). -/
def pairsOk (l : List Byte) : Bool := refPairOk (fieldB l 0 2) (fieldB l 2 2) && refPairOk (fieldB l 4 2) (fieldB l 6 2)

/-- The trim of a band of a TDC lies within ±16 of the fuse value. -/
def trimOk (t u : Nat) (l : List Byte) (band : Nat) : Bool :=
  let fuse : Int := (Config.factoryCorr (t * 0x10000 + calOff u + 8 + band)).toNat
  decide ((((nthD l (8 + band) 0).toNat : Int) - fuse).natAbs ≤ 16)

/-- A new image of a unit lies within the limits of R433; `old` is the deskew that a needle deskew is
measured from. -/
def calPlausible (t u flow old : Nat) (l : List Byte) : Bool :=
  match calKind u with
  | 1 => levelsOk l && dskOk flow (fieldB l 64 4) old (Config.factoryDsk (t * 64 + u))
  | 2 => termsOk l 0 2 5000 40 && termsOk l 8 12 5000 150
  | 3 => termsOk l 0 4 2000 2000 && termsOk l 0x10 10 2000 2000
  | 4 => pairsOk l && (List.range 4).all (trimOk t u l)
  | _ =>
    let fs := if u - 92 < 16 then 300 else 40000
    decide ((sext 16 (fieldB l 8 2)).natAbs ≤ 10000) && decide ((sext 32 (fieldB l 0 4)).natAbs ≤ fs)
      && decide ((sext 32 (fieldB l 4 4)).natAbs ≤ fs)

/-- The values that a flow itself produces lie within the limits of R433: those that it leaves as they were
are not judged again. -/
def calNewOk (t u flow band old : Nat) (l : List Byte) : Bool :=
  match flow with
  | 1 => levelsOk l
  | 2 => dskOk 2 (fieldB l 64 4) old (Config.factoryDsk (t * 64 + u))
  | 3 => dskOk 3 (fieldB l 64 4) old (Config.factoryDsk (t * 64 + u))
  | 6 => pairsOk l && trimOk t u l band
  | _ => calPlausible t u flow old l

/-! ## Taking effect (R435, R436) -/

/-- The site that a unit of a tile belongs to. -/
def State.calSite (s : State) (t u : Nat) : Option Nat :=
  let i := calLocal u
  match calKind u with
  | 1 => s.chSite (t * 64 + i)
  | 2 => s.dpsSite (t * 8 + i)
  | 3 => s.smuSite (t * 4 + i)
  | 4 => if s.on F.TDC_CTRL_BOUND (t * 16 + i) then some (s.get F.TDC_CTRL_SITE (t * 16 + i)) else none
  | _ => if s.on H.MON_MEM_BOUND (t * 20 + i) then some (s.get H.MON_MEM_SITE (t * 20 + i)) else none

/-- A calibration flow owns the unit. -/
def State.calOwned (s : State) (t u : Nat) : Bool :=
  let i := calLocal u
  match calKind u with
  | 1 => s.on H.CH_CAL_OWNED (t * 64 + i)
  | 2 => s.on H.DPS_CAL_OWNED (t * 8 + i)
  | 3 => s.on H.SMU_CAL_OWNED (t * 4 + i)
  | 4 => s.on H.TDC_CAL_OWNED (t * 16 + i)
  | _ => (qGet s.flows t).any (fun f => (f.flow == 7 && bit f.args.mon i)
      || (f.flow == 4 && decide (i < 16) && bit f.args.dps (i / 2)) || (f.flow == 5 && decide (16 ≤ i) && bit f.args.smu (i - 16)))

/-- A site stands at a boundary of R435 that is no segment end. -/
def State.siteStill (s : State) (i : Nat) : Bool := !s.active i && s.siteState i != sHELD

/-- The temperature of a record or flow noted in TCAL_TJ. -/
def State.calNote (s : State) (t u flow tj : Nat) : State :=
  match calKind u with
  | 1 =>
    let s1 := if flow = 2 ∨ flow = 3 then s else s.put F.TCAL_TJ_TJ_LEVEL t tj
    if flow = 1 then s1 else s1.put F.TCAL_TJ_TJ_DESKEW t tj
  | 2 => s.put F.TCAL_TJ_TJ_DPS t tj
  | 3 => s.put F.TCAL_TJ_TJ_SMU t tj
  | _ => s

/-- CH_DSK and the pairs and deskew of a TDC follow the store. -/
def State.calUse (s : State) (t u : Nat) (l : List Byte) : State :=
  match calKind u with
  | 1 =>
    let ch := t * 64 + u
    let d := fieldB l 64 4
    let s1 := (s.put F.CH_DSK_DSK_DRV ch d).put F.CH_DSK_DSK_CMP ch (d / 65536)
    (s1.put H.CH_DSK_USE_DRV ch d).put H.CH_DSK_USE_CMP ch (d / 65536)
  | 4 =>
    let j := t * 16 + calLocal u
    let s1 := ((s.put H.TDC_FACT1 (2 * j) (fieldB l 0 2)).put H.TDC_FACT2 (2 * j) (fieldB l 2 2)).put H.TDC_FACT1 (2 * j + 1) (fieldB l 4 2)
    let s2 := (s1.put H.TDC_FACT2 (2 * j + 1) (fieldB l 6 2)).put F.TDC_DSK_START_DSK j (fieldB l 12 4)
    s2.put F.TDC_DSK_STOP_DSK j (fieldB l 12 4 / 65536)
  | _ => s

/-- A pending value takes effect (R436). A level that moves masks the compares of its channel. -/
def State.calTake (s : State) (t : Nat) (p : PendCorr) : State :=
  let a := t * 0x10000 + calOff p.unit
  let moved := calKind p.unit == 1 && s.corrBytes a 40 != p.bytes.take 40
  let s1 := (s.corrPut a (p.bytes.take (calSize p.unit))).calUse t p.unit p.bytes
  let s2 := if moved then (s1.levelNow (t * 64 + p.unit) 0).levelNow (t * 64 + p.unit) 5 else s1
  ((s2.calNote t p.unit p.flow p.tj).incW F.TCAL_GEN_COUNT t).setB H.CAL_MADE (t * 128 + p.unit) true

/-- A value waits for the disarm of its TDC. -/
def State.calArmed (s : State) (t u : Nat) : Bool := calKind u == 4 && s.on F.TDC_CTRL_ARMED (t * 16 + calLocal u)

/-- The pending values of a tile that a test names take effect, in order; the others go on waiting. -/
def State.calApply (s : State) (t : Nat) (ready : PendCorr → Bool) : State :=
  let l := qGet s.corrPend t
  let s1 := { s with corrPend := qSet s.corrPend t (l.filter (fun p => !ready p)) }
  (l.filter ready).foldl (fun u p => u.calTake t p) s1

/-- All pending values of one site, other than those of monitors, at a boundary of the site (R435). -/
def State.calSiteApply (s : State) (i : Nat) : State :=
  match s.entryOf i with
  | none => s
  | some e => s.calApply e.tile (fun p => p.unit < 92 && s.calSite e.tile p.unit == some i && !s.calOwned e.tile p.unit && !s.calArmed e.tile p.unit)

/-- A value of a unit other than a monitor may take effect now (R435). -/
def State.calReady (s : State) (t : Nat) (p : PendCorr) : Bool :=
  p.unit < 92 && !s.calOwned t p.unit && !s.calArmed t p.unit
    && (match s.calSite t p.unit with | none => true | some i => s.siteStill i)

end Sys2Proof.Machine
end

