-- ==== Sys2Proof/Machine/Timing.lean ====
section
/-!
DEFINITION. Timing sets and periods (R163-R170), deskew and tile phase (R174, R176), the timebase and
SYNC (R177-R182), the trigger bus (R185-R188).
-/

namespace Sys2Proof.Machine

/-! ## Periods -/

/-- The period of a timing set of a site in ticks (R164). -/
def State.tsetTicks (s : State) (i set : Nat) : Nat :=
  (s.get F.TSET_PER_CYC_M1 (i * 16 + set) + 1) * coreCycle + s.get F.TSET_PER_FINE (i * 16 + set) * ps

/-- A period register written (R164): FINE above 666 is stored as 666 and sets PER_CLAMP. -/
def State.periodSet (s : State) (i set v : Nat) : State :=
  let fine := bits v 20 10
  let s1 := (s.put F.TSET_PER_CYC_M1 (i * 16 + set) (bits v 0 20)).put F.TSET_PER_FINE (i * 16 + set) (min fine 666)
  if 666 < fine then s1.setB F.SITE_TSTAT_PER_CLAMP i true else s1

/-- The set in force put in force with its period. -/
def State.tsetUse (s : State) (i set : Nat) : State := s.put F.SITE_TCTRL_ACTIVE i set

/-! ## Deskew and tile phase -/

/-- A write of CH_DSK (R174): in force at once for an unbound channel, else held with PEND until a
boundary that allows it. -/
def State.dskSet (s : State) (ch v : Nat) : State :=
  let lim (x : Nat) : Int := clampI (-4095) 4095 (sext 13 x)
  let s1 := (s.putI F.CH_DSK_DSK_DRV ch (lim v)).putI F.CH_DSK_DSK_CMP ch (lim (v / 65536))
  match s.chSite ch with
  | none => (s1.put H.CH_DSK_USE_DRV ch (s1.get F.CH_DSK_DSK_DRV ch)).put H.CH_DSK_USE_CMP ch (s1.get F.CH_DSK_DSK_CMP ch)
  | some i =>
    if s.active i then s1.setB F.CH_DSK_PEND ch true
    else (s1.put H.CH_DSK_USE_DRV ch (s1.get F.CH_DSK_DSK_DRV ch)).put H.CH_DSK_USE_CMP ch (s1.get F.CH_DSK_DSK_CMP ch)

/-- The held deskew of a channel comes into force. -/
def State.dskTake (s : State) (ch : Nat) : State :=
  if s.on F.CH_DSK_PEND ch then
    ((s.put H.CH_DSK_USE_DRV ch (s.get F.CH_DSK_DSK_DRV ch)).put H.CH_DSK_USE_CMP ch (s.get F.CH_DSK_DSK_CMP ch)).setB
      F.CH_DSK_PEND ch false
  else s

/-- A boundary that calibration allows (R174, R176, R435): held deskew and the tile phase correction
come into force for a site. -/
def State.calBoundary (s : State) (i : Nat) : State :=
  match s.entryOf i with
  | none => s
  | some e => ((s.each e.channels State.dskTake).put H.TPH_SITE_CORR i (s.get F.TPH_CORR_CORR e.tile)).calSiteApply i

/-- A tile measures its phase (R176): sites that stand at an allowed boundary take the correction up at
once. -/
def State.tilePhase (s : State) (t : Nat) (err corr : Int) : State :=
  let s1 := (s.putI F.TPH_STAT_ERR t err).putI F.TPH_CORR_CORR t corr
  let s2 := if 6 < err.natAbs then (s1.setB F.TPH_STAT_OVER t true).irq (144 + t) else s1
  s2.each allSites (fun u i =>
    match u.entryOf i with
    | none => u
    | some e => if e.tile = t ∧ u.active i = false then u.put H.TPH_SITE_CORR i (u.get F.TPH_CORR_CORR t) else u)

/-! ## The timebase -/

/-- The coarse count at a moment (R177). -/
def State.coarseAt (s : State) (t : Nat) : Nat := s.localAt t / coreCycle % 2 ^ 52

/-- The timebase made to show a coarse count at a moment. -/
def State.tbLoad (s : State) (c t : Nat) : State :=
  let s1 := s.put H.TB_ORIGIN 0 (((t : Int) - (c * coreCycle : Nat) + 2 ^ 190).toNat)
  s1.put H.TB_EPOCH_SEEN 0 (s1.localAt t / (coreCycle * 2 ^ 52))

/-- A LOAD waits for nothing that runs (R181). -/
def State.loadBarred (s : State) : Bool :=
  s.anyActive || (List.range 8).any (fun i => s.on F.TRIG_STAT_ARMED i || !(qGet s.trigActs i).isEmpty)

/-- The REF edges: 15 CORE cycles each. -/
def refCycle : Nat := 15 * coreCycle

/-- The action edge of a SYNC sampled at a moment (R179): eight REF cycles on. -/
def State.syncEdge (s : State) : Nat := s.now + 8 * refCycle

/-- SYNC_LOAD advances by SYNC_STEP. -/
def State.syncNext (s : State) : State :=
  s.put2 F.SYNC_LOAD_LO_LOAD_LO F.SYNC_LOAD_HI_LOAD_HI 0
    (s.get2 F.SYNC_LOAD_LO_LOAD_LO F.SYNC_LOAD_HI_LOAD_HI 0 + s.get F.SYNC_STEP_STEP 0)

/-- A SYNC event (R179-R182, R589). -/
def State.syncEvent (s : State) : State :=
  let t := s.syncEdge
  let s0 := ((s.incW F.SYNC_STAT_COUNT 0).irq 188).upTo t
  let load := s0.get2 F.SYNC_LOAD_LO_LOAD_LO F.SYNC_LOAD_HI_LOAD_HI 0
  match s.get F.TB_CTRL_SYNC_MODE 0 with
  | 1 =>
    if s0.loadBarred then s0.setB F.SYNC_STAT_IGNORED 0 true
    else
      let s1 := ((s0.tbLoad load t).setB F.SYNC_STAT_LOADED 0 true).setB F.SYNC_STAT_UNSYNCED 0 false
      ((s1.setB H.TB_RELOAD 0 false).put F.TB_CTRL_SYNC_MODE 0 2).syncNext
  | 2 =>
    if s0.on H.TB_RELOAD 0 then
      if s0.loadBarred then (s0.setB F.SYNC_STAT_IGNORED 0 true).syncNext
      else (((s0.tbLoad load t).setB F.SYNC_STAT_UNSYNCED 0 false).setB H.TB_RELOAD 0 false).syncNext
    else
      let c := s0.coarseAt t
      let s1 := s0.put2 F.SYNC_TS_LO_TS_LO F.SYNC_TS_HI_TS_HI 0 (stampOf (s0.localAt t))
      let s2 := if s0.get F.SYNC_STEP_STEP 0 ≠ 0 ∧ c ≠ load then (s1.setB F.SYNC_STAT_SLIP 0 true).irq 168 else s1
      s2.syncNext
  | _ => s0

/-- Timed and trigger sources are refused while UNSYNCED guards the timebase (R182). -/
def State.unsynced (s : State) : Bool :=
  s.on F.SYNC_STAT_UNSYNCED 0 && (s.get F.TB_CTRL_SYNC_MODE 0 == 1 || s.get F.TB_CTRL_SYNC_MODE 0 == 2)

/-! ## The trigger bus -/

/-- The action of an arrival or an emission scheduled (R186): at most four are pending. -/
def State.trigSchedule (s : State) (i t a : Nat) : State :=
  if !s.on F.TRIG_CFG_ACT_EN i then s
  else if 4 ≤ (qGet s.trigActs i).length then s.setB F.TRIG_STAT_OVERRUN i true
  else
    let late : Bool := decide (a < t + 40 * ns)
    let s1 := { s with trigActs := qSet s.trigActs i (qGet s.trigActs i ++ [if late then t + 40 * ns else a]) }
    if late then s1.setB F.TRIG_STAT_ACT_LATE i true else s1

/-- What every arrival on a line leaves (R186, R250, R589). -/
def State.trigRecord (s : State) (i t : Nat) : State :=
  let s1 := s.put2 F.TRIG_ARR_LO_A_LO F.TRIG_ARR_HI_A_HI i (stampOf (s.commonAt t))
  let s2 := (s1.incW F.TRIG_STAT_ARR_COUNT i).irq (177 + i)
  s2.each allSites (fun u j => if u.get F.SITE_TCTRL_TRIG_LINE j = i then u.setB H.ST_TRIG_ARR j true else u)

/-- The latency of actions in ticks. -/
def State.trigLat (s : State) : Nat := s.get F.TRIG_LAT_CYCLES 0 * coreCycle

/-- An arrival accumulated (R187): the difference in 1/64 ps is exact to 1/3 tick, and what remains is
left open. -/
def State.trigAccum (s : State) (i t : Nat) : State :=
  if !s.on F.TRIG_ACC_CTRL_EN i || s.on H.TRIG_ACC_STOP i then s
  else
    let step := s.get F.TRIG_ACC_CTRL_STEP i * coreCycle
    let base := s.whenCommon (s.get2 F.TRIG_ACC_BASE_LO_B_LO F.TRIG_ACC_BASE_HI_B_HI i)
    let k := (t + step / 2 - base) / step
    let d : Int := (t : Int) - (base + k * step : Nat)
    if t + step / 2 < base ∨ s.get F.TRIG_ACC_CTRL_WIN i * ns < d.natAbs ∨ k < s.get H.TRIG_ACC_K i then s
    else
      let m := s.mean (d * 64) 3
      let sum := m.2.getI F.TRIG_ACC_SUM_SUM i + m.1
      if sum < -(2 ^ 31) ∨ 2 ^ 31 ≤ sum then (m.2.setB H.TRIG_ACC_STOP i true).setB F.TRIG_ACC_CNT_SAT i true
      else ((m.2.putI F.TRIG_ACC_SUM_SUM i sum).incW F.TRIG_ACC_CNT_CNT i).put H.TRIG_ACC_K i (k + 1)

/-- An arrival on a line at a moment (R186, R187). -/
def State.trigArrive (s : State) (i t : Nat) : State :=
  let s1 := (s.upTo t).trigRecord i t
  (s1.trigAccum i t).trigSchedule i t (t + s1.trigLat - s1.get F.TRIG_COMP_COMP i * ps)

/-- The chip may emit on a line (R185, R188): OUT_EN, and STANDBY has been reached. -/
def State.trigOut (s : State) (i : Nat) : Bool := s.on F.TRIG_CFG_OUT_EN i && s.mode != mBRINGUP && s.mode != mMINIMAL

/-- A pulse emitted on a line at a moment (R185, R186): the chip records its own emission. -/
def State.trigPulse (s : State) (i t : Nat) : State :=
  if s.trigOut i then (s.trigRecord i t).trigSchedule i t (t + s.trigLat) else s

/-- A write of TRIG_FIRE_LO (R185, R182): it arms an emission; a time already past emits at once. -/
def State.trigArm (s : State) (i v : Nat) : State × Resp :=
  if s.unsynced then s.bad
  else
    let s1 := s.put F.TRIG_FIRE_LO_F_LO i v
    let t := s1.whenCommon (s1.get2 F.TRIG_FIRE_LO_F_LO F.TRIG_FIRE_HI_F_HI i)
    let s2 := (s1.setB F.TRIG_STAT_ARMED i true).put H.TRIG_LEFT i (max 1 (s1.get F.TRIG_REP_COUNT i))
    (if t < s.now then (s2.setB F.TRIG_STAT_FIRE_LATE i true).put H.TRIG_NEXT_T i s.now else s2.put H.TRIG_NEXT_T i t).ok

/-- The next pulse of an armed emission (R185). -/
def State.trigEmit (s : State) (i : Nat) : State :=
  if s.on F.TRIG_STAT_ARMED i then
    let t := s.get H.TRIG_NEXT_T i
    let s1 := (s.upTo t).trigPulse i t
    let n := s.get H.TRIG_LEFT i - 1
    let s2 := (s1.put H.TRIG_LEFT i n).put H.TRIG_NEXT_T i (t + s.get F.TRIG_REP_INTERVAL i * coreCycle)
    if n = 0 then s2.setB F.TRIG_STAT_ARMED i false else s2
  else s

/-- A write of TRIG_ACC_CTRL (R187). -/
def State.trigAccSet (s : State) (i v : Nat) : State :=
  let s1 := (s.setB F.TRIG_ACC_CTRL_EN i (bit v 0)).put F.TRIG_ACC_CTRL_WIN i (max 1 (bits v 8 8))
  let s2 := s1.put F.TRIG_ACC_CTRL_STEP i (max 90 (bits v 16 16))
  if bit v 0 then
    (((s2.put F.TRIG_ACC_SUM_SUM i 0).put F.TRIG_ACC_CNT_CNT i 0).setB H.TRIG_ACC_STOP i false).put H.TRIG_ACC_K i 0
  else s2

/-- CHIP_OFFSET written (R193): refused while a site runs; the Tj of the core die is noted. -/
def State.offsetSet (s : State) (v : Nat) : State × Resp :=
  if s.anyActive then s.bad
  else
    let tj := (coreSensors.map (fun n => s.getI F.THM_TEMP_READING n)).foldl max (s.getI F.THM_TEMP_READING 0)
    (((s.put F.CHIP_OFFSET_OFFSET 0 v).putI F.SKEW_CAL_TJ 0 (tj / 4)).setB F.SKEW_CAL_DRIFT 0 false).ok

/-- DRIFT against the present core-die temperature in 0.25 °C (R193): its rising edge raises the timing
source. -/
def State.driftCheck (s : State) (tj : Int) : State :=
  let d : Bool := decide (40 < (tj - s.getI F.SKEW_CAL_TJ 0 * 4).natAbs)
  let s1 := s.setB F.SKEW_CAL_DRIFT 0 d
  if d && !s.on F.SKEW_CAL_DRIFT 0 then s1.irq 168 else s1

/-- Pending emissions and actions cancelled (R188). -/
def State.trigCancel (s : State) : State :=
  { s.each (List.range 8) (fun u i => u.setB F.TRIG_STAT_ARMED i false) with trigActs := [] }

end Sys2Proof.Machine
end

