-- ==== Sys2Proof/Machine/Sequencer.lean ====
section
/-!
DEFINITION. The segment sequencer: chain starts (R25, R117, R189, R190), vector boundaries and what a
vector does on the pins (R139-R146, R153, R165-R172), passes and decisions (R213-R216, R222-R226),
fail capture (R313-R315), underruns (R235-R241), jump requests (R231-R234) and the SMU waveform
contexts (R217-R219).
-/

namespace Sys2Proof.Machine

/-! ## Jump requests -/

/-- A jump request reaches a site (R231, R233): it has no effect unless the site is RUNNING or PAUSED,
it lapses where no pass follows, and it is late once the present pass is decided. -/
def State.jumpRequest (s : State) (i : Nat) : State :=
  if !s.active i || (!s.hasPass i && s.get H.SQ_WAIT i != 4) then s
  else
    let late := s.get F.SEQ_CUR_DECIDED i != 0xFFFF || s.on H.SQ_DECIDED_END i
    let s1 := s.setB F.SEQ_JUMP_REQ_PENDING i true
    if late then s1.setB F.SEQ_JUMP_REQ_JUMP_LATE i true else s1

/-- A pending jump request of a site cancelled (R234). -/
def State.jumpCancel (s : State) (i : Nat) : State := s.setB F.SEQ_JUMP_REQ_PENDING i false

/-- A jump request reaches a waveform context (R217, R231). -/
def State.waveJump (s : State) (u : Nat) : State :=
  if !s.wavePlays u || !s.active (s.waveSite u) then s
  else
    let s1 := s.setB F.SMUW_JUMP_REQ_PENDING u true
    if s.get H.SW_DECIDED u = 0 then s1 else s1.setB F.SMUW_JUMP_REQ_JUMP_LATE u true

/-- A pending jump request of a context cancelled. -/
def State.waveJumpCancel (s : State) (u : Nat) : State := s.setB F.SMUW_JUMP_REQ_PENDING u false

/-! ## Waveform contexts -/

/-- One MOD cycle in ticks: 20.83 ns. -/
def modCycle : Nat := 62500

/-- The STALL record of a context's episode (R219, R238), with the SMU flag and the flags given. -/
def State.waveStallEnd (s : State) (u flags : Nat) : State :=
  if s.get H.SW_STALL_N u = 0 then s
  else
    (s.recAppend (s.waveSite u) (stallBytes (s.waveSite u) (s.get F.SMUW_CUR_ENTRY u) (flags ||| 2)
      (s.get H.SW_STALL_VEC u) (s.get H.SW_STALL_N u) (s.get H.SW_STALL_TS u))).put H.SW_STALL_N u 0

/-- A waveform context stops (R351): the SMU holds its last sample. -/
def State.waveStop (s : State) (u : Nat) : State := (s.waveStallEnd u 4).smuHold u

/-- A waveform context starts an entry at a moment (R217, R218): a context that plays abandons its
present entry, the sine is replaced, and the first sample falls on the next MOD cycle. -/
def State.waveStart (s : State) (u entry t : Nat) : State :=
  let s0 := s.waveStallEnd u 4
  let s1 := ((s0.put F.SMUW_CUR_ENTRY u entry).setB F.SMUW_CUR_PLAYING u true).setB F.SMUW_CUR_CHAIN_DONE u false
  let s2 := (((s1.put H.SW_POS u 0).put H.SW_PASS u 0).put H.SW_DECIDED u 0).setB H.SW_JUMP u false
  let s3 := (s2.put H.SW_NEXT_T u ((t / modCycle + 1) * modCycle)).put H.SW_SAMPLES u 0
  let s4 := ((s3.setB H.SW_STARTED u true).put F.SMU_CTRL_SRC u 1).setB F.SMUW_JUMP_REQ_PENDING u false
  { s4 with waveBuf := qSet s4.waveBuf u [] }

/-- A bad entry noted (R212): SEQ_ERR and the site's flag. -/
def State.noteBad (s : State) (i entry reason : Nat) : State :=
  let s1 := ((s.put F.SEQ_ERR_ENTRY 0 entry).put F.SEQ_ERR_REASON 0 reason).put F.SEQ_ERR_SITE 0 i
  if reason = 5 then s1.setB F.SEQ_SSTAT_WIDTH_ERR i true else s1.setB F.SEQ_SSTAT_ENTRY_ERR i true

/-- The entry after the present pass of a context is chosen (R213, R217), 128 samples before its end. -/
def State.waveDecide (s : State) (u : Nat) : State :=
  let n := s.get F.SMUW_CUR_ENTRY u
  let e := s.segEntry n
  let jump := s.on F.SMUW_JUMP_REQ_PENDING u
  let again := sgRepeat e = 0xFFFFFFFF ∨ s.get H.SW_PASS u + 1 < sgRepeat e + 1
  if jump then
    ((s.put H.SW_DECIDED u (sgJump e + 1)).setB F.SMUW_JUMP_REQ_PENDING u false).setB H.SW_JUMP u true
  else if again then s.put H.SW_DECIDED u (n + 1)
  else if sgEnd e then s.put H.SW_DECIDED u 0x1FFFF
  else s.put H.SW_DECIDED u (sgNext e + 1)

/-- A pass of a context ends (R213, R218): the chain ends, a bad entry stops the site, or the entry
chosen begins. -/
def State.wavePassEnd (s : State) (u : Nat) : State :=
  let dec := s.get H.SW_DECIDED u
  let n := dec - 1
  let reason := s.entryBad n true 0
  if dec = 0x1FFFF then (s.smuHold u).setB F.SMUW_CUR_CHAIN_DONE u true
  else if reason ≠ 0 then ((s.noteBad (s.waveSite u) n reason).smuHold u).seqStop (s.waveSite u) 0
  else
    let same := n == s.get F.SMUW_CUR_ENTRY u && !s.on H.SW_JUMP u
    let s1 := ((s.put H.SW_PASS u (if same then s.get H.SW_PASS u + 1 else 0)).put F.SMUW_CUR_ENTRY u n).put H.SW_POS u 0
    (s1.put H.SW_DECIDED u 0).setB H.SW_JUMP u false

/-- What every underrun episode counts (R235). -/
def State.underrunCount (s : State) (i : Nat) : State :=
  ((s.incSat F.SEQ_SSTAT_UNDERRUNS i).incSat F.PAN_UNDERRUN_COUNT 0).irq 185

/-- A context finds its next sample missing (R219, R235-R239). -/
def State.waveMissing (s : State) (u interval : Nat) : State :=
  let i := s.waveSite u
  let t := s.get H.SW_NEXT_T u
  let limit := s.get F.SEQ_UNDERRUN_STALL_LIMIT_US i
  let fresh := s.get H.SW_STALL_N u == 0
  let s1 := if fresh then
      (((s.underrunCount i).put H.SW_STALL_VEC u (s.get H.SW_SAMPLES u)).put H.SW_STALL_TS u (stampOf (s.commonAt t))).put
        H.SW_STALL_T0 u t
    else s
  if fresh && s.on F.SEQ_UNDERRUN_POLICY i then (s1.smuHold u).seqStop i 0
  else if limit ≠ 0 ∧ s1.get H.SW_STALL_T0 u + limit * us < t then ((s1.waveStallEnd u 5).smuHold u).seqStop i 0
  else
    ((s1.setB F.SEQ_SSTAT_TIMING_BROKEN i true).put H.SW_STALL_N u (s1.get H.SW_STALL_N u + 1)).put H.SW_NEXT_T u
      (t + interval * modCycle)

/-- A sample written to the DAC (R218, R345). -/
def State.wavePut (s : State) (u v : Nat) : State :=
  let x := sext 32 v
  let s1 := s.putI H.SMU_DAC u (smuClamp x)
  if smuClamp x = x then s1 else s1.setB F.SMU_STAT_CLAMP u true

/-- The next sample of a context is due (R218). -/
def State.waveSample (s : State) (u : Nat) : State :=
  if !s.wavePlays u then s
  else
    let s0 := s.upTo (s.get H.SW_NEXT_T u)
    let s1 := if sgVecs (s0.segEntry (s0.get F.SMUW_CUR_ENTRY u)) ≤ s0.get H.SW_POS u then s0.wavePassEnd u else s0
    if !s1.wavePlays u then s1
    else
      let e := s1.segEntry (s1.get F.SMUW_CUR_ENTRY u)
      let pos := s1.get H.SW_POS u
      let v := sgFirst e + pos
      match (qGet s1.waveBuf u).find? (fun b => b.pat == sgPat e && b.line == v / 1024) with
      | none => s1.waveMissing u (sgSmuSel e)
      | some b =>
        if b.bad then
          ((s1.setB F.SEQ_SSTAT_DECODE_ERR (s1.waveSite u) true).waveStop u).seqStop (s1.waveSite u) 0
        else
          let s2 := ((s1.waveStallEnd u 0).wavePut u (fieldB b.data (v % 1024 * 4) 4)).incW H.SW_SAMPLES u
          let s3 := if pos + 128 = sgVecs e then s2.waveDecide u else s2
          let s4 := (s3.put H.SW_POS u (pos + 1)).put H.SW_NEXT_T u (s1.get H.SW_NEXT_T u + sgSmuSel e * modCycle)
          { s4 with waveBuf := qSet s4.waveBuf u ((qGet s4.waveBuf u).filter (fun x => (s4.waveWants u).contains (x.pat, x.line))) }

/-! ## What a vector does on a channel -/

/-- The code drives; it compares; it turns the driver off (R139). -/
def codeDrives (c : Nat) : Bool := c ≤ 3 || c == 10 || c == 11
def codeCompares (c : Nat) : Bool := (4 ≤ c && c ≤ 7) || c == 10 || c == 11
def codeOffs (c : Nat) : Bool := 4 ≤ c && c ≤ 8

/-- An edge time of a channel in a set, in ticks (R163, R171). -/
def State.edgeAt (s : State) (ch set e : Nat) : Nat := s.get F.TS_EDGE_TIME (ch * 96 + set * 6 + e) * ps

/-- The edges that have an action for a code (R141). -/
def codeEdges (c : Nat) (window : Bool) : List Nat :=
  (if codeDrives c then [0, 1] else []) ++ (if c = 2 ∨ c = 3 then [2] else []) ++ (if codeOffs c then [3] else [])
    ++ (if codeCompares c then (if window then [4, 5] else [4]) else [])

/-- Placed edges in order of time, edges of one time in the order E0 to E5 (R172). -/
def sortEdges : List (Nat × Nat) → List (Nat × Nat)
  | [] => []
  | x :: xs => insFirst x (sortEdges xs)
where
  /-- An edge put before those of its own time. -/
  insFirst (x : Nat × Nat) : List (Nat × Nat) → List (Nat × Nat)
  | [] => [x]
  | y :: ys => if y.1 < x.1 then y :: insFirst x ys else x :: y :: ys

/-- One edge acts on the ball of a channel (R131, R132, R141, R145, R156). -/
def State.edgeAct (s : State) (ball c e : Nat) : State :=
  let free := s.on F.CH_CTRL_DRV_EN ball && !s.pmuForcing ball
  match e with
  | 0 =>
    if free && !s.on H.CH_DRV_ON ball then (s.setB H.CH_TERM_ON ball false).setB H.CH_DRV_ON ball true
    else s.setB H.CH_TERM_ON ball false
  | 1 => if s.on F.CH_CTRL_DRV_EN ball then s.setB H.CH_DRV_LVL ball (c == 1 || c == 2 || c == 11) else s
  | 2 => if s.on F.CH_CTRL_DRV_EN ball then s.setB H.CH_DRV_LVL ball (c == 3) else s
  | 3 =>
    (s.setB H.CH_DRV_ON ball false).setB H.CH_TERM_ON ball
      (free && s.get F.CH_CTRL_TERM_MODE ball == 2 && c != 8)
  | _ => s

/-- A code played on a ball with the edges of a channel: flags of R171 and R172, and the driver. -/
def State.playDrive (s : State) (i ball ch set lim c : Nat) : State :=
  let window := s.on F.CH_CTRL_CMP_MODE ch
  let all := codeEdges c window
  let at_ (e : Nat) : Nat := s.edgeAt ch set e
  let placed (e : Nat) : Bool := all.contains e && decide (at_ e < lim)
  let cut := placed 1 && placed 2 && decide (at_ 2 ≤ at_ 1)
  let shut := placed 4 && placed 5 && decide (at_ 5 ≤ at_ 4)
  let s1 := if all.all placed then s else s.setB F.SITE_TSTAT_EDGE_RANGE i true
  let s2 := if cut || shut then s1.setB F.SITE_TSTAT_EDGE_ORDER i true else s1
  let s3 := if 12 ≤ c then s2.setB F.CH_STAT_CODE_ERR ch true else s2
  let s4 := if codeDrives c || codeCompares c then s3 else s3.setB H.CH_TERM_ON ball false
  let es := (all.filter (fun e => placed e && decide (e ≤ 3) && !(cut && e == 1))).map (fun e => (at_ e, e))
  s4.each (sortEdges es) (fun t x => t.edgeAct ball c x.2)

/-- The condition of a compare code on the comparator outputs (R139). -/
def codeHolds (c : Nat) (x : CmpSeen) : Bool :=
  match c with
  | 4 => x.lo
  | 5 => x.hi
  | 6 => !x.hi && !x.lo
  | 7 => x.hi || x.lo
  | 10 => x.lo
  | _ => x.hi

/-- The compare of a channel fails (R142-R144, R172). -/
def State.cmpFails (s : State) (ch set lim c : Nat) (x : CmpSeen) : Bool :=
  let e4 := s.edgeAt ch set 4
  let e5 := s.edgeAt ch set 5
  let window := s.on F.CH_CTRL_CMP_MODE ch && decide (e5 < lim) && decide (e4 < e5)
  codeCompares c && decide (e4 < lim) && !s.cmpMasked ch && !(codeHolds c x && !(window && x.broke))

/-- The ball that a channel's vectors act on: its own, or the even one of its pair (R153). -/
def State.ballOf (s : State) (ch : Nat) : Nat := if s.pairedOdd ch then ch - 1 else ch

/-- The codes of a vector played on the channels of a site, in order, the even half of a pair before
the odd one. -/
def State.playPins (s : State) (i set p : Nat) (codes : List (Nat × Nat)) : State :=
  s.each codes (fun t x => t.playDrive i (t.ballOf x.1) x.1 set (if t.paired x.1 then p / 2 else p) x.2)

/-! ## Fail capture -/

/-- FAIL_COMPRESS tasks pushed (R315): one for 512 entries, or for what remains; a push that finds the
deque full waits. -/
def State.failPush (s : State) (i : Nat) (rest : Bool) : State :=
  let done := s.get H.ST_PUSHED i
  let n := s.get F.SITE_FAILSTORED_COUNT i - done
  let m := if 512 ≤ n then 512 else if rest then n else 0
  if m = 0 then s.put H.ST_PUSH_WAIT i 0
  else
    let r := s.dqPush (s.siteEngine i) (mkTask 1 i (s.get F.SITE_RUN_RUN i) done m 0)
    if r.2 then (r.1.put H.ST_PUSHED i (done + m)).put H.ST_PUSH_WAIT i (b2n (512 ≤ n - m || (rest && n != m)))
    else r.1.put H.ST_PUSH_WAIT i 1

/-- Raw entries of a site's queue written to its buffer as far as the Cellar takes them (R314). -/
def State.failDrain (s : State) (i : Nat) (e : SiteEntry) : List (Nat × Nat) → State
  | [] => { s with failq := qSet s.failq i [] }
  | x :: xs =>
    let n := s.get F.SITE_FAILSTORED_COUNT i
    if e.failLimit ≤ n then (s.setB H.ST_FAIL_LIMIT i true).failDrain i e xs
    else
      let r := s.celStore clsHearth (celOff e.failBase + n * 16) (leBytes 8 x.1 ++ leBytes 8 x.2)
      if r.2 then ((r.1.put F.SITE_FAILSTORED_COUNT i (n + 1)).failPush i false).failDrain i e xs
      else { r.1 with failq := qSet r.1.failq i (x :: xs) }

/-- A raw fail entry captured (R313, R314). -/
def State.failCapture (s : State) (i vec mask : Nat) : State :=
  match s.entryOf i with
  | none => s
  | some e =>
    let q := qGet s.failq i
    let s1 := s.put F.SITE_FSIG_FSIG i (crc32cFrom (s.get F.SITE_FSIG_FSIG i) (leBytes 8 vec ++ leBytes 8 mask))
    if e.failLimit ≤ s.get F.SITE_FAILSTORED_COUNT i + q.length then s1.setB H.ST_FAIL_LIMIT i true
    else if 256 ≤ q.length then (s1.setB H.ST_FAIL_OVF i true).failDrain i e q
    else s1.failDrain i e (q ++ [(vec, mask)])

/-- A compare of a channel fails in a vector (R144). -/
def State.chFail (s : State) (ch vec : Nat) : State :=
  let s1 := (s.setB F.CH_STAT_FAIL ch true).incSat F.CH_FAILCNT_COUNT ch
  if s.get F.CH_FAILCNT_COUNT ch = 0 then s1.put2 F.CH_FIRSTFAIL_LO_VEC_LO F.CH_FIRSTFAIL_HI_VEC_HI ch vec else s1

/-- The groups of eight site channels with a failure. -/
def failGroups (mask : Nat) : Nat := maskOf ((List.range 8).filter (fun g => bits mask (8 * g) 8 != 0))

/-- A failing vector of a site (R144, R250, R269, R313, R314). -/
def State.failVector (s : State) (i vec mask : Nat) : State :=
  let rise := !s.on H.ST_MARK_FAIL i
  let s1 := (s.incSat F.SITE_FAILVEC_COUNT i).put H.ST_GFAIL i (s.get H.ST_GFAIL i ||| failGroups mask)
  let s2 := if s.on H.ST_SITE_FAIL i then s1 else s1.put H.ST_FIRST_FAIL i vec
  let s3 := ((s2.setB H.ST_SITE_FAIL i true).setB H.ST_MARK_FAIL i true).failCapture i vec mask
  if rise then s3.pendTrap (s3.siteEngine i) 6 else s3

/-- The compares of a vector (R142-R144, R153). -/
def State.playCompares (s : State) (i set p vec : Nat) (codes : List (Nat × Nat)) (seen : List CmpSeen) : State :=
  let fails := (codes.zip seen).zipIdx.filter (fun x =>
    s.cmpFails x.1.1.1 set (if s.paired x.1.1.1 then p / 2 else p) x.1.1.2 x.1.2)
  let s1 := s.each fails (fun t x => t.chFail x.1.1.1 vec)
  if fails.isEmpty then s1 else s1.failVector i vec (maskOf (fails.map (fun x => x.2)))

/-! ## Decisions -/

/-- Lines that the port of a site still wants to hold (R21, R222). -/
def State.portKeeps (s : State) (i : Nat) : List (Nat × Nat) :=
  s.passLines (s.curEntry i) (s.curPos i)
    ++ (s.candidates i).flatMap (fun n =>
      if s.get F.SEQ_CUR_DECIDED i = 0xFFFF then (s.passLines n 0).take 4 else s.passLines n 0)

/-- Played lines, and at the decision the head that lost, leave the buffer. -/
def State.portTrim (s : State) (i : Nat) : State :=
  let keep := s.portKeeps i
  { s with ports := qSet s.ports i ((qGet s.ports i).filter (fun b => keep.contains (b.pat, b.line))) }

/-- The period at which a site would play an entry (R229). -/
def State.entryPeriod (s : State) (i n : Nat) : Nat :=
  let e := s.segEntry n
  s.tsetTicks i (if sgTsetEn e then sgTset e else s.get F.SITE_TCTRL_ACTIVE i)

/-- An entry is chosen for the next pass: a bad one is noted (R212), the budget is checked (R230). -/
def State.chooseNext (s : State) (i n : Nat) : State :=
  let reason := s.pinBad i n
  let s1 := (s.put F.SEQ_CUR_DECIDED i n).put H.SQ_ENTRY_BAD i reason
  if reason ≠ 0 then s1.noteBad i n reason
  else if s.budgetAllows n (s.entryPeriod i n) then s1
  else (s1.incSat F.PAN_OVERBUDGET_COUNT 0).irq 186

/-- The decision point of a pass (R213, R222, R232). -/
def State.passDecide (s : State) (i : Nat) : State :=
  let n := s.curEntry i
  let e := s.segEntry n
  let again := sgRepeat e = 0xFFFFFFFF ∨ s.get F.SEQ_PASS_PASS i + 1 < sgRepeat e + 1
  if s.on F.SEQ_JUMP_REQ_PENDING i then
    ((s.setB F.SEQ_JUMP_REQ_PENDING i false).setB H.SQ_DECIDED_JUMP i true).chooseNext i (sgJump e)
  else if again then s.chooseNext i n
  else if sgEnd e then s.setB H.SQ_DECIDED_END i true
  else s.chooseNext i (sgNext e)

/-! ## Boundaries -/

/-- The site becomes PAUSED (R226, R296): its engine sees trap 10. -/
def State.sitePaused (s : State) (i : Nat) : State :=
  ((s.setB H.SQ_PAUSE_REQ i false).toSiteState i sPAUSED).pendTrap (s.siteEngine i) 10

/-- The chain ends (R214, R233, R300). -/
def State.chainEnd (s : State) (i : Nat) : State :=
  let pause := s.on H.SQ_PAUSE_REQ i
  let s1 := (((s.chainOff i).setB F.SEQ_SSTAT_CHAIN_DONE i true).setB F.SEQ_JUMP_REQ_PENDING i false).setB H.SQ_DECIDED_END i false
  let s2 := s1.unpinIdle
  if pause then s2.sitePaused i else s2

/-- The pass that was decided becomes the present one (R213, R223, R225). -/
def State.nextPass (s : State) (i : Nat) : State :=
  let n := s.curEntry i
  let d := s.get F.SEQ_CUR_DECIDED i
  let again := d == n && !s.on H.SQ_DECIDED_JUMP i
  let s1 := if s.get F.SEQ_PASS_PASS i = 0 then s.pinEntry i n else s
  let s2 := if again then s1.incSat F.SEQ_PASS_PASS i else s1.put F.SEQ_PASS_PASS i 0
  let s3 := ((s2.put F.SEQ_CUR_ENTRY i d).put F.SEQ_CUR_DECIDED i 0xFFFF).put H.SQ_VPOS i 0
  (s3.setB H.SQ_DECIDED_JUMP i false).unpinIdle

/-- The pause takes effect at the end of a pass (R226): the decided pass waits. -/
def State.chainPause (s : State) (i : Nat) : State :=
  let s1 := ((s.setB H.SQ_PLAYING i false).setB H.SQ_CHAIN_PAUSED i true).put H.SQ_T_END i s.ts
  (((s1.setB H.SQ_MK0 i false).setB H.SQ_MK1 i false).pendApply i).sitePaused i

/-- A pass of a site ends at this boundary (R212, R213, R226, R435). -/
def State.passEnd (s : State) (i : Nat) : State :=
  let safe := sgCalSafe (s.segEntry (s.curEntry i))
  let s0 := if safe then s.calBoundary i else s
  if s.get H.SQ_ENTRY_BAD i ≠ 0 then s0.seqStop i 0
  else if s.on H.SQ_DECIDED_END i then s0.chainEnd i
  else
    let s1 := s0.nextPass i
    if s.on H.SQ_PAUSE_REQ i then s1.chainPause i else s1

/-- The timing set for this boundary (R166-R168, R215): a PINOP's set prevails over an entry's; a change
of period restarts the edge phase. -/
def State.boundarySet (s : State) (i : Nat) (entrySet : Option Nat) : State :=
  let pin := s.get H.SQ_TSET_PIN i
  let s1 := match pin, entrySet with
    | 0, none => s
    | 0, some x => s.tsetUse i x
    | p + 1, none => s.tsetUse i p
    | p + 1, some _ => (s.tsetUse i p).setB F.SITE_TSTAT_TSET_COLL i true
  let s2 := s1.put H.SQ_TSET_PIN i 0
  let p := s2.tsetTicks i (s2.get F.SITE_TCTRL_ACTIVE i)
  if p = s.get H.SQ_PERIOD i then s2
  else
    let s3 := s2.put H.SQ_PERIOD i p
    if s.on H.SQ_NEWCHAIN i then s3 else s3.incSat F.SITE_TSTAT_RESTARTS i

/-- A pulse on the trigger line of a site (R185). -/
def State.sitePulse (s : State) (i t : Nat) : State := s.trigPulse (s.get F.SITE_TCTRL_TRIG_LINE i) t

/-- A waiting TRIG PINOP emits at this boundary. -/
def State.pinPulse (s : State) (i t : Nat) : State :=
  if s.on H.SQ_TRIG_PIN i then (s.setB H.SQ_TRIG_PIN i false).sitePulse i t else s

/-- One marker signal takes a value at a boundary (R216): a rising edge is counted and reaches the
units. -/
def State.marker (s : State) (i mk t : Nat) (v : Bool) : State :=
  let f := if mk = 0 then H.SQ_MK0 else H.SQ_MK1
  let c := if mk = 0 then F.SEQ_MARK_MK0 else F.SEQ_MARK_MK1
  let s1 := s.setB f i v
  if v && !s.on f i then (s1.incW c i).markerRise i mk t else s1

/-- A stall vector (R236-R238): X on every channel. -/
def State.stallVector (s : State) (i t : Nat) : State :=
  let fresh := !s.on F.SEQ_SSTAT_STALLING i
  let s1 := if fresh then
      ((((s.setB F.SEQ_SSTAT_STALLING i true).put H.SQ_STALL_N i 0).put H.SQ_STALL_VEC i (s.seqVec i)).put
        H.SQ_STALL_TS i (stampOf (s.commonAt t))).put H.SQ_STALL_T0 i t
    else s
  let s2 := ((s1.setB F.SEQ_SSTAT_TIMING_BROKEN i true).incW H.SQ_STALL_N i).put2 F.SEQ_STALL_LO_ST_LO F.SEQ_STALL_HI_ST_HI i
    (s1.get2 F.SEQ_STALL_LO_ST_LO F.SEQ_STALL_HI_ST_HI i + 1)
  let s3 := ((s2.boundarySet i none).pinPulse i t).pendApply i
  let s4 := ((s3.setB H.SQ_MK0 i false).setB H.SQ_MK1 i false).each (s3.siteChans i) (fun u ch => u.setB H.CH_TERM_ON ch false)
  (s4.setB H.SQ_NEWCHAIN i false).put H.SQ_NEXT_T i (t + s4.get H.SQ_PERIOD i)

/-- The line that a boundary needs is missing (R235, R239). -/
def State.underrun (s : State) (i t : Nat) : State :=
  let fresh := !s.on F.SEQ_SSTAT_STALLING i
  let s1 := if fresh then s.underrunCount i else s
  if fresh && s.on F.SEQ_UNDERRUN_POLICY i then s1.seqStop i 0 else s1.stallVector i t

/-- The first vector of a pass starts the waveform contexts that its entry names (R217). -/
def State.startWaves (s : State) (i t : Nat) (e : List Byte) : State :=
  match s.entryOf i with
  | none => s
  | some se =>
    let us' := (se.smuList.zipIdx.filter (fun x => bit (sgSmuSel e) x.2)).map (fun x => x.1)
    if us'.isEmpty then s
    else
      let reason := s.entryBad (sgSmuEntry e) true 0
      if reason ≠ 0 then s.noteBad i (sgSmuEntry e) reason
      else s.each us' (fun u x => u.waveStart x (sgSmuEntry e) t)

/-- A pattern vector plays (R139-R144, R165, R213-R216). -/
def State.playVector (s : State) (i t : Nat) (line : List Byte) (seen : List CmpSeen) : State :=
  let e := s.segEntry (s.curEntry i)
  let d := s.patDesc (sgPat e)
  let pos := s.curPos i
  let v := sgFirst e + pos
  let vec := sliceB line (v % pdVpl d * pdBytes d) (pdBytes d)
  let s1 := (s.stallEnd i 0).boundarySet i (if pos = 0 ∧ sgTsetEn e = true then some (sgTset e) else none)
  let s2 := if pos = 0 ∧ sgOutSel e = true then s1.sitePulse i t else s1
  let s3 := (if pos = 0 then s2.startWaves i t e else s2).pinPulse i t
  let s4 := (s3.pendApply i).setB H.SQ_NEWCHAIN i false
  let mk := if pdMarker d && !sgOutSel e then nibble vec (pdSlots d - 1) else 0
  let s5 := (s4.marker i 0 t (bit mk 0)).marker i 1 t (bit mk 1)
  let s6 := if s5.get H.SQ_T_FIRST i = 2 ^ 64 - 1 then s5.put H.SQ_T_FIRST i (stampOf (s5.commonAt t)) else s5
  let codes := (s6.siteChans i).zipIdx.map (fun x => (x.1, if x.2 < pdWidth d then nibble vec x.2 else 9))
  let set := s6.get F.SITE_TCTRL_ACTIVE i
  let p := s6.get H.SQ_PERIOD i
  let n := s6.seqVec i
  let s7 := (s6.playPins i set p codes).playCompares i set p n codes seen
  let s8 := if pos + 512 = sgVecs e then s7.passDecide i else s7
  let s9 := (s8.put2 F.SEQ_VEC_LO_VEC_LO F.SEQ_VEC_HI_VEC_HI i (n + 1)).put H.SQ_VPOS i (pos + 1)
  (s9.put H.SQ_NEXT_T i (t + p)).portTrim i

/-- The vector of a boundary: a pattern vector, a stall vector, or the stop at a bad line (R203,
R235). -/
def State.boundaryPlay (s : State) (i t : Nat) (seen : List CmpSeen) : State :=
  let e := s.segEntry (s.curEntry i)
  let d := s.patDesc (sgPat e)
  let v := sgFirst e + s.curPos i
  match (qGet s.ports i).find? (fun b => b.pat == sgPat e && b.line == v / pdVpl d) with
  | none => s.underrun i t
  | some b =>
    if b.bad then (s.setB F.SEQ_SSTAT_DECODE_ERR i true).seqStop i 0 else s.playVector i t b.data seen

/-- The first line of the pass that waits is in the buffer of the site (R189). -/
def State.firstLineIn (s : State) (i : Nat) : Bool :=
  match (s.passLines (s.curEntry i) (s.curPos i)).head? with
  | none => false
  | some x => inBuf (qGet s.ports i) x.1 x.2

/-- The vector clock of a site begins with a boundary at a moment (R165, R190, R226). -/
def State.clockStart (s : State) (i t : Nat) : State :=
  let s1 := ((s.waitDrop i).setB H.SQ_PLAYING i true).setB H.SQ_NEWCHAIN i true
  let s2 := ((s1.setB H.SQ_CHAINED i true).setB H.SQ_CHAIN_PAUSED i false).put H.SQ_NEXT_T i t
  s2.put H.SQ_PERIOD i (s2.tsetTicks i (s2.get F.SITE_TCTRL_ACTIVE i))

/-- A stall has lasted longer than its limit (R239). -/
def State.stallOver (s : State) (i t : Nat) : Bool :=
  let limit := s.get F.SEQ_UNDERRUN_STALL_LIMIT_US i
  s.on F.SEQ_SSTAT_STALLING i && limit != 0 && decide (s.get H.SQ_STALL_T0 i + limit * us < t)

/-- A boundary of a site that plays. -/
def State.boundaryAt (s : State) (i t : Nat) (seen : List CmpSeen) : State :=
  if s.get H.SQ_STOP_REQ i = 1 then s.chainStopNow i 0
  else if s.get H.SQ_STOP_REQ i = 2 ∨ s.stallOver i t = true then s.seqStop i 1
  else if sgVecs (s.segEntry (s.curEntry i)) ≤ s.curPos i then
    let s1 := s.passEnd i
    if s1.on H.SQ_PLAYING i then s1.boundaryPlay i t seen else s1
  else s.boundaryPlay i t seen

/-- VECTOR_BOUNDARY (R165): the next boundary of a site that plays, or the first one of a site that
waits for its first line. -/
def State.vectorBoundary (s : State) (i : Nat) (seen : List CmpSeen) : State :=
  if s.on H.SQ_PLAYING i then
    let t := s.get H.SQ_NEXT_T i
    (s.upTo t).boundaryAt i t seen
  else if s.get H.SQ_WAIT i = 1 ∧ s.active i = true ∧ s.firstLineIn i = true then (s.clockStart i s.now).boundaryAt i s.now seen
  else s

/-! ## Starts -/

/-- The chain of a site is put at the first vector of an entry. -/
def State.chainAt (s : State) (i entry : Nat) : State :=
  let s1 := ((s.put F.SEQ_CUR_ENTRY i entry).put F.SEQ_CUR_DECIDED i 0xFFFF).put F.SEQ_PASS_PASS i 0
  let s2 := ((s1.put H.SQ_VPOS i 0).setB H.SQ_DECIDED_END i false).setB H.SQ_DECIDED_JUMP i false
  let s3 := ((s2.put H.SQ_ENTRY_BAD i 0).setB F.SEQ_SSTAT_CHAIN_DONE i false).put H.SQ_STOP_REQ i 0
  { s3 with ports := qSet s3.ports i [] }

/-- A start that is not held waits for its first line, its time or its trigger (R189, R190). -/
def State.startGo (s : State) (i : Nat) : State :=
  let src := if s.get H.SQ_START_BY i = 0 || s.on H.SQ_SRC_NEXT i then s.get F.SITE_TCTRL_START_SRC i else 0
  let s1 := ((s.waitDrop i).setB H.SQ_SRC_NEXT i false).chainAt i (s.get H.SQ_START_ENTRY i)
  let first := s.get H.ST_ACCEPT_T i + 2 * us
  match src with
  | 1 =>
    let t := s1.whenCommon (s1.get H.ST_TSTART i)
    let s2 := ((s1.put H.SQ_WAIT i 2).setB F.SITE_TSTAT_WAIT_START i true).put H.SQ_START_AT i (max t first)
    if t < first then s2.setB F.SITE_TSTAT_TIMED_LATE i true else s2
  | 2 => (s1.put H.SQ_WAIT i 3).setB F.SITE_TSTAT_WAIT_START i true
  | _ => s1.put H.SQ_WAIT i 1

/-- The budget check of R25 allows the start that a site holds. -/
def State.startFits (s : State) (i : Nat) : Bool :=
  s.budgetAllows (s.get H.SQ_START_ENTRY i) (s.entryPeriod i (s.get H.SQ_START_ENTRY i))

/-- Throttle holds the start of a site (R116, R117): that of a START or RETEST, and a START_CHAIN of a
test that did not run when throttle began. -/
def State.throttleHolds (s : State) (i : Nat) : Bool :=
  s.on F.MODE_STAT_THROTTLE 0 && (s.get H.SQ_START_BY i == 0 || s.on H.ST_THR i)

/-- A chain start asked for by a START or RETEST (by 0) or by a START_CHAIN (by 1): held while the chip
throttles or the budget does not allow it (R25, R117). -/
def State.requestStart (s : State) (i entry by_ word : Nat) : State :=
  let s1 := (((s.put H.SQ_START_ENTRY i entry).put H.SQ_START_BY i by_).put H.SQ_START_WORD i word).put H.ST_ACCEPT_T i s.now
  if s1.throttleHolds i || !s1.startFits i then
    ((s1.put H.SQ_WAIT i 4).setB F.SEQ_SSTAT_START_DEFERRED i true).setDue H.SQ_HOLD_END i
      (s1.now + s1.get F.SEQ_START_TMO_TMO_MS i * ms)
  else s1.startGo i

/-- DEFERRED_START_RELEASE (R25, R117): a start held goes ahead once nothing holds it. -/
def State.deferredRelease (s : State) (i : Nat) : State :=
  if s.get H.SQ_WAIT i = 4 ∧ s.siteState i = sRUNNING ∧ s.throttleHolds i = false ∧ s.startFits i = true then
    s.startGo i
  else s

/-- START_TIMEOUT (R25): the held start ends. -/
def State.startTimeout (s : State) (i : Nat) : State :=
  if s.get H.SQ_WAIT i = 4 then
    let s1 := (match s.due H.SQ_HOLD_END i with | none => s | some t => s.upTo t).waitDrop i
    if s.get H.SQ_START_BY i = 1 then s1.refuse (s.siteEngine i) (s.get H.SQ_START_WORD i) 5 false
    else s1.seqStop i 0
  else s

/-- TIMED_START (R190): the time of a start comes, and the vector clock begins. -/
def State.timedStart (s : State) (i : Nat) : State :=
  if s.get H.SQ_WAIT i = 2 ∧ s.active i = true then
    let t := s.get H.SQ_START_AT i
    (s.upTo t).clockStart i t
  else s

/-- The action of a trigger line starts the sites that wait for it (R186, R190). -/
def State.trigStarts (s : State) (line a : Nat) : State :=
  s.each allSites (fun u i =>
    if u.get H.SQ_WAIT i = 3 ∧ u.get F.SITE_TCTRL_TRIG_LINE i = line then
      let first := u.get H.ST_ACCEPT_T i + 2 * us
      let u1 := (u.put H.SQ_WAIT i 2).put H.SQ_START_AT i (max a first)
      if a < first then u1.setB F.SITE_TSTAT_TIMED_LATE i true else u1
    else u)

/-- TRIG_ACTION (R186): the earliest pending action of a line is taken. -/
def State.trigAction (s : State) (line : Nat) : State :=
  match qGet s.trigActs line with
  | [] => s
  | x :: xs =>
    let t := xs.foldl min x
    let s1 := { s with trigActs := qSet s.trigActs line ((x :: xs).erase t) }
    ((s1.upTo t).trigStarts line t).trigReaches line t

/-- STALL_LIMIT_EXPIRY (R239): the stall becomes an ABORT at the next boundary. -/
def State.stallExpiry (s : State) (i : Nat) : State :=
  let limit := s.get F.SEQ_UNDERRUN_STALL_LIMIT_US i
  if s.on F.SEQ_SSTAT_STALLING i && limit != 0 && s.get H.SQ_STOP_REQ i == 0 then
    (s.upTo (s.get H.SQ_STALL_T0 i + limit * us)).put H.SQ_STOP_REQ i 2
  else s

end Sys2Proof.Machine
end

