-- ==== Sys2Proof/Machine/Sites.lean ====
section
/-!
DEFINITION. Replies (R492-R498), the legality of commands (R119-R122) and sites: binding (R288-R293),
tests and their ends (R294-R303).
-/

namespace Sys2Proof.Machine

/-! ## Replies -/

/-- Status codes (R497). -/
def stOK : Nat := 0x00
def stARG : Nat := 0x01
def stOPCODE : Nat := 0x02
def stACCESS : Nat := 0x03
def stPROTECTED : Nat := 0x04
def stLIMIT : Nat := 0x05
def stBUSY : Nat := 0x06
def stLENGTH : Nat := 0x07
def stTHERMAL : Nat := 0x08
def stFLASH : Nat := 0x09
def stABANDONED : Nat := 0x0A
def stWRONG : Nat := 0x0B
def stINRESET : Nat := 0x0C

/-- The reply to a command (R492, R496): the command is answered, and its reply leaves. -/
def State.answer (s : State) (h : Hdr) (op status site detail : Nat) (data : List Byte) : State :=
  let word := leBytes 1 status ++ leBytes 1 (s.mode + 8 * s.get F.MODE_STAT_THROTTLE 0) ++ leBytes 1 site ++ leBytes 1 detail
  let s1 := s.reply ⟨h.src, h.tag, op + 0x30, word ++ data⟩
  { s1 with accepted := s1.accepted.eraseP (fun c => c.src == h.src && c.tag == h.tag) }

/-- The OK reply with result data. -/
def State.answerOk (s : State) (h : Hdr) (op : Nat) (data : List Byte) : State := s.answer h op stOK 0xF 0 data

/-- A reply with a status, a detail and no data. -/
def State.answerErr (s : State) (h : Hdr) (op status detail : Nat) : State := s.answer h op status 0xF detail []

/-- The WRONG_STATE reply of a command that no named site refuses (R122). -/
def State.answerWrong (s : State) (h : Hdr) (op : Nat) : State := s.answerErr h op stWRONG 0xFF

/-- The WRONG_STATE reply that names the lowest of the sites that refuse (R122). -/
def State.answerSites (s : State) (h : Hdr) (op : Nat) (bad : List Nat) : State :=
  match bad with
  | [] => s.answerWrong h op
  | i :: _ => s.answer h op stWRONG (s.siteState i) i []

/-- What a command finds at the local port: 0 it is served, 1 it is answered IN_RESET (R505), 2 it
reaches nobody: the chip is in HOLD (R123), in SLEEP (R124), or in the early part of a cold bring-up. -/
def State.portPhase (s : State) : Nat :=
  if s.mode = mHOLD ∨ s.mode = mSLEEP then 2
  else if s.mode = mBRINGUP ∧ s.get H.BOOT_PHASE 0 ≤ 2 then (if s.on H.WAS_WARM 0 then 1 else 2)
  else 0

/-- A host command is served (R122, R128, R505): its arguments are looked at only in a mode that makes
its group legal. -/
def State.serve (s : State) (h : Hdr) (op : Nat) (legal : State → Bool) (named : List Nat) (eff : State → State) : State :=
  match s.portPhase with
  | 1 => s.answerErr h op stINRESET 0
  | 2 => s
  | _ => if s.on H.UNAVAIL 0 || !legal s then s.answerSites h op named else eff s

/-- Legality of the groups of R120 by mode. -/
def State.modeIn (s : State) (l : List Nat) : Bool := l.contains s.mode
def legalAny (_ : State) : Bool := true
def legalWrite (s : State) : Bool := s.modeIn [mMINIMAL, mSTANDBY, mRUN, mCALIBRATE, mFACTORY]
def legalFlash (s : State) : Bool := s.modeIn [mMINIMAL, mSTANDBY, mFACTORY]
def legalLoad (s : State) : Bool := s.modeIn [mSTANDBY, mRUN, mCALIBRATE, mFACTORY]
def legalSite (s : State) : Bool := s.modeIn [mRUN, mCALIBRATE, mFACTORY]
def legalRemove (s : State) : Bool := s.modeIn [mMINIMAL, mSTANDBY]
def legalMinimal (s : State) : Bool := s.modeIn [mMINIMAL]
def legalFactory (s : State) : Bool := s.modeIn [mFACTORY]

/-! ## Site entries -/

/-- A site entry read from its 64 bytes (R290); ENGINE 0xFF means engine SITE. -/
def parseEntry (l : List Byte) : SiteEntry :=
  { site := fieldB l 0 1, engine := if fieldB l 1 1 = 0xFF then fieldB l 0 1 else fieldB l 1 1, tile := fieldB l 2 1,
    flags := fieldB l 3 1, pair := fieldB l 4 4, chMask := fieldB l 8 8, dps := fieldB l 0x10 1, gang := fieldB l 0x11 1,
    smu := fieldB l 0x12 1, tdc := fieldB l 0x14 2, stallLimit := fieldB l 0x16 2, startTmo := fieldB l 0x18 2,
    startEntry := fieldB l 0x1A 2, recBase := fieldB l 0x20 8, recSize := fieldB l 0x28 4, failLimit := fieldB l 0x2C 4,
    failBase := fieldB l 0x30 8, failSize := fieldB l 0x38 4 }

/-- A power of two between two limits. -/
def pow2In (v lo hi : Nat) : Bool := (List.range 40).any (fun n => v == 2 ^ n) && decide (lo ≤ v) && decide (v ≤ hi)

/-- Two address ranges overlap. -/
def overlap (a n b m : Nat) : Bool := decide (a < b + m) && decide (b < a + n)

/-- The record and fail areas of an entry. -/
def SiteEntry.areas (e : SiteEntry) : List (Nat × Nat) := [(e.recBase, 0x1000 + e.recSize), (e.failBase, 16 * e.failSize)]

/-- The fields of an entry stand by themselves (R290, R291). -/
def State.entrySound (s : State) (l : List Byte) (e : SiteEntry) : Bool :=
  e.site < 64 && e.engine < 64 && e.tile < 8 && e.flags < 8 && e.smu < 16 && fieldB l 0x13 1 == 0 && fieldB l 0x1C 4 == 0
    && fieldB l 0x3C 4 == 0 && !bit e.gang 0
    && (bitsOf 8 e.gang).all (fun k => bit e.dps k && bit e.dps (k - 1))
    && (bitsOf 32 e.pair).all (fun m => bit e.chMask (2 * m) && bit e.chMask (2 * m + 1))
    && e.recBase % 4096 == 0 && e.failBase % 4096 == 0 && pow2In e.recSize 0x10000 0x40000000
    && pow2In e.failSize 1024 16777216 && decide (e.failLimit ≤ e.failSize)
    && e.areas.all (fun a => s.inWindow a.1 a.2 && !meetsSeq a.1)
    && !overlap e.recBase (0x1000 + e.recSize) e.failBase (16 * e.failSize)

/-- Two entries of different sites share nothing (R291). -/
def entriesApart (a b : SiteEntry) : Bool :=
  a.engine != b.engine
    && (a.tile != b.tile || ((a.chMask &&& b.chMask) == 0 && (a.dps &&& b.dps) == 0 && (a.smu &&& b.smu) == 0 && (a.tdc &&& b.tdc) == 0))
    && a.areas.all (fun x => b.areas.all (fun y => !overlap x.1 x.2 y.1 y.2))

/-- The entry breaks no rule of R291 beside the other bound entries. -/
def State.entryOk (s : State) (l : List Byte) (e : SiteEntry) : Bool :=
  s.entrySound l e && !bit (s.get H.SITE_FREE 0) e.engine
    && s.entries.all (fun p => p.1 == e.site || entriesApart e p.2)

/-- The site map has steal work to do (R292): a bound site with STEAL_EN, or a STEAL_FREE bit. -/
def State.stealWanted (s : State) : Bool := s.entries.any (fun p => bit p.2.flags 0) || s.get H.SITE_FREE 0 != 0

/-- STL_CTRL.EN follows the site map (R292): it is cleared only once no task is left. -/
def State.stealUpdate (s : State) : State :=
  if s.stealWanted then (s.setB F.STL_CTRL_EN 0 true).setB H.STL_OFF_PEND 0 false
  else if s.on F.STL_CTRL_EN 0 then s.setB H.STL_OFF_PEND 0 true
  else s

/-- STEAL_DISABLE (R292): no deque holds a task and no engine holds a stolen one. -/
def State.stealDisable (s : State) : State :=
  if s.on H.STL_OFF_PEND 0 && (List.range 64).all (fun k => s.dqLen k == 0 && !s.on F.ENG_STAT_TASK_HELD k) then
    (s.setB F.STL_CTRL_EN 0 false).setB H.STL_OFF_PEND 0 false
  else s

/-- Units of an entry no longer belong to it. -/
def State.freeUnits (s : State) (e : SiteEntry) : State :=
  let s1 := s.each e.channels (fun t c => ((t.clear F.CH_CTRL_SITE c).clear F.CH_CTRL_BOUND c).clear F.CH_CTRL_PAIR c)
  let s2 := s1.each e.dpsList (fun t d =>
    (((t.clear F.DPS_CTRL_SITE d).clear F.DPS_CTRL_BOUND d).clear F.DPS_CTRL_LEAD d).clear F.DPS_CTRL_MEMBERS d)
  let s3 := s2.each e.smuList (fun t u => (t.clear F.SMU_CTRL_SITE u).clear F.SMU_CTRL_BOUND u)
  let s4 := s3.each e.tdcList (fun t j => (t.clear F.TDC_CTRL_SITE j).clear F.TDC_CTRL_BOUND j)
  let s5 := s4.each e.acqList (fun t a => (t.clear F.ACQ_CTRL_SITE a).clear F.ACQ_CTRL_BOUND a)
  s5.each e.mons (fun t i => (t.clear H.MON_MEM_BOUND i).clear H.MON_MEM_SITE i)

/-- Units given to the site of an entry, gangs and pairs with them, and the membership latches
(R290, R292, R373). -/
def State.takeUnits (s : State) (e : SiteEntry) : State :=
  let i := e.site
  let s1 := s.each e.channels (fun t c =>
    ((t.put F.CH_CTRL_SITE c i).setB F.CH_CTRL_BOUND c true).setB F.CH_CTRL_PAIR c (c % 2 == 0 && bit e.pair (c % 64 / 2)))
  let s2 := s1.each e.dpsList (fun t d =>
    let k := d % 8
    let lead := !bit e.gang k
    let more := ((List.range (7 - k)).map (fun j => k + 1 + j)).takeWhile (fun j => bit e.gang j)
    ((((t.put F.DPS_CTRL_SITE d i).setB F.DPS_CTRL_BOUND d true).setB F.DPS_CTRL_LEAD d lead).put F.DPS_CTRL_MEMBERS d
      (if lead then more.length else 0)))
  let s3 := s2.each e.smuList (fun t u => (t.put F.SMU_CTRL_SITE u i).setB F.SMU_CTRL_BOUND u true)
  let s4 := s3.each e.tdcList (fun t j => (t.put F.TDC_CTRL_SITE j i).setB F.TDC_CTRL_BOUND j true)
  let s5 := s4.each e.acqList (fun t a => (t.put F.ACQ_CTRL_SITE a i).setB F.ACQ_CTRL_BOUND a true)
  s5.each e.mons (fun t m => (t.setB H.MON_MEM_BOUND m true).put H.MON_MEM_SITE m i)

/-- Registers of a site restored from its record header (R292). -/
def State.siteRestore (s : State) (e : SiteEntry) : State :=
  let i := e.site
  ((s.put F.SITE_RUN_RUN i (s.recRun e)).put2 F.SITE_REC_WR_LO_WR_LO F.SITE_REC_WR_HI_WR_HI i (s.recWr e)).put
    F.SITE_REC_LOST_LOST i (s.recLost e)

/-- The registers that an entry sets (R292). -/
def State.siteConfig (s : State) (e : SiteEntry) : State :=
  let i := e.site
  let s1 := (s.setB F.SEQ_UNDERRUN_POLICY i (bit e.flags 2)).put F.SEQ_UNDERRUN_STALL_LIMIT_US i e.stallLimit
  let s2 := (s1.put F.SEQ_START_TMO_TMO_MS i (if e.startTmo = 0 then 500 else e.startTmo)).put F.SEQ_START_ENTRY i e.startEntry
  let s3 := (s2.setB F.ENG_CTRL_STEAL_EN e.engine (bit e.flags 0)).put H.ENG_SITE e.engine i
  let s4 := ((s3.setB F.SITE_STATE_STEAL_EN i (bit e.flags 0)).setB F.SITE_STATE_END_SAFE i (bit e.flags 1)).put F.SITE_STATE_ENGINE i e.engine
  s4.put F.SITE_STATE_TILE i e.tile

/-- The engine of an entry serves no site any more; it steals only if STEAL_FREE names it. -/
def State.freeEngine (s : State) (e : SiteEntry) : State :=
  (s.clear H.ENG_SITE e.engine).setB F.ENG_CTRL_STEAL_EN e.engine (bit (s.get H.SITE_FREE 0) e.engine)

/-- An entry bound (R292, R293): it replaces the site's entry, and an UNBOUND site becomes IDLE. -/
def State.bindEntry (s : State) (e : SiteEntry) : State :=
  let s0 := match s.entryOf e.site with | none => s | some old => (s.freeUnits old).freeEngine old
  let s1 := { s0 with entries := insKey e.site e s0.entries }
  let s2 := ((s1.takeUnits e).siteConfig e).siteRestore e
  let s3 := if s2.siteState e.site = sUNBOUND then s2.toSiteState e.site sIDLE else s2
  ((s3.calBoundary e.site).stealUpdate).engIdleStart e.engine

/-- A site unbound (R293): its outputs are safe by now. -/
def State.unbindSite (s : State) (i : Nat) : State :=
  match s.entryOf i with
  | none => s
  | some e =>
    let s1 := (s.freeUnits e).freeEngine e
    let s2 := { s1 with entries := delKey i s1.entries }
    let s3 := ((s2.clear F.SITE_STATE_STEAL_EN i).clear F.SITE_STATE_END_SAFE i).clear F.SITE_STATE_ENGINE i
    ((s3.clear F.SITE_STATE_TILE i).toSiteState i sUNBOUND).stealUpdate

/-- A site holds a unit that a calibration flow owns. -/
def State.siteCalOwned (s : State) (i : Nat) : Bool :=
  match s.entryOf i with
  | none => false
  | some e => e.channels.any (fun c => s.on H.CH_CAL_OWNED c) || e.dpsList.any (fun d => s.on H.DPS_CAL_OWNED d)
      || e.smuList.any (fun u => s.on H.SMU_CAL_OWNED u) || e.tdcList.any (fun j => s.on H.TDC_CAL_OWNED j)

/-- A bind is refused for the state of its site or by R293. -/
def State.bindBarred (s : State) (e : SiteEntry) : Bool :=
  let st := s.siteState e.site
  (st != sUNBOUND && st != sIDLE && st != sENDED) || s.siteSafeBusy e.site
    || (s.mode == mRUN && (match s.entryOf e.site with
        | none => e.smu != 0 || e.tdc != 0
        | some old => decide ({ e with chMask := old.chMask, pair := old.pair, dps := old.dps, gang := old.gang } ≠ old)))

/-- SITE_BIND (R293). -/
def State.siteBind (s : State) (h : Hdr) (l : List Byte) : State :=
  let e := parseEntry l
  s.serve h 0x2B legalLoad [e.site % 64] (fun s =>
    if e.site < 64 && s.bindBarred e then s.answerSites h 0x2B [e.site]
    else if s.entryOk l e then (s.bindEntry e).answerOk h 0x2B []
    else s.answerErr h 0x2B stARG 0x19)

/-- Unbind is refused for a site (R120, R121). -/
def State.unbindBarred (s : State) (i : Nat) : Bool :=
  let st := s.siteState i
  (st != sUNBOUND && st != sIDLE && st != sENDED)
    || (s.mode == mRUN && (match s.entryOf i with | none => false | some e => e.smu != 0 || e.tdc != 0))

/-- SITE_UNBIND (R293): the outputs of each bound site go safe from the acceptance on; the reply goes
with the last. -/
def State.siteUnbind (s : State) (h : Hdr) (mask : Nat) : State :=
  let sites := bitsOf 64 mask
  s.serve h 0x2C legalLoad sites (fun s =>
    if mask = 0 then s.answerErr h 0x2C stARG 0
    else
      match sites.filter s.unbindBarred with
      | i :: is => s.answerSites h 0x2C (i :: is)
      | [] =>
        let bound := sites.filterMap s.entryOf
        match bound.getLast? with
        | none => s.answerOk h 0x2C []
        | some last =>
          { s with safe := s.safe ++ bound.map (fun e =>
              (⟨siteScope e.site e, s.now, 1, some e.site, if e = last then some h else none⟩ : SafeSeq)) })

/-! ## Tests -/

/-- Counters and status that START and RETEST clear, by site (R144, R168, R234, R237, R295, R311, R314). -/
def testCleared : List Field :=
  [F.SEQ_SSTAT_TIMING_BROKEN, F.SEQ_SSTAT_CHAIN_DONE, F.SEQ_SSTAT_UNDERRUNS, F.SEQ_SSTAT_STALLING, F.SEQ_VEC_LO_VEC_LO,
   F.SEQ_VEC_HI_VEC_HI, F.SEQ_STALL_LO_ST_LO, F.SEQ_STALL_HI_ST_HI, F.SEQ_REFETCH_COUNT, F.SITE_TSTAT_RESTARTS,
   F.SEQ_JUMP_REQ_PENDING, F.SEQ_JUMP_REQ_JUMP_LATE, F.SITE_FAILVEC_COUNT, F.SITE_FSIG_FSIG, F.SITE_FAILSTORED_COUNT,
   F.SEQ_CUR_DECIDED, F.SITE_STATE_FINISHING, H.SQ_T_FIRST, H.SQ_T_END, H.SQ_CHAINED, H.SQ_STOP_REQ, H.SQ_PAUSE_REQ,
   H.SQ_CHAIN_PAUSED, H.SQ_TSET_PIN, H.SQ_TRIG_PIN, H.SQ_DECIDED_END, H.SQ_DECIDED_JUMP, H.SQ_ENTRY_BAD, H.SQ_SRC_NEXT,
   H.ST_SITE_FAIL, H.ST_MARK_FAIL, H.ST_GFAIL, H.ST_FIRST_FAIL, H.ST_FAIL_LIMIT, H.ST_FAIL_OVF, H.ST_PUSHED, H.ST_PUSH_WAIT,
   H.ST_REC_LOST, H.ST_TRIPPED, H.ST_TASKS_CUT, H.ST_CAUSE, H.ST_BIN_FORCE, H.ST_IS_RETEST, H.ST_NEXT, H.ST_OUT_SAFE,
   H.ST_HALT_T, H.ST_HALTED, H.ST_TRIG_ARR]

/-- A test begins (R295, R297): kind 0 START, 1 RETEST. -/
def State.beginTest (s : State) (i kind : Nat) : State :=
  let k := s.siteEngine i
  let s1 := testCleared.foldl (fun t f => t.clear f i) s
  let s2 := s1.each (s1.siteChans i) (fun t c =>
    ((t.clear F.CH_FAILCNT_COUNT c).clear F.CH_FIRSTFAIL_LO_VEC_LO c).clear F.CH_FIRSTFAIL_HI_VEC_HI c)
  let smus := match s.entryOf i with | none => [] | some e => e.smuList
  let s3 := s2.each smus (fun t u => ((t.clear F.SMUW_JUMP_REQ_PENDING u).clear F.SMUW_JUMP_REQ_JUMP_LATE u).clear H.SW_STARTED u)
  let s4 := { s3 with failq := qSet s3.failq i [] }
  let s5 := (s4.incW F.SITE_RUN_RUN i).setB H.ST_IS_RETEST i (kind == 1)
  let s6 := if kind = 0 then s5.put F.SITE_RUN_RETESTS i 0 else s5.incSat F.SITE_RUN_RETESTS i
  let s7 : State := match s6.entryOf i with
    | none => s6
    | some e => ((s6.recHdr e 0x18 2 (s6.get F.SITE_RUN_RUN i)).recHdr e 0x10 8 (s6.recWr e)).recAppend i (s6.startRecord i kind k)
  let s8 := ((s7.toSiteState i sRUNNING).setB H.ST_THR i (s7.on F.MODE_STAT_THROTTLE 0)).tsetUse i (s7.get F.SITE_TCTRL_TSET i)
  let s9 := (s8.setB H.ENG_START_PEND k true).setB H.ENG_START_CUT k false
  let entry : Nat := s9.get F.SEQ_START_ENTRY i
  if entry = 0xFFFF then s9.setB H.SQ_SRC_NEXT i true else s9.requestStart i entry 0 0

/-- The RESULT record of a test, SITE_BIN and OPEN (R298, R302, R311). -/
def State.writeResult (s : State) (i : Nat) : State :=
  match s.entryOf i with
  | none => s
  | some e =>
    let s1 := s.recResult i (s.resultRecord i)
    let s2 := (s1.put F.SITE_BIN_BIN i (s.finalBin i).1).put F.SITE_BIN_CAUSE i (s.get H.ST_CAUSE i)
    s2.recHdr e 0x10 8 (2 ^ 64 - 1)

/-- The SITE_DONE event (R510, R511). -/
def State.siteDone (s : State) (i cause bin run : Nat) : State :=
  s.event 0x0401 (leBytes 1 i ++ leBytes 1 cause ++ leBytes 2 bin ++ leBytes 2 run ++ zeros 2
    ++ leBytes 8 (s.get2 F.SITE_REC_WR_LO_WR_LO F.SITE_REC_WR_HI_WR_HI i))

/-- The last step of a finish (R294, R297, R298): the site becomes ENDED, or its next test starts. -/
def State.testEnd (s : State) (i : Nat) : State :=
  let s1 := (s.writeResult i).setB F.SITE_STATE_FINISHING i false
  if s.get H.ST_NEXT i = 2 then s1.beginTest i 1
  else
    ((s1.toSiteState i sENDED).calBoundary i).siteDone i (s1.get F.SITE_BIN_CAUSE i) (s1.get F.SITE_BIN_BIN i)
      (s1.get F.SITE_RUN_RUN i)

/-- What the finish does once the chain stands and the outputs are where they are to be (R298, R315,
R391, R415): stalls of contexts are recorded, captures and streams end, the rest of the fail entries
goes to a task. -/
def State.finishUnits (s : State) (i : Nat) : State :=
  match s.entryOf i with
  | none => s
  | some e =>
    let s1 := s.each e.smuList (fun t u => t.waveStallEnd u 4)
    let s2 := s1.each e.acqList State.acqSiteEnd
    let s3 := s2.each e.tdcList (fun t j => (t.tdcDisarm j 1).tdcDrain j)
    (s3.failDrain i e (qGet s3.failq i)).failPush i true

/-- Nothing of the site waits any more: no task queued or held, and no push that waits. -/
def State.tasksDone (s : State) (i : Nat) : Bool :=
  s.siteQueued i == 0 && s.siteHeld i == 0 && s.get H.ST_PUSH_WAIT i == 0
    && (s.siteAcqs i).all (fun a => !s.on H.ACQ_PUSH_WAIT a)

/-- SITE_FINISH (R298, R299): it acts once the engine has halted, the chain stands and no output is on
its way to the safe state. -/
def State.siteFinish (s : State) (i : Nat) : State :=
  if s.on F.SITE_STATE_FINISHING i && s.on H.ST_HALTED i && !s.on H.SQ_PLAYING i && !s.siteSafeBusy i then
    let s1 := s.finishUnits i
    if s1.tasksDone i then s1.testEnd i else s1
  else s

/-! ## Site commands -/

/-- Site command codes (R499). -/
def cSTART : Nat := 1
def cPAUSE : Nat := 2
def cRESUME : Nat := 3
def cRETEST : Nat := 4
def cABORT : Nat := 5

/-- An unbind of the site has been accepted and is not yet done (R293). -/
def State.unbinding (s : State) (i : Nat) : Bool := s.safe.any (fun q => q.unbind == some i)

/-- A site refuses a command for its state (R120, R121, R182, R300), or because it is being unbound. -/
def State.siteRefuses (s : State) (cmd i : Nat) : Bool :=
  let st := s.siteState i
  let fin := s.on F.SITE_STATE_FINISHING i
  let byState :=
    match cmd with
    | 1 => !(st == sIDLE || st == sENDED)
    | 2 => st != sRUNNING
    | 3 => st != sPAUSED || fin
    | 4 => !(st == sENDED || (st == sPAUSED && !fin))
    | _ => !(st == sRUNNING || st == sPAUSED || st == sHELD)
  let timed := (cmd == cSTART || cmd == cRETEST) && s.unsynced
    && (s.get F.SITE_TCTRL_START_SRC i == 1 || s.get F.SITE_TCTRL_START_SRC i == 2)
  byState || timed || s.unbinding i || (cmd != cABORT && s.mode == mCALIBRATE && s.siteCalOwned i)
    || (cmd == cABORT && s.mode == mSTANDBY && st != sHELD)

/-- Sites whose record area leaves less than 256 bytes (R307). -/
def State.recFull (s : State) (i : Nat) : Bool :=
  match s.entryOf i with | none => false | some e => decide (s.recFree e < 256)

/-- Sites whose start entry is bad (R212). -/
def State.startBad (s : State) (i : Nat) : Bool :=
  s.get F.SEQ_START_ENTRY i != 0xFFFF && s.pinBad i (s.get F.SEQ_START_ENTRY i) != 0

/-- PAUSE of a site (R121, R190, R226, R296, R300). -/
def State.sitePause (s : State) (i : Nat) : State :=
  if s.on F.SITE_STATE_FINISHING i then s
  else if s.on H.SQ_PLAYING i then s.setB H.SQ_PAUSE_REQ i true
  else if 1 ≤ s.get H.SQ_WAIT i ∧ s.get H.SQ_WAIT i ≤ 3 then ((s.waitDrop i).setB H.SQ_CHAIN_PAUSED i true).sitePaused i
  else s.sitePaused i

/-- RESUME of a site (R226): the decided pass waits for its first line. -/
def State.siteResume (s : State) (i : Nat) : State :=
  let s1 := s.toSiteState i sRUNNING
  if s.on H.SQ_CHAIN_PAUSED i then
    let s2 := (s1.setB H.SQ_CHAIN_PAUSED i false).put H.SQ_WAIT i 1
    if s.on H.SQ_CHAINED i then s2.incSat F.SITE_TSTAT_RESTARTS i else s2
  else s1

/-- RETEST of a site (R297): a paused test is closed first. -/
def State.siteRetest (s : State) (i : Nat) : State :=
  if s.siteState i = sPAUSED then
    let s1 := (((s.testCause i 4 0).waitDrop i).setB H.SQ_CHAIN_PAUSED i false).setB H.ST_HALTED i true
    ((s1.put H.ST_NEXT i 2).setB F.SITE_STATE_FINISHING i true).toSiteState i sRUNNING
  else s.beginTest i 1

/-- ABORT of a site (R279, R299, R300): on the ENG cycle of the HALT it prevails, later it cuts the tasks that
wait; the engine of a paused test that a RETEST closes still runs, and takes trap 11. -/
def State.siteAbort (s : State) (i : Nat) : State :=
  if s.siteState i = sHELD then ((s.siteOutSafe i).toSiteState i sENDED).calBoundary i
  else if s.on F.SITE_STATE_FINISHING i then
    if s.get H.ST_CAUSE i = 1 ∧ s.get H.ST_HALT_T i / 8192 = s.ts / 8192 then
      (((s.put H.ST_CAUSE i 2).put H.ST_BIN_FORCE i 0xFFFF).put H.ST_NEXT i 0).siteOutSafe i
    else
      let closing : Bool := s.get H.ST_CAUSE i == 4
      let s1 := if closing && s.siteQueued i == 0 then s else (s.dqDropSite i).setB H.ST_TASKS_CUT i true
      let s2 := if closing then s1.engAbort (s.siteEngine i) 1 else s1
      (s2.put H.ST_NEXT i 0).siteOutSafe i
  else (((s.testCause i 2 0xFFFE).chainStopNext i).setB H.ST_OUT_SAFE i true).engAbort (s.siteEngine i) 1

/-- A site command that its site accepts. -/
def State.siteCmd (s : State) (cmd i : Nat) : State :=
  match cmd with
  | 1 => s.beginTest i 0
  | 2 => s.sitePause i
  | 3 => s.siteResume i
  | 4 => s.siteRetest i
  | _ => s.siteAbort i

/-- A mode that makes a site command legal (R120). -/
def legalCmd (cmd : Nat) (s : State) : Bool := legalSite s || (cmd == cABORT && s.mode == mSTANDBY)

/-- A command on several sites, in ascending order. -/
def State.siteCmds (s : State) (cmd : Nat) (sites : List Nat) : State := s.each sites (fun u i => u.siteCmd cmd i)

/-- A site command from its origin (R120-R122, R212, R307, SITE_CMD): SITE_CTRL is answered, a register
write completes with an error response where the command is refused. -/
def State.siteControl (s : State) (o : SiteOrigin) (cmd mask : Nat) : State :=
  let sites := bitsOf 64 mask
  let starts := cmd == cSTART || cmd == cRETEST
  match o with
  | .host h =>
    s.serve h 0x2D (legalCmd cmd) sites (fun s =>
      if mask = 0 then s.answerErr h 0x2D stARG 0
      else
        match sites.filter (fun i => s.siteRefuses cmd i) with
        | i :: is => s.answerSites h 0x2D (i :: is)
        | [] =>
          if starts && sites.any s.recFull then s.answerErr h 0x2D stLIMIT 0
          else
            match (if starts then sites.filter s.startBad else []) with
            | i :: _ => s.answerErr h 0x2D stARG i
            | [] => (s.siteCmds cmd sites).answerOk h 0x2D [])
  | .reg _ =>
    if !legalCmd cmd s || s.on H.UNAVAIL 0 || sites.any (fun i => s.siteRefuses cmd i)
        || (starts && (sites.any s.recFull || sites.any s.startBad)) then { s with lastResp := .error }
    else { s.siteCmds cmd sites with lastResp := .done }

/-! ## Warm bring-up -/

/-- Every record header written to zero with OPEN at all ones (R292). -/
def State.headerClear (s : State) (e : SiteEntry) : State :=
  s.celPut clsHearth (celOff e.recBase) (zeros 16 ++ leBytes 8 (2 ^ 64 - 1) ++ zeros 4072)

/-- A test that a reset cut is closed (R301). -/
def State.closeCut (s : State) (e : SiteEntry) (held : Bool) : State :=
  let i := e.site
  let s1 := s.recResult i (warmResult i e.engine (s.recRun e) held)
  let s2 := (s1.put F.SITE_BIN_BIN i 0xFFFD).put F.SITE_BIN_CAUSE i 5
  (s2.recHdr e 0x10 8 (2 ^ 64 - 1)).siteDone i 5 0xFFFD (s.recRun e)

/-- A bound site after a bring-up (R292, R301): held tells its WARM_HELD bit and lost whether the
Cellar's contents were lost. -/
def State.siteAfterReset (s : State) (e : SiteEntry) (held lost : Bool) : State :=
  let i := e.site
  let cut := !lost && s.recOpen e != 2 ^ 64 - 1
  let s1 := if lost then s.headerClear e else if cut then s.closeCut e held else s
  (s1.siteRestore e).toSiteState i (if held then sHELD else if cut then sENDED else sIDLE)

end Sys2Proof.Machine
end

