-- ==== Sys2Proof/Machine/Monitors.lean ====
section
/-!
DEFINITION. The fault collector's reactions (R578-R587) and the window monitors with the trip path
(R361-R377).
-/

namespace Sys2Proof.Machine

/-! ## Faults -/

/-- The RUNNING and PAUSED sites of a tile. -/
def State.tileActive (s : State) (t : Nat) : List Nat :=
  allSites.filter (fun i => s.active i && (match s.entryOf i with | none => false | some e => e.tile == t))

/-- The effects of a reaction beyond NOTIFY (R579): SITE stops the owning site, TILE makes the tile safe
and stops its sites. -/
def State.faultReach (s : State) (r : Nat) (site tile : Option Nat) : State :=
  let s1 := match site with
    | some i => if 3 ≤ r then s.seqStop i 0 else s
    | none => s
  match tile with
  | some t => if 4 ≤ r then (s1.safeStart (.tile t)).each (s1.tileActive t) (fun u i => u.seqStop i 0) else s1
  | none => s1

/-- A fault source raised (R579-R582). -/
def State.raiseFault (s : State) (n unit : Nat) (site tile : Option Nat) (injected : Bool) : State :=
  let r := s.faultCore n unit site tile injected
  r.1.faultReach r.2 site tile

/-- The tile of a fault source, where it has one (R578): that of CS_PARITY is the tile of the site that
the engine serves. -/
def State.faultTile (s : State) (n : Nat) : Option Nat :=
  if n < 64 then ((s.engSite n).bind s.entryOf).map (fun e => e.tile)
  else if n < 112 then some (n % 8)
  else none

/-- The site of a fault source with its unit (R578). -/
def State.faultSite (s : State) (n unit : Nat) : Option Nat :=
  if n < 64 then s.engSite n
  else if n < 72 then
    let i := monIdx (unit % 160)
    if s.on H.MON_MEM_BOUND i then some (s.get H.MON_MEM_SITE i) else none
  else if 88 ≤ n ∧ n < 96 then s.dpsSite (unit % 64)
  else if 96 ≤ n ∧ n < 104 then s.smuSite (unit % 32)
  else none

/-- A source raised with the site and tile that R578 gives it; reserved sources are never raised. -/
def State.faultRaise (s : State) (n unit : Nat) (injected : Bool) : State :=
  if 117 ≤ n then s else s.raiseFault n unit (s.faultSite n unit) (s.faultTile n) injected

/-- FLT_ACK written (R580). -/
def State.faultAck (s : State) (n : Nat) : State × Resp :=
  if s.on F.FLT_SUM_BUSY 0 && s.get F.FLT_SUM_ACTIVE 0 == n then
    (((s.setB F.FLT_SUM_BUSY 0 false).noDue H.FLT_END 0).put F.FLT_SUM_MERGED 0 0).ok
  else s.bad

/-- The log entry of a reaction shows that it has escalated: bit 3 of its byte APPLIED, at offset a (R586). -/
def State.faultMark (s : State) (a : Nat) : State :=
  { s with fltLog := memSetByte ramByte s.fltLog a (BitVec.ofNat 8 (setBit (memByte ramByte s.fltLog a).toNat 3)) }

/-- The escalation of a reaction that was not acknowledged in time (R583, R586). -/
def State.faultEscalate (s : State) : State :=
  match s.due H.FLT_END 0 with
  | none => s
  | some t =>
    if s.on F.FLT_SUM_BUSY 0 then
      let n := s.get F.FLT_SUM_ACTIVE 0
      let s1 := (((s.upTo t).noDue H.FLT_END 0).setB F.FLT_SUM_ESCALATED 0 true)
      let s2 := s1.faultMark ((s.get H.FLT_SEQ 0 - 1) % 64 * 16 + 1)
      let s3 := if s2.react n < s2.esc n then
          s2.faultReach (s2.esc n) (if s2.get H.FLT_SITE 0 < 64 then some (s2.get H.FLT_SITE 0) else none)
            (if s2.get H.FLT_TILE 0 < 8 then some (s2.get H.FLT_TILE 0) else none)
        else s2
      s3.irq 174 (s3.faultEntryAt (s.get H.FLT_SEQ 0 - 1))
    else s

/-! ## Thresholds -/

/-- The monitor watches a DPS; a voltage of one; a current of one. -/
def monIsDps (i : Nat) : Bool := i % 20 < 16
def monIsDpsV (i : Nat) : Bool := i % 20 < 16 && i % 2 == 0
/-- The DPS, or the SMU, that a monitor watches. -/
def monDps (i : Nat) : Nat := i / 20 * 8 + i % 20 / 2
def monSmu (i : Nat) : Nat := i / 20 * 4 + (i % 20 - 16)

/-- Full scale of a range in codes (R325, R345). -/
def monFull (i : Nat) : Nat := if monIsDps i then 30000 else 4000000

/-- The quantity that a monitor watches is a current. -/
def State.monCurrent (s : State) (i : Nat) : Bool := if monIsDps i then i % 2 == 1 else s.on F.MON_CTRL_SEL i

/-- SCALE in force (R361, R363). -/
def State.monScale (s : State) (i : Nat) : Nat :=
  if monIsDps i && !monIsDpsV i && s.on F.DPS_CTRL_EXT (monDps i) then 6 else s.get F.MON_CTRL_SCALE i

/-- The largest current that a threshold acts at (R362), in codes of SCALE: the full scale of the
range in force. -/
def State.monLimit (s : State) (i : Nat) : Nat :=
  let r := if monIsDps i then s.get F.DPS_CTRL_IRANGE (s.leadOf (monDps i)) else s.get F.SMU_CTRL_IRANGE (monSmu i)
  monFull i * 10 ^ r / 10 ^ s.monScale i

/-- A threshold as it acts. -/
def State.monActs (s : State) (i : Nat) (x : Int) : Int :=
  if s.monCurrent i then clampI (-(s.monLimit i : Int)) (s.monLimit i) x else x

/-- A threshold DAC settles. -/
def State.monSettles (s : State) (i : Nat) : Bool := s.get H.MON_SET_END i != 0

/-- The width of a threshold code: a DPS voltage monitor uses bits [15:0] (MON_HI, MON_LO). -/
def thrWidth (i : Nat) : Nat := if monIsDpsV i then 16 else 32

/-- HI and LO in force (R375): while the DAC settles, the tighter of the old and the new one. -/
def State.monHi (s : State) (i : Nat) : Int :=
  let x := sext (thrWidth i) (s.get F.MON_HI_VALUE i)
  s.monActs i (if s.monSettles i then min x (s.getI H.MON_OLD_HI i) else x)
def State.monLo (s : State) (i : Nat) : Int :=
  let x := sext (thrWidth i) (s.get F.MON_LO_VALUE i)
  s.monActs i (if s.monSettles i then max x (s.getI H.MON_OLD_LO i) else x)

/-- HYST in force, as it is stored (R364). -/
def State.monHyst (s : State) (i : Nat) : Int := (s.get F.MON_HYST_VALUE i : Int)

/-- The last input that a monitor saw. -/
def State.monIn (s : State) (i : Nat) : Int := (s.get H.MON_IN i : Int) - 2 ^ 63

/-- The input seen. -/
def State.monSee (s : State) (i : Nat) (x : Int) : State := s.put H.MON_IN i (x + 2 ^ 63).toNat

/-- The arming state set afresh from the present input (R365, R366). -/
def State.armHi (s : State) (i : Nat) : State :=
  let x := s.monIn i
  s.put F.MON_STAT_ARM_HI i
    (if !s.on F.MON_CTRL_EN i || !s.on F.MON_CTRL_HI_EN i then 3
     else if s.monHi i < x then 2 else if s.monHi i - s.monHyst i ≤ x then 1 else 0)
def State.armLo (s : State) (i : Nat) : State :=
  let x := s.monIn i
  s.put F.MON_STAT_ARM_LO i
    (if !s.on F.MON_CTRL_EN i || !s.on F.MON_CTRL_LO_EN i then 3
     else if x < s.monLo i then 2 else if x ≤ s.monLo i + s.monHyst i then 1 else 0)

/-- Both. -/
def State.armBoth (s : State) (i : Nat) : State := (s.armHi i).armLo i

/-- THRESHOLD_ARMING (R365): the input has moved, and thresholds that are not ARMED follow it. -/
def State.thresholdArming (s : State) (i : Nat) (input : Int) : State :=
  let s1 := s.monSee i input
  let hi := s.get F.MON_STAT_ARM_HI i
  let lo := s.get F.MON_STAT_ARM_LO i
  let s2 :=
    if hi = 1 ∨ hi = 2 then
      (if input < s.monHi i - s.monHyst i then s1.put F.MON_STAT_ARM_HI i 0
       else if s.monHi i < input then s1.put F.MON_STAT_ARM_HI i 2 else s1)
    else s1
  if lo = 1 ∨ lo = 2 then
    (if s.monLo i + s.monHyst i < input then s2.put F.MON_STAT_ARM_LO i 0
     else if input < s.monLo i then s2.put F.MON_STAT_ARM_LO i 2 else s2)
  else s2

/-! ## Latches and trips -/

/-- The site of a monitor by its membership latch (R373). -/
def State.monSite (s : State) (i : Nat) : Option Nat :=
  if s.on H.MON_MEM_BOUND i then some (s.get H.MON_MEM_SITE i) else none

/-- The trip path (R31, R372): the unit with its gang, the channels of its site, and with SCOPE 1 every
other DPS and SMU of the site. -/
def State.tripRemoves (s : State) (i : Nat) : State :=
  let s1 := if monIsDps i then s.dpsTrip (monDps i) else s.smuTrip (monSmu i)
  match (s.monSite i).bind s.entryOf with
  | none => s1
  | some e =>
    let s2 := s1.each e.channels State.chTrip
    if s.on F.MON_CTRL_SCOPE i then (s2.each e.dpsList State.dpsTrip).each e.smuList State.smuTrip else s2

/-- What a trip tells besides (R156, R270, R300, R371, R578). -/
def State.tripTells (s : State) (i : Nat) : State :=
  let s1 := match s.monSite i with
    | none => s
    | some j =>
      let s2 := (if s.active j then s.setB H.ST_TRIPPED j true else s)
      s2.pendTrap (s.siteEngine j) 7
  s1.faultRaise (64 + i / 20) (monGlobal i) false

/-- MONITOR_CROSSING (R368): only a crossing from ARMED counts, and none during a self-check (R377). -/
def State.monCross (s : State) (i : Nat) (high : Bool) (input : Int) : State :=
  let s0 := s.monSee i input
  let armed := if high then s.get F.MON_STAT_ARM_HI i == 0 else s.get F.MON_STAT_ARM_LO i == 0
  let beyond := if high then decide (s.monHi i < input) else decide (input < s.monLo i)
  if !s.on F.MON_CTRL_EN i || !armed || !beyond || s.get F.MON_CTRL_SELFCHK i != 0 then s0
  else
    let s1 := (if high then s0.put F.MON_STAT_ARM_HI i 2 else s0.put F.MON_STAT_ARM_LO i 2).incW F.MON_COUNT_CROSSINGS i
    let s2 := if high then s1.setB F.MON_STAT_LATCH_HI i true else s1.setB F.MON_STAT_LATCH_LO i true
    if s.latched i then s2
    else
      let s3 := (s2.setB F.MON_STAT_LATCH i true).put2 F.MON_TRIP_TS_LO_TS_LO F.MON_TRIP_TS_HI_TS_HI i
        (s.ts / 4096 * 4096)
      let s4 := if s.on F.MON_CTRL_TRIP_EN i then s3.tripRemoves i else s3
      let s5 := (s4.irq (152 + i / 20)).latchReaches i s.now
      if s.on F.MON_CTRL_TRIP_EN i then s5.tripTells i else s5

/-- The latch cleared (R369). -/
def State.monClear (s : State) (i : Nat) : State :=
  if s.latched i then
    (((s.setB F.MON_STAT_LATCH i false).setB F.MON_STAT_LATCH_HI i false).setB F.MON_STAT_LATCH_LO i false).armBoth i
  else s

/-- MON_PERIOD_BOUNDARY (R369): the next boundary of the periods counted from the last write of EN to 1. -/
def State.monPeriod (s : State) (i : Nat) : State :=
  let p := s.get F.MON_PERIOD_US i * us
  if s.on F.MON_CTRL_CLR_MODE i && p != 0 && s.on F.MON_CTRL_EN i then
    let t0 := s.get H.MON_EN_T i
    (s.upTo (t0 + ((s.now - t0) / p + 1) * p)).monClear i
  else s

/-! ## Writes -/

/-- The output of the unit that a monitor watches is off (R377). -/
def State.monUnitOff (s : State) (i : Nat) : Bool :=
  if monIsDps i then !s.on F.DPS_STAT_ON (monDps i) else !s.smuClosed (monSmu i)

/-- The DAC of a monitor begins to settle (R375): what is in force now is the old threshold. -/
def State.monSettle (s t : State) (i chg : Nat) (hi lo : Int) : State :=
  let t1 := (t.putI H.MON_OLD_HI i hi).putI H.MON_OLD_LO i lo
  (t1.put H.MON_CHG i (s.get H.MON_CHG i ||| chg)).setDue H.MON_SET_END i (s.now + 2 * us)

/-- A code of one SCALE in another. -/
def reScale (x : Int) (scFrom scTo : Nat) : Int :=
  if scTo ≤ scFrom then x * 10 ^ (scFrom - scTo) else x / 10 ^ (scTo - scFrom)

/-- SCALE as it is stored (MON_CTRL). -/
def scaleStored (i v : Nat) : Nat :=
  if monIsDpsV i then v else if monIsDps i then (if 6 ≤ v then 5 else v) else min v 4

/-- A write of MON_CTRL (R363, R366, R377). -/
def State.writeMonCtrl (s : State) (i v : Nat) : State × Resp :=
  let en := bit v 0
  let odd := monIsDps i && monDps i % 2 == 1 && s.on F.DPS_CTRL_EXT (monDps i - 1)
  if en && odd then s.bad
  else if bits v 12 2 ≠ 0 ∧ s.monUnitOff i = false then s.bad
  else
    let sc := scaleStored i (bits v 9 3)
    let hiOld := s.monHi i
    let loOld := s.monLo i
    let s1 := (((s.setB F.MON_CTRL_EN i en).setB F.MON_CTRL_TRIP_EN i (bit v 1)).put F.MON_CTRL_SPEED i (bits v 2 2)).setB
      F.MON_CTRL_CLR_MODE i (bit v 4)
    let s2 := (((s1.setB F.MON_CTRL_HI_EN i (bit v 5)).setB F.MON_CTRL_LO_EN i (bit v 6)).setB F.MON_CTRL_SCOPE i (bit v 7)).setB
      F.MON_CTRL_SEL i (bit v 8 && !monIsDps i)
    let s3 := (s2.put F.MON_CTRL_SCALE i sc).put F.MON_CTRL_SELFCHK i (bits v 12 2)
    let s4 := if sc = s.get F.MON_CTRL_SCALE i then s3
      else s.monSettle s3 i 3 (reScale hiOld (s.get F.MON_CTRL_SCALE i) sc) (reScale loOld (s.get F.MON_CTRL_SCALE i) sc)
    let s5 := if en then s4.put H.MON_EN_T i s.now else s4
    let checkEnds := s.get F.MON_CTRL_SELFCHK i != 0 && bits v 12 2 == 0
    let all := checkEnds || en != s.on F.MON_CTRL_EN i
    let s6 := if all || bit v 5 != s.on F.MON_CTRL_HI_EN i then s5.armHi i else s5
    (if all || bit v 6 != s.on F.MON_CTRL_LO_EN i then s6.armLo i else s6).ok

/-- HYST as it is stored: at least 20 codes on a DPS voltage monitor, else 1/1,024 of the full scale
(R364). -/
def hystStored (i v : Nat) : Nat := max v (if monIsDpsV i then 20 else monFull i / 1024)

/-- A threshold code as it is stored: on a DPS voltage monitor bits [31:16] read 0 and ignore writes. -/
def State.putThr (s : State) (f : Field) (i v : Nat) : State := s.put f i (v % 2 ^ thrWidth i)

/-- A write of MON_HI, MON_LO or MON_HYST (R364, R375). -/
def State.monThrSet (s : State) (r : MonReg) (i v : Nat) : State :=
  let hi := s.monHi i
  let lo := s.monLo i
  match r with
  | .hi => s.monSettle (s.putThr F.MON_HI_VALUE i v) i 1 hi lo
  | .lo => s.monSettle (s.putThr F.MON_LO_VALUE i v) i 2 hi lo
  | .hyst => s.monSettle (s.put F.MON_HYST_VALUE i (hystStored i v)) i 3 hi lo

/-- THRESHOLD_SETTLED (R366, R375). -/
def State.monSettled (s : State) (i : Nat) : State :=
  match s.due H.MON_SET_END i with
  | none => s
  | some t =>
    let chg := s.get H.MON_CHG i
    let s1 := ((s.upTo t).noDue H.MON_SET_END i).put H.MON_CHG i 0
    let s2 := if bit chg 0 then s1.armHi i else s1
    if bit chg 1 then s2.armLo i else s2

/-- What the comparators see in a self-check (R376). -/
def State.monCheckIn (s : State) (i : Nat) : Int :=
  let one : Int := if monIsDpsV i then 4000 else if monIsDps i then 30000 else if s.on F.MON_CTRL_SEL i then 4000000 else 2000000
  match s.get F.MON_CTRL_SELFCHK i with
  | 1 => -s.monIn i
  | 2 => one / 2
  | _ => one

/-- CHK_HI and CHK_LO (R377): the raw comparators during a self-check. -/
def State.monCheckHi (s : State) (i : Nat) : Bool := s.get F.MON_CTRL_SELFCHK i != 0 && decide (s.monHi i < s.monCheckIn i)
def State.monCheckLo (s : State) (i : Nat) : Bool := s.get F.MON_CTRL_SELFCHK i != 0 && decide (s.monCheckIn i < s.monLo i)

end Sys2Proof.Machine
end

