-- ==== Sys2Proof/Machine/Fabric.lean ====
section
/-!
DEFINITION. The fabric (R443-R490): Porch states and training, the link layer with sequence numbers,
retry and credits, routing, discovery, and the assembly of host messages (R491-R494).
-/

namespace Sys2Proof.Machine

/-! ## Porch states -/

/-- State codes (R461). -/
def pOFF : Nat := 0
def pDETECT : Nat := 1
def pTRAINNRZ : Nat := 2
def pTRAINPAM4 : Nat := 3
def pUPPAM4 : Nat := 4
def pUPNRZ : Nat := 5
def pQUIET : Nat := 6
def pDEEP : Nat := 7
def pRETRAIN : Nat := 8
def pDOWN : Nat := 9
def pLEAVING : Nat := 10

/-- The state of a Porch. -/
def State.porch (s : State) (p : Nat) : Nat := s.get F.PORCH_STAT_STATE p

/-- A Porch changes state, which raises its interrupt source (R589). -/
def State.porchTo (s : State) (p st : Nat) : State :=
  if s.porch p = st then s else (s.put F.PORCH_STAT_STATE p st).irq (136 + p)

/-- A Porch in service: flits go through it at once, or after its exit or retrain. -/
def State.inService (s : State) (p : Nat) : Bool := 4 ≤ s.porch p && s.porch p ≤ 8

/-- The Porch carries flits now. -/
def State.carries (s : State) (p : Nat) : Bool := s.porch p == pUPPAM4 || s.porch p == pUPNRZ

/-- All Porches. -/
def allPorches : List Nat := List.range 8

/-- The silicon ID (FAB_SID). -/
def State.sid (s : State) : Nat := s.get2 F.FAB_SID_LO_SID_LO F.FAB_SID_HI_SID_HI 0

/-- The partner's silicon ID. -/
def State.partnerSid (s : State) (p : Nat) : Nat := s.get2 F.PORCH_PSID_LO_SID_LO F.PORCH_PSID_HI_SID_HI p

/-! ## Sending -/

/-- Output queue and replay buffer of a Porch. -/
def State.outQ (s : State) (p : Nat) : List Flit := qGet s.outq p
def State.replayQ (s : State) (p : Nat) : List Flit := qGet s.replay p

/-- A flit may be sent now as far as its own needs go: link-local flits need no credit (R456). -/
def State.hasCredit (s : State) (p vc : Nat) : Bool := vc == 3 || s.get H.TX_CR (p * 3 + vc) != 0

/-- The first waiting flit of a virtual channel. -/
def firstVc (l : List Flit) (vc : Nat) : Option Flit := l.find? (fun f => f.vc == vc)

/-- Slots of 16 for a virtual channel (R457). -/
def vcSlots (vc : Nat) : Nat := match vc with | 0 => 6 | 1 => 8 | _ => 2

/-- The virtual channels that wait with credit, in the order in which they are served. -/
def State.vcReady (s : State) (p : Nat) : List Nat :=
  [1, 0, 2].filter (fun vc => (firstVc (s.outQ p) vc).isSome && s.hasCredit p vc)

/-- The virtual channel of the next flit (R457): link-local first; then one with slots left of the 16, or,
when none of those waits, any that waits. -/
def State.nextVc (s : State) (p : Nat) : Option Nat :=
  if (firstVc (s.outQ p) 3).isSome then some 3
  else
    match (s.vcReady p).find? (fun vc => s.get H.TX_BUD (p * 3 + vc) != 0) with
    | some vc => some vc
    | none => (s.vcReady p).head?

/-- The 16 slots begin again when every one is used, or when those left have nothing to carry. -/
def State.slotUsed (s : State) (p vc : Nat) : State :=
  if vc = 3 then s
  else
    let left := [0, 1, 2].any (fun v => s.get H.TX_BUD (p * 3 + v) != 0)
    let s1 := if s.get H.TX_BUD (p * 3 + vc) = 0 && !left then
        [0, 1, 2].foldl (fun t v => t.put H.TX_BUD (p * 3 + v) (vcSlots v)) s else s
    s1.put H.TX_BUD (p * 3 + vc) (s1.get H.TX_BUD (p * 3 + vc) - 1)

/-- One flit sent, if one may be (R452, R456, R457): it takes the next sequence number and a credit, and
is kept for replay. -/
def State.send1 (s : State) (p : Nat) : State :=
  match s.nextVc p with
  | none => s
  | some vc =>
    match firstVc (s.outQ p) vc with
    | none => s
    | some f =>
      let seq := s.get F.PORCH_SEQ_NEXT_TX p
      let s1 := { s with
        outq := qSet s.outq p ((s.outQ p).erase f),
        replay := qSet s.replay p (s.replayQ p ++ [{ f with seq := seq }]) }
      let s2 := ((s1.slotUsed p vc).put F.PORCH_SEQ_NEXT_TX p (seq + 1))
      let s3 := s2.put2 F.PORCH_FLITS_LO_N_LO F.PORCH_FLITS_HI_N_HI p
        (s2.get2 F.PORCH_FLITS_LO_N_LO F.PORCH_FLITS_HI_N_HI p + 1)
      if vc = 3 then s3 else s3.put H.TX_CR (p * 3 + vc) (s3.get H.TX_CR (p * 3 + vc) - 1)

/-- A Porch sends what it may: in service while its replay buffer has room; once it has received or sent
LEAVE, no new flit but a link-local one. -/
def State.maySend (s : State) (p : Nat) : Bool :=
  decide ((s.replayQ p).length < 512)
    && (if s.porch p = pLEAVING ∨ s.on H.PO_LEFT p then !s.on H.PO_IDLED p && (firstVc (s.outQ p) 3).isSome && s.porch p != pDOWN
        else s.carries p)

/-- The queue of a Porch drained as far as it goes. -/
def State.drain (s : State) (p : Nat) : Nat → State
  | 0 => s
  | n + 1 => if s.maySend p then (s.send1 p).drain p n else s

/-- A flit put into the output queue of a Porch, and the queue drained. -/
def State.sendOut (s : State) (p : Nat) (f : Flit) : State :=
  ({ s with outq := qSet s.outq p (s.outQ p ++ [f]) }).drain p ((s.outQ p).length + 1)

/-- A sequenced link-local flit. -/
def linkFlit (typ : Nat) (payload : List Byte) : Flit :=
  { typ := typ, dst := 0, src := 0, seq := 0, vc := 3, mc := false, sr := false, seg := 0, ttl := 0, crcOk := true,
    payload := payload }

/-! ## Link loss and link-up -/

/-- The field of an entry of the routing table. -/
def rtPorch (d : Nat) : Field :=
  match d % 8 with
  | 0 => F.FAB_RT_PORCH0 | 1 => F.FAB_RT_PORCH1 | 2 => F.FAB_RT_PORCH2 | 3 => F.FAB_RT_PORCH3
  | 4 => F.FAB_RT_PORCH4 | 5 => F.FAB_RT_PORCH5 | 6 => F.FAB_RT_PORCH6 | _ => F.FAB_RT_PORCH7
def rtValid (d : Nat) : Field :=
  match d % 8 with
  | 0 => F.FAB_RT_VALID0 | 1 => F.FAB_RT_VALID1 | 2 => F.FAB_RT_VALID2 | 3 => F.FAB_RT_VALID3
  | 4 => F.FAB_RT_VALID4 | 5 => F.FAB_RT_VALID5 | 6 => F.FAB_RT_VALID6 | _ => F.FAB_RT_VALID7

/-- The destinations that the table sends out of a Porch. -/
def State.routesOf (s : State) (p : Nat) : List Nat :=
  (List.range 256).filter (fun d => s.on (rtValid d) (d / 8) && s.get (rtPorch d) (d / 8) == p)

/-- Routes through a Porch dropped (R488 step 2). -/
def State.dropRoutes (s : State) (p : Nat) : State :=
  let s1 := s.each (s.routesOf p) (fun t d => t.setB (rtValid d) (d / 8) false)
  s1.each (List.range 16) (fun t g => t.put F.FAB_MC_PORCHES g (clrBit (t.get F.FAB_MC_PORCHES g) p))

/-- The receive state of a Porch reset (R465). -/
def State.rxReset (s : State) (p : Nat) : State :=
  (((s.setB H.PO_FRESH p true).put H.RX_EXP p 0).setB H.RX_WAIT p false).noDue H.RX_REQ_T p

/-- Flits of a virtual channel in a list. -/
def vcCount (l : List Flit) (vc : Nat) : Nat := (l.filter (fun f => f.vc == vc)).length

/-- The link loss of a Porch (R488, R489): what was in flight is recorded and discarded, its routes are
dropped and LINK_DOWN is raised with the silicon ID of the link's own partner. Under R490 nothing is counted
as lost. -/
def State.linkLoss (s : State) (p cause : Nat) (planned : Bool) : State :=
  let sent := s.replayQ p
  let next := s.get F.PORCH_SEQ_NEXT_TX p
  let first := match sent with | [] => next | f :: _ => f.seq
  let routes := (s.routesOf p).length
  let s1 := { s with outq := qSet s.outq p [], replay := qSet s.replay p [] }
  let s2 := (if planned then s1 else s1.addSat F.PORCH_LOST_FLITS p (sent.length + (s.outQ p).length)).dropRoutes p
  let s3 := (s2.setB F.PORCH_STAT_PLANNED p planned).setB H.PO_WAS_UP p false
  s3.event 0x0202 (leBytes 1 p ++ leBytes 1 cause ++ leBytes 1 (b2n planned) ++ leBytes 1 routes
    ++ leBytes 2 (if planned then next else first) ++ leBytes 2 next
    ++ (if planned then zeros 6 else leBytes 2 (vcCount sent 0) ++ leBytes 2 (vcCount sent 1) ++ leBytes 2 (vcCount sent 2))
    ++ zeros 2 ++ leBytes 8 (s.get H.PO_SID p))

/-- A Porch enters DOWN (R461, R488, R490). -/
def State.porchDown (s : State) (p cause : Nat) (planned : Bool) : State :=
  let s1 := ((s.linkLoss p cause planned).rxReset p).incW F.PORCH_EVENTS_DOWN p
  let s2 := (((s1.setB H.PO_LEFT p false).noDue H.PO_LEAVE_END p).noDue H.PO_WAKE_END p).setB F.PORCH_STAT_PARTNER p false
  (s2.setDue H.PO_DOWN_END p (s2.now + ms)).porchTo p pDOWN

/-- The preset of the band taken into force (R441). -/
def State.laneTake (s : State) (p : Nat) : State := (s.put H.PO_LANE p (s.get F.THM_BAND_LANE 0)).noDue H.PO_LANE_T p

/-- A new link (R466): both sequence series at 0, the credits that the partner announced, and LINK_UP
(R489). -/
def State.newLink (s : State) (p : Nat) : State :=
  let s1 := { s with replay := qSet s.replay p [] }
  let s2 := ((s1.put F.PORCH_SEQ_NEXT_TX p 0).put F.PORCH_SEQ_ACKED p 0).put H.RX_EXP p 0
  let s3 := [0, 1, 2].foldl (fun t v => (t.put H.TX_CR (p * 3 + v) (t.get H.PO_BUF (p * 3 + v))).put H.TX_BUD (p * 3 + v) (vcSlots v)) s2
  let s4 := (((((s3.incW F.PORCH_EVENTS_UP p).setB H.PO_WAS_UP p true).setB H.PO_LEFT p false).noDue H.PO_LEAVE_END p)).put H.PO_SID p (s3.partnerSid p)
  s4.event 0x0201 (leBytes 1 p ++ leBytes 1 (s4.get H.PO_NRZ p) ++ leBytes 1 (s4.get F.PORCH_STAT_DEGRADED p)
    ++ leBytes 1 (s4.get F.PORCH_STAT_PARTNER_PORCH p) ++ leBytes 1 (s4.get F.PORCH_STAT_PARTNER_NODE p) ++ zeros 3
    ++ leBytes 8 (s4.partnerSid p))

/-- The Porch is to run in NRZ mode (R463). -/
def State.wantsNrz (s : State) (p : Nat) : Bool :=
  s.on F.PORCH_CTRL_FORCE_NRZ p || !s.on F.FAB_CTRL_PAM4_EN 0 || s.mode == mMINIMAL || !s.on H.PO_PAM4_OK p

/-- Flits acknowledged up to the one before a sequence number. -/
def dropBefore (l : List Flit) (seq : Nat) : List Flit := l.dropWhile (fun f => f.seq != seq)

/-- EXP names a flit that is sent and not acknowledged. -/
def State.inFlight (s : State) (p exp : Nat) : Bool := (s.replayQ p).any (fun f => f.seq == exp)

/-- Everything before a sequence number acknowledged (R455): all of it when that is the next. -/
def State.ackBefore (s : State) (p exp : Nat) : State :=
  let l := if s.inFlight p exp then dropBefore (s.replayQ p) exp else []
  ({ s with replay := qSet s.replay p l }).put F.PORCH_SEQ_ACKED p (exp + 4095)

/-- The Porch comes into service (R462, R466, R467, R469). -/
def State.linkUp (s : State) (p : Nat) : State :=
  let st := s.porch p
  let training := (st == pTRAINNRZ && s.on H.PO_NRZ p && decide (2 ≤ s.get H.PO_STEP p)) || (st == pTRAINPAM4 && decide (4 ≤ s.get H.PO_STEP p))
  let again := st == pRETRAIN || (st == pDEEP && s.get H.PO_WAKE_END p != 0)
  if !s.on H.PO_INFO p || !(training || again) then s
  else
    let keep := again && s.on H.PO_RESUME p
    let s0 := s.setB F.PORCH_STAT_DEGRADED p (s.on F.PORCH_STAT_DEGRADED p && s.on H.PO_NRZ p && !s.wantsNrz p)
    let s1 := if again && !keep then s0.linkLoss p 4 false else s0
    let s2 := if keep then s1.ackBefore p (s1.get H.PO_EXP p) else s1.newLink p
    let s3 := (((s2.laneTake p).setB H.PO_FRESH p false).setB H.RX_WAIT p false).noDue H.RX_REQ_T p
    let s4 := (((s3.noDue H.PO_WAKE_END p).setB H.PO_DREQ p false).setB H.PO_DPEND p false).setB H.PO_QREQ p false
    let s5 := s4.porchTo p (if s4.on H.PO_NRZ p then pUPNRZ else pUPPAM4)
    s5.drain p ((s5.outQ p).length)

/-- A Porch in service enters RETRAIN (R467). A RETRAIN command tries PAM4 again on a DEGRADED link (R463). -/
def State.porchRetrain (s : State) (p cause : Nat) : State :=
  if s.carries p || s.porch p == pQUIET then
    let s1 := ((s.incW F.PORCH_EVENTS_RETRAINS p).put H.PO_STEP p 0).put H.PO_CAUSE p cause
    let s2 := (((s1.setB H.PO_INFO p false).put H.PO_T0 p s1.now).put H.PO_FAILS p 0).setB H.PO_QREQ p false
    let s3 := if cause = 1 then s2.setB F.PORCH_STAT_PARTNER p false else s2
    let nrz := s3.wantsNrz p || (s3.on F.PORCH_STAT_DEGRADED p && cause != 3)
    ((s3.setB H.PO_NRZ p nrz).setB H.PO_FULL p false).porchTo p pRETRAIN
  else s

/-- A retrain cause at a Porch (R467): a loss of signal after LEAVE is the planned DOWN of R490. -/
def State.retrainFor (s : State) (p cause : Nat) : State :=
  if cause = 1 ∧ s.on H.PO_LEFT p = true ∧ s.inService p = true then s.porchDown p 1 true
  else s.porchRetrain p cause

/-- A Porch begins to train with a partner (R462). -/
def State.partnerDetect (s : State) (p : Nat) : State :=
  if s.porch p = pDETECT then
    let s1 := ((s.setB F.PORCH_STAT_PARTNER p true).put H.PO_STEP p 0).put H.PO_FAILS p 0
    ((((s1.setB H.PO_INFO p false).put H.PO_T0 p s1.now).setB F.PORCH_STAT_DEGRADED p false).setB H.PO_WAS_UP p false).porchTo p pTRAINNRZ
  else if s.porch p = pRETRAIN then s.setB F.PORCH_STAT_PARTNER p true
  else s

/-- A LINK_INFO received (R464-R466). A training that has once shown that the link cannot resume does not resume
it at its second LINK_INFO, in which the partner no longer shows FRESH. -/
def State.linkInfo (s : State) (p : Nat) (i : LinkInfo) : State :=
  let st := s.porch p
  if st = pTRAINNRZ ∨ st = pTRAINPAM4 ∨ st = pRETRAIN ∨ st = pDEEP then
    let same := s.get H.PO_SID p == i.sid % 2 ^ 64
    let resume := (!s.on H.PO_INFO p || s.on H.PO_RESUME p) && same && !i.fresh && !s.on H.PO_FRESH p
      && (s.inFlight p (i.expected % 4096) || i.expected % 4096 == s.get F.PORCH_SEQ_NEXT_TX p)
    let s1 := (s.put2 F.PORCH_PSID_LO_SID_LO F.PORCH_PSID_HI_SID_HI p (i.sid % 2 ^ 64)).put F.PORCH_STAT_PARTNER_NODE p i.node
    let s2 := ((s1.put F.PORCH_STAT_PARTNER_PORCH p i.porch.val).setB H.PO_RESUME p resume).put H.PO_EXP p i.expected
    let s3 := ((s2.put H.PO_BUF (p * 3) i.buf0).put H.PO_BUF (p * 3 + 1) i.buf1).put H.PO_BUF (p * 3 + 2) i.buf2
    let s4 := ((s3.setB H.PO_PAM4_OK p i.pam4Ok).setB H.PO_INFO p true).setB F.PORCH_STAT_PARTNER p true
    if st = pTRAINNRZ then (s4.put H.PO_STEP p (max 2 (s4.get H.PO_STEP p))).setB H.PO_NRZ p (s4.wantsNrz p) else s4
  else s

/-- The PAM4 step of a training fails: the third failure in a row leaves NRZ with DEGRADED set (R463). -/
def State.pam4Fails (s : State) (p : Nat) : State :=
  if 2 ≤ s.get H.PO_FAILS p then ((s.put H.PO_FAILS p 3).setB F.PORCH_STAT_DEGRADED p true).setB H.PO_NRZ p true
  else (s.put H.PO_FAILS p (s.get H.PO_FAILS p + 1)).put H.PO_STEP p 2

/-- A step of a retrain or of a wake ends: the first failure is that of the fast resume, after which the Porch
trains by the steps of R462 (R467, R469). -/
def State.resumeStep (s : State) (p : Nat) (ok : Bool) : State :=
  if ok then s.put H.PO_STEP p (min 4 (s.get H.PO_STEP p + 1))
  else if !s.on H.PO_FULL p then
    (((s.incW F.PORCH_EVENTS_FULL_TRAIN p).put H.PO_STEP p 0).setB H.PO_INFO p false).setB H.PO_FULL p true
  else if s.on H.PO_NRZ p then s.put H.PO_STEP p 0
  else s.pam4Fails p

/-- A training step ends (R462, R463, R469). -/
def State.trainingStep (s : State) (p : Nat) (ok : Bool) : State :=
  let st := s.porch p
  let n := s.get H.PO_STEP p
  if st = pTRAINNRZ then
    if !ok then s
    else if n = 0 then s.put H.PO_STEP p 1
    else if 2 ≤ n ∧ s.on H.PO_NRZ p = false then (s.put H.PO_STEP p 2).porchTo p pTRAINPAM4
    else s
  else if st = pTRAINPAM4 then
    if ok then s.put H.PO_STEP p (min 4 (n + 1))
    else
      let s1 := s.pam4Fails p
      if s1.on H.PO_NRZ p then s1.porchTo p pTRAINNRZ else s1
  else if st = pRETRAIN ∨ (st = pDEEP ∧ s.get H.PO_WAKE_END p ≠ 0) then s.resumeStep p ok
  else s

/-- LINK_DOWN (R467, R488, R490): a RETRAIN whose time is out, or the loss that follows LEAVE. -/
def State.linkDown (s : State) (p : Nat) : State :=
  if s.on H.PO_LEFT p then s.porchDown p 1 true
  else if s.porch p = pRETRAIN then
    let lost := s.get H.PO_CAUSE p == 1 && !s.on F.PORCH_STAT_PARTNER p
    let t := s.get H.PO_T0 p + (if lost then s.get F.FAB_CTRL_LINKDOWN_MS 0 * ms else 35 * ms)
    (s.upTo t).porchDown p (if lost then 1 else 2) false
  else s

/-- DOWN_EXPIRY (R461). -/
def State.downExpiry (s : State) (p : Nat) : State :=
  match s.due H.PO_DOWN_END p with
  | none => s
  | some t => if s.porch p = pDOWN then ((s.upTo t).noDue H.PO_DOWN_END p).porchTo p pDETECT else s

/-- A Porch held OFF: a link loss where it was up (PORCH_CTRL.EN, R461). -/
def State.porchOff (s : State) (p : Nat) : State :=
  let s1 := if s.inService p || s.porch p == pLEAVING then ((s.linkLoss p 1 false).rxReset p).incW F.PORCH_EVENTS_DOWN p else s.rxReset p
  let s2 := ((s1.noDue H.PO_DOWN_END p).noDue H.PO_WAKE_END p).noDue H.PO_LEAVE_END p
  ((s2.setB H.PO_LEFT p false).setB F.PORCH_STAT_PARTNER p false).porchTo p pOFF

/-- A Porch that is powered and enabled looks for a partner. -/
def State.porchOn (s : State) (p : Nat) : State :=
  if s.porch p = pOFF ∧ s.on H.PD_PORCH p = true ∧ s.on F.PORCH_CTRL_EN p = true then s.porchTo p pDETECT else s

/-- PORCH_CTRL written (R461, R463, R467, R468). -/
def State.writePorchCtrl (s : State) (p v : Nat) : State × Resp :=
  let s1 := ((s.setB F.PORCH_CTRL_EN p (bit v 0)).setB F.PORCH_CTRL_FORCE_NRZ p (bit v 1)).setB F.PORCH_CTRL_QUIET_EN p (bit v 3)
  let s2 := if s.on F.PORCH_CTRL_EN p && !bit v 0 then s1.porchOff p else if bit v 0 then s1.porchOn p else s1
  (if bit v 2 then s2.porchRetrain p 3 else s2).ok

/-! ## QUIET and DEEP -/

/-- Nothing waits on a Porch. -/
def State.idlePorch (s : State) (p : Nat) : Bool := (s.outQ p).isEmpty && (s.replayQ p).isEmpty

/-- QUIET_REQ (R468): a side that has a flit to send, or that may not enter QUIET, declines. -/
def State.quietReq (s : State) (p : Nat) (received : Bool) : State :=
  if !s.carries p then s
  else if received then
    if (s.outQ p).isEmpty && s.on F.PORCH_CTRL_QUIET_EN p && s.get F.FAB_CTRL_QUIET_IDLE_US 0 != 0 then
      (s.sendOut p (linkFlit 5 (zeros 1))).porchTo p pQUIET
    else s.sendOut p (linkFlit 5 (leBytes 1 1))
  else if s.on F.PORCH_CTRL_QUIET_EN p && s.get F.FAB_CTRL_QUIET_IDLE_US 0 != 0 && s.idlePorch p then
    (s.sendOut p (linkFlit 4 [])).setB H.PO_QREQ p true
  else s

/-- QUIET_ACK (R468). -/
def State.quietAck (s : State) (p : Nat) (accept : Bool) : State :=
  if s.carries p && s.on H.PO_QREQ p then
    let s1 := s.setB H.PO_QREQ p false
    if accept then s1.porchTo p pQUIET else s1
  else s

/-- QUIET_EXIT (R441, R468). -/
def State.quietExit (s : State) (p : Nat) : State :=
  if s.porch p = pQUIET then
    let s1 := (s.laneTake p).porchTo p (if s.on H.PO_NRZ p then pUPNRZ else pUPPAM4)
    s1.drain p ((s1.outQ p).length)
  else s

/-- DEEP_ACK sent once every flit is acknowledged (R469). -/
def State.deepAnswer (s : State) (p : Nat) : State :=
  if s.on H.PO_DPEND p && s.carries p && s.idlePorch p then
    ((s.setB H.PO_DPEND p false).sendOut p (linkFlit 7 [])).porchTo p pDEEP
  else s

/-- DEEP_REQ (R469). -/
def State.deepReq (s : State) (p : Nat) (received : Bool) : State :=
  if !s.carries p then s
  else if received then (s.setB H.PO_DPEND p true).deepAnswer p
  else (s.sendOut p (linkFlit 6 [])).setB H.PO_DREQ p true

/-- DEEP_ACK (R469). -/
def State.deepAck (s : State) (p : Nat) : State :=
  if s.carries p && s.on H.PO_DREQ p then (s.setB H.PO_DREQ p false).porchTo p pDEEP else s

/-- DEEP_WAKE (R469, R470). -/
def State.deepWake (s : State) (p : Nat) : State :=
  if s.porch p = pDEEP ∧ s.get H.PO_WAKE_END p = 0 then
    (((s.setDue H.PO_WAKE_END p (s.now + 5 * ms)).setB H.PO_INFO p false).put H.PO_STEP p 0).setB H.PO_FULL p false
  else s

/-- WAKE_TIMEOUT (R470). -/
def State.wakeTimeout (s : State) (p : Nat) : State :=
  match s.due H.PO_WAKE_END p with
  | none => s
  | some t => if s.porch p = pDEEP then (s.upTo t).porchDown p 3 false else s

/-- LANE_PRESET_UPDATE (R441): the in-service update of a Porch that has had neither retrain nor QUIET exit
for 1 s. -/
def State.lanePresetUpdate (s : State) (p : Nat) : State :=
  match s.due H.PO_LANE_T p with
  | none => s
  | some t => if s.carries p then (s.upTo (t + 1000 * ms + 2 * us)).laneTake p else s

/-! ## LEAVE -/

/-- LEAVE received (R490). -/
def State.leave (s : State) (p : Nat) : State :=
  if s.inService p then
    (((s.setB F.PORCH_STAT_LEAVE_RX p true).setB H.PO_LEFT p true).dropRoutes p).setDue H.PO_LEAVE_END p (s.now + 100 * us)
  else s

/-- LEAVE sent (R128, R490). -/
def State.leaveSend (s : State) (p : Nat) : State :=
  if s.inService p then
    (((s.porchTo p pLEAVING).setB H.PO_IDLED p false).setDue H.PO_LEAVE_END p (s.now + 100 * us)).sendOut p (linkFlit 3 [])
  else s

/-- The transmitters of every Porch that leaves are idle. -/
def State.allIdled (s : State) : Bool := allPorches.all (fun p => s.porch p != pLEAVING || s.on H.PO_IDLED p)

/-- PREPARE_REMOVE completes (R128, R503): the reply leaves and REMOVE_READY is set. -/
def State.removeCheck (s : State) : State :=
  if s.on H.REMOVE_WAIT 0 && s.allIdled then
    let s1 := s.answerOk ⟨s.get H.REMOVE_SRC 0, s.get H.REMOVE_TAG 0⟩ 0x35 []
    ((s1.setB H.REMOVE_WAIT 0 false).setB F.MODE_STAT_REMOVE_READY 0 true).setB H.UNAVAIL 0 true
  else s

/-- A Porch that leaves has every flit acknowledged, or its time is out. -/
def State.leaveDone (s : State) (p : Nat) : State :=
  if s.porch p = pLEAVING then ((s.noDue H.PO_LEAVE_END p).setB H.PO_IDLED p true).removeCheck
  else s.noDue H.PO_LEAVE_END p

/-- LEAVE_WAIT_EXPIRY (R490). -/
def State.leaveExpiry (s : State) (p : Nat) : State :=
  match s.due H.PO_LEAVE_END p with
  | none => s
  | some t => (s.upTo t).leaveDone p

/-! ## Link blocks and retry -/

/-- The receiver enters retry wait (R453, R454). -/
def State.retryWait (s : State) (p : Nat) : State :=
  if s.on H.RX_WAIT p then s
  else (((s.setB H.RX_WAIT p true).put H.RX_REQS p 1).setDue H.RX_REQ_T p (s.now + 2 * us)).incSat F.PORCH_RETRY_REQ_SENT p

/-- RETRY_REQ_RESEND (R454, R467). -/
def State.retryResend (s : State) (p : Nat) : State :=
  match s.due H.RX_REQ_T p with
  | none => s
  | some t =>
    if s.on H.RX_WAIT p && s.carries p then
      let s1 := ((s.upTo t).incSat F.PORCH_RETRY_REQ_SENT p).put H.RX_REQS p (s.get H.RX_REQS p + 1)
      let s2 := s1.setDue H.RX_REQ_T p (t + 2 * us)
      if 16 ≤ s1.get H.RX_REQS p then s2.porchRetrain p 2 else s2
    else s

/-- A RETRY_REQ received (R455): a replay, or a stale request, which is counted alike. -/
def State.retryReq (s : State) (p exp : Nat) : State :=
  if s.carries p then
    let s1 := s.incSat F.PORCH_RETRY_REPLAYS p
    if s.inFlight p exp then s1.ackBefore p exp else s1
  else s

/-- A link block received (R444-R447, R456, R459, R460): its acknowledgement and credits are taken. -/
def State.linkBlock (s : State) (p : Nat) (b : LinkBlock) : State :=
  if s.inService p || s.porch p == pLEAVING then
    let s0 := (s.put F.PORCH_FILL_INSERTED p (s.get F.PORCH_FILL_INSERTED p + b.inserted)).put F.PORCH_FILL_DELETED p
      (s.get F.PORCH_FILL_DELETED p + b.deleted)
    let s1 := if b.corrected then s0.put2 F.PORCH_FEC_LO_CORR_LO F.PORCH_FEC_HI_CORR_HI p
        (s0.get2 F.PORCH_FEC_LO_CORR_LO F.PORCH_FEC_HI_CORR_HI p + 1) else s0
    if !b.ok then (((s1.incSat F.PORCH_ERR_UNCORR p).addSat F.PORCH_ERR_CRC p 5)).retryWait p
    else
      let s2 := if s1.inFlight p (b.ack % 4096) then s1.ackBefore p ((b.ack + 1) % 4096) else s1
      let s3 := ((s2.put H.TX_CR (p * 3) (s2.get H.TX_CR (p * 3) + b.cr0 % 16)).put H.TX_CR (p * 3 + 1)
        (s2.get H.TX_CR (p * 3 + 1) + b.cr1 % 16)).put H.TX_CR (p * 3 + 2) (s2.get H.TX_CR (p * 3 + 2) + b.cr2 % 16)
      let s4 := (s3.drain p ((s3.outQ p).length)).deepAnswer p
      if (s4.replayQ p).isEmpty && s4.get H.PO_LEAVE_END p != 0 && (firstVc (s4.outQ p) 3).isNone then s4.leaveDone p else s4
  else s

/-! ## Routing -/

/-- The virtual channel of a flit type, and whether the type exists (R451). -/
def typeVc (t : Nat) : Option Nat :=
  if t ≤ 7 then some 3
  else if t = 0x10 ∨ t = 0x12 ∨ t = 0x14 then some 0
  else if t = 0x11 ∨ t = 0x13 ∨ t = 0x15 ∨ t = 0x16 then some 1
  else if 0x20 ≤ t ∧ t ≤ 0x4F then some 0
  else if 0x50 ≤ t ∧ t ≤ 0x7F then some 1
  else if t = 0x80 then some 2
  else none

/-- The header word of a flit (R450). -/
def flitHeader (f : Flit) : Nat :=
  f.typ % 256 + f.dst % 256 * 2 ^ 8 + f.src % 256 * 2 ^ 16 + f.seq % 4096 * 2 ^ 24 + f.vc % 4 * 2 ^ 36
    + f.payload.length % 128 * 2 ^ 38 + b2n f.mc * 2 ^ 45 + b2n f.sr * 2 ^ 46 + f.ttl % 256 * 2 ^ 47 + f.seg % 4 * 2 ^ 55

/-- The route of a source-routed flit (R474). -/
def srRoute (f : Flit) : Nat := ofLe (f.payload.take 16)
def srCount (r : Nat) : Nat := bits r 0 6
def srIndex (r : Nat) : Nat := bits r 6 6
def srEntry (r i : Nat) : Nat := bits r (12 + 3 * i) 3

/-- A route from its entries, with INDEX 0. -/
def srMake (l : List Nat) : Nat :=
  l.length % 64 + ((l.zipIdx).map (fun e => e.1 % 8 * 2 ^ (12 + 3 * e.2))).sum

/-- A route with the arrival Porch written into the entry just used, and INDEX moved on. -/
def srAdvance (r arrival : Nat) : Nat :=
  let i := srIndex r
  r - srEntry r i * 2 ^ (12 + 3 * i) + arrival % 8 * 2 ^ (12 + 3 * i) + 2 ^ 6

/-- A flit with another route. -/
def withRoute (f : Flit) (r : Nat) : Flit := { f with payload := leBytes 16 r ++ f.payload.drop 16 }

/-- The body of a flit (R491). -/
def flitBody (f : Flit) : List Byte := if f.sr then f.payload.drop 16 else f.payload

/-- The entries of the reply to a source-routed flit that stands at an index (R475). -/
def srBack (f : Flit) (p : Nat) : List Nat :=
  let r := srRoute f
  p :: ((List.range (srIndex r)).map (srEntry r)).reverse

/-- A flit that this chip originates (R473). -/
def State.ownFlit (s : State) (typ dst vc seg : Nat) (payload : List Byte) : Flit :=
  { typ := typ, dst := dst, src := s.get F.FAB_NODE_NODE_ID 0, seq := 0, vc := vc, mc := false, sr := false, seg := seg,
    ttl := s.get F.FAB_CTRL_TTL 0, crcOk := true, payload := payload }

/-- The Porch that the table gives for a destination (R472): the entries for 0, for 255 and for the chip's own
NODE_ID are not used. -/
def State.tableRoute (s : State) (d : Nat) : Option Nat :=
  if d = 0 ∨ d = 255 ∨ d = s.get F.FAB_NODE_NODE_ID 0 then none
  else if s.on (rtValid d) (d / 8) then some (s.get (rtPorch d) (d / 8)) else none

/-- A flit of this chip sent toward its destination (R471-R477): a reply goes back out of the Porch its
request came in on while the table is not in force. -/
def State.sendOwn (s : State) (arrival : Option Nat) (f : Flit) : State :=
  if f.sr then
    let r := srRoute f
    let q := srEntry r (srIndex r)
    if s.inService q then s.sendOut q (withRoute f (r + 2 ^ 6)) else s.incSat F.FAB_DROP_NOROUTE 0
  else if !s.on F.FAB_NODE_RT_VALID 0 then
    let q := arrival.getD (s.get F.FAB_NODE_HOME_PORCH 0)
    if s.inService q then s.sendOut q f else s.incSat F.FAB_DROP_NOROUTE 0
  else
    match s.tableRoute f.dst with
    | some q => if s.inService q then s.sendOut q f else s.incSat F.FAB_DROP_NOROUTE 0
    | none => s.incSat F.FAB_DROP_NOROUTE 0

/-- A reply flit of the router: source-routed when its request was (R475). -/
def State.replyFlit (s : State) (p : Nat) (req : Flit) (typ seg : Nat) (body : List Byte) : State :=
  if req.sr then
    if 38 ≤ srIndex (srRoute req) then s.incSat F.FAB_DROP2_BAD_SR 0
    else s.sendOwn (some p) { s.ownFlit typ 0 1 seg (leBytes 16 (srMake (srBack req p)) ++ body) with sr := true }
  else s.sendOwn (some p) (s.ownFlit typ req.src 1 seg body)

/-- A flit dropped for want of a route or by TTL (R478): reason 1 no valid entry, 2 TTL, 3 Porch not in
service. -/
def State.noRoute (s : State) (p reason : Nat) (f : Flit) : State :=
  let s1 := if reason = 2 then s.incSat F.FAB_DROP_TTL 0 else s.incSat F.FAB_DROP_NOROUTE 0
  if f.vc = 0 then
    s1.replyFlit p f 0x16 0 (leBytes 1 (s.get F.FAB_NODE_NODE_ID 0) ++ leBytes 1 reason ++ zeros 2 ++ leBytes 8 (flitHeader f)
      ++ sliceB f.payload 0 32)
  else s1

/-- A flit forwarded out of a Porch (R473, R478). -/
def State.forward (s : State) (p q : Nat) (f : Flit) : State :=
  if !s.inService q then s.noRoute p 3 f
  else if f.ttl ≤ 1 then s.noRoute p 2 f
  else s.sendOut q { f with ttl := f.ttl - 1 }

/-- A source-routed flit forwarded by its route (R474): the NOROUTE of a drop answers the flit as it came. -/
def State.forwardSr (s : State) (p : Nat) (f : Flit) : State :=
  let r := srRoute f
  let q := srEntry r (srIndex r)
  if !s.inService q then s.noRoute p 3 f
  else if f.ttl ≤ 1 then s.noRoute p 2 f
  else s.sendOut q { withRoute f (srAdvance r p) with ttl := f.ttl - 1 }

/-! ## Discovery -/

/-- DISCOVER_REPLY (R483): two flits along the recorded hops. -/
def State.discoverReply (s : State) (p : Nat) (f : Flit) : State :=
  let hops := fieldB f.payload 2 1
  let back := p :: ((List.range hops).map (fun j => (nthD f.payload (4 + j) 0).toNat % 8)).reverse
  let sids := (allPorches.map (fun q => leBytes 8 (if s.inService q then s.partnerSid q else 0))).flatten
  let data := leBytes 8 s.sid ++ leBytes 1 (s.get F.FAB_NODE_NODE_ID 0) ++ leBytes 1 s.mode ++ leBytes 1 p ++ leBytes 1 hops
    ++ sliceB f.payload 4 38 ++ zeros 2 ++ sids
  let flit (fidx seg : Nat) (l : List Byte) : Flit :=
    { s.ownFlit 0x11 0 1 seg (leBytes 16 (srMake back) ++ sliceB f.payload 0 2 ++ leBytes 1 fidx ++ zeros 1 ++ l) with sr := true }
  (s.sendOwn (some p) (flit 0 1 (data.take 96))).sendOwn (some p) (flit 1 3 (data.drop 96))

/-- A DISCOVER as forwarded out of a Porch (R482): its hop is recorded; none at 37 hops. -/
def discoverCopy (p q : Nat) (f : Flit) : Option Flit :=
  let hops := fieldB f.payload 2 1
  if 37 ≤ hops then none
  else
    let l := sliceB f.payload 0 42
    some { f with payload := spliceB (spliceB l (4 + hops) (leBytes 1 (p + 8 * q))) 2 (leBytes 1 (hops + 1)) }

/-- An ASSIGN delivered (R484, R486). -/
def State.assign (s : State) (p : Nat) (f : Flit) : State :=
  let b := flitBody f
  let node := fieldB b 8 1
  let refuse : Nat :=
    if s.get F.FAB_NODE_NODE_ID 0 ≠ 0 ∧ f.src ≠ s.get F.FAB_NODE_HOST_NODE 0 then 3
    else if fieldB b 0 8 ≠ s.sid then 1
    else if node = 255 then 2
    else 0
  let s1 :=
    if refuse ≠ 0 then s
    else if node = 0 then (s.put F.FAB_NODE_NODE_ID 0 0).setB F.FAB_NODE_RT_VALID 0 false
    else
      let t := ((s.put F.FAB_NODE_NODE_ID 0 node).put F.FAB_NODE_HOST_NODE 0 (fieldB b 9 1)).put F.FAB_CTRL_TTL 0 (fieldB b 10 1)
      (t.put F.FAB_NODE_HOME_PORCH 0 p).setB F.FAB_NODE_RT_VALID 0 false
  s1.replyFlit p f 0x13 0 (leBytes 1 refuse ++ zeros 7 ++ leBytes 8 s1.sid)

/-- One word of a ROUTE_SET (R485). -/
def State.routeWord (s : State) (n v : Nat) : State :=
  if n < 32 then
    (List.range 8).foldl (fun t j => (t.put (rtPorch j) n (bits v (4 * j) 3)).setB (rtValid j) n (bit v (4 * j + 3))) s
  else if n < 48 then (s.put F.FAB_MC_PORCHES (n - 32) (bits v 0 8)).setB F.FAB_MC_LOCAL (n - 32) (bit v 8)
  else (s.setB F.FAB_NODE_RT_VALID 0 (bit v 0)).put F.FAB_CTRL_TTL 0 (bits v 8 8)

/-- A ROUTE_SET delivered (R485, R486). A word that COUNT announces and the flit does not carry is not written. -/
def State.routeSet (s : State) (p : Nat) (f : Flit) : State :=
  let b := flitBody f
  let first := fieldB b 0 1
  let n := fieldB b 1 1
  let carried := min n ((b.length - 4) / 4)
  let refuse : Nat :=
    if s.get F.FAB_NODE_NODE_ID 0 ≠ 0 ∧ f.src ≠ s.get F.FAB_NODE_HOST_NODE 0 then 3
    else if 49 < first + n then 4 else 0
  let s1 := if refuse = 0 then s.each (List.range carried) (fun t j => t.routeWord (first + j) (fieldB b (4 + 4 * j) 4)) else s
  s1.replyFlit p f 0x15 0 (leBytes 1 refuse)

/-! ## Messages -/

/-- The data bytes that an opcode needs (R493, R499). -/
def needBytes (op : Nat) (d : List Byte) : Nat :=
  match op with
  | 0x21 => 8 + 8 * fieldB d 0 1
  | 0x22 => 8 + 16 * fieldB d 0 1
  | 0x23 => 16
  | 0x24 => 16 + fieldB d 8 4
  | 0x25 => 8 + fieldB d 4 4
  | 0x26 => 8
  | 0x27 => 8
  | 0x28 => 8
  | 0x29 => 16
  | 0x2A => 8
  | 0x2B => 64
  | 0x2C => 8
  | 0x2D => 16
  | 0x2E => 16
  | 0x30 => 1
  | 0x31 => 20
  | 0x32 => 1
  | 0x33 => 2
  | 0x36 => 4 + 4 * fieldB d 2 1
  | 0x37 => 2
  | 0x38 => 1
  | 0x39 => 2
  | 0x3A => 8
  | 0x3B => 12
  | _ => 0

/-- A whole message at the local port (R493, R494, R505): accepted, or answered at once. -/
def State.message (s : State) (h : Hdr) (op : Nat) (data : List Byte) : State :=
  match s.portPhase with
  | 1 => s.answerErr h op stINRESET 0
  | 2 => s
  | _ =>
    if data.length < needBytes op data then s.answerErr h op stLENGTH 0
    else if 32 ≤ s.accepted.length then s.answerErr h op stBUSY 0
    else { s with accepted := s.accepted ++ [⟨h.src, h.tag, op⟩] }

/-- The message of a source and tag dropped from assembly. -/
def State.asmDrop (s : State) (src tag : Nat) : State :=
  { s with asm := s.asm.filter (fun a => !(a.src == src && a.tag == tag)) }

/-- A request flit at the local port (R491, R493). -/
def State.assemble (s : State) (f : Flit) : State :=
  let b := flitBody f
  let tag := fieldB b 0 2
  let fidx := fieldB b 2 1
  let data := b.drop 4
  let h : Hdr := ⟨f.src, tag⟩
  if f.seg = 0 ∨ f.seg = 1 then
    let s1 := s.asmDrop f.src tag
    if fidx ≠ 0 ∨ b.length < 4 then s1.answerErr h f.typ stLENGTH 0
    else if f.seg = 0 then s1.message h f.typ data
    else if 8 ≤ s1.asm.length then s1.answerErr h f.typ stBUSY 0
    else { s1 with asm := s1.asm ++ [(⟨f.src, tag, f.typ, 1, data⟩ : Assembly)] }
  else
    match s.asm.find? (fun a => a.src == f.src && a.tag == tag) with
    | none => s
    | some a =>
      let s1 := s.asmDrop f.src tag
      if fidx ≠ a.fidx ∨ (f.seg = 2 ∧ 63 ≤ a.fidx) ∨ 64 ≤ a.fidx then s1.answerErr h a.op stLENGTH 0
      else if f.seg = 3 then s1.message h a.op (a.data ++ data)
      else { s1 with asm := s1.asm ++ [{ a with fidx := a.fidx + 1, data := a.data ++ data }] }

/-- A flit delivered to this chip: the router handles discovery itself (R451), and requests go to the local
port. -/
def State.deliver (s : State) (p : Nat) (f : Flit) : State :=
  if f.typ = 0x10 then s.discoverReply p f
  else if f.typ = 0x12 then s.assign p f
  else if f.typ = 0x14 then s.routeSet p f
  else if 0x20 ≤ f.typ ∧ f.typ ≤ 0x4F then s.assemble f
  else s

/-- A broadcast (R476, R482): the first copy is delivered and sent on, and each copy counts as seen. -/
def State.broadcast (s : State) (p : Nat) (f : Flit) : State :=
  let id := fieldB f.payload 0 2
  let live := s.bcasts.filter (fun b => decide (s.now < b.t + 10 * ms))
  let seen := live.any (fun b => b.src == f.src && b.id == id)
  let s1 := { s with bcasts := live.filter (fun b => !(b.src == f.src && b.id == id)) ++ [(⟨f.src, id, s.now⟩ : BcastSeen)] }
  if seen then s1
  else
    let s2 := (allPorches.filter (fun q => q != p && s1.inService q)).foldl (fun t q =>
      match (if f.typ = 0x10 then discoverCopy p q f else some f) with
      | none => t
      | some c => t.forward p q c) s1
    s2.deliver p f

/-- The router on a flit that arrives on a Porch (R471-R478, R481). -/
def State.route (s : State) (p : Nat) (f : Flit) : State :=
  let node := s.get F.FAB_NODE_NODE_ID 0
  if f.src = node ∧ node ≠ 0 ∧ ¬(f.sr = true ∧ f.vc = 1) then (s.incSat F.FAB_CONFLICT_COUNT 0).put F.FAB_CONFLICT_PORCH 0 p
  else if f.sr then
    let r := srRoute f
    if srCount r = 0 ∨ 38 < srCount r ∨ srCount r < srIndex r then s.incSat F.FAB_DROP2_BAD_SR 0
    else if srIndex r = srCount r then s.deliver p f
    else s.forwardSr p f
  else if f.dst = 255 ∧ f.mc = false then s.broadcast p f
  else if f.mc then
    let g := f.dst % 16
    let outs := (bitsOf 8 (s.get F.FAB_MC_PORCHES g)).filter (fun q => q != p)
    let s1 := outs.foldl (fun t q => t.forward p q f) s
    if s.on F.FAB_MC_LOCAL g then s1.deliver p f else s1
  else if f.dst = node ∧ node ≠ 0 then s.deliver p f
  else if !s.on F.FAB_NODE_RT_VALID 0 then s.noRoute p 1 f
  else
    match s.tableRoute f.dst with
    | none => s.noRoute p 1 f
    | some q => s.forward p q f

/-- The LINK_INFO that a payload carries (R464). -/
def parseInfo (l : List Byte) : LinkInfo :=
  { sid := fieldB l 0 8, node := fieldB l 8 1, porch := ⟨fieldB l 9 1 % 8, Nat.mod_lt _ (by decide)⟩,
    fresh := bit (fieldB l 10 1) 0, pam4Ok := bit (fieldB l 10 1) 1, expected := fieldB l 12 2 % 4096,
    buf0 := fieldB l 14 1, buf1 := fieldB l 15 1, buf2 := fieldB l 16 1 }

/-- A flit that the link layer has accepted (R451, R471). -/
def State.flitAccepted (s : State) (p : Nat) (f : Flit) : State :=
  if typeVc f.typ ≠ some f.vc ∨ 116 < f.payload.length then s.incSat F.FAB_DROP2_BADTYPE 0
  else
    match f.typ with
    | 0 => s
    | 1 => s.retryReq p (fieldB f.payload 0 2 % 4096)
    | 2 => s.linkInfo p (parseInfo f.payload)
    | 3 => s.leave p
    | 4 => s.quietReq p true
    | 5 => s.quietAck p (fieldB f.payload 0 1 != 1)
    | 6 => s.deepReq p true
    | 7 => s.deepAck p
    | _ => s.route p f

/-- FLIT_RECEIVE (R453, R454). -/
def State.flitReceive (s : State) (p : Nat) (f : Flit) : State :=
  if !(s.carries p || s.porch p == pLEAVING) then s
  else if !f.crcOk then (s.incSat F.PORCH_ERR_CRC p).retryWait p
  else if f.typ ≤ 2 then s.flitAccepted p f
  else
    let exp := s.get H.RX_EXP p
    let d := (f.seq % 4096 + 4096 - exp) % 4096
    if d = 0 then
      let s1 := (((s.put H.RX_EXP p (exp + 1)).setB H.RX_WAIT p false).put H.RX_REQS p 0).noDue H.RX_REQ_T p
      s1.flitAccepted p f
    else if s.on H.RX_WAIT p ∨ 2048 ≤ d then s
    else s.retryWait p

/-- EVENT_SEND (R477, R508, R509): the oldest event leaves once a route and a credit allow it. -/
def State.eventSend (s : State) : State :=
  match s.events with
  | [] => s
  | e :: rest =>
    let host := s.get F.FAB_NODE_HOST_NODE 0
    let out : Option Nat := if s.on F.FAB_NODE_RT_VALID 0 then s.tableRoute host else some (s.get F.FAB_NODE_HOME_PORCH 0)
    match out with
    | none => s
    | some q =>
      if s.get F.FAB_NODE_NODE_ID 0 = 0 ∨ s.inService q = false ∨ s.hasCredit q 2 = false ∨ (firstVc (s.outQ q) 2).isSome = true then s
      else
        ({ s with events := rest }).sendOut q (s.ownFlit 0x80 host 2 0
          (leBytes 2 e.code ++ leBytes 2 e.seq ++ leBytes 1 e.data.length ++ zeros 3 ++ leBytes 8 e.ts ++ e.data))

end Sys2Proof.Machine
end

