-- ==== Sys2Proof/Machine/Modes.lean ====
section
/-!
DEFINITION. Output removal in its order (R74), engine power and stores (R264, R269), and the operating
modes: transitions, SLEEP and wake, throttle holds (R109-R124).
-/

namespace Sys2Proof.Machine

/-! ## Output removal -/

/-- When the next stage of a removal is due. -/
def safeDue (q : SafeSeq) : Nat := q.t0 + safeStageTime q.stage

/-- The removal whose next stage is due first. -/
def State.safeFirst (s : State) : Option SafeSeq :=
  s.safe.foldl (fun (o : Option SafeSeq) q =>
    match o with
    | none => some q
    | some x => if safeDue q < safeDue x then some q else some x) none

/-- A list with the first element equal to x replaced. -/
def replaceSeq (x y : SafeSeq) : List SafeSeq → List SafeSeq
  | [] => []
  | q :: l => if q = x then y :: l else q :: replaceSeq x y l

/-- SAFE_STATE_SEQUENCE (R74): the stage that is due first acts; the last one ends the removal, and an
unbind that waited for it takes effect (R293). -/
def State.safeStep (s : State) : State :=
  match s.safeFirst with
  | none => s
  | some q =>
    let s1 := (s.upTo (safeDue q)).safeStage q.scope q.stage
    if q.stage < 3 then { s1 with safe := replaceSeq q { q with stage := q.stage + 1 } s1.safe }
    else
      let s2 := { s1 with safe := s1.safe.erase q }
      let s3 := match q.unbind with | none => s2 | some i => s2.unbindSite i
      match q.answer with | none => s3 | some h => s3.answerOk h 0x2C []

/-- Every stage that is due by a moment acts. -/
def State.safeUntil (s : State) (t : Nat) : Nat → State
  | 0 => s
  | n + 1 =>
    match s.safeFirst with
    | none => s
    | some q => if safeDue q ≤ t then s.safeStep.safeUntil t n else s

/-- Every removal in progress reaches its end, its stages acting in their order. -/
def State.safeFinish (s : State) : Nat → State
  | 0 => s
  | n + 1 => if s.safe.isEmpty then s else s.safeStep.safeFinish n

/-! ## Engine power -/

/-- State of an engine that its reset clears and no register shows. -/
def engHidden : List Field :=
  [H.ENG_FLAGS, H.ENG_RESULT, H.ENG_RESSTAT, H.ENG_BIN, H.ENG_TNOW_HI, H.ENG_VEC_HI, H.ENG_TCAUSE, H.ENG_ATOM_N, H.ENG_WAIT,
   H.ENG_WAIT_UNIT, H.ENG_WAIT_QTY, H.ENG_WAIT_END, H.ENG_WAIT_DONE, 
   H.ENG_TASK_SITE, H.ENG_TASK_RUN, H.ENG_TASK_DEQUE, H.ENG_TASK_T0, H.ENG_ABORT, H.ENG_ABORT_END,
   H.ENG_START_PEND, H.ENG_START_CUT, H.ENG_STEPPING, H.ENG_STAGE, 
   H.ENG_TASK_D, H.ENG_TASK_RAN, H.ENG_WAIT_IMM, H.ENG_LD_ON, H.ENG_NEXT, H.ENG_PRE_STOP, H.ENG_BRK_SKIP, H.ENG_WAIT_IDX]

/-- Arrays of an engine with 16 places each. -/
def engArrays16 : List Field :=
  [H.ENG_RSTK, H.ENG_FRAME, H.ENG_FW_UNIT, H.ENG_FW_QTY, H.ENG_FW_IMM, H.ENG_FW_NEXT, H.ENG_FW_IDX, H.ENG_FW_PC]

/-- Registers of the engine block. -/
def engRegs : List Field := (regsENG.map RegName.fields).flatten

/-- The control store of an engine filled with zero words (R264). -/
def State.csClear (s : State) (k : Nat) : State :=
  { s with cstore := s.cstore.filter (fun p => p.1 / 4096 != k) }

/-- H2E of an engine flushed (R515). -/
def State.h2eFlush (s : State) (k : Nat) : State :=
  if (qGet s.h2e k).isEmpty then s
  else { s with h2e := qSet s.h2e k [] }.setB F.MBX_ENG_STAT_FLUSHED k true

/-- Numbers of the fields that an engine has one of. -/
def engIds : List Nat := (engRegs ++ engHidden).map (fun f => f.id.val)

/-- Numbers of the engine's arrays of 16 places. -/
def engArrayIds : List Nat := engArrays16.map (fun f => f.id.val)

/-- A key of the field file belongs to engine k. -/
def engOwns (k key : Nat) : Bool :=
  let id := key % 2048
  let i := key / 2048
  if id = H.ENG_G.id.val then i / 64 == k
  else if id = H.ENG_L.id.val then i / 4 == k
  else (i == k && engIds.contains id) || (i / 16 == k && engArrayIds.contains id)

/-- An engine loses its contents (R72, R264): registers, store, queues; source numbers that it has not
taken are lost (R592). -/
def State.engReset (s : State) (k : Nat) : State :=
  let s4 := { s with ff := s.ff.filter (fun p => !engOwns k p.1) }
  let s5 := (s4.csClear k).addSat F.IRQ_ENG_LOST_COUNT 0 (qGet s4.evq k).length
  let s6 := { s5 with cmdq := qSet s5.cmdq k [], memq := qSet s5.memq k [], refused := qSet s5.refused k [],
                      memErrs := qSet s5.memErrs k [], evq := qSet s5.evq k [] }
  (s6.semFreeAll k).h2eFlush k

/-- Words written to the control store of an engine from a word on. -/
def State.csLoad (s : State) (k first : Nat) (words : List Nat) : State :=
  s.each words.zipIdx (fun t p => t.csPut k (first + p.2) p.1)

/-- n 16-byte words in a list of bytes from an offset. -/
def wordsAt (l : List Byte) (off n : Nat) : List Nat := (List.range n).map (fun j => fieldB l (off + 16 * j) 16)

/-- FIRST and the words of a ROOM_CS body (R267). -/
def csFirst (l : List Byte) : Nat := fieldB l 6 2
def csWords (l : List Byte) : List Nat := wordsAt l 0x20 (fieldB l 8 2)

/-- The store of an engine loaded again from Hearth's copies, oldest first (R269). -/
def State.csReload (s : State) (k : Nat) : State :=
  s.each (s.csBodies.filter (fun b => bit b.engines k)) (fun t b => t.csLoad k (csFirst b.bytes) (csWords b.bytes))

/-- STEAL_EN of an engine by the site map (R281, R292). -/
def State.stealOf (s : State) (k : Nat) : Bool :=
  match (s.engSite k).bind s.entryOf with
  | none => bit (s.get H.SITE_FREE 0) k
  | some e => bit e.flags 0

/-- An engine begins anew after a reset or a power-up of its group (R269, R292, R513). -/
def State.engBegin (s : State) (k : Nat) : State :=
  (((s.engReset k).incW F.MBX_ENG_STAT_ENG_EPOCH k).csReload k).setB F.ENG_CTRL_STEAL_EN k (s.stealOf k)

/-- A group of engines powered up (R39, R516). -/
def State.groupOn (s : State) (g : Nat) : State :=
  if s.on H.PD_ENG g then s
  else (s.setB H.PD_ENG g true).each ((List.range 8).map (fun j => 8 * g + j)) (fun t k => (t.engBegin k).engIdle k)

/-- A group of engines powered down. -/
def State.groupOff (s : State) (g : Nat) : State :=
  (s.each ((List.range 8).map (fun j => 8 * g + j)) State.engReset).setB H.PD_ENG g false

/-- Group numbers. -/
def allGroups : List Nat := List.range 8

/-- The autorun routine started on an engine (R284-R286): its words from its section in the Cellar, its
base, G0 and G1. -/
def State.autoStart (s : State) (k g1 : Nat) : State :=
  let base := s.get H.ENG_AUTO_BASE k
  let l := s.celRaw (celOff base) 0x20
  let body := s.celRaw (celOff base) (0x20 + 16 * fieldB l 0xA 2)
  let s1 := s.csLoad k (fieldB l 8 2) (wordsAt body 0x20 (fieldB l 0xA 2))
  let s2 := (s1.put F.ENG_CEL_BASE_LO_BASE_LO k (base / 4096)).put F.ENG_CEL_BASE_HI_BASE_HI k (base / 2 ^ 32)
  let s3 := (s2.put H.ENG_G (k * 64) (s.get H.ENG_AUTO_G0 k)).put H.ENG_G (k * 64 + 1) g1
  (s3.engFresh k (s.get H.ENG_AUTO_FIRST k)).setB F.ENG_STAT_AUTORUN k true

/-- The autorun engine, if the image set one. -/
def State.autoEngine (s : State) : Option Nat := (List.range 64).find? (fun k => s.on H.ENG_AUTO_ON k)

/-! ## Mode changes -/

/-- MODE changes (R110): the status with the previous mode named, the entry time and, but for HOLD, the
event. -/
def State.enterMode (s : State) (m cause prev : Nat) : State :=
  let s1 := ((s.put F.MODE_STAT_PREV_MODE 0 prev).put F.MODE_STAT_MODE 0 m).put F.MODE_STAT_TARGET 0 m
  let s2 := (s1.setB F.MODE_STAT_TRANSIT 0 false).noDue H.MODE_END 0
  let s3 := s2.put2 F.MODE_ENTRY_LO_TS_LO F.MODE_ENTRY_HI_TS_HI 0 s.ts
  if m = mHOLD then s3
  else s3.event 0x0102 (leBytes 1 m ++ leBytes 1 prev ++ leBytes 1 cause ++ zeros 5 ++ leBytes 8 s.ts)

/-- MODE changes from the mode in force. -/
def State.setMode (s : State) (m cause : Nat) : State := s.enterMode m cause s.mode

/-- A transition begins (R112). -/
def State.modeBegin (s : State) (target time cause : Nat) : State :=
  (((s.setB F.MODE_STAT_TRANSIT 0 true).put F.MODE_STAT_TARGET 0 target).setDue H.MODE_END 0 (s.now + time)).put H.MODE_CAUSE 0 cause

/-- MODE is a request that R112 allows: in STANDBY or RUN, with no transition in progress (R113). -/
def legalMode (s : State) : Bool := s.modeIn [mSTANDBY, mRUN] && !s.on F.MODE_STAT_TRANSIT 0

/-- Outputs of the IDLE and ENDED sites begin to go safe. -/
def State.idleSafe (s : State) : State :=
  s.each (allSites.filter (fun i => s.siteState i == sIDLE || s.siteState i == sENDED)) State.siteOutSafe

/-- Entry to SLEEP begins (R391, R415, R469): TDCs disarm, captures end, and each Porch in service asks
for DEEP. -/
def State.sleepBegin (s : State) : State :=
  let s1 := s.each (List.range 128) (fun t j => (t.tdcDisarm j 3).tdcDrain j)
  let s2 := s1.each (List.range 96) State.acqCancel
  s2.each allPorches (fun t p => t.deepReq p false)

/-- Who answers at the end of the transition. -/
def State.modeAsker (s : State) (h : Hdr) : State := (s.put H.MODE_SRC 0 (h.src + 1)).put H.MODE_TAG 0 h.tag

/-- The cause that a MODE event gives for a command: the autorun routine's or the host's (R110). -/
def State.askCause (s : State) (h : Hdr) : Nat :=
  if 256 ≤ h.src && s.on F.ENG_STAT_AUTORUN (h.src - 256) then 1 else 0

/-- MODE (R112, R113, R499). -/
def State.modeCommand (s : State) (h : Hdr) (target : Nat) : State :=
  s.serve h 0x30 legalMode [] (fun s =>
    if target ≠ 2 ∧ target ≠ 3 ∧ target ≠ 6 then s.answerErr h 0x30 stARG 0
    else if s.mode = mSTANDBY ∧ target = mRUN then (s.modeBegin mRUN (20 * us) (s.askCause h)).modeAsker h
    else if s.mode = mSTANDBY ∧ target = mSLEEP then (s.sleepBegin.modeBegin mSLEEP (2 * ms) (s.askCause h)).modeAsker h
    else if s.mode = mRUN ∧ target = mSTANDBY ∧ s.anyActive = false then
      (s.idleSafe.modeBegin mSTANDBY (30 * us) (s.askCause h)).modeAsker h
    else s.answerWrong h 0x30)

/-- The reply to the MODE command leaves. -/
def State.modeAnswer (s : State) : State :=
  match s.get H.MODE_SRC 0 with
  | 0 => s
  | n + 1 => (s.answerOk ⟨n, s.get H.MODE_TAG 0⟩ 0x30 []).put H.MODE_SRC 0 0

/-- The device sleeps (R112, R543): the engines are off and the Cellar is in self-refresh. -/
def State.sleepEnter (s : State) : State := (s.each allGroups State.groupOff).setB F.CEL_CFG_SELF_REF 0 true

/-- The device is awake again (R112, R269, R286). -/
def State.wakeEnd (s : State) : State :=
  let s1 := (s.setB F.CEL_CFG_SELF_REF 0 false).each allGroups State.groupOn
  match s1.autoEngine with
  | none => s1
  | some k => s1.autoStart k 1

/-- Stealing engines that rest begin their idle routines (R111, R281). -/
def State.idleStart (s : State) : State := s.each (List.range 64) State.engIdleStart

/-- Engines that run nothing but their idle routines stand in STANDBY (R111). -/
def State.idleStop (s : State) : State :=
  s.each ((List.range 64).filter (fun k => s.engState k == eRUN && s.on F.ENG_CTRL_STEAL_EN k && s.engFree k
    && !s.on F.ENG_STAT_AUTORUN k && !s.on F.ENG_STAT_TASK_HELD k)) (fun t k => (t.put F.ENG_STAT_STATE k eIDLE).engNoWait k)

/-- MODE_TRANSITION_DONE (R112): the time of the transition is over, and MODE shows the new mode. -/
def State.modeDone (s : State) : State :=
  match s.due H.MODE_END 0 with
  | none => s
  | some t =>
    let s1 := (s.safeUntil t 256).upTo t
    let target := s.get F.MODE_STAT_TARGET 0
    let s2 := if target = mSLEEP then s1.sleepEnter else if s.mode = mSLEEP then s1.wakeEnd else s1
    let s3 := s2.setMode target (s.get H.MODE_CAUSE 0)
    (if s3.stealModes then s3.idleStart else if target = mSTANDBY then s3.idleStop else s3).modeAnswer

/-- WAKE (R112, R469): the chip leaves SLEEP, and its lanes leave DEEP beside it. -/
def State.wakeUp (s : State) : State :=
  if s.mode = mSLEEP ∧ s.on F.MODE_STAT_TRANSIT 0 = false then
    (s.each allPorches State.deepWake).modeBegin mSTANDBY (2 * ms) 3
  else s

/-- A source raised now would begin a reaction in progress (R579, R581): what wakes the chip (R112). -/
def State.faultNotes (s : State) (n : Nat) : Bool := decide (2 ≤ s.react n) && !s.on F.FLT_SUM_BUSY 0

/-- A fault source whose reaction needs Hearth wakes the chip (R112, R579). -/
def State.wakeIf (s : State) (b : Bool) : State := if b then s.wakeUp else s

end Sys2Proof.Machine
end

