-- ==== Sys2Proof/Machine/Calibration.lean ====
section
/-!
DEFINITION. Calibration flows and CAL bodies (R426-R438): which units a flow owns, how its values are
judged and taken, and how CALIBRATE is entered and left.
-/

namespace Sys2Proof.Machine

/-! ## Units of a flow -/

/-- The units that a flow names and takes, in the order of the reply (R430, R499). -/
def flowUnits (flow : Nat) (a : CalArgs) : List Nat :=
  let ch := bitsOf 64 a.chan
  let td := (bitsOf 16 a.tdc).map (76 + ·)
  match flow with
  | 1 => ch
  | 2 => ch ++ td
  | 3 => ch ++ td
  | 4 => (bitsOf 8 a.dps).map (64 + ·)
  | 5 => (bitsOf 4 a.smu).map (72 + ·)
  | 6 => td
  | _ => (bitsOf 20 a.mon).map (92 + ·)

/-- A unit's owned flag. -/
def State.calOwn (s : State) (t u : Nat) (b : Bool) : State :=
  let i := calLocal u
  match calKind u with
  | 1 => s.setB H.CH_CAL_OWNED (t * 64 + i) b
  | 2 => s.setB H.DPS_CAL_OWNED (t * 8 + i) b
  | 3 => s.setB H.SMU_CAL_OWNED (t * 4 + i) b
  | 4 => s.setB H.TDC_CAL_OWNED (t * 16 + i) b
  | _ => s

/-- A flow takes a unit (R391, R430). -/
def State.flowTake (s : State) (t u : Nat) : State :=
  let s1 := if calKind u = 4 then (s.tdcDisarm (t * 16 + calLocal u) 2).tdcDrain (t * 16 + calLocal u) else s
  s1.calOwn t u true

/-- A flow releases a unit: its output returns to the safe state (R112). -/
def State.flowRelease (s : State) (t u : Nat) : State :=
  let s1 := s.calOwn t u false
  match calKind u with
  | 1 => s1.chSafe (t * 64 + u)
  | 2 => s1.dpsStageOff (t * 8 + calLocal u)
  | 3 => s1.smuSafe (t * 4 + calLocal u)
  | _ => s1

/-- A CALIBRATE command is refused for a unit: a flow owns it, or its site is RUNNING or PAUSED (R112,
R437). -/
def State.flowBarred (s : State) (t u : Nat) : Bool :=
  s.calOwned t u || (match s.calSite t u with | none => false | some i => s.active i)

/-! ## Pending values -/

/-- A pending monitor value takes effect as a threshold write (R436). -/
def State.calTakeMon (s : State) (t : Nat) (p : PendCorr) : State :=
  let i := t * 20 + calLocal p.unit
  (s.calTake t p).monSettle (s.calTake t p) i 3 (s.monHi i) (s.monLo i)

/-- A pending value takes effect, whatever its unit. -/
def State.calTakeAny (s : State) (t : Nat) (p : PendCorr) : State :=
  if calKind p.unit = 5 then s.calTakeMon t p else s.calTake t p

/-- A monitor value may take effect now (R435): its site is no longer active or held, it has none, or with
PERIOD at 0 its watched output is off. -/
def State.calMonReady (s : State) (t : Nat) (p : PendCorr) : Bool :=
  let i := t * 20 + calLocal p.unit
  decide (92 ≤ p.unit) && !s.calOwned t p.unit
    && (match s.calSite t p.unit with
        | none => true
        | some k => s.siteStill k || (s.get F.MON_PERIOD_US i == 0 && s.monUnitOff i))

/-- CORRECTION_APPLY (R435, R436): every pending value of a tile whose boundary has come. -/
def State.calApplyReady (s : State) (t : Nat) : State :=
  let l := qGet s.corrPend t
  let ready := l.filter (fun p => s.calReady t p || s.calMonReady t p)
  let s1 := { s with corrPend := qSet s.corrPend t (l.filter (fun p => !(s.calReady t p || s.calMonReady t p))) }
  ready.foldl (fun u p => u.calTakeAny t p) s1

/-- A period boundary of a monitor (R369, R435): its pending value takes effect. -/
def State.calMonPeriod (s : State) (i : Nat) : State :=
  let t := i / 20
  let l := qGet s.corrPend t
  let mine (p : PendCorr) : Bool := p.unit == 92 + i % 20 && !s.calOwned t p.unit
  let s1 := { s with corrPend := qSet s.corrPend t (l.filter (fun p => !mine p)) }
  (l.filter mine).foldl (fun u p => u.calTakeMon t p) s1

/-! ## Flows -/

/-- Tile Tj in whole degrees, as TCAL_TJ holds it (R438). -/
def State.tileTj (s : State) (t : Nat) : Nat :=
  (((tileSensors t).map (fun n => s.getI F.THM_TEMP_READING n)).foldl max 0 / 4).toNat

/-- The values a flow produced, laid over those the unit will have (R430). -/
def flowImage (flow u band : Nat) (old x : List Byte) : List Byte :=
  match flow with
  | 1 => spliceB old 0 (x.take 64)
  | 2 => if calKind u = 1 then spliceB old 64 (x.take 4) else old
  | 3 => if calKind u = 1 then spliceB old 64 (x.take 4) else old
  | 4 => spliceB old 0 (x.take 0x38)
  | 5 => spliceB old 0 (x.take 0x38)
  | 6 => spliceB (spliceB old 0 (x.take 8)) (8 + band) ((x.drop 8).take 1)
  | _ => spliceB old 0 (x.take 10)

/-- The result code of a unit (R433, R434): what the flow met, or IMPLAUSIBLE where its values break a
limit.  A unit that the flow did not reach is STOPPED. -/
def State.flowCode (s : State) (t : Nat) (f : Flow) (u : Nat) (r : Option CalSeen) : Nat :=
  if (f.flow = 1 ∨ f.flow = 4) ∧ sext 16 f.args.vmax < 4000 then 5
  else if f.flow = 7 ∧ s.monUnitOff (t * 20 + calLocal u) = false then 5
  else
    match r with
    | none => 4
    | some x =>
      if x.code ≠ 0 then min x.code 5
      else if calKind u = 4 ∧ f.flow ≠ 6 then 0
      else
        let band := bits (s.get F.THM_BAND_TDC 0) (2 * t) 2
        let img := flowImage f.flow u band (s.calImage t u) x.bytes
        if calNewOk t u f.flow band (fieldB (s.calNow t u) 64 4) img then 0 else 1

/-- The values of a unit that ended OK become pending (R434, R435). -/
def State.flowKeep (s : State) (t : Nat) (f : Flow) (u : Nat) (r : Option CalSeen) : State :=
  match r with
  | none => s
  | some x =>
    if calKind u = 4 ∧ f.flow ≠ 6 then s
    else
      let band := bits (s.get F.THM_BAND_TDC 0) (2 * t) 2
      s.calPend t ⟨u, flowImage f.flow u band (s.calImage t u) x.bytes, f.flow, s.tileTj t⟩

/-- A unit that failed is counted, and the tile's source is raised (R434). -/
def State.calFail (s : State) (t : Nat) : State := (s.incSat F.TCAL_STAT_FAILS t).irq (160 + t)

/-- The 112 result codes of a reply: 0xF for a unit not named (R499). -/
def flowReply (codes : List (Nat × Nat)) : List Byte :=
  let c (u : Nat) : Nat := match codes.find? (fun p => p.1 == u) with | none => 15 | some p => p.2
  (List.range 56).map (fun j => BitVec.ofNat 8 (c (2 * j) + 16 * c (2 * j + 1)))

/-- A flow ends with the codes of its units (R434-R438): failures are counted, units are released, values
whose boundary is the release take effect, and the command is answered. -/
def State.flowEnd (s : State) (t : Nat) (f : Flow) (codes : List (Nat × Nat)) : State :=
  let units := flowUnits f.flow f.args
  let s1 := { s with flows := qSet s.flows t ((qGet s.flows t).erase f) }
  let s2 := s1.each (codes.filter (fun p => p.2 != 0 && p.2 != 4)) (fun u _ => u.calFail t)
  let s3 := (s2.put F.TCAL_STAT_LAST_FLOW t f.flow).put F.TCAL_STAT_LAST_RES t ((codes.map Prod.snd).foldl max 0)
  let s4 := (s3.each units (fun u x => u.flowRelease t x)).calApplyReady t
  s4.answerOk ⟨f.src, f.tag⟩ 0x31 (flowReply codes)

/-- The last flow has ended: the mode it was entered from comes back (R112). -/
def State.calLeave (s : State) : State :=
  if s.mode = mCALIBRATE ∧ s.on F.MODE_STAT_TRANSIT 0 = false ∧ s.flows.isEmpty = true then
    s.modeBegin (s.get H.CAL_FROM 0) (20 * us) 0
  else s

/-- CAL_FLOW_DONE (R434): a flow of a tile ends with what it found. -/
def State.flowDone (s : State) (t flow : Nat) (results : List CalSeen) : State :=
  match (qGet s.flows t).find? (fun f => f.flow == flow) with
  | none => s
  | some f =>
    let seen (u : Nat) : Option CalSeen := results.find? (fun r => r.unit == u)
    let codes := (flowUnits flow f.args).map (fun u => (u, s.flowCode t f u (seen u)))
    let s1 := s.each (codes.filter (fun p => p.2 == 0)) (fun x p => x.flowKeep t f p.1 (seen p.1))
    (s1.flowEnd t f codes).calLeave

/-- A monitor of an owned unit has tripped (R437): the tile's owned units end TRIPPED. -/
def State.flowsTripped (s : State) (t : Nat) : State :=
  ((qGet s.flows t).foldl (fun x f => x.flowEnd t f ((flowUnits f.flow f.args).map (fun u => (u, 3)))) s).calLeave

/-- A monitor watches a unit that a flow owns. -/
def State.monOwned (s : State) (i : Nat) : Bool :=
  if monIsDps i then s.on H.DPS_CAL_OWNED (monDps i) else s.on H.SMU_CAL_OWNED (monSmu i)

/-- Modes in which the calibration group is legal (R120). -/
def legalCal (s : State) : Bool := s.modeIn [mSTANDBY, mRUN, mCALIBRATE, mFACTORY]

/-- CALIBRATE begins in the modes that a flow takes to CALIBRATE (R112). -/
def State.calEnter (s : State) : State :=
  if s.mode = mSTANDBY ∨ s.mode = mRUN then (s.put H.CAL_FROM 0 s.mode).modeBegin mCALIBRATE (20 * us) 0 else s

/-- CALIBRATE (R430, R437, R499). -/
def State.calibrate (s : State) (h : Hdr) (a : CalArgs) : State :=
  s.serve h 0x31 (fun x => legalCal x && !x.on F.MODE_STAT_TRANSIT 0) [] (fun s =>
    if a.flow = 0 ∨ 7 < a.flow ∨ 8 ≤ a.tile then s.answerErr h 0x31 stARG 0
    else
      let units := flowUnits a.flow a
      if s.tileOn a.tile = false ∨ units.any (s.flowBarred a.tile) = true then s.answerWrong h 0x31
      else
        let s1 := s.each units (fun x u => x.flowTake a.tile u)
        ({ s1 with flows := qSet s1.flows a.tile (qGet s1.flows a.tile ++ [(⟨a.flow, a, h.src, h.tag, false⟩ : Flow)]) }).calEnter)

/-- CAL_STOP (R437). -/
def State.calStop (s : State) (h : Hdr) (tile : Nat) : State :=
  s.serve h 0x32 legalCal [] (fun s =>
    if 8 ≤ tile ∧ tile ≠ 0xFF then s.answerErr h 0x32 stARG 0
    else
      let tiles := if tile = 0xFF then List.range 8 else [tile]
      (s.each tiles (fun x t => { x with flows := qSet x.flows t ((qGet x.flows t).map (fun f => { f with stopping := true })) })).answerOk h 0x32 [])

/-! ## CAL bodies -/

/-- The unit that a record's head names, if the head is valid (R427). -/
def recordUnit (l : List Byte) : Option (Nat × Nat) :=
  let t := fieldB l 0 1
  let k := fieldB l 1 1
  let i := fieldB l 2 1
  if t < 8 ∧ 1 ≤ k ∧ k ≤ 5 ∧ i < calCount k ∧ fieldB l 3 1 ≤ 7 ∧ fieldB l 5 1 = 0
      ∧ fieldB l 6 2 = 1 + (calSize (calFirst k) + (if k = 1 then 8 else 0)) / 8 then
    some (t, calFirst k + i)
  else none

/-- One record (R428): taken as pending when it passes, else counted on its tile. -/
def State.calRecord (s : State) (l : List Byte) : State × Bool :=
  match recordUnit l with
  | none => (if fieldB l 0 1 < 8 then s.incSat F.TCAL_STAT_FAILS (fieldB l 0 1) else s, false)
  | some (t, u) =>
    let img := (l.drop 8).take (calSize u + (if calKind u = 1 then 8 else 0))
    if calPlausible t u (fieldB l 3 1) (Config.factoryDsk (t * 64 + u)) img then
      (s.calPend t ⟨u, img, fieldB l 3 1, fieldB l 4 1⟩, true)
    else (s.incSat F.TCAL_STAT_FAILS t, false)

/-- Records in turn: how many were accepted and how many failed. -/
def State.calRecords (s : State) : Nat → List Byte → Nat → Nat → State × Nat × Nat
  | 0, _, ok, bad => (s, ok, bad)
  | n + 1, l, ok, bad =>
    let r := s.calRecord l
    let rest := l.drop (8 * max 1 (fieldB l 6 2))
    if r.2 then r.1.calRecords n rest (ok + 1) bad else r.1.calRecords n rest ok (bad + 1)

/-- What is wrong with a CAL header (R426): 0 nothing, 1 MAGIC or VERSION, 2 a count or a reserved
field. -/
def calHeadBad (l : List Byte) : Nat :=
  if fieldB l 0 4 ≠ 0x4C414354 ∨ fieldB l 4 2 ≠ 1 then 1
  else if fieldB l 6 2 = 0 ∨ 8192 < fieldB l 6 2 ∨ fieldB l 8 8 ≠ 0 then 2
  else 0

/-- The records of a CAL body become pending, and those whose boundary has come take effect. -/
def State.calBody (s : State) (l : List Byte) : State × Nat × Nat :=
  let r := s.calRecords (fieldB l 6 2) (l.drop 16) 0 0
  ((List.range 8).foldl State.calApplyReady r.1, r.2)

/-- The bytes of n records by their LEN8. -/
def recordsLen : Nat → List Byte → Nat
  | 0, _ => 0
  | n + 1, l => 8 * max 1 (fieldB l 6 2) + recordsLen n (l.drop (8 * max 1 (fieldB l 6 2)))

/-- The bytes of a CAL body that stands in the Cellar. -/
def State.calLen (s : State) (o n : Nat) : Nat := 16 + recordsLen n (s.celRaw (o + 16) (80 * n))

/-- The local address that an ADDR argument names (R499): bits [47:40] 0 or the chip's own node ID. -/
def State.argAddr (s : State) (a : Nat) : Option Nat :=
  if a < 2 ^ 48 ∧ (bits a 40 8 = 0 ∨ bits a 40 8 = s.get F.FAB_NODE_NODE_ID 0) then some (a % 2 ^ 40) else none

/-- A body named by an ADDR argument begins in the Cellar window: its offset, where its first n bytes lie
in the window. -/
def State.argBody (s : State) (a n align : Nat) : Option Nat :=
  match s.argAddr a with
  | none => none
  | some x => if s.inWindow x n && x % align == 0 then some (celOff x) else none

/-- CAL_LOAD (R428, R429, R501). -/
def State.calLoad (s : State) (h : Hdr) (addr : Nat) : State :=
  s.serve h 0x2A legalCal [] (fun s =>
    match s.argBody addr 16 1 with
    | none => s.answerErr h 0x2A stARG 0
    | some o =>
      let r := s.celRead clsHearth o 16
      match r.2 with
      | none => r.1.answerErr h 0x2A stACCESS 0
      | some hd =>
        let bad := calHeadBad hd
        if bad ≠ 0 then r.1.answerErr h 0x2A stARG bad
        else
          let b := r.1.celRead clsHearth o (r.1.calLen o (fieldB hd 6 2))
          match b.2 with
          | none => b.1.answerErr h 0x2A stACCESS 0
          | some l =>
            let c := b.1.calBody l
            c.1.answerOk h 0x2A (leBytes 2 c.2.1 ++ leBytes 2 c.2.2))

end Sys2Proof.Machine
end

