-- ==== Sys2Proof/Machine/Loads.lean ====
section
/-!
DEFINITION. Bodies that Hearth loads, from an image section or from the Cellar: pattern images (R198,
R208), segment tables (R209), control stores (R267-R269), LEVELS records (R158-R160), the site map
(R289-R292) and AUTORUN (R285).
-/

namespace Sys2Proof.Machine

/-! ## What a load must not touch -/

/-- Entries that RUNNING and PAUSED sites and their waveform contexts play or have chosen (R209). -/
def State.busyEntries (s : State) : List Nat :=
  let pins := (allSites.filter (fun i => s.active i && s.hasPass i)).map (fun i =>
    [s.curEntry i] ++ (if s.get F.SEQ_CUR_DECIDED i = 0xFFFF then [] else [s.get F.SEQ_CUR_DECIDED i]))
  let waves := ((List.range 32).filter (fun u => s.wavePlays u && s.active (s.waveSite u))).map (fun u =>
    [s.get F.SMUW_CUR_ENTRY u] ++ (if s.get H.SW_DECIDED u = 0 then [] else [s.get H.SW_DECIDED u - 1]))
  (pins ++ waves).flatten

/-- A pattern that the entry of a RUNNING or PAUSED site uses (R208). -/
def State.patBusy (s : State) (p : Nat) : Bool :=
  pdValid (s.patDesc p) && s.busyEntries.any (fun n => sgPat (s.segEntry n) == p)

/-! ## Pattern images -/

/-- What is wrong with a pattern image's header (R198, R501): 0 nothing, 1 MAGIC, VERSION or CRC, 2 a
count or a length. -/
def patHeadBad (l : List Byte) (space : Nat) : Nat :=
  if fieldB l 0 4 ≠ 0x4E525450 ∨ fieldB l 4 2 ≠ 1 ∨ fieldB l 0x3C 4 ≠ crc32c (l.take 0x3C) then 1
  else if fieldB l 6 2 = 0 ∨ 4096 < fieldB l 6 2 ∨ space < fieldB l 8 8 ∨ fieldB l 8 8 < 64 + 64 * fieldB l 6 2 then 2
  else 0

/-- A descriptor of an image passes the checks of R208. -/
def descOk (d : List Byte) (len : Nat) : Bool :=
  let k := pdKind d
  decide (fieldB d 0 2 ≤ 4095) && decide (k ≤ 1)
    && (if k = 1 then pdSlots d == 1 && !pdMarker d else decide (1 ≤ pdSlots d) && decide (pdSlots d ≤ 65))
    && fieldB d 4 1 / 4 == 0 && fieldB d 5 1 == 0 && decide (pdDictN d ≤ 256)
    && (if k = 1 then pdVectors d % 64 == 0 && decide (256 ≤ pdVectors d)
        else pdVectors d % 256 == 0 && decide (1024 ≤ pdVectors d))
    && pdBlocks d == ceilDiv (pdVectors d) (pdVpl d) && pdRate d == pdBytes d * 1000
    && decide (pdDict d + pdDictN d * pdBytes d ≤ len) && decide (pdIndex d + pdBlocks d * 16 ≤ len)
    && decide (pdData d + pdDataLen d ≤ len)

/-- The descriptors of an image. -/
def imageDescs (l : List Byte) (n : Nat) : List (List Byte) := (List.range n).map (fun j => sliceB l (64 * j) 64)

/-- No number stands twice in a list. -/
def allApart : List Nat → Bool
  | [] => true
  | x :: xs => !xs.contains x && allApart xs

/-- A descriptor as it stands in the pattern table (R208). -/
def tableDesc (d : List Byte) (base : Nat) : List Byte :=
  let abs (off : Nat) : List Byte := leBytes 8 (base + fieldB d off 8)
  let dict := if pdDict d = 0 ∧ pdDictN d = 0 then zeros 8 else abs 0x20
  spliceB (spliceB d 5 (leBytes 1 1)) 0x20 (dict ++ abs 0x28 ++ abs 0x30)

/-- How a load ends: done with a count, a failed check with its DETAIL, a busy pattern or entry, an access
without data, or a limit. -/
inductive LoadEnd where
  | done (n : Nat)
  | bad (detail : Nat)
  | busy
  | access
  | limit
  deriving DecidableEq, Repr

/-- The checked descriptors copied to the pattern table (R208). -/
def State.patCopy (s : State) (base : Nat) (ds : List (List Byte)) : State :=
  s.each ds (fun t d =>
    let p := fieldB d 0 2
    (t.dropPattern p).celPut clsHearth (p * 64) (tableDesc d (0x8000000000 + base)))

/-- A pattern image at an offset of the Cellar window, in a space of so many bytes (R208). -/
def State.patLoadAt (s : State) (o space : Nat) : State × LoadEnd :=
  let r := s.celRead clsHearth o 64
  match r.2 with
  | none => (r.1, .access)
  | some hd =>
    let bad := patHeadBad hd space
    if bad ≠ 0 then (r.1, .bad bad)
    else
      let n := fieldB hd 6 2
      let q := r.1.celRead clsHearth (o + 64) (64 * n)
      match q.2 with
      | none => (q.1, .access)
      | some l =>
        let ds := imageDescs l n
        if !ds.all (fun d => descOk d (fieldB hd 8 8)) || !allApart (ds.map (fun d => fieldB d 0 2)) then (q.1, .bad 2)
        else if ds.any (fun d => q.1.patBusy (fieldB d 0 2)) then (q.1, .busy)
        else (q.1.patCopy o ds, .done n)

/-- A load command is answered by how the load ended (R497, R501). -/
def State.loadAnswer (r : State × LoadEnd) (h : Hdr) (op : Nat) (data : Nat → List Byte) : State :=
  match r.2 with
  | .done n => r.1.answerOk h op (data n)
  | .bad d => r.1.answerErr h op stARG d
  | .busy => r.1.answerWrong h op
  | .access => r.1.answerErr h op stACCESS 0
  | .limit => r.1.answerErr h op stLIMIT 0

/-- PAT_LOAD (R208, R501). -/
def State.patLoad (s : State) (h : Hdr) (addr : Nat) : State :=
  s.serve h 0x27 legalLoad [] (fun s =>
    match s.argBody addr 64 64 with
    | none => s.answerErr h 0x27 stARG 0
    | some o =>
      if o < 0x400000 then s.answerErr h 0x27 stPROTECTED 0
      else State.loadAnswer (s.patLoadAt o (s.celTop - o)) h 0x27 (fun n => leBytes 2 n ++ zeros 2))

/-! ## Segment tables -/

/-- What is wrong with a segment-table header (R209). -/
def segHeadBad (l : List Byte) : Nat :=
  if fieldB l 0 4 ≠ 0x54425453 ∨ fieldB l 4 2 ≠ 1 then 1
  else if fieldB l 6 2 = 0 ∨ 65534 < fieldB l 8 2 ∨ 65535 < fieldB l 8 2 + fieldB l 6 2 then 2
  else 0

/-- SEQ_STAB_COUNT of the table as it stands (R209): one more than the highest VALID entry. -/
def State.stabCount (s : State) : State :=
  let n := s.cellar.foldl (fun m c =>
    if 0x40000 ≤ c.1 ∧ c.1 < 0x40000 + 65535 * 32 ∧ c.1 % 32 = 2 ∧ bit c.2.toNat 0 = true then max m ((c.1 - 0x40000) / 32 + 1)
    else m) 0
  s.put F.SEQ_STAB_COUNT_COUNT 0 n

/-- A segment-table body copied (R209). -/
def State.segCopy (s : State) (l : List Byte) : State :=
  (s.celPut clsHearth (0x40000 + 32 * fieldB l 8 2) (sliceB l 16 (32 * fieldB l 6 2))).stabCount

/-- A body would replace a busy entry. -/
def State.segBusy (s : State) (l : List Byte) : Bool :=
  s.busyEntries.any (fun n => decide (fieldB l 8 2 ≤ n) && decide (n < fieldB l 8 2 + fieldB l 6 2))

/-- A segment-table body at an offset of the Cellar window (R209). -/
def State.segLoadAt (s : State) (o space : Nat) : State × LoadEnd :=
  let r := s.celRead clsHearth o 16
  match r.2 with
  | none => (r.1, .access)
  | some hd =>
    let bad := segHeadBad hd
    if bad ≠ 0 then (r.1, .bad bad)
    else if space < 16 + 32 * fieldB hd 6 2 then (r.1, .bad 2)
    else
      let q := r.1.celRead clsHearth o (16 + 32 * fieldB hd 6 2)
      match q.2 with
      | none => (q.1, .access)
      | some l => if q.1.segBusy l then (q.1, .busy) else (q.1.segCopy l, .done 0)

/-- SEG_LOAD (R209, R501). -/
def State.segLoad (s : State) (h : Hdr) (addr : Nat) : State :=
  s.serve h 0x28 legalLoad [] (fun s =>
    match s.argBody addr 16 1 with
    | none => s.answerErr h 0x28 stARG 0
    | some o =>
      if o < 0x400000 then s.answerErr h 0x28 stPROTECTED 0
      else
        let r := s.segLoadAt o (s.celTop - o)
        State.loadAnswer r h 0x28 (fun _ => leBytes 2 (r.1.get F.SEQ_STAB_COUNT_COUNT 0) ++ zeros 2))

/-! ## Control stores -/

/-- What is wrong with a ROOM_CS header (R267). -/
def csHeadBad (l : List Byte) : Nat :=
  if fieldB l 0 4 ≠ 0x53434D52 ∨ fieldB l 4 2 ≠ 1 then 1
  else if 4095 < csFirst l ∨ fieldB l 8 2 = 0 ∨ 4096 < csFirst l + fieldB l 8 2 ∨ fieldB l 0xA 6 ≠ 0 ∨ fieldB l 0x18 8 ≠ 0 then 2
  else 0

/-- The length of a ROOM_CS body. -/
def csLen (l : List Byte) : Nat := 0x20 + 16 * fieldB l 8 2

/-- What is wrong with a ROOM_CS body for some engines (R267, R268): a range in the idle routines of a
stealing engine, or a word with bad parity. -/
def State.csBad (s : State) (engines : List Nat) (l : List Byte) : Nat :=
  if csHeadBad l ≠ 0 then csHeadBad l
  else if 3584 < csFirst l + fieldB l 8 2 ∧ engines.any s.stealOf = true then 2
  else if (csWords l).any (fun w => !parityOk w) then 3
  else 0

/-- Bytes that Hearth's copies take (R269). -/
def State.csCopies (s : State) : Nat := (s.csBodies.map (fun b => b.bytes.length)).sum

/-- A body of so many bytes would take the copies past 1.5 MiB. -/
def State.csOver (s : State) (n : Nat) : Bool := decide (0x180000 < s.csCopies + n)

/-- A body kept for reloads (R269). -/
def State.csKeep (s : State) (engines : List Nat) (l : List Byte) : State :=
  { s with csBodies := s.csBodies ++ [(⟨maskOf engines, l⟩ : CsBody)] }

/-- Stores that may be written now (R265): the engine is OFF, IDLE, STOPPED or HALTED. -/
def State.csOpen (s : State) (k : Nat) : Bool :=
  s.engState k == eOFF || s.engState k == eIDLE || s.engState k == eSTOPPED || s.engState k == eHALTED

/-- A body written to engines in turn: the first whose store takes no writes ends it (R265, R498). -/
def State.csWriteAll (s : State) (l : List Byte) : List Nat → State × LoadEnd
  | [] => (s, .done 0)
  | k :: ks => if s.csOpen k then (s.csLoad k (csFirst l) (csWords l)).csWriteAll l ks else (s, .access)

/-- The engines that a CS_LOAD names. -/
def csEngines (k : Nat) (l : List Byte) : List Nat := k :: (bitsOf 64 (fieldB l 0x10 8)).filter (fun j => j != k)

/-- An engine may not be loaded in RUN and CALIBRATE (R120): its site is active or held, or it holds a
stolen task. -/
def State.csBarred (s : State) (k : Nat) : Bool :=
  (s.mode == mRUN || s.mode == mCALIBRATE)
    && (s.on F.ENG_STAT_TASK_HELD k || (match s.engSite k with | none => false | some i => s.active i || s.siteState i == sHELD))

/-- CS_LOAD (R267-R269, R501). -/
def State.csLoadCmd (s : State) (h : Hdr) (k addr : Nat) : State :=
  s.serve h 0x29 legalLoad [] (fun s =>
    match s.argBody addr 0x20 1 with
    | none => s.answerErr h 0x29 stARG 0
    | some o =>
      if 64 ≤ k then s.answerErr h 0x29 stARG 0
      else
        let r := s.celRead clsHearth o 0x20
        match r.2 with
        | none => r.1.answerErr h 0x29 stACCESS 0
        | some hd =>
          if csHeadBad hd ≠ 0 then r.1.answerErr h 0x29 stARG (csHeadBad hd)
          else if s.celTop < o + csLen hd then r.1.answerErr h 0x29 stARG 2
          else
            let q := r.1.celRead clsHearth o (csLen hd)
            match q.2 with
            | none => q.1.answerErr h 0x29 stACCESS 0
            | some l =>
              let es := csEngines k l
              if es.any q.1.csBarred then q.1.answerWrong h 0x29
              else if q.1.csBad es l ≠ 0 then q.1.answerErr h 0x29 stARG (q.1.csBad es l)
              else if q.1.csOver l.length then q.1.answerErr h 0x29 stLIMIT 0
              else State.loadAnswer ((q.1.csKeep es l).csWriteAll l es) h 0x29 (fun _ => []))

/-! ## LEVELS -/

/-- A LEVELS header (R158). -/
def levelsHeadOk (l : List Byte) : Bool :=
  fieldB l 0 4 == 0x53564C43 && fieldB l 4 2 == 1 && decide (1 ≤ fieldB l 6 2) && decide (fieldB l 6 2 ≤ 4096)
    && fieldB l 8 8 == 0 && decide (16 + 48 * fieldB l 6 2 ≤ l.length)

/-- A record applied to a channel (R159, R160): nothing is enabled, pair mode stays as the site map set
it, and a channel of a held site keeps its state (R77). -/
def State.levelsChan (s : State) (r : List Byte) (ch : Nat) : State :=
  let held := match s.chSite ch with | none => false | some i => s.siteState i == sHELD
  if held || !s.tileOn (ch / 64) then s
  else
    let v := fieldB r 4 4
    let s1 := (s.writeChCtrl ch (putBit (clrBit v 0) 6 (s.on F.CH_CTRL_PAIR ch))).1
    let s2 := s1.each (List.range 10) (fun t n => t.levelSet ch n (fieldB r (8 + 2 * n) 2))
    let s3 := s2.pmuConfig ch (clrBit (clrBit (fieldB r 0x1C 4) 8) 12)
    ((s3.pmuForceSet ch (fieldB r 0x20 2)).pmuVclampSet ch (fieldB r 0x22 4)).put F.PMU_ICLAMP_ICL ch (fieldB r 0x26 2)

/-- One LEVELS record (R159, R160). -/
def State.levelsRecord (s : State) (r : List Byte) : State :=
  let a := fieldB r 0 2
  let n := fieldB r 2 2
  if n = 0 ∨ 512 < a + n then s.incSat F.LVL_LOAD_STAT_SKIPPED 0
  else (s.each ((List.range n).map (a + ·)) (fun t c => t.levelsChan r c)).incSat F.LVL_LOAD_STAT_APPLIED 0

/-- A LEVELS body applied (R160). -/
def State.levelsApply (s : State) (l : List Byte) : State :=
  s.each (List.range (fieldB l 6 2)) (fun t j => t.levelsRecord (sliceB l (16 + 48 * j) 48))

/-! ## The site map -/

/-- Entries of a site map body: their bytes. -/
def mapEntries (l : List Byte) : List (List Byte) := (List.range (fieldB l 6 2)).map (fun j => sliceB l (16 + 64 * j) 64)

/-- Entry n of a map names an earlier entry's SITE (R291): with another tile, or with the same. -/
def mapTwice (es : List SiteEntry) (tileDiffers : Bool) : Bool :=
  es.zipIdx.any (fun p => (es.take p.2).any (fun q => q.site == p.1.site && (q.tile != p.1.tile) == tileDiffers))

/-- The site map check (R96, R289-R291): 0, or the code of R100. -/
def State.mapBad (s : State) (l : List Byte) : Nat :=
  if fieldB l 0 4 ≠ 0x50414D53 ∨ fieldB l 4 2 ≠ 1 ∨ fieldB l 6 2 = 0 ∨ 64 < fieldB l 6 2 ∨ l.length < 16 + 64 * fieldB l 6 2 then 0x15
  else
    let bs := mapEntries l
    let es := bs.map parseEntry
    if mapTwice es true then 0x18
    else if mapTwice es false || !bs.all (fun b => s.entrySound b (parseEntry b))
        || es.any (fun e => bit (fieldB l 8 8) e.engine)
        || es.zipIdx.any (fun p => (es.take p.2).any (fun q => !entriesApart q p.1)) then 0x19
    else 0

end Sys2Proof.Machine
end

