-- ==== Sys2Proof/Machine/Resets.lean ====
section
/-!
DEFINITION. What each reset reaches (R67-R77, R300, R506, R515): warm resets, power-on and brown-out
resets, and the sources that cause them.
-/

namespace Sys2Proof.Machine

/-- Every field of the field file. -/
def allFields : List Field :=
  ((regsRST ++ regsCLK ++ regsTHM ++ regsFLT ++ regsSEC ++ regsCSP ++ regsGPIO ++ regsMBX ++ regsSEM ++ regsIRQ ++ regsFAB
    ++ regsCFG ++ regsCEL ++ regsSEQ ++ regsPAN ++ regsACQ ++ regsCHAN ++ regsDPS ++ regsSMU ++ regsTDC ++ regsMON
    ++ regsTILEMON ++ regsTILECAL ++ regsENG).map RegName.fields).flatten ++ hiddenFields

/-- A warm reset puts the field back to the value of its Warm column, which is its Cold value. -/
def Field.warmDrops (f : Field) : Bool := match f.warm with | .to _ => true | _ => false

/-- Numbers of the fields that a warm reset puts back. -/
def warmDropped : List Nat := (allFields.filter Field.warmDrops).map (fun f => f.id.val)

/-- Numbers of the fields in PD_AON that a brown-out reset leaves (R69). -/
def borKept : List Nat :=
  (allFields.filter (fun f => f.borHold)).map (fun f => f.id.val) ++ [F.BOOT_ATTEMPT_SLOT.id.val]

/-- The fields of a warm reset's reach put back (R72). -/
def State.warmFields (s : State) : State :=
  { s with ff := s.ff.filter (fun p => !warmDropped.contains (p.1 % 2048)),
           snaps := s.snaps.filter (fun p => !(F.SITE_REC_WR_HI_WR_HI.id.val :: warmDropped).contains (p.1 % 2048)) }

/-- What the units reset by every reset held in their queues is gone (R72). -/
def State.queuesOff (s0 : State) : State :=
  let s := s0.flashCut
  { s with heldEntries := [], pendW := [], ports := [], waveBuf := [], evicted := [], lines := [], reqs := [], jobs := [],
           inval := [], cmdq := [], memq := [], refused := [], memErrs := [], evq := [], failq := [], asm := [],
           trigActs := [], flows := [], corrPend := [], tdcq := [] }

/-- Every instance of a field back at its Cold value. -/
def State.dropField (s : State) (f : Field) : State :=
  { s with ff := s.ff.filter (fun p => p.1 % 2048 != f.id.val) }

/-- Every instance of the fields back at their Cold values. -/
def State.dropFields (s : State) (l : List Field) : State := l.foldl State.dropField s

/-! ## A warm reset -/

/-- Site context and status that a warm reset clears under a rule of its own (R72). -/
def warmSite : List Field :=
  [H.SQ_T_FIRST, H.SQ_T_END, H.ST_FIRST_FAIL, F.SITE_STATE_STATE, F.SITE_STATE_STEAL_EN, F.SITE_STATE_END_SAFE,
   F.SITE_STATE_ENGINE, F.SITE_STATE_TILE, F.SITE_RUN_RUN, F.SITE_REC_WR_LO_WR_LO, F.SITE_REC_WR_HI_WR_HI,
   F.SITE_REC_LOST_LOST, F.SEQ_STAB_COUNT_COUNT, F.CSP_CFG_SEL_GPIO]

/-- A site has an enabled pin driver, DPS or SMU (R77). -/
def State.siteEnabled (s : State) (e : SiteEntry) : Bool :=
  e.channels.any (fun c => s.on F.CH_CTRL_DRV_EN c) || e.dpsList.any (fun d => s.on F.DPS_STAT_ON d)
    || e.smuList.any (fun u => s.on F.SMU_CTRL_EN u)

/-- Sites that a warm reset holds (R77): none when SAFE_ON_WARM is 1. -/
def State.warmHolds (s : State) : List Nat :=
  if s.on F.RST_CTRL_SAFE_ON_WARM 0 then [] else (s.entries.filter (fun p => s.siteEnabled p.2)).map (fun p => p.1)

/-- The WARM_HELD bits of exactly the sites given. -/
def State.warmHeldSet (s : State) (l : List Nat) : State :=
  (s.put F.WARM_HELD_LO_HELD 0 (maskOf l)).put F.WARM_HELD_HI_HELD 0 (maskOf l / 2 ^ 32)

/-- A DPS ramp stops at its present point, which VSET takes (R343). -/
def State.dpsHold (s : State) (d : Nat) : State :=
  if s.on F.DPS_STAT_ON d && s.on F.DPS_CTRL_LEAD d then
    let s1 := s.dpsFreeze d
    s1.put F.DPS_VSET_VALUE d (s1.get H.DPS_POINT d)
  else s

/-- The outputs at the assertion of a warm reset (R74, R136, R351): what waited for a boundary takes
effect, waveforms stop at their last sample, and either the outputs hold or a removal begins. -/
def State.warmOutputs (s : State) : State :=
  let s1 := s.each allSites State.pendApply
  let s2 := s1.each (List.range 32) State.smuHold
  if s.on F.RST_CTRL_SAFE_ON_WARM 0 then s2.safeStart .all else s2.each (List.range 64) State.dpsHold

/-- Words flushed from the queue of a host mailbox (R515). -/
def State.mbxFlushed (s : State) (b n : Nat) : State :=
  if n = 0 then s else (s.addSat F.MBX_HOST_FLUSH_COUNT b n).setB F.MBX_HOST_STAT_FLUSHED b true

/-- The mailboxes at a warm reset (R513, R515): H2D, H2E and E2H are flushed. -/
def State.warmMailboxes (s : State) : State :=
  let s1 := (List.range 4).foldl (fun t b => t.mbxFlushed b (qGet s.h2d b).length) ({ s with h2d := [] } : State)
  let s2 := s1.each (List.range 64) (fun t k =>
    ((t.setB F.MBX_ENG_STAT_FLUSHED k ((qGet s.h2e k ++ qGet s.e2h k) != [])).incW F.MBX_ENG_STAT_ENG_EPOCH k))
  { s2 with h2e := [], e2h := [] }

/-- Commands accepted and not answered get ABANDONED (R506); the CMD of an engine that is reset is
gone with it. -/
def State.abandon (s : State) : State :=
  let l := s.accepted.filter (fun c => c.src < 256)
  let s1 := l.foldl (fun t c => t.answerErr ⟨c.src, c.tag⟩ c.op stABANDONED 0) s
  let s2 := s1.addSat F.CMDQ_STAT_ABANDONED 0 l.length
  { s2 with accepted := [] }

/-- Engines lose their contents (R72), their groups off until step 9. -/
def State.engsOff (s : State) : State :=
  (s.each (List.range 64) State.engReset).each allGroups (fun t g => t.setB H.PD_ENG g false)

/-- The Cellar's contents do not outlive the reset (R72, R83): the clock loss took them, or the domain
was off. -/
def State.celDrop (s : State) : State :=
  let s1 : State := { s with cellar := [], celErr := [], csBodies := [] }
  ((s1.setB F.BOOT_REASON_CELLAR_LOST 0 true).setB F.CEL_CFG_READY 0 false).setB H.PD_CELLAR 0 false

/-- Forced readings without an end last until this reset (R588). -/
def State.forcedEnd (s : State) : State :=
  s.each (List.range 40) (fun t n => if t.get H.THM_FORCE_END n = 0 then t.setB F.THM_TEMP_FORCED n false else t)

/-- What every unit that a warm reset reaches loses (R72). -/
def State.warmDrop (s : State) : State :=
  (s.fuseCut.warmOutputs.warmMailboxes.engsOff.warmFields.queuesOff.dropFields warmSite).trigCancel

/-- What a warm reset leaves at its assertion: the mode it came from, the sites it holds, and where BRINGUP stands. -/
def State.warmMarks (s : State) (mode : Nat) (held : List Nat) : State :=
  let s1 := { s with safe := s.safe.map (fun (q : SafeSeq) => ({ q with unbind := none, answer := none } : SafeSeq)) }
  let s2 := (((s1.put F.MODE_STAT_PREV_MODE 0 mode).warmHeldSet held).put H.BOOT_PHASE 0 1).setB H.WAS_WARM 0 true
  ((s2.put F.MBX_EPOCH_HEARTH 0 (s2.get F.RST_WARM_COUNT_COUNT 0)).put H.BOOT_T0 0 s.now).setB H.PD_PANTRY 0 false

/-- The Cellar through a warm reset: its contents are lost where its domain was off. -/
def State.warmCellar (s : State) (lost : Bool) : State :=
  if lost then s.celDrop else s.setB F.BOOT_REASON_CELLAR_LOST 0 false

/-- What a warm reset does (R67-R77): the count, the outputs, and every unit that it reaches.  The mode
in force goes to PREV_MODE, and BRINGUP is entered. -/
def State.warmAct (s : State) : State :=
  let s1 := ((s.incSat F.RST_WARM_COUNT_COUNT 0).put H.RST_T0 0 s.now).warmDrop
  ((s1.warmMarks s.mode s.warmHolds).warmCellar (!s.on H.PD_CELLAR 0)).forcedEnd.wipeStart.abandon

/-- A warm reset takes effect, its cause recorded first. -/
def State.warmDo (s : State) (cause : Field) : State := (s.setB cause 0 true).warmAct

/-- A cold reset is in progress. -/
def State.coldHeld (s : State) : Bool := s.get H.BOOT_PHASE 0 == 0 && !s.on H.WAS_WARM 0

/-- A warm source acts (R70, R71): none in HOLD; while a cold reset is in progress it only adds its
cause. -/
def State.warmReset (s : State) (cause : Field) : State :=
  if s.mode = mHOLD then s
  else if s.coldHeld then (s.setB cause 0 true).incSat F.RST_WARM_COUNT_COUNT 0
  else s.warmDo cause

/-- An attempt is in progress (R97): the loader runs. -/
def State.inAttempt (s : State) : Bool := s.mode == mBRINGUP && s.get H.BOOT_PHASE 0 == 3

/-- An attempt has failed with a code (R98, R99): FAILS counts to 3. -/
def State.attemptFails (s : State) (c : Nat) : State :=
  (s.put F.BOOT_ATTEMPT_FAILS 0 (min 3 (s.get F.BOOT_ATTEMPT_FAILS 0 + 1))).put F.BOOT_ATTEMPT_LAST_CODE 0 c

/-- WDOG and LOCKUP during an attempt count as its failure (R100). -/
def State.failingReset (s : State) (cause : Field) (c : Nat) : State :=
  (if s.mode ≠ mHOLD ∧ s.inAttempt = true then s.attemptFails c else s).warmReset cause

/-- PIN (R67, R68): RESET_N held low.  Below 0.5 µs nothing happens, from 1.0 µs the reset is asserted
when the microsecond is over and released with the pin; between, the device may do either. -/
def State.resetPin (s : State) (widthPs : Nat) : State :=
  let tEnd := s.now + widthPs * ps
  if widthPs < 500000 then s.upTo tEnd
  else if 1000000 ≤ widthPs then
    let s1 := (s.upTo (s.now + us)).warmReset F.RST_CAUSE_PIN
    let s2 := s1.upTo tEnd
    if s.mode = mHOLD ∨ s.coldHeld = true then s2 else s2.put H.BOOT_T0 0 tEnd
  else
    let d := s.draw
    let s1 := d.2.upTo tEnd
    if d.1 % 2 = 1 then s1.warmReset F.RST_CAUSE_PIN else s1

/-- The timebase restarts at 0 (R72, R182). -/
def State.tbRestart (s : State) (ref : Bool) : State :=
  let s1 := ((s.put H.TB_ORIGIN 0 (s.now + 2 ^ 190)).clear F.TB_EPOCH_EPOCH 0).put H.TB_EPOCH_SEEN 0 0
  let s2 := (s1.setB F.SYNC_STAT_UNSYNCED 0 true).setB H.TB_RELOAD 0 (!ref)
  if ref then s2.setB F.SYNC_STAT_REF_LOST 0 true else s2

/-- CLKFAIL (R36, R72, R182). -/
def State.clkFail (s : State) (c : ClockLoss) : State :=
  if s.mode = mHOLD ∨ s.coldHeld = true then s.warmReset F.RST_CAUSE_CLKFAIL
  else
    let s1 := (s.warmReset F.RST_CAUSE_CLKFAIL).tbRestart (c == .ref)
    if c = .ref ∨ c = .cellarPll then s1.celDrop else s1

/-- The watchdog of the firmware expires (R67): only while it is armed. -/
def State.wdogReset (s : State) : State :=
  if s.on F.RST_WDOG_CTL_EN 0 then
    (s.upTo (s.get H.WDOG_T0 0 + s.get F.RST_WDOG_CTL_TIMEOUT_MS 0 * ms)).failingReset F.RST_CAUSE_WDOG 0x1D
  else s

/-- Half of the watchdog time is over: WDOG_HALF (R589). -/
def State.wdogHalf (s : State) : State :=
  if s.on F.RST_WDOG_CTL_EN 0 && !s.on H.WDOG_HALF_SEEN 0 then
    ((s.upTo (s.get H.WDOG_T0 0 + s.get F.RST_WDOG_CTL_TIMEOUT_MS 0 * ms / 2)).setB H.WDOG_HALF_SEEN 0 true).irq 189
  else s

/-- The watchdog restarts (RST_WDOG_KICK). -/
def State.wdogKick (s : State) (v : Nat) : State :=
  if v % 65536 = 0x5A5A then (s.put H.WDOG_T0 0 s.now).setB H.WDOG_HALF_SEEN 0 false else s

/-- A write of RST_WDOG_CTL: EN once set stays, TIMEOUT_MS holds while EN is 1, and 0 is stored as 1. -/
def State.wdogCtl (s : State) (v : Nat) : State :=
  if s.on F.RST_WDOG_CTL_EN 0 then s
  else
    let s1 := s.put F.RST_WDOG_CTL_TIMEOUT_MS 0 (max 1 (bits v 16 16))
    if bit v 0 then ((s1.setB F.RST_WDOG_CTL_EN 0 true).put H.WDOG_T0 0 s.now).setB H.WDOG_HALF_SEEN 0 false else s1

/-- A write of RST_SOFT (R67). -/
def State.rstSoft (s : State) (v : Nat) : State :=
  if bit v 0 && bits v 16 16 == 0xA5C3 then s.warmReset F.RST_CAUSE_SOFT else s

/-! ## Cold resets -/

/-- What stands after a power-on or a brown-out reset: everything at its Cold value but the time, the
commands that wait, what is no part of the chip's state, and what the fuses and the flash hold (R69,
R72, R598).  The timebase restarts at 0. -/
def State.coldBase (s0 : State) : State :=
  let s := s0.flashCut.fuseCut
  let s1 : State := { State.reset with pending := s.pending, now := s.now, free := s.free, flash := s.flash, fuses := s.fuses,
                                       replies := s.replies, lastResp := s.lastResp }
  s1.put H.TB_ORIGIN 0 (s.now + 2 ^ 190)

/-- POR (R54, R67, R69): power-on reset is asserted and holds the device. -/
def State.porReset (s : State) : State := s.coldBase

/-- BOR (R54, R69, R110): as POR, but the registers in PD_AON hold. -/
def State.borReset (s : State) : State :=
  let kept := s.ff.filter (fun p => borKept.contains (p.1 % 2048))
  let s1 := kept.foldl (fun (t : State) p => { t with ff := insKey p.1 p.2 t.ff }) s.coldBase
  let s2 := (s1.setB F.RST_CAUSE_BOR 0 true).setB H.WAS_BOR 0 true
  if s2.on F.THM_LOG_STAT_HOLD_EXIT 0 then s2.put F.MODE_STAT_PREV_MODE 0 mHOLD else s2

/-- POR_RELEASE (R54, R112): the device leaves the cold reset, and BRINGUP begins. -/
def State.porRelease (s : State) : State :=
  if s.coldHeld then
    let s1 := s.put H.BOOT_T0 0 s.now
    s1.put H.BOOT_PHASE 0 1
  else s

end Sys2Proof.Machine
end

