-- ==== Sys2Proof/Machine/Thermal.lean ====
section
/-!
DEFINITION. Chimney: samples, broken sensors, thresholds, shutdown and HOLD (R560-R573), the thermal
log (R574-R577), and the settings that follow the temperature (R439-R442).
-/

namespace Sys2Proof.Machine

/-- The reading of a broken sensor: 106 °C (R565). -/
def brokenCode : Nat := 424

/-- All sensors. -/
def allSensors : List Nat := List.range 40

/-- The sensors of the die that a sensor lies on (R560). -/
def sensorDie (n : Nat) : List Nat := if n < 8 then coreSensors else tileSensors ((n - 8) / 4)

/-- The sensor is broken. -/
def State.broken (s : State) (n : Nat) : Bool := s.on F.THM_TEMP_BROKEN n

/-- A sensor's reading. -/
def State.reading (s : State) (n : Nat) : Int := s.getI F.THM_TEMP_READING n

/-- The hottest of a list of sensors, the lowest number where several agree. -/
def State.hottest (s : State) (l : List Nat) : Nat :=
  match l with
  | [] => 0
  | x :: xs => xs.foldl (fun b n => if s.reading b < s.reading n then n else b) x

/-- Tj (R562). -/
def State.tj (s : State) : Int := s.reading (s.hottest allSensors)

/-- Broken sensors. -/
def State.brokenCount (s : State) : Nat := (allSensors.filter s.broken).length

/-! ## Records (R575) -/

/-- A thermal-log record with its CRC. -/
def sealRec (l : List Byte) : List Byte := l.take 28 ++ leBytes 4 (crc32c (l.take 28))

/-- A record of an event now: type, sensor, COUNT; PEAK and DURATION as given. -/
def State.thermRec (s : State) (typ sensor count peak dur : Nat) : List Byte :=
  sealRec (leBytes 1 typ ++ leBytes 1 sensor ++ leBytes 1 s.mode ++ leBytes 1 count ++ leBytes 4 0 ++ leBytes 8 s.ts
    ++ leBytes 2 (s.get F.THM_TEMP_READING sensor) ++ leBytes 2 peak ++ leBytes 4 dur ++ leBytes 1 s.activeCount
    ++ leBytes 1 s.brokenCount ++ zeros 2)

/-- The retention record (R571). -/
def State.shutRec (s : State) : List Byte :=
  ((List.range 8).map (fun w => leBytes 4 (s.get F.THM_SHUT_REC_BYTES w))).flatten

/-- The retention record written. -/
def State.shutRecPut (s : State) (l : List Byte) : State :=
  s.each (List.range 8) (fun t w => t.put F.THM_SHUT_REC_BYTES w (fieldB l (4 * w) 4))

/-- A record with bytes at an offset replaced and a fresh CRC. -/
def recEdit (l : List Byte) (off : Nat) (x : List Byte) : List Byte := sealRec (spliceB l off x)

/-! ## The log (R574, R576, R577) -/

/-- The place of a slot in flash. -/
def logSlot (n : Nat) : Nat := 0x4000 + n * 32

/-- The slot after the latest record. -/
def State.logNext (s : State) : Nat := (s.get H.THM_SLOT 0 + 1) % 512

/-- A slot is erased. -/
def State.slotErased (s : State) (n : Nat) : Bool := (s.flRead (logSlot n) 32).all (fun b => b == flashByte)

/-- A slot holds a valid record. -/
def State.slotValid (s : State) (n : Nat) : Bool :=
  let l := s.flRead (logSlot n) 32
  !s.slotErased n && fieldB l 28 4 == crc32c (l.take 28)

/-- Free slots of the current sector, the one that the next record falls into. -/
def State.logFree (s : State) : Nat := if s.slotErased s.logNext then 128 - s.logNext % 128 else 0

/-- The sector after the current one. -/
def State.logNextSector (s : State) : Nat :=
  ((if s.slotErased s.logNext then s.logNext else s.get H.THM_SLOT 0) / 128 + 1) % 4

/-- The latest record found, and FREE and SEQ shown, at a bring-up (R574): the valid record with the
highest SEQ; with none the log begins at slot 0. -/
def State.logFind (s : State) : State :=
  let best := (List.range 512).foldl (fun (o : Option (Nat × Nat)) n =>
    if s.slotValid n then
      let q := fieldB (s.flRead (logSlot n) 32) 4 4
      match o with
      | none => some (n, q)
      | some b => if b.2 < q then some (n, q) else o
    else o) none
  let s1 := match best with
    | none => (s.put H.THM_SLOT 0 511).put H.THM_LSEQ 0 0
    | some b => (s.put H.THM_SLOT 0 b.1).put H.THM_LSEQ 0 b.2
  (s1.put F.THM_LOG_SEQ_SEQ 0 (s1.get H.THM_LSEQ 0)).put F.THM_LOG_STAT_FREE 0 s1.logFree

/-- A record programmed into the next slot with the next SEQ. -/
def State.logWrite (s : State) (l : List Byte) : State :=
  let q := (s.get H.THM_LSEQ 0 + 1) % 2 ^ 32
  let n := s.logNext
  ((s.flProgram (logSlot n) (recEdit l 4 (leBytes 4 q))).put H.THM_SLOT 0 n).put H.THM_LSEQ 0 q

/-- The device has a flash. -/
def State.hasFlash (s : State) : Bool := s.get H.FLASH_SIZE 0 != 0

/-- Flash writes and fuse programming are refused for the temperature (R569). -/
def State.coreCold (s : State) : Bool := s.thermalOut coreSensors

/-- A record that no episode waits for, written where the current sector has room (R576, R577). -/
def State.logOr (s : State) (l : List Byte) : State :=
  if s.logFree = 0 || s.coreCold || !s.hasFlash then s.incSat F.THM_LOG_STAT_SKIPPED 0 else s.logWrite l

/-- Step 1 of R576: the erase of the next sector. -/
def State.logErase (s : State) : State :=
  if 16 ≤ s.logFree then s
  else if s.coreCold then s.setB F.THM_LOG_STAT_ERASE_SKIP 0 true
  else s.flErase (0x4000 + s.logNextSector * 4096) 4096

/-- Step 2 of R576: the retention record. -/
def State.logCommit (s : State) : State :=
  if s.on F.THM_LOG_STAT_REC_VALID 0 && s.logFree != 0 then (s.logWrite s.shutRec).setB F.THM_LOG_STAT_REC_VALID 0 false
  else s

/-- One waiting record of step 3 written, if there is room for it. -/
def State.logPend (s : State) (f : Field) (i : Nat) : State :=
  if s.get f i = 0 then s
  else (s.logOr (leBytes 32 (s.get f i))).put f i 0

/-- Step 3 of R576: BROKEN and TILE_SHUT records. -/
def State.logBroken (s : State) : State :=
  (s.each allSensors (fun t n => t.logPend H.THM_BRK_REC n)).each (List.range 8) (fun t n => t.logPend H.THM_TILE_REC n)

/-- Something waits to be written in steps 2 and 3. -/
def State.logWaits (s : State) : Bool :=
  s.on F.THM_LOG_STAT_REC_VALID 0 || allSensors.any (fun n => s.get H.THM_BRK_REC n != 0)
    || (List.range 8).any (fun t => s.get H.THM_TILE_REC t != 0)

/-- Steps 2 and 3 of R576: refused, they wait for the next try in 1 s. -/
def State.logSteps (s : State) : State :=
  if s.logWaits && s.coreCold then
    ((s.setB F.THM_LOG_STAT_COMMIT_PEND 0 true).put H.THM_LOG_STEP 0 2).put H.THM_LOG_NEXT_T 0 (s.now + 1000 * ms)
  else ((s.logCommit.logBroken).setB F.THM_LOG_STAT_COMMIT_PEND 0 false).put H.THM_LOG_STEP 0 0

/-- The thermal log maintained at the end of a bring-up (R576). -/
def State.logMaintain (s : State) : State := if s.hasFlash then s.logFind.logErase.logSteps else s

/-- THERMAL_LOG_RETRY (R576). -/
def State.logRetry (s : State) : State :=
  if s.get H.THM_LOG_STEP 0 = 0 then s else (s.upTo (s.get H.THM_LOG_NEXT_T 0)).logSteps

/-! ## Shutdown and HOLD -/

/-- The power domains off in HOLD (R38). -/
def holdDomains : List Field :=
  [H.PD_CORE, H.PD_PANTRY, H.PD_H0, H.PD_H123, H.PD_ENG, H.PD_CELLAR, H.PD_FABRIC, H.PD_PORCH, H.PD_TILE]

/-- The chip enters HOLD (R110, R570): outputs safe, every domain but PD_AON off with what it held, and
HOLD_EXIT set. -/
def State.enterHold (s : State) : State :=
  let prev := s.mode
  let s1 := (s.allSafe.warmFields.queuesOff.dropFields (F.PORCH_STAT_STATE :: holdDomains)).trigCancel
  let s2 := { s1 with safe := [], events := [], accepted := [], outq := [], replay := [], h2d := [], d2h := [], h2e := [],
                      e2h := [], entries := [], cstore := [], csBodies := [], cellar := [], celErr := [], scratch := [] }
  ((s2.dropFields warmSite).enterMode mHOLD 2 prev).setB F.THM_LOG_STAT_HOLD_EXIT 0 true

/-- A shutdown (R567, R570, R571): its record, then HOLD. -/
def State.shutdown (s : State) (sensor : Nat) : State :=
  let count := if s.on F.THM_LOG_STAT_REC_VALID 0 then satAt 8 (fieldB s.shutRec 3 1 + 1) else 1
  let s1 := (s.shutRecPut (s.thermRec 1 sensor count (s.get F.THM_STAT_TJ 0) 0)).setB F.THM_LOG_STAT_REC_VALID 0 true
  (s1.put H.THM_HOLD_T0 0 s.now).enterHold

/-- The first sample of a bring-up reads 115 °C or more (R115): back to HOLD, and the time already
counted goes on. -/
def State.backToHold (s : State) : State :=
  (s.put H.THM_HOLD_T0 0 (s.now - fieldB s.shutRec 0x14 4 * ms)).enterHold

/-- PEAK and DURATION of the retention record in HOLD (R572). -/
def State.holdCount (s : State) : State :=
  if s.on F.THM_LOG_STAT_REC_VALID 0 then
    let l := s.shutRec
    let peak := max (sext 16 (fieldB l 0x12 2)) s.tj
    let dur := satAt 32 ((s.now - s.get H.THM_HOLD_T0 0) / ms)
    s.shutRecPut (recEdit (recEdit l 0x12 (leBytes 2 (code 16 peak))) 0x14 (leBytes 4 dur))
  else s

/-! ## Broken sensors -/

/-- Interrupt data of the thermal sources (R593). -/
def State.thmData (s : State) (n : Nat) : List Byte := leBytes 4 (s.regRaw .THM_STAT 0) ++ leBytes 1 n ++ zeros 3

/-- PEAK of a record that has none: the spec states no value. -/
def State.openPeak (s : State) : Nat × State := let d := s.draw; (d.1 % 65536, d.2)

/-- A sensor found broken (R564, R565). -/
def State.breakSensor (s : State) (n cause : Nat) : State :=
  if s.broken n then s
  else
    let s1 := ((s.setB F.THM_TEMP_BROKEN n true).put F.THM_TEMP_CAUSE n cause).put F.THM_TEMP_READING n brokenCode
    let s2 := if n < 32 then s1.put F.THM_BROKEN_LO_SENS 0 (setBit (s1.get F.THM_BROKEN_LO_SENS 0) n)
      else s1.put F.THM_BROKEN_HI_SENS 0 (setBit (s1.get F.THM_BROKEN_HI_SENS 0) (n - 32))
    let p := (s2.setB F.THM_STAT_BROKEN_ANY 0 true).openPeak
    let s3 := p.2.put H.THM_BRK_REC n (ofLe (p.2.thermRec 3 n 1 p.1 0))
    (s3.irq 172 (s3.thmData n)).faultRaise (if n < 8 then 112 else 104 + (n - 8) / 4) n false

/-- A tile loses its power (R566): outputs safe, sites stopped, its TDCs and captures gone, its domain
off until the next cold reset. -/
def State.tileOff (s : State) (t : Nat) : State :=
  let s1 := (s.safeStage (.tile t) 1).safeStage (.tile t) 2
  let s2 := s1.safeStage (.tile t) 3
  let s3 := s2.each (s2.tileActive t) (fun u i => u.seqStop i 0)
  let s4 := s3.each ((List.range 16).map (t * 16 + ·)) (fun u j => (u.setB F.TDC_CTRL_ARMED j false).tdcQueueSet j [])
  let s5 := s4.each ((List.range 8).map (t * 8 + ·) ++ (List.range 4).map (64 + t * 4 + ·)) State.acqCancel
  (s5.setB H.PD_TILE t false).setB H.PD_TILE_BARRED t true

/-- The second broken sensor of a tile (R566). -/
def State.tileShut (s : State) (t sensor : Nat) : State :=
  if bit (s.get F.THM_STAT_TILE_OFF 0) t then s
  else
    let p := s.openPeak
    let s1 := p.2.put H.THM_TILE_REC t (ofLe (p.2.thermRec 2 sensor 1 p.1 0))
    (s1.put F.THM_STAT_TILE_OFF 0 (setBit (s1.get F.THM_STAT_TILE_OFF 0) t)).tileOff t

/-- Four or more core sensors are broken (R567). -/
def State.coreLost (s : State) : Bool := decide (4 ≤ (coreSensors.filter s.broken).length)

/-- Tiles with two or more broken sensors are shut down; sensor names the one found last. -/
def State.tilesCheck (s : State) (sensor : Nat → Nat) : State :=
  s.each ((List.range 8).filter (fun t => 2 ≤ ((tileSensors t).filter s.broken).length)) (fun u t => u.tileShut t (sensor t))

/-! ## A sample -/

/-- The list with a number put in its place in rising order. -/
def insI (x : Int) : List Int → List Int
  | [] => [x]
  | y :: l => if x ≤ y then x :: y :: l else y :: insI x l

/-- Twice the median of readings (R564). -/
def median2 (l : List Int) : Int :=
  let q := l.foldr insI []
  nthD q ((l.length - 1) / 2) 0 + nthD q (l.length / 2) 0

/-- The measurement of a sensor, or its forced reading (R587). -/
def State.measured (s : State) (raw : List SensorRaw) (n : Nat) : Int :=
  if s.on F.THM_TEMP_FORCED n then s.getI H.THM_FORCE_VAL n else match raw[n]? with | none => 0 | some r => r.reading

/-- OPEN, SHORT or STUCK by the raw code and the bias check (R564). -/
def rawCause (r : SensorRaw) : Option Nat :=
  if r.fullScale then some 0 else if r.zero then some 1 else if r.biasBad then some 2 else none

/-- Sensors found OPEN, SHORT or STUCK in a sample, with their causes. -/
def State.rawBroken (s : State) (raw : List SensorRaw) : List (Nat × Nat) :=
  allSensors.filterMap (fun n =>
    if s.broken n || s.on F.THM_TEMP_FORCED n then none
    else match raw[n]? with | none => none | some r => (rawCause r).map (fun c => (n, c)))

/-- A sample of a sensor is implausible (R564). -/
def implausible (dead : List Nat) (m : Nat → Int) (n : Nat) : Bool :=
  let others := (sensorDie n).filter (fun j => j != n && !dead.contains j)
  decide (m n < -80) || decide (600 < m n)
    || (!others.isEmpty && decide (120 < (2 * m n - median2 (others.map m)).natAbs))

/-- Readings of a sample taken in, and the sensors it finds broken, with their causes (R564, R565). -/
def State.sampleTake (s : State) (raw : List SensorRaw) : State × List (Nat × Nat) :=
  let m := s.measured raw
  let found := s.rawBroken raw
  let dead := allSensors.filter s.broken ++ found.map (fun p => p.1)
  let live := allSensors.filter (fun n => !dead.contains n)
  let bad := live.filter (implausible dead m)
  let twice := bad.filter (fun n => s.on H.THM_IMPL n)
  let s1 := s.each live (fun t n => (t.setB H.THM_IMPL n (bad.contains n)).putI F.THM_TEMP_READING n (m n))
  let all := found ++ twice.map (fun n => (n, 3))
  let s2 := s1.each (all.map (fun p => p.1)) (fun t n => t.put F.THM_TEMP_READING n brokenCode)
  (s2.putI F.THM_STAT_TJ 0 s2.tj, all)

/-- The time of the next sample (R561). -/
def State.sampleNext (s : State) : State :=
  let fast := decide (380 ≤ s.tj)
  (s.setB F.THM_STAT_FAST 0 fast).put H.THM_NEXT_T 0 (s.now + if fast then 50 * us else ms)

/-- The band of a setting at a temperature (R439): a band rises at its threshold and falls 3 °C below. -/
def bandOf (thr : List Int) (cur : Nat) (x : Int) : Nat :=
  (thr.zipIdx.filter (fun p => decide (p.1 ≤ x) || (decide (p.2 < cur) && decide (p.1 - 12 < x)))).length

/-- A band change is counted (THM_BAND_CNT) and raised. -/
def State.bandCount (s : State) (sensor : Nat) : State :=
  let s1 := s.incW F.THM_BAND_CNT_COUNT 0
  s1.irq 171 (s1.thmData sensor)

/-- The refresh rate in force and CEL_MR (R440). -/
def State.celRate (s : State) : State :=
  let b := s.get F.THM_BAND_CEL 0
  let r := s.get H.CEL_REPORT 0
  (s.put H.CEL_FACTOR 0 (max b r)).setB F.THM_BAND_CEL_MR 0 (decide (b < r))

/-- The refresh band (R439, R440). -/
def State.bandCel (s : State) : State :=
  let h := s.hottest coreSensors
  let b := bandOf [340, 420] (s.get F.THM_BAND_CEL 0) (s.reading h)
  if b = s.get F.THM_BAND_CEL 0 then s else ((s.put F.THM_BAND_CEL 0 b).celRate).bandCount h

/-- The lane preset band (R441): a Porch whose preset differs takes it up later. -/
def State.bandLane (s : State) : State :=
  let h := s.hottest coreSensors
  let b := bandOf [200, 340] (s.get F.THM_BAND_LANE 0) (s.reading h)
  if b = s.get F.THM_BAND_LANE 0 then s
  else
    let s1 := s.put F.THM_BAND_LANE 0 b
    (s1.each allPorches (fun t p => if t.get H.PO_LANE p = b then t.noDue H.PO_LANE_T p else t.setDue H.PO_LANE_T p t.now)).bandCount h

/-- The TDC trim band of a tile (R385, R442). -/
def State.bandTdc (s : State) (t : Nat) : State :=
  let h := s.hottest (tileSensors t)
  let cur := bits (s.get F.THM_BAND_TDC 0) (2 * t) 2
  let b := bandOf [140, 260, 360] cur (s.reading h)
  if b = cur then s
  else
    let v := s.get F.THM_BAND_TDC 0
    let s1 := s.put F.THM_BAND_TDC 0 (v - cur * 4 ^ t + b * 4 ^ t)
    (s1.each ((List.range 16).map (t * 16 + ·)) (fun u j =>
      if u.on F.TDC_CTRL_ARMED j then u.setB F.TDC_CTRL_BAND_PEND j true else u.put H.TDC_TRIM j b)).bandCount h

/-- DRIFT of a tile's corrections (R438): more than 10 °C from TJ_LEVEL or TJ_DESKEW. -/
def State.tileDrift (s : State) (t : Nat) : State :=
  let x := s.reading (s.hottest (tileSensors t))
  let far (f : Field) : Bool := decide (40 < (x - 4 * (s.get f t : Int)).natAbs)
  let d := far F.TCAL_TJ_TJ_LEVEL || far F.TCAL_TJ_TJ_DESKEW
  let s1 := s.setB F.TCAL_STAT_DRIFT t d
  if d && !s.on F.TCAL_STAT_DRIFT t then s1.irq (160 + t) else s1

/-- WARN (R568): its rise wakes the chip. -/
def State.warnCheck (s : State) : State :=
  let was := s.on F.THM_STAT_WARN 0
  let now := if was then decide (360 ≤ s.tj) else decide (380 ≤ s.tj)
  if now = was then s
  else
    let s1 := (s.setB F.THM_STAT_WARN 0 now).setB F.MODE_STAT_WARN 0 now
    (s1.irq 169 (s1.thmData (s1.hottest allSensors))).wakeIf now

/-- A throttle episode begins (R116, R568): tests that are on go on. -/
def State.throttleRise (s : State) : State :=
  let h := s.hottest allSensors
  let s1 := (s.setB F.THM_STAT_THROTTLE 0 true).setB F.MODE_STAT_THROTTLE 0 true
  let s2 := ((s1.incW F.THM_THR_EPISODES 0).put H.THM_THR_T0 0 s.now).put H.THM_THR_REC 0 (ofLe (s.thermRec 4 h 1 0 0))
  let s3 := (s2.putI H.THM_THR_PEAK 0 s.tj).each allSites (fun t i => t.setB H.ST_THR i false)
  s3.irq 170 (s3.thmData h)

/-- Modes in which Hearth writes the record of an episode (R577). -/
def State.liveMode (s : State) : Bool := s.modeIn [mSTANDBY, mRUN, mCALIBRATE, mFACTORY]

/-- A throttle episode ends (R568, R577). -/
def State.throttleFall (s : State) : State :=
  let dur := (s.now - s.get H.THM_THR_T0 0) / ms
  let s1 := (s.setB F.THM_STAT_THROTTLE 0 false).setB F.MODE_STAT_THROTTLE 0 false
  let s2 := s1.addSat F.THM_THR_MS_MS 0 dur
  let l := recEdit (recEdit (leBytes 32 (s.get H.THM_THR_REC 0)) 0x12 (leBytes 2 (s.get H.THM_THR_PEAK 0))) 0x14
    (leBytes 4 (satAt 32 dur))
  let s3 := if s2.liveMode then s2.logOr l else s2
  s3.irq 170 (s3.thmData (s3.hottest allSensors))

/-- THROTTLE (R568). -/
def State.throttleCheck (s : State) : State :=
  let s1 := s.putI H.THM_THR_PEAK 0 (max (s.getI H.THM_THR_PEAK 0) s.tj)
  if s.on F.THM_STAT_THROTTLE 0 then (if s.tj < 400 then s1.throttleFall else s1)
  else if 420 ≤ s.tj then s.throttleRise else s

/-- What a sample does beside shutdown: broken sensors, thresholds, bands, drifts. -/
def State.sampleActs (s : State) : State :=
  let s1 := s.warnCheck.throttleCheck.bandCel.bandLane
  let s2 := s1.each (List.range 8) State.bandTdc
  (s2.each (List.range 8) State.tileDrift).driftCheck (s2.reading (s2.hottest coreSensors))

/-- TMAX: the highest Tj since the last cold reset. -/
def State.tmax (s : State) : State :=
  if s.on H.THM_SEEN 0 && decide (s.tj ≤ s.getI F.THM_TMAX_MAX 0) then s else s.putI F.THM_TMAX_MAX 0 s.tj

/-- The sensor found broken last on a die, of those a sample found. -/
def lastFound (found : List (Nat × Nat)) (p : Nat → Bool) : Nat :=
  ((found.map (fun x => x.1)).filter p).foldl max 0

/-- A sample outside HOLD. -/
def State.sampleLive (s : State) (raw : List SensorRaw) : State :=
  let first := !s.on H.THM_SEEN 0
  let r := s.sampleTake raw
  let s1 := r.1.tmax.setB H.THM_SEEN 0 true
  let s2 := s1.each r.2 (fun t p => t.breakSensor p.1 p.2)
  let s3 := s2.sampleNext
  if 480 ≤ s3.tj then s3.shutdown (s3.hottest allSensors)
  else if s3.coreLost then s3.shutdown (lastFound r.2 (fun n => decide (n < 8)))
  else if first && decide (460 ≤ s3.tj) then s3.backToHold
  else (s3.tilesCheck (fun t => lastFound r.2 (fun n => decide (8 ≤ n) && (n - 8) / 4 == t))).sampleActs

/-- CHIMNEY_SAMPLE (R560-R572): all 40 sensors. -/
def State.chimneySample (s : State) (raw : List SensorRaw) : State :=
  if s.coldHeld then s
  else
    let s0 := s.upTo (s.get H.THM_NEXT_T 0)
    if s0.mode = mHOLD then
      let s1 := s0.each (allSensors.filter (fun n => !s0.broken n)) (fun t n => t.putI F.THM_TEMP_READING n (s0.measured raw n))
      (s1.putI F.THM_STAT_TJ 0 s1.tj).holdCount.sampleNext
    else s0.sampleLive raw

/-- REFRESH_RATE_REPORT (R440). -/
def State.refreshReport (s : State) (rate : Nat) : State :=
  if s.on H.PD_CELLAR 0 then (s.put H.CEL_REPORT 0 rate).celRate else s

/-- A forced reading begins (R588). -/
def State.forceReading (s : State) (n v holdMs : Nat) : State :=
  let s1 := (s.setB F.THM_TEMP_FORCED n true).put H.THM_FORCE_VAL n v
  if holdMs = 0 then s1.noDue H.THM_FORCE_END n else s1.setDue H.THM_FORCE_END n (s.now + holdMs * ms)

/-- FORCED_READING_EXPIRY (R588). -/
def State.forceExpiry (s : State) (n : Nat) : State :=
  match s.due H.THM_FORCE_END n with
  | none => s
  | some t => ((s.upTo t).setB F.THM_TEMP_FORCED n false).noDue H.THM_FORCE_END n

/-- A sensor marked broken by injection (R588), with what follows from its being broken. -/
def State.forceBroken (s : State) (n cause : Nat) : State :=
  let s1 := s.breakSensor n cause
  if s1.coreLost then s1.shutdown n else s1.tilesCheck (fun _ => n)

end Sys2Proof.Machine
end

