-- ==== Sys2Proof/Machine/Security.lean ====
section
/-!
DEFINITION. The security block: fuse records (R595-R598), life cycle (R599-R600), signature checks
(R605-R607), the rollback counter (R612), tamper (R614-R616) and debug rights (R617-R619).
-/

namespace Sys2Proof.Machine

/-! ## Fuses -/

/-- The 32 words of a block. -/
def State.fuseBlock (s : State) (b : Nat) : List Nat := (List.range 32).map (fun j => s.fuse (32 * b + j))

/-- A block is blank (R596). -/
def State.fuseBlank (s : State) (b : Nat) : Bool := (s.fuseBlock b).all (fun w => w == 0)

/-- A block holds a record in force (R596): programmed, its check word good, and not found spoiled by
the last load. -/
def State.fuseValid (s : State) (b : Nat) : Bool :=
  !s.fuseBlank b && fuseCheck (s.fuseBlock b) == s.fuse (32 * b + 31) && !bit (s.get H.SEC_SPOIL 0) b

/-- A block is spoiled (R596). -/
def State.fuseSpoiled (s : State) (b : Nat) : Bool := !s.fuseBlank b && !s.fuseValid b

/-- Blocks of each record (R595). -/
def slotBlock (n : Nat) : Nat := 104 + n
def revBlocks : List Nat := [108, 109]
def keyBlock : Nat := 110
def lcBlocks : List Nat := [111, 112, 113]
def rbBlocks : List Nat := (List.range 14).map (114 + ·)

/-- The life-cycle state by the fuses (R597). -/
def State.lcFuse (s : State) : Nat := ((lcBlocks.filter s.fuseValid).map (fun b => s.fuse (32 * b) % 4)).foldl max 0

/-- The rollback counter by the fuses (R597). -/
def State.rbFuse (s : State) : Nat := min 64 (((rbBlocks.filter s.fuseValid).map (fun b => s.fuse (32 * b))).foldl max 0)

/-- Slots empty and revoked by the fuses (R597). -/
def State.emptyFuse (s : State) : Nat := maskOf ((List.range 4).filter (fun n => !s.fuseValid (slotBlock n)))
def State.revokedFuse (s : State) : Nat :=
  ((revBlocks.filter s.fuseValid).map (fun b => s.fuse (32 * b) % 16)).foldl (fun a b => a ||| b) 0

/-- Life-cycle states (R599). -/
def lcDEVELOP : Nat := 0
def lcPROVISION : Nat := 1
def lcSECURE : Nat := 2
def lcRETIRED : Nat := 3

/-- The life-cycle state in force. -/
def State.lc (s : State) : Nat := s.get F.SEC_STAT_LC_STATE 0

/-- The tamper latch keeps the image key out (R614). -/
def State.keyBarred (s : State) : Bool :=
  s.on F.SEC_STAT_TAMPER 0 && (s.lc == lcSECURE || s.on F.SEC_TAMPER_CFG_KEY_CLEAR 0)

/-- The records take effect at the load of step 3 (R595-R597, R608; no image key in RETIRED, R601): spoiled names a block that failed
two reads. -/
def State.secLoad (s : State) (spoiled : Option Nat) : State :=
  let s1 := s.put H.SEC_SPOIL 0 (match spoiled with | none => 0 | some b => 2 ^ b)
  let s2 := ((s1.put F.SEC_STAT_LC_STATE 0 s1.lcFuse).put F.SEC_STAT_SLOT_EMPTY 0 s1.emptyFuse).put F.SEC_STAT_SLOT_REVOKED 0 s1.revokedFuse
  let s3 := (s2.put F.SEC_FUSE_STAT_RB_FREE 0 (rbBlocks.filter s1.fuseBlank).length).put F.SEC_FUSE_STAT_LC_FREE 0 (lcBlocks.filter s1.fuseBlank).length
  let s4 := s3.put F.SEC_FUSE_STAT_SPOILED 0 (((List.range 24).map (104 + ·)).filter s1.fuseSpoiled).length
  let s5 := s4.put F.CFG_ROLLBACK_FUSE_CTR 0 s1.rbFuse
  s5.setB F.SEC_STAT_KEY_LOADED 0 (s5.fuseValid keyBlock && !s5.keyBarred && s5.lc != lcRETIRED)

/-- The image key. -/
def State.imageKey (s : State) : List Byte := (((s.fuseBlock keyBlock).take 8).map (leBytes 4)).flatten

/-- A key slot is usable (R599). -/
def State.slotUsable (s : State) (n : Nat) : Bool :=
  n < 4 && !bit (s.get F.SEC_STAT_SLOT_EMPTY 0) n && !bit (s.get F.SEC_STAT_SLOT_REVOKED 0) n

/-- The hash that a key slot holds. -/
def State.slotHash (s : State) (n : Nat) : List Byte := (((s.fuseBlock (slotBlock n)).take 12).map (leBytes 4)).flatten

/-! ## Programming -/

/-- Results of a request (SEC_STAT.PROG_RES). -/
def prOK : Nat := 0
def prTHERMAL : Nat := 1
def prNOSPACE : Nat := 2
def prSTATE : Nat := 3
def prNOTHING : Nat := 4
def prBADARG : Nat := 5

/-- The lowest blank block of a range. -/
def State.blankOf (s : State) (l : List Nat) : Option Nat := l.find? s.fuseBlank

/-- A request refused: it completes with an error response, and PROG_RES tells why. -/
def State.progRefused (s : State) (r : Nat) : State × Resp := (s.put F.SEC_STAT_PROG_RES 0 r).bad

/-- A record programmed into the lowest blank block of a range (R598): 32 words of 20 µs each. -/
def State.progStart (s : State) (blocks : List Nat) (words : List Nat) (isLc : Bool) : State × Resp :=
  if s.on F.SEC_STAT_BUSY 0 then s.progRefused prSTATE
  else if s.coreCold then s.progRefused prTHERMAL
  else
    match s.blankOf blocks with
    | none => s.progRefused prNOSPACE
    | some b =>
      let s1 := (s.setB F.SEC_STAT_BUSY 0 true).put H.SEC_PROG_BLK 0 b
      let s2 := (s1.put H.SEC_PROG_D 0 (ofLe (words.map (leBytes 4)).flatten)).setDue H.SEC_PROG_END 0 (s1.now + 640 * us)
      ((s2.setB H.SEC_PROG_LC 0 isLc).put F.SEC_STAT_PROG_RES 0 prOK).ok

/-- FUSE_PROGRAM_DONE (R598, R600): the block is programmed; where it went wrong the
check word is a free value.  A SOFT reset follows a life-cycle record 1 ms later. -/
def State.progDone (s : State) (good : Bool) : State :=
  match s.due H.SEC_PROG_END 0 with
  | none => s
  | some t =>
    let b := s.get H.SEC_PROG_BLK 0
    let w := s.progWords
    let s1 := (s.upTo t).each w.zipIdx (fun u p => u.fuseOr (32 * b + p.2) p.1)
    let d := s1.draw
    let s2 := if good then s1.fuseOr (32 * b + 31) (fuseCheck w) else d.2.fuseOr (32 * b + 31) d.1
    let s3 := (s2.setB F.SEC_STAT_BUSY 0 false).noDue H.SEC_PROG_END 0
    if s3.on H.SEC_PROG_LC 0 then (s3.setB H.SEC_PROG_LC 0 false).setDue H.RST_SOFT_DUE 0 (s3.now + ms) else s3

/-- A write of SEC_RB_COMMIT (R612). -/
def State.rbCommit (s : State) (v : Nat) : State × Resp :=
  let img := s.get F.CFG_ROLLBACK_IMAGE_CTR 0
  if bits v 16 16 ≠ 0x3A71 then s.bad
  else if bit v 0 = false then s.ok
  else if s.mode ≠ mSTANDBY ∨ 2 ≤ s.get F.CFG_STAT_SOURCE 0 then s.progRefused prSTATE
  else if img ≤ s.get F.CFG_ROLLBACK_FUSE_CTR 0 then s.progRefused prNOTHING
  else s.progStart rbBlocks [img] false

/-- The transitions of R600. -/
def lcAllowed (cur target : Nat) : Bool :=
  (cur == lcDEVELOP && target == lcPROVISION) || (cur == lcPROVISION && target == lcSECURE) || (cur != lcRETIRED && target == lcRETIRED)

/-- A life-cycle request finds the device idle: STANDBY with no site RUNNING, PAUSED or HELD. -/
def State.lcIdle (s : State) : Bool := s.mode == mSTANDBY && !s.anyActive && allSites.all (fun i => s.siteState i != sHELD)

/-- A write of SEC_LC_REQ (R600). -/
def State.lcReq (s : State) (v : Nat) : State × Resp :=
  let target := bits v 0 2
  if bits v 16 16 ≠ 0x7E1C then s.bad
  else if lcAllowed s.lc target = false then s.progRefused prBADARG
  else if s.lcIdle = false then s.progRefused prSTATE
  else if target = lcSECURE ∧ (s.on H.IMG_USABLE 0 && s.fuseValid keyBlock) = false then s.progRefused prSTATE
  else s.progStart lcBlocks [target] true

/-- Words of SEC_PROV_DATA. -/
def State.provData (s : State) (n : Nat) : List Nat := (List.range n).map (fun w => s.get F.SEC_PROV_DATA_WORD w)

/-- The words cleared after each GO. -/
def State.provClear (s : State) : State := s.dropField F.SEC_PROV_DATA_WORD

/-- A write of SEC_PROV_CMD (R598, R599). -/
def State.provCmd (s : State) (v : Nat) : State × Resp :=
  let target := bits v 0 2
  let r : State × Resp :=
    if target = 3 then s.progRefused prBADARG
    else if s.lc = lcRETIRED ∨ (s.lc = lcSECURE ∧ target ≠ 2) then s.progRefused prSTATE
    else if target = 0 then s.progStart [slotBlock (bits v 2 2)] (s.provData 12) false
    else if target = 1 then s.progStart [keyBlock] (s.provData 8) false
    else s.progStart revBlocks [s.get F.SEC_PROV_DATA_WORD 0 % 16] false
  if bits v 16 16 ≠ 0x61F5 then s.bad
  else if bit v 4 = false then s.ok
  else (r.1.provClear, r.2)

/-- A write of SEC_WIPE (R551). -/
def State.secWipe (s : State) (v : Nat) : State × Resp :=
  if bits v 16 16 ≠ 0x9D42 then s.bad else if bit v 0 then s.wipeStart.ok else s.ok

/-- WIPE_DONE (R551). -/
def State.wipeDone (s : State) : State :=
  match s.due H.WIPE_END 0 with
  | none => s
  | some t => ((s.upTo t).noDue H.WIPE_END 0).wipeNow

/-! ## Signatures (R605-R607) -/

/-- Big-endian 32-bit number. -/
def be32 (l : List Byte) (off : Nat) : Nat := ofLe ((sliceB l off 4).reverse)

/-- The length of an LMS signature by the type code of its key, 0 for a type that is not supported. -/
def lmsLen (pub : List Byte) : Nat :=
  if be32 pub 4 ≠ 7 then 0
  else match be32 pub 0 with
    | 0xB => 1500
    | 0xC => 1620
    | 0xD => 1740
    | _ => 0

/-- What a signature block check finds. -/
inductive SigEnd where
  | good | badBlock | badEcdsa | badLms
  deriving DecidableEq, Repr

/-- The layout and the key slot of a signature block. -/
def State.sigBlockOk (s : State) (l : List Byte) (len : Nat) (selfOk : Bool) : Bool :=
  let slot := fieldB l 6 1
  fieldB l 0 4 == 0x4B424753 && fieldB l 4 2 == 1 && fieldB l 8 4 == len && (s.slotUsable slot || (selfOk && slot == 0xFF))

/-- The keys of a signature block agree with its slot's hash. -/
def State.sigHashOk (s : State) (l : List Byte) : Bool :=
  let slot := fieldB l 6 1
  slot == 0xFF || Config.sha384 (sliceB l 0x10 96 ++ sliceB l 0xD0 48) == s.slotHash slot

/-- A signature block checked over a signed message (R606, R607). -/
def State.sigCheck (s : State) (l m : List Byte) (selfOk : Bool) : SigEnd :=
  let pub := sliceB l 0x10 96
  let lms := sliceB l 0xD0 48
  let n := fieldB l 0xC 4
  if s.sigBlockOk l m.length selfOk = false then .badBlock
  else if (s.sigHashOk l && Config.ecdsaOk pub m (sliceB l 0x70 96)) = false then .badEcdsa
  else if n = lmsLen lms ∧ n ≠ 0 ∧ Config.lmsOk lms m (sliceB l 0x100 n) = true then .good
  else .badLms

/-! ## Tamper and unlock -/

/-- A new nonce drawn (R619). -/
def State.nonceDraw (s : State) : State :=
  s.each (List.range 8) (fun t w => let d := t.draw; d.2.put F.SEC_DBG_NONCE_NONCE w d.1)

/-- TAMPER_N is asserted (R614, R616, R619): a check that it ends draws a new nonce, as every check does. -/
def State.tamperAct (s : State) : State :=
  let s1 := s.setB F.SEC_STAT_TAMPER 0 true
  if s.mode = mHOLD then s1
  else
    let s2 := (s1.wipeStart).put F.SEC_DBG_CTRL_RIGHTS 0 0
    let s3 := match s2.due H.SEC_UNLOCK_END 0 with
      | none => s2
      | some _ => ((s2.noDue H.SEC_UNLOCK_END 0).put F.SEC_DBG_CTRL_RESULT 0 5).nonceDraw
    let s4 := if s3.keyBarred then s3.setB F.SEC_STAT_KEY_LOADED 0 false else s3
    (s4.faultRaise 116 0 false).wakeIf (s4.faultNotes 116)

/-- TAMPER (R614): TAMPER_N held low.  Below 0.5 µs nothing happens; between 0.5 µs and 1.0 µs the device
may do either. -/
def State.tamper (s : State) (widthPs : Nat) : State :=
  if widthPs < 500000 then s.upTo (s.now + widthPs * ps)
  else if 1000000 ≤ widthPs then (s.upTo (s.now + us)).tamperAct
  else
    let d := s.draw
    let s1 := d.2.upTo (d.2.now + widthPs * ps)
    if d.1 % 2 = 1 then s1.tamperAct else s1

/-- Debug rights by name (SEC_DBG_CTRL): 0 DBG_PORT, 1 HALT, 2 ENG_BRK, 3 DBG_RESET, 4 EXTEST (R617). -/
def State.right (s : State) (n : Nat) : Bool :=
  s.lc == lcDEVELOP || s.lc == lcPROVISION || (s.lc == lcSECURE && bit (s.get F.SEC_DBG_CTRL_RIGHTS 0) n)

/-- A write of SEC_DBG_CTRL (R619): GO begins the check of the token. -/
def State.dbgCtrl (s : State) (v : Nat) : State × Resp :=
  if bit v 8 = true ∧ (s.lc ≠ lcSECURE ∨ s.get H.SEC_UNLOCK_END 0 ≠ 0) then s.bad
  else
    let s1 := s.put F.SEC_DBG_CTRL_RIGHTS_REQ 0 (v % 32)
    (if bit v 8 then s1.setDue H.SEC_UNLOCK_END 0 (s1.now + 6 * ms) else s1).ok

/-- The signed message of a token. -/
def State.tokenMsg (s : State) : List Byte :=
  ((List.range 8).map (fun w => leBytes 4 (s.get F.SEC_DBG_NONCE_NONCE w))).flatten ++ leBytes 8 s.sid
    ++ leBytes 4 (s.get F.SEC_DBG_CTRL_RIGHTS_REQ 0)

/-- DEBUG_UNLOCK_DONE (R619). -/
def State.unlockDone (s : State) : State :=
  match s.due H.SEC_UNLOCK_END 0 with
  | none => s
  | some t =>
    let s1 := (s.upTo t).noDue H.SEC_UNLOCK_END 0
    let l := s1.spRead (s1.get F.SEC_DBG_TOKEN_OFFSET 0 * 16) 2048
    let s2 := match s1.sigCheck l s1.tokenMsg false with
      | .good => (s1.put F.SEC_DBG_CTRL_RESULT 0 1).put F.SEC_DBG_CTRL_RIGHTS 0 (s1.get F.SEC_DBG_CTRL_RIGHTS_REQ 0)
      | .badBlock => s1.put F.SEC_DBG_CTRL_RESULT 0 2
      | .badEcdsa => s1.put F.SEC_DBG_CTRL_RESULT 0 3
      | .badLms => s1.put F.SEC_DBG_CTRL_RESULT 0 4
    s2.nonceDraw

/-- DEBUG (R67, R617): a reset request of the debug port, where the life-cycle state allows it. -/
def State.debugReset (s : State) : State :=
  if s.right 3 then
    let s1 := s.warmReset F.RST_CAUSE_DEBUG
    if s.on F.RST_CTRL_DBG_HALT 0 && s.mode != mHOLD then s1.setB H.CORE0_HALT 0 true else s1
  else s

end Sys2Proof.Machine
end

