-- ==== Sys2Proof/Machine/Serial.lean ====
section
/-!
DEFINITION. The clocked serial ports and the GPIO (R517-R528, R533), and the STAT_LED patterns (R108).
-/

namespace Sys2Proof.Machine

/-- Half a period of SCK in ticks (R518): 5 ns for each DIV + 1. -/
def State.cspHalf (s : State) (n : Nat) : Nat := (s.get F.CSP_CFG_DIV n + 1) * 5 * ns

/-- A halfword of the transmit buffer or the receive buffer (R517). -/
def State.cspHw (s : State) (f : Field) (n h : Nat) : Nat := bits (s.get f (n * 128 + h / 2)) (16 * (h % 2)) 16

/-- A halfword written. -/
def State.cspHwPut (s : State) (f : Field) (n h v : Nat) : State :=
  let w := s.get f (n * 128 + h / 2)
  s.put f (n * 128 + h / 2) (if h % 2 = 0 then w / 65536 * 65536 + v % 65536 else w % 65536 + v % 65536 * 65536)

/-- The bytes of halfwords 0 to k - 1, high byte first (R525). -/
def State.cspBytes (s : State) (f : Field) (n k : Nat) : List Byte :=
  ((List.range k).map (fun h => [BitVec.ofNat 8 (s.cspHw f n h / 256), BitVec.ofNat 8 (s.cspHw f n h)])).flatten

/-- A number whose w bits are given most significant first; missing bits are 0. -/
def msbFirst (w : Nat) (l : List Bool) : Nat := (List.range w).foldl (fun a j => a * 2 + b2n (nthD l j false)) 0

/-- The receive buffer takes the bits that were clocked in (R517). -/
def State.cspReceive (s : State) (n : Nat) (rx : List Bool) : State :=
  s.each (List.range ((rx.length + 15) / 16)) (fun t h => t.cspHwPut F.CSP_RX_HW n h (msbFirst 16 (rx.drop (16 * h))))

/-- A framed transfer may not have this length (R527). -/
def State.cspLenBad (s : State) (n : Nat) : Bool :=
  s.on F.CSP_CFG_FRAME n && (s.get F.CSP_LEN_BITS n % 16 != 0 || decide (s.get F.CSP_LEN_BITS n < 48))

/-- The alive count and the CRC that the port writes into a frame (R527). -/
def State.cspFrame (s : State) (n : Nat) : State :=
  if s.on F.CSP_CFG_FRAME n then
    let last := s.get F.CSP_LEN_BITS n / 16 - 1
    let s1 := s.cspHwPut F.CSP_TX_HW n 0 (s.get F.CSP_ALIVE_NEXT n * 256 + s.cspHw F.CSP_TX_HW n 0 % 256)
    s1.cspHwPut F.CSP_TX_HW n last (crc16 (s1.cspBytes F.CSP_TX_HW n last))
  else s

/-- The receive buffer cleared. -/
def State.cspRxClear (s : State) (n : Nat) : State := s.each (List.range 128) (fun t m => t.put F.CSP_RX_HW (n * 128 + m) 0)

/-- A transfer begins (R519), after the gap that follows the one before. -/
def State.cspBegin (s : State) (n : Nat) : State :=
  let s1 := ((s.cspRxClear n).cspFrame n).setB F.CSP_CTRL_BUSY n true
  ((s1.put H.CSP_T0 n (max s.now (s.get H.CSP_GAP_T n))).setB H.CSP_LOST n false).setB H.CSP_ABT n false

/-- SEL_GPIO of a port names a GPIO that it may not drive (R521). -/
def State.cspSelBad (s : State) (n : Nat) : Bool :=
  s.get F.CSP_CFG_SEL_GPIO n == 31
    || (s.on F.CSP_CTRL_EN (1 - n) && s.get F.CSP_CFG_SEL_GPIO n == s.get F.CSP_CFG_SEL_GPIO (1 - n))

/-- EN written (R521, R522): none where the write is refused. -/
def State.cspEn (s : State) (n : Nat) (b : Bool) : Option State :=
  if b = s.on F.CSP_CTRL_EN n then some s
  else if b then (if s.cspSelBad n || s.on F.CSP_CTRL_BUSY n then none else some (s.setB F.CSP_CTRL_EN n true))
  else
    let s1 := s.setB F.CSP_CTRL_EN n false
    some (if s.on F.CSP_CTRL_BUSY n then s1.setB H.CSP_LOST n true else s1)

/-- A write of CSP_CTRL (R520-R523, R527): a refusal leaves everything as it is. -/
def State.writeCspCtrl (s : State) (n v : Nat) : State × Resp :=
  if bit v 0 = true ∧ (s.on F.CSP_CTRL_BUSY n || s.cspLenBad n) = true then s.bad
  else
    match s.cspEn n (bit v 3) with
    | none => s.bad
    | some s1 =>
      let s2 := if bit v 0 then s1.cspBegin n else s1
      (if bit v 1 && s2.on F.CSP_CTRL_BUSY n then s2.setB H.CSP_ABT n true else s2).ok

/-- A write of CSP_CFG (R518, R520). -/
def State.writeCspCfg (s : State) (n v : Nat) : State × Resp :=
  if s.on F.CSP_CTRL_BUSY n then s.bad
  else
    let s1 := ((s.setB F.CSP_CFG_CPHA n (bit v 0)).setB F.CSP_CFG_CPOL n (bit v 1)).setB F.CSP_CFG_FRAME n (bit v 2)
    let s2 := ((s1.setB F.CSP_CFG_SEL_HIGH n (bit v 3)).put F.CSP_CFG_SEL_GPIO n (bits v 4 5)).put F.CSP_CFG_DIV n (max 1 (bits v 16 8))
    ((s2.put F.CSP_CFG_LEAD n (bits v 24 4)).put F.CSP_CFG_TRAIL n (bits v 28 4)).ok

/-- A write of CSP_LEN (R520): 1 to 4,096. -/
def State.writeCspLen (s : State) (n v : Nat) : State × Resp :=
  if s.on F.CSP_CTRL_BUSY n then s.bad else (s.put F.CSP_LEN_BITS n (min 4096 (max 1 (v % 8192)))).ok

/-- A write to the transmit buffer (R520). -/
def State.writeCspTx (s : State) (n m v : Nat) : State × Resp :=
  if s.on F.CSP_CTRL_BUSY n then s.bad else (s.put F.CSP_TX_HW (n * 128 + m) v).ok

/-- A read of the receive buffer (R520): during a transfer it returns the bits received so far, which the
world outside decides. -/
def State.readCspRx (s : State) (n m : Nat) : State × Resp :=
  if s.on F.CSP_CTRL_BUSY n then
    let d := s.draw
    (d.2, .value (d.1 % 2 ^ 32))
  else (s, .value (s.get F.CSP_RX_HW (n * 128 + m)))

/-- The reply of a framed transfer checked (R528). -/
def State.cspCheck (s : State) (n : Nat) : State :=
  let words := s.get F.CSP_LEN_BITS n / 16
  let k := s.cspHw F.CSP_RX_HW n 0 % 256
  if words < k + 3 then s.setB F.CSP_STAT_RX_LEN_ERR n true
  else if crc16 (s.cspBytes F.CSP_RX_HW n (k + 2)) ≠ s.cspHw F.CSP_RX_HW n (k + 2) then s.setB F.CSP_STAT_RX_CRC_ERR n true
  else
    let echo := s.cspHw F.CSP_RX_HW n 0 / 256
    let s1 := if s.on F.CSP_ALIVE_FIRST n || echo == s.get F.CSP_ALIVE_LAST n then s else s.setB F.CSP_STAT_RX_ALIVE_ERR n true
    if s.cspHw F.CSP_RX_HW n 1 / 256 = 0 then s1 else s1.setB F.CSP_STAT_RX_FLAGS n true

/-- LAST takes NEXT, and NEXT increments (R527). -/
def State.cspAlive (s : State) (n : Nat) : State :=
  (s.put F.CSP_ALIVE_LAST n (s.get F.CSP_ALIVE_NEXT n)).incW F.CSP_ALIVE_NEXT n

/-- A transfer is over: the bits clocked, DONE, the gap and interrupt CSP (R519). -/
def State.cspEnd (s : State) (n count : Nat) : State :=
  let s1 := ((s.setB F.CSP_CTRL_BUSY n false).setB F.CSP_STAT_DONE n true).put F.CSP_STAT_BITS n count
  let s2 := s1.put H.CSP_GAP_T n (s1.now + 4 * s1.cspHalf n)
  s2.irq (175 + n)

/-- The moment at which a transfer has clocked so many bits. -/
def State.cspClocked (s : State) (n count : Nat) : Nat :=
  s.get H.CSP_T0 n + (s.get F.CSP_CFG_LEAD n + 2 * count) * s.cspHalf n

/-- A transfer cut by the loss of its select or by its abort (R522, R523): the bits clocked so far, no
check, and the alive counter as it was. -/
def State.cspCut (s : State) (n : Nat) (lost : Bool) (rx : List Bool) : State :=
  let bitsIn := rx.take (s.get F.CSP_LEN_BITS n)
  let abt := s.on H.CSP_ABT n
  let trail := if lost then 0 else s.get F.CSP_CFG_TRAIL n * s.cspHalf n
  let s1 := (s.upTo (s.cspClocked n bitsIn.length + trail)).cspReceive n bitsIn
  let s2 := if lost then s1.setB F.CSP_STAT_SEL_LOST n true else s1
  ((if abt then s2.setB F.CSP_STAT_ABORTED n true else s2).cspEnd n bitsIn.length).setB H.CSP_LOST n false

/-- CSP_TRANSFER_DONE (R519, R523, R527, R528): the transfer releases its select. -/
def State.cspDone (s : State) (n : Nat) (rx : List Bool) : State :=
  if !s.on F.CSP_CTRL_BUSY n then s
  else if s.on H.CSP_LOST n || s.on H.CSP_ABT n then s.cspCut n (s.on H.CSP_LOST n) rx
  else
    let len := s.get F.CSP_LEN_BITS n
    let s1 := (s.upTo (s.cspClocked n len + s.get F.CSP_CFG_TRAIL n * s.cspHalf n)).cspReceive n (rx.take len)
    let s2 := if s.on F.CSP_CFG_FRAME n then (s1.cspCheck n).cspAlive n else s1
    (s2.setB F.CSP_ALIVE_FIRST n false).cspEnd n len

/-- SELECT_LOST (R522): sensed while the port drives its select, or the end that an EN of 0 has asked for. -/
def State.selectLost (s : State) (n : Nat) (rx : List Bool) : State :=
  if s.on F.CSP_CTRL_BUSY n && (s.on F.CSP_CTRL_EN n || s.on H.CSP_LOST n) then s.cspCut n true rx else s

/-! ## GPIO -/

/-- The port that drives a GPIO as its select (R521). -/
def State.selPort (s : State) (g : Nat) : Option Nat :=
  [0, 1].find? (fun n => s.on F.CSP_CTRL_EN n && s.get F.CSP_CFG_SEL_GPIO n == g)

/-- The select is at its active level: from its assertion to its release. -/
def State.selActive (s : State) (n : Nat) : Bool := s.on F.CSP_CTRL_BUSY n && decide (s.get H.CSP_T0 n ≤ s.now)

/-- The level that the chip drives on a GPIO: none for an input, and for a blinking STAT_LED, whose phase
the spec leaves open (R108). -/
def State.gpioDriven (s : State) (g : Nat) : Option Bool :=
  match s.selPort g with
  | some n => some (s.on F.CSP_CFG_SEL_HIGH n == s.selActive n)
  | none =>
    if g = 31 ∧ s.on F.GPIO_FUNC_LED31 0 = true then
      (match s.get H.STAT_LED 0 with | 0 => some false | 2 => some true | _ => none)
    else if bit (s.get F.GPIO_OE_OE 0) g then some (bit (s.get F.GPIO_OUT_OUT 0) g)
    else none

/-- A read of GPIO_IN: the balls that the chip does not drive are the world's. -/
def State.readGpioIn (s : State) : State × Resp :=
  let d := s.draw
  (d.2, .value (maskOf ((List.range 32).filter (fun g => match s.gpioDriven g with | some b => b | none => bit d.1 g))))

/-! ## IO_SETUP -/

/-- SEL_GPIO of a CSP_CFG value. -/
def cfgSel (v : Nat) : Nat := bits v 4 5

/-- An IO_SETUP body that ends the attempt (R533). -/
def ioBad (l : List Byte) : Bool :=
  let c0 := cfgSel (fieldB l 0x14 4)
  let c1 := cfgSel (fieldB l 0x18 4)
  let en := fieldB l 0x1C 1
  fieldB l 0 4 != 0x50554F49 || fieldB l 4 2 != 1 || (bit en 0 && c0 == 31) || (bit en 1 && c1 == 31)
    || (bit en 0 && bit en 1 && c0 == c1)

/-- IO_SETUP applied (R533): the values first, and EN last. -/
def State.ioSetup (s : State) (l : List Byte) : State :=
  let s1 := ((s.put F.GPIO_OUT_OUT 0 (fieldB l 8 4)).put F.GPIO_OE_OE 0 (fieldB l 0xC 4)).setB F.GPIO_FUNC_LED31 0 (bit (fieldB l 0x10 4) 0)
  let s2 := ((s1.writeCspCfg 0 (fieldB l 0x14 4)).1.writeCspCfg 1 (fieldB l 0x18 4)).1
  let en := fieldB l 0x1C 1
  ((s2.writeCspCtrl 0 (8 * b2n (bit en 0))).1.writeCspCtrl 1 (8 * b2n (bit en 1))).1

end Sys2Proof.Machine
end

