-- ==== Sys2Proof/Machine/Boot.lean ====
section
/-!
DEFINITION. The bring-up (R78-R108): the trim load, the attempts on the image slots, the image checks and
loads, the entry to STANDBY, FACTORY or MINIMAL, and the contact check.
-/

namespace Sys2Proof.Machine

/-! ## The flash layout (R86-R89) -/

/-- H, the size of a slot, and the base of slot n. -/
def State.slotSize (s : State) : Nat := (s.get H.FLASH_SIZE 0 - 0x100000) / 2
def State.slotBase (s : State) (n : Nat) : Nat := 0x100000 + n * s.slotSize

/-- Bytes of the image in slot n. -/
def State.image (s : State) (n off len : Nat) : List Byte := s.flRead (s.slotBase n + off) len

/-- A copy of the directory, and whether it is good (R87). -/
def State.dirCopy (s : State) (n : Nat) : List Byte := s.flRead (n * 0x1000) 16
def dirGood (l : List Byte) : Bool := fieldB l 0 4 == 0x52494444 && fieldB l 0xC 4 == crc32c (l.take 12)

/-- GEN of a copy plus 1, and 0 for a copy that is not good. -/
def dirRank (l : List Byte) : Nat := if dirGood l then fieldB l 4 4 + 1 else 0

/-- The copy in force (R87). -/
def State.dir (s : State) : Option (List Byte) :=
  let a := s.dirCopy 0
  let b := s.dirCopy 1
  if dirRank a = 0 ∧ dirRank b = 0 then none else if dirRank a < dirRank b then some b else some a

/-- The active slot. -/
def State.activeSlot (s : State) : Nat := match s.dir with | none => 0 | some l => fieldB l 8 1 % 2

/-- The state of a slot by the directory: 0 valid, 1 bad, 0xFF blank.  Without a directory a slot is
blank while its header is erased. -/
def State.slotState (s : State) (n : Nat) : Nat :=
  match s.dir with
  | some l => fieldB l (9 + n) 1
  | none => if (s.image n 0 256).all (fun b => b == flashByte) then 0xFF else 0

/-- A directory copy (R87). -/
def dirBytes (gen active a b : Nat) : List Byte :=
  let l := leBytes 4 0x52494444 ++ leBytes 4 gen ++ leBytes 1 active ++ leBytes 1 a ++ leBytes 1 b ++ [0]
  l ++ leBytes 4 (crc32c l)

/-- The directory rewritten (R88, R102): slot active, the other bad. -/
def State.dirRewrite (s : State) (slot : Nat) : State :=
  if s.coreCold then s.setB F.BOOT_REASON_FLASH_WR_SKIP 0 true
  else
    let a := dirRank (s.dirCopy 0)
    let b := dirRank (s.dirCopy 1)
    let n := if a ≤ b then 0 else 1
    let gen := max a b
    ((s.flErase (n * 0x1000) 0x1000).flProgram (n * 0x1000)
      (dirBytes gen slot (if slot = 0 then 0 else 1) (if slot = 0 then 1 else 0))).put F.CFG_DIR_GEN_GEN 0 gen

/-- Boot record n of the 512 places, and whether it is valid (R89). -/
def State.bootRec (s : State) (n : Nat) : List Byte := s.flRead (0x2000 + 16 * n) 16
def recGood (l : List Byte) : Bool :=
  (fieldB l 0 1 == 1 || fieldB l 0 1 == 2) && fieldB l 12 4 == crc32c (l.take 12)

/-- The place of the latest boot record: the valid one with the highest SEQ. -/
def State.bootLatest (s : State) : Option Nat :=
  (List.range 512).foldl (fun (o : Option Nat) n =>
    if recGood (s.bootRec n) then
      (match o with
        | none => some n
        | some m => if fieldB (s.bootRec m) 4 4 < fieldB (s.bootRec n) 4 4 then some n else o)
    else o) none

/-- A boot record appended (R89, R90): in the next erased place of the current sector, else in the other
sector, which is erased. -/
def State.bootAppend (s : State) (typ slot c : Nat) : State :=
  if !s.hasFlash then s
  else if s.coreCold then s.setB F.BOOT_REASON_FLASH_WR_SKIP 0 true
  else
    let last := s.bootLatest
    let q := match last with | none => 1 | some n => (fieldB (s.bootRec n) 4 4 + 1) % 2 ^ 32
    let sector := match last with | none => 0 | some n => n / 256
    let from0 := match last with | none => 0 | some n => n % 256 + 1
    let l := leBytes 1 typ ++ leBytes 1 (s.get F.BOOT_ATTEMPT_FAILS 0) ++ leBytes 1 slot ++ leBytes 1 c ++ leBytes 4 q ++ zeros 4
    let r := l ++ leBytes 4 (crc32c l)
    match (List.range 256).find? (fun j => decide (from0 ≤ j) && (s.bootRec (sector * 256 + j)).all (fun b => b == flashByte)) with
    | some j => s.flProgram (0x2000 + 16 * (sector * 256 + j)) r
    | none => (s.flErase (0x2000 + (1 - sector) * 0x1000) 0x1000).flProgram (0x2000 + (1 - sector) * 0x1000) r

/-! ## The trim load (R78-R80) -/

/-- A block that failed its first read (R79). -/
def State.trimRetry (s : State) (b : Nat) : State :=
  ((s.setB F.TRIM_STAT_RETRIED 0 true).put F.TRIM_STAT_BLOCK 0 b).setB F.BOOT_REASON_TRIM_RETRY 0 true

/-- A tile whose trim registers differ from the fuses after a warm reset (R80). -/
def State.trimMismatch (s : State) (t : Nat) : State :=
  ((s.faultRaise (72 + t) t false).tileOff t).put F.TRIM_STAT_TILE_MISMATCH 0 (setBit (s.get F.TRIM_STAT_TILE_MISMATCH 0) t)

/-- The trim and option load of step 3. -/
def State.trimLoad (s : State) (w : BootWorld) : State :=
  let s1 := match w.fuseRetry with | none => s | some b => s.trimRetry b.val
  let s2 := match w.fuseFail with | none => s1 | some b => s1.trimRetry b.val
  let s3 := s2.secLoad (match w.fuseFail with | none => none | some b => if b.val < 104 then none else some b.val)
  let s4 := if s.on H.WAS_WARM 0 then s3.each (bitsOf 8 w.tileMismatch) State.trimMismatch else s3
  s4.setB F.TRIM_STAT_DONE 0 true

/-- The fuse failure that ends the attempt (R79, R596). -/
def trimFails (w : BootWorld) : Bool := match w.fuseFail with | none => false | some b => decide (b.val < 104)

/-! ## Power -/

/-- The units of a tile that the load of step 3 sets from the store (R425): CH_DSK and the TDCs where the
tile comes up, the TDCs where it held its channels through a warm reset. -/
def State.tileUp (s : State) (t : Nat) : State :=
  if s.on H.PD_TILE_BARRED t then s
  else
    let s1 := if s.on H.PD_TILE t then s
      else (List.range 64).foldl (fun (x : State) i =>
        let d := Config.factoryDsk (t * 64 + i)
        let x1 := (x.put F.CH_DSK_DSK_DRV (t * 64 + i) d).put F.CH_DSK_DSK_CMP (t * 64 + i) (d / 65536)
        (x1.put H.CH_DSK_USE_DRV (t * 64 + i) d).put H.CH_DSK_USE_CMP (t * 64 + i) (d / 65536)) (s.setB H.PD_TILE t true)
    s1.each ((List.range 16).map (76 + ·)) (fun x u =>
      (x.calUse t u (x.corrBytes (t * 0x10000 + calOff u) (calSize u))).put H.TDC_TRIM (t * 16 + calLocal u)
        (bits (x.get F.THM_BAND_TDC 0) (2 * t) 2))

/-- The scratchpad arrays of banks 1 to 15 powered at step 7 (R604): their power-up wipes the secure
region. -/
def State.arraysUp (s : State) : State := if s.on H.PD_H123 0 then s else (s.setB H.PD_H123 0 true).wipeNow

/-- The Cellar at step 8 (R83, R535-R537, R209): trained and sized, its tables zero; the second result
tells whether it trained. -/
def State.cellarUp (s : State) (w : BootWorld) : State × Bool :=
  if !s.on F.BOOT_REASON_CELLAR_LOST 0 then (s.setB F.CEL_CFG_SELF_REF 0 false, true)
  else
    let d := w.density.val
    let good := decide (d ≠ 0) && w.trained % 256 == 255
    let s1 := ((s.setB H.PD_CELLAR 0 true).put F.CEL_CFG_DENSITY 0 d).put F.CEL_CFG_CH_OK 0 w.trained
    let top := 0x8000000000 + (if d = 0 then 0 else 31 * 2 ^ (28 + d))
    let s2 := ((s1.put2 F.CEL_TOP_LO_TOP_LO F.CEL_TOP_HI_TOP_HI 0 top).setB F.CEL_CFG_READY 0 good).setB F.CEL_CFG_SELF_REF 0 false
    let s3 : State := { s2 with cellar := [], celErr := [], csBodies := [] }
    (if good then s3 else s3.setB H.PD_CELLAR 0 false, good)

/-- The fabric and the Porches at step 8. -/
def State.fabricUp (s : State) (porches : List Nat) : State :=
  (s.setB H.PD_FABRIC 0 true).each porches (fun t p => (t.setB H.PD_PORCH p true).porchOn p)

/-- Step 9: the Pantry, the engines with their stores loaded again, and the tiles (R39, R269). -/
def State.powerUp (s : State) : State :=
  let s1 := (s.setB H.PD_PANTRY 0 true).each allGroups (fun t g => t.setB H.PD_ENG g true)
  (s1.each (List.range 64) State.csReload).each (List.range 8) State.tileUp

/-! ## An attempt -/

/-- What an attempt has come to: the state, the slot, the header, the section table, the failure (code and
step, code 0 none), the bodies that step 11 and step 12 apply (empty: no such section), and the counts of
CFG_STAT. -/
structure Attempt where
  s : State
  slot : Nat
  hdr : List Byte
  tab : List (List Byte)
  code : Nat
  step : Nat
  map : List Byte
  levels : List Byte
  cal : List Byte
  io : List Byte
  auto : List Byte
  autoBase : Nat
  stores : List (Nat × List Byte)
  patch : List Byte
  fw : Nat
  count : Nat
  enc : Bool

/-- The attempt fails (R99). -/
def Attempt.fail (b : Attempt) (c st : Nat) : Attempt := if b.code = 0 then { b with code := c, step := st } else b

/-- A stage of an attempt that has not failed. -/
def Attempt.stage (b : Attempt) (f : Attempt → Attempt) : Attempt := if b.code = 0 then f b else b

/-- A condition that an attempt must meet. -/
def Attempt.need (b : Attempt) (c st : Nat) (p : Bool) : Attempt := if p then b else b.fail c st

/-- Header fields (R91). -/
def imgLen (h : List Byte) : Nat := fieldB h 0xC 4
def imgFlags (h : List Byte) : Nat := fieldB h 0x18 4
def imgSections (h : List Byte) : Nat := fieldB h 0x1C 2
def imgSig (h : List Byte) : Nat := fieldB h 0x24 4

/-- The header check of R95 step 1, with IMAGE_LEN = SIGBLOCK + 2,048 (R605). -/
def headOk (h : List Byte) (size : Nat) : Bool :=
  fieldB h 0 4 == 0x434B5744 && fieldB h 4 2 == 1 && fieldB h 6 2 == 256 && fieldB h 0xFC 4 == crc32c (h.take 252)
    && decide (imgLen h ≤ size) && imgLen h == imgSig h + 2048

/-- Step 5: the header (R95, steps 1 to 3). -/
def Attempt.header (b : Attempt) (w : BootWorld) : Attempt :=
  let h := b.s.image b.slot 0 256
  let b1 := (({ b with hdr := h } : Attempt).need 0x10 5 (b.s.slotState b.slot == 0)).need 0x1C 5 (!w.flashError)
  let b2 := (b1.need 0x10 5 (headOk h b.s.slotSize)).need 0x11 5 (fieldB h 8 4 == 0x0D5E0512)
  b2.need 0x12 5 (decide (b.s.get F.CFG_ROLLBACK_FUSE_CTR 0 ≤ fieldB h 0x14 4))

/-- Step 6: the signatures (R95 step 4, R607). -/
def Attempt.signature (b : Attempt) : Attempt :=
  let m := b.s.image b.slot 0 (256 + 96 * imgSections b.hdr)
  match b.s.sigCheck (b.s.image b.slot (imgSig b.hdr) 2048) m (b.s.lc == lcDEVELOP) with
  | .good => b
  | .badLms => b.fail 0x14 6
  | _ => b.fail 0x13 6

/-- Fields of a section table entry (R92). -/
def secType (e : List Byte) : Nat := fieldB e 0 2
def secEnc (e : List Byte) : Bool := bit (fieldB e 2 2) 0
def secReq (e : List Byte) : Bool := bit (fieldB e 2 2) 1
def secOff (e : List Byte) : Nat := fieldB e 4 4
def secLen (e : List Byte) : Nat := fieldB e 8 4
def secTarget (e : List Byte) : Nat := fieldB e 0x10 8

/-- Sections lie in ascending order, apart, between the table and SIGBLOCK, on 16-byte boundaries. -/
def secsLie (limit : Nat) : Nat → List (List Byte) → Bool
  | _, [] => true
  | lo, e :: es => decide (lo ≤ secOff e) && secOff e % 16 == 0 && decide (secOff e + secLen e ≤ limit)
      && secsLie limit (secOff e + secLen e) es

/-- The layout of the section table (R92, R95 step 5). -/
def tableOk (h : List Byte) (tab : List (List Byte)) : Bool :=
  decide (1 ≤ imgSections h) && decide (imgSections h ≤ 64) && fieldB h 0x20 4 == 256 && imgSig h % 16 == 0
    && tab.all (fun e => fieldB e 0xC 4 == 0 && fieldB e 0x58 8 == 0 && decide (secTarget e < 2 ^ 40))
    && secsLie (imgSig h) (256 + 96 * imgSections h) tab

/-- The section table, and its check. -/
def Attempt.table (b : Attempt) : Attempt :=
  let n := imgSections b.hdr
  let l := b.s.image b.slot 256 (96 * n)
  let t := (List.range n).map (fun j => sliceB l (96 * j) 96)
  ({ b with tab := t } : Attempt).need 0x15 6 (tableOk b.hdr t)

/-- The initialisation vector of section n (R94). -/
def secIv (h : List Byte) (n : Nat) : List Byte := sliceB h 0x30 8 ++ leBytes 4 (fieldB h 0x38 4 ^^^ n)

/-- The additional data of a section: its entry with TAG at zero (R94). -/
def secAad (e : List Byte) : List Byte := e.take 0x48 ++ zeros 16 ++ e.drop 0x58

/-- A section read and checked (R94, R95 step 6, R608): its plaintext, or the code of its failure. -/
def Attempt.body (b : Attempt) (n : Nat) (e : List Byte) : Except Nat (List Byte) :=
  let raw := b.s.image b.slot (secOff e) (secLen e)
  if Config.sha384 raw ≠ sliceB e 0x18 48 then .error 0x16
  else if secEnc e then
    if b.s.on F.SEC_STAT_KEY_LOADED 0 then
      (match Config.gcmOpen b.s.imageKey (secIv b.hdr n) (secAad e) raw (sliceB e 0x48 16) with
        | none => .error 0x17
        | some p => .ok p)
    else .error 0x17
  else .ok raw

/-- A section counted (CFG_STAT). -/
def Attempt.counted (b : Attempt) (e : List Byte) : Attempt := { b with count := b.count + 1, enc := b.enc || secEnc e }

/-- The firmware body (R609). -/
def fwOk (s : State) (l : List Byte) : Bool :=
  let sec := fieldB l 0xC 4
  let main := fieldB l 0x10 4
  fieldB l 0 4 == 0x57465448 && fieldB l 4 2 == 1 && decide (fieldB l 6 2 ≤ 15) && decide (256 ≤ sec) && decide (sec ≤ 65536)
    && sec % 16 == 0 && decide (16 ≤ main) && decide (main ≤ 1638400) && main % 16 == 0 && l.length == 64 + sec + main
    && (sliceB l 0x18 40).all (fun x => x == 0) && decide (fieldB l 0x14 4 ≤ s.get F.SEC_ROM_VER_VERSION 0)

/-- The firmware placed (R610). -/
def Attempt.fwPlace (b : Attempt) (l : List Byte) : Attempt :=
  let sec := fieldB l 0xC 4
  let s1 := (b.s.spWrite 0x1F0000 (sliceB l 64 sec)).spWrite 0x60000 (sliceB l (64 + sec) (fieldB l 0x10 4))
  { b with s := s1.put F.SEC_FW_VER_VERSION 0 (fieldB l 8 4), fw := fieldB l 8 4 }

/-- Step 7: HEARTH_FW (R602, R608-R610); an image without one runs the firmware of the boot ROM. -/
def Attempt.firmware (b : Attempt) : Attempt :=
  let b0 : Attempt := { b with s := b.s.arraysUp }
  match b0.tab.zipIdx.filter (fun p => secType p.1 == 1) with
  | [] => { b0 with s := b0.s.put F.SEC_FW_VER_VERSION 0 Config.romFirmwareVersion, fw := Config.romFirmwareVersion }
  | [p] =>
    if b0.s.lc = lcSECURE ∧ secEnc p.1 = false then b0.fail 0x15 7
    else
      (match b0.body p.2 p.1 with
        | .error c => b0.fail c 7
        | .ok l => if fwOk b0.s l then (b0.fwPlace l).counted p.1 else b0.fail 0x15 7)
  | _ => b0.fail 0x15 7

/-- Step 8 (R81, R83). -/
def Attempt.cellar (b : Attempt) (w : BootWorld) : Attempt :=
  let lost := b.s.on F.BOOT_REASON_CELLAR_LOST 0
  let r := b.s.cellarUp w
  let s1 := if lost then r.1.fabricUp allPorches else r.1
  ({ b with s := s1 } : Attempt).need 0x1B 8 r.2

/-! ## Sections (R93) -/

/-- A body written to its target in the Cellar window outside the sequencer region (R207). -/
def State.placeBody (s : State) (target : Nat) (l : List Byte) : State × Bool :=
  if s.inWindow target l.length && !meetsSeq target then s.celStore clsHearth (celOff target) l else (s, false)

/-- A load in the Cellar succeeded. -/
def loadGood (r : State × LoadEnd) : State × Bool := (r.1, match r.2 with | .done _ => true | _ => false)

/-- A PATTERN body (R208). -/
def State.bootPattern (s : State) (target : Nat) (l : List Byte) : State × Bool :=
  let r := s.placeBody target l
  if r.2 then loadGood (r.1.patLoadAt (celOff target) l.length) else r

/-- A SEGMENT_TABLE body (R209). -/
def State.bootSegments (s : State) (target : Nat) (l : List Byte) : State × Bool :=
  let r := s.placeBody target l
  if r.2 then loadGood (r.1.segLoadAt (celOff target) l.length) else r

/-- An AUTORUN body (R285). -/
def autoOk (target : Nat) (l : List Byte) : Bool :=
  let first := fieldB l 8 2
  let n := fieldB l 0xA 2
  let entry := fieldB l 0xC 2
  fieldB l 0 4 == 0x4E555241 && fieldB l 4 2 == 1 && decide (fieldB l 6 1 < 64) && fieldB l 7 1 == 0 && decide (first + n ≤ 4096)
    && decide (first ≤ entry) && decide (entry < first + n) && fieldB l 0xE 2 == 0
    && (sliceB l 0x14 12).all (fun x => x == 0) && decide (0x20 + 16 * n + fieldB l 0x10 4 ≤ l.length) && target % 4096 == 0

/-- An MCODE_PATCH body (R611). -/
def patchOk (fw target : Nat) (l : List Byte) : Bool :=
  let first := fieldB l 6 2
  let n := fieldB l 8 2
  fieldB l 0 4 == 0x48435450 && fieldB l 4 2 == 1 && decide (3584 ≤ first) && decide (first ≤ 4095) && decide (first + n ≤ 4096)
    && fieldB l 0xA 2 == 0 && (sliceB l 0x14 12).all (fun x => x == 0) && decide (fieldB l 0x10 4 ≤ fw)
    && (csWords l).all parityOk && decide (0x20 + 16 * n ≤ l.length) && target == 0

/-- The engine whose control-store window begins at an address. -/
def windowEngine (a : Nat) : Option Nat :=
  if 0x20000000 ≤ a ∧ a < 0x20000000 + 64 * 0x100000 ∧ a % 0x100000 = 0 then some ((a - 0x20000000) / 0x100000) else none

/-- A ROOM_CS body by itself (R267, R268). -/
def storeOk (l : List Byte) : Bool :=
  csHeadBad l == 0 && decide (csLen l ≤ l.length) && (csWords l).all parityOk

/-- The body of a section taken in. -/
def Attempt.take (b : Attempt) (e l : List Byte) : Attempt :=
  match secType e with
  | 2 => ({ b with patch := l } : Attempt).need 0x15 10 (patchOk b.fw (secTarget e) l && b.patch.isEmpty)
  | 3 => { b with map := l }
  | 4 => match windowEngine (secTarget e) with
    | none => b.fail 0x15 10
    | some k => ({ b with stores := b.stores ++ [(k, l)] } : Attempt).need 0x15 10 (storeOk l)
  | 5 => let r := b.s.bootPattern (secTarget e) l
         ({ b with s := r.1 } : Attempt).need 0x15 10 r.2
  | 6 => let r := b.s.bootSegments (secTarget e) l
         ({ b with s := r.1 } : Attempt).need 0x15 10 r.2
  | 7 => ({ b with levels := l } : Attempt).need 0x15 10 (levelsHeadOk l)
  | 8 => ({ b with cal := l } : Attempt).need 0x15 10 (calHeadBad l == 0)
  | 9 => let r := b.s.placeBody (secTarget e) l
         ({ b with s := r.1, auto := l, autoBase := secTarget e } : Attempt).need 0x15 10 (r.2 && autoOk (secTarget e) l)
  | _ => ({ b with io := l } : Attempt).need 0x15 10 (!ioBad l)

/-- Sections that a warm bring-up skips (R83): their targets lie in the Cellar window, whose contents
stand. -/
def Attempt.skips (b : Attempt) (lost : Bool) (e : List Byte) : Bool :=
  b.s.on H.WAS_WARM 0 && !lost && (secType e == 5 || secType e == 6 || secType e == 9)

/-- Where the tag of a section does not match, the plaintext that stands at its target is overwritten with
zeros (R608). -/
def Attempt.scrub (b : Attempt) (c : Nat) (e : List Byte) : Attempt :=
  if c = 0x17 ∧ b.s.on F.SEC_STAT_KEY_LOADED 0 = true ∧ (secType e = 5 ∨ secType e = 6 ∨ secType e = 9) then
    { b with s := (b.s.placeBody (secTarget e) (zeros (secLen e))).1 }
  else b

/-- One section of step 10 (R93). -/
def Attempt.section1 (b : Attempt) (lost : Bool) (e : List Byte) (n : Nat) : Attempt :=
  if secType e = 1 ∨ b.skips lost e = true then b
  else if secType e = 0 ∨ 10 < secType e then (if secReq e then b.fail 0x15 10 else b)
  else
    match b.body n e with
    | .error c => (b.scrub c e).fail c 10
    | .ok l => (b.take e l).counted e

/-- Step 10: the remaining sections in the order of the table. -/
def Attempt.sections (b : Attempt) (lost : Bool) : Attempt :=
  b.tab.zipIdx.foldl (fun (x : Attempt) p => x.stage (fun y => y.section1 lost p.1 p.2)) b

/-! ## Step 11 -/

/-- The entries of the map, and its STEAL_FREE; an image without a map binds no site. -/
def Attempt.entries (b : Attempt) : List SiteEntry := if b.map.isEmpty then [] else (mapEntries b.map).map parseEntry
def Attempt.freeMask (b : Attempt) : Nat := if b.map.isEmpty then 0 else fieldB b.map 8 8

/-- Engines that the map lets steal (R281). -/
def Attempt.stealers (b : Attempt) : List Nat :=
  (List.range 64).filter (fun k => bit b.freeMask k || b.entries.any (fun e => e.engine == k && bit e.flags 0))

/-- The site map check (R95 step 7, R96), and the checks that need the map: stores of stealing engines
(R268) and the autorun engine (R286). -/
def Attempt.mapCheck (b : Attempt) : Attempt :=
  let c := if b.map.isEmpty then 0 else b.s.mapBad b.map
  let b1 := b.need c 11 (c == 0)
  let b2 := b1.need 0x15 11 (b.stores.all (fun p =>
    decide (csFirst p.2 + fieldB p.2 8 2 ≤ 3584) || !(csEngines p.1 p.2).any b.stealers.contains))
  b2.need 0x19 11 (b.auto.isEmpty || b.entries.all (fun e => e.engine != fieldB b.auto 6 1))

/-- A control-store body kept and written, unless Hearth has the same copy and the stores hold it (R269). -/
def Attempt.storeLoad (b : Attempt) (es : List Nat) (l : List Byte) : Attempt :=
  if b.s.csBodies.contains (⟨maskOf es, l⟩ : CsBody) then b
  else if b.s.csOver l.length then b.fail 0x15 11
  else { b with s := (b.s.csKeep es l).each es (fun t k => t.csLoad k (csFirst l) (csWords l)) }

/-- The control stores and the idle routines written (R267, R611). -/
def Attempt.storesLoad (b : Attempt) : Attempt :=
  let b1 := b.stores.foldl (fun (x : Attempt) p => x.stage (fun y => y.storeLoad (csEngines p.1 p.2) p.2)) b
  if b.patch.isEmpty then b1 else b1.stage (fun y => y.storeLoad b.stealers b.patch)

/-- The outputs of an entry safe at once, and its site unbound. -/
def State.dropEntry (s : State) (e : SiteEntry) : State :=
  let q := siteScope e.site e
  (((s.safeStage q 1).safeStage q 2).safeStage q 3).unbindSite e.site

/-- A warm reset holds the site (WARM_HELD). -/
def State.warmHeld (s : State) (i : Nat) : Bool :=
  bit (s.get F.WARM_HELD_LO_HELD 0 + s.get F.WARM_HELD_HI_HELD 0 * 2 ^ 32) i

/-- Record headers are written anew (R292): after a cold reset, or with the Cellar's contents lost. -/
def State.headersLost (s : State) : Bool := s.on F.BOOT_REASON_CELLAR_LOST 0 || !s.on H.WAS_WARM 0

/-- Entries bound at the end of a bring-up (R292, R301). -/
def State.bindAll (s : State) (es : List SiteEntry) (lost : Bool) : State :=
  let s1 := s.each es (fun t e => (t.bindEntry e).siteAfterReset e (t.warmHeld e.site) lost)
  let s2 := s1.each (bitsOf 64 (s1.get H.SITE_FREE 0)) (fun t k => t.setB F.ENG_CTRL_STEAL_EN k true)
  s2.stealUpdate

/-- The entries that stand from before a warm reset and that the map leaves alone. -/
def State.keptEntries (s : State) (es : List SiteEntry) : List SiteEntry :=
  (s.entries.map (fun p => p.2)).filter (fun o => es.all (fun e => e.site != o.site && entriesApart e o))

/-- The map applied, or held for the contact check where no site is held (R105). -/
def Attempt.mapApply (b : Attempt) : Attempt :=
  let es := b.entries
  let hold := bit (imgFlags b.hdr) 2 && b.s.get F.WARM_HELD_LO_HELD 0 == 0 && b.s.get F.WARM_HELD_HI_HELD 0 == 0
  let kept := if hold then [] else b.s.keptEntries es
  let named := es.map (fun e => e.site)
  let s1 := b.s.each ((b.s.entries.map (fun p => p.2)).filter (fun o =>
    !kept.any (fun e => e.site == o.site) && (hold || !named.contains o.site))) State.dropEntry
  let s2 := s1.put H.SITE_FREE 0 b.freeMask
  { b with s := if hold then (({ s2 with heldEntries := es } : State).setB H.HDR_CONTACT 0 true).setB H.BIND_LOST 0 s2.headersLost
                else s2.bindAll (es ++ kept) s2.headersLost }

/-- Step 11 (R81, R158, R209, R428). -/
def Attempt.apply (b : Attempt) (lost : Bool) : Attempt :=
  let s0 := if lost || !b.s.on H.WAS_WARM 0 then b.s else b.s.stabCount
  let b1 := ({ b with s := s0 } : Attempt).mapApply
  let s1 := if b.levels.isEmpty then b1.s else b1.s.levelsApply b.levels
  let s2 := if b.cal.isEmpty then s1 else (s1.calBody b.cal).1
  let s3 := s2.setB F.RST_CTRL_SAFE_ON_WARM 0 (bit (imgFlags b.hdr) 0)
  let s4 := (s3.put H.HDR_WARM_HOLD_MS 0 (fieldB b.hdr 0x3C 4)).put H.HDR_WDOG_MS 0 (fieldB b.hdr 0x40 2)
  { b1 with s := s4 }

/-- The autorun engine of the image noted (R286). -/
def Attempt.autoNote (b : Attempt) : Attempt :=
  let s0 := if bit (imgFlags b.hdr) 1 && b.auto.isEmpty then b.s else b.s.dropField H.ENG_AUTO_ON
  if b.auto.isEmpty ∨ bit (imgFlags b.hdr) 1 = false then { b with s := s0 }
  else
    let k := fieldB b.auto 6 1
    let s1 := ((s0.setB H.ENG_AUTO_ON k true).put H.ENG_AUTO_FIRST k (fieldB b.auto 0xC 2)).put H.ENG_AUTO_BASE k b.autoBase
    { b with s := s1.put H.ENG_AUTO_G0 k (0x20 + 16 * fieldB b.auto 0xA 2) }

/-- One attempt on a slot, from step 4 to step 11. -/
def State.attempt (s : State) (w : BootWorld) (slot : Nat) : Attempt :=
  let lost := s.on F.BOOT_REASON_CELLAR_LOST 0
  let b0 : Attempt := ⟨(s.put F.BOOT_ATTEMPT_SLOT 0 slot).bootAppend 1 slot 0, slot, [], [], 0, 0, [], [], [], [], [], 0, [], [], 0, 0, false⟩
  let b1 := (((b0.header w).stage Attempt.signature).stage Attempt.table).stage Attempt.firmware
  let b2 := (b1.stage (fun b => b.cellar w)).stage (fun b => { b with s := b.s.powerUp })
  let b3 := (b2.stage (fun b => b.sections lost)).stage Attempt.mapCheck
  ((b3.stage Attempt.storesLoad).stage (fun b => b.apply lost)).stage Attempt.autoNote

/-! ## Step 12 -/

/-- The autorun routine starts on the entry to STANDBY (R286). -/
def State.autoBegin (s : State) : State :=
  match s.autoEngine with
  | none => s
  | some k => if s.engRests k then s.autoStart k 0 else s

/-- The contact check begins (R105): three passes of 300 µs. -/
def State.contactBegin (s : State) : State :=
  (s.setB F.CONTACT_CTL_BUSY 0 true).setDue H.CONTACT_END 0 (s.now + 900 * us)

/-- The bring-up has ended in STANDBY or FACTORY (R81, R97, R110): boot timer, FAILS, boot record, BOOT_TIME, watchdog. -/
def State.standby (s : State) (w : BootWorld) (outcome slot : Nat) : State :=
  let m := if s.lc = lcDEVELOP ∧ w.factStrap = true then mFACTORY else mSTANDBY
  let hold := s.on F.THM_LOG_STAT_HOLD_EXIT 0
  let s1 := ((s.noDue H.BOOT_TMR_END 0).put F.BOOT_ATTEMPT_FAILS 0 0).bootAppend 2 slot 0
  let s2 := ((s1.put F.BOOT_REASON_OUTCOME 0 outcome).put F.BOOT_REASON_SLOT 0 slot).put F.BOOT_TIME_TIME_US 0
    (satAt 32 ((s.now - s.get H.BOOT_T0 0) / us))
  let s3 := ((s2.put F.RST_WDOG_CTL_TIMEOUT_MS 0 (max 1 (s.get H.HDR_WDOG_MS 0))).setB F.RST_WDOG_CTL_EN 0 true).put H.WDOG_T0 0 s.now
  let s4 := ((s3.setB H.WDOG_HALF_SEEN 0 false).put H.BOOT_PHASE 0 4).put H.STAT_LED 0 2
  let s5 := s4.enterMode m (if hold then 2 else 4) (if hold then mHOLD else s.get F.MODE_STAT_PREV_MODE 0)
  let s6 := (s5.setB F.THM_LOG_STAT_HOLD_EXIT 0 false).logMaintain
  if m = mFACTORY then s6.idleStart else s6

/-- The end of the warm hold limit (R77): counted from the assertion of the reset. -/
def State.holdLimit (s : State) : State :=
  if s.get H.HDR_WARM_HOLD_MS 0 = 0 ∨ (allSites.all (fun i => s.siteState i != sHELD)) = true then s
  else s.setDue H.WARM_HOLD_END 0 (s.get H.RST_T0 0 + s.get H.HDR_WARM_HOLD_MS 0 * ms)

/-- The registers that describe the loaded image. -/
def Attempt.describe (b : Attempt) : State :=
  let sig := b.s.image b.slot (imgSig b.hdr) 16
  let own := fieldB sig 6 1 == 0xFF
  let s1 := ((b.s.put F.CFG_STAT_SOURCE 0 b.slot).setB F.CFG_STAT_ENCRYPTED 0 b.enc).setB F.CFG_STAT_AUTORUN 0 (bit (imgFlags b.hdr) 1)
  let s2 := ((s1.put F.CFG_STAT_SECTIONS 0 (satAt 8 b.count)).put F.CFG_VERSION_IMAGE_VERSION 0 (fieldB b.hdr 0x10 4)).put
    F.CFG_ROLLBACK_IMAGE_CTR 0 (fieldB b.hdr 0x14 4)
  ((s2.put F.SEC_STAT_IMAGE_SLOT 0 (if own then 0 else fieldB sig 6 1)).setB F.SEC_STAT_SELF_SIGNED 0 own).setB H.IMG_USABLE 0 (!own)

/-- The bindings held for the contact map applied (R105, R292). -/
def State.heldApply (s : State) : State :=
  if s.on H.HDR_CONTACT 0 then
    (({ s with heldEntries := [] } : State).bindAll s.heldEntries (s.on H.BIND_LOST 0)).setB H.HDR_CONTACT 0 false
  else s

/-- An attempt that has succeeded (R81 step 12, R102, R286, R533). -/
def Attempt.succeed (b : Attempt) (w : BootWorld) : State :=
  let fails := b.s.get F.BOOT_ATTEMPT_FAILS 0
  let s1 := b.describe.standby w (min 2 fails) b.slot
  let s2 := if fails = 2 then s1.dirRewrite b.slot else s1
  let s3 := (if b.io.isEmpty then s2 else s2.ioSetup b.io).holdLimit
  if s3.mode ≠ mSTANDBY then s3.heldApply
  else if s3.on H.HDR_CONTACT 0 then s3.contactBegin
  else s3.autoBegin

/-- A bring-up on factory defaults (R103): no site is bound, and the contact check runs. -/
def State.bootDefaults (s : State) (w : BootWorld) (c : Nat) : State :=
  let lost := s.on F.BOOT_REASON_CELLAR_LOST 0
  let s1 := ((s.put F.BOOT_REASON_CODE 0 c).bootAppend 1 0 0).arraysUp.put F.SEC_FW_VER_VERSION 0 Config.romFirmwareVersion
  let r := s1.cellarUp w
  let s2 := (if lost then r.1.fabricUp allPorches else r.1).powerUp
  let s3 := if lost && r.2 then s2.setB F.BOOT_REASON_CELLAR_LOST 0 false else if lost then s2 else s2.stabCount
  let s4 := (s3.each (s3.entries.map (fun p => p.2)) State.dropEntry).dropField H.ENG_AUTO_ON
  let s5 := ((s4.put H.SITE_FREE 0 0).put F.CFG_STAT_SOURCE 0 2).standby w 4 0
  if s5.mode = mSTANDBY then s5.contactBegin else s5

/-- State of the units of the tiles that no register of the tile shows. -/
def tileHidden : List Field :=
  [H.CH_DRV_ON, H.CH_DRV_LVL, H.CH_TERM_ON, H.CH_PMU_ON, H.CH_PMU_SW_END, H.CH_PMU_RNG_END, H.CH_PMU_OLD_RANGE, H.CH_SETTLE_END,
   H.CH_SETTLE_END1, H.CH_BANK_END, H.CH_BANK_NOW, H.CH_DSK_USE_DRV, H.CH_DSK_USE_CMP, H.DPS_POINT, H.DPS_PT_T, H.DPS_HELD,
   H.DPS_RNG_END, H.DPS_OLD_RANGE, H.DPS_DISCH, H.SMU_SW_END, H.SMU_DAC, H.SMU_PHASE, H.SMU_LOAD_PH, H.SMU_RNG_END, H.SMU_DAC0,
   H.SMU_STAGE, H.TDC_FACT1, H.TDC_FACT2, H.TDC_TRIM, H.CAL_MADE]

/-- MINIMAL is entered (R38, R98, R104): the domains that are off there lose their contents. -/
def State.minimal (s : State) (cause : Nat) : State :=
  let s1 := (s.allSafe.each (s.entries.map (fun p => p.2)) (fun t e => (t.freeUnits e).freeEngine e)).celDrop
  let s2 := (s1.each [1, 2, 3, 4, 5, 6, 7] (fun t p => (t.porchOff p).setB H.PD_PORCH p false)).fabricUp [0]
  let s3 := s2.dropFields ([H.PD_PANTRY, H.PD_H123, H.PD_ENG, H.PD_TILE] ++ tileHidden
    ++ ((regsCHAN ++ regsDPS ++ regsSMU ++ regsTDC ++ regsACQ).map RegName.fields).flatten)
  let s4 : State := { s3 with entries := [], heldEntries := [], corr := [], cstore := [], scratch := memClear s3.scratch 0x20000 0x1E0000 }
  let s5 := ((s4.noDue H.BOOT_TMR_END 0).put F.BOOT_REASON_OUTCOME 0 3).put H.BOOT_PHASE 0 4
  (s5.put H.STAT_LED 0 5).enterMode mMINIMAL cause (if s.on F.THM_LOG_STAT_HOLD_EXIT 0 then mHOLD else s.get F.MODE_STAT_PREV_MODE 0)

/-- A failure that the loader detects (R99): counted, with its record. -/
def State.attemptFailed (s : State) (slot c st : Nat) : State :=
  (((s.attemptFails c).put F.BOOT_REASON_CODE 0 c).put F.BOOT_REASON_STEP 0 st).bootAppend 1 slot c

/-- The slot that an attempt uses (R98). -/
def State.slotChosen (s : State) : Nat :=
  if s.get F.BOOT_ATTEMPT_FAILS 0 ≤ 1 then s.activeSlot else 1 - s.activeSlot

/-- Attempts from step 4 on until one succeeds or FAILS is 3 (R97-R99). -/
def State.attempts (s : State) (w : BootWorld) : Nat → State
  | 0 => s.minimal 5
  | n + 1 =>
    if s.get F.BOOT_ATTEMPT_FAILS 0 = 3 then s.minimal 5
    else
      let slot := s.slotChosen
      let b := s.attempt w slot
      if b.code = 0 then
        let s1 := if s.on F.BOOT_REASON_CELLAR_LOST 0 then b.s.setB F.BOOT_REASON_CELLAR_LOST 0 false else b.s
        ({ b with s := s1 } : Attempt).succeed w
      else (b.s.attemptFailed slot b.code b.step).attempts w n

/-- FAILS and SLOT as step 4 takes them (R100, R101): from the latest boot record after a POR, and one
more after a cold reset that followed an ATTEMPT record. -/
def State.attemptCount (s : State) : State :=
  if s.on H.WAS_WARM 0 then s
  else
    match s.bootLatest with
    | none => s
    | some n =>
      let r := s.bootRec n
      let s1 := if s.on H.WAS_BOR 0 then s
        else ((s.put F.BOOT_ATTEMPT_FAILS 0 (fieldB r 1 1)).put F.BOOT_ATTEMPT_SLOT 0 (fieldB r 2 1)).setB F.BOOT_ATTEMPT_FROM_FLASH 0 true
      if fieldB r 0 1 = 1 then s1.attemptFails 0x1E else s1

/-- Step 4 (R81, R98, R103, R601) and what follows. -/
def State.bootStep4 (s : State) (w : BootWorld) : State :=
  let size := if w.flashAnswers then w.flashSize else 0
  let s1 := s.put H.FLASH_SIZE 0 size
  if s1.lc = lcRETIRED then (s1.put F.BOOT_REASON_CODE 0 0x10).minimal 5
  else if size = 0 then s1.bootDefaults w 2
  else
    let s2 := s1.attemptCount.put F.CFG_DIR_GEN_GEN 0 (match s1.dir with | none => 0 | some l => fieldB l 4 4)
    let s3 := if s2.get F.BOOT_ATTEMPT_FAILS 0 = 0 then s2 else s2.put F.BOOT_REASON_CODE 0 (s2.get F.BOOT_ATTEMPT_LAST_CODE 0)
    let s4 := if trimFails w then s3.attemptFailed (s3.get F.BOOT_ATTEMPT_SLOT 0) 0x1A 3 else s3
    if s4.slotState 0 = 0xFF ∧ s4.slotState 1 = 0xFF then s4.bootDefaults w 1
    else s4.attempts w 4

/-! ## Rows -/

/-- BRINGUP (R81): the released reset goes on to step 2, which waits for REF. -/
def State.bringup (s : State) : State :=
  if s.mode = mBRINGUP ∧ s.get H.BOOT_PHASE 0 = 1 then
    let s1 := s.wipeDone.nonceDraw
    (((s1.setB H.PD_CORE 0 true).setB H.PD_H0 0 true).put H.BOOT_PHASE 0 2).put H.STAT_LED 0 0
  else s

/-- REF_DETECT (R81, R84): the boot timer starts at core PLL lock. -/
def State.refDetect (s : State) : State :=
  if s.mode = mBRINGUP ∧ s.get H.BOOT_PHASE 0 = 2 then
    ((s.put H.BOOT_PHASE 0 3).setDue H.BOOT_TMR_END 0 (s.now + 2000 * ms)).put H.STAT_LED 0 1
  else s

/-- BOOT_TIMER_EXPIRY (R97, R100): a WDOG reset with code TIMEOUT. -/
def State.bootExpiry (s : State) : State :=
  match s.due H.BOOT_TMR_END 0 with
  | none => s
  | some t => if s.inAttempt then (s.upTo t).failingReset F.RST_CAUSE_WDOG 0x1D else s

/-- STANDBY_ENTRY (R81): steps 3 to 12 with what the world shows them, up to the mode that they end in;
the boot timer may have run out before. -/
def State.standbyEntry (s : State) (w : BootWorld) : State :=
  if s.inAttempt && !s.on H.CORE0_HALT 0 then
    if (match s.due H.BOOT_TMR_END 0 with | none => false | some t => decide (t ≤ s.now)) then s.bootExpiry
    else ((s.safeUntil s.now 256).trimLoad w).bootStep4 w
  else s

/-- WARM_HOLD_EXPIRY (R77). -/
def State.warmHoldExpiry (s : State) : State :=
  match s.due H.WARM_HOLD_END 0 with
  | none => s
  | some t =>
    let s1 := (s.upTo t).noDue H.WARM_HOLD_END 0
    s1.each (allSites.filter (fun i => s1.siteState i == sHELD)) State.siteAbort

/-! ## The contact check (R105-R108) -/

/-- A write of CONTACT_CTL. -/
def State.writeContactCtl (s : State) (v : Nat) : State × Resp :=
  let s1 := if bit v 2 then s.setB F.CONTACT_CTL_DONE 0 false else s
  let s2 := if bit v 3 then s1.setB F.CONTACT_CTL_REFUSED 0 false else s1
  (if bit v 0 then
    (if s2.mode = mSTANDBY ∧ s2.entries.isEmpty = true then s2.contactBegin else s2.setB F.CONTACT_CTL_REFUSED 0 true)
   else s2).ok

/-- The class of a channel (R106): 0 GOOD, 1 OPEN, 2 SHORT_GND, 3 SHORT_NEIGHBOUR. -/
def contactClass (c : ContactSeen) : Nat :=
  if c.v1 ≤ -1200 then 1 else if -150 < c.v1 then 2 else if -150 < c.vp then 3 else 0

/-- The class map: four channels to a byte. -/
def contactMap (l : List Nat) : List Byte :=
  (List.range (l.length / 4)).map (fun j => BitVec.ofNat 8 ((List.range 4).map (fun m => nthD l (4 * j + m) 0 * 4 ^ m)).sum)

/-- The four class counts, 2 bytes each. -/
def contactCounts (l : List Nat) : List Byte :=
  ([0, 1, 2, 3].map (fun c => leBytes 2 (l.filter (fun x => x == c)).length)).flatten

/-- The status block (R107). -/
def State.contactBlock (s : State) (l : List Nat) (seen : List ContactSeen) : List Byte :=
  leBytes 4 0x314D4343 ++ contactCounts l ++ zeros 4 ++ leBytes 8 s.ts ++ zeros 8 ++ contactMap l
    ++ (seen.map (fun c => leBytes 2 (code 16 c.v1))).flatten

/-- The STAT_LED pattern after a contact check (R108). -/
def contactLed (l : List Nat) : Nat := if l.any (fun c => 2 ≤ c) then 4 else if l.contains 1 then 3 else 2

/-- Held bindings applied after the contact check, and the autorun routine that waited for them. -/
def State.heldDone (s : State) : State := if s.on H.HDR_CONTACT 0 then s.heldApply.autoBegin else s

/-- CONTACT_CHECK_DONE (R105-R107): channels return to the safe state, the map is published, and held
bindings are applied. -/
def State.contactDone (s : State) (seen : List ContactSeen) : State :=
  match s.due H.CONTACT_END 0 with
  | none => s
  | some t =>
    let s1 := ((s.upTo t).noDue H.CONTACT_END 0).each (List.range 512) State.chSafe
    let l := seen.map contactClass
    let head (n : Nat) : List Byte := leBytes 1 n ++ contactCounts l
    let s2 := (s1.spWrite 0xF000 (s1.contactBlock l seen)).event 0x0101 (head 0 ++ contactMap (l.take 256))
    let s3 := s2.event 0x0101 (head 1 ++ contactMap (l.drop 256))
    (((s3.setB F.CONTACT_CTL_BUSY 0 false).setB F.CONTACT_CTL_DONE 0 true).put H.STAT_LED 0 (contactLed l)).heldDone

end Sys2Proof.Machine
end

