-- ==== Sys2Proof/Machine/Memory.lean ====
section
/-!
DEFINITION. The memories as the full-address masters see them: the regions of the address map (R621,
R622), the scratchpad with its secure region, its two ports and its aliases (R544-R550), the Cellar
window, the Pantry debug window (R629), the semaphores (R554-R559) and the scrubber (R541).
-/

namespace Sys2Proof.Machine

/-- The regions of the local address space (R621), with what an address has inside its region. -/
inductive Region where
  | system
  | tile (t : Nat)
  | engine (k : Nat)
  | scratch (x : Nat)
  | setAlias (x : Nat)
  | clearAlias (x : Nat)
  | pantry (x : Nat)
  | cellar (o : Nat)
  | nowhere
  deriving DecidableEq, Repr

/-- The region an address lies in (R621): nowhere is an address outside every region (R622). -/
def State.regionOf (s : State) (a : Nat) : Region :=
  if a < 0x100000 then .system
  else if 0x10000000 ≤ a ∧ a < 0x18000000 then
    if a % 0x1000000 < 0x810000 then .tile ((a - 0x10000000) / 0x1000000) else .nowhere
  else if 0x20000000 ≤ a ∧ a < 0x24000000 then
    if a % 0x100000 < 0x80300 then .engine ((a - 0x20000000) / 0x100000) else .nowhere
  else if 0x40000000 ≤ a ∧ a < 0x40200000 then .scratch (a - 0x40000000)
  else if 0x41000000 ≤ a ∧ a < 0x41200000 then .setAlias (a - 0x41000000)
  else if 0x42000000 ≤ a ∧ a < 0x42200000 then .clearAlias (a - 0x42000000)
  else if 0x80000000 ≤ a ∧ a < 0x82000000 then .pantry (a - 0x80000000)
  else if 0x8000000000 ≤ a ∧ a < 0x8000000000 + s.celTop then .cellar (a - 0x8000000000)
  else .nowhere

/-- Two regions are the same one of R621's rows, with its unit. -/
def sameRegion : Region → Region → Bool
  | .system, .system => true
  | .tile a, .tile b => a == b
  | .engine a, .engine b => a == b
  | .scratch _, .scratch _ => true
  | .setAlias _, .setAlias _ => true
  | .clearAlias _, .clearAlias _ => true
  | .pantry _, .pantry _ => true
  | .cellar _, .cellar _ => true
  | _, _ => false

/-! ## The scratchpad -/

/-- The bank of an offset has power (R544): bank 0 is in PD_H0, banks 1 to 15 in PD_H123. -/
def State.bankOn (s : State) (x : Nat) : Bool := if x < 0x20000 then s.on H.PD_H0 0 else s.on H.PD_H123 0

/-- Whether a master is let into the secure region (R550, R603, R617).  A Hearth core is let in while it
runs in the secure state: core 0 during steps 3 to 7 of a bring-up and as the MINIMAL service; at any
other time what a core fetches is not a command's, so the answer is a free value. -/
def State.secureOpen (s : State) (m : Master) : Bool × State :=
  match m with
  | .security => (true, s)
  | .tap => (s.lc == lcDEVELOP, s)
  | .hearth c =>
    if c.val = 0 ∧ (s.mode = mBRINGUP ∨ s.mode = mMINIMAL) then (true, s)
    else let d := s.draw; (d.1 % 2 == 1, d.2)
  | _ => (false, s)

/-- Whether an access at an offset may act: outside the secure region always; inside it when the
master is let in and no wipe runs (R550, R551). -/
def State.spOpen (s : State) (m : Master) (x : Nat) : Bool × State :=
  if inSecure x then
    if s.on F.SPD_STAT_WIPING 0 then (false, s) else s.secureOpen m
  else (true, s)

/-- A read of one aligned 32-bit word of the scratchpad by a full-address master (R545, R550, R623). -/
def State.spReadWord (s : State) (m : Master) (x : Nat) : State × Resp :=
  if !s.bankOn x then (s, .value 0)
  else
    let o := s.spOpen m x
    if o.1 then (o.2, .value (o.2.spWord x)) else (o.2, .error)

/-- A write of one aligned 32-bit word of the scratchpad by a full-address master. -/
def State.spWriteWord (s : State) (m : Master) (x v : Nat) : State × Resp :=
  if !s.bankOn x then s.ok
  else
    let o := s.spOpen m x
    if o.1 then (o.2.spPut x v).ok else o.2.bad

/-- The word that an alias write stores (R548): V set in it, or V cleared in it. -/
def aliasWord (set : Bool) (old v : Nat) : Nat := if set then old ||| v else old - (old &&& v)

/-- An alias write without anything on port B (R548, R549): a debug port without its right has none (R617). -/
def State.aliasPut (s : State) (m : Master) (set : Bool) (x v : Nat) : State × Resp :=
  if x % 4 ≠ 0 ∨ scratchSize ≤ x ∨ (m = .tap ∧ s.right 0 = false) then s.bad
  else if !s.bankOn x then s.ok
  else
    let o := s.spOpen m x
    if o.1 then (if v = 0 then o.2 else o.2.spPut x (aliasWord set (o.2.spWord x) v)).ok else o.2.bad

/-- A collision of the two ports recorded (R547). -/
def State.collide (s : State) (x : Nat) : State :=
  ((s.setB F.SPD_STAT_DP_COLL 0 true).incSat F.SPD_STAT_COLL_COUNT 0).put F.SPD_COLL_ADDR_ADDR 0
    (0x40000000 + x / 4 * 4)

/-- The two writes meet: they name one word of the dual-port region (R546, R547), and port A writes
something (R549). -/
def portsMeet (x v : Nat) (b : PortB) : Bool := x < 0x40000 && v % 2 ^ 32 != 0 && b.x / 4 == x / 4

/-- An alias write and a store that reaches port B on one of its two cycles (R547-R549): where they meet,
port A stands and the store is an engine memory error of reason 2; else both act. -/
def State.aliasWrite (s : State) (m : Master) (set : Bool) (x v : Nat) (b : Option PortB) : State × Resp :=
  let r := s.aliasPut m set x (v % 2 ^ 32)
  match b with
  | none => r
  | some p =>
    if portsMeet x v p && r.2 == .done then
      let t := (r.1.collide x).memTake p.engine.val 2
      (t.1.memFail p.engine.val t.2 true 2 p.x, r.2)
    else (r.1.storeRow p.engine.val 2 0 p.x (leBytes 4 p.v), r.2)

/-! ## The Cellar and the Pantry windows -/

/-- The Cellar class of a full-address master (R41). -/
def masterClass : Master → Nat
  | .hearth _ => clsHearth
  | .steal => clsHearth
  | .engine _ => clsHearth
  | _ => clsHost

/-- A read of a 32-bit word of the Cellar window: an error response where it is not backed, or its block
gives no data (R536, R538). -/
def State.celReadWord (s : State) (m : Master) (o : Nat) : State × Resp :=
  let r := s.celRead (masterClass m) o 4
  match r.2 with
  | none => (r.1, .error)
  | some b => (r.1, .value (ofLe b))

/-- A write of a 32-bit word of the Cellar window. -/
def State.celWriteWord (s : State) (m : Master) (o v : Nat) : State × Resp :=
  let r := s.celStore (masterClass m) o (leBytes 4 v)
  if r.2 then r.1.ok else r.1.bad

/-- A word of the Pantry debug window (R629): line n of the SRAM, 0 where it is not valid. -/
def State.pantryWord (s : State) (x : Nat) : Nat :=
  if !s.on H.PD_PANTRY 0 then 0
  else match s.lines.find? (fun l => l.slot == x / 4096) with
    | none => 0
    | some l => fieldB l.data (x % 4096) 4

/-! ## Semaphores -/

/-- A master may access a semaphore (R559): while stealing is enabled, 56 to 63 are the steal unit's. -/
def State.semMay (s : State) (n : Nat) (m : Master) : Bool := !s.semReserved n || m == .steal

/-- Reads of one semaphore on one HEARTH cycle (R323, R559): those readers that may access it take part,
and the answer is what the first reader named receives. -/
def State.semReadBy (s : State) (n : Nat) (readers : List Master) : State × Resp :=
  let r := s.semRead n ((readers.filter (s.semMay n)).map masterId)
  (r.1, match readers, r.2 with
    | m :: _, w :: _ => if s.semMay n m then .value w else .error
    | _, _ => .error)

/-- A write of SEM_ACQ by a master (R555, R557, R559). -/
def State.semWriteBy (s : State) (m : Master) (n : Nat) : State × Resp :=
  if !s.semMay n m then s.bad
  else
    let r := s.semRelease n (masterId m)
    if r.2 then r.1.ok else r.1.bad

/-- A write of SEM_FORCE (R558): only Hearth core 0, only with the key; the release is logged. -/
def State.semForce (s : State) (m : Master) (v : Nat) : State × Resp :=
  if m ≠ .hearth 0 ∨ bits v 16 16 ≠ 0x5E3F then s.bad
  else
    let n := v % 64
    (if s.semHeld n then (s.semFree n).logRelease else s).ok

/-! ## The scrubber -/

/-- The block that the scrubber reads is found with an error (R538): class 5. -/
def State.scrubFinds (s : State) (b : Nat) (err : EccSeen) : State :=
  match lookKey b s.celErr, err with
  | some e, _ => if e = 1 then s.celCorr b else s.celUncorr clsScrub b
  | none, .clean => s
  | none, .single => s.celCorr b
  | none, .double => { s with celErr := insKey b 2 s.celErr }.celUncorr clsScrub b

/-- One block of the scrub (R541): in ascending order, wrapping at the top of the window with a pass
counted.  HOURS 0, or a Cellar that takes no requests, stops it. -/
def State.scrubRead (s : State) (err : EccSeen) : State :=
  if s.get F.CEL_SCRUB_HOURS 0 = 0 ∨ s.celReady = false ∨ s.celTop = 0 then s
  else
    let o := s.get H.SCRUB_ADDR 0
    let s1 := s.scrubFinds (o / 64) err
    if o + 64 < s.celTop then s1.put H.SCRUB_ADDR 0 (o + 64)
    else (s1.put H.SCRUB_ADDR 0 0).incW F.CEL_SCRUB_PASSES 0

end Sys2Proof.Machine
end

