-- ==== Sys2Proof/Machine/Supply.lean ====
section
/-!
DEFINITION. What happens at the pin electronics, the power supplies and the source-measure units in
time: settling, range changes, ramps, samples and measurements, limits, the sine generator and its
supervision (R136, R150-R152, R327-R358).
-/

namespace Sys2Proof.Machine

/-! ## Pin electronics -/

/-- The levels of a channel have settled (R136, R137). -/
def State.levelSettled (s : State) (ch : Nat) : State :=
  match s.due H.CH_SETTLE_END ch, s.due H.CH_SETTLE_END1 ch with
  | none, none => s
  | some t, none => (s.upTo t).noDue H.CH_SETTLE_END ch
  | none, some t => (s.upTo t).noDue H.CH_SETTLE_END1 ch
  | some t, some u => (((s.upTo t).upTo u).noDue H.CH_SETTLE_END ch).noDue H.CH_SETTLE_END1 ch

/-- The connect or disconnect sequence of a PMU ends (R150). -/
def State.pmuConnectDone (s : State) (ch : Nat) : State :=
  match s.due H.CH_PMU_SW_END ch with
  | none => s
  | some t => (s.upTo t).pmuMoved ch

/-- The range change of a PMU ends, and a measurement that waited for it begins (R151). -/
def State.pmuRangeDone (s : State) (ch : Nat) : State :=
  match s.due H.CH_PMU_RNG_END ch with
  | none => s
  | some t =>
    let s1 := ((s.upTo t).noDue H.CH_PMU_RNG_END ch).setB F.PMU_CTRL_RANGING ch false
    if s1.on H.CH_PMU_MEAS_WAIT ch then
      (s1.setB H.CH_PMU_MEAS_WAIT ch false).setDue H.CH_PMU_MEAS_END ch (s1.now + 2 ^ s1.get F.PMU_CTRL_AVG ch * (2 * us))
    else s1

/-- A PMU measurement ends (R152); a word that waits for it goes on. -/
def State.pmuMeasDone (s : State) (ch : Nat) (mean : Int) (clamped beyond : Bool) : State :=
  match s.due H.CH_PMU_MEAS_END ch with
  | none => s
  | some t => ((s.upTo t).pmuDone ch mean clamped beyond).engMeasured (unitChan ch)

/-! ## Ramps and limits of a DPS -/

/-- The moment at which the ramp of a gang reaches VSET (R333): none where no ramp runs. -/
def State.rampEndAt (s : State) (d : Nat) : Option Nat :=
  let p := s.getI H.DPS_POINT d
  let v := s.getI F.DPS_VSET_VALUE d
  if !s.on F.DPS_STAT_ON d || s.on H.DPS_HELD d || p == v then none
  else some (s.get H.DPS_PT_T d + (v - p).natAbs * (75 * 2 ^ s.get F.DPS_CTRL_SLEW d))

/-- A ramp ends (R335): the point of the gang stands at VSET. -/
def State.rampEnd (s : State) (d : Nat) : State :=
  let l := s.leadOf d
  match s.rampEndAt l with
  | none => s
  | some t => (s.upTo t).dpsFreeze l

/-- The output has stayed in its band for 5 µs after the ramp (R336). -/
def State.dpsSettled (s : State) (d : Nat) : State :=
  let l := s.leadOf d
  if s.on F.DPS_STAT_ON d && s.getI H.DPS_POINT l == s.getI F.DPS_VSET_VALUE l then
    (s.upTo (s.get H.DPS_PT_T l + 5 * us)).setB F.DPS_STAT_SETTLED d true
  else s

/-- The output has differed from VSET for 10 µs after the ramp, outside the current limit (R328): the
fault source of the tile is raised, and the output stays on. -/
def State.regLoss (s : State) (d : Nat) : State :=
  if s.on F.DPS_STAT_ON d && !s.ramping d && !s.on F.DPS_STAT_IN_LIMIT d then
    let s1 := (s.setB F.DPS_STAT_REG_LOSS d true).setB F.DPS_STAT_SETTLED d false
    (s1.faultRaise (88 + dpsTile d) d false).wakeIf (s.faultNotes (88 + dpsTile d))
  else s

/-- The drop from force to sense has exceeded 500 mV for 10 µs (R327). -/
def State.senseDrop (s : State) (d : Nat) : State :=
  if s.on F.DPS_STAT_ON d then s.setB F.DPS_STAT_SENSE_DROP d true else s

/-- The current of a gang member differs from the mean for 100 µs (R340): SHARE on it and on the lead. -/
def State.share (s : State) (d : Nat) : State :=
  if s.on F.DPS_STAT_ON d && s.get F.DPS_CTRL_MEMBERS (s.leadOf d) != 0 then
    (s.setB F.DPS_STAT_SHARE d true).setB F.DPS_STAT_SHARE (s.leadOf d) true
  else s

/-- The range change of a DPS ends (R343). -/
def State.dpsRangeDone (s : State) (d : Nat) : State :=
  match s.due H.DPS_RNG_END d with
  | none => s
  | some t => (s.upTo t).noDue H.DPS_RNG_END d

/-- The constant-current clamp of a DPS begins or ceases to act (R330): the ramp of the gang stops where
it is and RAMP_HELD is set, or it goes on (R335). -/
def State.currentLimit (s : State) (d : Nat) (limited : Bool) : State :=
  let l := s.leadOf d
  if !s.on F.DPS_STAT_ON d then s
  else if limited then
    let s1 := (s.setB F.DPS_STAT_IN_LIMIT d true).setB F.DPS_STAT_ILIM_SEEN d true
    if s1.ramping l && !s1.on H.DPS_HELD l then
      ((s1.dpsFreeze l).setB H.DPS_HELD l true).setB F.DPS_STAT_RAMP_HELD l true
    else s1
  else
    let s1 := s.setB F.DPS_STAT_IN_LIMIT d false
    if s1.on H.DPS_HELD l then (s1.dpsFreeze l).setB H.DPS_HELD l false else s1

/-! ## The SMU -/

/-- The range change of an SMU ends (R347). -/
def State.smuRangeDone (s : State) (u : Nat) : State :=
  match s.due H.SMU_RNG_END u with
  | none => s
  | some t => (s.upTo t).noDue H.SMU_RNG_END u

/-- The compliance begins or ceases to act (R346). -/
def State.smuCompliance (s : State) (u : Nat) (limited : Bool) : State :=
  if !s.on F.SMU_CTRL_EN u then s
  else if limited then (s.setB F.SMU_STAT_IN_COMP u true).setB F.SMU_STAT_COMP_SEEN u true
  else s.setB F.SMU_STAT_IN_COMP u false

/-- Supervision finds the read-back wrong for SUP_TIME (R354): the output is removed, the DAC takes the
0 V code, and the fault source of the tile is raised. -/
def State.supervision (s : State) (u : Nat) : State :=
  if s.on F.SMU_CTRL_EN u && !s.on F.SMU_STAT_IN_COMP u && !s.smuRanging u && !s.on H.SMU_CAL_OWNED u then
    let s1 := ((s.setB F.SMU_STAT_MISMATCH u true).smuOff u).setB H.SMU_DAC0 u true
    (s1.faultRaise (96 + smuTile u) u false).wakeIf (s.faultNotes (96 + smuTile u))
  else s

/-- SMU_STAT written (W1C): MISMATCH clears only while EN is 0 (R354). -/
def State.smuStatClear (s : State) (u v : Nat) : State :=
  let s1 := if bit v 0 then s.setB F.SMU_STAT_CLAMP u false else s
  let s2 := if bit v 1 then s1.setB F.SMU_STAT_COMP_SEEN u false else s1
  let s3 := if bit v 2 then s2.setB F.SMU_STAT_CLIP u false else s2
  let s4 := if bit v 3 && !s.on F.SMU_CTRL_EN u then s3.setB F.SMU_STAT_MISMATCH u false else s3
  if bit v 4 then s4.setB F.SMU_STAT_TRIP_SEEN u false else s4

/-- SINE_FREQ written (R352): PHASE0 is loaded on the next MOD cycle. -/
def State.sineFreqSet (s : State) (u v : Nat) : State :=
  (s.put F.SMU_SINE_FREQ_FREQ u (min (v % 2 ^ 32) 8947849)).setB H.SMU_LOAD_PH u true

/-- The sine of a phase in 1/2^30 (R352): the fixed table, interpolated linearly. -/
def sineOf (ph : Nat) : Int :=
  let i := ph / 2 ^ 20
  let a := Config.sineTable (i % 4096)
  let b := Config.sineTable ((i + 1) % 4096)
  a + (b - a) * (bits ph 8 12 : Nat) / 4096

/-- The source value of the sine (R350, R352): a sum that falls between two codes takes one of them. -/
def State.sineValue (s : State) (u : Nat) : Int × State :=
  let x := s.getI F.SMU_SET_VALUE u * 2 ^ 30 + (s.get F.SMU_SINE_AMPL_AMPL u : Int) * sineOf (s.get H.SMU_PHASE u)
  s.mean x (2 ^ 30)

/-- The next MOD cycle of the generator of an SMU. -/
def State.sineTime (s : State) (u : Nat) : Nat :=
  (max s.now (s.get H.SMU_MOD_T u) + modCycle - 1) / modCycle * modCycle

/-- One MOD cycle of the sine generator (R352): the phase is loaded or advances, and with SRC at SINE the
source value enters the DAC, limited to ±4,200,000 codes with CLIP. -/
def State.sineStep (s : State) (u : Nat) : State :=
  let t := s.sineTime u
  let s1 := (s.upTo t).setDue H.SMU_MOD_T u t
  let s2 := if s1.on H.SMU_LOAD_PH u then
      (s1.put H.SMU_PHASE u (s1.get F.SMU_SINE_PHASE0_PHASE u)).setB H.SMU_LOAD_PH u false
    else s1.put H.SMU_PHASE u (s1.get H.SMU_PHASE u + s1.get F.SMU_SINE_FREQ_FREQ u)
  if s2.get F.SMU_CTRL_SRC u ≠ 2 then s2
  else
    let v := s2.sineValue u
    let y := smuClamp v.1
    let s3 := v.2.putI H.SMU_DAC u y
    if y = v.1 then s3 else s3.setB F.SMU_STAT_CLIP u true

/-! ## Samples and measurements (R357, R358) -/

/-- The next voltage instant of a unit (R404): on the grid, not before now, and after its last one. -/
def State.sampleTime (s : State) (f : Field) (i : Nat) : Nat := s.gridFrom (max s.now (s.get f i))

/-- A value with a 16-bit or a 32-bit code, at most at its ends. -/
def code16 (x : Int) : Int := clampI (-32768) 32767 x
def code32 (x : Int) : Int := clampI (-2147483648) 2147483647 x

/-- A sample taken into the sums of a measurement. -/
def State.sumTake (s : State) (left sumV sumI lim ovr : Field) (i : Nat) (v c : Int) (limited beyond : Bool) : State :=
  let s1 := (s.put left i (s.get left i - 1)).put sumV i ((s.get sumV i : Int) + v).toNat
  let s2 := s1.put sumI i ((s1.get sumI i : Int) + c).toNat
  let s3 := if limited then s2.setB lim i true else s2
  if beyond then s3.setB ovr i true else s3

/-- One sample of a DPS: the MON registers show it unless a calibration flow owns the unit, and a
measurement in progress takes it unless the range is changing. -/
def State.dpsSample (s : State) (d : Nat) (v c : Int) (limited beyond : Bool) : State :=
  let t := s.sampleTime H.DPS_SAMP_T d
  let s1 := (s.upTo t).setDue H.DPS_SAMP_T d t
  let x := code16 v
  let y := code32 c
  let s2 := if s1.on H.DPS_CAL_OWNED d then s1
    else (s1.putI F.DPS_MON_V_VALUE d x).putI F.DPS_MON_I_VALUE d y
  if s2.on F.DPS_MEAS_BUSY d && s2.get H.DPS_MEAS_LEFT d != 0 && !s2.dpsRanging d then
    s2.sumTake H.DPS_MEAS_LEFT H.DPS_SUM_V H.DPS_SUM_I H.DPS_ACC_LIM H.DPS_ACC_OVER d x y limited beyond
  else s2

/-- The raw read-back of an SMU (R353): one conversion resolves 125 codes of the forced quantity, with a
last place that the spec leaves open. -/
def State.readBack (s : State) (u : Nat) (v c : Int) : State :=
  let r := s.mean (if s.on F.SMU_CTRL_FMODE u then c else v) 125
  r.2.putI F.SMU_RB_RAW u (code16 r.1)

/-- One sample of an SMU. -/
def State.smuSample (s : State) (u : Nat) (v c : Int) (limited beyond : Bool) : State :=
  let t := s.sampleTime H.SMU_SAMP_T u
  let s1 := (s.upTo t).setDue H.SMU_SAMP_T u t
  let x := code32 v
  let y := code32 c
  let s2 := (if s1.on H.SMU_CAL_OWNED u then s1
    else (s1.putI F.SMU_MON_V_VALUE u x).putI F.SMU_MON_I_VALUE u y).readBack u x y
  if s2.on F.SMU_MEAS_BUSY u && s2.get H.SMU_MEAS_LEFT u != 0 && !s2.smuRanging u then
    s2.sumTake H.SMU_MEAS_LEFT H.SMU_SUM_V H.SMU_SUM_I H.SMU_ACC_LIM H.SMU_ACC_OVER u x y limited beyond
  else s2

/-- A sample of either kind of unit whose tile has power. -/
def State.monitorSample (s : State) (u : Supply) (v c : Int) (limited beyond : Bool) : State :=
  match u with
  | .dps d => if s.tileOn (dpsTile d.val) then s.dpsSample d.val v c limited beyond else s
  | .smu u => if s.tileOn (smuTile u.val) then s.smuSample u.val v c limited beyond else s

/-- The exact sum that a measurement holds. -/
def State.sumOf (s : State) (f : Field) (i : Nat) : Int := (s.get f i : Int) - 2 ^ 63

/-- A measurement of a DPS completes (R357, R358). -/
def State.dpsMeasDone (s : State) (d : Nat) : State :=
  if s.on F.DPS_MEAS_BUSY d && s.get H.DPS_MEAS_LEFT d == 0 then
    let s1 := (s.setB F.DPS_MEAS_BUSY d false).setB F.DPS_RES_STAT_VALID d true
    let s2 := if s1.on H.DPS_CAL_OWNED d then s1.setB F.DPS_RES_STAT_STALE d true
      else
        let n := s1.get H.DPS_MEAS_N d
        let v := s1.mean (s1.sumOf H.DPS_SUM_V d) n
        let c := v.2.mean (s1.sumOf H.DPS_SUM_I d) n
        let t := (c.2.putI F.DPS_RES_V_VALUE d v.1).putI F.DPS_RES_I_VALUE d c.1
        ((t.setB F.DPS_RES_STAT_LIMITED d (t.on H.DPS_ACC_LIM d)).setB F.DPS_RES_STAT_OVER d (t.on H.DPS_ACC_OVER d)).setB
          F.DPS_RES_STAT_STALE d false
    s2.engMeasured (unitDps d)
  else s

/-- A measurement of an SMU completes. -/
def State.smuMeasDone (s : State) (u : Nat) : State :=
  if s.on F.SMU_MEAS_BUSY u && s.get H.SMU_MEAS_LEFT u == 0 then
    let s1 := (s.setB F.SMU_MEAS_BUSY u false).setB F.SMU_RES_STAT_VALID u true
    let s2 := if s1.on H.SMU_CAL_OWNED u then s1.setB F.SMU_RES_STAT_STALE u true
      else
        let n := s1.get H.SMU_MEAS_N u
        let v := s1.mean (s1.sumOf H.SMU_SUM_V u) n
        let c := v.2.mean (s1.sumOf H.SMU_SUM_I u) n
        let t := (c.2.putI F.SMU_RES_V_VALUE u v.1).putI F.SMU_RES_I_VALUE u c.1
        ((t.setB F.SMU_RES_STAT_LIMITED u (t.on H.SMU_ACC_LIM u)).setB F.SMU_RES_STAT_OVER u (t.on H.SMU_ACC_OVER u)).setB
          F.SMU_RES_STAT_STALE u false
    s2.engMeasured (unitSmu u)
  else s

/-- A measurement of either kind of unit completes. -/
def State.measurementDone (s : State) (u : Supply) : State :=
  match u with
  | .dps d => s.dpsMeasDone d.val
  | .smu u => s.smuMeasDone u.val

end Sys2Proof.Machine
end

