-- ==== Sys2Proof/Machine/RegBus.lean ====
section
/-!
DEFINITION. Register accesses (R5-R8, R621-R623): what a read of a register answers and changes, what a
write does, the windows that are no registers (control store, engine registers, shadow frame, fault log,
correction store), and the bus that takes an access by its address.
-/

namespace Sys2Proof.Machine

/-! ## Mailboxes (R512-R516) -/

/-- Hearth's epoch (R513). -/
def State.hearthEpoch (s : State) : Nat := s.get F.RST_WARM_COUNT_COUNT 0 % 256

/-- A read of MBX_HOST_RX: the head word of H2D is taken (R514). -/
def State.mbxHostTake (s : State) (b : Nat) : State × Resp :=
  match qGet s.h2d b with
  | [] => (s.setB F.MBX_HOST_RXEP_VALID b false, .value 0)
  | w :: rest =>
    let t : State := { s with h2d := qSet s.h2d b rest }
    ((t.put F.MBX_HOST_RXEP_EPOCH b w.epoch).setB F.MBX_HOST_RXEP_VALID b true, .value w.word)

/-- A write of MBX_HOST_TX: a word posted to D2H, or an error response where it is full (R514). -/
def State.mbxHostPost (s : State) (b v : Nat) : State × Resp :=
  if 16 ≤ (qGet s.d2h b).length then s.bad
  else State.ok { s with d2h := qSet s.d2h b (qGet s.d2h b ++ [(⟨v, s.hearthEpoch⟩ : MbxWord)]) }

/-- A write of MBX_HOST_DB: RX_DB is W1C, and RING sends MBX_DOORBELL to the host (R510, R516). -/
def State.mbxHostBell (s : State) (b v : Nat) : State × Resp :=
  let s1 := if bit v 1 then s.setB F.MBX_HOST_DB_RX_DB b false else s
  (if bit v 0 then s1.event 0x0301 (leBytes 1 b ++ leBytes 1 (qGet s1.d2h b).length ++ zeros 2) else s1).ok

/-- A write of MBX_ENG_TX: a word posted to H2E; entering an empty queue it makes trap 5 pending (R270). -/
def State.mbxEngPost (s : State) (k v : Nat) : State × Resp :=
  let q := qGet s.h2e k
  if 8 ≤ q.length then s.bad
  else
    let t : State := { s with h2e := qSet s.h2e k (q ++ [(⟨v, s.hearthEpoch⟩ : MbxWord)]) }
    (if q.isEmpty && t.engPowered k then t.pendTrap k 5 else t).ok

/-- A read of MBX_ENG_RX: the head word of E2H is taken (R514). -/
def State.mbxEngTake (s : State) (k : Nat) : State × Resp :=
  match qGet s.e2h k with
  | [] => (s, .value 0)
  | w :: rest => ({ s with e2h := qSet s.e2h k rest }, .value w.word)

/-- A write of MBX_ENG_DB (R516): RING makes trap 5 pending, and in STANDBY, RUN, CALIBRATE and FACTORY
powers up the engine's group where it is off; elsewhere that write is an error. -/
def State.mbxEngBell (s : State) (k v : Nat) : State × Resp :=
  if bit v 0 = false then s.ok
  else if s.engPowered k then (s.pendTrap k 5).ok
  else if s.modeIn [mSTANDBY, mRUN, mCALIBRATE, mFACTORY] then ((s.groupOn (k / 8)).pendTrap k 5).ok
  else s.bad

/-! ## Live fields -/

/-- A mask of the local units of a kind on a tile that satisfy a property. -/
def unitMask (n : Nat) (p : Nat → Bool) : Nat := maskOf ((List.range n).filter p)

/-- A correction of a unit of a tile waits for its boundary (R435). -/
def State.corrWaits (s : State) (t u : Nat) : Bool := (qGet s.corrPend t).any (fun p => p.unit == u)

/-- STATE as ENG_STAT shows it: an engine that runs and waits for an operation or a load is in WAIT. -/
def State.engShown (s : State) (k : Nat) : Nat :=
  if s.engState k == eRUN && (s.get H.ENG_WAIT k != 0 || s.on H.ENG_LD_ON k) then eWAIT else s.engState k

/-- The local timebase as a timestamp with fine bits 0 (TB_LO, TB_HI). -/
def State.tbStamp (s : State) : Nat := s.localAt s.now / coreCycle * 4096 % 2 ^ 64

/-- The fields that show a present condition brought up to date, for a read of their register. -/
def State.refreshed (s : State) (r : RegName) (i : Nat) : State :=
  match r with
  | .FLT_SUM => s.setB F.FLT_SUM_FAULT_N 0 s.faultN
  | .MODE_STAT =>
    (s.setB F.MODE_STAT_HELD 0 (s.get2 F.WARM_HELD_LO_HELD F.WARM_HELD_HI_HELD 0 != 0)).put F.MODE_STAT_ACTIVE_SITES 0
      s.activeCount
  | .TB_LO => s.put2 F.TB_LO_TB_LO F.TB_HI_TB_HI 0 s.tbStamp
  | .EVT_STAT => s.put F.EVT_STAT_QUEUED 0 s.events.length
  | .CMDQ_STAT => s.put F.CMDQ_STAT_OUTSTANDING 0 s.accepted.length
  | .MBX_HOST_STAT =>
    ((s.put F.MBX_HOST_STAT_RX_COUNT i (qGet s.h2d i).length).put F.MBX_HOST_STAT_TX_COUNT i (qGet s.d2h i).length).setB
      F.MBX_HOST_STAT_TX_FULL i (decide (16 ≤ (qGet s.d2h i).length))
  | .MBX_ENG_STAT =>
    let n := (qGet s.h2e i).length
    let s1 := ((s.put F.MBX_ENG_STAT_TX_COUNT i n).put F.MBX_ENG_STAT_RX_COUNT i (qGet s.e2h i).length).setB
      F.MBX_ENG_STAT_TX_FULL i (decide (8 ≤ n))
    s1.put F.MBX_ENG_STAT_RX_EPOCH i (match qGet s.e2h i with | [] => 0 | w :: _ => w.epoch)
  | .MBX_EPOCH => s.put F.MBX_EPOCH_HEARTH 0 s.hearthEpoch
  | .SITE_TASKS =>
    (s.put F.SITE_TASKS_QUEUED i (if s.siteState i = sUNBOUND then 0 else s.dqLen (s.siteEngine i))).put F.SITE_TASKS_HELD i
      (s.siteHeld i)
  | .PAN_STAT =>
    ((s.put F.PAN_STAT_RESIDENT 0 s.lines.length).put F.PAN_STAT_PINNED 0 s.pinnedLines).put F.PAN_STAT_DECODERS 0
      (min 15 s.jobs.length)
  | .SEQ_JUMP_REQ => s.put F.SEQ_JUMP_REQ_REQ i (s.get F.SEQ_JUMP_REQ_PENDING i)
  | .SMUW_JUMP_REQ => s.put F.SMUW_JUMP_REQ_REQ i (s.get F.SMUW_JUMP_REQ_PENDING i)
  | .CH_STAT =>
    let d := s.draw
    let s1 := ((d.2.setB F.CH_STAT_SAFE i (s.chIsSafe i)).setB F.CH_STAT_SETTLING i (s.settling i)).setB
      F.CH_STAT_PAIRED_ODD i (s.pairedOdd i)
    ((s1.setB F.CH_STAT_CMP_HI i (bit d.1 0)).setB F.CH_STAT_CMP_LO i (bit d.1 1)).setB F.CH_STAT_STALE i
      (s.on H.CH_CAL_OWNED i)
  | .DPS_STAT =>
    ((s.setB F.DPS_STAT_RAMPING i (s.ramping i)).setB F.DPS_STAT_RANGING i (s.dpsRanging i)).setB F.DPS_STAT_STALE i
      (s.on H.DPS_CAL_OWNED i)
  | .DPS_OUT => s.putI F.DPS_OUT_POINT i (s.dpsPoint i)
  | .SMU_STAT =>
    let d := s.draw
    let s1 := ((d.2.setB F.SMU_STAT_CLOSED i (s.smuClosed i)).setB F.SMU_STAT_RANGING i (s.smuRanging i)).setB
      F.SMU_STAT_STALE i (s.on H.SMU_CAL_OWNED i)
    s1.setB F.SMU_STAT_SETTLED i (s.smuClosed i && !s.smuRanging i && bit d.1 0)
  | .TDC_CTRL => s.setB F.TDC_CTRL_STALE i (s.on H.TDC_CAL_OWNED i)
  | .TDC_STAT => s.put F.TDC_STAT_QUEUE i (s.tdcQueue i).length
  | .MON_STAT => (s.setB F.MON_STAT_CHK_HI i (s.monCheckHi i)).setB F.MON_STAT_CHK_LO i (s.monCheckLo i)
  | .MON_TILE_LATCH => s.put F.MON_TILE_LATCH_LATCH i (unitMask 20 (fun j => s.latched (i * 20 + j)))
  | .TCAL_OWN_LO => s.put F.TCAL_OWN_LO_CH i (unitMask 32 (fun j => s.calOwned i j))
  | .TCAL_OWN_HI => s.put F.TCAL_OWN_HI_CH i (unitMask 32 (fun j => s.calOwned i (32 + j)))
  | .TCAL_OWN_UNIT =>
    ((s.put F.TCAL_OWN_UNIT_DPS i (unitMask 8 (fun j => s.calOwned i (64 + j)))).put F.TCAL_OWN_UNIT_SMU i
      (unitMask 4 (fun j => s.calOwned i (72 + j)))).put F.TCAL_OWN_UNIT_TDC i (unitMask 16 (fun j => s.calOwned i (76 + j)))
  | .TCAL_PEND_LO => s.put F.TCAL_PEND_LO_CH i (unitMask 32 (fun j => s.corrWaits i j))
  | .TCAL_PEND_HI => s.put F.TCAL_PEND_HI_CH i (unitMask 32 (fun j => s.corrWaits i (32 + j)))
  | .TCAL_PEND_UNIT =>
    let s1 := (s.put F.TCAL_PEND_UNIT_DPS i (unitMask 8 (fun j => s.corrWaits i (64 + j)))).put F.TCAL_PEND_UNIT_SMU i
      (unitMask 4 (fun j => s.corrWaits i (72 + j)))
    (s1.put F.TCAL_PEND_UNIT_TDC i (unitMask 16 (fun j => s.corrWaits i (76 + j)))).setB F.TCAL_PEND_UNIT_MON i
      ((List.range 20).any (fun j => s.corrWaits i (92 + j)))
  | .TCAL_STAT =>
    s.setB F.TCAL_STAT_UNCAL i ((List.range 112).any (fun u => !s.on H.CAL_MADE (i * 128 + u)))
  | .ENG_STAT => s.put F.ENG_STAT_STATE i (s.engShown i)
  | _ => s

/-! ## Reads -/

/-- The field that a read of a register snapshots (the HI half of a pair, by its LO). -/
def snapOf : RegName → Option Field
  | .MODE_ENTRY_LO => some F.MODE_ENTRY_HI_TS_HI
  | .CH_FIRSTFAIL_LO => some F.CH_FIRSTFAIL_HI_VEC_HI
  | .TB_LO => some F.TB_HI_TB_HI
  | .SYNC_TS_LO => some F.SYNC_TS_HI_TS_HI
  | .TRIG_ARR_LO => some F.TRIG_ARR_HI_A_HI
  | .SEQ_VEC_LO => some F.SEQ_VEC_HI_VEC_HI
  | .SEQ_STALL_LO => some F.SEQ_STALL_HI_ST_HI
  | .SITE_REC_WR_LO => some F.SITE_REC_WR_HI_WR_HI
  | .STL_STEALS_LO => some F.STL_STEALS_HI_N_HI
  | .MON_TRIP_TS_LO => some F.MON_TRIP_TS_HI_TS_HI
  | .TDC_ACC_LO => some F.TDC_ACC_HI_N_HI
  | .TDC_SUM_LO => some F.TDC_SUM_HI_S_HI
  | .TDC_LAST_LO => some F.TDC_LAST_HI_V_HI
  | .TDC_WR_LO => some F.TDC_WR_HI_WR_HI
  | .ACQ_TRIG_TS_LO => some F.ACQ_TRIG_TS_HI_TS_HI
  | .PORCH_FEC_LO => some F.PORCH_FEC_HI_CORR_HI
  | .PORCH_FLITS_LO => some F.PORCH_FLITS_HI_N_HI
  | .CEL_TOP_LO => some F.CEL_TOP_HI_TOP_HI
  | .CEL_ECC_ADDR_LO => some F.CEL_ECC_ADDR_HI_ADDR_HI
  | .CEL_CLS_BYTES_LO => some F.CEL_CLS_BYTES_HI_B_HI
  | _ => none

/-- Numbers of the fields that read as snapshotted. -/
def snapIds : List Nat :=
  (([.MODE_ENTRY_LO, .CH_FIRSTFAIL_LO, .TB_LO, .SYNC_TS_LO, .TRIG_ARR_LO, .SEQ_VEC_LO, .SEQ_STALL_LO, .SITE_REC_WR_LO,
     .STL_STEALS_LO, .MON_TRIP_TS_LO, .TDC_ACC_LO, .TDC_SUM_LO, .TDC_LAST_LO, .TDC_WR_LO, .ACQ_TRIG_TS_LO, .PORCH_FEC_LO,
     .PORCH_FLITS_LO, .CEL_TOP_LO, .CEL_ECC_ADDR_LO, .CEL_CLS_BYTES_LO] : List RegName).filterMap snapOf).map
    (fun f => f.id.val)

/-- A field as a read shows it: WO fields read 0 (R5), and the HI half of a pair reads as the last read of
its LO half left it. -/
def State.shown (s : State) (f : Field) (i : Nat) : Nat :=
  match f.acc with
  | .wo => 0
  | _ => if snapIds.contains f.id.val then (lookKey (fkey f i) s.snaps).getD (coldAt f i) else s.get f i

/-- The 32 bits that a read of a register shows; reserved bits read 0 (R7). -/
def State.regShown (s : State) (r : RegName) (i : Nat) : Nat := (r.fields.map (fun f => s.shown f i * 2 ^ f.lo)).sum

/-- The snapshot that a read of a register takes, with the values given. -/
def State.snapTake (s t : State) (r : RegName) (i : Nat) : State :=
  match snapOf r with
  | none => s
  | some f => { s with snaps := storeKey (coldAt f i) (fkey f i) (t.get f i) s.snaps }

/-- RC fields cleared by a read (R5). -/
def State.rcClear (s : State) (r : RegName) (i : Nat) : State :=
  s.each (r.fields.filter (fun f => f.acc == .rc)) (fun t f => t.put f i 0)

/-- A read of a register without an action of its own. -/
def State.readPlain (s : State) (r : RegName) (i : Nat) : State × Resp :=
  let t := s.refreshed r i
  ((({ s with free := t.free } : State).snapTake t r i).rcClear r i, .value (t.regShown r i))

/-- A read of a register. -/
def State.regRead (s : State) (m : Master) (r : RegName) (i : Nat) : State × Resp :=
  match r with
  | .MBX_HOST_RX => s.mbxHostTake i
  | .MBX_ENG_RX => s.mbxEngTake i
  | .SEM_ACQ => s.semReadBy i [m]
  | .CSP_RX => s.readCspRx (i / 128) (i % 128)
  | .GPIO_IN => s.readGpioIn
  | _ => s.readPlain r i

/-! ## Writes -/

/-- A field under a write of its register (R5). -/
def State.fieldWrite (s : State) (i v : Nat) (f : Field) : State :=
  let b := bits v f.lo f.width
  match f.acc with
  | .rw => s.put f i b
  | .w1c => s.put f i (s.get f i - (s.get f i &&& b))
  | .w1s => s.put f i (s.get f i ||| b)
  | _ => s

/-- A write of a register without an action of its own. -/
def State.writePlain (s : State) (r : RegName) (i v : Nat) : State := s.each r.fields (fun t f => t.fieldWrite i v f)

/-- RST_CTRL (R617): DBG_HALT needs the right; at 0 it lets core 0 go on. -/
def State.writeRstCtrl (s : State) (v : Nat) : State × Resp :=
  if bit v 2 && !s.right 1 then s.bad
  else
    let s1 := s.writePlain .RST_CTRL 0 v
    (if bit v 2 then s1 else s1.setB H.CORE0_HALT 0 false).ok

/-- A REACT or ESC code as stored (R579). -/
def reactStored (n c : Nat) : Nat :=
  if c < 3 then c
  else if c = 3 ∧ (n < 72 ∨ (88 ≤ n ∧ n < 104)) then 3
  else if c = 4 ∧ n < 112 then 4
  else 2

/-- FLT_REACT (R579). -/
def State.writeFltReact (s : State) (i v : Nat) : State :=
  s.each (List.range 4) (fun t j =>
    (t.put (reactField j) i (reactStored (4 * i + j) (bits v (8 * j) 3))).put (escField j) i
      (reactStored (4 * i + j) (bits v (8 * j + 4) 3)))

/-- FLT_INJ (R587): only in FACTORY; GO raises the source. -/
def State.writeFltInj (s : State) (v : Nat) : State × Resp :=
  if s.mode ≠ mFACTORY then s.bad
  else (if bit v 16 && decide (bits v 0 7 < 117) then s.faultRaise (bits v 0 7) (bits v 8 8) true else s).ok

/-- IRQ_SWSET (R594). -/
def State.writeIrqSwset (s : State) (m : Master) (v : Nat) : State × Resp :=
  let n := v % 256
  let may := match m with | .hearth _ => true | .fabric => true | _ => false
  if may && (decide (132 ≤ n ∧ n < 136) || decide (192 ≤ n)) then (s.irq n).ok else s.bad

/-- SITE_CMD: codes 1 to 5 command the site; others have no effect. -/
def State.writeSiteCmd (s : State) (m : Master) (i v : Nat) : State × Resp :=
  let c := v % 8
  if 1 ≤ c ∧ c ≤ 5 then
    let t := s.siteControl (.reg m) c (2 ^ i)
    (t, t.lastResp)
  else s.ok

/-- SEQ_JUMP_REQ (R231-R234): a cancel and a request in one write leave the request. -/
def State.writeSeqJump (s : State) (i v : Nat) : State × Resp :=
  let s1 := if bit v 3 then s.setB F.SEQ_JUMP_REQ_JUMP_LATE i false else s
  let s2 := if bit v 1 then s1.jumpCancel i else s1
  (if bit v 0 then s2.jumpRequest i else s2).ok

/-- SMUW_JUMP_REQ, as SEQ_JUMP_REQ for a waveform context. -/
def State.writeSmuJump (s : State) (u v : Nat) : State × Resp :=
  let s1 := if bit v 3 then s.setB F.SMUW_JUMP_REQ_JUMP_LATE u false else s
  let s2 := if bit v 1 then s1.waveJumpCancel u else s1
  (if bit v 0 then s2.waveJump u else s2).ok

/-- PAN_CTRL with its limits. -/
def State.writePanCtrl (s : State) (v : Nat) : State :=
  ((s.put F.PAN_CTRL_RESIDENCY_US 0 (max 1 (bits v 0 16))).put F.PAN_CTRL_AHEAD 0 (min 128 (max 8 (bits v 16 8)))).setB
    F.PAN_CTRL_PIN_EN 0 (bit v 24)

/-- PAN_INVAL (R227). -/
def State.writePanInval (s : State) (v : Nat) : State × Resp :=
  if s.on F.PAN_INVAL_BUSY 0 || s.invalBarred (bit v 16) (v % 4096) then s.bad
  else (s.invalStart (bit v 16) (v % 4096)).ok

/-- A force reaches an acquisition unit (R413): it acts at the next sample in PRE or READY. -/
def State.acqForceIn (s : State) (u : Nat) : State :=
  if s.acqState u = aPRE ∨ s.acqState u = aREADY then s.setB H.ACQ_FORCE_P u true else s

/-- ACQ_CFG: an error response while a capture is in progress. -/
def State.writeAcqCfg (s : State) (u v : Nat) : State × Resp :=
  if 1 ≤ s.acqState u ∧ s.acqState u ≤ 4 then s.bad else (s.acqCfgSet u v).ok

/-- ACQ_CTRL (R409, R413, R415): an arm that is refused is an error response, and the write does nothing. -/
def State.writeAcqCtrl (s : State) (u v : Nat) : State × Resp :=
  if bit v 0 && s.acqArmRefusal u (s.get F.ACQ_CFG_TRIG_SRC u) != 0 then s.bad
  else
    let s1 := if bit v 0 then s.acqArm u else s
    let s2 := if bit v 1 then s1.acqForceIn u else s1
    (if bit v 2 then s2.acqCancel u else s2).ok

/-- TDC_CTRL (R389, R391): a refused arm is an error response, and the write does nothing. -/
def State.writeTdcCtrl (s : State) (j v : Nat) : State × Resp :=
  if bit v 0 && s.tdcArmRefusal j (s.tdcWord j) != 0 then s.bad
  else
    let s1 := if bit v 0 then s.tdcArm j else s
    (if bit v 1 then s1.tdcDisarm j 0 else s1).ok

/-- TDC_CFG: an error response while the TDC is armed. -/
def State.writeTdcCfg (s : State) (j v : Nat) : State × Resp :=
  if s.on F.TDC_CTRL_ARMED j then s.bad else (s.tdcCfgSet j v).ok

/-- TDC_THR (R387): only while disarmed; it settles in 2 µs. -/
def State.writeTdcThr (s : State) (j v : Nat) : State × Resp :=
  if s.on F.TDC_CTRL_ARMED j then s.bad
  else ((s.writePlain .TDC_THR j v).setDue H.TDC_THR_T j (s.now + 2 * us)).ok

/-- TDC_AUX (R387): a change of HYST only while disarmed. -/
def State.writeTdcAux (s : State) (j v : Nat) : State × Resp :=
  if s.on F.TDC_CTRL_ARMED j && v % 4 != s.get F.TDC_AUX_HYST j then s.bad
  else
    let s1 := s.writePlain .TDC_AUX j v
    (if v % 4 = s.get F.TDC_AUX_HYST j then s1 else s1.setDue H.TDC_THR_T j (s.now + 2 * us)).ok

/-- DPS_MEAS: AVG, and MEAS starts a measurement of a unit that no flow owns (R358). -/
def State.writeDpsMeas (s : State) (d v : Nat) : State :=
  let s1 := if s.on F.DPS_MEAS_BUSY d then s else s.put F.DPS_MEAS_AVG d (v % 8)
  if bit v 3 && !s1.on H.DPS_CAL_OWNED d then s1.dpsMeasStart d else s1

/-- SMU_MEAS, as DPS_MEAS. -/
def State.writeSmuMeas (s : State) (u v : Nat) : State :=
  let s1 := if s.on F.SMU_MEAS_BUSY u then s else s.put F.SMU_MEAS_AVG u (v % 8)
  if bit v 3 && !s1.on H.SMU_CAL_OWNED u then s1.smuMeasStart u else s1

/-- A write of a source value of an SMU: an error response while a calibration flow owns it. -/
def State.smuFree (s : State) (u : Nat) (t : State) : State × Resp := if s.on H.SMU_CAL_OWNED u then s.bad else t.ok

/-- SMU_SUP with its limits. -/
def State.writeSmuSup (s : State) (u v : Nat) : State :=
  (s.put F.SMU_SUP_TOL u (min 1000 (max 1 (bits v 0 10)))).put F.SMU_SUP_TIME u (max 1 (bits v 16 8))

/-- ENG_CTRL (R617): BRK_EN, STOP and STEP need the right; STEAL_EN starts the idle routine (R281); STOP acts
at the next boundary, and a step runs one word or group of a stopped engine. -/
def State.writeEngCtrl (s : State) (k v : Nat) : State × Resp :=
  if (bits v 0 2 != 0 || bit v 2 || bit v 3) && !s.right 2 then s.bad
  else
    let was := s.on F.ENG_CTRL_STEAL_EN k
    let s1 := s.writePlain .ENG_CTRL k v
    let s2 := if bit v 4 && !was then s1.engIdleStart k else s1
    (if bit v 3 && s2.engState k == eSTOPPED then (s2.setB H.ENG_STEPPING k true).engGoOn k
     else if bit v 2 then s2.engStopCheck k else s2.engGoOn k).ok

/-- ENG_GO (R284). -/
def State.writeEngGo (s : State) (k v : Nat) : State × Resp :=
  let serves := match s.engSite k with | none => false | some i => s.active i
  if s.engRests k && !serves then ((s.engFresh k (v % 4096)).engStopCheck k).ok else s.bad

/-- The levels of a channel by register. -/
def levelOf : RegName → Option Nat
  | .CH_VIH0 => some 0
  | .CH_VIL0 => some 1
  | .CH_VOH0 => some 2
  | .CH_VOL0 => some 3
  | .CH_VT0 => some 4
  | .CH_VIH1 => some 5
  | .CH_VIL1 => some 6
  | .CH_VOH1 => some 7
  | .CH_VOL1 => some 8
  | .CH_VT1 => some 9
  | _ => none

/-- A write of a register: the action that its chapter gives it, or the plain store of its fields. -/
def State.regWrite (s : State) (m : Master) (r : RegName) (i v : Nat) : State × Resp :=
  match r with
  | .RST_CTRL => s.writeRstCtrl v
  | .RST_SOFT => (s.rstSoft v).ok
  | .RST_WDOG_CTL => (s.wdogCtl v).ok
  | .RST_WDOG_KICK => (s.wdogKick v).ok
  | .CHIP_OFFSET => s.offsetSet (v % 2 ^ 24)
  | .TRIG_LAT => (s.put F.TRIG_LAT_CYCLES 0 (min 3000 (max 75 (v % 4096)))).ok
  | .TRIG_FIRE_LO => s.trigArm i v
  | .TRIG_REP => ((s.put F.TRIG_REP_COUNT i (bits v 0 16)).put F.TRIG_REP_INTERVAL i (max 90 (bits v 16 16))).ok
  | .TRIG_ACC_CTRL => (s.trigAccSet i v).ok
  | .TSET_PER => (s.periodSet (i / 16) (i % 16) v).ok
  | .SITE_TSTART_LO =>
    let s1 := s.put F.SITE_TSTART_LO_T_LO i v
    (s1.put H.ST_TSTART i (s1.get2 F.SITE_TSTART_LO_T_LO F.SITE_TSTART_HI_T_HI i)).ok
  | .FLT_ACK => s.faultAck (v % 128)
  | .FLT_TMO => (s.put F.FLT_TMO_MS 0 (max 1 (v % 65536))).ok
  | .FLT_INJ => s.writeFltInj v
  | .FLT_REACT => (s.writeFltReact i v).ok
  | .SEC_RB_COMMIT => s.rbCommit v
  | .SEC_LC_REQ => s.lcReq v
  | .SEC_PROV_CMD => s.provCmd v
  | .SEC_WIPE => s.secWipe v
  | .SEC_PROV_DATA => (s.put F.SEC_PROV_DATA_WORD i v).ok
  | .SEC_DBG_CTRL => s.dbgCtrl v
  | .CSP_CFG => s.writeCspCfg i v
  | .CSP_LEN => s.writeCspLen i v
  | .CSP_CTRL => s.writeCspCtrl i v
  | .CSP_TX => s.writeCspTx (i / 128) (i % 128) v
  | .MBX_HOST_TX => s.mbxHostPost i v
  | .MBX_HOST_DB => s.mbxHostBell i v
  | .MBX_ENG_TX => s.mbxEngPost i v
  | .MBX_ENG_DB => s.mbxEngBell i v
  | .SEM_ACQ => s.semWriteBy m i
  | .SEM_FORCE => s.semForce m v
  | .IRQ_SWSET => s.writeIrqSwset m v
  | .FAB_CTRL =>
    ((s.writePlain .FAB_CTRL 0 v).put F.FAB_CTRL_LINKDOWN_MS 0 (max 1 (bits v 16 8))).ok
  | .PORCH_CTRL => s.writePorchCtrl i v
  | .CONTACT_CTL => s.writeContactCtl v
  | .SEQ_JUMP_REQ => s.writeSeqJump i v
  | .SMUW_JUMP_REQ => s.writeSmuJump i v
  | .SEQ_START_TMO => (s.put F.SEQ_START_TMO_TMO_MS i (max 1 (v % 65536))).ok
  | .SITE_CMD => s.writeSiteCmd m i v
  | .PAN_CTRL => (s.writePanCtrl v).ok
  | .PAN_PIN_LIMIT => (s.put F.PAN_PIN_LIMIT_LINES 0 (min 2048 (v % 4096))).ok
  | .PAN_INVAL => s.writePanInval v
  | .ACQ_CFG => s.writeAcqCfg i v
  | .ACQ_CTRL => s.writeAcqCtrl i v
  | .ACQ_POST => (s.put F.ACQ_POST_N i (max 1 (v % 2 ^ 24))).ok
  | .ACQ_HYST => (s.put F.ACQ_HYST_CODE i (min (2 ^ 23 - 1) (max 1 (v % 2 ^ 24)))).ok
  | .CH_CTRL => s.writeChCtrl i v
  | .PMU_CTRL => s.writePmuCtrl i v
  | .PMU_FORCE => (s.pmuForceSet i v).ok
  | .PMU_VCLAMP => (s.pmuVclampSet i v).ok
  | .CH_DSK => (s.dskSet i v).ok
  | .DPS_CTRL => s.writeDpsCtrl i v
  | .DPS_VSET => if s.dpsBarred i then s.bad else (s.dpsVsetSet i v).ok
  | .DPS_ILIM => if s.dpsBarred i then s.bad else (s.dpsIlimSet i v).ok
  | .DPS_EXT_SHUNT => (s.put F.DPS_EXT_SHUNT_UOHM i (min 100000 (max 1000 (v % 2 ^ 24)))).ok
  | .DPS_MEAS => (s.writeDpsMeas i v).ok
  | .SMU_CTRL => s.writeSmuCtrl i v
  | .SMU_SET => s.smuFree i (s.smuSetSet i v)
  | .SMU_ICOMP => s.smuFree i (s.smuCompSet F.SMU_ICOMP_VALUE i v)
  | .SMU_VCOMP => s.smuFree i (s.smuCompSet F.SMU_VCOMP_VALUE i v)
  | .SMU_STAT => (s.smuStatClear i v).ok
  | .SMU_SINE_FREQ => s.smuFree i (s.sineFreqSet i v)
  | .SMU_SUP => (s.writeSmuSup i v).ok
  | .SMU_MEAS => (s.writeSmuMeas i v).ok
  | .TDC_CTRL => s.writeTdcCtrl i v
  | .TDC_CFG => s.writeTdcCfg i v
  | .TDC_THR => s.writeTdcThr i v
  | .TDC_AUX => s.writeTdcAux i v
  | .TDC_GATE => (s.put F.TDC_GATE_GATE_N i (max 1 (v % 2 ^ 24))).ok
  | .MON_CTRL => s.writeMonCtrl i v
  | .MON_HI => (s.monThrSet .hi i v).ok
  | .MON_LO => (s.monThrSet .lo i v).ok
  | .MON_HYST => (s.monThrSet .hyst i v).ok
  | .MON_STAT => (if bit v 0 then s.monClear i else s).ok
  | .ENG_CTRL => s.writeEngCtrl i v
  | .ENG_TMASK => (s.put F.ENG_TMASK_MASK i (v &&& 0x25E0)).ok
  | .ENG_GO => s.writeEngGo i v
  | .ENG_CEL_BASE_HI => (s.put F.ENG_CEL_BASE_HI_BASE_HI i (max 0x80 (v % 256))).ok
  | .ENG_ABORT_TMO => (s.put F.ENG_ABORT_TMO_US i (max 1 (v % 65536))).ok
  | _ =>
    match levelOf r with
    | some lvl => (s.levelSet i lvl v).ok
    | none => (s.writePlain r i v).ok

/-! ## Windows of an engine (R265, ENG + 0x8_0100 and 0x8_0200) -/

/-- A number with its 32-bit word at a place replaced. -/
def putWord32 (x n v : Nat) : Nat := x % 2 ^ (32 * n) + v % 2 ^ 32 * 2 ^ (32 * n) + x / 2 ^ (32 * n + 32) * 2 ^ (32 * n + 32)

/-- A write of a 32-bit part of a control-store word (R265). -/
def State.writeCstore (s : State) (k w part v : Nat) : State × Resp :=
  if !s.csOpen k then s.bad
  else if part < 3 then (s.put H.ENG_STAGE k (putWord32 (s.get H.ENG_STAGE k) part v)).ok
  else
    let x := s.get H.ENG_STAGE k + v % 2 ^ 32 * 2 ^ 96
    let s1 := s.csPut k w x
    (if parityOk x then s1 else s1.setB F.ENG_CS_STAT_BADPAR_WR k true).ok

/-- A read inside the block of an engine that no register lies at. -/
def State.engWindowRead (s : State) (k x : Nat) : State × Resp :=
  if x < 0x10000 then (s, .value (bits (s.csWord k (x / 16)) (32 * (x / 4 % 4)) 32))
  else if 0x80100 ≤ x ∧ x < 0x80200 then
    let i := (x - 0x80100) / 4
    (if i = 59 then s else s.engRegTake k i, .value (s.engReg k i))
  else if 0x80200 ≤ x ∧ x < 0x80240 then (s, .value (s.get H.ENG_FRAME (k * 16 + (x - 0x80200) / 4)))
  else (s, .value 0)

/-- A write inside the block of an engine that no register lies at. -/
def State.engWindowWrite (s : State) (k x v : Nat) : State × Resp :=
  if x < 0x10000 then s.writeCstore k (x / 16) (x / 4 % 4) v
  else if 0x80100 ≤ x ∧ x < 0x80200 then
    if s.csOpen k then (s.engRegPut k ((x - 0x80100) / 4) v).ok else s.bad
  else if 0x80200 ≤ x ∧ x < 0x80240 then
    if s.engState k == eSTOPPED && s.right 2 then (s.put H.ENG_FRAME (k * 16 + (x - 0x80200) / 4) v).ok else s.bad
  else s.ok

/-! ## The bus -/

/-- The power domain that an address of the system page, a tile or an engine lies in is on (R38, R623). -/
def State.addrOn (s : State) (a : Nat) : Bool :=
  match s.regionOf a with
  | .system =>
    match a / 0x10000 with
    | 0 => true
    | 2 => true
    | 7 => s.on H.PD_H0 0
    | 8 => s.on H.PD_H0 0
    | 0xA => s.on H.PD_FABRIC 0
    | 0xC => s.on H.PD_CELLAR 0
    | 0xE => s.on H.PD_PANTRY 0
    | _ => s.on H.PD_CORE 0
  | .tile t => bits a 16 8 == 0x70 || s.tileOn t
  | .engine k => s.engPowered k
  | _ => true

/-- No register can be reached: in HOLD, and while a cold reset holds the device (R623, R516). -/
def State.busOff (s : State) : Bool := s.mode == mHOLD || s.coldHeld

/-- The master is turned away by the debug rules (R617, R618). -/
def State.tapBarred (s : State) (m : Master) : Bool := m == .tap && !s.right 0

/-- A window of the system page or of a tile that no register lies at, read. -/
def State.windowRead (s : State) (a : Nat) : State × Resp :=
  match s.regionOf a with
  | .engine k => s.engWindowRead k (a % 0x100000)
  | .tile t =>
    let x := a % 0x1000000
    if 0x801000 ≤ x ∧ x < 0x802640 then (s, .value (ofLe (s.corrBytes (t * 0x10000 + (x - 0x801000)) 4)))
    else (s, .value 0)
  | .system =>
    if 0x30400 ≤ a ∧ a < 0x30800 then (s, .value (ofLe (memBytes ramByte s.fltLog (a - 0x30400) 4)))
    else (s, .value 0)
  | _ => (s, .value 0)

/-- Such a window written: the correction store takes writes from Hearth only (R424). -/
def State.windowWrite (s : State) (m : Master) (a v : Nat) : State × Resp :=
  match s.regionOf a with
  | .engine k => s.engWindowWrite k (a % 0x100000) v
  | .tile t =>
    let x := a % 0x1000000
    if 0x801000 ≤ x ∧ x < 0x802640 then
      match m with
      | .hearth _ => (s.corrPut (t * 0x10000 + (x - 0x801000)) (leBytes 4 v)).ok
      | _ => s.bad
    else s.ok
  | _ => s.ok

/-- A read of a register or a window of registers. -/
def State.blockRead (s : State) (m : Master) (a : Nat) : State × Resp :=
  if s.busOff then s.bad
  else if !s.addrOn a then (s, .value 0)
  else
    match decodeAddr a with
    | some (r, i) => s.regRead m r i
    | none => s.windowRead a

/-- A write of a register or a window of registers. -/
def State.blockWrite (s : State) (m : Master) (a v : Nat) : State × Resp :=
  if s.busOff then s.bad
  else if !s.addrOn a then s.ok
  else
    match decodeAddr a with
    | some (r, i) => s.regWrite m r i v
    | none => s.windowWrite m a v

/-- A 32-bit read by a full-address master (R7, R621, R622). -/
def State.busRead (s : State) (m : Master) (a : Nat) : State × Resp :=
  if a % 4 ≠ 0 ∨ s.tapBarred m = true then s.bad
  else
    match s.regionOf a with
    | .nowhere => s.bad
    | .scratch x => s.spReadWord m x
    | .setAlias x => s.spReadWord m x
    | .clearAlias x => s.spReadWord m x
    | .pantry x => (s, .value (s.pantryWord x))
    | .cellar o => s.celReadWord m o
    | _ => s.blockRead m a

/-- A 32-bit write by a full-address master (R7, R548, R621, R622, R629). -/
def State.busWrite (s : State) (m : Master) (a v : Nat) : State × Resp :=
  if a % 4 ≠ 0 ∨ s.tapBarred m = true then s.bad
  else
    match s.regionOf a with
    | .nowhere => s.bad
    | .scratch x => s.spWriteWord m x (v % 2 ^ 32)
    | .setAlias x => s.aliasPut m true x (v % 2 ^ 32)
    | .clearAlias x => s.aliasPut m false x (v % 2 ^ 32)
    | .pantry _ => s.bad
    | .cellar o => s.celWriteWord m o (v % 2 ^ 32)
    | _ => s.blockWrite m a (v % 2 ^ 32)

/-- What an access answered, kept where the last access answers. -/
def answered (r : State × Resp) : State := { r.1 with lastResp := r.2 }

/-- A register read by a master, through the bus. -/
def State.swRead (s : State) (m : Master) (r : RegName) (i : Nat) : State := answered (s.busRead m (addrOf r i))

/-- A register written by a master, through the bus. -/
def State.swWrite (s : State) (m : Master) (r : RegName) (i v : Nat) : State := answered (s.busWrite m (addrOf r i) v)

end Sys2Proof.Machine
end

