-- ==== Sys2Proof/Machine/Host.lean ====
section
/-!
DEFINITION. The host commands that touch registers, memories, the flash and the mailboxes (R491-R516),
fault injection (R587, R588) and test access (R620), and the commands of microcode (R287, R504).
-/

namespace Sys2Proof.Machine

/-! ## Answers after a command has acted -/

/-- The OK reply, where the command has not itself led to a reset or a shutdown: those have already
answered what was outstanding, or take the port down (R506, R123). -/
def State.answerStill (s : State) (h : Hdr) (op : Nat) (data : List Byte) : State :=
  if s.portPhase = 0 then s.answerOk h op data else s

/-! ## STATUS -/

/-- A register as four bytes of a reply. -/
def State.regBytes (s : State) (r : RegName) (i : Nat) : List Byte := leBytes 4 ((s.refreshed r i).regShown r i)

/-- The states of all sites, four bits each (R499). -/
def State.siteNibbles (s : State) : List Byte :=
  (List.range 32).map (fun n => BitVec.ofNat 8 (s.siteState (2 * n) + 16 * s.siteState (2 * n + 1)))

/-- The result data of STATUS (R499). -/
def State.statusData (s : State) : List Byte :=
  s.regBytes .MODE_STAT 0 ++ s.regBytes .BOOT_REASON 0 ++ s.regBytes .CFG_STAT 0 ++ s.regBytes .RST_CAUSE 0
    ++ s.regBytes .FAB_NODE 0 ++ zeros 4 ++ leBytes 8 s.ts ++ s.siteNibbles

/-- STATUS (R499). -/
def State.statusCmd (s : State) (h : Hdr) : State := s.serve h 0x20 legalAny [] (fun s => s.answerOk h 0x20 s.statusData)

/-! ## Who refuses an access -/

/-- The unit that a register belongs to: its tile and its number there (channels 0-63, DPS 64-71, SMUs
72-75, TDCs 76-91, monitors 92-111); an acquisition unit belongs to its supply (R403). -/
def regUnit (r : RegName) (i : Nat) : Option (Nat × Nat) :=
  if r = .TS_EDGE then some (i / 96 / 64, i / 96 % 64)
  else if regsCHAN.contains r then some (i / 64, i % 64)
  else if regsDPS.contains r then some (i / 8, 64 + i % 8)
  else if regsSMU.contains r then some (i / 4, 72 + i % 4)
  else if regsTDC.contains r then some (i / 16, 76 + i % 16)
  else if regsMON.contains r then some (i / 20, 92 + i % 20)
  else if regsACQ.contains r then (if i < 64 then some (i / 8, 64 + i % 8) else some ((i - 64) / 4, 72 + (i - 64) % 4))
  else none

/-- How a mode or a site refuses: not at all, without naming a site, or naming one (R122). -/
inductive Bar where
  | free
  | barred
  | site (i : Nat)
  deriving DecidableEq, Repr

/-- A refusal that names the site of a unit where it has one. -/
def barOf : Option Nat → Bar
  | none => .barred
  | some i => .site i

/-- An address of the system page whose block takes writes in MINIMAL (R120). -/
def minimalBlock (a : Nat) : Bool := a / 0x10000 == 7 || a / 0x10000 == 0xB

/-- The register and block write group at an address (R120). -/
def State.writeBar (s : State) (a : Nat) : Bar :=
  if s.mode = mMINIMAL then (if minimalBlock a then .free else .barred)
  else if s.mode = mRUN ∨ s.mode = mCALIBRATE then
    match (decodeAddr a).bind (fun p => regUnit p.1 p.2) with
    | none => .free
    | some (t, u) =>
      match s.calSite t u with
      | some i => if s.siteState i = sRUNNING ∨ (s.mode = mCALIBRATE ∧ s.calOwned t u = true) then .site i else .free
      | none => if s.mode = mCALIBRATE ∧ s.calOwned t u = true then .barred else .free
  else .free

/-- The registers of the output set and enable group (R500). -/
def outputRegs : List RegName := [.CH_CTRL, .PMU_CTRL, .PMU_FORCE, .DPS_CTRL, .DPS_VSET, .DPS_ILIM, .SMU_CTRL, .SMU_SET]

/-- An output write toward safe (R120): it disables an output, lowers the DPS current limit, or puts a
driver into high impedance. -/
def State.towardSafe (s : State) (r : RegName) (i v : Nat) : Bool :=
  match r with
  | .CH_CTRL => !bit v 0
  | .PMU_CTRL => !bit v 8
  | .DPS_CTRL => !bit v 0
  | .DPS_ILIM => decide (v % 2 ^ 32 ≤ s.get F.DPS_ILIM_VALUE i)
  | .SMU_CTRL => !bit v 0
  | _ => false

/-- The output set and enable group for a write of an output register (R120, R121). -/
def State.outBar (s : State) (r : RegName) (i v : Nat) : Bar :=
  let safe := s.towardSafe r i v
  match regUnit r i with
  | none => .free
  | some (t, u) =>
    let site := s.calSite t u
    if s.mode = mMINIMAL ∨ (s.mode = mSTANDBY ∧ safe = false) then .barred
    else if s.mode = mCALIBRATE ∧ s.calOwned t u = true then barOf site
    else
      match site with
      | none => .free
      | some n =>
        if s.siteState n = sRUNNING ∨ s.siteState n = sUNBOUND ∨ (s.siteState n = sHELD ∧ safe = false) then .site n else .free

/-- A REG_WR item in its group (R500). -/
def State.itemBar (s : State) (a v : Nat) : Bar :=
  match decodeAddr a with
  | some (r, i) => if outputRegs.contains r then s.outBar r i v else s.writeBar a
  | none => s.writeBar a

/-- The lowest site that a list of refusals names. -/
def lowestSite (l : List Bar) : List Nat := allSites.filter (fun i => l.contains (.site i))

/-- An address that a command may not name (R497, R500): the secure region, through its aliases too, and
the sequencer region. -/
def State.guarded (s : State) (a : Nat) : Bool :=
  match s.regionOf a with
  | .scratch x => inSecure x
  | .setAlias x => inSecure x
  | .clearAlias x => inSecure x
  | .cellar o => decide (o < 0x400000)
  | _ => false

/-- A write that the debug rules refuse (R617, R618). -/
def State.debugBarred (s : State) (a v : Nat) : Bool :=
  match decodeAddr a with
  | some (.RST_CTRL, _) => bit v 2 && !s.right 1
  | some (.ENG_CTRL, _) => (bits v 0 2 != 0 || bit v 2 || bit v 3) && !s.right 2
  | some _ => false
  | none =>
    match s.regionOf a with
    | .engine _ => decide (0x80200 ≤ a % 0x100000 ∧ a % 0x100000 < 0x80240) && !s.right 2
    | _ => false

/-- The index of the first element with a property. -/
def firstIdx {α : Type} (p : α → Bool) (l : List α) : Option Nat := (l.zipIdx.find? (fun q => p q.1)).map (fun q => q.2)

/-! ## REG_RD and REG_WR -/

/-- Reads in turn, up to the first that completes with an error response (R498). -/
def State.readAll (s : State) : List Nat → Nat → List Byte → State × Option Nat × List Byte
  | [], _, acc => (s, none, acc)
  | a :: as, n, acc =>
    let r := s.busRead .fabric a
    match r.2 with
    | .value v => r.1.readAll as (n + 1) (acc ++ leBytes 4 v)
    | _ => (r.1, some n, acc)

/-- An ADDR argument of a register access that is no local address, or not aligned to 4 bytes. -/
def State.argBad (s : State) (a : Nat) : Bool := match s.argAddr a with | none => true | some x => x % 4 != 0

/-- The local address of an ADDR argument. -/
def localOf (a : Nat) : Nat := a % 2 ^ 40

/-- REG_RD (R497-R500, R120). -/
def State.regRdCmd (s : State) (h : Hdr) (addrs : List Nat) : State :=
  s.serve h 0x21 legalAny [] (fun s =>
    let systemOnly := s.mode == mBRINGUP || s.mode == mMINIMAL
    if addrs.length = 0 ∨ 64 < addrs.length then s.answerErr h 0x21 stARG 0
    else
      match firstIdx s.argBad addrs with
      | some n => s.answerErr h 0x21 stARG n
      | none =>
        if systemOnly && addrs.any (fun a => decide (0x100000 ≤ localOf a)) then s.answerWrong h 0x21
        else
          match firstIdx (fun a => s.guarded (localOf a)) addrs with
          | some n => s.answerErr h 0x21 stPROTECTED n
          | none =>
            let r := s.readAll (addrs.map localOf) 0 []
            match r.2.1 with
            | some n => r.1.answerErr h 0x21 stACCESS n
            | none => r.1.answerOk h 0x21 r.2.2)

/-- A write of an item by the fabric, with the status that stops the command: THERMAL_RANGE for a DPS
enable refused for temperature, ACCESS for any other error response. -/
def State.writeItem (s : State) (a v : Nat) : State × Option Nat :=
  let cold := match decodeAddr a with
    | some (.DPS_CTRL, d) => bit v 0 && !s.on F.DPS_CTRL_EN d && s.dpsEnRefusal d == 1
    | _ => false
  let r := s.busWrite .fabric a v
  match r.2 with
  | .error => (r.1, some (if cold then stTHERMAL else stACCESS))
  | _ => (r.1, none)

/-- Writes in turn, up to the first that fails (R498): its status and index.  A write that resets the
device ends the list. -/
def State.writeAll (s : State) : List (Nat × Nat) → Nat → State × Option (Nat × Nat)
  | [], _ => (s, none)
  | p :: ps, n =>
    let r := s.writeItem p.1 p.2
    match r.2 with
    | some st => (r.1, some (st, n))
    | none => if r.1.portPhase = 0 then r.1.writeAll ps (n + 1) else (r.1, none)

/-- A list of writes acts, and the command is answered. -/
def State.writeAnswer (s : State) (h : Hdr) (op : Nat) (l : List (Nat × Nat)) : State :=
  let r := s.writeAll l 0
  match r.2 with
  | some (st, n) => r.1.answerErr h op st n
  | none => r.1.answerStill h op []

/-- REG_WR (R497-R500, R120, R121, R601). -/
def State.regWrCmd (s : State) (h : Hdr) (items : List RegItem) : State :=
  s.serve h 0x22 legalWrite [] (fun s =>
    let l := items.map (fun p => (localOf p.addr, p.value % 2 ^ 32))
    if s.lc = lcRETIRED then s.answerErr h 0x22 stPROTECTED 0
    else if items.length = 0 ∨ 64 < items.length then s.answerErr h 0x22 stARG 0
    else
      match firstIdx (fun (p : RegItem) => s.argBad p.addr) items with
      | some n => s.answerErr h 0x22 stARG n
      | none =>
        let bars := l.map (fun p => s.itemBar p.1 p.2)
        if bars.any (fun b => b != .free) then s.answerSites h 0x22 (lowestSite bars)
        else
          match firstIdx (fun (p : Nat × Nat) => s.guarded p.1 || s.debugBarred p.1 p.2) l with
          | some n => s.answerErr h 0x22 stPROTECTED n
          | none => s.writeAnswer h 0x22 l)

/-! ## BLK_RD and BLK_WR -/

/-- A range of bytes lies wholly in one region of the address map (R500). -/
def State.oneRegion (s : State) (a n : Nat) : Bool :=
  s.regionOf a != .nowhere && sameRegion (s.regionOf a) (s.regionOf (a + n - 4))

/-- The argument check of a block access: its local address where it is good. -/
def State.blkArg (s : State) (addr n : Nat) : Option Nat :=
  match s.argAddr addr with
  | none => none
  | some a => if 4 ≤ n ∧ n ≤ 4096 ∧ n % 4 = 0 ∧ a % 4 = 0 ∧ s.oneRegion a n = true then some a else none

/-- The word addresses of a range. -/
def wordAddrs (a n : Nat) : List Nat := (List.range (n / 4)).map (fun j => a + 4 * j)

/-- The pieces of a Cellar range that lie in one 64-byte block each: offset and length. -/
def celPieces (o n : Nat) : List (Nat × Nat) :=
  (celBlocks o n).map (fun b => (max o (b * 64), min (o + n) (b * 64 + 64) - max o (b * 64)))

/-- Pieces of the Cellar read in turn. -/
def State.celReadAll (s : State) : List (Nat × Nat) → Nat → List Byte → State × Option Nat × List Byte
  | [], _, acc => (s, none, acc)
  | p :: ps, n, acc =>
    let r := s.celRead clsHost p.1 p.2
    match r.2 with
    | some b => r.1.celReadAll ps (n + 1) (acc ++ b)
    | none => (r.1, some n, acc)

/-- Pieces of the Cellar written in turn. -/
def State.celWriteAll (s : State) : List (Nat × Nat) → Nat → List Byte → State × Option Nat
  | [], _, _ => (s, none)
  | p :: ps, n, l =>
    let r := s.celStore clsHost p.1 (l.take p.2)
    if r.2 then r.1.celWriteAll ps (n + 1) (l.drop p.2) else (r.1, some n)

/-- BLK_RD (R498-R500). -/
def State.blkRdCmd (s : State) (h : Hdr) (addr len : Nat) : State :=
  s.serve h 0x23 legalAny [] (fun s =>
    match s.blkArg addr len with
    | none => s.answerErr h 0x23 stARG 0
    | some a =>
      if (s.mode == mBRINGUP || s.mode == mMINIMAL) && s.regionOf a != .system then s.answerWrong h 0x23
      else if s.guarded a || s.guarded (a + len - 4) then s.answerErr h 0x23 stPROTECTED 0
      else
        let r := match s.regionOf a with
          | .cellar o => s.celReadAll (celPieces o len) 0 []
          | _ => s.readAll (wordAddrs a len) 0 []
        match r.2.1 with
        | some n => r.1.answerErr h 0x23 stACCESS n
        | none => r.1.answerOk h 0x23 r.2.2)

/-- Two ranges of bytes meet. -/
def rangesMeet (a n b m : Nat) : Bool := decide (a < b + m) && decide (b < a + n)

/-- A range of the Cellar meets what a segment entry plays (R120): the dictionary, the index and the data
of its pattern. -/
def State.entryMeets (s : State) (n o len : Nat) : Bool :=
  let d := s.patDesc (sgPat (s.segEntry n))
  pdValid d && (rangesMeet o len (celOff (pdDict d)) (pdDictN d * pdBytes d) || rangesMeet o len (celOff (pdIndex d)) (pdBlocks d * 16)
    || rangesMeet o len (celOff (pdData d)) (pdDataLen d))

/-- A write of the Cellar that running segments use is refused in RUN. -/
def State.celInUse (s : State) (o len : Nat) : Bool := s.mode == mRUN && s.busyEntries.any (fun n => s.entryMeets n o len)

/-- BLK_WR to the Cellar: the Cellar load group (R500). -/
def State.blkWrCellar (s : State) (h : Hdr) (o : Nat) (data : List Byte) : State :=
  if !legalLoad s || s.celInUse o data.length then s.answerWrong h 0x24
  else if o < 0x400000 then s.answerErr h 0x24 stPROTECTED 0
  else
    let r := s.celWriteAll (celPieces o data.length) 0 data
    match r.2 with
    | some n => r.1.answerErr h 0x24 stACCESS n
    | none => r.1.answerOk h 0x24 []

/-- BLK_WR (R498-R500, R120, R601). -/
def State.blkWrCmd (s : State) (h : Hdr) (addr : Nat) (data : List Byte) : State :=
  s.serve h 0x24 legalWrite [] (fun s =>
    if s.lc = lcRETIRED then s.answerErr h 0x24 stPROTECTED 0
    else
      match s.blkArg addr data.length with
      | none => s.answerErr h 0x24 stARG 0
      | some a =>
        match s.regionOf a with
        | .cellar o => s.blkWrCellar h o data
        | _ =>
          let l := (wordAddrs a data.length).zipIdx.map (fun p => (p.1, fieldB data (4 * p.2) 4))
          let bars := l.map (fun p => s.writeBar p.1)
          if bars.any (fun b => b != .free) then s.answerSites h 0x24 (lowestSite bars)
          else if s.guarded a || s.guarded (a + data.length - 4) || l.any (fun p => s.debugBarred p.1 p.2) then
            s.answerErr h 0x24 stPROTECTED 0
          else s.writeAnswer h 0x24 l)

/-! ## The flash -/

/-- The offset of the directory copy in force (R87). -/
def State.dirForce (s : State) : Option Nat :=
  let a := dirRank (s.dirCopy 0)
  let b := dirRank (s.dirCopy 1)
  if a = 0 ∧ b = 0 then none else if a < b then some 0x1000 else some 0

/-- A range of the flash that no command may change (R502): the directory copy in force, and the sectors
of the boot records and of the thermal log. -/
def State.flashGuarded (s : State) (off n : Nat) : Bool :=
  rangesMeet off n 0x2000 0x6000 || (match s.dirForce with | none => false | some d => rangesMeet off n d 0x1000)

/-- A flash command that passes its argument check: refused, or begun (R502, R601). -/
def State.flashBegin (s : State) (op : Nat) (o : FlashOp) : State :=
  if s.lc = lcRETIRED ∨ s.flashGuarded o.off o.len = true then s.answerErr o.h op stPROTECTED 0
  else if s.coreCold then s.answerErr o.h op stTHERMAL 0
  else { s with flashOps := s.flashOps ++ [o] }

/-- FLASH_WR (R499, R502): answered at completion. -/
def State.flashWrCmd (s : State) (h : Hdr) (off : Nat) (data : List Byte) : State :=
  s.serve h 0x25 legalFlash [] (fun s =>
    if off % 256 ≠ 0 ∨ data.length = 0 ∨ 4096 < data.length ∨ s.get H.FLASH_SIZE 0 < off + data.length then s.answerErr h 0x25 stARG 0
    else s.flashBegin 0x25 ⟨h, true, off, data.length, data⟩)

/-- FLASH_ERASE (R499, R502): answered at completion. -/
def State.flashEraseCmd (s : State) (h : Hdr) (off sectors : Nat) : State :=
  s.serve h 0x26 legalFlash [] (fun s =>
    if off % 0x1000 ≠ 0 ∨ sectors = 0 ∨ 65536 < sectors ∨ s.get H.FLASH_SIZE 0 < off + sectors * 0x1000 then
      s.answerErr h 0x26 stARG 0
    else s.flashBegin 0x26 ⟨h, false, off, sectors * 0x1000, []⟩)

/-- FLASH_OPERATION_DONE (R502, R497): the operation in progress ends, whole or with an error of the flash
that leaves it cut short, and its command is answered. -/
def State.flashDone (s : State) (ok : Bool) : State :=
  match s.flashOps with
  | [] => s
  | o :: rest =>
    let op := if o.write then 0x25 else 0x26
    if ok then (State.flashAct { s with flashOps := rest } o).answerOk o.h op []
    else (State.flashPart { s with flashOps := rest } o).answerErr o.h op stFLASH 0

/-! ## JUMP, SOFT_RESET, BOOT_CLEAR, PREPARE_REMOVE -/

/-- JUMP (R231-R234, R499): requests or cancels for sites, or for waveform contexts. -/
def State.hostJumpCmd (s : State) (h : Hdr) (cancel smu : Bool) (mask : Nat) : State :=
  let sites := if smu then [] else bitsOf 64 mask
  let smus := if smu then bitsOf 32 mask else []
  s.serve h 0x2E legalSite sites (fun s =>
    if mask = 0 ∨ (smu = true ∧ mask % 2 ^ 32 = 0) then s.answerErr h 0x2E stARG 0
    else if s.mode = mCALIBRATE ∧ (sites.any s.siteCalOwned || smus.any (fun u => s.on H.SMU_CAL_OWNED u)) = true then
      s.answerSites h 0x2E (sites.filter s.siteCalOwned)
    else
      let s1 := s.each sites (fun t i => if cancel then t.jumpCancel i else t.jumpRequest i)
      (s1.each smus (fun t u => if cancel then t.waveJumpCancel u else t.waveJump u)).answerOk h 0x2E [])

/-- SOFT_RESET (R503): answered, and the reset comes 2 µs later. -/
def State.softResetCmd (s : State) (h : Hdr) (key : Nat) : State :=
  if 256 ≤ h.src then s.answerErr h 0x33 stOPCODE 0
  else
    s.serve h 0x33 legalAny [] (fun s =>
      if key ≠ 0xA5C3 then s.answerErr h 0x33 stARG 0
      else (s.answerOk h 0x33 []).setDue H.RST_SOFT_DUE 0 (s.now + 2 * us))

/-- SOFT (R67, R503): the reset that SOFT_RESET asked for. -/
def State.softReset (s : State) : State :=
  match s.due H.RST_SOFT_DUE 0 with
  | none => s
  | some t => ((s.upTo t).noDue H.RST_SOFT_DUE 0).warmReset F.RST_CAUSE_SOFT

/-- The current boot-record sector has an erased place after its latest record (R89). -/
def State.bootRoom (s : State) : Bool :=
  match s.bootLatest with
  | none => true
  | some n => (List.range (255 - n % 256)).any (fun j => (s.bootRec (n + 1 + j)).all (fun b => b == flashByte))

/-- BOOT_CLEAR (R114, R89, R601): FAILS is 0, and a record with FAILS 0 is appended.  Its sectors are erased
only during a bring-up, so a full sector takes no record. -/
def State.bootClearCmd (s : State) (h : Hdr) : State :=
  s.serve h 0x34 legalMinimal [] (fun s =>
    if s.lc = lcRETIRED then s.answerErr h 0x34 stPROTECTED 0
    else
      let s1 := s.put F.BOOT_ATTEMPT_FAILS 0 0
      (if s1.bootRoom then s1.bootAppend 2 s1.activeSlot 0 else s1).answerOk h 0x34 [])

/-- Sites whose state refuses PREPARE_REMOVE in STANDBY (R128). -/
def State.removeSites (s : State) : List Nat := allSites.filter (fun i => s.active i || s.siteState i == sHELD)

/-- Every DPS and SMU output is off. -/
def State.suppliesOff (s : State) : Bool :=
  (List.range 64).all (fun d => !s.on F.DPS_STAT_ON d) && (List.range 32).all (fun u => !s.on F.SMU_CTRL_EN u)

/-- PREPARE_REMOVE (R128, R490, R503): LEAVE goes out on each Porch in service; the reply leaves when every
transmitter may go idle. -/
def State.prepareRemoveCmd (s : State) (h : Hdr) : State :=
  if 256 ≤ h.src then s.answerErr h 0x35 stOPCODE 0
  else
    s.serve h 0x35 legalRemove [] (fun s =>
      if s.mode = mSTANDBY ∧ (s.removeSites ≠ [] ∨ s.suppliesOff = false) then s.answerSites h 0x35 s.removeSites
      else if s.on H.REMOVE_WAIT 0 then s.answerWrong h 0x35
      else
        let s1 := ((s.put H.REMOVE_SRC 0 h.src).put H.REMOVE_TAG 0 h.tag).setB H.REMOVE_WAIT 0 true
        (s1.each allPorches State.leaveSend).removeCheck)

/-! ## Mailbox commands (R512-R516) -/

/-- The mailbox commands that Hearth serves are legal in every mode but BRINGUP, where the hardware
responder serves posts and doorbells only (R505). -/
def legalBox (s : State) : Bool := s.mode != mBRINGUP

/-- MBX_POST (R512, R514, R589): all words or none. -/
def State.mbxPostCmd (s : State) (h : Hdr) (mbx epoch : Nat) (words : List Nat) : State :=
  if 256 ≤ h.src then s.answerErr h 0x36 stOPCODE 0
  else
    s.serve h 0x36 legalAny [] (fun s =>
      let q := qGet s.h2d mbx
      if 3 < mbx ∨ words.length = 0 ∨ 16 < words.length then s.answerErr h 0x36 stARG 0
      else if 16 < q.length + words.length then s.answerErr h 0x36 stBUSY (16 - q.length)
      else
        let t : State := { s with h2d := qSet s.h2d mbx (q ++ words.map (fun w => (⟨w % 2 ^ 32, epoch % 256⟩ : MbxWord))) }
        (t.each words (fun u _ => u.irq (128 + mbx))).answerOk h 0x36 [])

/-- A mailbox word in a reply. -/
def mbxBytes (w : MbxWord) : List Byte := leBytes 4 w.word ++ leBytes 1 w.epoch ++ zeros 3

/-- MBX_READ (R499, R514). -/
def State.mbxReadCmd (s : State) (h : Hdr) (mbx max : Nat) : State :=
  if 256 ≤ h.src then s.answerErr h 0x37 stOPCODE 0
  else
    s.serve h 0x37 legalBox [] (fun s =>
      let q := qGet s.d2h mbx
      if 3 < mbx ∨ max = 0 ∨ 16 < max then s.answerErr h 0x37 stARG 0
      else
        let t : State := { s with d2h := qSet s.d2h mbx (q.drop max) }
        t.answerOk h 0x37 (leBytes 1 (q.take max).length ++ zeros 3 ++ ((q.take max).map mbxBytes).flatten))

/-- DOORBELL (R516): RX_DB and Hearth's interrupt source; in SLEEP the fabric wakes the chip, and the command
waits in the neighbour (R124). -/
def State.doorbellCmd (s : State) (h : Hdr) (mbx : Nat) : State :=
  if 256 ≤ h.src then s.answerErr h 0x38 stOPCODE 0
  else if s.mode = mSLEEP then s.wakeUp
  else
    s.serve h 0x38 legalAny [] (fun s =>
      if 3 < mbx then s.answerErr h 0x38 stARG 0
      else ((s.setB F.MBX_HOST_DB_RX_DB mbx true).irq (128 + mbx)).answerOk h 0x38 [])

/-- MBX_RESET (R515): D2H is flushed, and the host's new epoch is recorded. -/
def State.mbxResetCmd (s : State) (h : Hdr) (mbx epoch : Nat) : State :=
  if 256 ≤ h.src then s.answerErr h 0x39 stOPCODE 0
  else
    s.serve h 0x39 legalBox [] (fun s =>
      let n := (qGet s.d2h mbx).length
      if 3 < mbx then s.answerErr h 0x39 stARG 0
      else
        let t : State := { s with d2h := qSet s.d2h mbx [] }
        ((t.mbxFlushed mbx n).put F.MBX_HOST_STAT_HOST_EPOCH mbx epoch).answerOk h 0x39 (leBytes 2 n))

/-- A request whose opcode is reserved (R497, R499): OPCODE in every mode in which the chip replies. -/
def State.reservedCmd (s : State) (h : Hdr) (op : Nat) : State :=
  match s.portPhase with
  | 1 => s.answerErr h op stINRESET 0
  | 2 => s
  | _ => s.answerErr h op stOPCODE 0

/-! ## Fault injection and test access -/

/-- FAULT_INJ KIND 0 (R587, R588): the reply carries the log's SEQ. -/
def State.injectFault (s : State) (h : Hdr) (index unit : Nat) : State :=
  s.serve h 0x3A legalFactory [] (fun s =>
    if 117 ≤ index then s.answerErr h 0x3A stARG 0
    else
      (s.faultRaise index (unit % 256) true).answerStill h 0x3A (leBytes 4 (s.get F.FLT_LOG_WR_COUNT 0)))

/-- The interrupt sources that R589 defines. -/
def irqDefined (n : Nat) : Bool := decide (n < 256) && decide (n ≠ 190) && decide (n ≠ 191)

/-- FAULT_INJ KIND 1. -/
def State.injectIrq (s : State) (h : Hdr) (index : Nat) : State :=
  s.serve h 0x3A legalFactory [] (fun s =>
    if irqDefined index then (s.irq index).answerOk h 0x3A [] else s.answerErr h 0x3A stARG 0)

/-- FAULT_INJ KIND 2. -/
def State.injectReading (s : State) (h : Hdr) (index value holdMs : Nat) : State :=
  s.serve h 0x3A legalFactory [] (fun s =>
    if 40 ≤ index then s.answerErr h 0x3A stARG 0 else (s.forceReading index value holdMs).answerStill h 0x3A [])

/-- FAULT_INJ KIND 3. -/
def State.injectBroken (s : State) (h : Hdr) (index cause : Nat) : State :=
  s.serve h 0x3A legalFactory [] (fun s =>
    if 40 ≤ index then s.answerErr h 0x3A stARG 0 else (s.forceBroken index cause).answerStill h 0x3A [])

/-- TEST_ACCESS OP 1 (R620): the words of block 110 read 0. -/
def State.fuseReadCmd (s : State) (h : Hdr) (word : Nat) : State :=
  s.serve h 0x3B legalFactory [] (fun s =>
    if 4096 ≤ word then s.answerErr h 0x3B stARG 0
    else s.answerOk h 0x3B (leBytes 4 (if word / 32 = 110 then 0 else s.fuse word)))

/-- TEST_ACCESS OP 2 (R569, R620). -/
def State.fuseOrCmd (s : State) (h : Hdr) (word v : Nat) : State :=
  s.serve h 0x3B legalFactory [] (fun s =>
    if 104 * 32 ≤ word then s.answerErr h 0x3B stARG 0
    else if s.lc ≠ lcDEVELOP then s.answerErr h 0x3B stPROTECTED 0
    else if s.coreCold then s.answerErr h 0x3B stTHERMAL 0
    else (s.fuseOr word (v % 2 ^ 32)).answerOk h 0x3B [])

/-- TEST_ACCESS OP 3 (R620). -/
def State.versionCmd (s : State) (h : Hdr) : State :=
  s.serve h 0x3B legalFactory [] (fun s =>
    s.answerOk h 0x3B (leBytes 4 (s.get F.SEC_ROM_VER_VERSION 0) ++ leBytes 4 (s.get F.SEC_FW_VER_VERSION 0)))

/-! ## Commands from microcode (R287, R504) -/

/-- The reply to a command block stands over the block from offset 0, and the block's offset is posted to
the engine's mailbox. -/
def State.cmdWriteBack (s : State) (k off : Nat) (data : List Byte) : State :=
  let t := s.spWrite off (data.take (scratchSize - off))
  let q := qGet t.h2e k
  if 8 ≤ q.length then t
  else
    let u : State := { t with h2e := qSet t.h2e k (q ++ [(⟨off, t.hearthEpoch⟩ : MbxWord)]) }
    if q.isEmpty && u.engPowered k then u.pendTrap k 5 else u

/-- CMD_REPLY (R287, R504): the oldest reply to a command block of engine k is delivered. -/
def State.cmdReply (s : State) (k : Nat) : State :=
  match s.replies.find? (fun r => r.dst == 256 + k) with
  | none => s
  | some r => State.cmdWriteBack { s with replies := s.replies.erase r } k r.tag r.data

/-- The command block at a scratchpad offset: its opcode and data length. -/
def State.blockOp (s : State) (off : Nat) : Nat := fieldB (s.spRead off 4) 0 1
def State.blockLen (s : State) (off : Nat) : Nat := fieldB (s.spRead off 4) 2 2

/-- A command block that is answered with LENGTH (R504). -/
def State.blockBad (s : State) (off : Nat) : Bool :=
  scratchSize < off + 4 || 496 < s.blockLen off || scratchSize < off + 4 + s.blockLen off

/-- The message data of a command block. -/
def State.blockData (s : State) (off : Nat) : List Byte := s.spRead (off + 4) (s.blockLen off)

/-- CMD (R287, R493, R494, R504): a block whose data is shorter than its opcode needs is answered with LENGTH,
like a message (R493); else the block is accepted as a command from engine k; Hearth then carries it out as
the command's own row. -/
def State.cmdSubmit (s : State) (k off : Nat) : State :=
  let h : Hdr := ⟨256 + k, off⟩
  let op := s.blockOp off
  if s.blockBad off || decide (s.blockLen off < needBytes op (s.blockData off)) then s.answerErr h op stLENGTH 0
  else if 32 ≤ s.accepted.length then s.answerErr h op stBUSY 0
  else { s with accepted := s.accepted ++ [(⟨256 + k, off, op⟩ : HostCmd)] }

end Sys2Proof.Machine
end

