-- ==== Sys2Proof/Machine/Commands.lean ====
section
/-!
DEFINITION. The commands of microcode as they act: PINOPs and ANAOPs at the tile (R253-R258), MEMOPs at the
memories and semaphores (R259, R260), and the events at word boundaries (R266, R270, R271, R279, R280).
-/

namespace Sys2Proof.Machine

/-! ## Pin commands (R253, R254) -/

/-- The reason codes of R258. -/
def rsTHERMAL : Nat := 1
def rsTRIPPED : Nat := 2
def rsNOTBOUND : Nat := 3
def rsSTATE : Nat := 4

/-- A command on several channels: it acts on those that accept it, and the refusal of the first that does
not is reported once (R254). -/
def State.onChans (s : State) (l : List Nat) (why : State → Nat → Nat) (act : State → Nat → State) : State × Nat :=
  (s.each (l.filter (fun c => why s c == 0)) act, ((l.map (why s)).find? (fun r => r != 0)).getD 0)

/-- A channel that a calibration flow owns refuses every command (R254). -/
def State.chCal (s : State) (c : Nat) : Nat := if s.on H.CH_CAL_OWNED c then rsSTATE else 0

/-- The channels of half h of a site, with their bit of IMM (R253). -/
def halfChans (e : SiteEntry) (h : Nat) : List (Nat × Nat) := (((e.channels).drop (32 * h)).take 32).zipIdx

/-- The channels that a mask names. -/
def maskChans (e : SiteEntry) (h mask : Nat) : List Nat := ((halfChans e h).filter (fun p => bit mask p.2)).map (fun p => p.1)

/-- A PINOP at the tile. -/
def State.pinCmd (s : State) (k op : Nat) (eff : State → Nat → SiteEntry → State × Nat) : State := s.tileCmd k false op eff

/-- START_CHAIN (R25, R212, R254). -/
def State.pinStart (s : State) (k entry : Nat) : State :=
  s.pinCmd k 1 (fun t i _ =>
    if t.on H.SQ_PLAYING i || t.get H.SQ_WAIT i != 0 || t.siteState i == sPAUSED || t.pinBad i entry != 0 then (t, rsSTATE)
    else (t.requestStart i entry 1 (s.cmdWord k false 1), 0))

/-- JUMP and CANCEL (R231, R234). -/
def State.pinJumpCmd (s : State) (k : Nat) : State := s.pinCmd k 2 (fun t i _ => (t.jumpRequest i, 0))
def State.pinCancelCmd (s : State) (k : Nat) : State := s.pinCmd k 3 (fun t i _ => (t.jumpCancel i, 0))

/-- TSET (R166): the set waits for the site's next vector boundary. -/
def State.pinTset (s : State) (k set : Nat) : State := s.pinCmd k 4 (fun t i _ => (t.put H.SQ_TSET_PIN i (set + 1), 0))

/-- BANK (R137). -/
def State.pinBank (s : State) (k h v mask : Nat) : State :=
  s.pinCmd k 5 (fun t _ e => t.onChans (maskChans e h mask) State.chCal (fun u c => u.bankSet c v))

/-- CMASK (R143): the half's compare mask becomes IMM. -/
def State.pinCmask (s : State) (k h mask : Nat) : State :=
  s.pinCmd k 6 (fun t _ e =>
    let l := halfChans e h
    let r := t.onChans (l.map (fun p => p.1)) State.chCal (fun u c =>
      u.setB H.CH_CMASK c (bit mask ((l.find? (fun p => p.1 == c)).map (fun p => p.2) |>.getD 0)))
    r)

/-- DRV (R132, R156, R254). -/
def State.pinDrv (s : State) (k h : Nat) (v : Bool) (mask : Nat) : State :=
  s.pinCmd k 7 (fun t _ e =>
    t.onChans (maskChans e h mask)
      (fun u c => if u.on H.CH_CAL_OWNED c then rsSTATE else if v && u.chTripHeld c then rsTRIPPED else 0)
      (fun u c => u.drvEnSet c v))

/-- TRIG (R185): a pulse at the next vector boundary. -/
def State.pinTrig (s : State) (k : Nat) : State := s.pinCmd k 8 (fun t i _ => (t.setB H.SQ_TRIG_PIN i true, 0))

/-- CLRFAIL (R250, R253). -/
def State.pinClrfail (s : State) (k : Nat) : State :=
  s.pinCmd k 9 (fun t i _ => ((t.setB H.ST_MARK_FAIL i false).put H.ST_GFAIL i 0, 0))

/-- LEVEL (R133, R136, R253, R254). -/
def State.pinLevel (s : State) (k lvl : Nat) (bank all : Bool) (chan v : Nat) : State :=
  s.pinCmd k 10 (fun t _ e =>
    if all then t.onChans e.channels State.chCal (fun u c => u.levelSet c (lvl + 5 * b2n bank) v)
    else
      match e.channels[chan]? with
      | none => (t, rsNOTBOUND)
      | some c => t.onChans [c] State.chCal (fun u c => u.levelSet c (lvl + 5 * b2n bank) v))

/-- TERM (R145). -/
def State.pinTerm (s : State) (k h mode mask : Nat) : State :=
  s.pinCmd k 11 (fun t _ e => t.onChans (maskChans e h mask) State.chCal (fun u c => u.put F.CH_CTRL_TERM_MODE c mode))

/-! ## Analog commands (R255) -/

/-- An effect on a DPS that a gang member other than the lead, or a DPS of a calibration flow, refuses
(R339, R343). -/
def State.dpsFree (s : State) (d : Nat) (t : State × Nat) : State × Nat := if s.dpsBarred d then (s, rsSTATE) else t

/-- An effect on an SMU that one of a calibration flow refuses (R356). -/
def State.smuOpen (s : State) (u : Nat) (t : State × Nat) : State × Nat := if s.on H.SMU_CAL_OWNED u then (s, rsSTATE) else t

/-- DPS_SET (R334). -/
def State.anaDpsSet (s : State) (k idx imm : Nat) : State :=
  s.unitCmd k 1 idx 0 (fun t d => t.dpsFree d (t.dpsVsetSet d imm, 0))

/-- DPS_ILIM (R326). -/
def State.anaDpsIlim (s : State) (k idx imm : Nat) : State :=
  s.unitCmd k 2 idx 0 (fun t d => t.dpsFree d (t.dpsIlimSet d imm, 0))

/-- DPS_EN (R331, R332, R337). -/
def State.anaDpsEn (s : State) (k idx : Nat) (b : Bool) : State :=
  s.unitCmd k 3 idx 0 (fun t d => t.dpsFree d (t.dpsEnSet d b))

/-- DPS_RAMP (R334): SLEW and then VSET. -/
def State.anaDpsRamp (s : State) (k idx slew imm : Nat) : State :=
  s.unitCmd k 4 idx 0 (fun t d => t.dpsFree d ((t.dpsSlewSet d slew).dpsVsetSet d imm, 0))

/-- SMU_SET (R345, R351). -/
def State.anaSmuSet (s : State) (k idx imm : Nat) : State :=
  s.unitCmd k 5 idx 2 (fun t u => t.smuOpen u (t.smuSetSet u imm, 0))

/-- SMU_CLAMP (R346): the compliance that applies to the FMODE in force. -/
def State.anaSmuClamp (s : State) (k idx imm : Nat) : State :=
  s.unitCmd k 6 idx 2 (fun t u =>
    t.smuOpen u (t.smuCompSet (if t.get F.SMU_CTRL_FMODE u = 0 then F.SMU_ICOMP_VALUE else F.SMU_VCOMP_VALUE) u imm, 0))

/-- SMU_RANGE (R346, R347): IRANGE in [2:0], VRANGE in [3], FMODE in [4]. -/
def State.anaSmuRange (s : State) (k idx rng : Nat) : State :=
  s.unitCmd k 7 idx 2 (fun t u =>
    t.smuOpen u (
      let r := t.smuRangeSet u (bits rng 0 3) (bits rng 3 1) (bits rng 4 1)
      (r.1, if r.2 then 0 else rsSTATE)))

/-- SMU_EN (R349). -/
def State.anaSmuEn (s : State) (k idx : Nat) (b : Bool) : State :=
  s.unitCmd k 8 idx 2 (fun t u => t.smuOpen u (t.smuEnSet u b))

/-- SMU_WAVE (R217, R212): a bad entry is refused with STATE. -/
def State.anaSmuWave (s : State) (k idx entry : Nat) : State :=
  s.unitCmd k 9 idx 2 (fun t u =>
    t.smuOpen u (if t.entryBad (entry % 65536) true 0 = 0 then (t.waveStart u (entry % 65536) t.now, 0) else (t, rsSTATE)))

/-- SMU_STOP (R351). -/
def State.anaSmuStop (s : State) (k idx : Nat) : State :=
  s.unitCmd k 10 idx 2 (fun t u => t.smuOpen u (t.waveStop u, 0))

/-- PMU_CFG (R148-R151, R155, R156): PMU_CTRL bits [11:0]. -/
def State.anaPmuCfg (s : State) (k idx imm : Nat) : State :=
  s.unitCmd k 11 idx 4 (fun t c =>
    if t.on H.CH_CAL_OWNED c then (t, rsSTATE)
    else if t.pmuBarred c imm then (t, if t.chTripHeld c then rsTRIPPED else rsSTATE)
    else (t.pmuConfig c (imm % 4096), 0))

/-- PMU_FORCE (R149). -/
def State.anaPmuForce (s : State) (k idx imm : Nat) : State :=
  s.unitCmd k 12 idx 4 (fun t c => if t.on H.CH_CAL_OWNED c then (t, rsSTATE) else (t.pmuForceSet c imm, 0))

/-- An ANAOP on the IDX-th of a list of units of the site (R255): it waits where the handler rule of R277
holds it. -/
def State.listCmd (s : State) (k op busy : Nat) (sel : SiteEntry → Option Nat) (eff : State → Nat → State × Nat) : State :=
  if s.handlerWaits k busy then s
  else
    s.tileCmd k true op (fun t _ e =>
      match sel e with
      | none => (t, rsNOTBOUND)
      | some j => eff t j)

/-- TDC_ARM (R389): TDC_CFG takes IMM, and the TDC is armed. -/
def State.anaTdcArm (s : State) (k idx imm : Nat) : State :=
  s.listCmd k 13 14 (fun e => e.tdcList[idx]?) (fun t j =>
    let r := t.tdcArmRefusal j imm
    if r = 0 then ((t.tdcCfgSet j imm).tdcArm j, 0) else (t, r))

/-- TDC_STOP (R391). -/
def State.anaTdcStop (s : State) (k idx : Nat) : State :=
  s.listCmd k 14 14 (fun e => e.tdcList[idx]?) (fun t j =>
    if t.on H.TDC_CAL_OWNED j then (t, rsSTATE) else (t.tdcDisarm j 0, 0))

/-- The acquisition unit that an index names (R403): site DPS 0-7, then site SMU 0-3 from 8. -/
def acqOf (e : SiteEntry) (idx : Nat) : Option Nat :=
  if idx < 8 then e.dpsList[idx]?
  else if idx < 12 then (e.smuList[idx - 8]?).map (64 + ·)
  else none

/-- ACQ_ARM (R409): ACQ_CFG takes IMM, and the unit is armed. -/
def State.anaAcqArm (s : State) (k idx imm : Nat) : State :=
  s.listCmd k 15 13 (fun e => acqOf e idx) (fun t u =>
    let r := t.acqArmRefusal u (bits imm 0 4)
    if r = 0 then ((t.acqCfgSet u imm).acqArm u, 0) else (t, r))

/-- ACQ_FORCE (R413). -/
def State.anaAcqForce (s : State) (k idx : Nat) : State :=
  s.listCmd k 16 13 (fun e => acqOf e idx) (fun t u => (t.acqForceIn u, 0))

/-! ## Long commands and READ (R257) -/

/-- The command of a long ANAOP issued on its own, not by a word that already waits in it: its wait begins,
and the word at PC is the one that waits. -/
def State.longAlone (s : State) (k op kind idx qty imm : Nat) : State :=
  if qMatch (qGet s.cmdq k) true op = none ∧ s.atBoundary k = true then
    (s.put H.ENG_NEXT k ((s.pcOf k + 1) % 4096)).waitBegin k kind idx qty imm
  else s

/-- WAIT (R257). -/
def State.anaWaitCmd (s : State) (k imm : Nat) : State := (s.longAlone k 24 1 0 5 imm).tileCmd k true 24 (fun t _ _ => (t, 0))

/-- The unit of a quantity is one that the site holds: else the command is refused with NOT_BOUND.  It waits
where an interrupted operation keeps the unit busy (R277). -/
def State.qtyCmd (s : State) (k op idx qty : Nat) (eff : State → Nat → State × Nat) : State :=
  match s.unitOf k idx qty with
  | none => s.tileCmd k true op (fun t _ _ => (t, rsNOTBOUND))
  | some u =>
    match (s.engSite k).bind s.entryOf with
    | none => s
    | some e =>
      if s.handlerWaits k (busyBit e u) then s
      else s.tileCmd k true op (fun t _ _ => eff (t.reissue k u) u)

/-- A calibration flow owns a unit of the common numbering. -/
def State.unitCal (s : State) (u : Nat) : Bool :=
  if u < 64 then s.on H.DPS_CAL_OWNED u else if u < 128 then s.on H.SMU_CAL_OWNED (u - 64) else s.on H.CH_CAL_OWNED (u - 128)

/-- SETTLE (R256, R257): the wait is the engine's; the unit is only asked. -/
def State.anaSettle (s : State) (k idx qty imm : Nat) : State :=
  (s.longAlone k 25 2 idx qty imm).qtyCmd k 25 idx qty (fun t u => (t, if t.unitCal u then rsSTATE else 0))

/-- A measurement of a unit starts (R357); that of a unit which a calibration flow owns returns the value
held, with STALE (R358). -/
def State.unitMeasure (s : State) (u : Nat) : State :=
  if s.unitCal u then
    (if u < 64 then s.setB F.DPS_RES_STAT_STALE u true
     else if u < 128 then s.setB F.SMU_RES_STAT_STALE (u - 64) true
     else s.setB F.PMU_RESULT_STALE (u - 128) true).engMeasured u
  else if u < 64 then s.dpsMeasStart u
  else if u < 128 then s.smuMeasStart (u - 64)
  else s.pmuStart (u - 128)

/-- MEASURE (R257, R357, R358). -/
def State.anaMeasure (s : State) (k idx qty imm : Nat) : State :=
  (s.longAlone k 26 3 idx qty imm).qtyCmd k 26 idx qty (fun t u => (t.unitMeasure u, 0))

/-- READ (R257, R357): RESULT takes the latest value of the unit, and the word that waits for it goes on. -/
def State.anaRead (s : State) (k idx qty : Nat) : State :=
  let t := s.qtyCmd k 27 idx qty (fun t u => (t.engResult k (t.unitLatest u qty idx), 0))
  if t.get H.ENG_WAIT k = 7 ∧ (qGet t.cmdq k).all (fun c => c.acted) = true ∧ qGet t.refused k = qGet s.refused k then t.waitOver k
  else t

/-! ## MEMOPs -/

/-- The offset of the MEMOP of a code that was issued first. -/
def State.memOffOf (s : State) (k op d : Nat) : Nat :=
  match (qGet s.memq k).find? (fun m => m.op == op) with
  | none => d
  | some m => m.off

/-- SEM (R259, R260, R323). -/
def State.semCmd (s : State) (k n dst : Nat) : State :=
  let off := s.memOffOf k 5 n
  let m := s.memTake k 5
  if m.1.semReserved n then m.1.memFail k m.2 false 4 off
  else
    let r := m.1.semRead n [k]
    let v := r.2.headD 0
    let t := r.1.engRegPut k dst v
    if v = 0 then t else t.flagSet k flSL true

/-- Stores of an engine that have not completed. -/
def State.storesOut (s : State) (k : Nat) : Bool := (qGet s.memq k).any (fun m => m.op == 2 || m.op == 4)

/-- SEMREL (R259, R260, R555, R557): it waits for the engine's earlier stores. -/
def State.semrelCmd (s : State) (k n : Nat) : State :=
  if s.storesOut k then s
  else
    let off := s.memOffOf k 6 n
    let m := s.memTake k 6
    if m.1.semReserved n then m.1.memFail k m.2 true 4 off
    else
      let r := m.1.semRelease n k
      if r.2 then r.1 else r.1.memFail k m.2 true 2 off

/-- Some byte of a range of the scratchpad lies in the secure region. -/
def meetsSecure (x n : Nat) : Bool := inSecure (x % scratchSize) || inSecure ((x + n - 1) % scratchSize)

/-- RECORD (R259, R260, R283, R305, R306, R309). -/
def State.recordCmd (s : State) (k off n : Nat) : State :=
  let m := s.memTake k 7
  let len := (n + 1) * 8
  if off % 4 ≠ 0 then m.1.memFail k m.2 false 1 off
  else
    match m.1.engStream k with
    | none => m.1.memFail k m.2 false 5 off
    | some (i, _) =>
      if meetsSecure off len then m.1.memFail k m.2 false 3 off
      else
        let b := m.1.spRead (off % scratchSize) len
        m.1.recAppend i (leBytes 1 (0x80 ||| (fieldB b 0 1 &&& 0x70) ||| n % 16) ++ leBytes 1 i ++ b.drop 2)

/-- CMD (R287, R504): the block at an offset of the scratchpad. -/
def State.cmdCmd (s : State) (k off : Nat) : State :=
  let m := s.memTake k 8
  if off % 4 ≠ 0 then m.1.memFail k m.2 true 1 off
  else if inSecure (off % scratchSize) then m.1.memFail k m.2 true 3 off
  else m.1.cmdSubmit k (off % scratchSize)

/-- FLD (R259, R272). -/
def State.fldCmd (s : State) (k w dst : Nat) : State :=
  let m := s.memTake k 9
  m.1.engRegPut k dst (m.1.frameW k w)

/-- FST (R259, R272). -/
def State.fstCmd (s : State) (k w v : Nat) : State := (s.memTake k 10).1.framePut k w v

/-- The descriptor in G44 to G47 with the SITE and RUN of the push (R319). -/
def State.pushDesc (s : State) (k site run : Nat) : List Byte :=
  let g (n : Nat) : Nat := s.get H.ENG_G (k * 64 + 44 + n)
  mkTask (g 0 % 256) site run (g 1) (g 2) (g 3)

/-- A capture whose first reduction task is pushed shows REDUCING (R421). -/
def State.pushReduces (s : State) (d : List Byte) : State :=
  if taskType d = 2 ∧ redUnit d < 96 ∧ s.acqState (redUnit d) = aDONE then s.put F.ACQ_CTRL_STATE (redUnit d) aREDUCING else s

/-- PUSHT (R259, R319, R321). -/
def State.pushtCmd (s : State) (k dst : Nat) : State :=
  let m := s.memTake k 11
  match m.1.engStream k with
  | none => m.1.engRegPut k dst 2
  | some (i, run) =>
    let d := m.1.pushDesc k i run
    let r := m.1.dqPush k d
    if r.2 then (r.1.pushReduces d).engRegPut k dst 0 else r.1.engRegPut k dst 1

/-! ## Events at word boundaries -/

/-- The engine stands where a trap or an entry can be taken: at a boundary of words, in a long operation or
WAITEV, or before a word that waits for room in the command queue (R271, R280). -/
def State.interruptible (s : State) (k : Nat) : Bool :=
  s.engRuns k && !s.on H.ENG_LD_ON k && s.get H.ENG_ATOM_N k == 0 && (s.get H.ENG_WAIT k ≤ 4 || s.get H.ENG_WAIT k == 6)

/-- ENGINE_ENTRY (R280): a START or RETEST reaches an engine at a boundary; one that holds a stolen task
reaches it at its YIELD. -/
def State.engineEntry (s : State) (k : Nat) : State :=
  if s.on H.ENG_START_PEND k && !s.on F.ENG_STAT_TASK_HELD k && (s.interruptible k || s.engRests k) then (s.engEnter k).engStopCheck k
  else s

/-- A trap with its TRAP code or event source number: EVENT takes the oldest source number queued (R592). -/
def State.trapTake (s : State) (k v : Nat) : State :=
  if v = 11 then s.takeAbort k
  else if v = 13 then
    let q := qGet s.evq k
    let t : State := { s with evq := qSet s.evq k (q.drop 1) }
    let u := t.takeTrap k 13 (q.headD 0) (s.pcOf k) true
    if (q.drop 1).isEmpty then u else u.pendTrap k 13
  else s.takeTrap k v 0 (s.pcOf k) true

/-- TRAP_ENTRY (R270, R271). -/
def State.trapEntry (s : State) (k : Nat) : State :=
  match s.trapDue k with
  | none => s
  | some v => if s.interruptible k then (s.trapTake k v).engStopCheck k else s

/-- PARITY_ERROR (R266): the word at PC has bad parity and is not executed. -/
def State.parityError (s : State) (k : Nat) : State :=
  if s.atBoundary k && !parityOk (s.csWord k (s.pcOf k)) then
    let s1 := (s.setB F.ENG_CS_STAT_PERR k true).put F.ENG_CS_STAT_PERR_WORD k (s.pcOf k)
    (s1.faultRaise k k false).trapStop k 2 0 (s.pcOf k)
  else s

/-- ABORT_TIMEOUT (R279): the handler has not executed HALT in time. -/
def State.abortTimeout (s : State) (k : Nat) : State :=
  match s.due H.ENG_ABORT_END k with
  | none => s
  | some t => if s.get H.ENG_ABORT k = 0 then s else (s.upTo t).engHalt k 2

end Sys2Proof.Machine
end

