-- ==== Sys2Proof/Machine/ExecCal.lean ====
section
/-!
DEFINITION. The meanings of the commands of calibration and loads (R424-R441, R208-R210, R269).
-/

namespace Sys2Proof.Machine

/-- CALIBRATE (R430): CALIBRATE. -/
def execCalibrate (h : Hdr) (a : CalArgs) (s : State) : Out := .next (s.calibrate h a)

/-- CAL_STOP (R437): CAL_STOP. -/
def execCalStop (h : Hdr) (tile : Nat) (s : State) : Out := .next (s.calStop h tile)

/-- CAL_FLOW_DONE (R434): A calibration flow ends with its results. -/
def execCalFlowDone (t : Fin 8) (flow : Nat) (results : List CalSeen) (s : State) : Out := .next (s.flowDone t flow results)

/-- CORRECTION_APPLY (R436): Held corrections come into force. -/
def execCorrectionApply (t : Fin 8) (s : State) : Out := .next (s.calApplyReady t)

/-- CAL_LOAD (R429): CAL_LOAD. -/
def execCalLoad (h : Hdr) (addr : Nat) (s : State) : Out := .next (s.calLoad h addr)

/-- PAT_LOAD (R208): PAT_LOAD. -/
def execPatLoad (h : Hdr) (addr : Nat) (s : State) : Out := .next (s.patLoad h addr)

/-- SEG_LOAD (R209): SEG_LOAD. -/
def execSegLoad (h : Hdr) (addr : Nat) (s : State) : Out := .next (s.segLoad h addr)

/-- CS_LOAD (R501): CS_LOAD. -/
def execCsLoad (h : Hdr) (k : Nat) (addr : Nat) (s : State) : Out := .next (s.csLoadCmd h k addr)

end Sys2Proof.Machine
end

