-- ==== Sys2Proof/Machine/ExecCapture.lean ====
section
/-!
DEFINITION. The meanings of the commands of time measurement, acquisition and tasks (R379-R421, R314-R321, R630).
-/

namespace Sys2Proof.Machine

/-- The moment of an opening comes (R390). -/
def State.tdcOpens (s : State) (j : Nat) : State :=
  match s.due H.TDC_OPEN_DUE j with
  | none => s
  | some t =>
    if s.on F.TDC_CTRL_ARMED j then ((s.upTo t).noDue H.TDC_OPEN_DUE j).setB F.TDC_CTRL_OPEN j true else s

/-- A pending start grows older than PAIR_TMO_US (R393). -/
def State.pairTimeout (s : State) (j : Nat) : State :=
  let lim := s.get F.TDC_AUX_PAIR_TMO_US j
  if s.on H.TDC_START_P j && lim != 0 && s.get F.TDC_CFG_MODE j == 1 then
    (((s.upTo (s.get H.TDC_START_AT j + lim * us)).setB H.TDC_START_P j false).incSat F.TDC_CNT_B_PAIR_TMO j).setB
      F.TDC_STAT_PAIR_SEEN j true
  else s

/-- RD of a full ring is read again (R399). -/
def State.ringRecheck (s : State) (j : Nat) : State :=
  if s.on F.TDC_STAT_RING_FULL j then
    s.setB F.TDC_STAT_RING_FULL j (decide (s.ringSize j ≤ s.ringWr j - s.ringRd j))
  else s

/-- The last sample of a capture has been written (R414). -/
def State.acqComplete (s : State) (u : Nat) : State :=
  if s.acqState u == aPOST && s.get H.ACQ_LEFT u == 0 then s.acqFinish u else s

/-- A push that waits is tried again (R315, R421). -/
def State.pushRetry (s : State) (p : Pusher) : State :=
  match p with
  | .site i => if s.get H.ST_PUSH_WAIT i = 0 then s else s.failPush i (s.on F.SITE_STATE_FINISHING i)
  | .acq u => if s.on H.ACQ_PUSH_WAIT u then s.acqPush u else s

/-- Hearth may take a task of a deque (R630): its owner does not steal, and has halted, or its site is IDLE
or ENDED, or it serves none. -/
def State.hearthMay (s : State) (k : Nat) : Bool :=
  !s.on F.ENG_CTRL_STEAL_EN k && (s.engRests k || s.engState k == eOFF || match s.engSite k with
    | none => true
    | some i => s.siteState i == sIDLE || s.siteState i == sENDED)

/-- HEARTH_TASK_TAKEOVER (R630): Hearth cores 2 and 3 run the oldest task of a deque, and DONE advances. -/
def State.taskTakeover (s : State) (k : Nat) : State :=
  if s.hearthMay k then
    match s.dqTake k with
    | none => s
    | some (t, d) => (t.runTask d k).dqDone k
  else s

/-- TDC_CTRL_ARM (R389): TDC_CTRL written with ARM. -/
def execTdcCtrlArm (m : Master) (j : Fin 128) (v : Nat) (s : State) : Out := .next (s.swWrite m .TDC_CTRL j v)

/-- TDC_CTRL_DISARM (R391): TDC_CTRL written with DISARM. -/
def execTdcCtrlDisarm (m : Master) (j : Fin 128) (v : Nat) (s : State) : Out := .next (s.swWrite m .TDC_CTRL j v)

/-- TDC_OPEN (R390): An armed TDC opens. -/
def execTdcOpen (j : Fin 128) (s : State) : Out := .next (s.tdcOpens j)

/-- TDC_EVENT (R383): An edge at an input. -/
def execTdcEvent (j : Fin 128) (e : TdcEdge) (s : State) : Out := .next (s.tdcEdge j e)

/-- PAIR_TIMEOUT (R393): A pending start grows too old. -/
def execPairTimeout (j : Fin 128) (s : State) : Out := .next (s.pairTimeout j)

/-- TDC_SPILL (R400): Entries spilled to the ring. -/
def execTdcSpill (j : Fin 128) (n : Nat) (s : State) : Out := .next (s.tdcSpill j n)

/-- RING_RECHECK (R399): A full ring looked at again. -/
def execRingRecheck (j : Fin 128) (s : State) : Out := .next (s.ringRecheck j)

/-- ACQ_CTRL_ARM (R409): ACQ_CTRL written with ARM. -/
def execAcqCtrlArm (m : Master) (u : Fin 96) (v : Nat) (s : State) : Out := .next (s.swWrite m .ACQ_CTRL u v)

/-- ACQ_CTRL_FORCE (R413): ACQ_CTRL written with FORCE. -/
def execAcqCtrlForce (m : Master) (u : Fin 96) (v : Nat) (s : State) : Out := .next (s.swWrite m .ACQ_CTRL u v)

/-- ACQ_CTRL_CANCEL (R415): ACQ_CTRL written with CANCEL. -/
def execAcqCtrlCancel (m : Master) (u : Fin 96) (v : Nat) (s : State) : Out := .next (s.swWrite m .ACQ_CTRL u v)

/-- ACQ_SAMPLE (R410): One sample of an acquisition unit. -/
def execAcqSample (u : Fin 96) (a : AcqSeen) (s : State) : Out := .next (s.acqSample u a)

/-- ACQ_COMPLETE (R414): A capture has its last sample. -/
def execAcqComplete (u : Fin 96) (s : State) : Out := .next (s.acqComplete u)

/-- FAIL_COMPRESS (R319): A FAIL_COMPRESS task runs. -/
def execFailCompress (r : TaskRunner) (s : State) : Out := .next (s.taskRow r 1)

/-- CAPTURE_REDUCE (R420): A CAPTURE_REDUCE task runs. -/
def execCaptureReduce (r : TaskRunner) (s : State) : Out := .next (s.taskRow r 2)

/-- RESULT_PACK (R320): A RESULT_PACK task runs. -/
def execResultPack (r : TaskRunner) (s : State) : Out := .next (s.taskRow r 3)

/-- DEQUE_PUSH_RETRY (R315): A push that waits is tried again. -/
def execDequePushRetry (p : Pusher) (s : State) : Out := .next (s.pushRetry p)

/-- HEARTH_TASK_TAKEOVER (R630): Hearth takes a task that was left. -/
def execHearthTaskTakeover (k : Fin 64) (s : State) : Out := .next (s.taskTakeover k)

/-- STEAL_DISABLE (R292): The steal unit is turned off. -/
def execStealDisable (s : State) : Out := .next (s.stealDisable)

end Sys2Proof.Machine
end

