-- ==== Sys2Proof/Machine/ExecCommands.lean ====
section
/-!
DEFINITION. The meanings of the commands of site commands as a tile acts on them: PINOP and ANAOP (R250-R258, R263).
-/

namespace Sys2Proof.Machine

/-- START_CHAIN (R253): The START_CHAIN command of engine k. -/
def execStartChain (k : Fin 64) (entry : Nat) (s : State) : Out := .next (s.pinStart k entry)

/-- PIN_JUMP (R253): The PIN_JUMP command of engine k. -/
def execPinJump (k : Fin 64) (s : State) : Out := .next (s.pinJumpCmd k)

/-- PIN_CANCEL (R253): The PIN_CANCEL command of engine k. -/
def execPinCancel (k : Fin 64) (s : State) : Out := .next (s.pinCancelCmd k)

/-- TSET (R166): The TSET command of engine k. -/
def execTset (k : Fin 64) (set : Fin 16) (s : State) : Out := .next (s.pinTset k set)

/-- BANK (R137): The BANK command of engine k. -/
def execBank (k : Fin 64) (half : Fin 2) (value : Bool) (mask : Nat) (s : State) : Out :=
  .next (s.pinBank k half (b2n value) mask)

/-- CMASK (R253): The CMASK command of engine k. -/
def execCmask (k : Fin 64) (half : Fin 2) (mask : Nat) (s : State) : Out := .next (s.pinCmask k half mask)

/-- DRV (R253): The DRV command of engine k. -/
def execDrv (k : Fin 64) (half : Fin 2) (value : Bool) (mask : Nat) (s : State) : Out := .next (s.pinDrv k half value mask)

/-- TRIG (R185): The TRIG command of engine k. -/
def execTrig (k : Fin 64) (s : State) : Out := .next (s.pinTrig k)

/-- CLRFAIL (R253): The CLRFAIL command of engine k. -/
def execClrfail (k : Fin 64) (s : State) : Out := .next (s.pinClrfail k)

/-- LEVEL (R253): The LEVEL command of engine k. -/
def execLevel (k : Fin 64) (lvl : Fin 5) (bankSel all : Bool) (chan : Fin 64) (value : Nat) (s : State) : Out :=
  .next (s.pinLevel k lvl bankSel all chan value)

/-- TERM (R253): The TERM command of engine k. -/
def execTerm (k : Fin 64) (half : Fin 2) (termMode : Fin 4) (mask : Nat) (s : State) : Out :=
  .next (s.pinTerm k half termMode mask)

/-- DPS_SET (R255): The DPS_SET command of engine k. -/
def execDpsSet (k : Fin 64) (idx : Fin 64) (imm : Nat) (s : State) : Out := .next (s.anaDpsSet k idx imm)

/-- DPS_ILIM (R255): The DPS_ILIM command of engine k. -/
def execDpsIlim (k : Fin 64) (idx : Fin 64) (imm : Nat) (s : State) : Out := .next (s.anaDpsIlim k idx imm)

/-- DPS_EN (R331): The DPS_EN command of engine k. -/
def execDpsEn (k : Fin 64) (idx : Fin 64) (value : Bool) (s : State) : Out := .next (s.anaDpsEn k idx value)

/-- DPS_RAMP (R334): The DPS_RAMP command of engine k. -/
def execDpsRamp (k : Fin 64) (idx : Fin 64) (slew : Fin 32) (imm : Nat) (s : State) : Out :=
  .next (s.anaDpsRamp k idx slew imm)

/-- SMU_SET (R255): The SMU_SET command of engine k. -/
def execSmuSet (k : Fin 64) (idx : Fin 64) (imm : Nat) (s : State) : Out := .next (s.anaSmuSet k idx imm)

/-- SMU_CLAMP (R346): The SMU_CLAMP command of engine k. -/
def execSmuClamp (k : Fin 64) (idx : Fin 64) (imm : Nat) (s : State) : Out := .next (s.anaSmuClamp k idx imm)

/-- SMU_RANGE (R346): The SMU_RANGE command of engine k. -/
def execSmuRange (k : Fin 64) (idx : Fin 64) (rng : Fin 32) (s : State) : Out := .next (s.anaSmuRange k idx rng)

/-- SMU_EN (R349): The SMU_EN command of engine k. -/
def execSmuEn (k : Fin 64) (idx : Fin 64) (value : Bool) (s : State) : Out := .next (s.anaSmuEn k idx value)

/-- SMU_WAVE (R217): The SMU_WAVE command of engine k. -/
def execSmuWave (k : Fin 64) (idx : Fin 64) (entry : Nat) (s : State) : Out := .next (s.anaSmuWave k idx entry)

/-- SMU_STOP (R351): The SMU_STOP command of engine k. -/
def execSmuStop (k : Fin 64) (idx : Fin 64) (s : State) : Out := .next (s.anaSmuStop k idx)

/-- PMU_CFG (R255): The PMU_CFG command of engine k. -/
def execPmuCfg (k : Fin 64) (idx : Fin 64) (imm : Nat) (s : State) : Out := .next (s.anaPmuCfg k idx imm)

/-- PMU_FORCE (R255): The PMU_FORCE command of engine k. -/
def execPmuForce (k : Fin 64) (idx : Fin 64) (imm : Nat) (s : State) : Out := .next (s.anaPmuForce k idx imm)

/-- TDC_ARM (R389): The TDC_ARM command of engine k. -/
def execTdcArm (k : Fin 64) (idx : Fin 64) (imm : Nat) (s : State) : Out := .next (s.anaTdcArm k idx imm)

/-- TDC_STOP (R391): The TDC_STOP command of engine k. -/
def execTdcStop (k : Fin 64) (idx : Fin 64) (s : State) : Out := .next (s.anaTdcStop k idx)

/-- ACQ_ARM (R409): The ACQ_ARM command of engine k. -/
def execAcqArm (k : Fin 64) (idx : Fin 64) (imm : Nat) (s : State) : Out := .next (s.anaAcqArm k idx imm)

/-- ACQ_FORCE (R413): The ACQ_FORCE command of engine k. -/
def execAcqForce (k : Fin 64) (idx : Fin 64) (s : State) : Out := .next (s.anaAcqForce k idx)

/-- WAIT (R257): The WAIT command of engine k. -/
def execWait (k : Fin 64) (ns : Nat) (s : State) : Out := .next (s.anaWaitCmd k ns)

/-- SETTLE (R257): The SETTLE command of engine k. -/
def execSettle (k : Fin 64) (idx : Fin 64) (qty : Fin 5) (ns : Nat) (s : State) : Out := .next (s.anaSettle k idx qty ns)

/-- MEASURE (R257): The MEASURE command of engine k. -/
def execMeasure (k : Fin 64) (idx : Fin 64) (qty : Fin 5) (ns : Nat) (s : State) : Out := .next (s.anaMeasure k idx qty ns)

/-- READ (R257): The READ command of engine k. -/
def execRead (k : Fin 64) (idx : Fin 64) (qty : Fin 5) (s : State) : Out := .next (s.anaRead k idx qty)

/-- LONG_OPERATION_END (R257): A long operation ends. -/
def execLongOperationEnd (k : Fin 64) (s : State) : Out := .next (s.longEnd k)

/-- COMMAND_REFUSED (R258): A refusal becomes known to the engine. -/
def execCommandRefused (k : Fin 64) (s : State) : Out := .next (s.refusalNext k)

/-- COMMAND_ACKNOWLEDGE (R263): The oldest command is acknowledged. -/
def execCommandAcknowledge (k : Fin 64) (s : State) : Out := .next (s.cmdAck k)

end Sys2Proof.Machine
end

