-- ==== Sys2Proof/Machine/ExecFabric.lean ====
section
/-!
DEFINITION. The meanings of the commands of the Ilvos fabric (R442-R490).
-/

namespace Sys2Proof.Machine

/-- The cause kept with a retrain: 1 loss of signal, 2 any other, 3 a
RETRAIN command (R463, R467, R489). -/
def retrainCode : RetrainCause → Nat
  | .signal => 1
  | .align => 2
  | .errors => 2
  | .retries => 2
  | .request => 3

/-- LINK_BLOCK_RECEIVE (R445): A link block received. -/
def execLinkBlockReceive (p : Fin 8) (b : LinkBlock) (s : State) : Out := .next (s.linkBlock p b)

/-- FLIT_RECEIVE (R453): A flit received. -/
def execFlitReceive (p : Fin 8) (f : Flit) (s : State) : Out := .next (s.flitReceive p f)

/-- RETRY_REQ (R455): A RETRY_REQ received. -/
def execRetryReq (p : Fin 8) (expected : Nat) (s : State) : Out := .next (s.retryReq p expected)

/-- RETRY_REQ_RESEND (R454): A RETRY_REQ sent again. -/
def execRetryReqResend (p : Fin 8) (s : State) : Out := .next (s.retryResend p)

/-- PARTNER_DETECT (R462): A partner is detected. -/
def execPartnerDetect (p : Fin 8) (s : State) : Out := .next (s.partnerDetect p)

/-- LINK_INFO (R466): LINK_INFO received. -/
def execLinkInfo (p : Fin 8) (info : LinkInfo) (s : State) : Out := .next (s.linkInfo p info)

/-- TRAINING_STEP_DONE (R462): A training step ends. -/
def execTrainingStepDone (p : Fin 8) (ok : Bool) (s : State) : Out := .next (s.trainingStep p ok)

/-- LINK_UP (R462): A link comes up. -/
def execLinkUp (p : Fin 8) (s : State) : Out := .next (s.linkUp p)

/-- RETRAIN (R467): A Porch retrains. -/
def execRetrain (p : Fin 8) (c : RetrainCause) (s : State) : Out := .next (s.retrainFor p (retrainCode c))

/-- LINK_DOWN (R488): A link goes down. -/
def execLinkDown (p : Fin 8) (s : State) : Out := .next (s.linkDown p)

/-- DOWN_EXPIRY (R461): The time of DOWN is over. -/
def execDownExpiry (p : Fin 8) (s : State) : Out := .next (s.downExpiry p)

/-- PORCH_EN_WRITE (R461): PORCH_CTRL written. -/
def execPorchEnWrite (m : Master) (p : Fin 8) (v : Nat) (s : State) : Out := .next (s.swWrite m .PORCH_CTRL p v)

/-- QUIET_REQ (R468): QUIET_REQ. -/
def execQuietReq (p : Fin 8) (received : Bool) (s : State) : Out := .next (s.quietReq p received)

/-- QUIET_ACK (R468): QUIET_ACK. -/
def execQuietAck (p : Fin 8) (accept : Bool) (s : State) : Out := .next (s.quietAck p accept)

/-- QUIET_EXIT (R468): QUIET left. -/
def execQuietExit (p : Fin 8) (s : State) : Out := .next (s.quietExit p)

/-- DEEP_REQ (R469): DEEP_REQ. -/
def execDeepReq (p : Fin 8) (received : Bool) (s : State) : Out := .next (s.deepReq p received)

/-- DEEP_ACK (R469): DEEP_ACK. -/
def execDeepAck (p : Fin 8) (s : State) : Out := .next (s.deepAck p)

/-- DEEP_WAKE (R469): DEEP left. -/
def execDeepWake (p : Fin 8) (s : State) : Out := .next (s.deepWake p)

/-- WAKE_TIMEOUT (R470): A wake takes too long. -/
def execWakeTimeout (p : Fin 8) (s : State) : Out := .next (s.wakeTimeout p)

/-- LEAVE (R490): LEAVE received. -/
def execLeave (p : Fin 8) (s : State) : Out := .next (s.leave p)

/-- LEAVE_WAIT_EXPIRY (R490): The wait of a Porch that leaves is over. -/
def execLeaveWaitExpiry (p : Fin 8) (s : State) : Out := .next (s.leaveExpiry p)

/-- DISCOVER (R482): A DISCOVER at the router. -/
def execDiscover (p : Fin 8) (f : Flit) (s : State) : Out := .next (if f.typ = 0x10 then s.route p f else s)

/-- ASSIGN (R484): An ASSIGN delivered. -/
def execAssign (p : Fin 8) (f : Flit) (s : State) : Out := .next (if f.typ = 0x12 then s.assign p f else s)

/-- ROUTE_SET (R485): A ROUTE_SET delivered. -/
def execRouteSet (p : Fin 8) (f : Flit) (s : State) : Out := .next (if f.typ = 0x14 then s.routeSet p f else s)

end Sys2Proof.Machine
end

