-- ==== Sys2Proof/Machine/ExecHost.lean ====
section
/-!
DEFINITION. The meanings of the commands of host commands, mailboxes and register accesses (R491-R530, R5-R8).
-/

namespace Sys2Proof.Machine

/-- STATUS (R499): STATUS. -/
def execStatus (h : Hdr) (s : State) : Out := .next (s.statusCmd h)

/-- REG_RD (R499): REG_RD. -/
def execRegRd (h : Hdr) (addrs : List Nat) (s : State) : Out := .next (s.regRdCmd h addrs)

/-- REG_WR (R500): REG_WR. -/
def execRegWr (h : Hdr) (items : List RegItem) (s : State) : Out := .next (s.regWrCmd h items)

/-- BLK_RD (R499): BLK_RD. -/
def execBlkRd (h : Hdr) (addr len : Nat) (s : State) : Out := .next (s.blkRdCmd h addr len)

/-- BLK_WR (R500): BLK_WR. -/
def execBlkWr (h : Hdr) (addr : Nat) (data : List Byte) (s : State) : Out := .next (s.blkWrCmd h addr data)

/-- FLASH_WR (R502): FLASH_WR. -/
def execFlashWr (h : Hdr) (off : Nat) (data : List Byte) (s : State) : Out := .next (s.flashWrCmd h off data)

/-- FLASH_ERASE (R502): FLASH_ERASE. -/
def execFlashErase (h : Hdr) (off sectors : Nat) (s : State) : Out := .next (s.flashEraseCmd h off sectors)

/-- FLASH_OPERATION_DONE (R502): The flash has finished the oldest operation. -/
def execFlashOperationDone (ok : Bool) (s : State) : Out := .next (s.flashDone ok)

/-- HOST_JUMP (R499): JUMP of the host. -/
def execHostJump (h : Hdr) (cancel smu : Bool) (mask : Nat) (s : State) : Out := .next (s.hostJumpCmd h cancel smu mask)

/-- SOFT_RESET (R503): SOFT_RESET. -/
def execSoftReset (h : Hdr) (key : Nat) (s : State) : Out := .next (s.softResetCmd h key)

/-- BOOT_CLEAR (R114): BOOT_CLEAR. -/
def execBootClear (h : Hdr) (s : State) : Out := .next (s.bootClearCmd h)

/-- PREPARE_REMOVE (R128): PREPARE_REMOVE. -/
def execPrepareRemove (h : Hdr) (s : State) : Out := .next (s.prepareRemoveCmd h)

/-- MBX_POST (R514): MBX_POST. -/
def execMbxPost (h : Hdr) (mbx epoch : Nat) (words : List Nat) (s : State) : Out := .next (s.mbxPostCmd h mbx epoch words)

/-- MBX_READ (R514): MBX_READ. -/
def execMbxRead (h : Hdr) (mbx max : Nat) (s : State) : Out := .next (s.mbxReadCmd h mbx max)

/-- DOORBELL (R516): DOORBELL. -/
def execDoorbell (h : Hdr) (mbx : Nat) (s : State) : Out := .next (s.doorbellCmd h mbx)

/-- MBX_RESET (R515): MBX_RESET. -/
def execMbxReset (h : Hdr) (mbx epoch : Nat) (s : State) : Out := .next (s.mbxResetCmd h mbx epoch)

/-- RESERVED_OPCODE (R499): A reserved opcode. -/
def execReservedOpcode (h : Hdr) (op : Nat) (s : State) : Out := .next (s.reservedCmd h op)

/-- INJECT_FAULT (R588): FAULT_INJ of a fault. -/
def execInjectFault (h : Hdr) (index unit : Nat) (s : State) : Out := .next (s.injectFault h index unit)

/-- INJECT_INTERRUPT (R588): FAULT_INJ of an interrupt. -/
def execInjectInterrupt (h : Hdr) (index : Nat) (s : State) : Out := .next (s.injectIrq h index)

/-- INJECT_SENSOR_READING (R588): FAULT_INJ of a reading. -/
def execInjectSensorReading (h : Hdr) (index value holdMs : Nat) (s : State) : Out :=
  .next (s.injectReading h index value holdMs)

/-- INJECT_SENSOR_BROKEN (R588): FAULT_INJ of a broken sensor. -/
def execInjectSensorBroken (h : Hdr) (index cause : Nat) (s : State) : Out := .next (s.injectBroken h index cause)

/-- FUSE_READ (R620): FUSE_READ. -/
def execFuseRead (h : Hdr) (word : Nat) (s : State) : Out := .next (s.fuseReadCmd h word)

/-- FUSE_OR (R620): FUSE_OR. -/
def execFuseOr (h : Hdr) (word v : Nat) (s : State) : Out := .next (s.fuseOrCmd h word v)

/-- VERSION_READ (R620): VERSION. -/
def execVersionRead (h : Hdr) (s : State) : Out := .next (s.versionCmd h)

/-- EVENT_SEND (R508): The oldest event leaves. -/
def execEventSend (s : State) : Out := .next (s.eventSend)

/-- MBX_HOST_RX (R514): MBX_HOST_RX read. -/
def execMbxHostRx (m : Master) (b : Fin 4) (s : State) : Out := .next (s.swRead m .MBX_HOST_RX b)

/-- MBX_HOST_TX (R514): MBX_HOST_TX written. -/
def execMbxHostTx (m : Master) (b : Fin 4) (v : Nat) (s : State) : Out := .next (s.swWrite m .MBX_HOST_TX b v)

/-- MBX_HOST_DB (R516): MBX_HOST_DB written. -/
def execMbxHostDb (m : Master) (b : Fin 4) (v : Nat) (s : State) : Out := .next (s.swWrite m .MBX_HOST_DB b v)

/-- MBX_ENG_TX (R514): MBX_ENG_TX written. -/
def execMbxEngTx (m : Master) (k : Fin 64) (v : Nat) (s : State) : Out := .next (s.swWrite m .MBX_ENG_TX k v)

/-- MBX_ENG_RX (R514): MBX_ENG_RX read. -/
def execMbxEngRx (m : Master) (k : Fin 64) (s : State) : Out := .next (s.swRead m .MBX_ENG_RX k)

/-- MBX_ENG_DB (R516): MBX_ENG_DB written. -/
def execMbxEngDb (m : Master) (k : Fin 64) (v : Nat) (s : State) : Out := .next (s.swWrite m .MBX_ENG_DB k v)

/-- REG_WRITE (R5): Any write of the bus. -/
def execRegWrite (m : Master) (addr v : Nat) (s : State) : Out := .next (answered (s.busWrite m addr v))

end Sys2Proof.Machine
end

