-- ==== Sys2Proof/Machine/ExecMemory.lean ====
section
/-!
DEFINITION. The meanings of the commands of memory operations of engines, the scratchpad and the semaphores (R259-R261, R322-R324, R538-R559).
-/

namespace Sys2Proof.Machine

/-- SEM_ACQ read by the masters of one HEARTH cycle (R323, R617): a debug port without rights is no
reader. -/
def State.semReads (s : State) (n : Nat) (readers : List Master) : State × Resp :=
  if s.busOff then s.bad else s.semReadBy n (readers.filter (fun m => !s.tapBarred m))

/-- LD (R259): LD. -/
def execLd (k : Fin 64) (space : Fin 2) (off : Nat) (dst : Fin 64) (s : State) : Out := .next (s.loadRow k 1 space off dst 4)

/-- ST (R259): ST. -/
def execSt (k : Fin 64) (space : Fin 2) (off : Nat) (v : Nat) (s : State) : Out :=
  .next (s.storeRow k 2 space off (leBytes 4 v))

/-- LDP (R259): LDP. -/
def execLdp (k : Fin 64) (space : Fin 2) (off : Nat) (dst : Fin 64) (s : State) : Out :=
  .next (s.loadRow k 3 space off dst 8)

/-- STP (R259): STP. -/
def execStp (k : Fin 64) (space : Fin 2) (off : Nat) (v0 v1 : Nat) (s : State) : Out :=
  .next (s.storeRow k 4 space off (leBytes 4 v0 ++ leBytes 4 v1))

/-- LOAD_COMPLETE (R263): A load that waits completes. -/
def execLoadComplete (k : Fin 64) (s : State) : Out := .next (s.loadDone k)

/-- MEMORY_ERROR (R260): A memory error reaches the engine. -/
def execMemoryError (k : Fin 64) (s : State) : Out := .next (s.memErrNext k)

/-- SEM (R259): SEM. -/
def execSem (k : Fin 64) (n : Fin 64) (dst : Fin 64) (s : State) : Out := .next (s.semCmd k n dst)

/-- SEMREL (R555): SEMREL. -/
def execSemrel (k : Fin 64) (n : Fin 64) (s : State) : Out := .next (s.semrelCmd k n)

/-- RECORD (R309): RECORD. -/
def execRecord (k : Fin 64) (off : Nat) (n : Fin 16) (s : State) : Out := .next (s.recordCmd k off n)

/-- CMD (R287): CMD. -/
def execCmd (k : Fin 64) (off : Nat) (s : State) : Out := .next (s.cmdCmd k off)

/-- CMD_REPLY (R287): The reply to a CMD. -/
def execCmdReply (k : Fin 64) (s : State) : Out := .next (s.cmdReply k)

/-- FLD (R259): FLD. -/
def execFld (k : Fin 64) (w : Fin 16) (dst : Fin 64) (s : State) : Out := .next (s.fldCmd k w dst)

/-- FST (R259): FST. -/
def execFst (k : Fin 64) (w : Fin 16) (v : Nat) (s : State) : Out := .next (s.fstCmd k w v)

/-- PUSHT (R319): PUSHT. -/
def execPusht (k : Fin 64) (dst : Fin 64) (s : State) : Out := .next (s.pushtCmd k dst)

/-- SEM_ACQ_READ (R323): SEM_ACQ read by the masters of one cycle. -/
def execSemAcqRead (n : Fin 64) (readers : List Master) (s : State) : Out := .next (answered (s.semReads n readers))

/-- SEM_ACQ_WRITE (R555): SEM_ACQ written. -/
def execSemAcqWrite (m : Master) (n : Fin 64) (s : State) : Out := .next (s.swWrite m .SEM_ACQ n 0)

/-- SEM_FORCE (R558): SEM_FORCE written. -/
def execSemForce (m : Master) (v : Nat) (s : State) : Out := .next (s.swWrite m .SEM_FORCE 0 v)

/-- BIT_SET_ALIAS_WRITE (R548): The bit-set alias written. -/
def execBitSetAliasWrite (m : Master) (x v : Nat) (b : Option PortB) (s : State) : Out :=
  .next (answered (s.aliasWrite m true x v b))

/-- BIT_CLEAR_ALIAS_WRITE (R548): The bit-clear alias written. -/
def execBitClearAliasWrite (m : Master) (x v : Nat) (b : Option PortB) (s : State) : Out :=
  .next (answered (s.aliasWrite m false x v b))

/-- SCRUB_READ (R541): The scrubber reads its next block. -/
def execScrubRead (err : EccSeen) (s : State) : Out := .next (s.scrubRead err)

end Sys2Proof.Machine
end

