-- ==== Sys2Proof/Machine/ExecModes.lean ====
section
/-!
DEFINITION. The meanings of the commands of modes, Chimney and the thermal log (R112-R117, R561-R577).
-/

namespace Sys2Proof.Machine

/-- WAKE (R112): the four causes act alike. -/
def State.wakeBy (s : State) (c : WakeCause) : State :=
  match c with
  | .fabric => s.wakeUp
  | .doorbell => s.wakeUp
  | .fault => s.wakeUp
  | .warn => s.wakeUp

/-- MODE (R112): The MODE command. -/
def execMode (h : Hdr) (target : Nat) (s : State) : Out := .next (s.modeCommand h target)

/-- MODE_TRANSITION_DONE (R112): The time of a mode transition is over. -/
def execModeTransitionDone (s : State) : Out := .next (s.modeDone.calLeave)

/-- WAKE (R112): What wakes the chip from SLEEP. -/
def execWake (c : WakeCause) (s : State) : Out := .next (s.wakeBy c)

/-- CHIMNEY_SAMPLE (R561): One sample of the 40 sensors. -/
def execChimneySample (raw : List SensorRaw) (s : State) : Out :=
  if raw.length = 40 then .next (s.chimneySample raw) else .fault .illFormed

/-- THERMAL_LOG_RETRY (R576): The thermal log tries again. -/
def execThermalLogRetry (s : State) : Out := .next (s.logRetry)

/-- LANE_PRESET_UPDATE (R441): A Porch takes up the lane preset of the band. -/
def execLanePresetUpdate (p : Fin 8) (s : State) : Out := .next (s.lanePresetUpdate p)

/-- FORCED_READING_EXPIRY (R588): The hold time of a forced reading is over. -/
def execForcedReadingExpiry (n : Fin 40) (s : State) : Out := .next (s.forceExpiry n)

/-- REFRESH_RATE_REPORT (R440): The memory reports its refresh rate. -/
def execRefreshRateReport (rate : Fin 3) (s : State) : Out := .next (s.refreshReport rate)

end Sys2Proof.Machine
end

