-- ==== Sys2Proof/Machine/ExecPattern.lean ====
section
/-!
DEFINITION. The meanings of the commands of the pattern store and the segment sequencer (R20-R26, R117, R189-R241).
-/

namespace Sys2Proof.Machine

/-- The register of a read-to-clear counter. -/
def panCounterReg : PanCounter → RegName
  | .underrun => .PAN_UNDERRUN
  | .evict => .PAN_EVICT
  | .overbudget => .PAN_OVERBUDGET
  | .decodeErr => .PAN_DECODE_ERR

/-- A decoder ends with a line (R203, R220): a failed one raises fault source 113. -/
def State.lineDone (s : State) (pat line : Nat) : State :=
  match s.jobs.find? (fun j => j.req.pat == pat && j.req.line == line) with
  | none => s
  | some j =>
    let r := s.decodeDone j
    if r.2 then (r.1.faultRaise 113 (pat % 256) false).wakeIf (s.faultNotes 113) else r.1

/-- DEFERRED_START_RELEASE (R117): A held start is let go. -/
def execDeferredStartRelease (site : Fin 64) (s : State) : Out := .next (s.deferredRelease site)

/-- START_TIMEOUT (R25): A start has waited too long. -/
def execStartTimeout (site : Fin 64) (s : State) : Out := .next (s.startTimeout site)

/-- VECTOR_BOUNDARY (R165): A vector boundary of a site. -/
def execVectorBoundary (site : Fin 64) (seen : List CmpSeen) (s : State) : Out := .next (s.vectorBoundary site seen)

/-- STALL_LIMIT_EXPIRY (R239): A stall exceeds its limit. -/
def execStallLimitExpiry (site : Fin 64) (s : State) : Out := .next (s.stallExpiry site)

/-- TIMED_START (R190): The time of a timed start comes. -/
def execTimedStart (site : Fin 64) (s : State) : Out := .next (s.timedStart site)

/-- PANTRY_LINE_GRANT (R20): One line goes to a read port. -/
def execPantryLineGrant (s : State) : Out := .next (s.lineGrant)

/-- LINE_DECODE_START (R220): A free decoder takes a request. -/
def execLineDecodeStart (s : State) : Out := .next (s.decodeStart)

/-- LINE_DECODE_DONE (R220): A decoder ends. -/
def execLineDecodeDone (pat line : Nat) (s : State) : Out := .next (s.lineDone pat line)

/-- PAN_INVAL (R227): PAN_INVAL written. -/
def execPanInval (m : Master) (v : Nat) (s : State) : Out := .next (s.swWrite m .PAN_INVAL 0 v)

/-- INVALIDATION_DONE (R227): An invalidation ends. -/
def execInvalidationDone (s : State) : Out := .next (if s.on F.PAN_INVAL_BUSY 0 then s.invalEnd else s)

/-- PAN_COUNTER_READ (R5): A read-to-clear counter of the Pantry read. -/
def execPanCounterRead (m : Master) (c : PanCounter) (s : State) : Out := .next (s.swRead m (panCounterReg c) 0)

/-- JUMP_REQ_WRITE (R231): A jump request register written with REQ. -/
def execJumpReqWrite (m : Master) (t : JumpTarget) (v : Nat) (s : State) : Out :=
  .next (match t with
  | .site i => s.swWrite m .SEQ_JUMP_REQ i v
  | .smu u => s.swWrite m .SMUW_JUMP_REQ u v)

/-- JUMP_REQ_CANCEL (R234): A jump request register written with CANCEL. -/
def execJumpReqCancel (m : Master) (t : JumpTarget) (v : Nat) (s : State) : Out :=
  .next (match t with
  | .site i => s.swWrite m .SEQ_JUMP_REQ i v
  | .smu u => s.swWrite m .SMUW_JUMP_REQ u v)

/-- SMU_WAVE_SAMPLE (R218): The next sample of a waveform context. -/
def execSmuWaveSample (u : Fin 32) (s : State) : Out := .next (s.waveSample u)

end Sys2Proof.Machine
end

