-- ==== Sys2Proof/Machine/ExecPins.lean ====
section
/-!
DEFINITION. The meanings of the commands of pin electronics and the window monitors (R130-R156, R362-R378).
-/

namespace Sys2Proof.Machine

/-- The register of a level of a channel, VIH0 to VT1 (R136). -/
def levelReg (lvl : Fin 10) : RegName :=
  match lvl.val with
  | 0 => .CH_VIH0
  | 1 => .CH_VIL0
  | 2 => .CH_VOH0
  | 3 => .CH_VOL0
  | 4 => .CH_VT0
  | 5 => .CH_VIH1
  | 6 => .CH_VIL1
  | 7 => .CH_VOH1
  | 8 => .CH_VOL1
  | _ => .CH_VT1

/-- A threshold register of a monitor. -/
def monReg : MonReg → RegName
  | .hi => .MON_HI
  | .lo => .MON_LO
  | .hyst => .MON_HYST

/-- MONITOR_CROSSING (R368-R372): a trip of a unit that a calibration flow owns ends the flows of its tile
(R434), and a TRIP source whose reaction needs Hearth wakes the chip (R112). -/
def State.crossing (s : State) (i : Nat) (high : Bool) (input : Int) : State :=
  let t := s.monCross i high input
  if s.on F.MON_CTRL_TRIP_EN i && !s.latched i && t.latched i then
    (if s.monOwned i then t.flowsTripped (i / 20) else t).wakeIf (s.faultNotes (64 + i / 20))
  else t

/-- CH_CTRL_WRITE (R132): CH_CTRL written. -/
def execChCtrlWrite (m : Master) (ch : Fin 512) (v : Nat) (s : State) : Out := .next (s.swWrite m .CH_CTRL ch v)

/-- LEVEL_WRITE (R136): A level register written. -/
def execLevelWrite (m : Master) (ch : Fin 512) (lvl : Fin 10) (v : Nat) (s : State) : Out :=
  .next (s.swWrite m (levelReg lvl) ch v)

/-- LEVEL_SETTLED (R136): The levels of a channel have settled. -/
def execLevelSettled (ch : Fin 512) (s : State) : Out := .next (s.levelSettled ch)

/-- PMU_CTRL_WRITE (R150): PMU_CTRL written. -/
def execPmuCtrlWrite (m : Master) (ch : Fin 512) (v : Nat) (s : State) : Out := .next (s.swWrite m .PMU_CTRL ch v)

/-- PMU_CONNECT_DONE (R150): The PMU switch has closed or opened. -/
def execPmuConnectDone (ch : Fin 512) (s : State) : Out := .next (s.pmuConnectDone ch)

/-- PMU_RANGE_DONE (R151): The PMU range has changed. -/
def execPmuRangeDone (ch : Fin 512) (s : State) : Out := .next (s.pmuRangeDone ch)

/-- PMU_MEAS (R152): PMU_CTRL written with MEAS. -/
def execPmuMeas (m : Master) (ch : Fin 512) (v : Nat) (s : State) : Out := .next (s.swWrite m .PMU_CTRL ch v)

/-- PMU_MEAS_DONE (R152): A PMU measurement ends. -/
def execPmuMeasDone (ch : Fin 512) (mean : Int) (clamped beyond : Bool) (s : State) : Out :=
  .next (s.pmuMeasDone ch mean clamped beyond)

/-- MONITOR_CROSSING (R368): A monitor input crosses a threshold. -/
def execMonitorCrossing (i : Fin 160) (high : Bool) (input : Int) (s : State) : Out :=
  .next (s.crossing (monIdx i) high input)

/-- MON_LATCH_CLEAR (R369): MON_STAT written. -/
def execMonLatchClear (m : Master) (i : Fin 160) (v : Nat) (s : State) : Out := .next (s.swWrite m .MON_STAT (monIdx i) v)

/-- MON_PERIOD_BOUNDARY (R369): A period of a monitor ends. -/
def execMonPeriodBoundary (i : Fin 160) (s : State) : Out := .next ((s.monPeriod (monIdx i)).calMonPeriod (monIdx i))

/-- MON_CTRL_WRITE (R366): MON_CTRL written. -/
def execMonCtrlWrite (m : Master) (i : Fin 160) (v : Nat) (s : State) : Out := .next (s.swWrite m .MON_CTRL (monIdx i) v)

/-- MON_THRESHOLD_WRITE (R375): A threshold register written. -/
def execMonThresholdWrite (m : Master) (i : Fin 160) (r : MonReg) (v : Nat) (s : State) : Out :=
  .next (s.swWrite m (monReg r) (monIdx i) v)

/-- THRESHOLD_SETTLED (R366): A new threshold is in force. -/
def execThresholdSettled (i : Fin 160) (s : State) : Out := .next (s.monSettled (monIdx i))

/-- THRESHOLD_ARMING (R365): The input has come back behind the hysteresis. -/
def execThresholdArming (i : Fin 160) (input : Int) (s : State) : Out := .next (s.thresholdArming (monIdx i) input)

end Sys2Proof.Machine
end

