-- ==== Sys2Proof/Machine/ExecReset.lean ====
section
/-!
DEFINITION. The meanings of the commands of resets, bring-up and the safe state (R36, R54, R67-R107, R576).
-/

namespace Sys2Proof.Machine

/-- LOCKUP (R67): only while LOCKUP_EN is 1; during a bring-up attempt it fails that attempt (R100). -/
def State.lockup (s : State) : State :=
  if s.on F.RST_CTRL_LOCKUP_EN 0 then s.failingReset F.RST_CAUSE_LOCKUP 0x1F else s

/-- A Porch without its lane reference (R36): a link that was up is lost, a Porch in training goes DOWN. -/
def State.porchUnclocked (s : State) (p : Nat) : State :=
  if s.inService p || s.porch p == pLEAVING then s.porchDown p 1 false
  else if s.porch p == pTRAINNRZ || s.porch p == pTRAINPAM4 then
    ((((s.rxReset p).setB F.PORCH_STAT_PARTNER p false).incW F.PORCH_EVENTS_DOWN p).setDue H.PO_DOWN_END p (s.now + ms)).porchTo
      p pDOWN
  else s

/-- LANE_REF (R36, R578): no reset; every Porch goes down and source 115 is raised. -/
def State.laneRefLost (s : State) : State :=
  let s1 := s.each allPorches State.porchUnclocked
  (s1.faultRaise 115 0 false).wakeIf (s.faultNotes 115)

/-- POR (R54): Power-on reset asserted. -/
def execPor (s : State) : Out := .next (s.porReset)

/-- BOR (R54): Brown-out reset. -/
def execBor (s : State) : Out := .next (s.borReset)

/-- POR_RELEASE (R54): The cold reset is released. -/
def execPorRelease (s : State) : Out := .next (s.porRelease)

/-- PIN (R68): RESET_N held low for a time. -/
def execPin (widthPs : Nat) (s : State) : Out := .next (s.resetPin widthPs)

/-- WDOG (R67): The watchdog of the firmware expires. -/
def execWdog (s : State) : Out := .next (s.wdogReset)

/-- WDOG_HALF (R589): Half of the watchdog time is over. -/
def execWdogHalf (s : State) : Out := .next (s.wdogHalf)

/-- SOFT (R67): A SOFT warm reset takes place. -/
def execSoft (s : State) : Out := .next (s.softReset)

/-- DEBUG (R67): A debug reset request. -/
def execDebugReset (s : State) : Out := .next (s.debugReset)

/-- CLKFAIL (R36): A clock is lost. -/
def execClkfail (loss : ClockLoss) (s : State) : Out := .next (s.clkFail loss)

/-- LOCKUP (R67): Hearth core 0 locks up. -/
def execLockup (s : State) : Out := .next (s.lockup)

/-- LANE_REF (R36): The lane reference is lost. -/
def execLaneRef (s : State) : Out := .next (s.laneRefLost)

/-- SAFE_STATE_SEQUENCE (R74): The next stage of an output removal. -/
def execSafeStateSequence (s : State) : Out := .next (s.safeStep)

/-- RST_SOFT (R67): RST_SOFT written. -/
def execRstSoft (m : Master) (v : Nat) (s : State) : Out := .next (s.swWrite m .RST_SOFT 0 v)

/-- WDOG_START (R67): RST_WDOG_CTL written. -/
def execWdogStart (m : Master) (v : Nat) (s : State) : Out := .next (s.swWrite m .RST_WDOG_CTL 0 v)

/-- RST_WDOG_KICK (R67): RST_WDOG_KICK written. -/
def execRstWdogKick (m : Master) (v : Nat) (s : State) : Out := .next (s.swWrite m .RST_WDOG_KICK 0 v)

/-- BRINGUP (R81): The bring-up begins. -/
def execBringup (s : State) : Out := .next (s.bringup)

/-- REF_DETECT (R84): REF is detected. -/
def execRefDetect (s : State) : Out := .next (s.refDetect)

/-- BOOT_TIMER_EXPIRY (R97): The boot timer expires. -/
def execBootTimerExpiry (s : State) : Out := .next (s.bootExpiry)

/-- STANDBY_ENTRY (R81): The bring-up runs with what the outside shows the loader. -/
def execStandbyEntry (w : BootWorld) (s : State) : Out := .next (s.standbyEntry w)

/-- CONTACT_CTL_START (R105): CONTACT_CTL written. -/
def execContactCtlStart (m : Master) (v : Nat) (s : State) : Out := .next (s.swWrite m .CONTACT_CTL 0 v)

/-- WARM_HOLD_EXPIRY (R77): The warm hold time is over. -/
def execWarmHoldExpiry (s : State) : Out := .next (s.warmHoldExpiry)

/-- CONTACT_CHECK_DONE (R107): The contact check ends with two voltages per channel. -/
def execContactCheckDone (seen : List ContactSeen) (s : State) : Out :=
  if seen.length = 512 then .next (s.contactDone seen) else .fault .illFormed

end Sys2Proof.Machine
end

