-- ==== Sys2Proof/Machine/ExecSites.lean ====
section
/-!
DEFINITION. The meanings of the commands of sites (R290-R303).
-/

namespace Sys2Proof.Machine

/-- A site command (R120-R122, R299): a write of SITE_CMD needs a bus that takes it (R617). -/
def State.siteRow (s : State) (o : SiteOrigin) (cmd mask : Nat) : State :=
  match o with
  | .host h => s.siteControl (.host h) cmd mask
  | .reg m => if s.busOff || s.tapBarred m then { s with lastResp := .error } else s.siteControl (.reg m) cmd mask

/-- START (R295): START. -/
def execStart (o : SiteOrigin) (mask : Nat) (s : State) : Out := .next (s.siteRow o 1 mask)

/-- PAUSE (R296): PAUSE. -/
def execPause (o : SiteOrigin) (mask : Nat) (s : State) : Out := .next (s.siteRow o 2 mask)

/-- RESUME (R226): RESUME. -/
def execResume (o : SiteOrigin) (mask : Nat) (s : State) : Out := .next (s.siteRow o 3 mask)

/-- RETEST (R297): RETEST. -/
def execRetest (o : SiteOrigin) (mask : Nat) (s : State) : Out := .next (s.siteRow o 4 mask)

/-- ABORT (R299): ABORT. -/
def execAbort (o : SiteOrigin) (mask : Nat) (s : State) : Out := .next (s.siteRow o 5 mask)

/-- SITE_FINISH (R298): A site finishes. -/
def execSiteFinish (site : Fin 64) (s : State) : Out := .next (s.siteFinish site)

/-- SITE_BIND (R293): SITE_BIND with its 64-byte entry. -/
def execSiteBind (h : Hdr) (entry : List Byte) (s : State) : Out :=
  if entry.length = 64 then .next (s.siteBind h entry) else .fault .illFormed

/-- SITE_UNBIND (R293): SITE_UNBIND. -/
def execSiteUnbind (h : Hdr) (mask : Nat) (s : State) : Out := .next (s.siteUnbind h mask)

end Sys2Proof.Machine
end

