-- ==== Sys2Proof/Machine/ExecSupply.lean ====
section
/-!
DEFINITION. The meanings of the commands of device supplies and source-measure units (R325-R361).
-/

namespace Sys2Proof.Machine

/-- DPS_CTRL_WRITE (R331): DPS_CTRL written. -/
def execDpsCtrlWrite (m : Master) (d : Fin 64) (v : Nat) (s : State) : Out := .next (s.swWrite m .DPS_CTRL d v)

/-- VSET_WRITE (R334): DPS_VSET written. -/
def execVsetWrite (m : Master) (d : Fin 64) (v : Nat) (s : State) : Out := .next (s.swWrite m .DPS_VSET d v)

/-- RAMP_END (R335): A ramp reaches VSET. -/
def execRampEnd (d : Fin 64) (s : State) : Out := .next (s.rampEnd d)

/-- DPS_SETTLED (R336): A supply has settled. -/
def execDpsSettled (d : Fin 64) (s : State) : Out := .next (s.dpsSettled d)

/-- REG_LOSS (R328): A supply loses regulation. -/
def execRegLoss (d : Fin 64) (s : State) : Out := .next (s.regLoss d)

/-- SENSE_DROP (R327): The sense drop is too large. -/
def execSenseDrop (d : Fin 64) (s : State) : Out := .next (s.senseDrop d)

/-- SHARE (R340): A gang member does not share. -/
def execShare (d : Fin 64) (s : State) : Out := .next (s.share d)

/-- DPS_RANGE_DONE (R343): The current range has changed. -/
def execDpsRangeDone (d : Fin 64) (s : State) : Out := .next (s.dpsRangeDone d)

/-- CURRENT_LIMIT (R330): The current limit begins or ceases. -/
def execCurrentLimit (d : Fin 64) (limited : Bool) (s : State) : Out := .next (s.currentLimit d limited)

/-- MONITOR_SAMPLE (R357): A sample of a monitor converter. -/
def execMonitorSample (u : Supply) (volt curr : Int) (limited beyond : Bool) (s : State) : Out :=
  .next (s.monitorSample u volt curr limited beyond)

/-- DPS_MEAS (R357): DPS_MEAS written. -/
def execDpsMeas (m : Master) (d : Fin 64) (v : Nat) (s : State) : Out := .next (s.swWrite m .DPS_MEAS d v)

/-- SMU_MEAS (R357): SMU_MEAS written. -/
def execSmuMeas (m : Master) (u : Fin 32) (v : Nat) (s : State) : Out := .next (s.swWrite m .SMU_MEAS u v)

/-- MEASUREMENT_DONE (R357): A measurement ends. -/
def execMeasurementDone (u : Supply) (s : State) : Out := .next (s.measurementDone u)

/-- SMU_CTRL_WRITE (R349): SMU_CTRL written. -/
def execSmuCtrlWrite (m : Master) (u : Fin 32) (v : Nat) (s : State) : Out := .next (s.swWrite m .SMU_CTRL u v)

/-- SMU_RANGE_DONE (R347): The SMU range has changed. -/
def execSmuRangeDone (u : Fin 32) (s : State) : Out := .next (s.smuRangeDone u)

/-- SMU_COMPLIANCE (R346): Compliance begins or ceases. -/
def execSmuCompliance (u : Fin 32) (limited : Bool) (s : State) : Out := .next (s.smuCompliance u limited)

/-- SINE_FREQ_WRITE (R352): SMU_SINE_FREQ written. -/
def execSineFreqWrite (m : Master) (u : Fin 32) (v : Nat) (s : State) : Out := .next (s.swWrite m .SMU_SINE_FREQ u v)

/-- SINE_GENERATOR_STEP (R352): The next value of a sine. -/
def execSineGeneratorStep (u : Fin 32) (s : State) : Out := .next (s.sineStep u)

/-- SUPERVISION_MISMATCH (R354): Supervision finds the output wrong. -/
def execSupervisionMismatch (u : Fin 32) (s : State) : Out := .next (s.supervision u)

/-- MISMATCH_CLEAR (R354): SMU_STAT written. -/
def execMismatchClear (m : Master) (u : Fin 32) (v : Nat) (s : State) : Out := .next (s.swWrite m .SMU_STAT u v)

end Sys2Proof.Machine
end

