-- ==== Sys2Proof/Machine/ExecSystem.lean ====
section
/-!
DEFINITION. The meanings of the commands of the serial port, faults and interrupts, and security (R531-R534, R550, R578-R619).
-/

namespace Sys2Proof.Machine

/-- FAULT_RAISE (R578-R582): a source is raised, and one whose reaction begins wakes the chip (R112). -/
def State.faultRow (s : State) (src : Fin 128) (unit : Nat) : State :=
  (s.faultRaise src (unit % 256) false).wakeIf (decide (src.val < 117) && s.faultNotes src)

/-- CSP_START (R519): CSP_CTRL written with START. -/
def execCspStart (m : Master) (n : Fin 2) (v : Nat) (s : State) : Out := .next (s.swWrite m .CSP_CTRL n v)

/-- CSP_ABORT (R523): CSP_CTRL written with ABORT. -/
def execCspAbort (m : Master) (n : Fin 2) (v : Nat) (s : State) : Out := .next (s.swWrite m .CSP_CTRL n v)

/-- CSP_EN_WRITE (R521): CSP_CTRL written with EN. -/
def execCspEnWrite (m : Master) (n : Fin 2) (v : Nat) (s : State) : Out := .next (s.swWrite m .CSP_CTRL n v)

/-- CSP_TRANSFER_DONE (R519): A frame ends with the bits received. -/
def execCspTransferDone (n : Fin 2) (rx : List Bool) (s : State) : Out := .next (s.cspDone n rx)

/-- SELECT_LOST (R522): The select is lost. -/
def execSelectLost (n : Fin 2) (rx : List Bool) (s : State) : Out := .next (s.selectLost n rx)

/-- FAULT_RAISE (R579): A fault source is raised. -/
def execFaultRaise (src : Fin 128) (unit : Nat) (s : State) : Out := .next (s.faultRow src unit)

/-- FLT_ACK (R580): FLT_ACK written. -/
def execFltAck (m : Master) (v : Nat) (s : State) : Out := .next (s.swWrite m .FLT_ACK 0 v)

/-- FAULT_ESCALATION (R583): A reaction was not acknowledged in time. -/
def execFaultEscalation (s : State) : Out := .next (s.faultEscalate)

/-- FLT_INJ (R587): FLT_INJ written. -/
def execFltInj (m : Master) (v : Nat) (s : State) : Out := .next (s.swWrite m .FLT_INJ 0 v)

/-- IRQ_SWSET (R594): IRQ_SWSET written. -/
def execIrqSwset (m : Master) (v : Nat) (s : State) : Out := .next (s.swWrite m .IRQ_SWSET 0 v)

/-- SEC_RB_COMMIT (R612): SEC_RB_COMMIT written. -/
def execSecRbCommit (m : Master) (v : Nat) (s : State) : Out := .next (s.swWrite m .SEC_RB_COMMIT 0 v)

/-- SEC_LC_REQ (R600): SEC_LC_REQ written. -/
def execSecLcReq (m : Master) (v : Nat) (s : State) : Out := .next (s.swWrite m .SEC_LC_REQ 0 v)

/-- SEC_PROV_CMD (R598): SEC_PROV_CMD written. -/
def execSecProvCmd (m : Master) (v : Nat) (s : State) : Out := .next (s.swWrite m .SEC_PROV_CMD 0 v)

/-- FUSE_PROGRAM_DONE (R598): A fuse program ends. -/
def execFuseProgramDone (ok : Bool) (s : State) : Out := .next (s.progDone ok)

/-- DEBUG_UNLOCK (R619): SEC_DBG_CTRL written. -/
def execDebugUnlock (m : Master) (v : Nat) (s : State) : Out := .next (s.swWrite m .SEC_DBG_CTRL 0 v)

/-- DEBUG_UNLOCK_DONE (R619): The debug token has been checked. -/
def execDebugUnlockDone (s : State) : Out := .next (s.unlockDone)

/-- SEC_WIPE (R551): SEC_WIPE written. -/
def execSecWipe (m : Master) (v : Nat) (s : State) : Out := .next (s.swWrite m .SEC_WIPE 0 v)

/-- WIPE_DONE (R551): A wipe ends. -/
def execWipeDone (s : State) : Out := .next (s.wipeDone)

/-- TAMPER (R614): TAMPER_N held low for a time. -/
def execTamper (widthPs : Nat) (s : State) : Out := .next (s.tamper widthPs)

end Sys2Proof.Machine
end

