-- ==== Sys2Proof/Machine/ExecTiming.lean ====
section
/-!
DEFINITION. The meanings of the commands of timing, alignment and triggers (R163-R193, R380).
-/

namespace Sys2Proof.Machine

/-- The moment of the next wrap of the coarse count (R380), in ticks. -/
def State.wrapTime (s : State) : Nat :=
  (((s.get H.TB_EPOCH_SEEN 0 + 1) * (coreCycle * 2 ^ 52) : Nat) + ((s.get H.TB_ORIGIN 0 : Int) - 2 ^ 190)).toNat

/-- TIMEBASE_WRAP (R312, R380): the next wrap; TB_EPOCH increments, armed TDCs and the record streams of the
bound sites are told. -/
def State.timebaseWrap (s : State) : State :=
  let t := s.wrapTime
  let s1 := ((s.upTo t).put H.TB_EPOCH_SEEN 0 (s.get H.TB_EPOCH_SEEN 0 + 1)).incW F.TB_EPOCH_EPOCH 0
  let s2 := s1.each (List.range 128) State.tdcEpoch
  let first := stampOf (s2.commonAt t)
  s2.each (s2.entries.map (fun p => p.1)) (fun u i => u.recAppend i (epochBytes i (u.get F.TB_EPOCH_EPOCH 0) first))

/-- TILE_PHASE_MEASURE (R176): A tile measures its clock phase. -/
def execTilePhaseMeasure (t : Fin 8) (err corr : Int) (s : State) : Out := .next (s.tilePhase t err corr)

/-- SYNC_EVENT (R180): SYNC sampled by REF. -/
def execSyncEvent (s : State) : Out := .next (s.syncEvent)

/-- TIMEBASE_WRAP (R380): The coarse count wraps. -/
def execTimebaseWrap (s : State) : Out := .next (s.timebaseWrap)

/-- CHIP_OFFSET_WRITE (R193): CHIP_OFFSET written. -/
def execChipOffsetWrite (m : Master) (v : Nat) (s : State) : Out := .next (s.swWrite m .CHIP_OFFSET 0 v)

/-- TRIG_FIRE (R185): TRIG_FIRE_LO written. -/
def execTrigFire (m : Master) (i : Fin 8) (v : Nat) (s : State) : Out := .next (s.swWrite m .TRIG_FIRE_LO i v)

/-- TRIG_EMIT (R185): The next pulse of an emission. -/
def execTrigEmit (i : Fin 8) (s : State) : Out := .next (s.trigEmit i)

/-- TRIG_ARRIVAL (R186): A pulse arrives on a line. -/
def execTrigArrival (i : Fin 8) (t : Nat) (s : State) : Out := .next (s.trigArrive i t)

/-- TRIG_ACTION (R186): The action of an arrival. -/
def execTrigAction (i : Fin 8) (s : State) : Out := .next (s.trigAction i)

/-- TRIG_ACC_ENABLE (R187): TRIG_ACC_CTRL written. -/
def execTrigAccEnable (m : Master) (i : Fin 8) (v : Nat) (s : State) : Out := .next (s.swWrite m .TRIG_ACC_CTRL i v)

/-- TIMING_SET_WRITE (R169): A timing-set register written. -/
def execTimingSetWrite (m : Master) (r : TimingReg) (v : Nat) (s : State) : Out :=
  .next (match r with
  | .period site set => s.swWrite m .TSET_PER (site.val * 16 + set.val) v
  | .edge ch set e => s.swWrite m .TS_EDGE (ch.val * 96 + set.val * 6 + e.val) v)

/-- CH_DSK_WRITE (R174): CH_DSK written. -/
def execChDskWrite (m : Master) (ch : Fin 512) (v : Nat) (s : State) : Out := .next (s.swWrite m .CH_DSK ch v)

end Sys2Proof.Machine
end

