-- ==== Sys2Proof/Machine/ExecWords.lean ====
section
/-!
DEFINITION. The meanings of the commands of micro-words and the entries of an engine (R242-R289).
-/

namespace Sys2Proof.Machine

/-- NEXT (R248): A micro-word with SEQ NEXT. -/
def execNext (k : Fin 64) (s : State) : Out := .next (s.wordRow k 0)

/-- JUMP (R248): A micro-word with SEQ JUMP. -/
def execJump (k : Fin 64) (s : State) : Out := .next (s.wordRow k 1)

/-- CALL (R248): A micro-word with SEQ CALL. -/
def execCall (k : Fin 64) (s : State) : Out := .next (s.wordRow k 2)

/-- RET (R248): A micro-word with SEQ RET. -/
def execRet (k : Fin 64) (s : State) : Out := .next (s.wordRow k 3)

/-- BRT (R248): A micro-word with SEQ BRT. -/
def execBrt (k : Fin 64) (s : State) : Out := .next (s.wordRow k 4)

/-- BRF (R248): A micro-word with SEQ BRF. -/
def execBrf (k : Fin 64) (s : State) : Out := .next (s.wordRow k 5)

/-- LOOP (R248): A micro-word with SEQ LOOP. -/
def execLoop (k : Fin 64) (s : State) : Out := .next (s.wordRow k 6)

/-- WAITEV (R248): A micro-word with SEQ WAITEV. -/
def execWaitev (k : Fin 64) (s : State) : Out := .next (s.wordRow k 7)

/-- DISPATCH (R248): A micro-word with SEQ DISPATCH. -/
def execDispatch (k : Fin 64) (s : State) : Out := .next (s.wordRow k 8)

/-- YIELD (R282): A micro-word with SEQ YIELD. -/
def execYield (k : Fin 64) (s : State) : Out := .next (s.wordRow k 9)

/-- TRAP (R248): A micro-word with SEQ TRAP. -/
def execTrap (k : Fin 64) (s : State) : Out := .next (s.wordRow k 10)

/-- MRET (R274): A micro-word with SEQ MRET. -/
def execMret (k : Fin 64) (s : State) : Out := .next (s.wordRow k 11)

/-- HALT (R278): A micro-word with SEQ HALT. -/
def execHalt (k : Fin 64) (s : State) : Out := .next (s.wordRow k 12)

/-- WAITEV_END (R248): The condition of a WAITEV holds. -/
def execWaitevEnd (k : Fin 64) (s : State) : Out := .next (s.waitevOver k)

/-- PARITY_ERROR (R266): A control-store word fails its parity. -/
def execParityError (k : Fin 64) (s : State) : Out := .next (s.parityError k)

/-- TRAP_ENTRY (R271): A pending trap is taken. -/
def execTrapEntry (k : Fin 64) (s : State) : Out := .next (s.trapEntry k)

/-- ABORT_TIMEOUT (R279): An abort handler has run too long. -/
def execAbortTimeout (k : Fin 64) (s : State) : Out := .next (s.abortTimeout k)

/-- ENGINE_ENTRY (R280): A start or stop reaches the engine. -/
def execEngineEntry (k : Fin 64) (s : State) : Out := .next (s.engineEntry k)

/-- ENG_GO (R284): ENG_GO written. -/
def execEngGo (m : Master) (k : Fin 64) (v : Nat) (s : State) : Out := .next (s.swWrite m .ENG_GO k v)

/-- ENG_STOP (R279): ENG_CTRL written with STOP. -/
def execEngStop (m : Master) (k : Fin 64) (v : Nat) (s : State) : Out := .next (s.swWrite m .ENG_CTRL k v)

/-- ENG_STEP (R279): ENG_CTRL written with STEP. -/
def execEngStep (m : Master) (k : Fin 64) (v : Nat) (s : State) : Out := .next (s.swWrite m .ENG_CTRL k v)

/-- CONTROL_STORE_WRITE (R265): One quarter of a control-store word written. -/
def execControlStoreWrite (m : Master) (k : Fin 64) (w : Fin 4096) (part : Fin 4) (v : Nat) (s : State) : Out :=
  .next (answered (s.busWrite m (0x20000000 + k.val * 0x100000 + w.val * 16 + part.val * 4) v))

end Sys2Proof.Machine
end

