-- ==== Sys2Proof/Machine/Dispatch.lean ====
section
/-!
DEFINITION. The dispatch of a command to its meaning, one arm per constructor of Instr.
-/

namespace Sys2Proof.Machine

/-- The effect of a command on everything but the queue. -/
def exec (i : Instr) (s : State) : Host.Outcome State Fault Refusal :=
  match i with
  | .pin widthPs => Sys2Proof.Machine.execPin widthPs s
  | .clkfail loss => Sys2Proof.Machine.execClkfail loss s
  | .rstSoft m v => Sys2Proof.Machine.execRstSoft m v s
  | .wdogStart m v => Sys2Proof.Machine.execWdogStart m v s
  | .rstWdogKick m v => Sys2Proof.Machine.execRstWdogKick m v s
  | .standbyEntry w => Sys2Proof.Machine.execStandbyEntry w s
  | .contactCheckDone seen => Sys2Proof.Machine.execContactCheckDone seen s
  | .contactCtlStart m v => Sys2Proof.Machine.execContactCtlStart m v s
  | .mode h target => Sys2Proof.Machine.execMode h target s
  | .wake c => Sys2Proof.Machine.execWake c s
  | .chimneySample raw => Sys2Proof.Machine.execChimneySample raw s
  | .lanePresetUpdate p => Sys2Proof.Machine.execLanePresetUpdate p s
  | .deferredStartRelease site => Sys2Proof.Machine.execDeferredStartRelease site s
  | .startTimeout site => Sys2Proof.Machine.execStartTimeout site s
  | .vectorBoundary site seen => Sys2Proof.Machine.execVectorBoundary site seen s
  | .stallLimitExpiry site => Sys2Proof.Machine.execStallLimitExpiry site s
  | .lineDecodeDone pat line => Sys2Proof.Machine.execLineDecodeDone pat line s
  | .panInval m v => Sys2Proof.Machine.execPanInval m v s
  | .panCounterRead m c => Sys2Proof.Machine.execPanCounterRead m c s
  | .jumpReqWrite m t v => Sys2Proof.Machine.execJumpReqWrite m t v s
  | .jumpReqCancel m t v => Sys2Proof.Machine.execJumpReqCancel m t v s
  | .smuWaveSample u => Sys2Proof.Machine.execSmuWaveSample u s
  | .timedStart site => Sys2Proof.Machine.execTimedStart site s
  | .tilePhaseMeasure t err corr => Sys2Proof.Machine.execTilePhaseMeasure t err corr s
  | .chipOffsetWrite m v => Sys2Proof.Machine.execChipOffsetWrite m v s
  | .trigFire m x1 v => Sys2Proof.Machine.execTrigFire m x1 v s
  | .trigEmit x0 => Sys2Proof.Machine.execTrigEmit x0 s
  | .trigArrival x0 t => Sys2Proof.Machine.execTrigArrival x0 t s
  | .trigAction x0 => Sys2Proof.Machine.execTrigAction x0 s
  | .trigAccEnable m x1 v => Sys2Proof.Machine.execTrigAccEnable m x1 v s
  | .timingSetWrite m r v => Sys2Proof.Machine.execTimingSetWrite m r v s
  | .chDskWrite m ch v => Sys2Proof.Machine.execChDskWrite m ch v s
  | .chCtrlWrite m ch v => Sys2Proof.Machine.execChCtrlWrite m ch v s
  | .levelWrite m ch lvl v => Sys2Proof.Machine.execLevelWrite m ch lvl v s
  | .levelSettled ch => Sys2Proof.Machine.execLevelSettled ch s
  | .pmuCtrlWrite m ch v => Sys2Proof.Machine.execPmuCtrlWrite m ch v s
  | .pmuConnectDone ch => Sys2Proof.Machine.execPmuConnectDone ch s
  | .pmuRangeDone ch => Sys2Proof.Machine.execPmuRangeDone ch s
  | .pmuMeas m ch v => Sys2Proof.Machine.execPmuMeas m ch v s
  | .pmuMeasDone ch mean clamped beyond => Sys2Proof.Machine.execPmuMeasDone ch mean clamped beyond s
  | .monitorCrossing x0 high input => Sys2Proof.Machine.execMonitorCrossing x0 high input s
  | .monLatchClear m x1 v => Sys2Proof.Machine.execMonLatchClear m x1 v s
  | .monPeriodBoundary x0 => Sys2Proof.Machine.execMonPeriodBoundary x0 s
  | .monCtrlWrite m x1 v => Sys2Proof.Machine.execMonCtrlWrite m x1 v s
  | .monThresholdWrite m x1 r v => Sys2Proof.Machine.execMonThresholdWrite m x1 r v s
  | .thresholdSettled x0 => Sys2Proof.Machine.execThresholdSettled x0 s
  | .dpsCtrlWrite m d v => Sys2Proof.Machine.execDpsCtrlWrite m d v s
  | .vsetWrite m d v => Sys2Proof.Machine.execVsetWrite m d v s
  | .rampEnd d => Sys2Proof.Machine.execRampEnd d s
  | .dpsSettled d => Sys2Proof.Machine.execDpsSettled d s
  | .regLoss d => Sys2Proof.Machine.execRegLoss d s
  | .senseDrop d => Sys2Proof.Machine.execSenseDrop d s
  | .share d => Sys2Proof.Machine.execShare d s
  | .dpsRangeDone d => Sys2Proof.Machine.execDpsRangeDone d s
  | .monitorSample u volt curr limited beyond => Sys2Proof.Machine.execMonitorSample u volt curr limited beyond s
  | .dpsMeas m d v => Sys2Proof.Machine.execDpsMeas m d v s
  | .smuMeas m u v => Sys2Proof.Machine.execSmuMeas m u v s
  | .measurementDone u => Sys2Proof.Machine.execMeasurementDone u s
  | .smuCtrlWrite m u v => Sys2Proof.Machine.execSmuCtrlWrite m u v s
  | .smuRangeDone u => Sys2Proof.Machine.execSmuRangeDone u s
  | .sineFreqWrite m u v => Sys2Proof.Machine.execSineFreqWrite m u v s
  | .supervisionMismatch u => Sys2Proof.Machine.execSupervisionMismatch u s
  | .mismatchClear m u v => Sys2Proof.Machine.execMismatchClear m u v s
  | .tdcCtrlArm m j v => Sys2Proof.Machine.execTdcCtrlArm m j v s
  | .tdcCtrlDisarm m j v => Sys2Proof.Machine.execTdcCtrlDisarm m j v s
  | .tdcOpen j => Sys2Proof.Machine.execTdcOpen j s
  | .tdcEvent j e => Sys2Proof.Machine.execTdcEvent j e s
  | .pairTimeout j => Sys2Proof.Machine.execPairTimeout j s
  | .tdcSpill j n => Sys2Proof.Machine.execTdcSpill j n s
  | .ringRecheck j => Sys2Proof.Machine.execRingRecheck j s
  | .acqCtrlArm m u v => Sys2Proof.Machine.execAcqCtrlArm m u v s
  | .acqCtrlForce m u v => Sys2Proof.Machine.execAcqCtrlForce m u v s
  | .acqCtrlCancel m u v => Sys2Proof.Machine.execAcqCtrlCancel m u v s
  | .acqSample u a => Sys2Proof.Machine.execAcqSample u a s
  | .acqComplete u => Sys2Proof.Machine.execAcqComplete u s
  | .failCompress r => Sys2Proof.Machine.execFailCompress r s
  | .captureReduce r => Sys2Proof.Machine.execCaptureReduce r s
  | .resultPack r => Sys2Proof.Machine.execResultPack r s
  | .dequePushRetry p => Sys2Proof.Machine.execDequePushRetry p s
  | .hearthTaskTakeover k => Sys2Proof.Machine.execHearthTaskTakeover k s
  | .start o mask => Sys2Proof.Machine.execStart o mask s
  | .pause o mask => Sys2Proof.Machine.execPause o mask s
  | .resume o mask => Sys2Proof.Machine.execResume o mask s
  | .retest o mask => Sys2Proof.Machine.execRetest o mask s
  | .abort o mask => Sys2Proof.Machine.execAbort o mask s
  | .siteFinish site => Sys2Proof.Machine.execSiteFinish site s
  | .siteBind h entry => Sys2Proof.Machine.execSiteBind h entry s
  | .siteUnbind h mask => Sys2Proof.Machine.execSiteUnbind h mask s
  | .startChain k entry => Sys2Proof.Machine.execStartChain k entry s
  | .pinJump k => Sys2Proof.Machine.execPinJump k s
  | .pinCancel k => Sys2Proof.Machine.execPinCancel k s
  | .tset k set => Sys2Proof.Machine.execTset k set s
  | .bank k half value mask => Sys2Proof.Machine.execBank k half value mask s
  | .cmask k half mask => Sys2Proof.Machine.execCmask k half mask s
  | .drv k half value mask => Sys2Proof.Machine.execDrv k half value mask s
  | .trig k => Sys2Proof.Machine.execTrig k s
  | .clrfail k => Sys2Proof.Machine.execClrfail k s
  | .level k lvl bankSel all chan value => Sys2Proof.Machine.execLevel k lvl bankSel all chan value s
  | .term k half termMode mask => Sys2Proof.Machine.execTerm k half termMode mask s
  | .dpsSet k idx imm => Sys2Proof.Machine.execDpsSet k idx imm s
  | .dpsIlim k idx imm => Sys2Proof.Machine.execDpsIlim k idx imm s
  | .dpsEn k idx value => Sys2Proof.Machine.execDpsEn k idx value s
  | .dpsRamp k idx slew imm => Sys2Proof.Machine.execDpsRamp k idx slew imm s
  | .smuSet k idx imm => Sys2Proof.Machine.execSmuSet k idx imm s
  | .smuClamp k idx imm => Sys2Proof.Machine.execSmuClamp k idx imm s
  | .smuRange k idx rng => Sys2Proof.Machine.execSmuRange k idx rng s
  | .smuEn k idx value => Sys2Proof.Machine.execSmuEn k idx value s
  | .smuWave k idx entry => Sys2Proof.Machine.execSmuWave k idx entry s
  | .smuStop k idx => Sys2Proof.Machine.execSmuStop k idx s
  | .pmuCfg k idx imm => Sys2Proof.Machine.execPmuCfg k idx imm s
  | .pmuForce k idx imm => Sys2Proof.Machine.execPmuForce k idx imm s
  | .tdcArm k idx imm => Sys2Proof.Machine.execTdcArm k idx imm s
  | .tdcStop k idx => Sys2Proof.Machine.execTdcStop k idx s
  | .acqArm k idx imm => Sys2Proof.Machine.execAcqArm k idx imm s
  | .acqForce k idx => Sys2Proof.Machine.execAcqForce k idx s
  | .wait k ns => Sys2Proof.Machine.execWait k ns s
  | .settle k idx qty ns => Sys2Proof.Machine.execSettle k idx qty ns s
  | .measure k idx qty ns => Sys2Proof.Machine.execMeasure k idx qty ns s
  | .read k idx qty => Sys2Proof.Machine.execRead k idx qty s
  | .longOperationEnd k => Sys2Proof.Machine.execLongOperationEnd k s
  | .commandRefused k => Sys2Proof.Machine.execCommandRefused k s
  | .next k => Sys2Proof.Machine.execNext k s
  | .jump k => Sys2Proof.Machine.execJump k s
  | .call k => Sys2Proof.Machine.execCall k s
  | .ret k => Sys2Proof.Machine.execRet k s
  | .brt k => Sys2Proof.Machine.execBrt k s
  | .brf k => Sys2Proof.Machine.execBrf k s
  | .loop k => Sys2Proof.Machine.execLoop k s
  | .waitev k => Sys2Proof.Machine.execWaitev k s
  | .waitevEnd k => Sys2Proof.Machine.execWaitevEnd k s
  | .dispatch k => Sys2Proof.Machine.execDispatch k s
  | .yield k => Sys2Proof.Machine.execYield k s
  | .trap k => Sys2Proof.Machine.execTrap k s
  | .mret k => Sys2Proof.Machine.execMret k s
  | .halt k => Sys2Proof.Machine.execHalt k s
  | .parityError k => Sys2Proof.Machine.execParityError k s
  | .trapEntry k => Sys2Proof.Machine.execTrapEntry k s
  | .abortTimeout k => Sys2Proof.Machine.execAbortTimeout k s
  | .engineEntry k => Sys2Proof.Machine.execEngineEntry k s
  | .ld k space off dst => Sys2Proof.Machine.execLd k space off dst s
  | .st k space off v => Sys2Proof.Machine.execSt k space off v s
  | .ldp k space off dst => Sys2Proof.Machine.execLdp k space off dst s
  | .stp k space off v0 v1 => Sys2Proof.Machine.execStp k space off v0 v1 s
  | .loadComplete k => Sys2Proof.Machine.execLoadComplete k s
  | .memoryError k => Sys2Proof.Machine.execMemoryError k s
  | .sem k n dst => Sys2Proof.Machine.execSem k n dst s
  | .semrel k n => Sys2Proof.Machine.execSemrel k n s
  | .record k off n => Sys2Proof.Machine.execRecord k off n s
  | .cmd k off => Sys2Proof.Machine.execCmd k off s
  | .cmdReply k => Sys2Proof.Machine.execCmdReply k s
  | .fld k w dst => Sys2Proof.Machine.execFld k w dst s
  | .fst k w v => Sys2Proof.Machine.execFst k w v s
  | .pusht k dst => Sys2Proof.Machine.execPusht k dst s
  | .engGo m k v => Sys2Proof.Machine.execEngGo m k v s
  | .engStop m k v => Sys2Proof.Machine.execEngStop m k v s
  | .engStep m k v => Sys2Proof.Machine.execEngStep m k v s
  | .controlStoreWrite m k w part v => Sys2Proof.Machine.execControlStoreWrite m k w part v s
  | .semAcqRead n readers => Sys2Proof.Machine.execSemAcqRead n readers s
  | .semAcqWrite m n => Sys2Proof.Machine.execSemAcqWrite m n s
  | .semForce m v => Sys2Proof.Machine.execSemForce m v s
  | .bitSetAliasWrite m x v b => Sys2Proof.Machine.execBitSetAliasWrite m x v b s
  | .bitClearAliasWrite m x v b => Sys2Proof.Machine.execBitClearAliasWrite m x v b s
  | .secWipe m v => Sys2Proof.Machine.execSecWipe m v s
  | .tamper widthPs => Sys2Proof.Machine.execTamper widthPs s
  | .scrubRead err => Sys2Proof.Machine.execScrubRead err s
  | .calibrate h a => Sys2Proof.Machine.execCalibrate h a s
  | .calStop h tile => Sys2Proof.Machine.execCalStop h tile s
  | .calFlowDone t flow results => Sys2Proof.Machine.execCalFlowDone t flow results s
  | .correctionApply t => Sys2Proof.Machine.execCorrectionApply t s
  | .calLoad h addr => Sys2Proof.Machine.execCalLoad h addr s
  | .patLoad h addr => Sys2Proof.Machine.execPatLoad h addr s
  | .segLoad h addr => Sys2Proof.Machine.execSegLoad h addr s
  | .csLoad h k addr => Sys2Proof.Machine.execCsLoad h k addr s
  | .status h => Sys2Proof.Machine.execStatus h s
  | .regRd h addrs => Sys2Proof.Machine.execRegRd h addrs s
  | .regWr h items => Sys2Proof.Machine.execRegWr h items s
  | .blkRd h addr len => Sys2Proof.Machine.execBlkRd h addr len s
  | .blkWr h addr data => Sys2Proof.Machine.execBlkWr h addr data s
  | .flashWr h off data => Sys2Proof.Machine.execFlashWr h off data s
  | .flashErase h off sectors => Sys2Proof.Machine.execFlashErase h off sectors s
  | .hostJump h cancel smu mask => Sys2Proof.Machine.execHostJump h cancel smu mask s
  | .softReset h key => Sys2Proof.Machine.execSoftReset h key s
  | .bootClear h => Sys2Proof.Machine.execBootClear h s
  | .prepareRemove h => Sys2Proof.Machine.execPrepareRemove h s
  | .mbxPost h mbx epoch words => Sys2Proof.Machine.execMbxPost h mbx epoch words s
  | .mbxRead h mbx max => Sys2Proof.Machine.execMbxRead h mbx max s
  | .doorbell h mbx => Sys2Proof.Machine.execDoorbell h mbx s
  | .mbxReset h mbx epoch => Sys2Proof.Machine.execMbxReset h mbx epoch s
  | .reservedOpcode h op => Sys2Proof.Machine.execReservedOpcode h op s
  | .injectFault h index unit => Sys2Proof.Machine.execInjectFault h index unit s
  | .injectInterrupt h index => Sys2Proof.Machine.execInjectInterrupt h index s
  | .injectSensorReading h index value holdMs => Sys2Proof.Machine.execInjectSensorReading h index value holdMs s
  | .injectSensorBroken h index cause => Sys2Proof.Machine.execInjectSensorBroken h index cause s
  | .forcedReadingExpiry n => Sys2Proof.Machine.execForcedReadingExpiry n s
  | .fuseRead h word => Sys2Proof.Machine.execFuseRead h word s
  | .fuseOr h word v => Sys2Proof.Machine.execFuseOr h word v s
  | .versionRead h => Sys2Proof.Machine.execVersionRead h s
  | .mbxHostRx m b => Sys2Proof.Machine.execMbxHostRx m b s
  | .mbxHostTx m b v => Sys2Proof.Machine.execMbxHostTx m b v s
  | .mbxHostDb m b v => Sys2Proof.Machine.execMbxHostDb m b v s
  | .mbxEngTx m k v => Sys2Proof.Machine.execMbxEngTx m k v s
  | .mbxEngRx m k => Sys2Proof.Machine.execMbxEngRx m k s
  | .mbxEngDb m k v => Sys2Proof.Machine.execMbxEngDb m k v s
  | .cspStart m n v => Sys2Proof.Machine.execCspStart m n v s
  | .cspAbort m n v => Sys2Proof.Machine.execCspAbort m n v s
  | .cspEnWrite m n v => Sys2Proof.Machine.execCspEnWrite m n v s
  | .cspTransferDone n rx => Sys2Proof.Machine.execCspTransferDone n rx s
  | .selectLost n rx => Sys2Proof.Machine.execSelectLost n rx s
  | .faultRaise src unit => Sys2Proof.Machine.execFaultRaise src unit s
  | .fltAck m v => Sys2Proof.Machine.execFltAck m v s
  | .fltInj m v => Sys2Proof.Machine.execFltInj m v s
  | .irqSwset m v => Sys2Proof.Machine.execIrqSwset m v s
  | .secRbCommit m v => Sys2Proof.Machine.execSecRbCommit m v s
  | .secLcReq m v => Sys2Proof.Machine.execSecLcReq m v s
  | .secProvCmd m v => Sys2Proof.Machine.execSecProvCmd m v s
  | .fuseProgramDone ok => Sys2Proof.Machine.execFuseProgramDone ok s
  | .debugUnlock m v => Sys2Proof.Machine.execDebugUnlock m v s
  | .linkBlockReceive p b => Sys2Proof.Machine.execLinkBlockReceive p b s
  | .flitReceive p f => Sys2Proof.Machine.execFlitReceive p f s
  | .retryReq p expected => Sys2Proof.Machine.execRetryReq p expected s
  | .retryReqResend p => Sys2Proof.Machine.execRetryReqResend p s
  | .partnerDetect p => Sys2Proof.Machine.execPartnerDetect p s
  | .linkInfo p info => Sys2Proof.Machine.execLinkInfo p info s
  | .trainingStepDone p ok => Sys2Proof.Machine.execTrainingStepDone p ok s
  | .linkUp p => Sys2Proof.Machine.execLinkUp p s
  | .retrain p c => Sys2Proof.Machine.execRetrain p c s
  | .linkDown p => Sys2Proof.Machine.execLinkDown p s
  | .downExpiry p => Sys2Proof.Machine.execDownExpiry p s
  | .porchEnWrite m p v => Sys2Proof.Machine.execPorchEnWrite m p v s
  | .quietReq p received => Sys2Proof.Machine.execQuietReq p received s
  | .quietAck p accept => Sys2Proof.Machine.execQuietAck p accept s
  | .quietExit p => Sys2Proof.Machine.execQuietExit p s
  | .deepReq p received => Sys2Proof.Machine.execDeepReq p received s
  | .deepAck p => Sys2Proof.Machine.execDeepAck p s
  | .deepWake p => Sys2Proof.Machine.execDeepWake p s
  | .wakeTimeout p => Sys2Proof.Machine.execWakeTimeout p s
  | .leave p => Sys2Proof.Machine.execLeave p s
  | .discover p f => Sys2Proof.Machine.execDiscover p f s
  | .assign p f => Sys2Proof.Machine.execAssign p f s
  | .routeSet p f => Sys2Proof.Machine.execRouteSet p f s
  | .regWrite m addr v => Sys2Proof.Machine.execRegWrite m addr v s
  | .thresholdArming x0 input => Sys2Proof.Machine.execThresholdArming x0 input s
  | .currentLimit d limited => Sys2Proof.Machine.execCurrentLimit d limited s
  | .smuCompliance u limited => Sys2Proof.Machine.execSmuCompliance u limited s
  | .flashOperationDone ok => Sys2Proof.Machine.execFlashOperationDone ok s
  | .leaveWaitExpiry p => Sys2Proof.Machine.execLeaveWaitExpiry p s
  | .sineGeneratorStep u => Sys2Proof.Machine.execSineGeneratorStep u s
  | .refreshRateReport rate => Sys2Proof.Machine.execRefreshRateReport rate s
  | .commandAcknowledge k => Sys2Proof.Machine.execCommandAcknowledge k s
  | .por => Sys2Proof.Machine.execPor s
  | .bor => Sys2Proof.Machine.execBor s
  | .porRelease => Sys2Proof.Machine.execPorRelease s
  | .wdog => Sys2Proof.Machine.execWdog s
  | .wdogHalf => Sys2Proof.Machine.execWdogHalf s
  | .soft => Sys2Proof.Machine.execSoft s
  | .debugReset => Sys2Proof.Machine.execDebugReset s
  | .lockup => Sys2Proof.Machine.execLockup s
  | .laneRef => Sys2Proof.Machine.execLaneRef s
  | .safeStateSequence => Sys2Proof.Machine.execSafeStateSequence s
  | .bringup => Sys2Proof.Machine.execBringup s
  | .refDetect => Sys2Proof.Machine.execRefDetect s
  | .bootTimerExpiry => Sys2Proof.Machine.execBootTimerExpiry s
  | .thermalLogRetry => Sys2Proof.Machine.execThermalLogRetry s
  | .warmHoldExpiry => Sys2Proof.Machine.execWarmHoldExpiry s
  | .modeTransitionDone => Sys2Proof.Machine.execModeTransitionDone s
  | .pantryLineGrant => Sys2Proof.Machine.execPantryLineGrant s
  | .lineDecodeStart => Sys2Proof.Machine.execLineDecodeStart s
  | .invalidationDone => Sys2Proof.Machine.execInvalidationDone s
  | .syncEvent => Sys2Proof.Machine.execSyncEvent s
  | .timebaseWrap => Sys2Proof.Machine.execTimebaseWrap s
  | .stealDisable => Sys2Proof.Machine.execStealDisable s
  | .wipeDone => Sys2Proof.Machine.execWipeDone s
  | .eventSend => Sys2Proof.Machine.execEventSend s
  | .faultEscalation => Sys2Proof.Machine.execFaultEscalation s
  | .debugUnlockDone => Sys2Proof.Machine.execDebugUnlockDone s

end Sys2Proof.Machine
end

