-- ==== Sys2Proof/Safety.lean ====
section
/-!
DEFINITION. The terms in which claims speak: a command that completes, what a command leaves alone,
when the bus takes an access, and the canonical form that every state keeps.
-/

namespace Sys2Proof.Machine

/-- The command completes: exec answers a next state, and P holds of it. -/
def Completes (c : Instr) (s : State) (P : State → Prop) : Prop := ∃ t, exec c s = .next t ∧ P t

/-- Every field but the instances listed reads as before. -/
def FieldsBut (l : List (Field × Nat)) (s t : State) : Prop :=
  ∀ (f : Field) (i : Nat), fkey f i ∉ l.map (fun p => fkey p.1 p.2) → t.get f i = s.get f i

/-- Nothing changes but the field instances listed: no other field, no byte of any memory, no queue, not
the time. -/
def OnlyFields (l : List (Field × Nat)) (s t : State) : Prop := { t with ff := s.ff } = s ∧ FieldsBut l s t

/-- As OnlyFields for a register access, whose answer lastResp keeps. -/
def OnlyFieldsResp (l : List (Field × Nat)) (s t : State) : Prop :=
  { t with ff := s.ff, lastResp := s.lastResp } = s ∧ FieldsBut l s t

/-- As OnlyFields for an event at a time of its own, which moves the time on. -/
def OnlyFieldsNow (l : List (Field × Nat)) (s t : State) : Prop := { t with ff := s.ff, now := s.now } = s ∧ FieldsBut l s t

/-- The bus takes an access of a master to an instance of a register (R7, R38, R617, R623): the debug
port is not turned away, registers can be reached, and the domain of the address has power. -/
def BusTakes (s : State) (m : Master) (r : RegName) (i : Nat) : Prop :=
  s.tapBarred m = false ∧ s.busOff = false ∧ s.addrOn (addrOf r i) = true

/-- The parts of the state beside the field file and the waiting commands: the time, the memories, the stores and the
queues, each under the name of its field of State. -/
inductive Part where
  | now | free | snaps | lastResp | scratch | cellar | celErr | flash | fltLog | corr | fuses | cstore | csBodies
  | entries | heldEntries | pendW | ports | waveBuf | evicted | lines | reqs | jobs | inval | cmdq | memq | refused
  | memErrs | evq | failq | events | replies | accepted | outq | replay | bcasts | asm | h2d | d2h | h2e | e2h
  | safe | trigActs | flows | corrPend | tdcq | flashOps
  deriving DecidableEq, Repr

/-- A part of the state is as before. -/
def Part.same (s t : State) : Part → Prop
  | .now => t.now = s.now
  | .free => t.free = s.free
  | .snaps => t.snaps = s.snaps
  | .lastResp => t.lastResp = s.lastResp
  | .scratch => t.scratch = s.scratch
  | .cellar => t.cellar = s.cellar
  | .celErr => t.celErr = s.celErr
  | .flash => t.flash = s.flash
  | .fltLog => t.fltLog = s.fltLog
  | .corr => t.corr = s.corr
  | .fuses => t.fuses = s.fuses
  | .cstore => t.cstore = s.cstore
  | .csBodies => t.csBodies = s.csBodies
  | .entries => t.entries = s.entries
  | .heldEntries => t.heldEntries = s.heldEntries
  | .pendW => t.pendW = s.pendW
  | .ports => t.ports = s.ports
  | .waveBuf => t.waveBuf = s.waveBuf
  | .evicted => t.evicted = s.evicted
  | .lines => t.lines = s.lines
  | .reqs => t.reqs = s.reqs
  | .jobs => t.jobs = s.jobs
  | .inval => t.inval = s.inval
  | .cmdq => t.cmdq = s.cmdq
  | .memq => t.memq = s.memq
  | .refused => t.refused = s.refused
  | .memErrs => t.memErrs = s.memErrs
  | .evq => t.evq = s.evq
  | .failq => t.failq = s.failq
  | .events => t.events = s.events
  | .replies => t.replies = s.replies
  | .accepted => t.accepted = s.accepted
  | .outq => t.outq = s.outq
  | .replay => t.replay = s.replay
  | .bcasts => t.bcasts = s.bcasts
  | .asm => t.asm = s.asm
  | .h2d => t.h2d = s.h2d
  | .d2h => t.d2h = s.d2h
  | .h2e => t.h2e = s.h2e
  | .e2h => t.e2h = s.e2h
  | .safe => t.safe = s.safe
  | .trigActs => t.trigActs = s.trigActs
  | .flows => t.flows = s.flows
  | .corrPend => t.corrPend = s.corrPend
  | .tdcq => t.tdcq = s.tdcq
  | .flashOps => t.flashOps = s.flashOps

/-- What a command leaves alone: every field but those listed, every part of the state but those listed, and the
commands that wait. -/
def Frame (fs : List Field) (ps : List Part) (s t : State) : Prop :=
  (∀ (f : Field) (i : Nat), f.id ∉ fs.map (fun g => g.id) → t.get f i = s.get f i)
    ∧ (∀ p : Part, p ∉ ps → p.same s t) ∧ t.pending = s.pending

/-- As Frame, with nothing said of the fields: for a command that can reach any register. -/
def FrameParts (ps : List Part) (s t : State) : Prop := (∀ p : Part, p ∉ ps → p.same s t) ∧ t.pending = s.pending

/-- The fields of some registers. -/
def fieldsOf (l : List RegName) : List Field := (l.map RegName.fields).flatten

/-! ## Commands that the host sends -/

/-- A host command is served (R498 to R506): the port is past a reset, the device can be reached, and the mode is legal for
the command. -/
def HostServes (s : State) (legal : State → Bool) : Prop :=
  s.portPhase ≠ 1 ∧ s.portPhase ≠ 2 ∧ s.on H.UNAVAIL 0 = false ∧ legal s = true

/-- One reply follows: to the command's sender, with its tag, the type op + 0x30, the status, three more bytes of the status
word, and the data. -/
def Replied (h : Hdr) (op status : Nat) (data : List Byte) (s t : State) : Prop :=
  ∃ m : List Byte, m.length = 3 ∧ t.replies = s.replies ++ [⟨h.src, h.tag, op + 0x30, leBytes 1 status ++ m ++ data⟩]

/-! ## What a warm reset leaves -/

/-- What stands after a warm reset (R67, R70, R72, R86): its cause is recorded and counted, BRINGUP is entered from the mode
that PREV_MODE keeps, and the queues of the units that it reaches are empty. -/
def WarmDone (cause : Field) (s t : State) : Prop :=
  t.on cause 0 = true
    ∧ t.mode = mBRINGUP
    ∧ t.get F.MODE_STAT_PREV_MODE 0 = s.mode % 2 ^ 3
    ∧ t.get F.RST_WARM_COUNT_COUNT 0 = satAt 16 (s.get F.RST_WARM_COUNT_COUNT 0 + 1)
    ∧ t.get H.BOOT_PHASE 0 = 1
    ∧ t.accepted = [] ∧ t.h2d = [] ∧ t.h2e = [] ∧ t.e2h = [] ∧ t.lines = [] ∧ t.reqs = [] ∧ t.jobs = []
    ∧ t.flows = [] ∧ t.tdcq = [] ∧ t.pendW = []

/-- The canonical form of the state: the field file, the memories and the stores by key have rising keys,
and a byte memory or a control store lists nothing that an unlisted place reads as, so equal contents are equal
data. -/
def State.Wf (s : State) : Prop :=
  keysRise s.ff = true
    ∧ keysRise s.snaps = true
    ∧ Memory.wf ramByte s.scratch = true
    ∧ Memory.wf ramByte s.cellar = true
    ∧ Memory.wf flashByte s.flash = true
    ∧ Memory.wf ramByte s.fltLog = true
    ∧ keysRise s.celErr = true
    ∧ keysRise s.corr = true
    ∧ keysRise s.fuses = true
    ∧ storeWf 0 s.cstore = true
    ∧ keysRise s.entries = true

/-! ## Terms of the statements -/

/-- Fields read the values listed, each cut to its width. -/
def Shows (l : List (Field × Nat × Nat)) (t : State) : Prop := ∀ x ∈ l, t.get x.1 x.2.1 = x.2.2 % 2 ^ x.1.width

/-- The field instances of a list of values. -/
def placesOf (l : List (Field × Nat × Nat)) : List (Field × Nat) := l.map (fun x => (x.1, x.2.1))

/-- The fields listed take the values listed, and nothing else changes. -/
def Sets (l : List (Field × Nat × Nat)) (s t : State) : Prop := Shows l t ∧ OnlyFields (placesOf l) s t

/-- As Sets, for a register access, whose answer lastResp keeps. -/
def SetsResp (l : List (Field × Nat × Nat)) (s t : State) : Prop := Shows l t ∧ OnlyFieldsResp (placesOf l) s t

/-- As Sets, for an event at a time of its own, which moves the time on. -/
def SetsNow (l : List (Field × Nat × Nat)) (s t : State) : Prop := Shows l t ∧ OnlyFieldsNow (placesOf l) s t

/-- One reply follows (Replied), and nothing else changes but the list of commands not yet answered. -/
def OnlyReplied (h : Hdr) (op status : Nat) (data : List Byte) (s t : State) : Prop :=
  Replied h op status data s t ∧ { t with replies := s.replies, accepted := s.accepted } = s

/-- The registers in PD_AON that a brown-out reset leaves (R69): causes, the count, the attempt, the thermal log. -/
def aonFields : List Field :=
  [F.RST_CAUSE_POR, F.RST_CAUSE_PIN, F.RST_CAUSE_WDOG, F.RST_CAUSE_SOFT, F.RST_CAUSE_DEBUG, F.RST_CAUSE_CLKFAIL,
   F.RST_CAUSE_LOCKUP, F.RST_WARM_COUNT_COUNT, F.BOOT_ATTEMPT_FAILS, F.BOOT_ATTEMPT_SLOT, F.BOOT_ATTEMPT_FROM_FLASH,
   F.BOOT_ATTEMPT_LAST_CODE]

/-- What a cold reset leaves of the parts of the state. -/
def ColdParts (s t : State) : Prop :=
  t.scratch = [] ∧ t.cellar = [] ∧ t.celErr = [] ∧ t.fltLog = [] ∧ t.corr = [] ∧ t.cstore = [] ∧ t.entries = [] ∧ t.lines = []
    ∧ t.accepted = [] ∧ t.events = [] ∧ t.safe = [] ∧ t.flows = [] ∧ t.flashOps = []
    ∧ (s.get H.SEC_PROG_END 0 = 0 → t.fuses = s.fuses) ∧ t.pending = s.pending ∧ t.now = s.now

/-- The commands that can change the mode (R112): resets, a bring-up, a sample of the sensors that shuts the chip down, the
end of a transition, and an access by address, which can reach RST_SOFT. -/
def mayChangeMode : Instr → Bool
  | .por => true
  | .bor => true
  | .pin _ => true
  | .clkfail _ => true
  | .wdog => true
  | .soft => true
  | .debugReset => true
  | .lockup => true
  | .rstSoft _ _ => true
  | .bootTimerExpiry => true
  | .standbyEntry _ => true
  | .chimneySample _ => true
  | .injectSensorBroken _ _ _ => true
  | .modeTransitionDone => true
  | .regWrite _ _ _ => true
  | .controlStoreWrite _ _ _ _ _ => true
  | .regRd _ _ => true
  | .regWr _ _ => true
  | .blkRd _ _ _ => true
  | .blkWr _ _ _ => true
  | _ => false

/-- No transition is in progress while the device is in HOLD. -/
def HoldAtRest (s : State) : Prop := s.mode = mHOLD → s.get H.MODE_END 0 = 0

/-- An event that was due at t acts at t: the time moves there, never back. -/
def laterOf (s : State) (t : Nat) : Nat := max s.now t

/-- A write of a register is turned away: an error response, and nothing else changes. -/
def TurnedAway (c : Instr) (s : State) : Prop :=
  Completes c s (fun t => t.lastResp = .error ∧ { t with lastResp := s.lastResp } = s)

/-- The DPS enable that a value of DPS_CTRL asks for is looked at at all (R331, R341, R343): the register is not barred, COMP
and EXT are as they are or may change. -/
def dpsCtrlOpen (s : State) (d v : Nat) : Prop :=
  s.dpsBarred d = false ∧ (bits v 4 2 = s.get F.DPS_CTRL_COMP d ∨ s.on F.DPS_CTRL_EN d = false)
    ∧ (bit v 6 = s.on F.DPS_CTRL_EXT d ∨ s.extOk d = true)

/-- A mean of samples: the exact quotient, or, where the sum does not divide, one of the two codes beside it. -/
def MeanCode (w : Nat) (sum : Int) (n x : Nat) : Prop :=
  ∃ e : Nat, e < 2 ∧ (sum % (n : Int) = 0 → e = 0) ∧ x = code w (sum / (n : Int) + (e : Int))

/-- A crossing of a monitor counts (R364, R365, R368, R377): enabled, its threshold ARMED, the input beyond it, no self-check. -/
def crossingCounts (s : State) (j : Nat) (high : Bool) (input : Int) : Prop :=
  s.on F.MON_CTRL_EN j = true ∧ s.get F.MON_CTRL_SELFCHK j = 0
    ∧ if high then s.get F.MON_STAT_ARM_HI j = 0 ∧ s.monHi j < input else s.get F.MON_STAT_ARM_LO j = 0 ∧ input < s.monLo j

/-- What a counted crossing of a monitor sets first. -/
def crossingSets (s : State) (j : Nat) (high : Bool) (input : Int) : List (Field × Nat × Nat) :=
  [(H.MON_IN, j, (input + 2 ^ 63).toNat), (F.MON_COUNT_CROSSINGS, j, s.get F.MON_COUNT_CROSSINGS j + 1),
    (if high then F.MON_STAT_ARM_HI else F.MON_STAT_ARM_LO, j, 2),
    (if high then F.MON_STAT_LATCH_HI else F.MON_STAT_LATCH_LO, j, 1)]

/-- A write of MON_CTRL is refused (R363, R377). -/
def monCtrlRefused (s : State) (j v : Nat) : Prop :=
  (bit v 0 = true ∧ monIsDps j = true ∧ monDps j % 2 = 1 ∧ s.on F.DPS_CTRL_EXT (monDps j - 1) = true)
    ∨ (bits v 12 2 ≠ 0 ∧ s.monUnitOff j = false)

/-- The counter that a read of a Pantry counter register clears. -/
def panCounterField : PanCounter → Field
  | .underrun => F.PAN_UNDERRUN_COUNT
  | .evict => F.PAN_EVICT_COUNT
  | .overbudget => F.PAN_OVERBUDGET_COUNT
  | .decodeErr => F.PAN_DECODE_ERR_COUNT

/-- The register of a jump request, and its fields. -/
def jumpReg : JumpTarget → RegName
  | .site _ => .SEQ_JUMP_REQ
  | .smu _ => .SMUW_JUMP_REQ
def jumpIdx : JumpTarget → Nat
  | .site i => i.val
  | .smu u => u.val
def jumpPending : JumpTarget → Field
  | .site _ => F.SEQ_JUMP_REQ_PENDING
  | .smu _ => F.SMUW_JUMP_REQ_PENDING
def jumpLate : JumpTarget → Field
  | .site _ => F.SEQ_JUMP_REQ_JUMP_LATE
  | .smu _ => F.SMUW_JUMP_REQ_JUMP_LATE

/-- A jump request is accepted (R231, R233): the site is RUNNING or PAUSED and has a pass, or the context plays on one. -/
def jumpTaken (s : State) : JumpTarget → Bool
  | .site i => s.active i && (s.hasPass i || s.get H.SQ_WAIT i == 4)
  | .smu u => s.wavePlays u && s.active (s.waveSite u)

/-- What follows the present pass is decided already (R233). -/
def jumpDecided (s : State) : JumpTarget → Bool
  | .site i => s.get F.SEQ_CUR_DECIDED i != 0xFFFF || s.on H.SQ_DECIDED_END i
  | .smu u => s.get H.SW_DECIDED u != 0

/-- The word at the PC of an engine. -/
def wordAt (s : State) (k : Nat) : Nat := s.csWord k (s.pcOf k)

/-- No step and no stop has been asked of an engine. -/
def noStop (s : State) (k : Nat) : Prop := s.on H.ENG_STEPPING k = false ∧ s.on F.ENG_CTRL_STOP k = false

/-- The word at PC is executed now (R247, R262, R263, R266, R270): the engine runs and stands at a boundary, the word is
legal and of good parity, and no trap, breakpoint, stop or full queue comes before it. -/
def wordReady (s : State) (k : Nat) : Prop :=
  s.atBoundary k = true ∧ parityOk (wordAt s k) = true ∧ s.wordIllegal k (wordAt s k) = false ∧ s.get H.ENG_ATOM_N k = 0
    ∧ s.trapDue k = none ∧ (wBRK (wordAt s k) = false ∨ s.get F.ENG_CTRL_BRK_EN k = 0) ∧ s.queueFull k (wordAt s k) = false
    ∧ s.storesFull k (wordAt s k) = false ∧ noStop s k

/-- The word waits for nothing of its own: no WAIT, SETTLE, MEASURE or READ, and no MEMOP that gives DST a value. -/
def wordAtOnce (w : Nat) : Prop := anaWait (wANA w) = 0 ∧ memLoads (wMEM w) = false

/-- What the ALU gives for the word at PC (R252). -/
def wordAlu (s : State) (k : Nat) : AluOut :=
  let w := wordAt s k
  alu (wALU w % 32) (s.engReg k (wSA w)) (if bit (wALU w) 5 then wIMM w else s.engReg k (wSB w)) (s.get H.ENG_FLAGS k)
    (s.cond k (wCOND w))

/-- The word at PC has been executed and the next one is at pc (R247): DST and FLAGS hold the ALU's answer, and the commands
of the word are queued. -/
def wordWent (s : State) (k pc : Nat) (t : State) : Prop :=
  let w := wordAt s k
  Shows [(F.ENG_STAT_PC, k, pc), (H.ENG_WAIT, k, 0), (H.ENG_BRK_SKIP, k, 0)] t
    ∧ t.cmdq = (s.queueCmds k w).cmdq
    ∧ (wDST w < 48 → ∀ v : Nat, (wordAlu s k).dst = some v → Shows [(H.ENG_G, k * 64 + wDST w, v)] t)
    ∧ (wALU w % 32 ≠ 0 → wDST w ≠ 53 → wDST w ≠ 59 →
        Shows [(H.ENG_FLAGS, k, (wordAlu s k).into (s.get H.ENG_FLAGS k))] t)

/-- The site of an engine, with its entry, outside a trap handler. -/
def servesSite (s : State) (k i : Nat) (e : SiteEntry) : Prop :=
  s.engSite k = some i ∧ s.entryOf i = some e ∧ s.depthOf k = 0

/-- The wait that a long command begins, as the fields of the engine keep it (R257). -/
def waitFields (s : State) (k kind unit qty idx imm : Nat) : List (Field × Nat × Nat) :=
  [(H.ENG_NEXT, k, (s.pcOf k + 1) % 4096), (H.ENG_WAIT, k, kind), (H.ENG_WAIT_UNIT, k, unit), (H.ENG_WAIT_QTY, k, qty),
   (H.ENG_WAIT_IDX, k, idx), (H.ENG_WAIT_IMM, k, imm), (H.ENG_WAIT_DONE, k, 0),
   (H.ENG_WAIT_END, k,
     if kind = 1 then s.now + ceilDiv (imm * 3) 4 * engCycle + 1 else if imm = 0 then 0 else s.now + imm * ns + 1)]

/-- The word that waits goes on to the address that it has chosen: SEQ neither calls, returns, yields, traps nor halts. -/
def goesOn (s : State) (k : Nat) : Prop := wSEQ (wordAt s k) ∈ [0, 1, 4, 5, 6, 8] ∧ noStop s k ∧ s.on H.ENG_LD_ON k = false

/-- The site of an engine with its entry. -/
def serves (s : State) (k i : Nat) (e : SiteEntry) : Prop := s.engSite k = some i ∧ s.entryOf i = some e

/-- No channel of a site belongs to a calibration flow. -/
def chansFree (s : State) (e : SiteEntry) : Prop := ∀ c ∈ e.channels, s.on H.CH_CAL_OWNED c = false

/-- The state with the commands of the engines as they were: what a command did at the tile is told apart from its mark. -/
def sansQueue (s t : State) : State := { t with cmdq := s.cmdq }

/-- A command of an engine was refused (R258), and nothing else happened. -/
def Refuses (s : State) (k : Nat) (ana : Bool) (op reason : Nat) (t : State) : Prop :=
  t.refused = qSet s.refused k (qGet s.refused k ++ [⟨s.cmdWord k ana op, reason, ana⟩])
    ∧ OnlyFields [] s { t with refused := s.refused, cmdq := s.cmdq }

/-- A level as it is stored (R133). -/
def levelStored (s : State) (c lvl v : Nat) : Nat :=
  code 16 (clampI (levelLimits (s.paired c) lvl).1 (levelLimits (s.paired c) lvl).2 (sext 16 v))

/-- The state with the memory operations of the engines as they were. -/
def sansMem (s t : State) : State := { t with memq := s.memq }

/-- A register of an engine takes a value that microcode writes (R242, R244, R279): only what the register holds
changes, and the read-only registers keep theirs. -/
def regTakes (s : State) (k i v : Nat) (t : State) : Prop :=
  if i < 48 then Sets [(H.ENG_G, k * 64 + i, v)] s t
  else if i < 52 then Sets [(H.ENG_L, k * 4 + (i - 48), v)] s t
  else if i = 53 then Sets [(H.ENG_FLAGS, k, v % 256)] s t
  else if i = 56 then (if s.aborting k then OnlyFields [] s t else Sets [(H.ENG_BIN, k, v)] s t)
  else if i = 59 then
    (if (qGet s.e2h k).length < 8 then
      qGet t.e2h k = qGet s.e2h k ++ [⟨v, s.get F.MBX_ENG_STAT_ENG_EPOCH k⟩]
    else Sets [(H.ENG_FLAGS, k, putBit (s.get H.ENG_FLAGS k) flME true)] s t)
  else OnlyFields [] s t

/-- A MEMOP of an engine ends in a memory error (R260): it is kept for the engine with its word, and nothing else
happens but that the operation is no longer outstanding. -/
def MemFails (s : State) (k op : Nat) (store : Bool) (reason off : Nat) (t : State) : Prop :=
  t.memq = (s.memTake k op).1.memq
    ∧ t.memErrs = qSet s.memErrs k (qGet s.memErrs k ++ [⟨(s.memTake k op).2, store, reason, off⟩])
    ∧ OnlyFields [] s { t with memErrs := s.memErrs, memq := s.memq }

/-- Bytes of a memory have changed at most from address x on, n bytes long. -/
def BytesBut (d : Byte) (m m' : Memory) (x n : Nat) : Prop := ∀ a : Nat, a < x ∨ x + n ≤ a → memByte d m' a = memByte d m a

/-- Bytes stored in the scratchpad and nothing else. -/
def SpStores (s : State) (x : Nat) (l : List Byte) (t : State) : Prop :=
  t.spRead x l.length = l ∧ BytesBut ramByte s.scratch t.scratch x l.length
    ∧ OnlyFields [] s { t with scratch := s.scratch, memq := s.memq }

/-- Bytes stored in the Cellar, and those alone. -/
def CelStores (s : State) (o : Nat) (l : List Byte) (t : State) : Prop :=
  t.celRaw o l.length = l ∧ BytesBut ramByte s.cellar t.cellar o l.length ∧ (s.celErr = [] → t.scratch = s.scratch)

/-- The record that RECORD makes of the scratchpad bytes (R309). -/
def recordBytes (s : State) (i off n : Nat) : List Byte :=
  let b := s.spRead (off % scratchSize) ((n + 1) * 8)
  leBytes 1 (0x80 ||| (fieldB b 0 1 &&& 0x70) ||| n) ++ leBytes 1 i ++ b.drop 2

/-- An access of a space that R260 lets through: aligned, and outside the secure region. -/
def memGood (space off n : Nat) : Prop := off % n = 0 ∧ (space = 0 → inSecure (off % scratchSize) = false)

/-- A trap has been taken (R271, R272): the frame's first word, one more frame, MIE 0, TCAUSE, and the vector's word
next. -/
def trapTaken (s : State) (k v code : Nat) (t : State) : Prop :=
  Shows [(F.ENG_STAT_PC, k, v), (F.ENG_STAT_DEPTH, k, s.depthOf k + 1),
      (H.ENG_TCAUSE, k, v + code % 256 * 256 + (s.depthOf k + 1) * 65536),
      (H.ENG_FRAME, k * 16, s.pcOf k % 4096 + s.rspOf k * 4096 + b2n (s.get H.ENG_ATOM_N k != 0) * 2 ^ 17 + v * 2 ^ 20
        + code % 256 * 2 ^ 24), (H.ENG_WAIT, k, 0)] t
    ∧ bit (t.get H.ENG_FLAGS k) flMIE = false

/-- The state of R243: the engine runs from pc with MIE alone set in FLAGS, and counters, frames and stacks empty. -/
def freshFields (k pc : Nat) : List (Field × Nat × Nat) :=
  [(F.ENG_STAT_PC, k, pc), (H.ENG_FLAGS, k, 2 ^ flMIE), (H.ENG_RESULT, k, 0), (H.ENG_RESSTAT, k, 0),
   (H.ENG_L, k * 4, 0), (H.ENG_L, k * 4 + 1, 0), (H.ENG_L, k * 4 + 2, 0), (H.ENG_L, k * 4 + 3, 0),
   (F.ENG_STAT_DEPTH, k, 0), (F.ENG_STAT_RSP, k, 0), (H.ENG_WAIT, k, 0)]

/-- The bus takes an access of a master to the block of an engine (R38, R617, R623). -/
def EngTakes (s : State) (m : Master) (k : Nat) : Prop := s.tapBarred m = false ∧ s.busOff = false ∧ s.engPowered k = true

/-- A site command can be taken (R120, R128, R505): by SITE_CTRL, or by a write of SITE_CMD. -/
def siteOpen (s : State) (c : Nat) : SiteOrigin → Prop
  | .host _ => HostServes s (legalCmd c)
  | .reg m => s.busOff = false ∧ s.tapBarred m = false ∧ s.on H.UNAVAIL 0 = false ∧ legalCmd c s = true

/-- A site command is answered OK, or its write completes. -/
def siteAnswered (s t : State) : SiteOrigin → Prop
  | .host h => Replied h 0x2D stOK [] s t
  | .reg _ => t.lastResp = .done

/-- A site command is refused and changes nothing: WRONG_STATE, or an error response. -/
def siteRefused (c : Instr) (s : State) : SiteOrigin → Prop
  | .host h => Completes c s (OnlyReplied h 0x2D stWRONG [] s)
  | .reg _ => TurnedAway c s

/-- A test of a site has begun (R295, R297): RUNNING with the next RUN number, counters clear, its START record written after
the point that OPEN keeps, and its engine to enter vector 0. -/
def testBegun (s : State) (i retest : Nat) (t : State) : Prop :=
  Shows [(F.SITE_STATE_STATE, i, sRUNNING), (F.SITE_RUN_RUN, i, s.get F.SITE_RUN_RUN i + 1), (H.ST_IS_RETEST, i, retest),
      (H.ENG_START_PEND, s.siteEngine i, 1), (F.SITE_FAILVEC_COUNT, i, 0), (F.SITE_FAILSTORED_COUNT, i, 0),
      (F.SITE_STATE_FINISHING, i, 0), (F.SEQ_VEC_LO_VEC_LO, i, 0), (F.SEQ_VEC_HI_VEC_HI, i, 0), (H.ST_SITE_FAIL, i, 0)] t
    ∧ (∀ e : SiteEntry, s.entryOf i = some e → s.celErr = [] → s.celBacked (celOff e.recBase) 0x1000 = true →
        t.recOpen e = s.recWr e ∧ t.recRun e = t.get F.SITE_RUN_RUN i)
    ∧ (s.get F.SEQ_START_ENTRY i = 0xFFFF → t.on H.SQ_SRC_NEXT i = true)
    ∧ (s.get F.SEQ_START_ENTRY i ≠ 0xFFFF → t.get H.SQ_WAIT i ∈ [1, 2, 3, 4])

/-- The input of a TDC that an edge is at: its source, slope and deskew. -/
def tdcSrc (s : State) (j : Nat) (stop : Bool) : Nat := if stop then s.get F.TDC_CFG_STOP_SRC j else s.get F.TDC_CFG_START_SRC j
def tdcSlope (s : State) (j : Nat) (stop : Bool) : Nat := if stop then s.get F.TDC_CFG_STOP_SLOPE j else s.get F.TDC_CFG_START_SLOPE j
def tdcDsk (s : State) (j : Nat) (stop : Bool) : Int := if stop then s.getI F.TDC_DSK_STOP_DSK j else s.getI F.TDC_DSK_START_DSK j

/-- A TDC takes an edge as an event (R386, R389, R390, R395). -/
def tdcHears (s : State) (j : Nat) (e : TdcEdge) : Prop :=
  (s.on F.TDC_CTRL_ARMED j && s.on F.TDC_CTRL_OPEN j && decide (s.get H.TDC_ARM_T j ≤ e.time) && tdcSrc s j e.stop != 15
    && slopeOk (tdcSlope s j e.stop) e.falling && !(e.stop && s.get F.TDC_CFG_MODE j == 2)) = true

/-- The time of an event by the interpolator that takes it, in units of 1/1,024 cycle (R381, R388). -/
def tdcTimeOf (s : State) (j : Nat) (e : TdcEdge) : Nat :=
  let p := s.tdcPairOf j (1 - s.get H.TDC_INTERP j)
  s.tdcUnits e.time (tdcDsk s j e.stop) (fineOf e.r p.1 p.2)

/-- The queue of a TDC has room, and no control entry waits to be put in it. -/
def tdcAtEase (s : State) (j : Nat) : Prop :=
  (s.tdcQueue j).length + 4 ≤ 512 ∧ s.get H.TDC_OVRN j = 0 ∧ s.get H.TDC_EPOCH_P j = 0 ∧ s.get H.TDC_DIS_P j = 0
    ∧ s.get H.TDC_DEADN j = 0

/-- The moment from which an arm acts: now, or the end of a threshold's settling (R387). -/
def tdcArmAt (s : State) (j : Nat) : Nat := match s.due H.TDC_THR_T j with | none => s.now | some e => max s.now e

/-- A value has been formed (R396): counted, kept as LAST, and taken into MIN and MAX. -/
def tdcFormed (s : State) (j d : Nat) (t : State) : Prop :=
  Shows [(F.TDC_NVAL_COUNT, j, satAt F.TDC_NVAL_COUNT.width (s.get F.TDC_NVAL_COUNT j + 1)),
    (F.TDC_LAST_LO_V_LO, j, unitsWord d + 2), (F.TDC_LAST_HI_V_HI, j, (unitsWord d + 2) / 2 ^ 32),
    (F.TDC_MIN_MIN, j, min (min d 0xFFFFFFFF) (s.get F.TDC_MIN_MIN j)), (F.TDC_MAX_MAX, j, max (min d 0xFFFFFFFF) (s.get F.TDC_MAX_MAX j))] t

/-- The interval from one time in units to another, around the wrap of the coarse count. -/
def tdcSpan (a b : Nat) : Nat := (b + coarseWrap - a % coarseWrap) % coarseWrap

/-- The entry that a sample makes in the buffer (R407). -/
def sampleEntry (s : State) (u : Nat) (a : AcqSeen) : Nat :=
  let v := clampI (-(2 ^ 23)) (2 ^ 23 - 1) a.volt
  let i := clampI (-(2 ^ 23)) (2 ^ 23 - 1) a.curr
  let r := s.acqRanges u
  acqEntry v i r.1 r.2.1 a.limited (a.beyond || decide (v ≠ a.volt) || decide (i ≠ a.curr)) (s.acqCalOwned u) r.2.2 false

/-- Where the sample of an index lies in the Cellar window (R406). -/
def acqAt (s : State) (u idx : Nat) : Nat := celOff (s.acqBase u) + 0x1000 + idx % s.acqSize u * 8

/-- A unit takes samples: PRE, READY, or POST with samples still to come. -/
def acqTakes (s : State) (u : Nat) : Prop := s.acqState u = aPRE ∨ s.acqState u = aREADY ∨ (s.acqState u = aPOST ∧ s.get H.ACQ_LEFT u ≠ 0)

/-- The unit has fired at sample n of a kind (R411, R414). -/
def acqFired (u n kind post : Nat) : List (Field × Nat × Nat) :=
  [(F.ACQ_CTRL_STATE, u, aPOST), (H.ACQ_TRIG_N, u, n), (H.ACQ_KIND, u, kind), (H.ACQ_LEFT, u, post - 1), (H.ACQ_FORCE_P, u, 0)]

/-- A record has been appended to the stream of a site (R304-R306): at WR, after its PAD where it would cross the end. -/
def recAdded (s : State) (i : Nat) (e : SiteEntry) (l : List Byte) (t : State) : Prop :=
  s.recFits e l.length = true → s.celErr = [] → s.celBacked (celOff e.recBase) (0x1000 + e.recSize) = true →
    let wr := s.recWr e + s.recPad e l.length
    t.celRaw (celOff e.recBase + 0x1000 + wr % e.recSize) l.length = l
      ∧ Shows [(F.SITE_REC_WR_LO_WR_LO, i, wr + l.length), (F.SITE_REC_WR_HI_WR_HI, i, (wr + l.length) / 2 ^ 32)] t

/-- The task that a runner has before it: the one that an engine holds and has not run, or the oldest of a deque that its
owner never pops. -/
def taskOf (s : State) : TaskRunner → Option (List Byte)
  | .engine k => if s.on F.ENG_STAT_TASK_HELD k && !s.on H.ENG_TASK_RAN k then some (s.heldTask k) else none
  | .hearth q => if !s.on F.ENG_CTRL_STEAL_EN q && s.dqLen q != 0 then some (s.dqAt q (s.spWord (dqTopA q))) else none

/-- The deque that a runner's next slice goes to. -/
def dequeOf : TaskRunner → Nat
  | .engine k => k
  | .hearth q => q

/-- The oldest task of a deque has been taken and completed (R321, R630). -/
def dqAdvanced (s : State) (q : Nat) (t : State) : Prop :=
  t.spWord (dqTopA q) = (s.spWord (dqTopA q) + 1) % 2 ^ 32 ∧ t.spWord (dqDoneA q) = (s.spWord (dqDoneA q) + 1) % 2 ^ 32

/-- A runner has run its task: an engine keeps it until its YIELD, Hearth completes it. -/
def taskRan (s : State) : TaskRunner → State → Prop
  | .engine k, t => t.on H.ENG_TASK_RAN k = true
  | .hearth q, t => dqAdvanced s q t

/-- A bad task is counted, and no record written (R319). -/
def badCounted (s t : State) : Prop :=
  Shows [(F.STL_STAT_BADTASK, 0, satAt F.STL_STAT_BADTASK.width (s.get F.STL_STAT_BADTASK 0 + 1))] t ∧ t.cellar = s.cellar

/-- The MEASURE record of a RESULT_PACK task (R320). -/
def measureBytes (s : State) (d : List Byte) : List Byte :=
  leBytes 1 0x23 ++ leBytes 1 (taskSite d) ++ leBytes 2 (1 + taskArg d 1) ++ leBytes 2 (taskRun d) ++ leBytes 1 (taskArg d 1)
    ++ leBytes 1 0 ++ s.spRead (taskArg d 0) (8 * taskArg d 1)

/-- CALIBRATE may be taken (R120, R112): a mode of its group, and no transition in progress. -/
def legalFlow (x : State) : Bool := legalCal x && !x.on F.MODE_STAT_TRANSIT 0

/-- The values of a unit in its tile's store (R424). -/
def corrOf (s : State) (t u : Nat) : List Byte := s.corrBytes (t * 0x10000 + calOff u) (calSize u)

/-- A pending value takes effect at once (R435): no flow owns the unit, its TDC is not armed, and its site, if it has one, is
neither active nor held; a monitor also where it samples without a period and its output is off. -/
def takesNow (s : State) (t : Nat) (p : PendCorr) : Bool := s.calReady t p || s.calMonReady t p

/-- The value is in force, or waits for its boundary (R434, R435). -/
def corrTaken (now : Bool) (t u : Nat) (l : List Byte) (x : State) : Prop :=
  if now then corrOf x t u = l.take (calSize u) else ∃ p ∈ qGet x.corrPend t, p.unit = u ∧ p.bytes = l

/-- The records of a CAL body, one after the other by their LEN8 (R427). -/
def calRecs : Nat → List Byte → List (List Byte)
  | 0, _ => []
  | n + 1, l => l :: calRecs n (l.drop (8 * max 1 (fieldB l 6 2)))

/-- The values that a record of a valid head carries. -/
def recImage (u : Nat) (l : List Byte) : List Byte := (l.drop 8).take (calSize u + (if calKind u = 1 then 8 else 0))

/-- A record is accepted (R428, R433): a valid head and plausible values. -/
def calRecGood (l : List Byte) : Bool :=
  match recordUnit l with
  | none => false
  | some (t, u) => calPlausible t u (fieldB l 3 1) (Config.factoryDsk (t * 64 + u)) (recImage u l)

/-- The Cellar answers every access below its top: trained, and no block in error. -/
def celSound (s : State) : Prop := s.celReady = true ∧ s.celErr = [] ∧ Memory.wf ramByte s.cellar = true

/-- A load from the Cellar reads what stands there (R208, R209, R501): the command is served, its ADDR names a place in the
window for a header of n bytes, and the Cellar answers every access below its top. -/
def loadReads (s : State) (addr n align o : Nat) : Prop :=
  HostServes s legalLoad ∧ s.argBody addr n align = some o ∧ celSound s

/-- Bytes of the Cellar have changed only inside one of the ranges listed. -/
def CelledOnly (l : List (Nat × Nat)) (s t : State) : Prop :=
  ∀ a : Nat, (∀ p ∈ l, a < p.1 ∨ p.1 + p.2 ≤ a) → memByte ramByte t.cellar a = memByte ramByte s.cellar a

/-- A load answers as it ended, and has changed no byte of the Cellar and no control store. -/
def LoadFails (c : Instr) (s : State) (h : Hdr) (op status : Nat) : Prop :=
  Completes c s (fun t => Replied h op status [] s t ∧ t.cellar = s.cellar ∧ t.cstore = s.cstore ∧ t.csBodies = s.csBodies
    ∧ t.lines = s.lines)

/-- Reads in turn that all answer: the state after them, and the values in order (R498). -/
def ReadsAll : State → List Nat → State → List Nat → Prop
  | s, [], t, vs => t = s ∧ vs = []
  | s, a :: as, t, vs => ∃ (v : Nat) (vs' : List Nat), vs = v :: vs' ∧ (s.busRead .fabric a).2 = .value v
      ∧ ReadsAll (s.busRead .fabric a).1 as t vs'

/-- Writes in turn that all complete, and none of which resets the device: the state after them (R498). -/
def WritesAll : State → List (Nat × Nat) → State → Prop
  | s, [], t => t = s
  | s, p :: ps, t => (s.busWrite .fabric p.1 p.2).2 ≠ .error ∧ (s.busWrite .fabric p.1 p.2).1.portPhase = 0
      ∧ WritesAll (s.busWrite .fabric p.1 p.2).1 ps t

/-- Values as they stand in a reply. -/
def wordsBytes (l : List Nat) : List Byte := (l.map (leBytes 4)).flatten

/-- The items of a REG_WR at their local addresses. -/
def regItems (items : List RegItem) : List (Nat × Nat) := items.map (fun p => (localOf p.addr, p.value % 2 ^ 32))

/-- The words of a BLK_WR at their addresses. -/
def blkItems (a : Nat) (data : List Byte) : List (Nat × Nat) :=
  (wordAddrs a data.length).zipIdx.map (fun p => (p.1, fieldB data (4 * p.2) 4))

/-- Only the system page can be read in BRINGUP and MINIMAL (R120). -/
def systemOnly (s : State) : Bool := s.mode == mBRINGUP || s.mode == mMINIMAL

/-- A write that fails because a DPS may not be enabled at its temperature (R341, R498): answered THERMAL_RANGE. -/
def coldEnable (s : State) (p : Nat × Nat) : Bool :=
  match decodeAddr p.1 with
  | some (.DPS_CTRL, d) => bit p.2 0 && !s.on F.DPS_CTRL_EN d && s.dpsEnRefusal d == 1
  | _ => false

/-- A host command that cannot be served (R128, R497, R505, R506): IN_RESET while a warm reset is carried out, nothing while
the port is down, WRONG_STATE in a mode that does not have it and once the device may be removed. -/
def HostTurns (c : Instr) (h : Hdr) (op : Nat) (legal : State → Bool) (s : State) : Prop :=
  (s.portPhase = 1 → Completes c s (OnlyReplied h op stINRESET [] s))
    ∧ (s.portPhase = 2 → Completes c s (fun t => t = s))
    ∧ (s.portPhase = 0 → s.on H.UNAVAIL 0 = true ∨ legal s = false → Completes c s (OnlyReplied h op stWRONG [] s))

/-- The commands that Hearth serves, with their opcode and the modes that have them (R120, R499). -/
def hostRows (h : Hdr) (n m v : Nat) (b : Bool) (ns : List Nat) (items : List RegItem) (data : List Byte) (a : CalArgs) :
    List (Instr × Nat × (State → Bool)) :=
  [(.status h, 0x20, legalAny), (.regRd h ns, 0x21, legalAny), (.regWr h items, 0x22, legalWrite), (.blkRd h n m, 0x23, legalAny),
   (.blkWr h n data, 0x24, legalWrite), (.flashWr h n data, 0x25, legalFlash), (.flashErase h n m, 0x26, legalFlash),
   (.patLoad h n, 0x27, legalLoad), (.segLoad h n, 0x28, legalLoad), (.csLoad h m n, 0x29, legalLoad), (.calLoad h n, 0x2A, legalCal),
   (.siteUnbind h n, 0x2C, legalLoad), (.start (.host h) n, 0x2D, legalCmd 1), (.pause (.host h) n, 0x2D, legalCmd 2),
   (.resume (.host h) n, 0x2D, legalCmd 3), (.retest (.host h) n, 0x2D, legalCmd 4), (.abort (.host h) n, 0x2D, legalCmd 5),
   (.hostJump h b (m == 1) n, 0x2E, legalSite), (.mode h n, 0x30, legalMode), (.calibrate h a, 0x31, legalFlow),
   (.calStop h n, 0x32, legalCal), (.bootClear h, 0x34, legalMinimal), (.injectFault h n m, 0x3A, legalFactory),
   (.injectInterrupt h n, 0x3A, legalFactory), (.injectSensorReading h n m v, 0x3A, legalFactory),
   (.injectSensorBroken h n m, 0x3A, legalFactory), (.fuseRead h n, 0x3B, legalFactory), (.fuseOr h n v, 0x3B, legalFactory),
   (.versionRead h, 0x3B, legalFactory)]

/-- The commands that engines may not send (R499, R504). -/
def hostOnlyRows (h : Hdr) (n m : Nat) (ns : List Nat) : List (Instr × Nat × (State → Bool)) :=
  [(.softReset h n, 0x33, legalAny), (.prepareRemove h, 0x35, legalRemove), (.mbxPost h n m ns, 0x36, legalAny),
   (.mbxRead h n m, 0x37, legalBox), (.mbxReset h n m, 0x39, legalBox)]

/-- A Porch sends a flit of a virtual channel at once (R452, R456): it carries, nothing waits before it, the replay buffer has
room, no LEAVE was received, and a credit is there. -/
def canSend (s : State) (q vc : Nat) : Prop :=
  vc < 4 ∧ s.outQ q = [] ∧ (s.replayQ q).length < 512 ∧ s.carries q = true ∧ s.on H.PO_LEFT q = false ∧ s.hasCredit q vc = true

/-- A flit has gone out of a Porch: with the next sequence number, for a credit, kept for replay; or it waits, where the Porch
does not carry. -/
def FlitGoes (s : State) (q : Nat) (f : Flit) (t : State) : Prop :=
  (canSend s q f.vc → t.replayQ q = s.replayQ q ++ [{ f with seq := s.get F.PORCH_SEQ_NEXT_TX q }] ∧ t.outQ q = []
      ∧ Shows [(F.PORCH_SEQ_NEXT_TX, q, s.get F.PORCH_SEQ_NEXT_TX q + 1)] t
      ∧ (f.vc ≠ 3 → Shows [(H.TX_CR, q * 3 + f.vc, s.get H.TX_CR (q * 3 + f.vc) - 1)] t))
    ∧ (s.carries q = false → s.porch q ≠ pLEAVING → s.on H.PO_LEFT q = false →
      t.outQ q = s.outQ q ++ [f] ∧ t.replayQ q = s.replayQ q)

/-- A flash command passes its checks (R502, R569, R601): not RETIRED, no guarded sector, no temperature out of range. -/
def flashOpen (s : State) (off n : Nat) : Prop := s.lc ≠ lcRETIRED ∧ s.flashGuarded off n = false ∧ s.coreCold = false

/-- The state with the flash, its operations and the answers as they were. -/
def sansFlash (s t : State) : State :=
  { t with flash := s.flash, flashOps := s.flashOps, replies := s.replies, accepted := s.accepted }

/-- The mask and the target bit of a jump of the host. -/
def jumpSmu : JumpTarget → Bool
  | .site _ => false
  | .smu _ => true

/-- A calibration flow owns what a jump of the host names. -/
def jumpOwned (s : State) : JumpTarget → Bool
  | .site i => s.siteCalOwned i
  | .smu u => s.on H.SMU_CAL_OWNED u

/-- The event at the head may leave through a Porch (R508, R509): a node number, a Porch in service, a credit, and no event
before it. -/
def eventMay (s : State) (q : Nat) : Prop :=
  s.get F.FAB_NODE_NODE_ID 0 ≠ 0 ∧ s.inService q = true ∧ s.hasCredit q 2 = true ∧ firstVc (s.outQ q) 2 = none

/-- The flit of an event (R508). -/
def eventFlit (s : State) (e : Event) : Flit :=
  s.ownFlit 0x80 (s.get F.FAB_NODE_HOST_NODE 0) 2 0
    (leBytes 2 e.code ++ leBytes 2 e.seq ++ leBytes 1 e.data.length ++ zeros 3 ++ leBytes 8 e.ts ++ e.data)

/-- An interrupt source of Hearth is pending (R589). -/
def irqPends (t : State) (n : Nat) : Prop := bit (t.get F.IRQ_PEND_PEND (n / 32)) (n % 32) = true

/-- EN of a serial port may take a value (R521, R522): it stays, it falls, or it rises with a GPIO that the port may drive and
no transfer in progress. -/
def cspEnMay (s : State) (n : Nat) (b : Bool) : Prop :=
  b = s.on F.CSP_CTRL_EN n ∨ b = false ∨ (s.cspSelBad n = false ∧ s.on F.CSP_CTRL_BUSY n = false)

/-- The bits of a transfer stand in the receive buffer, most significant first (R517). -/
def cspReceived (n : Nat) (l : List Bool) (t : State) : Prop :=
  ∀ h : Nat, h < (l.length + 15) / 16 → t.cspHw F.CSP_RX_HW n h = msbFirst 16 (l.drop (16 * h))

/-- A transfer of a serial port is over with so many bits (R519). -/
def cspOver (n count : Nat) : List (Field × Nat × Nat) :=
  [(F.CSP_CTRL_BUSY, n, 0), (F.CSP_STAT_DONE, n, 1), (F.CSP_STAT_BITS, n, count), (H.CSP_LOST, n, 0)]

/-- A transfer of a serial port was cut (R522, R523): by the loss of its select, or by its abort, or by both. -/
def cspWasCut (s : State) (n : Nat) (lost : Bool) (rx : List Bool) (t : State) : Prop :=
  let l := rx.take (s.get F.CSP_LEN_BITS n)
  t.now = laterOf s (s.cspClocked n l.length + (if lost then 0 else s.get F.CSP_CFG_TRAIL n * s.cspHalf n))
    ∧ Shows (cspOver n l.length) t ∧ cspReceived n l t
    ∧ (lost = true → Shows [(F.CSP_STAT_SEL_LOST, n, 1)] t)
    ∧ (s.on H.CSP_ABT n = true → Shows [(F.CSP_STAT_ABORTED, n, 1)] t)
    ∧ t.get F.CSP_ALIVE_NEXT n = s.get F.CSP_ALIVE_NEXT n ∧ (s.mode ≠ mHOLD → irqPends t (175 + n))

/-- A request of the security block refused (R598): an error response, and PROG_RES tells why. -/
def ProgRefused (c : Instr) (s : State) (r : Nat) : Prop :=
  Completes c s (fun t => t.lastResp = .error ∧ Shows [(F.SEC_STAT_PROG_RES, 0, r)] t ∧ t.fuses = s.fuses
    ∧ t.get F.SEC_STAT_BUSY 0 = s.get F.SEC_STAT_BUSY 0 ∧ t.get H.SEC_PROG_END 0 = s.get H.SEC_PROG_END 0)

/-- A record is to be programmed into the lowest blank block of some (R598): refused while another is programmed, at a
temperature out of range and where no block is blank; else begun, 32 words of 20 µs. -/
def ProgAnswers (c : Instr) (s : State) (blocks words : List Nat) (isLc : Bool) : Prop :=
  (s.on F.SEC_STAT_BUSY 0 = true → ProgRefused c s prSTATE)
    ∧ (s.on F.SEC_STAT_BUSY 0 = false → s.coreCold = true → ProgRefused c s prTHERMAL)
    ∧ (s.on F.SEC_STAT_BUSY 0 = false → s.coreCold = false →
      (blocks.any s.fuseBlank = false → ProgRefused c s prNOSPACE)
        ∧ (∀ b : Nat, blocks.find? s.fuseBlank = some b → Completes c s (fun t => t.lastResp = .done ∧ t.fuses = s.fuses
          ∧ Shows [(F.SEC_STAT_BUSY, 0, 1), (H.SEC_PROG_BLK, 0, b), (H.SEC_PROG_END, 0, s.now + 640 * us + 1),
              (F.SEC_STAT_PROG_RES, 0, prOK), (H.SEC_PROG_LC, 0, b2n isLc),
              (H.SEC_PROG_D, 0, ofLe (words.map (leBytes 4)).flatten)] t)))

/-- The answer of a token's check, as RESULT shows it (R619). -/
def sigResult : SigEnd → Nat
  | .good => 1
  | .badBlock => 2
  | .badEcdsa => 3
  | .badLms => 4

/-- What TAMPER_N does outside HOLD (R614, R616): the latch, the wipe of the secure region, no debug right, the end of a
token's check, the image key cleared where it must be, and fault 116. -/
def tampered (s t : State) : Prop :=
  Shows [(F.SEC_STAT_TAMPER, 0, 1), (F.SEC_DBG_CTRL_RIGHTS, 0, 0), (F.SPD_STAT_WIPING, 0, 1), (H.WIPE_END, 0, t.now + 4 * us + 1),
      (H.SEC_UNLOCK_END, 0, 0)] t
    ∧ (∀ a : Nat, 0x1F0000 ≤ a → a < 0x200000 → memByte ramByte t.scratch a = 0)
    ∧ (s.get H.SEC_UNLOCK_END 0 ≠ 0 → Shows [(F.SEC_DBG_CTRL_RESULT, 0, 5)] t)
    ∧ (s.lc = lcSECURE ∨ s.on F.SEC_TAMPER_CFG_KEY_CLEAR 0 = true → Shows [(F.SEC_STAT_KEY_LOADED, 0, 0)] t)
    ∧ bit (t.get F.FLT_STAT_STICKY 3) 20 = true

/-- A link is lost and its Porch is DOWN (R461, R488, R490): nothing waits or is in flight, no route uses the Porch, the receive
side begins again, and LINK_DOWN says the Porch, the cause and whether it was planned. -/
def LinkLost (s : State) (p cause : Nat) (planned : Bool) (t : State) : Prop :=
  t.outQ p = [] ∧ t.replayQ p = []
    ∧ (∀ d : Nat, d < 256 → t.on (rtValid d) (d / 8) = true → t.get (rtPorch d) (d / 8) ≠ p)
    ∧ Shows [(F.PORCH_STAT_STATE, p, pDOWN), (F.PORCH_STAT_PLANNED, p, b2n planned), (H.RX_EXP, p, 0), (H.RX_WAIT, p, 0),
        (F.PORCH_STAT_PARTNER, p, 0), (H.PO_DOWN_END, p, t.now + ms + 1), (F.PORCH_EVENTS_DOWN, p, s.get F.PORCH_EVENTS_DOWN p + 1)] t
    ∧ (planned = false → Shows [(F.PORCH_LOST_FLITS, p,
        satAt F.PORCH_LOST_FLITS.width (s.get F.PORCH_LOST_FLITS p + ((s.replayQ p).length + (s.outQ p).length)))] t)
    ∧ (∃ ev ∈ t.events, ev.code = 0x0202 ∧ ev.data.take 3 = leBytes 1 p ++ leBytes 1 cause ++ leBytes 1 (b2n planned))

/-- A Porch retrains (R467). -/
def Retrains (s : State) (p cause : Nat) (t : State) : Prop :=
  Shows [(F.PORCH_STAT_STATE, p, pRETRAIN), (F.PORCH_EVENTS_RETRAINS, p, s.get F.PORCH_EVENTS_RETRAINS p + 1), (H.PO_STEP, p, 0),
      (H.PO_CAUSE, p, cause), (H.PO_INFO, p, 0), (H.PO_T0, p, t.now), (H.PO_FAILS, p, 0), (H.PO_FULL, p, 0)] t
    ∧ (cause = 1 → Shows [(F.PORCH_STAT_PARTNER, p, 0)] t)

/-- A LINK_INFO is read in these states (R464, R466). -/
def infoReads (s : State) (p : Nat) : Prop :=
  s.porch p = pTRAINNRZ ∨ s.porch p = pTRAINPAM4 ∨ s.porch p = pRETRAIN ∨ s.porch p = pDEEP

/-- The link may resume (R466): the partner is the one of before, neither side is FRESH, and what it expects next is in flight
or next to be sent. -/
def resumes (s : State) (p : Nat) (i : LinkInfo) : Bool :=
  (!s.on H.PO_INFO p || s.on H.PO_RESUME p) && s.get H.PO_SID p == i.sid % 2 ^ 64 && !i.fresh && !s.on H.PO_FRESH p
    && (s.inFlight p (i.expected % 4096) || i.expected % 4096 == s.get F.PORCH_SEQ_NEXT_TX p)

/-- The receiver has asked for the flits from EXP on again (R453, R454). -/
def asksAgain (s : State) (p : Nat) (t : State) : Prop :=
  t.on H.RX_WAIT p = true
    ∧ (s.on H.RX_WAIT p = false → Shows [(H.RX_REQS, p, 1), (H.RX_REQ_T, p, s.now + 2 * us + 1),
        (F.PORCH_RETRY_REQ_SENT, p, satAt F.PORCH_RETRY_REQ_SENT.width (s.get F.PORCH_RETRY_REQ_SENT p + 1))] t)

/-- A flit with the next sequence number is accepted (R453), and its type and length are those of R451. -/
def flitTaken (s : State) (p : Nat) (f : Flit) : Prop :=
  (s.carries p = true ∨ s.porch p = pLEAVING) ∧ f.crcOk = true ∧ 2 < f.typ ∧ f.seq % 4096 = s.get H.RX_EXP p
    ∧ typeVc f.typ = some f.vc ∧ f.payload.length ≤ 116

/-- The router takes a flit as one of another node (R471). -/
def noConflict (s : State) (f : Flit) : Prop := f.src ≠ s.get F.FAB_NODE_NODE_ID 0 ∨ s.get F.FAB_NODE_NODE_ID 0 = 0

/-- An ASSIGN or ROUTE_SET comes from another node than the host of this chip (R486). -/
def notHost (s : State) (f : Flit) : Prop := s.get F.FAB_NODE_NODE_ID 0 ≠ 0 ∧ f.src ≠ s.get F.FAB_NODE_HOST_NODE 0

/-- Why an ASSIGN is refused (R484, R486); 0: it is not. -/
def assignStatus (s : State) (f : Flit) : Nat :=
  if s.get F.FAB_NODE_NODE_ID 0 ≠ 0 ∧ f.src ≠ s.get F.FAB_NODE_HOST_NODE 0 then 3
  else if fieldB (flitBody f) 0 8 ≠ s.sid then 1
  else if fieldB (flitBody f) 8 1 = 255 then 2
  else 0

/-- A reply flit of the router has gone back out of the Porch its request came in on: of a type, its body beginning with a
status. -/
def Answers (s : State) (p typ status : Nat) (t : State) : Prop :=
  canSend s p 1 → ∃ g : Flit, t.replayQ p = s.replayQ p ++ [g] ∧ g.typ = typ ∧ g.payload.take 1 = leBytes 1 status

/-- A copy of a broadcast was seen less than 10 ms ago (R476). -/
def copySeen (s : State) (f : Flit) : Prop :=
  ∃ b ∈ s.bcasts, b.src = f.src ∧ b.id = fieldB f.payload 0 2 ∧ s.now < b.t + 10 * ms

/-- A word of ROUTE_SET stands (R485). -/
def routeStands (n v : Nat) (t : State) : Prop :=
  (n < 32 → ∀ k : Fin 8, Shows [(rtPorch k, n, bits v (4 * k.val) 3), (rtValid k, n, b2n (bit v (4 * k.val + 3)))] t)
    ∧ (32 ≤ n → n < 48 → Shows [(F.FAB_MC_PORCHES, n - 32, bits v 0 8), (F.FAB_MC_LOCAL, n - 32, b2n (bit v 8))] t)
    ∧ (n = 48 → Shows [(F.FAB_NODE_RT_VALID, 0, b2n (bit v 0)), (F.FAB_CTRL_TTL, 0, bits v 8 8)] t)

/-- What raising an interrupt can write. -/
def irqFields : List Field :=
 [F.EVT_STAT_EVSEQ, F.EVT_LOST_COUNT, F.IRQ_PEND_PEND, F.IRQ_ENG_LOST_COUNT, F.ENG_TMASK_PEND, H.HEL_T0, H.HEL_N]

/-- What sending a flit can write. -/
def flitFields : List Field :=
 [F.PORCH_SEQ_NEXT_TX, F.PORCH_FLITS_LO_N_LO, F.PORCH_FLITS_HI_N_HI, H.TX_CR, H.TX_BUD]

/-- What an access of the Cellar by an engine can write, its error and its fault with it. -/
def cellarFields : List Field :=
 irqFields ++ fieldsOf [.CEL_ECC_ADDR_HI] ++ [F.FLT_STAT_STICKY, F.FLT_SUM_ACTIVE, F.FLT_SUM_BUSY, F.FLT_SUM_MERGED,
  F.FLT_SUM_ESCALATED, F.FLT_LOG_WR_COUNT, F.CEL_ECC_CORR_COUNT, F.CEL_ECC_UNCORR_COUNT, F.CEL_ECC_ADDR_LO_ADDR_LO,
  F.CEL_CLS_BYTES_LO_B_LO, F.CEL_CLS_BYTES_HI_B_HI, H.ENG_FLAGS, H.ENG_BIN, H.ENG_G, H.ENG_L, H.FLT_END, H.FLT_SEQ,
  H.FLT_SITE, H.FLT_TILE]

/-- What a link that goes down can write. -/
def linkFields : List Field :=
 irqFields ++ [F.PORCH_STAT_STATE, F.PORCH_STAT_PLANNED, F.PORCH_STAT_PARTNER, F.PORCH_EVENTS_DOWN,
  F.PORCH_LOST_FLITS, F.FAB_RT_VALID0, F.FAB_RT_VALID1, F.FAB_RT_VALID2, F.FAB_RT_VALID3, F.FAB_RT_VALID4,
  F.FAB_RT_VALID5, F.FAB_RT_VALID6, F.FAB_RT_VALID7, F.FAB_MC_PORCHES, H.RX_EXP, H.RX_WAIT, H.RX_REQ_T, H.PO_FRESH,
  H.PO_WAS_UP, H.PO_DOWN_END, H.PO_WAKE_END, H.PO_LEFT, H.PO_LEAVE_END]

/-- What raising a fault and its reaction can write. -/
def faultFields : List Field :=
 irqFields ++ fieldsOf [.CEL_ECC_ADDR_HI] ++ [F.SITE_TSTAT_WAIT_START, F.FLT_STAT_STICKY, F.FLT_SUM_ACTIVE,
  F.FLT_SUM_BUSY, F.FLT_SUM_MERGED, F.FLT_SUM_ESCALATED, F.FLT_LOG_WR_COUNT, F.CEL_ECC_CORR_COUNT,
  F.CEL_ECC_UNCORR_COUNT, F.CEL_ECC_ADDR_LO_ADDR_LO, F.CEL_CLS_BYTES_LO_B_LO, F.CEL_CLS_BYTES_HI_B_HI,
  F.SEQ_CUR_DECIDED, F.SEQ_SSTAT_STALLING, F.SEQ_SSTAT_START_DEFERRED, F.SITE_REC_WR_LO_WR_LO, F.SITE_REC_WR_HI_WR_HI,
  F.SITE_REC_LOST_LOST, H.CH_SETTLE_END, H.CH_SETTLE_END1, H.CH_BANK_END, H.CH_BANK_NOW, H.SQ_PLAYING, H.SQ_WAIT,
  H.SQ_HOLD_END, H.SQ_PAUSE_REQ, H.SQ_STOP_REQ, H.SQ_CHAIN_PAUSED, H.SQ_MK0, H.SQ_MK1, H.SQ_T_END, H.ST_REC_LOST,
  H.ST_CAUSE, H.ST_BIN_FORCE, H.ST_OUT_SAFE, H.ST_HALT_T, H.ENG_BIN, H.ENG_ABORT, H.ENG_ABORT_END, H.ENG_START_CUT,
  H.FLT_END, H.FLT_SEQ, H.FLT_SITE, H.FLT_TILE]

/-- What a task that a Hearth core takes can write. -/
def recordFields : List Field :=
 irqFields ++ fieldsOf [.CEL_ECC_ADDR_HI] ++ [F.FLT_STAT_STICKY, F.FLT_SUM_ACTIVE, F.FLT_SUM_BUSY, F.FLT_SUM_MERGED,
  F.FLT_SUM_ESCALATED, F.FLT_LOG_WR_COUNT, F.STL_STAT_BADTASK, F.STL_FULL_COUNT, F.CEL_ECC_CORR_COUNT,
  F.CEL_ECC_UNCORR_COUNT, F.CEL_ECC_ADDR_LO_ADDR_LO, F.CEL_CLS_BYTES_LO_B_LO, F.CEL_CLS_BYTES_HI_B_HI,
  F.SITE_REC_WR_LO_WR_LO, F.SITE_REC_WR_HI_WR_HI, F.SITE_REC_LOST_LOST, F.ACQ_CTRL_STATE, H.ST_REC_LOST, H.FLT_END,
  H.FLT_SEQ, H.FLT_SITE, H.FLT_TILE, H.ENG_TASK_RAN]

/-- What the end of an acquisition can write. -/
def acqFields : List Field :=
 irqFields ++ fieldsOf [.CEL_ECC_ADDR_HI] ++ [F.FLT_STAT_STICKY, F.FLT_SUM_ACTIVE, F.FLT_SUM_BUSY, F.FLT_SUM_MERGED,
  F.FLT_SUM_ESCALATED, F.FLT_LOG_WR_COUNT, F.STL_FULL_COUNT, F.CEL_ECC_CORR_COUNT, F.CEL_ECC_UNCORR_COUNT,
  F.CEL_ECC_ADDR_LO_ADDR_LO, F.CEL_CLS_BYTES_LO_B_LO, F.CEL_CLS_BYTES_HI_B_HI, F.ACQ_CTRL_STATE, F.ACQ_STAT_FORCED,
  F.ACQ_STAT_PRE_SHORT, F.ACQ_STAT_POST_SHORT, F.ACQ_STAT_DROP, F.ACQ_STAT_STALE, F.ACQ_STAT_RANGED, F.ACQ_STAT_LATE,
  F.ACQ_COUNT_CAPTURES, F.ACQ_FIRST_IDX_IDX, H.FLT_END, H.FLT_SEQ, H.FLT_SITE, H.FLT_TILE, H.ACQ_FLAGS,
  H.ACQ_PUSH_WAIT]

/-- What an engine that is aborted can write. -/
def abortFields : List Field :=
 recordFields ++ fieldsOf [.ENG_STAT, .ENG_HALT] ++ [F.SITE_TSTAT_WAIT_START, F.SEM_PEEK_OWNER, F.SEM_PEEK_HELD,
  F.SEQ_CUR_DECIDED, F.SEQ_SSTAT_STALLING, F.SEQ_SSTAT_START_DEFERRED, F.SITE_STATE_FINISHING, H.CH_SETTLE_END,
  H.CH_SETTLE_END1, H.CH_BANK_END, H.CH_BANK_NOW, H.SQ_PLAYING, H.SQ_WAIT, H.SQ_HOLD_END, H.SQ_PAUSE_REQ,
  H.SQ_STOP_REQ, H.SQ_CHAIN_PAUSED, H.SQ_MK0, H.SQ_MK1, H.SQ_T_END, H.ST_CAUSE, H.ST_BIN_FORCE, H.ST_HALT_T,
  H.ST_HALTED, H.ENG_ATOM_N, H.ENG_WAIT, H.ENG_WAIT_END, H.ENG_ABORT, H.ENG_ABORT_END, H.ENG_STEPPING, H.ENG_LD_ON,
  H.ENG_PRE_STOP]

/-- What the end of a long operation of an engine can write. -/
def opFields : List Field :=
 abortFields ++ cellarFields ++ [F.STL_STEALS_LO_N_LO, F.STL_STEALS_HI_N_HI, H.ST_OUT_SAFE, H.ENG_RESULT,
  H.ENG_RESSTAT, H.ENG_TCAUSE, H.ENG_WAIT_UNIT, H.ENG_WAIT_QTY, H.ENG_WAIT_DONE, H.ENG_TASK_SITE, H.ENG_TASK_RUN,
  H.ENG_TASK_DEQUE, H.ENG_TASK_T0, H.ENG_START_PEND, H.ENG_START_CUT, H.ENG_RSTK, H.ENG_FRAME, H.ENG_TASK_D,
  H.ENG_FW_UNIT, H.ENG_FW_QTY, H.ENG_FW_IMM, H.ENG_WAIT_IMM, H.ENG_NEXT, H.ENG_BRK_SKIP, H.ENG_WAIT_IDX,
  H.ENG_FW_NEXT, H.ENG_FW_IDX, H.ENG_FW_PC]

/-- What a word of microcode can write. -/
def wordFields : List Field :=
 opFields ++ [H.ST_TRIG_ARR, H.ENG_TNOW_HI, H.ENG_VEC_HI]

/-- What a command to a site can write. -/
def siteFields : List Field :=
 faultFields ++ fieldsOf [.SITE_RUN, .CH_DSK, .TDC_DSK, .TCAL_TJ] ++ [F.SITE_TCTRL_ACTIVE, F.SITE_TSTAT_TIMED_LATE,
  F.SITE_TSTAT_RESTARTS, F.SEQ_CUR_ENTRY, F.SEQ_PASS_PASS, F.SEQ_JUMP_REQ_PENDING, F.SEQ_JUMP_REQ_JUMP_LATE,
  F.SEQ_SSTAT_TIMING_BROKEN, F.SEQ_SSTAT_CHAIN_DONE, F.SEQ_SSTAT_UNDERRUNS, F.SEQ_VEC_LO_VEC_LO, F.SEQ_VEC_HI_VEC_HI,
  F.SEQ_STALL_LO_ST_LO, F.SEQ_STALL_HI_ST_HI, F.SEQ_REFETCH_COUNT, F.SMUW_JUMP_REQ_PENDING, F.SMUW_JUMP_REQ_JUMP_LATE,
  F.SITE_STATE_STATE, F.SITE_STATE_FINISHING, F.SITE_FAILVEC_COUNT, F.SITE_FSIG_FSIG, F.SITE_FAILSTORED_COUNT,
  F.CH_FAILCNT_COUNT, F.CH_FIRSTFAIL_LO_VEC_LO, F.CH_FIRSTFAIL_HI_VEC_HI, F.TCAL_GEN_COUNT, H.CH_DSK_USE_DRV,
  H.CH_DSK_USE_CMP, H.SQ_START_ENTRY, H.SQ_START_BY, H.SQ_START_WORD, H.SQ_START_AT, H.SQ_VPOS, H.SQ_DECIDED_JUMP,
  H.SQ_DECIDED_END, H.SQ_TSET_PIN, H.SQ_TRIG_PIN, H.SQ_T_FIRST, H.SQ_CHAINED, H.SQ_ENTRY_BAD, H.ST_SITE_FAIL,
  H.ST_MARK_FAIL, H.ST_GFAIL, H.ST_FIRST_FAIL, H.ST_FAIL_LIMIT, H.ST_FAIL_OVF, H.ST_PUSHED, H.ST_PUSH_WAIT,
  H.ST_TRIPPED, H.ST_TASKS_CUT, H.ST_IS_RETEST, H.ST_NEXT, H.ST_HALTED, H.ST_TRIG_ARR, H.ST_ACCEPT_T,
  H.ENG_START_PEND, H.SW_STARTED, H.TPH_SITE_CORR, H.TDC_FACT1, H.TDC_FACT2, H.SQ_SRC_NEXT, H.ST_THR, H.CAL_MADE]

/-- What every warm reset can write: the registers and the rest of whole blocks, and single fields of others. -/
def warmFields : List Field :=
 fieldsOf regsCSP ++ fieldsOf regsIRQ ++ fieldsOf regsSEQ ++ fieldsOf regsPAN ++ fieldsOf regsENG ++
  fieldsOf [.RST_SOFT, .RST_WDOG_CTL, .BOOT_REASON, .SITE_TSTAT, .FLT_INJ, .SEC_RB_COMMIT, .SEC_LC_REQ, .SEC_PROV_CMD,
  .SEC_WIPE, .SEC_DBG_CTRL, .MBX_HOST_RXEP, .MBX_HOST_DB, .CMDQ_STAT, .MBX_ENG_STAT, .SEM_ACQ, .SEM_PEEK, .SEM_FORCE,
  .STL_STAT, .CFG_STAT, .CFG_ROLLBACK, .TRIM_STAT, .CONTACT_CTL, .LVL_LOAD_STAT, .ACQ_CFG, .ACQ_BUF_HI, .ACQ_STAT,
  .ACQ_COUNT, .PMU_RESULT, .DPS_RES_STAT, .SMU_RES_STAT, .TDC_CFG, .TDC_THR, .TDC_AUX, .TDC_STAT, .TDC_CNT_A,
  .TDC_CNT_B, .TDC_DSK, .TCAL_OWN_UNIT] ++ [F.RST_WARM_COUNT_COUNT, F.RST_WDOG_KICK_KICK, F.BOOT_ATTEMPT_FROM_FLASH,
  F.BOOT_TIME_TIME_US, F.WARM_HELD_LO_HELD, F.WARM_HELD_HI_HELD, F.TRIG_FIRE_LO_F_LO, F.TRIG_FIRE_HI_F_HI,
  F.TRIG_STAT_ARMED, F.TRIG_ACC_CTRL_EN, F.SITE_TCTRL_ACTIVE, F.THM_LOG_STAT_COMMIT_PEND, F.THM_LOG_STAT_ERASE_SKIP,
  F.THM_LOG_STAT_FREE, F.THM_LOG_SEQ_SEQ, F.THM_TEMP_FORCED, F.FLT_SUM_ACTIVE, F.FLT_SUM_BUSY, F.FLT_SUM_MERGED,
  F.FLT_SUM_ESCALATED, F.FLT_ACK_SOURCE, F.SEC_STAT_KEY_LOADED, F.SEC_STAT_BUSY, F.SEC_STAT_PROG_RES,
  F.SEC_STAT_IMAGE_SLOT, F.SEC_STAT_SELF_SIGNED, F.SEC_TAMPER_CFG_KEY_CLEAR, F.SEC_PROV_DATA_WORD,
  F.SEC_DBG_TOKEN_OFFSET, F.SEC_FW_VER_VERSION, F.GPIO_OUT_OUT, F.GPIO_OE_OE, F.GPIO_FUNC_LED31, F.MBX_HOST_RX_WORD,
  F.MBX_HOST_TX_WORD, F.MBX_HOST_STAT_RX_COUNT, F.MBX_HOST_STAT_FLUSHED, F.MBX_HOST_FLUSH_COUNT, F.MBX_EPOCH_HEARTH,
  F.MBX_ENG_TX_WORD, F.MBX_ENG_RX_WORD, F.MBX_ENG_DB_RING, F.SEM_CONTEST_COUNT, F.SPD_STAT_WIPING, F.SPD_STAT_WIPED,
  F.STL_CTRL_EN, F.STL_STEALS_LO_N_LO, F.STL_STEALS_HI_N_HI, F.STL_FULL_COUNT, F.PORCH_CTRL_RETRAIN,
  F.CFG_VERSION_IMAGE_VERSION, F.CFG_DIR_GEN_GEN, F.MODE_STAT_MODE, F.MODE_STAT_TRANSIT, F.MODE_STAT_TARGET,
  F.MODE_STAT_PREV_MODE, F.MODE_STAT_REMOVE_READY, F.MODE_STAT_ACTIVE_SITES, F.MODE_ENTRY_LO_TS_LO,
  F.MODE_ENTRY_HI_TS_HI, F.CFG_PART_ID_PART_ID, F.CEL_CFG_READY, F.ACQ_CTRL_ARM, F.ACQ_CTRL_FORCE, F.ACQ_CTRL_CANCEL,
  F.ACQ_CTRL_STATE, F.ACQ_PRE_N, F.ACQ_POST_N, F.ACQ_BUF_LO_BASE_LO, F.ACQ_LEVEL_CODE, F.ACQ_HYST_CODE,
  F.ACQ_TTIME_LO_T_LO, F.ACQ_TTIME_HI_T_HI, F.ACQ_TRIG_TS_LO_TS_LO, F.ACQ_TRIG_TS_HI_TS_HI, F.ACQ_WR_IDX_IDX,
  F.ACQ_FIRST_IDX_IDX, F.CH_FAILCNT_COUNT, F.CH_FIRSTFAIL_LO_VEC_LO, F.CH_FIRSTFAIL_HI_VEC_HI, F.PMU_CTRL_MEAS,
  F.PMU_CTRL_BUSY, F.PMU_CTRL_RANGING, F.CH_DSK_PEND, F.DPS_VSET_VALUE, F.DPS_MEAS_MEAS, F.DPS_MEAS_BUSY,
  F.DPS_RES_V_VALUE, F.DPS_RES_I_VALUE, F.SMU_CTRL_SRC, F.SMU_SET_VALUE, F.SMU_MEAS_MEAS, F.SMU_MEAS_BUSY,
  F.SMU_RES_V_VALUE, F.SMU_RES_I_VALUE, F.TDC_CTRL_ARM, F.TDC_CTRL_DISARM, F.TDC_CTRL_ARMED, F.TDC_CTRL_OPEN,
  F.TDC_CTRL_BAND_PEND, F.TDC_CTRL_STALE, F.TDC_GATE_GATE_N, F.TDC_RING_BASE_LO_BASE_LO, F.TDC_RING_BASE_HI_BASE_HI,
  F.TDC_RING_SIZE_LOG2, F.TDC_ACC_LO_N_LO, F.TDC_ACC_HI_N_HI, F.TDC_DROP_COUNT, F.TDC_DEAD_COUNT, F.TDC_CALOLD_COUNT,
  F.TDC_NVAL_COUNT, F.TDC_MIN_MIN, F.TDC_MAX_MAX, F.TDC_SUM_LO_S_LO, F.TDC_SUM_HI_S_HI, F.TDC_LAST_LO_V_LO,
  F.TDC_LAST_HI_V_HI, F.TDC_WR_LO_WR_LO, F.TDC_WR_HI_WR_HI, F.TCAL_OWN_LO_CH, F.TCAL_OWN_HI_CH, F.TCAL_PEND_UNIT_TDC,
  F.TCAL_PEND_UNIT_MON, H.CH_PMU_MEAS_END, H.CH_PMU_MEAS_WAIT, H.CH_SETTLE_END, H.CH_SETTLE_END1, H.CH_BANK_END,
  H.CH_BANK_NOW, H.CH_CAL_OWNED, H.CH_CMASK, H.SQ_PLAYING, H.SQ_WAIT, H.SQ_START_ENTRY, H.SQ_START_BY,
  H.SQ_START_WORD, H.SQ_START_AT, H.SQ_HOLD_END, H.SQ_VPOS, H.SQ_DECIDED_JUMP, H.SQ_DECIDED_END, H.SQ_PAUSE_REQ,
  H.SQ_STOP_REQ, H.SQ_CHAIN_PAUSED, H.SQ_STALL_N, H.SQ_STALL_VEC, H.SQ_STALL_TS, H.SQ_STALL_T0, H.SQ_TSET_PIN,
  H.SQ_TRIG_PIN, H.SQ_MK0, H.SQ_MK1, H.SQ_PERIOD, H.SQ_NEXT_T, H.SQ_NEWCHAIN, H.SQ_T_FIRST, H.SQ_T_END, H.SQ_CHAINED,
  H.SQ_ENTRY_BAD, H.ST_SITE_FAIL, H.ST_MARK_FAIL, H.ST_GFAIL, H.ST_FIRST_FAIL, H.ST_FAIL_LIMIT, H.ST_FAIL_OVF,
  H.ST_PUSHED, H.ST_PUSH_WAIT, H.ST_REC_LOST, H.ST_TRIPPED, H.ST_TASKS_CUT, H.ST_CAUSE, H.ST_BIN_FORCE,
  H.ST_IS_RETEST, H.ST_NEXT, H.ST_OUT_SAFE, H.ST_HALT_T, H.ST_HALTED, H.ST_TRIG_ARR, H.ST_ACCEPT_T, H.ENG_SITE,
  H.ENG_FLAGS, H.ENG_RESULT, H.ENG_RESSTAT, H.ENG_BIN, H.ENG_TNOW_HI, H.ENG_VEC_HI, H.ENG_TCAUSE, H.ENG_ATOM_N,
  H.ENG_WAIT, H.ENG_WAIT_UNIT, H.ENG_WAIT_QTY, H.ENG_WAIT_END, H.ENG_WAIT_DONE, H.ENG_TASK_SITE, H.ENG_TASK_RUN,
  H.ENG_TASK_DEQUE, H.ENG_TASK_T0, H.ENG_ABORT, H.ENG_ABORT_END, H.ENG_START_PEND, H.ENG_START_CUT, H.ENG_STEPPING,
  H.ENG_STAGE, H.ENG_G, H.ENG_L, H.ENG_RSTK, H.ENG_FRAME, H.DPS_POINT, H.DPS_PT_T, H.DPS_MEAS_LEFT, H.DPS_SUM_V,
  H.DPS_SUM_I, H.DPS_ACC_LIM, H.DPS_ACC_OVER, H.DPS_CAL_OWNED, H.SMU_MEAS_LEFT, H.SMU_SUM_V, H.SMU_SUM_I,
  H.SMU_ACC_LIM, H.SMU_ACC_OVER, H.SMU_CAL_OWNED, H.SW_NEXT_T, H.SW_POS, H.SW_PASS, H.SW_JUMP, H.SW_DECIDED,
  H.SW_STALL_N, H.SW_STALL_VEC, H.SW_STALL_TS, H.SW_STALL_T0, H.SW_STARTED, H.SW_SAMPLES, H.PD_PANTRY, H.PD_ENG,
  H.PD_CELLAR, H.BOOT_PHASE, H.BOOT_T0, H.RST_T0, H.RST_SOFT_DUE, H.WDOG_T0, H.WDOG_HALF_SEEN, H.WARM_HOLD_END,
  H.HDR_WARM_HOLD_MS, H.HDR_WDOG_MS, H.HDR_CONTACT, H.CONTACT_END, H.STAT_LED, H.MODE_END, H.MODE_CAUSE, H.MODE_SRC,
  H.MODE_TAG, H.CAL_FROM, H.UNAVAIL, H.REMOVE_WAIT, H.FLT_END, H.FLT_SEQ, H.FLT_SITE, H.FLT_TILE, H.THM_LOG_STEP,
  H.THM_LOG_NEXT_T, H.TRIG_LEFT, H.TRIG_NEXT_T, H.WIPE_END, H.PAN_RR, H.PAN_INVAL_END, H.STL_OFF_PEND, H.TDC_T1,
  H.TDC_T2, H.TDC_INTERP, H.TDC_PAIR1, H.TDC_PAIR2, H.TDC_DEADN, H.TDC_OVRN, H.TDC_EPOCH_P, H.TDC_DIS_P,
  H.TDC_START_P, H.TDC_START_U, H.TDC_START_AT, H.TDC_GATE_ON, H.TDC_GATE_U, H.TDC_GATE_CNT, H.TDC_GATE_BAD,
  H.TDC_THR_T, H.TDC_ARM_T, H.TDC_OPEN_DUE, H.TDC_CAL_OWNED, H.TDC_TRIM, H.ACQ_N, H.ACQ_NEXT, H.ACQ_T_FIRST,
  H.ACQ_TRIG_N, H.ACQ_LEFT, H.ACQ_KIND, H.ACQ_EXACT, H.ACQ_LVL_OK, H.ACQ_RANGED_P, H.ACQ_FORCE_P, H.ACQ_SETUP,
  H.ACQ_LVL, H.ACQ_DROPPED, H.ACQ_DROP_P, H.ACQ_FLAGS, H.ACQ_XTRA, H.ACQ_PUSH_WAIT, H.ACQ_RUN, H.ENG_TASK_D,
  H.ENG_TASK_RAN, H.ENG_FW_UNIT, H.ENG_FW_QTY, H.ENG_FW_IMM, H.ENG_WAIT_IMM, H.ENG_LD_ON, H.ENG_NEXT, H.ENG_PRE_STOP,
  H.ENG_BRK_SKIP, H.ENG_WAIT_IDX, H.ENG_FW_NEXT, H.ENG_FW_IDX, H.ENG_FW_PC, H.SQ_SRC_NEXT, H.ST_THR, H.SITE_FREE,
  H.WAS_WARM, H.HEL_T0, H.HEL_N, H.REMOVE_SRC, H.REMOVE_TAG, H.SEC_PROG_BLK, H.SEC_PROG_D, H.SEC_PROG_END,
  H.SEC_PROG_LC, H.SEC_UNLOCK_END, H.SEC_SPOIL, H.IMG_USABLE, H.CORE0_HALT, H.CSP_T0, H.CSP_GAP_T, H.CSP_LOST,
  H.CSP_ABT, H.BIND_LOST, H.DPS_SAMP_T, H.SMU_SAMP_T, H.SMU_MOD_T, H.DPS_MEAS_N, H.SMU_MEAS_N]

/-- A command that can reach any register through an address, or that takes the machine out of reset or into a standby that
may build all of it again: nothing is said of its fields. -/
def anyField : Instr → Bool
  | .standbyEntry _ => true
  | .controlStoreWrite _ _ _ _ _ => true
  | .regRd _ _ => true
  | .regWr _ _ => true
  | .blkRd _ _ _ => true
  | .blkWr _ _ _ => true
  | .regWrite _ _ _ => true
  | .por => true
  | .bor => true
  | _ => false

/-- The fields that a command may write, some instance of them. -/
def rowFields : Instr → List Field
  | .pin _ =>
   warmFields ++ [F.RST_CAUSE_PIN]
  | .clkfail _ =>
   warmFields ++ [F.RST_CAUSE_CLKFAIL, F.TB_EPOCH_EPOCH, F.SYNC_STAT_UNSYNCED, F.SYNC_STAT_REF_LOST, H.TB_ORIGIN,
    H.TB_EPOCH_SEEN, H.TB_RELOAD]
  | .rstSoft _ _ | .soft =>
   warmFields ++ [F.RST_CAUSE_SOFT]
  | .wdogStart _ _ =>
   fieldsOf [.RST_WDOG_CTL] ++ [H.WDOG_T0, H.WDOG_HALF_SEEN]
  | .rstWdogKick _ _ =>
   [H.WDOG_T0, H.WDOG_HALF_SEEN]
  | .standbyEntry _ | .siteUnbind _ _ | .cmd _ _ | .controlStoreWrite _ _ _ _ _ | .calStop _ _ | .status _
  | .regRd _ _ | .regWr _ _ | .blkRd _ _ _ | .blkWr _ _ _ | .flashWr _ _ _ | .flashErase _ _ _ | .mbxRead _ _ _
  | .reservedOpcode _ _ | .fuseRead _ _ | .fuseOr _ _ _ | .versionRead _ | .mbxHostTx _ _ _ | .mbxEngRx _ _
  | .regWrite _ _ _ | .flashOperationDone _ | .por | .bor =>
    []
  | .contactCheckDone _ =>
   cellarFields ++ fieldsOf [.SEQ_UNDERRUN, .SITE_BIN, .CH_DSK, .TDC_DSK, .TCAL_TJ] ++ [F.STL_CTRL_EN,
    F.CONTACT_CTL_BUSY, F.CONTACT_CTL_DONE, F.SEQ_START_ENTRY, F.SEQ_START_TMO_TMO_MS, F.SITE_STATE_STATE,
    F.SITE_STATE_STEAL_EN, F.SITE_STATE_END_SAFE, F.SITE_STATE_ENGINE, F.SITE_STATE_TILE, F.SITE_RUN_RUN,
    F.SITE_REC_WR_LO_WR_LO, F.SITE_REC_WR_HI_WR_HI, F.SITE_REC_LOST_LOST, F.ACQ_CTRL_SITE, F.ACQ_CTRL_BOUND,
    F.CH_CTRL_DRV_EN, F.CH_CTRL_PAIR, F.CH_CTRL_SITE, F.CH_CTRL_BOUND, F.PMU_CTRL_CONNECT, F.DPS_CTRL_SITE,
    F.DPS_CTRL_BOUND, F.DPS_CTRL_LEAD, F.DPS_CTRL_MEMBERS, F.SMU_CTRL_SITE, F.SMU_CTRL_BOUND, F.TDC_CTRL_SITE,
    F.TDC_CTRL_BOUND, F.TCAL_GEN_COUNT, F.ENG_CTRL_STEAL_EN, F.ENG_STAT_STATE, F.ENG_STAT_PC, F.ENG_STAT_DEPTH,
    F.ENG_STAT_RSP, F.ENG_STAT_AUTORUN, F.ENG_CEL_BASE_LO_BASE_LO, F.ENG_CEL_BASE_HI_BASE_HI, H.CH_DRV_ON,
    H.CH_TERM_ON, H.CH_PMU_ON, H.CH_PMU_SW_END, H.CH_SETTLE_END, H.CH_SETTLE_END1, H.CH_DSK_USE_DRV, H.CH_DSK_USE_CMP,
    H.ENG_SITE, H.ENG_RESULT, H.ENG_RESSTAT, H.ENG_ATOM_N, H.ENG_WAIT, H.ENG_WAIT_END, H.MON_MEM_BOUND,
    H.MON_MEM_SITE, H.HDR_CONTACT, H.CONTACT_END, H.STAT_LED, H.TPH_SITE_CORR, H.STL_OFF_PEND, H.TDC_FACT1,
    H.TDC_FACT2, H.ENG_LD_ON, H.ENG_PRE_STOP, H.CAL_MADE]
  | .contactCtlStart _ _ =>
   [F.CONTACT_CTL_BUSY, F.CONTACT_CTL_DONE, F.CONTACT_CTL_REFUSED, H.CONTACT_END]
  | .mode _ _ =>
   irqFields ++ flitFields ++ fieldsOf [.CEL_ECC_ADDR_HI] ++ [F.FLT_STAT_STICKY, F.FLT_SUM_ACTIVE, F.FLT_SUM_BUSY,
    F.FLT_SUM_MERGED, F.FLT_SUM_ESCALATED, F.FLT_LOG_WR_COUNT, F.PORCH_STAT_STATE, F.MODE_STAT_TRANSIT,
    F.MODE_STAT_TARGET, F.CEL_ECC_CORR_COUNT, F.CEL_ECC_UNCORR_COUNT, F.CEL_ECC_ADDR_LO_ADDR_LO,
    F.CEL_CLS_BYTES_LO_B_LO, F.CEL_CLS_BYTES_HI_B_HI, F.ACQ_CTRL_STATE, F.ACQ_STAT_CANCELLED, F.TDC_CTRL_ARMED,
    F.TDC_CTRL_OPEN, F.TDC_CTRL_BAND_PEND, F.TDC_STAT_RING_FULL, F.TDC_WR_LO_WR_LO, F.TDC_WR_HI_WR_HI, H.MODE_END,
    H.MODE_CAUSE, H.MODE_SRC, H.MODE_TAG, H.FLT_END, H.FLT_SEQ, H.FLT_SITE, H.FLT_TILE, H.TDC_OVRN, H.TDC_EPOCH_P,
    H.TDC_DIS_P, H.TDC_START_P, H.TDC_GATE_ON, H.TDC_OPEN_DUE, H.TDC_TRIM, H.ACQ_FORCE_P, H.PO_DREQ, H.PO_DPEND]
  | .wake _ =>
   [F.MODE_STAT_TRANSIT, F.MODE_STAT_TARGET, H.MODE_END, H.MODE_CAUSE, H.PO_STEP, H.PO_INFO, H.PO_WAKE_END, H.PO_FULL]
  | .chimneySample _ =>
   wordFields ++ acqFields ++ fieldsOf regsCSP ++ fieldsOf regsIRQ ++ fieldsOf regsSEQ ++ fieldsOf regsPAN ++
    fieldsOf regsENG ++ fieldsOf [.RST_SOFT, .RST_WDOG_CTL, .SITE_TSTAT, .THM_STAT, .THM_LOG_STAT, .THM_BAND,
    .FLT_INJ, .SEC_RB_COMMIT, .SEC_LC_REQ, .SEC_PROV_CMD, .SEC_WIPE, .SEC_DBG_CTRL, .MBX_HOST_RXEP, .MBX_HOST_DB,
    .SEM_ACQ, .SEM_FORCE, .CFG_STAT, .CFG_ROLLBACK, .TRIM_STAT, .CONTACT_CTL, .LVL_LOAD_STAT, .ACQ_CFG, .ACQ_BUF_HI,
    .PMU_RESULT, .DPS_RES_STAT, .SMU_RES_STAT, .TDC_CFG, .TDC_THR, .TDC_AUX, .TDC_STAT, .TDC_CNT_A, .TDC_CNT_B,
    .TDC_DSK, .TCAL_OWN_UNIT] ++ [F.RST_WDOG_KICK_KICK, F.BOOT_ATTEMPT_FROM_FLASH, F.BOOT_REASON_CODE,
    F.BOOT_REASON_OUTCOME, F.BOOT_REASON_SLOT, F.BOOT_REASON_TRIM_RETRY, F.BOOT_REASON_FLASH_WR_SKIP,
    F.BOOT_REASON_STEP, F.BOOT_TIME_TIME_US, F.SKEW_CAL_DRIFT, F.TRIG_FIRE_LO_F_LO, F.TRIG_FIRE_HI_F_HI,
    F.TRIG_STAT_ARMED, F.TRIG_ACC_CTRL_EN, F.SITE_TCTRL_ACTIVE, F.THM_BROKEN_LO_SENS, F.THM_BROKEN_HI_SENS,
    F.THM_THR_EPISODES, F.THM_THR_MS_MS, F.THM_TMAX_MAX, F.THM_LOG_SEQ_SEQ, F.THM_SHUT_REC_BYTES,
    F.THM_BAND_CNT_COUNT, F.THM_TEMP_READING, F.THM_TEMP_BROKEN, F.THM_TEMP_CAUSE, F.FLT_ACK_SOURCE,
    F.SEC_STAT_KEY_LOADED, F.SEC_STAT_BUSY, F.SEC_STAT_PROG_RES, F.SEC_STAT_IMAGE_SLOT, F.SEC_STAT_SELF_SIGNED,
    F.SEC_TAMPER_CFG_KEY_CLEAR, F.SEC_PROV_DATA_WORD, F.SEC_DBG_TOKEN_OFFSET, F.SEC_FW_VER_VERSION, F.GPIO_OUT_OUT,
    F.GPIO_OE_OE, F.GPIO_FUNC_LED31, F.MBX_HOST_RX_WORD, F.MBX_HOST_TX_WORD, F.MBX_HOST_STAT_RX_COUNT,
    F.CMDQ_STAT_OUTSTANDING, F.MBX_ENG_TX_WORD, F.MBX_ENG_RX_WORD, F.MBX_ENG_STAT_TX_COUNT, F.MBX_ENG_STAT_RX_COUNT,
    F.MBX_ENG_STAT_TX_FULL, F.MBX_ENG_STAT_RX_EPOCH, F.MBX_ENG_DB_RING, F.SEM_PEEK_PTR, F.SEM_CONTEST_COUNT,
    F.SPD_STAT_WIPED, F.STL_CTRL_EN, F.STL_STAT_BUSY, F.PORCH_CTRL_RETRAIN, F.PORCH_STAT_STATE,
    F.CFG_VERSION_IMAGE_VERSION, F.CFG_DIR_GEN_GEN, F.MODE_STAT_MODE, F.MODE_STAT_TRANSIT, F.MODE_STAT_TARGET,
    F.MODE_STAT_THROTTLE, F.MODE_STAT_WARN, F.MODE_STAT_PREV_MODE, F.MODE_STAT_REMOVE_READY, F.MODE_STAT_ACTIVE_SITES,
    F.MODE_ENTRY_LO_TS_LO, F.MODE_ENTRY_HI_TS_HI, F.CFG_PART_ID_PART_ID, F.ACQ_CTRL_ARM, F.ACQ_CTRL_FORCE,
    F.ACQ_CTRL_CANCEL, F.ACQ_PRE_N, F.ACQ_POST_N, F.ACQ_BUF_LO_BASE_LO, F.ACQ_LEVEL_CODE, F.ACQ_HYST_CODE,
    F.ACQ_TTIME_LO_T_LO, F.ACQ_TTIME_HI_T_HI, F.ACQ_STAT_CANCELLED, F.ACQ_TRIG_TS_LO_TS_LO, F.ACQ_TRIG_TS_HI_TS_HI,
    F.ACQ_WR_IDX_IDX, F.ACQ_COUNT_EXTRA, F.CH_CTRL_DRV_EN, F.CH_FAILCNT_COUNT, F.CH_FIRSTFAIL_LO_VEC_LO,
    F.CH_FIRSTFAIL_HI_VEC_HI, F.PMU_CTRL_CONNECT, F.PMU_CTRL_MEAS, F.PMU_CTRL_BUSY, F.PMU_CTRL_RANGING, F.CH_DSK_PEND,
    F.DPS_CTRL_EN, F.DPS_STAT_ON, F.DPS_STAT_SETTLED, F.DPS_STAT_IN_LIMIT, F.DPS_MEAS_MEAS, F.DPS_MEAS_BUSY,
    F.DPS_RES_V_VALUE, F.DPS_RES_I_VALUE, F.SMU_CTRL_EN, F.SMU_CTRL_SRC, F.SMU_SET_VALUE, F.SMU_STAT_CLOSED,
    F.SMU_STAT_IN_COMP, F.SMU_MEAS_MEAS, F.SMU_MEAS_BUSY, F.SMU_RES_V_VALUE, F.SMU_RES_I_VALUE, F.TDC_CTRL_ARM,
    F.TDC_CTRL_DISARM, F.TDC_CTRL_ARMED, F.TDC_CTRL_OPEN, F.TDC_CTRL_BAND_PEND, F.TDC_CTRL_STALE, F.TDC_GATE_GATE_N,
    F.TDC_RING_BASE_LO_BASE_LO, F.TDC_RING_BASE_HI_BASE_HI, F.TDC_RING_SIZE_LOG2, F.TDC_ACC_LO_N_LO,
    F.TDC_ACC_HI_N_HI, F.TDC_DROP_COUNT, F.TDC_DEAD_COUNT, F.TDC_CALOLD_COUNT, F.TDC_NVAL_COUNT, F.TDC_MIN_MIN,
    F.TDC_MAX_MAX, F.TDC_SUM_LO_S_LO, F.TDC_SUM_HI_S_HI, F.TDC_LAST_LO_V_LO, F.TDC_LAST_HI_V_HI, F.TDC_WR_LO_WR_LO,
    F.TDC_WR_HI_WR_HI, F.TCAL_OWN_LO_CH, F.TCAL_OWN_HI_CH, F.TCAL_PEND_UNIT_TDC, F.TCAL_PEND_UNIT_MON,
    F.TCAL_STAT_DRIFT, H.CH_DRV_ON, H.CH_TERM_ON, H.CH_PMU_ON, H.CH_PMU_SW_END, H.CH_PMU_MEAS_END, H.CH_PMU_MEAS_WAIT,
    H.CH_CAL_OWNED, H.CH_CMASK, H.SQ_START_ENTRY, H.SQ_START_BY, H.SQ_START_WORD, H.SQ_START_AT, H.SQ_VPOS,
    H.SQ_DECIDED_JUMP, H.SQ_DECIDED_END, H.SQ_STALL_N, H.SQ_STALL_VEC, H.SQ_STALL_TS, H.SQ_STALL_T0, H.SQ_TSET_PIN,
    H.SQ_TRIG_PIN, H.SQ_PERIOD, H.SQ_NEXT_T, H.SQ_NEWCHAIN, H.SQ_T_FIRST, H.SQ_CHAINED, H.SQ_ENTRY_BAD,
    H.ST_SITE_FAIL, H.ST_MARK_FAIL, H.ST_GFAIL, H.ST_FIRST_FAIL, H.ST_FAIL_LIMIT, H.ST_FAIL_OVF, H.ST_PUSHED,
    H.ST_PUSH_WAIT, H.ST_TRIPPED, H.ST_TASKS_CUT, H.ST_IS_RETEST, H.ST_NEXT, H.ST_ACCEPT_T, H.ENG_SITE, H.ENG_STAGE,
    H.DPS_POINT, H.DPS_PT_T, H.DPS_HELD, H.DPS_MEAS_LEFT, H.DPS_SUM_V, H.DPS_SUM_I, H.DPS_ACC_LIM, H.DPS_ACC_OVER,
    H.DPS_CAL_OWNED, H.DPS_DISCH, H.SMU_SW_END, H.SMU_MEAS_LEFT, H.SMU_SUM_V, H.SMU_SUM_I, H.SMU_ACC_LIM,
    H.SMU_ACC_OVER, H.SMU_CAL_OWNED, H.SMU_DAC0, H.SMU_STAGE, H.SW_NEXT_T, H.SW_POS, H.SW_PASS, H.SW_JUMP,
    H.SW_DECIDED, H.SW_STALL_N, H.SW_STALL_VEC, H.SW_STALL_TS, H.SW_STALL_T0, H.SW_STARTED, H.SW_SAMPLES, H.PD_CORE,
    H.PD_PANTRY, H.PD_H0, H.PD_H123, H.PD_ENG, H.PD_CELLAR, H.PD_FABRIC, H.PD_PORCH, H.PD_TILE, H.PD_TILE_BARRED,
    H.RST_SOFT_DUE, H.WDOG_T0, H.WDOG_HALF_SEEN, H.WARM_HOLD_END, H.HDR_WARM_HOLD_MS, H.HDR_WDOG_MS, H.HDR_CONTACT,
    H.CONTACT_END, H.STAT_LED, H.MODE_END, H.MODE_CAUSE, H.MODE_SRC, H.MODE_TAG, H.CAL_FROM, H.UNAVAIL, H.REMOVE_WAIT,
    H.THM_IMPL, H.THM_SEEN, H.THM_THR_T0, H.THM_THR_PEAK, H.THM_THR_REC, H.THM_BRK_REC, H.THM_TILE_REC, H.THM_LSEQ,
    H.THM_HOLD_T0, H.THM_SLOT, H.THM_LOG_STEP, H.THM_NEXT_T, H.THM_LOG_NEXT_T, H.TRIG_LEFT, H.TRIG_NEXT_T, H.WIPE_END,
    H.CEL_FACTOR, H.PAN_RR, H.PAN_INVAL_END, H.STL_OFF_PEND, H.TDC_T1, H.TDC_T2, H.TDC_INTERP, H.TDC_PAIR1,
    H.TDC_PAIR2, H.TDC_DEADN, H.TDC_OVRN, H.TDC_EPOCH_P, H.TDC_DIS_P, H.TDC_START_P, H.TDC_START_U, H.TDC_START_AT,
    H.TDC_GATE_ON, H.TDC_GATE_U, H.TDC_GATE_CNT, H.TDC_GATE_BAD, H.TDC_THR_T, H.TDC_ARM_T, H.TDC_OPEN_DUE,
    H.TDC_CAL_OWNED, H.TDC_TRIM, H.ACQ_N, H.ACQ_NEXT, H.ACQ_T_FIRST, H.ACQ_TRIG_N, H.ACQ_LEFT, H.ACQ_KIND,
    H.ACQ_EXACT, H.ACQ_LVL_OK, H.ACQ_RANGED_P, H.ACQ_FORCE_P, H.ACQ_SETUP, H.ACQ_LVL, H.ACQ_DROPPED, H.ACQ_DROP_P,
    H.ACQ_XTRA, H.ACQ_RUN, H.SQ_SRC_NEXT, H.ST_THR, H.SITE_FREE, H.PO_STEP, H.PO_INFO, H.PO_WAKE_END, H.PO_LANE_T,
    H.REMOVE_SRC, H.REMOVE_TAG, H.SEC_PROG_BLK, H.SEC_PROG_D, H.SEC_PROG_END, H.SEC_PROG_LC, H.SEC_UNLOCK_END,
    H.SEC_SPOIL, H.IMG_USABLE, H.CORE0_HALT, H.CSP_T0, H.CSP_GAP_T, H.CSP_LOST, H.CSP_ABT, H.BIND_LOST, H.DPS_SAMP_T,
    H.SMU_SAMP_T, H.SMU_MOD_T, H.DPS_MEAS_N, H.SMU_MEAS_N, H.PO_FULL]
  | .lanePresetUpdate _ =>
   [H.PO_LANE, H.PO_LANE_T]
  | .deferredStartRelease _ =>
   fieldsOf [.SEQ_CUR] ++ [F.SITE_TSTAT_TIMED_LATE, F.SITE_TSTAT_WAIT_START, F.SEQ_PASS_PASS, F.SEQ_SSTAT_CHAIN_DONE,
    F.SEQ_SSTAT_START_DEFERRED, H.SQ_WAIT, H.SQ_START_AT, H.SQ_HOLD_END, H.SQ_VPOS, H.SQ_DECIDED_JUMP,
    H.SQ_DECIDED_END, H.SQ_STOP_REQ, H.SQ_ENTRY_BAD, H.SQ_SRC_NEXT]
  | .startTimeout _ | .injectFault _ _ _ | .fltInj _ _ | .faultEscalation =>
   faultFields
  | .vectorBoundary _ _ =>
   faultFields ++ fieldsOf [.SEQ_ERR, .SEQ_SSTAT, .SEQ_MARK, .SMUW_CUR, .CH_DSK, .TDC_DSK, .TCAL_TJ] ++
    [F.TRIG_ARR_LO_A_LO, F.TRIG_ARR_HI_A_HI, F.TRIG_STAT_ARR_COUNT, F.TRIG_STAT_ACT_LATE, F.TRIG_STAT_OVERRUN,
    F.SITE_TCTRL_ACTIVE, F.SITE_TSTAT_EDGE_RANGE, F.SITE_TSTAT_EDGE_ORDER, F.SITE_TSTAT_TSET_COLL,
    F.SITE_TSTAT_RESTARTS, F.STL_FULL_COUNT, F.SEQ_CUR_ENTRY, F.SEQ_PASS_PASS, F.SEQ_JUMP_REQ_PENDING,
    F.SEQ_VEC_LO_VEC_LO, F.SEQ_VEC_HI_VEC_HI, F.SEQ_STALL_LO_ST_LO, F.SEQ_STALL_HI_ST_HI, F.SMUW_JUMP_REQ_PENDING,
    F.SITE_STATE_STATE, F.SITE_FAILVEC_COUNT, F.SITE_FSIG_FSIG, F.SITE_FAILSTORED_COUNT, F.PAN_UNDERRUN_COUNT,
    F.PAN_OVERBUDGET_COUNT, F.ACQ_CTRL_STATE, F.ACQ_TRIG_TS_LO_TS_LO, F.ACQ_TRIG_TS_HI_TS_HI, F.ACQ_COUNT_EXTRA,
    F.CH_STAT_FAIL, F.CH_STAT_CODE_ERR, F.CH_FAILCNT_COUNT, F.CH_FIRSTFAIL_LO_VEC_LO, F.CH_FIRSTFAIL_HI_VEC_HI,
    F.SMU_CTRL_SRC, F.TCAL_GEN_COUNT, H.CH_DRV_ON, H.CH_DRV_LVL, H.CH_TERM_ON, H.CH_DSK_USE_DRV, H.CH_DSK_USE_CMP,
    H.SQ_VPOS, H.SQ_DECIDED_JUMP, H.SQ_DECIDED_END, H.SQ_STALL_N, H.SQ_STALL_VEC, H.SQ_STALL_TS, H.SQ_STALL_T0,
    H.SQ_TSET_PIN, H.SQ_TRIG_PIN, H.SQ_PERIOD, H.SQ_NEXT_T, H.SQ_NEWCHAIN, H.SQ_T_FIRST, H.SQ_CHAINED, H.SQ_ENTRY_BAD,
    H.ST_SITE_FAIL, H.ST_MARK_FAIL, H.ST_GFAIL, H.ST_FIRST_FAIL, H.ST_FAIL_LIMIT, H.ST_FAIL_OVF, H.ST_PUSHED,
    H.ST_PUSH_WAIT, H.ST_TRIG_ARR, H.SW_NEXT_T, H.SW_POS, H.SW_PASS, H.SW_JUMP, H.SW_DECIDED, H.SW_STALL_N,
    H.SW_STARTED, H.SW_SAMPLES, H.TPH_SITE_CORR, H.TDC_FACT1, H.TDC_FACT2, H.TDC_OPEN_DUE, H.ACQ_TRIG_N, H.ACQ_LEFT,
    H.ACQ_KIND, H.ACQ_EXACT, H.ACQ_XTRA, H.CAL_MADE]
  | .stallLimitExpiry _ =>
   [H.SQ_STOP_REQ]
  | .lineDecodeDone _ _ =>
   faultFields ++ fieldsOf [.PAN_DECODE_ERR] ++ [F.MODE_STAT_TRANSIT, F.MODE_STAT_TARGET, H.MODE_END, H.MODE_CAUSE,
    H.PO_STEP, H.PO_INFO, H.PO_WAKE_END, H.PO_FULL]
  | .panInval _ _ | .invalidationDone =>
   [F.PAN_INVAL_BUSY, H.PAN_INVAL_END]
  | .panCounterRead _ _ =>
   fieldsOf [.PAN_DECODE_ERR] ++ [F.PAN_UNDERRUN_COUNT, F.PAN_EVICT_COUNT, F.PAN_OVERBUDGET_COUNT]
  | .jumpReqWrite _ _ _ | .jumpReqCancel _ _ _ | .hostJump _ _ _ _ =>
   [F.SEQ_JUMP_REQ_PENDING, F.SEQ_JUMP_REQ_JUMP_LATE, F.SMUW_JUMP_REQ_PENDING, F.SMUW_JUMP_REQ_JUMP_LATE]
  | .smuWaveSample _ =>
   faultFields ++ fieldsOf [.SEQ_ERR, .SMUW_CUR] ++ [F.SEQ_SSTAT_TIMING_BROKEN, F.SEQ_SSTAT_DECODE_ERR,
    F.SEQ_SSTAT_WIDTH_ERR, F.SEQ_SSTAT_ENTRY_ERR, F.SEQ_SSTAT_UNDERRUNS, F.SMUW_JUMP_REQ_PENDING,
    F.PAN_UNDERRUN_COUNT, F.SMU_CTRL_SRC, F.SMU_SET_VALUE, F.SMU_STAT_CLAMP, H.SMU_DAC, H.SW_NEXT_T, H.SW_POS,
    H.SW_PASS, H.SW_JUMP, H.SW_DECIDED, H.SW_STALL_N, H.SW_STALL_VEC, H.SW_STALL_TS, H.SW_STALL_T0, H.SW_SAMPLES]
  | .timedStart _ =>
   [F.SITE_TSTAT_WAIT_START, F.SEQ_SSTAT_START_DEFERRED, H.SQ_PLAYING, H.SQ_WAIT, H.SQ_HOLD_END, H.SQ_CHAIN_PAUSED,
    H.SQ_PERIOD, H.SQ_NEXT_T, H.SQ_NEWCHAIN, H.SQ_CHAINED]
  | .tilePhaseMeasure _ _ _ =>
   irqFields ++ fieldsOf [.TPH_STAT] ++ [F.TPH_CORR_CORR, H.TPH_SITE_CORR]
  | .chipOffsetWrite _ _ =>
   fieldsOf [.SKEW_CAL] ++ [F.CHIP_OFFSET_OFFSET]
  | .trigFire _ _ _ =>
   [F.TRIG_FIRE_LO_F_LO, F.TRIG_STAT_FIRE_LATE, F.TRIG_STAT_ARMED, H.TRIG_LEFT, H.TRIG_NEXT_T]
  | .trigEmit _ =>
   irqFields ++ [F.TRIG_ARR_LO_A_LO, F.TRIG_ARR_HI_A_HI, F.TRIG_STAT_ARR_COUNT, F.TRIG_STAT_ACT_LATE,
    F.TRIG_STAT_OVERRUN, F.TRIG_STAT_ARMED, H.ST_TRIG_ARR, H.TRIG_LEFT, H.TRIG_NEXT_T]
  | .trigArrival _ _ =>
   irqFields ++ fieldsOf [.TRIG_ACC_CNT] ++ [F.TRIG_ARR_LO_A_LO, F.TRIG_ARR_HI_A_HI, F.TRIG_STAT_ARR_COUNT,
    F.TRIG_STAT_ACT_LATE, F.TRIG_STAT_OVERRUN, F.TRIG_ACC_SUM_SUM, H.ST_TRIG_ARR, H.TRIG_ACC_STOP, H.TRIG_ACC_K]
  | .trigAction _ =>
   [F.SITE_TSTAT_TIMED_LATE, F.ACQ_CTRL_STATE, F.ACQ_TRIG_TS_LO_TS_LO, F.ACQ_TRIG_TS_HI_TS_HI, F.ACQ_COUNT_EXTRA,
    H.SQ_WAIT, H.SQ_START_AT, H.TDC_OPEN_DUE, H.ACQ_TRIG_N, H.ACQ_LEFT, H.ACQ_KIND, H.ACQ_EXACT, H.ACQ_XTRA]
  | .trigAccEnable _ _ _ =>
   fieldsOf [.TRIG_ACC_CTRL] ++ [F.TRIG_ACC_SUM_SUM, F.TRIG_ACC_CNT_CNT, H.TRIG_ACC_STOP, H.TRIG_ACC_K]
  | .timingSetWrite _ _ _ =>
   fieldsOf [.TSET_PER] ++ [F.SITE_TSTAT_PER_CLAMP, F.TS_EDGE_TIME]
  | .chDskWrite _ _ _ =>
   fieldsOf [.CH_DSK] ++ [H.CH_DSK_USE_DRV, H.CH_DSK_USE_CMP]
  | .chCtrlWrite _ _ _ =>
   [F.CH_CTRL_DRV_EN, F.CH_CTRL_TERM_MODE, F.CH_CTRL_KEEP_MODE, F.CH_CTRL_CMP_MODE, F.CH_CTRL_PAIR, F.CH_CTRL_BANK,
    F.CH_CTRL_MASK, F.CH_STAT_TRIPPED, F.PMU_CTRL_CONNECT, H.CH_DRV_ON, H.CH_DRV_LVL, H.CH_TERM_ON, H.CH_PMU_ON,
    H.CH_PMU_SW_END, H.CH_SETTLE_END, H.CH_SETTLE_END1, H.CH_BANK_END, H.CH_BANK_NOW]
  | .levelWrite _ _ _ _ | .level _ _ _ _ _ _ =>
   [F.CH_STAT_LVL_CLAMP, F.CH_VIH0_VALUE, F.CH_VIL0_VALUE, F.CH_VOH0_VALUE, F.CH_VOL0_VALUE, F.CH_VT0_VALUE,
    F.CH_VIH1_VALUE, F.CH_VIL1_VALUE, F.CH_VOH1_VALUE, F.CH_VOL1_VALUE, F.CH_VT1_VALUE, H.CH_SETTLE_END,
    H.CH_SETTLE_END1]
  | .levelSettled _ =>
   [H.CH_SETTLE_END, H.CH_SETTLE_END1]
  | .pmuCtrlWrite _ _ _ | .pmuMeas _ _ _ =>
   [F.CH_STAT_TRIPPED, F.PMU_CTRL_MODE, F.PMU_CTRL_RANGE, F.PMU_CTRL_CONNECT, F.PMU_CTRL_AVG, F.PMU_CTRL_BUSY,
    F.PMU_CTRL_RANGING, F.PMU_RESULT_VALID, H.CH_DRV_ON, H.CH_TERM_ON, H.CH_PMU_SW_END, H.CH_PMU_RNG_END,
    H.CH_PMU_OLD_RANGE, H.CH_PMU_MEAS_END, H.CH_PMU_MEAS_WAIT]
  | .pmuConnectDone _ =>
   [H.CH_DRV_ON, H.CH_TERM_ON, H.CH_PMU_ON, H.CH_PMU_SW_END]
  | .pmuRangeDone _ =>
   [F.PMU_CTRL_RANGING, H.CH_PMU_RNG_END, H.CH_PMU_MEAS_END, H.CH_PMU_MEAS_WAIT]
  | .pmuMeasDone _ _ _ _ =>
   fieldsOf [.PMU_RESULT] ++ [F.CH_STAT_PMU_CLAMP, F.PMU_CTRL_BUSY, H.CH_PMU_MEAS_END, H.ENG_WAIT_DONE, H.ENG_FRAME]
  | .monitorCrossing _ _ _ =>
   faultFields ++ fieldsOf [.TDC_DSK, .TCAL_TJ] ++ [F.MODE_STAT_TRANSIT, F.MODE_STAT_TARGET, F.SMUW_CUR_PLAYING,
    F.SMUW_JUMP_REQ_PENDING, F.ACQ_CTRL_STATE, F.ACQ_TRIG_TS_LO_TS_LO, F.ACQ_TRIG_TS_HI_TS_HI, F.ACQ_COUNT_EXTRA,
    F.CH_CTRL_DRV_EN, F.CH_STAT_TRIP_SEEN, F.CH_STAT_TRIPPED, F.PMU_CTRL_CONNECT, F.CH_DSK_DSK_DRV, F.CH_DSK_DSK_CMP,
    F.DPS_CTRL_EN, F.DPS_STAT_TRIP_SEEN, F.DPS_STAT_ON, F.DPS_STAT_SETTLED, F.DPS_STAT_IN_LIMIT, F.DPS_STAT_TRIPPED,
    F.SMU_CTRL_EN, F.SMU_CTRL_SRC, F.SMU_SET_VALUE, F.SMU_STAT_TRIP_SEEN, F.SMU_STAT_CLOSED, F.SMU_STAT_IN_COMP,
    F.SMU_STAT_TRIPPED, F.MON_STAT_LATCH, F.MON_STAT_LATCH_HI, F.MON_STAT_LATCH_LO, F.MON_STAT_ARM_HI,
    F.MON_STAT_ARM_LO, F.MON_COUNT_CROSSINGS, F.MON_TRIP_TS_LO_TS_LO, F.MON_TRIP_TS_HI_TS_HI, F.TCAL_STAT_LAST_FLOW,
    F.TCAL_STAT_LAST_RES, F.TCAL_STAT_FAILS, F.TCAL_GEN_COUNT, H.CH_DRV_ON, H.CH_TERM_ON, H.CH_PMU_ON,
    H.CH_PMU_SW_END, H.CH_CAL_OWNED, H.CH_DSK_USE_DRV, H.CH_DSK_USE_CMP, H.ST_TRIPPED, H.DPS_POINT, H.DPS_PT_T,
    H.DPS_HELD, H.DPS_CAL_OWNED, H.DPS_DISCH, H.SMU_SW_END, H.SMU_CAL_OWNED, H.SMU_DAC0, H.SMU_STAGE, H.SW_DECIDED,
    H.MON_SET_END, H.MON_OLD_HI, H.MON_OLD_LO, H.MON_CHG, H.MON_IN, H.MODE_END, H.MODE_CAUSE, H.TDC_FACT1,
    H.TDC_FACT2, H.TDC_CAL_OWNED, H.ACQ_TRIG_N, H.ACQ_LEFT, H.ACQ_KIND, H.ACQ_EXACT, H.ACQ_XTRA, H.CAL_MADE,
    H.PO_STEP, H.PO_INFO, H.PO_WAKE_END, H.PO_FULL]
  | .monLatchClear _ _ _ =>
   [F.MON_STAT_LATCH, F.MON_STAT_LATCH_HI, F.MON_STAT_LATCH_LO, F.MON_STAT_ARM_HI, F.MON_STAT_ARM_LO]
  | .monPeriodBoundary _ =>
   fieldsOf [.TDC_DSK, .TCAL_TJ] ++ [F.CH_DSK_DSK_DRV, F.CH_DSK_DSK_CMP, F.MON_STAT_LATCH, F.MON_STAT_LATCH_HI,
    F.MON_STAT_LATCH_LO, F.MON_STAT_ARM_HI, F.MON_STAT_ARM_LO, F.TCAL_GEN_COUNT, H.CH_SETTLE_END, H.CH_SETTLE_END1,
    H.CH_DSK_USE_DRV, H.CH_DSK_USE_CMP, H.MON_SET_END, H.MON_OLD_HI, H.MON_OLD_LO, H.MON_CHG, H.TDC_FACT1,
    H.TDC_FACT2, H.CAL_MADE]
  | .monCtrlWrite _ _ _ =>
   fieldsOf [.MON_CTRL] ++ [F.MON_STAT_ARM_HI, F.MON_STAT_ARM_LO, H.MON_SET_END, H.MON_OLD_HI, H.MON_OLD_LO,
    H.MON_CHG, H.MON_EN_T]
  | .monThresholdWrite _ _ _ _ =>
   [F.MON_HI_VALUE, F.MON_LO_VALUE, F.MON_HYST_VALUE, H.MON_SET_END, H.MON_OLD_HI, H.MON_OLD_LO, H.MON_CHG]
  | .thresholdSettled _ =>
   [F.MON_STAT_ARM_HI, F.MON_STAT_ARM_LO, H.MON_SET_END, H.MON_CHG]
  | .dpsCtrlWrite _ _ _ =>
   [F.DPS_CTRL_EN, F.DPS_CTRL_IRANGE, F.DPS_CTRL_COMP, F.DPS_CTRL_EXT, F.DPS_CTRL_SLEW, F.DPS_STAT_THERM_REF,
    F.DPS_STAT_ON, F.DPS_STAT_SETTLED, F.DPS_STAT_IN_LIMIT, F.DPS_STAT_TRIPPED, F.MON_CTRL_EN, F.MON_STAT_ARM_HI,
    F.MON_STAT_ARM_LO, H.DPS_POINT, H.DPS_PT_T, H.DPS_HELD, H.DPS_RNG_END, H.DPS_OLD_RANGE, H.DPS_DISCH]
  | .vsetWrite _ _ _ =>
   [F.DPS_VSET_VALUE, F.DPS_STAT_CLAMP, F.DPS_STAT_SETTLED, H.DPS_POINT, H.DPS_PT_T]
  | .rampEnd _ =>
   [H.DPS_POINT, H.DPS_PT_T]
  | .dpsSettled _ =>
   [F.DPS_STAT_SETTLED]
  | .regLoss _ =>
   faultFields ++ [F.MODE_STAT_TRANSIT, F.MODE_STAT_TARGET, F.DPS_STAT_REG_LOSS, F.DPS_STAT_SETTLED, H.MODE_END,
    H.MODE_CAUSE, H.PO_STEP, H.PO_INFO, H.PO_WAKE_END, H.PO_FULL]
  | .senseDrop _ =>
   [F.DPS_STAT_SENSE_DROP]
  | .share _ =>
   [F.DPS_STAT_SHARE]
  | .dpsRangeDone _ =>
   [H.DPS_RNG_END]
  | .monitorSample _ _ _ _ _ =>
   [F.DPS_MON_V_VALUE, F.DPS_MON_I_VALUE, F.SMU_MON_V_VALUE, F.SMU_MON_I_VALUE, F.SMU_RB_RAW, H.DPS_MEAS_LEFT,
    H.DPS_SUM_V, H.DPS_SUM_I, H.DPS_ACC_LIM, H.DPS_ACC_OVER, H.SMU_MEAS_LEFT, H.SMU_SUM_V, H.SMU_SUM_I, H.SMU_ACC_LIM,
    H.SMU_ACC_OVER, H.DPS_SAMP_T, H.SMU_SAMP_T]
  | .dpsMeas _ _ _ =>
   [F.DPS_MEAS_AVG, F.DPS_MEAS_BUSY, F.DPS_RES_STAT_VALID, H.DPS_MEAS_LEFT, H.DPS_SUM_V, H.DPS_SUM_I, H.DPS_ACC_LIM,
    H.DPS_ACC_OVER, H.DPS_MEAS_N]
  | .smuMeas _ _ _ =>
   [F.SMU_MEAS_AVG, F.SMU_MEAS_BUSY, F.SMU_RES_STAT_VALID, H.SMU_MEAS_LEFT, H.SMU_SUM_V, H.SMU_SUM_I, H.SMU_ACC_LIM,
    H.SMU_ACC_OVER, H.SMU_MEAS_N]
  | .measurementDone _ =>
   fieldsOf [.DPS_RES_STAT, .SMU_RES_STAT] ++ [F.DPS_MEAS_BUSY, F.DPS_RES_V_VALUE, F.DPS_RES_I_VALUE, F.SMU_MEAS_BUSY,
    F.SMU_RES_V_VALUE, F.SMU_RES_I_VALUE, H.ENG_WAIT_DONE, H.ENG_FRAME]
  | .smuCtrlWrite _ _ _ =>
   [F.SMUW_CUR_PLAYING, F.SMUW_JUMP_REQ_PENDING, F.SMU_CTRL_EN, F.SMU_CTRL_SRC, F.SMU_CTRL_FMODE, F.SMU_CTRL_VRANGE,
    F.SMU_CTRL_IRANGE, F.SMU_SET_VALUE, F.SMU_STAT_CLOSED, F.SMU_STAT_TRIPPED, H.SMU_SW_END, H.SMU_DAC, H.SMU_RNG_END,
    H.SMU_DAC0, H.SMU_STAGE, H.SW_DECIDED]
  | .smuRangeDone _ =>
   [H.SMU_RNG_END]
  | .sineFreqWrite _ _ _ =>
   [F.SMU_SINE_FREQ_FREQ, H.SMU_LOAD_PH]
  | .supervisionMismatch _ =>
   faultFields ++ [F.MODE_STAT_TRANSIT, F.MODE_STAT_TARGET, F.SMUW_CUR_PLAYING, F.SMUW_JUMP_REQ_PENDING,
    F.SMU_CTRL_EN, F.SMU_CTRL_SRC, F.SMU_SET_VALUE, F.SMU_STAT_MISMATCH, F.SMU_STAT_CLOSED, F.SMU_STAT_IN_COMP,
    H.SMU_SW_END, H.SMU_DAC0, H.SMU_STAGE, H.SW_DECIDED, H.MODE_END, H.MODE_CAUSE, H.PO_STEP, H.PO_INFO,
    H.PO_WAKE_END, H.PO_FULL]
  | .mismatchClear _ _ _ =>
   [F.SMU_STAT_CLAMP, F.SMU_STAT_COMP_SEEN, F.SMU_STAT_CLIP, F.SMU_STAT_MISMATCH, F.SMU_STAT_TRIP_SEEN]
  | .tdcCtrlArm _ _ _ | .tdcCtrlDisarm _ _ _ =>
   irqFields ++ fieldsOf [.CEL_ECC_ADDR_HI, .TDC_CNT_A, .TDC_CNT_B] ++ [F.FLT_STAT_STICKY, F.FLT_SUM_ACTIVE,
    F.FLT_SUM_BUSY, F.FLT_SUM_MERGED, F.FLT_SUM_ESCALATED, F.FLT_LOG_WR_COUNT, F.CEL_ECC_CORR_COUNT,
    F.CEL_ECC_UNCORR_COUNT, F.CEL_ECC_ADDR_LO_ADDR_LO, F.CEL_CLS_BYTES_LO_B_LO, F.CEL_CLS_BYTES_HI_B_HI,
    F.TDC_CTRL_ARMED, F.TDC_CTRL_OPEN, F.TDC_CTRL_BAND_PEND, F.TDC_STAT_OVERRUN_SEEN, F.TDC_STAT_CAL_OLD_SEEN,
    F.TDC_ACC_LO_N_LO, F.TDC_ACC_HI_N_HI, F.TDC_DROP_COUNT, F.TDC_DEAD_COUNT, F.TDC_CALOLD_COUNT, F.TDC_NVAL_COUNT,
    F.TDC_MIN_MIN, F.TDC_MAX_MAX, F.TDC_SUM_LO_S_LO, F.TDC_SUM_HI_S_HI, F.TDC_LAST_LO_V_LO, F.TDC_LAST_HI_V_HI,
    H.FLT_END, H.FLT_SEQ, H.FLT_SITE, H.FLT_TILE, H.TDC_T1, H.TDC_T2, H.TDC_INTERP, H.TDC_PAIR1, H.TDC_PAIR2,
    H.TDC_DEADN, H.TDC_OVRN, H.TDC_EPOCH_P, H.TDC_DIS_P, H.TDC_START_P, H.TDC_GATE_ON, H.TDC_GATE_CNT, H.TDC_GATE_BAD,
    H.TDC_ARM_T, H.TDC_OPEN_DUE, H.TDC_TRIM]
  | .tdcOpen _ =>
   [F.TDC_CTRL_OPEN, H.TDC_OPEN_DUE]
  | .tdcEvent _ _ =>
   irqFields ++ fieldsOf [.CEL_ECC_ADDR_HI, .TDC_CNT_A] ++ [F.FLT_STAT_STICKY, F.FLT_SUM_ACTIVE, F.FLT_SUM_BUSY,
    F.FLT_SUM_MERGED, F.FLT_SUM_ESCALATED, F.FLT_LOG_WR_COUNT, F.CEL_ECC_CORR_COUNT, F.CEL_ECC_UNCORR_COUNT,
    F.CEL_ECC_ADDR_LO_ADDR_LO, F.CEL_CLS_BYTES_LO_B_LO, F.CEL_CLS_BYTES_HI_B_HI, F.TDC_STAT_OVERRUN_SEEN,
    F.TDC_STAT_DEAD_SEEN, F.TDC_STAT_CAL_OLD_SEEN, F.TDC_STAT_PAIR_SEEN, F.TDC_STAT_NEAR_SEEN, F.TDC_ACC_LO_N_LO,
    F.TDC_ACC_HI_N_HI, F.TDC_CNT_B_NEAR, F.TDC_DROP_COUNT, F.TDC_DEAD_COUNT, F.TDC_CALOLD_COUNT, F.TDC_NVAL_COUNT,
    F.TDC_MIN_MIN, F.TDC_MAX_MAX, F.TDC_SUM_LO_S_LO, F.TDC_SUM_HI_S_HI, F.TDC_LAST_LO_V_LO, F.TDC_LAST_HI_V_HI,
    H.FLT_END, H.FLT_SEQ, H.FLT_SITE, H.FLT_TILE, H.TDC_T1, H.TDC_T2, H.TDC_INTERP, H.TDC_PAIR1, H.TDC_PAIR2,
    H.TDC_DEADN, H.TDC_OVRN, H.TDC_EPOCH_P, H.TDC_DIS_P, H.TDC_START_P, H.TDC_START_U, H.TDC_START_AT, H.TDC_GATE_ON,
    H.TDC_GATE_U, H.TDC_GATE_CNT, H.TDC_GATE_BAD]
  | .pairTimeout _ =>
   [F.TDC_STAT_PAIR_SEEN, F.TDC_CNT_B_PAIR_TMO, H.TDC_START_P]
  | .tdcSpill _ _ =>
   irqFields ++ fieldsOf [.CEL_ECC_ADDR_HI] ++ [F.FLT_STAT_STICKY, F.FLT_SUM_ACTIVE, F.FLT_SUM_BUSY, F.FLT_SUM_MERGED,
    F.FLT_SUM_ESCALATED, F.FLT_LOG_WR_COUNT, F.CEL_ECC_CORR_COUNT, F.CEL_ECC_UNCORR_COUNT, F.CEL_ECC_ADDR_LO_ADDR_LO,
    F.CEL_CLS_BYTES_LO_B_LO, F.CEL_CLS_BYTES_HI_B_HI, F.TDC_STAT_RING_FULL, F.TDC_WR_LO_WR_LO, F.TDC_WR_HI_WR_HI,
    H.FLT_END, H.FLT_SEQ, H.FLT_SITE, H.FLT_TILE, H.TDC_OVRN, H.TDC_EPOCH_P, H.TDC_DIS_P]
  | .ringRecheck _ =>
   [F.TDC_STAT_RING_FULL]
  | .acqCtrlArm _ _ _ | .acqCtrlForce _ _ _ | .acqCtrlCancel _ _ _ =>
   [F.ACQ_CTRL_STATE, F.ACQ_STAT_CANCELLED, F.ACQ_WR_IDX_IDX, H.ACQ_N, H.ACQ_NEXT, H.ACQ_TRIG_N, H.ACQ_LEFT,
    H.ACQ_KIND, H.ACQ_EXACT, H.ACQ_LVL_OK, H.ACQ_RANGED_P, H.ACQ_FORCE_P, H.ACQ_SETUP, H.ACQ_LVL, H.ACQ_DROPPED,
    H.ACQ_DROP_P, H.ACQ_FLAGS, H.ACQ_XTRA, H.ACQ_PUSH_WAIT, H.ACQ_RUN]
  | .acqSample _ _ =>
   irqFields ++ fieldsOf [.CEL_ECC_ADDR_HI] ++ [F.FLT_STAT_STICKY, F.FLT_SUM_ACTIVE, F.FLT_SUM_BUSY, F.FLT_SUM_MERGED,
    F.FLT_SUM_ESCALATED, F.FLT_LOG_WR_COUNT, F.CEL_ECC_CORR_COUNT, F.CEL_ECC_UNCORR_COUNT, F.CEL_ECC_ADDR_LO_ADDR_LO,
    F.CEL_CLS_BYTES_LO_B_LO, F.CEL_CLS_BYTES_HI_B_HI, F.ACQ_CTRL_STATE, F.ACQ_STAT_FORCED, F.ACQ_STAT_PRE_SHORT,
    F.ACQ_STAT_POST_SHORT, F.ACQ_STAT_DROP, F.ACQ_STAT_STALE, F.ACQ_STAT_RANGED, F.ACQ_STAT_LATE,
    F.ACQ_TRIG_TS_LO_TS_LO, F.ACQ_TRIG_TS_HI_TS_HI, F.ACQ_WR_IDX_IDX, H.FLT_END, H.FLT_SEQ, H.FLT_SITE, H.FLT_TILE,
    H.ACQ_N, H.ACQ_NEXT, H.ACQ_T_FIRST, H.ACQ_TRIG_N, H.ACQ_LEFT, H.ACQ_KIND, H.ACQ_EXACT, H.ACQ_LVL_OK,
    H.ACQ_RANGED_P, H.ACQ_FORCE_P, H.ACQ_DROPPED, H.ACQ_DROP_P, H.ACQ_FLAGS]
  | .acqComplete _ =>
   acqFields
  | .failCompress _ | .captureReduce _ | .resultPack _ =>
   recordFields
  | .dequePushRetry _ =>
   [F.STL_FULL_COUNT, F.ACQ_CTRL_STATE, H.ST_PUSHED, H.ST_PUSH_WAIT, H.ACQ_PUSH_WAIT]
  | .hearthTaskTakeover _ =>
   irqFields ++ fieldsOf [.CEL_ECC_ADDR_HI] ++ [F.FLT_STAT_STICKY, F.FLT_SUM_ACTIVE, F.FLT_SUM_BUSY, F.FLT_SUM_MERGED,
    F.FLT_SUM_ESCALATED, F.FLT_LOG_WR_COUNT, F.STL_STAT_BADTASK, F.STL_FULL_COUNT, F.CEL_ECC_CORR_COUNT,
    F.CEL_ECC_UNCORR_COUNT, F.CEL_ECC_ADDR_LO_ADDR_LO, F.CEL_CLS_BYTES_LO_B_LO, F.CEL_CLS_BYTES_HI_B_HI,
    F.SITE_REC_WR_LO_WR_LO, F.SITE_REC_WR_HI_WR_HI, F.SITE_REC_LOST_LOST, F.ACQ_CTRL_STATE, H.ST_REC_LOST, H.FLT_END,
    H.FLT_SEQ, H.FLT_SITE, H.FLT_TILE]
  | .start _ _ | .pause _ _ | .resume _ _ | .retest _ _ | .abort _ _ =>
   siteFields
  | .siteFinish _ =>
   acqFields ++ fieldsOf [.SEQ_CUR, .SITE_BIN, .SITE_RUN, .CH_DSK, .TDC_DSK, .TCAL_TJ] ++ [F.SITE_TCTRL_ACTIVE,
    F.SITE_TSTAT_TIMED_LATE, F.SITE_TSTAT_WAIT_START, F.SITE_TSTAT_RESTARTS, F.SEQ_PASS_PASS, F.SEQ_JUMP_REQ_PENDING,
    F.SEQ_JUMP_REQ_JUMP_LATE, F.SEQ_SSTAT_TIMING_BROKEN, F.SEQ_SSTAT_CHAIN_DONE, F.SEQ_SSTAT_STALLING,
    F.SEQ_SSTAT_START_DEFERRED, F.SEQ_SSTAT_UNDERRUNS, F.SEQ_VEC_LO_VEC_LO, F.SEQ_VEC_HI_VEC_HI, F.SEQ_STALL_LO_ST_LO,
    F.SEQ_STALL_HI_ST_HI, F.SEQ_REFETCH_COUNT, F.SMUW_JUMP_REQ_PENDING, F.SMUW_JUMP_REQ_JUMP_LATE, F.SITE_STATE_STATE,
    F.SITE_STATE_FINISHING, F.SITE_FAILVEC_COUNT, F.SITE_FSIG_FSIG, F.SITE_FAILSTORED_COUNT, F.SITE_REC_WR_LO_WR_LO,
    F.SITE_REC_WR_HI_WR_HI, F.SITE_REC_LOST_LOST, F.ACQ_STAT_CANCELLED, F.CH_FAILCNT_COUNT, F.CH_FIRSTFAIL_LO_VEC_LO,
    F.CH_FIRSTFAIL_HI_VEC_HI, F.TDC_CTRL_ARMED, F.TDC_CTRL_OPEN, F.TDC_CTRL_BAND_PEND, F.TDC_STAT_RING_FULL,
    F.TDC_WR_LO_WR_LO, F.TDC_WR_HI_WR_HI, F.TCAL_GEN_COUNT, H.CH_SETTLE_END, H.CH_SETTLE_END1, H.CH_DSK_USE_DRV,
    H.CH_DSK_USE_CMP, H.SQ_WAIT, H.SQ_START_ENTRY, H.SQ_START_BY, H.SQ_START_WORD, H.SQ_START_AT, H.SQ_HOLD_END,
    H.SQ_VPOS, H.SQ_DECIDED_JUMP, H.SQ_DECIDED_END, H.SQ_PAUSE_REQ, H.SQ_STOP_REQ, H.SQ_CHAIN_PAUSED, H.SQ_TSET_PIN,
    H.SQ_TRIG_PIN, H.SQ_T_FIRST, H.SQ_T_END, H.SQ_CHAINED, H.SQ_ENTRY_BAD, H.ST_SITE_FAIL, H.ST_MARK_FAIL, H.ST_GFAIL,
    H.ST_FIRST_FAIL, H.ST_FAIL_LIMIT, H.ST_FAIL_OVF, H.ST_PUSHED, H.ST_PUSH_WAIT, H.ST_REC_LOST, H.ST_TRIPPED,
    H.ST_TASKS_CUT, H.ST_CAUSE, H.ST_BIN_FORCE, H.ST_IS_RETEST, H.ST_NEXT, H.ST_OUT_SAFE, H.ST_HALT_T, H.ST_HALTED,
    H.ST_TRIG_ARR, H.ST_ACCEPT_T, H.ENG_START_PEND, H.ENG_START_CUT, H.SW_STALL_N, H.SW_STARTED, H.TPH_SITE_CORR,
    H.TDC_FACT1, H.TDC_FACT2, H.TDC_OVRN, H.TDC_EPOCH_P, H.TDC_DIS_P, H.TDC_START_P, H.TDC_GATE_ON, H.TDC_OPEN_DUE,
    H.TDC_TRIM, H.ACQ_FORCE_P, H.SQ_SRC_NEXT, H.ST_THR, H.CAL_MADE]
  | .siteBind _ _ =>
   irqFields ++ fieldsOf [.SEQ_UNDERRUN, .CH_DSK, .TDC_DSK, .TCAL_TJ] ++ [F.STL_CTRL_EN, F.SEQ_START_ENTRY,
    F.SEQ_START_TMO_TMO_MS, F.SITE_STATE_STATE, F.SITE_STATE_STEAL_EN, F.SITE_STATE_END_SAFE, F.SITE_STATE_ENGINE,
    F.SITE_STATE_TILE, F.SITE_RUN_RUN, F.SITE_REC_WR_LO_WR_LO, F.SITE_REC_WR_HI_WR_HI, F.SITE_REC_LOST_LOST,
    F.ACQ_CTRL_SITE, F.ACQ_CTRL_BOUND, F.CH_CTRL_PAIR, F.CH_CTRL_SITE, F.CH_CTRL_BOUND, F.DPS_CTRL_SITE,
    F.DPS_CTRL_BOUND, F.DPS_CTRL_LEAD, F.DPS_CTRL_MEMBERS, F.SMU_CTRL_SITE, F.SMU_CTRL_BOUND, F.TDC_CTRL_SITE,
    F.TDC_CTRL_BOUND, F.TCAL_GEN_COUNT, F.ENG_CTRL_STEAL_EN, F.ENG_STAT_STATE, F.ENG_STAT_PC, H.CH_SETTLE_END,
    H.CH_SETTLE_END1, H.CH_DSK_USE_DRV, H.CH_DSK_USE_CMP, H.ENG_SITE, H.ENG_WAIT, H.ENG_WAIT_END, H.MON_MEM_BOUND,
    H.MON_MEM_SITE, H.TPH_SITE_CORR, H.STL_OFF_PEND, H.TDC_FACT1, H.TDC_FACT2, H.ENG_LD_ON, H.ENG_PRE_STOP,
    H.CAL_MADE]
  | .startChain _ _ =>
   fieldsOf [.SEQ_CUR] ++ [F.SITE_TSTAT_TIMED_LATE, F.SITE_TSTAT_WAIT_START, F.SEQ_PASS_PASS, F.SEQ_SSTAT_CHAIN_DONE,
    F.SEQ_SSTAT_START_DEFERRED, H.SQ_WAIT, H.SQ_START_ENTRY, H.SQ_START_BY, H.SQ_START_WORD, H.SQ_START_AT,
    H.SQ_HOLD_END, H.SQ_VPOS, H.SQ_DECIDED_JUMP, H.SQ_DECIDED_END, H.SQ_STOP_REQ, H.SQ_ENTRY_BAD, H.ST_ACCEPT_T,
    H.SQ_SRC_NEXT]
  | .pinJump _ =>
   [F.SEQ_JUMP_REQ_PENDING, F.SEQ_JUMP_REQ_JUMP_LATE]
  | .pinCancel _ =>
   [F.SEQ_JUMP_REQ_PENDING]
  | .tset _ _ =>
   [H.SQ_TSET_PIN]
  | .bank _ _ _ _ =>
   [F.CH_CTRL_BANK, H.CH_SETTLE_END, H.CH_SETTLE_END1, H.CH_BANK_END, H.CH_BANK_NOW]
  | .cmask _ _ _ =>
   [H.CH_CMASK]
  | .drv _ _ _ _ =>
   [F.CH_CTRL_DRV_EN, F.CH_STAT_TRIPPED, H.CH_DRV_ON, H.CH_DRV_LVL, H.CH_TERM_ON]
  | .trig _ =>
   [H.SQ_TRIG_PIN]
  | .clrfail _ =>
   [H.ST_MARK_FAIL, H.ST_GFAIL]
  | .term _ _ _ _ =>
   [F.CH_CTRL_TERM_MODE]
  | .dpsSet _ _ _ =>
   [F.DPS_VSET_VALUE, F.DPS_STAT_CLAMP, F.DPS_STAT_SETTLED, H.ENG_FRAME, H.DPS_POINT, H.DPS_PT_T]
  | .dpsIlim _ _ _ =>
   [F.DPS_ILIM_VALUE, F.DPS_STAT_CLAMP, H.ENG_FRAME]
  | .dpsEn _ _ _ =>
   [F.DPS_CTRL_EN, F.DPS_STAT_THERM_REF, F.DPS_STAT_ON, F.DPS_STAT_SETTLED, F.DPS_STAT_IN_LIMIT, F.DPS_STAT_TRIPPED,
    H.ENG_FRAME, H.DPS_POINT, H.DPS_PT_T, H.DPS_HELD, H.DPS_DISCH]
  | .dpsRamp _ _ _ _ =>
   [F.DPS_CTRL_SLEW, F.DPS_VSET_VALUE, F.DPS_STAT_CLAMP, F.DPS_STAT_SETTLED, H.ENG_FRAME, H.DPS_POINT, H.DPS_PT_T]
  | .smuSet _ _ _ =>
   [F.SMU_SET_VALUE, F.SMU_STAT_CLAMP, H.ENG_FRAME, H.SMU_DAC]
  | .smuClamp _ _ _ =>
   [F.SMU_ICOMP_VALUE, F.SMU_VCOMP_VALUE, F.SMU_STAT_CLAMP, H.ENG_FRAME]
  | .smuRange _ _ _ =>
   [F.SMU_CTRL_FMODE, F.SMU_CTRL_VRANGE, F.SMU_CTRL_IRANGE, H.ENG_FRAME, H.SMU_RNG_END]
  | .smuEn _ _ _ =>
   [F.SMU_CTRL_EN, F.SMU_STAT_CLOSED, F.SMU_STAT_TRIPPED, H.ENG_FRAME, H.SMU_SW_END, H.SMU_DAC, H.SMU_DAC0,
    H.SMU_STAGE]
  | .smuWave _ _ _ =>
   irqFields ++ fieldsOf [.CEL_ECC_ADDR_HI, .SMUW_CUR] ++ [F.FLT_STAT_STICKY, F.FLT_SUM_ACTIVE, F.FLT_SUM_BUSY,
    F.FLT_SUM_MERGED, F.FLT_SUM_ESCALATED, F.FLT_LOG_WR_COUNT, F.CEL_ECC_CORR_COUNT, F.CEL_ECC_UNCORR_COUNT,
    F.CEL_ECC_ADDR_LO_ADDR_LO, F.CEL_CLS_BYTES_LO_B_LO, F.CEL_CLS_BYTES_HI_B_HI, F.SMUW_JUMP_REQ_PENDING,
    F.SITE_REC_WR_LO_WR_LO, F.SITE_REC_WR_HI_WR_HI, F.SITE_REC_LOST_LOST, F.SMU_CTRL_SRC, H.ST_REC_LOST, H.ENG_FRAME,
    H.SW_NEXT_T, H.SW_POS, H.SW_PASS, H.SW_JUMP, H.SW_DECIDED, H.SW_STALL_N, H.SW_STARTED, H.SW_SAMPLES, H.FLT_END,
    H.FLT_SEQ, H.FLT_SITE, H.FLT_TILE]
  | .smuStop _ _ =>
   irqFields ++ fieldsOf [.CEL_ECC_ADDR_HI] ++ [F.FLT_STAT_STICKY, F.FLT_SUM_ACTIVE, F.FLT_SUM_BUSY, F.FLT_SUM_MERGED,
    F.FLT_SUM_ESCALATED, F.FLT_LOG_WR_COUNT, F.CEL_ECC_CORR_COUNT, F.CEL_ECC_UNCORR_COUNT, F.CEL_ECC_ADDR_LO_ADDR_LO,
    F.CEL_CLS_BYTES_LO_B_LO, F.CEL_CLS_BYTES_HI_B_HI, F.SMUW_CUR_PLAYING, F.SMUW_JUMP_REQ_PENDING,
    F.SITE_REC_WR_LO_WR_LO, F.SITE_REC_WR_HI_WR_HI, F.SITE_REC_LOST_LOST, F.SMU_CTRL_SRC, F.SMU_SET_VALUE,
    H.ST_REC_LOST, H.ENG_FRAME, H.SW_DECIDED, H.SW_STALL_N, H.FLT_END, H.FLT_SEQ, H.FLT_SITE, H.FLT_TILE]
  | .pmuCfg _ _ _ =>
   [F.CH_STAT_TRIPPED, F.PMU_CTRL_MODE, F.PMU_CTRL_RANGE, F.PMU_CTRL_CONNECT, F.PMU_CTRL_AVG, F.PMU_CTRL_RANGING,
    H.CH_DRV_ON, H.CH_TERM_ON, H.CH_PMU_SW_END, H.CH_PMU_RNG_END, H.CH_PMU_OLD_RANGE, H.ENG_FRAME]
  | .pmuForce _ _ _ =>
   [F.CH_STAT_LVL_CLAMP, F.PMU_FORCE_VALUE, H.ENG_FRAME]
  | .tdcArm _ _ _ =>
   irqFields ++ fieldsOf [.CEL_ECC_ADDR_HI, .TDC_CFG, .TDC_CNT_A, .TDC_CNT_B] ++ [F.FLT_STAT_STICKY, F.FLT_SUM_ACTIVE,
    F.FLT_SUM_BUSY, F.FLT_SUM_MERGED, F.FLT_SUM_ESCALATED, F.FLT_LOG_WR_COUNT, F.CEL_ECC_CORR_COUNT,
    F.CEL_ECC_UNCORR_COUNT, F.CEL_ECC_ADDR_LO_ADDR_LO, F.CEL_CLS_BYTES_LO_B_LO, F.CEL_CLS_BYTES_HI_B_HI,
    F.TDC_CTRL_ARMED, F.TDC_CTRL_OPEN, F.TDC_STAT_OVERRUN_SEEN, F.TDC_STAT_CAL_OLD_SEEN, F.TDC_ACC_LO_N_LO,
    F.TDC_ACC_HI_N_HI, F.TDC_DROP_COUNT, F.TDC_DEAD_COUNT, F.TDC_CALOLD_COUNT, F.TDC_NVAL_COUNT, F.TDC_MIN_MIN,
    F.TDC_MAX_MAX, F.TDC_SUM_LO_S_LO, F.TDC_SUM_HI_S_HI, F.TDC_LAST_LO_V_LO, F.TDC_LAST_HI_V_HI, H.FLT_END, H.FLT_SEQ,
    H.FLT_SITE, H.FLT_TILE, H.TDC_T1, H.TDC_T2, H.TDC_INTERP, H.TDC_PAIR1, H.TDC_PAIR2, H.TDC_DEADN, H.TDC_OVRN,
    H.TDC_EPOCH_P, H.TDC_DIS_P, H.TDC_START_P, H.TDC_GATE_ON, H.TDC_GATE_CNT, H.TDC_GATE_BAD, H.TDC_ARM_T,
    H.TDC_OPEN_DUE]
  | .tdcStop _ _ =>
   [F.TDC_CTRL_ARMED, F.TDC_CTRL_OPEN, F.TDC_CTRL_BAND_PEND, H.TDC_OVRN, H.TDC_EPOCH_P, H.TDC_DIS_P, H.TDC_START_P,
    H.TDC_GATE_ON, H.TDC_OPEN_DUE, H.TDC_TRIM]
  | .acqArm _ _ _ =>
   fieldsOf [.ACQ_CFG] ++ [F.ACQ_CTRL_STATE, F.ACQ_WR_IDX_IDX, H.ACQ_N, H.ACQ_NEXT, H.ACQ_TRIG_N, H.ACQ_LEFT,
    H.ACQ_KIND, H.ACQ_EXACT, H.ACQ_LVL_OK, H.ACQ_RANGED_P, H.ACQ_FORCE_P, H.ACQ_SETUP, H.ACQ_LVL, H.ACQ_DROPPED,
    H.ACQ_DROP_P, H.ACQ_FLAGS, H.ACQ_XTRA, H.ACQ_PUSH_WAIT, H.ACQ_RUN]
  | .acqForce _ _ =>
   [H.ACQ_FORCE_P]
  | .wait _ _ =>
   [H.ENG_WAIT, H.ENG_WAIT_UNIT, H.ENG_WAIT_QTY, H.ENG_WAIT_END, H.ENG_WAIT_DONE, H.ENG_WAIT_IMM, H.ENG_NEXT,
    H.ENG_WAIT_IDX]
  | .settle _ _ _ _ =>
   [H.ENG_WAIT, H.ENG_WAIT_UNIT, H.ENG_WAIT_QTY, H.ENG_WAIT_END, H.ENG_WAIT_DONE, H.ENG_FRAME, H.ENG_WAIT_IMM,
    H.ENG_NEXT, H.ENG_WAIT_IDX]
  | .measure _ _ _ _ =>
   [F.PMU_CTRL_BUSY, F.PMU_RESULT_VALID, F.PMU_RESULT_STALE, F.DPS_MEAS_BUSY, F.DPS_RES_STAT_VALID,
    F.DPS_RES_STAT_STALE, F.SMU_MEAS_BUSY, F.SMU_RES_STAT_VALID, F.SMU_RES_STAT_STALE, H.CH_PMU_MEAS_END,
    H.CH_PMU_MEAS_WAIT, H.ENG_WAIT, H.ENG_WAIT_UNIT, H.ENG_WAIT_QTY, H.ENG_WAIT_END, H.ENG_WAIT_DONE, H.ENG_FRAME,
    H.DPS_MEAS_LEFT, H.DPS_SUM_V, H.DPS_SUM_I, H.DPS_ACC_LIM, H.DPS_ACC_OVER, H.SMU_MEAS_LEFT, H.SMU_SUM_V,
    H.SMU_SUM_I, H.SMU_ACC_LIM, H.SMU_ACC_OVER, H.ENG_WAIT_IMM, H.ENG_NEXT, H.ENG_WAIT_IDX, H.DPS_MEAS_N,
    H.SMU_MEAS_N]
  | .read _ _ _ | .longOperationEnd _ | .loadComplete _ =>
   opFields
  | .commandRefused _ =>
   opFields ++ fieldsOf [.ENG_REFUSE]
  | .next _ | .jump _ | .call _ | .ret _ | .brt _ | .brf _ | .loop _ | .waitev _ | .dispatch _ | .yield _
  | .trap _ | .mret _ | .halt _ =>
   wordFields
  | .waitevEnd _ =>
   opFields ++ [H.ST_TRIG_ARR]
  | .parityError _ =>
   abortFields ++ [F.ENG_CS_STAT_PERR, F.ENG_CS_STAT_PERR_WORD, H.ST_OUT_SAFE, H.ENG_FLAGS, H.ENG_BIN, H.ENG_TCAUSE,
    H.ENG_START_CUT, H.ENG_FRAME, H.ENG_FW_UNIT, H.ENG_FW_QTY, H.ENG_FW_IMM, H.ENG_FW_NEXT, H.ENG_FW_IDX, H.ENG_FW_PC]
  | .trapEntry _ =>
   abortFields ++ [H.ST_OUT_SAFE, H.ENG_FLAGS, H.ENG_BIN, H.ENG_TCAUSE, H.ENG_START_CUT, H.ENG_FRAME, H.ENG_FW_UNIT,
    H.ENG_FW_QTY, H.ENG_FW_IMM, H.ENG_FW_NEXT, H.ENG_FW_IDX, H.ENG_FW_PC]
  | .abortTimeout _ =>
   abortFields
  | .engineEntry _ =>
   [F.SEM_PEEK_OWNER, F.SEM_PEEK_HELD, F.IRQ_ENG_LOST_COUNT, F.ENG_STAT_STATE, F.ENG_STAT_PC, F.ENG_STAT_DEPTH,
    F.ENG_STAT_RSP, F.ENG_TMASK_PEND, H.ENG_FLAGS, H.ENG_RESULT, H.ENG_RESSTAT, H.ENG_BIN, H.ENG_TCAUSE, H.ENG_ATOM_N,
    H.ENG_WAIT, H.ENG_WAIT_END, H.ENG_ABORT, H.ENG_ABORT_END, H.ENG_START_PEND, H.ENG_START_CUT, H.ENG_L, H.ENG_LD_ON,
    H.ENG_PRE_STOP, H.HEL_T0, H.HEL_N]
  | .ld _ _ _ _ | .ldp _ _ _ _ =>
   cellarFields
  | .st _ _ _ _ | .stp _ _ _ _ _ | .patLoad _ _ | .csLoad _ _ _ =>
   irqFields ++ fieldsOf [.CEL_ECC_ADDR_HI] ++ [F.FLT_STAT_STICKY, F.FLT_SUM_ACTIVE, F.FLT_SUM_BUSY, F.FLT_SUM_MERGED,
    F.FLT_SUM_ESCALATED, F.FLT_LOG_WR_COUNT, F.CEL_ECC_CORR_COUNT, F.CEL_ECC_UNCORR_COUNT, F.CEL_ECC_ADDR_LO_ADDR_LO,
    F.CEL_CLS_BYTES_LO_B_LO, F.CEL_CLS_BYTES_HI_B_HI, H.FLT_END, H.FLT_SEQ, H.FLT_SITE, H.FLT_TILE]
  | .memoryError _ =>
   fieldsOf [.ENG_MEMERR] ++ [F.ENG_TMASK_PEND, F.ENG_MEMERR_ADDR_OFFSET, H.ENG_FLAGS]
  | .sem _ _ _ =>
   irqFields ++ fieldsOf [.SEM_PEEK] ++ [F.SEM_CONTEST_COUNT, H.ENG_FLAGS, H.ENG_BIN, H.ENG_G, H.ENG_L]
  | .semrel _ _ | .semAcqWrite _ _ =>
   [F.SEM_PEEK_OWNER, F.SEM_PEEK_HELD]
  | .record _ _ _ =>
   irqFields ++ fieldsOf [.CEL_ECC_ADDR_HI] ++ [F.FLT_STAT_STICKY, F.FLT_SUM_ACTIVE, F.FLT_SUM_BUSY, F.FLT_SUM_MERGED,
    F.FLT_SUM_ESCALATED, F.FLT_LOG_WR_COUNT, F.CEL_ECC_CORR_COUNT, F.CEL_ECC_UNCORR_COUNT, F.CEL_ECC_ADDR_LO_ADDR_LO,
    F.CEL_CLS_BYTES_LO_B_LO, F.CEL_CLS_BYTES_HI_B_HI, F.SITE_REC_WR_LO_WR_LO, F.SITE_REC_WR_HI_WR_HI,
    F.SITE_REC_LOST_LOST, H.ST_REC_LOST, H.FLT_END, H.FLT_SEQ, H.FLT_SITE, H.FLT_TILE]
  | .cmdReply _ | .mbxEngTx _ _ _ =>
   [F.ENG_TMASK_PEND]
  | .fld _ _ _ =>
   irqFields ++ [H.ENG_FLAGS, H.ENG_BIN, H.ENG_G, H.ENG_L]
  | .fst _ _ _ =>
   [H.ENG_FRAME]
  | .pusht _ _ =>
   irqFields ++ [F.STL_FULL_COUNT, F.ACQ_CTRL_STATE, H.ENG_FLAGS, H.ENG_BIN, H.ENG_G, H.ENG_L]
  | .engGo _ _ _ =>
   [F.ENG_STAT_STATE, F.ENG_STAT_PC, F.ENG_STAT_DEPTH, F.ENG_STAT_RSP, H.ENG_FLAGS, H.ENG_RESULT, H.ENG_RESSTAT,
    H.ENG_BIN, H.ENG_ATOM_N, H.ENG_WAIT, H.ENG_WAIT_END, H.ENG_L, H.ENG_LD_ON, H.ENG_PRE_STOP]
  | .engStop _ _ _ | .engStep _ _ _ =>
   fieldsOf [.ENG_CTRL] ++ [F.ENG_STAT_STATE, F.ENG_STAT_PC, H.ENG_WAIT, H.ENG_WAIT_END, H.ENG_STEPPING, H.ENG_LD_ON,
    H.ENG_PRE_STOP, H.ENG_BRK_SKIP]
  | .semAcqRead _ _ =>
   fieldsOf [.SEM_PEEK] ++ [F.SEM_CONTEST_COUNT]
  | .semForce _ _ =>
   [F.SEM_PEEK_OWNER, F.SEM_PEEK_HELD, H.HEL_T0, H.HEL_N]
  | .bitSetAliasWrite _ _ _ _ | .bitClearAliasWrite _ _ _ _ =>
   irqFields ++ fieldsOf [.CEL_ECC_ADDR_HI] ++ [F.FLT_STAT_STICKY, F.FLT_SUM_ACTIVE, F.FLT_SUM_BUSY, F.FLT_SUM_MERGED,
    F.FLT_SUM_ESCALATED, F.FLT_LOG_WR_COUNT, F.SPD_STAT_DP_COLL, F.SPD_STAT_COLL_COUNT, F.SPD_COLL_ADDR_ADDR,
    F.CEL_ECC_CORR_COUNT, F.CEL_ECC_UNCORR_COUNT, F.CEL_ECC_ADDR_LO_ADDR_LO, F.CEL_CLS_BYTES_LO_B_LO,
    F.CEL_CLS_BYTES_HI_B_HI, H.FLT_END, H.FLT_SEQ, H.FLT_SITE, H.FLT_TILE]
  | .secWipe _ _ =>
   [F.SPD_STAT_WIPING, H.WIPE_END]
  | .tamper _ =>
   faultFields ++ [F.SEC_STAT_TAMPER, F.SEC_STAT_KEY_LOADED, F.SEC_DBG_NONCE_NONCE, F.SEC_DBG_CTRL_RESULT,
    F.SEC_DBG_CTRL_RIGHTS, F.SPD_STAT_WIPING, F.MODE_STAT_TRANSIT, F.MODE_STAT_TARGET, H.MODE_END, H.MODE_CAUSE,
    H.WIPE_END, H.PO_STEP, H.PO_INFO, H.PO_WAKE_END, H.SEC_UNLOCK_END, H.PO_FULL]
  | .scrubRead _ =>
   irqFields ++ fieldsOf [.CEL_ECC_ADDR_HI] ++ [F.FLT_STAT_STICKY, F.FLT_SUM_ACTIVE, F.FLT_SUM_BUSY, F.FLT_SUM_MERGED,
    F.FLT_SUM_ESCALATED, F.FLT_LOG_WR_COUNT, F.CEL_ECC_CORR_COUNT, F.CEL_ECC_UNCORR_COUNT, F.CEL_ECC_ADDR_LO_ADDR_LO,
    F.CEL_SCRUB_PASSES, H.FLT_END, H.FLT_SEQ, H.FLT_SITE, H.FLT_TILE, H.SCRUB_ADDR]
  | .calibrate _ _ =>
   irqFields ++ fieldsOf [.CEL_ECC_ADDR_HI] ++ [F.FLT_STAT_STICKY, F.FLT_SUM_ACTIVE, F.FLT_SUM_BUSY, F.FLT_SUM_MERGED,
    F.FLT_SUM_ESCALATED, F.FLT_LOG_WR_COUNT, F.MODE_STAT_TRANSIT, F.MODE_STAT_TARGET, F.CEL_ECC_CORR_COUNT,
    F.CEL_ECC_UNCORR_COUNT, F.CEL_ECC_ADDR_LO_ADDR_LO, F.CEL_CLS_BYTES_LO_B_LO, F.CEL_CLS_BYTES_HI_B_HI,
    F.TDC_CTRL_ARMED, F.TDC_CTRL_OPEN, F.TDC_CTRL_BAND_PEND, F.TDC_STAT_RING_FULL, F.TDC_WR_LO_WR_LO,
    F.TDC_WR_HI_WR_HI, H.CH_CAL_OWNED, H.DPS_CAL_OWNED, H.SMU_CAL_OWNED, H.MODE_END, H.MODE_CAUSE, H.CAL_FROM,
    H.FLT_END, H.FLT_SEQ, H.FLT_SITE, H.FLT_TILE, H.TDC_OVRN, H.TDC_EPOCH_P, H.TDC_DIS_P, H.TDC_START_P,
    H.TDC_GATE_ON, H.TDC_OPEN_DUE, H.TDC_CAL_OWNED, H.TDC_TRIM]
  | .calFlowDone _ _ _ =>
   irqFields ++ fieldsOf [.TDC_DSK, .TCAL_TJ] ++ [F.MODE_STAT_TRANSIT, F.MODE_STAT_TARGET, F.SMUW_CUR_PLAYING,
    F.SMUW_JUMP_REQ_PENDING, F.CH_CTRL_DRV_EN, F.PMU_CTRL_CONNECT, F.CH_DSK_DSK_DRV, F.CH_DSK_DSK_CMP, F.DPS_CTRL_EN,
    F.DPS_STAT_ON, F.DPS_STAT_SETTLED, F.DPS_STAT_IN_LIMIT, F.SMU_CTRL_EN, F.SMU_CTRL_SRC, F.SMU_SET_VALUE,
    F.SMU_STAT_CLOSED, F.SMU_STAT_IN_COMP, F.TCAL_STAT_LAST_FLOW, F.TCAL_STAT_LAST_RES, F.TCAL_STAT_FAILS,
    F.TCAL_GEN_COUNT, H.CH_DRV_ON, H.CH_TERM_ON, H.CH_PMU_ON, H.CH_PMU_SW_END, H.CH_SETTLE_END, H.CH_SETTLE_END1,
    H.CH_CAL_OWNED, H.CH_DSK_USE_DRV, H.CH_DSK_USE_CMP, H.DPS_POINT, H.DPS_PT_T, H.DPS_HELD, H.DPS_CAL_OWNED,
    H.DPS_DISCH, H.SMU_SW_END, H.SMU_CAL_OWNED, H.SMU_DAC0, H.SMU_STAGE, H.SW_DECIDED, H.MON_SET_END, H.MON_OLD_HI,
    H.MON_OLD_LO, H.MON_CHG, H.MODE_END, H.MODE_CAUSE, H.TDC_FACT1, H.TDC_FACT2, H.TDC_CAL_OWNED, H.CAL_MADE]
  | .correctionApply _ =>
   fieldsOf [.TDC_DSK, .TCAL_TJ] ++ [F.CH_DSK_DSK_DRV, F.CH_DSK_DSK_CMP, F.TCAL_GEN_COUNT, H.CH_SETTLE_END,
    H.CH_SETTLE_END1, H.CH_DSK_USE_DRV, H.CH_DSK_USE_CMP, H.MON_SET_END, H.MON_OLD_HI, H.MON_OLD_LO, H.MON_CHG,
    H.TDC_FACT1, H.TDC_FACT2, H.CAL_MADE]
  | .calLoad _ _ =>
   irqFields ++ fieldsOf [.CEL_ECC_ADDR_HI, .TDC_DSK, .TCAL_TJ] ++ [F.FLT_STAT_STICKY, F.FLT_SUM_ACTIVE,
    F.FLT_SUM_BUSY, F.FLT_SUM_MERGED, F.FLT_SUM_ESCALATED, F.FLT_LOG_WR_COUNT, F.CEL_ECC_CORR_COUNT,
    F.CEL_ECC_UNCORR_COUNT, F.CEL_ECC_ADDR_LO_ADDR_LO, F.CEL_CLS_BYTES_LO_B_LO, F.CEL_CLS_BYTES_HI_B_HI,
    F.CH_DSK_DSK_DRV, F.CH_DSK_DSK_CMP, F.TCAL_STAT_FAILS, F.TCAL_GEN_COUNT, H.CH_SETTLE_END, H.CH_SETTLE_END1,
    H.CH_DSK_USE_DRV, H.CH_DSK_USE_CMP, H.MON_SET_END, H.MON_OLD_HI, H.MON_OLD_LO, H.MON_CHG, H.FLT_END, H.FLT_SEQ,
    H.FLT_SITE, H.FLT_TILE, H.TDC_FACT1, H.TDC_FACT2, H.CAL_MADE]
  | .segLoad _ _ =>
   irqFields ++ fieldsOf [.CEL_ECC_ADDR_HI] ++ [F.FLT_STAT_STICKY, F.FLT_SUM_ACTIVE, F.FLT_SUM_BUSY, F.FLT_SUM_MERGED,
    F.FLT_SUM_ESCALATED, F.FLT_LOG_WR_COUNT, F.CEL_ECC_CORR_COUNT, F.CEL_ECC_UNCORR_COUNT, F.CEL_ECC_ADDR_LO_ADDR_LO,
    F.CEL_CLS_BYTES_LO_B_LO, F.CEL_CLS_BYTES_HI_B_HI, F.SEQ_STAB_COUNT_COUNT, H.FLT_END, H.FLT_SEQ, H.FLT_SITE,
    H.FLT_TILE]
  | .softReset _ _ =>
   [H.RST_SOFT_DUE]
  | .bootClear _ =>
   [F.BOOT_ATTEMPT_FAILS, F.BOOT_REASON_FLASH_WR_SKIP]
  | .prepareRemove _ =>
   irqFields ++ flitFields ++ [F.PORCH_STAT_STATE, F.MODE_STAT_REMOVE_READY, H.UNAVAIL, H.REMOVE_WAIT, H.PO_LEAVE_END,
    H.PO_IDLED, H.REMOVE_SRC, H.REMOVE_TAG]
  | .mbxPost _ _ _ _ | .injectInterrupt _ _ | .irqSwset _ _ =>
   irqFields
  | .doorbell _ _ =>
   irqFields ++ [F.MBX_HOST_DB_RX_DB, F.MODE_STAT_TRANSIT, F.MODE_STAT_TARGET, H.MODE_END, H.MODE_CAUSE, H.PO_STEP,
    H.PO_INFO, H.PO_WAKE_END, H.PO_FULL]
  | .mbxReset _ _ _ =>
   [F.MBX_HOST_STAT_FLUSHED, F.MBX_HOST_STAT_HOST_EPOCH, F.MBX_HOST_FLUSH_COUNT]
  | .injectSensorReading _ _ _ _ =>
   [F.THM_TEMP_FORCED, H.THM_FORCE_END, H.THM_FORCE_VAL]
  | .injectSensorBroken _ _ _ =>
   wordFields ++ acqFields ++ fieldsOf regsCSP ++ fieldsOf regsIRQ ++ fieldsOf regsSEQ ++ fieldsOf regsPAN ++
    fieldsOf regsENG ++ fieldsOf [.RST_SOFT, .RST_WDOG_CTL, .SITE_TSTAT, .FLT_INJ, .SEC_RB_COMMIT, .SEC_LC_REQ,
    .SEC_PROV_CMD, .SEC_WIPE, .SEC_DBG_CTRL, .MBX_HOST_RXEP, .MBX_HOST_DB, .SEM_ACQ, .SEM_FORCE, .CFG_STAT,
    .CFG_ROLLBACK, .TRIM_STAT, .CONTACT_CTL, .LVL_LOAD_STAT, .ACQ_CFG, .ACQ_BUF_HI, .PMU_RESULT, .DPS_RES_STAT,
    .SMU_RES_STAT, .TDC_CFG, .TDC_THR, .TDC_AUX, .TDC_STAT, .TDC_CNT_A, .TDC_CNT_B, .TDC_DSK, .TCAL_OWN_UNIT] ++
    [F.RST_WDOG_KICK_KICK, F.BOOT_ATTEMPT_FROM_FLASH, F.BOOT_REASON_CODE, F.BOOT_REASON_OUTCOME, F.BOOT_REASON_SLOT,
    F.BOOT_REASON_TRIM_RETRY, F.BOOT_REASON_FLASH_WR_SKIP, F.BOOT_REASON_STEP, F.BOOT_TIME_TIME_US,
    F.TRIG_FIRE_LO_F_LO, F.TRIG_FIRE_HI_F_HI, F.TRIG_STAT_ARMED, F.TRIG_ACC_CTRL_EN, F.SITE_TCTRL_ACTIVE,
    F.THM_STAT_BROKEN_ANY, F.THM_STAT_TILE_OFF, F.THM_BROKEN_LO_SENS, F.THM_BROKEN_HI_SENS, F.THM_LOG_STAT_REC_VALID,
    F.THM_LOG_STAT_COMMIT_PEND, F.THM_LOG_STAT_ERASE_SKIP, F.THM_LOG_STAT_HOLD_EXIT, F.THM_LOG_STAT_FREE,
    F.THM_LOG_SEQ_SEQ, F.THM_SHUT_REC_BYTES, F.THM_TEMP_READING, F.THM_TEMP_BROKEN, F.THM_TEMP_CAUSE,
    F.FLT_ACK_SOURCE, F.SEC_STAT_KEY_LOADED, F.SEC_STAT_BUSY, F.SEC_STAT_PROG_RES, F.SEC_STAT_IMAGE_SLOT,
    F.SEC_STAT_SELF_SIGNED, F.SEC_TAMPER_CFG_KEY_CLEAR, F.SEC_PROV_DATA_WORD, F.SEC_DBG_TOKEN_OFFSET,
    F.SEC_FW_VER_VERSION, F.GPIO_OUT_OUT, F.GPIO_OE_OE, F.GPIO_FUNC_LED31, F.MBX_HOST_RX_WORD, F.MBX_HOST_TX_WORD,
    F.MBX_HOST_STAT_RX_COUNT, F.CMDQ_STAT_OUTSTANDING, F.MBX_ENG_TX_WORD, F.MBX_ENG_RX_WORD, F.MBX_ENG_STAT_TX_COUNT,
    F.MBX_ENG_STAT_RX_COUNT, F.MBX_ENG_STAT_TX_FULL, F.MBX_ENG_STAT_RX_EPOCH, F.MBX_ENG_DB_RING, F.SEM_PEEK_PTR,
    F.SEM_CONTEST_COUNT, F.SPD_STAT_WIPED, F.STL_CTRL_EN, F.STL_STAT_BUSY, F.PORCH_CTRL_RETRAIN, F.PORCH_STAT_STATE,
    F.CFG_VERSION_IMAGE_VERSION, F.CFG_DIR_GEN_GEN, F.MODE_STAT_MODE, F.MODE_STAT_TRANSIT, F.MODE_STAT_TARGET,
    F.MODE_STAT_PREV_MODE, F.MODE_STAT_REMOVE_READY, F.MODE_STAT_ACTIVE_SITES, F.MODE_ENTRY_LO_TS_LO,
    F.MODE_ENTRY_HI_TS_HI, F.CFG_PART_ID_PART_ID, F.ACQ_CTRL_ARM, F.ACQ_CTRL_FORCE, F.ACQ_CTRL_CANCEL, F.ACQ_PRE_N,
    F.ACQ_POST_N, F.ACQ_BUF_LO_BASE_LO, F.ACQ_LEVEL_CODE, F.ACQ_HYST_CODE, F.ACQ_TTIME_LO_T_LO, F.ACQ_TTIME_HI_T_HI,
    F.ACQ_STAT_CANCELLED, F.ACQ_TRIG_TS_LO_TS_LO, F.ACQ_TRIG_TS_HI_TS_HI, F.ACQ_WR_IDX_IDX, F.ACQ_COUNT_EXTRA,
    F.CH_CTRL_DRV_EN, F.CH_FAILCNT_COUNT, F.CH_FIRSTFAIL_LO_VEC_LO, F.CH_FIRSTFAIL_HI_VEC_HI, F.PMU_CTRL_CONNECT,
    F.PMU_CTRL_MEAS, F.PMU_CTRL_BUSY, F.PMU_CTRL_RANGING, F.CH_DSK_PEND, F.DPS_CTRL_EN, F.DPS_STAT_ON,
    F.DPS_STAT_SETTLED, F.DPS_STAT_IN_LIMIT, F.DPS_MEAS_MEAS, F.DPS_MEAS_BUSY, F.DPS_RES_V_VALUE, F.DPS_RES_I_VALUE,
    F.SMU_CTRL_EN, F.SMU_CTRL_SRC, F.SMU_SET_VALUE, F.SMU_STAT_CLOSED, F.SMU_STAT_IN_COMP, F.SMU_MEAS_MEAS,
    F.SMU_MEAS_BUSY, F.SMU_RES_V_VALUE, F.SMU_RES_I_VALUE, F.TDC_CTRL_ARM, F.TDC_CTRL_DISARM, F.TDC_CTRL_ARMED,
    F.TDC_CTRL_OPEN, F.TDC_CTRL_BAND_PEND, F.TDC_CTRL_STALE, F.TDC_GATE_GATE_N, F.TDC_RING_BASE_LO_BASE_LO,
    F.TDC_RING_BASE_HI_BASE_HI, F.TDC_RING_SIZE_LOG2, F.TDC_ACC_LO_N_LO, F.TDC_ACC_HI_N_HI, F.TDC_DROP_COUNT,
    F.TDC_DEAD_COUNT, F.TDC_CALOLD_COUNT, F.TDC_NVAL_COUNT, F.TDC_MIN_MIN, F.TDC_MAX_MAX, F.TDC_SUM_LO_S_LO,
    F.TDC_SUM_HI_S_HI, F.TDC_LAST_LO_V_LO, F.TDC_LAST_HI_V_HI, F.TDC_WR_LO_WR_LO, F.TDC_WR_HI_WR_HI, F.TCAL_OWN_LO_CH,
    F.TCAL_OWN_HI_CH, F.TCAL_PEND_UNIT_TDC, F.TCAL_PEND_UNIT_MON, H.CH_DRV_ON, H.CH_TERM_ON, H.CH_PMU_ON,
    H.CH_PMU_SW_END, H.CH_PMU_MEAS_END, H.CH_PMU_MEAS_WAIT, H.CH_CAL_OWNED, H.CH_CMASK, H.SQ_START_ENTRY,
    H.SQ_START_BY, H.SQ_START_WORD, H.SQ_START_AT, H.SQ_VPOS, H.SQ_DECIDED_JUMP, H.SQ_DECIDED_END, H.SQ_STALL_N,
    H.SQ_STALL_VEC, H.SQ_STALL_TS, H.SQ_STALL_T0, H.SQ_TSET_PIN, H.SQ_TRIG_PIN, H.SQ_PERIOD, H.SQ_NEXT_T,
    H.SQ_NEWCHAIN, H.SQ_T_FIRST, H.SQ_CHAINED, H.SQ_ENTRY_BAD, H.ST_SITE_FAIL, H.ST_MARK_FAIL, H.ST_GFAIL,
    H.ST_FIRST_FAIL, H.ST_FAIL_LIMIT, H.ST_FAIL_OVF, H.ST_PUSHED, H.ST_PUSH_WAIT, H.ST_TRIPPED, H.ST_TASKS_CUT,
    H.ST_IS_RETEST, H.ST_NEXT, H.ST_ACCEPT_T, H.ENG_SITE, H.ENG_STAGE, H.DPS_POINT, H.DPS_PT_T, H.DPS_HELD,
    H.DPS_MEAS_LEFT, H.DPS_SUM_V, H.DPS_SUM_I, H.DPS_ACC_LIM, H.DPS_ACC_OVER, H.DPS_CAL_OWNED, H.DPS_DISCH,
    H.SMU_SW_END, H.SMU_MEAS_LEFT, H.SMU_SUM_V, H.SMU_SUM_I, H.SMU_ACC_LIM, H.SMU_ACC_OVER, H.SMU_CAL_OWNED,
    H.SMU_DAC0, H.SMU_STAGE, H.SW_NEXT_T, H.SW_POS, H.SW_PASS, H.SW_JUMP, H.SW_DECIDED, H.SW_STALL_N, H.SW_STALL_VEC,
    H.SW_STALL_TS, H.SW_STALL_T0, H.SW_STARTED, H.SW_SAMPLES, H.PD_CORE, H.PD_PANTRY, H.PD_H0, H.PD_H123, H.PD_ENG,
    H.PD_CELLAR, H.PD_FABRIC, H.PD_PORCH, H.PD_TILE, H.PD_TILE_BARRED, H.RST_SOFT_DUE, H.WDOG_T0, H.WDOG_HALF_SEEN,
    H.WARM_HOLD_END, H.HDR_WARM_HOLD_MS, H.HDR_WDOG_MS, H.HDR_CONTACT, H.CONTACT_END, H.STAT_LED, H.MODE_END,
    H.MODE_CAUSE, H.MODE_SRC, H.MODE_TAG, H.CAL_FROM, H.UNAVAIL, H.REMOVE_WAIT, H.THM_BRK_REC, H.THM_TILE_REC,
    H.THM_HOLD_T0, H.THM_LOG_STEP, H.THM_LOG_NEXT_T, H.TRIG_LEFT, H.TRIG_NEXT_T, H.WIPE_END, H.PAN_RR,
    H.PAN_INVAL_END, H.STL_OFF_PEND, H.TDC_T1, H.TDC_T2, H.TDC_INTERP, H.TDC_PAIR1, H.TDC_PAIR2, H.TDC_DEADN,
    H.TDC_OVRN, H.TDC_EPOCH_P, H.TDC_DIS_P, H.TDC_START_P, H.TDC_START_U, H.TDC_START_AT, H.TDC_GATE_ON, H.TDC_GATE_U,
    H.TDC_GATE_CNT, H.TDC_GATE_BAD, H.TDC_THR_T, H.TDC_ARM_T, H.TDC_OPEN_DUE, H.TDC_CAL_OWNED, H.TDC_TRIM, H.ACQ_N,
    H.ACQ_NEXT, H.ACQ_T_FIRST, H.ACQ_TRIG_N, H.ACQ_LEFT, H.ACQ_KIND, H.ACQ_EXACT, H.ACQ_LVL_OK, H.ACQ_RANGED_P,
    H.ACQ_FORCE_P, H.ACQ_SETUP, H.ACQ_LVL, H.ACQ_DROPPED, H.ACQ_DROP_P, H.ACQ_XTRA, H.ACQ_RUN, H.SQ_SRC_NEXT,
    H.ST_THR, H.SITE_FREE, H.REMOVE_SRC, H.REMOVE_TAG, H.SEC_PROG_BLK, H.SEC_PROG_D, H.SEC_PROG_END, H.SEC_PROG_LC,
    H.SEC_UNLOCK_END, H.SEC_SPOIL, H.IMG_USABLE, H.CORE0_HALT, H.CSP_T0, H.CSP_GAP_T, H.CSP_LOST, H.CSP_ABT,
    H.BIND_LOST, H.DPS_SAMP_T, H.SMU_SAMP_T, H.SMU_MOD_T, H.DPS_MEAS_N, H.SMU_MEAS_N]
  | .forcedReadingExpiry _ =>
   [F.THM_TEMP_FORCED, H.THM_FORCE_END]
  | .mbxHostRx _ _ =>
   fieldsOf [.MBX_HOST_RXEP]
  | .mbxHostDb _ _ _ =>
   [F.MBX_HOST_DB_RX_DB, F.EVT_STAT_EVSEQ, F.EVT_LOST_COUNT, H.HEL_T0, H.HEL_N]
  | .mbxEngDb _ _ _ =>
   fieldsOf regsENG ++ [F.MBX_ENG_STAT_FLUSHED, F.MBX_ENG_STAT_ENG_EPOCH, F.SEM_PEEK_OWNER, F.SEM_PEEK_HELD,
    F.IRQ_ENG_LOST_COUNT, H.ENG_FLAGS, H.ENG_RESULT, H.ENG_RESSTAT, H.ENG_BIN, H.ENG_TNOW_HI, H.ENG_VEC_HI,
    H.ENG_TCAUSE, H.ENG_ATOM_N, H.ENG_WAIT, H.ENG_WAIT_UNIT, H.ENG_WAIT_QTY, H.ENG_WAIT_END, H.ENG_WAIT_DONE,
    H.ENG_TASK_SITE, H.ENG_TASK_RUN, H.ENG_TASK_DEQUE, H.ENG_TASK_T0, H.ENG_ABORT, H.ENG_ABORT_END, H.ENG_START_PEND,
    H.ENG_START_CUT, H.ENG_STEPPING, H.ENG_STAGE, H.ENG_G, H.ENG_L, H.ENG_RSTK, H.ENG_FRAME, H.PD_ENG, H.ENG_TASK_D,
    H.ENG_TASK_RAN, H.ENG_FW_UNIT, H.ENG_FW_QTY, H.ENG_FW_IMM, H.ENG_WAIT_IMM, H.ENG_LD_ON, H.ENG_NEXT,
    H.ENG_PRE_STOP, H.ENG_BRK_SKIP, H.ENG_WAIT_IDX, H.ENG_FW_NEXT, H.ENG_FW_IDX, H.ENG_FW_PC]
  | .cspStart _ _ _ | .cspAbort _ _ _ | .cspEnWrite _ _ _ =>
   [F.CSP_CTRL_BUSY, F.CSP_CTRL_EN, F.CSP_TX_HW, F.CSP_RX_HW, H.CSP_T0, H.CSP_LOST, H.CSP_ABT]
  | .cspTransferDone _ _ =>
   irqFields ++ fieldsOf [.CSP_STAT, .CSP_ALIVE] ++ [F.CSP_CTRL_BUSY, F.CSP_RX_HW, H.CSP_GAP_T, H.CSP_LOST]
  | .selectLost _ _ =>
   irqFields ++ [F.CSP_CTRL_BUSY, F.CSP_STAT_DONE, F.CSP_STAT_SEL_LOST, F.CSP_STAT_ABORTED, F.CSP_STAT_BITS,
    F.CSP_RX_HW, H.CSP_GAP_T, H.CSP_LOST]
  | .faultRaise _ _ =>
   faultFields ++ [F.MODE_STAT_TRANSIT, F.MODE_STAT_TARGET, H.MODE_END, H.MODE_CAUSE, H.PO_STEP, H.PO_INFO,
    H.PO_WAKE_END, H.PO_FULL]
  | .fltAck _ _ =>
   [F.FLT_SUM_BUSY, F.FLT_SUM_MERGED, H.FLT_END]
  | .secRbCommit _ _ | .secLcReq _ _ =>
   [F.SEC_STAT_BUSY, F.SEC_STAT_PROG_RES, H.SEC_PROG_BLK, H.SEC_PROG_D, H.SEC_PROG_END, H.SEC_PROG_LC]
  | .secProvCmd _ _ =>
   [F.SEC_STAT_BUSY, F.SEC_STAT_PROG_RES, F.SEC_PROV_DATA_WORD, H.SEC_PROG_BLK, H.SEC_PROG_D, H.SEC_PROG_END,
    H.SEC_PROG_LC]
  | .fuseProgramDone _ =>
   [F.SEC_STAT_BUSY, H.RST_SOFT_DUE, H.SEC_PROG_END, H.SEC_PROG_LC]
  | .debugUnlock _ _ =>
   [F.SEC_DBG_CTRL_RIGHTS_REQ, H.SEC_UNLOCK_END]
  | .linkBlockReceive _ _ =>
   irqFields ++ flitFields ++ fieldsOf [.PORCH_ERR, .PORCH_FILL] ++ [F.PORCH_STAT_STATE, F.PORCH_SEQ_ACKED,
    F.PORCH_RETRY_REQ_SENT, F.PORCH_FEC_LO_CORR_LO, F.PORCH_FEC_HI_CORR_HI, F.MODE_STAT_REMOVE_READY, H.UNAVAIL,
    H.REMOVE_WAIT, H.RX_WAIT, H.RX_REQS, H.RX_REQ_T, H.PO_DPEND, H.PO_LEAVE_END, H.PO_IDLED]
  | .flitReceive _ _ =>
   irqFields ++ flitFields ++ fieldsOf [.FAB_NODE, .FAB_DROP, .FAB_DROP2, .FAB_CONFLICT, .PORCH_RETRY, .FAB_RT,
    .FAB_MC] ++ [F.FAB_CTRL_TTL, F.PORCH_STAT_STATE, F.PORCH_STAT_LEAVE_RX, F.PORCH_STAT_PARTNER,
    F.PORCH_STAT_PARTNER_NODE, F.PORCH_STAT_PARTNER_PORCH, F.PORCH_PSID_LO_SID_LO, F.PORCH_PSID_HI_SID_HI,
    F.PORCH_SEQ_ACKED, F.PORCH_ERR_CRC, H.RX_EXP, H.RX_WAIT, H.RX_REQS, H.RX_REQ_T, H.PO_STEP, H.PO_NRZ, H.PO_INFO,
    H.PO_RESUME, H.PO_EXP, H.PO_BUF, H.PO_PAM4_OK, H.PO_QREQ, H.PO_DREQ, H.PO_DPEND, H.PO_LEFT, H.PO_LEAVE_END]
  | .retryReq _ _ =>
   [F.PORCH_SEQ_ACKED, F.PORCH_RETRY_REPLAYS]
  | .retryReqResend _ =>
   irqFields ++ [F.PORCH_STAT_STATE, F.PORCH_STAT_PARTNER, F.PORCH_RETRY_REQ_SENT, F.PORCH_EVENTS_RETRAINS, H.RX_REQS,
    H.RX_REQ_T, H.PO_STEP, H.PO_FAILS, H.PO_NRZ, H.PO_INFO, H.PO_T0, H.PO_CAUSE, H.PO_QREQ, H.PO_FULL]
  | .partnerDetect _ =>
   irqFields ++ [F.PORCH_STAT_STATE, F.PORCH_STAT_DEGRADED, F.PORCH_STAT_PARTNER, H.PO_STEP, H.PO_FAILS, H.PO_INFO,
    H.PO_WAS_UP, H.PO_T0]
  | .linkInfo _ _ =>
   [F.PORCH_STAT_PARTNER, F.PORCH_STAT_PARTNER_NODE, F.PORCH_STAT_PARTNER_PORCH, F.PORCH_PSID_LO_SID_LO,
    F.PORCH_PSID_HI_SID_HI, H.PO_STEP, H.PO_NRZ, H.PO_INFO, H.PO_RESUME, H.PO_EXP, H.PO_BUF, H.PO_PAM4_OK]
  | .trainingStepDone _ _ =>
   irqFields ++ [F.PORCH_STAT_STATE, F.PORCH_STAT_DEGRADED, F.PORCH_EVENTS_FULL_TRAIN, H.PO_STEP, H.PO_FAILS,
    H.PO_NRZ, H.PO_INFO, H.PO_FULL]
  | .linkUp _ =>
   irqFields ++ flitFields ++ [F.PORCH_STAT_STATE, F.PORCH_STAT_DEGRADED, F.PORCH_STAT_PLANNED, F.PORCH_SEQ_ACKED,
    F.PORCH_EVENTS_UP, F.PORCH_LOST_FLITS, F.FAB_RT_VALID0, F.FAB_RT_VALID1, F.FAB_RT_VALID2, F.FAB_RT_VALID3,
    F.FAB_RT_VALID4, F.FAB_RT_VALID5, F.FAB_RT_VALID6, F.FAB_RT_VALID7, F.FAB_MC_PORCHES, H.RX_EXP, H.RX_WAIT,
    H.RX_REQ_T, H.PO_FRESH, H.PO_WAS_UP, H.PO_QREQ, H.PO_DREQ, H.PO_DPEND, H.PO_WAKE_END, H.PO_LEFT, H.PO_LEAVE_END,
    H.PO_LANE, H.PO_LANE_T, H.PO_SID]
  | .retrain _ _ =>
   linkFields ++ [F.PORCH_EVENTS_RETRAINS, H.PO_STEP, H.PO_FAILS, H.PO_NRZ, H.PO_INFO, H.PO_T0, H.PO_CAUSE, H.PO_QREQ,
    H.PO_FULL]
  | .linkDown _ | .wakeTimeout _ =>
   linkFields
  | .downExpiry _ =>
   irqFields ++ [F.PORCH_STAT_STATE, H.PO_DOWN_END]
  | .porchEnWrite _ _ _ =>
   linkFields ++ [F.PORCH_CTRL_EN, F.PORCH_CTRL_FORCE_NRZ, F.PORCH_CTRL_QUIET_EN, F.PORCH_EVENTS_RETRAINS, H.PO_STEP,
    H.PO_FAILS, H.PO_NRZ, H.PO_INFO, H.PO_T0, H.PO_CAUSE, H.PO_QREQ, H.PO_FULL]
  | .quietReq _ _ =>
   irqFields ++ flitFields ++ [F.PORCH_STAT_STATE, H.PO_QREQ]
  | .quietAck _ _ =>
   irqFields ++ [F.PORCH_STAT_STATE, H.PO_QREQ]
  | .quietExit _ =>
   irqFields ++ flitFields ++ [F.PORCH_STAT_STATE, H.PO_LANE, H.PO_LANE_T]
  | .deepReq _ _ =>
   irqFields ++ flitFields ++ [F.PORCH_STAT_STATE, H.PO_DREQ, H.PO_DPEND]
  | .deepAck _ =>
   irqFields ++ [F.PORCH_STAT_STATE, H.PO_DREQ]
  | .deepWake _ =>
   [H.PO_STEP, H.PO_INFO, H.PO_WAKE_END, H.PO_FULL]
  | .leave _ =>
   [F.PORCH_STAT_LEAVE_RX, F.FAB_RT_VALID0, F.FAB_RT_VALID1, F.FAB_RT_VALID2, F.FAB_RT_VALID3, F.FAB_RT_VALID4,
    F.FAB_RT_VALID5, F.FAB_RT_VALID6, F.FAB_RT_VALID7, F.FAB_MC_PORCHES, H.PO_LEFT, H.PO_LEAVE_END]
  | .discover _ _ =>
   flitFields ++ fieldsOf [.FAB_NODE, .FAB_DROP, .FAB_CONFLICT, .FAB_RT, .FAB_MC] ++ [F.FAB_CTRL_TTL,
    F.FAB_DROP2_BAD_SR]
  | .assign _ _ =>
   flitFields ++ fieldsOf [.FAB_NODE] ++ [F.FAB_CTRL_TTL, F.FAB_DROP_NOROUTE, F.FAB_DROP2_BAD_SR]
  | .routeSet _ _ =>
   flitFields ++ fieldsOf [.FAB_RT, .FAB_MC] ++ [F.FAB_NODE_RT_VALID, F.FAB_CTRL_TTL, F.FAB_DROP_NOROUTE,
    F.FAB_DROP2_BAD_SR]
  | .thresholdArming _ _ =>
   [F.MON_STAT_ARM_HI, F.MON_STAT_ARM_LO, H.MON_IN]
  | .currentLimit _ _ =>
   [F.DPS_STAT_ILIM_SEEN, F.DPS_STAT_RAMP_HELD, F.DPS_STAT_IN_LIMIT, H.DPS_POINT, H.DPS_PT_T, H.DPS_HELD]
  | .smuCompliance _ _ =>
   [F.SMU_STAT_COMP_SEEN, F.SMU_STAT_IN_COMP]
  | .leaveWaitExpiry _ =>
   [F.MODE_STAT_REMOVE_READY, H.UNAVAIL, H.REMOVE_WAIT, H.PO_LEAVE_END, H.PO_IDLED]
  | .sineGeneratorStep _ =>
   [F.SMU_STAT_CLIP, H.SMU_DAC, H.SMU_PHASE, H.SMU_LOAD_PH, H.SMU_MOD_T]
  | .refreshRateReport _ =>
   [F.THM_BAND_CEL_MR, H.CEL_FACTOR, H.CEL_REPORT]
  | .commandAcknowledge _ =>
   [H.ENG_WAIT]
  | .porRelease =>
   [H.BOOT_PHASE, H.BOOT_T0]
  | .wdog | .bootTimerExpiry =>
   warmFields ++ [F.RST_CAUSE_WDOG, F.BOOT_ATTEMPT_FAILS, F.BOOT_ATTEMPT_LAST_CODE]
  | .wdogHalf =>
   irqFields ++ [H.WDOG_HALF_SEEN]
  | .debugReset =>
   warmFields ++ [F.RST_CAUSE_DEBUG]
  | .lockup =>
   warmFields ++ [F.RST_CAUSE_LOCKUP, F.BOOT_ATTEMPT_FAILS, F.BOOT_ATTEMPT_LAST_CODE]
  | .laneRef =>
   faultFields ++ linkFields ++ [F.MODE_STAT_TRANSIT, F.MODE_STAT_TARGET, H.MODE_END, H.MODE_CAUSE, H.PO_STEP,
    H.PO_INFO, H.PO_FULL]
  | .safeStateSequence =>
   irqFields ++ [F.STL_CTRL_EN, F.SMUW_CUR_PLAYING, F.SMUW_JUMP_REQ_PENDING, F.SITE_STATE_STATE,
    F.SITE_STATE_STEAL_EN, F.SITE_STATE_END_SAFE, F.SITE_STATE_ENGINE, F.SITE_STATE_TILE, F.ACQ_CTRL_SITE,
    F.ACQ_CTRL_BOUND, F.CH_CTRL_DRV_EN, F.CH_CTRL_PAIR, F.CH_CTRL_SITE, F.CH_CTRL_BOUND, F.PMU_CTRL_CONNECT,
    F.DPS_CTRL_EN, F.DPS_CTRL_SITE, F.DPS_CTRL_BOUND, F.DPS_CTRL_LEAD, F.DPS_CTRL_MEMBERS, F.DPS_STAT_ON,
    F.DPS_STAT_SETTLED, F.DPS_STAT_IN_LIMIT, F.SMU_CTRL_EN, F.SMU_CTRL_SRC, F.SMU_CTRL_SITE, F.SMU_CTRL_BOUND,
    F.SMU_SET_VALUE, F.SMU_STAT_CLOSED, F.SMU_STAT_IN_COMP, F.TDC_CTRL_SITE, F.TDC_CTRL_BOUND, F.ENG_CTRL_STEAL_EN,
    H.CH_DRV_ON, H.CH_TERM_ON, H.CH_PMU_ON, H.CH_PMU_SW_END, H.ENG_SITE, H.DPS_POINT, H.DPS_PT_T, H.DPS_HELD,
    H.DPS_DISCH, H.SMU_SW_END, H.SMU_DAC0, H.SMU_STAGE, H.SW_DECIDED, H.MON_MEM_BOUND, H.MON_MEM_SITE, H.STL_OFF_PEND]
  | .bringup =>
   [F.SEC_DBG_NONCE_NONCE, F.SPD_STAT_WIPING, F.SPD_STAT_WIPED, F.SPD_WIPES_COUNT, H.PD_CORE, H.PD_H0, H.BOOT_PHASE,
    H.STAT_LED, H.WIPE_END]
  | .refDetect =>
   [H.BOOT_PHASE, H.BOOT_TMR_END, H.STAT_LED]
  | .thermalLogRetry =>
   [F.THM_LOG_STAT_REC_VALID, F.THM_LOG_STAT_COMMIT_PEND, F.THM_LOG_STAT_SKIPPED, H.THM_BRK_REC, H.THM_TILE_REC,
    H.THM_LSEQ, H.THM_SLOT, H.THM_LOG_STEP, H.THM_LOG_NEXT_T]
  | .warmHoldExpiry =>
   faultFields ++ fieldsOf [.CH_DSK, .TDC_DSK, .TCAL_TJ] ++ [F.SITE_STATE_STATE, F.TCAL_GEN_COUNT, H.CH_DSK_USE_DRV,
    H.CH_DSK_USE_CMP, H.ST_TASKS_CUT, H.ST_NEXT, H.WARM_HOLD_END, H.TPH_SITE_CORR, H.TDC_FACT1, H.TDC_FACT2,
    H.CAL_MADE]
  | .modeTransitionDone =>
   irqFields ++ fieldsOf regsENG ++ [F.MBX_ENG_STAT_FLUSHED, F.MBX_ENG_STAT_ENG_EPOCH, F.SEM_PEEK_OWNER,
    F.SEM_PEEK_HELD, F.STL_CTRL_EN, F.MODE_STAT_MODE, F.MODE_STAT_TRANSIT, F.MODE_STAT_TARGET, F.MODE_STAT_PREV_MODE,
    F.MODE_ENTRY_LO_TS_LO, F.MODE_ENTRY_HI_TS_HI, F.CEL_CFG_SELF_REF, F.SMUW_CUR_PLAYING, F.SMUW_JUMP_REQ_PENDING,
    F.SITE_STATE_STATE, F.SITE_STATE_STEAL_EN, F.SITE_STATE_END_SAFE, F.SITE_STATE_ENGINE, F.SITE_STATE_TILE,
    F.ACQ_CTRL_SITE, F.ACQ_CTRL_BOUND, F.CH_CTRL_DRV_EN, F.CH_CTRL_PAIR, F.CH_CTRL_SITE, F.CH_CTRL_BOUND,
    F.PMU_CTRL_CONNECT, F.DPS_CTRL_EN, F.DPS_CTRL_SITE, F.DPS_CTRL_BOUND, F.DPS_CTRL_LEAD, F.DPS_CTRL_MEMBERS,
    F.DPS_STAT_ON, F.DPS_STAT_SETTLED, F.DPS_STAT_IN_LIMIT, F.SMU_CTRL_EN, F.SMU_CTRL_SRC, F.SMU_CTRL_SITE,
    F.SMU_CTRL_BOUND, F.SMU_SET_VALUE, F.SMU_STAT_CLOSED, F.SMU_STAT_IN_COMP, F.TDC_CTRL_SITE, F.TDC_CTRL_BOUND,
    H.CH_DRV_ON, H.CH_TERM_ON, H.CH_PMU_ON, H.CH_PMU_SW_END, H.ENG_SITE, H.ENG_FLAGS, H.ENG_RESULT, H.ENG_RESSTAT,
    H.ENG_BIN, H.ENG_TNOW_HI, H.ENG_VEC_HI, H.ENG_TCAUSE, H.ENG_ATOM_N, H.ENG_WAIT, H.ENG_WAIT_UNIT, H.ENG_WAIT_QTY,
    H.ENG_WAIT_END, H.ENG_WAIT_DONE, H.ENG_TASK_SITE, H.ENG_TASK_RUN, H.ENG_TASK_DEQUE, H.ENG_TASK_T0, H.ENG_ABORT,
    H.ENG_ABORT_END, H.ENG_START_PEND, H.ENG_START_CUT, H.ENG_STEPPING, H.ENG_STAGE, H.ENG_G, H.ENG_L, H.ENG_RSTK,
    H.ENG_FRAME, H.DPS_POINT, H.DPS_PT_T, H.DPS_HELD, H.DPS_DISCH, H.SMU_SW_END, H.SMU_DAC0, H.SMU_STAGE,
    H.SW_DECIDED, H.MON_MEM_BOUND, H.MON_MEM_SITE, H.PD_ENG, H.MODE_END, H.MODE_CAUSE, H.MODE_SRC, H.STL_OFF_PEND,
    H.ENG_TASK_D, H.ENG_TASK_RAN, H.ENG_FW_UNIT, H.ENG_FW_QTY, H.ENG_FW_IMM, H.ENG_WAIT_IMM, H.ENG_LD_ON, H.ENG_NEXT,
    H.ENG_PRE_STOP, H.ENG_BRK_SKIP, H.ENG_WAIT_IDX, H.ENG_FW_NEXT, H.ENG_FW_IDX, H.ENG_FW_PC]
  | .pantryLineGrant =>
   [H.PAN_RR]
  | .lineDecodeStart =>
   irqFields ++ fieldsOf [.CEL_ECC_ADDR_HI] ++ [F.FLT_STAT_STICKY, F.FLT_SUM_ACTIVE, F.FLT_SUM_BUSY, F.FLT_SUM_MERGED,
    F.FLT_SUM_ESCALATED, F.FLT_LOG_WR_COUNT, F.CEL_ECC_CORR_COUNT, F.CEL_ECC_UNCORR_COUNT, F.CEL_ECC_ADDR_LO_ADDR_LO,
    F.CEL_CLS_BYTES_LO_B_LO, F.CEL_CLS_BYTES_HI_B_HI, F.SEQ_REFETCH_COUNT, F.PAN_EVICT_COUNT, H.FLT_END, H.FLT_SEQ,
    H.FLT_SITE, H.FLT_TILE]
  | .syncEvent =>
   irqFields ++ [F.TB_CTRL_SYNC_MODE, F.SYNC_LOAD_LO_LOAD_LO, F.SYNC_LOAD_HI_LOAD_HI, F.SYNC_TS_LO_TS_LO,
    F.SYNC_TS_HI_TS_HI, F.SYNC_STAT_COUNT, F.SYNC_STAT_LOADED, F.SYNC_STAT_SLIP, F.SYNC_STAT_IGNORED,
    F.SYNC_STAT_UNSYNCED, H.TB_ORIGIN, H.TB_EPOCH_SEEN, H.TB_RELOAD]
  | .timebaseWrap =>
   irqFields ++ fieldsOf [.CEL_ECC_ADDR_HI] ++ [F.TB_EPOCH_EPOCH, F.FLT_STAT_STICKY, F.FLT_SUM_ACTIVE, F.FLT_SUM_BUSY,
    F.FLT_SUM_MERGED, F.FLT_SUM_ESCALATED, F.FLT_LOG_WR_COUNT, F.CEL_ECC_CORR_COUNT, F.CEL_ECC_UNCORR_COUNT,
    F.CEL_ECC_ADDR_LO_ADDR_LO, F.CEL_CLS_BYTES_LO_B_LO, F.CEL_CLS_BYTES_HI_B_HI, F.SITE_REC_WR_LO_WR_LO,
    F.SITE_REC_WR_HI_WR_HI, F.SITE_REC_LOST_LOST, H.ST_REC_LOST, H.TB_EPOCH_SEEN, H.FLT_END, H.FLT_SEQ, H.FLT_SITE,
    H.FLT_TILE, H.TDC_OVRN, H.TDC_EPOCH_P, H.TDC_DIS_P]
  | .stealDisable =>
   [F.STL_CTRL_EN, H.STL_OFF_PEND]
  | .wipeDone =>
   [F.SPD_STAT_WIPING, F.SPD_STAT_WIPED, F.SPD_WIPES_COUNT, H.WIPE_END]
  | .eventSend =>
   flitFields
  | .debugUnlockDone =>
   [F.SEC_DBG_NONCE_NONCE, F.SEC_DBG_CTRL_RESULT, F.SEC_DBG_CTRL_RIGHTS, H.SEC_UNLOCK_END]

/-- Every part of the state. -/
def allParts : List Part :=
 [.now, .free, .snaps, .lastResp, .scratch, .cellar, .celErr, .flash, .fltLog, .corr, .fuses, .cstore, .csBodies,
   .entries, .heldEntries, .pendW, .ports, .waveBuf, .evicted, .lines, .reqs, .jobs, .inval, .cmdq, .memq, .refused,
   .memErrs, .evq, .failq, .events, .replies, .accepted, .outq, .replay, .bcasts, .asm, .h2d, .d2h, .h2e, .e2h, .safe,
   .trigActs, .flows, .corrPend, .tdcq, .flashOps]

/-- Every part of the state but those listed. -/
def partsBut (l : List Part) : List Part := allParts.filter (fun p => !l.contains p)

/-- The parts of the state beside the fields that a command may change. -/
def rowParts : Instr → List Part
  | .pin _ | .wdog | .soft | .bootTimerExpiry =>
   partsBut [.lastResp, .fltLog, .corr, .entries, .events, .outq, .replay, .bcasts, .d2h]
  | .clkfail _ | .debugReset | .lockup =>
   partsBut [.now, .lastResp, .fltLog, .corr, .entries, .events, .outq, .replay, .bcasts, .d2h]
  | .rstSoft _ _ =>
   partsBut [.now, .fltLog, .corr, .entries, .events, .outq, .replay, .bcasts, .d2h]
  | .wdogStart _ _ | .rstWdogKick _ _ | .contactCtlStart _ _ | .jumpReqWrite _ _ _ | .jumpReqCancel _ _ _
  | .chipOffsetWrite _ _ | .trigFire _ _ _ | .trigAccEnable _ _ _ | .timingSetWrite _ _ _ | .chDskWrite _ _ _
  | .pmuCtrlWrite _ _ _ | .pmuMeas _ _ _ | .monLatchClear _ _ _ | .monCtrlWrite _ _ _
  | .monThresholdWrite _ _ _ _ | .dpsCtrlWrite _ _ _ | .vsetWrite _ _ _ | .dpsMeas _ _ _ | .smuMeas _ _ _
  | .sineFreqWrite _ _ _ | .mismatchClear _ _ _ | .acqCtrlArm _ _ _ | .acqCtrlForce _ _ _ | .acqCtrlCancel _ _ _
  | .engGo _ _ _ | .engStop _ _ _ | .engStep _ _ _ | .semAcqRead _ _ | .semAcqWrite _ _ | .cspStart _ _ _
  | .cspAbort _ _ _ | .cspEnWrite _ _ _ | .fltAck _ _ | .secRbCommit _ _ | .secLcReq _ _ | .secProvCmd _ _
  | .debugUnlock _ _ =>
   [.lastResp]
  | .standbyEntry _ =>
   partsBut [.lastResp, .bcasts, .d2h]
  | .contactCheckDone _ =>
   [.now, .scratch, .cellar, .celErr, .fltLog, .corr, .cstore, .entries, .heldEntries, .evq, .events, .corrPend]
  | .mode _ _ =>
   [.scratch, .cellar, .celErr, .fltLog, .evq, .events, .replies, .accepted, .outq, .replay, .safe, .tdcq]
  | .wake _ | .senseDrop _ | .share _ | .ringRecheck _ | .linkInfo _ _ | .deepWake _ | .leave _
  | .thresholdArming _ _ | .currentLimit _ _ | .smuCompliance _ _ | .refreshRateReport _ | .porRelease
  | .refDetect | .stealDisable =>
   []
  | .chimneySample _ =>
   partsBut [.lastResp, .corr, .fuses, .replies, .bcasts]
  | .lanePresetUpdate _ | .stallLimitExpiry _ | .timedStart _ | .levelSettled _ | .pmuConnectDone _
  | .pmuRangeDone _ | .thresholdSettled _ | .rampEnd _ | .dpsSettled _ | .dpsRangeDone _ | .smuRangeDone _
  | .tdcOpen _ | .pairTimeout _ | .forcedReadingExpiry _ =>
   [.now]
  | .deferredStartRelease _ =>
   [.ports]
  | .startTimeout _ =>
   [.now, .scratch, .cellar, .celErr, .fltLog, .pendW, .ports, .refused, .evq, .events]
  | .vectorBoundary _ _ =>
   [.now, .scratch, .cellar, .celErr, .fltLog, .corr, .pendW, .ports, .waveBuf, .lines, .evq, .failq, .events,
    .trigActs, .corrPend]
  | .lineDecodeDone _ _ =>
   [.scratch, .cellar, .celErr, .fltLog, .pendW, .ports, .lines, .jobs, .evq, .events, .safe]
  | .panInval _ _ =>
   [.lastResp, .inval]
  | .panCounterRead _ _ =>
   [.free, .snaps, .lastResp]
  | .smuWaveSample _ =>
   [.now, .scratch, .cellar, .celErr, .fltLog, .pendW, .ports, .waveBuf, .evq, .events]
  | .tilePhaseMeasure _ _ _ | .partnerDetect _ | .trainingStepDone _ _ | .quietAck _ _ | .deepAck _ =>
   [.scratch, .evq, .events]
  | .trigEmit _ =>
   [.now, .scratch, .evq, .events, .trigActs]
  | .trigArrival _ _ =>
   [.now, .free, .scratch, .evq, .events, .trigActs]
  | .trigAction _ =>
   [.now, .trigActs]
  | .chCtrlWrite _ _ _ | .levelWrite _ _ _ _ =>
   [.lastResp, .pendW]
  | .pmuMeasDone _ _ _ _ | .wipeDone =>
   [.now, .scratch]
  | .monitorCrossing _ _ _ =>
   [.scratch, .cellar, .celErr, .fltLog, .corr, .pendW, .ports, .waveBuf, .evq, .events, .replies, .accepted, .safe,
    .flows, .corrPend]
  | .monPeriodBoundary _ =>
   [.now, .corr, .corrPend]
  | .regLoss _ | .faultRaise _ _ =>
   [.scratch, .cellar, .celErr, .fltLog, .pendW, .ports, .evq, .events, .safe]
  | .monitorSample _ _ _ _ _ | .sineGeneratorStep _ | .debugUnlockDone =>
   [.now, .free]
  | .measurementDone _ =>
   [.free, .scratch]
  | .smuCtrlWrite _ _ _ =>
   [.lastResp, .waveBuf]
  | .supervisionMismatch _ =>
   [.scratch, .cellar, .celErr, .fltLog, .pendW, .ports, .waveBuf, .evq, .events, .safe]
  | .tdcCtrlArm _ _ _ | .tdcCtrlDisarm _ _ _ =>
   [.free, .lastResp, .scratch, .cellar, .celErr, .fltLog, .evq, .events, .tdcq]
  | .tdcEvent _ _ | .timebaseWrap =>
   [.now, .scratch, .cellar, .celErr, .fltLog, .evq, .events, .tdcq]
  | .tdcSpill _ _ =>
   [.scratch, .cellar, .celErr, .fltLog, .evq, .events, .tdcq]
  | .acqSample _ _ =>
   [.now, .scratch, .cellar, .celErr, .fltLog, .evq, .events]
  | .acqComplete _ =>
   [.scratch, .cellar, .celErr, .fltLog, .evq, .events]
  | .failCompress _ | .captureReduce _ | .resultPack _ | .hearthTaskTakeover _ =>
   [.free, .scratch, .cellar, .celErr, .fltLog, .evq, .events]
  | .dequePushRetry _ =>
   [.scratch]
  | .start _ _ | .pause _ _ | .resume _ _ | .retest _ _ | .abort _ _ =>
   [.lastResp, .scratch, .cellar, .celErr, .fltLog, .corr, .pendW, .ports, .evq, .failq, .events, .replies, .accepted,
    .safe, .corrPend]
  | .siteFinish _ =>
   [.scratch, .cellar, .celErr, .fltLog, .corr, .ports, .evq, .failq, .events, .corrPend, .tdcq]
  | .siteBind _ _ =>
   [.scratch, .corr, .entries, .evq, .events, .replies, .accepted, .corrPend]
  | .siteUnbind _ _ =>
   [.replies, .accepted, .safe]
  | .startChain _ _ =>
   [.ports, .cmdq, .refused]
  | .pinJump _ | .pinCancel _ | .tset _ _ | .cmask _ _ _ | .drv _ _ _ _ | .trig _ | .clrfail _ | .term _ _ _ _
  | .acqArm _ _ _ | .acqForce _ _ | .wait _ _ =>
   [.cmdq, .refused]
  | .bank _ _ _ _ | .level _ _ _ _ _ _ =>
   [.pendW, .cmdq, .refused]
  | .dpsSet _ _ _ | .dpsIlim _ _ _ | .dpsEn _ _ _ | .dpsRamp _ _ _ _ | .smuSet _ _ _ | .smuClamp _ _ _
  | .smuRange _ _ _ | .smuEn _ _ _ | .pmuCfg _ _ _ | .pmuForce _ _ _ | .settle _ _ _ _ | .measure _ _ _ _ =>
   [.scratch, .cmdq, .refused]
  | .smuWave _ _ _ | .smuStop _ _ =>
   [.scratch, .cellar, .celErr, .fltLog, .waveBuf, .cmdq, .refused, .evq, .events]
  | .tdcArm _ _ _ =>
   [.free, .scratch, .cellar, .celErr, .fltLog, .cmdq, .refused, .evq, .events, .tdcq]
  | .tdcStop _ _ =>
   [.cmdq, .refused, .tdcq]
  | .read _ _ _ =>
   [.free, .scratch, .cellar, .celErr, .fltLog, .pendW, .ports, .cmdq, .refused, .evq, .events, .safe]
  | .longOperationEnd _ | .waitevEnd _ | .abortTimeout _ | .tamper _ =>
   [.now, .free, .scratch, .cellar, .celErr, .fltLog, .pendW, .ports, .evq, .events, .safe]
  | .commandRefused _ =>
   [.free, .scratch, .cellar, .celErr, .fltLog, .pendW, .ports, .refused, .evq, .events, .safe]
  | .next _ | .jump _ | .call _ | .ret _ | .brt _ | .brf _ | .loop _ | .waitev _ | .dispatch _ | .yield _
  | .trap _ | .mret _ | .halt _ =>
   [.free, .scratch, .cellar, .celErr, .fltLog, .pendW, .ports, .cmdq, .memq, .evq, .events, .h2e, .e2h, .safe]
  | .parityError _ | .trapEntry _ | .loadComplete _ =>
   [.free, .scratch, .cellar, .celErr, .fltLog, .pendW, .ports, .evq, .events, .safe]
  | .engineEntry _ =>
   [.free, .scratch, .evq]
  | .ld _ _ _ _ | .ldp _ _ _ _ =>
   [.scratch, .celErr, .fltLog, .memq, .memErrs, .evq, .events, .e2h]
  | .st _ _ _ _ | .stp _ _ _ _ _ | .record _ _ _ =>
   [.scratch, .cellar, .celErr, .fltLog, .memq, .memErrs, .evq, .events]
  | .memoryError _ =>
   [.memErrs]
  | .sem _ _ _ =>
   [.scratch, .memq, .memErrs, .evq, .events, .e2h]
  | .semrel _ _ =>
   [.memq, .memErrs]
  | .cmd _ _ =>
   [.memq, .memErrs, .replies, .accepted]
  | .cmdReply _ =>
   [.scratch, .replies, .h2e]
  | .fld _ _ _ | .pusht _ _ =>
   [.scratch, .memq, .evq, .events, .e2h]
  | .fst _ _ _ =>
   [.memq]
  | .controlStoreWrite _ _ _ _ _ | .regWr _ _ | .blkWr _ _ _ | .regWrite _ _ _ =>
   partsBut [.now, .entries, .bcasts]
  | .semForce _ _ =>
   [.free, .lastResp, .scratch]
  | .bitSetAliasWrite _ _ _ _ | .bitClearAliasWrite _ _ _ _ =>
   [.free, .lastResp, .scratch, .cellar, .celErr, .fltLog, .memq, .memErrs, .evq, .events]
  | .secWipe _ _ =>
   [.lastResp, .scratch]
  | .scrubRead _ =>
   [.scratch, .celErr, .fltLog, .evq, .events]
  | .calibrate _ _ =>
   [.scratch, .cellar, .celErr, .fltLog, .evq, .events, .replies, .accepted, .flows, .tdcq]
  | .calStop _ _ =>
   [.replies, .accepted, .flows]
  | .calFlowDone _ _ _ =>
   [.scratch, .corr, .waveBuf, .evq, .events, .replies, .accepted, .flows, .corrPend]
  | .correctionApply _ =>
   [.corr, .corrPend]
  | .calLoad _ _ =>
   [.scratch, .celErr, .fltLog, .corr, .evq, .events, .replies, .accepted, .corrPend]
  | .patLoad _ _ =>
   [.scratch, .cellar, .celErr, .fltLog, .lines, .evq, .events, .replies, .accepted]
  | .segLoad _ _ =>
   [.scratch, .cellar, .celErr, .fltLog, .evq, .events, .replies, .accepted]
  | .csLoad _ _ _ =>
   [.scratch, .celErr, .fltLog, .cstore, .csBodies, .evq, .events, .replies, .accepted]
  | .status _ | .hostJump _ _ _ _ | .softReset _ _ | .reservedOpcode _ _ | .injectSensorReading _ _ _ _
  | .fuseRead _ _ | .versionRead _ =>
   [.replies, .accepted]
  | .regRd _ _ | .blkRd _ _ _ =>
   [.free, .snaps, .scratch, .celErr, .fltLog, .evq, .events, .replies, .accepted, .h2d, .h2e, .e2h]
  | .flashWr _ _ _ | .flashErase _ _ _ =>
   [.replies, .accepted, .flashOps]
  | .bootClear _ =>
   [.flash, .replies, .accepted]
  | .prepareRemove _ | .linkBlockReceive _ _ =>
   [.scratch, .evq, .events, .replies, .accepted, .outq, .replay]
  | .mbxPost _ _ _ _ =>
   [.scratch, .evq, .events, .replies, .accepted, .h2d]
  | .mbxRead _ _ _ | .mbxReset _ _ _ =>
   [.replies, .accepted, .d2h]
  | .doorbell _ _ | .injectInterrupt _ _ =>
   [.scratch, .evq, .events, .replies, .accepted]
  | .injectFault _ _ _ =>
   [.scratch, .cellar, .celErr, .fltLog, .pendW, .ports, .evq, .events, .replies, .accepted, .safe]
  | .injectSensorBroken _ _ _ =>
   partsBut [.now, .lastResp, .corr, .fuses, .bcasts]
  | .fuseOr _ _ _ =>
   [.fuses, .replies, .accepted]
  | .mbxHostRx _ _ =>
   [.lastResp, .h2d]
  | .mbxHostTx _ _ _ =>
   [.lastResp, .d2h]
  | .mbxHostDb _ _ _ =>
   [.lastResp, .scratch, .events]
  | .mbxEngTx _ _ _ =>
   [.lastResp, .h2e]
  | .mbxEngRx _ _ =>
   [.lastResp, .e2h]
  | .mbxEngDb _ _ _ =>
   [.lastResp, .cstore, .cmdq, .memq, .refused, .memErrs, .evq, .h2e]
  | .cspTransferDone _ _ | .selectLost _ _ | .retryReqResend _ | .downExpiry _ | .wdogHalf | .syncEvent =>
   [.now, .scratch, .evq, .events]
  | .fltInj _ _ =>
   [.lastResp, .scratch, .cellar, .celErr, .fltLog, .pendW, .ports, .evq, .events, .safe]
  | .irqSwset _ _ =>
   [.lastResp, .scratch, .evq, .events]
  | .fuseProgramDone _ =>
   [.now, .free, .fuses]
  | .flitReceive _ _ =>
   [.scratch, .evq, .events, .replies, .accepted, .outq, .replay, .bcasts, .asm]
  | .retryReq _ _ =>
   [.replay]
  | .linkUp _ | .retrain _ _ | .quietReq _ _ | .quietExit _ | .deepReq _ _ =>
   [.scratch, .evq, .events, .outq, .replay]
  | .linkDown _ | .wakeTimeout _ =>
   [.now, .scratch, .evq, .events, .outq, .replay]
  | .porchEnWrite _ _ _ =>
   [.lastResp, .scratch, .evq, .events, .outq, .replay]
  | .discover _ _ =>
   [.replies, .accepted, .outq, .replay, .bcasts, .asm]
  | .assign _ _ | .routeSet _ _ =>
   [.outq, .replay]
  | .flashOperationDone _ =>
   [.free, .flash, .replies, .accepted, .flashOps]
  | .leaveWaitExpiry _ =>
   [.now, .replies, .accepted]
  | .commandAcknowledge _ =>
   [.cmdq]
  | .por | .bor =>
   partsBut [.now, .lastResp, .replies]
  | .laneRef =>
   [.scratch, .cellar, .celErr, .fltLog, .pendW, .ports, .evq, .events, .outq, .replay, .safe]
  | .safeStateSequence =>
   [.now, .scratch, .entries, .waveBuf, .evq, .events, .replies, .accepted, .safe]
  | .bringup =>
   [.now, .free, .scratch]
  | .thermalLogRetry =>
   [.now, .flash]
  | .warmHoldExpiry =>
   [.now, .scratch, .cellar, .celErr, .fltLog, .corr, .pendW, .ports, .evq, .events, .safe, .corrPend]
  | .modeTransitionDone =>
   [.now, .scratch, .cstore, .entries, .waveBuf, .cmdq, .memq, .refused, .memErrs, .evq, .events, .replies, .accepted,
    .h2e, .safe]
  | .pantryLineGrant =>
   [.ports, .waveBuf]
  | .lineDecodeStart =>
   [.scratch, .celErr, .fltLog, .evicted, .lines, .reqs, .jobs, .evq, .events]
  | .invalidationDone =>
   [.lines, .inval]
  | .eventSend =>
   [.events, .outq, .replay]
  | .faultEscalation =>
   [.now, .scratch, .cellar, .celErr, .fltLog, .pendW, .ports, .evq, .events, .safe]

end Sys2Proof.Machine
end

