-- ==== Sys2Proof/Certificates/Slice0/Obligations.lean ====
section
/-!
DEFINITION. What is claimed of the block, one statement each; OBLIGATIONS.json lists them in order.
-/

open Sys2Proof
open Sys2Proof.Machine

/-- The step takes the command at the front of the queue (log entry 2): exec of it, on the state with the
rest of the queue. The idle step is the model's choice (log entry 1): one CORE cycle passes, of 2,000 ticks of 1/3 ps. -/
def Obligations.StepRunsFront : Prop :=
  (∀ (s : State) (c : Instr) (rest : List Instr), s.pending = c :: rest → step s = exec c { s with pending := rest })
    ∧ (∀ s : State, s.pending = [] → step s = .next { s with now := s.now + 2000 })

/-- The invariant that every step keeps: the canonical form of the field file, of each memory and of each store by
key, so that equal contents are equal data (log entry 4). -/
def Obligations.StepKeepsCanonicalForm : Prop :=
  ∀ s t : State, s.Wf → step s = .next t → t.Wf

/-- The state after reset is in canonical form, with nothing listed in a memory or a store and no command waiting. -/
def Obligations.ResetIsCanonical : Prop :=
  State.reset.Wf ∧ State.reset.pending = [] ∧ State.reset.scratch = [] ∧ State.reset.cellar = [] ∧ State.reset.flash = []
    ∧ State.reset.cstore = [] ∧ State.reset.entries = [] ∧ State.reset.accepted = [] ∧ State.reset.events = []

/-- What reset leaves in the registers (the Cold columns, R6): each field at its Cold value, some of them by name. -/
def Obligations.ResetShowsColdValues : Prop :=
  (∀ (f : Field) (i : Nat), State.reset.get f i = coldAt f i)
    ∧ Shows [(F.RST_CAUSE_POR, 0, 1), (F.RST_CAUSE_BOR, 0, 0), (F.RST_CAUSE_PIN, 0, 0), (F.RST_CAUSE_WDOG, 0, 0),
        (F.RST_CTRL_LOCKUP_EN, 0, 1), (F.RST_CTRL_SAFE_ON_WARM, 0, 0), (F.RST_WDOG_CTL_EN, 0, 0),
        (F.RST_WDOG_CTL_TIMEOUT_MS, 0, 1000), (F.BOOT_ATTEMPT_FAILS, 0, 0), (F.MODE_STAT_MODE, 0, 0),
        (F.CH_CTRL_DRV_EN, 511, 0), (F.DPS_STAT_ON, 63, 0), (F.FLT_SUM_ACTIVE, 0, 0)] State.reset
    ∧ (∀ g : Fin 128, g.val % 2 = 0 → State.reset.get F.MON_HI_VALUE (monIdx g) = 0x7FFF
        ∧ State.reset.get F.MON_LO_VALUE (monIdx g) = 0x8000)
    ∧ (∀ n : Fin 117, State.reset.react n = (faultCold n).1 ∧ State.reset.siteState (n.val % 64) = sUNBOUND)

/-- R68: what a low pulse of RESET_N below 1.0 µs does.  Which of the two happens between 0.5 and 1.0 µs is a free
value (log entry 12), and the statement holds for both. -/
def Obligations.PinResetByPulseWidth : Prop :=
  ∀ (s : State) (w : Nat),
    (w < 500000 → Completes (.pin w) s (OnlyFieldsNow [] s))
      ∧ (500000 ≤ w → w < 1000000 → s.mode ≠ mHOLD → s.coldHeld = false →
          Completes (.pin w) s (fun t => OnlyFieldsNow [] s { t with free := s.free } ∨ WarmDone F.RST_CAUSE_PIN s t))

/-- The warm sources of R67, each under its own condition (R36, R97, R503): a whole warm reset (WarmDone). -/
def Obligations.WarmSourcesReset : Prop :=
  ∀ (s : State), s.mode ≠ mHOLD → s.coldHeld = false →
    (∀ w, 1000000 ≤ w → Completes (.pin w) s (WarmDone F.RST_CAUSE_PIN s))
      ∧ (s.on F.RST_WDOG_CTL_EN 0 = true → Completes .wdog s (WarmDone F.RST_CAUSE_WDOG s))
      ∧ (s.get H.RST_SOFT_DUE 0 ≠ 0 → Completes .soft s (WarmDone F.RST_CAUSE_SOFT s))
      ∧ (s.right 3 = true → Completes .debugReset s (WarmDone F.RST_CAUSE_DEBUG s))
      ∧ (∀ c, Completes (.clkfail c) s (WarmDone F.RST_CAUSE_CLKFAIL s))
      ∧ (s.on F.RST_CTRL_LOCKUP_EN 0 = true → Completes .lockup s (WarmDone F.RST_CAUSE_LOCKUP s))
      ∧ (∀ (m : Master) (v : Nat), BusTakes s m .RST_SOFT 0 → bit v 0 = true → bits v 16 16 = 0xA5C3 →
          Completes (.rstSoft m v) s (WarmDone F.RST_CAUSE_SOFT s))
      ∧ (s.inAttempt = true → s.get H.BOOT_TMR_END 0 ≠ 0 → Completes .bootTimerExpiry s (WarmDone F.RST_CAUSE_WDOG s))

/-- R54, R67, R69: the two cold resets and the release. -/
def Obligations.ColdResets : Prop :=
  (∀ s : State, Completes .por s (fun t => ColdParts s t
      ∧ ∀ (f : Field) (i : Nat), fkey f i ≠ fkey H.TB_ORIGIN 0 → t.get f i = coldAt f i))
    ∧ (∀ s : State, s.Wf → Completes .bor s (fun t => ColdParts s t ∧ t.on F.RST_CAUSE_BOR 0 = true
        ∧ (∀ (f : Field) (i : Nat), f ∈ aonFields → t.get f i = s.get f i)
        ∧ (∀ (f : Field) (i : Nat), f.id.val ∉ borKept → f.id ∉ [H.TB_ORIGIN.id, H.WAS_BOR.id, F.RST_CAUSE_BOR.id, F.MODE_STAT_PREV_MODE.id] →
            t.get f i = coldAt f i)))
    ∧ (∀ (s : State) (c : ClockLoss), s.mode ≠ mHOLD → s.coldHeld = true → Completes (.clkfail c) s (fun t =>
        Sets [(F.RST_CAUSE_CLKFAIL, 0, 1), (F.RST_WARM_COUNT_COUNT, 0, satAt 16 (s.get F.RST_WARM_COUNT_COUNT 0 + 1))] s t))
    ∧ (∀ s : State, s.coldHeld = true → Completes .porRelease s (fun t =>
        Sets [(H.BOOT_T0, 0, s.now), (H.BOOT_PHASE, 0, 1)] s t))

/-- Steps 1 and 2 of R81 (R84, R97). -/
def Obligations.BringupBegins : Prop :=
  (∀ s : State, s.mode = mBRINGUP → s.get H.BOOT_PHASE 0 = 1 → Completes .bringup s (fun t =>
      Shows [(H.PD_CORE, 0, 1), (H.PD_H0, 0, 1), (H.BOOT_PHASE, 0, 2), (H.STAT_LED, 0, 0)] t ∧ t.mode = mBRINGUP
        ∧ t.get H.WIPE_END 0 = 0
        ∧ Frame [H.PD_CORE, H.PD_H0, H.BOOT_PHASE, H.STAT_LED, H.WIPE_END, F.SPD_STAT_WIPED, F.SPD_STAT_WIPING,
            F.SPD_WIPES_COUNT, F.SEC_DBG_NONCE_NONCE] [.now, .free, .scratch] s t))
    ∧ (∀ s : State, s.mode = mBRINGUP → s.get H.BOOT_PHASE 0 = 2 → Completes .refDetect s (fun t =>
        Sets [(H.BOOT_PHASE, 0, 3), (H.BOOT_TMR_END, 0, s.now + 2000 * ms + 1), (H.STAT_LED, 0, 1)] s t))

/-- Steps 3 to 12 of R81 with what follows a failed attempt (R97, R98, R103): one command of the model (log entries 13, 16). -/
def Obligations.BringupEndsInAMode : Prop :=
  ∀ (s : State) (w : BootWorld), s.inAttempt = true → s.on H.CORE0_HALT 0 = false → s.now + 1 < s.get H.BOOT_TMR_END 0 →
    Completes (.standbyEntry w) s (fun t =>
      (t.mode = mSTANDBY ∨ t.mode = mFACTORY ∨ t.mode = mMINIMAL) ∧ t.get H.BOOT_TMR_END 0 = 0
        ∧ (w.flashAnswers = false →
            ((t.mode = mSTANDBY ∨ t.mode = mFACTORY) ∧ Shows [(F.BOOT_REASON_OUTCOME, 0, 4), (F.BOOT_REASON_CODE, 0, 2)] t)
              ∨ (t.mode = mMINIMAL ∧ Shows [(F.BOOT_REASON_OUTCOME, 0, 3), (F.BOOT_REASON_CODE, 0, 0x10)] t)))

/-- R106: the class of a channel, from its two voltages in mV. -/
def Obligations.ContactClasses : Prop :=
  ∀ c : ContactSeen,
    (c.v1 ≤ -1200 → contactClass c = 0b01)
      ∧ (-1200 < c.v1 → -150 < c.v1 → contactClass c = 0b10)
      ∧ (-1200 < c.v1 → c.v1 ≤ -150 → -150 < c.vp → contactClass c = 0b11)
      ∧ (-1200 < c.v1 → c.v1 ≤ -150 → c.vp ≤ -150 → contactClass c = 0b00)

/-- R105, R107: the contact check begun and ended.  Bindings held for it are another statement's. -/
def Obligations.ContactCheckRuns : Prop :=
  (∀ (s : State) (m : Master) (v : Nat), BusTakes s m .CONTACT_CTL 0 → v < 2 ^ 32 → bit v 0 = true → bit v 2 = false → bit v 3 = false →
      (s.mode = mSTANDBY → s.entries = [] → Completes (.contactCtlStart m v) s (fun t =>
          SetsResp [(F.CONTACT_CTL_BUSY, 0, 1), (H.CONTACT_END, 0, s.now + 900 * us + 1)] s t))
        ∧ (s.mode ≠ mSTANDBY ∨ s.entries ≠ [] → Completes (.contactCtlStart m v) s (fun t =>
            SetsResp [(F.CONTACT_CTL_REFUSED, 0, 1)] s t)))
    ∧ (∀ (s : State) (seen : List ContactSeen), seen.length = 512 → s.get H.CONTACT_END 0 ≠ 0 → s.on H.HDR_CONTACT 0 = false →
        Completes (.contactCheckDone seen) s (fun t =>
          Shows [(F.CONTACT_CTL_BUSY, 0, 0), (F.CONTACT_CTL_DONE, 0, 1), (H.STAT_LED, 0, contactLed (seen.map contactClass)),
              (H.CONTACT_END, 0, 0)] t
            ∧ ∃ e : Event, t.events.getLast? = some e ∧ e.code = 0x0101
                ∧ e.data = leBytes 1 1 ++ contactCounts (seen.map contactClass) ++ contactMap ((seen.map contactClass).drop 256)))
    ∧ (∀ (s : State) (seen : List ContactSeen), seen.length ≠ 512 → exec (.contactCheckDone seen) s = .fault .illFormed)

/-- RST_WDOG_CTL, RST_WDOG_KICK and source WDOG_HALF (R67, R589). -/
def Obligations.WatchdogRegisters : Prop :=
  (∀ (s : State) (m : Master) (v : Nat), BusTakes s m .RST_WDOG_CTL 0 → v < 2 ^ 32 →
      (s.on F.RST_WDOG_CTL_EN 0 = false → bit v 0 = true → Completes (.wdogStart m v) s (fun t =>
          SetsResp [(F.RST_WDOG_CTL_TIMEOUT_MS, 0, max 1 (bits v 16 16)), (F.RST_WDOG_CTL_EN, 0, 1), (H.WDOG_T0, 0, s.now),
            (H.WDOG_HALF_SEEN, 0, 0)] s t))
        ∧ (s.on F.RST_WDOG_CTL_EN 0 = false → bit v 0 = false → Completes (.wdogStart m v) s (fun t =>
            SetsResp [(F.RST_WDOG_CTL_TIMEOUT_MS, 0, max 1 (bits v 16 16))] s t))
        ∧ (s.on F.RST_WDOG_CTL_EN 0 = true → Completes (.wdogStart m v) s (OnlyFieldsResp [] s)))
    ∧ (∀ (s : State) (m : Master) (v : Nat), BusTakes s m .RST_WDOG_KICK 0 → v < 2 ^ 32 →
        (v % 65536 = 0x5A5A → Completes (.rstWdogKick m v) s (fun t =>
            SetsResp [(H.WDOG_T0, 0, s.now), (H.WDOG_HALF_SEEN, 0, 0)] s t))
          ∧ (v % 65536 ≠ 0x5A5A → Completes (.rstWdogKick m v) s (OnlyFieldsResp [] s)))
    ∧ (∀ s : State, s.mode ≠ mHOLD → s.on F.RST_WDOG_CTL_EN 0 = true → s.on H.WDOG_HALF_SEEN 0 = false → Completes .wdogHalf s (fun t =>
        t.on H.WDOG_HALF_SEEN 0 = true ∧ bit (t.get F.IRQ_PEND_PEND 5) 29 = true
          ∧ t.now = max s.now (s.get H.WDOG_T0 0 + s.get F.RST_WDOG_CTL_TIMEOUT_MS 0 * ms / 2)))

/-- R112: the mode changes only at the triggers of its table.  Every other command leaves it. -/
def Obligations.OnlyTheseChangeMode : Prop :=
  ∀ (c : Instr) (s t : State), mayChangeMode c = false → exec c s = .next t → t.mode = s.mode

/-- R71, both sentences.  The premise HoldAtRest is an invariant (HoldHasNoTransition). -/
def Obligations.HoldLeftOnlyByColdReset : Prop :=
  ∀ s : State, s.mode = mHOLD → HoldAtRest s →
    ((∀ w, 1000000 ≤ w → Completes (.pin w) s (OnlyFieldsNow [] s))
      ∧ Completes .wdog s (OnlyFieldsNow [] s)
      ∧ Completes .soft s (OnlyFieldsNow [(H.RST_SOFT_DUE, 0)] s)
      ∧ Completes .debugReset s (fun t => t = s)
      ∧ (∀ c, Completes (.clkfail c) s (fun t => t = s))
      ∧ Completes .lockup s (fun t => t = s)
      ∧ (∀ (m : Master) (v : Nat), Completes (.rstSoft m v) s (OnlyFieldsResp [] s)))
    ∧ (∀ (c : Instr) (t : State), exec c s = .next t →
        if c = .por ∨ c = .bor then t.mode = mBRINGUP else t.mode = mHOLD)

/-- The invariant behind R71: a device in HOLD has no transition in progress. -/
def Obligations.HoldHasNoTransition : Prop :=
  HoldAtRest State.reset ∧ ∀ s t : State, HoldAtRest s → step s = .next t → HoldAtRest t

/-- The MODE command (R112, R113). -/
def Obligations.ModeCommandBegins : Prop :=
  ∀ (s : State) (h : Hdr) (target : Nat), HostServes s legalMode →
    (s.mode = mSTANDBY → target = mRUN → Completes (.mode h target) s (fun t =>
        Sets [(F.MODE_STAT_TRANSIT, 0, 1), (F.MODE_STAT_TARGET, 0, mRUN), (H.MODE_END, 0, s.now + 20 * us + 1),
          (H.MODE_CAUSE, 0, s.askCause h), (H.MODE_SRC, 0, h.src + 1), (H.MODE_TAG, 0, h.tag)] s t))
      ∧ (s.mode = mSTANDBY → target = mSLEEP → Completes (.mode h target) s (fun t =>
          Shows [(F.MODE_STAT_TRANSIT, 0, 1), (F.MODE_STAT_TARGET, 0, mSLEEP), (H.MODE_END, 0, s.now + 2 * ms + 1),
            (H.MODE_SRC, 0, h.src + 1), (H.MODE_TAG, 0, h.tag)] t ∧ t.mode = mSTANDBY))
      ∧ (s.mode = mRUN → target = mSTANDBY → s.anyActive = false → Completes (.mode h target) s (fun t =>
          Shows [(F.MODE_STAT_TRANSIT, 0, 1), (F.MODE_STAT_TARGET, 0, mSTANDBY), (H.MODE_END, 0, s.now + 30 * us + 1),
            (H.MODE_SRC, 0, h.src + 1), (H.MODE_TAG, 0, h.tag)] t ∧ t.mode = mRUN))
      ∧ (target ≠ mSTANDBY → target ≠ mRUN → target ≠ mSLEEP → Completes (.mode h target) s (fun t =>
          OnlyReplied h 0x30 stARG [] s t))
      ∧ (target = s.mode ∨ (s.mode = mRUN ∧ target = mSLEEP) ∨ (s.mode = mRUN ∧ target = mSTANDBY ∧ s.anyActive = true) →
          Completes (.mode h target) s (fun t =>
            OnlyReplied h 0x30 stWRONG [] s t))

/-- The end of a transition (R110, R112). -/
def Obligations.ModeTransitionEnds : Prop :=
  ∀ s : State, s.get H.MODE_END 0 ≠ 0 → s.safe = [] →
    let target := s.get F.MODE_STAT_TARGET 0
    Completes .modeTransitionDone s (fun t =>
      t.mode = target % 8 ∧ t.get F.MODE_STAT_PREV_MODE 0 = s.mode % 8
        ∧ (target % 8 ≠ mCALIBRATE → t.on F.MODE_STAT_TRANSIT 0 = false ∧ t.get H.MODE_END 0 = 0)
        ∧ (target = mSLEEP → t.on F.CEL_CFG_SELF_REF 0 = true ∧ ∀ g : Fin 8, t.on H.PD_ENG g = false)
        ∧ (target ≠ mSLEEP → s.mode = mSLEEP → t.on F.CEL_CFG_SELF_REF 0 = false ∧ ∀ g : Fin 8, t.on H.PD_ENG g = true))

/-- What wakes the chip (R112). -/
def Obligations.WakeLeavesSleep : Prop :=
  ∀ (s : State) (c : WakeCause),
    (s.mode = mSLEEP → s.on F.MODE_STAT_TRANSIT 0 = false → Completes (.wake c) s (fun t =>
        Shows [(F.MODE_STAT_TRANSIT, 0, 1), (F.MODE_STAT_TARGET, 0, mSTANDBY), (H.MODE_END, 0, s.now + 2 * ms + 1),
          (H.MODE_CAUSE, 0, 3), (F.MODE_STAT_MODE, 0, mSLEEP)] t))
      ∧ (s.mode ≠ mSLEEP ∨ s.on F.MODE_STAT_TRANSIT 0 = true → Completes (.wake c) s (fun t => t = s))

/-- FAULT_RAISE for the reactions NONE, LOG and NOTIFY (R579), and for a fault that is merged (R581). -/
def Obligations.FaultTaken : Prop :=
  ∀ (s : State) (n : Fin 128) (unit : Nat),
    (n.val < 117 → s.mode ≠ mHOLD → s.on F.FLT_SUM_BUSY 0 = true → Completes (.faultRaise n unit) s (fun t =>
        Sets [(F.FLT_STAT_STICKY, n.val / 32, setBit (s.get F.FLT_STAT_STICKY (n.val / 32)) (n.val % 32)),
          (F.FLT_SUM_MERGED, 0, satAt 8 (s.get F.FLT_SUM_MERGED 0 + 1))] s t))
      ∧ (n.val < 117 → s.mode ≠ mHOLD → s.on F.FLT_SUM_BUSY 0 = false → s.react n = 0 → Completes (.faultRaise n unit) s (fun t =>
          Sets [(F.FLT_STAT_STICKY, n.val / 32, setBit (s.get F.FLT_STAT_STICKY (n.val / 32)) (n.val % 32))] s t))
      ∧ (n.val < 117 → s.mode ≠ mHOLD → s.on F.FLT_SUM_BUSY 0 = false → s.react n = 1 → Completes (.faultRaise n unit) s (fun t =>
          Sets [(F.FLT_STAT_STICKY, n.val / 32, setBit (s.get F.FLT_STAT_STICKY (n.val / 32)) (n.val % 32)),
              (F.FLT_LOG_WR_COUNT, 0, s.get F.FLT_LOG_WR_COUNT 0 + 1)] s { t with fltLog := s.fltLog }
            ∧ t.faultEntryAt (s.get F.FLT_LOG_WR_COUNT 0)
                = faultEntry n 1 (unit % 256) (s.faultSite n (unit % 256)) (s.get F.FLT_LOG_WR_COUNT 0) s.ts))
      ∧ (n.val < 117 → s.mode ≠ mHOLD → s.mode ≠ mSLEEP → s.on F.FLT_SUM_BUSY 0 = false → s.react n = 2 →
          Completes (.faultRaise n unit) s (fun t =>
            bit (t.get F.FLT_STAT_STICKY (n.val / 32)) (n.val % 32) = true ∧ bit (t.get F.IRQ_PEND_PEND 5) 13 = true
              ∧ Shows [(F.FLT_SUM_BUSY, 0, 1), (F.FLT_SUM_ACTIVE, 0, n), (F.FLT_SUM_MERGED, 0, 0), (F.FLT_SUM_ESCALATED, 0, 0),
                  (F.FLT_LOG_WR_COUNT, 0, s.get F.FLT_LOG_WR_COUNT 0 + 1),
                  (H.FLT_END, 0, s.now + s.get F.FLT_TMO_MS 0 * ms + 1)] t
              ∧ t.faultEntryAt (s.get F.FLT_LOG_WR_COUNT 0)
                  = faultEntry n 2 (unit % 256) (s.faultSite n (unit % 256)) (s.get F.FLT_LOG_WR_COUNT 0) s.ts))
      ∧ (117 ≤ n.val → Completes (.faultRaise n unit) s (fun t => t = s))

/-- FLT_ACK, the escalation and FLT_INJ (R580, R583, R587). -/
def Obligations.FaultAcknowledged : Prop :=
  (∀ (s : State) (m : Master) (v : Nat), BusTakes s m .FLT_ACK 0 → v < 2 ^ 32 →
      (s.on F.FLT_SUM_BUSY 0 = true → v % 128 = s.get F.FLT_SUM_ACTIVE 0 → Completes (.fltAck m v) s (fun t =>
          SetsResp [(F.FLT_SUM_BUSY, 0, 0), (F.FLT_SUM_MERGED, 0, 0), (H.FLT_END, 0, 0)] s t))
        ∧ (s.on F.FLT_SUM_BUSY 0 = false ∨ v % 128 ≠ s.get F.FLT_SUM_ACTIVE 0 → Completes (.fltAck m v) s (fun t =>
            t = { s with lastResp := .error })))
    ∧ (∀ s : State, s.get H.FLT_END 0 ≠ 0 → s.on F.FLT_SUM_BUSY 0 = true → s.mode ≠ mHOLD →
        s.esc (s.get F.FLT_SUM_ACTIVE 0) ≤ s.react (s.get F.FLT_SUM_ACTIVE 0) → Completes .faultEscalation s (fun t =>
          Shows [(F.FLT_SUM_ESCALATED, 0, 1), (H.FLT_END, 0, 0)] t ∧ t.on F.FLT_SUM_BUSY 0 = true
            ∧ bit (t.get F.IRQ_PEND_PEND 5) 14 = true))
    ∧ (∀ (s : State) (m : Master) (v : Nat), BusTakes s m .FLT_INJ 0 → v < 2 ^ 32 →
        (s.mode ≠ mFACTORY → Completes (.fltInj m v) s (fun t => t = { s with lastResp := .error }))
          ∧ (s.mode = mFACTORY → bit v 16 = true → bits v 0 7 < 117 → s.react (bits v 0 7) < 3 → Completes (.fltInj m v) s (fun t =>
              bit (t.get F.FLT_STAT_STICKY (bits v 0 7 / 32)) (bits v 0 7 % 32) = true ∧ t.lastResp = .done)))

/-- R594. -/
def Obligations.SoftwareInterrupts : Prop :=
  ∀ (s : State) (m : Master) (v : Nat), BusTakes s m .IRQ_SWSET 0 → v < 2 ^ 32 →
    let n := v % 256
    let may := (∃ c, m = .hearth c) ∨ m = .fabric
    let named := (132 ≤ n ∧ n ≤ 135) ∨ (192 ≤ n ∧ n ≤ 255)
    (may → named → Completes (.irqSwset m v) s (fun t =>
        bit (t.get F.IRQ_PEND_PEND (n / 32)) (n % 32) = true ∧ t.lastResp = .done))
      ∧ (¬ (may ∧ named) → Completes (.irqSwset m v) s (fun t => t = { s with lastResp := .error }))

/-- What a sample shows and what it starts (R560 to R572). -/
def Obligations.ChimneySampleTaken : Prop :=
  (∀ (s : State) (raw : List SensorRaw), raw.length ≠ 40 → exec (.chimneySample raw) s = .fault .illFormed)
    ∧ ∀ (s : State) (raw : List SensorRaw) (n : Fin 40) (x : Int), raw.length = 40 → s.coldHeld = false →
        s.on F.THM_TEMP_BROKEN n = false → s.on F.THM_TEMP_FORCED n = false → s.on H.THM_IMPL n = false →
        -32768 ≤ x → x < 32768 →
        (raw[n.val]? = some ⟨x, false, false, false⟩ → Completes (.chimneySample raw) s (fun t => t.reading n = x))
          ∧ (s.mode ≠ mHOLD → raw[n.val]? = some ⟨x, true, false, false⟩ → Completes (.chimneySample raw) s (fun t =>
              Shows [(F.THM_TEMP_BROKEN, n, 1), (F.THM_TEMP_CAUSE, n, 0), (F.THM_TEMP_READING, n, 424)] t))
          ∧ (s.mode ≠ mHOLD → raw[n.val]? = some ⟨x, false, false, false⟩ → 480 ≤ x → Completes (.chimneySample raw) s (fun t =>
              t.mode = mHOLD ∧ Shows [(F.THM_LOG_STAT_HOLD_EXIT, 0, 1), (F.THM_LOG_STAT_REC_VALID, 0, 1)] t))

/-- The rows of the thermal bands and of the thermal log (R440, R441, R576, R588), and LANE_REF (R36). -/
def Obligations.ThermalUpkeep : Prop :=
  (∀ s : State, s.get H.THM_LOG_STEP 0 ≠ 0 →
      (s.logWaits = true → s.coreCold = true → Completes .thermalLogRetry s (fun t =>
          SetsNow [(F.THM_LOG_STAT_COMMIT_PEND, 0, 1), (H.THM_LOG_STEP, 0, 2),
            (H.THM_LOG_NEXT_T, 0, max s.now (s.get H.THM_LOG_NEXT_T 0) + 1000 * ms)] s t))
        ∧ (s.coreCold = false → Completes .thermalLogRetry s (fun t =>
            Shows [(F.THM_LOG_STAT_COMMIT_PEND, 0, 0), (H.THM_LOG_STEP, 0, 0)] t)))
    ∧ (∀ (s : State) (n : Fin 40), s.get H.THM_FORCE_END n ≠ 0 → Completes (.forcedReadingExpiry n) s (fun t =>
        SetsNow [(F.THM_TEMP_FORCED, n, 0), (H.THM_FORCE_END, n, 0)] s t))
    ∧ (∀ (s : State) (r : Fin 3), s.on H.PD_CELLAR 0 = true → Completes (.refreshRateReport r) s (fun t =>
        Sets [(H.CEL_REPORT, 0, r), (H.CEL_FACTOR, 0, max (s.get F.THM_BAND_CEL 0) r),
          (F.THM_BAND_CEL_MR, 0, if s.get F.THM_BAND_CEL 0 < r.val then 1 else 0)] s t))
    ∧ (∀ (s : State) (p : Fin 8), s.get H.PO_LANE_T p ≠ 0 → s.carries p = true → Completes (.lanePresetUpdate p) s (fun t =>
        SetsNow [(H.PO_LANE, p, s.get F.THM_BAND_LANE 0), (H.PO_LANE_T, p, 0)] s t))
    ∧ (∀ s : State, s.mode ≠ mHOLD → s.react 115 < 3 → Completes .laneRef s (fun t =>
        bit (t.get F.FLT_STAT_STICKY 3) 19 = true))

/-- CH_CTRL (R132, R137, R154, R156). -/
def Obligations.ChannelControlWritten : Prop :=
  ∀ (s : State) (m : Master) (ch : Fin 512) (v : Nat), v < 2 ^ 32 → BusTakes s m .CH_CTRL ch →
    let pairBad := ch.val % 2 = 0 ∧ bit v 6 ≠ s.on F.CH_CTRL_PAIR ch ∧ s.pairOk ch = false
    (bit v 0 = true ∧ s.chTripHeld ch = true ∨ pairBad → TurnedAway (.chCtrlWrite m ch v) s)
      ∧ (¬ (bit v 0 = true ∧ s.chTripHeld ch = true) → ¬ pairBad → Completes (.chCtrlWrite m ch v) s (fun t =>
          t.lastResp = .done ∧ t.on F.CH_CTRL_DRV_EN ch = bit v 0
            ∧ Shows [(F.CH_CTRL_TERM_MODE, ch, bits v 1 2), (F.CH_CTRL_KEEP_MODE, ch, bits v 3 2),
                (F.CH_CTRL_CMP_MODE, ch, bits v 5 1), (F.CH_CTRL_BANK, ch, bits v 7 1), (F.CH_CTRL_MASK, ch, bits v 8 1)] t
            ∧ (ch.val % 2 = 0 → t.on F.CH_CTRL_PAIR ch = bit v 6)
            ∧ (bit v 0 = true → t.on F.CH_STAT_TRIPPED ch = false)
            ∧ (bit v 0 = false → Shows [(H.CH_DRV_ON, ch, 0), (H.CH_TERM_ON, ch, 0)] t)
            ∧ (ch.val % 2 = 0 → bit v 6 = true → Shows [(F.CH_CTRL_DRV_EN, ch + 1, 0), (F.PMU_CTRL_CONNECT, ch + 1, 0),
                (H.CH_DRV_ON, ch + 1, 0), (H.CH_TERM_ON, ch + 1, 0), (H.CH_PMU_ON, ch + 1, 0)] t)))

/-- The level registers and their settling (R133, R136). -/
def Obligations.LevelsWritten : Prop :=
  ∀ (s : State) (m : Master) (ch : Fin 512) (lvl : Fin 10) (v : Nat),
    (BusTakes s m (levelReg lvl) ch →
      let lim := levelLimits (s.paired ch) lvl
      let y := clampI lim.1 lim.2 (sext 16 v)
      Completes (.levelWrite m ch lvl v) s (fun t =>
        Shows [(levelField lvl, ch, code 16 y)] t
          ∧ (y ≠ sext 16 v → t.on F.CH_STAT_LVL_CLAMP ch = true)
          ∧ (y = sext 16 v → t.get F.CH_STAT_LVL_CLAMP ch = s.get F.CH_STAT_LVL_CLAMP ch)
          ∧ ((∀ i : Nat, s.chSite ch = some i → s.plays i = false) →
              Shows [(if lvl.val / 5 = s.get H.CH_BANK_NOW ch then H.CH_SETTLE_END else H.CH_SETTLE_END1, ch,
                s.now + 2 * us + 1)] t)))
      ∧ (∀ a : Nat, s.due H.CH_SETTLE_END ch = some a → s.due H.CH_SETTLE_END1 ch = none →
          Completes (.levelSettled ch) s (fun t => t.now = laterOf s a ∧ SetsNow [(H.CH_SETTLE_END, ch, 0)] s t))
      ∧ (∀ b : Nat, s.due H.CH_SETTLE_END ch = none → s.due H.CH_SETTLE_END1 ch = some b →
          Completes (.levelSettled ch) s (fun t => t.now = laterOf s b ∧ SetsNow [(H.CH_SETTLE_END1, ch, 0)] s t))
      ∧ (∀ a b : Nat, s.due H.CH_SETTLE_END ch = some a → s.due H.CH_SETTLE_END1 ch = some b →
          Completes (.levelSettled ch) s (fun t =>
            t.now = laterOf s (max a b) ∧ SetsNow [(H.CH_SETTLE_END, ch, 0), (H.CH_SETTLE_END1, ch, 0)] s t))
      ∧ (s.due H.CH_SETTLE_END ch = none → s.due H.CH_SETTLE_END1 ch = none →
          Completes (.levelSettled ch) s (fun t => t = s))

/-- PMU_CTRL and the ends of what it begins (R148 to R152, R155, R156). -/
def Obligations.PmuControlled : Prop :=
  ∀ (s : State) (m : Master) (ch : Fin 512) (v : Nat), v < 2 ^ 32 →
    (BusTakes s m .PMU_CTRL ch →
      let range := if bits v 4 3 ≤ 4 then bits v 4 3 else 4
      (s.pmuBarred ch v = true → TurnedAway (.pmuCtrlWrite m ch v) s ∧ TurnedAway (.pmuMeas m ch v) s)
        ∧ (s.pmuBarred ch v = false → ∀ c ∈ [Instr.pmuCtrlWrite m ch v, Instr.pmuMeas m ch v], Completes c s (fun t =>
            t.lastResp = .done
              ∧ Shows [(F.PMU_CTRL_MODE, ch, if bits v 0 3 ≤ 4 then bits v 0 3 else 0), (F.PMU_CTRL_AVG, ch, bits v 9 3),
                  (F.PMU_CTRL_CONNECT, ch, bits v 8 1), (F.PMU_CTRL_RANGE, ch, range)] t
              ∧ (range ≠ s.get F.PMU_CTRL_RANGE ch → Shows [(F.PMU_CTRL_RANGING, ch, 1),
                  (H.CH_PMU_RNG_END, ch, s.now + 10 * us + 1)] t)
              ∧ (bit v 12 = true → range = s.get F.PMU_CTRL_RANGE ch → s.on F.PMU_CTRL_RANGING ch = false →
                  s.on F.PMU_CTRL_BUSY ch = false → Shows [(F.PMU_CTRL_BUSY, ch, 1), (F.PMU_RESULT_VALID, ch, 0),
                    (H.CH_PMU_MEAS_END, ch, s.now + 2 ^ bits v 9 3 * (2 * us) + 1)] t))))
      ∧ (∀ a : Nat, s.due H.CH_PMU_SW_END ch = some a → Completes (.pmuConnectDone ch) s (fun t =>
          t.now = laterOf s a ∧ t.on H.CH_PMU_ON ch = s.pmuWanted ch ∧ t.get H.CH_PMU_SW_END ch = 0
            ∧ (t.pmuForcing ch = true → t.on H.CH_DRV_ON ch = false ∧ t.on H.CH_TERM_ON ch = false)))
      ∧ (∀ a : Nat, s.due H.CH_PMU_RNG_END ch = some a → s.on H.CH_PMU_MEAS_WAIT ch = false →
          Completes (.pmuRangeDone ch) s (fun t =>
            t.now = laterOf s a ∧ SetsNow [(H.CH_PMU_RNG_END, ch, 0), (F.PMU_CTRL_RANGING, ch, 0)] s t))
      ∧ (∀ a : Nat, s.due H.CH_PMU_RNG_END ch = some a → s.on H.CH_PMU_MEAS_WAIT ch = true →
          Completes (.pmuRangeDone ch) s (fun t =>
            t.now = laterOf s a ∧ SetsNow [(H.CH_PMU_RNG_END, ch, 0), (F.PMU_CTRL_RANGING, ch, 0), (H.CH_PMU_MEAS_WAIT, ch, 0),
              (H.CH_PMU_MEAS_END, ch, laterOf s a + 2 ^ s.get F.PMU_CTRL_AVG ch * (2 * us) + 1)] s t))
      ∧ (∀ (a : Nat) (mean : Int) (clamped beyond : Bool), s.due H.CH_PMU_MEAS_END ch = some a →
          Completes (.pmuMeasDone ch mean clamped beyond) s (fun t =>
            t.now = laterOf s a
              ∧ Shows [(F.PMU_CTRL_BUSY, ch, 0), (H.CH_PMU_MEAS_END, ch, 0), (F.PMU_RESULT_VALID, ch, 1)] t
              ∧ (s.on H.CH_CAL_OWNED ch = false → Shows [(F.PMU_RESULT_VALUE, ch, code 16 (clampI (-32768) 32767 mean)),
                  (F.PMU_RESULT_CLAMPED, ch, b2n clamped), (F.PMU_RESULT_OVER, ch, b2n beyond), (F.PMU_RESULT_STALE, ch, 0)] t)
              ∧ (s.on H.CH_CAL_OWNED ch = true → t.on F.PMU_RESULT_STALE ch = true
                  ∧ t.get F.PMU_RESULT_VALUE ch = s.get F.PMU_RESULT_VALUE ch)))

/-- The frame of the rows of one channel. -/
def Obligations.ChannelRowsKeepToTheirChannel : Prop :=
  ∀ (s t : State) (m : Master) (ch : Fin 512) (lvl : Fin 10) (v : Nat) (c : Instr),
    c ∈ [Instr.chCtrlWrite m ch v, Instr.levelWrite m ch lvl v, Instr.pmuCtrlWrite m ch v, Instr.pmuMeas m ch v,
      Instr.levelSettled ch, Instr.pmuConnectDone ch, Instr.pmuRangeDone ch] → exec c s = .next t →
    (∀ (f : Field) (i : Nat), i ≠ ch → i ≠ ch + 1 → t.get f i = s.get f i) ∧ FrameParts [.now, .lastResp, .pendW] s t

/-- DPS_CTRL and DPS_VSET (R331 to R343). -/
def Obligations.SupplyControlled : Prop :=
  ∀ (s : State) (m : Master) (d : Fin 64) (v : Nat), v < 2 ^ 32 →
    (BusTakes s m .DPS_CTRL d →
      (s.dpsBarred d = true → TurnedAway (.dpsCtrlWrite m d v) s)
        ∧ (dpsCtrlOpen s d v → bit v 0 = true → s.on F.DPS_CTRL_EN d = false → s.dpsEnRefusal d = 0 →
            Completes (.dpsCtrlWrite m d v) s (fun t => t.lastResp = .done ∧ ∀ g ∈ s.gangOf d,
              Shows [(F.DPS_CTRL_EN, g, 1), (F.DPS_STAT_ON, g, 1), (H.DPS_DISCH, g, 0), (H.DPS_PT_T, g, s.now + 2 * us),
                (H.DPS_POINT, g, s.get F.DPS_MON_V_VALUE g), (H.DPS_HELD, g, 0), (F.DPS_STAT_SETTLED, g, 0),
                (F.DPS_STAT_TRIPPED, g, 0)] t))
        ∧ (dpsCtrlOpen s d v → bit v 0 = true → s.on F.DPS_CTRL_EN d = false → s.dpsEnRefusal d = 1 →
            Completes (.dpsCtrlWrite m d v) s (fun t => t.lastResp = .error ∧ SetsResp [(F.DPS_STAT_THERM_REF, d, 1)] s t))
        ∧ (dpsCtrlOpen s d v → bit v 0 = true → s.on F.DPS_CTRL_EN d = false → 1 < s.dpsEnRefusal d →
            TurnedAway (.dpsCtrlWrite m d v) s)
        ∧ (dpsCtrlOpen s d v → bit v 0 = false → s.on F.DPS_CTRL_EN d = true →
            Completes (.dpsCtrlWrite m d v) s (fun t => t.lastResp = .done ∧ ∀ g ∈ s.gangOf d,
              Shows [(F.DPS_CTRL_EN, g, 0), (F.DPS_STAT_ON, g, 0), (H.DPS_DISCH, g, 1), (H.DPS_HELD, g, 0),
                (F.DPS_STAT_SETTLED, g, 0), (F.DPS_STAT_IN_LIMIT, g, 0)] t)))
      ∧ (BusTakes s m .DPS_VSET d →
        (s.dpsBarred d = true → TurnedAway (.vsetWrite m d v) s)
          ∧ (s.dpsBarred d = false →
              let y := clampI (-2000) 28000 (sext 16 v)
              Completes (.vsetWrite m d v) s (fun t => t.lastResp = .done
                ∧ SetsResp ([(F.DPS_VSET_VALUE, d.val, code 16 y), (F.DPS_STAT_SETTLED, d.val, 0),
                    (H.DPS_POINT, d.val, code H.DPS_POINT.width (s.rampAt d s.now)),
                    (H.DPS_PT_T, d.val, max s.now (s.get H.DPS_PT_T d))]
                  ++ if y = sext 16 v then [] else [(F.DPS_STAT_CLAMP, d.val, 1)]) s t)))

/-- What happens at a DPS (R327, R328, R330, R335, R336, R340, R343). -/
def Obligations.SupplyEvents : Prop :=
  ∀ (s : State) (d : Fin 64) (limited : Bool),
    let l := s.leadOf d
    (∀ a : Nat, s.rampEndAt l = some a → Completes (.rampEnd d) s (fun t =>
        t.now = laterOf s a ∧ t.getI H.DPS_POINT l = s.getI F.DPS_VSET_VALUE l
          ∧ OnlyFieldsNow [(H.DPS_POINT, l), (H.DPS_PT_T, l)] s t))
      ∧ (s.rampEndAt l = none → Completes (.rampEnd d) s (fun t => t = s))
      ∧ (s.on F.DPS_STAT_ON d = true → s.getI H.DPS_POINT l = s.getI F.DPS_VSET_VALUE l → Completes (.dpsSettled d) s (fun t =>
          t.now = laterOf s (s.get H.DPS_PT_T l + 5 * us) ∧ SetsNow [(F.DPS_STAT_SETTLED, d, 1)] s t))
      ∧ (s.on F.DPS_STAT_ON d = true → s.ramping d = false → s.on F.DPS_STAT_IN_LIMIT d = false → s.mode ≠ mHOLD →
          Completes (.regLoss d) s (fun t => Shows [(F.DPS_STAT_REG_LOSS, d, 1), (F.DPS_STAT_SETTLED, d, 0)] t
            ∧ bit (t.get F.FLT_STAT_STICKY ((88 + d.val / 8) / 32)) ((88 + d.val / 8) % 32) = true
            ∧ t.on F.DPS_STAT_ON d = true))
      ∧ (s.on F.DPS_STAT_ON d = true → Completes (.senseDrop d) s (fun t => Sets [(F.DPS_STAT_SENSE_DROP, d, 1)] s t))
      ∧ (s.on F.DPS_STAT_ON d = true → s.get F.DPS_CTRL_MEMBERS l ≠ 0 → Completes (.share d) s (fun t =>
          Sets [(F.DPS_STAT_SHARE, d, 1), (F.DPS_STAT_SHARE, l, 1)] s t))
      ∧ (s.on F.DPS_STAT_ON d = true → Completes (.currentLimit d limited) s (fun t =>
          Shows [(F.DPS_STAT_IN_LIMIT, d, b2n limited)] t
            ∧ (limited = true → t.on F.DPS_STAT_ILIM_SEEN d = true)
            ∧ (limited = true → s.ramping l = true → s.on H.DPS_HELD l = false →
                Shows [(H.DPS_HELD, l, 1), (F.DPS_STAT_RAMP_HELD, l, 1),
                  (H.DPS_POINT, l, code H.DPS_POINT.width (s.rampAt l s.now))] t)
            ∧ (limited = false → t.on H.DPS_HELD l = false)))
      ∧ (∀ a : Nat, s.due H.DPS_RNG_END d = some a → Completes (.dpsRangeDone d) s (fun t =>
          t.now = laterOf s a ∧ SetsNow [(H.DPS_RNG_END, d, 0)] s t))
      ∧ (s.on F.DPS_STAT_ON d = false → ∀ c ∈ [Instr.dpsSettled d, Instr.regLoss d, Instr.senseDrop d, Instr.share d,
          Instr.currentLimit d limited], Completes c s (fun t => t = s))

/-- DPS_MEAS, SMU_MEAS, the samples and the end of a measurement (R357, R358, R404). -/
def Obligations.MeasurementsRun : Prop :=
  ∀ (s : State) (m : Master) (d : Fin 64) (u : Fin 32) (v : Nat), v < 2 ^ 32 →
    (BusTakes s m .DPS_MEAS d → bit v 3 = true → s.on F.DPS_MEAS_BUSY d = false → s.on H.DPS_CAL_OWNED d = false →
        Completes (.dpsMeas m d v) s (fun t => t.lastResp = .done ∧ SetsResp [(F.DPS_MEAS_AVG, d, v % 8), (F.DPS_MEAS_BUSY, d, 1),
          (F.DPS_RES_STAT_VALID, d, 0), (H.DPS_MEAS_LEFT, d, 2 ^ (v % 8)), (H.DPS_MEAS_N, d, 2 ^ (v % 8)),
          (H.DPS_SUM_V, d, 2 ^ 63), (H.DPS_SUM_I, d, 2 ^ 63), (H.DPS_ACC_LIM, d, 0), (H.DPS_ACC_OVER, d, 0)] s t))
      ∧ (BusTakes s m .SMU_MEAS u → bit v 3 = true → s.on F.SMU_MEAS_BUSY u = false → s.on H.SMU_CAL_OWNED u = false →
        Completes (.smuMeas m u v) s (fun t => t.lastResp = .done ∧ SetsResp [(F.SMU_MEAS_AVG, u, v % 8), (F.SMU_MEAS_BUSY, u, 1),
          (F.SMU_RES_STAT_VALID, u, 0), (H.SMU_MEAS_LEFT, u, 2 ^ (v % 8)), (H.SMU_MEAS_N, u, 2 ^ (v % 8)),
          (H.SMU_SUM_V, u, 2 ^ 63), (H.SMU_SUM_I, u, 2 ^ 63), (H.SMU_ACC_LIM, u, 0), (H.SMU_ACC_OVER, u, 0)] s t))
      ∧ (∀ (x y : Int) (limited beyond : Bool), s.tileOn (d.val / 8) = true → s.on H.DPS_CAL_OWNED d = false →
        Completes (.monitorSample (.dps d) x y limited beyond) s (fun t =>
          t.now = s.sampleTime H.DPS_SAMP_T d ∧ s.localAt t.now % (1500 * coreCycle) = 0
            ∧ Shows [(F.DPS_MON_V_VALUE, d, code 16 (clampI (-32768) 32767 x)),
                (F.DPS_MON_I_VALUE, d, code 32 (clampI (-2147483648) 2147483647 y))] t
            ∧ (s.on F.DPS_MEAS_BUSY d = true → s.get H.DPS_MEAS_LEFT d ≠ 0 → s.due H.DPS_RNG_END d = none →
                Shows [(H.DPS_MEAS_LEFT, d, s.get H.DPS_MEAS_LEFT d - 1)] t
                  ∧ (limited = true → t.on H.DPS_ACC_LIM d = true) ∧ (beyond = true → t.on H.DPS_ACC_OVER d = true))
            ∧ (s.on F.DPS_MEAS_BUSY d = false → t.get H.DPS_MEAS_LEFT d = s.get H.DPS_MEAS_LEFT d)))
      ∧ (∀ (x y : Int) (limited beyond : Bool), s.tileOn (u.val / 4) = true → s.on H.SMU_CAL_OWNED u = false →
        Completes (.monitorSample (.smu u) x y limited beyond) s (fun t =>
          t.now = s.sampleTime H.SMU_SAMP_T u
            ∧ Shows [(F.SMU_MON_V_VALUE, u, code 32 (clampI (-2147483648) 2147483647 x)),
                (F.SMU_MON_I_VALUE, u, code 32 (clampI (-2147483648) 2147483647 y))] t))
      ∧ (s.on F.DPS_MEAS_BUSY d = true → s.get H.DPS_MEAS_LEFT d = 0 → s.on H.DPS_CAL_OWNED d = false →
        Completes (.measurementDone (.dps d)) s (fun t =>
          Shows [(F.DPS_MEAS_BUSY, d, 0), (F.DPS_RES_STAT_VALID, d, 1), (F.DPS_RES_STAT_STALE, d, 0)] t
            ∧ t.on F.DPS_RES_STAT_LIMITED d = s.on H.DPS_ACC_LIM d ∧ t.on F.DPS_RES_STAT_OVER d = s.on H.DPS_ACC_OVER d
            ∧ MeanCode F.DPS_RES_V_VALUE.width (s.sumOf H.DPS_SUM_V d) (s.get H.DPS_MEAS_N d) (t.get F.DPS_RES_V_VALUE d)
            ∧ MeanCode F.DPS_RES_I_VALUE.width (s.sumOf H.DPS_SUM_I d) (s.get H.DPS_MEAS_N d) (t.get F.DPS_RES_I_VALUE d)))
      ∧ (s.on F.SMU_MEAS_BUSY u = true → s.get H.SMU_MEAS_LEFT u = 0 → s.on H.SMU_CAL_OWNED u = false →
        Completes (.measurementDone (.smu u)) s (fun t =>
          Shows [(F.SMU_MEAS_BUSY, u, 0), (F.SMU_RES_STAT_VALID, u, 1), (F.SMU_RES_STAT_STALE, u, 0)] t
            ∧ MeanCode F.SMU_RES_V_VALUE.width (s.sumOf H.SMU_SUM_V u) (s.get H.SMU_MEAS_N u) (t.get F.SMU_RES_V_VALUE u)
            ∧ MeanCode F.SMU_RES_I_VALUE.width (s.sumOf H.SMU_SUM_I u) (s.get H.SMU_MEAS_N u) (t.get F.SMU_RES_I_VALUE u)))

/-- SMU_CTRL, SMU_STAT and what happens at an SMU (R346, R347, R349, R354, R356). -/
def Obligations.SmuControlled : Prop :=
  ∀ (s : State) (m : Master) (u : Fin 32) (v : Nat), v < 2 ^ 32 →
    let asIs := bits v 5 3 = s.get F.SMU_CTRL_IRANGE u ∧ bits v 5 3 ≤ 4 ∧ bits v 4 1 = s.get F.SMU_CTRL_VRANGE u
      ∧ bits v 3 1 = s.get F.SMU_CTRL_FMODE u ∧ bits v 1 2 = 0 ∧ s.get F.SMU_CTRL_SRC u = 0
    (BusTakes s m .SMU_CTRL u →
      (s.on H.SMU_CAL_OWNED u = true → TurnedAway (.smuCtrlWrite m u v) s)
        ∧ (bit v 0 = true → s.on F.SMU_CTRL_EN u = false → s.smuEnRefusal u ≠ 0 → TurnedAway (.smuCtrlWrite m u v) s)
        ∧ (asIs → s.on H.SMU_CAL_OWNED u = false → bit v 0 = true → s.on F.SMU_CTRL_EN u = false → s.smuEnRefusal u = 0 →
            Completes (.smuCtrlWrite m u v) s (fun t => t.lastResp = .done
              ∧ SetsResp [(F.SMU_CTRL_EN, u, 1), (H.SMU_SW_END, u, s.now + 20 * us + 1), (F.SMU_STAT_CLOSED, u, b2n (s.smuClosed u)),
                (H.SMU_DAC, u, s.get F.SMU_SET_VALUE u), (H.SMU_DAC0, u, 0), (H.SMU_STAGE, u, 1), (F.SMU_STAT_TRIPPED, u, 0),
                (F.SMU_CTRL_IRANGE, u, bits v 5 3), (F.SMU_CTRL_VRANGE, u, bits v 4 1), (F.SMU_CTRL_FMODE, u, bits v 3 1)] s t))
        ∧ (asIs → s.on H.SMU_CAL_OWNED u = false → bit v 0 = false → s.on F.SMU_CTRL_EN u = true →
            Completes (.smuCtrlWrite m u v) s (fun t => t.lastResp = .done
              ∧ Shows [(F.SMU_CTRL_EN, u, 0), (H.SMU_SW_END, u, s.now + 20 * us + 1), (H.SMU_STAGE, u, 0)] t)))
      ∧ (s.on F.SMU_CTRL_EN u = true → Completes (.smuCompliance u true) s (fun t =>
          Sets [(F.SMU_STAT_IN_COMP, u, 1), (F.SMU_STAT_COMP_SEEN, u, 1)] s t))
      ∧ (s.on F.SMU_CTRL_EN u = true → Completes (.smuCompliance u false) s (fun t => Sets [(F.SMU_STAT_IN_COMP, u, 0)] s t))
      ∧ (∀ a : Nat, s.due H.SMU_RNG_END u = some a → Completes (.smuRangeDone u) s (fun t =>
          t.now = laterOf s a ∧ SetsNow [(H.SMU_RNG_END, u, 0)] s t))
      ∧ (s.on F.SMU_CTRL_EN u = true → s.on F.SMU_STAT_IN_COMP u = false → s.smuRanging u = false →
          s.on H.SMU_CAL_OWNED u = false → s.mode ≠ mHOLD → Completes (.supervisionMismatch u) s (fun t =>
            Shows [(F.SMU_STAT_MISMATCH, u, 1), (F.SMU_CTRL_EN, u, 0), (H.SMU_DAC0, u, 1), (F.SMU_STAT_IN_COMP, u, 0)] t
              ∧ bit (t.get F.FLT_STAT_STICKY ((96 + u.val / 4) / 32)) ((96 + u.val / 4) % 32) = true))
      ∧ (BusTakes s m .SMU_STAT u → Completes (.mismatchClear m u v) s (fun t => t.lastResp = .done
          ∧ (bit v 3 = true → s.on F.SMU_CTRL_EN u = false → t.on F.SMU_STAT_MISMATCH u = false)
          ∧ (s.on F.SMU_CTRL_EN u = true → t.get F.SMU_STAT_MISMATCH u = s.get F.SMU_STAT_MISMATCH u)
          ∧ OnlyFieldsResp [(F.SMU_STAT_CLAMP, u), (F.SMU_STAT_COMP_SEEN, u), (F.SMU_STAT_CLIP, u), (F.SMU_STAT_MISMATCH, u),
              (F.SMU_STAT_TRIP_SEEN, u)] s t))

/-- The sine generator (R345, R350, R352).  The table of sines and the rounding are free. -/
def Obligations.SineGenerated : Prop :=
  ∀ (s : State) (m : Master) (u : Fin 32) (v : Nat), v < 2 ^ 32 →
    (BusTakes s m .SMU_SINE_FREQ u → s.on H.SMU_CAL_OWNED u = true → TurnedAway (.sineFreqWrite m u v) s)
      ∧ (BusTakes s m .SMU_SINE_FREQ u → s.on H.SMU_CAL_OWNED u = false → Completes (.sineFreqWrite m u v) s (fun t =>
          t.lastResp = .done ∧ SetsResp [(F.SMU_SINE_FREQ_FREQ, u, min v 8947849), (H.SMU_LOAD_PH, u, 1)] s t))
      ∧ Completes (.sineGeneratorStep u) s (fun t =>
          let ph := if s.on H.SMU_LOAD_PH u then s.get F.SMU_SINE_PHASE0_PHASE u
            else s.get H.SMU_PHASE u + s.get F.SMU_SINE_FREQ_FREQ u
          t.now = s.sineTime u ∧ Shows [(H.SMU_PHASE, u, ph), (H.SMU_MOD_T, u, s.sineTime u + 1)] t
            ∧ t.on H.SMU_LOAD_PH u = false
            ∧ (s.get F.SMU_CTRL_SRC u ≠ 2 → OnlyFieldsNow [(H.SMU_PHASE, u), (H.SMU_MOD_T, u), (H.SMU_LOAD_PH, u)] s t)
            ∧ (s.get F.SMU_CTRL_SRC u = 2 → ∃ e : Nat, e < 2 ∧ Shows [(H.SMU_DAC, u, code H.SMU_DAC.width
                (clampI (-4200000) 4200000 ((s.getI F.SMU_SET_VALUE u * 2 ^ 30
                  + (s.get F.SMU_SINE_AMPL_AMPL u : Int) * sineOf (ph % 2 ^ 32)) / 2 ^ 30 + (e : Int))))] t))

/-- The order and the times of an output removal (R74), and the safe state of each kind of output (R62). -/
def Obligations.SafeSequenceRuns : Prop :=
  ∀ (s : State) (sc : SafeScope) (t0 : Nat),
    (s.safe = [] → Completes .safeStateSequence s (fun t => t = s))
      ∧ (s.safe = [⟨sc, t0, 1, none, none⟩] → Completes .safeStateSequence s (fun t =>
          t.now = laterOf s (t0 + 1200 * ns) ∧ t.safe = [⟨sc, t0, 2, none, none⟩] ∧ ∀ ch ∈ s.scopeChans sc,
            Shows [(F.CH_CTRL_DRV_EN, ch, 0), (F.PMU_CTRL_CONNECT, ch, 0), (H.CH_DRV_ON, ch, 0), (H.CH_TERM_ON, ch, 0),
              (H.CH_PMU_ON, ch, 0)] t))
      ∧ (s.safe = [⟨sc, t0, 2, none, none⟩] → Completes .safeStateSequence s (fun t =>
          t.now = laterOf s (t0 + 1500 * ns) ∧ t.safe = [⟨sc, t0, 3, none, none⟩] ∧ ∀ d ∈ scopeDps sc,
            Shows [(F.DPS_CTRL_EN, d, 0), (F.DPS_STAT_ON, d, 0), (H.DPS_DISCH, d, 1)] t))
      ∧ (s.safe = [⟨sc, t0, 3, none, none⟩] → Completes .safeStateSequence s (fun t =>
          t.now = laterOf s (t0 + 20 * us) ∧ t.safe = [] ∧ ∀ u ∈ scopeSmus sc,
            Shows [(F.SMU_CTRL_EN, u, 0), (F.SMU_STAT_CLOSED, u, 0), (H.SMU_DAC0, u, 1)] t))

/-- FAULT_INJ and TEST_ACCESS (R587, R588, R620). -/
def Obligations.InjectionAndFuses : Prop :=
  ∀ (s : State) (h : Hdr), HostServes s legalFactory →
    (∀ index unit : Nat, index < 117 → Completes (.injectFault h index unit) s (fun t =>
        bit (t.get F.FLT_STAT_STICKY (index / 32)) (index % 32) = true))
      ∧ (∀ index unit : Nat, 117 ≤ index → Completes (.injectFault h index unit) s (OnlyReplied h 0x3A stARG [] s))
      ∧ (∀ index : Nat, index < 256 → index ≠ 190 → index ≠ 191 → Completes (.injectInterrupt h index) s (fun t =>
          bit (t.get F.IRQ_PEND_PEND (index / 32)) (index % 32) = true ∧ Replied h 0x3A stOK [] s t))
      ∧ (∀ n v : Nat, n < 40 → Completes (.injectSensorReading h n v 0) s (fun t =>
          Shows [(F.THM_TEMP_FORCED, n, 1), (H.THM_FORCE_VAL, n, v), (H.THM_FORCE_END, n, 0)] t ∧ Replied h 0x3A stOK [] s t))
      ∧ (∀ n v hold : Nat, n < 40 → 0 < hold → Completes (.injectSensorReading h n v hold) s (fun t =>
          Shows [(F.THM_TEMP_FORCED, n, 1), (H.THM_FORCE_VAL, n, v), (H.THM_FORCE_END, n, s.now + hold * ms + 1)] t
            ∧ Replied h 0x3A stOK [] s t))
      ∧ (∀ n cause : Nat, 40 ≤ n → Completes (.injectSensorBroken h n cause) s (OnlyReplied h 0x3A stARG [] s))
      ∧ (∀ n cause : Nat, n < 40 → Completes (.injectSensorBroken h n cause) s (fun t =>
          t.on F.THM_TEMP_BROKEN n = true))
      ∧ (∀ w : Nat, w < 4096 → Completes (.fuseRead h w) s
          (OnlyReplied h 0x3B stOK (leBytes 4 (if w / 32 = 110 then 0 else s.fuse w)) s))
      ∧ (∀ w v : Nat, w < 3328 → v < 2 ^ 32 → s.lc = lcDEVELOP → s.coreCold = false → Completes (.fuseOr h w v) s (fun t =>
          t.fuse w = s.fuse w ||| v ∧ (∀ x, x ≠ w → t.fuse x = s.fuse x) ∧ Replied h 0x3B stOK [] s t ∧ t.ff = s.ff))
      ∧ (∀ w v : Nat, w < 3328 → s.lc ≠ lcDEVELOP → Completes (.fuseOr h w v) s (OnlyReplied h 0x3B stPROTECTED [] s))
      ∧ Completes (.versionRead h) s
          (OnlyReplied h 0x3B stOK (leBytes 4 (s.get F.SEC_ROM_VER_VERSION 0) ++ leBytes 4 (s.get F.SEC_FW_VER_VERSION 0)) s)

/-- Crossings of a window monitor (R368 to R372, R377). -/
def Obligations.MonitorsLatchAndTrip : Prop :=
  ∀ (s : State) (i : Fin 160) (high : Bool) (input : Int),
    let j := monIdx i
    (¬ crossingCounts s j high input → Completes (.monitorCrossing i high input) s (fun t =>
        Sets [(H.MON_IN, j, (input + 2 ^ 63).toNat)] s t))
      ∧ (crossingCounts s j high input → s.latched j = true → Completes (.monitorCrossing i high input) s (fun t =>
          Sets (crossingSets s j high input) s t))
      ∧ (crossingCounts s j high input → s.latched j = false → s.monOwned j = false →
          Completes (.monitorCrossing i high input) s (fun t =>
            Shows (crossingSets s j high input) t ∧ t.on F.MON_STAT_LATCH j = true
              ∧ t.get2 F.MON_TRIP_TS_LO_TS_LO F.MON_TRIP_TS_HI_TS_HI j = s.ts / 4096 * 4096 % 2 ^ 64
              ∧ (s.on F.MON_CTRL_TRIP_EN j = true →
                  (monIsDps j = true → ∀ g ∈ s.gangOf (monDps j),
                      Shows [(F.DPS_CTRL_EN, g, 0), (F.DPS_STAT_ON, g, 0), (H.DPS_DISCH, g, 1), (F.DPS_STAT_TRIPPED, g, 1)] t)
                    ∧ (monIsDps j = false → Shows [(F.SMU_CTRL_EN, monSmu j, 0), (F.SMU_STAT_TRIPPED, monSmu j, 1)] t)
                    ∧ (∀ (site : Nat) (e : SiteEntry), s.monSite j = some site → s.entryOf site = some e → ∀ ch ∈ e.channels,
                        Shows [(F.CH_CTRL_DRV_EN, ch, 0), (F.PMU_CTRL_CONNECT, ch, 0), (H.CH_DRV_ON, ch, 0), (H.CH_TERM_ON, ch, 0),
                          (H.CH_PMU_ON, ch, 0), (F.CH_STAT_TRIPPED, ch, 1)] t)
                    ∧ (s.mode ≠ mHOLD → bit (t.get F.FLT_STAT_STICKY ((64 + j / 20) / 32)) ((64 + j / 20) % 32) = true))))

/-- The registers of a monitor and its arming (R363 to R377). -/
def Obligations.MonitorsSetAndArm : Prop :=
  ∀ (s : State) (m : Master) (i : Fin 160) (v : Nat) (input : Int), v < 2 ^ 32 →
    let j := monIdx i
    (BusTakes s m .MON_CTRL j → monCtrlRefused s j v → TurnedAway (.monCtrlWrite m i v) s)
      ∧ (BusTakes s m .MON_CTRL j → ¬ monCtrlRefused s j v → Completes (.monCtrlWrite m i v) s (fun t => t.lastResp = .done
          ∧ Shows [(F.MON_CTRL_EN, j, bits v 0 1), (F.MON_CTRL_TRIP_EN, j, bits v 1 1), (F.MON_CTRL_SPEED, j, bits v 2 2),
              (F.MON_CTRL_CLR_MODE, j, bits v 4 1), (F.MON_CTRL_HI_EN, j, bits v 5 1), (F.MON_CTRL_LO_EN, j, bits v 6 1),
              (F.MON_CTRL_SCOPE, j, bits v 7 1), (F.MON_CTRL_SCALE, j, scaleStored j (bits v 9 3)),
              (F.MON_CTRL_SELFCHK, j, bits v 12 2), (F.MON_CTRL_SEL, j, if monIsDps j then 0 else bits v 8 1)] t))
      ∧ (BusTakes s m .MON_HI j → Completes (.monThresholdWrite m i .hi v) s (fun t => t.lastResp = .done
          ∧ Shows [(F.MON_HI_VALUE, j, v % 2 ^ thrWidth j), (H.MON_SET_END, j, s.now + 2 * us + 1)] t))
      ∧ (BusTakes s m .MON_LO j → Completes (.monThresholdWrite m i .lo v) s (fun t => t.lastResp = .done
          ∧ Shows [(F.MON_LO_VALUE, j, v % 2 ^ thrWidth j), (H.MON_SET_END, j, s.now + 2 * us + 1)] t))
      ∧ (BusTakes s m .MON_HYST j → Completes (.monThresholdWrite m i .hyst v) s (fun t => t.lastResp = .done
          ∧ Shows [(F.MON_HYST_VALUE, j, max v (if monIsDpsV j then 20 else monFull j / 1024)),
              (H.MON_SET_END, j, s.now + 2 * us + 1)] t))
      ∧ (∀ a : Nat, s.due H.MON_SET_END j = some a → Completes (.thresholdSettled i) s (fun t => t.now = laterOf s a
          ∧ Shows [(H.MON_SET_END, j, 0), (H.MON_CHG, j, 0)] t
          ∧ (bit (s.get H.MON_CHG j) 0 = true → t.get F.MON_STAT_ARM_HI j =
              if s.on F.MON_CTRL_EN j = false ∨ s.on F.MON_CTRL_HI_EN j = false then 3
              else if t.monHi j < s.monIn j then 2 else if t.monHi j - s.monHyst j ≤ s.monIn j then 1 else 0)
          ∧ (bit (s.get H.MON_CHG j) 1 = true → t.get F.MON_STAT_ARM_LO j =
              if s.on F.MON_CTRL_EN j = false ∨ s.on F.MON_CTRL_LO_EN j = false then 3
              else if s.monIn j < t.monLo j then 2 else if s.monIn j ≤ t.monLo j + s.monHyst j then 1 else 0)
          ∧ OnlyFieldsNow [(H.MON_SET_END, j), (H.MON_CHG, j), (F.MON_STAT_ARM_HI, j), (F.MON_STAT_ARM_LO, j)] s t))
      ∧ Completes (.thresholdArming i input) s (fun t =>
          (s.get F.MON_STAT_ARM_HI j = 1 ∨ s.get F.MON_STAT_ARM_HI j = 2 → input < s.monHi j - s.monHyst j →
              t.get F.MON_STAT_ARM_HI j = 0)
            ∧ (s.get F.MON_STAT_ARM_LO j = 1 ∨ s.get F.MON_STAT_ARM_LO j = 2 → s.monLo j + s.monHyst j < input →
                t.get F.MON_STAT_ARM_LO j = 0)
            ∧ (s.get F.MON_STAT_ARM_HI j = 0 → t.get F.MON_STAT_ARM_HI j = 0)
            ∧ (s.get F.MON_STAT_ARM_HI j = 2 → s.monHi j - s.monHyst j ≤ input → t.get F.MON_STAT_ARM_HI j = 2)
            ∧ OnlyFields [(H.MON_IN, j), (F.MON_STAT_ARM_HI, j), (F.MON_STAT_ARM_LO, j)] s t)
      ∧ (BusTakes s m .MON_STAT j → bit v 0 = true → Completes (.monLatchClear m i v) s (fun t => t.lastResp = .done
          ∧ t.latched j = false ∧ (s.latched j = true → Shows [(F.MON_STAT_LATCH_HI, j, 0), (F.MON_STAT_LATCH_LO, j, 0)] t)
          ∧ OnlyFieldsResp [(F.MON_STAT_LATCH, j), (F.MON_STAT_LATCH_HI, j), (F.MON_STAT_LATCH_LO, j), (F.MON_STAT_ARM_HI, j),
              (F.MON_STAT_ARM_LO, j)] s t))
      ∧ (s.on F.MON_CTRL_CLR_MODE j = true → s.get F.MON_PERIOD_US j ≠ 0 → s.on F.MON_CTRL_EN j = true →
          Completes (.monPeriodBoundary i) s (fun t => t.latched j = false ∧ s.now ≤ t.now))

/-- Timing sets, deskew, tile phase and offset (R164, R169, R174, R176, R193). -/
def Obligations.TimingSetsAndDeskew : Prop :=
  ∀ (s : State) (m : Master) (v : Nat), v < 2 ^ 32 →
    (∀ (site : Fin 64) (set : Fin 16), BusTakes s m .TSET_PER (site.val * 16 + set.val) →
        Completes (.timingSetWrite m (.period site set) v) s (fun t => t.lastResp = .done
          ∧ SetsResp ([(F.TSET_PER_CYC_M1, site.val * 16 + set.val, bits v 0 20), (F.TSET_PER_FINE, site.val * 16 + set.val, min (bits v 20 10) 666)]
              ++ if 666 < bits v 20 10 then [(F.SITE_TSTAT_PER_CLAMP, site.val, 1)] else []) s t))
      ∧ (∀ (ch : Fin 512) (set : Fin 16) (e : Fin 6), BusTakes s m .TS_EDGE (ch * 96 + set * 6 + e) →
          Completes (.timingSetWrite m (.edge ch set e) v) s (fun t => t.lastResp = .done
            ∧ SetsResp [(F.TS_EDGE_TIME, ch * 96 + set * 6 + e, bits v 0 30)] s t))
      ∧ (∀ ch : Fin 512, BusTakes s m .CH_DSK ch →
          let d := code 13 (clampI (-4095) 4095 (sext 13 v))
          let c := code 13 (clampI (-4095) 4095 (sext 13 (v / 65536)))
          ((∀ i : Nat, s.chSite ch = some i → s.active i = false) → Completes (.chDskWrite m ch v) s (fun t => t.lastResp = .done
              ∧ SetsResp [(F.CH_DSK_DSK_DRV, ch, d), (F.CH_DSK_DSK_CMP, ch, c), (H.CH_DSK_USE_DRV, ch, d),
                  (H.CH_DSK_USE_CMP, ch, c)] s t))
            ∧ (∀ i : Nat, s.chSite ch = some i → s.active i = true → Completes (.chDskWrite m ch v) s (fun t => t.lastResp = .done
                ∧ SetsResp [(F.CH_DSK_DSK_DRV, ch, d), (F.CH_DSK_DSK_CMP, ch, c), (F.CH_DSK_PEND, ch, 1)] s t)))
      ∧ (BusTakes s m .CHIP_OFFSET 0 → s.anyActive = true → TurnedAway (.chipOffsetWrite m v) s)
      ∧ (BusTakes s m .CHIP_OFFSET 0 → s.anyActive = false → Completes (.chipOffsetWrite m v) s (fun t => t.lastResp = .done
          ∧ Shows [(F.CHIP_OFFSET_OFFSET, 0, v % 2 ^ 24), (F.SKEW_CAL_DRIFT, 0, 0)] t
          ∧ OnlyFieldsResp [(F.CHIP_OFFSET_OFFSET, 0), (F.SKEW_CAL_TJ, 0), (F.SKEW_CAL_DRIFT, 0)] s t))
      ∧ (∀ (p : Fin 8) (err corr : Int), Completes (.tilePhaseMeasure p err corr) s (fun t =>
          Shows [(F.TPH_STAT_ERR, p, code 16 err), (F.TPH_CORR_CORR, p, code 16 corr)] t
            ∧ (6 < err.natAbs → t.on F.TPH_STAT_OVER p = true
                ∧ (s.mode ≠ mHOLD → bit (t.get F.IRQ_PEND_PEND 4) (16 + p) = true))
            ∧ (∀ (site : Fin 64) (e : SiteEntry), s.entryOf site = some e → e.tile = p →
                (s.active site = false → t.get H.TPH_SITE_CORR site = code 16 corr)
                  ∧ (s.active site = true → t.get H.TPH_SITE_CORR site = s.get H.TPH_SITE_CORR site))))

/-- The timebase and the trigger bus (R177 to R187, R380). -/
def Obligations.TimebaseAndTriggers : Prop :=
  ∀ (s : State) (m : Master) (i : Fin 8) (v : Nat), v < 2 ^ 32 →
    let edge := s.now + 8 * 15 * 2000
    let load := s.get2 F.SYNC_LOAD_LO_LOAD_LO F.SYNC_LOAD_HI_LOAD_HI 0
    let next := (load + s.get F.SYNC_STEP_STEP 0) % 2 ^ 52
    (s.get F.TB_CTRL_SYNC_MODE 0 = 1 → s.loadBarred = false → s.now < 2 ^ 128 → load < 2 ^ 52 →
        Completes .syncEvent s (fun t => t.now = edge ∧ t.coarseAt edge = load
          ∧ Shows [(F.SYNC_STAT_COUNT, 0, s.get F.SYNC_STAT_COUNT 0 + 1), (F.SYNC_STAT_LOADED, 0, 1), (F.SYNC_STAT_UNSYNCED, 0, 0),
              (F.TB_CTRL_SYNC_MODE, 0, 2)] t
          ∧ t.get2 F.SYNC_LOAD_LO_LOAD_LO F.SYNC_LOAD_HI_LOAD_HI 0 = next))
      ∧ (s.get F.TB_CTRL_SYNC_MODE 0 = 1 → s.loadBarred = true → Completes .syncEvent s (fun t => t.now = edge
          ∧ t.on F.SYNC_STAT_IGNORED 0 = true ∧ t.get F.TB_CTRL_SYNC_MODE 0 = 1 ∧ t.get H.TB_ORIGIN 0 = s.get H.TB_ORIGIN 0))
      ∧ (s.get F.TB_CTRL_SYNC_MODE 0 = 2 → s.on H.TB_RELOAD 0 = false → Completes .syncEvent s (fun t => t.now = edge
          ∧ t.get2 F.SYNC_TS_LO_TS_LO F.SYNC_TS_HI_TS_HI 0 = stampOf (s.localAt edge) % 2 ^ 64
          ∧ (s.get F.SYNC_STEP_STEP 0 ≠ 0 → s.coarseAt edge ≠ load → t.on F.SYNC_STAT_SLIP 0 = true)
          ∧ t.get2 F.SYNC_LOAD_LO_LOAD_LO F.SYNC_LOAD_HI_LOAD_HI 0 = next ∧ t.get H.TB_ORIGIN 0 = s.get H.TB_ORIGIN 0))
      ∧ (s.get F.TB_CTRL_SYNC_MODE 0 = 0 ∨ s.get F.TB_CTRL_SYNC_MODE 0 = 3 → Completes .syncEvent s (fun t => t.now = edge
          ∧ Shows [(F.SYNC_STAT_COUNT, 0, s.get F.SYNC_STAT_COUNT 0 + 1)] t ∧ t.get H.TB_ORIGIN 0 = s.get H.TB_ORIGIN 0
          ∧ t.get2 F.SYNC_LOAD_LO_LOAD_LO F.SYNC_LOAD_HI_LOAD_HI 0 = load))
      ∧ Completes .timebaseWrap s (fun t => t.now = laterOf s s.wrapTime
          ∧ Shows [(F.TB_EPOCH_EPOCH, 0, s.get F.TB_EPOCH_EPOCH 0 + 1)] t)
      ∧ (BusTakes s m .TRIG_FIRE_LO i → s.unsynced = true → TurnedAway (.trigFire m i v) s)
      ∧ (BusTakes s m .TRIG_FIRE_LO i → s.unsynced = false → Completes (.trigFire m i v) s (fun t =>
          let at_ := s.whenCommon (v + s.get F.TRIG_FIRE_HI_F_HI i * 2 ^ 32)
          t.lastResp = .done ∧ SetsResp ([(F.TRIG_FIRE_LO_F_LO, i.val, v), (F.TRIG_STAT_ARMED, i.val, 1),
            (H.TRIG_LEFT, i.val, max 1 (s.get F.TRIG_REP_COUNT i)), (H.TRIG_NEXT_T, i.val, max at_ s.now)]
              ++ if at_ < s.now then [(F.TRIG_STAT_FIRE_LATE, i.val, 1)] else []) s t))
      ∧ (s.on F.TRIG_STAT_ARMED i = true → Completes (.trigEmit i) s (fun t =>
          let at_ := s.get H.TRIG_NEXT_T i
          t.now = laterOf s at_
            ∧ Shows [(H.TRIG_LEFT, i, s.get H.TRIG_LEFT i - 1), (H.TRIG_NEXT_T, i, at_ + s.get F.TRIG_REP_INTERVAL i * 2000)] t
            ∧ (t.on F.TRIG_STAT_ARMED i = true ↔ s.get H.TRIG_LEFT i - 1 ≠ 0)
            ∧ (s.trigOut i = true → Shows [(F.TRIG_STAT_ARR_COUNT, i, s.get F.TRIG_STAT_ARR_COUNT i + 1)] t
                ∧ t.get2 F.TRIG_ARR_LO_A_LO F.TRIG_ARR_HI_A_HI i = stampOf (s.commonAt at_) % 2 ^ 64)))
      ∧ (∀ a : Nat, Completes (.trigArrival i a) s (fun t =>
          let act := a + s.get F.TRIG_LAT_CYCLES 0 * 2000 - s.get F.TRIG_COMP_COMP i * 3
          t.now = laterOf s a ∧ Shows [(F.TRIG_STAT_ARR_COUNT, i, s.get F.TRIG_STAT_ARR_COUNT i + 1)] t
            ∧ t.get2 F.TRIG_ARR_LO_A_LO F.TRIG_ARR_HI_A_HI i = stampOf (s.commonAt a) % 2 ^ 64
            ∧ (s.on F.TRIG_CFG_ACT_EN i = true → (qGet s.trigActs i).length < 4 →
                qGet t.trigActs i = qGet s.trigActs i ++ [max act (a + 40 * ns)]
                  ∧ (act < a + 40 * ns → t.on F.TRIG_STAT_ACT_LATE i = true))
            ∧ (s.on F.TRIG_CFG_ACT_EN i = true → 4 ≤ (qGet s.trigActs i).length →
                qGet t.trigActs i = qGet s.trigActs i ∧ t.on F.TRIG_STAT_OVERRUN i = true)))
      ∧ (∀ (x : Nat) (l : List Nat), qGet s.trigActs i = x :: l → Completes (.trigAction i) s (fun t =>
          let a := l.foldl min x
          t.now = laterOf s a ∧ qGet t.trigActs i = (x :: l).erase a
            ∧ ∀ site : Fin 64, s.get H.SQ_WAIT site = 3 → s.get F.SITE_TCTRL_TRIG_LINE site = i →
                Shows [(H.SQ_WAIT, site, 2), (H.SQ_START_AT, site, max a (s.get H.ST_ACCEPT_T site + 2 * us))] t))
      ∧ (BusTakes s m .TRIG_ACC_CTRL i → bit v 0 = true → Completes (.trigAccEnable m i v) s (fun t => t.lastResp = .done
          ∧ SetsResp [(F.TRIG_ACC_CTRL_EN, i, 1), (F.TRIG_ACC_CTRL_WIN, i, max 1 (bits v 8 8)),
              (F.TRIG_ACC_CTRL_STEP, i, max 90 (bits v 16 16)), (F.TRIG_ACC_SUM_SUM, i, 0), (F.TRIG_ACC_CNT_CNT, i, 0),
              (H.TRIG_ACC_STOP, i, 0), (H.TRIG_ACC_K, i, 0)] s t))

/-- The Pantry (R20, R203, R220, R227). -/
def Obligations.PantryServes : Prop :=
  ∀ (s : State) (m : Master),
    (∀ (k : Nat) (x : PanLine), k < 64 → (∀ j : Nat, j < k → s.portReady ((s.get H.PAN_RR 0 + 1 + j) % 64) = none) →
        s.portReady ((s.get H.PAN_RR 0 + 1 + k) % 64) = some (none, x) → Completes .pantryLineGrant s (fun t =>
          let i := (s.get H.PAN_RR 0 + 1 + k) % 64
          qGet t.ports i = qGet s.ports i ++ [⟨x.pat, x.line, x.bad, x.data⟩] ∧ Shows [(H.PAN_RR, 0, i)] t
            ∧ OnlyFields [(H.PAN_RR, 0)] s { t with ports := s.ports }))
      ∧ (∀ (r : LineReq) (n : Nat), s.reqsNow.jobs.length < 16 → s.reqsNow.nextReq = some r → s.reqsNow.freeSlot = some n →
          Completes .lineDecodeStart s (fun t => ∃ j : DecJob, t.jobs = s.jobs ++ [j] ∧ j.req = r ∧ j.slot = n ∧ t.lines = s.lines))
      ∧ (∀ (pat line : Nat) (j : DecJob), s.jobs.find? (fun j => j.req.pat == pat && j.req.line == line) = some j →
          Completes (.lineDecodeDone pat line) s (fun t => t.jobs = s.jobs.erase j
            ∧ (∃ x : PanLine, t.lines = s.lines ++ [x] ∧ x.pat = pat ∧ x.line = line ∧ x.slot = j.slot
                ∧ x.bad = (s.jobLine j).isNone ∧ x.data = (s.jobLine j).getD [])
            ∧ (s.jobLine j = none → Shows [(F.PAN_DECODE_ERR_COUNT, 0, satAt 16 (s.get F.PAN_DECODE_ERR_COUNT 0 + 1)),
                (F.PAN_DECODE_ERR_PAT_ID, 0, pat)] t)))
      ∧ (∀ v : Nat, v < 2 ^ 32 → BusTakes s m .PAN_INVAL 0 →
          (s.on F.PAN_INVAL_BUSY 0 = true ∨ s.invalBarred (bit v 16) (v % 4096) = true → TurnedAway (.panInval m v) s)
            ∧ (s.on F.PAN_INVAL_BUSY 0 = false → s.invalBarred (bit v 16) (v % 4096) = false → Completes (.panInval m v) s (fun t =>
                t.lastResp = .done ∧ t.inval = [if bit v 16 then 4096 else v % 4096]
                  ∧ SetsResp [(F.PAN_INVAL_BUSY, 0, 1), (H.PAN_INVAL_END, 0, s.now + 20 * us + 1)] s { t with inval := s.inval })))
      ∧ (s.on F.PAN_INVAL_BUSY 0 = true → Completes .invalidationDone s (fun t => t.inval = []
          ∧ t.lines = s.lines.filter (fun x => !s.inval.contains x.pat && !s.inval.contains 4096)
          ∧ Sets [(F.PAN_INVAL_BUSY, 0, 0), (H.PAN_INVAL_END, 0, 0)] s { t with inval := s.inval, lines := s.lines }))
      ∧ (∀ c : PanCounter, BusTakes s m (panCounterReg c) 0 → Completes (.panCounterRead m c) s (fun t =>
          t.lastResp = .value (s.regShown (panCounterReg c) 0) ∧ SetsResp [(panCounterField c, 0, 0)] s t))

/-- The segment sequencer (R165, R190, R218, R231 to R239). -/
def Obligations.SequencerRuns : Prop :=
  ∀ (s : State) (m : Master) (i : Fin 64) (u : Fin 32),
    (∀ (seen : List CmpSeen) (b : BufLine),
        let e := s.segEntry (s.curEntry i)
        let line := (qGet s.ports i).find? (fun b => b.pat == sgPat e && b.line == (sgFirst e + s.curPos i) / pdVpl (s.patDesc (sgPat e)))
        s.on H.SQ_PLAYING i = true → s.get H.SQ_STOP_REQ i = 0 → s.curPos i < sgVecs e →
          s.stallOver i (s.get H.SQ_NEXT_T i) = false →
          (line = some b → b.bad = false → Completes (.vectorBoundary i seen) s (fun t =>
              t.now = laterOf s (s.get H.SQ_NEXT_T i) ∧ t.seqVec i = (s.seqVec i + 1) % 2 ^ 64
                ∧ Shows [(H.SQ_VPOS, i, s.curPos i + 1), (H.SQ_NEXT_T, i, s.get H.SQ_NEXT_T i + t.get H.SQ_PERIOD i)] t
                ∧ t.on F.SEQ_SSTAT_STALLING i = false))
            ∧ (line = none → s.on F.SEQ_SSTAT_STALLING i = false → s.on F.SEQ_UNDERRUN_POLICY i = false →
                Completes (.vectorBoundary i seen) s (fun t => t.now = laterOf s (s.get H.SQ_NEXT_T i)
                  ∧ Shows [(F.SEQ_SSTAT_STALLING, i, 1), (F.SEQ_SSTAT_TIMING_BROKEN, i, 1), (H.SQ_STALL_N, i, 1),
                      (F.SEQ_SSTAT_UNDERRUNS, i, satAt 16 (s.get F.SEQ_SSTAT_UNDERRUNS i + 1)),
                      (F.PAN_UNDERRUN_COUNT, 0, satAt 32 (s.get F.PAN_UNDERRUN_COUNT 0 + 1))] t
                  ∧ t.curPos i = s.curPos i ∧ t.seqVec i = s.seqVec i)))
      ∧ (s.get H.SQ_WAIT i = 2 → s.active i = true → Completes (.timedStart i) s (fun t =>
          t.now = laterOf s (s.get H.SQ_START_AT i)
            ∧ SetsNow [(H.SQ_WAIT, i, 0), (F.SITE_TSTAT_WAIT_START, i, 0), (F.SEQ_SSTAT_START_DEFERRED, i, 0), (H.SQ_HOLD_END, i, 0),
                (H.SQ_PLAYING, i, 1), (H.SQ_NEWCHAIN, i, 1), (H.SQ_CHAINED, i, 1), (H.SQ_CHAIN_PAUSED, i, 0),
                (H.SQ_NEXT_T, i, s.get H.SQ_START_AT i), (H.SQ_PERIOD, i, s.tsetTicks i (s.get F.SITE_TCTRL_ACTIVE i))] s t))
      ∧ (s.get H.SQ_WAIT i = 4 → s.siteState i = sRUNNING → s.throttleHolds i = false → s.startFits i = true →
          Completes (.deferredStartRelease i) s (fun t => 1 ≤ t.get H.SQ_WAIT i ∧ t.get H.SQ_WAIT i ≤ 3
            ∧ Shows [(F.SEQ_SSTAT_START_DEFERRED, i, 0), (F.SEQ_CUR_ENTRY, i, s.get H.SQ_START_ENTRY i), (H.SQ_VPOS, i, 0),
                (F.SEQ_PASS_PASS, i, 0)] t))
      ∧ (s.get H.SQ_WAIT i = 4 → Completes (.startTimeout i) s (fun t =>
          Shows [(H.SQ_WAIT, i, 0), (F.SEQ_SSTAT_START_DEFERRED, i, 0)] t
            ∧ (s.get H.SQ_START_BY i = 1 → qGet t.refused (s.siteEngine i)
                = qGet s.refused (s.siteEngine i) ++ [⟨s.get H.SQ_START_WORD i, 5, false⟩])))
      ∧ (s.on F.SEQ_SSTAT_STALLING i = true → s.get F.SEQ_UNDERRUN_STALL_LIMIT_US i ≠ 0 → s.get H.SQ_STOP_REQ i = 0 →
          Completes (.stallLimitExpiry i) s (fun t =>
            t.now = laterOf s (s.get H.SQ_STALL_T0 i + s.get F.SEQ_UNDERRUN_STALL_LIMIT_US i * us)
              ∧ SetsNow [(H.SQ_STOP_REQ, i, 2)] s t))
      ∧ (∀ a : JumpTarget, BusTakes s m (jumpReg a) (jumpIdx a) →
          (jumpTaken s a = true → Completes (.jumpReqWrite m a 1) s (fun t => t.lastResp = .done
              ∧ SetsResp ([(jumpPending a, jumpIdx a, 1)] ++ if jumpDecided s a then [(jumpLate a, jumpIdx a, 1)] else []) s t))
            ∧ (jumpTaken s a = false → Completes (.jumpReqWrite m a 1) s (fun t => t.lastResp = .done ∧ SetsResp [] s t))
            ∧ Completes (.jumpReqCancel m a 2) s (fun t => t.lastResp = .done ∧ SetsResp [(jumpPending a, jumpIdx a, 0)] s t))
      ∧ (∀ b : BufLine,
          let e := s.segEntry (s.get F.SMUW_CUR_ENTRY u)
          let n := sgFirst e + s.get H.SW_POS u
          s.wavePlays u = true → s.get H.SW_POS u < sgVecs e → s.get H.SW_STALL_N u = 0 →
            (qGet s.waveBuf u).find? (fun b => b.pat == sgPat e && b.line == n / 1024) = some b → b.bad = false →
            Completes (.smuWaveSample u) s (fun t => t.now = laterOf s (s.get H.SW_NEXT_T u)
              ∧ Shows [(H.SMU_DAC, u, code 32 (clampI (-4200000) 4200000 (sext 32 (fieldB b.data (n % 1024 * 4) 4)))),
                  (H.SW_POS, u, s.get H.SW_POS u + 1), (H.SW_SAMPLES, u, s.get H.SW_SAMPLES u + 1),
                  (H.SW_NEXT_T, u, s.get H.SW_NEXT_T u + sgSmuSel e * 62500)] t))

/-- The thirteen values of SEQ (R248) with the register part of a word (R247, R252). -/
def Obligations.WordsRun : Prop :=
  ∀ (s : State) (k : Fin 64), wordReady s k → wordAtOnce (wordAt s k) →
    let w := wordAt s k
    let next := (s.pcOf k + 1) % 4096
    let c := s.cond k (wCOND w)
    (wSEQ w = 0 → Completes (.next k) s (wordWent s k next))
      ∧ (wSEQ w = 1 → Completes (.jump k) s (wordWent s k (wTGT w)))
      ∧ (wSEQ w = 2 → s.rspOf k < 16 → Completes (.call k) s (fun t => wordWent s k (wTGT w) t
          ∧ Shows [(H.ENG_RSTK, k * 16 + s.rspOf k, next), (F.ENG_STAT_RSP, k, s.rspOf k + 1)] t))
      ∧ (wSEQ w = 3 → s.rspOf k ≠ 0 → Completes (.ret k) s (fun t =>
          wordWent s k (s.get H.ENG_RSTK (k * 16 + (s.rspOf k - 1) % 16)) t ∧ Shows [(F.ENG_STAT_RSP, k, s.rspOf k - 1)] t))
      ∧ (wSEQ w = 4 → Completes (.brt k) s (wordWent s k (if c then wTGT w else next)))
      ∧ (wSEQ w = 5 → Completes (.brf k) s (wordWent s k (if c then next else wTGT w)))
      ∧ (wSEQ w = 6 → Completes (.loop k) s (fun t =>
          wordWent s k (if s.get H.ENG_L (k * 4 + wCOND w % 4) = 0 then next else wTGT w) t
            ∧ (wCNT w % 16 = 0 → wDST w < 48 → s.get H.ENG_L (k * 4 + wCOND w % 4) ≠ 0 →
                Shows [(H.ENG_L, k * 4 + wCOND w % 4, s.get H.ENG_L (k * 4 + wCOND w % 4) - 1)] t)))
      ∧ (wSEQ w = 7 → c = true → Completes (.waitev k) s (wordWent s k (wTGT w)))
      ∧ (wSEQ w = 7 → c = false → Completes (.waitev k) s (fun t => t.pcOf k = s.pcOf k
          ∧ Shows [(H.ENG_WAIT, k, 4), (H.ENG_WAIT_END, k, if wIMM w = 0 then 0 else s.now + wIMM w * ns + 1)] t))
      ∧ (wSEQ w = 8 → Completes (.dispatch k) s (wordWent s k (wTGT w + s.engReg k (wSA w) % 256)))
      ∧ (wSEQ w = 9 → wDST w < 48 → s.on F.ENG_STAT_TASK_HELD k = false → s.on H.ENG_START_PEND k = false →
          (s.on F.ENG_CTRL_STEAL_EN k = false → Completes (.yield k) s (wordWent s k next))
            ∧ (s.on F.ENG_CTRL_STEAL_EN k = true → s.dqLen k ≠ 0 → Completes (.yield k) s (fun t =>
                Shows [(F.ENG_STAT_PC, k, wTGT w), (F.ENG_STAT_STATE, k, eTASK), (F.ENG_STAT_TASK_HELD, k, 1),
                  (H.ENG_TASK_DEQUE, k, k.val), (H.ENG_TASK_RAN, k, 0)] t)))
      ∧ (wSEQ w = 10 → s.aborting k = false → s.depthOf k < 8 → Completes (.trap k) s (fun t =>
          Shows [(F.ENG_STAT_PC, k, 4), (F.ENG_STAT_DEPTH, k, s.depthOf k + 1),
              (H.ENG_TCAUSE, k, 4 + wIMM w % 256 * 256 + (s.depthOf k + 1) * 65536),
              (H.ENG_FRAME, k * 16, next + s.rspOf k * 4096 + 4 * 2 ^ 20 + wIMM w % 256 * 2 ^ 24)] t
            ∧ bit (t.get H.ENG_FLAGS k) flMIE = false))
      ∧ (wSEQ w = 11 → s.frameW k 6 = 0 → Completes (.mret k) s (fun t =>
          Shows [(F.ENG_STAT_PC, k, s.frameW k 0), (F.ENG_STAT_RSP, k, bits (s.frameW k 0) 12 5), (H.ENG_FLAGS, k, s.frameW k 1 % 256),
            (H.ENG_L, k * 4, s.frameW k 2), (H.ENG_L, k * 4 + 1, s.frameW k 3), (H.ENG_L, k * 4 + 2, s.frameW k 4),
            (H.ENG_L, k * 4 + 3, s.frameW k 5), (H.ENG_RESULT, k, s.frameW k 12), (H.ENG_RESSTAT, k, s.frameW k 13),
            (F.ENG_STAT_DEPTH, k, s.depthOf k - 1)] t))
      ∧ (wSEQ w = 12 → s.on F.ENG_STAT_TASK_HELD k = false → Completes (.halt k) s (fun t =>
          Shows [(F.ENG_HALT_PC, k, s.pcOf k), (F.ENG_HALT_CAUSE, k, 0), (F.ENG_STAT_DEPTH, k, 0), (F.ENG_STAT_RSP, k, 0)] t
            ∧ (s.on F.ENG_CTRL_STEAL_EN k = false → Shows [(F.ENG_STAT_STATE, k, eHALTED)] t)
            ∧ (∀ i : Nat, s.engSite k = some i → s.active i = true → s.on H.ST_HALTED i = false →
                t.on F.SITE_STATE_FINISHING i = true ∧ t.on H.ST_HALTED i = true)))

/-- Long ANAOPs, READ, and what ends the wait of a word (R257, R258, R263). -/
def Obligations.LongOperationsRun : Prop :=
  ∀ (s : State) (k : Fin 64) (i : Nat) (e : SiteEntry), servesSite s k i e →
    (∀ imm : Nat, s.atBoundary k = true → qMatch (qGet s.cmdq k) true 24 = none → Completes (.wait k imm) s (fun t =>
        Sets (waitFields s k 1 noUnit 5 0 imm) s t))
      ∧ (∀ (idx : Fin 64) (q : Fin 5) (imm u : Nat), s.atBoundary k = true → qMatch (qGet s.cmdq k) true 25 = none →
          s.unitOf k idx q = some u → s.unitCal u = false → Completes (.settle k idx q imm) s (fun t =>
            Sets (waitFields s k 2 u q idx imm) s t))
      ∧ (∀ (idx : Fin 64) (q : Fin 5) (imm u : Nat), s.atBoundary k = true → qMatch (qGet s.cmdq k) true 26 = none →
          s.unitOf k idx q = some u → s.unitCal u = false → Completes (.measure k idx q imm) s (fun t =>
            Shows (waitFields s k 3 u q idx imm) t
              ∧ (u < 64 → t.on F.DPS_MEAS_BUSY u = true) ∧ (64 ≤ u → u < 128 → t.on F.SMU_MEAS_BUSY (u - 64) = true)))
      ∧ (∀ (idx : Fin 64) (q : Fin 5) (u : Nat), s.get H.ENG_WAIT k ≠ 7 → qMatch (qGet s.cmdq k) true 27 = none →
          s.unitOf k idx q = some u → Completes (.read k idx q) s (fun t =>
            Sets [(H.ENG_RESULT, k, (s.unitLatest u q idx).1), (H.ENG_RESSTAT, k, (s.unitLatest u q idx).2)] s t))
      ∧ (goesOn s k →
          (∀ a : Nat, s.get H.ENG_WAIT k = 1 → s.due H.ENG_WAIT_END k = some a → Completes (.longOperationEnd k) s (fun t =>
              t.now = laterOf s a ∧ SetsNow [(H.ENG_WAIT, k, 0), (H.ENG_WAIT_END, k, 0), (H.ENG_BRK_SKIP, k, 0),
                (F.ENG_STAT_PC, k, s.get H.ENG_NEXT k)] s t))
            ∧ (∀ d : Nat, s.get H.ENG_WAIT k = 2 → s.get H.ENG_WAIT_UNIT k = d → d < 64 → s.on F.DPS_STAT_SETTLED d = true →
                Completes (.longOperationEnd k) s (fun t =>
                  Sets [(H.ENG_WAIT, k, 0), (H.ENG_WAIT_END, k, 0), (H.ENG_BRK_SKIP, k, 0), (F.ENG_STAT_PC, k, s.get H.ENG_NEXT k),
                    (H.ENG_RESSTAT, k, 1 + s.get H.ENG_WAIT_QTY k % 8 * 16 + s.get H.ENG_WAIT_IDX k % 64 * 256)] s t))
            ∧ (s.get H.ENG_WAIT k = 3 → s.on H.ENG_WAIT_DONE k = true → Completes (.longOperationEnd k) s (fun t =>
                let r := s.unitResult (s.get H.ENG_WAIT_UNIT k) (s.get H.ENG_WAIT_QTY k) (s.get H.ENG_WAIT_IDX k)
                Sets [(H.ENG_WAIT, k, 0), (H.ENG_WAIT_END, k, 0), (H.ENG_BRK_SKIP, k, 0), (F.ENG_STAT_PC, k, s.get H.ENG_NEXT k),
                  (H.ENG_RESULT, k, r.1), (H.ENG_RESSTAT, k, r.2)] s t))
            ∧ (∀ a : Nat, s.get H.ENG_WAIT k = 3 → s.on H.ENG_WAIT_DONE k = false → s.due H.ENG_WAIT_END k = some a →
                Completes (.longOperationEnd k) s (fun t => t.now = laterOf s a
                  ∧ SetsNow [(H.ENG_WAIT, k, 0), (H.ENG_WAIT_END, k, 0), (H.ENG_BRK_SKIP, k, 0), (F.ENG_STAT_PC, k, s.get H.ENG_NEXT k),
                    (H.ENG_RESSTAT, k, s.get H.ENG_WAIT_QTY k % 8 * 16 + s.get H.ENG_WAIT_IDX k % 64 * 256)] s t)))
      ∧ (s.get H.ENG_WAIT k = 4 → noStop s k → s.on H.ENG_LD_ON k = false → wSEQ (wordAt s k) = 7 → wCOND (wordAt s k) ≠ 36 →
          (s.cond k (wCOND (wordAt s k)) = true → Completes (.waitevEnd k) s (fun t =>
              Sets [(H.ENG_WAIT, k, 0), (H.ENG_WAIT_END, k, 0), (H.ENG_BRK_SKIP, k, 0), (H.ENG_NEXT, k, wTGT (wordAt s k)),
                (F.ENG_STAT_PC, k, wTGT (wordAt s k))] s t))
            ∧ (∀ a : Nat, s.cond k (wCOND (wordAt s k)) = false → s.due H.ENG_WAIT_END k = some a →
                Completes (.waitevEnd k) s (fun t => t.now = laterOf s a
                  ∧ SetsNow [(H.ENG_WAIT, k, 0), (H.ENG_WAIT_END, k, 0), (H.ENG_BRK_SKIP, k, 0),
                    (H.ENG_NEXT, k, (s.pcOf k + 1) % 4096), (F.ENG_STAT_PC, k, (s.pcOf k + 1) % 4096)] s t)))
      ∧ (wSEQ (wordAt s k) ∈ [0, 1, 4, 5, 6, 8] → noStop s k → s.get H.ENG_WAIT k = 0 → s.on H.ENG_LD_ON k = true →
          (qGet s.memq k).any (fun m => memLoads (m.op * 16)) = false → Completes (.loadComplete k) s (fun t =>
            Sets [(H.ENG_LD_ON, k, 0), (H.ENG_BRK_SKIP, k, 0), (F.ENG_STAT_PC, k, s.get H.ENG_NEXT k)] s t))
      ∧ (∀ (c : QCmd) (cs : List QCmd), qGet s.cmdq k = c :: cs → c.acted = true → Completes (.commandAcknowledge k) s (fun t =>
          qGet t.cmdq k = cs ∧ OnlyFields [(H.ENG_WAIT, k)] s { t with cmdq := s.cmdq }
            ∧ t.get H.ENG_WAIT k = if s.get H.ENG_WAIT k = 6 then 0 else s.get H.ENG_WAIT k))
      ∧ (∀ (r : Refused) (rs : List Refused), qGet s.refused k = r :: rs → s.get H.ENG_WAIT k = 0 →
          Completes (.commandRefused k) s (fun t => qGet t.refused k = rs
            ∧ Sets [(H.ENG_FLAGS, k, setBit (s.get H.ENG_FLAGS k) flRF), (F.ENG_REFUSE_WORD, k, r.word),
                (F.ENG_REFUSE_REASON, k, r.reason), (F.ENG_REFUSE_ANA, k, b2n r.ana),
                (F.ENG_TMASK_PEND, k, setBit (s.get F.ENG_TMASK_PEND k) 8)] s { t with refused := s.refused }))

/-- PINOPs at the tile (R253, R254). -/
def Obligations.PinCommandsAct : Prop :=
  (∀ (s : State) (k : Fin 64) (i : Nat) (e : SiteEntry), serves s k i e →
    (∀ entry : Nat, entry < 65536 → s.on H.SQ_PLAYING i = false → s.get H.SQ_WAIT i = 0 → s.siteState i ≠ sPAUSED →
        let held := (s.on F.MODE_STAT_THROTTLE 0 && s.on H.ST_THR i) || !s.budgetAllows entry (s.entryPeriod i entry)
        (s.pinBad i entry ≠ 0 → Completes (.startChain k entry) s (Refuses s k false 1 rsSTATE))
          ∧ (s.pinBad i entry = 0 → held = true → Completes (.startChain k entry) s (fun t =>
              Shows [(H.SQ_WAIT, i, 4), (F.SEQ_SSTAT_START_DEFERRED, i, 1), (H.SQ_START_ENTRY, i, entry),
                (H.SQ_HOLD_END, i, s.now + s.get F.SEQ_START_TMO_TMO_MS i * ms + 1)] t))
          ∧ (s.pinBad i entry = 0 → held = false → Completes (.startChain k entry) s (fun t =>
              Shows [(F.SEQ_CUR_ENTRY, i, entry), (H.SQ_VPOS, i, 0), (F.SEQ_PASS_PASS, i, 0), (H.SQ_START_BY, i, 1)] t
                ∧ (s.on H.SQ_SRC_NEXT i = false → t.get H.SQ_WAIT i = 1))))
      ∧ ((s.active i && (s.hasPass i || s.get H.SQ_WAIT i == 4)) = true → Completes (.pinJump k) s (fun t =>
          Sets ([(F.SEQ_JUMP_REQ_PENDING, i, 1)]
            ++ if s.get F.SEQ_CUR_DECIDED i != 0xFFFF || s.on H.SQ_DECIDED_END i then [(F.SEQ_JUMP_REQ_JUMP_LATE, i, 1)] else [])
            s (sansQueue s t)))
      ∧ Completes (.pinCancel k) s (fun t => Sets [(F.SEQ_JUMP_REQ_PENDING, i, 0)] s (sansQueue s t))
      ∧ (∀ set : Fin 16, Completes (.tset k set) s (fun t => Sets [(H.SQ_TSET_PIN, i, set + 1)] s (sansQueue s t)))
      ∧ Completes (.trig k) s (fun t => Sets [(H.SQ_TRIG_PIN, i, 1)] s (sansQueue s t))
      ∧ Completes (.clrfail k) s (fun t => Sets [(H.ST_MARK_FAIL, i, 0), (H.ST_GFAIL, i, 0)] s (sansQueue s t))
      ∧ (chansFree s e →
          (∀ (h : Fin 2) (b : Bool) (mask : Nat), Completes (.bank k h b mask) s (fun t =>
              (∀ c ∈ maskChans e h mask, Shows [(F.CH_CTRL_BANK, c, b2n b)] t)
                ∧ (∀ c : Nat, c ∉ maskChans e h mask → t.get F.CH_CTRL_BANK c = s.get F.CH_CTRL_BANK c)))
            ∧ (∀ (h : Fin 2) (mask : Nat), Completes (.cmask k h mask) s (fun t =>
                (∀ p ∈ halfChans e h, Shows [(H.CH_CMASK, p.1, b2n (bit mask p.2))] t)
                  ∧ OnlyFields ((halfChans e h).map (fun p => (H.CH_CMASK, p.1))) s (sansQueue s t)))
            ∧ (∀ (h : Fin 2) (mask : Nat), (∀ c ∈ e.channels, s.chTripHeld c = false) →
                Completes (.drv k h true mask) s (fun t =>
                  ∀ c ∈ maskChans e h mask, Shows [(F.CH_CTRL_DRV_EN, c, 1), (F.CH_STAT_TRIPPED, c, 0)] t))
            ∧ (∀ (h : Fin 2) (mask : Nat), Completes (.drv k h false mask) s (fun t =>
                (∀ c ∈ maskChans e h mask, Shows [(F.CH_CTRL_DRV_EN, c, 0), (H.CH_DRV_ON, c, 0), (H.CH_TERM_ON, c, 0)] t)
                  ∧ (∀ c : Nat, c ∉ maskChans e h mask → t.get F.CH_CTRL_DRV_EN c = s.get F.CH_CTRL_DRV_EN c)))
            ∧ (∀ (lvl : Fin 5) (b : Bool) (chan : Fin 64) (v c : Nat), e.channels[chan.val]? = some c →
                Completes (.level k lvl b false chan v) s (fun t =>
                  Shows [(levelField (lvl + 5 * b2n b), c, levelStored s c (lvl + 5 * b2n b) v)] t
                    ∧ ∀ d : Nat, d ≠ c → t.get (levelField (lvl + 5 * b2n b)) d = s.get (levelField (lvl + 5 * b2n b)) d))
            ∧ (∀ (lvl : Fin 5) (b : Bool) (chan : Fin 64) (v : Nat), Completes (.level k lvl b true chan v) s (fun t =>
                ∀ c ∈ e.channels, Shows [(levelField (lvl + 5 * b2n b), c, levelStored s c (lvl + 5 * b2n b) v)] t))
            ∧ (∀ (h : Fin 2) (m : Fin 4) (mask : Nat), Completes (.term k h m mask) s (fun t =>
                (∀ c ∈ maskChans e h mask, Shows [(F.CH_CTRL_TERM_MODE, c, m)] t)
                  ∧ OnlyFields ((maskChans e h mask).map (fun c => (F.CH_CTRL_TERM_MODE, c))) s (sansQueue s t)))))
    ∧ (∀ (s : State) (k : Fin 64), s.engSite k = none →
        Completes (.trig k) s (Refuses s k false 8 rsNOTBOUND) ∧ Completes (.pinJump k) s (Refuses s k false 2 rsNOTBOUND))

/-- Short ANAOPs at the tile (R255). -/
def Obligations.AnalogCommandsAct : Prop :=
  ∀ (s : State) (k idx : Fin 64) (i : Nat) (e : SiteEntry), servesSite s k i e →
    (∀ (d imm : Nat), e.dpsList[idx.val]? = some d →
        let y := clampI (-2000) 28000 (sext 16 imm)
        let clip := if sext 16 imm = y then [] else [(F.DPS_STAT_CLAMP, d, 1)]
        let lim := min (sext 32 imm).natAbs (s.dpsIlimMax d)
        (s.dpsBarred d = true → Completes (.dpsSet k idx imm) s (Refuses s k true 1 rsSTATE))
          ∧ (s.dpsBarred d = false →
              Completes (.dpsSet k idx imm) s (fun t => Shows ([(F.DPS_VSET_VALUE, d, code 16 y), (F.DPS_STAT_SETTLED, d, 0)] ++ clip) t
                  ∧ OnlyFields [(F.DPS_VSET_VALUE, d), (F.DPS_STAT_SETTLED, d), (F.DPS_STAT_CLAMP, d), (H.DPS_POINT, d), (H.DPS_PT_T, d)]
                      s (sansQueue s t))
                ∧ Completes (.dpsIlim k idx imm) s (fun t =>
                    Sets ([(F.DPS_ILIM_VALUE, d, lim)] ++ if (sext 32 imm).natAbs = lim then [] else [(F.DPS_STAT_CLAMP, d, 1)])
                      s (sansQueue s t))
                ∧ (∀ sl : Fin 32, Completes (.dpsRamp k idx sl imm) s (fun t =>
                    Shows [(F.DPS_CTRL_SLEW, d, min sl.val 20), (F.DPS_VSET_VALUE, d, code 16 y), (F.DPS_STAT_SETTLED, d, 0)] t))
                ∧ (s.on F.DPS_CTRL_EN d = false → s.dpsEnRefusal d = 0 → Completes (.dpsEn k idx true) s (fun t =>
                    ∀ g ∈ s.gangOf d, Shows [(F.DPS_CTRL_EN, g, 1), (F.DPS_STAT_ON, g, 1), (H.DPS_DISCH, g, 0), (F.DPS_STAT_TRIPPED, g, 0)] t))
                ∧ (s.on F.DPS_CTRL_EN d = false → s.dpsEnRefusal d = 4 → Completes (.dpsEn k idx true) s
                    (Refuses s k true 3 rsSTATE))
                ∧ (s.on F.DPS_CTRL_EN d = true → Completes (.dpsEn k idx false) s (fun t =>
                    ∀ g ∈ s.gangOf d, Shows [(F.DPS_CTRL_EN, g, 0), (F.DPS_STAT_ON, g, 0), (H.DPS_DISCH, g, 1)] t))))
      ∧ (∀ (u imm : Nat), e.smuList[idx.val]? = some u → s.on H.SMU_CAL_OWNED u = false →
          let y := clampI (-4200000) 4200000 (sext 32 imm)
          let comp := if s.get F.SMU_CTRL_FMODE u = 0 then F.SMU_ICOMP_VALUE else F.SMU_VCOMP_VALUE
          (s.get F.SMU_CTRL_SRC u = 0 → Completes (.smuSet k idx imm) s (fun t =>
              Sets ([(F.SMU_SET_VALUE, u, code F.SMU_SET_VALUE.width y), (H.SMU_DAC, u, code F.SMU_SET_VALUE.width y)]
                ++ if sext 32 imm = y then [] else [(F.SMU_STAT_CLAMP, u, 1)]) s (sansQueue s t)))
            ∧ Completes (.smuClamp k idx imm) s (fun t =>
                Sets ([(comp, u, min imm 4200000)] ++ if imm = min imm 4200000 then [] else [(F.SMU_STAT_CLAMP, u, 1)])
                  s (sansQueue s t))
            ∧ (∀ r : Fin 32, bits r 4 1 = s.get F.SMU_CTRL_FMODE u → s.get F.SMU_CTRL_SRC u = 0 → Completes (.smuRange k idx r) s (fun t =>
                Shows [(F.SMU_CTRL_IRANGE, u, min (bits r 0 3) 4), (F.SMU_CTRL_VRANGE, u, bits r 3 1), (F.SMU_CTRL_FMODE, u, bits r 4 1)] t))
            ∧ (s.on F.SMU_CTRL_EN u = false → s.smuEnRefusal u = 0 → Completes (.smuEn k idx true) s (fun t =>
                Shows [(F.SMU_CTRL_EN, u, 1), (H.SMU_SW_END, u, s.now + 20 * us + 1), (F.SMU_STAT_TRIPPED, u, 0)] t))
            ∧ (s.on F.SMU_CTRL_EN u = true → Completes (.smuEn k idx false) s (fun t =>
                Shows [(F.SMU_CTRL_EN, u, 0), (H.SMU_SW_END, u, s.now + 20 * us + 1)] t))
            ∧ (∀ entry : Nat, s.entryBad (entry % 65536) true 0 = 0 → Completes (.smuWave k idx entry) s (fun t =>
                Shows [(F.SMUW_CUR_ENTRY, u, entry % 65536), (F.SMUW_CUR_PLAYING, u, 1), (F.SMUW_CUR_CHAIN_DONE, u, 0), (H.SW_POS, u, 0),
                  (F.SMU_CTRL_SRC, u, 1), (H.SW_NEXT_T, u, (s.now / 62500 + 1) * 62500)] t))
            ∧ Completes (.smuStop k idx) s (fun t => Shows [(F.SMU_CTRL_SRC, u, 0), (F.SMUW_CUR_PLAYING, u, 0)] t
                ∧ (s.get F.SMU_CTRL_SRC u ≠ 0 → Shows [(F.SMU_SET_VALUE, u, s.get H.SMU_DAC u)] t)))
      ∧ (∀ (c imm : Nat), e.channels[idx.val]? = some c → s.on H.CH_CAL_OWNED c = false →
          let y := if s.get F.PMU_CTRL_MODE c = 1 ∨ s.get F.PMU_CTRL_MODE c = 3 then clampI (-8000) 26000 (sext 16 imm) else sext 16 imm
          (s.pmuBarred c imm = false → Completes (.pmuCfg k idx imm) s (fun t =>
              Shows [(F.PMU_CTRL_MODE, c, if bits imm 0 3 ≤ 4 then bits imm 0 3 else 0), (F.PMU_CTRL_AVG, c, bits imm 9 3),
                (F.PMU_CTRL_CONNECT, c, bits imm 8 1), (F.PMU_CTRL_RANGE, c, if bits imm 4 3 ≤ 4 then bits imm 4 3 else 4)] t))
            ∧ Completes (.pmuForce k idx imm) s (fun t =>
                Sets ([(F.PMU_FORCE_VALUE, c, code F.PMU_FORCE_VALUE.width y)] ++ if sext 16 imm = y then [] else [(F.CH_STAT_LVL_CLAMP, c, 1)])
                  s (sansQueue s t)))
      ∧ (∀ (j imm : Nat), e.tdcList[idx.val]? = some j →
          (s.tdcArmRefusal j imm = 0 → Completes (.tdcArm k idx imm) s (fun t =>
              Shows [(F.TDC_CTRL_ARMED, j, 1), (F.TDC_CTRL_OPEN, j, 0), (F.TDC_CFG_MODE, j, bits imm 0 2), (F.TDC_CFG_START_SRC, j, bits imm 4 4),
                (F.TDC_CFG_STOP_SRC, j, bits imm 16 4), (F.TDC_ACC_LO_N_LO, j, 0), (F.TDC_ACC_HI_N_HI, j, 0), (F.TDC_NVAL_COUNT, j, 0),
                (H.TDC_START_P, j, 0)] t))
            ∧ (s.on H.TDC_CAL_OWNED j = false → Completes (.tdcStop k idx) s (fun t =>
                t.on F.TDC_CTRL_ARMED j = false ∧ (s.on F.TDC_CTRL_ARMED j = true → t.on F.TDC_CTRL_OPEN j = false))))
      ∧ (∀ (u imm : Nat), acqOf e idx = some u →
          (s.acqArmRefusal u (bits imm 0 4) = 0 → Completes (.acqArm k idx imm) s (fun t =>
              Shows [(F.ACQ_CFG_TRIG_SRC, u, bits imm 0 4), (F.ACQ_CFG_P, u, min (bits imm 16 3) 6), (H.ACQ_N, u, 0),
                (F.ACQ_CTRL_STATE, u, if bit imm 7 = true ∧ s.get F.ACQ_PRE_N u ≠ 0 then aPRE else aREADY)] t))
            ∧ (s.acqState u = aPRE ∨ s.acqState u = aREADY → Completes (.acqForce k idx) s (fun t =>
                Sets [(H.ACQ_FORCE_P, u, 1)] s (sansQueue s t))))

/-- MEMOPs (R259) with their memory errors (R260). -/
def Obligations.MemoryOperations : Prop :=
  ∀ (s : State) (k : Fin 64),
    (∀ (off : Nat) (dst : Fin 64), memGood 0 off 4 → Completes (.ld k 0 off dst) s (fun t =>
        regTakes s k dst (s.spWord (off % scratchSize)) (sansMem s t)))
      ∧ (∀ (off : Nat) (dst : Fin 64) (b : List Byte), memGood 1 off 4 → (s.celRead clsHearth (s.engCel k off) 4).2 = some b →
          dst.val < 48 → Completes (.ld k 1 off dst) s (fun t =>
            b = s.celRaw (s.engCel k off) 4 ∧ Shows [(H.ENG_G, k * 64 + dst, ofLe b)] t ∧ t.cellar = s.cellar
              ∧ (s.celErr = [] → t.scratch = s.scratch)))
      ∧ (∀ (off : Nat) (dst : Fin 64), memGood 0 off 8 → dst.val < 47 → Completes (.ldp k 0 off dst) s (fun t =>
          Sets [(H.ENG_G, k * 64 + dst, s.spWord (off % scratchSize)), (H.ENG_G, k * 64 + (dst + 1), s.spWord (off % scratchSize + 4))]
            s (sansMem s t)))
      ∧ (∀ off v : Nat, memGood 0 off 4 → Completes (.st k 0 off v) s (SpStores s (off % scratchSize) (leBytes 4 v)))
      ∧ (∀ off v0 v1 : Nat, memGood 0 off 8 → Completes (.stp k 0 off v0 v1) s (SpStores s (off % scratchSize) (leBytes 4 v0 ++ leBytes 4 v1)))
      ∧ (∀ off v : Nat, memGood 1 off 4 → s.celBacked (s.engCel k off) 4 = true → s.celStuck (s.engCel k off) 4 = [] →
          Completes (.st k 1 off v) s (CelStores s (s.engCel k off) (leBytes 4 v)))
      ∧ (∀ off v0 v1 : Nat, memGood 1 off 8 → s.celBacked (s.engCel k off) 8 = true → s.celStuck (s.engCel k off) 8 = [] →
          Completes (.stp k 1 off v0 v1) s (CelStores s (s.engCel k off) (leBytes 4 v0 ++ leBytes 4 v1)))
      ∧ (∀ (sp : Fin 2) (off : Nat) (dst : Fin 64) (v v1 : Nat),
          (off % 4 ≠ 0 → Completes (.ld k sp off dst) s (MemFails s k 1 false 1 off)
              ∧ Completes (.st k sp off v) s (MemFails s k 2 true 1 off))
            ∧ (off % 8 ≠ 0 → Completes (.ldp k sp off dst) s (MemFails s k 3 false 1 off)
              ∧ Completes (.stp k sp off v v1) s (MemFails s k 4 true 1 off))
            ∧ (off % 4 = 0 → inSecure (off % scratchSize) = true → Completes (.ld k 0 off dst) s (MemFails s k 1 false 3 off)
              ∧ Completes (.st k 0 off v) s (MemFails s k 2 true 3 off))
            ∧ (off % 4 = 0 → s.celBacked (s.engCel k off) 4 = false → Completes (.ld k 1 off dst) s (MemFails s k 1 false 2 off)
              ∧ Completes (.st k 1 off v) s (MemFails s k 2 true 2 off)))
      ∧ (∀ n dst : Fin 64, s.semReserved n = false →
          (s.semHeld n = false → Completes (.sem k n dst) s (fun t => dst.val < 48 →
              Sets [(F.SEM_PEEK_HELD, n, 1), (F.SEM_PEEK_OWNER, n, k), (H.ENG_G, k * 64 + dst, 0)] s (sansMem s t)))
            ∧ (s.semHeld n = true → Completes (.sem k n dst) s (fun t => dst.val < 48 →
              Sets [(H.ENG_G, k * 64 + dst, 0x80000000 + s.get F.SEM_PEEK_OWNER n),
                (H.ENG_FLAGS, k, putBit (s.get H.ENG_FLAGS k) flSL true)] s (sansMem s t))))
      ∧ (∀ n : Fin 64, s.storesOut k = false → s.semReserved n = false →
          (s.semHeld n = true → s.get F.SEM_PEEK_OWNER n = k → Completes (.semrel k n) s (fun t =>
              Sets [(F.SEM_PEEK_HELD, n, 0), (F.SEM_PEEK_OWNER, n, 0)] s (sansMem s t)))
            ∧ (s.semHeld n = false ∨ s.get F.SEM_PEEK_OWNER n ≠ k → Completes (.semrel k n) s
              (MemFails s k 6 true 2 (s.memOffOf k 6 n))))
      ∧ (∀ (off : Nat) (n : Fin 16) (i run : Nat) (e : SiteEntry), off % 4 = 0 → meetsSecure off ((n + 1) * 8) = false →
          s.engStream k = some (i, run) → s.entryOf i = some e → s.recFits e ((n + 1) * 8) = true →
          Completes (.record k off n) s (fun t =>
            let len := (n.val + 1) * 8
            let wr := s.recWr e + s.recPad e len
            Shows [(F.SITE_REC_WR_LO_WR_LO, i, wr + len), (F.SITE_REC_WR_HI_WR_HI, i, (wr + len) / 2 ^ 32)] t
              ∧ BytesBut ramByte s.cellar t.cellar (celOff e.recBase) (0x1000 + e.recSize)
              ∧ (s.celErr = [] → s.celBacked (celOff e.recBase) (0x1000 + e.recSize) = true →
                  t.celRaw (celOff e.recBase + 0x1000 + wr % e.recSize) len = recordBytes s i off n
                    ∧ t.scratch = s.scratch ∧ t.recWr e = (wr + len) % 2 ^ 64)))
      ∧ (∀ off : Nat, off % 4 = 0 → inSecure (off % scratchSize) = false →
          let x := off % scratchSize
          let op := s.blockOp x
          let bad := s.blockBad x || decide (s.blockLen x < needBytes op (s.blockData x))
          (bad = false → s.accepted.length < 32 → Completes (.cmd k off) s (fun t =>
              t.accepted = s.accepted ++ [⟨256 + k, x, op⟩] ∧ { sansMem s t with accepted := s.accepted } = s))
            ∧ (bad = false → 32 ≤ s.accepted.length → Completes (.cmd k off) s (fun t =>
              OnlyReplied ⟨256 + k, x⟩ op stBUSY [] s (sansMem s t)))
            ∧ (bad = true → Completes (.cmd k off) s (fun t => OnlyReplied ⟨256 + k, x⟩ op stLENGTH [] s (sansMem s t))))
      ∧ (∀ r : Reply, s.replies.find? (fun x => x.dst == 256 + k.val) = some r → r.tag < scratchSize → (qGet s.h2e k).length < 8 →
          Completes (.cmdReply k) s (fun t =>
            t.replies = s.replies.erase r
              ∧ t.spRead r.tag (min r.data.length (scratchSize - r.tag)) = r.data.take (scratchSize - r.tag)
              ∧ BytesBut ramByte s.scratch t.scratch r.tag (min r.data.length (scratchSize - r.tag))
              ∧ qGet t.h2e k = qGet s.h2e k ++ [⟨r.tag, s.hearthEpoch⟩]
              ∧ (qGet s.h2e k = [] → s.engPowered k = true → t.trapPending k 5 = true)))
      ∧ (∀ (w : Fin 16) (dst : Fin 64), Completes (.fld k w dst) s (fun t => regTakes s k dst (s.frameW k w) (sansMem s t)))
      ∧ (∀ (w : Fin 16) (v : Nat), Completes (.fst k w v) s (fun t => Sets [(H.ENG_FRAME, k * 16 + w, v)] s (sansMem s t)))
      ∧ (∀ dst : Fin 64, dst.val < 48 →
          (s.engStream k = none → Completes (.pusht k dst) s (fun t => Sets [(H.ENG_G, k * 64 + dst, 2)] s (sansMem s t)))
            ∧ (∀ i run : Nat, s.engStream k = some (i, run) →
              (s.dqLen k = 32 → Completes (.pusht k dst) s (fun t =>
                  Sets [(H.ENG_G, k * 64 + dst, 1), (F.STL_FULL_COUNT, 0, satAt F.STL_FULL_COUNT.width (s.get F.STL_FULL_COUNT 0 + 1))]
                    s (sansMem s t)))
                ∧ (s.dqLen k ≠ 32 → Completes (.pusht k dst) s (fun t =>
                  Shows [(H.ENG_G, k * 64 + dst, 0)] t ∧ t.dqAt k (s.spWord (dqBotA k)) = s.pushDesc k i run
                    ∧ t.spWord (dqBotA k) = (s.spWord (dqBotA k) + 1) % 2 ^ 32))))
      ∧ (∀ (e : MemErr) (es : List MemErr), qGet s.memErrs k = e :: es → Completes (.memoryError k) s (fun t =>
          qGet t.memErrs k = es
            ∧ Sets [(H.ENG_FLAGS, k, putBit (s.get H.ENG_FLAGS k) flME true), (F.ENG_MEMERR_WORD, k, e.word),
                (F.ENG_MEMERR_STORE, k, b2n e.store), (F.ENG_MEMERR_REASON, k, e.reason), (F.ENG_MEMERR_ADDR_OFFSET, k, e.off),
                (F.ENG_TMASK_PEND, k, setBit (s.get F.ENG_TMASK_PEND k) 9)] s { t with memErrs := s.memErrs }))

/-- The units beside the memories. -/
def Obligations.MemoryUnits : Prop :=
  (∀ (s : State) (m : Master) (n : Fin 64), m ≠ .security → s.busOff = false → s.tapBarred m = false → s.semMay n m = true →
      (s.semHeld n = false → Completes (.semAcqRead n [m]) s (fun t => t.lastResp = .value 0
          ∧ SetsResp [(F.SEM_PEEK_HELD, n, 1), (F.SEM_PEEK_OWNER, n, masterId m)] s t))
        ∧ (s.semHeld n = true → Completes (.semAcqRead n [m]) s (fun t =>
          t.lastResp = .value (0x80000000 + s.get F.SEM_PEEK_OWNER n) ∧ OnlyFieldsResp [] s t)))
    ∧ (∀ (s : State) (n : Fin 64) (ms : List Master) (w : Nat), s.busOff = false → 2 ≤ ms.length →
        (∀ m ∈ ms, s.tapBarred m = false ∧ s.semMay n m = true) → s.semHeld n = false →
        semWinner (s.get F.SEM_PEEK_PTR n) (ms.map masterId) = some w → Completes (.semAcqRead n ms) s (fun t =>
          t.lastResp = .value (if (ms.map masterId).head? = some w then 0 else 0x80000000 + w)
            ∧ SetsResp [(F.SEM_PEEK_HELD, n, 1), (F.SEM_PEEK_OWNER, n, w), (F.SEM_PEEK_PTR, n, (w + 1) % 71),
              (F.SEM_CONTEST_COUNT, 0, satAt F.SEM_CONTEST_COUNT.width (s.get F.SEM_CONTEST_COUNT 0 + 1))] s t))
    ∧ (∀ (s : State) (m : Master) (n : Fin 64), BusTakes s m .SEM_ACQ n →
        (s.semMay n m = true → s.semHeld n = true → s.get F.SEM_PEEK_OWNER n = masterId m → Completes (.semAcqWrite m n) s (fun t =>
            t.lastResp = .done ∧ SetsResp [(F.SEM_PEEK_HELD, n, 0), (F.SEM_PEEK_OWNER, n, 0)] s t))
          ∧ (s.semMay n m = false ∨ s.semHeld n = false ∨ s.get F.SEM_PEEK_OWNER n ≠ masterId m → TurnedAway (.semAcqWrite m n) s))
    ∧ (∀ (s : State) (m : Master) (v : Nat), BusTakes s m .SEM_FORCE 0 →
        (m = .hearth 0 → bits v 16 16 = 0x5E3F → Completes (.semForce m v) s (fun t => t.lastResp = .done
            ∧ (s.semHeld (v % 64) = true → Shows [(F.SEM_PEEK_HELD, v % 64, 0), (F.SEM_PEEK_OWNER, v % 64, 0)] t)
            ∧ (s.semHeld (v % 64) = false → OnlyFieldsResp [] s t)))
          ∧ (m ≠ .hearth 0 ∨ bits v 16 16 ≠ 0x5E3F → TurnedAway (.semForce m v) s))
    ∧ (∀ (s : State) (m : Master) (x v : Nat), x % 4 = 0 → x < scratchSize → inSecure x = false → s.bankOn x = true →
        (m = .tap → s.right 0 = true) →
        Completes (.bitSetAliasWrite m x v none) s (fun t => t.lastResp = .done ∧ t.spWord x = (s.spWord x ||| v % 2 ^ 32)
            ∧ BytesBut ramByte s.scratch t.scratch x 4 ∧ OnlyFieldsResp [] s { t with scratch := s.scratch })
          ∧ Completes (.bitClearAliasWrite m x v none) s (fun t =>
            t.lastResp = .done ∧ t.spWord x = s.spWord x - (s.spWord x &&& v % 2 ^ 32)
            ∧ BytesBut ramByte s.scratch t.scratch x 4 ∧ OnlyFieldsResp [] s { t with scratch := s.scratch })
          ∧ (∀ b : PortB, portsMeet x (v % 2 ^ 32) b = true → Completes (.bitSetAliasWrite m x v (some b)) s (fun t =>
              t.spWord x = (s.spWord x ||| v % 2 ^ 32) ∧ BytesBut ramByte s.scratch t.scratch x 4
                ∧ Shows [(F.SPD_STAT_DP_COLL, 0, 1), (F.SPD_COLL_ADDR_ADDR, 0, 0x40000000 + x),
                    (F.SPD_STAT_COLL_COUNT, 0, satAt F.SPD_STAT_COLL_COUNT.width (s.get F.SPD_STAT_COLL_COUNT 0 + 1))] t
                ∧ qGet t.memErrs b.engine = qGet s.memErrs b.engine ++ [⟨(s.memTake b.engine 2).2, true, 2, b.x⟩])))
    ∧ (∀ (s : State) (m : Master) (x v : Nat), x % 4 ≠ 0 ∨ scratchSize ≤ x →
        TurnedAway (.bitSetAliasWrite m x v none) s ∧ TurnedAway (.bitClearAliasWrite m x v none) s)
    ∧ (∀ s : State, s.get F.CEL_SCRUB_HOURS 0 ≠ 0 → s.celReady = true → s.celTop ≠ 0 →
        let o := s.get H.SCRUB_ADDR 0
        lookKey (o / 64) s.celErr = none →
          (o + 64 < s.celTop → Completes (.scrubRead .clean) s (fun t => Sets [(H.SCRUB_ADDR, 0, o + 64)] s t))
            ∧ (s.celTop ≤ o + 64 → Completes (.scrubRead .clean) s (fun t =>
              Sets [(H.SCRUB_ADDR, 0, 0), (F.CEL_SCRUB_PASSES, 0, s.get F.CEL_SCRUB_PASSES 0 + 1)] s t))
            ∧ (Completes (.scrubRead .single) s (fun t => t.cellar = s.cellar ∧ lookKey (o / 64) t.celErr = none
                ∧ Shows [(F.CEL_ECC_CORR_COUNT, 0, satAt F.CEL_ECC_CORR_COUNT.width (s.get F.CEL_ECC_CORR_COUNT 0 + 1))] t))
            ∧ (s.mode ≠ mHOLD → Completes (.scrubRead .double) s (fun t => t.cellar = s.cellar ∧ lookKey (o / 64) t.celErr = some 2
                ∧ bit (t.get F.FLT_STAT_STICKY 3) 18 = true
                ∧ Shows [(F.CEL_ECC_UNCORR_COUNT, 0, satAt F.CEL_ECC_UNCORR_COUNT.width (s.get F.CEL_ECC_UNCORR_COUNT 0 + 1)),
                    (F.CEL_ECC_ADDR_HI_CLASS, 0, 5)] t)))
    ∧ (∀ (s : State) (m : Master) (v : Nat), BusTakes s m .SEC_WIPE 0 →
        (bits v 16 16 = 0x9D42 → bit v 0 = true → Completes (.secWipe m v) s (fun t => t.lastResp = .done
            ∧ SetsResp [(F.SPD_STAT_WIPING, 0, 1), (H.WIPE_END, 0, s.now + 4 * us + 1)] s { t with scratch := s.scratch }
            ∧ (∀ a : Nat, inSecure a = true → memByte ramByte t.scratch a = 0)
            ∧ BytesBut ramByte s.scratch t.scratch 0x1F0000 0x10000))
          ∧ (bits v 16 16 = 0x9D42 → bit v 0 = false → Completes (.secWipe m v) s (fun t => t.lastResp = .done ∧ OnlyFieldsResp [] s t))
          ∧ (bits v 16 16 ≠ 0x9D42 → TurnedAway (.secWipe m v) s))
    ∧ (∀ (s : State) (a : Nat), s.due H.WIPE_END 0 = some a → Completes .wipeDone s (fun t => t.now = laterOf s a
        ∧ SetsNow [(F.SPD_STAT_WIPING, 0, 0), (F.SPD_STAT_WIPED, 0, 1), (H.WIPE_END, 0, 0),
            (F.SPD_WIPES_COUNT, 0, satAt F.SPD_WIPES_COUNT.width (s.get F.SPD_WIPES_COUNT 0 + 1))] s { t with scratch := s.scratch }
        ∧ (∀ x : Nat, inSecure x = true → memByte ramByte t.scratch x = 0)
        ∧ BytesBut ramByte s.scratch t.scratch 0x1F0000 0x10000))

/-- Events and controls of an engine. -/
def Obligations.EngineEvents : Prop :=
  (∀ (s : State) (k : Fin 64),
      (s.atBoundary k = true → parityOk (wordAt s k) = false → s.aborting k = false → s.depthOf k < 8 →
          Completes (.parityError k) s (fun t => trapTaken s k 2 0 t ∧ Shows [(F.ENG_CS_STAT_PERR, k, 1), (F.ENG_CS_STAT_PERR_WORD, k, s.pcOf k)] t
            ∧ (s.mode ≠ mHOLD → bit (t.get F.FLT_STAT_STICKY (k / 32)) (k % 32) = true)))
        ∧ (∀ v : Nat, s.trapDue k = some v → s.interruptible k = true →
          (v ≠ 11 → v ≠ 13 → (s.aborting k = false ∨ v ≠ 9) → s.depthOf k < 8 → Completes (.trapEntry k) s (trapTaken s k v 0))
            ∧ (v = 13 → s.depthOf k < 8 → Completes (.trapEntry k) s (fun t =>
                trapTaken s k 13 ((qGet s.evq k).headD 0) t ∧ qGet t.evq k = (qGet s.evq k).drop 1))
            ∧ (v = 11 → s.on F.ENG_CTRL_STOP k = false → Completes (.trapEntry k) s (fun t =>
                Shows [(F.ENG_STAT_STATE, k, eABORTING), (F.ENG_STAT_PC, k, 11), (F.ENG_STAT_DEPTH, k, 0), (F.ENG_STAT_RSP, k, 0),
                  (H.ENG_TCAUSE, k, 11), (H.ENG_WAIT, k, 0)] t ∧ bit (t.get H.ENG_FLAGS k) flMIE = false))
            ∧ (v = 9 → s.aborting k = true → Completes (.trapEntry k) s (Shows [(F.ENG_HALT_CAUSE, k, 3), (F.ENG_STAT_DEPTH, k, 0)]))
            ∧ (v ≠ 11 → s.aborting k = false → 8 ≤ s.depthOf k → Completes (.trapEntry k) s
                (Shows [(F.ENG_HALT_CAUSE, k, 1), (F.ENG_STAT_DEPTH, k, 0)])))
        ∧ (∀ a : Nat, s.due H.ENG_ABORT_END k = some a → s.get H.ENG_ABORT k ≠ 0 → s.on F.ENG_STAT_TASK_HELD k = false →
          Completes (.abortTimeout k) s (fun t => t.now = laterOf s a
            ∧ Shows [(F.ENG_HALT_CAUSE, k, 2), (F.ENG_HALT_PC, k, s.pcOf k), (H.ENG_ABORT, k, 0), (H.ENG_ABORT_END, k, 0),
                (F.ENG_STAT_DEPTH, k, 0)] t
            ∧ (s.on F.ENG_CTRL_STEAL_EN k = false → Shows [(F.ENG_STAT_STATE, k, eHALTED)] t)))
        ∧ (s.on H.ENG_START_PEND k = true → s.on F.ENG_STAT_TASK_HELD k = false → s.interruptible k = true ∨ s.engRests k = true →
          s.on F.ENG_CTRL_STOP k = false →
          (s.on H.ENG_START_CUT k = false → Completes (.engineEntry k) s (Shows (freshFields k 0
              ++ [(F.ENG_STAT_STATE, k.val, eRUN), (H.ENG_BIN, k.val, 0), (F.ENG_TMASK_PEND, k.val, 0), (H.ENG_START_PEND, k.val, 0), (H.ENG_ABORT, k.val, 0)])))
            ∧ (s.on H.ENG_START_CUT k = true → Completes (.engineEntry k) s (Shows
              [(F.ENG_STAT_STATE, k, eABORTING), (F.ENG_STAT_PC, k, 11), (H.ENG_FLAGS, k, 0), (H.ENG_START_PEND, k, 0)]))))
    ∧ (∀ (s : State) (m : Master) (k : Fin 64) (v : Nat), EngTakes s m k →
        ((s.engRests k = true ∧ ∀ i : Nat, s.engSite k = some i → s.active i = false) → s.on F.ENG_CTRL_STOP k = false →
            Completes (.engGo m k v) s (fun t => t.lastResp = .done
              ∧ SetsResp (freshFields k (v % 4096) ++ [(F.ENG_STAT_STATE, k.val, eRUN), (H.ENG_BIN, k.val, 0), (H.ENG_ATOM_N, k.val, 0),
                  (H.ENG_WAIT_END, k.val, 0), (H.ENG_LD_ON, k.val, 0)] ) s t))
          ∧ (s.engRests k = false ∨ (∃ i : Nat, s.engSite k = some i ∧ s.active i = true) → TurnedAway (.engGo m k v) s)
          ∧ (s.right 2 = true → bit v 2 = true → bit v 3 = false → bit v 4 = s.on F.ENG_CTRL_STEAL_EN k →
              Completes (.engStop m k v) s (fun t => t.lastResp = .done ∧ Shows [(F.ENG_CTRL_STOP, k, 1), (F.ENG_CTRL_BRK_EN, k, v)] t
                ∧ (s.atBoundary k = true → s.get H.ENG_ATOM_N k = 0 → s.on H.ENG_STEPPING k = false →
                    Shows [(F.ENG_STAT_STATE, k, eSTOPPED), (H.ENG_PRE_STOP, k, s.get F.ENG_STAT_STATE k)] t)))
          ∧ (s.right 2 = true → bit v 3 = true → bit v 4 = s.on F.ENG_CTRL_STEAL_EN k → s.engState k = eSTOPPED →
              Completes (.engStep m k v) s (fun t => t.lastResp = .done
                ∧ Shows [(H.ENG_STEPPING, k, 1), (F.ENG_STAT_STATE, k, s.get H.ENG_PRE_STOP k), (H.ENG_PRE_STOP, k, 0),
                    (H.ENG_BRK_SKIP, k, 1)] t))
          ∧ (s.right 2 = false → (bit v 2 = true → TurnedAway (.engStop m k v) s) ∧ (bit v 3 = true → TurnedAway (.engStep m k v) s))
          ∧ (∀ (w : Fin 4096) (part : Fin 4),
              (s.csOpen k = true → part.val < 3 → Completes (.controlStoreWrite m k w part v) s (fun t => t.lastResp = .done
                  ∧ SetsResp [(H.ENG_STAGE, k, putWord32 (s.get H.ENG_STAGE k) part v)] s t))
                ∧ (s.csOpen k = true → part.val = 3 → Completes (.controlStoreWrite m k w part v) s (fun t =>
                  let x := s.get H.ENG_STAGE k + v % 2 ^ 32 * 2 ^ 96
                  t.lastResp = .done ∧ t.csWord k w = x % 2 ^ 128
                    ∧ (∀ (j : Fin 64) (y : Fin 4096), (j, y) ≠ (k, w) → t.csWord j y = s.csWord j y)
                    ∧ (parityOk x = false → t.on F.ENG_CS_STAT_BADPAR_WR k = true)
                    ∧ OnlyFieldsResp [(F.ENG_CS_STAT_BADPAR_WR, k)] s { t with cstore := s.cstore }))
                ∧ (s.csOpen k = false → TurnedAway (.controlStoreWrite m k w part v) s)))

/-- Site commands (R120, R121, R294-R300), one site at a time. -/
def Obligations.SiteCommands : Prop :=
  (∀ (s : State) (o : SiteOrigin) (i : Fin 64),
      (∀ p ∈ [(1, Instr.start o (2 ^ i.val)), (2, Instr.pause o (2 ^ i.val)), (3, Instr.resume o (2 ^ i.val)),
          (4, Instr.retest o (2 ^ i.val)), (5, Instr.abort o (2 ^ i.val))],
        siteOpen s p.1 o → s.siteRefuses p.1 i = true → siteRefused p.2 s o)
      ∧ (siteOpen s 1 o → s.siteRefuses 1 i = false → s.recFull i = false → s.startBad i = false →
          Completes (.start o (2 ^ i.val)) s (fun t => siteAnswered s t o ∧ testBegun s i 0 t ∧ t.get F.SITE_RUN_RETESTS i = 0))
      ∧ (∀ h : Hdr, o = .host h → siteOpen s 1 o → s.siteRefuses 1 i = false →
          (s.recFull i = true → Completes (.start o (2 ^ i.val)) s (OnlyReplied h 0x2D stLIMIT [] s))
            ∧ (s.recFull i = false → s.startBad i = true → Completes (.start o (2 ^ i.val)) s (OnlyReplied h 0x2D stARG [] s)))
      ∧ (siteOpen s 4 o → s.siteRefuses 4 i = false → s.recFull i = false → s.startBad i = false →
          (s.siteState i = sENDED → Completes (.retest o (2 ^ i.val)) s (fun t => siteAnswered s t o ∧ testBegun s i 1 t
              ∧ Shows [(F.SITE_RUN_RETESTS, i, satAt F.SITE_RUN_RETESTS.width (s.get F.SITE_RUN_RETESTS i + 1))] t))
            ∧ (s.siteState i = sPAUSED → Completes (.retest o (2 ^ i.val)) s (fun t => siteAnswered s t o
              ∧ Shows [(F.SITE_STATE_STATE, i, sRUNNING), (F.SITE_STATE_FINISHING, i, 1), (H.ST_NEXT, i, 2), (H.ST_HALTED, i, 1)] t
              ∧ (s.get H.ST_CAUSE i = 0 → Shows [(H.ST_CAUSE, i, 4), (H.ST_BIN_FORCE, i, 0x10001 + s.get H.ENG_BIN (s.siteEngine i))] t))))
      ∧ (siteOpen s 2 o → s.siteRefuses 2 i = false →
          (s.on F.SITE_STATE_FINISHING i = true → Completes (.pause o (2 ^ i.val)) s (fun t => siteAnswered s t o
              ∧ { t with replies := s.replies, accepted := s.accepted, lastResp := s.lastResp } = s))
            ∧ (s.on F.SITE_STATE_FINISHING i = false → s.on H.SQ_PLAYING i = true → Completes (.pause o (2 ^ i.val)) s (fun t =>
              siteAnswered s t o ∧ Sets [(H.SQ_PAUSE_REQ, i, 1)] s
                { t with replies := s.replies, accepted := s.accepted, lastResp := s.lastResp }))
            ∧ (s.on F.SITE_STATE_FINISHING i = false → s.on H.SQ_PLAYING i = false → Completes (.pause o (2 ^ i.val)) s (fun t =>
              siteAnswered s t o ∧ Shows [(F.SITE_STATE_STATE, i, sPAUSED)] t ∧ t.trapPending (s.siteEngine i) 10 = true
                ∧ (1 ≤ s.get H.SQ_WAIT i → s.get H.SQ_WAIT i ≤ 3 → Shows [(H.SQ_WAIT, i, 0), (H.SQ_CHAIN_PAUSED, i, 1)] t))))
      ∧ (siteOpen s 3 o → s.siteRefuses 3 i = false → Completes (.resume o (2 ^ i.val)) s (fun t => siteAnswered s t o
          ∧ Shows [(F.SITE_STATE_STATE, i, sRUNNING)] t
          ∧ (s.on H.SQ_CHAIN_PAUSED i = true → Shows [(H.SQ_CHAIN_PAUSED, i, 0), (H.SQ_WAIT, i, 1)] t
              ∧ (s.on H.SQ_CHAINED i = true →
                  Shows [(F.SITE_TSTAT_RESTARTS, i, satAt F.SITE_TSTAT_RESTARTS.width (s.get F.SITE_TSTAT_RESTARTS i + 1))] t))))
      ∧ (siteOpen s 5 o → s.siteRefuses 5 i = false →
          (s.siteState i = sHELD → Completes (.abort o (2 ^ i.val)) s (fun t => siteAnswered s t o
              ∧ Shows [(F.SITE_STATE_STATE, i, sENDED)] t
              ∧ (∀ e : SiteEntry, s.siteSafeBusy i = false → s.entryOf i = some e →
                  t.safe = s.safe ++ [⟨siteScope i e, s.now, 1, none, none⟩])))
            ∧ (s.siteState i ≠ sHELD → s.on F.SITE_STATE_FINISHING i = false → Completes (.abort o (2 ^ i.val)) s (fun t =>
              siteAnswered s t o ∧ Shows [(H.ST_OUT_SAFE, i, 1)] t
                ∧ (s.get H.ST_CAUSE i = 0 → Shows [(H.ST_CAUSE, i, 2), (H.ST_BIN_FORCE, i, 0xFFFF), (H.ST_HALT_T, i, s.ts)] t)
                ∧ (s.on H.SQ_PLAYING i = true → Shows [(H.SQ_STOP_REQ, i, 1)] t)
                ∧ (s.on H.SQ_PLAYING i = false → Shows [(H.SQ_WAIT, i, 0)] t)
                ∧ (s.get H.ENG_ABORT (s.siteEngine i) = 0 → t.trapPending (s.siteEngine i) 11 = true
                    ∧ Shows [(H.ENG_ABORT, s.siteEngine i, 1), (H.ENG_ABORT_END, s.siteEngine i,
                      s.now + s.get F.ENG_ABORT_TMO_US (s.siteEngine i) * us + 1)] t)))
            ∧ (s.siteState i ≠ sHELD → s.on F.SITE_STATE_FINISHING i = true → s.get H.ST_CAUSE i = 1 →
              Completes (.abort o (2 ^ i.val)) s (fun t => siteAnswered s t o ∧ Shows [(H.ST_NEXT, i, 0)] t
                ∧ (s.get H.ST_HALT_T i / 8192 = s.ts / 8192 → Shows [(H.ST_CAUSE, i, 2), (H.ST_BIN_FORCE, i, 0xFFFF)] t)
                ∧ (s.get H.ST_HALT_T i / 8192 ≠ s.ts / 8192 → t.get H.ST_CAUSE i = 1 ∧ t.on H.ST_TASKS_CUT i = true)))))
    ∧ (∀ (s : State) (i : Fin 64), s.on F.SITE_STATE_FINISHING i = true → s.on H.ST_HALTED i = true → s.on H.SQ_PLAYING i = false →
        s.siteSafeBusy i = false →
        let u := s.finishUnits i
        (u.tasksDone i = false → Completes (.siteFinish i) s (fun t => t = u))
          ∧ (u.tasksDone i = true → u.get H.ST_NEXT i ≠ 2 → Completes (.siteFinish i) s (fun t =>
            Shows [(F.SITE_STATE_STATE, i, sENDED), (F.SITE_STATE_FINISHING, i, 0)] t
              ∧ (∃ ev : Event, t.events.getLast? = some ev ∧ ev.code = 0x0401)
              ∧ (∀ e : SiteEntry, u.entryOf i = some e → Shows [(F.SITE_BIN_BIN, i, (u.finalBin i).1),
                  (F.SITE_BIN_CAUSE, i, u.get H.ST_CAUSE i)] t)))
          ∧ (u.tasksDone i = true → u.get H.ST_NEXT i = 2 → Completes (.siteFinish i) s (fun t =>
            Shows [(F.SITE_STATE_STATE, i, sRUNNING), (F.SITE_STATE_FINISHING, i, 0), (H.ST_IS_RETEST, i, 1),
              (F.SITE_RUN_RUN, i, u.get F.SITE_RUN_RUN i + 1)] t)))

/-- Binding, unbinding (R290-R293), and the end of stealing (R292). -/
def Obligations.Bindings : Prop :=
  (∀ (s : State) (h : Hdr) (l : List Byte), (l.length ≠ 64 → exec (.siteBind h l) s = .fault .illFormed)
      ∧ (l.length = 64 → HostServes s legalLoad → (parseEntry l).site < 64 →
          let e := parseEntry l
          (s.bindBarred e = false → s.entryOk l e = true → Completes (.siteBind h l) s (fun t => Replied h 0x2B stOK [] s t
              ∧ t.entryOf e.site = some e
              ∧ t.siteState e.site = (if s.siteState e.site = sUNBOUND then sIDLE else s.siteState e.site)
              ∧ Shows [(F.SITE_STATE_ENGINE, e.site, e.engine), (F.SITE_STATE_TILE, e.site, e.tile),
                  (F.SITE_STATE_STEAL_EN, e.site, b2n (bit e.flags 0)), (F.SITE_STATE_END_SAFE, e.site, b2n (bit e.flags 1)),
                  (F.SEQ_UNDERRUN_POLICY, e.site, b2n (bit e.flags 2)), (F.SEQ_UNDERRUN_STALL_LIMIT_US, e.site, e.stallLimit),
                  (F.SEQ_START_TMO_TMO_MS, e.site, if e.startTmo = 0 then 500 else e.startTmo),
                  (F.SEQ_START_ENTRY, e.site, e.startEntry), (H.ENG_SITE, e.engine, e.site),
                  (F.ENG_CTRL_STEAL_EN, e.engine, b2n (bit e.flags 0))] t
              ∧ (∀ c ∈ e.channels, t.chSite c = some e.site) ∧ (∀ d ∈ e.dpsList, t.dpsSite d = some e.site)
              ∧ (∀ u ∈ e.smuList, t.smuSite u = some e.site)
              ∧ (∀ j ∈ e.tdcList, t.on F.TDC_CTRL_BOUND j = true ∧ t.get F.TDC_CTRL_SITE j = e.site)
              ∧ (∀ a ∈ e.acqList, t.on F.ACQ_CTRL_BOUND a = true ∧ t.get F.ACQ_CTRL_SITE a = e.site)
              ∧ (∀ m ∈ e.mons, t.on H.MON_MEM_BOUND m = true ∧ t.get H.MON_MEM_SITE m = e.site)
              ∧ (∀ old : SiteEntry, s.entryOf e.site = some old → (∀ c ∈ old.channels, c ∉ e.channels → t.chSite c = none)
                  ∧ (∀ d ∈ old.dpsList, d ∉ e.dpsList → t.dpsSite d = none) ∧ (∀ u ∈ old.smuList, u ∉ e.smuList → t.smuSite u = none))))
            ∧ (s.bindBarred e = true → Completes (.siteBind h l) s (OnlyReplied h 0x2B stWRONG [] s))
            ∧ (s.bindBarred e = false → s.entryOk l e = false → Completes (.siteBind h l) s (OnlyReplied h 0x2B stARG [] s))))
    ∧ (∀ (s : State) (h : Hdr) (i : Fin 64), HostServes s legalLoad →
        (s.unbindBarred i = true → Completes (.siteUnbind h (2 ^ i.val)) s (OnlyReplied h 0x2C stWRONG [] s))
          ∧ (s.unbindBarred i = false → s.entryOf i = none → Completes (.siteUnbind h (2 ^ i.val)) s (OnlyReplied h 0x2C stOK [] s))
          ∧ (∀ e : SiteEntry, s.unbindBarred i = false → s.entryOf i = some e → Completes (.siteUnbind h (2 ^ i.val)) s (fun t =>
              t = { s with safe := s.safe ++ [⟨siteScope e.site e, s.now, 1, some e.site, some h⟩] })))
    ∧ (∀ (s : State) (h : Hdr), HostServes s legalLoad → Completes (.siteUnbind h 0) s (OnlyReplied h 0x2C stARG [] s))
    ∧ (∀ s : State, s.on H.STL_OFF_PEND 0 = true → (∀ k : Fin 64, s.dqLen k = 0 ∧ s.on F.ENG_STAT_TASK_HELD k = false) →
        Completes .stealDisable s (Sets [(F.STL_CTRL_EN, 0, 0), (H.STL_OFF_PEND, 0, 0)] s))
    ∧ (∀ (s : State) (k : Fin 64), s.dqLen k ≠ 0 ∨ s.on F.ENG_STAT_TASK_HELD k = true → Completes .stealDisable s (fun t => t = s))

/-- Time-interval measurement (R379-R401). -/
def Obligations.TimeMeasurementRuns : Prop :=
  ∀ (s : State) (j : Fin 128),
    (∀ (m : Master) (v : Nat), BusTakes s m .TDC_CTRL j →
        (bit v 0 = true → bit v 1 = false → s.tdcArmRefusal j (s.tdcWord j) = 0 → Completes (.tdcCtrlArm m j v) s (fun t =>
            t.lastResp = .done
              ∧ Shows [(F.TDC_CTRL_ARMED, j, 1), (F.TDC_CTRL_OPEN, j, 0), (F.TDC_ACC_LO_N_LO, j, 0), (F.TDC_ACC_HI_N_HI, j, 0),
                  (F.TDC_NVAL_COUNT, j, 0), (F.TDC_MAX_MAX, j, 0), (F.TDC_MIN_MIN, j, 0xFFFFFFFF), (F.TDC_DEAD_COUNT, j, 0),
                  (F.TDC_CNT_A_ORPHAN_STOP, j, 0), (F.TDC_CNT_B_PAIR_TMO, j, 0), (H.TDC_START_P, j, 0), (H.TDC_GATE_ON, j, 0)] t
              ∧ (s.get F.TDC_AUX_OPEN_SRC j = 0 → Shows [(H.TDC_ARM_T, j, tdcArmAt s j), (H.TDC_OPEN_DUE, j, tdcArmAt s j + 1)] t)
              ∧ (tdcAtEase s j → t.tdcQueue j = s.tdcQueue j ++ [⟨ctlWord 1 (s.get F.TB_EPOCH_EPOCH 0) (s.tdcWord j)⟩])))
          ∧ (bit v 0 = true → s.tdcArmRefusal j (s.tdcWord j) ≠ 0 → TurnedAway (.tdcCtrlArm m j v) s)
          ∧ (bit v 0 = false → bit v 1 = true → s.on F.TDC_CTRL_ARMED j = true → Completes (.tdcCtrlDisarm m j v) s (fun t =>
            t.lastResp = .done
              ∧ Shows [(F.TDC_CTRL_ARMED, j, 0), (F.TDC_CTRL_OPEN, j, 0), (H.TDC_START_P, j, 0), (H.TDC_GATE_ON, j, 0), (H.TDC_OPEN_DUE, j, 0)] t
              ∧ (tdcAtEase s j → t.tdcQueue j = s.tdcQueue j ++
                  [⟨ctlWord 5 0 (s.get2 F.TDC_ACC_LO_N_LO F.TDC_ACC_HI_N_HI j)⟩])))
          ∧ (bit v 0 = false → s.on F.TDC_CTRL_ARMED j = false → Completes (.tdcCtrlDisarm m j v) s (fun t =>
              t.lastResp = .done ∧ OnlyFieldsResp [] s t)))
      ∧ (∀ a : Nat, s.due H.TDC_OPEN_DUE j = some a → s.on F.TDC_CTRL_ARMED j = true → Completes (.tdcOpen j) s (fun t =>
          t.now = laterOf s a ∧ SetsNow [(F.TDC_CTRL_OPEN, j, 1), (H.TDC_OPEN_DUE, j, 0)] s t))
      ∧ (∀ e : TdcEdge, ¬ tdcHears s j e → Completes (.tdcEvent j e) s (fun t => t = s))
      ∧ (∀ e : TdcEdge, tdcHears s j e → tdcSrc s j e.stop ≠ 2 → tdcSrc s j e.stop ≠ 3 →
          let free := s.get H.TDC_T2 j + 10 * coreCycle ≤ e.time
          let u := tdcTimeOf s j e
          (¬ free → Completes (.tdcEvent j e) s (fun t => t.now = laterOf s e.time
              ∧ SetsNow [(F.TDC_DEAD_COUNT, j, satAt F.TDC_DEAD_COUNT.width (s.get F.TDC_DEAD_COUNT j + 1)), (F.TDC_STAT_DEAD_SEEN, j, 1),
                  (H.TDC_DEADN, j, satAt H.TDC_DEADN.width (s.get H.TDC_DEADN j + 1)), (H.TDC_GATE_BAD, j, 1)] s t))
            ∧ (free → Completes (.tdcEvent j e) s (fun t => t.now = laterOf s e.time
              ∧ Shows [(H.TDC_T1, j, e.time), (H.TDC_T2, j, s.get H.TDC_T1 j), (H.TDC_INTERP, j, 1 - s.get H.TDC_INTERP j),
                  (F.TDC_ACC_LO_N_LO, j, s.get2 F.TDC_ACC_LO_N_LO F.TDC_ACC_HI_N_HI j + 1)] t
              ∧ (refPairOk e.n1 e.n2 = true → Shows [(H.TDC_PAIR1, 2 * j.val + (1 - s.get H.TDC_INTERP j), e.n1),
                  (H.TDC_PAIR2, 2 * j.val + (1 - s.get H.TDC_INTERP j), e.n2)] t)
              ∧ (refPairOk e.n1 e.n2 = false → Shows [(F.TDC_STAT_CAL_OLD_SEEN, j, 1),
                  (F.TDC_CALOLD_COUNT, j, satAt F.TDC_CALOLD_COUNT.width (s.get F.TDC_CALOLD_COUNT j + 1))] t)
              ∧ (s.get F.TDC_CFG_MODE j = 0 → s.on F.TDC_CFG_ST_EV j = true → tdcAtEase s j →
                  t.tdcQueue j = s.tdcQueue j ++ [⟨unitsWord u + b2n e.stop⟩])
              ∧ (s.get F.TDC_CFG_MODE j = 1 → s.tdcSame j = false →
                  (e.stop = false → s.on H.TDC_START_P j = false →
                      Shows [(H.TDC_START_P, j, 1), (H.TDC_START_U, j, u), (H.TDC_START_AT, j, e.time)] t)
                    ∧ (e.stop = false → s.on H.TDC_START_P j = true → Shows [(F.TDC_STAT_PAIR_SEEN, j, 1),
                        (F.TDC_CNT_A_DOUBLE_START, j, satAt F.TDC_CNT_A_DOUBLE_START.width (s.get F.TDC_CNT_A_DOUBLE_START j + 1))] t)
                    ∧ (e.stop = true → s.on H.TDC_START_P j = false → Shows [(F.TDC_STAT_PAIR_SEEN, j, 1),
                        (F.TDC_CNT_A_ORPHAN_STOP, j, satAt F.TDC_CNT_A_ORPHAN_STOP.width (s.get F.TDC_CNT_A_ORPHAN_STOP j + 1))] t)
                    ∧ (e.stop = true → s.on H.TDC_START_P j = true →
                        let d := tdcSpan (s.get H.TDC_START_U j) u
                        Shows [(H.TDC_START_P, j, 0)] t
                          ∧ (4 < d → d < coarseWrap / 2 → tdcFormed s j d t)
                          ∧ (d ≤ 4 ∨ coarseWrap / 2 ≤ d → tdcFormed s j 0 t ∧ Shows [(F.TDC_STAT_NEAR_SEEN, j, 1),
                              (F.TDC_CNT_B_NEAR, j, satAt F.TDC_CNT_B_NEAR.width (s.get F.TDC_CNT_B_NEAR j + 1))] t)))
              ∧ (s.get F.TDC_CFG_MODE j = 1 → s.tdcSame j = true →
                  Shows [(H.TDC_START_P, j, 1), (H.TDC_START_U, j, u), (H.TDC_START_AT, j, e.time)] t
                    ∧ (s.on H.TDC_START_P j = true → 4 < tdcSpan (s.get H.TDC_START_U j) u →
                        tdcSpan (s.get H.TDC_START_U j) u < coarseWrap / 2 → tdcFormed s j (tdcSpan (s.get H.TDC_START_U j) u) t))
              ∧ (s.get F.TDC_CFG_MODE j = 2 →
                  (s.on H.TDC_GATE_ON j = false ∨ s.on H.TDC_GATE_BAD j = true →
                      Shows [(H.TDC_GATE_ON, j, 1), (H.TDC_GATE_U, j, u), (H.TDC_GATE_CNT, j, 0)] t)
                    ∧ (s.on H.TDC_GATE_ON j = true → s.on H.TDC_GATE_BAD j = false →
                        s.get H.TDC_GATE_CNT j + 1 < s.get F.TDC_GATE_GATE_N j → Shows [(H.TDC_GATE_CNT, j, s.get H.TDC_GATE_CNT j + 1)] t)
                    ∧ (s.on H.TDC_GATE_ON j = true → s.on H.TDC_GATE_BAD j = false →
                        s.get F.TDC_GATE_GATE_N j ≤ s.get H.TDC_GATE_CNT j + 1 →
                        tdcFormed s j (tdcSpan (s.get H.TDC_GATE_U j) u) t
                          ∧ Shows [(H.TDC_GATE_ON, j, 1), (H.TDC_GATE_U, j, u), (H.TDC_GATE_CNT, j, 0)] t)))))
      ∧ (∀ e : TdcEdge, tdcHears s j e → tdcSrc s j e.stop = 2 ∨ tdcSrc s j e.stop = 3 → Completes (.tdcEvent j e) s (fun t =>
          t.now = laterOf s e.time ∧ Shows [(F.TDC_ACC_LO_N_LO, j, s.get2 F.TDC_ACC_LO_N_LO F.TDC_ACC_HI_N_HI j + 1)] t
            ∧ (s.get F.TDC_CFG_MODE j = 0 → s.on F.TDC_CFG_ST_EV j = true → tdcAtEase s j →
                t.tdcQueue j = s.tdcQueue j ++ [⟨unitsWord (s.commonAt e.time * 1024 / coreCycle) + b2n e.stop⟩])))
      ∧ (s.on H.TDC_START_P j = true → s.get F.TDC_AUX_PAIR_TMO_US j ≠ 0 → s.get F.TDC_CFG_MODE j = 1 →
          Completes (.pairTimeout j) s (fun t => t.now = laterOf s (s.get H.TDC_START_AT j + s.get F.TDC_AUX_PAIR_TMO_US j * us)
            ∧ SetsNow [(H.TDC_START_P, j, 0), (F.TDC_STAT_PAIR_SEEN, j, 1),
                (F.TDC_CNT_B_PAIR_TMO, j, satAt F.TDC_CNT_B_PAIR_TMO.width (s.get F.TDC_CNT_B_PAIR_TMO j + 1))] s t))
      ∧ (∀ (e : TdcEntry) (q : List TdcEntry), s.tdcQueue j = e :: q → s.ringValid j = true →
          let wr := s.ringWr j
          (s.ringSize j ≤ wr - s.ringRd j → Completes (.tdcSpill j 1) s (fun t => Sets [(F.TDC_STAT_RING_FULL, j, 1)] s t))
            ∧ (wr - s.ringRd j < s.ringSize j → s.celReady = true → s.celErr = [] → tdcAtEase s j →
              s.celBacked (celOff (s.ringBase j) + 0x1000 + wr % s.ringSize j) 8 = true → Completes (.tdcSpill j 1) s (fun t =>
                t.tdcQueue j = q ∧ t.celRaw (celOff (s.ringBase j) + 0x1000 + wr % s.ringSize j) 8 = leBytes 8 e.word
                  ∧ t.celRaw (celOff (s.ringBase j)) 8 = leBytes 8 (wr + 8)
                  ∧ Shows [(F.TDC_WR_LO_WR_LO, j, wr + 8), (F.TDC_WR_HI_WR_HI, j, (wr + 8) / 2 ^ 32)] t)))
      ∧ (∀ (n : Nat) (u : State), exec (.tdcSpill j 1) s = .next u → exec (.tdcSpill j (n + 1)) s = exec (.tdcSpill j n) u)
      ∧ (s.on F.TDC_STAT_RING_FULL j = true → Completes (.ringRecheck j) s (fun t =>
          Sets [(F.TDC_STAT_RING_FULL, j, b2n (decide (s.ringSize j ≤ s.ringWr j - s.ringRd j)))] s t))

/-- Triggered acquisition (R403-R415). -/
def Obligations.AcquisitionRuns : Prop :=
  ∀ (s : State) (u : Fin 96),
    (∀ (m : Master) (v : Nat), BusTakes s m .ACQ_CTRL u →
        (bit v 0 = true → bit v 1 = false → bit v 2 = false →
            (s.acqArmRefusal u (s.get F.ACQ_CFG_TRIG_SRC u) = 0 → Completes (.acqCtrlArm m u v) s (fun t => t.lastResp = .done
                ∧ Shows [(H.ACQ_N, u, 0), (F.ACQ_WR_IDX_IDX, u, 0), (H.ACQ_FLAGS, u, 0), (H.ACQ_FORCE_P, u, 0),
                    (H.ACQ_NEXT, u, s.gridFrom s.now), (H.ACQ_LVL, u, s.get F.ACQ_LEVEL_CODE u),
                    (F.ACQ_CTRL_STATE, u, if s.on F.ACQ_CFG_WAIT_PRE u = true ∧ s.get F.ACQ_PRE_N u ≠ 0 then aPRE else aREADY)] t))
              ∧ (s.acqArmRefusal u (s.get F.ACQ_CFG_TRIG_SRC u) ≠ 0 → TurnedAway (.acqCtrlArm m u v) s))
          ∧ (bit v 0 = false → bit v 1 = true → bit v 2 = false →
            (s.acqState u = aPRE ∨ s.acqState u = aREADY → Completes (.acqCtrlForce m u v) s (fun t => t.lastResp = .done
                ∧ SetsResp [(H.ACQ_FORCE_P, u, 1)] s t))
              ∧ (s.acqState u ≠ aPRE → s.acqState u ≠ aREADY → Completes (.acqCtrlForce m u v) s (fun t => t.lastResp = .done
                ∧ OnlyFieldsResp [] s t)))
          ∧ (bit v 0 = false → bit v 1 = false → bit v 2 = true →
            (s.acqLive u = true → Completes (.acqCtrlCancel m u v) s (fun t => t.lastResp = .done
                ∧ SetsResp [(F.ACQ_CTRL_STATE, u, aIDLE), (F.ACQ_STAT_CANCELLED, u, 1), (H.ACQ_FORCE_P, u, 0)] s t))
              ∧ (s.acqLive u = false → Completes (.acqCtrlCancel m u v) s (fun t => t.lastResp = .done ∧ OnlyFieldsResp [] s t))))
      ∧ (∀ a : AcqSeen, ¬ acqTakes s u → Completes (.acqSample u a) s (fun t => t = s))
      ∧ (∀ a : AcqSeen, acqTakes s u → s.get H.ACQ_N u + 1 < 2 ^ 32 →
          let n := s.get H.ACQ_N u
          let idx := s.get F.ACQ_WR_IDX_IDX u
          let v := clampI (-(2 ^ 23)) (2 ^ 23 - 1) a.volt
          let src := s.get F.ACQ_CFG_TRIG_SRC u
          let w := s.upTo (s.get H.ACQ_NEXT u + 500 * ns)
          Completes (.acqSample u a) s (fun t => t.now = laterOf s (s.get H.ACQ_NEXT u + 500 * ns)
            ∧ Shows [(H.ACQ_NEXT, u, s.get H.ACQ_NEXT u + us), (H.ACQ_N, u, n + 1), (F.ACQ_WR_IDX_IDX, u, (idx + 1) % s.acqSize u)] t
            ∧ (n = 0 → Shows [(H.ACQ_T_FIRST, u, s.get H.ACQ_NEXT u)] t)
            ∧ (s.celErr = [] → s.celBacked (acqAt s u idx) 8 = true → s.get H.ACQ_DROP_P u = 0 →
                t.celRaw (acqAt s u idx) 8 = leBytes 8 (sampleEntry w u a)
                  ∧ BytesBut ramByte s.cellar t.cellar (acqAt s u idx) 8)
            ∧ (s.celBacked (acqAt s u idx) 8 = false → t.cellar = s.cellar ∧ t.on F.ACQ_STAT_DROP u = true
                ∧ Shows [(H.ACQ_DROPPED, u, satAt H.ACQ_DROPPED.width (s.get H.ACQ_DROPPED u + 1))] t)
            ∧ (s.acqState u = aPOST → Shows [(F.ACQ_CTRL_STATE, u, aPOST), (H.ACQ_LEFT, u, s.get H.ACQ_LEFT u - 1)] t)
            ∧ (s.acqState u = aPRE → s.on H.ACQ_FORCE_P u = false →
                Shows [(F.ACQ_CTRL_STATE, u, if s.get F.ACQ_PRE_N u ≤ n + 1 then aREADY else aPRE)] t)
            ∧ (s.acqState u ≠ aPOST → src = 0 → s.on H.ACQ_FORCE_P u = true →
                Shows (acqFired u n 15 (s.get F.ACQ_POST_N u)) t ∧ t.on F.ACQ_STAT_FORCED u = true)
            ∧ (s.acqState u = aREADY → src = 0 → s.on H.ACQ_FORCE_P u = false → Shows [(F.ACQ_CTRL_STATE, u, aREADY)] t)
            ∧ (s.acqState u = aREADY → src = 4 → (w.acqRanges u).2.2 = false → s.on H.ACQ_RANGED_P u = false →
                (s.on H.ACQ_LVL_OK u = true → s.getI H.ACQ_LVL u ≤ v → Shows (acqFired u n 4 (s.get F.ACQ_POST_N u)) t)
                  ∧ (s.on H.ACQ_LVL_OK u = false → s.on H.ACQ_FORCE_P u = false →
                      Shows [(F.ACQ_CTRL_STATE, u, aREADY),
                        (H.ACQ_LVL_OK, u, b2n (decide (v ≤ s.getI H.ACQ_LVL u - s.get F.ACQ_HYST_CODE u)))] t))))
      ∧ (s.acqState u = aPOST → s.get H.ACQ_LEFT u = 0 → s.celErr = [] →
          let seq := (s.get F.ACQ_COUNT_CAPTURES u + 1) % 65536
          let k := s.siteEngine (s.get F.ACQ_CTRL_SITE u)
          let auto : Bool := s.on F.ACQ_CFG_AUTO_REDUCE u && s.on F.ACQ_CTRL_BOUND u
          Completes (.acqComplete u) s (fun t => Shows [(F.ACQ_COUNT_CAPTURES, u, seq), (F.ACQ_FIRST_IDX_IDX, u, s.acqFirst u)] t
            ∧ (s.celBacked (celOff (s.acqBase u)) 64 = true → t.celRaw (celOff (s.acqBase u)) 64 =
                (if s.acqPre u < s.get F.ACQ_PRE_N u then s.acqFlag u 1 else s).acqDescriptor u seq)
            ∧ (auto = false → Shows [(F.ACQ_CTRL_STATE, u, aDONE)] t)
            ∧ (auto = true → s.dqLen k = 32 → Shows [(F.ACQ_CTRL_STATE, u, aDONE), (H.ACQ_PUSH_WAIT, u, 1)] t)
            ∧ (auto = true → k < 64 → s.dqLen k ≠ 32 → Shows [(F.ACQ_CTRL_STATE, u, aREDUCING)] t
                ∧ t.dqAt k (s.spWord (dqBotA k)) = mkTask 2 (s.get F.ACQ_CTRL_SITE u) (s.get H.ACQ_RUN u) u seq 0)))

/-- The vendor task routines (R315-R321, R420, R421, R630). -/
def Obligations.TasksRun : Prop :=
  (∀ (s : State) (r : TaskRunner),
      (taskOf s r = none → Completes (.failCompress r) s (fun t => t = s) ∧ Completes (.captureReduce r) s (fun t => t = s)
          ∧ Completes (.resultPack r) s (fun t => t = s))
        ∧ (∀ d : List Byte, taskOf s r = some d →
          let i := taskSite d
          (taskType d = 1 → ∀ e : SiteEntry, s.entryOf i = some e →
              let first := taskArg d 0
              let n := taskArg d 1
              let bad := n = 0 ∨ 512 < n ∨ s.get F.SITE_FAILSTORED_COUNT i < first + n
              (¬ bad → s.celBacked (celOff e.failBase + first * 16) (n * 16) = true → s.celErr = [] →
                  Completes (.failCompress r) s (fun t => taskRan s r t
                    ∧ recAdded s i e (faillogBytes i (taskRun d) first (rawEntries (s.celRaw (celOff e.failBase + first * 16) (n * 16)) n)) t))
                ∧ (bad → Completes (.failCompress r) s (fun t => taskRan s r t ∧ badCounted s t)))
            ∧ (taskType d = 3 → ∀ e : SiteEntry, s.entryOf i = some e →
              let a := taskArg d 0
              let n := taskArg d 1
              let bad := a % 8 ≠ 0 ∨ n = 0 ∨ 255 < n ∨ 0x1F0000 < a + 8 * n
              (¬ bad → (∀ q : Fin 64, r = .hearth q → a + 8 * n ≤ dqTopA q ∨ dqTopA q + 4 ≤ a) →
                  Completes (.resultPack r) s (fun t => taskRan s r t ∧ recAdded s i e (measureBytes s d) t))
                ∧ (bad → Completes (.resultPack r) s (fun t => taskRan s r t ∧ badCounted s t)))
            ∧ (taskType d = 2 →
              let u := redUnit d
              let bad := 96 ≤ u ∨ redSeq d ≠ fieldB (s.capHeader u) 0 2
              let last := fieldB (s.capHeader u) 0xC 4 ≤ (redSlice d + 1) * 4096
              (bad → Completes (.captureReduce r) s (fun t => taskRan s r t ∧ badCounted s t))
                ∧ (¬ bad → last → Completes (.captureReduce r) s (fun t => taskRan s r t
                    ∧ t.acqState u = (if s.acqState u = aREDUCING then aDONE else s.acqState u)
                    ∧ (∀ e : SiteEntry, s.entryOf i = some e → recAdded s i e (s.captureRecord i (taskRun d) d).1 t)))
                ∧ (¬ bad → ¬ last → (∀ k : Fin 64, r = .engine k → s.dqLen k < 32) → (∀ q : Fin 64, r = .hearth q → s.dqLen q ≤ 32) →
                  Completes (.captureReduce r) s (fun t => taskRan s r t ∧ t.cellar = s.cellar
                    ∧ t.dqAt (dequeOf r) (s.spWord (dqBotA (dequeOf r))) = nextSlice d)))))
    ∧ (∀ (s : State) (i : Fin 64),
        let done := s.get H.ST_PUSHED i
        let n := s.get F.SITE_FAILSTORED_COUNT i - done
        let m := if 512 ≤ n then 512 else if s.on F.SITE_STATE_FINISHING i then n else 0
        (s.get H.ST_PUSH_WAIT i = 0 → Completes (.dequePushRetry (.site i)) s (fun t => t = s))
          ∧ (s.get H.ST_PUSH_WAIT i ≠ 0 → m ≠ 0 → s.siteEngine i < 64 → s.dqLen (s.siteEngine i) ≠ 32 →
            Completes (.dequePushRetry (.site i)) s (fun t => Shows [(H.ST_PUSHED, i, done + m)] t
              ∧ t.dqAt (s.siteEngine i) (s.spWord (dqBotA (s.siteEngine i))) = mkTask 1 i (s.get F.SITE_RUN_RUN i) done m 0))
          ∧ (s.get H.ST_PUSH_WAIT i ≠ 0 → m ≠ 0 → s.dqLen (s.siteEngine i) = 32 → Completes (.dequePushRetry (.site i)) s
            (Sets [(H.ST_PUSH_WAIT, i, 1), (F.STL_FULL_COUNT, 0, satAt F.STL_FULL_COUNT.width (s.get F.STL_FULL_COUNT 0 + 1))] s)))
    ∧ (∀ (s : State) (u : Fin 96), s.on H.ACQ_PUSH_WAIT u = true →
        let k := s.siteEngine (s.get F.ACQ_CTRL_SITE u)
        k < 64 → s.dqLen k ≠ 32 → Completes (.dequePushRetry (.acq u)) s (fun t =>
          Shows [(F.ACQ_CTRL_STATE, u, aREDUCING), (H.ACQ_PUSH_WAIT, u, 0)] t ∧ t.dqAt k (s.spWord (dqBotA k)) = s.acqTask u))
    ∧ (∀ (s : State) (k : Fin 64), s.hearthMay k = true →
        (s.dqLen k = 0 → Completes (.hearthTaskTakeover k) s (fun t => t = s))
          ∧ (s.dqLen k ≠ 0 → Completes (.hearthTaskTakeover k) s (fun t => dqAdvanced s k t
            ∧ (taskType (s.dqAt k (s.spWord (dqTopA k))) = 0 → badCounted s t))))
    ∧ (∀ (s : State) (k : Fin 64), s.hearthMay k = false → Completes (.hearthTaskTakeover k) s (fun t => t = s))

/-- Calibration (R424-R438). -/
def Obligations.CalibrationRuns : Prop :=
  (∀ (s : State) (h : Hdr) (a : CalArgs), HostServes s legalFlow →
      let units := flowUnits a.flow a
      (a.flow = 0 ∨ 7 < a.flow ∨ 8 ≤ a.tile → Completes (.calibrate h a) s (OnlyReplied h 0x31 stARG [] s))
        ∧ (1 ≤ a.flow → a.flow ≤ 7 → a.tile < 8 →
          (s.tileOn a.tile = false ∨ (∃ u ∈ units, s.flowBarred a.tile u = true) →
              Completes (.calibrate h a) s (OnlyReplied h 0x31 stWRONG [] s))
            ∧ (s.tileOn a.tile = true → (∀ u ∈ units, s.flowBarred a.tile u = false) → Completes (.calibrate h a) s (fun t =>
              t.flows = qSet s.flows a.tile (qGet s.flows a.tile ++ [⟨a.flow, a, h.src, h.tag, false⟩])
                ∧ t.replies = s.replies
                ∧ (∀ u ∈ units, t.calOwned a.tile u = true)
                ∧ (∀ u ∈ units, calKind u = 4 → t.on F.TDC_CTRL_ARMED (a.tile * 16 + calLocal u) = false)
                ∧ (s.mode = mSTANDBY ∨ s.mode = mRUN → Shows [(F.MODE_STAT_TRANSIT, 0, 1), (F.MODE_STAT_TARGET, 0, mCALIBRATE),
                    (H.CAL_FROM, 0, s.mode), (H.MODE_END, 0, s.now + 20 * us + 1)] t)
                ∧ (s.mode = mCALIBRATE ∨ s.mode = mFACTORY → t.get F.MODE_STAT_TRANSIT 0 = s.get F.MODE_STAT_TRANSIT 0
                    ∧ t.get H.MODE_END 0 = s.get H.MODE_END 0)))))
    ∧ (∀ (s : State) (h : Hdr) (tile : Nat), HostServes s legalCal →
        (8 ≤ tile → tile ≠ 0xFF → Completes (.calStop h tile) s (OnlyReplied h 0x32 stARG [] s))
          ∧ (tile < 8 ∨ tile = 0xFF → Completes (.calStop h tile) s (fun t =>
            OnlyReplied h 0x32 stOK [] s { t with flows := s.flows }
              ∧ (∀ n : Nat, (tile = n ∨ (tile = 0xFF ∧ n < 8) →
                    qGet t.flows n = (qGet s.flows n).map (fun f => { f with stopping := true }))
                  ∧ (tile ≠ n → (tile ≠ 0xFF ∨ 8 ≤ n) → qGet t.flows n = qGet s.flows n)))))
    ∧ (∀ (s : State) (j : Fin 8) (flow : Nat) (results : List CalSeen),
        ((∀ f ∈ qGet s.flows j, f.flow ≠ flow) → Completes (.calFlowDone j flow results) s (fun t => t = s))
          ∧ (∀ f : Flow, (qGet s.flows j).find? (fun x => x.flow == flow) = some f →
            let units := flowUnits flow f.args
            let seen (u : Nat) : Option CalSeen := results.find? (fun r => r.unit == u)
            let codes := units.map (fun u => (u, s.flowCode j f u (seen u)))
            let fails := (codes.filter (fun p => p.2 != 0 && p.2 != 4)).length
            Completes (.calFlowDone j flow results) s (fun t =>
              Replied ⟨f.src, f.tag⟩ 0x31 stOK (flowReply codes) s t
                ∧ t.flows = qSet s.flows j ((qGet s.flows j).erase f)
                ∧ Shows [(F.TCAL_STAT_LAST_FLOW, j, flow), (F.TCAL_STAT_LAST_RES, j, (codes.map Prod.snd).foldl max 0)] t
                ∧ (fails = 0 → t.get F.TCAL_STAT_FAILS j = s.get F.TCAL_STAT_FAILS j)
                ∧ (fails ≠ 0 → t.get F.TCAL_STAT_FAILS j = satAt F.TCAL_STAT_FAILS.width (s.get F.TCAL_STAT_FAILS j + fails))
                ∧ (∀ u ∈ units, u < 92 → t.calOwned j u = false)
                ∧ (∀ u ∈ units, u < 64 → t.on F.CH_CTRL_DRV_EN (j.val * 64 + u) = false)
                ∧ (qGet s.corrPend j = [] → ∀ u ∈ units, u < 92 →
                    (s.flowCode j f u (seen u) ≠ 0 → corrOf t j u = corrOf s j u)
                    ∧ (∀ r : CalSeen, seen u = some r → s.flowCode j f u (seen u) = 0 → (calKind u ≠ 4 ∨ flow = 6) →
                      corrTaken (!s.calArmed j u && (match s.calSite j u with | none => true | some i => s.siteStill i)) j u
                        (flowImage flow u (bits (s.get F.THM_BAND_TDC 0) (2 * j.val) 2) (s.calImage j u) r.bytes) t))
                ∧ (s.mode = mCALIBRATE → s.on F.MODE_STAT_TRANSIT 0 = false → t.flows = [] →
                    Shows [(F.MODE_STAT_TRANSIT, 0, 1), (F.MODE_STAT_TARGET, 0, s.get H.CAL_FROM 0), (H.MODE_END, 0, s.now + 20 * us + 1)] t)
                ∧ (s.mode ≠ mCALIBRATE ∨ t.flows ≠ [] → t.get H.MODE_END 0 = s.get H.MODE_END 0)))
          ∧ Completes (.correctionApply j) s (fun t => qGet t.corrPend j = (qGet s.corrPend j).filter (fun p => !takesNow s j p))
          ∧ (∀ p : PendCorr, qGet s.corrPend j = [p] →
            (takesNow s j p = false → Completes (.correctionApply j) s (fun t => { t with corrPend := s.corrPend } = s))
              ∧ (takesNow s j p = true → p.unit < 112 → calSize p.unit ≤ p.bytes.length →
                Completes (.correctionApply j) s (fun t => corrOf t j p.unit = p.bytes.take (calSize p.unit)
                  ∧ Shows [(F.TCAL_GEN_COUNT, j, s.get F.TCAL_GEN_COUNT j + 1)] t))))
    ∧ (∀ (s : State) (h : Hdr) (addr : Nat), HostServes s legalCal →
        (s.argBody addr 16 1 = none → Completes (.calLoad h addr) s (OnlyReplied h 0x2A stARG [] s))
          ∧ (∀ o : Nat, s.argBody addr 16 1 = some o →
            (s.celReady = false → Completes (.calLoad h addr) s (OnlyReplied h 0x2A stACCESS [] s))
              ∧ (celSound s →
                let hd := s.celRaw o 16
                let n := fieldB hd 6 2
                let len := s.calLen o n
                let recs := calRecs n ((s.celRaw o len).drop 16)
                (calHeadBad hd ≠ 0 → Completes (.calLoad h addr) s (fun t => Replied h 0x2A stARG [] s t
                    ∧ t.corrPend = s.corrPend ∧ t.corr = s.corr))
                  ∧ (calHeadBad hd = 0 → s.celTop < o + len → Completes (.calLoad h addr) s (fun t => Replied h 0x2A stACCESS [] s t
                    ∧ t.corrPend = s.corrPend ∧ t.corr = s.corr))
                  ∧ (calHeadBad hd = 0 → o + len ≤ s.celTop → Completes (.calLoad h addr) s (fun t =>
                    Replied h 0x2A stOK (leBytes 2 (recs.filter calRecGood).length ++ leBytes 2 (n - (recs.filter calRecGood).length)) s t
                      ∧ (∀ (l : List Byte) (j u : Nat), recs = [l] → recordUnit l = some (j, u) → s.corrPend = [] →
                        (calRecGood l = true → corrTaken (takesNow s j ⟨u, recImage u l, fieldB l 3 1, fieldB l 4 1⟩) j u (recImage u l) t)
                          ∧ (calRecGood l = false → corrOf t j u = corrOf s j u ∧ qGet t.corrPend j = []
                            ∧ Shows [(F.TCAL_STAT_FAILS, j, satAt F.TCAL_STAT_FAILS.width (s.get F.TCAL_STAT_FAILS j + 1))] t)))))))

/-- Loads of bodies that stand in the Cellar (R208, R209, R267-R269, R501). -/
def Obligations.LoadsFromCellar : Prop :=
  (∀ (s : State) (h : Hdr) (addr : Nat), HostServes s legalLoad →
      (s.argBody addr 64 64 = none → Completes (.patLoad h addr) s (OnlyReplied h 0x27 stARG [] s))
        ∧ (s.argBody addr 16 1 = none → Completes (.segLoad h addr) s (OnlyReplied h 0x28 stARG [] s))
        ∧ (∀ k : Nat, s.argBody addr 0x20 1 = none ∨ 64 ≤ k → Completes (.csLoad h k addr) s (OnlyReplied h 0x29 stARG [] s))
        ∧ (∀ o : Nat, s.argBody addr 64 64 = some o →
          (o < 0x400000 → Completes (.patLoad h addr) s (OnlyReplied h 0x27 stPROTECTED [] s))
            ∧ (0x400000 ≤ o → s.celReady = false → Completes (.patLoad h addr) s (OnlyReplied h 0x27 stACCESS [] s)))
        ∧ (∀ o : Nat, s.argBody addr 16 1 = some o →
          (o < 0x400000 → Completes (.segLoad h addr) s (OnlyReplied h 0x28 stPROTECTED [] s))
            ∧ (0x400000 ≤ o → s.celReady = false → Completes (.segLoad h addr) s (OnlyReplied h 0x28 stACCESS [] s)))
        ∧ (∀ o k : Nat, s.argBody addr 0x20 1 = some o → k < 64 → s.celReady = false →
          Completes (.csLoad h k addr) s (OnlyReplied h 0x29 stACCESS [] s)))
    ∧ (∀ (s : State) (h : Hdr) (addr o : Nat), loadReads s addr 64 64 o → 0x400000 ≤ o →
        let hd := s.celRaw o 64
        let n := fieldB hd 6 2
        let ds := imageDescs (s.celRaw (o + 64) (64 * n)) n
        let good := ds.all (fun d => descOk d (fieldB hd 8 8)) && allApart (ds.map (fun d => fieldB d 0 2))
        let busy := ds.any (fun d => s.patBusy (fieldB d 0 2))
        (patHeadBad hd (s.celTop - o) ≠ 0 ∨ good = false → LoadFails (.patLoad h addr) s h 0x27 stARG)
          ∧ (patHeadBad hd (s.celTop - o) = 0 → good = true → busy = true → LoadFails (.patLoad h addr) s h 0x27 stWRONG)
          ∧ (patHeadBad hd (s.celTop - o) = 0 → good = true → busy = false → Completes (.patLoad h addr) s (fun t =>
            Replied h 0x27 stOK (leBytes 2 n ++ zeros 2) s t
              ∧ (∀ d ∈ ds, t.patDesc (fieldB d 0 2) = tableDesc d (0x8000000000 + o) ∧ pdValid (t.patDesc (fieldB d 0 2)) = true
                  ∧ ∀ x ∈ t.lines, x.pat ≠ fieldB d 0 2)
              ∧ (∀ x ∈ s.lines, x.pat ∉ ds.map (fun d => fieldB d 0 2) → x ∈ t.lines)
              ∧ CelledOnly (ds.map (fun d => (fieldB d 0 2 * 64, 64))) s t)))
    ∧ (∀ (s : State) (h : Hdr) (addr o : Nat), loadReads s addr 16 1 o → 0x400000 ≤ o →
        let hd := s.celRaw o 16
        let n := fieldB hd 6 2
        let first := fieldB hd 8 2
        let l := s.celRaw o (16 + 32 * n)
        (segHeadBad hd ≠ 0 ∨ s.celTop < o + 16 + 32 * n → LoadFails (.segLoad h addr) s h 0x28 stARG)
          ∧ (segHeadBad hd = 0 → o + 16 + 32 * n ≤ s.celTop → s.segBusy l = true → LoadFails (.segLoad h addr) s h 0x28 stWRONG)
          ∧ (segHeadBad hd = 0 → o + 16 + 32 * n ≤ s.celTop → s.segBusy l = false → Completes (.segLoad h addr) s (fun t =>
            Replied h 0x28 stOK (leBytes 2 (t.get F.SEQ_STAB_COUNT_COUNT 0) ++ zeros 2) s t
              ∧ (∀ j < n, t.segEntry (first + j) = sliceB l (16 + 32 * j) 32)
              ∧ (∀ j < 65535, sgValid (t.segEntry j) = true → j < t.get F.SEQ_STAB_COUNT_COUNT 0)
              ∧ (∀ j : Nat, t.get F.SEQ_STAB_COUNT_COUNT 0 = j + 1 → sgValid (t.segEntry j) = true)
              ∧ CelledOnly [(0x40000 + 32 * first, 32 * n)] s t)))
    ∧ (∀ (s : State) (h : Hdr) (k addr o : Nat), loadReads s addr 0x20 1 o → k < 64 →
        let hd := s.celRaw o 0x20
        let l := s.celRaw o (csLen hd)
        let es := csEngines k l
        (csHeadBad hd ≠ 0 ∨ s.celTop < o + csLen hd → LoadFails (.csLoad h k addr) s h 0x29 stARG)
          ∧ (csHeadBad hd = 0 → o + csLen hd ≤ s.celTop →
            (es.any s.csBarred = true → LoadFails (.csLoad h k addr) s h 0x29 stWRONG)
              ∧ (es.any s.csBarred = false → s.csBad es l ≠ 0 → LoadFails (.csLoad h k addr) s h 0x29 stARG)
              ∧ (es.any s.csBarred = false → s.csBad es l = 0 → s.csOver l.length = true → LoadFails (.csLoad h k addr) s h 0x29 stLIMIT)
              ∧ (es.any s.csBarred = false → s.csBad es l = 0 → s.csOver l.length = false → es.all s.csOpen = true →
                Completes (.csLoad h k addr) s (fun t => Replied h 0x29 stOK [] s t
                  ∧ t.csBodies = s.csBodies ++ [⟨maskOf es, l⟩]
                  ∧ (∀ e ∈ es, ∀ j < fieldB hd 8 2, t.csWord e (csFirst l + j) = (csWords l).getD j 0)
                  ∧ (∀ (e : Nat) (w : Fin 4096), e ∉ es ∨ w.val < csFirst l ∨ csFirst l + fieldB hd 8 2 ≤ w.val →
                      t.csWord e w = s.csWord e w)
                  ∧ t.cellar = s.cellar))))

/-- Access by the host and by address (R7, R120, R497-R500, R505, R506, R622). -/
def Obligations.HostAccess : Prop :=
  (∀ (s : State) (h : Hdr) (n m v : Nat) (b : Bool) (ns : List Nat) (items : List RegItem) (data : List Byte) (a : CalArgs),
      (∀ r ∈ hostRows h n m v b ns items data a, HostTurns r.1 h r.2.1 r.2.2 s)
        ∧ (data.length = 64 → HostTurns (.siteBind h data) h 0x2B legalLoad s)
        ∧ (∀ r ∈ hostOnlyRows h n m ns, (h.src < 256 → HostTurns r.1 h r.2.1 r.2.2 s)
          ∧ (256 ≤ h.src → Completes r.1 s (OnlyReplied h r.2.1 stOPCODE [] s))))
    ∧ (∀ (s : State) (h : Hdr), HostServes s legalAny → Completes (.status h) s (OnlyReplied h 0x20 stOK
        (s.regBytes .MODE_STAT 0 ++ s.regBytes .BOOT_REASON 0 ++ s.regBytes .CFG_STAT 0 ++ s.regBytes .RST_CAUSE 0
          ++ s.regBytes .FAB_NODE 0 ++ zeros 4 ++ leBytes 8 s.ts ++ s.siteNibbles) s))
    ∧ (∀ (s : State) (h : Hdr) (l : List Nat), HostServes s legalAny →
        (l.length = 0 ∨ 64 < l.length ∨ l.any s.argBad = true → Completes (.regRd h l) s (OnlyReplied h 0x21 stARG [] s))
          ∧ (1 ≤ l.length → l.length ≤ 64 → l.any s.argBad = false →
            (systemOnly s = true → (∃ a ∈ l, 0x100000 ≤ localOf a) → Completes (.regRd h l) s (OnlyReplied h 0x21 stWRONG [] s))
              ∧ (systemOnly s = false ∨ (∀ a ∈ l, localOf a < 0x100000) →
                ((∃ a ∈ l, s.guarded (localOf a) = true) → Completes (.regRd h l) s (OnlyReplied h 0x21 stPROTECTED [] s))
                  ∧ ((∀ a ∈ l, s.guarded (localOf a) = false) →
                    (∀ (u : State) (vs : List Nat), ReadsAll s (l.map localOf) u vs →
                      Completes (.regRd h l) s (OnlyReplied h 0x21 stOK (wordsBytes vs) u))
                    ∧ (∀ (u : State) (vs pre post : List Nat) (a : Nat), l = pre ++ a :: post → ReadsAll s (pre.map localOf) u vs →
                        (u.busRead .fabric (localOf a)).2 = .error →
                        Completes (.regRd h l) s (OnlyReplied h 0x21 stACCESS [] (u.busRead .fabric (localOf a)).1))))))
    ∧ (∀ (s : State) (h : Hdr) (items : List RegItem), HostServes s legalWrite →
        let l := regItems items
        (s.lc = lcRETIRED → Completes (.regWr h items) s (OnlyReplied h 0x22 stPROTECTED [] s))
          ∧ (s.lc ≠ lcRETIRED →
            (items.length = 0 ∨ 64 < items.length ∨ items.any (fun p => s.argBad p.addr) = true →
                Completes (.regWr h items) s (OnlyReplied h 0x22 stARG [] s))
              ∧ (1 ≤ items.length → items.length ≤ 64 → items.any (fun p => s.argBad p.addr) = false →
                ((∃ p ∈ l, s.itemBar p.1 p.2 ≠ .free) → Completes (.regWr h items) s (OnlyReplied h 0x22 stWRONG [] s))
                  ∧ ((∀ p ∈ l, s.itemBar p.1 p.2 = .free) →
                    ((∃ p ∈ l, s.guarded p.1 = true ∨ s.debugBarred p.1 p.2 = true) →
                        Completes (.regWr h items) s (OnlyReplied h 0x22 stPROTECTED [] s))
                      ∧ ((∀ p ∈ l, s.guarded p.1 = false ∧ s.debugBarred p.1 p.2 = false) →
                        (∀ u : State, WritesAll s l u → Completes (.regWr h items) s (OnlyReplied h 0x22 stOK [] u))
                        ∧ (∀ (u : State) (pre post : List (Nat × Nat)) (p : Nat × Nat), l = pre ++ p :: post → WritesAll s pre u →
                            (u.busWrite .fabric p.1 p.2).2 = .error → Completes (.regWr h items) s
                              (OnlyReplied h 0x22 (if coldEnable u p then stTHERMAL else stACCESS) [] (u.busWrite .fabric p.1 p.2).1)))))))
    ∧ (∀ (s : State) (h : Hdr) (addr n : Nat), HostServes s legalAny →
        (s.blkArg addr n = none → Completes (.blkRd h addr n) s (OnlyReplied h 0x23 stARG [] s))
          ∧ (∀ a : Nat, s.blkArg addr n = some a →
            (systemOnly s = true → s.regionOf a ≠ .system → Completes (.blkRd h addr n) s (OnlyReplied h 0x23 stWRONG [] s))
              ∧ (systemOnly s = false ∨ s.regionOf a = .system →
                (s.guarded a = true ∨ s.guarded (a + n - 4) = true → Completes (.blkRd h addr n) s (OnlyReplied h 0x23 stPROTECTED [] s))
                  ∧ (s.guarded a = false → s.guarded (a + n - 4) = false →
                    (∀ (u : State) (vs : List Nat), (∀ o : Nat, s.regionOf a ≠ .cellar o) → ReadsAll s (wordAddrs a n) u vs →
                      Completes (.blkRd h addr n) s (OnlyReplied h 0x23 stOK (wordsBytes vs) u))
                    ∧ (∀ o : Nat, s.regionOf a = .cellar o → celSound s → o + n ≤ s.celTop → Completes (.blkRd h addr n) s (fun t =>
                      Replied h 0x23 stOK (s.celRaw o n) s t ∧ t.cellar = s.cellar))
                    ∧ (∀ o : Nat, s.regionOf a = .cellar o → s.celReady = false →
                      Completes (.blkRd h addr n) s (OnlyReplied h 0x23 stACCESS [] s))))))
    ∧ (∀ (s : State) (h : Hdr) (addr : Nat) (data : List Byte), HostServes s legalWrite →
        (s.lc = lcRETIRED → Completes (.blkWr h addr data) s (OnlyReplied h 0x24 stPROTECTED [] s))
          ∧ (s.lc ≠ lcRETIRED → s.blkArg addr data.length = none → Completes (.blkWr h addr data) s (OnlyReplied h 0x24 stARG [] s))
          ∧ (∀ a o : Nat, s.lc ≠ lcRETIRED → s.blkArg addr data.length = some a → s.regionOf a = .cellar o →
            (legalLoad s = false ∨ s.celInUse o data.length = true → Completes (.blkWr h addr data) s (OnlyReplied h 0x24 stWRONG [] s))
              ∧ (legalLoad s = true → s.celInUse o data.length = false →
                (o < 0x400000 → Completes (.blkWr h addr data) s (OnlyReplied h 0x24 stPROTECTED [] s))
                  ∧ (0x400000 ≤ o → s.celReady = false → Completes (.blkWr h addr data) s (OnlyReplied h 0x24 stACCESS [] s))
                  ∧ (0x400000 ≤ o → celSound s → o + data.length ≤ s.celTop → Completes (.blkWr h addr data) s (fun t =>
                    Replied h 0x24 stOK [] s t ∧ t.celRaw o data.length = data ∧ CelledOnly [(o, data.length)] s t))))
          ∧ (∀ a : Nat, s.lc ≠ lcRETIRED → s.blkArg addr data.length = some a → (∀ o : Nat, s.regionOf a ≠ .cellar o) →
            let l := blkItems a data
            let guard := s.guarded a || s.guarded (a + data.length - 4) || l.any (fun p => s.debugBarred p.1 p.2)
            ((∃ p ∈ l, s.writeBar p.1 ≠ .free) → Completes (.blkWr h addr data) s (OnlyReplied h 0x24 stWRONG [] s))
              ∧ ((∀ p ∈ l, s.writeBar p.1 = .free) →
                (guard = true → Completes (.blkWr h addr data) s (OnlyReplied h 0x24 stPROTECTED [] s))
                  ∧ (guard = false → ∀ u : State, WritesAll s l u → Completes (.blkWr h addr data) s (OnlyReplied h 0x24 stOK [] u)))))
    ∧ (∀ (s : State) (m : Master) (a v : Nat),
        (a % 4 ≠ 0 ∨ s.tapBarred m = true ∨ s.regionOf a = .nowhere ∨ (∃ x : Nat, s.regionOf a = .pantry x) →
            TurnedAway (.regWrite m a v) s)
          ∧ (a % 4 = 0 → s.tapBarred m = false →
            (∀ x : Nat, s.regionOf a = .scratch x → inSecure x = false →
                (s.bankOn x = true → Completes (.regWrite m a v) s (fun t => t.lastResp = .done ∧ t.spWord x = v % 2 ^ 32
                    ∧ BytesBut ramByte s.scratch t.scratch x 4 ∧ OnlyFieldsResp [] s { t with scratch := s.scratch }))
                  ∧ (s.bankOn x = false → Completes (.regWrite m a v) s (fun t => t.lastResp = .done ∧ OnlyFieldsResp [] s t)))
              ∧ (∀ o : Nat, s.regionOf a = .cellar o → celSound s → o + 4 ≤ s.celTop → Completes (.regWrite m a v) s (fun t =>
                  t.lastResp = .done ∧ t.celRaw o 4 = leBytes 4 v ∧ CelledOnly [(o, 4)] s t))
              ∧ (∀ (r : RegName) (i : Nat), decodeAddr a = some (r, i) → (s.regionOf a = .system ∨ (∃ j : Nat, s.regionOf a = .tile j ∨
                  s.regionOf a = .engine j)) →
                (s.busOff = true → TurnedAway (.regWrite m a v) s)
                  ∧ (s.busOff = false → s.addrOn a = false →
                    Completes (.regWrite m a v) s (fun t => t.lastResp = .done ∧ OnlyFieldsResp [] s t))
                  ∧ (s.busOff = false → s.addrOn a = true → Completes (.regWrite m a v) s (fun t =>
                    t = { (s.regWrite m r i (v % 2 ^ 32)).1 with lastResp := (s.regWrite m r i (v % 2 ^ 32)).2 })))))

/-- Services of the host port (R499-R509). -/
def Obligations.HostServices : Prop :=
  (∀ (s : State) (h : Hdr) (off n : Nat) (data : List Byte), HostServes s legalFlash →
      (off % 256 ≠ 0 ∨ data.length = 0 ∨ 4096 < data.length ∨ s.get H.FLASH_SIZE 0 < off + data.length →
          Completes (.flashWr h off data) s (OnlyReplied h 0x25 stARG [] s))
        ∧ (off % 0x1000 ≠ 0 ∨ n = 0 ∨ 65536 < n ∨ s.get H.FLASH_SIZE 0 < off + n * 0x1000 →
          Completes (.flashErase h off n) s (OnlyReplied h 0x26 stARG [] s))
        ∧ (off % 256 = 0 → 1 ≤ data.length → data.length ≤ 4096 → off + data.length ≤ s.get H.FLASH_SIZE 0 →
          (s.lc = lcRETIRED ∨ s.flashGuarded off data.length = true →
              Completes (.flashWr h off data) s (OnlyReplied h 0x25 stPROTECTED [] s))
            ∧ (s.lc ≠ lcRETIRED → s.flashGuarded off data.length = false → s.coreCold = true →
              Completes (.flashWr h off data) s (OnlyReplied h 0x25 stTHERMAL [] s))
            ∧ (flashOpen s off data.length → Completes (.flashWr h off data) s (fun t =>
              t = { s with flashOps := s.flashOps ++ [⟨h, true, off, data.length, data⟩] })))
        ∧ (off % 0x1000 = 0 → 1 ≤ n → n ≤ 65536 → off + n * 0x1000 ≤ s.get H.FLASH_SIZE 0 →
          (s.lc = lcRETIRED ∨ s.flashGuarded off (n * 0x1000) = true →
              Completes (.flashErase h off n) s (OnlyReplied h 0x26 stPROTECTED [] s))
            ∧ (s.lc ≠ lcRETIRED → s.flashGuarded off (n * 0x1000) = false → s.coreCold = true →
              Completes (.flashErase h off n) s (OnlyReplied h 0x26 stTHERMAL [] s))
            ∧ (flashOpen s off (n * 0x1000) → Completes (.flashErase h off n) s (fun t =>
              t = { s with flashOps := s.flashOps ++ [⟨h, false, off, n * 0x1000, []⟩] }))))
    ∧ (∀ (s : State) (o : FlashOp) (rest : List FlashOp), s.flashOps = o :: rest →
        let op := if o.write then 0x25 else 0x26
        let n := if o.write then o.data.length else o.len
        Completes (.flashOperationDone true) s (fun t => Replied o.h op stOK [] s t ∧ t.flashOps = rest
            ∧ t.flRead o.off n = (if o.write then List.zipWith (fun x y => x &&& y) (s.flRead o.off n) o.data
                else List.replicate n flashByte)
            ∧ BytesBut flashByte s.flash t.flash o.off n
            ∧ OnlyFields [] s (sansFlash s t))
          ∧ Completes (.flashOperationDone false) s (fun t => Replied o.h op stFLASH [] s t ∧ t.flashOps = rest
            ∧ BytesBut flashByte s.flash t.flash o.off n
            ∧ OnlyFields [] s { sansFlash s t with free := s.free }))
    ∧ (∀ (s : State) (ok : Bool), s.flashOps = [] → Completes (.flashOperationDone ok) s (fun t => t = s))
    ∧ (∀ (s : State) (h : Hdr) (cancel : Bool) (a : JumpTarget), HostServes s legalSite →
        let mask := 2 ^ jumpIdx a
        (∀ (smu : Bool) (w : Nat), w = 0 ∨ (smu = true ∧ w % 2 ^ 32 = 0) → Completes (.hostJump h cancel smu w) s
            (OnlyReplied h 0x2E stARG [] s))
          ∧ (s.mode = mCALIBRATE → jumpOwned s a = true → Completes (.hostJump h cancel (jumpSmu a) mask) s (OnlyReplied h 0x2E stWRONG [] s))
          ∧ (s.mode ≠ mCALIBRATE ∨ jumpOwned s a = false → Completes (.hostJump h cancel (jumpSmu a) mask) s (fun t =>
            Replied h 0x2E stOK [] s t
              ∧ Sets (if cancel then [(jumpPending a, jumpIdx a, 0)]
                  else if jumpTaken s a then (jumpPending a, jumpIdx a, 1) :: (if jumpDecided s a then [(jumpLate a, jumpIdx a, 1)] else [])
                  else []) s { t with replies := s.replies, accepted := s.accepted })))
    ∧ (∀ (s : State) (h : Hdr), HostServes s legalAny → h.src < 256 →
        (∀ key : Nat, key ≠ 0xA5C3 → Completes (.softReset h key) s (OnlyReplied h 0x33 stARG [] s))
          ∧ Completes (.softReset h 0xA5C3) s (fun t => Replied h 0x33 stOK [] s t
            ∧ Sets [(H.RST_SOFT_DUE, 0, s.now + 2 * us + 1)] s { t with replies := s.replies, accepted := s.accepted }))
    ∧ (∀ (s : State) (h : Hdr), HostServes s legalMinimal →
        (s.lc = lcRETIRED → Completes (.bootClear h) s (OnlyReplied h 0x34 stPROTECTED [] s))
          ∧ (s.lc ≠ lcRETIRED → Completes (.bootClear h) s (fun t => Replied h 0x34 stOK [] s t
            ∧ Shows [(F.BOOT_ATTEMPT_FAILS, 0, 0)] t ∧ BytesBut flashByte s.flash t.flash 0x2000 0x2000
            ∧ (s.hasFlash = false → t.flash = s.flash)
            ∧ (s.hasFlash = true → s.coreCold = false → s.bootRoom = true → ∃ n : Nat, n < 512 ∧ recGood (t.bootRec n) = true
                ∧ fieldB (t.bootRec n) 0 1 = 2 ∧ fieldB (t.bootRec n) 1 1 = 0
                ∧ fieldB (t.bootRec n) 4 4 = (match s.bootLatest with | none => 1 | some m => (fieldB (s.bootRec m) 4 4 + 1) % 2 ^ 32)))))
    ∧ (∀ (s : State) (h : Hdr), HostServes s legalRemove → h.src < 256 → h.tag < 65536 →
        ((s.mode = mSTANDBY ∧ (s.removeSites ≠ [] ∨ s.suppliesOff = false)) ∨ s.on H.REMOVE_WAIT 0 = true →
            Completes (.prepareRemove h) s (OnlyReplied h 0x35 stWRONG [] s))
          ∧ ((s.mode ≠ mSTANDBY ∨ (s.removeSites = [] ∧ s.suppliesOff = true)) → s.on H.REMOVE_WAIT 0 = false →
            ((∀ p : Fin 8, s.inService p = false) → s.allIdled = true → Completes (.prepareRemove h) s (fun t =>
                Replied h 0x35 stOK [] s t ∧ Shows [(F.MODE_STAT_REMOVE_READY, 0, 1), (H.UNAVAIL, 0, 1), (H.REMOVE_WAIT, 0, 0)] t))
              ∧ (∀ p : Fin 8, s.inService p = true → Completes (.prepareRemove h) s (fun t =>
                t.replies = s.replies ∧ Shows [(H.REMOVE_WAIT, 0, 1), (F.PORCH_STAT_STATE, p, pLEAVING), (H.PO_IDLED, p, 0),
                    (H.PO_LEAVE_END, p, s.now + 100 * us + 1)] t
                  ∧ t.get F.MODE_STAT_REMOVE_READY 0 = s.get F.MODE_STAT_REMOVE_READY 0))))
    ∧ (∀ (s : State) (h : Hdr) (op : Nat),
        (s.portPhase = 0 → Completes (.reservedOpcode h op) s (OnlyReplied h op stOPCODE [] s))
          ∧ (s.portPhase = 1 → Completes (.reservedOpcode h op) s (OnlyReplied h op stINRESET [] s))
          ∧ (s.portPhase = 2 → Completes (.reservedOpcode h op) s (fun t => t = s)))
    ∧ (∀ (s : State) (e : Event) (rest : List Event), s.events = e :: rest →
        (∀ q : Nat, (if s.on F.FAB_NODE_RT_VALID 0 then s.tableRoute (s.get F.FAB_NODE_HOST_NODE 0)
              else some (s.get F.FAB_NODE_HOME_PORCH 0)) = some q →
          (¬ eventMay s q → Completes .eventSend s (fun t => t = s))
            ∧ (eventMay s q → Completes .eventSend s (fun t => t.events = rest ∧ FlitGoes s q (eventFlit s e) t)))
          ∧ (s.on F.FAB_NODE_RT_VALID 0 = true → s.tableRoute (s.get F.FAB_NODE_HOST_NODE 0) = none →
            Completes .eventSend s (fun t => t = s)))
    ∧ (∀ s : State, s.events = [] → Completes .eventSend s (fun t => t = s))

/-- Mailboxes (R512-R516) and serial ports (R517-R528). -/
def Obligations.MailboxesAndSerialPort : Prop :=
  (∀ (s : State) (h : Hdr) (mbx epoch : Nat) (words : List Nat), HostServes s legalAny → h.src < 256 →
      let q := qGet s.h2d mbx
      (3 < mbx ∨ words.length = 0 ∨ 16 < words.length → Completes (.mbxPost h mbx epoch words) s (OnlyReplied h 0x36 stARG [] s))
        ∧ (mbx ≤ 3 → 1 ≤ words.length → words.length ≤ 16 →
          (16 < q.length + words.length → Completes (.mbxPost h mbx epoch words) s (OnlyReplied h 0x36 stBUSY [] s))
            ∧ (q.length + words.length ≤ 16 → Completes (.mbxPost h mbx epoch words) s (fun t => Replied h 0x36 stOK [] s t
              ∧ qGet t.h2d mbx = q ++ words.map (fun w => ⟨w % 2 ^ 32, epoch % 256⟩) ∧ irqPends t (128 + mbx)))))
    ∧ (∀ (s : State) (h : Hdr) (mbx n epoch : Nat), HostServes s legalBox → h.src < 256 →
        let q := qGet s.d2h mbx
        (3 < mbx ∨ n = 0 ∨ 16 < n → Completes (.mbxRead h mbx n) s (OnlyReplied h 0x37 stARG [] s))
          ∧ (mbx ≤ 3 → 1 ≤ n → n ≤ 16 → Completes (.mbxRead h mbx n) s (fun t => qGet t.d2h mbx = q.drop n
            ∧ OnlyReplied h 0x37 stOK (leBytes 1 (q.take n).length ++ zeros 3 ++ ((q.take n).map mbxBytes).flatten) s { t with d2h := s.d2h }))
          ∧ (3 < mbx → Completes (.mbxReset h mbx epoch) s (OnlyReplied h 0x39 stARG [] s))
          ∧ (mbx ≤ 3 → Completes (.mbxReset h mbx epoch) s (fun t => Replied h 0x39 stOK (leBytes 2 q.length) s t ∧ qGet t.d2h mbx = []
            ∧ Shows [(F.MBX_HOST_STAT_HOST_EPOCH, mbx, epoch)] t
            ∧ (q ≠ [] → Shows [(F.MBX_HOST_STAT_FLUSHED, mbx, 1), (F.MBX_HOST_FLUSH_COUNT, mbx,
                satAt F.MBX_HOST_FLUSH_COUNT.width (s.get F.MBX_HOST_FLUSH_COUNT mbx + q.length))] t))))
    ∧ (∀ (s : State) (h : Hdr) (mbx : Nat),
        (256 ≤ h.src → Completes (.doorbell h mbx) s (OnlyReplied h 0x38 stOPCODE [] s))
          ∧ (h.src < 256 → s.mode ≠ mSLEEP → HostTurns (.doorbell h mbx) h 0x38 legalAny s)
          ∧ (h.src < 256 → s.mode = mSLEEP → s.on F.MODE_STAT_TRANSIT 0 = false → Completes (.doorbell h mbx) s (fun t =>
            t.replies = s.replies ∧ Shows [(F.MODE_STAT_TRANSIT, 0, 1), (F.MODE_STAT_TARGET, 0, mSTANDBY), (H.MODE_END, 0, s.now + 2 * ms + 1)] t))
          ∧ (h.src < 256 → s.mode ≠ mSLEEP → HostServes s legalAny →
            (3 < mbx → Completes (.doorbell h mbx) s (OnlyReplied h 0x38 stARG [] s))
              ∧ (mbx ≤ 3 → Completes (.doorbell h mbx) s (fun t => Replied h 0x38 stOK [] s t ∧ Shows [(F.MBX_HOST_DB_RX_DB, mbx, 1)] t
                ∧ irqPends t (128 + mbx)))))
    ∧ (∀ (s : State) (m : Master) (b : Fin 4) (v : Nat),
        (BusTakes s m .MBX_HOST_RX b →
            (qGet s.h2d b = [] → Completes (.mbxHostRx m b) s (fun t => t.lastResp = .value 0 ∧ SetsResp [(F.MBX_HOST_RXEP_VALID, b, 0)] s t))
              ∧ (∀ (w : MbxWord) (rest : List MbxWord), qGet s.h2d b = w :: rest → Completes (.mbxHostRx m b) s (fun t =>
                t.lastResp = .value w.word ∧ qGet t.h2d b = rest
                  ∧ SetsResp [(F.MBX_HOST_RXEP_EPOCH, b, w.epoch), (F.MBX_HOST_RXEP_VALID, b, 1)] s { t with h2d := s.h2d })))
          ∧ (BusTakes s m .MBX_HOST_TX b →
            (16 ≤ (qGet s.d2h b).length → TurnedAway (.mbxHostTx m b v) s)
              ∧ ((qGet s.d2h b).length < 16 → Completes (.mbxHostTx m b v) s (fun t => t.lastResp = .done
                ∧ qGet t.d2h b = qGet s.d2h b ++ [⟨v % 2 ^ 32, s.hearthEpoch⟩] ∧ OnlyFieldsResp [] s { t with d2h := s.d2h })))
          ∧ (BusTakes s m .MBX_HOST_DB b →
            (bit v 0 = false → Completes (.mbxHostDb m b v) s (fun t => t.lastResp = .done
                ∧ SetsResp (if bit v 1 then [(F.MBX_HOST_DB_RX_DB, b, 0)] else []) s t))
              ∧ (bit v 0 = true → Completes (.mbxHostDb m b v) s (fun t => t.lastResp = .done
                ∧ (bit v 1 = true → Shows [(F.MBX_HOST_DB_RX_DB, b, 0)] t)
                ∧ ∃ ev : Event, t.events.getLast? = some ev ∧ ev.code = 0x0301
                    ∧ ev.data = leBytes 1 b ++ leBytes 1 (qGet s.d2h b).length ++ zeros 2))))
    ∧ (∀ (s : State) (m : Master) (k : Fin 64) (v : Nat),
        (BusTakes s m .MBX_ENG_TX k →
            (8 ≤ (qGet s.h2e k).length → TurnedAway (.mbxEngTx m k v) s)
              ∧ ((qGet s.h2e k).length < 8 → Completes (.mbxEngTx m k v) s (fun t => t.lastResp = .done
                ∧ qGet t.h2e k = qGet s.h2e k ++ [⟨v % 2 ^ 32, s.hearthEpoch⟩]
                ∧ (qGet s.h2e k = [] → s.engPowered k = true → t.trapPending k 5 = true)
                ∧ OnlyFieldsResp [(F.ENG_TMASK_PEND, k)] s { t with h2e := s.h2e })))
          ∧ (BusTakes s m .MBX_ENG_RX k →
            (qGet s.e2h k = [] → Completes (.mbxEngRx m k) s (fun t => t.lastResp = .value 0 ∧ OnlyFieldsResp [] s t))
              ∧ (∀ (w : MbxWord) (rest : List MbxWord), qGet s.e2h k = w :: rest → Completes (.mbxEngRx m k) s (fun t =>
                t.lastResp = .value w.word ∧ qGet t.e2h k = rest ∧ OnlyFieldsResp [] s { t with e2h := s.e2h })))
          ∧ (BusTakes s m .MBX_ENG_DB k →
            (bit v 0 = false → Completes (.mbxEngDb m k v) s (fun t => t.lastResp = .done ∧ OnlyFieldsResp [] s t))
              ∧ (bit v 0 = true → s.engPowered k = true → Completes (.mbxEngDb m k v) s (fun t => t.lastResp = .done
                ∧ t.trapPending k 5 = true ∧ OnlyFieldsResp [(F.ENG_TMASK_PEND, k)] s t))
              ∧ (bit v 0 = true → s.engPowered k = false →
                (s.modeIn [mSTANDBY, mRUN, mCALIBRATE, mFACTORY] = true → Completes (.mbxEngDb m k v) s (fun t => t.lastResp = .done
                    ∧ t.trapPending k 5 = true ∧ t.engPowered k = true))
                  ∧ (s.modeIn [mSTANDBY, mRUN, mCALIBRATE, mFACTORY] = false → TurnedAway (.mbxEngDb m k v) s))))
    ∧ (∀ (s : State) (m : Master) (n : Fin 2) (v : Nat), BusTakes s m .CSP_CTRL n →
        (bit v 0 = true → s.on F.CSP_CTRL_BUSY n = true ∨ s.cspLenBad n = true → TurnedAway (.cspStart m n v) s)
          ∧ (∀ c ∈ [Instr.cspStart m n v, .cspAbort m n v, .cspEnWrite m n v], bit v 0 = false ∨ s.on F.CSP_CTRL_BUSY n = false →
            ¬ cspEnMay s n (bit v 3) → TurnedAway c s)
          ∧ (bit v 0 = true → s.on F.CSP_CTRL_BUSY n = false → s.cspLenBad n = false → cspEnMay s n (bit v 3) →
            Completes (.cspStart m n v) s (fun t => t.lastResp = .done
              ∧ Shows [(F.CSP_CTRL_BUSY, n, 1), (F.CSP_CTRL_EN, n, b2n (bit v 3)), (H.CSP_T0, n, max s.now (s.get H.CSP_GAP_T n)),
                  (H.CSP_LOST, n, 0), (H.CSP_ABT, n, b2n (bit v 1))] t
              ∧ (∀ j : Fin 128, t.get F.CSP_RX_HW (n.val * 128 + j.val) = 0)
              ∧ (s.on F.CSP_CFG_FRAME n = true → t.cspHw F.CSP_TX_HW n 0 / 256 = s.get F.CSP_ALIVE_NEXT n % 256
                ∧ (s.get F.CSP_LEN_BITS n ≤ 4096 → t.cspHw F.CSP_TX_HW n (s.get F.CSP_LEN_BITS n / 16 - 1)
                    = crc16 (t.cspBytes F.CSP_TX_HW n (s.get F.CSP_LEN_BITS n / 16 - 1)) % 65536))))
          ∧ (bit v 0 = false → bit v 1 = true → bit v 3 = s.on F.CSP_CTRL_EN n → Completes (.cspAbort m n v) s (fun t => t.lastResp = .done
              ∧ SetsResp (if s.on F.CSP_CTRL_BUSY n then [(H.CSP_ABT, n, 1)] else []) s t))
          ∧ (bit v 0 = false → bit v 1 = false → cspEnMay s n (bit v 3) → Completes (.cspEnWrite m n v) s (fun t => t.lastResp = .done
              ∧ SetsResp (if bit v 3 = s.on F.CSP_CTRL_EN n then []
                  else (F.CSP_CTRL_EN, n.val, b2n (bit v 3)) :: (if s.on F.CSP_CTRL_BUSY n then [(H.CSP_LOST, n.val, 1)] else [])) s t)))
    ∧ (∀ (s : State) (n : Fin 2) (rx : List Bool),
        (s.on F.CSP_CTRL_BUSY n = false → Completes (.cspTransferDone n rx) s (fun t => t = s) ∧ Completes (.selectLost n rx) s (fun t => t = s))
          ∧ (s.on F.CSP_CTRL_EN n = false → s.on H.CSP_LOST n = false → Completes (.selectLost n rx) s (fun t => t = s))
          ∧ (s.on F.CSP_CTRL_BUSY n = true → s.get F.CSP_LEN_BITS n ≤ 4096 →
            (s.on F.CSP_CTRL_EN n = true ∨ s.on H.CSP_LOST n = true → Completes (.selectLost n rx) s (cspWasCut s n true rx))
              ∧ (s.on H.CSP_LOST n = true ∨ s.on H.CSP_ABT n = true →
                Completes (.cspTransferDone n rx) s (cspWasCut s n (s.on H.CSP_LOST n) rx))
              ∧ (s.on H.CSP_LOST n = false → s.on H.CSP_ABT n = false →
                let len := s.get F.CSP_LEN_BITS n
                Completes (.cspTransferDone n rx) s (fun t =>
                  t.now = laterOf s (s.cspClocked n len + s.get F.CSP_CFG_TRAIL n * s.cspHalf n)
                    ∧ Shows [(F.CSP_CTRL_BUSY, n, 0), (F.CSP_STAT_DONE, n, 1), (F.CSP_STAT_BITS, n, len), (F.CSP_ALIVE_FIRST, n, 0)] t
                    ∧ cspReceived n (rx.take len) t ∧ (s.mode ≠ mHOLD → irqPends t (175 + n.val))
                    ∧ (s.on F.CSP_CFG_FRAME n = false → t.get F.CSP_ALIVE_NEXT n = s.get F.CSP_ALIVE_NEXT n)
                    ∧ (s.on F.CSP_CFG_FRAME n = true →
                      Shows [(F.CSP_ALIVE_NEXT, n, s.get F.CSP_ALIVE_NEXT n + 1), (F.CSP_ALIVE_LAST, n, s.get F.CSP_ALIVE_NEXT n)] t
                        ∧ (len / 16 < t.cspHw F.CSP_RX_HW n 0 % 256 + 3 → Shows [(F.CSP_STAT_RX_LEN_ERR, n, 1)] t)
                        ∧ (t.cspHw F.CSP_RX_HW n 0 % 256 + 3 ≤ len / 16 →
                          crc16 (t.cspBytes F.CSP_RX_HW n (t.cspHw F.CSP_RX_HW n 0 % 256 + 2))
                              ≠ t.cspHw F.CSP_RX_HW n (t.cspHw F.CSP_RX_HW n 0 % 256 + 2) → Shows [(F.CSP_STAT_RX_CRC_ERR, n, 1)] t))))))

/-- Security (R598-R619), and the end of a warm hold (R77). -/
def Obligations.SecurityRuns : Prop :=
  (∀ (s : State) (m : Master) (v : Nat), BusTakes s m .SEC_RB_COMMIT 0 →
      let img := s.get F.CFG_ROLLBACK_IMAGE_CTR 0
      (bits v 16 16 ≠ 0x3A71 → TurnedAway (.secRbCommit m v) s)
        ∧ (bits v 16 16 = 0x3A71 → bit v 0 = false → Completes (.secRbCommit m v) s (fun t => t.lastResp = .done ∧ OnlyFieldsResp [] s t))
        ∧ (bits v 16 16 = 0x3A71 → bit v 0 = true →
          (s.mode ≠ mSTANDBY ∨ 2 ≤ s.get F.CFG_STAT_SOURCE 0 → ProgRefused (.secRbCommit m v) s prSTATE)
            ∧ (s.mode = mSTANDBY → s.get F.CFG_STAT_SOURCE 0 < 2 →
              (img ≤ s.get F.CFG_ROLLBACK_FUSE_CTR 0 → ProgRefused (.secRbCommit m v) s prNOTHING)
                ∧ (s.get F.CFG_ROLLBACK_FUSE_CTR 0 < img → ProgAnswers (.secRbCommit m v) s rbBlocks [img] false))))
    ∧ (∀ (s : State) (m : Master) (v : Nat), BusTakes s m .SEC_LC_REQ 0 →
        let target := bits v 0 2
        (bits v 16 16 ≠ 0x7E1C → TurnedAway (.secLcReq m v) s)
          ∧ (bits v 16 16 = 0x7E1C →
            (lcAllowed s.lc target = false → ProgRefused (.secLcReq m v) s prBADARG)
              ∧ (lcAllowed s.lc target = true →
                (s.lcIdle = false ∨ (target = lcSECURE ∧ (s.on H.IMG_USABLE 0 = false ∨ s.fuseValid keyBlock = false)) →
                    ProgRefused (.secLcReq m v) s prSTATE)
                  ∧ (s.lcIdle = true → (target ≠ lcSECURE ∨ (s.on H.IMG_USABLE 0 = true ∧ s.fuseValid keyBlock = true)) →
                    ProgAnswers (.secLcReq m v) s lcBlocks [target] true))))
    ∧ (∀ (s : State) (m : Master) (v : Nat), BusTakes s m .SEC_PROV_CMD 0 →
        let target := bits v 0 2
        let c := Instr.secProvCmd m v
        (bits v 16 16 ≠ 0x61F5 → TurnedAway c s)
          ∧ (bits v 16 16 = 0x61F5 → bit v 4 = false → Completes c s (fun t => t.lastResp = .done ∧ OnlyFieldsResp [] s t))
          ∧ (bits v 16 16 = 0x61F5 → bit v 4 = true →
            Completes c s (fun t => ∀ w : Fin 12, t.get F.SEC_PROV_DATA_WORD w = 0)
              ∧ (target = 3 → ProgRefused c s prBADARG)
              ∧ (target ≠ 3 → s.lc = lcRETIRED ∨ (s.lc = lcSECURE ∧ target ≠ 2) → ProgRefused c s prSTATE)
              ∧ (s.lc ≠ lcRETIRED → s.lc ≠ lcSECURE → target = 0 → ProgAnswers c s [slotBlock (bits v 2 2)] (s.provData 12) false)
              ∧ (s.lc ≠ lcRETIRED → s.lc ≠ lcSECURE → target = 1 → ProgAnswers c s [keyBlock] (s.provData 8) false)
              ∧ (s.lc ≠ lcRETIRED → target = 2 → ProgAnswers c s revBlocks [s.get F.SEC_PROV_DATA_WORD 0 % 16] false)))
    ∧ (∀ (s : State) (good : Bool),
        (s.due H.SEC_PROG_END 0 = none → Completes (.fuseProgramDone good) s (fun t => t = s))
          ∧ (∀ a : Nat, s.due H.SEC_PROG_END 0 = some a →
            let b := 32 * s.get H.SEC_PROG_BLK 0
            Completes (.fuseProgramDone good) s (fun t => t.now = laterOf s a
              ∧ Shows [(F.SEC_STAT_BUSY, 0, 0), (H.SEC_PROG_END, 0, 0)] t
              ∧ (∀ j < 31, t.fuse (b + j) = s.fuse (b + j) ||| s.progWords.getD j 0)
              ∧ (good = true → t.fuse (b + 31) = s.fuse (b + 31) ||| (fuseCheck s.progWords % 2 ^ 32))
              ∧ (∃ d : Nat, t.fuse (b + 31) = s.fuse (b + 31) ||| (d % 2 ^ 32))
              ∧ (∀ n : Nat, (n < b ∨ b + 32 ≤ n) → t.fuse n = s.fuse n)
              ∧ (∀ n : Nat, t.fuse n &&& s.fuse n = s.fuse n)
              ∧ (s.on H.SEC_PROG_LC 0 = true → Shows [(H.RST_SOFT_DUE, 0, t.now + ms + 1), (H.SEC_PROG_LC, 0, 0)] t))))
    ∧ (∀ (s : State) (m : Master) (v : Nat), BusTakes s m .SEC_DBG_CTRL 0 →
        (bit v 8 = true → s.lc ≠ lcSECURE ∨ s.get H.SEC_UNLOCK_END 0 ≠ 0 → TurnedAway (.debugUnlock m v) s)
          ∧ (bit v 8 = true → s.lc = lcSECURE → s.get H.SEC_UNLOCK_END 0 = 0 → Completes (.debugUnlock m v) s (fun t => t.lastResp = .done
            ∧ SetsResp [(F.SEC_DBG_CTRL_RIGHTS_REQ, 0, v), (H.SEC_UNLOCK_END, 0, s.now + 6 * ms + 1)] s t))
          ∧ (bit v 8 = false → Completes (.debugUnlock m v) s (fun t => t.lastResp = .done
            ∧ SetsResp [(F.SEC_DBG_CTRL_RIGHTS_REQ, 0, v)] s t)))
    ∧ (∀ s : State,
        (s.due H.SEC_UNLOCK_END 0 = none → Completes .debugUnlockDone s (fun t => t = s))
          ∧ (∀ a : Nat, s.due H.SEC_UNLOCK_END 0 = some a →
            let r := s.sigCheck (s.spRead (s.get F.SEC_DBG_TOKEN_OFFSET 0 * 16) 2048) s.tokenMsg false
            Completes .debugUnlockDone s (fun t => t.now = laterOf s a
              ∧ Shows [(F.SEC_DBG_CTRL_RESULT, 0, sigResult r), (H.SEC_UNLOCK_END, 0, 0)] t
              ∧ (r = .good → Shows [(F.SEC_DBG_CTRL_RIGHTS, 0, s.get F.SEC_DBG_CTRL_RIGHTS_REQ 0)] t)
              ∧ (r ≠ .good → t.get F.SEC_DBG_CTRL_RIGHTS 0 = s.get F.SEC_DBG_CTRL_RIGHTS 0)
              ∧ OnlyFieldsNow ((F.SEC_DBG_CTRL_RESULT, 0) :: (F.SEC_DBG_CTRL_RIGHTS, 0) :: (H.SEC_UNLOCK_END, 0) ::
                  (List.range 8).map (fun w => (F.SEC_DBG_NONCE_NONCE, w))) s { t with free := s.free })))
    ∧ (∀ (s : State) (w : Nat),
        (w < 500000 → Completes (.tamper w) s (fun t => { t with now := s.now } = s ∧ t.now = s.now + w * ps))
          ∧ (1000000 ≤ w →
            (s.mode = mHOLD → Completes (.tamper w) s (fun t => t.now = s.now + us ∧ SetsNow [(F.SEC_STAT_TAMPER, 0, 1)] s t))
              ∧ (s.mode ≠ mHOLD → Completes (.tamper w) s (fun t => t.now = s.now + us ∧ tampered s t)))
          ∧ (500000 ≤ w → w < 1000000 → Completes (.tamper w) s (fun t => t.now = s.now + w * ps
            ∧ ({ t with now := s.now, free := s.free } = s ∨ (s.mode ≠ mHOLD ∧ tampered s t)
              ∨ (s.mode = mHOLD ∧ SetsNow [(F.SEC_STAT_TAMPER, 0, 1)] s { t with free := s.free })))))
    ∧ (∀ s : State,
        (s.due H.WARM_HOLD_END 0 = none → Completes .warmHoldExpiry s (fun t => t = s))
          ∧ (∀ a : Nat, s.due H.WARM_HOLD_END 0 = some a → Completes .warmHoldExpiry s (fun t => t.now = laterOf s a
            ∧ Shows [(H.WARM_HOLD_END, 0, 0)] t
            ∧ (∀ i : Fin 64, (s.siteState i = sHELD → t.siteState i = sENDED)
                ∧ (s.siteState i ≠ sHELD → t.siteState i = s.siteState i)))))

/-- The Porches and the router (R443-R490). -/
def Obligations.LinksAndFabric : Prop :=
  (∀ (s : State) (p : Fin 8) (b : LinkBlock),
      (s.inService p = false → s.porch p ≠ pLEAVING → Completes (.linkBlockReceive p b) s (fun t => t = s))
        ∧ (s.inService p = true → b.ok = false → Completes (.linkBlockReceive p b) s (fun t => asksAgain s p t
          ∧ Shows [(F.PORCH_ERR_UNCORR, p, satAt F.PORCH_ERR_UNCORR.width (s.get F.PORCH_ERR_UNCORR p + 1)),
              (F.PORCH_ERR_CRC, p, satAt F.PORCH_ERR_CRC.width (s.get F.PORCH_ERR_CRC p + 5)),
              (F.PORCH_FILL_INSERTED, p, s.get F.PORCH_FILL_INSERTED p + b.inserted)] t))
        ∧ (s.inService p = true → b.ok = true → s.outQ p = [] → s.on H.PO_DPEND p = false → Completes (.linkBlockReceive p b) s (fun t =>
          Shows [(H.TX_CR, p * 3, s.get H.TX_CR (p * 3) + b.cr0 % 16), (H.TX_CR, p * 3 + 1, s.get H.TX_CR (p * 3 + 1) + b.cr1 % 16),
              (H.TX_CR, p * 3 + 2, s.get H.TX_CR (p * 3 + 2) + b.cr2 % 16)] t
            ∧ (s.inFlight p (b.ack % 4096) = false → t.replayQ p = s.replayQ p)
            ∧ (s.inFlight p (b.ack % 4096) = true → t.replayQ p =
                if s.inFlight p ((b.ack + 1) % 4096) then dropBefore (s.replayQ p) ((b.ack + 1) % 4096) else []))))
    ∧ (∀ (s : State) (p : Fin 8) (f : Flit),
        (s.carries p = false → s.porch p ≠ pLEAVING → Completes (.flitReceive p f) s (fun t => t = s))
          ∧ (s.carries p = true → f.crcOk = false → Completes (.flitReceive p f) s (fun t => asksAgain s p t
            ∧ Shows [(F.PORCH_ERR_CRC, p, satAt F.PORCH_ERR_CRC.width (s.get F.PORCH_ERR_CRC p + 1))] t))
          ∧ (s.carries p = true → f.crcOk = true → 2 < f.typ →
            (0 < (f.seq % 4096 + 4096 - s.get H.RX_EXP p) % 4096 → (f.seq % 4096 + 4096 - s.get H.RX_EXP p) % 4096 < 2048 →
                s.on H.RX_WAIT p = false → Completes (.flitReceive p f) s (asksAgain s p))
              ∧ (2048 ≤ (f.seq % 4096 + 4096 - s.get H.RX_EXP p) % 4096 → Completes (.flitReceive p f) s (fun t => t = s)))
          ∧ (flitTaken s p f →
            Completes (.flitReceive p f) s (fun t => Shows [(H.RX_EXP, p, s.get H.RX_EXP p + 1)] t)
              ∧ (8 ≤ f.typ → noConflict s f → f.sr = false → f.mc = false → f.dst ≠ 255 →
                (∀ q : Nat, (f.dst ≠ s.get F.FAB_NODE_NODE_ID 0 ∨ s.get F.FAB_NODE_NODE_ID 0 = 0) → s.on F.FAB_NODE_RT_VALID 0 = true →
                  s.tableRoute f.dst = some q → s.inService q = true →
                  (2 ≤ f.ttl → Completes (.flitReceive p f) s (FlitGoes s q { f with ttl := f.ttl - 1 }))
                    ∧ (f.ttl ≤ 1 → Completes (.flitReceive p f) s (fun t =>
                      Shows [(F.FAB_DROP_TTL, 0, satAt F.FAB_DROP_TTL.width (s.get F.FAB_DROP_TTL 0 + 1))] t)))
                  ∧ (f.dst = s.get F.FAB_NODE_NODE_ID 0 → f.dst ≠ 0 → 0x20 ≤ f.typ → f.typ ≤ 0x4F → f.seg = 0 →
                    fieldB f.payload 2 1 = 0 → 4 ≤ f.payload.length → s.portPhase = 0 → needBytes f.typ (f.payload.drop 4) ≤ f.payload.length - 4 →
                    s.accepted.length < 32 → Completes (.flitReceive p f) s (fun t =>
                      t.accepted = s.accepted ++ [⟨f.src, fieldB f.payload 0 2, f.typ⟩])))
              ∧ (8 ≤ f.typ → f.src = s.get F.FAB_NODE_NODE_ID 0 → f.src ≠ 0 → f.sr = false → Completes (.flitReceive p f) s (fun t =>
                Shows [(F.FAB_CONFLICT_COUNT, 0, satAt F.FAB_CONFLICT_COUNT.width (s.get F.FAB_CONFLICT_COUNT 0 + 1)),
                  (F.FAB_CONFLICT_PORCH, 0, p)] t))))
    ∧ (∀ (s : State) (p : Fin 8) (e : Nat),
        (s.carries p = false → Completes (.retryReq p e) s (fun t => t = s))
          ∧ (s.carries p = true → Completes (.retryReq p e) s (fun t =>
            Shows [(F.PORCH_RETRY_REPLAYS, p, satAt F.PORCH_RETRY_REPLAYS.width (s.get F.PORCH_RETRY_REPLAYS p + 1))] t
              ∧ t.replayQ p = if s.inFlight p e then dropBefore (s.replayQ p) e else s.replayQ p))
          ∧ (s.on H.RX_WAIT p = false → Completes (.retryReqResend p) s (fun t => t = s))
          ∧ (∀ a : Nat, s.due H.RX_REQ_T p = some a → s.on H.RX_WAIT p = true → s.carries p = true → s.get H.RX_REQS p < 16 →
            Completes (.retryReqResend p) s (fun t => t.now = laterOf s a
              ∧ Shows [(H.RX_REQS, p, s.get H.RX_REQS p + 1), (H.RX_REQ_T, p, a + 2 * us + 1),
                  (F.PORCH_RETRY_REQ_SENT, p, satAt F.PORCH_RETRY_REQ_SENT.width (s.get F.PORCH_RETRY_REQ_SENT p + 1))] t
              ∧ (s.get H.RX_REQS p = 15 → Retrains s p 2 t)
              ∧ (s.get H.RX_REQS p < 15 → t.porch p = s.porch p))))
    ∧ (∀ (s : State) (p : Fin 8),
        (s.porch p = pDETECT → Completes (.partnerDetect p) s (Shows [(F.PORCH_STAT_STATE, p, pTRAINNRZ), (F.PORCH_STAT_PARTNER, p, 1),
            (H.PO_STEP, p, 0), (H.PO_FAILS, p, 0), (H.PO_INFO, p, 0), (H.PO_T0, p, s.now), (F.PORCH_STAT_DEGRADED, p, 0)]))
          ∧ (s.porch p = pRETRAIN → Completes (.partnerDetect p) s (Sets [(F.PORCH_STAT_PARTNER, p, 1)] s))
          ∧ (s.porch p ≠ pDETECT → s.porch p ≠ pRETRAIN → Completes (.partnerDetect p) s (fun t => t = s))
          ∧ (∀ i : LinkInfo,
            (¬ infoReads s p → Completes (.linkInfo p i) s (fun t => t = s))
              ∧ (infoReads s p → Completes (.linkInfo p i) s (fun t =>
                Shows [(F.PORCH_PSID_LO_SID_LO, p, i.sid), (F.PORCH_PSID_HI_SID_HI, p, i.sid % 2 ^ 64 / 2 ^ 32), (F.PORCH_STAT_PARTNER_NODE, p, i.node),
                    (F.PORCH_STAT_PARTNER_PORCH, p, i.porch.val), (H.PO_RESUME, p, b2n (resumes s p i)), (H.PO_EXP, p, i.expected),
                    (H.PO_BUF, p * 3, i.buf0), (H.PO_BUF, p * 3 + 1, i.buf1), (H.PO_BUF, p * 3 + 2, i.buf2), (H.PO_INFO, p, 1),
                    (F.PORCH_STAT_PARTNER, p, 1)] t
                  ∧ (s.porch p = pTRAINNRZ → Shows [(H.PO_STEP, p, max 2 (s.get H.PO_STEP p)),
                      (H.PO_NRZ, p, b2n (s.on F.PORCH_CTRL_FORCE_NRZ p || !s.on F.FAB_CTRL_PAM4_EN 0 || s.mode == mMINIMAL || !i.pam4Ok))] t)))))
    ∧ (∀ (s : State) (p : Fin 8), s.get H.PO_STEP p ≤ 4 → s.get H.PO_FAILS p ≤ 3 →
        (s.porch p = pTRAINNRZ → s.get H.PO_STEP p = 0 → Completes (.trainingStepDone p true) s (Sets [(H.PO_STEP, p, 1)] s))
          ∧ (s.porch p = pTRAINNRZ → 2 ≤ s.get H.PO_STEP p → s.on H.PO_NRZ p = false → Completes (.trainingStepDone p true) s
            (Shows [(F.PORCH_STAT_STATE, p, pTRAINPAM4), (H.PO_STEP, p, 2)]))
          ∧ (s.porch p = pTRAINNRZ → Completes (.trainingStepDone p false) s (fun t => t = s))
          ∧ (s.porch p = pTRAINPAM4 → Completes (.trainingStepDone p true) s (Sets [(H.PO_STEP, p, min 4 (s.get H.PO_STEP p + 1))] s)
            ∧ (s.get H.PO_FAILS p < 2 → s.on H.PO_NRZ p = false → Completes (.trainingStepDone p false) s
                (Sets [(H.PO_FAILS, p, s.get H.PO_FAILS p + 1), (H.PO_STEP, p, 2)] s))
            ∧ (2 ≤ s.get H.PO_FAILS p → Completes (.trainingStepDone p false) s
                (Shows [(F.PORCH_STAT_STATE, p, pTRAINNRZ), (F.PORCH_STAT_DEGRADED, p, 1), (H.PO_NRZ, p, 1), (H.PO_FAILS, p, 3)])))
          ∧ (s.porch p = pRETRAIN → Completes (.trainingStepDone p true) s (Sets [(H.PO_STEP, p, min 4 (s.get H.PO_STEP p + 1))] s)
            ∧ (s.on H.PO_FULL p = false → Completes (.trainingStepDone p false) s
                (Sets [(F.PORCH_EVENTS_FULL_TRAIN, p, s.get F.PORCH_EVENTS_FULL_TRAIN p + 1), (H.PO_STEP, p, 0), (H.PO_INFO, p, 0),
                  (H.PO_FULL, p, 1)] s)))
          ∧ (s.porch p ∉ [pTRAINNRZ, pTRAINPAM4, pRETRAIN, pDEEP] → ∀ ok : Bool, Completes (.trainingStepDone p ok) s (fun t => t = s)))
    ∧ (∀ (s : State) (p : Fin 8),
        let st := s.porch p
        let trained := (st = pTRAINNRZ ∧ s.on H.PO_NRZ p = true ∧ 2 ≤ s.get H.PO_STEP p) ∨ (st = pTRAINPAM4 ∧ 4 ≤ s.get H.PO_STEP p)
        let again := st = pRETRAIN ∨ (st = pDEEP ∧ s.get H.PO_WAKE_END p ≠ 0)
        let up := (F.PORCH_STAT_STATE, p.val, if s.on H.PO_NRZ p then pUPNRZ else pUPPAM4)
        (s.on H.PO_INFO p = false ∨ (¬ trained ∧ ¬ again) → Completes (.linkUp p) s (fun t => t = s))
          ∧ (s.on H.PO_INFO p = true → s.outQ p = [] → trained ∨ (again ∧ s.on H.PO_RESUME p = false) → Completes (.linkUp p) s (fun t =>
            Shows [up, (F.PORCH_SEQ_NEXT_TX, p, 0), (H.RX_EXP, p, 0), (H.TX_CR, p * 3, s.get H.PO_BUF (p * 3)),
                (H.TX_CR, p * 3 + 1, s.get H.PO_BUF (p * 3 + 1)), (H.TX_CR, p * 3 + 2, s.get H.PO_BUF (p * 3 + 2)),
                (F.PORCH_EVENTS_UP, p, s.get F.PORCH_EVENTS_UP p + 1), (H.PO_FRESH, p, 0), (H.RX_WAIT, p, 0)] t
              ∧ t.replayQ p = []
              ∧ (∃ ev ∈ t.events, ev.code = 0x0201 ∧ ev.data.take 1 = leBytes 1 p)
              ∧ (again → ∃ ev ∈ t.events, ev.code = 0x0202 ∧ ev.data.take 2 = leBytes 1 p ++ leBytes 1 4)))
          ∧ (s.on H.PO_INFO p = true → s.outQ p = [] → again → s.on H.PO_RESUME p = true → Completes (.linkUp p) s (fun t => Shows [up] t
            ∧ t.get F.PORCH_EVENTS_UP p = s.get F.PORCH_EVENTS_UP p ∧ t.get H.RX_EXP p = s.get H.RX_EXP p
            ∧ t.replayQ p = if s.inFlight p (s.get H.PO_EXP p) then dropBefore (s.replayQ p) (s.get H.PO_EXP p) else [])))
    ∧ (∀ (s : State) (p : Fin 8) (c : RetrainCause),
        (s.carries p = true ∨ s.porch p = pQUIET → (c ≠ .signal ∨ s.on H.PO_LEFT p = false) →
            Completes (.retrain p c) s (Retrains s p (retrainCode c)))
          ∧ (s.inService p = true → s.on H.PO_LEFT p = true → Completes (.retrain p .signal) s (LinkLost s p 1 true))
          ∧ (s.inService p = false → Completes (.retrain p c) s (fun t => t = s)))
    ∧ (∀ (s : State) (p : Fin 8),
        (s.on H.PO_LEFT p = true → Completes (.linkDown p) s (LinkLost s p 1 true))
          ∧ (s.on H.PO_LEFT p = false → s.porch p ≠ pRETRAIN → Completes (.linkDown p) s (fun t => t = s))
          ∧ (s.on H.PO_LEFT p = false → s.porch p = pRETRAIN → s.get H.PO_CAUSE p = 1 → s.on F.PORCH_STAT_PARTNER p = false →
            Completes (.linkDown p) s (fun t => LinkLost s p 1 false t
              ∧ t.now = laterOf s (s.get H.PO_T0 p + s.get F.FAB_CTRL_LINKDOWN_MS 0 * ms)))
          ∧ (s.on H.PO_LEFT p = false → s.porch p = pRETRAIN → s.get H.PO_CAUSE p ≠ 1 ∨ s.on F.PORCH_STAT_PARTNER p = true →
            Completes (.linkDown p) s (fun t => LinkLost s p 2 false t ∧ t.now = laterOf s (s.get H.PO_T0 p + 35 * ms)))
          ∧ (∀ a : Nat, s.due H.PO_DOWN_END p = some a → s.porch p = pDOWN → Completes (.downExpiry p) s (fun t => t.now = laterOf s a
            ∧ Shows [(F.PORCH_STAT_STATE, p, pDETECT), (H.PO_DOWN_END, p, 0)] t))
          ∧ (s.porch p ≠ pDOWN → Completes (.downExpiry p) s (fun t => t = s))
          ∧ (∀ a : Nat, s.due H.PO_WAKE_END p = some a → s.porch p = pDEEP → Completes (.wakeTimeout p) s (fun t => t.now = laterOf s a
            ∧ LinkLost s p 3 false t))
          ∧ (s.porch p ≠ pDEEP → Completes (.wakeTimeout p) s (fun t => t = s)))
    ∧ (∀ (s : State) (m : Master) (p : Fin 8) (v : Nat), BusTakes s m .PORCH_CTRL p →
        (bit v 2 = false → Completes (.porchEnWrite m p v) s (fun t => t.lastResp = .done
            ∧ Shows [(F.PORCH_CTRL_EN, p, b2n (bit v 0)), (F.PORCH_CTRL_FORCE_NRZ, p, b2n (bit v 1)), (F.PORCH_CTRL_QUIET_EN, p, b2n (bit v 3))] t
            ∧ (bit v 0 = true → s.porch p = pOFF → s.on H.PD_PORCH p = true → Shows [(F.PORCH_STAT_STATE, p, pDETECT)] t)
            ∧ (bit v 0 = true → s.porch p ≠ pOFF → t.porch p = s.porch p)
            ∧ (bit v 0 = false → s.on F.PORCH_CTRL_EN p = true → Shows [(F.PORCH_STAT_STATE, p, pOFF), (F.PORCH_STAT_PARTNER, p, 0)] t
              ∧ (s.inService p = true → t.outQ p = [] ∧ t.replayQ p = []
                ∧ ∃ ev ∈ t.events, ev.code = 0x0202 ∧ ev.data.take 2 = leBytes 1 p ++ leBytes 1 1))))
          ∧ (bit v 0 = true → bit v 2 = true → s.carries p = true → Completes (.porchEnWrite m p v) s (fun t => t.lastResp = .done
            ∧ Retrains s p 3 t)))
    ∧ (∀ (s : State) (p : Fin 8),
        let quiet := s.on F.PORCH_CTRL_QUIET_EN p = true ∧ s.get F.FAB_CTRL_QUIET_IDLE_US 0 ≠ 0
        (s.carries p = false → (∀ b : Bool, Completes (.quietReq p b) s (fun t => t = s) ∧ Completes (.quietAck p b) s (fun t => t = s)
              ∧ Completes (.deepReq p b) s (fun t => t = s)) ∧ Completes (.deepAck p) s (fun t => t = s))
          ∧ (s.carries p = true →
            (quiet → s.outQ p = [] → Completes (.quietReq p true) s (fun t => FlitGoes s p (linkFlit 5 (zeros 1)) t
                ∧ Shows [(F.PORCH_STAT_STATE, p, pQUIET)] t))
              ∧ (¬ quiet ∨ s.outQ p ≠ [] → Completes (.quietReq p true) s (fun t => FlitGoes s p (linkFlit 5 (leBytes 1 1)) t
                ∧ t.porch p = s.porch p))
              ∧ (quiet → s.idlePorch p = true → Completes (.quietReq p false) s (fun t => FlitGoes s p (linkFlit 4 []) t
                ∧ Shows [(H.PO_QREQ, p, 1)] t))
              ∧ (¬ quiet ∨ s.idlePorch p = false → Completes (.quietReq p false) s (fun t => t = s))
              ∧ (s.on H.PO_QREQ p = true → Completes (.quietAck p true) s (Shows [(H.PO_QREQ, p, 0), (F.PORCH_STAT_STATE, p, pQUIET)])
                ∧ Completes (.quietAck p false) s (Sets [(H.PO_QREQ, p, 0)] s))
              ∧ (s.on H.PO_QREQ p = false → ∀ b : Bool, Completes (.quietAck p b) s (fun t => t = s))
              ∧ (s.idlePorch p = true → Completes (.deepReq p true) s (fun t => FlitGoes s p (linkFlit 7 []) t
                ∧ Shows [(F.PORCH_STAT_STATE, p, pDEEP), (H.PO_DPEND, p, 0)] t))
              ∧ (s.idlePorch p = false → Completes (.deepReq p true) s (Sets [(H.PO_DPEND, p, 1)] s))
              ∧ Completes (.deepReq p false) s (fun t => FlitGoes s p (linkFlit 6 []) t ∧ Shows [(H.PO_DREQ, p, 1)] t)
              ∧ (s.on H.PO_DREQ p = true → Completes (.deepAck p) s (Shows [(H.PO_DREQ, p, 0), (F.PORCH_STAT_STATE, p, pDEEP)]))
              ∧ (s.on H.PO_DREQ p = false → Completes (.deepAck p) s (fun t => t = s)))
          ∧ (s.porch p = pQUIET → s.outQ p = [] → Completes (.quietExit p) s
            (Shows [(F.PORCH_STAT_STATE, p, if s.on H.PO_NRZ p then pUPNRZ else pUPPAM4), (H.PO_LANE, p, s.get F.THM_BAND_LANE 0)]))
          ∧ (s.porch p ≠ pQUIET → Completes (.quietExit p) s (fun t => t = s))
          ∧ (s.porch p = pDEEP → s.get H.PO_WAKE_END p = 0 → Completes (.deepWake p) s
            (Sets [(H.PO_WAKE_END, p, s.now + 5 * ms + 1), (H.PO_INFO, p, 0), (H.PO_STEP, p, 0), (H.PO_FULL, p, 0)] s))
          ∧ (s.porch p ≠ pDEEP ∨ s.get H.PO_WAKE_END p ≠ 0 → Completes (.deepWake p) s (fun t => t = s))
          ∧ (s.inService p = true → Completes (.leave p) s (fun t =>
            Shows [(F.PORCH_STAT_LEAVE_RX, p, 1), (H.PO_LEFT, p, 1), (H.PO_LEAVE_END, p, s.now + 100 * us + 1)] t
              ∧ (∀ d : Nat, d < 256 → t.on (rtValid d) (d / 8) = true → t.get (rtPorch d) (d / 8) ≠ p)))
          ∧ (s.inService p = false → Completes (.leave p) s (fun t => t = s))
          ∧ (s.due H.PO_LEAVE_END p = none → Completes (.leaveWaitExpiry p) s (fun t => t = s))
          ∧ (∀ a : Nat, s.due H.PO_LEAVE_END p = some a → Completes (.leaveWaitExpiry p) s (fun t => t.now = laterOf s a
            ∧ Shows [(H.PO_LEAVE_END, p, 0)] t ∧ (s.porch p = pLEAVING → Shows [(H.PO_IDLED, p, 1)] t
              ∧ (s.on H.REMOVE_WAIT 0 = true → (∀ q : Fin 8, q ≠ p → s.porch q ≠ pLEAVING) →
                Shows [(F.MODE_STAT_REMOVE_READY, 0, 1), (H.REMOVE_WAIT, 0, 0)] t)))))
    ∧ (∀ (s : State) (p : Fin 8) (f : Flit),
        (f.typ ≠ 0x10 → Completes (.discover p f) s (fun t => t = s))
          ∧ (f.typ ≠ 0x12 → Completes (.assign p f) s (fun t => t = s))
          ∧ (f.typ ≠ 0x14 → Completes (.routeSet p f) s (fun t => t = s))
          ∧ (f.typ = 0x10 → noConflict s f → f.sr = false → f.mc = false → f.dst = 255 → ¬ copySeen s f →
            s.inService p = true → s.carries p = false → s.on H.PO_LEFT p = false → (∀ q : Fin 8, q ≠ p → s.inService q = false) →
            Completes (.discover p f) s (fun t => t.bcasts.getLast? = some ⟨f.src, fieldB f.payload 0 2, s.now⟩
              ∧ ∃ a b : Flit, t.outQ p = s.outQ p ++ [a, b] ∧ a.typ = 0x11 ∧ b.typ = 0x11 ∧ a.seg = 1 ∧ b.seg = 3
                ∧ a.sr = true ∧ b.sr = true ∧ a.payload.length = 116 ∧ b.payload.length = 40
                ∧ fieldB a.payload 16 2 = fieldB f.payload 0 2 ∧ fieldB a.payload 18 1 = 0 ∧ fieldB b.payload 18 1 = 1
                ∧ fieldB a.payload 20 8 = s.sid % 2 ^ 64))
          ∧ (f.typ = 0x10 → noConflict s f → f.sr = false → f.mc = false → f.dst = 255 →
            copySeen s f → Completes (.discover p f) s (fun t => t.outq = s.outq ∧ t.replay = s.replay
              ∧ ⟨f.src, fieldB f.payload 0 2, s.now⟩ ∈ t.bcasts))
          ∧ (f.typ = 0x12 →
            let node := fieldB (flitBody f) 8 1
            (assignStatus s f ≠ 0 → Completes (.assign p f) s (fun t =>
                t.get F.FAB_NODE_NODE_ID 0 = s.get F.FAB_NODE_NODE_ID 0 ∧ t.get F.FAB_NODE_HOST_NODE 0 = s.get F.FAB_NODE_HOST_NODE 0
                  ∧ (f.sr = false → s.on F.FAB_NODE_RT_VALID 0 = false → Answers s p 0x13 (assignStatus s f) t)))
              ∧ (assignStatus s f = 0 → Completes (.assign p f) s (fun t =>
                Shows [(F.FAB_NODE_NODE_ID, 0, node), (F.FAB_NODE_RT_VALID, 0, 0)] t
                  ∧ (node ≠ 0 → Shows [(F.FAB_NODE_HOST_NODE, 0, fieldB (flitBody f) 9 1), (F.FAB_CTRL_TTL, 0, fieldB (flitBody f) 10 1),
                      (F.FAB_NODE_HOME_PORCH, 0, p)] t)
                  ∧ (f.sr = false → Answers s p 0x13 0 t))))
          ∧ (f.typ = 0x14 →
            let b := flitBody f
            let first := fieldB b 0 1
            let n := fieldB b 1 1
            (notHost s f ∨ 49 < first + n → Completes (.routeSet p f) s (fun t =>
                (∀ (d i : Nat), t.get (rtPorch d) i = s.get (rtPorch d) i ∧ t.get (rtValid d) i = s.get (rtValid d) i)
                  ∧ t.get F.FAB_NODE_RT_VALID 0 = s.get F.FAB_NODE_RT_VALID 0
                  ∧ (f.sr = false → s.on F.FAB_NODE_RT_VALID 0 = false → Answers s p 0x15 (if s.get F.FAB_NODE_NODE_ID 0 ≠ 0
                      ∧ f.src ≠ s.get F.FAB_NODE_HOST_NODE 0 then 3 else 4) t)))
              ∧ (¬ notHost s f → first + n ≤ 49 → Completes (.routeSet p f) s (fun t =>
                ∀ j < min n ((b.length - 4) / 4), routeStands (first + j) (fieldB b (4 + 4 * j) 4) t))))

/-- What every command leaves unchanged (R6, R7, R39). -/
def Obligations.EveryCommandKeepsTheRest : Prop :=
  ∀ (c : Instr) (s t : State), exec c s = .next t →
    (anyField c = false → Frame (rowFields c) (rowParts c) s t)
      ∧ (anyField c = true → FrameParts (rowParts c) s t)
end

