-- ==== Sys2Proof/Laws/AddrMap.lean ====
section
/-!
SUPPORT. The address map read backwards: in every block the address of a unit and an offset decodes by the slots of
that block, whatever the blocks before it hold.
-/

set_option Elab.async false
set_option linter.all false

namespace Sys2Proof.Machine

theorem find_none0 {base span a : Nat} {sl : List Slot} (h : a < base ∨ base + span ≤ a) :
    Block.find ⟨base, [], span, sl⟩ a = none := by
  unfold Block.find
  by_cases h1 : a < base
  · simp [h1]
  · have h2 : ¬ (a - base < span) := by omega
    simp [h1, splitDims, h2]

theorem find_none1 {base span c st a : Nat} {sl : List Slot} (h : a < base ∨ c ≤ (a - base) / st ∨ span ≤ (a - base) % st) :
    Block.find ⟨base, [⟨c, st⟩], span, sl⟩ a = none := by
  unfold Block.find
  by_cases h1 : a < base
  · simp [h1]
  · by_cases h2 : (a - base) / st < c
    · have h3 : ¬ ((a - base) % st < span) := by omega
      simp [h1, splitDims, h2, h3]
    · simp [h1, splitDims, h2]

theorem find_none2 {base span c st c' st' a : Nat} {sl : List Slot}
    (h : a < base ∨ c ≤ (a - base) / st ∨ c' ≤ (a - base) % st / st' ∨ span ≤ (a - base) % st % st') :
    Block.find ⟨base, [⟨c, st⟩, ⟨c', st'⟩], span, sl⟩ a = none := by
  unfold Block.find
  by_cases h1 : a < base
  · simp [h1]
  · by_cases h2 : (a - base) / st < c
    · by_cases h4 : (a - base) % st / st' < c'
      · have h3 : ¬ ((a - base) % st % st' < span) := by omega
        simp [h1, splitDims, h2, h3, h4]
      · simp [h1, splitDims, h2, h4]
    · simp [h1, splitDims, h2]

/-- What a block's slots give for unit u and an offset. -/
def Block.at (b : Block) (u off : Nat) : Option (RegName × Nat) :=
  match findSlot b.slots off with
  | none => none
  | some (sl, j) => some (sl.reg, u * dimTotal sl.dims + j)

theorem find_some {b : Block} {a u off : Nat} (h1 : b.base ≤ a) (h2 : splitDims b.dims 0 (a - b.base) = some (u, off))
    (h3 : off < b.span) : b.find a = b.at u off := by
  have h : ¬ a < b.base := by omega
  unfold Block.find Block.at
  simp only [h, h2, h3, if_true, if_false]
  all_goals cases findSlot b.slots off <;> rfl

theorem decodeIn_skip {b : Block} {bs : List Block} {a : Nat} (h : b.find a = none) :
    decodeAddrIn (b :: bs) a = decodeAddrIn bs a := by simp [decodeAddrIn, h]

theorem decodeIn_take {b : Block} {bs : List Block} {a : Nat} {x : Option (RegName × Nat)} (h : b.find a = x) (hx : x.isSome = true) :
    decodeAddrIn (b :: bs) a = x := by
  obtain ⟨y, rfl⟩ := Option.isSome_iff_exists.1 hx
  simp [decodeAddrIn, h]

/-- The address lies in a region of registers. -/
def regRegion (a : Nat) : Prop :=
  a < 0x100000 ∨ (0x10000000 ≤ a ∧ a < 0x18000000 ∧ a % 0x1000000 < 0x810000)
    ∨ (0x20000000 ≤ a ∧ a < 0x24000000 ∧ a % 0x100000 < 0x80300)

/-- A block is read back: an address of a unit and an offset that a slot takes decodes by that slot, is aligned as the
offset is, and lies in a region of registers. -/
def Block.Ok (b : Block) : Prop :=
  ∀ u off : Nat, u < dimTotal b.dims → off < b.span → (b.at u off).isSome = true →
    decodeAddr (b.base + joinDims b.dims u + off) = b.at u off ∧ (b.base + joinDims b.dims u + off) % 4 = off % 4
      ∧ regRegion (b.base + joinDims b.dims u + off)

theorem blockRST_ok : blockRST.Ok := by
  intro u off hu ho hs
  have hu0 : u = 0 := by simp only [blockRST, dimTotal] at hu; omega
  subst hu0
  have ho1 : off < 65536 := ho
  have ha : blockRST.base + joinDims blockRST.dims 0 + off = 0 + 0 + off := rfl
  rw [ha]
  have hf : blockRST.find (0 + 0 + off) = blockRST.at 0 off := by
    refine find_some (by simp only [blockRST]; omega) ?_ ho
    simp [blockRST, splitDims]
  refine ⟨?_, by omega, by unfold regRegion; omega⟩
  rw [decodeAddr, allBlocks]
  exact decodeIn_take hf hs

theorem blockCLK_ok : blockCLK.Ok := by
  intro u off hu ho hs
  have hu0 : u = 0 := by simp only [blockCLK, dimTotal] at hu; omega
  subst hu0
  have ho1 : off < 65536 := ho
  have ha : blockCLK.base + joinDims blockCLK.dims 0 + off = 65536 + 0 + off := rfl
  rw [ha]
  have hf : blockCLK.find (65536 + 0 + off) = blockCLK.at 0 off := by
    refine find_some (by simp only [blockCLK]; omega) ?_ ho
    simp [blockCLK, splitDims]
  refine ⟨?_, by omega, by unfold regRegion; omega⟩
  rw [decodeAddr, allBlocks]
  rw [decodeIn_skip (b := blockRST) (a := 65536 + 0 + off) (find_none0 (by omega))]
  exact decodeIn_take hf hs

theorem blockTHM_ok : blockTHM.Ok := by
  intro u off hu ho hs
  have hu0 : u = 0 := by simp only [blockTHM, dimTotal] at hu; omega
  subst hu0
  have ho1 : off < 65536 := ho
  have ha : blockTHM.base + joinDims blockTHM.dims 0 + off = 131072 + 0 + off := rfl
  rw [ha]
  have hf : blockTHM.find (131072 + 0 + off) = blockTHM.at 0 off := by
    refine find_some (by simp only [blockTHM]; omega) ?_ ho
    simp [blockTHM, splitDims]
  refine ⟨?_, by omega, by unfold regRegion; omega⟩
  rw [decodeAddr, allBlocks]
  rw [decodeIn_skip (b := blockRST) (a := 131072 + 0 + off) (find_none0 (by omega))]
  rw [decodeIn_skip (b := blockCLK) (a := 131072 + 0 + off) (find_none0 (by omega))]
  exact decodeIn_take hf hs

theorem blockFLT_ok : blockFLT.Ok := by
  intro u off hu ho hs
  have hu0 : u = 0 := by simp only [blockFLT, dimTotal] at hu; omega
  subst hu0
  have ho1 : off < 65536 := ho
  have ha : blockFLT.base + joinDims blockFLT.dims 0 + off = 196608 + 0 + off := rfl
  rw [ha]
  have hf : blockFLT.find (196608 + 0 + off) = blockFLT.at 0 off := by
    refine find_some (by simp only [blockFLT]; omega) ?_ ho
    simp [blockFLT, splitDims]
  refine ⟨?_, by omega, by unfold regRegion; omega⟩
  rw [decodeAddr, allBlocks]
  rw [decodeIn_skip (b := blockRST) (a := 196608 + 0 + off) (find_none0 (by omega))]
  rw [decodeIn_skip (b := blockCLK) (a := 196608 + 0 + off) (find_none0 (by omega))]
  rw [decodeIn_skip (b := blockTHM) (a := 196608 + 0 + off) (find_none0 (by omega))]
  exact decodeIn_take hf hs

theorem blockSEC_ok : blockSEC.Ok := by
  intro u off hu ho hs
  have hu0 : u = 0 := by simp only [blockSEC, dimTotal] at hu; omega
  subst hu0
  have ho1 : off < 65536 := ho
  have ha : blockSEC.base + joinDims blockSEC.dims 0 + off = 262144 + 0 + off := rfl
  rw [ha]
  have hf : blockSEC.find (262144 + 0 + off) = blockSEC.at 0 off := by
    refine find_some (by simp only [blockSEC]; omega) ?_ ho
    simp [blockSEC, splitDims]
  refine ⟨?_, by omega, by unfold regRegion; omega⟩
  rw [decodeAddr, allBlocks]
  rw [decodeIn_skip (b := blockRST) (a := 262144 + 0 + off) (find_none0 (by omega))]
  rw [decodeIn_skip (b := blockCLK) (a := 262144 + 0 + off) (find_none0 (by omega))]
  rw [decodeIn_skip (b := blockTHM) (a := 262144 + 0 + off) (find_none0 (by omega))]
  rw [decodeIn_skip (b := blockFLT) (a := 262144 + 0 + off) (find_none0 (by omega))]
  exact decodeIn_take hf hs

theorem blockCSP_ok : blockCSP.Ok := by
  intro u off hu ho hs
  have hu1 : u < 2 := by simpa [blockCSP, dimTotal] using hu
  have ho1 : off < 4096 := ho
  have ha : blockCSP.base + joinDims blockCSP.dims u + off = 327680 + u * 4096 + off := by simp [blockCSP, joinDims, dimTotal]
  rw [ha]
  have hf : blockCSP.find (327680 + u * 4096 + off) = blockCSP.at u off := by
    refine find_some (by simp only [blockCSP]; omega) ?_ ho
    have e1 : (327680 + u * 4096 + off - 327680) / 4096 = u := by omega
    have e2 : (327680 + u * 4096 + off - 327680) % 4096 = off := by omega
    simp only [blockCSP, splitDims, e1, e2, hu1, if_true]; simp
  refine ⟨?_, by omega, by unfold regRegion; omega⟩
  rw [decodeAddr, allBlocks]
  rw [decodeIn_skip (b := blockRST) (a := 327680 + u * 4096 + off) (find_none0 (by omega))]
  rw [decodeIn_skip (b := blockCLK) (a := 327680 + u * 4096 + off) (find_none0 (by omega))]
  rw [decodeIn_skip (b := blockTHM) (a := 327680 + u * 4096 + off) (find_none0 (by omega))]
  rw [decodeIn_skip (b := blockFLT) (a := 327680 + u * 4096 + off) (find_none0 (by omega))]
  rw [decodeIn_skip (b := blockSEC) (a := 327680 + u * 4096 + off) (find_none0 (by omega))]
  exact decodeIn_take hf hs

theorem blockGPIO_ok : blockGPIO.Ok := by
  intro u off hu ho hs
  have hu0 : u = 0 := by simp only [blockGPIO, dimTotal] at hu; omega
  subst hu0
  have ho1 : off < 65536 := ho
  have ha : blockGPIO.base + joinDims blockGPIO.dims 0 + off = 393216 + 0 + off := rfl
  rw [ha]
  have hf : blockGPIO.find (393216 + 0 + off) = blockGPIO.at 0 off := by
    refine find_some (by simp only [blockGPIO]; omega) ?_ ho
    simp [blockGPIO, splitDims]
  refine ⟨?_, by omega, by unfold regRegion; omega⟩
  rw [decodeAddr, allBlocks]
  rw [decodeIn_skip (b := blockRST) (a := 393216 + 0 + off) (find_none0 (by omega))]
  rw [decodeIn_skip (b := blockCLK) (a := 393216 + 0 + off) (find_none0 (by omega))]
  rw [decodeIn_skip (b := blockTHM) (a := 393216 + 0 + off) (find_none0 (by omega))]
  rw [decodeIn_skip (b := blockFLT) (a := 393216 + 0 + off) (find_none0 (by omega))]
  rw [decodeIn_skip (b := blockSEC) (a := 393216 + 0 + off) (find_none0 (by omega))]
  rw [decodeIn_skip (b := blockCSP) (a := 393216 + 0 + off) (find_none1 (by omega))]
  exact decodeIn_take hf hs

theorem blockMBX_ok : blockMBX.Ok := by
  intro u off hu ho hs
  have hu0 : u = 0 := by simp only [blockMBX, dimTotal] at hu; omega
  subst hu0
  have ho1 : off < 65536 := ho
  have ha : blockMBX.base + joinDims blockMBX.dims 0 + off = 458752 + 0 + off := rfl
  rw [ha]
  have hf : blockMBX.find (458752 + 0 + off) = blockMBX.at 0 off := by
    refine find_some (by simp only [blockMBX]; omega) ?_ ho
    simp [blockMBX, splitDims]
  refine ⟨?_, by omega, by unfold regRegion; omega⟩
  rw [decodeAddr, allBlocks]
  rw [decodeIn_skip (b := blockRST) (a := 458752 + 0 + off) (find_none0 (by omega))]
  rw [decodeIn_skip (b := blockCLK) (a := 458752 + 0 + off) (find_none0 (by omega))]
  rw [decodeIn_skip (b := blockTHM) (a := 458752 + 0 + off) (find_none0 (by omega))]
  rw [decodeIn_skip (b := blockFLT) (a := 458752 + 0 + off) (find_none0 (by omega))]
  rw [decodeIn_skip (b := blockSEC) (a := 458752 + 0 + off) (find_none0 (by omega))]
  rw [decodeIn_skip (b := blockCSP) (a := 458752 + 0 + off) (find_none1 (by omega))]
  rw [decodeIn_skip (b := blockGPIO) (a := 458752 + 0 + off) (find_none0 (by omega))]
  exact decodeIn_take hf hs

theorem blockSEM_ok : blockSEM.Ok := by
  intro u off hu ho hs
  have hu0 : u = 0 := by simp only [blockSEM, dimTotal] at hu; omega
  subst hu0
  have ho1 : off < 65536 := ho
  have ha : blockSEM.base + joinDims blockSEM.dims 0 + off = 524288 + 0 + off := rfl
  rw [ha]
  have hf : blockSEM.find (524288 + 0 + off) = blockSEM.at 0 off := by
    refine find_some (by simp only [blockSEM]; omega) ?_ ho
    simp [blockSEM, splitDims]
  refine ⟨?_, by omega, by unfold regRegion; omega⟩
  rw [decodeAddr, allBlocks]
  rw [decodeIn_skip (b := blockRST) (a := 524288 + 0 + off) (find_none0 (by omega))]
  rw [decodeIn_skip (b := blockCLK) (a := 524288 + 0 + off) (find_none0 (by omega))]
  rw [decodeIn_skip (b := blockTHM) (a := 524288 + 0 + off) (find_none0 (by omega))]
  rw [decodeIn_skip (b := blockFLT) (a := 524288 + 0 + off) (find_none0 (by omega))]
  rw [decodeIn_skip (b := blockSEC) (a := 524288 + 0 + off) (find_none0 (by omega))]
  rw [decodeIn_skip (b := blockCSP) (a := 524288 + 0 + off) (find_none1 (by omega))]
  rw [decodeIn_skip (b := blockGPIO) (a := 524288 + 0 + off) (find_none0 (by omega))]
  rw [decodeIn_skip (b := blockMBX) (a := 524288 + 0 + off) (find_none0 (by omega))]
  exact decodeIn_take hf hs

theorem blockIRQ_ok : blockIRQ.Ok := by
  intro u off hu ho hs
  have hu0 : u = 0 := by simp only [blockIRQ, dimTotal] at hu; omega
  subst hu0
  have ho1 : off < 65536 := ho
  have ha : blockIRQ.base + joinDims blockIRQ.dims 0 + off = 589824 + 0 + off := rfl
  rw [ha]
  have hf : blockIRQ.find (589824 + 0 + off) = blockIRQ.at 0 off := by
    refine find_some (by simp only [blockIRQ]; omega) ?_ ho
    simp [blockIRQ, splitDims]
  refine ⟨?_, by omega, by unfold regRegion; omega⟩
  rw [decodeAddr, allBlocks]
  rw [decodeIn_skip (b := blockRST) (a := 589824 + 0 + off) (find_none0 (by omega))]
  rw [decodeIn_skip (b := blockCLK) (a := 589824 + 0 + off) (find_none0 (by omega))]
  rw [decodeIn_skip (b := blockTHM) (a := 589824 + 0 + off) (find_none0 (by omega))]
  rw [decodeIn_skip (b := blockFLT) (a := 589824 + 0 + off) (find_none0 (by omega))]
  rw [decodeIn_skip (b := blockSEC) (a := 589824 + 0 + off) (find_none0 (by omega))]
  rw [decodeIn_skip (b := blockCSP) (a := 589824 + 0 + off) (find_none1 (by omega))]
  rw [decodeIn_skip (b := blockGPIO) (a := 589824 + 0 + off) (find_none0 (by omega))]
  rw [decodeIn_skip (b := blockMBX) (a := 589824 + 0 + off) (find_none0 (by omega))]
  rw [decodeIn_skip (b := blockSEM) (a := 589824 + 0 + off) (find_none0 (by omega))]
  exact decodeIn_take hf hs

theorem blockFAB_ok : blockFAB.Ok := by
  intro u off hu ho hs
  have hu0 : u = 0 := by simp only [blockFAB, dimTotal] at hu; omega
  subst hu0
  have ho1 : off < 65536 := ho
  have ha : blockFAB.base + joinDims blockFAB.dims 0 + off = 655360 + 0 + off := rfl
  rw [ha]
  have hf : blockFAB.find (655360 + 0 + off) = blockFAB.at 0 off := by
    refine find_some (by simp only [blockFAB]; omega) ?_ ho
    simp [blockFAB, splitDims]
  refine ⟨?_, by omega, by unfold regRegion; omega⟩
  rw [decodeAddr, allBlocks]
  rw [decodeIn_skip (b := blockRST) (a := 655360 + 0 + off) (find_none0 (by omega))]
  rw [decodeIn_skip (b := blockCLK) (a := 655360 + 0 + off) (find_none0 (by omega))]
  rw [decodeIn_skip (b := blockTHM) (a := 655360 + 0 + off) (find_none0 (by omega))]
  rw [decodeIn_skip (b := blockFLT) (a := 655360 + 0 + off) (find_none0 (by omega))]
  rw [decodeIn_skip (b := blockSEC) (a := 655360 + 0 + off) (find_none0 (by omega))]
  rw [decodeIn_skip (b := blockCSP) (a := 655360 + 0 + off) (find_none1 (by omega))]
  rw [decodeIn_skip (b := blockGPIO) (a := 655360 + 0 + off) (find_none0 (by omega))]
  rw [decodeIn_skip (b := blockMBX) (a := 655360 + 0 + off) (find_none0 (by omega))]
  rw [decodeIn_skip (b := blockSEM) (a := 655360 + 0 + off) (find_none0 (by omega))]
  rw [decodeIn_skip (b := blockIRQ) (a := 655360 + 0 + off) (find_none0 (by omega))]
  exact decodeIn_take hf hs

theorem blockCFG_ok : blockCFG.Ok := by
  intro u off hu ho hs
  have hu0 : u = 0 := by simp only [blockCFG, dimTotal] at hu; omega
  subst hu0
  have ho1 : off < 65536 := ho
  have ha : blockCFG.base + joinDims blockCFG.dims 0 + off = 720896 + 0 + off := rfl
  rw [ha]
  have hf : blockCFG.find (720896 + 0 + off) = blockCFG.at 0 off := by
    refine find_some (by simp only [blockCFG]; omega) ?_ ho
    simp [blockCFG, splitDims]
  refine ⟨?_, by omega, by unfold regRegion; omega⟩
  rw [decodeAddr, allBlocks]
  rw [decodeIn_skip (b := blockRST) (a := 720896 + 0 + off) (find_none0 (by omega))]
  rw [decodeIn_skip (b := blockCLK) (a := 720896 + 0 + off) (find_none0 (by omega))]
  rw [decodeIn_skip (b := blockTHM) (a := 720896 + 0 + off) (find_none0 (by omega))]
  rw [decodeIn_skip (b := blockFLT) (a := 720896 + 0 + off) (find_none0 (by omega))]
  rw [decodeIn_skip (b := blockSEC) (a := 720896 + 0 + off) (find_none0 (by omega))]
  rw [decodeIn_skip (b := blockCSP) (a := 720896 + 0 + off) (find_none1 (by omega))]
  rw [decodeIn_skip (b := blockGPIO) (a := 720896 + 0 + off) (find_none0 (by omega))]
  rw [decodeIn_skip (b := blockMBX) (a := 720896 + 0 + off) (find_none0 (by omega))]
  rw [decodeIn_skip (b := blockSEM) (a := 720896 + 0 + off) (find_none0 (by omega))]
  rw [decodeIn_skip (b := blockIRQ) (a := 720896 + 0 + off) (find_none0 (by omega))]
  rw [decodeIn_skip (b := blockFAB) (a := 720896 + 0 + off) (find_none0 (by omega))]
  exact decodeIn_take hf hs

theorem blockCEL_ok : blockCEL.Ok := by
  intro u off hu ho hs
  have hu0 : u = 0 := by simp only [blockCEL, dimTotal] at hu; omega
  subst hu0
  have ho1 : off < 65536 := ho
  have ha : blockCEL.base + joinDims blockCEL.dims 0 + off = 786432 + 0 + off := rfl
  rw [ha]
  have hf : blockCEL.find (786432 + 0 + off) = blockCEL.at 0 off := by
    refine find_some (by simp only [blockCEL]; omega) ?_ ho
    simp [blockCEL, splitDims]
  refine ⟨?_, by omega, by unfold regRegion; omega⟩
  rw [decodeAddr, allBlocks]
  rw [decodeIn_skip (b := blockRST) (a := 786432 + 0 + off) (find_none0 (by omega))]
  rw [decodeIn_skip (b := blockCLK) (a := 786432 + 0 + off) (find_none0 (by omega))]
  rw [decodeIn_skip (b := blockTHM) (a := 786432 + 0 + off) (find_none0 (by omega))]
  rw [decodeIn_skip (b := blockFLT) (a := 786432 + 0 + off) (find_none0 (by omega))]
  rw [decodeIn_skip (b := blockSEC) (a := 786432 + 0 + off) (find_none0 (by omega))]
  rw [decodeIn_skip (b := blockCSP) (a := 786432 + 0 + off) (find_none1 (by omega))]
  rw [decodeIn_skip (b := blockGPIO) (a := 786432 + 0 + off) (find_none0 (by omega))]
  rw [decodeIn_skip (b := blockMBX) (a := 786432 + 0 + off) (find_none0 (by omega))]
  rw [decodeIn_skip (b := blockSEM) (a := 786432 + 0 + off) (find_none0 (by omega))]
  rw [decodeIn_skip (b := blockIRQ) (a := 786432 + 0 + off) (find_none0 (by omega))]
  rw [decodeIn_skip (b := blockFAB) (a := 786432 + 0 + off) (find_none0 (by omega))]
  rw [decodeIn_skip (b := blockCFG) (a := 786432 + 0 + off) (find_none0 (by omega))]
  exact decodeIn_take hf hs

theorem blockSEQ_ok : blockSEQ.Ok := by
  intro u off hu ho hs
  have hu0 : u = 0 := by simp only [blockSEQ, dimTotal] at hu; omega
  subst hu0
  have ho1 : off < 65536 := ho
  have ha : blockSEQ.base + joinDims blockSEQ.dims 0 + off = 851968 + 0 + off := rfl
  rw [ha]
  have hf : blockSEQ.find (851968 + 0 + off) = blockSEQ.at 0 off := by
    refine find_some (by simp only [blockSEQ]; omega) ?_ ho
    simp [blockSEQ, splitDims]
  refine ⟨?_, by omega, by unfold regRegion; omega⟩
  rw [decodeAddr, allBlocks]
  rw [decodeIn_skip (b := blockRST) (a := 851968 + 0 + off) (find_none0 (by omega))]
  rw [decodeIn_skip (b := blockCLK) (a := 851968 + 0 + off) (find_none0 (by omega))]
  rw [decodeIn_skip (b := blockTHM) (a := 851968 + 0 + off) (find_none0 (by omega))]
  rw [decodeIn_skip (b := blockFLT) (a := 851968 + 0 + off) (find_none0 (by omega))]
  rw [decodeIn_skip (b := blockSEC) (a := 851968 + 0 + off) (find_none0 (by omega))]
  rw [decodeIn_skip (b := blockCSP) (a := 851968 + 0 + off) (find_none1 (by omega))]
  rw [decodeIn_skip (b := blockGPIO) (a := 851968 + 0 + off) (find_none0 (by omega))]
  rw [decodeIn_skip (b := blockMBX) (a := 851968 + 0 + off) (find_none0 (by omega))]
  rw [decodeIn_skip (b := blockSEM) (a := 851968 + 0 + off) (find_none0 (by omega))]
  rw [decodeIn_skip (b := blockIRQ) (a := 851968 + 0 + off) (find_none0 (by omega))]
  rw [decodeIn_skip (b := blockFAB) (a := 851968 + 0 + off) (find_none0 (by omega))]
  rw [decodeIn_skip (b := blockCFG) (a := 851968 + 0 + off) (find_none0 (by omega))]
  rw [decodeIn_skip (b := blockCEL) (a := 851968 + 0 + off) (find_none0 (by omega))]
  exact decodeIn_take hf hs

theorem blockPAN_ok : blockPAN.Ok := by
  intro u off hu ho hs
  have hu0 : u = 0 := by simp only [blockPAN, dimTotal] at hu; omega
  subst hu0
  have ho1 : off < 65536 := ho
  have ha : blockPAN.base + joinDims blockPAN.dims 0 + off = 917504 + 0 + off := rfl
  rw [ha]
  have hf : blockPAN.find (917504 + 0 + off) = blockPAN.at 0 off := by
    refine find_some (by simp only [blockPAN]; omega) ?_ ho
    simp [blockPAN, splitDims]
  refine ⟨?_, by omega, by unfold regRegion; omega⟩
  rw [decodeAddr, allBlocks]
  rw [decodeIn_skip (b := blockRST) (a := 917504 + 0 + off) (find_none0 (by omega))]
  rw [decodeIn_skip (b := blockCLK) (a := 917504 + 0 + off) (find_none0 (by omega))]
  rw [decodeIn_skip (b := blockTHM) (a := 917504 + 0 + off) (find_none0 (by omega))]
  rw [decodeIn_skip (b := blockFLT) (a := 917504 + 0 + off) (find_none0 (by omega))]
  rw [decodeIn_skip (b := blockSEC) (a := 917504 + 0 + off) (find_none0 (by omega))]
  rw [decodeIn_skip (b := blockCSP) (a := 917504 + 0 + off) (find_none1 (by omega))]
  rw [decodeIn_skip (b := blockGPIO) (a := 917504 + 0 + off) (find_none0 (by omega))]
  rw [decodeIn_skip (b := blockMBX) (a := 917504 + 0 + off) (find_none0 (by omega))]
  rw [decodeIn_skip (b := blockSEM) (a := 917504 + 0 + off) (find_none0 (by omega))]
  rw [decodeIn_skip (b := blockIRQ) (a := 917504 + 0 + off) (find_none0 (by omega))]
  rw [decodeIn_skip (b := blockFAB) (a := 917504 + 0 + off) (find_none0 (by omega))]
  rw [decodeIn_skip (b := blockCFG) (a := 917504 + 0 + off) (find_none0 (by omega))]
  rw [decodeIn_skip (b := blockCEL) (a := 917504 + 0 + off) (find_none0 (by omega))]
  rw [decodeIn_skip (b := blockSEQ) (a := 917504 + 0 + off) (find_none0 (by omega))]
  exact decodeIn_take hf hs

theorem blockACQ_ok : blockACQ.Ok := by
  intro u off hu ho hs
  have hu1 : u < 96 := by simpa [blockACQ, dimTotal] using hu
  have ho1 : off < 64 := ho
  have ha : blockACQ.base + joinDims blockACQ.dims u + off = 983040 + u * 64 + off := by simp [blockACQ, joinDims, dimTotal]
  rw [ha]
  have hf : blockACQ.find (983040 + u * 64 + off) = blockACQ.at u off := by
    refine find_some (by simp only [blockACQ]; omega) ?_ ho
    have e1 : (983040 + u * 64 + off - 983040) / 64 = u := by omega
    have e2 : (983040 + u * 64 + off - 983040) % 64 = off := by omega
    simp only [blockACQ, splitDims, e1, e2, hu1, if_true]; simp
  refine ⟨?_, by omega, by unfold regRegion; omega⟩
  rw [decodeAddr, allBlocks]
  rw [decodeIn_skip (b := blockRST) (a := 983040 + u * 64 + off) (find_none0 (by omega))]
  rw [decodeIn_skip (b := blockCLK) (a := 983040 + u * 64 + off) (find_none0 (by omega))]
  rw [decodeIn_skip (b := blockTHM) (a := 983040 + u * 64 + off) (find_none0 (by omega))]
  rw [decodeIn_skip (b := blockFLT) (a := 983040 + u * 64 + off) (find_none0 (by omega))]
  rw [decodeIn_skip (b := blockSEC) (a := 983040 + u * 64 + off) (find_none0 (by omega))]
  rw [decodeIn_skip (b := blockCSP) (a := 983040 + u * 64 + off) (find_none1 (by omega))]
  rw [decodeIn_skip (b := blockGPIO) (a := 983040 + u * 64 + off) (find_none0 (by omega))]
  rw [decodeIn_skip (b := blockMBX) (a := 983040 + u * 64 + off) (find_none0 (by omega))]
  rw [decodeIn_skip (b := blockSEM) (a := 983040 + u * 64 + off) (find_none0 (by omega))]
  rw [decodeIn_skip (b := blockIRQ) (a := 983040 + u * 64 + off) (find_none0 (by omega))]
  rw [decodeIn_skip (b := blockFAB) (a := 983040 + u * 64 + off) (find_none0 (by omega))]
  rw [decodeIn_skip (b := blockCFG) (a := 983040 + u * 64 + off) (find_none0 (by omega))]
  rw [decodeIn_skip (b := blockCEL) (a := 983040 + u * 64 + off) (find_none0 (by omega))]
  rw [decodeIn_skip (b := blockSEQ) (a := 983040 + u * 64 + off) (find_none0 (by omega))]
  rw [decodeIn_skip (b := blockPAN) (a := 983040 + u * 64 + off) (find_none0 (by omega))]
  exact decodeIn_take hf hs

theorem blockCHAN_ok : blockCHAN.Ok := by
  intro u off hu ho hs
  have hu1 : u < 512 := by simpa [blockCHAN, dimTotal] using hu
  have ho1 : off < 4096 := ho
  have ha : blockCHAN.base + joinDims blockCHAN.dims u + off = 268435456 + (u / 64 * 16777216 + u % 64 * 4096) + off := by simp [blockCHAN, joinDims, dimTotal]
  rw [ha]
  have hf : blockCHAN.find (268435456 + (u / 64 * 16777216 + u % 64 * 4096) + off) = blockCHAN.at u off := by
    refine find_some (by simp only [blockCHAN]; omega) ?_ ho
    have e1 : (268435456 + (u / 64 * 16777216 + u % 64 * 4096) + off - 268435456) / 16777216 = u / 64 := by omega
    have e2 : (268435456 + (u / 64 * 16777216 + u % 64 * 4096) + off - 268435456) % 16777216 / 4096 = u % 64 := by omega
    have e3 : (268435456 + (u / 64 * 16777216 + u % 64 * 4096) + off - 268435456) % 16777216 % 4096 = off := by omega
    have e4 : u / 64 < 8 := by omega
    have e5 : u % 64 < 64 := by omega
    have e6 : u / 64 * 64 + u % 64 = u := by omega
    simp only [blockCHAN, splitDims, e1, e2, e3, e4, e5, if_true, Nat.zero_mul, Nat.zero_add, e6]
  refine ⟨?_, by omega, by unfold regRegion; omega⟩
  rw [decodeAddr, allBlocks]
  rw [decodeIn_skip (b := blockRST) (a := 268435456 + (u / 64 * 16777216 + u % 64 * 4096) + off) (find_none0 (by omega))]
  rw [decodeIn_skip (b := blockCLK) (a := 268435456 + (u / 64 * 16777216 + u % 64 * 4096) + off) (find_none0 (by omega))]
  rw [decodeIn_skip (b := blockTHM) (a := 268435456 + (u / 64 * 16777216 + u % 64 * 4096) + off) (find_none0 (by omega))]
  rw [decodeIn_skip (b := blockFLT) (a := 268435456 + (u / 64 * 16777216 + u % 64 * 4096) + off) (find_none0 (by omega))]
  rw [decodeIn_skip (b := blockSEC) (a := 268435456 + (u / 64 * 16777216 + u % 64 * 4096) + off) (find_none0 (by omega))]
  rw [decodeIn_skip (b := blockCSP) (a := 268435456 + (u / 64 * 16777216 + u % 64 * 4096) + off) (find_none1 (by omega))]
  rw [decodeIn_skip (b := blockGPIO) (a := 268435456 + (u / 64 * 16777216 + u % 64 * 4096) + off) (find_none0 (by omega))]
  rw [decodeIn_skip (b := blockMBX) (a := 268435456 + (u / 64 * 16777216 + u % 64 * 4096) + off) (find_none0 (by omega))]
  rw [decodeIn_skip (b := blockSEM) (a := 268435456 + (u / 64 * 16777216 + u % 64 * 4096) + off) (find_none0 (by omega))]
  rw [decodeIn_skip (b := blockIRQ) (a := 268435456 + (u / 64 * 16777216 + u % 64 * 4096) + off) (find_none0 (by omega))]
  rw [decodeIn_skip (b := blockFAB) (a := 268435456 + (u / 64 * 16777216 + u % 64 * 4096) + off) (find_none0 (by omega))]
  rw [decodeIn_skip (b := blockCFG) (a := 268435456 + (u / 64 * 16777216 + u % 64 * 4096) + off) (find_none0 (by omega))]
  rw [decodeIn_skip (b := blockCEL) (a := 268435456 + (u / 64 * 16777216 + u % 64 * 4096) + off) (find_none0 (by omega))]
  rw [decodeIn_skip (b := blockSEQ) (a := 268435456 + (u / 64 * 16777216 + u % 64 * 4096) + off) (find_none0 (by omega))]
  rw [decodeIn_skip (b := blockPAN) (a := 268435456 + (u / 64 * 16777216 + u % 64 * 4096) + off) (find_none0 (by omega))]
  rw [decodeIn_skip (b := blockACQ) (a := 268435456 + (u / 64 * 16777216 + u % 64 * 4096) + off) (find_none1 (by omega))]
  exact decodeIn_take hf hs

theorem blockDPS_ok : blockDPS.Ok := by
  intro u off hu ho hs
  have hu1 : u < 64 := by simpa [blockDPS, dimTotal] using hu
  have ho1 : off < 256 := ho
  have ha : blockDPS.base + joinDims blockDPS.dims u + off = 272629760 + (u / 8 * 16777216 + u % 8 * 256) + off := by simp [blockDPS, joinDims, dimTotal]
  rw [ha]
  have hf : blockDPS.find (272629760 + (u / 8 * 16777216 + u % 8 * 256) + off) = blockDPS.at u off := by
    refine find_some (by simp only [blockDPS]; omega) ?_ ho
    have e1 : (272629760 + (u / 8 * 16777216 + u % 8 * 256) + off - 272629760) / 16777216 = u / 8 := by omega
    have e2 : (272629760 + (u / 8 * 16777216 + u % 8 * 256) + off - 272629760) % 16777216 / 256 = u % 8 := by omega
    have e3 : (272629760 + (u / 8 * 16777216 + u % 8 * 256) + off - 272629760) % 16777216 % 256 = off := by omega
    have e4 : u / 8 < 8 := by omega
    have e5 : u % 8 < 8 := by omega
    have e6 : u / 8 * 8 + u % 8 = u := by omega
    simp only [blockDPS, splitDims, e1, e2, e3, e4, e5, if_true, Nat.zero_mul, Nat.zero_add, e6]
  refine ⟨?_, by omega, by unfold regRegion; omega⟩
  rw [decodeAddr, allBlocks]
  rw [decodeIn_skip (b := blockRST) (a := 272629760 + (u / 8 * 16777216 + u % 8 * 256) + off) (find_none0 (by omega))]
  rw [decodeIn_skip (b := blockCLK) (a := 272629760 + (u / 8 * 16777216 + u % 8 * 256) + off) (find_none0 (by omega))]
  rw [decodeIn_skip (b := blockTHM) (a := 272629760 + (u / 8 * 16777216 + u % 8 * 256) + off) (find_none0 (by omega))]
  rw [decodeIn_skip (b := blockFLT) (a := 272629760 + (u / 8 * 16777216 + u % 8 * 256) + off) (find_none0 (by omega))]
  rw [decodeIn_skip (b := blockSEC) (a := 272629760 + (u / 8 * 16777216 + u % 8 * 256) + off) (find_none0 (by omega))]
  rw [decodeIn_skip (b := blockCSP) (a := 272629760 + (u / 8 * 16777216 + u % 8 * 256) + off) (find_none1 (by omega))]
  rw [decodeIn_skip (b := blockGPIO) (a := 272629760 + (u / 8 * 16777216 + u % 8 * 256) + off) (find_none0 (by omega))]
  rw [decodeIn_skip (b := blockMBX) (a := 272629760 + (u / 8 * 16777216 + u % 8 * 256) + off) (find_none0 (by omega))]
  rw [decodeIn_skip (b := blockSEM) (a := 272629760 + (u / 8 * 16777216 + u % 8 * 256) + off) (find_none0 (by omega))]
  rw [decodeIn_skip (b := blockIRQ) (a := 272629760 + (u / 8 * 16777216 + u % 8 * 256) + off) (find_none0 (by omega))]
  rw [decodeIn_skip (b := blockFAB) (a := 272629760 + (u / 8 * 16777216 + u % 8 * 256) + off) (find_none0 (by omega))]
  rw [decodeIn_skip (b := blockCFG) (a := 272629760 + (u / 8 * 16777216 + u % 8 * 256) + off) (find_none0 (by omega))]
  rw [decodeIn_skip (b := blockCEL) (a := 272629760 + (u / 8 * 16777216 + u % 8 * 256) + off) (find_none0 (by omega))]
  rw [decodeIn_skip (b := blockSEQ) (a := 272629760 + (u / 8 * 16777216 + u % 8 * 256) + off) (find_none0 (by omega))]
  rw [decodeIn_skip (b := blockPAN) (a := 272629760 + (u / 8 * 16777216 + u % 8 * 256) + off) (find_none0 (by omega))]
  rw [decodeIn_skip (b := blockACQ) (a := 272629760 + (u / 8 * 16777216 + u % 8 * 256) + off) (find_none1 (by omega))]
  rw [decodeIn_skip (b := blockCHAN) (a := 272629760 + (u / 8 * 16777216 + u % 8 * 256) + off) (find_none2 (by omega))]
  exact decodeIn_take hf hs

theorem blockSMU_ok : blockSMU.Ok := by
  intro u off hu ho hs
  have hu1 : u < 32 := by simpa [blockSMU, dimTotal] using hu
  have ho1 : off < 256 := ho
  have ha : blockSMU.base + joinDims blockSMU.dims u + off = 273678336 + (u / 4 * 16777216 + u % 4 * 256) + off := by simp [blockSMU, joinDims, dimTotal]
  rw [ha]
  have hf : blockSMU.find (273678336 + (u / 4 * 16777216 + u % 4 * 256) + off) = blockSMU.at u off := by
    refine find_some (by simp only [blockSMU]; omega) ?_ ho
    have e1 : (273678336 + (u / 4 * 16777216 + u % 4 * 256) + off - 273678336) / 16777216 = u / 4 := by omega
    have e2 : (273678336 + (u / 4 * 16777216 + u % 4 * 256) + off - 273678336) % 16777216 / 256 = u % 4 := by omega
    have e3 : (273678336 + (u / 4 * 16777216 + u % 4 * 256) + off - 273678336) % 16777216 % 256 = off := by omega
    have e4 : u / 4 < 8 := by omega
    have e5 : u % 4 < 4 := by omega
    have e6 : u / 4 * 4 + u % 4 = u := by omega
    simp only [blockSMU, splitDims, e1, e2, e3, e4, e5, if_true, Nat.zero_mul, Nat.zero_add, e6]
  refine ⟨?_, by omega, by unfold regRegion; omega⟩
  rw [decodeAddr, allBlocks]
  rw [decodeIn_skip (b := blockRST) (a := 273678336 + (u / 4 * 16777216 + u % 4 * 256) + off) (find_none0 (by omega))]
  rw [decodeIn_skip (b := blockCLK) (a := 273678336 + (u / 4 * 16777216 + u % 4 * 256) + off) (find_none0 (by omega))]
  rw [decodeIn_skip (b := blockTHM) (a := 273678336 + (u / 4 * 16777216 + u % 4 * 256) + off) (find_none0 (by omega))]
  rw [decodeIn_skip (b := blockFLT) (a := 273678336 + (u / 4 * 16777216 + u % 4 * 256) + off) (find_none0 (by omega))]
  rw [decodeIn_skip (b := blockSEC) (a := 273678336 + (u / 4 * 16777216 + u % 4 * 256) + off) (find_none0 (by omega))]
  rw [decodeIn_skip (b := blockCSP) (a := 273678336 + (u / 4 * 16777216 + u % 4 * 256) + off) (find_none1 (by omega))]
  rw [decodeIn_skip (b := blockGPIO) (a := 273678336 + (u / 4 * 16777216 + u % 4 * 256) + off) (find_none0 (by omega))]
  rw [decodeIn_skip (b := blockMBX) (a := 273678336 + (u / 4 * 16777216 + u % 4 * 256) + off) (find_none0 (by omega))]
  rw [decodeIn_skip (b := blockSEM) (a := 273678336 + (u / 4 * 16777216 + u % 4 * 256) + off) (find_none0 (by omega))]
  rw [decodeIn_skip (b := blockIRQ) (a := 273678336 + (u / 4 * 16777216 + u % 4 * 256) + off) (find_none0 (by omega))]
  rw [decodeIn_skip (b := blockFAB) (a := 273678336 + (u / 4 * 16777216 + u % 4 * 256) + off) (find_none0 (by omega))]
  rw [decodeIn_skip (b := blockCFG) (a := 273678336 + (u / 4 * 16777216 + u % 4 * 256) + off) (find_none0 (by omega))]
  rw [decodeIn_skip (b := blockCEL) (a := 273678336 + (u / 4 * 16777216 + u % 4 * 256) + off) (find_none0 (by omega))]
  rw [decodeIn_skip (b := blockSEQ) (a := 273678336 + (u / 4 * 16777216 + u % 4 * 256) + off) (find_none0 (by omega))]
  rw [decodeIn_skip (b := blockPAN) (a := 273678336 + (u / 4 * 16777216 + u % 4 * 256) + off) (find_none0 (by omega))]
  rw [decodeIn_skip (b := blockACQ) (a := 273678336 + (u / 4 * 16777216 + u % 4 * 256) + off) (find_none1 (by omega))]
  rw [decodeIn_skip (b := blockCHAN) (a := 273678336 + (u / 4 * 16777216 + u % 4 * 256) + off) (find_none2 (by omega))]
  rw [decodeIn_skip (b := blockDPS) (a := 273678336 + (u / 4 * 16777216 + u % 4 * 256) + off) (find_none2 (by omega))]
  exact decodeIn_take hf hs

theorem blockTDC_ok : blockTDC.Ok := by
  intro u off hu ho hs
  have hu1 : u < 128 := by simpa [blockTDC, dimTotal] using hu
  have ho1 : off < 256 := ho
  have ha : blockTDC.base + joinDims blockTDC.dims u + off = 274726912 + (u / 16 * 16777216 + u % 16 * 256) + off := by simp [blockTDC, joinDims, dimTotal]
  rw [ha]
  have hf : blockTDC.find (274726912 + (u / 16 * 16777216 + u % 16 * 256) + off) = blockTDC.at u off := by
    refine find_some (by simp only [blockTDC]; omega) ?_ ho
    have e1 : (274726912 + (u / 16 * 16777216 + u % 16 * 256) + off - 274726912) / 16777216 = u / 16 := by omega
    have e2 : (274726912 + (u / 16 * 16777216 + u % 16 * 256) + off - 274726912) % 16777216 / 256 = u % 16 := by omega
    have e3 : (274726912 + (u / 16 * 16777216 + u % 16 * 256) + off - 274726912) % 16777216 % 256 = off := by omega
    have e4 : u / 16 < 8 := by omega
    have e5 : u % 16 < 16 := by omega
    have e6 : u / 16 * 16 + u % 16 = u := by omega
    simp only [blockTDC, splitDims, e1, e2, e3, e4, e5, if_true, Nat.zero_mul, Nat.zero_add, e6]
  refine ⟨?_, by omega, by unfold regRegion; omega⟩
  rw [decodeAddr, allBlocks]
  rw [decodeIn_skip (b := blockRST) (a := 274726912 + (u / 16 * 16777216 + u % 16 * 256) + off) (find_none0 (by omega))]
  rw [decodeIn_skip (b := blockCLK) (a := 274726912 + (u / 16 * 16777216 + u % 16 * 256) + off) (find_none0 (by omega))]
  rw [decodeIn_skip (b := blockTHM) (a := 274726912 + (u / 16 * 16777216 + u % 16 * 256) + off) (find_none0 (by omega))]
  rw [decodeIn_skip (b := blockFLT) (a := 274726912 + (u / 16 * 16777216 + u % 16 * 256) + off) (find_none0 (by omega))]
  rw [decodeIn_skip (b := blockSEC) (a := 274726912 + (u / 16 * 16777216 + u % 16 * 256) + off) (find_none0 (by omega))]
  rw [decodeIn_skip (b := blockCSP) (a := 274726912 + (u / 16 * 16777216 + u % 16 * 256) + off) (find_none1 (by omega))]
  rw [decodeIn_skip (b := blockGPIO) (a := 274726912 + (u / 16 * 16777216 + u % 16 * 256) + off) (find_none0 (by omega))]
  rw [decodeIn_skip (b := blockMBX) (a := 274726912 + (u / 16 * 16777216 + u % 16 * 256) + off) (find_none0 (by omega))]
  rw [decodeIn_skip (b := blockSEM) (a := 274726912 + (u / 16 * 16777216 + u % 16 * 256) + off) (find_none0 (by omega))]
  rw [decodeIn_skip (b := blockIRQ) (a := 274726912 + (u / 16 * 16777216 + u % 16 * 256) + off) (find_none0 (by omega))]
  rw [decodeIn_skip (b := blockFAB) (a := 274726912 + (u / 16 * 16777216 + u % 16 * 256) + off) (find_none0 (by omega))]
  rw [decodeIn_skip (b := blockCFG) (a := 274726912 + (u / 16 * 16777216 + u % 16 * 256) + off) (find_none0 (by omega))]
  rw [decodeIn_skip (b := blockCEL) (a := 274726912 + (u / 16 * 16777216 + u % 16 * 256) + off) (find_none0 (by omega))]
  rw [decodeIn_skip (b := blockSEQ) (a := 274726912 + (u / 16 * 16777216 + u % 16 * 256) + off) (find_none0 (by omega))]
  rw [decodeIn_skip (b := blockPAN) (a := 274726912 + (u / 16 * 16777216 + u % 16 * 256) + off) (find_none0 (by omega))]
  rw [decodeIn_skip (b := blockACQ) (a := 274726912 + (u / 16 * 16777216 + u % 16 * 256) + off) (find_none1 (by omega))]
  rw [decodeIn_skip (b := blockCHAN) (a := 274726912 + (u / 16 * 16777216 + u % 16 * 256) + off) (find_none2 (by omega))]
  rw [decodeIn_skip (b := blockDPS) (a := 274726912 + (u / 16 * 16777216 + u % 16 * 256) + off) (find_none2 (by omega))]
  rw [decodeIn_skip (b := blockSMU) (a := 274726912 + (u / 16 * 16777216 + u % 16 * 256) + off) (find_none2 (by omega))]
  exact decodeIn_take hf hs

theorem blockMON_ok : blockMON.Ok := by
  intro u off hu ho hs
  have hu1 : u < 160 := by simpa [blockMON, dimTotal] using hu
  have ho1 : off < 64 := ho
  have ha : blockMON.base + joinDims blockMON.dims u + off = 275775488 + (u / 20 * 16777216 + u % 20 * 64) + off := by simp [blockMON, joinDims, dimTotal]
  rw [ha]
  have hf : blockMON.find (275775488 + (u / 20 * 16777216 + u % 20 * 64) + off) = blockMON.at u off := by
    refine find_some (by simp only [blockMON]; omega) ?_ ho
    have e1 : (275775488 + (u / 20 * 16777216 + u % 20 * 64) + off - 275775488) / 16777216 = u / 20 := by omega
    have e2 : (275775488 + (u / 20 * 16777216 + u % 20 * 64) + off - 275775488) % 16777216 / 64 = u % 20 := by omega
    have e3 : (275775488 + (u / 20 * 16777216 + u % 20 * 64) + off - 275775488) % 16777216 % 64 = off := by omega
    have e4 : u / 20 < 8 := by omega
    have e5 : u % 20 < 20 := by omega
    have e6 : u / 20 * 20 + u % 20 = u := by omega
    simp only [blockMON, splitDims, e1, e2, e3, e4, e5, if_true, Nat.zero_mul, Nat.zero_add, e6]
  refine ⟨?_, by omega, by unfold regRegion; omega⟩
  rw [decodeAddr, allBlocks]
  rw [decodeIn_skip (b := blockRST) (a := 275775488 + (u / 20 * 16777216 + u % 20 * 64) + off) (find_none0 (by omega))]
  rw [decodeIn_skip (b := blockCLK) (a := 275775488 + (u / 20 * 16777216 + u % 20 * 64) + off) (find_none0 (by omega))]
  rw [decodeIn_skip (b := blockTHM) (a := 275775488 + (u / 20 * 16777216 + u % 20 * 64) + off) (find_none0 (by omega))]
  rw [decodeIn_skip (b := blockFLT) (a := 275775488 + (u / 20 * 16777216 + u % 20 * 64) + off) (find_none0 (by omega))]
  rw [decodeIn_skip (b := blockSEC) (a := 275775488 + (u / 20 * 16777216 + u % 20 * 64) + off) (find_none0 (by omega))]
  rw [decodeIn_skip (b := blockCSP) (a := 275775488 + (u / 20 * 16777216 + u % 20 * 64) + off) (find_none1 (by omega))]
  rw [decodeIn_skip (b := blockGPIO) (a := 275775488 + (u / 20 * 16777216 + u % 20 * 64) + off) (find_none0 (by omega))]
  rw [decodeIn_skip (b := blockMBX) (a := 275775488 + (u / 20 * 16777216 + u % 20 * 64) + off) (find_none0 (by omega))]
  rw [decodeIn_skip (b := blockSEM) (a := 275775488 + (u / 20 * 16777216 + u % 20 * 64) + off) (find_none0 (by omega))]
  rw [decodeIn_skip (b := blockIRQ) (a := 275775488 + (u / 20 * 16777216 + u % 20 * 64) + off) (find_none0 (by omega))]
  rw [decodeIn_skip (b := blockFAB) (a := 275775488 + (u / 20 * 16777216 + u % 20 * 64) + off) (find_none0 (by omega))]
  rw [decodeIn_skip (b := blockCFG) (a := 275775488 + (u / 20 * 16777216 + u % 20 * 64) + off) (find_none0 (by omega))]
  rw [decodeIn_skip (b := blockCEL) (a := 275775488 + (u / 20 * 16777216 + u % 20 * 64) + off) (find_none0 (by omega))]
  rw [decodeIn_skip (b := blockSEQ) (a := 275775488 + (u / 20 * 16777216 + u % 20 * 64) + off) (find_none0 (by omega))]
  rw [decodeIn_skip (b := blockPAN) (a := 275775488 + (u / 20 * 16777216 + u % 20 * 64) + off) (find_none0 (by omega))]
  rw [decodeIn_skip (b := blockACQ) (a := 275775488 + (u / 20 * 16777216 + u % 20 * 64) + off) (find_none1 (by omega))]
  rw [decodeIn_skip (b := blockCHAN) (a := 275775488 + (u / 20 * 16777216 + u % 20 * 64) + off) (find_none2 (by omega))]
  rw [decodeIn_skip (b := blockDPS) (a := 275775488 + (u / 20 * 16777216 + u % 20 * 64) + off) (find_none2 (by omega))]
  rw [decodeIn_skip (b := blockSMU) (a := 275775488 + (u / 20 * 16777216 + u % 20 * 64) + off) (find_none2 (by omega))]
  rw [decodeIn_skip (b := blockTDC) (a := 275775488 + (u / 20 * 16777216 + u % 20 * 64) + off) (find_none2 (by omega))]
  exact decodeIn_take hf hs

theorem blockTILEMON_ok : blockTILEMON.Ok := by
  intro u off hu ho hs
  have hu1 : u < 8 := by simpa [blockTILEMON, dimTotal] using hu
  have ho1 : off < 256 := ho
  have ha : blockTILEMON.base + joinDims blockTILEMON.dims u + off = 275777536 + u * 16777216 + off := by simp [blockTILEMON, joinDims, dimTotal]
  rw [ha]
  have hf : blockTILEMON.find (275777536 + u * 16777216 + off) = blockTILEMON.at u off := by
    refine find_some (by simp only [blockTILEMON]; omega) ?_ ho
    have e1 : (275777536 + u * 16777216 + off - 275777536) / 16777216 = u := by omega
    have e2 : (275777536 + u * 16777216 + off - 275777536) % 16777216 = off := by omega
    simp only [blockTILEMON, splitDims, e1, e2, hu1, if_true]; simp
  refine ⟨?_, by omega, by unfold regRegion; omega⟩
  rw [decodeAddr, allBlocks]
  rw [decodeIn_skip (b := blockRST) (a := 275777536 + u * 16777216 + off) (find_none0 (by omega))]
  rw [decodeIn_skip (b := blockCLK) (a := 275777536 + u * 16777216 + off) (find_none0 (by omega))]
  rw [decodeIn_skip (b := blockTHM) (a := 275777536 + u * 16777216 + off) (find_none0 (by omega))]
  rw [decodeIn_skip (b := blockFLT) (a := 275777536 + u * 16777216 + off) (find_none0 (by omega))]
  rw [decodeIn_skip (b := blockSEC) (a := 275777536 + u * 16777216 + off) (find_none0 (by omega))]
  rw [decodeIn_skip (b := blockCSP) (a := 275777536 + u * 16777216 + off) (find_none1 (by omega))]
  rw [decodeIn_skip (b := blockGPIO) (a := 275777536 + u * 16777216 + off) (find_none0 (by omega))]
  rw [decodeIn_skip (b := blockMBX) (a := 275777536 + u * 16777216 + off) (find_none0 (by omega))]
  rw [decodeIn_skip (b := blockSEM) (a := 275777536 + u * 16777216 + off) (find_none0 (by omega))]
  rw [decodeIn_skip (b := blockIRQ) (a := 275777536 + u * 16777216 + off) (find_none0 (by omega))]
  rw [decodeIn_skip (b := blockFAB) (a := 275777536 + u * 16777216 + off) (find_none0 (by omega))]
  rw [decodeIn_skip (b := blockCFG) (a := 275777536 + u * 16777216 + off) (find_none0 (by omega))]
  rw [decodeIn_skip (b := blockCEL) (a := 275777536 + u * 16777216 + off) (find_none0 (by omega))]
  rw [decodeIn_skip (b := blockSEQ) (a := 275777536 + u * 16777216 + off) (find_none0 (by omega))]
  rw [decodeIn_skip (b := blockPAN) (a := 275777536 + u * 16777216 + off) (find_none0 (by omega))]
  rw [decodeIn_skip (b := blockACQ) (a := 275777536 + u * 16777216 + off) (find_none1 (by omega))]
  rw [decodeIn_skip (b := blockCHAN) (a := 275777536 + u * 16777216 + off) (find_none2 (by omega))]
  rw [decodeIn_skip (b := blockDPS) (a := 275777536 + u * 16777216 + off) (find_none2 (by omega))]
  rw [decodeIn_skip (b := blockSMU) (a := 275777536 + u * 16777216 + off) (find_none2 (by omega))]
  rw [decodeIn_skip (b := blockTDC) (a := 275777536 + u * 16777216 + off) (find_none2 (by omega))]
  rw [decodeIn_skip (b := blockMON) (a := 275777536 + u * 16777216 + off) (find_none2 (by omega))]
  exact decodeIn_take hf hs

theorem blockTILECAL_ok : blockTILECAL.Ok := by
  intro u off hu ho hs
  have hu1 : u < 8 := by simpa [blockTILECAL, dimTotal] using hu
  have ho1 : off < 4096 := ho
  have ha : blockTILECAL.base + joinDims blockTILECAL.dims u + off = 276824064 + u * 16777216 + off := by simp [blockTILECAL, joinDims, dimTotal]
  rw [ha]
  have hf : blockTILECAL.find (276824064 + u * 16777216 + off) = blockTILECAL.at u off := by
    refine find_some (by simp only [blockTILECAL]; omega) ?_ ho
    have e1 : (276824064 + u * 16777216 + off - 276824064) / 16777216 = u := by omega
    have e2 : (276824064 + u * 16777216 + off - 276824064) % 16777216 = off := by omega
    simp only [blockTILECAL, splitDims, e1, e2, hu1, if_true]; simp
  refine ⟨?_, by omega, by unfold regRegion; omega⟩
  rw [decodeAddr, allBlocks]
  rw [decodeIn_skip (b := blockRST) (a := 276824064 + u * 16777216 + off) (find_none0 (by omega))]
  rw [decodeIn_skip (b := blockCLK) (a := 276824064 + u * 16777216 + off) (find_none0 (by omega))]
  rw [decodeIn_skip (b := blockTHM) (a := 276824064 + u * 16777216 + off) (find_none0 (by omega))]
  rw [decodeIn_skip (b := blockFLT) (a := 276824064 + u * 16777216 + off) (find_none0 (by omega))]
  rw [decodeIn_skip (b := blockSEC) (a := 276824064 + u * 16777216 + off) (find_none0 (by omega))]
  rw [decodeIn_skip (b := blockCSP) (a := 276824064 + u * 16777216 + off) (find_none1 (by omega))]
  rw [decodeIn_skip (b := blockGPIO) (a := 276824064 + u * 16777216 + off) (find_none0 (by omega))]
  rw [decodeIn_skip (b := blockMBX) (a := 276824064 + u * 16777216 + off) (find_none0 (by omega))]
  rw [decodeIn_skip (b := blockSEM) (a := 276824064 + u * 16777216 + off) (find_none0 (by omega))]
  rw [decodeIn_skip (b := blockIRQ) (a := 276824064 + u * 16777216 + off) (find_none0 (by omega))]
  rw [decodeIn_skip (b := blockFAB) (a := 276824064 + u * 16777216 + off) (find_none0 (by omega))]
  rw [decodeIn_skip (b := blockCFG) (a := 276824064 + u * 16777216 + off) (find_none0 (by omega))]
  rw [decodeIn_skip (b := blockCEL) (a := 276824064 + u * 16777216 + off) (find_none0 (by omega))]
  rw [decodeIn_skip (b := blockSEQ) (a := 276824064 + u * 16777216 + off) (find_none0 (by omega))]
  rw [decodeIn_skip (b := blockPAN) (a := 276824064 + u * 16777216 + off) (find_none0 (by omega))]
  rw [decodeIn_skip (b := blockACQ) (a := 276824064 + u * 16777216 + off) (find_none1 (by omega))]
  rw [decodeIn_skip (b := blockCHAN) (a := 276824064 + u * 16777216 + off) (find_none2 (by omega))]
  rw [decodeIn_skip (b := blockDPS) (a := 276824064 + u * 16777216 + off) (find_none2 (by omega))]
  rw [decodeIn_skip (b := blockSMU) (a := 276824064 + u * 16777216 + off) (find_none2 (by omega))]
  rw [decodeIn_skip (b := blockTDC) (a := 276824064 + u * 16777216 + off) (find_none2 (by omega))]
  rw [decodeIn_skip (b := blockMON) (a := 276824064 + u * 16777216 + off) (find_none2 (by omega))]
  rw [decodeIn_skip (b := blockTILEMON) (a := 276824064 + u * 16777216 + off) (find_none1 (by omega))]
  exact decodeIn_take hf hs

theorem blockENG_ok : blockENG.Ok := by
  intro u off hu ho hs
  have hu1 : u < 64 := by simpa [blockENG, dimTotal] using hu
  have ho1 : off < 256 := ho
  have ha : blockENG.base + joinDims blockENG.dims u + off = 537395200 + u * 1048576 + off := by simp [blockENG, joinDims, dimTotal]
  rw [ha]
  have hf : blockENG.find (537395200 + u * 1048576 + off) = blockENG.at u off := by
    refine find_some (by simp only [blockENG]; omega) ?_ ho
    have e1 : (537395200 + u * 1048576 + off - 537395200) / 1048576 = u := by omega
    have e2 : (537395200 + u * 1048576 + off - 537395200) % 1048576 = off := by omega
    simp only [blockENG, splitDims, e1, e2, hu1, if_true]; simp
  refine ⟨?_, by omega, by unfold regRegion; omega⟩
  rw [decodeAddr, allBlocks]
  rw [decodeIn_skip (b := blockRST) (a := 537395200 + u * 1048576 + off) (find_none0 (by omega))]
  rw [decodeIn_skip (b := blockCLK) (a := 537395200 + u * 1048576 + off) (find_none0 (by omega))]
  rw [decodeIn_skip (b := blockTHM) (a := 537395200 + u * 1048576 + off) (find_none0 (by omega))]
  rw [decodeIn_skip (b := blockFLT) (a := 537395200 + u * 1048576 + off) (find_none0 (by omega))]
  rw [decodeIn_skip (b := blockSEC) (a := 537395200 + u * 1048576 + off) (find_none0 (by omega))]
  rw [decodeIn_skip (b := blockCSP) (a := 537395200 + u * 1048576 + off) (find_none1 (by omega))]
  rw [decodeIn_skip (b := blockGPIO) (a := 537395200 + u * 1048576 + off) (find_none0 (by omega))]
  rw [decodeIn_skip (b := blockMBX) (a := 537395200 + u * 1048576 + off) (find_none0 (by omega))]
  rw [decodeIn_skip (b := blockSEM) (a := 537395200 + u * 1048576 + off) (find_none0 (by omega))]
  rw [decodeIn_skip (b := blockIRQ) (a := 537395200 + u * 1048576 + off) (find_none0 (by omega))]
  rw [decodeIn_skip (b := blockFAB) (a := 537395200 + u * 1048576 + off) (find_none0 (by omega))]
  rw [decodeIn_skip (b := blockCFG) (a := 537395200 + u * 1048576 + off) (find_none0 (by omega))]
  rw [decodeIn_skip (b := blockCEL) (a := 537395200 + u * 1048576 + off) (find_none0 (by omega))]
  rw [decodeIn_skip (b := blockSEQ) (a := 537395200 + u * 1048576 + off) (find_none0 (by omega))]
  rw [decodeIn_skip (b := blockPAN) (a := 537395200 + u * 1048576 + off) (find_none0 (by omega))]
  rw [decodeIn_skip (b := blockACQ) (a := 537395200 + u * 1048576 + off) (find_none1 (by omega))]
  rw [decodeIn_skip (b := blockCHAN) (a := 537395200 + u * 1048576 + off) (find_none2 (by omega))]
  rw [decodeIn_skip (b := blockDPS) (a := 537395200 + u * 1048576 + off) (find_none2 (by omega))]
  rw [decodeIn_skip (b := blockSMU) (a := 537395200 + u * 1048576 + off) (find_none2 (by omega))]
  rw [decodeIn_skip (b := blockTDC) (a := 537395200 + u * 1048576 + off) (find_none2 (by omega))]
  rw [decodeIn_skip (b := blockMON) (a := 537395200 + u * 1048576 + off) (find_none2 (by omega))]
  rw [decodeIn_skip (b := blockTILEMON) (a := 537395200 + u * 1048576 + off) (find_none1 (by omega))]
  rw [decodeIn_skip (b := blockTILECAL) (a := 537395200 + u * 1048576 + off) (find_none1 (by omega))]
  exact decodeIn_take hf hs

/-- The slot of a register is read back: each of its places decodes to the register's own number there. -/
def slotReads (b : Block) (sl : Slot) : Bool :=
  (List.range (dimTotal sl.dims)).all (fun j =>
    decide (findSlot b.slots (sl.off + joinDims sl.dims j) = some (sl, j)) && decide (sl.off + joinDims sl.dims j < b.span)
      && (sl.off + joinDims sl.dims j) % 4 == 0)

/-- The address of an instance of a register: aligned, in a region of registers, and decoded back. -/
def RegOk (r : RegName) (i : Nat) : Prop :=
  addrOf r i % 4 = 0 ∧ decodeAddr (addrOf r i) = some (r, i) ∧ regRegion (addrOf r i)

theorem regOk_of {r : RegName} {b : Block} {sl : Slot} {i : Nat} (hb : r.block = b) (hb' : b.Ok) (hs : slotOf r b.slots = sl)
    (hr : sl.reg = r) (h : slotReads b sl = true) (hi : i < dimTotal b.dims * dimTotal sl.dims) : RegOk r i := by
  subst hb
  have hd : 0 < dimTotal sl.dims := Nat.pos_of_ne_zero (fun e => by simp [e] at hi)
  have hj : i % dimTotal sl.dims < dimTotal sl.dims := Nat.mod_lt _ hd
  have hu : i / dimTotal sl.dims < dimTotal r.block.dims := Nat.div_lt_of_lt_mul (Nat.mul_comm _ _ ▸ hi)
  have hx := List.all_eq_true.1 h (i % dimTotal sl.dims) (List.mem_range.2 hj)
  simp only [Bool.and_eq_true, decide_eq_true_eq, beq_iff_eq] at hx
  obtain ⟨⟨h1, h2⟩, h3⟩ := hx
  have hat : r.block.at (i / dimTotal sl.dims) (sl.off + joinDims sl.dims (i % dimTotal sl.dims)) = some (r, i) := by
    simp only [Block.at, h1, hr, Nat.div_add_mod']
  have ha : addrOf r i = r.block.base + joinDims r.block.dims (i / dimTotal sl.dims)
      + (sl.off + joinDims sl.dims (i % dimTotal sl.dims)) := by
    simp only [addrOf, hs, Nat.add_assoc]
  obtain ⟨g1, g2, g3⟩ := hb' _ _ hu h2 (by rw [hat]; rfl)
  exact ⟨by rw [ha, g2, h3], by rw [ha, g1, hat], by rw [ha]; exact g3⟩

end Sys2Proof.Machine
end

