-- ==== Sys2Proof/Laws/Fields.lean ====
section
/-!
SUPPORT. The sparse stores and the field file: what a read gives after a write, and that writes keep the
canonical form.  The small lemmas that every proof about a command cites.
-/

set_option Elab.async false
set_option linter.all false

namespace Sys2Proof.Machine

theorem lookKey_insKey_self {α : Type} (k : Nat) (v : α) (l : List (Nat × α)) : lookKey k (insKey k v l) = some v := by
  induction l with
  | nil => simp [insKey, lookKey]
  | cons a t ih =>
    obtain ⟨k', v'⟩ := a
    unfold insKey
    split
    · simp [lookKey]
    · split
      · simp [lookKey]
      · simp [lookKey, *]

theorem lookKey_insKey_ne {α : Type} {j k : Nat} (h : j ≠ k) (v : α) (l : List (Nat × α)) :
    lookKey j (insKey k v l) = lookKey j l := by
  induction l with
  | nil => simp [insKey, lookKey, h.symm]
  | cons a t ih =>
    obtain ⟨k', v'⟩ := a
    unfold insKey
    split
    · next e => subst e; simp [lookKey, h.symm]
    · split
      · simp [lookKey, h.symm]
      · simp [lookKey, ih]

theorem lookKey_delKey_self {α : Type} (k : Nat) (l : List (Nat × α)) : lookKey k (delKey k l) = none := by
  induction l with
  | nil => rfl
  | cons a t ih =>
    obtain ⟨k', v'⟩ := a
    by_cases h : k' = k
    · simpa [delKey, h] using ih
    · simpa [delKey, lookKey, h] using ih

theorem lookKey_delKey_ne {α : Type} {j k : Nat} (h : j ≠ k) (l : List (Nat × α)) :
    lookKey j (delKey k l) = lookKey j l := by
  induction l with
  | nil => rfl
  | cons a t ih =>
    obtain ⟨k', v'⟩ := a
    by_cases h' : k' = k
    · subst h'; simpa [delKey, lookKey, h.symm] using ih
    · by_cases hj : k' = j
      · subst hj; simp [delKey, lookKey, h]
      · simpa [delKey, lookKey, h', hj] using ih

/-- A key reads as written. -/
theorem lookKey_storeKey_self {α : Type} [DecidableEq α] (d : α) (k : Nat) (v : α) (l : List (Nat × α)) :
    (lookKey k (storeKey d k v l)).getD d = v := by
  unfold storeKey
  split
  · next e => simp [lookKey_delKey_self, e]
  · simp [lookKey_insKey_self]

/-- Every other key reads as before. -/
theorem lookKey_storeKey_ne {α : Type} [DecidableEq α] (d : α) {j k : Nat} (h : j ≠ k) (v : α) (l : List (Nat × α)) :
    lookKey j (storeKey d k v l) = lookKey j l := by
  unfold storeKey
  split
  · exact lookKey_delKey_ne h l
  · exact lookKey_insKey_ne h v l

theorem keysRise_tail {α : Type} (a : Nat × α) (t : List (Nat × α)) (h : keysRise (a :: t) = true) :
    keysRise t = true := by
  cases t with
  | nil => rfl
  | cons b t => simp [keysRise] at h; exact h.2

theorem keysRise_cons {α : Type} (a : Nat × α) (t : List (Nat × α)) :
    keysRise (a :: t) = true ↔ (∀ p ∈ t, a.1 < p.1) ∧ keysRise t = true := by
  induction t generalizing a with
  | nil => simp [keysRise]
  | cons b t ih =>
    simp only [keysRise, Bool.and_eq_true, decide_eq_true_eq, List.mem_cons, forall_eq_or_imp]
    constructor
    · rintro ⟨h1, h2⟩
      exact ⟨⟨h1, fun p hp => Nat.lt_trans h1 ((ih b).1 h2 |>.1 p hp)⟩, h2⟩
    · rintro ⟨⟨h1, _⟩, h2⟩
      exact ⟨h1, h2⟩

theorem mem_insKey {α : Type} {k : Nat} {v : α} {l : List (Nat × α)} {p : Nat × α} (h : p ∈ insKey k v l) :
    p = (k, v) ∨ p ∈ l := by
  induction l with
  | nil => simp [insKey] at h; exact .inl h
  | cons a t ih =>
    obtain ⟨k', v'⟩ := a
    unfold insKey at h
    split at h
    · rcases List.mem_cons.1 h with h | h
      · exact .inl h
      · exact .inr (List.mem_cons_of_mem _ h)
    · split at h
      · rcases List.mem_cons.1 h with h | h
        · exact .inl h
        · exact .inr h
      · rcases List.mem_cons.1 h with h | h
        · exact .inr (by rw [h]; exact List.mem_cons_self)
        · rcases ih h with h | h
          · exact .inl h
          · exact .inr (List.mem_cons_of_mem _ h)

theorem keysRise_insKey {α : Type} (k : Nat) (v : α) (l : List (Nat × α)) (h : keysRise l = true) :
    keysRise (insKey k v l) = true := by
  induction l with
  | nil => rfl
  | cons a t ih =>
    obtain ⟨k', v'⟩ := a
    have ht := (keysRise_cons _ _).1 h
    unfold insKey
    split
    · next e => subst e; exact (keysRise_cons _ _).2 ht
    · split
      · next hk =>
        refine (keysRise_cons _ _).2 ⟨fun p hp => ?_, h⟩
        rcases List.mem_cons.1 hp with hp | hp
        · rw [hp]; exact hk
        · exact Nat.lt_trans hk (ht.1 p hp)
      · next hne hlt =>
        refine (keysRise_cons _ _).2 ⟨fun p hp => ?_, ih ht.2⟩
        rcases mem_insKey hp with hp | hp
        · rw [hp]; exact Nat.lt_of_le_of_ne (Nat.le_of_not_lt hlt) hne
        · exact ht.1 p hp

theorem keysRise_filter {α : Type} (q : Nat × α → Bool) (l : List (Nat × α)) (h : keysRise l = true) :
    keysRise (l.filter q) = true := by
  induction l with
  | nil => rfl
  | cons a t ih =>
    have ht := (keysRise_cons _ _).1 h
    by_cases hq : q a = true
    · rw [List.filter_cons_of_pos hq]
      exact (keysRise_cons _ _).2 ⟨fun p hp => ht.1 p (List.mem_filter.1 hp).1, ih ht.2⟩
    · rw [List.filter_cons_of_neg hq]
      exact ih ht.2

/-- A part of a canonical store is canonical. -/
theorem storeWf_filter {α : Type} [DecidableEq α] (d : α) (q : Nat × α → Bool) {l : List (Nat × α)} (h : storeWf d l = true) :
    storeWf d (l.filter q) = true := by
  simp only [storeWf, Bool.and_eq_true, List.all_eq_true] at h ⊢
  exact ⟨keysRise_filter q l h.1, fun p hp => h.2 p (List.mem_filter.1 hp).1⟩

/-- A write keeps the canonical form. -/
theorem storeWf_storeKey {α : Type} [DecidableEq α] (d : α) (k : Nat) (v : α) {l : List (Nat × α)} (h : storeWf d l = true) :
    storeWf d (storeKey d k v l) = true := by
  unfold storeKey
  split
  · exact storeWf_filter d _ h
  · next hv =>
    simp only [storeWf, Bool.and_eq_true, List.all_eq_true, decide_eq_true_eq] at h ⊢
    refine ⟨keysRise_insKey k v l h.1, fun p hp => ?_⟩
    rcases mem_insKey hp with hp | hp
    · rw [hp]; exact hv
    · exact h.2 p hp

/-- A write keeps the keys rising. -/
theorem keysRise_storeKey {α : Type} [DecidableEq α] (d : α) (k : Nat) (v : α) {l : List (Nat × α)} (h : keysRise l = true) :
    keysRise (storeKey d k v l) = true := by
  unfold storeKey
  split
  · exact keysRise_filter _ l h
  · exact keysRise_insKey k v l h

/-! ## Byte memories -/

theorem memByte_setByte_self (d : Byte) (m : Memory) (a : Nat) (b : Byte) : memByte d (memSetByte d m a b) a = b :=
  lookKey_storeKey_self d a b m

theorem memByte_setByte_ne (d : Byte) (m : Memory) {a x : Nat} (h : x ≠ a) (b : Byte) :
    memByte d (memSetByte d m a b) x = memByte d m x := by
  simp [memByte, memSetByte, lookKey_storeKey_ne d h]

/-- A byte outside a stored range reads as before. -/
theorem memByte_setBytes_out (d : Byte) (l : List Byte) (m : Memory) (a x : Nat) (h : x < a ∨ a + l.length ≤ x) :
    memByte d (memSetBytes d m a l) x = memByte d m x := by
  induction l generalizing m a with
  | nil => rfl
  | cons b t ih =>
    simp only [List.length_cons] at h
    rw [memSetBytes, ih _ _ (by omega), memByte_setByte_ne d m (by omega)]

/-- A byte of a stored range reads as stored. -/
theorem memByte_setBytes_in (d : Byte) (l : List Byte) (m : Memory) (a j : Nat) (h : j < l.length) :
    memByte d (memSetBytes d m a l) (a + j) = l[j] := by
  induction l generalizing m a j with
  | nil => simp at h
  | cons b t ih =>
    cases j with
    | zero =>
      rw [memSetBytes, memByte_setBytes_out _ _ _ _ _ (by omega)]
      simpa using memByte_setByte_self d m a b
    | succ j =>
      have := ih (memSetByte d m a b) (a + 1) j (by simpa using h)
      rw [memSetBytes, show a + (j + 1) = a + 1 + j by omega, this]
      rfl

/-- Writing a byte keeps the canonical form. -/
theorem memSetByte_wf (d : Byte) {m : Memory} (a : Nat) (b : Byte) (h : Memory.wf d m = true) :
    Memory.wf d (memSetByte d m a b) = true := storeWf_storeKey d a b h

/-- Writing bytes keeps the canonical form. -/
theorem memSetBytes_wf (d : Byte) (l : List Byte) {m : Memory} (a : Nat) (h : Memory.wf d m = true) :
    Memory.wf d (memSetBytes d m a l) = true := by
  induction l generalizing m a with
  | nil => exact h
  | cons b t ih => exact ih (a + 1) (memSetByte_wf d a b h)

/-- Clearing a range keeps the canonical form. -/
theorem memClear_wf (d : Byte) {m : Memory} (lo n : Nat) (h : Memory.wf d m = true) :
    Memory.wf d (memClear m lo n) = true := storeWf_filter d _ h

/-! ## The field file -/

/-- A field of one instance has a key of its own. -/
theorem fkey_inj {f g : Field} {i j : Nat} : fkey f i = fkey g j ↔ f.id = g.id ∧ i = j := by
  have hf := f.id.isLt
  have hg := g.id.isLt
  simp only [fkey, Fin.ext_iff]
  omega

/-- A field reads as written, cut to its width. -/
@[simp] theorem State.get_put_self (s : State) (f : Field) (i v : Nat) : (s.put f i v).get f i = v % 2 ^ f.width :=
  lookKey_storeKey_self _ _ _ _

/-- Every other field reads as before. -/
theorem State.get_put_ne (s : State) {f g : Field} {i j : Nat} (h : fkey g j ≠ fkey f i) (v : Nat) :
    (s.put f i v).get g j = s.get g j := by
  simp [State.get, State.put, lookKey_storeKey_ne _ h]

/-- Another field reads as before. -/
@[simp] theorem State.get_put_field (s : State) {f g : Field} (h : g.id ≠ f.id) (i j v : Nat) :
    (s.put f i v).get g j = s.get g j := s.get_put_ne (fun e => h (fkey_inj.1 e).1) v

/-- Another instance reads as before. -/
@[simp] theorem State.get_put_index (s : State) (f g : Field) {i j : Nat} (h : j ≠ i) (v : Nat) :
    (s.put f i v).get g j = s.get g j := s.get_put_ne (fun e => h (fkey_inj.1 e).2) v

theorem State.get_put (s : State) (f : Field) (i j v : Nat) :
    (s.put f i v).get f j = if j = i then v % 2 ^ f.width else s.get f j := by
  by_cases h : j = i
  · subst h; simp
  · simp [h]

@[simp] theorem State.setB_eq (s : State) (f : Field) (i : Nat) (b : Bool) : s.setB f i b = s.put f i (b2n b) := rfl

theorem b2n_mod (b : Bool) (w : Nat) (h : 0 < w) : b2n b % 2 ^ w = b2n b := by
  have h2 : 2 ≤ 2 ^ w := by
    calc 2 = 2 ^ 1 := rfl
      _ ≤ 2 ^ w := Nat.pow_le_pow_right (by decide) h
  exact Nat.mod_eq_of_lt (by cases b <;> simp [b2n] <;> omega)

/-- A one-bit field reads as the Boolean written. -/
theorem State.on_setB (s : State) (f : Field) (i : Nat) (b : Bool) (h : 0 < f.width) : (s.setB f i b).on f i = b := by
  simp only [State.on, State.setB, State.get_put_self]
  rw [b2n_mod b _ h]
  cases b <;> rfl

end Sys2Proof.Machine
end

