-- ==== Sys2Proof/Laws/State.lean ====
section
/-!
SUPPORT. What each named update of the state leaves as it was, one lemma per field, true by rfl.
-/

set_option Elab.async false
set_option linter.all false

namespace Sys2Proof.Machine

/-! ## A field written -/

@[simp] theorem State.put_pending (s : State) (f : Field) (i v : Nat) : (s.put f i v).pending = s.pending := rfl
@[simp] theorem State.put_now (s : State) (f : Field) (i v : Nat) : (s.put f i v).now = s.now := rfl
@[simp] theorem State.put_free (s : State) (f : Field) (i v : Nat) : (s.put f i v).free = s.free := rfl
@[simp] theorem State.put_snaps (s : State) (f : Field) (i v : Nat) : (s.put f i v).snaps = s.snaps := rfl
@[simp] theorem State.put_lastResp (s : State) (f : Field) (i v : Nat) : (s.put f i v).lastResp = s.lastResp := rfl
@[simp] theorem State.put_scratch (s : State) (f : Field) (i v : Nat) : (s.put f i v).scratch = s.scratch := rfl
@[simp] theorem State.put_cellar (s : State) (f : Field) (i v : Nat) : (s.put f i v).cellar = s.cellar := rfl
@[simp] theorem State.put_celErr (s : State) (f : Field) (i v : Nat) : (s.put f i v).celErr = s.celErr := rfl
@[simp] theorem State.put_flash (s : State) (f : Field) (i v : Nat) : (s.put f i v).flash = s.flash := rfl
@[simp] theorem State.put_fltLog (s : State) (f : Field) (i v : Nat) : (s.put f i v).fltLog = s.fltLog := rfl
@[simp] theorem State.put_corr (s : State) (f : Field) (i v : Nat) : (s.put f i v).corr = s.corr := rfl
@[simp] theorem State.put_fuses (s : State) (f : Field) (i v : Nat) : (s.put f i v).fuses = s.fuses := rfl
@[simp] theorem State.put_cstore (s : State) (f : Field) (i v : Nat) : (s.put f i v).cstore = s.cstore := rfl
@[simp] theorem State.put_csBodies (s : State) (f : Field) (i v : Nat) : (s.put f i v).csBodies = s.csBodies := rfl
@[simp] theorem State.put_entries (s : State) (f : Field) (i v : Nat) : (s.put f i v).entries = s.entries := rfl
@[simp] theorem State.put_heldEntries (s : State) (f : Field) (i v : Nat) : (s.put f i v).heldEntries = s.heldEntries := rfl
@[simp] theorem State.put_pendW (s : State) (f : Field) (i v : Nat) : (s.put f i v).pendW = s.pendW := rfl
@[simp] theorem State.put_ports (s : State) (f : Field) (i v : Nat) : (s.put f i v).ports = s.ports := rfl
@[simp] theorem State.put_waveBuf (s : State) (f : Field) (i v : Nat) : (s.put f i v).waveBuf = s.waveBuf := rfl
@[simp] theorem State.put_evicted (s : State) (f : Field) (i v : Nat) : (s.put f i v).evicted = s.evicted := rfl
@[simp] theorem State.put_lines (s : State) (f : Field) (i v : Nat) : (s.put f i v).lines = s.lines := rfl
@[simp] theorem State.put_reqs (s : State) (f : Field) (i v : Nat) : (s.put f i v).reqs = s.reqs := rfl
@[simp] theorem State.put_jobs (s : State) (f : Field) (i v : Nat) : (s.put f i v).jobs = s.jobs := rfl
@[simp] theorem State.put_inval (s : State) (f : Field) (i v : Nat) : (s.put f i v).inval = s.inval := rfl
@[simp] theorem State.put_cmdq (s : State) (f : Field) (i v : Nat) : (s.put f i v).cmdq = s.cmdq := rfl
@[simp] theorem State.put_memq (s : State) (f : Field) (i v : Nat) : (s.put f i v).memq = s.memq := rfl
@[simp] theorem State.put_refused (s : State) (f : Field) (i v : Nat) : (s.put f i v).refused = s.refused := rfl
@[simp] theorem State.put_memErrs (s : State) (f : Field) (i v : Nat) : (s.put f i v).memErrs = s.memErrs := rfl
@[simp] theorem State.put_evq (s : State) (f : Field) (i v : Nat) : (s.put f i v).evq = s.evq := rfl
@[simp] theorem State.put_failq (s : State) (f : Field) (i v : Nat) : (s.put f i v).failq = s.failq := rfl
@[simp] theorem State.put_events (s : State) (f : Field) (i v : Nat) : (s.put f i v).events = s.events := rfl
@[simp] theorem State.put_replies (s : State) (f : Field) (i v : Nat) : (s.put f i v).replies = s.replies := rfl
@[simp] theorem State.put_accepted (s : State) (f : Field) (i v : Nat) : (s.put f i v).accepted = s.accepted := rfl
@[simp] theorem State.put_outq (s : State) (f : Field) (i v : Nat) : (s.put f i v).outq = s.outq := rfl
@[simp] theorem State.put_replay (s : State) (f : Field) (i v : Nat) : (s.put f i v).replay = s.replay := rfl
@[simp] theorem State.put_bcasts (s : State) (f : Field) (i v : Nat) : (s.put f i v).bcasts = s.bcasts := rfl
@[simp] theorem State.put_asm (s : State) (f : Field) (i v : Nat) : (s.put f i v).asm = s.asm := rfl
@[simp] theorem State.put_h2d (s : State) (f : Field) (i v : Nat) : (s.put f i v).h2d = s.h2d := rfl
@[simp] theorem State.put_d2h (s : State) (f : Field) (i v : Nat) : (s.put f i v).d2h = s.d2h := rfl
@[simp] theorem State.put_h2e (s : State) (f : Field) (i v : Nat) : (s.put f i v).h2e = s.h2e := rfl
@[simp] theorem State.put_e2h (s : State) (f : Field) (i v : Nat) : (s.put f i v).e2h = s.e2h := rfl
@[simp] theorem State.put_safe (s : State) (f : Field) (i v : Nat) : (s.put f i v).safe = s.safe := rfl
@[simp] theorem State.put_trigActs (s : State) (f : Field) (i v : Nat) : (s.put f i v).trigActs = s.trigActs := rfl
@[simp] theorem State.put_flows (s : State) (f : Field) (i v : Nat) : (s.put f i v).flows = s.flows := rfl
@[simp] theorem State.put_corrPend (s : State) (f : Field) (i v : Nat) : (s.put f i v).corrPend = s.corrPend := rfl
@[simp] theorem State.put_tdcq (s : State) (f : Field) (i v : Nat) : (s.put f i v).tdcq = s.tdcq := rfl
@[simp] theorem State.put_flashOps (s : State) (f : Field) (i v : Nat) : (s.put f i v).flashOps = s.flashOps := rfl

/-! ## Time moved on -/

@[simp] theorem State.upTo_pending (s : State) (t : Nat) : (s.upTo t).pending = s.pending := rfl
@[simp] theorem State.upTo_free (s : State) (t : Nat) : (s.upTo t).free = s.free := rfl
@[simp] theorem State.upTo_ff (s : State) (t : Nat) : (s.upTo t).ff = s.ff := rfl
@[simp] theorem State.upTo_snaps (s : State) (t : Nat) : (s.upTo t).snaps = s.snaps := rfl
@[simp] theorem State.upTo_lastResp (s : State) (t : Nat) : (s.upTo t).lastResp = s.lastResp := rfl
@[simp] theorem State.upTo_scratch (s : State) (t : Nat) : (s.upTo t).scratch = s.scratch := rfl
@[simp] theorem State.upTo_cellar (s : State) (t : Nat) : (s.upTo t).cellar = s.cellar := rfl
@[simp] theorem State.upTo_celErr (s : State) (t : Nat) : (s.upTo t).celErr = s.celErr := rfl
@[simp] theorem State.upTo_flash (s : State) (t : Nat) : (s.upTo t).flash = s.flash := rfl
@[simp] theorem State.upTo_fltLog (s : State) (t : Nat) : (s.upTo t).fltLog = s.fltLog := rfl
@[simp] theorem State.upTo_corr (s : State) (t : Nat) : (s.upTo t).corr = s.corr := rfl
@[simp] theorem State.upTo_fuses (s : State) (t : Nat) : (s.upTo t).fuses = s.fuses := rfl
@[simp] theorem State.upTo_cstore (s : State) (t : Nat) : (s.upTo t).cstore = s.cstore := rfl
@[simp] theorem State.upTo_csBodies (s : State) (t : Nat) : (s.upTo t).csBodies = s.csBodies := rfl
@[simp] theorem State.upTo_entries (s : State) (t : Nat) : (s.upTo t).entries = s.entries := rfl
@[simp] theorem State.upTo_heldEntries (s : State) (t : Nat) : (s.upTo t).heldEntries = s.heldEntries := rfl
@[simp] theorem State.upTo_pendW (s : State) (t : Nat) : (s.upTo t).pendW = s.pendW := rfl
@[simp] theorem State.upTo_ports (s : State) (t : Nat) : (s.upTo t).ports = s.ports := rfl
@[simp] theorem State.upTo_waveBuf (s : State) (t : Nat) : (s.upTo t).waveBuf = s.waveBuf := rfl
@[simp] theorem State.upTo_evicted (s : State) (t : Nat) : (s.upTo t).evicted = s.evicted := rfl
@[simp] theorem State.upTo_lines (s : State) (t : Nat) : (s.upTo t).lines = s.lines := rfl
@[simp] theorem State.upTo_reqs (s : State) (t : Nat) : (s.upTo t).reqs = s.reqs := rfl
@[simp] theorem State.upTo_jobs (s : State) (t : Nat) : (s.upTo t).jobs = s.jobs := rfl
@[simp] theorem State.upTo_inval (s : State) (t : Nat) : (s.upTo t).inval = s.inval := rfl
@[simp] theorem State.upTo_cmdq (s : State) (t : Nat) : (s.upTo t).cmdq = s.cmdq := rfl
@[simp] theorem State.upTo_memq (s : State) (t : Nat) : (s.upTo t).memq = s.memq := rfl
@[simp] theorem State.upTo_refused (s : State) (t : Nat) : (s.upTo t).refused = s.refused := rfl
@[simp] theorem State.upTo_memErrs (s : State) (t : Nat) : (s.upTo t).memErrs = s.memErrs := rfl
@[simp] theorem State.upTo_evq (s : State) (t : Nat) : (s.upTo t).evq = s.evq := rfl
@[simp] theorem State.upTo_failq (s : State) (t : Nat) : (s.upTo t).failq = s.failq := rfl
@[simp] theorem State.upTo_events (s : State) (t : Nat) : (s.upTo t).events = s.events := rfl
@[simp] theorem State.upTo_replies (s : State) (t : Nat) : (s.upTo t).replies = s.replies := rfl
@[simp] theorem State.upTo_accepted (s : State) (t : Nat) : (s.upTo t).accepted = s.accepted := rfl
@[simp] theorem State.upTo_outq (s : State) (t : Nat) : (s.upTo t).outq = s.outq := rfl
@[simp] theorem State.upTo_replay (s : State) (t : Nat) : (s.upTo t).replay = s.replay := rfl
@[simp] theorem State.upTo_bcasts (s : State) (t : Nat) : (s.upTo t).bcasts = s.bcasts := rfl
@[simp] theorem State.upTo_asm (s : State) (t : Nat) : (s.upTo t).asm = s.asm := rfl
@[simp] theorem State.upTo_h2d (s : State) (t : Nat) : (s.upTo t).h2d = s.h2d := rfl
@[simp] theorem State.upTo_d2h (s : State) (t : Nat) : (s.upTo t).d2h = s.d2h := rfl
@[simp] theorem State.upTo_h2e (s : State) (t : Nat) : (s.upTo t).h2e = s.h2e := rfl
@[simp] theorem State.upTo_e2h (s : State) (t : Nat) : (s.upTo t).e2h = s.e2h := rfl
@[simp] theorem State.upTo_safe (s : State) (t : Nat) : (s.upTo t).safe = s.safe := rfl
@[simp] theorem State.upTo_trigActs (s : State) (t : Nat) : (s.upTo t).trigActs = s.trigActs := rfl
@[simp] theorem State.upTo_flows (s : State) (t : Nat) : (s.upTo t).flows = s.flows := rfl
@[simp] theorem State.upTo_corrPend (s : State) (t : Nat) : (s.upTo t).corrPend = s.corrPend := rfl
@[simp] theorem State.upTo_tdcq (s : State) (t : Nat) : (s.upTo t).tdcq = s.tdcq := rfl
@[simp] theorem State.upTo_flashOps (s : State) (t : Nat) : (s.upTo t).flashOps = s.flashOps := rfl

/-! ## A free value drawn -/

@[simp] theorem State.draw_pending (s : State)  : (s.draw.2).pending = s.pending := rfl
@[simp] theorem State.draw_now (s : State)  : (s.draw.2).now = s.now := rfl
@[simp] theorem State.draw_ff (s : State)  : (s.draw.2).ff = s.ff := rfl
@[simp] theorem State.draw_snaps (s : State)  : (s.draw.2).snaps = s.snaps := rfl
@[simp] theorem State.draw_lastResp (s : State)  : (s.draw.2).lastResp = s.lastResp := rfl
@[simp] theorem State.draw_scratch (s : State)  : (s.draw.2).scratch = s.scratch := rfl
@[simp] theorem State.draw_cellar (s : State)  : (s.draw.2).cellar = s.cellar := rfl
@[simp] theorem State.draw_celErr (s : State)  : (s.draw.2).celErr = s.celErr := rfl
@[simp] theorem State.draw_flash (s : State)  : (s.draw.2).flash = s.flash := rfl
@[simp] theorem State.draw_fltLog (s : State)  : (s.draw.2).fltLog = s.fltLog := rfl
@[simp] theorem State.draw_corr (s : State)  : (s.draw.2).corr = s.corr := rfl
@[simp] theorem State.draw_fuses (s : State)  : (s.draw.2).fuses = s.fuses := rfl
@[simp] theorem State.draw_cstore (s : State)  : (s.draw.2).cstore = s.cstore := rfl
@[simp] theorem State.draw_csBodies (s : State)  : (s.draw.2).csBodies = s.csBodies := rfl
@[simp] theorem State.draw_entries (s : State)  : (s.draw.2).entries = s.entries := rfl
@[simp] theorem State.draw_heldEntries (s : State)  : (s.draw.2).heldEntries = s.heldEntries := rfl
@[simp] theorem State.draw_pendW (s : State)  : (s.draw.2).pendW = s.pendW := rfl
@[simp] theorem State.draw_ports (s : State)  : (s.draw.2).ports = s.ports := rfl
@[simp] theorem State.draw_waveBuf (s : State)  : (s.draw.2).waveBuf = s.waveBuf := rfl
@[simp] theorem State.draw_evicted (s : State)  : (s.draw.2).evicted = s.evicted := rfl
@[simp] theorem State.draw_lines (s : State)  : (s.draw.2).lines = s.lines := rfl
@[simp] theorem State.draw_reqs (s : State)  : (s.draw.2).reqs = s.reqs := rfl
@[simp] theorem State.draw_jobs (s : State)  : (s.draw.2).jobs = s.jobs := rfl
@[simp] theorem State.draw_inval (s : State)  : (s.draw.2).inval = s.inval := rfl
@[simp] theorem State.draw_cmdq (s : State)  : (s.draw.2).cmdq = s.cmdq := rfl
@[simp] theorem State.draw_memq (s : State)  : (s.draw.2).memq = s.memq := rfl
@[simp] theorem State.draw_refused (s : State)  : (s.draw.2).refused = s.refused := rfl
@[simp] theorem State.draw_memErrs (s : State)  : (s.draw.2).memErrs = s.memErrs := rfl
@[simp] theorem State.draw_evq (s : State)  : (s.draw.2).evq = s.evq := rfl
@[simp] theorem State.draw_failq (s : State)  : (s.draw.2).failq = s.failq := rfl
@[simp] theorem State.draw_events (s : State)  : (s.draw.2).events = s.events := rfl
@[simp] theorem State.draw_replies (s : State)  : (s.draw.2).replies = s.replies := rfl
@[simp] theorem State.draw_accepted (s : State)  : (s.draw.2).accepted = s.accepted := rfl
@[simp] theorem State.draw_outq (s : State)  : (s.draw.2).outq = s.outq := rfl
@[simp] theorem State.draw_replay (s : State)  : (s.draw.2).replay = s.replay := rfl
@[simp] theorem State.draw_bcasts (s : State)  : (s.draw.2).bcasts = s.bcasts := rfl
@[simp] theorem State.draw_asm (s : State)  : (s.draw.2).asm = s.asm := rfl
@[simp] theorem State.draw_h2d (s : State)  : (s.draw.2).h2d = s.h2d := rfl
@[simp] theorem State.draw_d2h (s : State)  : (s.draw.2).d2h = s.d2h := rfl
@[simp] theorem State.draw_h2e (s : State)  : (s.draw.2).h2e = s.h2e := rfl
@[simp] theorem State.draw_e2h (s : State)  : (s.draw.2).e2h = s.e2h := rfl
@[simp] theorem State.draw_safe (s : State)  : (s.draw.2).safe = s.safe := rfl
@[simp] theorem State.draw_trigActs (s : State)  : (s.draw.2).trigActs = s.trigActs := rfl
@[simp] theorem State.draw_flows (s : State)  : (s.draw.2).flows = s.flows := rfl
@[simp] theorem State.draw_corrPend (s : State)  : (s.draw.2).corrPend = s.corrPend := rfl
@[simp] theorem State.draw_tdcq (s : State)  : (s.draw.2).tdcq = s.tdcq := rfl
@[simp] theorem State.draw_flashOps (s : State)  : (s.draw.2).flashOps = s.flashOps := rfl

/-! ## A reply sent -/

@[simp] theorem State.reply_pending (s : State) (r : Reply) : (s.reply r).pending = s.pending := rfl
@[simp] theorem State.reply_now (s : State) (r : Reply) : (s.reply r).now = s.now := rfl
@[simp] theorem State.reply_free (s : State) (r : Reply) : (s.reply r).free = s.free := rfl
@[simp] theorem State.reply_ff (s : State) (r : Reply) : (s.reply r).ff = s.ff := rfl
@[simp] theorem State.reply_snaps (s : State) (r : Reply) : (s.reply r).snaps = s.snaps := rfl
@[simp] theorem State.reply_lastResp (s : State) (r : Reply) : (s.reply r).lastResp = s.lastResp := rfl
@[simp] theorem State.reply_scratch (s : State) (r : Reply) : (s.reply r).scratch = s.scratch := rfl
@[simp] theorem State.reply_cellar (s : State) (r : Reply) : (s.reply r).cellar = s.cellar := rfl
@[simp] theorem State.reply_celErr (s : State) (r : Reply) : (s.reply r).celErr = s.celErr := rfl
@[simp] theorem State.reply_flash (s : State) (r : Reply) : (s.reply r).flash = s.flash := rfl
@[simp] theorem State.reply_fltLog (s : State) (r : Reply) : (s.reply r).fltLog = s.fltLog := rfl
@[simp] theorem State.reply_corr (s : State) (r : Reply) : (s.reply r).corr = s.corr := rfl
@[simp] theorem State.reply_fuses (s : State) (r : Reply) : (s.reply r).fuses = s.fuses := rfl
@[simp] theorem State.reply_cstore (s : State) (r : Reply) : (s.reply r).cstore = s.cstore := rfl
@[simp] theorem State.reply_csBodies (s : State) (r : Reply) : (s.reply r).csBodies = s.csBodies := rfl
@[simp] theorem State.reply_entries (s : State) (r : Reply) : (s.reply r).entries = s.entries := rfl
@[simp] theorem State.reply_heldEntries (s : State) (r : Reply) : (s.reply r).heldEntries = s.heldEntries := rfl
@[simp] theorem State.reply_pendW (s : State) (r : Reply) : (s.reply r).pendW = s.pendW := rfl
@[simp] theorem State.reply_ports (s : State) (r : Reply) : (s.reply r).ports = s.ports := rfl
@[simp] theorem State.reply_waveBuf (s : State) (r : Reply) : (s.reply r).waveBuf = s.waveBuf := rfl
@[simp] theorem State.reply_evicted (s : State) (r : Reply) : (s.reply r).evicted = s.evicted := rfl
@[simp] theorem State.reply_lines (s : State) (r : Reply) : (s.reply r).lines = s.lines := rfl
@[simp] theorem State.reply_reqs (s : State) (r : Reply) : (s.reply r).reqs = s.reqs := rfl
@[simp] theorem State.reply_jobs (s : State) (r : Reply) : (s.reply r).jobs = s.jobs := rfl
@[simp] theorem State.reply_inval (s : State) (r : Reply) : (s.reply r).inval = s.inval := rfl
@[simp] theorem State.reply_cmdq (s : State) (r : Reply) : (s.reply r).cmdq = s.cmdq := rfl
@[simp] theorem State.reply_memq (s : State) (r : Reply) : (s.reply r).memq = s.memq := rfl
@[simp] theorem State.reply_refused (s : State) (r : Reply) : (s.reply r).refused = s.refused := rfl
@[simp] theorem State.reply_memErrs (s : State) (r : Reply) : (s.reply r).memErrs = s.memErrs := rfl
@[simp] theorem State.reply_evq (s : State) (r : Reply) : (s.reply r).evq = s.evq := rfl
@[simp] theorem State.reply_failq (s : State) (r : Reply) : (s.reply r).failq = s.failq := rfl
@[simp] theorem State.reply_events (s : State) (r : Reply) : (s.reply r).events = s.events := rfl
@[simp] theorem State.reply_accepted (s : State) (r : Reply) : (s.reply r).accepted = s.accepted := rfl
@[simp] theorem State.reply_outq (s : State) (r : Reply) : (s.reply r).outq = s.outq := rfl
@[simp] theorem State.reply_replay (s : State) (r : Reply) : (s.reply r).replay = s.replay := rfl
@[simp] theorem State.reply_bcasts (s : State) (r : Reply) : (s.reply r).bcasts = s.bcasts := rfl
@[simp] theorem State.reply_asm (s : State) (r : Reply) : (s.reply r).asm = s.asm := rfl
@[simp] theorem State.reply_h2d (s : State) (r : Reply) : (s.reply r).h2d = s.h2d := rfl
@[simp] theorem State.reply_d2h (s : State) (r : Reply) : (s.reply r).d2h = s.d2h := rfl
@[simp] theorem State.reply_h2e (s : State) (r : Reply) : (s.reply r).h2e = s.h2e := rfl
@[simp] theorem State.reply_e2h (s : State) (r : Reply) : (s.reply r).e2h = s.e2h := rfl
@[simp] theorem State.reply_safe (s : State) (r : Reply) : (s.reply r).safe = s.safe := rfl
@[simp] theorem State.reply_trigActs (s : State) (r : Reply) : (s.reply r).trigActs = s.trigActs := rfl
@[simp] theorem State.reply_flows (s : State) (r : Reply) : (s.reply r).flows = s.flows := rfl
@[simp] theorem State.reply_corrPend (s : State) (r : Reply) : (s.reply r).corrPend = s.corrPend := rfl
@[simp] theorem State.reply_tdcq (s : State) (r : Reply) : (s.reply r).tdcq = s.tdcq := rfl
@[simp] theorem State.reply_flashOps (s : State) (r : Reply) : (s.reply r).flashOps = s.flashOps := rfl

@[simp] theorem State.upTo_get (s : State) (t : Nat) (f : Field) (i : Nat) : (s.upTo t).get f i = s.get f i := rfl
@[simp] theorem State.draw_get (s : State) (f : Field) (i : Nat) : s.draw.2.get f i = s.get f i := rfl
@[simp] theorem State.reply_get (s : State) (r : Reply) (f : Field) (i : Nat) : (s.reply r).get f i = s.get f i := rfl

end Sys2Proof.Machine
end

