-- ==== Sys2Proof/Laws/Keeps.lean ====
section
/-!
SUPPORT. What an operation can change, as one relation: Keeps w s t says that t comes from s by an operation
that writes no field and no component of the state but those whose bit is set in the mask w (a field by its
number, a component from bit 2048 on), leaves the waiting commands alone and keeps the canonical form.
-/

set_option Elab.async false
set_option linter.all false

namespace Sys2Proof.Machine

/-- The mask of one field. -/
def fm (f : Field) : Nat := 2 ^ f.id.val

/-- The mask of component now. -/
def m_now : Nat := 2 ^ 2048
/-- The mask of component free. -/
def m_free : Nat := 2 ^ 2049
/-- The mask of component snaps. -/
def m_snaps : Nat := 2 ^ 2050
/-- The mask of component lastResp. -/
def m_lastResp : Nat := 2 ^ 2051
/-- The mask of component scratch. -/
def m_scratch : Nat := 2 ^ 2052
/-- The mask of component cellar. -/
def m_cellar : Nat := 2 ^ 2053
/-- The mask of component celErr. -/
def m_celErr : Nat := 2 ^ 2054
/-- The mask of component flash. -/
def m_flash : Nat := 2 ^ 2055
/-- The mask of component fltLog. -/
def m_fltLog : Nat := 2 ^ 2056
/-- The mask of component corr. -/
def m_corr : Nat := 2 ^ 2057
/-- The mask of component fuses. -/
def m_fuses : Nat := 2 ^ 2058
/-- The mask of component cstore. -/
def m_cstore : Nat := 2 ^ 2059
/-- The mask of component csBodies. -/
def m_csBodies : Nat := 2 ^ 2060
/-- The mask of component entries. -/
def m_entries : Nat := 2 ^ 2061
/-- The mask of component heldEntries. -/
def m_heldEntries : Nat := 2 ^ 2062
/-- The mask of component pendW. -/
def m_pendW : Nat := 2 ^ 2063
/-- The mask of component ports. -/
def m_ports : Nat := 2 ^ 2064
/-- The mask of component waveBuf. -/
def m_waveBuf : Nat := 2 ^ 2065
/-- The mask of component evicted. -/
def m_evicted : Nat := 2 ^ 2066
/-- The mask of component lines. -/
def m_lines : Nat := 2 ^ 2067
/-- The mask of component reqs. -/
def m_reqs : Nat := 2 ^ 2068
/-- The mask of component jobs. -/
def m_jobs : Nat := 2 ^ 2069
/-- The mask of component inval. -/
def m_inval : Nat := 2 ^ 2070
/-- The mask of component cmdq. -/
def m_cmdq : Nat := 2 ^ 2071
/-- The mask of component memq. -/
def m_memq : Nat := 2 ^ 2072
/-- The mask of component refused. -/
def m_refused : Nat := 2 ^ 2073
/-- The mask of component memErrs. -/
def m_memErrs : Nat := 2 ^ 2074
/-- The mask of component evq. -/
def m_evq : Nat := 2 ^ 2075
/-- The mask of component failq. -/
def m_failq : Nat := 2 ^ 2076
/-- The mask of component events. -/
def m_events : Nat := 2 ^ 2077
/-- The mask of component replies. -/
def m_replies : Nat := 2 ^ 2078
/-- The mask of component accepted. -/
def m_accepted : Nat := 2 ^ 2079
/-- The mask of component outq. -/
def m_outq : Nat := 2 ^ 2080
/-- The mask of component replay. -/
def m_replay : Nat := 2 ^ 2081
/-- The mask of component bcasts. -/
def m_bcasts : Nat := 2 ^ 2082
/-- The mask of component asm. -/
def m_asm : Nat := 2 ^ 2083
/-- The mask of component h2d. -/
def m_h2d : Nat := 2 ^ 2084
/-- The mask of component d2h. -/
def m_d2h : Nat := 2 ^ 2085
/-- The mask of component h2e. -/
def m_h2e : Nat := 2 ^ 2086
/-- The mask of component e2h. -/
def m_e2h : Nat := 2 ^ 2087
/-- The mask of component safe. -/
def m_safe : Nat := 2 ^ 2088
/-- The mask of component trigActs. -/
def m_trigActs : Nat := 2 ^ 2089
/-- The mask of component flows. -/
def m_flows : Nat := 2 ^ 2090
/-- The mask of component corrPend. -/
def m_corrPend : Nat := 2 ^ 2091
/-- The mask of component tdcq. -/
def m_tdcq : Nat := 2 ^ 2092
/-- The mask of component flashOps. -/
def m_flashOps : Nat := 2 ^ 2093
/-- The mask of everything. -/
def m_all : Nat := 2 ^ 2094 - 1

/-- The bits of one mask lie in another. -/
abbrev Sub (a b : Nat) : Prop := a &&& b = a

/-- Two masks have no bit in common. -/
abbrev Off (a b : Nat) : Prop := a &&& b = 0

theorem Sub.trans {a b c : Nat} (h : Sub a b) (h' : Sub b c) : Sub a c := by
  unfold Sub at *
  rw [← h, Nat.and_assoc, h']

theorem Off.mono {w w' m : Nat} (h : Off m w') (hs : Sub w w') : Off m w := by
  unfold Sub Off at *
  rw [← hs, Nat.and_comm w, ← Nat.and_assoc, h, Nat.zero_and]

/-- A mask of one bit that lies in w is not off it. -/
theorem Sub.not_off {m w : Nat} (h : Sub m w) (hm : m ≠ 0) : ¬ Off m w := by
  unfold Sub Off at *
  omega

theorem fm_pos (f : Field) : fm f ≠ 0 := Nat.pos_iff_ne_zero.1 (Nat.two_pow_pos _)

/-- What an operation with mask w does to a state. -/
structure Keeps (w : Nat) (s t : State) : Prop where
  pending : t.pending = s.pending
  get : ∀ f i, Off (fm f) w → t.get f i = s.get f i
  now : Off m_now w → t.now = s.now
  free : Off m_free w → t.free = s.free
  snaps : Off m_snaps w → t.snaps = s.snaps
  lastResp : Off m_lastResp w → t.lastResp = s.lastResp
  scratch : Off m_scratch w → t.scratch = s.scratch
  cellar : Off m_cellar w → t.cellar = s.cellar
  celErr : Off m_celErr w → t.celErr = s.celErr
  flash : Off m_flash w → t.flash = s.flash
  fltLog : Off m_fltLog w → t.fltLog = s.fltLog
  corr : Off m_corr w → t.corr = s.corr
  fuses : Off m_fuses w → t.fuses = s.fuses
  cstore : Off m_cstore w → t.cstore = s.cstore
  csBodies : Off m_csBodies w → t.csBodies = s.csBodies
  entries : Off m_entries w → t.entries = s.entries
  heldEntries : Off m_heldEntries w → t.heldEntries = s.heldEntries
  pendW : Off m_pendW w → t.pendW = s.pendW
  ports : Off m_ports w → t.ports = s.ports
  waveBuf : Off m_waveBuf w → t.waveBuf = s.waveBuf
  evicted : Off m_evicted w → t.evicted = s.evicted
  lines : Off m_lines w → t.lines = s.lines
  reqs : Off m_reqs w → t.reqs = s.reqs
  jobs : Off m_jobs w → t.jobs = s.jobs
  inval : Off m_inval w → t.inval = s.inval
  cmdq : Off m_cmdq w → t.cmdq = s.cmdq
  memq : Off m_memq w → t.memq = s.memq
  refused : Off m_refused w → t.refused = s.refused
  memErrs : Off m_memErrs w → t.memErrs = s.memErrs
  evq : Off m_evq w → t.evq = s.evq
  failq : Off m_failq w → t.failq = s.failq
  events : Off m_events w → t.events = s.events
  replies : Off m_replies w → t.replies = s.replies
  accepted : Off m_accepted w → t.accepted = s.accepted
  outq : Off m_outq w → t.outq = s.outq
  replay : Off m_replay w → t.replay = s.replay
  bcasts : Off m_bcasts w → t.bcasts = s.bcasts
  asm : Off m_asm w → t.asm = s.asm
  h2d : Off m_h2d w → t.h2d = s.h2d
  d2h : Off m_d2h w → t.d2h = s.d2h
  h2e : Off m_h2e w → t.h2e = s.h2e
  e2h : Off m_e2h w → t.e2h = s.e2h
  safe : Off m_safe w → t.safe = s.safe
  trigActs : Off m_trigActs w → t.trigActs = s.trigActs
  flows : Off m_flows w → t.flows = s.flows
  corrPend : Off m_corrPend w → t.corrPend = s.corrPend
  tdcq : Off m_tdcq w → t.tdcq = s.tdcq
  flashOps : Off m_flashOps w → t.flashOps = s.flashOps
  wf : s.Wf → t.Wf

theorem Keeps.refl (w : Nat) (s : State) : Keeps w s s :=
  ⟨rfl, fun _ _ _ => rfl, fun _ => rfl, fun _ => rfl, fun _ => rfl, fun _ => rfl, fun _ => rfl, fun _ => rfl, fun _ => rfl, fun _ => rfl, fun _ => rfl, fun _ => rfl, fun _ => rfl, fun _ => rfl, fun _ => rfl, fun _ => rfl, fun _ => rfl, fun _ => rfl, fun _ => rfl, fun _ => rfl, fun _ => rfl, fun _ => rfl, fun _ => rfl, fun _ => rfl, fun _ => rfl, fun _ => rfl, fun _ => rfl, fun _ => rfl, fun _ => rfl, fun _ => rfl, fun _ => rfl, fun _ => rfl, fun _ => rfl, fun _ => rfl, fun _ => rfl, fun _ => rfl, fun _ => rfl, fun _ => rfl, fun _ => rfl, fun _ => rfl, fun _ => rfl, fun _ => rfl, fun _ => rfl, fun _ => rfl, fun _ => rfl, fun _ => rfl, fun _ => rfl, fun _ => rfl, id⟩

theorem Keeps.trans {w : Nat} {s t u : State} (h : Keeps w s t) (k : Keeps w t u) : Keeps w s u :=
  ⟨k.pending.trans h.pending, fun f i o => (k.get f i o).trans (h.get f i o), fun o => (k.now o).trans (h.now o),
    fun o => (k.free o).trans (h.free o), fun o => (k.snaps o).trans (h.snaps o),
    fun o => (k.lastResp o).trans (h.lastResp o), fun o => (k.scratch o).trans (h.scratch o),
    fun o => (k.cellar o).trans (h.cellar o), fun o => (k.celErr o).trans (h.celErr o),
    fun o => (k.flash o).trans (h.flash o), fun o => (k.fltLog o).trans (h.fltLog o), fun o => (k.corr o).trans (h.corr o),
    fun o => (k.fuses o).trans (h.fuses o), fun o => (k.cstore o).trans (h.cstore o),
    fun o => (k.csBodies o).trans (h.csBodies o), fun o => (k.entries o).trans (h.entries o),
    fun o => (k.heldEntries o).trans (h.heldEntries o), fun o => (k.pendW o).trans (h.pendW o),
    fun o => (k.ports o).trans (h.ports o), fun o => (k.waveBuf o).trans (h.waveBuf o),
    fun o => (k.evicted o).trans (h.evicted o), fun o => (k.lines o).trans (h.lines o),
    fun o => (k.reqs o).trans (h.reqs o), fun o => (k.jobs o).trans (h.jobs o), fun o => (k.inval o).trans (h.inval o),
    fun o => (k.cmdq o).trans (h.cmdq o), fun o => (k.memq o).trans (h.memq o), fun o => (k.refused o).trans (h.refused o),
    fun o => (k.memErrs o).trans (h.memErrs o), fun o => (k.evq o).trans (h.evq o), fun o => (k.failq o).trans (h.failq o),
    fun o => (k.events o).trans (h.events o), fun o => (k.replies o).trans (h.replies o),
    fun o => (k.accepted o).trans (h.accepted o), fun o => (k.outq o).trans (h.outq o),
    fun o => (k.replay o).trans (h.replay o), fun o => (k.bcasts o).trans (h.bcasts o), fun o => (k.asm o).trans (h.asm o),
    fun o => (k.h2d o).trans (h.h2d o), fun o => (k.d2h o).trans (h.d2h o), fun o => (k.h2e o).trans (h.h2e o),
    fun o => (k.e2h o).trans (h.e2h o), fun o => (k.safe o).trans (h.safe o), fun o => (k.trigActs o).trans (h.trigActs o),
    fun o => (k.flows o).trans (h.flows o), fun o => (k.corrPend o).trans (h.corrPend o),
    fun o => (k.tdcq o).trans (h.tdcq o), fun o => (k.flashOps o).trans (h.flashOps o), fun x => k.wf (h.wf x)⟩

theorem Keeps.mono {w w' : Nat} {s t : State} (k : Keeps w s t) (h : Sub w w') : Keeps w' s t :=
  ⟨k.pending, fun f i o => k.get f i (o.mono h), fun o => k.now (o.mono h), fun o => k.free (o.mono h),
    fun o => k.snaps (o.mono h), fun o => k.lastResp (o.mono h), fun o => k.scratch (o.mono h),
    fun o => k.cellar (o.mono h), fun o => k.celErr (o.mono h), fun o => k.flash (o.mono h), fun o => k.fltLog (o.mono h),
    fun o => k.corr (o.mono h), fun o => k.fuses (o.mono h), fun o => k.cstore (o.mono h), fun o => k.csBodies (o.mono h),
    fun o => k.entries (o.mono h), fun o => k.heldEntries (o.mono h), fun o => k.pendW (o.mono h),
    fun o => k.ports (o.mono h), fun o => k.waveBuf (o.mono h), fun o => k.evicted (o.mono h), fun o => k.lines (o.mono h),
    fun o => k.reqs (o.mono h), fun o => k.jobs (o.mono h), fun o => k.inval (o.mono h), fun o => k.cmdq (o.mono h),
    fun o => k.memq (o.mono h), fun o => k.refused (o.mono h), fun o => k.memErrs (o.mono h), fun o => k.evq (o.mono h),
    fun o => k.failq (o.mono h), fun o => k.events (o.mono h), fun o => k.replies (o.mono h),
    fun o => k.accepted (o.mono h), fun o => k.outq (o.mono h), fun o => k.replay (o.mono h), fun o => k.bcasts (o.mono h),
    fun o => k.asm (o.mono h), fun o => k.h2d (o.mono h), fun o => k.d2h (o.mono h), fun o => k.h2e (o.mono h),
    fun o => k.e2h (o.mono h), fun o => k.safe (o.mono h), fun o => k.trigActs (o.mono h), fun o => k.flows (o.mono h),
    fun o => k.corrPend (o.mono h), fun o => k.tdcq (o.mono h), fun o => k.flashOps (o.mono h), k.wf⟩

/-- An operation after others. -/
theorem Keeps.via {w w' : Nat} {s t u : State} (k : Keeps w t u) (h : Sub w w') (h0 : Keeps w' s t) : Keeps w' s u :=
  h0.trans (k.mono h)

/-! ## One component written -/

theorem Keeps.c_now {w : Nat} {s : State} (x : _) (hb : Sub m_now w) : Keeps w s { s with now := x } :=
  ⟨rfl, fun _ _ _ => rfl, fun o => absurd o (hb.not_off (by decide +kernel)), fun _ => rfl, fun _ => rfl, fun _ => rfl,
    fun _ => rfl, fun _ => rfl, fun _ => rfl, fun _ => rfl, fun _ => rfl, fun _ => rfl, fun _ => rfl, fun _ => rfl,
    fun _ => rfl, fun _ => rfl, fun _ => rfl, fun _ => rfl, fun _ => rfl, fun _ => rfl, fun _ => rfl, fun _ => rfl,
    fun _ => rfl, fun _ => rfl, fun _ => rfl, fun _ => rfl, fun _ => rfl, fun _ => rfl, fun _ => rfl, fun _ => rfl,
    fun _ => rfl, fun _ => rfl, fun _ => rfl, fun _ => rfl, fun _ => rfl, fun _ => rfl, fun _ => rfl, fun _ => rfl,
    fun _ => rfl, fun _ => rfl, fun _ => rfl, fun _ => rfl, fun _ => rfl, fun _ => rfl, fun _ => rfl, fun _ => rfl,
    fun _ => rfl, fun _ => rfl,
    fun h => ⟨h.1, h.2.1, h.2.2.1, h.2.2.2.1, h.2.2.2.2.1, h.2.2.2.2.2.1, h.2.2.2.2.2.2.1, h.2.2.2.2.2.2.2.1, h.2.2.2.2.2.2.2.2.1, h.2.2.2.2.2.2.2.2.2.1, h.2.2.2.2.2.2.2.2.2.2⟩⟩

theorem Keeps.c_free {w : Nat} {s : State} (x : _) (hb : Sub m_free w) : Keeps w s { s with free := x } :=
  ⟨rfl, fun _ _ _ => rfl, fun _ => rfl, fun o => absurd o (hb.not_off (by decide +kernel)), fun _ => rfl, fun _ => rfl,
    fun _ => rfl, fun _ => rfl, fun _ => rfl, fun _ => rfl, fun _ => rfl, fun _ => rfl, fun _ => rfl, fun _ => rfl,
    fun _ => rfl, fun _ => rfl, fun _ => rfl, fun _ => rfl, fun _ => rfl, fun _ => rfl, fun _ => rfl, fun _ => rfl,
    fun _ => rfl, fun _ => rfl, fun _ => rfl, fun _ => rfl, fun _ => rfl, fun _ => rfl, fun _ => rfl, fun _ => rfl,
    fun _ => rfl, fun _ => rfl, fun _ => rfl, fun _ => rfl, fun _ => rfl, fun _ => rfl, fun _ => rfl, fun _ => rfl,
    fun _ => rfl, fun _ => rfl, fun _ => rfl, fun _ => rfl, fun _ => rfl, fun _ => rfl, fun _ => rfl, fun _ => rfl,
    fun _ => rfl, fun _ => rfl,
    fun h => ⟨h.1, h.2.1, h.2.2.1, h.2.2.2.1, h.2.2.2.2.1, h.2.2.2.2.2.1, h.2.2.2.2.2.2.1, h.2.2.2.2.2.2.2.1, h.2.2.2.2.2.2.2.2.1, h.2.2.2.2.2.2.2.2.2.1, h.2.2.2.2.2.2.2.2.2.2⟩⟩

theorem Keeps.c_snaps {w : Nat} {s : State} (x : _) (hb : Sub m_snaps w) (hx : s.Wf → keysRise x = true) : Keeps w s { s with snaps := x } :=
  ⟨rfl, fun _ _ _ => rfl, fun _ => rfl, fun _ => rfl, fun o => absurd o (hb.not_off (by decide +kernel)), fun _ => rfl,
    fun _ => rfl, fun _ => rfl, fun _ => rfl, fun _ => rfl, fun _ => rfl, fun _ => rfl, fun _ => rfl, fun _ => rfl,
    fun _ => rfl, fun _ => rfl, fun _ => rfl, fun _ => rfl, fun _ => rfl, fun _ => rfl, fun _ => rfl, fun _ => rfl,
    fun _ => rfl, fun _ => rfl, fun _ => rfl, fun _ => rfl, fun _ => rfl, fun _ => rfl, fun _ => rfl, fun _ => rfl,
    fun _ => rfl, fun _ => rfl, fun _ => rfl, fun _ => rfl, fun _ => rfl, fun _ => rfl, fun _ => rfl, fun _ => rfl,
    fun _ => rfl, fun _ => rfl, fun _ => rfl, fun _ => rfl, fun _ => rfl, fun _ => rfl, fun _ => rfl, fun _ => rfl,
    fun _ => rfl, fun _ => rfl,
    fun h => ⟨h.1, hx h, h.2.2.1, h.2.2.2.1, h.2.2.2.2.1, h.2.2.2.2.2.1, h.2.2.2.2.2.2.1, h.2.2.2.2.2.2.2.1, h.2.2.2.2.2.2.2.2.1, h.2.2.2.2.2.2.2.2.2.1, h.2.2.2.2.2.2.2.2.2.2⟩⟩

theorem Keeps.c_lastResp {w : Nat} {s : State} (x : _) (hb : Sub m_lastResp w) : Keeps w s { s with lastResp := x } :=
  ⟨rfl, fun _ _ _ => rfl, fun _ => rfl, fun _ => rfl, fun _ => rfl, fun o => absurd o (hb.not_off (by decide +kernel)),
    fun _ => rfl, fun _ => rfl, fun _ => rfl, fun _ => rfl, fun _ => rfl, fun _ => rfl, fun _ => rfl, fun _ => rfl,
    fun _ => rfl, fun _ => rfl, fun _ => rfl, fun _ => rfl, fun _ => rfl, fun _ => rfl, fun _ => rfl, fun _ => rfl,
    fun _ => rfl, fun _ => rfl, fun _ => rfl, fun _ => rfl, fun _ => rfl, fun _ => rfl, fun _ => rfl, fun _ => rfl,
    fun _ => rfl, fun _ => rfl, fun _ => rfl, fun _ => rfl, fun _ => rfl, fun _ => rfl, fun _ => rfl, fun _ => rfl,
    fun _ => rfl, fun _ => rfl, fun _ => rfl, fun _ => rfl, fun _ => rfl, fun _ => rfl, fun _ => rfl, fun _ => rfl,
    fun _ => rfl, fun _ => rfl,
    fun h => ⟨h.1, h.2.1, h.2.2.1, h.2.2.2.1, h.2.2.2.2.1, h.2.2.2.2.2.1, h.2.2.2.2.2.2.1, h.2.2.2.2.2.2.2.1, h.2.2.2.2.2.2.2.2.1, h.2.2.2.2.2.2.2.2.2.1, h.2.2.2.2.2.2.2.2.2.2⟩⟩

theorem Keeps.c_scratch {w : Nat} {s : State} (x : _) (hb : Sub m_scratch w) (hx : s.Wf → Memory.wf ramByte x = true) : Keeps w s { s with scratch := x } :=
  ⟨rfl, fun _ _ _ => rfl, fun _ => rfl, fun _ => rfl, fun _ => rfl, fun _ => rfl,
    fun o => absurd o (hb.not_off (by decide +kernel)), fun _ => rfl, fun _ => rfl, fun _ => rfl, fun _ => rfl,
    fun _ => rfl, fun _ => rfl, fun _ => rfl, fun _ => rfl, fun _ => rfl, fun _ => rfl, fun _ => rfl, fun _ => rfl,
    fun _ => rfl, fun _ => rfl, fun _ => rfl, fun _ => rfl, fun _ => rfl, fun _ => rfl, fun _ => rfl, fun _ => rfl,
    fun _ => rfl, fun _ => rfl, fun _ => rfl, fun _ => rfl, fun _ => rfl, fun _ => rfl, fun _ => rfl, fun _ => rfl,
    fun _ => rfl, fun _ => rfl, fun _ => rfl, fun _ => rfl, fun _ => rfl, fun _ => rfl, fun _ => rfl, fun _ => rfl,
    fun _ => rfl, fun _ => rfl, fun _ => rfl, fun _ => rfl, fun _ => rfl,
    fun h => ⟨h.1, h.2.1, hx h, h.2.2.2.1, h.2.2.2.2.1, h.2.2.2.2.2.1, h.2.2.2.2.2.2.1, h.2.2.2.2.2.2.2.1, h.2.2.2.2.2.2.2.2.1, h.2.2.2.2.2.2.2.2.2.1, h.2.2.2.2.2.2.2.2.2.2⟩⟩

theorem Keeps.c_cellar {w : Nat} {s : State} (x : _) (hb : Sub m_cellar w) (hx : s.Wf → Memory.wf ramByte x = true) : Keeps w s { s with cellar := x } :=
  ⟨rfl, fun _ _ _ => rfl, fun _ => rfl, fun _ => rfl, fun _ => rfl, fun _ => rfl, fun _ => rfl,
    fun o => absurd o (hb.not_off (by decide +kernel)), fun _ => rfl, fun _ => rfl, fun _ => rfl, fun _ => rfl,
    fun _ => rfl, fun _ => rfl, fun _ => rfl, fun _ => rfl, fun _ => rfl, fun _ => rfl, fun _ => rfl, fun _ => rfl,
    fun _ => rfl, fun _ => rfl, fun _ => rfl, fun _ => rfl, fun _ => rfl, fun _ => rfl, fun _ => rfl, fun _ => rfl,
    fun _ => rfl, fun _ => rfl, fun _ => rfl, fun _ => rfl, fun _ => rfl, fun _ => rfl, fun _ => rfl, fun _ => rfl,
    fun _ => rfl, fun _ => rfl, fun _ => rfl, fun _ => rfl, fun _ => rfl, fun _ => rfl, fun _ => rfl, fun _ => rfl,
    fun _ => rfl, fun _ => rfl, fun _ => rfl, fun _ => rfl,
    fun h => ⟨h.1, h.2.1, h.2.2.1, hx h, h.2.2.2.2.1, h.2.2.2.2.2.1, h.2.2.2.2.2.2.1, h.2.2.2.2.2.2.2.1, h.2.2.2.2.2.2.2.2.1, h.2.2.2.2.2.2.2.2.2.1, h.2.2.2.2.2.2.2.2.2.2⟩⟩

theorem Keeps.c_celErr {w : Nat} {s : State} (x : _) (hb : Sub m_celErr w) (hx : s.Wf → keysRise x = true) : Keeps w s { s with celErr := x } :=
  ⟨rfl, fun _ _ _ => rfl, fun _ => rfl, fun _ => rfl, fun _ => rfl, fun _ => rfl, fun _ => rfl, fun _ => rfl,
    fun o => absurd o (hb.not_off (by decide +kernel)), fun _ => rfl, fun _ => rfl, fun _ => rfl, fun _ => rfl,
    fun _ => rfl, fun _ => rfl, fun _ => rfl, fun _ => rfl, fun _ => rfl, fun _ => rfl, fun _ => rfl, fun _ => rfl,
    fun _ => rfl, fun _ => rfl, fun _ => rfl, fun _ => rfl, fun _ => rfl, fun _ => rfl, fun _ => rfl, fun _ => rfl,
    fun _ => rfl, fun _ => rfl, fun _ => rfl, fun _ => rfl, fun _ => rfl, fun _ => rfl, fun _ => rfl, fun _ => rfl,
    fun _ => rfl, fun _ => rfl, fun _ => rfl, fun _ => rfl, fun _ => rfl, fun _ => rfl, fun _ => rfl, fun _ => rfl,
    fun _ => rfl, fun _ => rfl, fun _ => rfl,
    fun h => ⟨h.1, h.2.1, h.2.2.1, h.2.2.2.1, h.2.2.2.2.1, h.2.2.2.2.2.1, hx h, h.2.2.2.2.2.2.2.1, h.2.2.2.2.2.2.2.2.1, h.2.2.2.2.2.2.2.2.2.1, h.2.2.2.2.2.2.2.2.2.2⟩⟩

theorem Keeps.c_flash {w : Nat} {s : State} (x : _) (hb : Sub m_flash w) (hx : s.Wf → Memory.wf flashByte x = true) : Keeps w s { s with flash := x } :=
  ⟨rfl, fun _ _ _ => rfl, fun _ => rfl, fun _ => rfl, fun _ => rfl, fun _ => rfl, fun _ => rfl, fun _ => rfl, fun _ => rfl,
    fun o => absurd o (hb.not_off (by decide +kernel)), fun _ => rfl, fun _ => rfl, fun _ => rfl, fun _ => rfl,
    fun _ => rfl, fun _ => rfl, fun _ => rfl, fun _ => rfl, fun _ => rfl, fun _ => rfl, fun _ => rfl, fun _ => rfl,
    fun _ => rfl, fun _ => rfl, fun _ => rfl, fun _ => rfl, fun _ => rfl, fun _ => rfl, fun _ => rfl, fun _ => rfl,
    fun _ => rfl, fun _ => rfl, fun _ => rfl, fun _ => rfl, fun _ => rfl, fun _ => rfl, fun _ => rfl, fun _ => rfl,
    fun _ => rfl, fun _ => rfl, fun _ => rfl, fun _ => rfl, fun _ => rfl, fun _ => rfl, fun _ => rfl, fun _ => rfl,
    fun _ => rfl, fun _ => rfl,
    fun h => ⟨h.1, h.2.1, h.2.2.1, h.2.2.2.1, hx h, h.2.2.2.2.2.1, h.2.2.2.2.2.2.1, h.2.2.2.2.2.2.2.1, h.2.2.2.2.2.2.2.2.1, h.2.2.2.2.2.2.2.2.2.1, h.2.2.2.2.2.2.2.2.2.2⟩⟩

theorem Keeps.c_fltLog {w : Nat} {s : State} (x : _) (hb : Sub m_fltLog w) (hx : s.Wf → Memory.wf ramByte x = true) : Keeps w s { s with fltLog := x } :=
  ⟨rfl, fun _ _ _ => rfl, fun _ => rfl, fun _ => rfl, fun _ => rfl, fun _ => rfl, fun _ => rfl, fun _ => rfl, fun _ => rfl,
    fun _ => rfl, fun o => absurd o (hb.not_off (by decide +kernel)), fun _ => rfl, fun _ => rfl, fun _ => rfl,
    fun _ => rfl, fun _ => rfl, fun _ => rfl, fun _ => rfl, fun _ => rfl, fun _ => rfl, fun _ => rfl, fun _ => rfl,
    fun _ => rfl, fun _ => rfl, fun _ => rfl, fun _ => rfl, fun _ => rfl, fun _ => rfl, fun _ => rfl, fun _ => rfl,
    fun _ => rfl, fun _ => rfl, fun _ => rfl, fun _ => rfl, fun _ => rfl, fun _ => rfl, fun _ => rfl, fun _ => rfl,
    fun _ => rfl, fun _ => rfl, fun _ => rfl, fun _ => rfl, fun _ => rfl, fun _ => rfl, fun _ => rfl, fun _ => rfl,
    fun _ => rfl, fun _ => rfl,
    fun h => ⟨h.1, h.2.1, h.2.2.1, h.2.2.2.1, h.2.2.2.2.1, hx h, h.2.2.2.2.2.2.1, h.2.2.2.2.2.2.2.1, h.2.2.2.2.2.2.2.2.1, h.2.2.2.2.2.2.2.2.2.1, h.2.2.2.2.2.2.2.2.2.2⟩⟩

theorem Keeps.c_corr {w : Nat} {s : State} (x : _) (hb : Sub m_corr w) (hx : s.Wf → keysRise x = true) : Keeps w s { s with corr := x } :=
  ⟨rfl, fun _ _ _ => rfl, fun _ => rfl, fun _ => rfl, fun _ => rfl, fun _ => rfl, fun _ => rfl, fun _ => rfl, fun _ => rfl,
    fun _ => rfl, fun _ => rfl, fun o => absurd o (hb.not_off (by decide +kernel)), fun _ => rfl, fun _ => rfl,
    fun _ => rfl, fun _ => rfl, fun _ => rfl, fun _ => rfl, fun _ => rfl, fun _ => rfl, fun _ => rfl, fun _ => rfl,
    fun _ => rfl, fun _ => rfl, fun _ => rfl, fun _ => rfl, fun _ => rfl, fun _ => rfl, fun _ => rfl, fun _ => rfl,
    fun _ => rfl, fun _ => rfl, fun _ => rfl, fun _ => rfl, fun _ => rfl, fun _ => rfl, fun _ => rfl, fun _ => rfl,
    fun _ => rfl, fun _ => rfl, fun _ => rfl, fun _ => rfl, fun _ => rfl, fun _ => rfl, fun _ => rfl, fun _ => rfl,
    fun _ => rfl, fun _ => rfl,
    fun h => ⟨h.1, h.2.1, h.2.2.1, h.2.2.2.1, h.2.2.2.2.1, h.2.2.2.2.2.1, h.2.2.2.2.2.2.1, hx h, h.2.2.2.2.2.2.2.2.1, h.2.2.2.2.2.2.2.2.2.1, h.2.2.2.2.2.2.2.2.2.2⟩⟩

theorem Keeps.c_fuses {w : Nat} {s : State} (x : _) (hb : Sub m_fuses w) (hx : s.Wf → keysRise x = true) : Keeps w s { s with fuses := x } :=
  ⟨rfl, fun _ _ _ => rfl, fun _ => rfl, fun _ => rfl, fun _ => rfl, fun _ => rfl, fun _ => rfl, fun _ => rfl, fun _ => rfl,
    fun _ => rfl, fun _ => rfl, fun _ => rfl, fun o => absurd o (hb.not_off (by decide +kernel)), fun _ => rfl,
    fun _ => rfl, fun _ => rfl, fun _ => rfl, fun _ => rfl, fun _ => rfl, fun _ => rfl, fun _ => rfl, fun _ => rfl,
    fun _ => rfl, fun _ => rfl, fun _ => rfl, fun _ => rfl, fun _ => rfl, fun _ => rfl, fun _ => rfl, fun _ => rfl,
    fun _ => rfl, fun _ => rfl, fun _ => rfl, fun _ => rfl, fun _ => rfl, fun _ => rfl, fun _ => rfl, fun _ => rfl,
    fun _ => rfl, fun _ => rfl, fun _ => rfl, fun _ => rfl, fun _ => rfl, fun _ => rfl, fun _ => rfl, fun _ => rfl,
    fun _ => rfl, fun _ => rfl,
    fun h => ⟨h.1, h.2.1, h.2.2.1, h.2.2.2.1, h.2.2.2.2.1, h.2.2.2.2.2.1, h.2.2.2.2.2.2.1, h.2.2.2.2.2.2.2.1, hx h, h.2.2.2.2.2.2.2.2.2.1, h.2.2.2.2.2.2.2.2.2.2⟩⟩

theorem Keeps.c_cstore {w : Nat} {s : State} (x : _) (hb : Sub m_cstore w) (hx : s.Wf → storeWf 0 x = true) : Keeps w s { s with cstore := x } :=
  ⟨rfl, fun _ _ _ => rfl, fun _ => rfl, fun _ => rfl, fun _ => rfl, fun _ => rfl, fun _ => rfl, fun _ => rfl, fun _ => rfl,
    fun _ => rfl, fun _ => rfl, fun _ => rfl, fun _ => rfl, fun o => absurd o (hb.not_off (by decide +kernel)),
    fun _ => rfl, fun _ => rfl, fun _ => rfl, fun _ => rfl, fun _ => rfl, fun _ => rfl, fun _ => rfl, fun _ => rfl,
    fun _ => rfl, fun _ => rfl, fun _ => rfl, fun _ => rfl, fun _ => rfl, fun _ => rfl, fun _ => rfl, fun _ => rfl,
    fun _ => rfl, fun _ => rfl, fun _ => rfl, fun _ => rfl, fun _ => rfl, fun _ => rfl, fun _ => rfl, fun _ => rfl,
    fun _ => rfl, fun _ => rfl, fun _ => rfl, fun _ => rfl, fun _ => rfl, fun _ => rfl, fun _ => rfl, fun _ => rfl,
    fun _ => rfl, fun _ => rfl,
    fun h => ⟨h.1, h.2.1, h.2.2.1, h.2.2.2.1, h.2.2.2.2.1, h.2.2.2.2.2.1, h.2.2.2.2.2.2.1, h.2.2.2.2.2.2.2.1, h.2.2.2.2.2.2.2.2.1, hx h, h.2.2.2.2.2.2.2.2.2.2⟩⟩

theorem Keeps.c_csBodies {w : Nat} {s : State} (x : _) (hb : Sub m_csBodies w) : Keeps w s { s with csBodies := x } :=
  ⟨rfl, fun _ _ _ => rfl, fun _ => rfl, fun _ => rfl, fun _ => rfl, fun _ => rfl, fun _ => rfl, fun _ => rfl, fun _ => rfl,
    fun _ => rfl, fun _ => rfl, fun _ => rfl, fun _ => rfl, fun _ => rfl,
    fun o => absurd o (hb.not_off (by decide +kernel)), fun _ => rfl, fun _ => rfl, fun _ => rfl, fun _ => rfl,
    fun _ => rfl, fun _ => rfl, fun _ => rfl, fun _ => rfl, fun _ => rfl, fun _ => rfl, fun _ => rfl, fun _ => rfl,
    fun _ => rfl, fun _ => rfl, fun _ => rfl, fun _ => rfl, fun _ => rfl, fun _ => rfl, fun _ => rfl, fun _ => rfl,
    fun _ => rfl, fun _ => rfl, fun _ => rfl, fun _ => rfl, fun _ => rfl, fun _ => rfl, fun _ => rfl, fun _ => rfl,
    fun _ => rfl, fun _ => rfl, fun _ => rfl, fun _ => rfl, fun _ => rfl,
    fun h => ⟨h.1, h.2.1, h.2.2.1, h.2.2.2.1, h.2.2.2.2.1, h.2.2.2.2.2.1, h.2.2.2.2.2.2.1, h.2.2.2.2.2.2.2.1, h.2.2.2.2.2.2.2.2.1, h.2.2.2.2.2.2.2.2.2.1, h.2.2.2.2.2.2.2.2.2.2⟩⟩

theorem Keeps.c_entries {w : Nat} {s : State} (x : _) (hb : Sub m_entries w) (hx : s.Wf → keysRise x = true) : Keeps w s { s with entries := x } :=
  ⟨rfl, fun _ _ _ => rfl, fun _ => rfl, fun _ => rfl, fun _ => rfl, fun _ => rfl, fun _ => rfl, fun _ => rfl, fun _ => rfl,
    fun _ => rfl, fun _ => rfl, fun _ => rfl, fun _ => rfl, fun _ => rfl, fun _ => rfl,
    fun o => absurd o (hb.not_off (by decide +kernel)), fun _ => rfl, fun _ => rfl, fun _ => rfl, fun _ => rfl,
    fun _ => rfl, fun _ => rfl, fun _ => rfl, fun _ => rfl, fun _ => rfl, fun _ => rfl, fun _ => rfl, fun _ => rfl,
    fun _ => rfl, fun _ => rfl, fun _ => rfl, fun _ => rfl, fun _ => rfl, fun _ => rfl, fun _ => rfl, fun _ => rfl,
    fun _ => rfl, fun _ => rfl, fun _ => rfl, fun _ => rfl, fun _ => rfl, fun _ => rfl, fun _ => rfl, fun _ => rfl,
    fun _ => rfl, fun _ => rfl, fun _ => rfl, fun _ => rfl,
    fun h => ⟨h.1, h.2.1, h.2.2.1, h.2.2.2.1, h.2.2.2.2.1, h.2.2.2.2.2.1, h.2.2.2.2.2.2.1, h.2.2.2.2.2.2.2.1, h.2.2.2.2.2.2.2.2.1, h.2.2.2.2.2.2.2.2.2.1, hx h⟩⟩

theorem Keeps.c_heldEntries {w : Nat} {s : State} (x : _) (hb : Sub m_heldEntries w) : Keeps w s { s with heldEntries := x } :=
  ⟨rfl, fun _ _ _ => rfl, fun _ => rfl, fun _ => rfl, fun _ => rfl, fun _ => rfl, fun _ => rfl, fun _ => rfl, fun _ => rfl,
    fun _ => rfl, fun _ => rfl, fun _ => rfl, fun _ => rfl, fun _ => rfl, fun _ => rfl, fun _ => rfl,
    fun o => absurd o (hb.not_off (by decide +kernel)), fun _ => rfl, fun _ => rfl, fun _ => rfl, fun _ => rfl,
    fun _ => rfl, fun _ => rfl, fun _ => rfl, fun _ => rfl, fun _ => rfl, fun _ => rfl, fun _ => rfl, fun _ => rfl,
    fun _ => rfl, fun _ => rfl, fun _ => rfl, fun _ => rfl, fun _ => rfl, fun _ => rfl, fun _ => rfl, fun _ => rfl,
    fun _ => rfl, fun _ => rfl, fun _ => rfl, fun _ => rfl, fun _ => rfl, fun _ => rfl, fun _ => rfl, fun _ => rfl,
    fun _ => rfl, fun _ => rfl, fun _ => rfl,
    fun h => ⟨h.1, h.2.1, h.2.2.1, h.2.2.2.1, h.2.2.2.2.1, h.2.2.2.2.2.1, h.2.2.2.2.2.2.1, h.2.2.2.2.2.2.2.1, h.2.2.2.2.2.2.2.2.1, h.2.2.2.2.2.2.2.2.2.1, h.2.2.2.2.2.2.2.2.2.2⟩⟩

theorem Keeps.c_pendW {w : Nat} {s : State} (x : _) (hb : Sub m_pendW w) : Keeps w s { s with pendW := x } :=
  ⟨rfl, fun _ _ _ => rfl, fun _ => rfl, fun _ => rfl, fun _ => rfl, fun _ => rfl, fun _ => rfl, fun _ => rfl, fun _ => rfl,
    fun _ => rfl, fun _ => rfl, fun _ => rfl, fun _ => rfl, fun _ => rfl, fun _ => rfl, fun _ => rfl, fun _ => rfl,
    fun o => absurd o (hb.not_off (by decide +kernel)), fun _ => rfl, fun _ => rfl, fun _ => rfl, fun _ => rfl,
    fun _ => rfl, fun _ => rfl, fun _ => rfl, fun _ => rfl, fun _ => rfl, fun _ => rfl, fun _ => rfl, fun _ => rfl,
    fun _ => rfl, fun _ => rfl, fun _ => rfl, fun _ => rfl, fun _ => rfl, fun _ => rfl, fun _ => rfl, fun _ => rfl,
    fun _ => rfl, fun _ => rfl, fun _ => rfl, fun _ => rfl, fun _ => rfl, fun _ => rfl, fun _ => rfl, fun _ => rfl,
    fun _ => rfl, fun _ => rfl,
    fun h => ⟨h.1, h.2.1, h.2.2.1, h.2.2.2.1, h.2.2.2.2.1, h.2.2.2.2.2.1, h.2.2.2.2.2.2.1, h.2.2.2.2.2.2.2.1, h.2.2.2.2.2.2.2.2.1, h.2.2.2.2.2.2.2.2.2.1, h.2.2.2.2.2.2.2.2.2.2⟩⟩

theorem Keeps.c_ports {w : Nat} {s : State} (x : _) (hb : Sub m_ports w) : Keeps w s { s with ports := x } :=
  ⟨rfl, fun _ _ _ => rfl, fun _ => rfl, fun _ => rfl, fun _ => rfl, fun _ => rfl, fun _ => rfl, fun _ => rfl, fun _ => rfl,
    fun _ => rfl, fun _ => rfl, fun _ => rfl, fun _ => rfl, fun _ => rfl, fun _ => rfl, fun _ => rfl, fun _ => rfl,
    fun _ => rfl, fun o => absurd o (hb.not_off (by decide +kernel)), fun _ => rfl, fun _ => rfl, fun _ => rfl,
    fun _ => rfl, fun _ => rfl, fun _ => rfl, fun _ => rfl, fun _ => rfl, fun _ => rfl, fun _ => rfl, fun _ => rfl,
    fun _ => rfl, fun _ => rfl, fun _ => rfl, fun _ => rfl, fun _ => rfl, fun _ => rfl, fun _ => rfl, fun _ => rfl,
    fun _ => rfl, fun _ => rfl, fun _ => rfl, fun _ => rfl, fun _ => rfl, fun _ => rfl, fun _ => rfl, fun _ => rfl,
    fun _ => rfl, fun _ => rfl,
    fun h => ⟨h.1, h.2.1, h.2.2.1, h.2.2.2.1, h.2.2.2.2.1, h.2.2.2.2.2.1, h.2.2.2.2.2.2.1, h.2.2.2.2.2.2.2.1, h.2.2.2.2.2.2.2.2.1, h.2.2.2.2.2.2.2.2.2.1, h.2.2.2.2.2.2.2.2.2.2⟩⟩

theorem Keeps.c_waveBuf {w : Nat} {s : State} (x : _) (hb : Sub m_waveBuf w) : Keeps w s { s with waveBuf := x } :=
  ⟨rfl, fun _ _ _ => rfl, fun _ => rfl, fun _ => rfl, fun _ => rfl, fun _ => rfl, fun _ => rfl, fun _ => rfl, fun _ => rfl,
    fun _ => rfl, fun _ => rfl, fun _ => rfl, fun _ => rfl, fun _ => rfl, fun _ => rfl, fun _ => rfl, fun _ => rfl,
    fun _ => rfl, fun _ => rfl, fun o => absurd o (hb.not_off (by decide +kernel)), fun _ => rfl, fun _ => rfl,
    fun _ => rfl, fun _ => rfl, fun _ => rfl, fun _ => rfl, fun _ => rfl, fun _ => rfl, fun _ => rfl, fun _ => rfl,
    fun _ => rfl, fun _ => rfl, fun _ => rfl, fun _ => rfl, fun _ => rfl, fun _ => rfl, fun _ => rfl, fun _ => rfl,
    fun _ => rfl, fun _ => rfl, fun _ => rfl, fun _ => rfl, fun _ => rfl, fun _ => rfl, fun _ => rfl, fun _ => rfl,
    fun _ => rfl, fun _ => rfl,
    fun h => ⟨h.1, h.2.1, h.2.2.1, h.2.2.2.1, h.2.2.2.2.1, h.2.2.2.2.2.1, h.2.2.2.2.2.2.1, h.2.2.2.2.2.2.2.1, h.2.2.2.2.2.2.2.2.1, h.2.2.2.2.2.2.2.2.2.1, h.2.2.2.2.2.2.2.2.2.2⟩⟩

theorem Keeps.c_evicted {w : Nat} {s : State} (x : _) (hb : Sub m_evicted w) : Keeps w s { s with evicted := x } :=
  ⟨rfl, fun _ _ _ => rfl, fun _ => rfl, fun _ => rfl, fun _ => rfl, fun _ => rfl, fun _ => rfl, fun _ => rfl, fun _ => rfl,
    fun _ => rfl, fun _ => rfl, fun _ => rfl, fun _ => rfl, fun _ => rfl, fun _ => rfl, fun _ => rfl, fun _ => rfl,
    fun _ => rfl, fun _ => rfl, fun _ => rfl, fun o => absurd o (hb.not_off (by decide +kernel)), fun _ => rfl,
    fun _ => rfl, fun _ => rfl, fun _ => rfl, fun _ => rfl, fun _ => rfl, fun _ => rfl, fun _ => rfl, fun _ => rfl,
    fun _ => rfl, fun _ => rfl, fun _ => rfl, fun _ => rfl, fun _ => rfl, fun _ => rfl, fun _ => rfl, fun _ => rfl,
    fun _ => rfl, fun _ => rfl, fun _ => rfl, fun _ => rfl, fun _ => rfl, fun _ => rfl, fun _ => rfl, fun _ => rfl,
    fun _ => rfl, fun _ => rfl,
    fun h => ⟨h.1, h.2.1, h.2.2.1, h.2.2.2.1, h.2.2.2.2.1, h.2.2.2.2.2.1, h.2.2.2.2.2.2.1, h.2.2.2.2.2.2.2.1, h.2.2.2.2.2.2.2.2.1, h.2.2.2.2.2.2.2.2.2.1, h.2.2.2.2.2.2.2.2.2.2⟩⟩

theorem Keeps.c_lines {w : Nat} {s : State} (x : _) (hb : Sub m_lines w) : Keeps w s { s with lines := x } :=
  ⟨rfl, fun _ _ _ => rfl, fun _ => rfl, fun _ => rfl, fun _ => rfl, fun _ => rfl, fun _ => rfl, fun _ => rfl, fun _ => rfl,
    fun _ => rfl, fun _ => rfl, fun _ => rfl, fun _ => rfl, fun _ => rfl, fun _ => rfl, fun _ => rfl, fun _ => rfl,
    fun _ => rfl, fun _ => rfl, fun _ => rfl, fun _ => rfl, fun o => absurd o (hb.not_off (by decide +kernel)),
    fun _ => rfl, fun _ => rfl, fun _ => rfl, fun _ => rfl, fun _ => rfl, fun _ => rfl, fun _ => rfl, fun _ => rfl,
    fun _ => rfl, fun _ => rfl, fun _ => rfl, fun _ => rfl, fun _ => rfl, fun _ => rfl, fun _ => rfl, fun _ => rfl,
    fun _ => rfl, fun _ => rfl, fun _ => rfl, fun _ => rfl, fun _ => rfl, fun _ => rfl, fun _ => rfl, fun _ => rfl,
    fun _ => rfl, fun _ => rfl,
    fun h => ⟨h.1, h.2.1, h.2.2.1, h.2.2.2.1, h.2.2.2.2.1, h.2.2.2.2.2.1, h.2.2.2.2.2.2.1, h.2.2.2.2.2.2.2.1, h.2.2.2.2.2.2.2.2.1, h.2.2.2.2.2.2.2.2.2.1, h.2.2.2.2.2.2.2.2.2.2⟩⟩

theorem Keeps.c_reqs {w : Nat} {s : State} (x : _) (hb : Sub m_reqs w) : Keeps w s { s with reqs := x } :=
  ⟨rfl, fun _ _ _ => rfl, fun _ => rfl, fun _ => rfl, fun _ => rfl, fun _ => rfl, fun _ => rfl, fun _ => rfl, fun _ => rfl,
    fun _ => rfl, fun _ => rfl, fun _ => rfl, fun _ => rfl, fun _ => rfl, fun _ => rfl, fun _ => rfl, fun _ => rfl,
    fun _ => rfl, fun _ => rfl, fun _ => rfl, fun _ => rfl, fun _ => rfl,
    fun o => absurd o (hb.not_off (by decide +kernel)), fun _ => rfl, fun _ => rfl, fun _ => rfl, fun _ => rfl,
    fun _ => rfl, fun _ => rfl, fun _ => rfl, fun _ => rfl, fun _ => rfl, fun _ => rfl, fun _ => rfl, fun _ => rfl,
    fun _ => rfl, fun _ => rfl, fun _ => rfl, fun _ => rfl, fun _ => rfl, fun _ => rfl, fun _ => rfl, fun _ => rfl,
    fun _ => rfl, fun _ => rfl, fun _ => rfl, fun _ => rfl, fun _ => rfl,
    fun h => ⟨h.1, h.2.1, h.2.2.1, h.2.2.2.1, h.2.2.2.2.1, h.2.2.2.2.2.1, h.2.2.2.2.2.2.1, h.2.2.2.2.2.2.2.1, h.2.2.2.2.2.2.2.2.1, h.2.2.2.2.2.2.2.2.2.1, h.2.2.2.2.2.2.2.2.2.2⟩⟩

theorem Keeps.c_jobs {w : Nat} {s : State} (x : _) (hb : Sub m_jobs w) : Keeps w s { s with jobs := x } :=
  ⟨rfl, fun _ _ _ => rfl, fun _ => rfl, fun _ => rfl, fun _ => rfl, fun _ => rfl, fun _ => rfl, fun _ => rfl, fun _ => rfl,
    fun _ => rfl, fun _ => rfl, fun _ => rfl, fun _ => rfl, fun _ => rfl, fun _ => rfl, fun _ => rfl, fun _ => rfl,
    fun _ => rfl, fun _ => rfl, fun _ => rfl, fun _ => rfl, fun _ => rfl, fun _ => rfl,
    fun o => absurd o (hb.not_off (by decide +kernel)), fun _ => rfl, fun _ => rfl, fun _ => rfl, fun _ => rfl,
    fun _ => rfl, fun _ => rfl, fun _ => rfl, fun _ => rfl, fun _ => rfl, fun _ => rfl, fun _ => rfl, fun _ => rfl,
    fun _ => rfl, fun _ => rfl, fun _ => rfl, fun _ => rfl, fun _ => rfl, fun _ => rfl, fun _ => rfl, fun _ => rfl,
    fun _ => rfl, fun _ => rfl, fun _ => rfl, fun _ => rfl,
    fun h => ⟨h.1, h.2.1, h.2.2.1, h.2.2.2.1, h.2.2.2.2.1, h.2.2.2.2.2.1, h.2.2.2.2.2.2.1, h.2.2.2.2.2.2.2.1, h.2.2.2.2.2.2.2.2.1, h.2.2.2.2.2.2.2.2.2.1, h.2.2.2.2.2.2.2.2.2.2⟩⟩

theorem Keeps.c_inval {w : Nat} {s : State} (x : _) (hb : Sub m_inval w) : Keeps w s { s with inval := x } :=
  ⟨rfl, fun _ _ _ => rfl, fun _ => rfl, fun _ => rfl, fun _ => rfl, fun _ => rfl, fun _ => rfl, fun _ => rfl, fun _ => rfl,
    fun _ => rfl, fun _ => rfl, fun _ => rfl, fun _ => rfl, fun _ => rfl, fun _ => rfl, fun _ => rfl, fun _ => rfl,
    fun _ => rfl, fun _ => rfl, fun _ => rfl, fun _ => rfl, fun _ => rfl, fun _ => rfl, fun _ => rfl,
    fun o => absurd o (hb.not_off (by decide +kernel)), fun _ => rfl, fun _ => rfl, fun _ => rfl, fun _ => rfl,
    fun _ => rfl, fun _ => rfl, fun _ => rfl, fun _ => rfl, fun _ => rfl, fun _ => rfl, fun _ => rfl, fun _ => rfl,
    fun _ => rfl, fun _ => rfl, fun _ => rfl, fun _ => rfl, fun _ => rfl, fun _ => rfl, fun _ => rfl, fun _ => rfl,
    fun _ => rfl, fun _ => rfl, fun _ => rfl,
    fun h => ⟨h.1, h.2.1, h.2.2.1, h.2.2.2.1, h.2.2.2.2.1, h.2.2.2.2.2.1, h.2.2.2.2.2.2.1, h.2.2.2.2.2.2.2.1, h.2.2.2.2.2.2.2.2.1, h.2.2.2.2.2.2.2.2.2.1, h.2.2.2.2.2.2.2.2.2.2⟩⟩

theorem Keeps.c_cmdq {w : Nat} {s : State} (x : _) (hb : Sub m_cmdq w) : Keeps w s { s with cmdq := x } :=
  ⟨rfl, fun _ _ _ => rfl, fun _ => rfl, fun _ => rfl, fun _ => rfl, fun _ => rfl, fun _ => rfl, fun _ => rfl, fun _ => rfl,
    fun _ => rfl, fun _ => rfl, fun _ => rfl, fun _ => rfl, fun _ => rfl, fun _ => rfl, fun _ => rfl, fun _ => rfl,
    fun _ => rfl, fun _ => rfl, fun _ => rfl, fun _ => rfl, fun _ => rfl, fun _ => rfl, fun _ => rfl, fun _ => rfl,
    fun o => absurd o (hb.not_off (by decide +kernel)), fun _ => rfl, fun _ => rfl, fun _ => rfl, fun _ => rfl,
    fun _ => rfl, fun _ => rfl, fun _ => rfl, fun _ => rfl, fun _ => rfl, fun _ => rfl, fun _ => rfl, fun _ => rfl,
    fun _ => rfl, fun _ => rfl, fun _ => rfl, fun _ => rfl, fun _ => rfl, fun _ => rfl, fun _ => rfl, fun _ => rfl,
    fun _ => rfl, fun _ => rfl,
    fun h => ⟨h.1, h.2.1, h.2.2.1, h.2.2.2.1, h.2.2.2.2.1, h.2.2.2.2.2.1, h.2.2.2.2.2.2.1, h.2.2.2.2.2.2.2.1, h.2.2.2.2.2.2.2.2.1, h.2.2.2.2.2.2.2.2.2.1, h.2.2.2.2.2.2.2.2.2.2⟩⟩

theorem Keeps.c_memq {w : Nat} {s : State} (x : _) (hb : Sub m_memq w) : Keeps w s { s with memq := x } :=
  ⟨rfl, fun _ _ _ => rfl, fun _ => rfl, fun _ => rfl, fun _ => rfl, fun _ => rfl, fun _ => rfl, fun _ => rfl, fun _ => rfl,
    fun _ => rfl, fun _ => rfl, fun _ => rfl, fun _ => rfl, fun _ => rfl, fun _ => rfl, fun _ => rfl, fun _ => rfl,
    fun _ => rfl, fun _ => rfl, fun _ => rfl, fun _ => rfl, fun _ => rfl, fun _ => rfl, fun _ => rfl, fun _ => rfl,
    fun _ => rfl, fun o => absurd o (hb.not_off (by decide +kernel)), fun _ => rfl, fun _ => rfl, fun _ => rfl,
    fun _ => rfl, fun _ => rfl, fun _ => rfl, fun _ => rfl, fun _ => rfl, fun _ => rfl, fun _ => rfl, fun _ => rfl,
    fun _ => rfl, fun _ => rfl, fun _ => rfl, fun _ => rfl, fun _ => rfl, fun _ => rfl, fun _ => rfl, fun _ => rfl,
    fun _ => rfl, fun _ => rfl,
    fun h => ⟨h.1, h.2.1, h.2.2.1, h.2.2.2.1, h.2.2.2.2.1, h.2.2.2.2.2.1, h.2.2.2.2.2.2.1, h.2.2.2.2.2.2.2.1, h.2.2.2.2.2.2.2.2.1, h.2.2.2.2.2.2.2.2.2.1, h.2.2.2.2.2.2.2.2.2.2⟩⟩

theorem Keeps.c_refused {w : Nat} {s : State} (x : _) (hb : Sub m_refused w) : Keeps w s { s with refused := x } :=
  ⟨rfl, fun _ _ _ => rfl, fun _ => rfl, fun _ => rfl, fun _ => rfl, fun _ => rfl, fun _ => rfl, fun _ => rfl, fun _ => rfl,
    fun _ => rfl, fun _ => rfl, fun _ => rfl, fun _ => rfl, fun _ => rfl, fun _ => rfl, fun _ => rfl, fun _ => rfl,
    fun _ => rfl, fun _ => rfl, fun _ => rfl, fun _ => rfl, fun _ => rfl, fun _ => rfl, fun _ => rfl, fun _ => rfl,
    fun _ => rfl, fun _ => rfl, fun o => absurd o (hb.not_off (by decide +kernel)), fun _ => rfl, fun _ => rfl,
    fun _ => rfl, fun _ => rfl, fun _ => rfl, fun _ => rfl, fun _ => rfl, fun _ => rfl, fun _ => rfl, fun _ => rfl,
    fun _ => rfl, fun _ => rfl, fun _ => rfl, fun _ => rfl, fun _ => rfl, fun _ => rfl, fun _ => rfl, fun _ => rfl,
    fun _ => rfl, fun _ => rfl,
    fun h => ⟨h.1, h.2.1, h.2.2.1, h.2.2.2.1, h.2.2.2.2.1, h.2.2.2.2.2.1, h.2.2.2.2.2.2.1, h.2.2.2.2.2.2.2.1, h.2.2.2.2.2.2.2.2.1, h.2.2.2.2.2.2.2.2.2.1, h.2.2.2.2.2.2.2.2.2.2⟩⟩

theorem Keeps.c_memErrs {w : Nat} {s : State} (x : _) (hb : Sub m_memErrs w) : Keeps w s { s with memErrs := x } :=
  ⟨rfl, fun _ _ _ => rfl, fun _ => rfl, fun _ => rfl, fun _ => rfl, fun _ => rfl, fun _ => rfl, fun _ => rfl, fun _ => rfl,
    fun _ => rfl, fun _ => rfl, fun _ => rfl, fun _ => rfl, fun _ => rfl, fun _ => rfl, fun _ => rfl, fun _ => rfl,
    fun _ => rfl, fun _ => rfl, fun _ => rfl, fun _ => rfl, fun _ => rfl, fun _ => rfl, fun _ => rfl, fun _ => rfl,
    fun _ => rfl, fun _ => rfl, fun _ => rfl, fun o => absurd o (hb.not_off (by decide +kernel)), fun _ => rfl,
    fun _ => rfl, fun _ => rfl, fun _ => rfl, fun _ => rfl, fun _ => rfl, fun _ => rfl, fun _ => rfl, fun _ => rfl,
    fun _ => rfl, fun _ => rfl, fun _ => rfl, fun _ => rfl, fun _ => rfl, fun _ => rfl, fun _ => rfl, fun _ => rfl,
    fun _ => rfl, fun _ => rfl,
    fun h => ⟨h.1, h.2.1, h.2.2.1, h.2.2.2.1, h.2.2.2.2.1, h.2.2.2.2.2.1, h.2.2.2.2.2.2.1, h.2.2.2.2.2.2.2.1, h.2.2.2.2.2.2.2.2.1, h.2.2.2.2.2.2.2.2.2.1, h.2.2.2.2.2.2.2.2.2.2⟩⟩

theorem Keeps.c_evq {w : Nat} {s : State} (x : _) (hb : Sub m_evq w) : Keeps w s { s with evq := x } :=
  ⟨rfl, fun _ _ _ => rfl, fun _ => rfl, fun _ => rfl, fun _ => rfl, fun _ => rfl, fun _ => rfl, fun _ => rfl, fun _ => rfl,
    fun _ => rfl, fun _ => rfl, fun _ => rfl, fun _ => rfl, fun _ => rfl, fun _ => rfl, fun _ => rfl, fun _ => rfl,
    fun _ => rfl, fun _ => rfl, fun _ => rfl, fun _ => rfl, fun _ => rfl, fun _ => rfl, fun _ => rfl, fun _ => rfl,
    fun _ => rfl, fun _ => rfl, fun _ => rfl, fun _ => rfl, fun o => absurd o (hb.not_off (by decide +kernel)),
    fun _ => rfl, fun _ => rfl, fun _ => rfl, fun _ => rfl, fun _ => rfl, fun _ => rfl, fun _ => rfl, fun _ => rfl,
    fun _ => rfl, fun _ => rfl, fun _ => rfl, fun _ => rfl, fun _ => rfl, fun _ => rfl, fun _ => rfl, fun _ => rfl,
    fun _ => rfl, fun _ => rfl,
    fun h => ⟨h.1, h.2.1, h.2.2.1, h.2.2.2.1, h.2.2.2.2.1, h.2.2.2.2.2.1, h.2.2.2.2.2.2.1, h.2.2.2.2.2.2.2.1, h.2.2.2.2.2.2.2.2.1, h.2.2.2.2.2.2.2.2.2.1, h.2.2.2.2.2.2.2.2.2.2⟩⟩

theorem Keeps.c_failq {w : Nat} {s : State} (x : _) (hb : Sub m_failq w) : Keeps w s { s with failq := x } :=
  ⟨rfl, fun _ _ _ => rfl, fun _ => rfl, fun _ => rfl, fun _ => rfl, fun _ => rfl, fun _ => rfl, fun _ => rfl, fun _ => rfl,
    fun _ => rfl, fun _ => rfl, fun _ => rfl, fun _ => rfl, fun _ => rfl, fun _ => rfl, fun _ => rfl, fun _ => rfl,
    fun _ => rfl, fun _ => rfl, fun _ => rfl, fun _ => rfl, fun _ => rfl, fun _ => rfl, fun _ => rfl, fun _ => rfl,
    fun _ => rfl, fun _ => rfl, fun _ => rfl, fun _ => rfl, fun _ => rfl,
    fun o => absurd o (hb.not_off (by decide +kernel)), fun _ => rfl, fun _ => rfl, fun _ => rfl, fun _ => rfl,
    fun _ => rfl, fun _ => rfl, fun _ => rfl, fun _ => rfl, fun _ => rfl, fun _ => rfl, fun _ => rfl, fun _ => rfl,
    fun _ => rfl, fun _ => rfl, fun _ => rfl, fun _ => rfl, fun _ => rfl,
    fun h => ⟨h.1, h.2.1, h.2.2.1, h.2.2.2.1, h.2.2.2.2.1, h.2.2.2.2.2.1, h.2.2.2.2.2.2.1, h.2.2.2.2.2.2.2.1, h.2.2.2.2.2.2.2.2.1, h.2.2.2.2.2.2.2.2.2.1, h.2.2.2.2.2.2.2.2.2.2⟩⟩

theorem Keeps.c_events {w : Nat} {s : State} (x : _) (hb : Sub m_events w) : Keeps w s { s with events := x } :=
  ⟨rfl, fun _ _ _ => rfl, fun _ => rfl, fun _ => rfl, fun _ => rfl, fun _ => rfl, fun _ => rfl, fun _ => rfl, fun _ => rfl,
    fun _ => rfl, fun _ => rfl, fun _ => rfl, fun _ => rfl, fun _ => rfl, fun _ => rfl, fun _ => rfl, fun _ => rfl,
    fun _ => rfl, fun _ => rfl, fun _ => rfl, fun _ => rfl, fun _ => rfl, fun _ => rfl, fun _ => rfl, fun _ => rfl,
    fun _ => rfl, fun _ => rfl, fun _ => rfl, fun _ => rfl, fun _ => rfl, fun _ => rfl,
    fun o => absurd o (hb.not_off (by decide +kernel)), fun _ => rfl, fun _ => rfl, fun _ => rfl, fun _ => rfl,
    fun _ => rfl, fun _ => rfl, fun _ => rfl, fun _ => rfl, fun _ => rfl, fun _ => rfl, fun _ => rfl, fun _ => rfl,
    fun _ => rfl, fun _ => rfl, fun _ => rfl, fun _ => rfl,
    fun h => ⟨h.1, h.2.1, h.2.2.1, h.2.2.2.1, h.2.2.2.2.1, h.2.2.2.2.2.1, h.2.2.2.2.2.2.1, h.2.2.2.2.2.2.2.1, h.2.2.2.2.2.2.2.2.1, h.2.2.2.2.2.2.2.2.2.1, h.2.2.2.2.2.2.2.2.2.2⟩⟩

theorem Keeps.c_replies {w : Nat} {s : State} (x : _) (hb : Sub m_replies w) : Keeps w s { s with replies := x } :=
  ⟨rfl, fun _ _ _ => rfl, fun _ => rfl, fun _ => rfl, fun _ => rfl, fun _ => rfl, fun _ => rfl, fun _ => rfl, fun _ => rfl,
    fun _ => rfl, fun _ => rfl, fun _ => rfl, fun _ => rfl, fun _ => rfl, fun _ => rfl, fun _ => rfl, fun _ => rfl,
    fun _ => rfl, fun _ => rfl, fun _ => rfl, fun _ => rfl, fun _ => rfl, fun _ => rfl, fun _ => rfl, fun _ => rfl,
    fun _ => rfl, fun _ => rfl, fun _ => rfl, fun _ => rfl, fun _ => rfl, fun _ => rfl, fun _ => rfl,
    fun o => absurd o (hb.not_off (by decide +kernel)), fun _ => rfl, fun _ => rfl, fun _ => rfl, fun _ => rfl,
    fun _ => rfl, fun _ => rfl, fun _ => rfl, fun _ => rfl, fun _ => rfl, fun _ => rfl, fun _ => rfl, fun _ => rfl,
    fun _ => rfl, fun _ => rfl, fun _ => rfl,
    fun h => ⟨h.1, h.2.1, h.2.2.1, h.2.2.2.1, h.2.2.2.2.1, h.2.2.2.2.2.1, h.2.2.2.2.2.2.1, h.2.2.2.2.2.2.2.1, h.2.2.2.2.2.2.2.2.1, h.2.2.2.2.2.2.2.2.2.1, h.2.2.2.2.2.2.2.2.2.2⟩⟩

theorem Keeps.c_accepted {w : Nat} {s : State} (x : _) (hb : Sub m_accepted w) : Keeps w s { s with accepted := x } :=
  ⟨rfl, fun _ _ _ => rfl, fun _ => rfl, fun _ => rfl, fun _ => rfl, fun _ => rfl, fun _ => rfl, fun _ => rfl, fun _ => rfl,
    fun _ => rfl, fun _ => rfl, fun _ => rfl, fun _ => rfl, fun _ => rfl, fun _ => rfl, fun _ => rfl, fun _ => rfl,
    fun _ => rfl, fun _ => rfl, fun _ => rfl, fun _ => rfl, fun _ => rfl, fun _ => rfl, fun _ => rfl, fun _ => rfl,
    fun _ => rfl, fun _ => rfl, fun _ => rfl, fun _ => rfl, fun _ => rfl, fun _ => rfl, fun _ => rfl, fun _ => rfl,
    fun o => absurd o (hb.not_off (by decide +kernel)), fun _ => rfl, fun _ => rfl, fun _ => rfl, fun _ => rfl,
    fun _ => rfl, fun _ => rfl, fun _ => rfl, fun _ => rfl, fun _ => rfl, fun _ => rfl, fun _ => rfl, fun _ => rfl,
    fun _ => rfl, fun _ => rfl,
    fun h => ⟨h.1, h.2.1, h.2.2.1, h.2.2.2.1, h.2.2.2.2.1, h.2.2.2.2.2.1, h.2.2.2.2.2.2.1, h.2.2.2.2.2.2.2.1, h.2.2.2.2.2.2.2.2.1, h.2.2.2.2.2.2.2.2.2.1, h.2.2.2.2.2.2.2.2.2.2⟩⟩

theorem Keeps.c_outq {w : Nat} {s : State} (x : _) (hb : Sub m_outq w) : Keeps w s { s with outq := x } :=
  ⟨rfl, fun _ _ _ => rfl, fun _ => rfl, fun _ => rfl, fun _ => rfl, fun _ => rfl, fun _ => rfl, fun _ => rfl, fun _ => rfl,
    fun _ => rfl, fun _ => rfl, fun _ => rfl, fun _ => rfl, fun _ => rfl, fun _ => rfl, fun _ => rfl, fun _ => rfl,
    fun _ => rfl, fun _ => rfl, fun _ => rfl, fun _ => rfl, fun _ => rfl, fun _ => rfl, fun _ => rfl, fun _ => rfl,
    fun _ => rfl, fun _ => rfl, fun _ => rfl, fun _ => rfl, fun _ => rfl, fun _ => rfl, fun _ => rfl, fun _ => rfl,
    fun _ => rfl, fun o => absurd o (hb.not_off (by decide +kernel)), fun _ => rfl, fun _ => rfl, fun _ => rfl,
    fun _ => rfl, fun _ => rfl, fun _ => rfl, fun _ => rfl, fun _ => rfl, fun _ => rfl, fun _ => rfl, fun _ => rfl,
    fun _ => rfl, fun _ => rfl,
    fun h => ⟨h.1, h.2.1, h.2.2.1, h.2.2.2.1, h.2.2.2.2.1, h.2.2.2.2.2.1, h.2.2.2.2.2.2.1, h.2.2.2.2.2.2.2.1, h.2.2.2.2.2.2.2.2.1, h.2.2.2.2.2.2.2.2.2.1, h.2.2.2.2.2.2.2.2.2.2⟩⟩

theorem Keeps.c_replay {w : Nat} {s : State} (x : _) (hb : Sub m_replay w) : Keeps w s { s with replay := x } :=
  ⟨rfl, fun _ _ _ => rfl, fun _ => rfl, fun _ => rfl, fun _ => rfl, fun _ => rfl, fun _ => rfl, fun _ => rfl, fun _ => rfl,
    fun _ => rfl, fun _ => rfl, fun _ => rfl, fun _ => rfl, fun _ => rfl, fun _ => rfl, fun _ => rfl, fun _ => rfl,
    fun _ => rfl, fun _ => rfl, fun _ => rfl, fun _ => rfl, fun _ => rfl, fun _ => rfl, fun _ => rfl, fun _ => rfl,
    fun _ => rfl, fun _ => rfl, fun _ => rfl, fun _ => rfl, fun _ => rfl, fun _ => rfl, fun _ => rfl, fun _ => rfl,
    fun _ => rfl, fun _ => rfl, fun o => absurd o (hb.not_off (by decide +kernel)), fun _ => rfl, fun _ => rfl,
    fun _ => rfl, fun _ => rfl, fun _ => rfl, fun _ => rfl, fun _ => rfl, fun _ => rfl, fun _ => rfl, fun _ => rfl,
    fun _ => rfl, fun _ => rfl,
    fun h => ⟨h.1, h.2.1, h.2.2.1, h.2.2.2.1, h.2.2.2.2.1, h.2.2.2.2.2.1, h.2.2.2.2.2.2.1, h.2.2.2.2.2.2.2.1, h.2.2.2.2.2.2.2.2.1, h.2.2.2.2.2.2.2.2.2.1, h.2.2.2.2.2.2.2.2.2.2⟩⟩

theorem Keeps.c_bcasts {w : Nat} {s : State} (x : _) (hb : Sub m_bcasts w) : Keeps w s { s with bcasts := x } :=
  ⟨rfl, fun _ _ _ => rfl, fun _ => rfl, fun _ => rfl, fun _ => rfl, fun _ => rfl, fun _ => rfl, fun _ => rfl, fun _ => rfl,
    fun _ => rfl, fun _ => rfl, fun _ => rfl, fun _ => rfl, fun _ => rfl, fun _ => rfl, fun _ => rfl, fun _ => rfl,
    fun _ => rfl, fun _ => rfl, fun _ => rfl, fun _ => rfl, fun _ => rfl, fun _ => rfl, fun _ => rfl, fun _ => rfl,
    fun _ => rfl, fun _ => rfl, fun _ => rfl, fun _ => rfl, fun _ => rfl, fun _ => rfl, fun _ => rfl, fun _ => rfl,
    fun _ => rfl, fun _ => rfl, fun _ => rfl, fun o => absurd o (hb.not_off (by decide +kernel)), fun _ => rfl,
    fun _ => rfl, fun _ => rfl, fun _ => rfl, fun _ => rfl, fun _ => rfl, fun _ => rfl, fun _ => rfl, fun _ => rfl,
    fun _ => rfl, fun _ => rfl,
    fun h => ⟨h.1, h.2.1, h.2.2.1, h.2.2.2.1, h.2.2.2.2.1, h.2.2.2.2.2.1, h.2.2.2.2.2.2.1, h.2.2.2.2.2.2.2.1, h.2.2.2.2.2.2.2.2.1, h.2.2.2.2.2.2.2.2.2.1, h.2.2.2.2.2.2.2.2.2.2⟩⟩

theorem Keeps.c_asm {w : Nat} {s : State} (x : _) (hb : Sub m_asm w) : Keeps w s { s with asm := x } :=
  ⟨rfl, fun _ _ _ => rfl, fun _ => rfl, fun _ => rfl, fun _ => rfl, fun _ => rfl, fun _ => rfl, fun _ => rfl, fun _ => rfl,
    fun _ => rfl, fun _ => rfl, fun _ => rfl, fun _ => rfl, fun _ => rfl, fun _ => rfl, fun _ => rfl, fun _ => rfl,
    fun _ => rfl, fun _ => rfl, fun _ => rfl, fun _ => rfl, fun _ => rfl, fun _ => rfl, fun _ => rfl, fun _ => rfl,
    fun _ => rfl, fun _ => rfl, fun _ => rfl, fun _ => rfl, fun _ => rfl, fun _ => rfl, fun _ => rfl, fun _ => rfl,
    fun _ => rfl, fun _ => rfl, fun _ => rfl, fun _ => rfl, fun o => absurd o (hb.not_off (by decide +kernel)),
    fun _ => rfl, fun _ => rfl, fun _ => rfl, fun _ => rfl, fun _ => rfl, fun _ => rfl, fun _ => rfl, fun _ => rfl,
    fun _ => rfl, fun _ => rfl,
    fun h => ⟨h.1, h.2.1, h.2.2.1, h.2.2.2.1, h.2.2.2.2.1, h.2.2.2.2.2.1, h.2.2.2.2.2.2.1, h.2.2.2.2.2.2.2.1, h.2.2.2.2.2.2.2.2.1, h.2.2.2.2.2.2.2.2.2.1, h.2.2.2.2.2.2.2.2.2.2⟩⟩

theorem Keeps.c_h2d {w : Nat} {s : State} (x : _) (hb : Sub m_h2d w) : Keeps w s { s with h2d := x } :=
  ⟨rfl, fun _ _ _ => rfl, fun _ => rfl, fun _ => rfl, fun _ => rfl, fun _ => rfl, fun _ => rfl, fun _ => rfl, fun _ => rfl,
    fun _ => rfl, fun _ => rfl, fun _ => rfl, fun _ => rfl, fun _ => rfl, fun _ => rfl, fun _ => rfl, fun _ => rfl,
    fun _ => rfl, fun _ => rfl, fun _ => rfl, fun _ => rfl, fun _ => rfl, fun _ => rfl, fun _ => rfl, fun _ => rfl,
    fun _ => rfl, fun _ => rfl, fun _ => rfl, fun _ => rfl, fun _ => rfl, fun _ => rfl, fun _ => rfl, fun _ => rfl,
    fun _ => rfl, fun _ => rfl, fun _ => rfl, fun _ => rfl, fun _ => rfl,
    fun o => absurd o (hb.not_off (by decide +kernel)), fun _ => rfl, fun _ => rfl, fun _ => rfl, fun _ => rfl,
    fun _ => rfl, fun _ => rfl, fun _ => rfl, fun _ => rfl, fun _ => rfl,
    fun h => ⟨h.1, h.2.1, h.2.2.1, h.2.2.2.1, h.2.2.2.2.1, h.2.2.2.2.2.1, h.2.2.2.2.2.2.1, h.2.2.2.2.2.2.2.1, h.2.2.2.2.2.2.2.2.1, h.2.2.2.2.2.2.2.2.2.1, h.2.2.2.2.2.2.2.2.2.2⟩⟩

theorem Keeps.c_d2h {w : Nat} {s : State} (x : _) (hb : Sub m_d2h w) : Keeps w s { s with d2h := x } :=
  ⟨rfl, fun _ _ _ => rfl, fun _ => rfl, fun _ => rfl, fun _ => rfl, fun _ => rfl, fun _ => rfl, fun _ => rfl, fun _ => rfl,
    fun _ => rfl, fun _ => rfl, fun _ => rfl, fun _ => rfl, fun _ => rfl, fun _ => rfl, fun _ => rfl, fun _ => rfl,
    fun _ => rfl, fun _ => rfl, fun _ => rfl, fun _ => rfl, fun _ => rfl, fun _ => rfl, fun _ => rfl, fun _ => rfl,
    fun _ => rfl, fun _ => rfl, fun _ => rfl, fun _ => rfl, fun _ => rfl, fun _ => rfl, fun _ => rfl, fun _ => rfl,
    fun _ => rfl, fun _ => rfl, fun _ => rfl, fun _ => rfl, fun _ => rfl, fun _ => rfl,
    fun o => absurd o (hb.not_off (by decide +kernel)), fun _ => rfl, fun _ => rfl, fun _ => rfl, fun _ => rfl,
    fun _ => rfl, fun _ => rfl, fun _ => rfl, fun _ => rfl,
    fun h => ⟨h.1, h.2.1, h.2.2.1, h.2.2.2.1, h.2.2.2.2.1, h.2.2.2.2.2.1, h.2.2.2.2.2.2.1, h.2.2.2.2.2.2.2.1, h.2.2.2.2.2.2.2.2.1, h.2.2.2.2.2.2.2.2.2.1, h.2.2.2.2.2.2.2.2.2.2⟩⟩

theorem Keeps.c_h2e {w : Nat} {s : State} (x : _) (hb : Sub m_h2e w) : Keeps w s { s with h2e := x } :=
  ⟨rfl, fun _ _ _ => rfl, fun _ => rfl, fun _ => rfl, fun _ => rfl, fun _ => rfl, fun _ => rfl, fun _ => rfl, fun _ => rfl,
    fun _ => rfl, fun _ => rfl, fun _ => rfl, fun _ => rfl, fun _ => rfl, fun _ => rfl, fun _ => rfl, fun _ => rfl,
    fun _ => rfl, fun _ => rfl, fun _ => rfl, fun _ => rfl, fun _ => rfl, fun _ => rfl, fun _ => rfl, fun _ => rfl,
    fun _ => rfl, fun _ => rfl, fun _ => rfl, fun _ => rfl, fun _ => rfl, fun _ => rfl, fun _ => rfl, fun _ => rfl,
    fun _ => rfl, fun _ => rfl, fun _ => rfl, fun _ => rfl, fun _ => rfl, fun _ => rfl, fun _ => rfl,
    fun o => absurd o (hb.not_off (by decide +kernel)), fun _ => rfl, fun _ => rfl, fun _ => rfl, fun _ => rfl,
    fun _ => rfl, fun _ => rfl, fun _ => rfl,
    fun h => ⟨h.1, h.2.1, h.2.2.1, h.2.2.2.1, h.2.2.2.2.1, h.2.2.2.2.2.1, h.2.2.2.2.2.2.1, h.2.2.2.2.2.2.2.1, h.2.2.2.2.2.2.2.2.1, h.2.2.2.2.2.2.2.2.2.1, h.2.2.2.2.2.2.2.2.2.2⟩⟩

theorem Keeps.c_e2h {w : Nat} {s : State} (x : _) (hb : Sub m_e2h w) : Keeps w s { s with e2h := x } :=
  ⟨rfl, fun _ _ _ => rfl, fun _ => rfl, fun _ => rfl, fun _ => rfl, fun _ => rfl, fun _ => rfl, fun _ => rfl, fun _ => rfl,
    fun _ => rfl, fun _ => rfl, fun _ => rfl, fun _ => rfl, fun _ => rfl, fun _ => rfl, fun _ => rfl, fun _ => rfl,
    fun _ => rfl, fun _ => rfl, fun _ => rfl, fun _ => rfl, fun _ => rfl, fun _ => rfl, fun _ => rfl, fun _ => rfl,
    fun _ => rfl, fun _ => rfl, fun _ => rfl, fun _ => rfl, fun _ => rfl, fun _ => rfl, fun _ => rfl, fun _ => rfl,
    fun _ => rfl, fun _ => rfl, fun _ => rfl, fun _ => rfl, fun _ => rfl, fun _ => rfl, fun _ => rfl, fun _ => rfl,
    fun o => absurd o (hb.not_off (by decide +kernel)), fun _ => rfl, fun _ => rfl, fun _ => rfl, fun _ => rfl,
    fun _ => rfl, fun _ => rfl,
    fun h => ⟨h.1, h.2.1, h.2.2.1, h.2.2.2.1, h.2.2.2.2.1, h.2.2.2.2.2.1, h.2.2.2.2.2.2.1, h.2.2.2.2.2.2.2.1, h.2.2.2.2.2.2.2.2.1, h.2.2.2.2.2.2.2.2.2.1, h.2.2.2.2.2.2.2.2.2.2⟩⟩

theorem Keeps.c_safe {w : Nat} {s : State} (x : _) (hb : Sub m_safe w) : Keeps w s { s with safe := x } :=
  ⟨rfl, fun _ _ _ => rfl, fun _ => rfl, fun _ => rfl, fun _ => rfl, fun _ => rfl, fun _ => rfl, fun _ => rfl, fun _ => rfl,
    fun _ => rfl, fun _ => rfl, fun _ => rfl, fun _ => rfl, fun _ => rfl, fun _ => rfl, fun _ => rfl, fun _ => rfl,
    fun _ => rfl, fun _ => rfl, fun _ => rfl, fun _ => rfl, fun _ => rfl, fun _ => rfl, fun _ => rfl, fun _ => rfl,
    fun _ => rfl, fun _ => rfl, fun _ => rfl, fun _ => rfl, fun _ => rfl, fun _ => rfl, fun _ => rfl, fun _ => rfl,
    fun _ => rfl, fun _ => rfl, fun _ => rfl, fun _ => rfl, fun _ => rfl, fun _ => rfl, fun _ => rfl, fun _ => rfl,
    fun _ => rfl, fun o => absurd o (hb.not_off (by decide +kernel)), fun _ => rfl, fun _ => rfl, fun _ => rfl,
    fun _ => rfl, fun _ => rfl,
    fun h => ⟨h.1, h.2.1, h.2.2.1, h.2.2.2.1, h.2.2.2.2.1, h.2.2.2.2.2.1, h.2.2.2.2.2.2.1, h.2.2.2.2.2.2.2.1, h.2.2.2.2.2.2.2.2.1, h.2.2.2.2.2.2.2.2.2.1, h.2.2.2.2.2.2.2.2.2.2⟩⟩

theorem Keeps.c_trigActs {w : Nat} {s : State} (x : _) (hb : Sub m_trigActs w) : Keeps w s { s with trigActs := x } :=
  ⟨rfl, fun _ _ _ => rfl, fun _ => rfl, fun _ => rfl, fun _ => rfl, fun _ => rfl, fun _ => rfl, fun _ => rfl, fun _ => rfl,
    fun _ => rfl, fun _ => rfl, fun _ => rfl, fun _ => rfl, fun _ => rfl, fun _ => rfl, fun _ => rfl, fun _ => rfl,
    fun _ => rfl, fun _ => rfl, fun _ => rfl, fun _ => rfl, fun _ => rfl, fun _ => rfl, fun _ => rfl, fun _ => rfl,
    fun _ => rfl, fun _ => rfl, fun _ => rfl, fun _ => rfl, fun _ => rfl, fun _ => rfl, fun _ => rfl, fun _ => rfl,
    fun _ => rfl, fun _ => rfl, fun _ => rfl, fun _ => rfl, fun _ => rfl, fun _ => rfl, fun _ => rfl, fun _ => rfl,
    fun _ => rfl, fun _ => rfl, fun o => absurd o (hb.not_off (by decide +kernel)), fun _ => rfl, fun _ => rfl,
    fun _ => rfl, fun _ => rfl,
    fun h => ⟨h.1, h.2.1, h.2.2.1, h.2.2.2.1, h.2.2.2.2.1, h.2.2.2.2.2.1, h.2.2.2.2.2.2.1, h.2.2.2.2.2.2.2.1, h.2.2.2.2.2.2.2.2.1, h.2.2.2.2.2.2.2.2.2.1, h.2.2.2.2.2.2.2.2.2.2⟩⟩

theorem Keeps.c_flows {w : Nat} {s : State} (x : _) (hb : Sub m_flows w) : Keeps w s { s with flows := x } :=
  ⟨rfl, fun _ _ _ => rfl, fun _ => rfl, fun _ => rfl, fun _ => rfl, fun _ => rfl, fun _ => rfl, fun _ => rfl, fun _ => rfl,
    fun _ => rfl, fun _ => rfl, fun _ => rfl, fun _ => rfl, fun _ => rfl, fun _ => rfl, fun _ => rfl, fun _ => rfl,
    fun _ => rfl, fun _ => rfl, fun _ => rfl, fun _ => rfl, fun _ => rfl, fun _ => rfl, fun _ => rfl, fun _ => rfl,
    fun _ => rfl, fun _ => rfl, fun _ => rfl, fun _ => rfl, fun _ => rfl, fun _ => rfl, fun _ => rfl, fun _ => rfl,
    fun _ => rfl, fun _ => rfl, fun _ => rfl, fun _ => rfl, fun _ => rfl, fun _ => rfl, fun _ => rfl, fun _ => rfl,
    fun _ => rfl, fun _ => rfl, fun _ => rfl, fun o => absurd o (hb.not_off (by decide +kernel)), fun _ => rfl,
    fun _ => rfl, fun _ => rfl,
    fun h => ⟨h.1, h.2.1, h.2.2.1, h.2.2.2.1, h.2.2.2.2.1, h.2.2.2.2.2.1, h.2.2.2.2.2.2.1, h.2.2.2.2.2.2.2.1, h.2.2.2.2.2.2.2.2.1, h.2.2.2.2.2.2.2.2.2.1, h.2.2.2.2.2.2.2.2.2.2⟩⟩

theorem Keeps.c_corrPend {w : Nat} {s : State} (x : _) (hb : Sub m_corrPend w) : Keeps w s { s with corrPend := x } :=
  ⟨rfl, fun _ _ _ => rfl, fun _ => rfl, fun _ => rfl, fun _ => rfl, fun _ => rfl, fun _ => rfl, fun _ => rfl, fun _ => rfl,
    fun _ => rfl, fun _ => rfl, fun _ => rfl, fun _ => rfl, fun _ => rfl, fun _ => rfl, fun _ => rfl, fun _ => rfl,
    fun _ => rfl, fun _ => rfl, fun _ => rfl, fun _ => rfl, fun _ => rfl, fun _ => rfl, fun _ => rfl, fun _ => rfl,
    fun _ => rfl, fun _ => rfl, fun _ => rfl, fun _ => rfl, fun _ => rfl, fun _ => rfl, fun _ => rfl, fun _ => rfl,
    fun _ => rfl, fun _ => rfl, fun _ => rfl, fun _ => rfl, fun _ => rfl, fun _ => rfl, fun _ => rfl, fun _ => rfl,
    fun _ => rfl, fun _ => rfl, fun _ => rfl, fun _ => rfl, fun o => absurd o (hb.not_off (by decide +kernel)),
    fun _ => rfl, fun _ => rfl,
    fun h => ⟨h.1, h.2.1, h.2.2.1, h.2.2.2.1, h.2.2.2.2.1, h.2.2.2.2.2.1, h.2.2.2.2.2.2.1, h.2.2.2.2.2.2.2.1, h.2.2.2.2.2.2.2.2.1, h.2.2.2.2.2.2.2.2.2.1, h.2.2.2.2.2.2.2.2.2.2⟩⟩

theorem Keeps.c_tdcq {w : Nat} {s : State} (x : _) (hb : Sub m_tdcq w) : Keeps w s { s with tdcq := x } :=
  ⟨rfl, fun _ _ _ => rfl, fun _ => rfl, fun _ => rfl, fun _ => rfl, fun _ => rfl, fun _ => rfl, fun _ => rfl, fun _ => rfl,
    fun _ => rfl, fun _ => rfl, fun _ => rfl, fun _ => rfl, fun _ => rfl, fun _ => rfl, fun _ => rfl, fun _ => rfl,
    fun _ => rfl, fun _ => rfl, fun _ => rfl, fun _ => rfl, fun _ => rfl, fun _ => rfl, fun _ => rfl, fun _ => rfl,
    fun _ => rfl, fun _ => rfl, fun _ => rfl, fun _ => rfl, fun _ => rfl, fun _ => rfl, fun _ => rfl, fun _ => rfl,
    fun _ => rfl, fun _ => rfl, fun _ => rfl, fun _ => rfl, fun _ => rfl, fun _ => rfl, fun _ => rfl, fun _ => rfl,
    fun _ => rfl, fun _ => rfl, fun _ => rfl, fun _ => rfl, fun _ => rfl,
    fun o => absurd o (hb.not_off (by decide +kernel)), fun _ => rfl,
    fun h => ⟨h.1, h.2.1, h.2.2.1, h.2.2.2.1, h.2.2.2.2.1, h.2.2.2.2.2.1, h.2.2.2.2.2.2.1, h.2.2.2.2.2.2.2.1, h.2.2.2.2.2.2.2.2.1, h.2.2.2.2.2.2.2.2.2.1, h.2.2.2.2.2.2.2.2.2.2⟩⟩

theorem Keeps.c_flashOps {w : Nat} {s : State} (x : _) (hb : Sub m_flashOps w) : Keeps w s { s with flashOps := x } :=
  ⟨rfl, fun _ _ _ => rfl, fun _ => rfl, fun _ => rfl, fun _ => rfl, fun _ => rfl, fun _ => rfl, fun _ => rfl, fun _ => rfl,
    fun _ => rfl, fun _ => rfl, fun _ => rfl, fun _ => rfl, fun _ => rfl, fun _ => rfl, fun _ => rfl, fun _ => rfl,
    fun _ => rfl, fun _ => rfl, fun _ => rfl, fun _ => rfl, fun _ => rfl, fun _ => rfl, fun _ => rfl, fun _ => rfl,
    fun _ => rfl, fun _ => rfl, fun _ => rfl, fun _ => rfl, fun _ => rfl, fun _ => rfl, fun _ => rfl, fun _ => rfl,
    fun _ => rfl, fun _ => rfl, fun _ => rfl, fun _ => rfl, fun _ => rfl, fun _ => rfl, fun _ => rfl, fun _ => rfl,
    fun _ => rfl, fun _ => rfl, fun _ => rfl, fun _ => rfl, fun _ => rfl, fun _ => rfl,
    fun o => absurd o (hb.not_off (by decide +kernel)),
    fun h => ⟨h.1, h.2.1, h.2.2.1, h.2.2.2.1, h.2.2.2.2.1, h.2.2.2.2.2.1, h.2.2.2.2.2.2.1, h.2.2.2.2.2.2.2.1, h.2.2.2.2.2.2.2.2.1, h.2.2.2.2.2.2.2.2.2.1, h.2.2.2.2.2.2.2.2.2.2⟩⟩

theorem Keeps.c_safe_events_accepted_outq_replay_h2d {w : Nat} {s : State} (x0 : _) (x1 : _) (x2 : _) (x3 : _) (x4 : _) (x5 : _) (x6 : _) (x7 : _) (x8 : _) (x9 : _) (x10 : _) (x11 : _) (x12 : _) (x13 : _) (x14 : _) (hb : Sub (m_safe ||| m_events ||| m_accepted ||| m_outq ||| m_replay ||| m_h2d ||| m_d2h ||| m_h2e ||| m_e2h ||| m_entries ||| m_cstore ||| m_csBodies ||| m_cellar ||| m_celErr ||| m_scratch) w) (hx9 : s.Wf → keysRise x9 = true) (hx10 : s.Wf → storeWf 0 x10 = true) (hx12 : s.Wf → Memory.wf ramByte x12 = true) (hx13 : s.Wf → keysRise x13 = true) (hx14 : s.Wf → Memory.wf ramByte x14 = true) :
    Keeps w s { s with safe := x0, events := x1, accepted := x2, outq := x3, replay := x4, h2d := x5, d2h := x6, h2e := x7, e2h := x8, entries := x9, cstore := x10, csBodies := x11, cellar := x12, celErr := x13, scratch := x14 } :=
  ⟨rfl, fun _ _ _ => rfl, fun _ => rfl, fun _ => rfl, fun _ => rfl, fun _ => rfl,
    fun o => absurd o (Sub.not_off (Sub.trans (by decide +kernel) hb) (by decide +kernel)),
    fun o => absurd o (Sub.not_off (Sub.trans (by decide +kernel) hb) (by decide +kernel)),
    fun o => absurd o (Sub.not_off (Sub.trans (by decide +kernel) hb) (by decide +kernel)), fun _ => rfl, fun _ => rfl,
    fun _ => rfl, fun _ => rfl, fun o => absurd o (Sub.not_off (Sub.trans (by decide +kernel) hb) (by decide +kernel)),
    fun o => absurd o (Sub.not_off (Sub.trans (by decide +kernel) hb) (by decide +kernel)),
    fun o => absurd o (Sub.not_off (Sub.trans (by decide +kernel) hb) (by decide +kernel)), fun _ => rfl, fun _ => rfl,
    fun _ => rfl, fun _ => rfl, fun _ => rfl, fun _ => rfl, fun _ => rfl, fun _ => rfl, fun _ => rfl, fun _ => rfl,
    fun _ => rfl, fun _ => rfl, fun _ => rfl, fun _ => rfl, fun _ => rfl,
    fun o => absurd o (Sub.not_off (Sub.trans (by decide +kernel) hb) (by decide +kernel)), fun _ => rfl,
    fun o => absurd o (Sub.not_off (Sub.trans (by decide +kernel) hb) (by decide +kernel)),
    fun o => absurd o (Sub.not_off (Sub.trans (by decide +kernel) hb) (by decide +kernel)),
    fun o => absurd o (Sub.not_off (Sub.trans (by decide +kernel) hb) (by decide +kernel)), fun _ => rfl, fun _ => rfl,
    fun o => absurd o (Sub.not_off (Sub.trans (by decide +kernel) hb) (by decide +kernel)),
    fun o => absurd o (Sub.not_off (Sub.trans (by decide +kernel) hb) (by decide +kernel)),
    fun o => absurd o (Sub.not_off (Sub.trans (by decide +kernel) hb) (by decide +kernel)),
    fun o => absurd o (Sub.not_off (Sub.trans (by decide +kernel) hb) (by decide +kernel)),
    fun o => absurd o (Sub.not_off (Sub.trans (by decide +kernel) hb) (by decide +kernel)), fun _ => rfl, fun _ => rfl,
    fun _ => rfl, fun _ => rfl, fun _ => rfl,
    fun h => ⟨h.1, h.2.1, hx14 h, hx12 h, h.2.2.2.2.1, h.2.2.2.2.2.1, hx13 h, h.2.2.2.2.2.2.2.1, h.2.2.2.2.2.2.2.2.1, hx10 h, hx9 h⟩⟩

theorem Keeps.c_lines_jobs {w : Nat} {s : State} (x0 : _) (x1 : _) (hb : Sub (m_lines ||| m_jobs) w) :
    Keeps w s { s with lines := x0, jobs := x1 } :=
  ⟨rfl, fun _ _ _ => rfl, fun _ => rfl, fun _ => rfl, fun _ => rfl, fun _ => rfl, fun _ => rfl, fun _ => rfl, fun _ => rfl,
    fun _ => rfl, fun _ => rfl, fun _ => rfl, fun _ => rfl, fun _ => rfl, fun _ => rfl, fun _ => rfl, fun _ => rfl,
    fun _ => rfl, fun _ => rfl, fun _ => rfl, fun _ => rfl,
    fun o => absurd o (Sub.not_off (Sub.trans (by decide +kernel) hb) (by decide +kernel)), fun _ => rfl,
    fun o => absurd o (Sub.not_off (Sub.trans (by decide +kernel) hb) (by decide +kernel)), fun _ => rfl, fun _ => rfl,
    fun _ => rfl, fun _ => rfl, fun _ => rfl, fun _ => rfl, fun _ => rfl, fun _ => rfl, fun _ => rfl, fun _ => rfl,
    fun _ => rfl, fun _ => rfl, fun _ => rfl, fun _ => rfl, fun _ => rfl, fun _ => rfl, fun _ => rfl, fun _ => rfl,
    fun _ => rfl, fun _ => rfl, fun _ => rfl, fun _ => rfl, fun _ => rfl, fun _ => rfl,
    fun h => ⟨h.1, h.2.1, h.2.2.1, h.2.2.2.1, h.2.2.2.2.1, h.2.2.2.2.2.1, h.2.2.2.2.2.2.1, h.2.2.2.2.2.2.2.1, h.2.2.2.2.2.2.2.2.1, h.2.2.2.2.2.2.2.2.2.1, h.2.2.2.2.2.2.2.2.2.2⟩⟩

theorem Keeps.c_lines_inval {w : Nat} {s : State} (x0 : _) (x1 : _) (hb : Sub (m_lines ||| m_inval) w) :
    Keeps w s { s with lines := x0, inval := x1 } :=
  ⟨rfl, fun _ _ _ => rfl, fun _ => rfl, fun _ => rfl, fun _ => rfl, fun _ => rfl, fun _ => rfl, fun _ => rfl, fun _ => rfl,
    fun _ => rfl, fun _ => rfl, fun _ => rfl, fun _ => rfl, fun _ => rfl, fun _ => rfl, fun _ => rfl, fun _ => rfl,
    fun _ => rfl, fun _ => rfl, fun _ => rfl, fun _ => rfl,
    fun o => absurd o (Sub.not_off (Sub.trans (by decide +kernel) hb) (by decide +kernel)), fun _ => rfl, fun _ => rfl,
    fun o => absurd o (Sub.not_off (Sub.trans (by decide +kernel) hb) (by decide +kernel)), fun _ => rfl, fun _ => rfl,
    fun _ => rfl, fun _ => rfl, fun _ => rfl, fun _ => rfl, fun _ => rfl, fun _ => rfl, fun _ => rfl, fun _ => rfl,
    fun _ => rfl, fun _ => rfl, fun _ => rfl, fun _ => rfl, fun _ => rfl, fun _ => rfl, fun _ => rfl, fun _ => rfl,
    fun _ => rfl, fun _ => rfl, fun _ => rfl, fun _ => rfl, fun _ => rfl,
    fun h => ⟨h.1, h.2.1, h.2.2.1, h.2.2.2.1, h.2.2.2.2.1, h.2.2.2.2.2.1, h.2.2.2.2.2.2.1, h.2.2.2.2.2.2.2.1, h.2.2.2.2.2.2.2.2.1, h.2.2.2.2.2.2.2.2.2.1, h.2.2.2.2.2.2.2.2.2.2⟩⟩

theorem Keeps.c_reqs_jobs {w : Nat} {s : State} (x0 : _) (x1 : _) (hb : Sub (m_reqs ||| m_jobs) w) :
    Keeps w s { s with reqs := x0, jobs := x1 } :=
  ⟨rfl, fun _ _ _ => rfl, fun _ => rfl, fun _ => rfl, fun _ => rfl, fun _ => rfl, fun _ => rfl, fun _ => rfl, fun _ => rfl,
    fun _ => rfl, fun _ => rfl, fun _ => rfl, fun _ => rfl, fun _ => rfl, fun _ => rfl, fun _ => rfl, fun _ => rfl,
    fun _ => rfl, fun _ => rfl, fun _ => rfl, fun _ => rfl, fun _ => rfl,
    fun o => absurd o (Sub.not_off (Sub.trans (by decide +kernel) hb) (by decide +kernel)),
    fun o => absurd o (Sub.not_off (Sub.trans (by decide +kernel) hb) (by decide +kernel)), fun _ => rfl, fun _ => rfl,
    fun _ => rfl, fun _ => rfl, fun _ => rfl, fun _ => rfl, fun _ => rfl, fun _ => rfl, fun _ => rfl, fun _ => rfl,
    fun _ => rfl, fun _ => rfl, fun _ => rfl, fun _ => rfl, fun _ => rfl, fun _ => rfl, fun _ => rfl, fun _ => rfl,
    fun _ => rfl, fun _ => rfl, fun _ => rfl, fun _ => rfl, fun _ => rfl, fun _ => rfl,
    fun h => ⟨h.1, h.2.1, h.2.2.1, h.2.2.2.1, h.2.2.2.2.1, h.2.2.2.2.2.1, h.2.2.2.2.2.2.1, h.2.2.2.2.2.2.2.1, h.2.2.2.2.2.2.2.2.1, h.2.2.2.2.2.2.2.2.2.1, h.2.2.2.2.2.2.2.2.2.2⟩⟩

theorem Keeps.c_outq_replay {w : Nat} {s : State} (x0 : _) (x1 : _) (hb : Sub (m_outq ||| m_replay) w) :
    Keeps w s { s with outq := x0, replay := x1 } :=
  ⟨rfl, fun _ _ _ => rfl, fun _ => rfl, fun _ => rfl, fun _ => rfl, fun _ => rfl, fun _ => rfl, fun _ => rfl, fun _ => rfl,
    fun _ => rfl, fun _ => rfl, fun _ => rfl, fun _ => rfl, fun _ => rfl, fun _ => rfl, fun _ => rfl, fun _ => rfl,
    fun _ => rfl, fun _ => rfl, fun _ => rfl, fun _ => rfl, fun _ => rfl, fun _ => rfl, fun _ => rfl, fun _ => rfl,
    fun _ => rfl, fun _ => rfl, fun _ => rfl, fun _ => rfl, fun _ => rfl, fun _ => rfl, fun _ => rfl, fun _ => rfl,
    fun _ => rfl, fun o => absurd o (Sub.not_off (Sub.trans (by decide +kernel) hb) (by decide +kernel)),
    fun o => absurd o (Sub.not_off (Sub.trans (by decide +kernel) hb) (by decide +kernel)), fun _ => rfl, fun _ => rfl,
    fun _ => rfl, fun _ => rfl, fun _ => rfl, fun _ => rfl, fun _ => rfl, fun _ => rfl, fun _ => rfl, fun _ => rfl,
    fun _ => rfl, fun _ => rfl,
    fun h => ⟨h.1, h.2.1, h.2.2.1, h.2.2.2.1, h.2.2.2.2.1, h.2.2.2.2.2.1, h.2.2.2.2.2.2.1, h.2.2.2.2.2.2.2.1, h.2.2.2.2.2.2.2.2.1, h.2.2.2.2.2.2.2.2.2.1, h.2.2.2.2.2.2.2.2.2.2⟩⟩

theorem Keeps.c_cmdq_memq_refused_memErrs_evq {w : Nat} {s : State} (x0 : _) (x1 : _) (x2 : _) (x3 : _) (x4 : _) (hb : Sub (m_cmdq ||| m_memq ||| m_refused ||| m_memErrs ||| m_evq) w) :
    Keeps w s { s with cmdq := x0, memq := x1, refused := x2, memErrs := x3, evq := x4 } :=
  ⟨rfl, fun _ _ _ => rfl, fun _ => rfl, fun _ => rfl, fun _ => rfl, fun _ => rfl, fun _ => rfl, fun _ => rfl, fun _ => rfl,
    fun _ => rfl, fun _ => rfl, fun _ => rfl, fun _ => rfl, fun _ => rfl, fun _ => rfl, fun _ => rfl, fun _ => rfl,
    fun _ => rfl, fun _ => rfl, fun _ => rfl, fun _ => rfl, fun _ => rfl, fun _ => rfl, fun _ => rfl, fun _ => rfl,
    fun o => absurd o (Sub.not_off (Sub.trans (by decide +kernel) hb) (by decide +kernel)),
    fun o => absurd o (Sub.not_off (Sub.trans (by decide +kernel) hb) (by decide +kernel)),
    fun o => absurd o (Sub.not_off (Sub.trans (by decide +kernel) hb) (by decide +kernel)),
    fun o => absurd o (Sub.not_off (Sub.trans (by decide +kernel) hb) (by decide +kernel)),
    fun o => absurd o (Sub.not_off (Sub.trans (by decide +kernel) hb) (by decide +kernel)), fun _ => rfl, fun _ => rfl,
    fun _ => rfl, fun _ => rfl, fun _ => rfl, fun _ => rfl, fun _ => rfl, fun _ => rfl, fun _ => rfl, fun _ => rfl,
    fun _ => rfl, fun _ => rfl, fun _ => rfl, fun _ => rfl, fun _ => rfl, fun _ => rfl, fun _ => rfl, fun _ => rfl,
    fun h => ⟨h.1, h.2.1, h.2.2.1, h.2.2.2.1, h.2.2.2.2.1, h.2.2.2.2.2.1, h.2.2.2.2.2.2.1, h.2.2.2.2.2.2.2.1, h.2.2.2.2.2.2.2.2.1, h.2.2.2.2.2.2.2.2.2.1, h.2.2.2.2.2.2.2.2.2.2⟩⟩

theorem Keeps.c_h2e_e2h {w : Nat} {s : State} (x0 : _) (x1 : _) (hb : Sub (m_h2e ||| m_e2h) w) :
    Keeps w s { s with h2e := x0, e2h := x1 } :=
  ⟨rfl, fun _ _ _ => rfl, fun _ => rfl, fun _ => rfl, fun _ => rfl, fun _ => rfl, fun _ => rfl, fun _ => rfl, fun _ => rfl,
    fun _ => rfl, fun _ => rfl, fun _ => rfl, fun _ => rfl, fun _ => rfl, fun _ => rfl, fun _ => rfl, fun _ => rfl,
    fun _ => rfl, fun _ => rfl, fun _ => rfl, fun _ => rfl, fun _ => rfl, fun _ => rfl, fun _ => rfl, fun _ => rfl,
    fun _ => rfl, fun _ => rfl, fun _ => rfl, fun _ => rfl, fun _ => rfl, fun _ => rfl, fun _ => rfl, fun _ => rfl,
    fun _ => rfl, fun _ => rfl, fun _ => rfl, fun _ => rfl, fun _ => rfl, fun _ => rfl, fun _ => rfl,
    fun o => absurd o (Sub.not_off (Sub.trans (by decide +kernel) hb) (by decide +kernel)),
    fun o => absurd o (Sub.not_off (Sub.trans (by decide +kernel) hb) (by decide +kernel)), fun _ => rfl, fun _ => rfl,
    fun _ => rfl, fun _ => rfl, fun _ => rfl, fun _ => rfl,
    fun h => ⟨h.1, h.2.1, h.2.2.1, h.2.2.2.1, h.2.2.2.2.1, h.2.2.2.2.2.1, h.2.2.2.2.2.2.1, h.2.2.2.2.2.2.2.1, h.2.2.2.2.2.2.2.2.1, h.2.2.2.2.2.2.2.2.2.1, h.2.2.2.2.2.2.2.2.2.2⟩⟩

theorem Keeps.c_cellar_celErr_csBodies {w : Nat} {s : State} (x0 : _) (x1 : _) (x2 : _) (hb : Sub (m_cellar ||| m_celErr ||| m_csBodies) w) (hx0 : s.Wf → Memory.wf ramByte x0 = true) (hx1 : s.Wf → keysRise x1 = true) :
    Keeps w s { s with cellar := x0, celErr := x1, csBodies := x2 } :=
  ⟨rfl, fun _ _ _ => rfl, fun _ => rfl, fun _ => rfl, fun _ => rfl, fun _ => rfl, fun _ => rfl,
    fun o => absurd o (Sub.not_off (Sub.trans (by decide +kernel) hb) (by decide +kernel)),
    fun o => absurd o (Sub.not_off (Sub.trans (by decide +kernel) hb) (by decide +kernel)), fun _ => rfl, fun _ => rfl,
    fun _ => rfl, fun _ => rfl, fun _ => rfl,
    fun o => absurd o (Sub.not_off (Sub.trans (by decide +kernel) hb) (by decide +kernel)), fun _ => rfl, fun _ => rfl,
    fun _ => rfl, fun _ => rfl, fun _ => rfl, fun _ => rfl, fun _ => rfl, fun _ => rfl, fun _ => rfl, fun _ => rfl,
    fun _ => rfl, fun _ => rfl, fun _ => rfl, fun _ => rfl, fun _ => rfl, fun _ => rfl, fun _ => rfl, fun _ => rfl,
    fun _ => rfl, fun _ => rfl, fun _ => rfl, fun _ => rfl, fun _ => rfl, fun _ => rfl, fun _ => rfl, fun _ => rfl,
    fun _ => rfl, fun _ => rfl, fun _ => rfl, fun _ => rfl, fun _ => rfl, fun _ => rfl, fun _ => rfl,
    fun h => ⟨h.1, h.2.1, h.2.2.1, hx0 h, h.2.2.2.2.1, h.2.2.2.2.2.1, hx1 h, h.2.2.2.2.2.2.2.1, h.2.2.2.2.2.2.2.2.1, h.2.2.2.2.2.2.2.2.2.1, h.2.2.2.2.2.2.2.2.2.2⟩⟩

theorem Keeps.c_heldEntries_pendW_ports_waveBuf_evicted_lines {w : Nat} {s : State} (x0 : _) (x1 : _) (x2 : _) (x3 : _) (x4 : _) (x5 : _) (x6 : _) (x7 : _) (x8 : _) (x9 : _) (x10 : _) (x11 : _) (x12 : _) (x13 : _) (x14 : _) (x15 : _) (x16 : _) (x17 : _) (x18 : _) (x19 : _) (hb : Sub (m_heldEntries ||| m_pendW ||| m_ports ||| m_waveBuf ||| m_evicted ||| m_lines ||| m_reqs ||| m_jobs ||| m_inval ||| m_cmdq ||| m_memq ||| m_refused ||| m_memErrs ||| m_evq ||| m_failq ||| m_asm ||| m_trigActs ||| m_flows ||| m_corrPend ||| m_tdcq) w) :
    Keeps w s { s with heldEntries := x0, pendW := x1, ports := x2, waveBuf := x3, evicted := x4, lines := x5, reqs := x6, jobs := x7, inval := x8, cmdq := x9, memq := x10, refused := x11, memErrs := x12, evq := x13, failq := x14, asm := x15, trigActs := x16, flows := x17, corrPend := x18, tdcq := x19 } :=
  ⟨rfl, fun _ _ _ => rfl, fun _ => rfl, fun _ => rfl, fun _ => rfl, fun _ => rfl, fun _ => rfl, fun _ => rfl, fun _ => rfl,
    fun _ => rfl, fun _ => rfl, fun _ => rfl, fun _ => rfl, fun _ => rfl, fun _ => rfl, fun _ => rfl,
    fun o => absurd o (Sub.not_off (Sub.trans (by decide +kernel) hb) (by decide +kernel)),
    fun o => absurd o (Sub.not_off (Sub.trans (by decide +kernel) hb) (by decide +kernel)),
    fun o => absurd o (Sub.not_off (Sub.trans (by decide +kernel) hb) (by decide +kernel)),
    fun o => absurd o (Sub.not_off (Sub.trans (by decide +kernel) hb) (by decide +kernel)),
    fun o => absurd o (Sub.not_off (Sub.trans (by decide +kernel) hb) (by decide +kernel)),
    fun o => absurd o (Sub.not_off (Sub.trans (by decide +kernel) hb) (by decide +kernel)),
    fun o => absurd o (Sub.not_off (Sub.trans (by decide +kernel) hb) (by decide +kernel)),
    fun o => absurd o (Sub.not_off (Sub.trans (by decide +kernel) hb) (by decide +kernel)),
    fun o => absurd o (Sub.not_off (Sub.trans (by decide +kernel) hb) (by decide +kernel)),
    fun o => absurd o (Sub.not_off (Sub.trans (by decide +kernel) hb) (by decide +kernel)),
    fun o => absurd o (Sub.not_off (Sub.trans (by decide +kernel) hb) (by decide +kernel)),
    fun o => absurd o (Sub.not_off (Sub.trans (by decide +kernel) hb) (by decide +kernel)),
    fun o => absurd o (Sub.not_off (Sub.trans (by decide +kernel) hb) (by decide +kernel)),
    fun o => absurd o (Sub.not_off (Sub.trans (by decide +kernel) hb) (by decide +kernel)),
    fun o => absurd o (Sub.not_off (Sub.trans (by decide +kernel) hb) (by decide +kernel)), fun _ => rfl, fun _ => rfl,
    fun _ => rfl, fun _ => rfl, fun _ => rfl, fun _ => rfl,
    fun o => absurd o (Sub.not_off (Sub.trans (by decide +kernel) hb) (by decide +kernel)), fun _ => rfl, fun _ => rfl,
    fun _ => rfl, fun _ => rfl, fun _ => rfl,
    fun o => absurd o (Sub.not_off (Sub.trans (by decide +kernel) hb) (by decide +kernel)),
    fun o => absurd o (Sub.not_off (Sub.trans (by decide +kernel) hb) (by decide +kernel)),
    fun o => absurd o (Sub.not_off (Sub.trans (by decide +kernel) hb) (by decide +kernel)),
    fun o => absurd o (Sub.not_off (Sub.trans (by decide +kernel) hb) (by decide +kernel)), fun _ => rfl,
    fun h => ⟨h.1, h.2.1, h.2.2.1, h.2.2.2.1, h.2.2.2.2.1, h.2.2.2.2.2.1, h.2.2.2.2.2.2.1, h.2.2.2.2.2.2.2.1, h.2.2.2.2.2.2.2.2.1, h.2.2.2.2.2.2.2.2.2.1, h.2.2.2.2.2.2.2.2.2.2⟩⟩

theorem Keeps.c_scratch_corr_cstore_entries_heldEntries {w : Nat} {s : State} (x0 : _) (x1 : _) (x2 : _) (x3 : _) (x4 : _) (hb : Sub (m_scratch ||| m_corr ||| m_cstore ||| m_entries ||| m_heldEntries) w) (hx0 : s.Wf → Memory.wf ramByte x0 = true) (hx1 : s.Wf → keysRise x1 = true) (hx2 : s.Wf → storeWf 0 x2 = true) (hx3 : s.Wf → keysRise x3 = true) :
    Keeps w s { s with scratch := x0, corr := x1, cstore := x2, entries := x3, heldEntries := x4 } :=
  ⟨rfl, fun _ _ _ => rfl, fun _ => rfl, fun _ => rfl, fun _ => rfl, fun _ => rfl,
    fun o => absurd o (Sub.not_off (Sub.trans (by decide +kernel) hb) (by decide +kernel)), fun _ => rfl, fun _ => rfl,
    fun _ => rfl, fun _ => rfl, fun o => absurd o (Sub.not_off (Sub.trans (by decide +kernel) hb) (by decide +kernel)),
    fun _ => rfl, fun o => absurd o (Sub.not_off (Sub.trans (by decide +kernel) hb) (by decide +kernel)), fun _ => rfl,
    fun o => absurd o (Sub.not_off (Sub.trans (by decide +kernel) hb) (by decide +kernel)),
    fun o => absurd o (Sub.not_off (Sub.trans (by decide +kernel) hb) (by decide +kernel)), fun _ => rfl, fun _ => rfl,
    fun _ => rfl, fun _ => rfl, fun _ => rfl, fun _ => rfl, fun _ => rfl, fun _ => rfl, fun _ => rfl, fun _ => rfl,
    fun _ => rfl, fun _ => rfl, fun _ => rfl, fun _ => rfl, fun _ => rfl, fun _ => rfl, fun _ => rfl, fun _ => rfl,
    fun _ => rfl, fun _ => rfl, fun _ => rfl, fun _ => rfl, fun _ => rfl, fun _ => rfl, fun _ => rfl, fun _ => rfl,
    fun _ => rfl, fun _ => rfl, fun _ => rfl, fun _ => rfl, fun _ => rfl,
    fun h => ⟨h.1, h.2.1, hx0 h, h.2.2.2.1, h.2.2.2.2.1, h.2.2.2.2.2.1, h.2.2.2.2.2.2.1, hx1 h, h.2.2.2.2.2.2.2.2.1, hx2 h, hx3 h⟩⟩

/-! ## A field written -/

theorem Keeps.put {w : Nat} (s : State) (f : Field) (i v : Nat) (hb : Sub (fm f) w) : Keeps w s (s.put f i v) :=
  ⟨rfl, fun g j o => s.get_put_ne (fun e => hb.not_off (fm_pos f) (by rwa [fm, (fkey_inj.1 e).1] at o)) v, fun _ => rfl,
    fun _ => rfl, fun _ => rfl, fun _ => rfl, fun _ => rfl, fun _ => rfl, fun _ => rfl, fun _ => rfl, fun _ => rfl,
    fun _ => rfl, fun _ => rfl, fun _ => rfl, fun _ => rfl, fun _ => rfl, fun _ => rfl, fun _ => rfl, fun _ => rfl,
    fun _ => rfl, fun _ => rfl, fun _ => rfl, fun _ => rfl, fun _ => rfl, fun _ => rfl, fun _ => rfl, fun _ => rfl,
    fun _ => rfl, fun _ => rfl, fun _ => rfl, fun _ => rfl, fun _ => rfl, fun _ => rfl, fun _ => rfl, fun _ => rfl,
    fun _ => rfl, fun _ => rfl, fun _ => rfl, fun _ => rfl, fun _ => rfl, fun _ => rfl, fun _ => rfl, fun _ => rfl,
    fun _ => rfl, fun _ => rfl, fun _ => rfl, fun _ => rfl, fun _ => rfl,
    fun h => ⟨keysRise_storeKey _ _ _ h.1, h.2.1, h.2.2.1, h.2.2.2.1, h.2.2.2.2.1, h.2.2.2.2.2.1, h.2.2.2.2.2.2.1, h.2.2.2.2.2.2.2.1, h.2.2.2.2.2.2.2.2.1, h.2.2.2.2.2.2.2.2.2.1, h.2.2.2.2.2.2.2.2.2.2⟩⟩

/-- The field file replaced by one in which no field outside the mask reads differently. -/
theorem Keeps.setff {w : Nat} {s : State} (l : List (Nat × Nat))
    (hl : ∀ f i, Off (fm f) w → (lookKey (fkey f i) l).getD (coldAt f i) = s.get f i)
    (hr : s.Wf → keysRise l = true) : Keeps w s { s with ff := l } :=
  ⟨rfl, hl, fun _ => rfl, fun _ => rfl, fun _ => rfl, fun _ => rfl, fun _ => rfl, fun _ => rfl, fun _ => rfl, fun _ => rfl,
    fun _ => rfl, fun _ => rfl, fun _ => rfl, fun _ => rfl, fun _ => rfl, fun _ => rfl, fun _ => rfl, fun _ => rfl,
    fun _ => rfl, fun _ => rfl, fun _ => rfl, fun _ => rfl, fun _ => rfl, fun _ => rfl, fun _ => rfl, fun _ => rfl,
    fun _ => rfl, fun _ => rfl, fun _ => rfl, fun _ => rfl, fun _ => rfl, fun _ => rfl, fun _ => rfl, fun _ => rfl,
    fun _ => rfl, fun _ => rfl, fun _ => rfl, fun _ => rfl, fun _ => rfl, fun _ => rfl, fun _ => rfl, fun _ => rfl,
    fun _ => rfl, fun _ => rfl, fun _ => rfl, fun _ => rfl, fun _ => rfl, fun _ => rfl,
    fun h => ⟨hr h, h.2.1, h.2.2.1, h.2.2.2.1, h.2.2.2.2.1, h.2.2.2.2.2.1, h.2.2.2.2.2.2.1, h.2.2.2.2.2.2.2.1, h.2.2.2.2.2.2.2.2.1, h.2.2.2.2.2.2.2.2.2.1, h.2.2.2.2.2.2.2.2.2.2⟩⟩

/-- The mask of every field. -/
def m_fields : Nat := 2 ^ 2048 - 1

theorem fm_any (f : Field) : Sub (fm f) m_fields := by
  apply Nat.eq_of_testBit_eq
  intro i
  have := f.id.isLt
  simp only [fm, m_fields, Nat.testBit_and, Nat.testBit_two_pow, Nat.testBit_two_pow_sub_one]
  by_cases h : f.id.val = i <;> simp [h] <;> omega

/-- The mask of what a cold reset writes. -/
def m_cold : Nat := m_all ^^^ (m_now ||| m_replies ||| m_lastResp)

theorem fm_on_cold (f : Field) : ¬ Off (fm f) m_cold := fun h =>
  Sub.not_off ((fm_any f).trans (by decide +kernel)) (fm_pos f) h

theorem Keeps.cold {s t : State} (hp : t.pending = s.pending) (h0 : t.now = s.now)
    (h2 : t.replies = s.replies) (h3 : t.lastResp = s.lastResp) (hw : s.Wf → t.Wf) : Keeps m_cold s t :=
  ⟨hp, fun f _ o => absurd o (fm_on_cold f), fun _ => h0, fun o => absurd o (by decide +kernel),
    fun o => absurd o (by decide +kernel), fun _ => h3, fun o => absurd o (by decide +kernel),
    fun o => absurd o (by decide +kernel), fun o => absurd o (by decide +kernel), fun o => absurd o (by decide +kernel),
    fun o => absurd o (by decide +kernel), fun o => absurd o (by decide +kernel), fun o => absurd o (by decide +kernel),
    fun o => absurd o (by decide +kernel), fun o => absurd o (by decide +kernel), fun o => absurd o (by decide +kernel),
    fun o => absurd o (by decide +kernel), fun o => absurd o (by decide +kernel), fun o => absurd o (by decide +kernel),
    fun o => absurd o (by decide +kernel), fun o => absurd o (by decide +kernel), fun o => absurd o (by decide +kernel),
    fun o => absurd o (by decide +kernel), fun o => absurd o (by decide +kernel), fun o => absurd o (by decide +kernel),
    fun o => absurd o (by decide +kernel), fun o => absurd o (by decide +kernel), fun o => absurd o (by decide +kernel),
    fun o => absurd o (by decide +kernel), fun o => absurd o (by decide +kernel), fun o => absurd o (by decide +kernel),
    fun o => absurd o (by decide +kernel), fun _ => h2, fun o => absurd o (by decide +kernel),
    fun o => absurd o (by decide +kernel), fun o => absurd o (by decide +kernel), fun o => absurd o (by decide +kernel),
    fun o => absurd o (by decide +kernel), fun o => absurd o (by decide +kernel), fun o => absurd o (by decide +kernel),
    fun o => absurd o (by decide +kernel), fun o => absurd o (by decide +kernel), fun o => absurd o (by decide +kernel),
    fun o => absurd o (by decide +kernel), fun o => absurd o (by decide +kernel), fun o => absurd o (by decide +kernel),
    fun o => absurd o (by decide +kernel), fun o => absurd o (by decide +kernel), hw⟩
/-! ## The named updates, each after others -/

theorem Keeps.putA {w : Nat} {s t : State} {f : Field} {i v : Nat} (hb : Sub (fm f) w) (h : Keeps w s t) :
    Keeps w s (t.put f i v) := h.trans (Keeps.put t f i v hb)
theorem Keeps.setBA {w : Nat} {s t : State} {f : Field} {i : Nat} {b : Bool} (hb : Sub (fm f) w) (h : Keeps w s t) :
    Keeps w s (t.setB f i b) := h.putA hb
theorem Keeps.putIA {w : Nat} {s t : State} {f : Field} {i : Nat} {x : Int} (hb : Sub (fm f) w) (h : Keeps w s t) :
    Keeps w s (t.putI f i x) := h.putA hb
theorem Keeps.incWA {w : Nat} {s t : State} {f : Field} {i : Nat} (hb : Sub (fm f) w) (h : Keeps w s t) :
    Keeps w s (t.incW f i) := h.putA hb
theorem Keeps.addSatA {w : Nat} {s t : State} {f : Field} {i n : Nat} (hb : Sub (fm f) w) (h : Keeps w s t) :
    Keeps w s (t.addSat f i n) := h.putA hb
theorem Keeps.incSatA {w : Nat} {s t : State} {f : Field} {i : Nat} (hb : Sub (fm f) w) (h : Keeps w s t) :
    Keeps w s (t.incSat f i) := h.putA hb
theorem Keeps.clearA {w : Nat} {s t : State} {f : Field} {i : Nat} (hb : Sub (fm f) w) (h : Keeps w s t) :
    Keeps w s (t.clear f i) := h.putA hb
theorem Keeps.setDueA {w : Nat} {s t : State} {f : Field} {i x : Nat} (hb : Sub (fm f) w) (h : Keeps w s t) :
    Keeps w s (t.setDue f i x) := h.putA hb
theorem Keeps.noDueA {w : Nat} {s t : State} {f : Field} {i : Nat} (hb : Sub (fm f) w) (h : Keeps w s t) :
    Keeps w s (t.noDue f i) := h.putA hb
theorem Keeps.put2A {w : Nat} {s t : State} {f g : Field} {i v : Nat} (hb : Sub (fm f) w) (hg : Sub (fm g) w) (h : Keeps w s t) :
    Keeps w s (t.put2 f g i v) := (h.putA hb).putA hg
theorem Keeps.upToA {w : Nat} {s t : State} {x : Nat} (hb : Sub m_now w) (h : Keeps w s t) : Keeps w s (t.upTo x) :=
  h.trans (Keeps.c_now _ hb)
theorem Keeps.drawA {w : Nat} {s t : State} (hb : Sub m_free w) (h : Keeps w s t) : Keeps w s t.draw.2 :=
  h.trans (Keeps.c_free _ hb)
theorem Keeps.replyA {w : Nat} {s t : State} {r : Reply} (hb : Sub m_replies w) (h : Keeps w s t) : Keeps w s (t.reply r) :=
  h.trans (Keeps.c_replies _ hb)
theorem Keeps.spWriteA {w : Nat} {s t : State} {x : Nat} {l : List Byte} (hb : Sub m_scratch w) (h : Keeps w s t) :
    Keeps w s (t.spWrite x l) := h.trans (Keeps.c_scratch _ hb (fun v => memSetBytes_wf _ _ _ v.2.2.1))
theorem Keeps.spPutA {w : Nat} {s t : State} {x v : Nat} (hb : Sub m_scratch w) (h : Keeps w s t) :
    Keeps w s (t.spPut x v) := h.spWriteA hb
theorem Keeps.celWriteA {w : Nat} {s t : State} {x : Nat} {l : List Byte} (hb : Sub m_cellar w) (h : Keeps w s t) :
    Keeps w s (t.celWrite x l) := h.trans (Keeps.c_cellar _ hb (fun v => memSetBytes_wf _ _ _ v.2.2.2.1))
theorem Keeps.flProgramA {w : Nat} {s t : State} {x : Nat} {l : List Byte} (hb : Sub m_flash w) (h : Keeps w s t) :
    Keeps w s (t.flProgram x l) := h.trans (Keeps.c_flash _ hb (fun v => memSetBytes_wf _ _ _ v.2.2.2.2.1))
theorem Keeps.flEraseA {w : Nat} {s t : State} {x n : Nat} (hb : Sub m_flash w) (h : Keeps w s t) :
    Keeps w s (t.flErase x n) := h.trans (Keeps.c_flash _ hb (fun v => memClear_wf _ _ _ v.2.2.2.2.1))
theorem Keeps.eachA {α : Type} {w : Nat} {s t : State} {l : List α} {g : State → α → State} (h : Keeps w s t)
    (hg : ∀ u a, Keeps w u (g u a)) : Keeps w s (t.each l g) := by
  induction l generalizing t with
  | nil => exact h
  | cons a l ih => exact ih (h.trans (hg t a))
theorem Keeps.foldlA {α : Type} {w : Nat} {s t : State} {l : List α} {g : State → α → State} (h : Keeps w s t)
    (hg : ∀ u a, Keeps w u (g u a)) : Keeps w s (l.foldl g t) := h.eachA hg

/-! ## Walking through a definition: branches and local values -/

section Walk
variable {α β γ : Type} {w : Nat} {s : State} {c : Prop} [Decidable c]

theorem Keeps.iteA {a b : State} (ha : Keeps w s a) (hb : Keeps w s b) : Keeps w s (if c then a else b) := by
  split <;> assumption
theorem Keeps.ite1 {a b : State × β} (ha : Keeps w s a.1) (hb : Keeps w s b.1) : Keeps w s (if c then a else b).1 := by
  split <;> assumption
theorem Keeps.ite2 {a b : β × State} (ha : Keeps w s a.2) (hb : Keeps w s b.2) : Keeps w s (if c then a else b).2 := by
  split <;> assumption

/-- A local state first. -/
theorem Keeps.cut {r : State} (v : State) (hv : Keeps w s v) (hr : Keeps w s v → Keeps w s r) : Keeps w s r := hr hv
theorem Keeps.cut1 {r : State} (v : State × α) (hv : Keeps w s v.1) (hr : Keeps w s v.1 → Keeps w s r) : Keeps w s r := hr hv
theorem Keeps.cut2 {r : State} (v : α × State) (hv : Keeps w s v.2) (hr : Keeps w s v.2 → Keeps w s r) : Keeps w s r := hr hv

end Walk

/-! ## Masks of several fields -/

theorem Sub.or_left (a b : Nat) : Sub a (a ||| b) := by
  apply Nat.eq_of_testBit_eq
  intro i
  simp only [Nat.testBit_and, Nat.testBit_or]
  cases a.testBit i <;> simp
theorem Sub.or_right (a b : Nat) : Sub b (a ||| b) := Nat.or_comm b a ▸ Sub.or_left b a

/-- The mask of a list of fields. -/
def fms (l : List Field) : Nat := l.foldr (fun f a => fm f ||| a) 0

theorem fms_mem {f : Field} {l : List Field} (h : f ∈ l) : Sub (fm f) (fms l) := by
  induction l with
  | nil => cases h
  | cons a l ih =>
    rcases List.mem_cons.1 h with h | h
    · exact h ▸ Sub.or_left _ _
    · exact (ih h).trans (Sub.or_right _ _)

/-- A field that shares no bit with a list's mask has another number than each of them. -/
theorem Off.ne_of_mem {f g : Field} {l : List Field} (h : Off (fm f) (fms l)) (hg : g ∈ l) : g.id ≠ f.id := fun e =>
  (fms_mem hg).not_off (fm_pos g) (by rwa [fm, ← e] at h)

theorem Keeps.clearsA {w : Nat} {s t : State} {l : List Field} {i : Nat} (hb : Sub (fms l) w) (h : Keeps w s t) :
    Keeps w s (l.foldl (fun u f => u.clear f i) t) := by
  induction l generalizing t with
  | nil => exact h
  | cons a l ih => exact ih ((Sub.or_right _ _).trans hb) (h.clearA ((Sub.or_left _ _).trans hb))


theorem lookKey_filter {α : Type} {q : Nat → Bool} {k : Nat} (h : q k = true) (l : List (Nat × α)) :
    lookKey k (l.filter (fun p => q p.1)) = lookKey k l := by
  induction l with
  | nil => rfl
  | cons a t ih =>
    obtain ⟨j, v⟩ := a
    by_cases hj : j = k
    · subst hj; simp [h, lookKey]
    · cases hq : q j <;> simp [hq, lookKey, hj, ih]

theorem fkey_mod (f : Field) (i : Nat) : fkey f i % 2048 = f.id.val := by
  have := f.id.isLt
  unfold fkey; omega

/-- Instances dropped from the field file: what is not dropped reads as before. -/
theorem Keeps.ffFilter {w : Nat} {s : State} (q : Nat → Bool) (hq : ∀ f i, Off (fm f) w → q (fkey f i) = true) :
    Keeps w s { s with ff := s.ff.filter (fun p => q p.1) } :=
  Keeps.setff _ (fun f i o => by rw [lookKey_filter (hq f i o)]; rfl) (fun h => keysRise_filter _ _ h.1)

/-- The number of a field off a list's mask is none of the list's numbers. -/
theorem Off.not_contains {f : Field} {l : List Field} (h : Off (fm f) (fms l)) :
    (l.map (fun g => g.id.val)).contains f.id.val = false := by
  rw [Bool.eq_false_iff]
  intro hc
  obtain ⟨g, hg, e⟩ := List.mem_map.1 (List.contains_iff_mem.1 hc)
  exact h.ne_of_mem hg (Fin.ext e)

theorem Keeps.ofNext {w : Nat} {s x u : State} (hk : Keeps w s x) (h : (.next x : Out) = .next u) : Keeps w s u := by
  cases h; exact hk

theorem Sub.or {a b c : Nat} (ha : Sub a c) (hb : Sub b c) : Sub (a ||| b) c := by
  unfold Sub at *
  rw [Nat.and_or_distrib_right, ha, hb]

theorem fms_any (l : List Field) : Sub (fms l) m_fields := by
  induction l with
  | nil => simp only [fms, List.foldr_nil, Sub, Nat.zero_and]
  | cons f l ih => exact Sub.or (fm_any f) ih

end Sys2Proof.Machine
end

