-- ==== Sys2Proof/Laws/KeepsOps.lean ====
section
/-!
SUPPORT. What every operation of Machine/Ops.lean can change: its mask and its Keeps lemma.
-/

set_option Elab.async false
set_option linter.all false

namespace Sys2Proof.Machine

def State.celCount_w : Nat := fm F.CEL_CLS_BYTES_LO_B_LO ||| fm F.CEL_CLS_BYTES_HI_B_HI
theorem State.celCount_keeps (s : State) (cls n : Nat) : Keeps State.celCount_w s (s.celCount cls n) := by
  unfold State.celCount
  repeat' first
    | (extract_lets +onlyGivenNames x1; clear_value (hx : x1 = _); refine Keeps.cut x1 ?_ (fun h => ?_); rw [hx]; clear hx x1; rotate_left; clear hx; rotate_right)
    | (extract_lets +onlyGivenNames x1; clear_value (hx : x1 = _); refine Keeps.cut1 x1 ?_ (fun h => ?_); rw [hx]; clear hx x1; rotate_left; clear hx; rotate_right)
    | (extract_lets +onlyGivenNames x1; clear_value (hx : x1 = _); refine Keeps.cut2 x1 ?_ (fun h => ?_); rw [hx]; clear hx x1; rotate_left; clear hx; rotate_right)
    | (extract_lets +onlyGivenNames x1; clear_value (hx : x1 = _); clear hx)
    | with_reducible assumption
    | with_reducible exact Keeps.refl _ _
    | decide +kernel
    | with_reducible apply Keeps.put2A
    | with_reducible apply Keeps.iteA

def State.helLose_w : Nat := m_scratch
theorem State.helLose_keeps (s : State) : Keeps State.helLose_w s (s.helLose) := by
  unfold State.helLose
  repeat' first
    | with_reducible assumption
    | with_reducible exact Keeps.refl _ _
    | decide +kernel
    | with_reducible apply Keeps.spPutA

def State.helWrite_w : Nat := fm H.HEL_T0 ||| fm H.HEL_N ||| m_scratch ||| State.helLose_w
theorem State.helWrite_keeps (s : State) (c : Nat) (data : List Byte) : Keeps State.helWrite_w s (s.helWrite c data) := by
  unfold State.helWrite
  repeat' first
    | (extract_lets +onlyGivenNames x1; clear_value (hx : x1 = _); refine Keeps.cut x1 ?_ (fun h => ?_); rw [hx]; clear hx x1; rotate_left; clear hx; rotate_right)
    | (extract_lets +onlyGivenNames x1; clear_value (hx : x1 = _); refine Keeps.cut1 x1 ?_ (fun h => ?_); rw [hx]; clear hx x1; rotate_left; clear hx; rotate_right)
    | (extract_lets +onlyGivenNames x1; clear_value (hx : x1 = _); refine Keeps.cut2 x1 ?_ (fun h => ?_); rw [hx]; clear hx x1; rotate_left; clear hx; rotate_right)
    | (extract_lets +onlyGivenNames x1; clear_value (hx : x1 = _); clear hx)
    | with_reducible assumption
    | with_reducible exact Keeps.refl _ _
    | decide +kernel
    | with_reducible apply Keeps.putA
    | with_reducible apply Keeps.incWA
    | with_reducible apply Keeps.spWriteA
    | with_reducible apply Keeps.via (State.helLose_keeps ..)
    | with_reducible apply Keeps.iteA

def State.event_w : Nat := fm F.EVT_STAT_EVSEQ ||| fm F.EVT_LOST_COUNT ||| m_events ||| State.helWrite_w
theorem State.event_keeps (s : State) (c : Nat) (data : List Byte) : Keeps State.event_w s (s.event c data) := by
  unfold State.event
  repeat' first
    | (extract_lets +onlyGivenNames x1; clear_value (hx : x1 = _); refine Keeps.cut x1 ?_ (fun h => ?_); rw [hx]; clear hx x1; rotate_left; clear hx; rotate_right)
    | (extract_lets +onlyGivenNames x1; clear_value (hx : x1 = _); refine Keeps.cut1 x1 ?_ (fun h => ?_); rw [hx]; clear hx x1; rotate_left; clear hx; rotate_right)
    | (extract_lets +onlyGivenNames x1; clear_value (hx : x1 = _); refine Keeps.cut2 x1 ?_ (fun h => ?_); rw [hx]; clear hx x1; rotate_left; clear hx; rotate_right)
    | (extract_lets +onlyGivenNames x1; clear_value (hx : x1 = _); clear hx)
    | with_reducible assumption
    | with_reducible exact Keeps.refl _ _
    | decide +kernel
    | with_reducible apply Keeps.incWA
    | with_reducible apply Keeps.incSatA
    | with_reducible apply Keeps.via (State.helWrite_keeps ..)
    | with_reducible apply Keeps.iteA
    | with_reducible refine Keeps.trans ?_ (Keeps.c_events _ ?_)

def State.pendTrap_w : Nat := fm F.ENG_TMASK_PEND
theorem State.pendTrap_keeps (s : State) (k v : Nat) : Keeps State.pendTrap_w s (s.pendTrap k v) := by
  unfold State.pendTrap
  repeat' first
    | with_reducible assumption
    | with_reducible exact Keeps.refl _ _
    | decide +kernel
    | with_reducible apply Keeps.putA

def State.unpendTrap_w : Nat := fm F.ENG_TMASK_PEND
theorem State.unpendTrap_keeps (s : State) (k v : Nat) : Keeps State.unpendTrap_w s (s.unpendTrap k v) := by
  unfold State.unpendTrap
  repeat' first
    | with_reducible assumption
    | with_reducible exact Keeps.refl _ _
    | decide +kernel
    | with_reducible apply Keeps.putA

def State.irqToEngine_w : Nat := fm F.IRQ_ENG_LOST_COUNT ||| m_evq ||| State.pendTrap_w
theorem State.irqToEngine_keeps (s : State) (k n : Nat) : Keeps State.irqToEngine_w s (s.irqToEngine k n) := by
  unfold State.irqToEngine
  repeat' first
    | with_reducible assumption
    | with_reducible exact Keeps.refl _ _
    | decide +kernel
    | with_reducible apply Keeps.incSatA
    | with_reducible apply Keeps.via (State.pendTrap_keeps ..)
    | with_reducible apply Keeps.iteA
    | with_reducible refine Keeps.trans ?_ (Keeps.c_evq _ ?_)

def State.irq_w : Nat := fm F.IRQ_PEND_PEND ||| State.irqToEngine_w ||| State.event_w
theorem State.irq_keeps (s : State) (n : Nat) (data : List Byte) : Keeps State.irq_w s (s.irq n data) := by
  unfold State.irq
  repeat' first
    | (extract_lets +onlyGivenNames x1; clear_value (hx : x1 = _); refine Keeps.cut x1 ?_ (fun h => ?_); rw [hx]; clear hx x1; rotate_left; clear hx; rotate_right)
    | (extract_lets +onlyGivenNames x1; clear_value (hx : x1 = _); refine Keeps.cut1 x1 ?_ (fun h => ?_); rw [hx]; clear hx x1; rotate_left; clear hx; rotate_right)
    | (extract_lets +onlyGivenNames x1; clear_value (hx : x1 = _); refine Keeps.cut2 x1 ?_ (fun h => ?_); rw [hx]; clear hx x1; rotate_left; clear hx; rotate_right)
    | (extract_lets +onlyGivenNames x1; clear_value (hx : x1 = _); clear hx)
    | with_reducible assumption
    | with_reducible exact Keeps.refl _ _
    | decide +kernel
    | with_reducible apply Keeps.putA
    | with_reducible apply Keeps.via (State.irqToEngine_keeps ..)
    | with_reducible apply Keeps.via (State.event_keeps ..)
    | with_reducible apply Keeps.iteA

def State.toSiteState_w : Nat := fm F.SITE_STATE_STATE ||| State.irq_w
theorem State.toSiteState_keeps (s : State) (i st : Nat) : Keeps State.toSiteState_w s (s.toSiteState i st) := by
  unfold State.toSiteState
  repeat' first
    | with_reducible assumption
    | with_reducible exact Keeps.refl _ _
    | decide +kernel
    | with_reducible apply Keeps.putA
    | with_reducible apply Keeps.via (State.irq_keeps ..)
    | with_reducible apply Keeps.iteA

end Sys2Proof.Machine
end

