-- ==== Sys2Proof/Laws/KeepsStore.lean ====
section
/-!
SUPPORT. What every operation of Machine/Store.lean can change: its mask and its Keeps lemma.
-/

set_option Elab.async false
set_option linter.all false

namespace Sys2Proof.Machine

def reactField_w : Nat := fm F.FLT_REACT_REACT0 ||| fm F.FLT_REACT_REACT1 ||| fm F.FLT_REACT_REACT2 ||| fm F.FLT_REACT_REACT3
theorem reactField_sub (n : Nat) : Sub (fm (reactField n)) reactField_w := by
  unfold reactField
  split <;> decide +kernel

def escField_w : Nat := fm F.FLT_REACT_ESC0 ||| fm F.FLT_REACT_ESC1 ||| fm F.FLT_REACT_ESC2 ||| fm F.FLT_REACT_ESC3
theorem escField_sub (n : Nat) : Sub (fm (escField n)) escField_w := by
  unfold escField
  split <;> decide +kernel

def State.faultLog_w : Nat := fm F.FLT_LOG_WR_COUNT ||| m_fltLog
theorem State.faultLog_keeps (s : State) (n applied unit : Nat) (site : Option Nat) : Keeps State.faultLog_w s (s.faultLog n applied unit site) := by
  unfold State.faultLog
  repeat' first
    | (extract_lets +onlyGivenNames x1; clear_value (hx : x1 = _); refine Keeps.cut x1 ?_ (fun h => ?_); rw [hx]; clear hx x1; rotate_left; clear hx; rotate_right)
    | (extract_lets +onlyGivenNames x1; clear_value (hx : x1 = _); refine Keeps.cut1 x1 ?_ (fun h => ?_); rw [hx]; clear hx x1; rotate_left; clear hx; rotate_right)
    | (extract_lets +onlyGivenNames x1; clear_value (hx : x1 = _); refine Keeps.cut2 x1 ?_ (fun h => ?_); rw [hx]; clear hx x1; rotate_left; clear hx; rotate_right)
    | (extract_lets +onlyGivenNames x1; clear_value (hx : x1 = _); clear hx)
    | with_reducible assumption
    | with_reducible exact Keeps.refl _ _
    | decide +kernel
    | with_reducible apply Keeps.incWA
    | exact fun hw => by
        obtain ⟨w1, w2, w3, w4, w5, w6, w7, w8, w9, w10, w11⟩ := hw
        first | exact memSetBytes_wf _ _ _ ‹_› | exact memSetByte_wf _ _ _ ‹_› | exact memClear_wf _ _ _ ‹_› | exact keysRise_filter _ _ ‹_› | exact keysRise_insKey _ _ _ ‹_› | exact keysRise_storeKey _ _ _ ‹_› | exact storeWf_storeKey _ _ _ ‹_› | exact storeWf_filter _ _ ‹_› | rfl
    | with_reducible refine Keeps.trans ?_ (Keeps.c_fltLog _ ?_ ?_)

def State.faultCore_w : Nat := fm F.FLT_STAT_STICKY ||| fm F.FLT_SUM_MERGED ||| fm F.FLT_SUM_BUSY ||| fm F.FLT_SUM_ACTIVE |||
    fm F.FLT_SUM_ESCALATED ||| fm H.FLT_END ||| fm H.FLT_SEQ ||| fm H.FLT_SITE ||| fm H.FLT_TILE ||| State.faultLog_w |||
    State.irq_w
theorem State.faultCore_keeps (s : State) (n unit : Nat) (site tile : Option Nat) (injected : Bool) : Keeps State.faultCore_w s (s.faultCore n unit site tile injected).1 := by
  unfold State.faultCore
  repeat' first
    | (extract_lets +onlyGivenNames x1; clear_value (hx : x1 = _); refine Keeps.cut x1 ?_ (fun h => ?_); rw [hx]; clear hx x1; rotate_left; clear hx; rotate_right)
    | (extract_lets +onlyGivenNames x1; clear_value (hx : x1 = _); refine Keeps.cut1 x1 ?_ (fun h => ?_); rw [hx]; clear hx x1; rotate_left; clear hx; rotate_right)
    | (extract_lets +onlyGivenNames x1; clear_value (hx : x1 = _); refine Keeps.cut2 x1 ?_ (fun h => ?_); rw [hx]; clear hx x1; rotate_left; clear hx; rotate_right)
    | (extract_lets +onlyGivenNames x1; clear_value (hx : x1 = _); clear hx)
    | with_reducible assumption
    | with_reducible exact Keeps.refl _ _
    | decide +kernel
    | with_reducible apply Keeps.putA
    | with_reducible apply Keeps.setBA
    | with_reducible apply Keeps.incSatA
    | with_reducible apply Keeps.setDueA
    | with_reducible apply Keeps.via (State.faultLog_keeps ..)
    | with_reducible apply Keeps.via (State.irq_keeps ..)
    | with_reducible apply Keeps.iteA
    | with_reducible apply Keeps.ite1

def State.celUncorr_w : Nat := fm F.CEL_ECC_UNCORR_COUNT ||| fm F.CEL_ECC_ADDR_LO_ADDR_LO |||
    fm F.CEL_ECC_ADDR_HI_ADDR_HI ||| fm F.CEL_ECC_ADDR_HI_CLASS ||| State.faultCore_w
theorem State.celUncorr_keeps (s : State) (cls block : Nat) : Keeps State.celUncorr_w s (s.celUncorr cls block) := by
  unfold State.celUncorr
  repeat' first
    | (extract_lets +onlyGivenNames x1; clear_value (hx : x1 = _); refine Keeps.cut x1 ?_ (fun h => ?_); rw [hx]; clear hx x1; rotate_left; clear hx; rotate_right)
    | (extract_lets +onlyGivenNames x1; clear_value (hx : x1 = _); refine Keeps.cut1 x1 ?_ (fun h => ?_); rw [hx]; clear hx x1; rotate_left; clear hx; rotate_right)
    | (extract_lets +onlyGivenNames x1; clear_value (hx : x1 = _); refine Keeps.cut2 x1 ?_ (fun h => ?_); rw [hx]; clear hx x1; rotate_left; clear hx; rotate_right)
    | (extract_lets +onlyGivenNames x1; clear_value (hx : x1 = _); clear hx)
    | with_reducible assumption
    | with_reducible exact Keeps.refl _ _
    | decide +kernel
    | with_reducible apply Keeps.putA
    | with_reducible apply Keeps.incSatA
    | with_reducible apply Keeps.via (State.faultCore_keeps ..)

def State.celCorr_w : Nat := fm F.CEL_ECC_CORR_COUNT ||| m_celErr ||| State.irq_w
theorem State.celCorr_keeps (s : State) (block : Nat) : Keeps State.celCorr_w s (s.celCorr block) := by
  unfold State.celCorr
  repeat' first
    | with_reducible assumption
    | with_reducible exact Keeps.refl _ _
    | decide +kernel
    | with_reducible apply Keeps.incSatA
    | with_reducible apply Keeps.via (State.irq_keeps ..)
    | exact fun hw => by
        obtain ⟨w1, w2, w3, w4, w5, w6, w7, w8, w9, w10, w11⟩ := hw
        first | exact memSetBytes_wf _ _ _ ‹_› | exact memSetByte_wf _ _ _ ‹_› | exact memClear_wf _ _ _ ‹_› | exact keysRise_filter _ _ ‹_› | exact keysRise_insKey _ _ _ ‹_› | exact keysRise_storeKey _ _ _ ‹_› | exact storeWf_storeKey _ _ _ ‹_› | exact storeWf_filter _ _ ‹_› | rfl
    | with_reducible refine Keeps.trans ?_ (Keeps.c_celErr _ ?_ ?_)

def State.celBlock_w : Nat := State.celCorr_w ||| State.celUncorr_w
theorem State.celBlock_keeps (s : State) (cls block : Nat) : Keeps State.celBlock_w s (s.celBlock cls block).1 := by
  unfold State.celBlock
  repeat' first
    | with_reducible assumption
    | with_reducible exact Keeps.refl _ _
    | decide +kernel
    | with_reducible apply Keeps.via (State.celCorr_keeps ..)
    | with_reducible apply Keeps.via (State.celUncorr_keeps ..)
    | with_reducible apply Keeps.iteA
    | with_reducible apply Keeps.ite1
    | split

def State.celBlocksOk_w : Nat := State.celBlock_w
theorem State.celBlocksOk_keeps (s : State) (cls : Nat) (l : List Nat) :
    Keeps State.celBlocksOk_w s (s.celBlocksOk cls l).1 := by
  induction l generalizing s with
  | nil => exact Keeps.refl _ _
  | cons b bs ih => exact (State.celBlock_keeps s cls b).trans (ih _)

def State.celRead_w : Nat := State.celCount_w ||| State.celBlocksOk_w
theorem State.celRead_keeps (s : State) (cls o n : Nat) : Keeps State.celRead_w s (s.celRead cls o n).1 := by
  unfold State.celRead
  repeat' first
    | (extract_lets +onlyGivenNames x1; clear_value (hx : x1 = _); refine Keeps.cut x1 ?_ (fun h => ?_); rw [hx]; clear hx x1; rotate_left; clear hx; rotate_right)
    | (extract_lets +onlyGivenNames x1; clear_value (hx : x1 = _); refine Keeps.cut1 x1 ?_ (fun h => ?_); rw [hx]; clear hx x1; rotate_left; clear hx; rotate_right)
    | (extract_lets +onlyGivenNames x1; clear_value (hx : x1 = _); refine Keeps.cut2 x1 ?_ (fun h => ?_); rw [hx]; clear hx x1; rotate_left; clear hx; rotate_right)
    | (extract_lets +onlyGivenNames x1; clear_value (hx : x1 = _); clear hx)
    | with_reducible assumption
    | with_reducible exact Keeps.refl _ _
    | decide +kernel
    | with_reducible apply Keeps.via (State.celCount_keeps ..)
    | with_reducible apply Keeps.via (State.celBlocksOk_keeps ..)
    | with_reducible apply Keeps.iteA
    | with_reducible apply Keeps.ite1

def State.celStore_w : Nat := m_cellar ||| m_celErr ||| State.celUncorr_w ||| State.celCount_w ||| State.celCorr_w
theorem State.celStore_keeps (s : State) (cls o : Nat) (l : List Byte) : Keeps State.celStore_w s (s.celStore cls o l).1 := by
  unfold State.celStore
  repeat' first
    | (extract_lets +onlyGivenNames x1; clear_value (hx : x1 = _); refine Keeps.cut x1 ?_ (fun h => ?_); rw [hx]; clear hx x1; rotate_left; clear hx; rotate_right)
    | (extract_lets +onlyGivenNames x1; clear_value (hx : x1 = _); refine Keeps.cut1 x1 ?_ (fun h => ?_); rw [hx]; clear hx x1; rotate_left; clear hx; rotate_right)
    | (extract_lets +onlyGivenNames x1; clear_value (hx : x1 = _); refine Keeps.cut2 x1 ?_ (fun h => ?_); rw [hx]; clear hx x1; rotate_left; clear hx; rotate_right)
    | (extract_lets +onlyGivenNames x1; clear_value (hx : x1 = _); clear hx)
    | with_reducible assumption
    | with_reducible exact Keeps.refl _ _
    | decide +kernel
    | with_reducible apply Keeps.celWriteA
    | with_reducible refine Keeps.eachA ?_ (fun _ _ => ?_)
    | with_reducible apply Keeps.via (State.celUncorr_keeps ..)
    | with_reducible apply Keeps.via (State.celCount_keeps ..)
    | with_reducible apply Keeps.via (State.celCorr_keeps ..)
    | with_reducible apply Keeps.iteA
    | with_reducible apply Keeps.ite1
    | split
    | exact fun hw => by
        obtain ⟨w1, w2, w3, w4, w5, w6, w7, w8, w9, w10, w11⟩ := hw
        first | exact memSetBytes_wf _ _ _ ‹_› | exact memSetByte_wf _ _ _ ‹_› | exact memClear_wf _ _ _ ‹_› | exact keysRise_filter _ _ ‹_› | exact keysRise_insKey _ _ _ ‹_› | exact keysRise_storeKey _ _ _ ‹_› | exact storeWf_storeKey _ _ _ ‹_› | exact storeWf_filter _ _ ‹_› | rfl
    | with_reducible refine Keeps.trans ?_ (Keeps.c_celErr _ ?_ ?_)

def State.celPut_w : Nat := State.celStore_w
theorem State.celPut_keeps (s : State) (cls o : Nat) (l : List Byte) : Keeps State.celPut_w s (s.celPut cls o l) := by
  unfold State.celPut
  repeat' first
    | with_reducible assumption
    | with_reducible exact Keeps.refl _ _
    | decide +kernel
    | with_reducible apply Keeps.via (State.celStore_keeps ..)

def State.wipeNow_w : Nat := fm F.SPD_STAT_WIPED ||| fm F.SPD_STAT_WIPING ||| fm F.SPD_WIPES_COUNT ||| m_scratch
theorem State.wipeNow_keeps (s : State) : Keeps State.wipeNow_w s (s.wipeNow) := by
  unfold State.wipeNow
  repeat' first
    | (extract_lets +onlyGivenNames x1; clear_value (hx : x1 = _); refine Keeps.cut x1 ?_ (fun h => ?_); rw [hx]; clear hx x1; rotate_left; clear hx; rotate_right)
    | (extract_lets +onlyGivenNames x1; clear_value (hx : x1 = _); refine Keeps.cut1 x1 ?_ (fun h => ?_); rw [hx]; clear hx x1; rotate_left; clear hx; rotate_right)
    | (extract_lets +onlyGivenNames x1; clear_value (hx : x1 = _); refine Keeps.cut2 x1 ?_ (fun h => ?_); rw [hx]; clear hx x1; rotate_left; clear hx; rotate_right)
    | (extract_lets +onlyGivenNames x1; clear_value (hx : x1 = _); clear hx)
    | with_reducible assumption
    | with_reducible exact Keeps.refl _ _
    | decide +kernel
    | with_reducible apply Keeps.setBA
    | with_reducible apply Keeps.incSatA
    | exact fun hw => by
        obtain ⟨w1, w2, w3, w4, w5, w6, w7, w8, w9, w10, w11⟩ := hw
        first | exact memSetBytes_wf _ _ _ ‹_› | exact memSetByte_wf _ _ _ ‹_› | exact memClear_wf _ _ _ ‹_› | exact keysRise_filter _ _ ‹_› | exact keysRise_insKey _ _ _ ‹_› | exact keysRise_storeKey _ _ _ ‹_› | exact storeWf_storeKey _ _ _ ‹_› | exact storeWf_filter _ _ ‹_› | rfl
    | with_reducible refine Keeps.trans ?_ (Keeps.c_scratch _ ?_ ?_)

def State.wipeStart_w : Nat := fm F.SPD_STAT_WIPING ||| fm H.WIPE_END ||| m_scratch
theorem State.wipeStart_keeps (s : State) : Keeps State.wipeStart_w s (s.wipeStart) := by
  unfold State.wipeStart
  repeat' first
    | (extract_lets +onlyGivenNames x1; clear_value (hx : x1 = _); refine Keeps.cut x1 ?_ (fun h => ?_); rw [hx]; clear hx x1; rotate_left; clear hx; rotate_right)
    | (extract_lets +onlyGivenNames x1; clear_value (hx : x1 = _); refine Keeps.cut1 x1 ?_ (fun h => ?_); rw [hx]; clear hx x1; rotate_left; clear hx; rotate_right)
    | (extract_lets +onlyGivenNames x1; clear_value (hx : x1 = _); refine Keeps.cut2 x1 ?_ (fun h => ?_); rw [hx]; clear hx x1; rotate_left; clear hx; rotate_right)
    | (extract_lets +onlyGivenNames x1; clear_value (hx : x1 = _); clear hx)
    | with_reducible assumption
    | with_reducible exact Keeps.refl _ _
    | decide +kernel
    | with_reducible apply Keeps.setBA
    | with_reducible apply Keeps.setDueA
    | exact fun hw => by
        obtain ⟨w1, w2, w3, w4, w5, w6, w7, w8, w9, w10, w11⟩ := hw
        first | exact memSetBytes_wf _ _ _ ‹_› | exact memSetByte_wf _ _ _ ‹_› | exact memClear_wf _ _ _ ‹_› | exact keysRise_filter _ _ ‹_› | exact keysRise_insKey _ _ _ ‹_› | exact keysRise_storeKey _ _ _ ‹_› | exact storeWf_storeKey _ _ _ ‹_› | exact storeWf_filter _ _ ‹_› | rfl
    | with_reducible refine Keeps.trans ?_ (Keeps.c_scratch _ ?_ ?_)

def State.flashAct_w : Nat := m_flash
theorem State.flashAct_keeps (s : State) (o : FlashOp) : Keeps State.flashAct_w s (s.flashAct o) := by
  unfold State.flashAct
  repeat' first
    | with_reducible assumption
    | with_reducible exact Keeps.refl _ _
    | decide +kernel
    | with_reducible apply Keeps.flProgramA
    | with_reducible apply Keeps.flEraseA
    | with_reducible apply Keeps.iteA

def State.flashPart_w : Nat := m_free ||| m_flash
theorem State.flashPart_keeps (s : State) (o : FlashOp) : Keeps State.flashPart_w s (s.flashPart o) := by
  unfold State.flashPart
  repeat' first
    | (extract_lets +onlyGivenNames x1; clear_value (hx : x1 = _); refine Keeps.cut x1 ?_ (fun h => ?_); rw [hx]; clear hx x1; rotate_left; clear hx; rotate_right)
    | (extract_lets +onlyGivenNames x1; clear_value (hx : x1 = _); refine Keeps.cut1 x1 ?_ (fun h => ?_); rw [hx]; clear hx x1; rotate_left; clear hx; rotate_right)
    | (extract_lets +onlyGivenNames x1; clear_value (hx : x1 = _); refine Keeps.cut2 x1 ?_ (fun h => ?_); rw [hx]; clear hx x1; rotate_left; clear hx; rotate_right)
    | (extract_lets +onlyGivenNames x1; clear_value (hx : x1 = _); clear hx)
    | with_reducible assumption
    | with_reducible exact Keeps.refl _ _
    | decide +kernel
    | with_reducible apply Keeps.drawA
    | with_reducible apply Keeps.flProgramA
    | with_reducible apply Keeps.flEraseA
    | with_reducible apply Keeps.iteA

def State.flashCut_w : Nat := m_flashOps ||| State.flashPart_w
theorem State.flashCut_keeps (s : State) : Keeps State.flashCut_w s (s.flashCut) := by
  unfold State.flashCut
  repeat' first
    | with_reducible assumption
    | with_reducible exact Keeps.refl _ _
    | decide +kernel
    | with_reducible apply Keeps.via (State.flashPart_keeps ..)
    | split
    | with_reducible refine Keeps.trans ?_ (Keeps.c_flashOps _ ?_)

def State.fuseOr_w : Nat := m_fuses
theorem State.fuseOr_keeps (s : State) (a v : Nat) : Keeps State.fuseOr_w s (s.fuseOr a v) :=
  Keeps.c_fuses _ (by decide +kernel) (fun h => keysRise_insKey _ _ _ h.2.2.2.2.2.2.2.2.1)

def State.fuseCut_w : Nat := m_free ||| State.fuseOr_w
theorem State.fuseCut_keeps (s : State) : Keeps State.fuseCut_w s (s.fuseCut) := by
  unfold State.fuseCut
  repeat' first
    | (extract_lets +onlyGivenNames x1; clear_value (hx : x1 = _); refine Keeps.cut x1 ?_ (fun h => ?_); rw [hx]; clear hx x1; rotate_left; clear hx; rotate_right)
    | (extract_lets +onlyGivenNames x1; clear_value (hx : x1 = _); refine Keeps.cut1 x1 ?_ (fun h => ?_); rw [hx]; clear hx x1; rotate_left; clear hx; rotate_right)
    | (extract_lets +onlyGivenNames x1; clear_value (hx : x1 = _); refine Keeps.cut2 x1 ?_ (fun h => ?_); rw [hx]; clear hx x1; rotate_left; clear hx; rotate_right)
    | (extract_lets +onlyGivenNames x1; clear_value (hx : x1 = _); clear hx)
    | with_reducible assumption
    | with_reducible exact Keeps.refl _ _
    | decide +kernel
    | with_reducible apply Keeps.drawA
    | with_reducible refine Keeps.eachA ?_ (fun _ _ => ?_)
    | with_reducible apply Keeps.via (State.fuseOr_keeps ..)
    | with_reducible apply Keeps.iteA
    | split

def State.recHdr_w : Nat := State.celPut_w
theorem State.recHdr_keeps (s : State) (e : SiteEntry) (off n v : Nat) : Keeps State.recHdr_w s (s.recHdr e off n v) := by
  unfold State.recHdr
  repeat' first
    | with_reducible assumption
    | with_reducible exact Keeps.refl _ _
    | decide +kernel
    | with_reducible apply Keeps.via (State.celPut_keeps ..)

def State.recWrite_w : Nat := fm F.SITE_REC_WR_LO_WR_LO ||| fm F.SITE_REC_WR_HI_WR_HI ||| State.celPut_w ||| State.recHdr_w
theorem State.recWrite_keeps (s : State) (site : Nat) (e : SiteEntry) (l : List Byte) : Keeps State.recWrite_w s (s.recWrite site e l) := by
  unfold State.recWrite
  repeat' first
    | (extract_lets +onlyGivenNames x1; clear_value (hx : x1 = _); refine Keeps.cut x1 ?_ (fun h => ?_); rw [hx]; clear hx x1; rotate_left; clear hx; rotate_right)
    | (extract_lets +onlyGivenNames x1; clear_value (hx : x1 = _); refine Keeps.cut1 x1 ?_ (fun h => ?_); rw [hx]; clear hx x1; rotate_left; clear hx; rotate_right)
    | (extract_lets +onlyGivenNames x1; clear_value (hx : x1 = _); refine Keeps.cut2 x1 ?_ (fun h => ?_); rw [hx]; clear hx x1; rotate_left; clear hx; rotate_right)
    | (extract_lets +onlyGivenNames x1; clear_value (hx : x1 = _); clear hx)
    | with_reducible assumption
    | with_reducible exact Keeps.refl _ _
    | decide +kernel
    | with_reducible apply Keeps.put2A
    | with_reducible apply Keeps.via (State.celPut_keeps ..)
    | with_reducible apply Keeps.via (State.recHdr_keeps ..)
    | with_reducible apply Keeps.iteA

def State.recAppend_w : Nat := fm F.SITE_REC_LOST_LOST ||| fm H.ST_REC_LOST ||| State.recWrite_w ||| State.recHdr_w
theorem State.recAppend_keeps (s : State) (site : Nat) (l : List Byte) : Keeps State.recAppend_w s (s.recAppend site l) := by
  unfold State.recAppend
  repeat' first
    | (extract_lets +onlyGivenNames x1; clear_value (hx : x1 = _); refine Keeps.cut x1 ?_ (fun h => ?_); rw [hx]; clear hx x1; rotate_left; clear hx; rotate_right)
    | (extract_lets +onlyGivenNames x1; clear_value (hx : x1 = _); refine Keeps.cut1 x1 ?_ (fun h => ?_); rw [hx]; clear hx x1; rotate_left; clear hx; rotate_right)
    | (extract_lets +onlyGivenNames x1; clear_value (hx : x1 = _); refine Keeps.cut2 x1 ?_ (fun h => ?_); rw [hx]; clear hx x1; rotate_left; clear hx; rotate_right)
    | (extract_lets +onlyGivenNames x1; clear_value (hx : x1 = _); clear hx)
    | with_reducible assumption
    | with_reducible exact Keeps.refl _ _
    | decide +kernel
    | with_reducible apply Keeps.putA
    | with_reducible apply Keeps.setBA
    | with_reducible apply Keeps.via (State.recWrite_keeps ..)
    | with_reducible apply Keeps.via (State.recHdr_keeps ..)
    | with_reducible apply Keeps.iteA
    | split

def State.recResult_w : Nat := State.recWrite_w
theorem State.recResult_keeps (s : State) (site : Nat) (l : List Byte) : Keeps State.recResult_w s (s.recResult site l) := by
  unfold State.recResult
  repeat' first
    | with_reducible assumption
    | with_reducible exact Keeps.refl _ _
    | decide +kernel
    | with_reducible apply Keeps.via (State.recWrite_keeps ..)
    | split

def State.dqPush_w : Nat := fm F.STL_FULL_COUNT ||| m_scratch
theorem State.dqPush_keeps (s : State) (k : Nat) (d : List Byte) : Keeps State.dqPush_w s (s.dqPush k d).1 := by
  unfold State.dqPush
  repeat' first
    | (extract_lets +onlyGivenNames x1; clear_value (hx : x1 = _); refine Keeps.cut x1 ?_ (fun h => ?_); rw [hx]; clear hx x1; rotate_left; clear hx; rotate_right)
    | (extract_lets +onlyGivenNames x1; clear_value (hx : x1 = _); refine Keeps.cut1 x1 ?_ (fun h => ?_); rw [hx]; clear hx x1; rotate_left; clear hx; rotate_right)
    | (extract_lets +onlyGivenNames x1; clear_value (hx : x1 = _); refine Keeps.cut2 x1 ?_ (fun h => ?_); rw [hx]; clear hx x1; rotate_left; clear hx; rotate_right)
    | (extract_lets +onlyGivenNames x1; clear_value (hx : x1 = _); clear hx)
    | with_reducible assumption
    | with_reducible exact Keeps.refl _ _
    | decide +kernel
    | with_reducible apply Keeps.incSatA
    | with_reducible apply Keeps.spWriteA
    | with_reducible apply Keeps.spPutA
    | with_reducible apply Keeps.iteA
    | with_reducible apply Keeps.ite1

def State.dqPop_w : Nat := m_scratch
theorem State.dqPop_keeps {s : State} {k : Nat} {r : State × List Byte} (h : s.dqPop k = some r) :
    Keeps State.dqPop_w s r.1 := by
  unfold State.dqPop at h
  split at h
  · cases h
  · cases h
    exact Keeps.spPutA (by decide +kernel) (Keeps.refl _ _)

def State.dqTake_w : Nat := m_scratch
theorem State.dqTake_keeps {s : State} {k : Nat} {r : State × List Byte} (h : s.dqTake k = some r) :
    Keeps State.dqTake_w s r.1 := by
  unfold State.dqTake at h
  split at h
  · cases h
  · cases h
    exact Keeps.spPutA (by decide +kernel) (Keeps.refl _ _)

def State.dqDone_w : Nat := m_scratch
theorem State.dqDone_keeps (s : State) (k : Nat) : Keeps State.dqDone_w s (s.dqDone k) := by
  unfold State.dqDone
  repeat' first
    | with_reducible assumption
    | with_reducible exact Keeps.refl _ _
    | decide +kernel
    | with_reducible apply Keeps.spPutA

def State.dqClearAll_w : Nat := m_scratch
theorem State.dqClearAll_keeps (s : State) : Keeps State.dqClearAll_w s (s.dqClearAll) := by
  unfold State.dqClearAll
  repeat' first
    | with_reducible assumption
    | with_reducible exact Keeps.refl _ _
    | decide +kernel
    | with_reducible apply Keeps.spPutA
    | with_reducible refine Keeps.eachA ?_ (fun _ _ => ?_)

def State.dqDropSite_w : Nat := m_scratch
theorem State.dqDropSite_keeps (s : State) (site : Nat) : Keeps State.dqDropSite_w s (s.dqDropSite site) := by
  unfold State.dqDropSite
  repeat' first
    | (extract_lets +onlyGivenNames x1; clear_value (hx : x1 = _); refine Keeps.cut x1 ?_ (fun h => ?_); rw [hx]; clear hx x1; rotate_left; clear hx; rotate_right)
    | (extract_lets +onlyGivenNames x1; clear_value (hx : x1 = _); refine Keeps.cut1 x1 ?_ (fun h => ?_); rw [hx]; clear hx x1; rotate_left; clear hx; rotate_right)
    | (extract_lets +onlyGivenNames x1; clear_value (hx : x1 = _); refine Keeps.cut2 x1 ?_ (fun h => ?_); rw [hx]; clear hx x1; rotate_left; clear hx; rotate_right)
    | (extract_lets +onlyGivenNames x1; clear_value (hx : x1 = _); clear hx)
    | with_reducible assumption
    | with_reducible exact Keeps.refl _ _
    | decide +kernel
    | with_reducible apply Keeps.spWriteA
    | with_reducible apply Keeps.spPutA
    | with_reducible refine Keeps.eachA ?_ (fun _ _ => ?_)

def State.semFree_w : Nat := fm F.SEM_PEEK_HELD ||| fm F.SEM_PEEK_OWNER
theorem State.semFree_keeps (s : State) (n : Nat) : Keeps State.semFree_w s (s.semFree n) := by
  unfold State.semFree
  repeat' first
    | with_reducible assumption
    | with_reducible exact Keeps.refl _ _
    | decide +kernel
    | with_reducible apply Keeps.putA
    | with_reducible apply Keeps.setBA

def State.semTake_w : Nat := fm F.SEM_PEEK_HELD ||| fm F.SEM_PEEK_OWNER
theorem State.semTake_keeps (s : State) (n id : Nat) : Keeps State.semTake_w s (s.semTake n id) := by
  unfold State.semTake
  repeat' first
    | with_reducible assumption
    | with_reducible exact Keeps.refl _ _
    | decide +kernel
    | with_reducible apply Keeps.putA
    | with_reducible apply Keeps.setBA

def State.semRead_w : Nat := fm F.SEM_PEEK_PTR ||| fm F.SEM_CONTEST_COUNT ||| State.semTake_w
theorem State.semRead_keeps (s : State) (n : Nat) (ids : List Nat) : Keeps State.semRead_w s (s.semRead n ids).1 := by
  unfold State.semRead
  repeat' first
    | (extract_lets +onlyGivenNames x1; clear_value (hx : x1 = _); refine Keeps.cut x1 ?_ (fun h => ?_); rw [hx]; clear hx x1; rotate_left; clear hx; rotate_right)
    | (extract_lets +onlyGivenNames x1; clear_value (hx : x1 = _); refine Keeps.cut1 x1 ?_ (fun h => ?_); rw [hx]; clear hx x1; rotate_left; clear hx; rotate_right)
    | (extract_lets +onlyGivenNames x1; clear_value (hx : x1 = _); refine Keeps.cut2 x1 ?_ (fun h => ?_); rw [hx]; clear hx x1; rotate_left; clear hx; rotate_right)
    | (extract_lets +onlyGivenNames x1; clear_value (hx : x1 = _); clear hx)
    | with_reducible assumption
    | with_reducible exact Keeps.refl _ _
    | decide +kernel
    | with_reducible apply Keeps.putA
    | with_reducible apply Keeps.incSatA
    | with_reducible apply Keeps.via (State.semTake_keeps ..)
    | with_reducible apply Keeps.iteA
    | with_reducible apply Keeps.ite1
    | split

def State.semRelease_w : Nat := State.semFree_w
theorem State.semRelease_keeps (s : State) (n id : Nat) : Keeps State.semRelease_w s (s.semRelease n id).1 := by
  unfold State.semRelease
  repeat' first
    | with_reducible assumption
    | with_reducible exact Keeps.refl _ _
    | decide +kernel
    | with_reducible apply Keeps.via (State.semFree_keeps ..)
    | with_reducible apply Keeps.iteA
    | with_reducible apply Keeps.ite1

def State.semFreeAll_w : Nat := State.semFree_w
theorem State.semFreeAll_keeps (s : State) (id : Nat) : Keeps State.semFreeAll_w s (s.semFreeAll id) := by
  unfold State.semFreeAll
  repeat' first
    | with_reducible assumption
    | with_reducible exact Keeps.refl _ _
    | decide +kernel
    | with_reducible refine Keeps.eachA ?_ (fun _ _ => ?_)
    | with_reducible apply Keeps.via (State.semFree_keeps ..)
    | with_reducible apply Keeps.iteA

end Sys2Proof.Machine
end

