-- ==== Sys2Proof/Laws/KeepsOutputs.lean ====
section
/-!
SUPPORT. What every operation of Machine/Outputs.lean can change: its mask and its Keeps lemma.
-/

set_option Elab.async false
set_option linter.all false

namespace Sys2Proof.Machine

def State.ok_w : Nat := 0
theorem State.ok_keeps (s : State) : Keeps State.ok_w s (s.ok).1 := by
  unfold State.ok
  repeat' first
    | with_reducible assumption
    | with_reducible exact Keeps.refl _ _
    | decide +kernel

def State.bad_w : Nat := 0
theorem State.bad_keeps (s : State) : Keeps State.bad_w s (s.bad).1 := by
  unfold State.bad
  repeat' first
    | with_reducible assumption
    | with_reducible exact Keeps.refl _ _
    | decide +kernel

def State.pend_w : Nat := m_pendW
theorem State.pend_keeps (s : State) (site : Nat) (w : PendWrite) : Keeps State.pend_w s (s.pend site w) := by
  unfold State.pend
  repeat' first
    | with_reducible assumption
    | with_reducible exact Keeps.refl _ _
    | decide +kernel
    | with_reducible refine Keeps.trans ?_ (Keeps.c_pendW _ ?_)

def State.mean_w : Nat := m_free
theorem State.mean_keeps (s : State) (sum : Int) (n : Nat) : Keeps State.mean_w s (s.mean sum n).2 := by
  unfold State.mean
  repeat' first
    | (extract_lets +onlyGivenNames x1; clear_value (hx : x1 = _); refine Keeps.cut x1 ?_ (fun h => ?_); rw [hx]; clear hx x1; rotate_left; clear hx; rotate_right)
    | (extract_lets +onlyGivenNames x1; clear_value (hx : x1 = _); refine Keeps.cut1 x1 ?_ (fun h => ?_); rw [hx]; clear hx x1; rotate_left; clear hx; rotate_right)
    | (extract_lets +onlyGivenNames x1; clear_value (hx : x1 = _); refine Keeps.cut2 x1 ?_ (fun h => ?_); rw [hx]; clear hx x1; rotate_left; clear hx; rotate_right)
    | (extract_lets +onlyGivenNames x1; clear_value (hx : x1 = _); clear hx)
    | with_reducible assumption
    | with_reducible exact Keeps.refl _ _
    | decide +kernel
    | with_reducible apply Keeps.drawA
    | with_reducible apply Keeps.iteA
    | with_reducible apply Keeps.ite2

def State.drvOff_w : Nat := fm H.CH_DRV_ON ||| fm H.CH_TERM_ON
theorem State.drvOff_keeps (s : State) (ch : Nat) : Keeps State.drvOff_w s (s.drvOff ch) := by
  unfold State.drvOff
  repeat' first
    | with_reducible assumption
    | with_reducible exact Keeps.refl _ _
    | decide +kernel
    | with_reducible apply Keeps.setBA

def State.chSafe_w : Nat := fm F.CH_CTRL_DRV_EN ||| fm F.PMU_CTRL_CONNECT ||| fm H.CH_PMU_ON ||| fm H.CH_PMU_SW_END |||
    State.drvOff_w
theorem State.chSafe_keeps (s : State) (ch : Nat) : Keeps State.chSafe_w s (s.chSafe ch) := by
  unfold State.chSafe
  repeat' first
    | with_reducible assumption
    | with_reducible exact Keeps.refl _ _
    | decide +kernel
    | with_reducible apply Keeps.setBA
    | with_reducible apply Keeps.noDueA
    | with_reducible apply Keeps.via (State.drvOff_keeps ..)

def State.chTrip_w : Nat := fm F.CH_STAT_TRIPPED ||| fm F.CH_STAT_TRIP_SEEN ||| State.chSafe_w
theorem State.chTrip_keeps (s : State) (ch : Nat) : Keeps State.chTrip_w s (s.chTrip ch) := by
  unfold State.chTrip
  repeat' first
    | with_reducible assumption
    | with_reducible exact Keeps.refl _ _
    | decide +kernel
    | with_reducible apply Keeps.setBA
    | with_reducible apply Keeps.via (State.chSafe_keeps ..)

def State.bankNow_w : Nat := fm H.CH_BANK_NOW ||| fm H.CH_SETTLE_END ||| fm H.CH_SETTLE_END1 ||| fm H.CH_BANK_END
theorem State.bankNow_keeps (s : State) (ch v : Nat) : Keeps State.bankNow_w s (s.bankNow ch v) := by
  unfold State.bankNow
  repeat' first
    | (extract_lets +onlyGivenNames x1; clear_value (hx : x1 = _); refine Keeps.cut x1 ?_ (fun h => ?_); rw [hx]; clear hx x1; rotate_left; clear hx; rotate_right)
    | (extract_lets +onlyGivenNames x1; clear_value (hx : x1 = _); refine Keeps.cut1 x1 ?_ (fun h => ?_); rw [hx]; clear hx x1; rotate_left; clear hx; rotate_right)
    | (extract_lets +onlyGivenNames x1; clear_value (hx : x1 = _); refine Keeps.cut2 x1 ?_ (fun h => ?_); rw [hx]; clear hx x1; rotate_left; clear hx; rotate_right)
    | (extract_lets +onlyGivenNames x1; clear_value (hx : x1 = _); clear hx)
    | with_reducible assumption
    | with_reducible exact Keeps.refl _ _
    | decide +kernel
    | with_reducible apply Keeps.putA
    | with_reducible apply Keeps.setDueA
    | with_reducible apply Keeps.iteA

def State.bankSet_w : Nat := fm F.CH_CTRL_BANK ||| State.bankNow_w ||| State.pend_w
theorem State.bankSet_keeps (s : State) (ch v : Nat) : Keeps State.bankSet_w s (s.bankSet ch v) := by
  unfold State.bankSet
  repeat' first
    | (extract_lets +onlyGivenNames x1; clear_value (hx : x1 = _); refine Keeps.cut x1 ?_ (fun h => ?_); rw [hx]; clear hx x1; rotate_left; clear hx; rotate_right)
    | (extract_lets +onlyGivenNames x1; clear_value (hx : x1 = _); refine Keeps.cut1 x1 ?_ (fun h => ?_); rw [hx]; clear hx x1; rotate_left; clear hx; rotate_right)
    | (extract_lets +onlyGivenNames x1; clear_value (hx : x1 = _); refine Keeps.cut2 x1 ?_ (fun h => ?_); rw [hx]; clear hx x1; rotate_left; clear hx; rotate_right)
    | (extract_lets +onlyGivenNames x1; clear_value (hx : x1 = _); clear hx)
    | with_reducible assumption
    | with_reducible exact Keeps.refl _ _
    | decide +kernel
    | with_reducible apply Keeps.putA
    | with_reducible apply Keeps.via (State.bankNow_keeps ..)
    | with_reducible apply Keeps.via (State.pend_keeps ..)
    | with_reducible apply Keeps.iteA
    | split

def levelField_w : Nat := fm F.CH_VIH0_VALUE ||| fm F.CH_VIL0_VALUE ||| fm F.CH_VOH0_VALUE ||| fm F.CH_VOL0_VALUE |||
    fm F.CH_VT0_VALUE ||| fm F.CH_VIH1_VALUE ||| fm F.CH_VIL1_VALUE ||| fm F.CH_VOH1_VALUE ||| fm F.CH_VOL1_VALUE |||
    fm F.CH_VT1_VALUE
theorem levelField_sub (n : Nat) : Sub (fm (levelField n)) levelField_w := by
  unfold levelField
  split <;> decide +kernel

def State.levelNow_w : Nat := fm H.CH_SETTLE_END ||| fm H.CH_SETTLE_END1
theorem State.levelNow_keeps (s : State) (ch lvl : Nat) : Keeps State.levelNow_w s (s.levelNow ch lvl) := by
  unfold State.levelNow
  repeat' first
    | with_reducible assumption
    | with_reducible exact Keeps.refl _ _
    | decide +kernel
    | with_reducible apply Keeps.setDueA
    | with_reducible apply Keeps.iteA

def State.levelSet_w : Nat := fm F.CH_STAT_LVL_CLAMP ||| levelField_w ||| State.levelNow_w ||| State.pend_w
theorem State.levelSet_keeps (s : State) (ch lvl v : Nat) : Keeps State.levelSet_w s (s.levelSet ch lvl v) := by
  unfold State.levelSet
  repeat' first
    | (extract_lets +onlyGivenNames x1; clear_value (hx : x1 = _); refine Keeps.cut x1 ?_ (fun h => ?_); rw [hx]; clear hx x1; rotate_left; clear hx; rotate_right)
    | (extract_lets +onlyGivenNames x1; clear_value (hx : x1 = _); refine Keeps.cut1 x1 ?_ (fun h => ?_); rw [hx]; clear hx x1; rotate_left; clear hx; rotate_right)
    | (extract_lets +onlyGivenNames x1; clear_value (hx : x1 = _); refine Keeps.cut2 x1 ?_ (fun h => ?_); rw [hx]; clear hx x1; rotate_left; clear hx; rotate_right)
    | (extract_lets +onlyGivenNames x1; clear_value (hx : x1 = _); clear hx)
    | with_reducible assumption
    | with_reducible exact Keeps.refl _ _
    | decide +kernel
    | with_reducible apply Keeps.setBA
    | with_reducible apply Keeps.putIA
    | exact (levelField_sub ..).trans (by decide +kernel)
    | with_reducible apply Keeps.via (State.levelNow_keeps ..)
    | with_reducible apply Keeps.via (State.pend_keeps ..)
    | with_reducible apply Keeps.iteA
    | split

def State.drvEnSet_w : Nat := fm F.CH_STAT_TRIPPED ||| fm F.CH_CTRL_DRV_EN ||| fm H.CH_DRV_LVL ||| State.drvOff_w
theorem State.drvEnSet_keeps (s : State) (ch : Nat) (b : Bool) : Keeps State.drvEnSet_w s (s.drvEnSet ch b) := by
  unfold State.drvEnSet
  repeat' first
    | with_reducible assumption
    | with_reducible exact Keeps.refl _ _
    | decide +kernel
    | with_reducible apply Keeps.setBA
    | with_reducible apply Keeps.via (State.drvOff_keeps ..)
    | with_reducible apply Keeps.iteA

def State.writeChCtrl_w : Nat := fm F.CH_CTRL_PAIR ||| fm F.CH_CTRL_TERM_MODE ||| fm F.CH_CTRL_KEEP_MODE |||
    fm F.CH_CTRL_CMP_MODE ||| fm F.CH_CTRL_MASK ||| State.bad_w ||| State.drvEnSet_w ||| State.chSafe_w |||
    State.bankSet_w ||| State.ok_w
theorem State.writeChCtrl_keeps (s : State) (ch v : Nat) : Keeps State.writeChCtrl_w s (s.writeChCtrl ch v).1 := by
  unfold State.writeChCtrl
  repeat' first
    | (extract_lets +onlyGivenNames x1; clear_value (hx : x1 = _); refine Keeps.cut x1 ?_ (fun h => ?_); rw [hx]; clear hx x1; rotate_left; clear hx; rotate_right)
    | (extract_lets +onlyGivenNames x1; clear_value (hx : x1 = _); refine Keeps.cut1 x1 ?_ (fun h => ?_); rw [hx]; clear hx x1; rotate_left; clear hx; rotate_right)
    | (extract_lets +onlyGivenNames x1; clear_value (hx : x1 = _); refine Keeps.cut2 x1 ?_ (fun h => ?_); rw [hx]; clear hx x1; rotate_left; clear hx; rotate_right)
    | (extract_lets +onlyGivenNames x1; clear_value (hx : x1 = _); clear hx)
    | with_reducible assumption
    | with_reducible exact Keeps.refl _ _
    | decide +kernel
    | with_reducible apply Keeps.putA
    | with_reducible apply Keeps.setBA
    | with_reducible apply Keeps.via (State.bad_keeps ..)
    | with_reducible apply Keeps.via (State.drvEnSet_keeps ..)
    | with_reducible apply Keeps.via (State.chSafe_keeps ..)
    | with_reducible apply Keeps.via (State.bankSet_keeps ..)
    | with_reducible apply Keeps.via (State.ok_keeps ..)
    | with_reducible apply Keeps.iteA
    | with_reducible apply Keeps.ite1

def State.pmuMove_w : Nat := fm H.CH_PMU_SW_END
theorem State.pmuMove_keeps (s : State) (ch : Nat) (was : Bool) : Keeps State.pmuMove_w s (s.pmuMove ch was) := by
  unfold State.pmuMove
  repeat' first
    | with_reducible assumption
    | with_reducible exact Keeps.refl _ _
    | decide +kernel
    | with_reducible apply Keeps.setDueA
    | with_reducible apply Keeps.noDueA
    | with_reducible apply Keeps.iteA

def State.pmuDisplace_w : Nat := State.drvOff_w
theorem State.pmuDisplace_keeps (s : State) (ch : Nat) : Keeps State.pmuDisplace_w s (s.pmuDisplace ch) := by
  unfold State.pmuDisplace
  repeat' first
    | with_reducible assumption
    | with_reducible exact Keeps.refl _ _
    | decide +kernel
    | with_reducible apply Keeps.via (State.drvOff_keeps ..)
    | with_reducible apply Keeps.iteA

def State.pmuMoved_w : Nat := fm H.CH_PMU_ON ||| fm H.CH_PMU_SW_END ||| State.pmuDisplace_w
theorem State.pmuMoved_keeps (s : State) (ch : Nat) : Keeps State.pmuMoved_w s (s.pmuMoved ch) := by
  unfold State.pmuMoved
  repeat' first
    | with_reducible assumption
    | with_reducible exact Keeps.refl _ _
    | decide +kernel
    | with_reducible apply Keeps.setBA
    | with_reducible apply Keeps.noDueA
    | with_reducible apply Keeps.via (State.pmuDisplace_keeps ..)

def State.pmuStart_w : Nat := fm F.PMU_CTRL_BUSY ||| fm F.PMU_RESULT_VALID ||| fm H.CH_PMU_MEAS_WAIT ||| fm H.CH_PMU_MEAS_END
theorem State.pmuStart_keeps (s : State) (ch : Nat) : Keeps State.pmuStart_w s (s.pmuStart ch) := by
  unfold State.pmuStart
  repeat' first
    | (extract_lets +onlyGivenNames x1; clear_value (hx : x1 = _); refine Keeps.cut x1 ?_ (fun h => ?_); rw [hx]; clear hx x1; rotate_left; clear hx; rotate_right)
    | (extract_lets +onlyGivenNames x1; clear_value (hx : x1 = _); refine Keeps.cut1 x1 ?_ (fun h => ?_); rw [hx]; clear hx x1; rotate_left; clear hx; rotate_right)
    | (extract_lets +onlyGivenNames x1; clear_value (hx : x1 = _); refine Keeps.cut2 x1 ?_ (fun h => ?_); rw [hx]; clear hx x1; rotate_left; clear hx; rotate_right)
    | (extract_lets +onlyGivenNames x1; clear_value (hx : x1 = _); clear hx)
    | with_reducible assumption
    | with_reducible exact Keeps.refl _ _
    | decide +kernel
    | with_reducible apply Keeps.setBA
    | with_reducible apply Keeps.setDueA
    | with_reducible apply Keeps.iteA

def State.pmuConfig_w : Nat := fm F.PMU_CTRL_MODE ||| fm F.PMU_CTRL_AVG ||| fm F.PMU_CTRL_CONNECT |||
    fm F.CH_STAT_TRIPPED ||| fm H.CH_PMU_OLD_RANGE ||| fm F.PMU_CTRL_RANGE ||| fm F.PMU_CTRL_RANGING |||
    fm H.CH_PMU_RNG_END ||| State.pmuMove_w ||| State.pmuDisplace_w
theorem State.pmuConfig_keeps (s : State) (ch v : Nat) : Keeps State.pmuConfig_w s (s.pmuConfig ch v) := by
  unfold State.pmuConfig
  repeat' first
    | (extract_lets +onlyGivenNames x1; clear_value (hx : x1 = _); refine Keeps.cut x1 ?_ (fun h => ?_); rw [hx]; clear hx x1; rotate_left; clear hx; rotate_right)
    | (extract_lets +onlyGivenNames x1; clear_value (hx : x1 = _); refine Keeps.cut1 x1 ?_ (fun h => ?_); rw [hx]; clear hx x1; rotate_left; clear hx; rotate_right)
    | (extract_lets +onlyGivenNames x1; clear_value (hx : x1 = _); refine Keeps.cut2 x1 ?_ (fun h => ?_); rw [hx]; clear hx x1; rotate_left; clear hx; rotate_right)
    | (extract_lets +onlyGivenNames x1; clear_value (hx : x1 = _); clear hx)
    | with_reducible assumption
    | with_reducible exact Keeps.refl _ _
    | decide +kernel
    | with_reducible apply Keeps.putA
    | with_reducible apply Keeps.setBA
    | with_reducible apply Keeps.setDueA
    | with_reducible apply Keeps.via (State.pmuMove_keeps ..)
    | with_reducible apply Keeps.via (State.pmuDisplace_keeps ..)
    | with_reducible apply Keeps.iteA

def State.writePmuCtrl_w : Nat := State.bad_w ||| State.pmuConfig_w ||| State.pmuStart_w ||| State.ok_w
theorem State.writePmuCtrl_keeps (s : State) (ch v : Nat) : Keeps State.writePmuCtrl_w s (s.writePmuCtrl ch v).1 := by
  unfold State.writePmuCtrl
  repeat' first
    | (extract_lets +onlyGivenNames x1; clear_value (hx : x1 = _); refine Keeps.cut x1 ?_ (fun h => ?_); rw [hx]; clear hx x1; rotate_left; clear hx; rotate_right)
    | (extract_lets +onlyGivenNames x1; clear_value (hx : x1 = _); refine Keeps.cut1 x1 ?_ (fun h => ?_); rw [hx]; clear hx x1; rotate_left; clear hx; rotate_right)
    | (extract_lets +onlyGivenNames x1; clear_value (hx : x1 = _); refine Keeps.cut2 x1 ?_ (fun h => ?_); rw [hx]; clear hx x1; rotate_left; clear hx; rotate_right)
    | (extract_lets +onlyGivenNames x1; clear_value (hx : x1 = _); clear hx)
    | with_reducible assumption
    | with_reducible exact Keeps.refl _ _
    | decide +kernel
    | with_reducible apply Keeps.via (State.bad_keeps ..)
    | with_reducible apply Keeps.via (State.pmuConfig_keeps ..)
    | with_reducible apply Keeps.via (State.pmuStart_keeps ..)
    | with_reducible apply Keeps.via (State.ok_keeps ..)
    | with_reducible apply Keeps.iteA
    | with_reducible apply Keeps.ite1

def State.pmuForceSet_w : Nat := fm F.PMU_FORCE_VALUE ||| fm F.CH_STAT_LVL_CLAMP
theorem State.pmuForceSet_keeps (s : State) (ch v : Nat) : Keeps State.pmuForceSet_w s (s.pmuForceSet ch v) := by
  unfold State.pmuForceSet
  repeat' first
    | (extract_lets +onlyGivenNames x1; clear_value (hx : x1 = _); refine Keeps.cut x1 ?_ (fun h => ?_); rw [hx]; clear hx x1; rotate_left; clear hx; rotate_right)
    | (extract_lets +onlyGivenNames x1; clear_value (hx : x1 = _); refine Keeps.cut1 x1 ?_ (fun h => ?_); rw [hx]; clear hx x1; rotate_left; clear hx; rotate_right)
    | (extract_lets +onlyGivenNames x1; clear_value (hx : x1 = _); refine Keeps.cut2 x1 ?_ (fun h => ?_); rw [hx]; clear hx x1; rotate_left; clear hx; rotate_right)
    | (extract_lets +onlyGivenNames x1; clear_value (hx : x1 = _); clear hx)
    | with_reducible assumption
    | with_reducible exact Keeps.refl _ _
    | decide +kernel
    | with_reducible apply Keeps.setBA
    | with_reducible apply Keeps.putIA
    | with_reducible apply Keeps.iteA

def State.pmuVclampSet_w : Nat := fm F.PMU_VCLAMP_VCL_HI ||| fm F.PMU_VCLAMP_VCL_LO ||| fm F.CH_STAT_LVL_CLAMP
theorem State.pmuVclampSet_keeps (s : State) (ch v : Nat) : Keeps State.pmuVclampSet_w s (s.pmuVclampSet ch v) := by
  unfold State.pmuVclampSet
  repeat' first
    | (extract_lets +onlyGivenNames x1; clear_value (hx : x1 = _); refine Keeps.cut x1 ?_ (fun h => ?_); rw [hx]; clear hx x1; rotate_left; clear hx; rotate_right)
    | (extract_lets +onlyGivenNames x1; clear_value (hx : x1 = _); refine Keeps.cut1 x1 ?_ (fun h => ?_); rw [hx]; clear hx x1; rotate_left; clear hx; rotate_right)
    | (extract_lets +onlyGivenNames x1; clear_value (hx : x1 = _); refine Keeps.cut2 x1 ?_ (fun h => ?_); rw [hx]; clear hx x1; rotate_left; clear hx; rotate_right)
    | (extract_lets +onlyGivenNames x1; clear_value (hx : x1 = _); clear hx)
    | with_reducible assumption
    | with_reducible exact Keeps.refl _ _
    | decide +kernel
    | with_reducible apply Keeps.setBA
    | with_reducible apply Keeps.putIA
    | with_reducible apply Keeps.iteA

def State.pmuDone_w : Nat := fm F.PMU_CTRL_BUSY ||| fm H.CH_PMU_MEAS_END ||| fm F.PMU_RESULT_VALID |||
    fm F.PMU_RESULT_STALE ||| fm F.PMU_RESULT_VALUE ||| fm F.PMU_RESULT_CLAMPED ||| fm F.PMU_RESULT_OVER |||
    fm F.CH_STAT_PMU_CLAMP
theorem State.pmuDone_keeps (s : State) (ch : Nat) (m : Int) (clamped beyond : Bool) : Keeps State.pmuDone_w s (s.pmuDone ch m clamped beyond) := by
  unfold State.pmuDone
  repeat' first
    | (extract_lets +onlyGivenNames x1; clear_value (hx : x1 = _); refine Keeps.cut x1 ?_ (fun h => ?_); rw [hx]; clear hx x1; rotate_left; clear hx; rotate_right)
    | (extract_lets +onlyGivenNames x1; clear_value (hx : x1 = _); refine Keeps.cut1 x1 ?_ (fun h => ?_); rw [hx]; clear hx x1; rotate_left; clear hx; rotate_right)
    | (extract_lets +onlyGivenNames x1; clear_value (hx : x1 = _); refine Keeps.cut2 x1 ?_ (fun h => ?_); rw [hx]; clear hx x1; rotate_left; clear hx; rotate_right)
    | (extract_lets +onlyGivenNames x1; clear_value (hx : x1 = _); clear hx)
    | with_reducible assumption
    | with_reducible exact Keeps.refl _ _
    | decide +kernel
    | with_reducible apply Keeps.setBA
    | with_reducible apply Keeps.putIA
    | with_reducible apply Keeps.noDueA
    | with_reducible apply Keeps.iteA

def State.dpsFreeze_w : Nat := fm H.DPS_POINT ||| fm H.DPS_PT_T
theorem State.dpsFreeze_keeps (s : State) (d : Nat) : Keeps State.dpsFreeze_w s (s.dpsFreeze d) := by
  unfold State.dpsFreeze
  repeat' first
    | with_reducible assumption
    | with_reducible exact Keeps.refl _ _
    | decide +kernel
    | with_reducible apply Keeps.putA
    | with_reducible apply Keeps.putIA

def State.dpsStageOff_w : Nat := fm F.DPS_CTRL_EN ||| fm F.DPS_STAT_ON ||| fm F.DPS_STAT_SETTLED |||
    fm F.DPS_STAT_IN_LIMIT ||| fm H.DPS_HELD ||| fm H.DPS_DISCH ||| State.dpsFreeze_w
theorem State.dpsStageOff_keeps (s : State) (d : Nat) : Keeps State.dpsStageOff_w s (s.dpsStageOff d) := by
  unfold State.dpsStageOff
  repeat' first
    | (extract_lets +onlyGivenNames x1; clear_value (hx : x1 = _); refine Keeps.cut x1 ?_ (fun h => ?_); rw [hx]; clear hx x1; rotate_left; clear hx; rotate_right)
    | (extract_lets +onlyGivenNames x1; clear_value (hx : x1 = _); refine Keeps.cut1 x1 ?_ (fun h => ?_); rw [hx]; clear hx x1; rotate_left; clear hx; rotate_right)
    | (extract_lets +onlyGivenNames x1; clear_value (hx : x1 = _); refine Keeps.cut2 x1 ?_ (fun h => ?_); rw [hx]; clear hx x1; rotate_left; clear hx; rotate_right)
    | (extract_lets +onlyGivenNames x1; clear_value (hx : x1 = _); clear hx)
    | with_reducible assumption
    | with_reducible exact Keeps.refl _ _
    | decide +kernel
    | with_reducible apply Keeps.setBA
    | with_reducible apply Keeps.via (State.dpsFreeze_keeps ..)

def State.dpsGangOff_w : Nat := State.dpsStageOff_w
theorem State.dpsGangOff_keeps (s : State) (d : Nat) : Keeps State.dpsGangOff_w s (s.dpsGangOff d) := by
  unfold State.dpsGangOff
  repeat' first
    | with_reducible assumption
    | with_reducible exact Keeps.refl _ _
    | decide +kernel
    | with_reducible refine Keeps.eachA ?_ (fun _ _ => ?_)
    | with_reducible apply Keeps.via (State.dpsStageOff_keeps ..)

def State.dpsTrip_w : Nat := fm F.DPS_STAT_TRIPPED ||| fm F.DPS_STAT_TRIP_SEEN ||| State.dpsStageOff_w
theorem State.dpsTrip_keeps (s : State) (d : Nat) : Keeps State.dpsTrip_w s (s.dpsTrip d) := by
  unfold State.dpsTrip
  repeat' first
    | with_reducible assumption
    | with_reducible exact Keeps.refl _ _
    | decide +kernel
    | with_reducible apply Keeps.setBA
    | with_reducible refine Keeps.eachA ?_ (fun _ _ => ?_)
    | with_reducible apply Keeps.via (State.dpsStageOff_keeps ..)

def State.dpsOn_w : Nat := fm F.DPS_CTRL_EN ||| fm F.DPS_STAT_ON ||| fm H.DPS_DISCH ||| fm H.DPS_POINT ||| fm H.DPS_PT_T |||
    fm H.DPS_HELD ||| fm F.DPS_STAT_SETTLED ||| fm F.DPS_STAT_TRIPPED
theorem State.dpsOn_keeps (s : State) (d : Nat) : Keeps State.dpsOn_w s (s.dpsOn d) := by
  unfold State.dpsOn
  repeat' first
    | (extract_lets +onlyGivenNames x1; clear_value (hx : x1 = _); refine Keeps.cut x1 ?_ (fun h => ?_); rw [hx]; clear hx x1; rotate_left; clear hx; rotate_right)
    | (extract_lets +onlyGivenNames x1; clear_value (hx : x1 = _); refine Keeps.cut1 x1 ?_ (fun h => ?_); rw [hx]; clear hx x1; rotate_left; clear hx; rotate_right)
    | (extract_lets +onlyGivenNames x1; clear_value (hx : x1 = _); refine Keeps.cut2 x1 ?_ (fun h => ?_); rw [hx]; clear hx x1; rotate_left; clear hx; rotate_right)
    | (extract_lets +onlyGivenNames x1; clear_value (hx : x1 = _); clear hx)
    | with_reducible assumption
    | with_reducible exact Keeps.refl _ _
    | decide +kernel
    | with_reducible apply Keeps.putA
    | with_reducible apply Keeps.setBA
    | with_reducible refine Keeps.eachA ?_ (fun _ _ => ?_)

def State.dpsVsetSet_w : Nat := fm F.DPS_VSET_VALUE ||| fm F.DPS_STAT_SETTLED ||| fm F.DPS_STAT_CLAMP ||| State.dpsFreeze_w
theorem State.dpsVsetSet_keeps (s : State) (d v : Nat) : Keeps State.dpsVsetSet_w s (s.dpsVsetSet d v) := by
  unfold State.dpsVsetSet
  repeat' first
    | (extract_lets +onlyGivenNames x1; clear_value (hx : x1 = _); refine Keeps.cut x1 ?_ (fun h => ?_); rw [hx]; clear hx x1; rotate_left; clear hx; rotate_right)
    | (extract_lets +onlyGivenNames x1; clear_value (hx : x1 = _); refine Keeps.cut1 x1 ?_ (fun h => ?_); rw [hx]; clear hx x1; rotate_left; clear hx; rotate_right)
    | (extract_lets +onlyGivenNames x1; clear_value (hx : x1 = _); refine Keeps.cut2 x1 ?_ (fun h => ?_); rw [hx]; clear hx x1; rotate_left; clear hx; rotate_right)
    | (extract_lets +onlyGivenNames x1; clear_value (hx : x1 = _); clear hx)
    | with_reducible assumption
    | with_reducible exact Keeps.refl _ _
    | decide +kernel
    | with_reducible apply Keeps.setBA
    | with_reducible apply Keeps.putIA
    | with_reducible apply Keeps.via (State.dpsFreeze_keeps ..)
    | with_reducible apply Keeps.iteA

def State.dpsSlewSet_w : Nat := fm F.DPS_CTRL_SLEW ||| State.dpsFreeze_w
theorem State.dpsSlewSet_keeps (s : State) (d v : Nat) : Keeps State.dpsSlewSet_w s (s.dpsSlewSet d v) := by
  unfold State.dpsSlewSet
  repeat' first
    | with_reducible assumption
    | with_reducible exact Keeps.refl _ _
    | decide +kernel
    | with_reducible apply Keeps.putA
    | with_reducible apply Keeps.via (State.dpsFreeze_keeps ..)

def State.dpsIlimSet_w : Nat := fm F.DPS_ILIM_VALUE ||| fm F.DPS_STAT_CLAMP
theorem State.dpsIlimSet_keeps (s : State) (d v : Nat) : Keeps State.dpsIlimSet_w s (s.dpsIlimSet d v) := by
  unfold State.dpsIlimSet
  repeat' first
    | (extract_lets +onlyGivenNames x1; clear_value (hx : x1 = _); refine Keeps.cut x1 ?_ (fun h => ?_); rw [hx]; clear hx x1; rotate_left; clear hx; rotate_right)
    | (extract_lets +onlyGivenNames x1; clear_value (hx : x1 = _); refine Keeps.cut1 x1 ?_ (fun h => ?_); rw [hx]; clear hx x1; rotate_left; clear hx; rotate_right)
    | (extract_lets +onlyGivenNames x1; clear_value (hx : x1 = _); refine Keeps.cut2 x1 ?_ (fun h => ?_); rw [hx]; clear hx x1; rotate_left; clear hx; rotate_right)
    | (extract_lets +onlyGivenNames x1; clear_value (hx : x1 = _); clear hx)
    | with_reducible assumption
    | with_reducible exact Keeps.refl _ _
    | decide +kernel
    | with_reducible apply Keeps.putA
    | with_reducible apply Keeps.setBA
    | with_reducible apply Keeps.iteA

def State.extSet_w : Nat := fm F.DPS_CTRL_EXT ||| fm F.DPS_CTRL_IRANGE ||| fm F.MON_CTRL_EN ||| fm F.MON_STAT_ARM_HI |||
    fm F.MON_STAT_ARM_LO
theorem State.extSet_keeps (s : State) (d : Nat) (b : Bool) : Keeps State.extSet_w s (s.extSet d b) := by
  unfold State.extSet
  repeat' first
    | (extract_lets +onlyGivenNames x1; clear_value (hx : x1 = _); refine Keeps.cut x1 ?_ (fun h => ?_); rw [hx]; clear hx x1; rotate_left; clear hx; rotate_right)
    | (extract_lets +onlyGivenNames x1; clear_value (hx : x1 = _); refine Keeps.cut1 x1 ?_ (fun h => ?_); rw [hx]; clear hx x1; rotate_left; clear hx; rotate_right)
    | (extract_lets +onlyGivenNames x1; clear_value (hx : x1 = _); refine Keeps.cut2 x1 ?_ (fun h => ?_); rw [hx]; clear hx x1; rotate_left; clear hx; rotate_right)
    | (extract_lets +onlyGivenNames x1; clear_value (hx : x1 = _); clear hx)
    | with_reducible assumption
    | with_reducible exact Keeps.refl _ _
    | decide +kernel
    | with_reducible apply Keeps.putA
    | with_reducible apply Keeps.setBA
    | with_reducible refine Keeps.eachA ?_ (fun _ _ => ?_)
    | with_reducible apply Keeps.iteA

def State.dpsRangeSet_w : Nat := fm H.DPS_OLD_RANGE ||| fm F.DPS_CTRL_IRANGE ||| fm H.DPS_RNG_END
theorem State.dpsRangeSet_keeps (s : State) (d v : Nat) : Keeps State.dpsRangeSet_w s (s.dpsRangeSet d v) := by
  unfold State.dpsRangeSet
  repeat' first
    | (extract_lets +onlyGivenNames x1; clear_value (hx : x1 = _); refine Keeps.cut x1 ?_ (fun h => ?_); rw [hx]; clear hx x1; rotate_left; clear hx; rotate_right)
    | (extract_lets +onlyGivenNames x1; clear_value (hx : x1 = _); refine Keeps.cut1 x1 ?_ (fun h => ?_); rw [hx]; clear hx x1; rotate_left; clear hx; rotate_right)
    | (extract_lets +onlyGivenNames x1; clear_value (hx : x1 = _); refine Keeps.cut2 x1 ?_ (fun h => ?_); rw [hx]; clear hx x1; rotate_left; clear hx; rotate_right)
    | (extract_lets +onlyGivenNames x1; clear_value (hx : x1 = _); clear hx)
    | with_reducible assumption
    | with_reducible exact Keeps.refl _ _
    | decide +kernel
    | with_reducible apply Keeps.putA
    | with_reducible apply Keeps.setDueA
    | with_reducible apply Keeps.iteA

def State.dpsEnSet_w : Nat := fm F.DPS_STAT_THERM_REF ||| State.dpsOn_w ||| State.dpsGangOff_w
theorem State.dpsEnSet_keeps (s : State) (d : Nat) (b : Bool) : Keeps State.dpsEnSet_w s (s.dpsEnSet d b).1 := by
  unfold State.dpsEnSet
  repeat' first
    | (extract_lets +onlyGivenNames x1; clear_value (hx : x1 = _); refine Keeps.cut x1 ?_ (fun h => ?_); rw [hx]; clear hx x1; rotate_left; clear hx; rotate_right)
    | (extract_lets +onlyGivenNames x1; clear_value (hx : x1 = _); refine Keeps.cut1 x1 ?_ (fun h => ?_); rw [hx]; clear hx x1; rotate_left; clear hx; rotate_right)
    | (extract_lets +onlyGivenNames x1; clear_value (hx : x1 = _); refine Keeps.cut2 x1 ?_ (fun h => ?_); rw [hx]; clear hx x1; rotate_left; clear hx; rotate_right)
    | (extract_lets +onlyGivenNames x1; clear_value (hx : x1 = _); clear hx)
    | with_reducible assumption
    | with_reducible exact Keeps.refl _ _
    | decide +kernel
    | with_reducible apply Keeps.setBA
    | with_reducible apply Keeps.via (State.dpsOn_keeps ..)
    | with_reducible apply Keeps.via (State.dpsGangOff_keeps ..)
    | with_reducible apply Keeps.iteA
    | with_reducible apply Keeps.ite1

def State.writeDpsCtrl_w : Nat := fm F.DPS_STAT_THERM_REF ||| fm F.DPS_CTRL_COMP ||| State.bad_w ||| State.extSet_w |||
    State.dpsSlewSet_w ||| State.dpsRangeSet_w ||| State.dpsEnSet_w ||| State.ok_w
theorem State.writeDpsCtrl_keeps (s : State) (d v : Nat) : Keeps State.writeDpsCtrl_w s (s.writeDpsCtrl d v).1 := by
  unfold State.writeDpsCtrl
  repeat' first
    | (extract_lets +onlyGivenNames x1; clear_value (hx : x1 = _); refine Keeps.cut x1 ?_ (fun h => ?_); rw [hx]; clear hx x1; rotate_left; clear hx; rotate_right)
    | (extract_lets +onlyGivenNames x1; clear_value (hx : x1 = _); refine Keeps.cut1 x1 ?_ (fun h => ?_); rw [hx]; clear hx x1; rotate_left; clear hx; rotate_right)
    | (extract_lets +onlyGivenNames x1; clear_value (hx : x1 = _); refine Keeps.cut2 x1 ?_ (fun h => ?_); rw [hx]; clear hx x1; rotate_left; clear hx; rotate_right)
    | (extract_lets +onlyGivenNames x1; clear_value (hx : x1 = _); clear hx)
    | with_reducible assumption
    | with_reducible exact Keeps.refl _ _
    | decide +kernel
    | with_reducible apply Keeps.putA
    | with_reducible apply Keeps.setBA
    | with_reducible apply Keeps.via (State.bad_keeps ..)
    | with_reducible apply Keeps.via (State.extSet_keeps ..)
    | with_reducible apply Keeps.via (State.dpsSlewSet_keeps ..)
    | with_reducible apply Keeps.via (State.dpsRangeSet_keeps ..)
    | with_reducible apply Keeps.via (State.dpsEnSet_keeps ..)
    | with_reducible apply Keeps.via (State.ok_keeps ..)
    | with_reducible apply Keeps.iteA
    | with_reducible apply Keeps.ite1

def State.dpsMeasStart_w : Nat := fm F.DPS_MEAS_BUSY ||| fm F.DPS_RES_STAT_VALID ||| fm H.DPS_MEAS_LEFT |||
    fm H.DPS_MEAS_N ||| fm H.DPS_SUM_V ||| fm H.DPS_SUM_I ||| fm H.DPS_ACC_LIM ||| fm H.DPS_ACC_OVER
theorem State.dpsMeasStart_keeps (s : State) (d : Nat) : Keeps State.dpsMeasStart_w s (s.dpsMeasStart d) := by
  unfold State.dpsMeasStart
  repeat' first
    | (extract_lets +onlyGivenNames x1; clear_value (hx : x1 = _); refine Keeps.cut x1 ?_ (fun h => ?_); rw [hx]; clear hx x1; rotate_left; clear hx; rotate_right)
    | (extract_lets +onlyGivenNames x1; clear_value (hx : x1 = _); refine Keeps.cut1 x1 ?_ (fun h => ?_); rw [hx]; clear hx x1; rotate_left; clear hx; rotate_right)
    | (extract_lets +onlyGivenNames x1; clear_value (hx : x1 = _); refine Keeps.cut2 x1 ?_ (fun h => ?_); rw [hx]; clear hx x1; rotate_left; clear hx; rotate_right)
    | (extract_lets +onlyGivenNames x1; clear_value (hx : x1 = _); clear hx)
    | with_reducible assumption
    | with_reducible exact Keeps.refl _ _
    | decide +kernel
    | with_reducible apply Keeps.putA
    | with_reducible apply Keeps.setBA
    | with_reducible apply Keeps.iteA

def State.smuSwitch_w : Nat := fm F.SMU_STAT_CLOSED ||| fm F.SMU_CTRL_EN ||| fm H.SMU_SW_END
theorem State.smuSwitch_keeps (s : State) (u : Nat) (en : Bool) : Keeps State.smuSwitch_w s (s.smuSwitch u en) := by
  unfold State.smuSwitch
  repeat' first
    | (extract_lets +onlyGivenNames x1; clear_value (hx : x1 = _); refine Keeps.cut x1 ?_ (fun h => ?_); rw [hx]; clear hx x1; rotate_left; clear hx; rotate_right)
    | (extract_lets +onlyGivenNames x1; clear_value (hx : x1 = _); refine Keeps.cut1 x1 ?_ (fun h => ?_); rw [hx]; clear hx x1; rotate_left; clear hx; rotate_right)
    | (extract_lets +onlyGivenNames x1; clear_value (hx : x1 = _); refine Keeps.cut2 x1 ?_ (fun h => ?_); rw [hx]; clear hx x1; rotate_left; clear hx; rotate_right)
    | (extract_lets +onlyGivenNames x1; clear_value (hx : x1 = _); clear hx)
    | with_reducible assumption
    | with_reducible exact Keeps.refl _ _
    | decide +kernel
    | with_reducible apply Keeps.setBA
    | with_reducible apply Keeps.setDueA

def State.smuHold_w : Nat := fm F.SMU_CTRL_SRC ||| fm F.SMU_SET_VALUE ||| fm F.SMUW_CUR_PLAYING |||
    fm F.SMUW_JUMP_REQ_PENDING ||| fm H.SW_DECIDED ||| m_waveBuf
theorem State.smuHold_keeps (s : State) (u : Nat) : Keeps State.smuHold_w s (s.smuHold u) := by
  unfold State.smuHold
  repeat' first
    | (extract_lets +onlyGivenNames x1; clear_value (hx : x1 = _); refine Keeps.cut x1 ?_ (fun h => ?_); rw [hx]; clear hx x1; rotate_left; clear hx; rotate_right)
    | (extract_lets +onlyGivenNames x1; clear_value (hx : x1 = _); refine Keeps.cut1 x1 ?_ (fun h => ?_); rw [hx]; clear hx x1; rotate_left; clear hx; rotate_right)
    | (extract_lets +onlyGivenNames x1; clear_value (hx : x1 = _); refine Keeps.cut2 x1 ?_ (fun h => ?_); rw [hx]; clear hx x1; rotate_left; clear hx; rotate_right)
    | (extract_lets +onlyGivenNames x1; clear_value (hx : x1 = _); clear hx)
    | with_reducible assumption
    | with_reducible exact Keeps.refl _ _
    | decide +kernel
    | with_reducible apply Keeps.putA
    | with_reducible apply Keeps.setBA
    | with_reducible apply Keeps.iteA
    | with_reducible refine Keeps.trans ?_ (Keeps.c_waveBuf _ ?_)

def State.smuOff_w : Nat := fm H.SMU_STAGE ||| fm F.SMU_STAT_IN_COMP ||| State.smuHold_w ||| State.smuSwitch_w
theorem State.smuOff_keeps (s : State) (u : Nat) : Keeps State.smuOff_w s (s.smuOff u) := by
  unfold State.smuOff
  repeat' first
    | with_reducible assumption
    | with_reducible exact Keeps.refl _ _
    | decide +kernel
    | with_reducible apply Keeps.setBA
    | with_reducible apply Keeps.via (State.smuHold_keeps ..)
    | with_reducible apply Keeps.via (State.smuSwitch_keeps ..)

def State.smuSafe_w : Nat := fm H.SMU_SW_END ||| fm F.SMU_STAT_CLOSED ||| fm H.SMU_DAC0 ||| State.smuOff_w
theorem State.smuSafe_keeps (s : State) (u : Nat) : Keeps State.smuSafe_w s (s.smuSafe u) := by
  unfold State.smuSafe
  repeat' first
    | with_reducible assumption
    | with_reducible exact Keeps.refl _ _
    | decide +kernel
    | with_reducible apply Keeps.setBA
    | with_reducible apply Keeps.noDueA
    | with_reducible apply Keeps.via (State.smuOff_keeps ..)

def State.smuTrip_w : Nat := fm F.SMU_STAT_TRIPPED ||| fm F.SMU_STAT_TRIP_SEEN ||| State.smuOff_w
theorem State.smuTrip_keeps (s : State) (u : Nat) : Keeps State.smuTrip_w s (s.smuTrip u) := by
  unfold State.smuTrip
  repeat' first
    | with_reducible assumption
    | with_reducible exact Keeps.refl _ _
    | decide +kernel
    | with_reducible apply Keeps.setBA
    | with_reducible apply Keeps.via (State.smuOff_keeps ..)

def State.smuSource_w : Nat := fm H.SMU_DAC
theorem State.smuSource_keeps (s : State) (u : Nat) : Keeps State.smuSource_w s (s.smuSource u) := by
  unfold State.smuSource
  repeat' first
    | with_reducible assumption
    | with_reducible exact Keeps.refl _ _
    | decide +kernel
    | with_reducible apply Keeps.putA
    | with_reducible apply Keeps.iteA

def State.smuEnSet_w : Nat := fm H.SMU_DAC0 ||| fm H.SMU_STAGE ||| fm F.SMU_STAT_TRIPPED ||| State.smuSource_w |||
    State.smuSwitch_w
theorem State.smuEnSet_keeps (s : State) (u : Nat) (b : Bool) : Keeps State.smuEnSet_w s (s.smuEnSet u b).1 := by
  unfold State.smuEnSet
  repeat' first
    | (extract_lets +onlyGivenNames x1; clear_value (hx : x1 = _); refine Keeps.cut x1 ?_ (fun h => ?_); rw [hx]; clear hx x1; rotate_left; clear hx; rotate_right)
    | (extract_lets +onlyGivenNames x1; clear_value (hx : x1 = _); refine Keeps.cut1 x1 ?_ (fun h => ?_); rw [hx]; clear hx x1; rotate_left; clear hx; rotate_right)
    | (extract_lets +onlyGivenNames x1; clear_value (hx : x1 = _); refine Keeps.cut2 x1 ?_ (fun h => ?_); rw [hx]; clear hx x1; rotate_left; clear hx; rotate_right)
    | (extract_lets +onlyGivenNames x1; clear_value (hx : x1 = _); clear hx)
    | with_reducible assumption
    | with_reducible exact Keeps.refl _ _
    | decide +kernel
    | with_reducible apply Keeps.setBA
    | with_reducible apply Keeps.via (State.smuSource_keeps ..)
    | with_reducible apply Keeps.via (State.smuSwitch_keeps ..)
    | with_reducible apply Keeps.iteA
    | with_reducible apply Keeps.ite1

def State.smuSetSet_w : Nat := fm F.SMU_SET_VALUE ||| fm F.SMU_STAT_CLAMP ||| State.smuSource_w
theorem State.smuSetSet_keeps (s : State) (u v : Nat) : Keeps State.smuSetSet_w s (s.smuSetSet u v) := by
  unfold State.smuSetSet
  repeat' first
    | (extract_lets +onlyGivenNames x1; clear_value (hx : x1 = _); refine Keeps.cut x1 ?_ (fun h => ?_); rw [hx]; clear hx x1; rotate_left; clear hx; rotate_right)
    | (extract_lets +onlyGivenNames x1; clear_value (hx : x1 = _); refine Keeps.cut1 x1 ?_ (fun h => ?_); rw [hx]; clear hx x1; rotate_left; clear hx; rotate_right)
    | (extract_lets +onlyGivenNames x1; clear_value (hx : x1 = _); refine Keeps.cut2 x1 ?_ (fun h => ?_); rw [hx]; clear hx x1; rotate_left; clear hx; rotate_right)
    | (extract_lets +onlyGivenNames x1; clear_value (hx : x1 = _); clear hx)
    | with_reducible assumption
    | with_reducible exact Keeps.refl _ _
    | decide +kernel
    | with_reducible apply Keeps.setBA
    | with_reducible apply Keeps.putIA
    | with_reducible apply Keeps.via (State.smuSource_keeps ..)
    | with_reducible apply Keeps.iteA

def State.smuCompSet_w (f : Field) : Nat := fm f ||| fm F.SMU_STAT_CLAMP
theorem State.smuCompSet_keeps (s : State) (f : Field) (u v : Nat) : Keeps (State.smuCompSet_w f) s (s.smuCompSet f u v) := by
  have h : Keeps (State.smuCompSet_w f) s (s.put f u (min v 4200000)) := Keeps.putA (Sub.or_left _ _) (Keeps.refl _ _)
  unfold State.smuCompSet
  exact Keeps.iteA h (h.setBA (Sub.or_right _ _))

def State.smuRangeSet_w : Nat := fm F.SMU_CTRL_IRANGE ||| fm F.SMU_CTRL_VRANGE ||| fm F.SMU_CTRL_FMODE ||| fm H.SMU_RNG_END
theorem State.smuRangeSet_keeps (s : State) (u ir vr fm : Nat) : Keeps State.smuRangeSet_w s (s.smuRangeSet u ir vr fm).1 := by
  unfold State.smuRangeSet
  repeat' first
    | (extract_lets +onlyGivenNames x1; clear_value (hx : x1 = _); refine Keeps.cut x1 ?_ (fun h => ?_); rw [hx]; clear hx x1; rotate_left; clear hx; rotate_right)
    | (extract_lets +onlyGivenNames x1; clear_value (hx : x1 = _); refine Keeps.cut1 x1 ?_ (fun h => ?_); rw [hx]; clear hx x1; rotate_left; clear hx; rotate_right)
    | (extract_lets +onlyGivenNames x1; clear_value (hx : x1 = _); refine Keeps.cut2 x1 ?_ (fun h => ?_); rw [hx]; clear hx x1; rotate_left; clear hx; rotate_right)
    | (extract_lets +onlyGivenNames x1; clear_value (hx : x1 = _); clear hx)
    | with_reducible assumption
    | with_reducible exact Keeps.refl _ _
    | decide +kernel
    | with_reducible apply Keeps.putA
    | with_reducible apply Keeps.setDueA
    | with_reducible apply Keeps.iteA
    | with_reducible apply Keeps.ite1

def State.smuSrcSet_w : Nat := fm F.SMU_CTRL_SRC ||| State.smuHold_w ||| State.smuSource_w
theorem State.smuSrcSet_keeps (s : State) (u v : Nat) : Keeps State.smuSrcSet_w s (s.smuSrcSet u v) := by
  unfold State.smuSrcSet
  repeat' first
    | (extract_lets +onlyGivenNames x1; clear_value (hx : x1 = _); refine Keeps.cut x1 ?_ (fun h => ?_); rw [hx]; clear hx x1; rotate_left; clear hx; rotate_right)
    | (extract_lets +onlyGivenNames x1; clear_value (hx : x1 = _); refine Keeps.cut1 x1 ?_ (fun h => ?_); rw [hx]; clear hx x1; rotate_left; clear hx; rotate_right)
    | (extract_lets +onlyGivenNames x1; clear_value (hx : x1 = _); refine Keeps.cut2 x1 ?_ (fun h => ?_); rw [hx]; clear hx x1; rotate_left; clear hx; rotate_right)
    | (extract_lets +onlyGivenNames x1; clear_value (hx : x1 = _); clear hx)
    | with_reducible assumption
    | with_reducible exact Keeps.refl _ _
    | decide +kernel
    | with_reducible apply Keeps.putA
    | with_reducible apply Keeps.via (State.smuHold_keeps ..)
    | with_reducible apply Keeps.via (State.smuSource_keeps ..)
    | with_reducible apply Keeps.iteA

def State.writeSmuCtrl_w : Nat := State.bad_w ||| State.smuRangeSet_w ||| State.smuSrcSet_w ||| State.smuEnSet_w |||
    State.ok_w
theorem State.writeSmuCtrl_keeps (s : State) (u v : Nat) : Keeps State.writeSmuCtrl_w s (s.writeSmuCtrl u v).1 := by
  unfold State.writeSmuCtrl
  repeat' first
    | (extract_lets +onlyGivenNames x1; clear_value (hx : x1 = _); refine Keeps.cut x1 ?_ (fun h => ?_); rw [hx]; clear hx x1; rotate_left; clear hx; rotate_right)
    | (extract_lets +onlyGivenNames x1; clear_value (hx : x1 = _); refine Keeps.cut1 x1 ?_ (fun h => ?_); rw [hx]; clear hx x1; rotate_left; clear hx; rotate_right)
    | (extract_lets +onlyGivenNames x1; clear_value (hx : x1 = _); refine Keeps.cut2 x1 ?_ (fun h => ?_); rw [hx]; clear hx x1; rotate_left; clear hx; rotate_right)
    | (extract_lets +onlyGivenNames x1; clear_value (hx : x1 = _); clear hx)
    | with_reducible assumption
    | with_reducible exact Keeps.refl _ _
    | decide +kernel
    | with_reducible apply Keeps.via (State.bad_keeps ..)
    | with_reducible apply Keeps.via (State.smuRangeSet_keeps ..)
    | with_reducible apply Keeps.via (State.smuSrcSet_keeps ..)
    | with_reducible apply Keeps.via (State.smuEnSet_keeps ..)
    | with_reducible apply Keeps.via (State.ok_keeps ..)
    | with_reducible apply Keeps.iteA
    | with_reducible apply Keeps.ite1

def State.smuMeasStart_w : Nat := fm F.SMU_MEAS_BUSY ||| fm F.SMU_RES_STAT_VALID ||| fm H.SMU_MEAS_LEFT |||
    fm H.SMU_MEAS_N ||| fm H.SMU_SUM_V ||| fm H.SMU_SUM_I ||| fm H.SMU_ACC_LIM ||| fm H.SMU_ACC_OVER
theorem State.smuMeasStart_keeps (s : State) (u : Nat) : Keeps State.smuMeasStart_w s (s.smuMeasStart u) := by
  unfold State.smuMeasStart
  repeat' first
    | (extract_lets +onlyGivenNames x1; clear_value (hx : x1 = _); refine Keeps.cut x1 ?_ (fun h => ?_); rw [hx]; clear hx x1; rotate_left; clear hx; rotate_right)
    | (extract_lets +onlyGivenNames x1; clear_value (hx : x1 = _); refine Keeps.cut1 x1 ?_ (fun h => ?_); rw [hx]; clear hx x1; rotate_left; clear hx; rotate_right)
    | (extract_lets +onlyGivenNames x1; clear_value (hx : x1 = _); refine Keeps.cut2 x1 ?_ (fun h => ?_); rw [hx]; clear hx x1; rotate_left; clear hx; rotate_right)
    | (extract_lets +onlyGivenNames x1; clear_value (hx : x1 = _); clear hx)
    | with_reducible assumption
    | with_reducible exact Keeps.refl _ _
    | decide +kernel
    | with_reducible apply Keeps.putA
    | with_reducible apply Keeps.setBA
    | with_reducible apply Keeps.iteA

def State.safeStage_w : Nat := State.chSafe_w ||| State.dpsStageOff_w ||| State.smuSafe_w
theorem State.safeStage_keeps (s : State) (sc : SafeScope) (n : Nat) : Keeps State.safeStage_w s (s.safeStage sc n) := by
  unfold State.safeStage
  repeat' first
    | with_reducible assumption
    | with_reducible exact Keeps.refl _ _
    | decide +kernel
    | with_reducible refine Keeps.eachA ?_ (fun _ _ => ?_)
    | with_reducible apply Keeps.via (State.chSafe_keeps ..)
    | with_reducible apply Keeps.via (State.dpsStageOff_keeps ..)
    | with_reducible apply Keeps.via (State.smuSafe_keeps ..)
    | split

def State.safeStart_w : Nat := m_safe
theorem State.safeStart_keeps (s : State) (sc : SafeScope) : Keeps State.safeStart_w s (s.safeStart sc) := by
  unfold State.safeStart
  repeat' first
    | with_reducible assumption
    | with_reducible exact Keeps.refl _ _
    | decide +kernel
    | with_reducible refine Keeps.trans ?_ (Keeps.c_safe _ ?_)

def State.siteSafeStart_w : Nat := State.safeStart_w
theorem State.siteSafeStart_keeps (s : State) (i : Nat) : Keeps State.siteSafeStart_w s (s.siteSafeStart i) := by
  unfold State.siteSafeStart
  repeat' first
    | with_reducible assumption
    | with_reducible exact Keeps.refl _ _
    | decide +kernel
    | with_reducible apply Keeps.via (State.safeStart_keeps ..)
    | split

def State.allSafe_w : Nat := State.chSafe_w ||| State.dpsStageOff_w ||| State.smuSafe_w
theorem State.allSafe_keeps (s : State) : Keeps State.allSafe_w s (s.allSafe) := by
  unfold State.allSafe
  repeat' first
    | with_reducible assumption
    | with_reducible exact Keeps.refl _ _
    | decide +kernel
    | with_reducible refine Keeps.eachA ?_ (fun _ _ => ?_)
    | with_reducible apply Keeps.via (State.chSafe_keeps ..)
    | with_reducible apply Keeps.via (State.dpsStageOff_keeps ..)
    | with_reducible apply Keeps.via (State.smuSafe_keeps ..)

end Sys2Proof.Machine
end

