-- ==== Sys2Proof/Laws/KeepsCapture.lean ====
section
/-!
SUPPORT. What every operation of Machine/Capture.lean can change: its mask and its Keeps lemma.
-/

set_option Elab.async false
set_option linter.all false

namespace Sys2Proof.Machine

def State.tdcQueueSet_w : Nat := m_tdcq
theorem State.tdcQueueSet_keeps (s : State) (j : Nat) (q : List TdcEntry) : Keeps State.tdcQueueSet_w s (s.tdcQueueSet j q) := by
  unfold State.tdcQueueSet
  repeat' first
    | with_reducible assumption
    | with_reducible exact Keeps.refl _ _
    | decide +kernel
    | with_reducible refine Keeps.trans ?_ (Keeps.c_tdcq _ ?_)

def State.tdcEnq_w : Nat := State.tdcQueueSet_w
theorem State.tdcEnq_keeps (s : State) (j w : Nat) : Keeps State.tdcEnq_w s (s.tdcEnq j w) := by
  unfold State.tdcEnq
  repeat' first
    | with_reducible assumption
    | with_reducible exact Keeps.refl _ _
    | decide +kernel
    | with_reducible apply Keeps.via (State.tdcQueueSet_keeps ..)
    | with_reducible apply Keeps.iteA

def State.tdcRefill_w : Nat := fm H.TDC_OVRN ||| fm H.TDC_EPOCH_P ||| fm H.TDC_DIS_P ||| State.tdcEnq_w
theorem State.tdcRefill_keeps (s : State) (j : Nat) : Keeps State.tdcRefill_w s (s.tdcRefill j) := by
  unfold State.tdcRefill
  repeat' first
    | (extract_lets +onlyGivenNames x1; clear_value (hx : x1 = _); refine Keeps.cut x1 ?_ (fun h => ?_); rw [hx]; clear hx x1; rotate_left; clear hx; rotate_right)
    | (extract_lets +onlyGivenNames x1; clear_value (hx : x1 = _); refine Keeps.cut1 x1 ?_ (fun h => ?_); rw [hx]; clear hx x1; rotate_left; clear hx; rotate_right)
    | (extract_lets +onlyGivenNames x1; clear_value (hx : x1 = _); refine Keeps.cut2 x1 ?_ (fun h => ?_); rw [hx]; clear hx x1; rotate_left; clear hx; rotate_right)
    | (extract_lets +onlyGivenNames x1; clear_value (hx : x1 = _); clear hx)
    | with_reducible assumption
    | with_reducible exact Keeps.refl _ _
    | decide +kernel
    | with_reducible apply Keeps.putA
    | with_reducible apply Keeps.via (State.tdcEnq_keeps ..)
    | with_reducible apply Keeps.iteA

def State.tdcPush_w : Nat := fm F.TDC_DROP_COUNT ||| fm F.TDC_STAT_OVERRUN_SEEN ||| fm H.TDC_OVRN ||| fm H.TDC_GATE_BAD |||
    State.tdcRefill_w ||| State.tdcEnq_w ||| State.celPut_w
theorem State.tdcPush_keeps (s : State) (j w : Nat) : Keeps State.tdcPush_w s (s.tdcPush j w) := by
  unfold State.tdcPush
  repeat' first
    | (extract_lets +onlyGivenNames x1; clear_value (hx : x1 = _); refine Keeps.cut x1 ?_ (fun h => ?_); rw [hx]; clear hx x1; rotate_left; clear hx; rotate_right)
    | (extract_lets +onlyGivenNames x1; clear_value (hx : x1 = _); refine Keeps.cut1 x1 ?_ (fun h => ?_); rw [hx]; clear hx x1; rotate_left; clear hx; rotate_right)
    | (extract_lets +onlyGivenNames x1; clear_value (hx : x1 = _); refine Keeps.cut2 x1 ?_ (fun h => ?_); rw [hx]; clear hx x1; rotate_left; clear hx; rotate_right)
    | (extract_lets +onlyGivenNames x1; clear_value (hx : x1 = _); clear hx)
    | with_reducible assumption
    | with_reducible exact Keeps.refl _ _
    | decide +kernel
    | with_reducible apply Keeps.setBA
    | with_reducible apply Keeps.incSatA
    | with_reducible apply Keeps.via (State.tdcRefill_keeps ..)
    | with_reducible apply Keeps.via (State.tdcEnq_keeps ..)
    | with_reducible apply Keeps.via (State.celPut_keeps ..)
    | with_reducible apply Keeps.iteA

def State.tdcSpill1_w : Nat := fm F.TDC_STAT_RING_FULL ||| fm F.TDC_WR_LO_WR_LO ||| fm F.TDC_WR_HI_WR_HI |||
    State.celStore_w ||| State.celPut_w ||| State.tdcQueueSet_w ||| State.tdcRefill_w
theorem State.tdcSpill1_keeps (s : State) (j : Nat) : Keeps State.tdcSpill1_w s (s.tdcSpill1 j) := by
  unfold State.tdcSpill1
  repeat' first
    | (extract_lets +onlyGivenNames x1; clear_value (hx : x1 = _); refine Keeps.cut x1 ?_ (fun h => ?_); rw [hx]; clear hx x1; rotate_left; clear hx; rotate_right)
    | (extract_lets +onlyGivenNames x1; clear_value (hx : x1 = _); refine Keeps.cut1 x1 ?_ (fun h => ?_); rw [hx]; clear hx x1; rotate_left; clear hx; rotate_right)
    | (extract_lets +onlyGivenNames x1; clear_value (hx : x1 = _); refine Keeps.cut2 x1 ?_ (fun h => ?_); rw [hx]; clear hx x1; rotate_left; clear hx; rotate_right)
    | (extract_lets +onlyGivenNames x1; clear_value (hx : x1 = _); clear hx)
    | with_reducible assumption
    | with_reducible exact Keeps.refl _ _
    | decide +kernel
    | with_reducible apply Keeps.setBA
    | with_reducible apply Keeps.put2A
    | with_reducible apply Keeps.via (State.celStore_keeps ..)
    | with_reducible apply Keeps.via (State.celPut_keeps ..)
    | with_reducible apply Keeps.via (State.tdcQueueSet_keeps ..)
    | with_reducible apply Keeps.via (State.tdcRefill_keeps ..)
    | with_reducible apply Keeps.iteA
    | split

def State.tdcSpill_w : Nat := State.tdcSpill1_w
theorem State.tdcSpill_keeps (s : State) (j n : Nat) : Keeps State.tdcSpill_w s (s.tdcSpill j n) := by
  induction n generalizing s with
  | zero => exact Keeps.refl _ _
  | succ n ih => exact (State.tdcSpill1_keeps s j).trans (ih _)

def State.tdcDrain_w : Nat := State.tdcSpill_w
theorem State.tdcDrain_keeps (s : State) (j : Nat) : Keeps State.tdcDrain_w s (s.tdcDrain j) := by
  unfold State.tdcDrain
  repeat' first
    | with_reducible assumption
    | with_reducible exact Keeps.refl _ _
    | decide +kernel
    | with_reducible apply Keeps.via (State.tdcSpill_keeps ..)

def State.tdcCfgSet_w : Nat := fm F.TDC_CFG_MODE ||| fm F.TDC_CFG_ST_EV ||| fm F.TDC_CFG_ST_VAL |||
    fm F.TDC_CFG_START_SRC ||| fm F.TDC_CFG_START_CH ||| fm F.TDC_CFG_START_SLOPE ||| fm F.TDC_CFG_STOP_SRC |||
    fm F.TDC_CFG_STOP_CH ||| fm F.TDC_CFG_STOP_SLOPE
theorem State.tdcCfgSet_keeps (s : State) (j w : Nat) : Keeps State.tdcCfgSet_w s (s.tdcCfgSet j w) := by
  unfold State.tdcCfgSet
  repeat' first
    | (extract_lets +onlyGivenNames x1; clear_value (hx : x1 = _); refine Keeps.cut x1 ?_ (fun h => ?_); rw [hx]; clear hx x1; rotate_left; clear hx; rotate_right)
    | (extract_lets +onlyGivenNames x1; clear_value (hx : x1 = _); refine Keeps.cut1 x1 ?_ (fun h => ?_); rw [hx]; clear hx x1; rotate_left; clear hx; rotate_right)
    | (extract_lets +onlyGivenNames x1; clear_value (hx : x1 = _); refine Keeps.cut2 x1 ?_ (fun h => ?_); rw [hx]; clear hx x1; rotate_left; clear hx; rotate_right)
    | (extract_lets +onlyGivenNames x1; clear_value (hx : x1 = _); clear hx)
    | with_reducible assumption
    | with_reducible exact Keeps.refl _ _
    | decide +kernel
    | with_reducible apply Keeps.putA
    | with_reducible apply Keeps.setBA

def State.tdcConvert_w : Nat := fm H.TDC_PAIR1 ||| fm H.TDC_PAIR2 ||| fm F.TDC_CALOLD_COUNT ||| fm F.TDC_STAT_CAL_OLD_SEEN
theorem State.tdcConvert_keeps (s : State) (j i n1 n2 : Nat) : Keeps State.tdcConvert_w s (s.tdcConvert j i n1 n2) := by
  unfold State.tdcConvert
  repeat' first
    | with_reducible assumption
    | with_reducible exact Keeps.refl _ _
    | decide +kernel
    | with_reducible apply Keeps.putA
    | with_reducible apply Keeps.setBA
    | with_reducible apply Keeps.incSatA
    | with_reducible apply Keeps.iteA

def State.tdcNoPairs_w : Nat := fm H.TDC_PAIR1 ||| fm H.TDC_PAIR2
theorem State.tdcNoPairs_keeps (s : State) (j : Nat) : Keeps State.tdcNoPairs_w s (s.tdcNoPairs j) := by
  unfold State.tdcNoPairs
  repeat' first
    | with_reducible assumption
    | with_reducible exact Keeps.refl _ _
    | decide +kernel
    | with_reducible apply Keeps.clearA

def State.tdcArm_w : Nat := fm F.TDC_CTRL_ARMED ||| fm F.TDC_CTRL_OPEN ||| fm H.TDC_T1 ||| fm H.TDC_T2 ||| fm H.TDC_ARM_T |||
    fm H.TDC_OPEN_DUE ||| fm H.TDC_PAIR1 ||| fm H.TDC_PAIR2 ||| m_free ||| fms tdcCleared ||| State.tdcPush_w |||
    State.tdcNoPairs_w ||| State.tdcConvert_w
theorem State.tdcArm_keeps (s : State) (j : Nat) : Keeps State.tdcArm_w s (s.tdcArm j) := by
  unfold State.tdcArm
  repeat' first
    | (extract_lets +onlyGivenNames x1; clear_value (hx : x1 = _); refine Keeps.cut x1 ?_ (fun h => ?_); rw [hx]; clear hx x1; rotate_left; clear hx; rotate_right)
    | (extract_lets +onlyGivenNames x1; clear_value (hx : x1 = _); refine Keeps.cut1 x1 ?_ (fun h => ?_); rw [hx]; clear hx x1; rotate_left; clear hx; rotate_right)
    | (extract_lets +onlyGivenNames x1; clear_value (hx : x1 = _); refine Keeps.cut2 x1 ?_ (fun h => ?_); rw [hx]; clear hx x1; rotate_left; clear hx; rotate_right)
    | (extract_lets +onlyGivenNames x1; clear_value (hx : x1 = _); clear hx)
    | with_reducible assumption
    | with_reducible exact Keeps.refl _ _
    | decide +kernel
    | with_reducible apply Keeps.putA
    | with_reducible apply Keeps.setBA
    | with_reducible apply Keeps.clearA
    | with_reducible apply Keeps.setDueA
    | with_reducible apply Keeps.drawA
    | with_reducible apply Keeps.clearsA
    | with_reducible refine Keeps.foldlA ?_ (fun _ _ => ?_)
    | with_reducible apply Keeps.via (State.tdcPush_keeps ..)
    | with_reducible apply Keeps.via (State.tdcNoPairs_keeps ..)
    | with_reducible apply Keeps.via (State.tdcConvert_keeps ..)
    | with_reducible apply Keeps.iteA
    | split

def State.tdcDisarm_w : Nat := fm F.TDC_CTRL_ARMED ||| fm F.TDC_CTRL_OPEN ||| fm H.TDC_START_P ||| fm H.TDC_OPEN_DUE |||
    fm H.TDC_GATE_ON ||| fm F.TDC_CTRL_BAND_PEND ||| fm H.TDC_TRIM ||| fm H.TDC_DIS_P ||| State.tdcRefill_w
theorem State.tdcDisarm_keeps (s : State) (j reason : Nat) : Keeps State.tdcDisarm_w s (s.tdcDisarm j reason) := by
  unfold State.tdcDisarm
  repeat' first
    | (extract_lets +onlyGivenNames x1; clear_value (hx : x1 = _); refine Keeps.cut x1 ?_ (fun h => ?_); rw [hx]; clear hx x1; rotate_left; clear hx; rotate_right)
    | (extract_lets +onlyGivenNames x1; clear_value (hx : x1 = _); refine Keeps.cut1 x1 ?_ (fun h => ?_); rw [hx]; clear hx x1; rotate_left; clear hx; rotate_right)
    | (extract_lets +onlyGivenNames x1; clear_value (hx : x1 = _); refine Keeps.cut2 x1 ?_ (fun h => ?_); rw [hx]; clear hx x1; rotate_left; clear hx; rotate_right)
    | (extract_lets +onlyGivenNames x1; clear_value (hx : x1 = _); clear hx)
    | with_reducible assumption
    | with_reducible exact Keeps.refl _ _
    | decide +kernel
    | with_reducible apply Keeps.putA
    | with_reducible apply Keeps.setBA
    | with_reducible apply Keeps.noDueA
    | with_reducible apply Keeps.via (State.tdcRefill_keeps ..)
    | with_reducible apply Keeps.iteA

def State.tdcEpoch_w : Nat := fm H.TDC_EPOCH_P ||| State.tdcRefill_w
theorem State.tdcEpoch_keeps (s : State) (j : Nat) : Keeps State.tdcEpoch_w s (s.tdcEpoch j) := by
  unfold State.tdcEpoch
  repeat' first
    | with_reducible assumption
    | with_reducible exact Keeps.refl _ _
    | decide +kernel
    | with_reducible apply Keeps.putA
    | with_reducible apply Keeps.via (State.tdcRefill_keeps ..)
    | with_reducible apply Keeps.iteA

def State.tdcValue_w : Nat := fm H.TDC_GATE_BAD ||| fm F.TDC_NVAL_COUNT ||| fm F.TDC_MIN_MIN ||| fm F.TDC_MAX_MAX ||| fm F.TDC_SUM_LO_S_LO |||
    fm F.TDC_SUM_HI_S_HI ||| fm F.TDC_LAST_LO_V_LO ||| fm F.TDC_LAST_HI_V_HI ||| State.tdcPush_w
theorem State.tdcValue_keeps (s : State) (j u : Nat) (store : Bool) : Keeps State.tdcValue_w s (s.tdcValue j u store) := by
  unfold State.tdcValue
  repeat' first
    | (extract_lets +onlyGivenNames x1; clear_value (hx : x1 = _); refine Keeps.cut x1 ?_ (fun h => ?_); rw [hx]; clear hx x1; rotate_left; clear hx; rotate_right)
    | (extract_lets +onlyGivenNames x1; clear_value (hx : x1 = _); refine Keeps.cut1 x1 ?_ (fun h => ?_); rw [hx]; clear hx x1; rotate_left; clear hx; rotate_right)
    | (extract_lets +onlyGivenNames x1; clear_value (hx : x1 = _); refine Keeps.cut2 x1 ?_ (fun h => ?_); rw [hx]; clear hx x1; rotate_left; clear hx; rotate_right)
    | (extract_lets +onlyGivenNames x1; clear_value (hx : x1 = _); clear hx)
    | with_reducible assumption
    | with_reducible exact Keeps.refl _ _
    | decide +kernel
    | with_reducible apply Keeps.putA
    | with_reducible apply Keeps.incSatA
    | with_reducible apply Keeps.put2A
    | with_reducible apply Keeps.via (State.tdcPush_keeps ..)
    | with_reducible apply Keeps.iteA

def State.tdcPair_w : Nat := fm F.TDC_CNT_B_NEAR ||| fm F.TDC_STAT_NEAR_SEEN ||| fm H.TDC_START_P ||| State.tdcPush_w |||
    State.tdcValue_w
theorem State.tdcPair_keeps (s : State) (j stop : Nat) : Keeps State.tdcPair_w s (s.tdcPair j stop) := by
  unfold State.tdcPair
  repeat' first
    | (extract_lets +onlyGivenNames x1; clear_value (hx : x1 = _); refine Keeps.cut x1 ?_ (fun h => ?_); rw [hx]; clear hx x1; rotate_left; clear hx; rotate_right)
    | (extract_lets +onlyGivenNames x1; clear_value (hx : x1 = _); refine Keeps.cut1 x1 ?_ (fun h => ?_); rw [hx]; clear hx x1; rotate_left; clear hx; rotate_right)
    | (extract_lets +onlyGivenNames x1; clear_value (hx : x1 = _); refine Keeps.cut2 x1 ?_ (fun h => ?_); rw [hx]; clear hx x1; rotate_left; clear hx; rotate_right)
    | (extract_lets +onlyGivenNames x1; clear_value (hx : x1 = _); clear hx)
    | with_reducible assumption
    | with_reducible exact Keeps.refl _ _
    | decide +kernel
    | with_reducible apply Keeps.setBA
    | with_reducible apply Keeps.incSatA
    | with_reducible apply Keeps.via (State.tdcPush_keeps ..)
    | with_reducible apply Keeps.via (State.tdcValue_keeps ..)
    | with_reducible apply Keeps.iteA

def State.tdcStart_w : Nat := fm H.TDC_START_P ||| fm H.TDC_START_U ||| fm H.TDC_START_AT
theorem State.tdcStart_keeps (s : State) (j u t : Nat) : Keeps State.tdcStart_w s (s.tdcStart j u t) := by
  unfold State.tdcStart
  repeat' first
    | with_reducible assumption
    | with_reducible exact Keeps.refl _ _
    | decide +kernel
    | with_reducible apply Keeps.putA
    | with_reducible apply Keeps.setBA

def State.tdcInterval_w : Nat := fm F.TDC_CNT_A_ORPHAN_STOP ||| fm F.TDC_STAT_PAIR_SEEN ||| fm F.TDC_CNT_A_DOUBLE_START |||
    State.tdcPair_w ||| State.tdcStart_w
theorem State.tdcInterval_keeps (s : State) (j : Nat) (stop : Bool) (u t : Nat) : Keeps State.tdcInterval_w s (s.tdcInterval j stop u t) := by
  unfold State.tdcInterval
  repeat' first
    | (extract_lets +onlyGivenNames x1; clear_value (hx : x1 = _); refine Keeps.cut x1 ?_ (fun h => ?_); rw [hx]; clear hx x1; rotate_left; clear hx; rotate_right)
    | (extract_lets +onlyGivenNames x1; clear_value (hx : x1 = _); refine Keeps.cut1 x1 ?_ (fun h => ?_); rw [hx]; clear hx x1; rotate_left; clear hx; rotate_right)
    | (extract_lets +onlyGivenNames x1; clear_value (hx : x1 = _); refine Keeps.cut2 x1 ?_ (fun h => ?_); rw [hx]; clear hx x1; rotate_left; clear hx; rotate_right)
    | (extract_lets +onlyGivenNames x1; clear_value (hx : x1 = _); clear hx)
    | with_reducible assumption
    | with_reducible exact Keeps.refl _ _
    | decide +kernel
    | with_reducible apply Keeps.setBA
    | with_reducible apply Keeps.incSatA
    | with_reducible apply Keeps.via (State.tdcPair_keeps ..)
    | with_reducible apply Keeps.via (State.tdcStart_keeps ..)
    | with_reducible apply Keeps.iteA

def State.tdcGate_w : Nat := fm H.TDC_GATE_ON ||| fm H.TDC_GATE_U ||| fm H.TDC_GATE_CNT ||| fm H.TDC_GATE_BAD |||
    State.tdcPush_w ||| State.tdcValue_w
theorem State.tdcGate_keeps (s : State) (j u : Nat) : Keeps State.tdcGate_w s (s.tdcGate j u) := by
  unfold State.tdcGate
  repeat' first
    | (extract_lets +onlyGivenNames x1; clear_value (hx : x1 = _); refine Keeps.cut x1 ?_ (fun h => ?_); rw [hx]; clear hx x1; rotate_left; clear hx; rotate_right)
    | (extract_lets +onlyGivenNames x1; clear_value (hx : x1 = _); refine Keeps.cut1 x1 ?_ (fun h => ?_); rw [hx]; clear hx x1; rotate_left; clear hx; rotate_right)
    | (extract_lets +onlyGivenNames x1; clear_value (hx : x1 = _); refine Keeps.cut2 x1 ?_ (fun h => ?_); rw [hx]; clear hx x1; rotate_left; clear hx; rotate_right)
    | (extract_lets +onlyGivenNames x1; clear_value (hx : x1 = _); clear hx)
    | with_reducible assumption
    | with_reducible exact Keeps.refl _ _
    | decide +kernel
    | with_reducible apply Keeps.putA
    | with_reducible apply Keeps.setBA
    | with_reducible apply Keeps.via (State.tdcPush_keeps ..)
    | with_reducible apply Keeps.via (State.tdcValue_keeps ..)
    | with_reducible apply Keeps.iteA

def State.tdcUse_w : Nat := State.tdcPush_w ||| State.tdcInterval_w ||| State.tdcGate_w
theorem State.tdcUse_keeps (s : State) (j : Nat) (stop : Bool) (u t : Nat) : Keeps State.tdcUse_w s (s.tdcUse j stop u t) := by
  unfold State.tdcUse
  repeat' first
    | with_reducible assumption
    | with_reducible exact Keeps.refl _ _
    | decide +kernel
    | with_reducible apply Keeps.via (State.tdcPush_keeps ..)
    | with_reducible apply Keeps.via (State.tdcInterval_keeps ..)
    | with_reducible apply Keeps.via (State.tdcGate_keeps ..)
    | with_reducible apply Keeps.iteA
    | split

def State.tdcAccept_w : Nat := fm H.TDC_DEADN ||| fm F.TDC_ACC_LO_N_LO ||| fm F.TDC_ACC_HI_N_HI ||| State.tdcEnq_w
theorem State.tdcAccept_keeps (s : State) (j : Nat) : Keeps State.tdcAccept_w s (s.tdcAccept j) := by
  unfold State.tdcAccept
  repeat' first
    | (extract_lets +onlyGivenNames x1; clear_value (hx : x1 = _); refine Keeps.cut x1 ?_ (fun h => ?_); rw [hx]; clear hx x1; rotate_left; clear hx; rotate_right)
    | (extract_lets +onlyGivenNames x1; clear_value (hx : x1 = _); refine Keeps.cut1 x1 ?_ (fun h => ?_); rw [hx]; clear hx x1; rotate_left; clear hx; rotate_right)
    | (extract_lets +onlyGivenNames x1; clear_value (hx : x1 = _); refine Keeps.cut2 x1 ?_ (fun h => ?_); rw [hx]; clear hx x1; rotate_left; clear hx; rotate_right)
    | (extract_lets +onlyGivenNames x1; clear_value (hx : x1 = _); clear hx)
    | with_reducible assumption
    | with_reducible exact Keeps.refl _ _
    | decide +kernel
    | with_reducible apply Keeps.putA
    | with_reducible apply Keeps.put2A
    | with_reducible apply Keeps.via (State.tdcEnq_keeps ..)
    | with_reducible apply Keeps.iteA

def State.tdcEdge_w : Nat := fm F.TDC_DEAD_COUNT ||| fm F.TDC_STAT_DEAD_SEEN ||| fm H.TDC_DEADN ||| fm H.TDC_GATE_BAD |||
    fm H.TDC_T2 ||| fm H.TDC_T1 ||| fm H.TDC_INTERP ||| m_now ||| State.tdcAccept_w ||| State.tdcUse_w ||| State.tdcConvert_w
theorem State.tdcEdge_keeps (s : State) (j : Nat) (e : TdcEdge) : Keeps State.tdcEdge_w s (s.tdcEdge j e) := by
  unfold State.tdcEdge
  repeat' first
    | (extract_lets +onlyGivenNames x1; clear_value (hx : x1 = _); refine Keeps.cut x1 ?_ (fun h => ?_); rw [hx]; clear hx x1; rotate_left; clear hx; rotate_right)
    | (extract_lets +onlyGivenNames x1; clear_value (hx : x1 = _); refine Keeps.cut1 x1 ?_ (fun h => ?_); rw [hx]; clear hx x1; rotate_left; clear hx; rotate_right)
    | (extract_lets +onlyGivenNames x1; clear_value (hx : x1 = _); refine Keeps.cut2 x1 ?_ (fun h => ?_); rw [hx]; clear hx x1; rotate_left; clear hx; rotate_right)
    | (extract_lets +onlyGivenNames x1; clear_value (hx : x1 = _); clear hx)
    | with_reducible assumption
    | with_reducible exact Keeps.refl _ _
    | decide +kernel
    | with_reducible apply Keeps.putA
    | with_reducible apply Keeps.setBA
    | with_reducible apply Keeps.incSatA
    | with_reducible apply Keeps.upToA
    | with_reducible apply Keeps.via (State.tdcAccept_keeps ..)
    | with_reducible apply Keeps.via (State.tdcUse_keeps ..)
    | with_reducible apply Keeps.via (State.tdcConvert_keeps ..)
    | with_reducible apply Keeps.iteA

def State.acqCfgSet_w : Nat := fm F.ACQ_CFG_TRIG_SRC ||| fm F.ACQ_CFG_TRIG_LINE ||| fm F.ACQ_CFG_WAIT_PRE |||
    fm F.ACQ_CFG_AUTO_REDUCE ||| fm F.ACQ_CFG_STREAMS ||| fm F.ACQ_CFG_P
theorem State.acqCfgSet_keeps (s : State) (u w : Nat) : Keeps State.acqCfgSet_w s (s.acqCfgSet u w) := by
  unfold State.acqCfgSet
  repeat' first
    | (extract_lets +onlyGivenNames x1; clear_value (hx : x1 = _); refine Keeps.cut x1 ?_ (fun h => ?_); rw [hx]; clear hx x1; rotate_left; clear hx; rotate_right)
    | (extract_lets +onlyGivenNames x1; clear_value (hx : x1 = _); refine Keeps.cut1 x1 ?_ (fun h => ?_); rw [hx]; clear hx x1; rotate_left; clear hx; rotate_right)
    | (extract_lets +onlyGivenNames x1; clear_value (hx : x1 = _); refine Keeps.cut2 x1 ?_ (fun h => ?_); rw [hx]; clear hx x1; rotate_left; clear hx; rotate_right)
    | (extract_lets +onlyGivenNames x1; clear_value (hx : x1 = _); clear hx)
    | with_reducible assumption
    | with_reducible exact Keeps.refl _ _
    | decide +kernel
    | with_reducible apply Keeps.putA
    | with_reducible apply Keeps.setBA

def State.acqArm_w : Nat := fm H.ACQ_EXACT ||| fm H.ACQ_SETUP ||| fm H.ACQ_LVL ||| fm H.ACQ_NEXT ||| fm H.ACQ_RUN ||| fm F.ACQ_CTRL_STATE |||
    fms acqCleared
theorem State.acqArm_keeps (s : State) (u : Nat) : Keeps State.acqArm_w s (s.acqArm u) := by
  unfold State.acqArm
  repeat' first
    | (extract_lets +onlyGivenNames x1; clear_value (hx : x1 = _); refine Keeps.cut x1 ?_ (fun h => ?_); rw [hx]; clear hx x1; rotate_left; clear hx; rotate_right)
    | (extract_lets +onlyGivenNames x1; clear_value (hx : x1 = _); refine Keeps.cut1 x1 ?_ (fun h => ?_); rw [hx]; clear hx x1; rotate_left; clear hx; rotate_right)
    | (extract_lets +onlyGivenNames x1; clear_value (hx : x1 = _); refine Keeps.cut2 x1 ?_ (fun h => ?_); rw [hx]; clear hx x1; rotate_left; clear hx; rotate_right)
    | (extract_lets +onlyGivenNames x1; clear_value (hx : x1 = _); clear hx)
    | with_reducible assumption
    | with_reducible exact Keeps.refl _ _
    | decide +kernel
    | with_reducible apply Keeps.putA
    | with_reducible apply Keeps.clearA
    | with_reducible apply Keeps.clearsA
    | with_reducible refine Keeps.foldlA ?_ (fun _ _ => ?_)
    | with_reducible apply Keeps.iteA

def State.acqFlag_w : Nat := fm H.ACQ_FLAGS ||| fm F.ACQ_STAT_FORCED ||| fm F.ACQ_STAT_PRE_SHORT |||
    fm F.ACQ_STAT_POST_SHORT ||| fm F.ACQ_STAT_DROP ||| fm F.ACQ_STAT_STALE ||| fm F.ACQ_STAT_RANGED ||| fm F.ACQ_STAT_LATE
theorem State.acqFlag_keeps (s : State) (u b : Nat) : Keeps State.acqFlag_w s (s.acqFlag u b) := by
  unfold State.acqFlag
  repeat' first
    | (extract_lets +onlyGivenNames x1; clear_value (hx : x1 = _); refine Keeps.cut x1 ?_ (fun h => ?_); rw [hx]; clear hx x1; rotate_left; clear hx; rotate_right)
    | (extract_lets +onlyGivenNames x1; clear_value (hx : x1 = _); refine Keeps.cut1 x1 ?_ (fun h => ?_); rw [hx]; clear hx x1; rotate_left; clear hx; rotate_right)
    | (extract_lets +onlyGivenNames x1; clear_value (hx : x1 = _); refine Keeps.cut2 x1 ?_ (fun h => ?_); rw [hx]; clear hx x1; rotate_left; clear hx; rotate_right)
    | (extract_lets +onlyGivenNames x1; clear_value (hx : x1 = _); clear hx)
    | with_reducible assumption
    | with_reducible exact Keeps.refl _ _
    | decide +kernel
    | with_reducible apply Keeps.putA
    | with_reducible apply Keeps.setBA
    | split

def State.acqFire_w : Nat := fm F.ACQ_CTRL_STATE ||| fm H.ACQ_TRIG_N ||| fm H.ACQ_KIND ||| fm H.ACQ_EXACT |||
    fm H.ACQ_LEFT ||| fm F.ACQ_TRIG_TS_LO_TS_LO ||| fm F.ACQ_TRIG_TS_HI_TS_HI
theorem State.acqFire_keeps (s : State) (u n kind exact : Nat) : Keeps State.acqFire_w s (s.acqFire u n kind exact) := by
  unfold State.acqFire
  repeat' first
    | (extract_lets +onlyGivenNames x1; clear_value (hx : x1 = _); refine Keeps.cut x1 ?_ (fun h => ?_); rw [hx]; clear hx x1; rotate_left; clear hx; rotate_right)
    | (extract_lets +onlyGivenNames x1; clear_value (hx : x1 = _); refine Keeps.cut1 x1 ?_ (fun h => ?_); rw [hx]; clear hx x1; rotate_left; clear hx; rotate_right)
    | (extract_lets +onlyGivenNames x1; clear_value (hx : x1 = _); refine Keeps.cut2 x1 ?_ (fun h => ?_); rw [hx]; clear hx x1; rotate_left; clear hx; rotate_right)
    | (extract_lets +onlyGivenNames x1; clear_value (hx : x1 = _); clear hx)
    | with_reducible assumption
    | with_reducible exact Keeps.refl _ _
    | decide +kernel
    | with_reducible apply Keeps.putA
    | with_reducible apply Keeps.put2A

def State.acqTrigger_w : Nat := fm F.ACQ_COUNT_EXTRA ||| fm H.ACQ_XTRA ||| State.acqFire_w
theorem State.acqTrigger_keeps (s : State) (u kind t : Nat) : Keeps State.acqTrigger_w s (s.acqTrigger u kind t) := by
  unfold State.acqTrigger
  repeat' first
    | (extract_lets +onlyGivenNames x1; clear_value (hx : x1 = _); refine Keeps.cut x1 ?_ (fun h => ?_); rw [hx]; clear hx x1; rotate_left; clear hx; rotate_right)
    | (extract_lets +onlyGivenNames x1; clear_value (hx : x1 = _); refine Keeps.cut1 x1 ?_ (fun h => ?_); rw [hx]; clear hx x1; rotate_left; clear hx; rotate_right)
    | (extract_lets +onlyGivenNames x1; clear_value (hx : x1 = _); refine Keeps.cut2 x1 ?_ (fun h => ?_); rw [hx]; clear hx x1; rotate_left; clear hx; rotate_right)
    | (extract_lets +onlyGivenNames x1; clear_value (hx : x1 = _); clear hx)
    | with_reducible assumption
    | with_reducible exact Keeps.refl _ _
    | decide +kernel
    | with_reducible apply Keeps.incSatA
    | with_reducible apply Keeps.via (State.acqFire_keeps ..)
    | with_reducible apply Keeps.iteA

def State.acqCancel_w : Nat := fm F.ACQ_CTRL_STATE ||| fm F.ACQ_STAT_CANCELLED ||| fm H.ACQ_FORCE_P
theorem State.acqCancel_keeps (s : State) (u : Nat) : Keeps State.acqCancel_w s (s.acqCancel u) := by
  unfold State.acqCancel
  repeat' first
    | with_reducible assumption
    | with_reducible exact Keeps.refl _ _
    | decide +kernel
    | with_reducible apply Keeps.putA
    | with_reducible apply Keeps.setBA
    | with_reducible apply Keeps.iteA

def State.acqPutAt_w : Nat := State.celStore_w
theorem State.acqPutAt_keeps (s : State) (u idx w : Nat) : Keeps State.acqPutAt_w s (s.acqPutAt u idx w).1 := by
  unfold State.acqPutAt
  repeat' first
    | with_reducible assumption
    | with_reducible exact Keeps.refl _ _
    | decide +kernel
    | with_reducible apply Keeps.via (State.celStore_keeps ..)

def State.acqStore_w : Nat := fm H.ACQ_DROP_P ||| fm H.ACQ_DROPPED ||| fm F.ACQ_WR_IDX_IDX ||| fm H.ACQ_N |||
    State.acqPutAt_w ||| State.acqFlag_w
theorem State.acqStore_keeps (s : State) (u w : Nat) : Keeps State.acqStore_w s (s.acqStore u w) := by
  unfold State.acqStore
  repeat' first
    | (extract_lets +onlyGivenNames x1; clear_value (hx : x1 = _); refine Keeps.cut x1 ?_ (fun h => ?_); rw [hx]; clear hx x1; rotate_left; clear hx; rotate_right)
    | (extract_lets +onlyGivenNames x1; clear_value (hx : x1 = _); refine Keeps.cut1 x1 ?_ (fun h => ?_); rw [hx]; clear hx x1; rotate_left; clear hx; rotate_right)
    | (extract_lets +onlyGivenNames x1; clear_value (hx : x1 = _); refine Keeps.cut2 x1 ?_ (fun h => ?_); rw [hx]; clear hx x1; rotate_left; clear hx; rotate_right)
    | (extract_lets +onlyGivenNames x1; clear_value (hx : x1 = _); clear hx)
    | with_reducible assumption
    | with_reducible exact Keeps.refl _ _
    | decide +kernel
    | with_reducible apply Keeps.putA
    | with_reducible apply Keeps.incWA
    | with_reducible apply Keeps.incSatA
    | with_reducible refine Keeps.foldlA ?_ (fun _ _ => ?_)
    | with_reducible apply Keeps.via (State.acqPutAt_keeps ..)
    | with_reducible apply Keeps.via (State.acqFlag_keeps ..)
    | with_reducible apply Keeps.iteA

def State.acqSource_w : Nat := fm H.ACQ_LVL_OK ||| State.acqFire_w ||| State.acqFlag_w
theorem State.acqSource_keeps (s : State) (u n t : Nat) (v i : Int) (blind : Bool) : Keeps State.acqSource_w s (s.acqSource u n t v i blind) := by
  unfold State.acqSource
  repeat' first
    | (extract_lets +onlyGivenNames x1; clear_value (hx : x1 = _); refine Keeps.cut x1 ?_ (fun h => ?_); rw [hx]; clear hx x1; rotate_left; clear hx; rotate_right)
    | (extract_lets +onlyGivenNames x1; clear_value (hx : x1 = _); refine Keeps.cut1 x1 ?_ (fun h => ?_); rw [hx]; clear hx x1; rotate_left; clear hx; rotate_right)
    | (extract_lets +onlyGivenNames x1; clear_value (hx : x1 = _); refine Keeps.cut2 x1 ?_ (fun h => ?_); rw [hx]; clear hx x1; rotate_left; clear hx; rotate_right)
    | (extract_lets +onlyGivenNames x1; clear_value (hx : x1 = _); clear hx)
    | with_reducible assumption
    | with_reducible exact Keeps.refl _ _
    | decide +kernel
    | with_reducible apply Keeps.setBA
    | with_reducible apply Keeps.via (State.acqFire_keeps ..)
    | with_reducible apply Keeps.via (State.acqFlag_keeps ..)
    | with_reducible apply Keeps.iteA

def State.acqPreSource_w : Nat := fm H.ACQ_LVL_OK
theorem State.acqPreSource_keeps (s : State) (u : Nat) (v i : Int) (blind : Bool) : Keeps State.acqPreSource_w s (s.acqPreSource u v i blind) := by
  unfold State.acqPreSource
  dsimp only
  repeat' first
    | with_reducible assumption
    | with_reducible exact Keeps.refl _ _
    | decide +kernel
    | with_reducible apply Keeps.setBA
    | with_reducible apply Keeps.iteA

def State.acqSample_w : Nat := fm H.ACQ_NEXT ||| fm H.ACQ_T_FIRST ||| fm H.ACQ_RANGED_P ||| fm H.ACQ_LEFT |||
    fm H.ACQ_FORCE_P ||| fm F.ACQ_CTRL_STATE ||| m_now ||| State.acqStore_w ||| State.acqFlag_w ||| State.acqSource_w ||| State.acqPreSource_w |||
    State.acqFire_w
theorem State.acqSample_keeps (s : State) (u : Nat) (a : AcqSeen) : Keeps State.acqSample_w s (s.acqSample u a) := by
  unfold State.acqSample
  repeat' first
    | (extract_lets +onlyGivenNames x1; clear_value (hx : x1 = _); refine Keeps.cut x1 ?_ (fun h => ?_); rw [hx]; clear hx x1; rotate_left; clear hx; rotate_right)
    | (extract_lets +onlyGivenNames x1; clear_value (hx : x1 = _); refine Keeps.cut1 x1 ?_ (fun h => ?_); rw [hx]; clear hx x1; rotate_left; clear hx; rotate_right)
    | (extract_lets +onlyGivenNames x1; clear_value (hx : x1 = _); refine Keeps.cut2 x1 ?_ (fun h => ?_); rw [hx]; clear hx x1; rotate_left; clear hx; rotate_right)
    | (extract_lets +onlyGivenNames x1; clear_value (hx : x1 = _); clear hx)
    | with_reducible assumption
    | with_reducible exact Keeps.refl _ _
    | decide +kernel
    | with_reducible apply Keeps.putA
    | with_reducible apply Keeps.setBA
    | with_reducible apply Keeps.upToA
    | with_reducible apply Keeps.via (State.acqStore_keeps ..)
    | with_reducible apply Keeps.via (State.acqFlag_keeps ..)
    | with_reducible apply Keeps.via (State.acqSource_keeps ..)
    | with_reducible apply Keeps.via (State.acqPreSource_keeps ..)
    | with_reducible apply Keeps.via (State.acqFire_keeps ..)
    | with_reducible apply Keeps.iteA

def State.acqPush_w : Nat := fm H.ACQ_PUSH_WAIT ||| fm F.ACQ_CTRL_STATE ||| State.dqPush_w
theorem State.acqPush_keeps (s : State) (u : Nat) : Keeps State.acqPush_w s (s.acqPush u) := by
  unfold State.acqPush
  repeat' first
    | (extract_lets +onlyGivenNames x1; clear_value (hx : x1 = _); refine Keeps.cut x1 ?_ (fun h => ?_); rw [hx]; clear hx x1; rotate_left; clear hx; rotate_right)
    | (extract_lets +onlyGivenNames x1; clear_value (hx : x1 = _); refine Keeps.cut1 x1 ?_ (fun h => ?_); rw [hx]; clear hx x1; rotate_left; clear hx; rotate_right)
    | (extract_lets +onlyGivenNames x1; clear_value (hx : x1 = _); refine Keeps.cut2 x1 ?_ (fun h => ?_); rw [hx]; clear hx x1; rotate_left; clear hx; rotate_right)
    | (extract_lets +onlyGivenNames x1; clear_value (hx : x1 = _); clear hx)
    | with_reducible assumption
    | with_reducible exact Keeps.refl _ _
    | decide +kernel
    | with_reducible apply Keeps.putA
    | with_reducible apply Keeps.setBA
    | with_reducible apply Keeps.via (State.dqPush_keeps ..)
    | with_reducible apply Keeps.iteA

def State.acqFinish_w : Nat := fm F.ACQ_COUNT_CAPTURES ||| fm F.ACQ_FIRST_IDX_IDX ||| fm F.ACQ_CTRL_STATE |||
    State.acqFlag_w ||| State.celPut_w ||| State.acqPush_w
theorem State.acqFinish_keeps (s : State) (u : Nat) : Keeps State.acqFinish_w s (s.acqFinish u) := by
  unfold State.acqFinish
  repeat' first
    | (extract_lets +onlyGivenNames x1; clear_value (hx : x1 = _); refine Keeps.cut x1 ?_ (fun h => ?_); rw [hx]; clear hx x1; rotate_left; clear hx; rotate_right)
    | (extract_lets +onlyGivenNames x1; clear_value (hx : x1 = _); refine Keeps.cut1 x1 ?_ (fun h => ?_); rw [hx]; clear hx x1; rotate_left; clear hx; rotate_right)
    | (extract_lets +onlyGivenNames x1; clear_value (hx : x1 = _); refine Keeps.cut2 x1 ?_ (fun h => ?_); rw [hx]; clear hx x1; rotate_left; clear hx; rotate_right)
    | (extract_lets +onlyGivenNames x1; clear_value (hx : x1 = _); clear hx)
    | with_reducible assumption
    | with_reducible exact Keeps.refl _ _
    | decide +kernel
    | with_reducible apply Keeps.putA
    | with_reducible apply Keeps.via (State.acqFlag_keeps ..)
    | with_reducible apply Keeps.via (State.celPut_keeps ..)
    | with_reducible apply Keeps.via (State.acqPush_keeps ..)
    | with_reducible apply Keeps.iteA

def State.acqSiteEnd_w : Nat := State.acqFlag_w ||| State.acqFinish_w ||| State.acqCancel_w
theorem State.acqSiteEnd_keeps (s : State) (u : Nat) : Keeps State.acqSiteEnd_w s (s.acqSiteEnd u) := by
  unfold State.acqSiteEnd
  repeat' first
    | with_reducible assumption
    | with_reducible exact Keeps.refl _ _
    | decide +kernel
    | with_reducible apply Keeps.via (State.acqFlag_keeps ..)
    | with_reducible apply Keeps.via (State.acqFinish_keeps ..)
    | with_reducible apply Keeps.via (State.acqCancel_keeps ..)
    | with_reducible apply Keeps.iteA

def State.tdcOpenBy_w : Nat := fm H.TDC_OPEN_DUE
theorem State.tdcOpenBy_keeps (s : State) (j src t : Nat) : Keeps State.tdcOpenBy_w s (s.tdcOpenBy j src t) := by
  unfold State.tdcOpenBy
  repeat' first
    | with_reducible assumption
    | with_reducible exact Keeps.refl _ _
    | decide +kernel
    | with_reducible apply Keeps.setDueA
    | with_reducible apply Keeps.iteA

def State.markerRise_w : Nat := State.tdcOpenBy_w ||| State.acqTrigger_w
theorem State.markerRise_keeps (s : State) (i mk t : Nat) : Keeps State.markerRise_w s (s.markerRise i mk t) := by
  unfold State.markerRise
  repeat' first
    | (extract_lets +onlyGivenNames x1; clear_value (hx : x1 = _); refine Keeps.cut x1 ?_ (fun h => ?_); rw [hx]; clear hx x1; rotate_left; clear hx; rotate_right)
    | (extract_lets +onlyGivenNames x1; clear_value (hx : x1 = _); refine Keeps.cut1 x1 ?_ (fun h => ?_); rw [hx]; clear hx x1; rotate_left; clear hx; rotate_right)
    | (extract_lets +onlyGivenNames x1; clear_value (hx : x1 = _); refine Keeps.cut2 x1 ?_ (fun h => ?_); rw [hx]; clear hx x1; rotate_left; clear hx; rotate_right)
    | (extract_lets +onlyGivenNames x1; clear_value (hx : x1 = _); clear hx)
    | with_reducible assumption
    | with_reducible exact Keeps.refl _ _
    | decide +kernel
    | with_reducible refine Keeps.eachA ?_ (fun _ _ => ?_)
    | with_reducible apply Keeps.via (State.tdcOpenBy_keeps ..)
    | with_reducible apply Keeps.via (State.acqTrigger_keeps ..)
    | with_reducible apply Keeps.iteA

def State.trigReaches_w : Nat := State.tdcOpenBy_w ||| State.acqTrigger_w
theorem State.trigReaches_keeps (s : State) (line t : Nat) : Keeps State.trigReaches_w s (s.trigReaches line t) := by
  unfold State.trigReaches
  repeat' first
    | (extract_lets +onlyGivenNames x1; clear_value (hx : x1 = _); refine Keeps.cut x1 ?_ (fun h => ?_); rw [hx]; clear hx x1; rotate_left; clear hx; rotate_right)
    | (extract_lets +onlyGivenNames x1; clear_value (hx : x1 = _); refine Keeps.cut1 x1 ?_ (fun h => ?_); rw [hx]; clear hx x1; rotate_left; clear hx; rotate_right)
    | (extract_lets +onlyGivenNames x1; clear_value (hx : x1 = _); refine Keeps.cut2 x1 ?_ (fun h => ?_); rw [hx]; clear hx x1; rotate_left; clear hx; rotate_right)
    | (extract_lets +onlyGivenNames x1; clear_value (hx : x1 = _); clear hx)
    | with_reducible assumption
    | with_reducible exact Keeps.refl _ _
    | decide +kernel
    | with_reducible refine Keeps.eachA ?_ (fun _ _ => ?_)
    | with_reducible apply Keeps.via (State.tdcOpenBy_keeps ..)
    | with_reducible apply Keeps.via (State.acqTrigger_keeps ..)
    | with_reducible apply Keeps.iteA

def State.latchReaches_w : Nat := State.acqTrigger_w
theorem State.latchReaches_keeps (s : State) (i t : Nat) : Keeps State.latchReaches_w s (s.latchReaches i t) := by
  unfold State.latchReaches
  repeat' first
    | (extract_lets +onlyGivenNames x1; clear_value (hx : x1 = _); refine Keeps.cut x1 ?_ (fun h => ?_); rw [hx]; clear hx x1; rotate_left; clear hx; rotate_right)
    | (extract_lets +onlyGivenNames x1; clear_value (hx : x1 = _); refine Keeps.cut1 x1 ?_ (fun h => ?_); rw [hx]; clear hx x1; rotate_left; clear hx; rotate_right)
    | (extract_lets +onlyGivenNames x1; clear_value (hx : x1 = _); refine Keeps.cut2 x1 ?_ (fun h => ?_); rw [hx]; clear hx x1; rotate_left; clear hx; rotate_right)
    | (extract_lets +onlyGivenNames x1; clear_value (hx : x1 = _); clear hx)
    | with_reducible assumption
    | with_reducible exact Keeps.refl _ _
    | decide +kernel
    | with_reducible apply Keeps.via (State.acqTrigger_keeps ..)
    | with_reducible apply Keeps.iteA

end Sys2Proof.Machine
end

