-- ==== Sys2Proof/Laws/KeepsRecords.lean ====
section
/-!
SUPPORT. What every operation of Machine/Records.lean can change: its mask and its Keeps lemma.
-/

set_option Elab.async false
set_option linter.all false

namespace Sys2Proof.Machine

def State.levelTime_w : Nat := State.mean_w
theorem State.levelTime_keeps (s : State) (kind k : Nat) (level : Int) (l : List Nat) : Keeps State.levelTime_w s (s.levelTime kind k level l).2 := by
  unfold State.levelTime
  extract_lets _ _ _ _ _ _ m
  split
  · exact Keeps.refl _ _
  · show Keeps _ s m.2
    simp only [m]
    split
    · exact Keeps.drawA (by decide +kernel) (Keeps.refl _ _)
    · split
      · exact State.mean_keeps ..
      · exact State.mean_keeps ..

def State.captureRecord_w : Nat := State.levelTime_w
theorem State.captureRecord_keeps (s : State) (site run : Nat) (d : List Byte) : Keeps State.captureRecord_w s (s.captureRecord site run d).2 := by
  unfold State.captureRecord
  repeat' first
    | (extract_lets +onlyGivenNames x1; clear_value (hx : x1 = _); refine Keeps.cut x1 ?_ (fun h => ?_); rw [hx]; clear hx x1; rotate_left; clear hx; rotate_right)
    | (extract_lets +onlyGivenNames x1; clear_value (hx : x1 = _); refine Keeps.cut1 x1 ?_ (fun h => ?_); rw [hx]; clear hx x1; rotate_left; clear hx; rotate_right)
    | (extract_lets +onlyGivenNames x1; clear_value (hx : x1 = _); refine Keeps.cut2 x1 ?_ (fun h => ?_); rw [hx]; clear hx x1; rotate_left; clear hx; rotate_right)
    | (extract_lets +onlyGivenNames x1; clear_value (hx : x1 = _); clear hx)
    | with_reducible assumption
    | with_reducible exact Keeps.refl _ _
    | decide +kernel
    | with_reducible refine Keeps.foldlA ?_ (fun _ _ => ?_)
    | with_reducible apply Keeps.via (State.levelTime_keeps ..)
    | with_reducible apply Keeps.iteA
    | with_reducible apply Keeps.ite2

def State.badTask_w : Nat := fm F.STL_STAT_BADTASK
theorem State.badTask_keeps (s : State) : Keeps State.badTask_w s (s.badTask) := by
  unfold State.badTask
  repeat' first
    | with_reducible assumption
    | with_reducible exact Keeps.refl _ _
    | decide +kernel
    | with_reducible apply Keeps.incSatA

def State.runFailCompress_w : Nat := State.badTask_w ||| State.celRead_w ||| State.recAppend_w
theorem State.runFailCompress_keeps (s : State) (d : List Byte) : Keeps State.runFailCompress_w s (s.runFailCompress d) := by
  unfold State.runFailCompress
  repeat' first
    | (extract_lets +onlyGivenNames x1; clear_value (hx : x1 = _); refine Keeps.cut x1 ?_ (fun h => ?_); rw [hx]; clear hx x1; rotate_left; clear hx; rotate_right)
    | (extract_lets +onlyGivenNames x1; clear_value (hx : x1 = _); refine Keeps.cut1 x1 ?_ (fun h => ?_); rw [hx]; clear hx x1; rotate_left; clear hx; rotate_right)
    | (extract_lets +onlyGivenNames x1; clear_value (hx : x1 = _); refine Keeps.cut2 x1 ?_ (fun h => ?_); rw [hx]; clear hx x1; rotate_left; clear hx; rotate_right)
    | (extract_lets +onlyGivenNames x1; clear_value (hx : x1 = _); clear hx)
    | with_reducible assumption
    | with_reducible exact Keeps.refl _ _
    | decide +kernel
    | with_reducible apply Keeps.via (State.badTask_keeps ..)
    | with_reducible apply Keeps.via (State.celRead_keeps ..)
    | with_reducible apply Keeps.via (State.recAppend_keeps ..)
    | with_reducible apply Keeps.iteA
    | split

def State.runResultPack_w : Nat := State.badTask_w ||| State.recAppend_w
theorem State.runResultPack_keeps (s : State) (d : List Byte) : Keeps State.runResultPack_w s (s.runResultPack d) := by
  unfold State.runResultPack
  repeat' first
    | (extract_lets +onlyGivenNames x1; clear_value (hx : x1 = _); refine Keeps.cut x1 ?_ (fun h => ?_); rw [hx]; clear hx x1; rotate_left; clear hx; rotate_right)
    | (extract_lets +onlyGivenNames x1; clear_value (hx : x1 = _); refine Keeps.cut1 x1 ?_ (fun h => ?_); rw [hx]; clear hx x1; rotate_left; clear hx; rotate_right)
    | (extract_lets +onlyGivenNames x1; clear_value (hx : x1 = _); refine Keeps.cut2 x1 ?_ (fun h => ?_); rw [hx]; clear hx x1; rotate_left; clear hx; rotate_right)
    | (extract_lets +onlyGivenNames x1; clear_value (hx : x1 = _); clear hx)
    | with_reducible assumption
    | with_reducible exact Keeps.refl _ _
    | decide +kernel
    | with_reducible apply Keeps.via (State.badTask_keeps ..)
    | with_reducible apply Keeps.via (State.recAppend_keeps ..)
    | with_reducible apply Keeps.iteA

def State.reduced_w : Nat := fm F.ACQ_CTRL_STATE
theorem State.reduced_keeps (s : State) (u : Nat) : Keeps State.reduced_w s (s.reduced u) := by
  unfold State.reduced
  repeat' first
    | with_reducible assumption
    | with_reducible exact Keeps.refl _ _
    | decide +kernel
    | with_reducible apply Keeps.putA
    | with_reducible apply Keeps.iteA

def State.finishReduce_w : Nat := State.captureRecord_w ||| State.recAppend_w ||| State.reduced_w
theorem State.finishReduce_keeps (s : State) (d : List Byte) : Keeps State.finishReduce_w s (s.finishReduce d) := by
  unfold State.finishReduce
  repeat' first
    | (extract_lets +onlyGivenNames x1; clear_value (hx : x1 = _); refine Keeps.cut x1 ?_ (fun h => ?_); rw [hx]; clear hx x1; rotate_left; clear hx; rotate_right)
    | (extract_lets +onlyGivenNames x1; clear_value (hx : x1 = _); refine Keeps.cut1 x1 ?_ (fun h => ?_); rw [hx]; clear hx x1; rotate_left; clear hx; rotate_right)
    | (extract_lets +onlyGivenNames x1; clear_value (hx : x1 = _); refine Keeps.cut2 x1 ?_ (fun h => ?_); rw [hx]; clear hx x1; rotate_left; clear hx; rotate_right)
    | (extract_lets +onlyGivenNames x1; clear_value (hx : x1 = _); clear hx)
    | with_reducible assumption
    | with_reducible exact Keeps.refl _ _
    | decide +kernel
    | with_reducible apply Keeps.via (State.captureRecord_keeps ..)
    | with_reducible apply Keeps.via (State.recAppend_keeps ..)
    | with_reducible apply Keeps.via (State.reduced_keeps ..)

def State.runCaptureReduce_w : Nat := State.badTask_w ||| State.dqPush_w ||| State.finishReduce_w
theorem State.runCaptureReduce_keeps (s : State) (d : List Byte) (deque : Nat) : Keeps State.runCaptureReduce_w s (s.runCaptureReduce d deque) := by
  unfold State.runCaptureReduce
  repeat' first
    | (extract_lets +onlyGivenNames x1; clear_value (hx : x1 = _); refine Keeps.cut x1 ?_ (fun h => ?_); rw [hx]; clear hx x1; rotate_left; clear hx; rotate_right)
    | (extract_lets +onlyGivenNames x1; clear_value (hx : x1 = _); refine Keeps.cut1 x1 ?_ (fun h => ?_); rw [hx]; clear hx x1; rotate_left; clear hx; rotate_right)
    | (extract_lets +onlyGivenNames x1; clear_value (hx : x1 = _); refine Keeps.cut2 x1 ?_ (fun h => ?_); rw [hx]; clear hx x1; rotate_left; clear hx; rotate_right)
    | (extract_lets +onlyGivenNames x1; clear_value (hx : x1 = _); clear hx)
    | with_reducible assumption
    | with_reducible exact Keeps.refl _ _
    | decide +kernel
    | with_reducible apply Keeps.via (State.badTask_keeps ..)
    | with_reducible apply Keeps.via (State.dqPush_keeps ..)
    | with_reducible apply Keeps.via (State.finishReduce_keeps ..)
    | with_reducible apply Keeps.iteA

def State.runTask_w : Nat := State.runFailCompress_w ||| State.runCaptureReduce_w ||| State.runResultPack_w |||
    State.badTask_w
theorem State.runTask_keeps (s : State) (d : List Byte) (deque : Nat) : Keeps State.runTask_w s (s.runTask d deque) := by
  unfold State.runTask
  repeat' first
    | with_reducible assumption
    | with_reducible exact Keeps.refl _ _
    | decide +kernel
    | with_reducible apply Keeps.via (State.runFailCompress_keeps ..)
    | with_reducible apply Keeps.via (State.runCaptureReduce_keeps ..)
    | with_reducible apply Keeps.via (State.runResultPack_keeps ..)
    | with_reducible apply Keeps.via (State.badTask_keeps ..)
    | split

def State.engTaskRun_w : Nat := fm H.ENG_TASK_RAN ||| State.runTask_w
theorem State.engTaskRun_keeps (s : State) (k : Nat) : Keeps State.engTaskRun_w s (s.engTaskRun k) := by
  unfold State.engTaskRun
  repeat' first
    | with_reducible assumption
    | with_reducible exact Keeps.refl _ _
    | decide +kernel
    | with_reducible apply Keeps.setBA
    | with_reducible apply Keeps.via (State.runTask_keeps ..)
    | with_reducible apply Keeps.iteA

def State.engTaskDone_w : Nat := fm F.ENG_STAT_TASK_HELD ||| fm H.ENG_TASK_RAN ||| State.engTaskRun_w ||| State.dqDone_w
theorem State.engTaskDone_keeps (s : State) (k : Nat) : Keeps State.engTaskDone_w s (s.engTaskDone k) := by
  unfold State.engTaskDone
  repeat' first
    | with_reducible assumption
    | with_reducible exact Keeps.refl _ _
    | decide +kernel
    | with_reducible apply Keeps.setBA
    | with_reducible apply Keeps.via (State.engTaskRun_keeps ..)
    | with_reducible apply Keeps.via (State.dqDone_keeps ..)
    | with_reducible apply Keeps.iteA

def State.taskRow_w : Nat := State.engTaskRun_w ||| State.dqTake_w ||| State.runTask_w ||| State.dqDone_w
theorem State.taskRow_keeps (s : State) (r : TaskRunner) (typ : Nat) : Keeps State.taskRow_w s (s.taskRow r typ) := by
  unfold State.taskRow
  repeat' first
    | with_reducible assumption
    | with_reducible exact Keeps.refl _ _
    | decide +kernel
    | with_reducible apply Keeps.via (State.engTaskRun_keeps ..)
    | with_reducible apply Keeps.via (State.runTask_keeps ..)
    | with_reducible apply Keeps.via (State.dqDone_keeps ..)
    | with_reducible apply Keeps.iteA
    | split
    | exact Keeps.via (State.dqTake_keeps (by with_reducible assumption : State.dqTake _ _ = some _)) (by decide +kernel) (by first | with_reducible assumption | exact Keeps.refl _ _)

end Sys2Proof.Machine
end

