-- ==== Sys2Proof/Laws/KeepsOperands.lean ====
section
/-!
SUPPORT. What every operation of Machine/Operands.lean can change: its mask and its Keeps lemma.
-/

set_option Elab.async false
set_option linter.all false

namespace Sys2Proof.Machine

def State.csPut_w : Nat := m_cstore
theorem State.csPut_keeps (s : State) (k w v : Nat) : Keeps State.csPut_w s (s.csPut k w v) := by
  unfold State.csPut
  repeat' first
    | with_reducible assumption
    | with_reducible exact Keeps.refl _ _
    | decide +kernel
    | exact fun hw => by
        obtain ⟨w1, w2, w3, w4, w5, w6, w7, w8, w9, w10, w11⟩ := hw
        first | exact memSetBytes_wf _ _ _ ‹_› | exact memSetByte_wf _ _ _ ‹_› | exact memClear_wf _ _ _ ‹_› | exact keysRise_filter _ _ ‹_› | exact keysRise_insKey _ _ _ ‹_› | exact keysRise_storeKey _ _ _ ‹_› | exact storeWf_storeKey _ _ _ ‹_› | exact storeWf_filter _ _ ‹_› | rfl
    | with_reducible refine Keeps.trans ?_ (Keeps.c_cstore _ ?_ ?_)

def State.engRegTake_w : Nat := fm H.ENG_TNOW_HI ||| fm H.ENG_VEC_HI ||| m_h2e
theorem State.engRegTake_keeps (s : State) (k i : Nat) : Keeps State.engRegTake_w s (s.engRegTake k i) := by
  unfold State.engRegTake
  repeat' first
    | with_reducible assumption
    | with_reducible exact Keeps.refl _ _
    | decide +kernel
    | with_reducible apply Keeps.putA
    | split
    | with_reducible refine Keeps.trans ?_ (Keeps.c_h2e _ ?_)

def State.flagSet_w : Nat := fm H.ENG_FLAGS
theorem State.flagSet_keeps (s : State) (k b : Nat) (v : Bool) : Keeps State.flagSet_w s (s.flagSet k b v) := by
  unfold State.flagSet
  repeat' first
    | with_reducible assumption
    | with_reducible exact Keeps.refl _ _
    | decide +kernel
    | with_reducible apply Keeps.putA

def State.engPost_w : Nat := m_e2h ||| State.irq_w ||| State.flagSet_w
theorem State.engPost_keeps (s : State) (k v : Nat) : Keeps State.engPost_w s (s.engPost k v) := by
  unfold State.engPost
  repeat' first
    | with_reducible assumption
    | with_reducible exact Keeps.refl _ _
    | decide +kernel
    | with_reducible apply Keeps.via (State.irq_keeps ..)
    | with_reducible apply Keeps.via (State.flagSet_keeps ..)
    | with_reducible apply Keeps.iteA
    | with_reducible refine Keeps.trans ?_ (Keeps.c_e2h _ ?_)

def State.engRegPut_w : Nat := fm H.ENG_G ||| fm H.ENG_L ||| fm H.ENG_FLAGS ||| fm H.ENG_BIN ||| State.engPost_w
theorem State.engRegPut_keeps (s : State) (k i v : Nat) : Keeps State.engRegPut_w s (s.engRegPut k i v) := by
  unfold State.engRegPut
  repeat' first
    | with_reducible assumption
    | with_reducible exact Keeps.refl _ _
    | decide +kernel
    | with_reducible apply Keeps.putA
    | with_reducible apply Keeps.via (State.engPost_keeps ..)
    | with_reducible apply Keeps.iteA
    | split

def State.condTake_w : Nat := fm H.ST_TRIG_ARR
theorem State.condTake_keeps (s : State) (k c : Nat) : Keeps State.condTake_w s (s.condTake k c) := by
  unfold State.condTake
  repeat' first
    | with_reducible assumption
    | with_reducible exact Keeps.refl _ _
    | decide +kernel
    | with_reducible apply Keeps.setBA
    | with_reducible apply Keeps.iteA
    | split

end Sys2Proof.Machine
end

