-- ==== Sys2Proof/Laws/KeepsEngine.lean ====
section
/-!
SUPPORT. What every operation of Machine/Engine.lean can change: its mask and its Keeps lemma.
-/

set_option Elab.async false
set_option linter.all false

namespace Sys2Proof.Machine

def State.pendAct_w : Nat := State.levelNow_w ||| State.bankNow_w
theorem State.pendAct_keeps (s : State) (p : PendWrite) : Keeps State.pendAct_w s (s.pendAct p) := by
  cases p with
  | level ch lvl => exact (State.levelNow_keeps ..).mono (by decide +kernel)
  | bank ch v => exact (State.bankNow_keeps ..).mono (by decide +kernel)

def State.pendApply_w : Nat := m_pendW ||| State.pendAct_w
theorem State.pendApply_keeps (s : State) (i : Nat) : Keeps State.pendApply_w s (s.pendApply i) := by
  unfold State.pendApply
  repeat' first
    | (extract_lets +onlyGivenNames x1; clear_value (hx : x1 = _); refine Keeps.cut x1 ?_ (fun h => ?_); rw [hx]; clear hx x1; rotate_left; clear hx; rotate_right)
    | (extract_lets +onlyGivenNames x1; clear_value (hx : x1 = _); refine Keeps.cut1 x1 ?_ (fun h => ?_); rw [hx]; clear hx x1; rotate_left; clear hx; rotate_right)
    | (extract_lets +onlyGivenNames x1; clear_value (hx : x1 = _); refine Keeps.cut2 x1 ?_ (fun h => ?_); rw [hx]; clear hx x1; rotate_left; clear hx; rotate_right)
    | (extract_lets +onlyGivenNames x1; clear_value (hx : x1 = _); clear hx)
    | with_reducible assumption
    | with_reducible exact Keeps.refl _ _
    | decide +kernel
    | with_reducible refine Keeps.eachA ?_ (fun _ _ => ?_)
    | with_reducible apply Keeps.via (State.pendAct_keeps ..)
    | with_reducible refine Keeps.trans ?_ (Keeps.c_pendW _ ?_)

def State.stallEnd_w : Nat := fm F.SEQ_SSTAT_STALLING ||| State.recAppend_w
theorem State.stallEnd_keeps (s : State) (i flags : Nat) : Keeps State.stallEnd_w s (s.stallEnd i flags) := by
  unfold State.stallEnd
  repeat' first
    | with_reducible assumption
    | with_reducible exact Keeps.refl _ _
    | decide +kernel
    | with_reducible apply Keeps.setBA
    | with_reducible apply Keeps.via (State.recAppend_keeps ..)
    | with_reducible apply Keeps.iteA

def State.waitDrop_w : Nat := fm H.SQ_WAIT ||| fm F.SITE_TSTAT_WAIT_START ||| fm F.SEQ_SSTAT_START_DEFERRED |||
    fm H.SQ_HOLD_END
theorem State.waitDrop_keeps (s : State) (i : Nat) : Keeps State.waitDrop_w s (s.waitDrop i) := by
  unfold State.waitDrop
  repeat' first
    | with_reducible assumption
    | with_reducible exact Keeps.refl _ _
    | decide +kernel
    | with_reducible apply Keeps.putA
    | with_reducible apply Keeps.setBA
    | with_reducible apply Keeps.noDueA

def State.chainOff_w : Nat := fm H.SQ_PLAYING ||| fm H.SQ_STOP_REQ ||| fm H.SQ_MK0 ||| fm H.SQ_MK1 |||
    fm F.SEQ_CUR_DECIDED ||| fm H.SQ_CHAIN_PAUSED ||| fm H.SQ_T_END ||| fm H.SQ_PAUSE_REQ ||| m_ports ||| State.pendApply_w
theorem State.chainOff_keeps (s : State) (i : Nat) : Keeps State.chainOff_w s (s.chainOff i) := by
  unfold State.chainOff
  repeat' first
    | (extract_lets +onlyGivenNames x1; clear_value (hx : x1 = _); refine Keeps.cut x1 ?_ (fun h => ?_); rw [hx]; clear hx x1; rotate_left; clear hx; rotate_right)
    | (extract_lets +onlyGivenNames x1; clear_value (hx : x1 = _); refine Keeps.cut1 x1 ?_ (fun h => ?_); rw [hx]; clear hx x1; rotate_left; clear hx; rotate_right)
    | (extract_lets +onlyGivenNames x1; clear_value (hx : x1 = _); refine Keeps.cut2 x1 ?_ (fun h => ?_); rw [hx]; clear hx x1; rotate_left; clear hx; rotate_right)
    | (extract_lets +onlyGivenNames x1; clear_value (hx : x1 = _); clear hx)
    | with_reducible assumption
    | with_reducible exact Keeps.refl _ _
    | decide +kernel
    | with_reducible apply Keeps.putA
    | with_reducible apply Keeps.setBA
    | with_reducible apply Keeps.via (State.pendApply_keeps ..)
    | with_reducible refine Keeps.trans ?_ (Keeps.c_ports _ ?_)

def State.chainStopNow_w : Nat := fm H.SQ_CHAIN_PAUSED ||| State.stallEnd_w ||| State.chainOff_w ||| State.waitDrop_w
theorem State.chainStopNow_keeps (s : State) (i flags : Nat) : Keeps State.chainStopNow_w s (s.chainStopNow i flags) := by
  unfold State.chainStopNow
  repeat' first
    | with_reducible assumption
    | with_reducible exact Keeps.refl _ _
    | decide +kernel
    | with_reducible apply Keeps.setBA
    | with_reducible apply Keeps.via (State.stallEnd_keeps ..)
    | with_reducible apply Keeps.via (State.chainOff_keeps ..)
    | with_reducible apply Keeps.via (State.waitDrop_keeps ..)
    | with_reducible apply Keeps.iteA

def State.chainStopNext_w : Nat := fm H.SQ_STOP_REQ ||| State.chainStopNow_w
theorem State.chainStopNext_keeps (s : State) (i : Nat) : Keeps State.chainStopNext_w s (s.chainStopNext i) := by
  unfold State.chainStopNext
  repeat' first
    | with_reducible assumption
    | with_reducible exact Keeps.refl _ _
    | decide +kernel
    | with_reducible apply Keeps.putA
    | with_reducible apply Keeps.via (State.chainStopNow_keeps ..)
    | with_reducible apply Keeps.iteA

def State.testCause_w : Nat := fm H.ST_CAUSE ||| fm H.ST_BIN_FORCE ||| fm H.ST_HALT_T
theorem State.testCause_keeps (s : State) (i cause bin : Nat) : Keeps State.testCause_w s (s.testCause i cause bin) := by
  unfold State.testCause
  repeat' first
    | with_reducible assumption
    | with_reducible exact Keeps.refl _ _
    | decide +kernel
    | with_reducible apply Keeps.putA
    | with_reducible apply Keeps.iteA

def State.logRelease_w : Nat := m_free ||| State.helWrite_w
theorem State.logRelease_keeps (s : State) : Keeps State.logRelease_w s (s.logRelease) := by
  unfold State.logRelease
  repeat' first
    | (extract_lets +onlyGivenNames x1; clear_value (hx : x1 = _); refine Keeps.cut x1 ?_ (fun h => ?_); rw [hx]; clear hx x1; rotate_left; clear hx; rotate_right)
    | (extract_lets +onlyGivenNames x1; clear_value (hx : x1 = _); refine Keeps.cut1 x1 ?_ (fun h => ?_); rw [hx]; clear hx x1; rotate_left; clear hx; rotate_right)
    | (extract_lets +onlyGivenNames x1; clear_value (hx : x1 = _); refine Keeps.cut2 x1 ?_ (fun h => ?_); rw [hx]; clear hx x1; rotate_left; clear hx; rotate_right)
    | (extract_lets +onlyGivenNames x1; clear_value (hx : x1 = _); clear hx)
    | with_reducible assumption
    | with_reducible exact Keeps.refl _ _
    | decide +kernel
    | with_reducible apply Keeps.drawA
    | with_reducible apply Keeps.via (State.helWrite_keeps ..)

def State.engSems_w : Nat := State.logRelease_w ||| State.semFreeAll_w
theorem State.engSems_keeps (s : State) (k : Nat) : Keeps State.engSems_w s (s.engSems k) := by
  unfold State.engSems
  repeat' first
    | with_reducible assumption
    | with_reducible exact Keeps.refl _ _
    | decide +kernel
    | with_reducible refine Keeps.eachA ?_ (fun _ _ => ?_)
    | with_reducible apply Keeps.via (State.logRelease_keeps ..)
    | with_reducible apply Keeps.via (State.semFreeAll_keeps ..)

def State.engNoWait_w : Nat := fm H.ENG_WAIT ||| fm H.ENG_WAIT_END ||| fm H.ENG_LD_ON
theorem State.engNoWait_keeps (s : State) (k : Nat) : Keeps State.engNoWait_w s (s.engNoWait k) := by
  unfold State.engNoWait
  repeat' first
    | with_reducible assumption
    | with_reducible exact Keeps.refl _ _
    | decide +kernel
    | with_reducible apply Keeps.putA
    | with_reducible apply Keeps.setBA
    | with_reducible apply Keeps.noDueA

def State.engNoFrames_w : Nat := fm F.ENG_STAT_DEPTH ||| fm F.ENG_STAT_RSP ||| fm H.ENG_ATOM_N
theorem State.engNoFrames_keeps (s : State) (k : Nat) : Keeps State.engNoFrames_w s (s.engNoFrames k) := by
  unfold State.engNoFrames
  repeat' first
    | with_reducible assumption
    | with_reducible exact Keeps.refl _ _
    | decide +kernel
    | with_reducible apply Keeps.putA

def State.engIdle_w : Nat := fm F.ENG_STAT_STATE ||| fm F.ENG_STAT_PC ||| fm H.ENG_PRE_STOP ||| State.engNoWait_w
theorem State.engIdle_keeps (s : State) (k : Nat) : Keeps State.engIdle_w s (s.engIdle k) := by
  unfold State.engIdle
  repeat' first
    | with_reducible assumption
    | with_reducible exact Keeps.refl _ _
    | decide +kernel
    | with_reducible apply Keeps.putA
    | with_reducible apply Keeps.via (State.engNoWait_keeps ..)
    | with_reducible apply Keeps.iteA

def State.engIdleStart_w : Nat := State.engIdle_w
theorem State.engIdleStart_keeps (s : State) (k : Nat) : Keeps State.engIdleStart_w s (s.engIdleStart k) := by
  unfold State.engIdleStart
  repeat' first
    | with_reducible assumption
    | with_reducible exact Keeps.refl _ _
    | decide +kernel
    | with_reducible apply Keeps.via (State.engIdle_keeps ..)
    | with_reducible apply Keeps.iteA

def State.siteOutSafe_w : Nat := State.siteSafeStart_w
theorem State.siteOutSafe_keeps (s : State) (i : Nat) : Keeps State.siteOutSafe_w s (s.siteOutSafe i) := by
  unfold State.siteOutSafe
  repeat' first
    | with_reducible assumption
    | with_reducible exact Keeps.refl _ _
    | decide +kernel
    | with_reducible apply Keeps.via (State.siteSafeStart_keeps ..)
    | with_reducible apply Keeps.iteA

def State.testHalted_w : Nat := fm H.ST_HALTED ||| fm F.SITE_STATE_FINISHING ||| State.testCause_w |||
    State.chainStopNext_w ||| State.siteOutSafe_w
theorem State.testHalted_keeps (s : State) (i cause : Nat) (aborted : Bool) : Keeps State.testHalted_w s (s.testHalted i cause aborted) := by
  unfold State.testHalted
  repeat' first
    | (extract_lets +onlyGivenNames x1; clear_value (hx : x1 = _); refine Keeps.cut x1 ?_ (fun h => ?_); rw [hx]; clear hx x1; rotate_left; clear hx; rotate_right)
    | (extract_lets +onlyGivenNames x1; clear_value (hx : x1 = _); refine Keeps.cut1 x1 ?_ (fun h => ?_); rw [hx]; clear hx x1; rotate_left; clear hx; rotate_right)
    | (extract_lets +onlyGivenNames x1; clear_value (hx : x1 = _); refine Keeps.cut2 x1 ?_ (fun h => ?_); rw [hx]; clear hx x1; rotate_left; clear hx; rotate_right)
    | (extract_lets +onlyGivenNames x1; clear_value (hx : x1 = _); clear hx)
    | with_reducible assumption
    | with_reducible exact Keeps.refl _ _
    | decide +kernel
    | with_reducible apply Keeps.setBA
    | with_reducible apply Keeps.via (State.testCause_keeps ..)
    | with_reducible apply Keeps.via (State.chainStopNext_keeps ..)
    | with_reducible apply Keeps.via (State.siteOutSafe_keeps ..)
    | with_reducible apply Keeps.iteA

def State.engHalt_w : Nat := fm F.ENG_HALT_PC ||| fm F.ENG_HALT_CAUSE ||| fm F.ENG_STAT_STATE ||| fm F.ENG_STAT_AUTORUN |||
    fm H.ENG_PRE_STOP ||| fm H.ENG_ABORT ||| fm H.ENG_ABORT_END ||| fm H.ENG_STEPPING ||| State.engTaskDone_w |||
    State.engNoWait_w ||| State.engNoFrames_w ||| State.unpendTrap_w ||| State.engSems_w ||| State.testHalted_w |||
    State.engIdle_w
theorem State.engHalt_keeps (s : State) (k cause : Nat) : Keeps State.engHalt_w s (s.engHalt k cause) := by
  unfold State.engHalt
  repeat' first
    | (extract_lets +onlyGivenNames x1; clear_value (hx : x1 = _); refine Keeps.cut x1 ?_ (fun h => ?_); rw [hx]; clear hx x1; rotate_left; clear hx; rotate_right)
    | (extract_lets +onlyGivenNames x1; clear_value (hx : x1 = _); refine Keeps.cut1 x1 ?_ (fun h => ?_); rw [hx]; clear hx x1; rotate_left; clear hx; rotate_right)
    | (extract_lets +onlyGivenNames x1; clear_value (hx : x1 = _); refine Keeps.cut2 x1 ?_ (fun h => ?_); rw [hx]; clear hx x1; rotate_left; clear hx; rotate_right)
    | (extract_lets +onlyGivenNames x1; clear_value (hx : x1 = _); clear hx)
    | with_reducible assumption
    | with_reducible exact Keeps.refl _ _
    | decide +kernel
    | with_reducible apply Keeps.putA
    | with_reducible apply Keeps.setBA
    | with_reducible apply Keeps.noDueA
    | with_reducible apply Keeps.via (State.engTaskDone_keeps ..)
    | with_reducible apply Keeps.via (State.engNoWait_keeps ..)
    | with_reducible apply Keeps.via (State.engNoFrames_keeps ..)
    | with_reducible apply Keeps.via (State.unpendTrap_keeps ..)
    | with_reducible apply Keeps.via (State.engSems_keeps ..)
    | with_reducible apply Keeps.via (State.testHalted_keeps ..)
    | with_reducible apply Keeps.via (State.engIdle_keeps ..)
    | split

def State.engAbort_w : Nat := fm H.ENG_BIN ||| fm H.ENG_ABORT ||| fm H.ENG_ABORT_END ||| fm H.ENG_START_CUT |||
    State.pendTrap_w
theorem State.engAbort_keeps (s : State) (k by_ : Nat) : Keeps State.engAbort_w s (s.engAbort k by_) := by
  unfold State.engAbort
  repeat' first
    | (extract_lets +onlyGivenNames x1; clear_value (hx : x1 = _); refine Keeps.cut x1 ?_ (fun h => ?_); rw [hx]; clear hx x1; rotate_left; clear hx; rotate_right)
    | (extract_lets +onlyGivenNames x1; clear_value (hx : x1 = _); refine Keeps.cut1 x1 ?_ (fun h => ?_); rw [hx]; clear hx x1; rotate_left; clear hx; rotate_right)
    | (extract_lets +onlyGivenNames x1; clear_value (hx : x1 = _); refine Keeps.cut2 x1 ?_ (fun h => ?_); rw [hx]; clear hx x1; rotate_left; clear hx; rotate_right)
    | (extract_lets +onlyGivenNames x1; clear_value (hx : x1 = _); clear hx)
    | with_reducible assumption
    | with_reducible exact Keeps.refl _ _
    | decide +kernel
    | with_reducible apply Keeps.putA
    | with_reducible apply Keeps.setBA
    | with_reducible apply Keeps.setDueA
    | with_reducible apply Keeps.via (State.pendTrap_keeps ..)
    | with_reducible apply Keeps.iteA

def State.seqStop_w : Nat := fm H.ST_OUT_SAFE ||| State.testCause_w ||| State.chainStopNow_w ||| State.engAbort_w
theorem State.seqStop_keeps (s : State) (i flags : Nat) : Keeps State.seqStop_w s (s.seqStop i flags) := by
  unfold State.seqStop
  repeat' first
    | with_reducible assumption
    | with_reducible exact Keeps.refl _ _
    | decide +kernel
    | with_reducible apply Keeps.setBA
    | with_reducible apply Keeps.via (State.testCause_keeps ..)
    | with_reducible apply Keeps.via (State.chainStopNow_keeps ..)
    | with_reducible apply Keeps.via (State.engAbort_keeps ..)
    | with_reducible apply Keeps.iteA

def State.framePut_w : Nat := fm H.ENG_FRAME
theorem State.framePut_keeps (s : State) (k w v : Nat) : Keeps State.framePut_w s (s.framePut k w v) := by
  unfold State.framePut
  repeat' first
    | with_reducible assumption
    | with_reducible exact Keeps.refl _ _
    | decide +kernel
    | with_reducible apply Keeps.putA

def State.frameSpill_w : Nat := m_scratch
theorem State.frameSpill_keeps (s : State) (k n : Nat) : Keeps State.frameSpill_w s (s.frameSpill k n) := by
  unfold State.frameSpill
  repeat' first
    | with_reducible assumption
    | with_reducible exact Keeps.refl _ _
    | decide +kernel
    | with_reducible apply Keeps.spWriteA

def State.frameFill_w : Nat := State.framePut_w
theorem State.frameFill_keeps (s : State) (k n : Nat) : Keeps State.frameFill_w s (s.frameFill k n) := by
  unfold State.frameFill
  repeat' first
    | with_reducible assumption
    | with_reducible exact Keeps.refl _ _
    | decide +kernel
    | with_reducible refine Keeps.eachA ?_ (fun _ _ => ?_)
    | with_reducible apply Keeps.via (State.framePut_keeps ..)

def State.frameWordPut_w : Nat := m_scratch ||| State.framePut_w
theorem State.frameWordPut_keeps (s : State) (k n w v : Nat) : Keeps State.frameWordPut_w s (s.frameWordPut k n w v) := by
  unfold State.frameWordPut
  repeat' first
    | with_reducible assumption
    | with_reducible exact Keeps.refl _ _
    | decide +kernel
    | with_reducible apply Keeps.spPutA
    | with_reducible apply Keeps.via (State.framePut_keeps ..)
    | with_reducible apply Keeps.iteA

def State.frameSave_w : Nat := fm H.ENG_FW_UNIT ||| fm H.ENG_FW_QTY ||| fm H.ENG_FW_IMM ||| fm H.ENG_FW_NEXT |||
    fm H.ENG_FW_IDX ||| fm H.ENG_FW_PC ||| fm F.ENG_STAT_DEPTH ||| State.framePut_w ||| State.engNoWait_w
theorem State.frameSave_keeps (s : State) (k v code fpc : Nat) (keepWait : Bool) : Keeps State.frameSave_w s (s.frameSave k v code fpc keepWait) := by
  unfold State.frameSave
  repeat' first
    | (extract_lets +onlyGivenNames x1; clear_value (hx : x1 = _); refine Keeps.cut x1 ?_ (fun h => ?_); rw [hx]; clear hx x1; rotate_left; clear hx; rotate_right)
    | (extract_lets +onlyGivenNames x1; clear_value (hx : x1 = _); refine Keeps.cut1 x1 ?_ (fun h => ?_); rw [hx]; clear hx x1; rotate_left; clear hx; rotate_right)
    | (extract_lets +onlyGivenNames x1; clear_value (hx : x1 = _); refine Keeps.cut2 x1 ?_ (fun h => ?_); rw [hx]; clear hx x1; rotate_left; clear hx; rotate_right)
    | (extract_lets +onlyGivenNames x1; clear_value (hx : x1 = _); clear hx)
    | with_reducible assumption
    | with_reducible exact Keeps.refl _ _
    | decide +kernel
    | with_reducible apply Keeps.putA
    | with_reducible refine Keeps.eachA ?_ (fun _ _ => ?_)
    | with_reducible apply Keeps.via (State.framePut_keeps ..)
    | with_reducible apply Keeps.via (State.engNoWait_keeps ..)
    | with_reducible apply Keeps.iteA

def State.takeTrap_w : Nat := fm H.ENG_TCAUSE ||| fm F.ENG_STAT_PC ||| fm H.ENG_ATOM_N ||| State.engHalt_w |||
    State.seqStop_w ||| State.frameSpill_w ||| State.frameSave_w ||| State.flagSet_w ||| State.unpendTrap_w
theorem State.takeTrap_keeps (s : State) (k v code fpc : Nat) (keepWait : Bool) : Keeps State.takeTrap_w s (s.takeTrap k v code fpc keepWait) := by
  unfold State.takeTrap
  repeat' first
    | (extract_lets +onlyGivenNames x1; clear_value (hx : x1 = _); refine Keeps.cut x1 ?_ (fun h => ?_); rw [hx]; clear hx x1; rotate_left; clear hx; rotate_right)
    | (extract_lets +onlyGivenNames x1; clear_value (hx : x1 = _); refine Keeps.cut1 x1 ?_ (fun h => ?_); rw [hx]; clear hx x1; rotate_left; clear hx; rotate_right)
    | (extract_lets +onlyGivenNames x1; clear_value (hx : x1 = _); refine Keeps.cut2 x1 ?_ (fun h => ?_); rw [hx]; clear hx x1; rotate_left; clear hx; rotate_right)
    | (extract_lets +onlyGivenNames x1; clear_value (hx : x1 = _); clear hx)
    | with_reducible assumption
    | with_reducible exact Keeps.refl _ _
    | decide +kernel
    | with_reducible apply Keeps.putA
    | with_reducible apply Keeps.via (State.engHalt_keeps ..)
    | with_reducible apply Keeps.via (State.seqStop_keeps ..)
    | with_reducible apply Keeps.via (State.frameSpill_keeps ..)
    | with_reducible apply Keeps.via (State.frameSave_keeps ..)
    | with_reducible apply Keeps.via (State.flagSet_keeps ..)
    | with_reducible apply Keeps.via (State.unpendTrap_keeps ..)
    | with_reducible apply Keeps.iteA
    | split

def State.takeAbort_w : Nat := fm F.ENG_STAT_STATE ||| fm F.ENG_STAT_PC ||| fm H.ENG_TCAUSE ||| State.engNoWait_w |||
    State.engNoFrames_w ||| State.flagSet_w ||| State.unpendTrap_w
theorem State.takeAbort_keeps (s : State) (k : Nat) : Keeps State.takeAbort_w s (s.takeAbort k) := by
  unfold State.takeAbort
  repeat' first
    | (extract_lets +onlyGivenNames x1; clear_value (hx : x1 = _); refine Keeps.cut x1 ?_ (fun h => ?_); rw [hx]; clear hx x1; rotate_left; clear hx; rotate_right)
    | (extract_lets +onlyGivenNames x1; clear_value (hx : x1 = _); refine Keeps.cut1 x1 ?_ (fun h => ?_); rw [hx]; clear hx x1; rotate_left; clear hx; rotate_right)
    | (extract_lets +onlyGivenNames x1; clear_value (hx : x1 = _); refine Keeps.cut2 x1 ?_ (fun h => ?_); rw [hx]; clear hx x1; rotate_left; clear hx; rotate_right)
    | (extract_lets +onlyGivenNames x1; clear_value (hx : x1 = _); clear hx)
    | with_reducible assumption
    | with_reducible exact Keeps.refl _ _
    | decide +kernel
    | with_reducible apply Keeps.putA
    | with_reducible apply Keeps.via (State.engNoWait_keeps ..)
    | with_reducible apply Keeps.via (State.engNoFrames_keeps ..)
    | with_reducible apply Keeps.via (State.flagSet_keeps ..)
    | with_reducible apply Keeps.via (State.unpendTrap_keeps ..)

def State.engFresh_w : Nat := fm H.ENG_L ||| fm H.ENG_FLAGS ||| fm H.ENG_RESULT ||| fm H.ENG_RESSTAT ||| fm H.ENG_BIN |||
    fm F.ENG_STAT_PC ||| fm F.ENG_STAT_STATE ||| State.engNoFrames_w ||| State.engNoWait_w
theorem State.engFresh_keeps (s : State) (k pc : Nat) : Keeps State.engFresh_w s (s.engFresh k pc) := by
  unfold State.engFresh
  repeat' first
    | (extract_lets +onlyGivenNames x1; clear_value (hx : x1 = _); refine Keeps.cut x1 ?_ (fun h => ?_); rw [hx]; clear hx x1; rotate_left; clear hx; rotate_right)
    | (extract_lets +onlyGivenNames x1; clear_value (hx : x1 = _); refine Keeps.cut1 x1 ?_ (fun h => ?_); rw [hx]; clear hx x1; rotate_left; clear hx; rotate_right)
    | (extract_lets +onlyGivenNames x1; clear_value (hx : x1 = _); refine Keeps.cut2 x1 ?_ (fun h => ?_); rw [hx]; clear hx x1; rotate_left; clear hx; rotate_right)
    | (extract_lets +onlyGivenNames x1; clear_value (hx : x1 = _); clear hx)
    | with_reducible assumption
    | with_reducible exact Keeps.refl _ _
    | decide +kernel
    | with_reducible apply Keeps.putA
    | with_reducible refine Keeps.eachA ?_ (fun _ _ => ?_)
    | with_reducible apply Keeps.via (State.engNoFrames_keeps ..)
    | with_reducible apply Keeps.via (State.engNoWait_keeps ..)

def State.engEnter_w : Nat := fm H.ENG_START_PEND ||| fm H.ENG_START_CUT ||| fm F.ENG_TMASK_PEND |||
    fm F.IRQ_ENG_LOST_COUNT ||| fm H.ENG_PRE_STOP ||| fm H.ENG_BIN ||| fm H.ENG_ABORT ||| fm H.ENG_ABORT_END |||
    m_evq ||| State.engFresh_w ||| State.engSems_w |||
    State.takeAbort_w
theorem State.engEnter_keeps (s : State) (k : Nat) : Keeps State.engEnter_w s (s.engEnter k) := by
  unfold State.engEnter
  repeat' first
    | (extract_lets +onlyGivenNames x1; clear_value (hx : x1 = _); refine Keeps.cut x1 ?_ (fun h => ?_); rw [hx]; clear hx x1; rotate_left; clear hx; rotate_right)
    | (extract_lets +onlyGivenNames x1; clear_value (hx : x1 = _); refine Keeps.cut1 x1 ?_ (fun h => ?_); rw [hx]; clear hx x1; rotate_left; clear hx; rotate_right)
    | (extract_lets +onlyGivenNames x1; clear_value (hx : x1 = _); refine Keeps.cut2 x1 ?_ (fun h => ?_); rw [hx]; clear hx x1; rotate_left; clear hx; rotate_right)
    | (extract_lets +onlyGivenNames x1; clear_value (hx : x1 = _); clear hx)
    | with_reducible assumption
    | with_reducible exact Keeps.refl _ _
    | decide +kernel
    | with_reducible apply Keeps.putA
    | with_reducible apply Keeps.setBA
    | with_reducible apply Keeps.noDueA
    | with_reducible apply Keeps.addSatA
    | with_reducible apply Keeps.via (State.engFresh_keeps ..)
    | with_reducible apply Keeps.via (State.engSems_keeps ..)
    | with_reducible apply Keeps.via (State.takeAbort_keeps ..)
    | with_reducible apply Keeps.iteA
    | with_reducible refine Keeps.trans ?_ (Keeps.c_evq _ ?_)

def State.engStopNow_w : Nat := fm H.ENG_PRE_STOP ||| fm F.ENG_STAT_STATE
theorem State.engStopNow_keeps (s : State) (k : Nat) : Keeps State.engStopNow_w s (s.engStopNow k) := by
  unfold State.engStopNow
  repeat' first
    | with_reducible assumption
    | with_reducible exact Keeps.refl _ _
    | decide +kernel
    | with_reducible apply Keeps.putA

def State.engGoOn_w : Nat := fm F.ENG_STAT_STATE ||| fm H.ENG_PRE_STOP ||| fm H.ENG_BRK_SKIP
theorem State.engGoOn_keeps (s : State) (k : Nat) : Keeps State.engGoOn_w s (s.engGoOn k) := by
  unfold State.engGoOn
  repeat' first
    | with_reducible assumption
    | with_reducible exact Keeps.refl _ _
    | decide +kernel
    | with_reducible apply Keeps.putA
    | with_reducible apply Keeps.setBA
    | with_reducible apply Keeps.iteA

def State.engStopCheck_w : Nat := State.engStopNow_w
theorem State.engStopCheck_keeps (s : State) (k : Nat) : Keeps State.engStopCheck_w s (s.engStopCheck k) := by
  unfold State.engStopCheck
  repeat' first
    | with_reducible assumption
    | with_reducible exact Keeps.refl _ _
    | decide +kernel
    | with_reducible apply Keeps.via (State.engStopNow_keeps ..)
    | with_reducible apply Keeps.iteA

def State.trapStop_w : Nat := State.takeTrap_w ||| State.engStopCheck_w
theorem State.trapStop_keeps (s : State) (k v code fpc : Nat) : Keeps State.trapStop_w s (s.trapStop k v code fpc) := by
  unfold State.trapStop
  repeat' first
    | with_reducible assumption
    | with_reducible exact Keeps.refl _ _
    | decide +kernel
    | with_reducible apply Keeps.via (State.takeTrap_keeps ..)
    | with_reducible apply Keeps.via (State.engStopCheck_keeps ..)

def State.engStepEnd_w : Nat := fm H.ENG_STEPPING ||| State.engStopNow_w
theorem State.engStepEnd_keeps (s : State) (k : Nat) : Keeps State.engStepEnd_w s (s.engStepEnd k) := by
  unfold State.engStepEnd
  repeat' first
    | with_reducible assumption
    | with_reducible exact Keeps.refl _ _
    | decide +kernel
    | with_reducible apply Keeps.setBA
    | with_reducible apply Keeps.via (State.engStopNow_keeps ..)
    | with_reducible apply Keeps.iteA

def State.taskAccept_w : Nat := fm H.ENG_TASK_D ||| fm H.ENG_G ||| fm H.ENG_TASK_SITE ||| fm H.ENG_TASK_RUN |||
    fm H.ENG_TASK_DEQUE ||| fm F.ENG_STAT_TASK_HELD ||| fm H.ENG_TASK_RAN ||| fm H.ENG_TASK_T0 ||| fm F.ENG_STAT_STATE |||
    fm F.ENG_STAT_PC
theorem State.taskAccept_keeps (s : State) (k tgt q : Nat) (l : List Byte) (t0 : Nat) : Keeps State.taskAccept_w s (s.taskAccept k tgt q l t0) := by
  unfold State.taskAccept
  repeat' first
    | (extract_lets +onlyGivenNames x1; clear_value (hx : x1 = _); refine Keeps.cut x1 ?_ (fun h => ?_); rw [hx]; clear hx x1; rotate_left; clear hx; rotate_right)
    | (extract_lets +onlyGivenNames x1; clear_value (hx : x1 = _); refine Keeps.cut1 x1 ?_ (fun h => ?_); rw [hx]; clear hx x1; rotate_left; clear hx; rotate_right)
    | (extract_lets +onlyGivenNames x1; clear_value (hx : x1 = _); refine Keeps.cut2 x1 ?_ (fun h => ?_); rw [hx]; clear hx x1; rotate_left; clear hx; rotate_right)
    | (extract_lets +onlyGivenNames x1; clear_value (hx : x1 = _); clear hx)
    | with_reducible assumption
    | with_reducible exact Keeps.refl _ _
    | decide +kernel
    | with_reducible apply Keeps.putA
    | with_reducible apply Keeps.setBA
    | with_reducible refine Keeps.eachA ?_ (fun _ _ => ?_)

def State.dqVictimTake_w : Nat := State.dqTake_w
theorem State.dqVictimTake_keeps {s : State} {k : Nat} {r : Nat × State × List Byte} (h : s.dqVictimTake k = some r) :
    Keeps State.dqVictimTake_w s r.2.1 := by
  unfold State.dqVictimTake at h
  obtain ⟨q, _, h⟩ := Option.bind_eq_some_iff.1 h
  obtain ⟨p, hp, h⟩ := Option.map_eq_some_iff.1 h
  cases h
  exact State.dqTake_keeps hp

def State.stealTask_w : Nat := fm F.ENG_STAT_PC ||| fm F.STL_STEALS_LO_N_LO ||| fm F.STL_STEALS_HI_N_HI |||
    State.dqVictimTake_w ||| State.taskAccept_w
theorem State.stealTask_keeps (s : State) (j k tgt next t0 : Nat) :
    Keeps State.stealTask_w s (s.stealTask (s.dqVictimTake j) k tgt next t0) := by
  generalize e : s.dqVictimTake j = o
  cases o with
  | none => exact Keeps.putA (by decide +kernel) (Keeps.refl _ _)
  | some r => exact Keeps.via (State.taskAccept_keeps ..) (by decide +kernel) (Keeps.put2A (by decide +kernel) (by decide +kernel)
      ((State.dqVictimTake_keeps e).mono (by decide +kernel)))

def State.engYield_w : Nat := fm F.ENG_STAT_STATE ||| fm F.ENG_STAT_PC ||| State.engTaskDone_w ||| State.engEnter_w |||
    State.takeAbort_w ||| State.dqPop_w ||| State.taskAccept_w ||| State.stealTask_w ||| State.dqVictimTake_w
theorem State.engYield_keeps (s : State) (k tgt next : Nat) : Keeps State.engYield_w s (s.engYield k tgt next) := by
  unfold State.engYield
  repeat' first
    | (extract_lets +onlyGivenNames x1; clear_value (hx : x1 = _); refine Keeps.cut x1 ?_ (fun h => ?_); rw [hx]; clear hx x1; rotate_left; clear hx; rotate_right)
    | (extract_lets +onlyGivenNames x1; clear_value (hx : x1 = _); refine Keeps.cut1 x1 ?_ (fun h => ?_); rw [hx]; clear hx x1; rotate_left; clear hx; rotate_right)
    | (extract_lets +onlyGivenNames x1; clear_value (hx : x1 = _); refine Keeps.cut2 x1 ?_ (fun h => ?_); rw [hx]; clear hx x1; rotate_left; clear hx; rotate_right)
    | (extract_lets +onlyGivenNames x1; clear_value (hx : x1 = _); clear hx)
    | with_reducible assumption
    | with_reducible exact Keeps.refl _ _
    | decide +kernel
    | with_reducible apply Keeps.putA
    | with_reducible apply Keeps.via (State.engTaskDone_keeps ..)
    | with_reducible apply Keeps.via (State.engEnter_keeps ..)
    | with_reducible apply Keeps.via (State.takeAbort_keeps ..)
    | with_reducible apply Keeps.via (State.taskAccept_keeps ..)
    | with_reducible apply Keeps.via (State.stealTask_keeps ..)
    | with_reducible apply Keeps.iteA
    | split
    | exact Keeps.via (State.dqPop_keeps (by with_reducible assumption : State.dqPop _ _ = some _)) (by decide +kernel) (by first | with_reducible assumption | exact Keeps.refl _ _)
    | exact Keeps.via (State.dqVictimTake_keeps (by with_reducible assumption : State.dqVictimTake _ _ = some _)) (by decide +kernel) (by first | with_reducible assumption | exact Keeps.refl _ _)

def State.waitResume_w : Nat := fm H.ENG_WAIT ||| fm H.ENG_WAIT_UNIT ||| fm H.ENG_WAIT_QTY ||| fm H.ENG_WAIT_IMM |||
    fm H.ENG_WAIT_IDX ||| fm H.ENG_NEXT ||| fm H.ENG_WAIT_DONE ||| fm H.ENG_WAIT_END
theorem State.waitResume_keeps (s : State) (k d long rem : Nat) (samePc : Bool) : Keeps State.waitResume_w s (s.waitResume k d long rem samePc) := by
  unfold State.waitResume
  repeat' first
    | (extract_lets +onlyGivenNames x1; clear_value (hx : x1 = _); refine Keeps.cut x1 ?_ (fun h => ?_); rw [hx]; clear hx x1; rotate_left; clear hx; rotate_right)
    | (extract_lets +onlyGivenNames x1; clear_value (hx : x1 = _); refine Keeps.cut1 x1 ?_ (fun h => ?_); rw [hx]; clear hx x1; rotate_left; clear hx; rotate_right)
    | (extract_lets +onlyGivenNames x1; clear_value (hx : x1 = _); refine Keeps.cut2 x1 ?_ (fun h => ?_); rw [hx]; clear hx x1; rotate_left; clear hx; rotate_right)
    | (extract_lets +onlyGivenNames x1; clear_value (hx : x1 = _); clear hx)
    | with_reducible assumption
    | with_reducible exact Keeps.refl _ _
    | decide +kernel
    | with_reducible apply Keeps.putA
    | with_reducible apply Keeps.setBA
    | with_reducible apply Keeps.setDueA
    | with_reducible apply Keeps.noDueA
    | with_reducible apply Keeps.iteA

def State.engMret_w : Nat := fm F.ENG_STAT_PC ||| fm F.ENG_STAT_RSP ||| fm H.ENG_FLAGS ||| fm H.ENG_L ||| fm H.ENG_RESULT |||
    fm H.ENG_RESSTAT ||| fm F.ENG_STAT_DEPTH ||| State.frameFill_w ||| State.waitResume_w
theorem State.engMret_keeps (s : State) (k : Nat) : Keeps State.engMret_w s (s.engMret k) := by
  unfold State.engMret
  repeat' first
    | (extract_lets +onlyGivenNames x1; clear_value (hx : x1 = _); refine Keeps.cut x1 ?_ (fun h => ?_); rw [hx]; clear hx x1; rotate_left; clear hx; rotate_right)
    | (extract_lets +onlyGivenNames x1; clear_value (hx : x1 = _); refine Keeps.cut1 x1 ?_ (fun h => ?_); rw [hx]; clear hx x1; rotate_left; clear hx; rotate_right)
    | (extract_lets +onlyGivenNames x1; clear_value (hx : x1 = _); refine Keeps.cut2 x1 ?_ (fun h => ?_); rw [hx]; clear hx x1; rotate_left; clear hx; rotate_right)
    | (extract_lets +onlyGivenNames x1; clear_value (hx : x1 = _); clear hx)
    | with_reducible assumption
    | with_reducible exact Keeps.refl _ _
    | decide +kernel
    | with_reducible apply Keeps.putA
    | with_reducible refine Keeps.eachA ?_ (fun _ _ => ?_)
    | with_reducible apply Keeps.via (State.frameFill_keeps ..)
    | with_reducible apply Keeps.via (State.waitResume_keeps ..)
    | with_reducible apply Keeps.iteA

end Sys2Proof.Machine
end

