-- ==== Sys2Proof/Laws/KeepsWords.lean ====
section
/-!
SUPPORT. What every operation of Machine/Words.lean can change: its mask and its Keeps lemma.
-/

set_option Elab.async false
set_option linter.all false

namespace Sys2Proof.Machine

def State.seqAct_w : Nat := fm H.ENG_RSTK ||| fm F.ENG_STAT_RSP ||| fm F.ENG_STAT_PC ||| State.engYield_w |||
    State.takeTrap_w ||| State.engMret_w ||| State.engHalt_w
theorem State.seqAct_keeps (s : State) (k w : Nat) : Keeps State.seqAct_w s (s.seqAct k w) := by
  unfold State.seqAct
  repeat' first
    | (extract_lets +onlyGivenNames x1; clear_value (hx : x1 = _); refine Keeps.cut x1 ?_ (fun h => ?_); rw [hx]; clear hx x1; rotate_left; clear hx; rotate_right)
    | (extract_lets +onlyGivenNames x1; clear_value (hx : x1 = _); refine Keeps.cut1 x1 ?_ (fun h => ?_); rw [hx]; clear hx x1; rotate_left; clear hx; rotate_right)
    | (extract_lets +onlyGivenNames x1; clear_value (hx : x1 = _); refine Keeps.cut2 x1 ?_ (fun h => ?_); rw [hx]; clear hx x1; rotate_left; clear hx; rotate_right)
    | (extract_lets +onlyGivenNames x1; clear_value (hx : x1 = _); clear hx)
    | with_reducible assumption
    | with_reducible exact Keeps.refl _ _
    | decide +kernel
    | with_reducible apply Keeps.putA
    | with_reducible apply Keeps.via (State.engYield_keeps ..)
    | with_reducible apply Keeps.via (State.takeTrap_keeps ..)
    | with_reducible apply Keeps.via (State.engMret_keeps ..)
    | with_reducible apply Keeps.via (State.engHalt_keeps ..)
    | split

def State.wordEnd_w : Nat := fm H.ENG_BRK_SKIP ||| State.seqAct_w ||| State.engStepEnd_w ||| State.engStopCheck_w
theorem State.wordEnd_keeps (s : State) (k : Nat) : Keeps State.wordEnd_w s (s.wordEnd k) := by
  unfold State.wordEnd
  repeat' first
    | with_reducible assumption
    | with_reducible exact Keeps.refl _ _
    | decide +kernel
    | with_reducible apply Keeps.setBA
    | with_reducible apply Keeps.via (State.seqAct_keeps ..)
    | with_reducible apply Keeps.via (State.engStepEnd_keeps ..)
    | with_reducible apply Keeps.via (State.engStopCheck_keeps ..)

def State.wordOver_w : Nat := State.wordEnd_w
theorem State.wordOver_keeps (s : State) (k : Nat) : Keeps State.wordOver_w s (s.wordOver k) := by
  unfold State.wordOver
  repeat' first
    | with_reducible assumption
    | with_reducible exact Keeps.refl _ _
    | decide +kernel
    | with_reducible apply Keeps.via (State.wordEnd_keeps ..)
    | with_reducible apply Keeps.iteA

def State.waitOver_w : Nat := fm H.ENG_WAIT ||| fm H.ENG_WAIT_END ||| State.wordOver_w
theorem State.waitOver_keeps (s : State) (k : Nat) : Keeps State.waitOver_w s (s.waitOver k) := by
  unfold State.waitOver
  repeat' first
    | with_reducible assumption
    | with_reducible exact Keeps.refl _ _
    | decide +kernel
    | with_reducible apply Keeps.putA
    | with_reducible apply Keeps.noDueA
    | with_reducible apply Keeps.via (State.wordOver_keeps ..)

def State.waitBegin_w : Nat := fm H.ENG_WAIT ||| fm H.ENG_WAIT_UNIT ||| fm H.ENG_WAIT_QTY ||| fm H.ENG_WAIT_IMM |||
    fm H.ENG_WAIT_IDX ||| fm H.ENG_WAIT_DONE ||| fm H.ENG_WAIT_END
theorem State.waitBegin_keeps (s : State) (k kind idx qty imm : Nat) : Keeps State.waitBegin_w s (s.waitBegin k kind idx qty imm) := by
  unfold State.waitBegin
  repeat' first
    | (extract_lets +onlyGivenNames x1; clear_value (hx : x1 = _); refine Keeps.cut x1 ?_ (fun h => ?_); rw [hx]; clear hx x1; rotate_left; clear hx; rotate_right)
    | (extract_lets +onlyGivenNames x1; clear_value (hx : x1 = _); refine Keeps.cut1 x1 ?_ (fun h => ?_); rw [hx]; clear hx x1; rotate_left; clear hx; rotate_right)
    | (extract_lets +onlyGivenNames x1; clear_value (hx : x1 = _); refine Keeps.cut2 x1 ?_ (fun h => ?_); rw [hx]; clear hx x1; rotate_left; clear hx; rotate_right)
    | (extract_lets +onlyGivenNames x1; clear_value (hx : x1 = _); clear hx)
    | with_reducible assumption
    | with_reducible exact Keeps.refl _ _
    | decide +kernel
    | with_reducible apply Keeps.putA
    | with_reducible apply Keeps.setBA
    | with_reducible apply Keeps.setDueA
    | with_reducible apply Keeps.noDueA
    | with_reducible apply Keeps.iteA

def State.queueCmds_w : Nat := m_cmdq
theorem State.queueCmds_keeps (s : State) (k w : Nat) : Keeps State.queueCmds_w s (s.queueCmds k w) := by
  unfold State.queueCmds
  repeat' first
    | (extract_lets +onlyGivenNames x1; clear_value (hx : x1 = _); refine Keeps.cut x1 ?_ (fun h => ?_); rw [hx]; clear hx x1; rotate_left; clear hx; rotate_right)
    | (extract_lets +onlyGivenNames x1; clear_value (hx : x1 = _); refine Keeps.cut1 x1 ?_ (fun h => ?_); rw [hx]; clear hx x1; rotate_left; clear hx; rotate_right)
    | (extract_lets +onlyGivenNames x1; clear_value (hx : x1 = _); refine Keeps.cut2 x1 ?_ (fun h => ?_); rw [hx]; clear hx x1; rotate_left; clear hx; rotate_right)
    | (extract_lets +onlyGivenNames x1; clear_value (hx : x1 = _); clear hx)
    | with_reducible assumption
    | with_reducible exact Keeps.refl _ _
    | decide +kernel
    | with_reducible apply Keeps.iteA
    | with_reducible refine Keeps.trans ?_ (Keeps.c_cmdq _ ?_)

def State.queueMem_w : Nat := m_memq
theorem State.queueMem_keeps (s : State) (k w a b b1 : Nat) : Keeps State.queueMem_w s (s.queueMem k w a b b1) := by
  unfold State.queueMem
  repeat' first
    | (extract_lets +onlyGivenNames x1; clear_value (hx : x1 = _); refine Keeps.cut x1 ?_ (fun h => ?_); rw [hx]; clear hx x1; rotate_left; clear hx; rotate_right)
    | (extract_lets +onlyGivenNames x1; clear_value (hx : x1 = _); refine Keeps.cut1 x1 ?_ (fun h => ?_); rw [hx]; clear hx x1; rotate_left; clear hx; rotate_right)
    | (extract_lets +onlyGivenNames x1; clear_value (hx : x1 = _); refine Keeps.cut2 x1 ?_ (fun h => ?_); rw [hx]; clear hx x1; rotate_left; clear hx; rotate_right)
    | (extract_lets +onlyGivenNames x1; clear_value (hx : x1 = _); clear hx)
    | with_reducible assumption
    | with_reducible exact Keeps.refl _ _
    | decide +kernel
    | with_reducible apply Keeps.iteA
    | with_reducible refine Keeps.trans ?_ (Keeps.c_memq _ ?_)

def State.wordRegs_w : Nat := fm H.ENG_FLAGS ||| fm H.ENG_L ||| State.engRegPut_w
theorem State.wordRegs_keeps (s : State) (k w a b : Nat) (cond : Bool) : Keeps State.wordRegs_w s (s.wordRegs k w a b cond) := by
  unfold State.wordRegs
  repeat' first
    | (extract_lets +onlyGivenNames x1; clear_value (hx : x1 = _); refine Keeps.cut x1 ?_ (fun h => ?_); rw [hx]; clear hx x1; rotate_left; clear hx; rotate_right)
    | (extract_lets +onlyGivenNames x1; clear_value (hx : x1 = _); refine Keeps.cut1 x1 ?_ (fun h => ?_); rw [hx]; clear hx x1; rotate_left; clear hx; rotate_right)
    | (extract_lets +onlyGivenNames x1; clear_value (hx : x1 = _); refine Keeps.cut2 x1 ?_ (fun h => ?_); rw [hx]; clear hx x1; rotate_left; clear hx; rotate_right)
    | (extract_lets +onlyGivenNames x1; clear_value (hx : x1 = _); clear hx)
    | with_reducible assumption
    | with_reducible exact Keeps.refl _ _
    | decide +kernel
    | with_reducible apply Keeps.putA
    | with_reducible apply Keeps.via (State.engRegPut_keeps ..)
    | with_reducible apply Keeps.iteA
    | split

def State.wordTakes_w : Nat := State.engRegTake_w ||| State.condTake_w
theorem State.wordTakes_keeps (s : State) (k w : Nat) (cond : Bool) : Keeps State.wordTakes_w s (s.wordTakes k w cond) := by
  unfold State.wordTakes
  repeat' first
    | (extract_lets +onlyGivenNames x1; clear_value (hx : x1 = _); refine Keeps.cut x1 ?_ (fun h => ?_); rw [hx]; clear hx x1; rotate_left; clear hx; rotate_right)
    | (extract_lets +onlyGivenNames x1; clear_value (hx : x1 = _); refine Keeps.cut1 x1 ?_ (fun h => ?_); rw [hx]; clear hx x1; rotate_left; clear hx; rotate_right)
    | (extract_lets +onlyGivenNames x1; clear_value (hx : x1 = _); refine Keeps.cut2 x1 ?_ (fun h => ?_); rw [hx]; clear hx x1; rotate_left; clear hx; rotate_right)
    | (extract_lets +onlyGivenNames x1; clear_value (hx : x1 = _); clear hx)
    | with_reducible assumption
    | with_reducible exact Keeps.refl _ _
    | decide +kernel
    | with_reducible apply Keeps.via (State.engRegTake_keeps ..)
    | with_reducible apply Keeps.via (State.condTake_keeps ..)
    | with_reducible apply Keeps.iteA

def State.wordIssue_w : Nat := fm H.ENG_NEXT ||| fm H.ENG_ATOM_N ||| fm H.ENG_LD_ON ||| State.wordTakes_w |||
    State.wordRegs_w ||| State.queueCmds_w ||| State.queueMem_w ||| State.waitBegin_w ||| State.wordOver_w
theorem State.wordIssue_keeps (s : State) (k w : Nat) : Keeps State.wordIssue_w s (s.wordIssue k w) := by
  unfold State.wordIssue
  repeat' first
    | (extract_lets +onlyGivenNames x1; clear_value (hx : x1 = _); refine Keeps.cut x1 ?_ (fun h => ?_); rw [hx]; clear hx x1; rotate_left; clear hx; rotate_right)
    | (extract_lets +onlyGivenNames x1; clear_value (hx : x1 = _); refine Keeps.cut1 x1 ?_ (fun h => ?_); rw [hx]; clear hx x1; rotate_left; clear hx; rotate_right)
    | (extract_lets +onlyGivenNames x1; clear_value (hx : x1 = _); refine Keeps.cut2 x1 ?_ (fun h => ?_); rw [hx]; clear hx x1; rotate_left; clear hx; rotate_right)
    | (extract_lets +onlyGivenNames x1; clear_value (hx : x1 = _); clear hx)
    | with_reducible assumption
    | with_reducible exact Keeps.refl _ _
    | decide +kernel
    | with_reducible apply Keeps.putA
    | with_reducible apply Keeps.setBA
    | with_reducible apply Keeps.via (State.wordTakes_keeps ..)
    | with_reducible apply Keeps.via (State.wordRegs_keeps ..)
    | with_reducible apply Keeps.via (State.queueCmds_keeps ..)
    | with_reducible apply Keeps.via (State.queueMem_keeps ..)
    | with_reducible apply Keeps.via (State.waitBegin_keeps ..)
    | with_reducible apply Keeps.via (State.wordOver_keeps ..)
    | with_reducible apply Keeps.iteA

def State.wordRow_w : Nat := fm H.ENG_WAIT ||| State.trapStop_w ||| State.engStopNow_w ||| State.wordIssue_w
theorem State.wordRow_keeps (s : State) (k seq : Nat) : Keeps State.wordRow_w s (s.wordRow k seq) := by
  unfold State.wordRow
  repeat' first
    | (extract_lets +onlyGivenNames x1; clear_value (hx : x1 = _); refine Keeps.cut x1 ?_ (fun h => ?_); rw [hx]; clear hx x1; rotate_left; clear hx; rotate_right)
    | (extract_lets +onlyGivenNames x1; clear_value (hx : x1 = _); refine Keeps.cut1 x1 ?_ (fun h => ?_); rw [hx]; clear hx x1; rotate_left; clear hx; rotate_right)
    | (extract_lets +onlyGivenNames x1; clear_value (hx : x1 = _); refine Keeps.cut2 x1 ?_ (fun h => ?_); rw [hx]; clear hx x1; rotate_left; clear hx; rotate_right)
    | (extract_lets +onlyGivenNames x1; clear_value (hx : x1 = _); clear hx)
    | with_reducible assumption
    | with_reducible exact Keeps.refl _ _
    | decide +kernel
    | with_reducible apply Keeps.putA
    | with_reducible apply Keeps.via (State.trapStop_keeps ..)
    | with_reducible apply Keeps.via (State.engStopNow_keeps ..)
    | with_reducible apply Keeps.via (State.wordIssue_keeps ..)
    | with_reducible apply Keeps.iteA

def State.engResult_w : Nat := fm H.ENG_RESULT ||| fm H.ENG_RESSTAT
theorem State.engResult_keeps (s : State) (k : Nat) (r : Nat × Nat) : Keeps State.engResult_w s (s.engResult k r) := by
  unfold State.engResult
  repeat' first
    | with_reducible assumption
    | with_reducible exact Keeps.refl _ _
    | decide +kernel
    | with_reducible apply Keeps.putA

def State.engValid_w : Nat := fm H.ENG_RESSTAT
theorem State.engValid_keeps (s : State) (k : Nat) (v : Bool) : Keeps State.engValid_w s (s.engValid k v) := by
  unfold State.engValid
  repeat' first
    | with_reducible assumption
    | with_reducible exact Keeps.refl _ _
    | decide +kernel
    | with_reducible apply Keeps.putA

def State.engMeasured_w : Nat := fm H.ENG_WAIT_DONE ||| State.frameWordPut_w
theorem State.engMeasured_keeps (s : State) (unit : Nat) : Keeps State.engMeasured_w s (s.engMeasured unit) := by
  unfold State.engMeasured
  repeat' first
    | (extract_lets +onlyGivenNames x1; clear_value (hx : x1 = _); refine Keeps.cut x1 ?_ (fun h => ?_); rw [hx]; clear hx x1; rotate_left; clear hx; rotate_right)
    | (extract_lets +onlyGivenNames x1; clear_value (hx : x1 = _); refine Keeps.cut1 x1 ?_ (fun h => ?_); rw [hx]; clear hx x1; rotate_left; clear hx; rotate_right)
    | (extract_lets +onlyGivenNames x1; clear_value (hx : x1 = _); refine Keeps.cut2 x1 ?_ (fun h => ?_); rw [hx]; clear hx x1; rotate_left; clear hx; rotate_right)
    | (extract_lets +onlyGivenNames x1; clear_value (hx : x1 = _); clear hx)
    | with_reducible assumption
    | with_reducible exact Keeps.refl _ _
    | decide +kernel
    | with_reducible apply Keeps.setBA
    | with_reducible refine Keeps.eachA ?_ (fun _ _ => ?_)
    | with_reducible apply Keeps.via (State.frameWordPut_keeps ..)
    | with_reducible apply Keeps.iteA

def State.unitSettled_w : Nat := m_free
theorem State.unitSettled_keeps (s : State) (unit : Nat) : Keeps State.unitSettled_w s (s.unitSettled unit).2 := by
  unfold State.unitSettled
  repeat' first
    | (extract_lets +onlyGivenNames x1; clear_value (hx : x1 = _); refine Keeps.cut x1 ?_ (fun h => ?_); rw [hx]; clear hx x1; rotate_left; clear hx; rotate_right)
    | (extract_lets +onlyGivenNames x1; clear_value (hx : x1 = _); refine Keeps.cut1 x1 ?_ (fun h => ?_); rw [hx]; clear hx x1; rotate_left; clear hx; rotate_right)
    | (extract_lets +onlyGivenNames x1; clear_value (hx : x1 = _); refine Keeps.cut2 x1 ?_ (fun h => ?_); rw [hx]; clear hx x1; rotate_left; clear hx; rotate_right)
    | (extract_lets +onlyGivenNames x1; clear_value (hx : x1 = _); clear hx)
    | with_reducible assumption
    | with_reducible exact Keeps.refl _ _
    | decide +kernel
    | with_reducible apply Keeps.drawA
    | with_reducible apply Keeps.iteA
    | with_reducible apply Keeps.ite2

def State.longEnd_w : Nat := m_now ||| State.waitOver_w ||| State.unitSettled_w ||| State.engValid_w ||| State.engResult_w
theorem State.longEnd_keeps (s : State) (k : Nat) : Keeps State.longEnd_w s (s.longEnd k) := by
  unfold State.longEnd
  repeat' first
    | (extract_lets +onlyGivenNames x1; clear_value (hx : x1 = _); refine Keeps.cut x1 ?_ (fun h => ?_); rw [hx]; clear hx x1; rotate_left; clear hx; rotate_right)
    | (extract_lets +onlyGivenNames x1; clear_value (hx : x1 = _); refine Keeps.cut1 x1 ?_ (fun h => ?_); rw [hx]; clear hx x1; rotate_left; clear hx; rotate_right)
    | (extract_lets +onlyGivenNames x1; clear_value (hx : x1 = _); refine Keeps.cut2 x1 ?_ (fun h => ?_); rw [hx]; clear hx x1; rotate_left; clear hx; rotate_right)
    | (extract_lets +onlyGivenNames x1; clear_value (hx : x1 = _); clear hx)
    | with_reducible assumption
    | with_reducible exact Keeps.refl _ _
    | decide +kernel
    | with_reducible apply Keeps.upToA
    | with_reducible apply Keeps.via (State.waitOver_keeps ..)
    | with_reducible apply Keeps.via (State.unitSettled_keeps ..)
    | with_reducible apply Keeps.via (State.engValid_keeps ..)
    | with_reducible apply Keeps.via (State.engResult_keeps ..)
    | with_reducible apply Keeps.iteA
    | split

def State.waitevGo_w : Nat := fm H.ENG_NEXT ||| State.waitOver_w
theorem State.waitevGo_keeps (s : State) (k : Nat) (met : Bool) : Keeps State.waitevGo_w s (s.waitevGo k met) := by
  unfold State.waitevGo
  repeat' first
    | (extract_lets +onlyGivenNames x1; clear_value (hx : x1 = _); refine Keeps.cut x1 ?_ (fun h => ?_); rw [hx]; clear hx x1; rotate_left; clear hx; rotate_right)
    | (extract_lets +onlyGivenNames x1; clear_value (hx : x1 = _); refine Keeps.cut1 x1 ?_ (fun h => ?_); rw [hx]; clear hx x1; rotate_left; clear hx; rotate_right)
    | (extract_lets +onlyGivenNames x1; clear_value (hx : x1 = _); refine Keeps.cut2 x1 ?_ (fun h => ?_); rw [hx]; clear hx x1; rotate_left; clear hx; rotate_right)
    | (extract_lets +onlyGivenNames x1; clear_value (hx : x1 = _); clear hx)
    | with_reducible assumption
    | with_reducible exact Keeps.refl _ _
    | decide +kernel
    | with_reducible apply Keeps.putA
    | with_reducible apply Keeps.via (State.waitOver_keeps ..)
    | with_reducible apply Keeps.iteA

def State.waitevOver_w : Nat := m_now ||| State.condTake_w ||| State.waitevGo_w
theorem State.waitevOver_keeps (s : State) (k : Nat) : Keeps State.waitevOver_w s (s.waitevOver k) := by
  unfold State.waitevOver
  repeat' first
    | (extract_lets +onlyGivenNames x1; clear_value (hx : x1 = _); refine Keeps.cut x1 ?_ (fun h => ?_); rw [hx]; clear hx x1; rotate_left; clear hx; rotate_right)
    | (extract_lets +onlyGivenNames x1; clear_value (hx : x1 = _); refine Keeps.cut1 x1 ?_ (fun h => ?_); rw [hx]; clear hx x1; rotate_left; clear hx; rotate_right)
    | (extract_lets +onlyGivenNames x1; clear_value (hx : x1 = _); refine Keeps.cut2 x1 ?_ (fun h => ?_); rw [hx]; clear hx x1; rotate_left; clear hx; rotate_right)
    | (extract_lets +onlyGivenNames x1; clear_value (hx : x1 = _); clear hx)
    | with_reducible assumption
    | with_reducible exact Keeps.refl _ _
    | decide +kernel
    | with_reducible apply Keeps.upToA
    | with_reducible apply Keeps.via (State.condTake_keeps ..)
    | with_reducible apply Keeps.via (State.waitevGo_keeps ..)
    | with_reducible apply Keeps.iteA
    | split

def State.refuse_w : Nat := m_refused
theorem State.refuse_keeps (s : State) (k word reason : Nat) (ana : Bool) : Keeps State.refuse_w s (s.refuse k word reason ana) := by
  unfold State.refuse
  repeat' first
    | with_reducible assumption
    | with_reducible exact Keeps.refl _ _
    | decide +kernel
    | with_reducible refine Keeps.trans ?_ (Keeps.c_refused _ ?_)

def State.cmdActed_w : Nat := m_cmdq
theorem State.cmdActed_keeps (s : State) (k : Nat) (ana : Bool) (op : Nat) : Keeps State.cmdActed_w s (s.cmdActed k ana op) := by
  unfold State.cmdActed
  repeat' first
    | with_reducible assumption
    | with_reducible exact Keeps.refl _ _
    | decide +kernel
    | split
    | with_reducible refine Keeps.trans ?_ (Keeps.c_cmdq _ ?_)

def State.tileCmd_w : Nat := State.cmdActed_w ||| State.refuse_w
theorem State.tileCmd_keeps {w : Nat} (hw : Sub State.tileCmd_w w) {s : State} {k : Nat} {ana : Bool} {op : Nat}
    {eff : State → Nat → SiteEntry → State × Nat} (he : ∀ t i e, Keeps w t (eff t i e).1) : Keeps w s (s.tileCmd k ana op eff) := by
  have h1 : Keeps w s (s.cmdActed k ana op) := (State.cmdActed_keeps ..).mono (Sub.trans (by decide +kernel) hw)
  have hr (t : State) (h : Keeps w s t) (a b : Nat) (c : Bool) : Keeps w s (t.refuse k a b c) :=
    h.trans ((State.refuse_keeps ..).mono (Sub.trans (by decide +kernel) hw))
  unfold State.tileCmd
  dsimp only
  split
  · exact hr _ h1 _ _ _
  · split
    · exact hr _ h1 _ _ _
    · exact Keeps.iteA (h1.trans (he _ _ _)) (hr _ (h1.trans (he _ _ _)) _ _ _)

def State.reissue_w : Nat := State.frameWordPut_w
theorem State.reissue_keeps (s : State) (k unit : Nat) : Keeps State.reissue_w s (s.reissue k unit) := by
  unfold State.reissue
  repeat' first
    | (extract_lets +onlyGivenNames x1; clear_value (hx : x1 = _); refine Keeps.cut x1 ?_ (fun h => ?_); rw [hx]; clear hx x1; rotate_left; clear hx; rotate_right)
    | (extract_lets +onlyGivenNames x1; clear_value (hx : x1 = _); refine Keeps.cut1 x1 ?_ (fun h => ?_); rw [hx]; clear hx x1; rotate_left; clear hx; rotate_right)
    | (extract_lets +onlyGivenNames x1; clear_value (hx : x1 = _); refine Keeps.cut2 x1 ?_ (fun h => ?_); rw [hx]; clear hx x1; rotate_left; clear hx; rotate_right)
    | (extract_lets +onlyGivenNames x1; clear_value (hx : x1 = _); clear hx)
    | with_reducible assumption
    | with_reducible exact Keeps.refl _ _
    | decide +kernel
    | with_reducible refine Keeps.eachA ?_ (fun _ _ => ?_)
    | with_reducible apply Keeps.via (State.frameWordPut_keeps ..)
    | with_reducible apply Keeps.iteA

def State.unitCmd_w : Nat := State.tileCmd_w ||| State.reissue_w
theorem State.unitCmd_keeps {w : Nat} (hw : Sub State.unitCmd_w w) {s : State} {k op idx qty : Nat}
    {eff : State → Nat → State × Nat} (he : ∀ t u, Keeps w t (eff t u).1) : Keeps w s (s.unitCmd k op idx qty eff) := by
  have ht : Sub State.tileCmd_w w := Sub.trans (by decide +kernel) hw
  unfold State.unitCmd
  split
  · exact Keeps.iteA (Keeps.refl _ _) (State.tileCmd_keeps ht (fun t _ _ =>
      ((State.reissue_keeps ..).mono (Sub.trans (by decide +kernel) hw)).trans (he _ _)))
  · exact State.tileCmd_keeps ht (fun _ _ _ => Keeps.refl _ _)

def State.longRow_w : Nat := State.waitBegin_w
theorem State.longRow_keeps (s : State) (k kind idx qty imm : Nat) : Keeps State.longRow_w s (s.longRow k kind idx qty imm) := by
  unfold State.longRow
  repeat' first
    | with_reducible assumption
    | with_reducible exact Keeps.refl _ _
    | decide +kernel
    | with_reducible apply Keeps.via (State.waitBegin_keeps ..)
    | with_reducible apply Keeps.iteA

def State.cmdAck_w : Nat := fm H.ENG_WAIT ||| m_cmdq
theorem State.cmdAck_keeps (s : State) (k : Nat) : Keeps State.cmdAck_w s (s.cmdAck k) := by
  unfold State.cmdAck
  repeat' first
    | (extract_lets +onlyGivenNames x1; clear_value (hx : x1 = _); refine Keeps.cut x1 ?_ (fun h => ?_); rw [hx]; clear hx x1; rotate_left; clear hx; rotate_right)
    | (extract_lets +onlyGivenNames x1; clear_value (hx : x1 = _); refine Keeps.cut1 x1 ?_ (fun h => ?_); rw [hx]; clear hx x1; rotate_left; clear hx; rotate_right)
    | (extract_lets +onlyGivenNames x1; clear_value (hx : x1 = _); refine Keeps.cut2 x1 ?_ (fun h => ?_); rw [hx]; clear hx x1; rotate_left; clear hx; rotate_right)
    | (extract_lets +onlyGivenNames x1; clear_value (hx : x1 = _); clear hx)
    | with_reducible assumption
    | with_reducible exact Keeps.refl _ _
    | decide +kernel
    | with_reducible apply Keeps.putA
    | with_reducible apply Keeps.iteA
    | split
    | with_reducible refine Keeps.trans ?_ (Keeps.c_cmdq _ ?_)

def State.refusalKnown_w : Nat := fm F.ENG_REFUSE_WORD ||| fm F.ENG_REFUSE_REASON ||| fm F.ENG_REFUSE_ANA |||
    State.flagSet_w ||| State.pendTrap_w ||| State.engValid_w ||| State.waitOver_w
theorem State.refusalKnown_keeps (s : State) (k : Nat) (r : Refused) : Keeps State.refusalKnown_w s (s.refusalKnown k r) := by
  unfold State.refusalKnown
  repeat' first
    | (extract_lets +onlyGivenNames x1; clear_value (hx : x1 = _); refine Keeps.cut x1 ?_ (fun h => ?_); rw [hx]; clear hx x1; rotate_left; clear hx; rotate_right)
    | (extract_lets +onlyGivenNames x1; clear_value (hx : x1 = _); refine Keeps.cut1 x1 ?_ (fun h => ?_); rw [hx]; clear hx x1; rotate_left; clear hx; rotate_right)
    | (extract_lets +onlyGivenNames x1; clear_value (hx : x1 = _); refine Keeps.cut2 x1 ?_ (fun h => ?_); rw [hx]; clear hx x1; rotate_left; clear hx; rotate_right)
    | (extract_lets +onlyGivenNames x1; clear_value (hx : x1 = _); clear hx)
    | with_reducible assumption
    | with_reducible exact Keeps.refl _ _
    | decide +kernel
    | with_reducible apply Keeps.putA
    | with_reducible apply Keeps.setBA
    | with_reducible apply Keeps.via (State.flagSet_keeps ..)
    | with_reducible apply Keeps.via (State.pendTrap_keeps ..)
    | with_reducible apply Keeps.via (State.engValid_keeps ..)
    | with_reducible apply Keeps.via (State.waitOver_keeps ..)
    | with_reducible apply Keeps.iteA

def State.refusalNext_w : Nat := m_refused ||| State.refusalKnown_w
theorem State.refusalNext_keeps (s : State) (k : Nat) : Keeps State.refusalNext_w s (s.refusalNext k) := by
  unfold State.refusalNext
  repeat' first
    | with_reducible assumption
    | with_reducible exact Keeps.refl _ _
    | decide +kernel
    | with_reducible apply Keeps.via (State.refusalKnown_keeps ..)
    | split
    | with_reducible refine Keeps.trans ?_ (Keeps.c_refused _ ?_)

def State.memTake_w : Nat := m_memq
theorem State.memTake_keeps (s : State) (k op : Nat) : Keeps State.memTake_w s (s.memTake k op).1 := by
  unfold State.memTake
  repeat' first
    | with_reducible assumption
    | with_reducible exact Keeps.refl _ _
    | decide +kernel
    | split
    | with_reducible refine Keeps.trans ?_ (Keeps.c_memq _ ?_)

def State.memFail_w : Nat := m_memErrs
theorem State.memFail_keeps (s : State) (k word : Nat) (store : Bool) (reason off : Nat) : Keeps State.memFail_w s (s.memFail k word store reason off) := by
  unfold State.memFail
  repeat' first
    | with_reducible assumption
    | with_reducible exact Keeps.refl _ _
    | decide +kernel
    | with_reducible refine Keeps.trans ?_ (Keeps.c_memErrs _ ?_)

def State.memErrNext_w : Nat := fm F.ENG_MEMERR_WORD ||| fm F.ENG_MEMERR_STORE ||| fm F.ENG_MEMERR_REASON |||
    fm F.ENG_MEMERR_ADDR_OFFSET ||| m_memErrs ||| State.flagSet_w ||| State.pendTrap_w
theorem State.memErrNext_keeps (s : State) (k : Nat) : Keeps State.memErrNext_w s (s.memErrNext k) := by
  unfold State.memErrNext
  repeat' first
    | (extract_lets +onlyGivenNames x1; clear_value (hx : x1 = _); refine Keeps.cut x1 ?_ (fun h => ?_); rw [hx]; clear hx x1; rotate_left; clear hx; rotate_right)
    | (extract_lets +onlyGivenNames x1; clear_value (hx : x1 = _); refine Keeps.cut1 x1 ?_ (fun h => ?_); rw [hx]; clear hx x1; rotate_left; clear hx; rotate_right)
    | (extract_lets +onlyGivenNames x1; clear_value (hx : x1 = _); refine Keeps.cut2 x1 ?_ (fun h => ?_); rw [hx]; clear hx x1; rotate_left; clear hx; rotate_right)
    | (extract_lets +onlyGivenNames x1; clear_value (hx : x1 = _); clear hx)
    | with_reducible assumption
    | with_reducible exact Keeps.refl _ _
    | decide +kernel
    | with_reducible apply Keeps.putA
    | with_reducible apply Keeps.setBA
    | with_reducible apply Keeps.via (State.flagSet_keeps ..)
    | with_reducible apply Keeps.via (State.pendTrap_keeps ..)
    | split
    | with_reducible refine Keeps.trans ?_ (Keeps.c_memErrs _ ?_)

def State.engRead_w : Nat := State.celRead_w
theorem State.engRead_keeps (s : State) (k space off n : Nat) : Keeps State.engRead_w s (s.engRead k space off n).1 := by
  unfold State.engRead
  repeat' first
    | (extract_lets +onlyGivenNames x1; clear_value (hx : x1 = _); refine Keeps.cut x1 ?_ (fun h => ?_); rw [hx]; clear hx x1; rotate_left; clear hx; rotate_right)
    | (extract_lets +onlyGivenNames x1; clear_value (hx : x1 = _); refine Keeps.cut1 x1 ?_ (fun h => ?_); rw [hx]; clear hx x1; rotate_left; clear hx; rotate_right)
    | (extract_lets +onlyGivenNames x1; clear_value (hx : x1 = _); refine Keeps.cut2 x1 ?_ (fun h => ?_); rw [hx]; clear hx x1; rotate_left; clear hx; rotate_right)
    | (extract_lets +onlyGivenNames x1; clear_value (hx : x1 = _); clear hx)
    | with_reducible assumption
    | with_reducible exact Keeps.refl _ _
    | decide +kernel
    | with_reducible apply Keeps.via (State.celRead_keeps ..)
    | with_reducible apply Keeps.iteA
    | with_reducible apply Keeps.ite1
    | split

def State.engWrite_w : Nat := m_scratch ||| State.celStore_w
theorem State.engWrite_keeps (s : State) (k space off : Nat) (l : List Byte) : Keeps State.engWrite_w s (s.engWrite k space off l).1 := by
  unfold State.engWrite
  repeat' first
    | (extract_lets +onlyGivenNames x1; clear_value (hx : x1 = _); refine Keeps.cut x1 ?_ (fun h => ?_); rw [hx]; clear hx x1; rotate_left; clear hx; rotate_right)
    | (extract_lets +onlyGivenNames x1; clear_value (hx : x1 = _); refine Keeps.cut1 x1 ?_ (fun h => ?_); rw [hx]; clear hx x1; rotate_left; clear hx; rotate_right)
    | (extract_lets +onlyGivenNames x1; clear_value (hx : x1 = _); refine Keeps.cut2 x1 ?_ (fun h => ?_); rw [hx]; clear hx x1; rotate_left; clear hx; rotate_right)
    | (extract_lets +onlyGivenNames x1; clear_value (hx : x1 = _); clear hx)
    | with_reducible assumption
    | with_reducible exact Keeps.refl _ _
    | decide +kernel
    | with_reducible apply Keeps.spWriteA
    | with_reducible apply Keeps.via (State.celStore_keeps ..)
    | with_reducible apply Keeps.iteA
    | with_reducible apply Keeps.ite1

def State.loadRow_w : Nat := State.memTake_w ||| State.engRead_w ||| State.memFail_w ||| State.engRegPut_w
theorem State.loadRow_keeps (s : State) (k op space off dst n : Nat) : Keeps State.loadRow_w s (s.loadRow k op space off dst n) := by
  unfold State.loadRow
  repeat' first
    | (extract_lets +onlyGivenNames x1; clear_value (hx : x1 = _); refine Keeps.cut x1 ?_ (fun h => ?_); rw [hx]; clear hx x1; rotate_left; clear hx; rotate_right)
    | (extract_lets +onlyGivenNames x1; clear_value (hx : x1 = _); refine Keeps.cut1 x1 ?_ (fun h => ?_); rw [hx]; clear hx x1; rotate_left; clear hx; rotate_right)
    | (extract_lets +onlyGivenNames x1; clear_value (hx : x1 = _); refine Keeps.cut2 x1 ?_ (fun h => ?_); rw [hx]; clear hx x1; rotate_left; clear hx; rotate_right)
    | (extract_lets +onlyGivenNames x1; clear_value (hx : x1 = _); clear hx)
    | with_reducible assumption
    | with_reducible exact Keeps.refl _ _
    | decide +kernel
    | with_reducible apply Keeps.via (State.memTake_keeps ..)
    | with_reducible apply Keeps.via (State.engRead_keeps ..)
    | with_reducible apply Keeps.via (State.memFail_keeps ..)
    | with_reducible apply Keeps.via (State.engRegPut_keeps ..)
    | with_reducible apply Keeps.iteA
    | split

def State.storeRow_w : Nat := State.memTake_w ||| State.engWrite_w ||| State.memFail_w
theorem State.storeRow_keeps (s : State) (k op space off : Nat) (l : List Byte) : Keeps State.storeRow_w s (s.storeRow k op space off l) := by
  unfold State.storeRow
  repeat' first
    | (extract_lets +onlyGivenNames x1; clear_value (hx : x1 = _); refine Keeps.cut x1 ?_ (fun h => ?_); rw [hx]; clear hx x1; rotate_left; clear hx; rotate_right)
    | (extract_lets +onlyGivenNames x1; clear_value (hx : x1 = _); refine Keeps.cut1 x1 ?_ (fun h => ?_); rw [hx]; clear hx x1; rotate_left; clear hx; rotate_right)
    | (extract_lets +onlyGivenNames x1; clear_value (hx : x1 = _); refine Keeps.cut2 x1 ?_ (fun h => ?_); rw [hx]; clear hx x1; rotate_left; clear hx; rotate_right)
    | (extract_lets +onlyGivenNames x1; clear_value (hx : x1 = _); clear hx)
    | with_reducible assumption
    | with_reducible exact Keeps.refl _ _
    | decide +kernel
    | with_reducible apply Keeps.via (State.memTake_keeps ..)
    | with_reducible apply Keeps.via (State.engWrite_keeps ..)
    | with_reducible apply Keeps.via (State.memFail_keeps ..)
    | with_reducible apply Keeps.iteA

def State.loadDone_w : Nat := fm H.ENG_LD_ON ||| State.wordOver_w
theorem State.loadDone_keeps (s : State) (k : Nat) : Keeps State.loadDone_w s (s.loadDone k) := by
  unfold State.loadDone
  repeat' first
    | with_reducible assumption
    | with_reducible exact Keeps.refl _ _
    | decide +kernel
    | with_reducible apply Keeps.setBA
    | with_reducible apply Keeps.via (State.wordOver_keeps ..)
    | with_reducible apply Keeps.iteA

end Sys2Proof.Machine
end

