-- ==== Sys2Proof/Laws/KeepsPantry.lean ====
section
/-!
SUPPORT. What every operation of Machine/Pantry.lean can change: its mask and its Keeps lemma.
-/

set_option Elab.async false
set_option linter.all false

namespace Sys2Proof.Machine

def State.lineGrant_w : Nat := fm H.PAN_RR ||| m_ports ||| m_waveBuf ||| State.bad_w
theorem State.lineGrant_keeps (s : State) : Keeps State.lineGrant_w s (s.lineGrant) := by
  unfold State.lineGrant
  repeat' first
    | (extract_lets +onlyGivenNames x1; clear_value (hx : x1 = _); refine Keeps.cut x1 ?_ (fun h => ?_); rw [hx]; clear hx x1; rotate_left; clear hx; rotate_right)
    | (extract_lets +onlyGivenNames x1; clear_value (hx : x1 = _); refine Keeps.cut1 x1 ?_ (fun h => ?_); rw [hx]; clear hx x1; rotate_left; clear hx; rotate_right)
    | (extract_lets +onlyGivenNames x1; clear_value (hx : x1 = _); refine Keeps.cut2 x1 ?_ (fun h => ?_); rw [hx]; clear hx x1; rotate_left; clear hx; rotate_right)
    | (extract_lets +onlyGivenNames x1; clear_value (hx : x1 = _); clear hx)
    | with_reducible assumption
    | with_reducible exact Keeps.refl _ _
    | decide +kernel
    | with_reducible apply Keeps.putA
    | with_reducible apply Keeps.via (State.bad_keeps ..)
    | split
    | with_reducible refine Keeps.trans ?_ (Keeps.c_ports _ ?_)
    | with_reducible refine Keeps.trans ?_ (Keeps.c_waveBuf _ ?_)

def State.evict_w : Nat := fm F.PAN_EVICT_COUNT ||| m_evicted ||| m_lines
theorem State.evict_keeps (s : State) (x : PanLine) : Keeps State.evict_w s (s.evict x) := by
  unfold State.evict
  repeat' first
    | (extract_lets +onlyGivenNames x1; clear_value (hx : x1 = _); refine Keeps.cut x1 ?_ (fun h => ?_); rw [hx]; clear hx x1; rotate_left; clear hx; rotate_right)
    | (extract_lets +onlyGivenNames x1; clear_value (hx : x1 = _); refine Keeps.cut1 x1 ?_ (fun h => ?_); rw [hx]; clear hx x1; rotate_left; clear hx; rotate_right)
    | (extract_lets +onlyGivenNames x1; clear_value (hx : x1 = _); refine Keeps.cut2 x1 ?_ (fun h => ?_); rw [hx]; clear hx x1; rotate_left; clear hx; rotate_right)
    | (extract_lets +onlyGivenNames x1; clear_value (hx : x1 = _); clear hx)
    | with_reducible assumption
    | with_reducible exact Keeps.refl _ _
    | decide +kernel
    | with_reducible apply Keeps.incSatA
    | with_reducible apply Keeps.iteA
    | with_reducible refine Keeps.trans ?_ (Keeps.c_evicted _ ?_)
    | with_reducible refine Keeps.trans ?_ (Keeps.c_lines _ ?_)

def State.reqsNow_w : Nat := m_reqs
theorem State.reqsNow_keeps (s : State) : Keeps State.reqsNow_w s (s.reqsNow) := by
  unfold State.reqsNow
  repeat' first
    | (extract_lets +onlyGivenNames x1; clear_value (hx : x1 = _); refine Keeps.cut x1 ?_ (fun h => ?_); rw [hx]; clear hx x1; rotate_left; clear hx; rotate_right)
    | (extract_lets +onlyGivenNames x1; clear_value (hx : x1 = _); refine Keeps.cut1 x1 ?_ (fun h => ?_); rw [hx]; clear hx x1; rotate_left; clear hx; rotate_right)
    | (extract_lets +onlyGivenNames x1; clear_value (hx : x1 = _); refine Keeps.cut2 x1 ?_ (fun h => ?_); rw [hx]; clear hx x1; rotate_left; clear hx; rotate_right)
    | (extract_lets +onlyGivenNames x1; clear_value (hx : x1 = _); clear hx)
    | with_reducible assumption
    | with_reducible exact Keeps.refl _ _
    | decide +kernel
    | with_reducible refine Keeps.trans ?_ (Keeps.c_reqs _ ?_)

def State.celFetch_w : Nat := State.celBlocksOk_w
theorem State.celFetch_keeps (s : State) (o n : Nat) : Keeps State.celFetch_w s (s.celFetch o n).1 := by
  unfold State.celFetch
  repeat' first
    | (extract_lets +onlyGivenNames x1; clear_value (hx : x1 = _); refine Keeps.cut x1 ?_ (fun h => ?_); rw [hx]; clear hx x1; rotate_left; clear hx; rotate_right)
    | (extract_lets +onlyGivenNames x1; clear_value (hx : x1 = _); refine Keeps.cut1 x1 ?_ (fun h => ?_); rw [hx]; clear hx x1; rotate_left; clear hx; rotate_right)
    | (extract_lets +onlyGivenNames x1; clear_value (hx : x1 = _); refine Keeps.cut2 x1 ?_ (fun h => ?_); rw [hx]; clear hx x1; rotate_left; clear hx; rotate_right)
    | (extract_lets +onlyGivenNames x1; clear_value (hx : x1 = _); clear hx)
    | with_reducible assumption
    | with_reducible exact Keeps.refl _ _
    | decide +kernel
    | with_reducible apply Keeps.via (State.celBlocksOk_keeps ..)
    | with_reducible apply Keeps.iteA
    | with_reducible apply Keeps.ite1

def State.jobFetch_w : Nat := State.celRead_w ||| State.celFetch_w
theorem State.jobFetch_keeps (s : State) (r : LineReq) (slot : Nat) : Keeps State.jobFetch_w s (s.jobFetch r slot).1 := by
  unfold State.jobFetch
  repeat' first
    | (extract_lets +onlyGivenNames x1; clear_value (hx : x1 = _); refine Keeps.cut x1 ?_ (fun h => ?_); rw [hx]; clear hx x1; rotate_left; clear hx; rotate_right)
    | (extract_lets +onlyGivenNames x1; clear_value (hx : x1 = _); refine Keeps.cut1 x1 ?_ (fun h => ?_); rw [hx]; clear hx x1; rotate_left; clear hx; rotate_right)
    | (extract_lets +onlyGivenNames x1; clear_value (hx : x1 = _); refine Keeps.cut2 x1 ?_ (fun h => ?_); rw [hx]; clear hx x1; rotate_left; clear hx; rotate_right)
    | (extract_lets +onlyGivenNames x1; clear_value (hx : x1 = _); clear hx)
    | with_reducible assumption
    | with_reducible exact Keeps.refl _ _
    | decide +kernel
    | with_reducible apply Keeps.via (State.celRead_keeps ..)
    | with_reducible apply Keeps.via (State.celFetch_keeps ..)
    | with_reducible apply Keeps.iteA
    | with_reducible apply Keeps.ite1
    | split

def State.slotRoom_w : Nat := State.evict_w
theorem State.slotRoom_keeps {s : State} {r : State × Nat} (h : s.slotRoom = some r) : Keeps State.slotRoom_w s r.1 := by
  unfold State.slotRoom at h
  generalize s.freeSlot = a at h
  generalize s.victim = b at h
  cases a with
  | some n => cases h; exact Keeps.refl _ _
  | none =>
    cases b with
    | none => cases h
    | some x => cases h; exact State.evict_keeps s x

def State.decodeInto_w : Nat := fm F.SEQ_REFETCH_COUNT ||| m_evicted ||| m_reqs ||| m_jobs ||| State.jobFetch_w
theorem State.decodeInto_keeps (s : State) (r : LineReq) (t : State) (n : Nat) :
    Keeps State.decodeInto_w t (s.decodeInto r (some (t, n))) := by
  unfold State.decodeInto
  dsimp only
  refine Keeps.trans ?_ (Keeps.c_reqs_jobs _ _ (by decide +kernel))
  refine Keeps.via (State.jobFetch_keeps ..) (by decide +kernel) (Keeps.iteA ?_ (Keeps.refl _ _))
  exact Keeps.trans (Keeps.incSatA (by decide +kernel) (Keeps.refl _ _)) (Keeps.c_evicted _ (by decide +kernel))

def State.decodeStart_w : Nat := State.reqsNow_w ||| State.evict_w ||| State.decodeInto_w
theorem State.decodeStart_keeps (s : State) : Keeps State.decodeStart_w s s.decodeStart := by
  have h0 : Keeps State.decodeStart_w s s.reqsNow := (State.reqsNow_keeps ..).mono (by decide +kernel)
  unfold State.decodeStart
  dsimp only
  refine Keeps.iteA h0 ?_
  split
  · exact h0
  · generalize e : s.reqsNow.slotRoom = o
    cases o with
    | none => exact h0
    | some r =>
      exact (h0.trans ((State.slotRoom_keeps e).mono (by decide +kernel))).trans ((State.decodeInto_keeps ..).mono (by decide +kernel))

def State.decodeDone_w : Nat := fm F.PAN_DECODE_ERR_COUNT ||| fm F.PAN_DECODE_ERR_PAT_ID ||| m_lines ||| m_jobs
theorem State.decodeDone_keeps (s : State) (j : DecJob) : Keeps State.decodeDone_w s (s.decodeDone j).1 := by
  unfold State.decodeDone
  repeat' first
    | (extract_lets +onlyGivenNames x1; clear_value (hx : x1 = _); refine Keeps.cut x1 ?_ (fun h => ?_); rw [hx]; clear hx x1; rotate_left; clear hx; rotate_right)
    | (extract_lets +onlyGivenNames x1; clear_value (hx : x1 = _); refine Keeps.cut1 x1 ?_ (fun h => ?_); rw [hx]; clear hx x1; rotate_left; clear hx; rotate_right)
    | (extract_lets +onlyGivenNames x1; clear_value (hx : x1 = _); refine Keeps.cut2 x1 ?_ (fun h => ?_); rw [hx]; clear hx x1; rotate_left; clear hx; rotate_right)
    | (extract_lets +onlyGivenNames x1; clear_value (hx : x1 = _); clear hx)
    | with_reducible assumption
    | with_reducible exact Keeps.refl _ _
    | decide +kernel
    | with_reducible apply Keeps.putA
    | with_reducible apply Keeps.incSatA
    | with_reducible apply Keeps.iteA
    | with_reducible apply Keeps.ite1
    | with_reducible refine Keeps.trans ?_ (Keeps.c_lines_jobs _ _ ?_)

def State.unpinIdle_w : Nat := m_lines
theorem State.unpinIdle_keeps (s : State) : Keeps State.unpinIdle_w s (s.unpinIdle) := by
  unfold State.unpinIdle
  repeat' first
    | (extract_lets +onlyGivenNames x1; clear_value (hx : x1 = _); refine Keeps.cut x1 ?_ (fun h => ?_); rw [hx]; clear hx x1; rotate_left; clear hx; rotate_right)
    | (extract_lets +onlyGivenNames x1; clear_value (hx : x1 = _); refine Keeps.cut1 x1 ?_ (fun h => ?_); rw [hx]; clear hx x1; rotate_left; clear hx; rotate_right)
    | (extract_lets +onlyGivenNames x1; clear_value (hx : x1 = _); refine Keeps.cut2 x1 ?_ (fun h => ?_); rw [hx]; clear hx x1; rotate_left; clear hx; rotate_right)
    | (extract_lets +onlyGivenNames x1; clear_value (hx : x1 = _); clear hx)
    | with_reducible assumption
    | with_reducible exact Keeps.refl _ _
    | decide +kernel
    | with_reducible apply Keeps.iteA
    | with_reducible refine Keeps.trans ?_ (Keeps.c_lines _ ?_)

def State.pinEntry_w : Nat := fm F.SEQ_SSTAT_UNPINNED ||| m_lines
theorem State.pinEntry_keeps (s : State) (i n : Nat) : Keeps State.pinEntry_w s (s.pinEntry i n) := by
  unfold State.pinEntry
  repeat' first
    | (extract_lets +onlyGivenNames x1; clear_value (hx : x1 = _); refine Keeps.cut x1 ?_ (fun h => ?_); rw [hx]; clear hx x1; rotate_left; clear hx; rotate_right)
    | (extract_lets +onlyGivenNames x1; clear_value (hx : x1 = _); refine Keeps.cut1 x1 ?_ (fun h => ?_); rw [hx]; clear hx x1; rotate_left; clear hx; rotate_right)
    | (extract_lets +onlyGivenNames x1; clear_value (hx : x1 = _); refine Keeps.cut2 x1 ?_ (fun h => ?_); rw [hx]; clear hx x1; rotate_left; clear hx; rotate_right)
    | (extract_lets +onlyGivenNames x1; clear_value (hx : x1 = _); clear hx)
    | with_reducible assumption
    | with_reducible exact Keeps.refl _ _
    | decide +kernel
    | with_reducible apply Keeps.setBA
    | with_reducible apply Keeps.iteA
    | with_reducible refine Keeps.trans ?_ (Keeps.c_lines _ ?_)

def State.invalStart_w : Nat := fm F.PAN_INVAL_BUSY ||| fm H.PAN_INVAL_END ||| m_inval
theorem State.invalStart_keeps (s : State) (all : Bool) (p : Nat) : Keeps State.invalStart_w s (s.invalStart all p) := by
  unfold State.invalStart
  repeat' first
    | (extract_lets +onlyGivenNames x1; clear_value (hx : x1 = _); refine Keeps.cut x1 ?_ (fun h => ?_); rw [hx]; clear hx x1; rotate_left; clear hx; rotate_right)
    | (extract_lets +onlyGivenNames x1; clear_value (hx : x1 = _); refine Keeps.cut1 x1 ?_ (fun h => ?_); rw [hx]; clear hx x1; rotate_left; clear hx; rotate_right)
    | (extract_lets +onlyGivenNames x1; clear_value (hx : x1 = _); refine Keeps.cut2 x1 ?_ (fun h => ?_); rw [hx]; clear hx x1; rotate_left; clear hx; rotate_right)
    | (extract_lets +onlyGivenNames x1; clear_value (hx : x1 = _); clear hx)
    | with_reducible assumption
    | with_reducible exact Keeps.refl _ _
    | decide +kernel
    | with_reducible apply Keeps.setBA
    | with_reducible apply Keeps.setDueA
    | with_reducible apply Keeps.iteA
    | with_reducible refine Keeps.trans ?_ (Keeps.c_inval _ ?_)

def State.invalEnd_w : Nat := fm F.PAN_INVAL_BUSY ||| fm H.PAN_INVAL_END ||| m_lines ||| m_inval
theorem State.invalEnd_keeps (s : State) : Keeps State.invalEnd_w s (s.invalEnd) := by
  unfold State.invalEnd
  repeat' first
    | (extract_lets +onlyGivenNames x1; clear_value (hx : x1 = _); refine Keeps.cut x1 ?_ (fun h => ?_); rw [hx]; clear hx x1; rotate_left; clear hx; rotate_right)
    | (extract_lets +onlyGivenNames x1; clear_value (hx : x1 = _); refine Keeps.cut1 x1 ?_ (fun h => ?_); rw [hx]; clear hx x1; rotate_left; clear hx; rotate_right)
    | (extract_lets +onlyGivenNames x1; clear_value (hx : x1 = _); refine Keeps.cut2 x1 ?_ (fun h => ?_); rw [hx]; clear hx x1; rotate_left; clear hx; rotate_right)
    | (extract_lets +onlyGivenNames x1; clear_value (hx : x1 = _); clear hx)
    | with_reducible assumption
    | with_reducible exact Keeps.refl _ _
    | decide +kernel
    | with_reducible apply Keeps.setBA
    | with_reducible apply Keeps.noDueA
    | with_reducible refine Keeps.trans ?_ (Keeps.c_lines_inval _ _ ?_)

def State.dropPattern_w : Nat := m_lines
theorem State.dropPattern_keeps (s : State) (p : Nat) : Keeps State.dropPattern_w s (s.dropPattern p) := by
  unfold State.dropPattern
  repeat' first
    | with_reducible assumption
    | with_reducible exact Keeps.refl _ _
    | decide +kernel
    | with_reducible refine Keeps.trans ?_ (Keeps.c_lines _ ?_)

end Sys2Proof.Machine
end

