-- ==== Sys2Proof/Laws/KeepsCorrections.lean ====
section
/-!
SUPPORT. What every operation of Machine/Corrections.lean can change: its mask and its Keeps lemma.
-/

set_option Elab.async false
set_option linter.all false

namespace Sys2Proof.Machine

def State.corrPut1_w : Nat := m_corr
theorem State.corrPut1_keeps (s : State) (a : Nat) (b : Byte) : Keeps State.corrPut1_w s (s.corrPut1 a b) := by
  unfold State.corrPut1
  repeat' first
    | with_reducible assumption
    | with_reducible exact Keeps.refl _ _
    | decide +kernel
    | exact fun hw => by
        obtain ⟨w1, w2, w3, w4, w5, w6, w7, w8, w9, w10, w11⟩ := hw
        first | exact memSetBytes_wf _ _ _ ‹_› | exact memSetByte_wf _ _ _ ‹_› | exact memClear_wf _ _ _ ‹_› | exact keysRise_filter _ _ ‹_› | exact keysRise_insKey _ _ _ ‹_› | exact keysRise_storeKey _ _ _ ‹_› | exact storeWf_storeKey _ _ _ ‹_› | exact storeWf_filter _ _ ‹_› | rfl
    | with_reducible refine Keeps.trans ?_ (Keeps.c_corr _ ?_ ?_)

def State.corrPut_w : Nat := State.corrPut1_w
theorem State.corrPut_keeps (s : State) (a : Nat) (l : List Byte) : Keeps State.corrPut_w s (s.corrPut a l) := by
  unfold State.corrPut
  repeat' first
    | with_reducible assumption
    | with_reducible exact Keeps.refl _ _
    | decide +kernel
    | with_reducible refine Keeps.foldlA ?_ (fun _ _ => ?_)
    | with_reducible apply Keeps.via (State.corrPut1_keeps ..)

def State.calPend_w : Nat := m_corrPend
theorem State.calPend_keeps (s : State) (t : Nat) (p : PendCorr) : Keeps State.calPend_w s (s.calPend t p) := by
  unfold State.calPend
  repeat' first
    | with_reducible assumption
    | with_reducible exact Keeps.refl _ _
    | decide +kernel
    | with_reducible refine Keeps.trans ?_ (Keeps.c_corrPend _ ?_)

def State.calNote_w : Nat := fm F.TCAL_TJ_TJ_LEVEL ||| fm F.TCAL_TJ_TJ_DESKEW ||| fm F.TCAL_TJ_TJ_DPS ||| fm F.TCAL_TJ_TJ_SMU
theorem State.calNote_keeps (s : State) (t u flow tj : Nat) : Keeps State.calNote_w s (s.calNote t u flow tj) := by
  unfold State.calNote
  repeat' first
    | (extract_lets +onlyGivenNames x1; clear_value (hx : x1 = _); refine Keeps.cut x1 ?_ (fun h => ?_); rw [hx]; clear hx x1; rotate_left; clear hx; rotate_right)
    | (extract_lets +onlyGivenNames x1; clear_value (hx : x1 = _); refine Keeps.cut1 x1 ?_ (fun h => ?_); rw [hx]; clear hx x1; rotate_left; clear hx; rotate_right)
    | (extract_lets +onlyGivenNames x1; clear_value (hx : x1 = _); refine Keeps.cut2 x1 ?_ (fun h => ?_); rw [hx]; clear hx x1; rotate_left; clear hx; rotate_right)
    | (extract_lets +onlyGivenNames x1; clear_value (hx : x1 = _); clear hx)
    | with_reducible assumption
    | with_reducible exact Keeps.refl _ _
    | decide +kernel
    | with_reducible apply Keeps.putA
    | with_reducible apply Keeps.iteA
    | split

def State.calUse_w : Nat := fm F.CH_DSK_DSK_DRV ||| fm F.CH_DSK_DSK_CMP ||| fm H.CH_DSK_USE_DRV ||| fm H.CH_DSK_USE_CMP |||
    fm H.TDC_FACT1 ||| fm H.TDC_FACT2 ||| fm F.TDC_DSK_START_DSK ||| fm F.TDC_DSK_STOP_DSK
theorem State.calUse_keeps (s : State) (t u : Nat) (l : List Byte) : Keeps State.calUse_w s (s.calUse t u l) := by
  unfold State.calUse
  repeat' first
    | (extract_lets +onlyGivenNames x1; clear_value (hx : x1 = _); refine Keeps.cut x1 ?_ (fun h => ?_); rw [hx]; clear hx x1; rotate_left; clear hx; rotate_right)
    | (extract_lets +onlyGivenNames x1; clear_value (hx : x1 = _); refine Keeps.cut1 x1 ?_ (fun h => ?_); rw [hx]; clear hx x1; rotate_left; clear hx; rotate_right)
    | (extract_lets +onlyGivenNames x1; clear_value (hx : x1 = _); refine Keeps.cut2 x1 ?_ (fun h => ?_); rw [hx]; clear hx x1; rotate_left; clear hx; rotate_right)
    | (extract_lets +onlyGivenNames x1; clear_value (hx : x1 = _); clear hx)
    | with_reducible assumption
    | with_reducible exact Keeps.refl _ _
    | decide +kernel
    | with_reducible apply Keeps.putA
    | split

def State.calTake_w : Nat := fm F.TCAL_GEN_COUNT ||| fm H.CAL_MADE ||| State.corrPut_w ||| State.calUse_w |||
    State.levelNow_w ||| State.calNote_w
theorem State.calTake_keeps (s : State) (t : Nat) (p : PendCorr) : Keeps State.calTake_w s (s.calTake t p) := by
  unfold State.calTake
  repeat' first
    | (extract_lets +onlyGivenNames x1; clear_value (hx : x1 = _); refine Keeps.cut x1 ?_ (fun h => ?_); rw [hx]; clear hx x1; rotate_left; clear hx; rotate_right)
    | (extract_lets +onlyGivenNames x1; clear_value (hx : x1 = _); refine Keeps.cut1 x1 ?_ (fun h => ?_); rw [hx]; clear hx x1; rotate_left; clear hx; rotate_right)
    | (extract_lets +onlyGivenNames x1; clear_value (hx : x1 = _); refine Keeps.cut2 x1 ?_ (fun h => ?_); rw [hx]; clear hx x1; rotate_left; clear hx; rotate_right)
    | (extract_lets +onlyGivenNames x1; clear_value (hx : x1 = _); clear hx)
    | with_reducible assumption
    | with_reducible exact Keeps.refl _ _
    | decide +kernel
    | with_reducible apply Keeps.setBA
    | with_reducible apply Keeps.incWA
    | with_reducible apply Keeps.via (State.corrPut_keeps ..)
    | with_reducible apply Keeps.via (State.calUse_keeps ..)
    | with_reducible apply Keeps.via (State.levelNow_keeps ..)
    | with_reducible apply Keeps.via (State.calNote_keeps ..)
    | with_reducible apply Keeps.iteA

def State.calApply_w : Nat := m_corrPend ||| State.calTake_w
theorem State.calApply_keeps (s : State) (t : Nat) (ready : PendCorr → Bool) : Keeps State.calApply_w s (s.calApply t ready) := by
  unfold State.calApply
  repeat' first
    | (extract_lets +onlyGivenNames x1; clear_value (hx : x1 = _); refine Keeps.cut x1 ?_ (fun h => ?_); rw [hx]; clear hx x1; rotate_left; clear hx; rotate_right)
    | (extract_lets +onlyGivenNames x1; clear_value (hx : x1 = _); refine Keeps.cut1 x1 ?_ (fun h => ?_); rw [hx]; clear hx x1; rotate_left; clear hx; rotate_right)
    | (extract_lets +onlyGivenNames x1; clear_value (hx : x1 = _); refine Keeps.cut2 x1 ?_ (fun h => ?_); rw [hx]; clear hx x1; rotate_left; clear hx; rotate_right)
    | (extract_lets +onlyGivenNames x1; clear_value (hx : x1 = _); clear hx)
    | with_reducible assumption
    | with_reducible exact Keeps.refl _ _
    | decide +kernel
    | with_reducible refine Keeps.foldlA ?_ (fun _ _ => ?_)
    | with_reducible apply Keeps.via (State.calTake_keeps ..)
    | with_reducible refine Keeps.trans ?_ (Keeps.c_corrPend _ ?_)

def State.calSiteApply_w : Nat := State.calApply_w
theorem State.calSiteApply_keeps (s : State) (i : Nat) : Keeps State.calSiteApply_w s (s.calSiteApply i) := by
  unfold State.calSiteApply
  repeat' first
    | with_reducible assumption
    | with_reducible exact Keeps.refl _ _
    | decide +kernel
    | with_reducible apply Keeps.via (State.calApply_keeps ..)
    | split

end Sys2Proof.Machine
end

