-- ==== Sys2Proof/Laws/KeepsTiming.lean ====
section
/-!
SUPPORT. What every operation of Machine/Timing.lean can change: its mask and its Keeps lemma.
-/

set_option Elab.async false
set_option linter.all false

namespace Sys2Proof.Machine

def State.periodSet_w : Nat := fm F.TSET_PER_CYC_M1 ||| fm F.TSET_PER_FINE ||| fm F.SITE_TSTAT_PER_CLAMP
theorem State.periodSet_keeps (s : State) (i set v : Nat) : Keeps State.periodSet_w s (s.periodSet i set v) := by
  unfold State.periodSet
  repeat' first
    | (extract_lets +onlyGivenNames x1; clear_value (hx : x1 = _); refine Keeps.cut x1 ?_ (fun h => ?_); rw [hx]; clear hx x1; rotate_left; clear hx; rotate_right)
    | (extract_lets +onlyGivenNames x1; clear_value (hx : x1 = _); refine Keeps.cut1 x1 ?_ (fun h => ?_); rw [hx]; clear hx x1; rotate_left; clear hx; rotate_right)
    | (extract_lets +onlyGivenNames x1; clear_value (hx : x1 = _); refine Keeps.cut2 x1 ?_ (fun h => ?_); rw [hx]; clear hx x1; rotate_left; clear hx; rotate_right)
    | (extract_lets +onlyGivenNames x1; clear_value (hx : x1 = _); clear hx)
    | with_reducible assumption
    | with_reducible exact Keeps.refl _ _
    | decide +kernel
    | with_reducible apply Keeps.putA
    | with_reducible apply Keeps.setBA
    | with_reducible apply Keeps.iteA

def State.tsetUse_w : Nat := fm F.SITE_TCTRL_ACTIVE
theorem State.tsetUse_keeps (s : State) (i set : Nat) : Keeps State.tsetUse_w s (s.tsetUse i set) := by
  unfold State.tsetUse
  repeat' first
    | with_reducible assumption
    | with_reducible exact Keeps.refl _ _
    | decide +kernel
    | with_reducible apply Keeps.putA

def State.dskSet_w : Nat := fm F.CH_DSK_DSK_DRV ||| fm F.CH_DSK_DSK_CMP ||| fm H.CH_DSK_USE_DRV ||| fm H.CH_DSK_USE_CMP |||
    fm F.CH_DSK_PEND
theorem State.dskSet_keeps (s : State) (ch v : Nat) : Keeps State.dskSet_w s (s.dskSet ch v) := by
  unfold State.dskSet
  repeat' first
    | (extract_lets +onlyGivenNames x1; clear_value (hx : x1 = _); refine Keeps.cut x1 ?_ (fun h => ?_); rw [hx]; clear hx x1; rotate_left; clear hx; rotate_right)
    | (extract_lets +onlyGivenNames x1; clear_value (hx : x1 = _); refine Keeps.cut1 x1 ?_ (fun h => ?_); rw [hx]; clear hx x1; rotate_left; clear hx; rotate_right)
    | (extract_lets +onlyGivenNames x1; clear_value (hx : x1 = _); refine Keeps.cut2 x1 ?_ (fun h => ?_); rw [hx]; clear hx x1; rotate_left; clear hx; rotate_right)
    | (extract_lets +onlyGivenNames x1; clear_value (hx : x1 = _); clear hx)
    | with_reducible assumption
    | with_reducible exact Keeps.refl _ _
    | decide +kernel
    | with_reducible apply Keeps.putA
    | with_reducible apply Keeps.setBA
    | with_reducible apply Keeps.putIA
    | with_reducible apply Keeps.iteA
    | split

def State.dskTake_w : Nat := fm H.CH_DSK_USE_DRV ||| fm H.CH_DSK_USE_CMP ||| fm F.CH_DSK_PEND
theorem State.dskTake_keeps (s : State) (ch : Nat) : Keeps State.dskTake_w s (s.dskTake ch) := by
  unfold State.dskTake
  repeat' first
    | with_reducible assumption
    | with_reducible exact Keeps.refl _ _
    | decide +kernel
    | with_reducible apply Keeps.putA
    | with_reducible apply Keeps.setBA
    | with_reducible apply Keeps.iteA

def State.calBoundary_w : Nat := fm H.TPH_SITE_CORR ||| State.dskTake_w ||| State.calSiteApply_w
theorem State.calBoundary_keeps (s : State) (i : Nat) : Keeps State.calBoundary_w s (s.calBoundary i) := by
  unfold State.calBoundary
  repeat' first
    | with_reducible assumption
    | with_reducible exact Keeps.refl _ _
    | decide +kernel
    | with_reducible apply Keeps.putA
    | with_reducible refine Keeps.eachA ?_ (fun _ _ => ?_)
    | with_reducible apply Keeps.via (State.dskTake_keeps ..)
    | with_reducible apply Keeps.via (State.calSiteApply_keeps ..)
    | split

def State.tilePhase_w : Nat := fm F.TPH_STAT_ERR ||| fm F.TPH_CORR_CORR ||| fm F.TPH_STAT_OVER ||| fm H.TPH_SITE_CORR |||
    State.irq_w
theorem State.tilePhase_keeps (s : State) (t : Nat) (err corr : Int) : Keeps State.tilePhase_w s (s.tilePhase t err corr) := by
  unfold State.tilePhase
  repeat' first
    | (extract_lets +onlyGivenNames x1; clear_value (hx : x1 = _); refine Keeps.cut x1 ?_ (fun h => ?_); rw [hx]; clear hx x1; rotate_left; clear hx; rotate_right)
    | (extract_lets +onlyGivenNames x1; clear_value (hx : x1 = _); refine Keeps.cut1 x1 ?_ (fun h => ?_); rw [hx]; clear hx x1; rotate_left; clear hx; rotate_right)
    | (extract_lets +onlyGivenNames x1; clear_value (hx : x1 = _); refine Keeps.cut2 x1 ?_ (fun h => ?_); rw [hx]; clear hx x1; rotate_left; clear hx; rotate_right)
    | (extract_lets +onlyGivenNames x1; clear_value (hx : x1 = _); clear hx)
    | with_reducible assumption
    | with_reducible exact Keeps.refl _ _
    | decide +kernel
    | with_reducible apply Keeps.putA
    | with_reducible apply Keeps.setBA
    | with_reducible apply Keeps.putIA
    | with_reducible refine Keeps.eachA ?_ (fun _ _ => ?_)
    | with_reducible apply Keeps.via (State.irq_keeps ..)
    | with_reducible apply Keeps.iteA
    | split

def State.tbLoad_w : Nat := fm H.TB_ORIGIN ||| fm H.TB_EPOCH_SEEN
theorem State.tbLoad_keeps (s : State) (c t : Nat) : Keeps State.tbLoad_w s (s.tbLoad c t) := by
  unfold State.tbLoad
  repeat' first
    | (extract_lets +onlyGivenNames x1; clear_value (hx : x1 = _); refine Keeps.cut x1 ?_ (fun h => ?_); rw [hx]; clear hx x1; rotate_left; clear hx; rotate_right)
    | (extract_lets +onlyGivenNames x1; clear_value (hx : x1 = _); refine Keeps.cut1 x1 ?_ (fun h => ?_); rw [hx]; clear hx x1; rotate_left; clear hx; rotate_right)
    | (extract_lets +onlyGivenNames x1; clear_value (hx : x1 = _); refine Keeps.cut2 x1 ?_ (fun h => ?_); rw [hx]; clear hx x1; rotate_left; clear hx; rotate_right)
    | (extract_lets +onlyGivenNames x1; clear_value (hx : x1 = _); clear hx)
    | with_reducible assumption
    | with_reducible exact Keeps.refl _ _
    | decide +kernel
    | with_reducible apply Keeps.putA

def State.syncNext_w : Nat := fm F.SYNC_LOAD_LO_LOAD_LO ||| fm F.SYNC_LOAD_HI_LOAD_HI
theorem State.syncNext_keeps (s : State) : Keeps State.syncNext_w s (s.syncNext) := by
  unfold State.syncNext
  repeat' first
    | with_reducible assumption
    | with_reducible exact Keeps.refl _ _
    | decide +kernel
    | with_reducible apply Keeps.put2A

def State.syncEvent_w : Nat := fm F.SYNC_STAT_COUNT ||| fm F.SYNC_STAT_IGNORED ||| fm F.SYNC_STAT_LOADED |||
    fm F.SYNC_STAT_UNSYNCED ||| fm F.TB_CTRL_SYNC_MODE ||| fm F.SYNC_STAT_SLIP ||| fm F.SYNC_TS_LO_TS_LO |||
    fm F.SYNC_TS_HI_TS_HI ||| fm H.TB_RELOAD ||| m_now ||| State.irq_w ||| State.tbLoad_w ||| State.syncNext_w
theorem State.syncEvent_keeps (s : State) : Keeps State.syncEvent_w s (s.syncEvent) := by
  unfold State.syncEvent
  repeat' first
    | (extract_lets +onlyGivenNames x1; clear_value (hx : x1 = _); refine Keeps.cut x1 ?_ (fun h => ?_); rw [hx]; clear hx x1; rotate_left; clear hx; rotate_right)
    | (extract_lets +onlyGivenNames x1; clear_value (hx : x1 = _); refine Keeps.cut1 x1 ?_ (fun h => ?_); rw [hx]; clear hx x1; rotate_left; clear hx; rotate_right)
    | (extract_lets +onlyGivenNames x1; clear_value (hx : x1 = _); refine Keeps.cut2 x1 ?_ (fun h => ?_); rw [hx]; clear hx x1; rotate_left; clear hx; rotate_right)
    | (extract_lets +onlyGivenNames x1; clear_value (hx : x1 = _); clear hx)
    | with_reducible assumption
    | with_reducible exact Keeps.refl _ _
    | decide +kernel
    | with_reducible apply Keeps.putA
    | with_reducible apply Keeps.setBA
    | with_reducible apply Keeps.incWA
    | with_reducible apply Keeps.upToA
    | with_reducible apply Keeps.put2A
    | with_reducible apply Keeps.via (State.irq_keeps ..)
    | with_reducible apply Keeps.via (State.tbLoad_keeps ..)
    | with_reducible apply Keeps.via (State.syncNext_keeps ..)
    | with_reducible apply Keeps.iteA
    | split

def State.trigSchedule_w : Nat := fm F.TRIG_STAT_OVERRUN ||| fm F.TRIG_STAT_ACT_LATE ||| m_trigActs
theorem State.trigSchedule_keeps (s : State) (i t a : Nat) : Keeps State.trigSchedule_w s (s.trigSchedule i t a) := by
  unfold State.trigSchedule
  repeat' first
    | (extract_lets +onlyGivenNames x1; clear_value (hx : x1 = _); refine Keeps.cut x1 ?_ (fun h => ?_); rw [hx]; clear hx x1; rotate_left; clear hx; rotate_right)
    | (extract_lets +onlyGivenNames x1; clear_value (hx : x1 = _); refine Keeps.cut1 x1 ?_ (fun h => ?_); rw [hx]; clear hx x1; rotate_left; clear hx; rotate_right)
    | (extract_lets +onlyGivenNames x1; clear_value (hx : x1 = _); refine Keeps.cut2 x1 ?_ (fun h => ?_); rw [hx]; clear hx x1; rotate_left; clear hx; rotate_right)
    | (extract_lets +onlyGivenNames x1; clear_value (hx : x1 = _); clear hx)
    | with_reducible assumption
    | with_reducible exact Keeps.refl _ _
    | decide +kernel
    | with_reducible apply Keeps.setBA
    | with_reducible apply Keeps.iteA
    | with_reducible refine Keeps.trans ?_ (Keeps.c_trigActs _ ?_)

def State.trigRecord_w : Nat := fm F.TRIG_STAT_ARR_COUNT ||| fm H.ST_TRIG_ARR ||| fm F.TRIG_ARR_LO_A_LO |||
    fm F.TRIG_ARR_HI_A_HI ||| State.irq_w
theorem State.trigRecord_keeps (s : State) (i t : Nat) : Keeps State.trigRecord_w s (s.trigRecord i t) := by
  unfold State.trigRecord
  repeat' first
    | (extract_lets +onlyGivenNames x1; clear_value (hx : x1 = _); refine Keeps.cut x1 ?_ (fun h => ?_); rw [hx]; clear hx x1; rotate_left; clear hx; rotate_right)
    | (extract_lets +onlyGivenNames x1; clear_value (hx : x1 = _); refine Keeps.cut1 x1 ?_ (fun h => ?_); rw [hx]; clear hx x1; rotate_left; clear hx; rotate_right)
    | (extract_lets +onlyGivenNames x1; clear_value (hx : x1 = _); refine Keeps.cut2 x1 ?_ (fun h => ?_); rw [hx]; clear hx x1; rotate_left; clear hx; rotate_right)
    | (extract_lets +onlyGivenNames x1; clear_value (hx : x1 = _); clear hx)
    | with_reducible assumption
    | with_reducible exact Keeps.refl _ _
    | decide +kernel
    | with_reducible apply Keeps.setBA
    | with_reducible apply Keeps.incWA
    | with_reducible apply Keeps.put2A
    | with_reducible refine Keeps.eachA ?_ (fun _ _ => ?_)
    | with_reducible apply Keeps.via (State.irq_keeps ..)
    | with_reducible apply Keeps.iteA

def State.trigAccum_w : Nat := fm H.TRIG_ACC_STOP ||| fm F.TRIG_ACC_CNT_SAT ||| fm F.TRIG_ACC_SUM_SUM |||
    fm F.TRIG_ACC_CNT_CNT ||| fm H.TRIG_ACC_K ||| State.mean_w
theorem State.trigAccum_keeps (s : State) (i t : Nat) : Keeps State.trigAccum_w s (s.trigAccum i t) := by
  unfold State.trigAccum
  repeat' first
    | (extract_lets +onlyGivenNames x1; clear_value (hx : x1 = _); refine Keeps.cut x1 ?_ (fun h => ?_); rw [hx]; clear hx x1; rotate_left; clear hx; rotate_right)
    | (extract_lets +onlyGivenNames x1; clear_value (hx : x1 = _); refine Keeps.cut1 x1 ?_ (fun h => ?_); rw [hx]; clear hx x1; rotate_left; clear hx; rotate_right)
    | (extract_lets +onlyGivenNames x1; clear_value (hx : x1 = _); refine Keeps.cut2 x1 ?_ (fun h => ?_); rw [hx]; clear hx x1; rotate_left; clear hx; rotate_right)
    | (extract_lets +onlyGivenNames x1; clear_value (hx : x1 = _); clear hx)
    | with_reducible assumption
    | with_reducible exact Keeps.refl _ _
    | decide +kernel
    | with_reducible apply Keeps.putA
    | with_reducible apply Keeps.setBA
    | with_reducible apply Keeps.putIA
    | with_reducible apply Keeps.incWA
    | with_reducible apply Keeps.via (State.mean_keeps ..)
    | with_reducible apply Keeps.iteA

def State.trigArrive_w : Nat := m_now ||| State.trigRecord_w ||| State.trigAccum_w ||| State.trigSchedule_w
theorem State.trigArrive_keeps (s : State) (i t : Nat) : Keeps State.trigArrive_w s (s.trigArrive i t) := by
  unfold State.trigArrive
  repeat' first
    | (extract_lets +onlyGivenNames x1; clear_value (hx : x1 = _); refine Keeps.cut x1 ?_ (fun h => ?_); rw [hx]; clear hx x1; rotate_left; clear hx; rotate_right)
    | (extract_lets +onlyGivenNames x1; clear_value (hx : x1 = _); refine Keeps.cut1 x1 ?_ (fun h => ?_); rw [hx]; clear hx x1; rotate_left; clear hx; rotate_right)
    | (extract_lets +onlyGivenNames x1; clear_value (hx : x1 = _); refine Keeps.cut2 x1 ?_ (fun h => ?_); rw [hx]; clear hx x1; rotate_left; clear hx; rotate_right)
    | (extract_lets +onlyGivenNames x1; clear_value (hx : x1 = _); clear hx)
    | with_reducible assumption
    | with_reducible exact Keeps.refl _ _
    | decide +kernel
    | with_reducible apply Keeps.upToA
    | with_reducible apply Keeps.via (State.trigRecord_keeps ..)
    | with_reducible apply Keeps.via (State.trigAccum_keeps ..)
    | with_reducible apply Keeps.via (State.trigSchedule_keeps ..)

def State.trigPulse_w : Nat := State.trigRecord_w ||| State.trigSchedule_w
theorem State.trigPulse_keeps (s : State) (i t : Nat) : Keeps State.trigPulse_w s (s.trigPulse i t) := by
  unfold State.trigPulse
  repeat' first
    | with_reducible assumption
    | with_reducible exact Keeps.refl _ _
    | decide +kernel
    | with_reducible apply Keeps.via (State.trigRecord_keeps ..)
    | with_reducible apply Keeps.via (State.trigSchedule_keeps ..)
    | with_reducible apply Keeps.iteA

def State.trigArm_w : Nat := fm F.TRIG_FIRE_LO_F_LO ||| fm F.TRIG_STAT_ARMED ||| fm H.TRIG_LEFT |||
    fm F.TRIG_STAT_FIRE_LATE ||| fm H.TRIG_NEXT_T ||| State.bad_w ||| State.ok_w
theorem State.trigArm_keeps (s : State) (i v : Nat) : Keeps State.trigArm_w s (s.trigArm i v).1 := by
  unfold State.trigArm
  repeat' first
    | (extract_lets +onlyGivenNames x1; clear_value (hx : x1 = _); refine Keeps.cut x1 ?_ (fun h => ?_); rw [hx]; clear hx x1; rotate_left; clear hx; rotate_right)
    | (extract_lets +onlyGivenNames x1; clear_value (hx : x1 = _); refine Keeps.cut1 x1 ?_ (fun h => ?_); rw [hx]; clear hx x1; rotate_left; clear hx; rotate_right)
    | (extract_lets +onlyGivenNames x1; clear_value (hx : x1 = _); refine Keeps.cut2 x1 ?_ (fun h => ?_); rw [hx]; clear hx x1; rotate_left; clear hx; rotate_right)
    | (extract_lets +onlyGivenNames x1; clear_value (hx : x1 = _); clear hx)
    | with_reducible assumption
    | with_reducible exact Keeps.refl _ _
    | decide +kernel
    | with_reducible apply Keeps.putA
    | with_reducible apply Keeps.setBA
    | with_reducible apply Keeps.via (State.bad_keeps ..)
    | with_reducible apply Keeps.via (State.ok_keeps ..)
    | with_reducible apply Keeps.iteA
    | with_reducible apply Keeps.ite1

def State.trigEmit_w : Nat := fm H.TRIG_LEFT ||| fm H.TRIG_NEXT_T ||| fm F.TRIG_STAT_ARMED ||| m_now ||| State.trigPulse_w
theorem State.trigEmit_keeps (s : State) (i : Nat) : Keeps State.trigEmit_w s (s.trigEmit i) := by
  unfold State.trigEmit
  repeat' first
    | (extract_lets +onlyGivenNames x1; clear_value (hx : x1 = _); refine Keeps.cut x1 ?_ (fun h => ?_); rw [hx]; clear hx x1; rotate_left; clear hx; rotate_right)
    | (extract_lets +onlyGivenNames x1; clear_value (hx : x1 = _); refine Keeps.cut1 x1 ?_ (fun h => ?_); rw [hx]; clear hx x1; rotate_left; clear hx; rotate_right)
    | (extract_lets +onlyGivenNames x1; clear_value (hx : x1 = _); refine Keeps.cut2 x1 ?_ (fun h => ?_); rw [hx]; clear hx x1; rotate_left; clear hx; rotate_right)
    | (extract_lets +onlyGivenNames x1; clear_value (hx : x1 = _); clear hx)
    | with_reducible assumption
    | with_reducible exact Keeps.refl _ _
    | decide +kernel
    | with_reducible apply Keeps.putA
    | with_reducible apply Keeps.setBA
    | with_reducible apply Keeps.upToA
    | with_reducible apply Keeps.via (State.trigPulse_keeps ..)
    | with_reducible apply Keeps.iteA

def State.trigAccSet_w : Nat := fm F.TRIG_ACC_CTRL_EN ||| fm F.TRIG_ACC_CTRL_WIN ||| fm F.TRIG_ACC_CTRL_STEP |||
    fm F.TRIG_ACC_SUM_SUM ||| fm F.TRIG_ACC_CNT_CNT ||| fm H.TRIG_ACC_STOP ||| fm H.TRIG_ACC_K
theorem State.trigAccSet_keeps (s : State) (i v : Nat) : Keeps State.trigAccSet_w s (s.trigAccSet i v) := by
  unfold State.trigAccSet
  repeat' first
    | (extract_lets +onlyGivenNames x1; clear_value (hx : x1 = _); refine Keeps.cut x1 ?_ (fun h => ?_); rw [hx]; clear hx x1; rotate_left; clear hx; rotate_right)
    | (extract_lets +onlyGivenNames x1; clear_value (hx : x1 = _); refine Keeps.cut1 x1 ?_ (fun h => ?_); rw [hx]; clear hx x1; rotate_left; clear hx; rotate_right)
    | (extract_lets +onlyGivenNames x1; clear_value (hx : x1 = _); refine Keeps.cut2 x1 ?_ (fun h => ?_); rw [hx]; clear hx x1; rotate_left; clear hx; rotate_right)
    | (extract_lets +onlyGivenNames x1; clear_value (hx : x1 = _); clear hx)
    | with_reducible assumption
    | with_reducible exact Keeps.refl _ _
    | decide +kernel
    | with_reducible apply Keeps.putA
    | with_reducible apply Keeps.setBA
    | with_reducible apply Keeps.iteA

def State.offsetSet_w : Nat := fm F.CHIP_OFFSET_OFFSET ||| fm F.SKEW_CAL_TJ ||| fm F.SKEW_CAL_DRIFT ||| State.bad_w |||
    State.ok_w
theorem State.offsetSet_keeps (s : State) (v : Nat) : Keeps State.offsetSet_w s (s.offsetSet v).1 := by
  unfold State.offsetSet
  repeat' first
    | (extract_lets +onlyGivenNames x1; clear_value (hx : x1 = _); refine Keeps.cut x1 ?_ (fun h => ?_); rw [hx]; clear hx x1; rotate_left; clear hx; rotate_right)
    | (extract_lets +onlyGivenNames x1; clear_value (hx : x1 = _); refine Keeps.cut1 x1 ?_ (fun h => ?_); rw [hx]; clear hx x1; rotate_left; clear hx; rotate_right)
    | (extract_lets +onlyGivenNames x1; clear_value (hx : x1 = _); refine Keeps.cut2 x1 ?_ (fun h => ?_); rw [hx]; clear hx x1; rotate_left; clear hx; rotate_right)
    | (extract_lets +onlyGivenNames x1; clear_value (hx : x1 = _); clear hx)
    | with_reducible assumption
    | with_reducible exact Keeps.refl _ _
    | decide +kernel
    | with_reducible apply Keeps.putA
    | with_reducible apply Keeps.setBA
    | with_reducible apply Keeps.putIA
    | with_reducible refine Keeps.foldlA ?_ (fun _ _ => ?_)
    | with_reducible apply Keeps.via (State.bad_keeps ..)
    | with_reducible apply Keeps.via (State.ok_keeps ..)
    | with_reducible apply Keeps.iteA
    | with_reducible apply Keeps.ite1

def State.driftCheck_w : Nat := fm F.SKEW_CAL_DRIFT ||| State.irq_w
theorem State.driftCheck_keeps (s : State) (tj : Int) : Keeps State.driftCheck_w s (s.driftCheck tj) := by
  unfold State.driftCheck
  repeat' first
    | (extract_lets +onlyGivenNames x1; clear_value (hx : x1 = _); refine Keeps.cut x1 ?_ (fun h => ?_); rw [hx]; clear hx x1; rotate_left; clear hx; rotate_right)
    | (extract_lets +onlyGivenNames x1; clear_value (hx : x1 = _); refine Keeps.cut1 x1 ?_ (fun h => ?_); rw [hx]; clear hx x1; rotate_left; clear hx; rotate_right)
    | (extract_lets +onlyGivenNames x1; clear_value (hx : x1 = _); refine Keeps.cut2 x1 ?_ (fun h => ?_); rw [hx]; clear hx x1; rotate_left; clear hx; rotate_right)
    | (extract_lets +onlyGivenNames x1; clear_value (hx : x1 = _); clear hx)
    | with_reducible assumption
    | with_reducible exact Keeps.refl _ _
    | decide +kernel
    | with_reducible apply Keeps.setBA
    | with_reducible apply Keeps.via (State.irq_keeps ..)
    | with_reducible apply Keeps.iteA

def State.trigCancel_w : Nat := fm F.TRIG_STAT_ARMED ||| m_trigActs
theorem State.trigCancel_keeps (s : State) : Keeps State.trigCancel_w s (s.trigCancel) := by
  unfold State.trigCancel
  repeat' first
    | with_reducible assumption
    | with_reducible exact Keeps.refl _ _
    | decide +kernel
    | with_reducible apply Keeps.setBA
    | with_reducible refine Keeps.eachA ?_ (fun _ _ => ?_)
    | with_reducible refine Keeps.trans ?_ (Keeps.c_trigActs _ ?_)

end Sys2Proof.Machine
end

