-- ==== Sys2Proof/Laws/KeepsSequencer.lean ====
section
/-!
SUPPORT. What every operation of Machine/Sequencer.lean can change: its mask and its Keeps lemma.
-/

set_option Elab.async false
set_option linter.all false

namespace Sys2Proof.Machine

def State.jumpRequest_w : Nat := fm F.SEQ_JUMP_REQ_PENDING ||| fm F.SEQ_JUMP_REQ_JUMP_LATE
theorem State.jumpRequest_keeps (s : State) (i : Nat) : Keeps State.jumpRequest_w s (s.jumpRequest i) := by
  unfold State.jumpRequest
  repeat' first
    | (extract_lets +onlyGivenNames x1; clear_value (hx : x1 = _); refine Keeps.cut x1 ?_ (fun h => ?_); rw [hx]; clear hx x1; rotate_left; clear hx; rotate_right)
    | (extract_lets +onlyGivenNames x1; clear_value (hx : x1 = _); refine Keeps.cut1 x1 ?_ (fun h => ?_); rw [hx]; clear hx x1; rotate_left; clear hx; rotate_right)
    | (extract_lets +onlyGivenNames x1; clear_value (hx : x1 = _); refine Keeps.cut2 x1 ?_ (fun h => ?_); rw [hx]; clear hx x1; rotate_left; clear hx; rotate_right)
    | (extract_lets +onlyGivenNames x1; clear_value (hx : x1 = _); clear hx)
    | with_reducible assumption
    | with_reducible exact Keeps.refl _ _
    | decide +kernel
    | with_reducible apply Keeps.setBA
    | with_reducible apply Keeps.iteA

def State.jumpCancel_w : Nat := fm F.SEQ_JUMP_REQ_PENDING
theorem State.jumpCancel_keeps (s : State) (i : Nat) : Keeps State.jumpCancel_w s (s.jumpCancel i) := by
  unfold State.jumpCancel
  repeat' first
    | with_reducible assumption
    | with_reducible exact Keeps.refl _ _
    | decide +kernel
    | with_reducible apply Keeps.setBA

def State.waveJump_w : Nat := fm F.SMUW_JUMP_REQ_PENDING ||| fm F.SMUW_JUMP_REQ_JUMP_LATE
theorem State.waveJump_keeps (s : State) (u : Nat) : Keeps State.waveJump_w s (s.waveJump u) := by
  unfold State.waveJump
  repeat' first
    | (extract_lets +onlyGivenNames x1; clear_value (hx : x1 = _); refine Keeps.cut x1 ?_ (fun h => ?_); rw [hx]; clear hx x1; rotate_left; clear hx; rotate_right)
    | (extract_lets +onlyGivenNames x1; clear_value (hx : x1 = _); refine Keeps.cut1 x1 ?_ (fun h => ?_); rw [hx]; clear hx x1; rotate_left; clear hx; rotate_right)
    | (extract_lets +onlyGivenNames x1; clear_value (hx : x1 = _); refine Keeps.cut2 x1 ?_ (fun h => ?_); rw [hx]; clear hx x1; rotate_left; clear hx; rotate_right)
    | (extract_lets +onlyGivenNames x1; clear_value (hx : x1 = _); clear hx)
    | with_reducible assumption
    | with_reducible exact Keeps.refl _ _
    | decide +kernel
    | with_reducible apply Keeps.setBA
    | with_reducible apply Keeps.iteA

def State.waveJumpCancel_w : Nat := fm F.SMUW_JUMP_REQ_PENDING
theorem State.waveJumpCancel_keeps (s : State) (u : Nat) : Keeps State.waveJumpCancel_w s (s.waveJumpCancel u) := by
  unfold State.waveJumpCancel
  repeat' first
    | with_reducible assumption
    | with_reducible exact Keeps.refl _ _
    | decide +kernel
    | with_reducible apply Keeps.setBA

def State.waveStallEnd_w : Nat := fm H.SW_STALL_N ||| State.recAppend_w
theorem State.waveStallEnd_keeps (s : State) (u flags : Nat) : Keeps State.waveStallEnd_w s (s.waveStallEnd u flags) := by
  unfold State.waveStallEnd
  repeat' first
    | with_reducible assumption
    | with_reducible exact Keeps.refl _ _
    | decide +kernel
    | with_reducible apply Keeps.putA
    | with_reducible apply Keeps.via (State.recAppend_keeps ..)
    | with_reducible apply Keeps.iteA

def State.waveStop_w : Nat := State.waveStallEnd_w ||| State.smuHold_w
theorem State.waveStop_keeps (s : State) (u : Nat) : Keeps State.waveStop_w s (s.waveStop u) := by
  unfold State.waveStop
  repeat' first
    | with_reducible assumption
    | with_reducible exact Keeps.refl _ _
    | decide +kernel
    | with_reducible apply Keeps.via (State.waveStallEnd_keeps ..)
    | with_reducible apply Keeps.via (State.smuHold_keeps ..)

def State.waveStart_w : Nat := fm F.SMUW_CUR_ENTRY ||| fm F.SMUW_CUR_PLAYING ||| fm F.SMUW_CUR_CHAIN_DONE ||| fm H.SW_POS |||
    fm H.SW_PASS ||| fm H.SW_DECIDED ||| fm H.SW_JUMP ||| fm H.SW_NEXT_T ||| fm H.SW_SAMPLES ||| fm H.SW_STARTED |||
    fm F.SMU_CTRL_SRC ||| fm F.SMUW_JUMP_REQ_PENDING ||| m_waveBuf ||| State.waveStallEnd_w
theorem State.waveStart_keeps (s : State) (u entry t : Nat) : Keeps State.waveStart_w s (s.waveStart u entry t) := by
  unfold State.waveStart
  repeat' first
    | (extract_lets +onlyGivenNames x1; clear_value (hx : x1 = _); refine Keeps.cut x1 ?_ (fun h => ?_); rw [hx]; clear hx x1; rotate_left; clear hx; rotate_right)
    | (extract_lets +onlyGivenNames x1; clear_value (hx : x1 = _); refine Keeps.cut1 x1 ?_ (fun h => ?_); rw [hx]; clear hx x1; rotate_left; clear hx; rotate_right)
    | (extract_lets +onlyGivenNames x1; clear_value (hx : x1 = _); refine Keeps.cut2 x1 ?_ (fun h => ?_); rw [hx]; clear hx x1; rotate_left; clear hx; rotate_right)
    | (extract_lets +onlyGivenNames x1; clear_value (hx : x1 = _); clear hx)
    | with_reducible assumption
    | with_reducible exact Keeps.refl _ _
    | decide +kernel
    | with_reducible apply Keeps.putA
    | with_reducible apply Keeps.setBA
    | with_reducible apply Keeps.via (State.waveStallEnd_keeps ..)
    | with_reducible refine Keeps.trans ?_ (Keeps.c_waveBuf _ ?_)

def State.noteBad_w : Nat := fm F.SEQ_ERR_ENTRY ||| fm F.SEQ_ERR_REASON ||| fm F.SEQ_ERR_SITE |||
    fm F.SEQ_SSTAT_WIDTH_ERR ||| fm F.SEQ_SSTAT_ENTRY_ERR
theorem State.noteBad_keeps (s : State) (i entry reason : Nat) : Keeps State.noteBad_w s (s.noteBad i entry reason) := by
  unfold State.noteBad
  repeat' first
    | (extract_lets +onlyGivenNames x1; clear_value (hx : x1 = _); refine Keeps.cut x1 ?_ (fun h => ?_); rw [hx]; clear hx x1; rotate_left; clear hx; rotate_right)
    | (extract_lets +onlyGivenNames x1; clear_value (hx : x1 = _); refine Keeps.cut1 x1 ?_ (fun h => ?_); rw [hx]; clear hx x1; rotate_left; clear hx; rotate_right)
    | (extract_lets +onlyGivenNames x1; clear_value (hx : x1 = _); refine Keeps.cut2 x1 ?_ (fun h => ?_); rw [hx]; clear hx x1; rotate_left; clear hx; rotate_right)
    | (extract_lets +onlyGivenNames x1; clear_value (hx : x1 = _); clear hx)
    | with_reducible assumption
    | with_reducible exact Keeps.refl _ _
    | decide +kernel
    | with_reducible apply Keeps.putA
    | with_reducible apply Keeps.setBA
    | with_reducible apply Keeps.iteA

def State.waveDecide_w : Nat := fm H.SW_DECIDED ||| fm F.SMUW_JUMP_REQ_PENDING ||| fm H.SW_JUMP
theorem State.waveDecide_keeps (s : State) (u : Nat) : Keeps State.waveDecide_w s (s.waveDecide u) := by
  unfold State.waveDecide
  repeat' first
    | (extract_lets +onlyGivenNames x1; clear_value (hx : x1 = _); refine Keeps.cut x1 ?_ (fun h => ?_); rw [hx]; clear hx x1; rotate_left; clear hx; rotate_right)
    | (extract_lets +onlyGivenNames x1; clear_value (hx : x1 = _); refine Keeps.cut1 x1 ?_ (fun h => ?_); rw [hx]; clear hx x1; rotate_left; clear hx; rotate_right)
    | (extract_lets +onlyGivenNames x1; clear_value (hx : x1 = _); refine Keeps.cut2 x1 ?_ (fun h => ?_); rw [hx]; clear hx x1; rotate_left; clear hx; rotate_right)
    | (extract_lets +onlyGivenNames x1; clear_value (hx : x1 = _); clear hx)
    | with_reducible assumption
    | with_reducible exact Keeps.refl _ _
    | decide +kernel
    | with_reducible apply Keeps.putA
    | with_reducible apply Keeps.setBA
    | with_reducible apply Keeps.iteA

def State.wavePassEnd_w : Nat := fm F.SMUW_CUR_CHAIN_DONE ||| fm H.SW_PASS ||| fm F.SMUW_CUR_ENTRY ||| fm H.SW_POS |||
    fm H.SW_DECIDED ||| fm H.SW_JUMP ||| State.smuHold_w ||| State.noteBad_w ||| State.seqStop_w
theorem State.wavePassEnd_keeps (s : State) (u : Nat) : Keeps State.wavePassEnd_w s (s.wavePassEnd u) := by
  unfold State.wavePassEnd
  repeat' first
    | (extract_lets +onlyGivenNames x1; clear_value (hx : x1 = _); refine Keeps.cut x1 ?_ (fun h => ?_); rw [hx]; clear hx x1; rotate_left; clear hx; rotate_right)
    | (extract_lets +onlyGivenNames x1; clear_value (hx : x1 = _); refine Keeps.cut1 x1 ?_ (fun h => ?_); rw [hx]; clear hx x1; rotate_left; clear hx; rotate_right)
    | (extract_lets +onlyGivenNames x1; clear_value (hx : x1 = _); refine Keeps.cut2 x1 ?_ (fun h => ?_); rw [hx]; clear hx x1; rotate_left; clear hx; rotate_right)
    | (extract_lets +onlyGivenNames x1; clear_value (hx : x1 = _); clear hx)
    | with_reducible assumption
    | with_reducible exact Keeps.refl _ _
    | decide +kernel
    | with_reducible apply Keeps.putA
    | with_reducible apply Keeps.setBA
    | with_reducible apply Keeps.via (State.smuHold_keeps ..)
    | with_reducible apply Keeps.via (State.noteBad_keeps ..)
    | with_reducible apply Keeps.via (State.seqStop_keeps ..)
    | with_reducible apply Keeps.iteA

def State.underrunCount_w : Nat := fm F.SEQ_SSTAT_UNDERRUNS ||| fm F.PAN_UNDERRUN_COUNT ||| State.irq_w
theorem State.underrunCount_keeps (s : State) (i : Nat) : Keeps State.underrunCount_w s (s.underrunCount i) := by
  unfold State.underrunCount
  repeat' first
    | with_reducible assumption
    | with_reducible exact Keeps.refl _ _
    | decide +kernel
    | with_reducible apply Keeps.incSatA
    | with_reducible apply Keeps.via (State.irq_keeps ..)

def State.waveMissing_w : Nat := fm H.SW_STALL_VEC ||| fm H.SW_STALL_TS ||| fm H.SW_STALL_T0 |||
    fm F.SEQ_SSTAT_TIMING_BROKEN ||| fm H.SW_STALL_N ||| fm H.SW_NEXT_T ||| State.underrunCount_w ||| State.smuHold_w |||
    State.seqStop_w ||| State.waveStallEnd_w
theorem State.waveMissing_keeps (s : State) (u interval : Nat) : Keeps State.waveMissing_w s (s.waveMissing u interval) := by
  unfold State.waveMissing
  repeat' first
    | (extract_lets +onlyGivenNames x1; clear_value (hx : x1 = _); refine Keeps.cut x1 ?_ (fun h => ?_); rw [hx]; clear hx x1; rotate_left; clear hx; rotate_right)
    | (extract_lets +onlyGivenNames x1; clear_value (hx : x1 = _); refine Keeps.cut1 x1 ?_ (fun h => ?_); rw [hx]; clear hx x1; rotate_left; clear hx; rotate_right)
    | (extract_lets +onlyGivenNames x1; clear_value (hx : x1 = _); refine Keeps.cut2 x1 ?_ (fun h => ?_); rw [hx]; clear hx x1; rotate_left; clear hx; rotate_right)
    | (extract_lets +onlyGivenNames x1; clear_value (hx : x1 = _); clear hx)
    | with_reducible assumption
    | with_reducible exact Keeps.refl _ _
    | decide +kernel
    | with_reducible apply Keeps.putA
    | with_reducible apply Keeps.setBA
    | with_reducible apply Keeps.via (State.underrunCount_keeps ..)
    | with_reducible apply Keeps.via (State.smuHold_keeps ..)
    | with_reducible apply Keeps.via (State.seqStop_keeps ..)
    | with_reducible apply Keeps.via (State.waveStallEnd_keeps ..)
    | with_reducible apply Keeps.iteA

def State.wavePut_w : Nat := fm H.SMU_DAC ||| fm F.SMU_STAT_CLAMP
theorem State.wavePut_keeps (s : State) (u v : Nat) : Keeps State.wavePut_w s (s.wavePut u v) := by
  unfold State.wavePut
  repeat' first
    | (extract_lets +onlyGivenNames x1; clear_value (hx : x1 = _); refine Keeps.cut x1 ?_ (fun h => ?_); rw [hx]; clear hx x1; rotate_left; clear hx; rotate_right)
    | (extract_lets +onlyGivenNames x1; clear_value (hx : x1 = _); refine Keeps.cut1 x1 ?_ (fun h => ?_); rw [hx]; clear hx x1; rotate_left; clear hx; rotate_right)
    | (extract_lets +onlyGivenNames x1; clear_value (hx : x1 = _); refine Keeps.cut2 x1 ?_ (fun h => ?_); rw [hx]; clear hx x1; rotate_left; clear hx; rotate_right)
    | (extract_lets +onlyGivenNames x1; clear_value (hx : x1 = _); clear hx)
    | with_reducible assumption
    | with_reducible exact Keeps.refl _ _
    | decide +kernel
    | with_reducible apply Keeps.setBA
    | with_reducible apply Keeps.putIA
    | with_reducible apply Keeps.iteA

def State.waveSample_w : Nat := fm F.SEQ_SSTAT_DECODE_ERR ||| fm H.SW_SAMPLES ||| fm H.SW_POS ||| fm H.SW_NEXT_T |||
    m_now ||| m_waveBuf ||| State.wavePassEnd_w ||| State.waveMissing_w ||| State.bad_w ||| State.waveStop_w |||
    State.seqStop_w ||| State.waveStallEnd_w ||| State.wavePut_w ||| State.waveDecide_w
theorem State.waveSample_keeps (s : State) (u : Nat) : Keeps State.waveSample_w s (s.waveSample u) := by
  unfold State.waveSample
  repeat' first
    | (extract_lets +onlyGivenNames x1; clear_value (hx : x1 = _); refine Keeps.cut x1 ?_ (fun h => ?_); rw [hx]; clear hx x1; rotate_left; clear hx; rotate_right)
    | (extract_lets +onlyGivenNames x1; clear_value (hx : x1 = _); refine Keeps.cut1 x1 ?_ (fun h => ?_); rw [hx]; clear hx x1; rotate_left; clear hx; rotate_right)
    | (extract_lets +onlyGivenNames x1; clear_value (hx : x1 = _); refine Keeps.cut2 x1 ?_ (fun h => ?_); rw [hx]; clear hx x1; rotate_left; clear hx; rotate_right)
    | (extract_lets +onlyGivenNames x1; clear_value (hx : x1 = _); clear hx)
    | with_reducible assumption
    | with_reducible exact Keeps.refl _ _
    | decide +kernel
    | with_reducible apply Keeps.putA
    | with_reducible apply Keeps.setBA
    | with_reducible apply Keeps.incWA
    | with_reducible apply Keeps.upToA
    | with_reducible apply Keeps.via (State.wavePassEnd_keeps ..)
    | with_reducible apply Keeps.via (State.waveMissing_keeps ..)
    | with_reducible apply Keeps.via (State.bad_keeps ..)
    | with_reducible apply Keeps.via (State.waveStop_keeps ..)
    | with_reducible apply Keeps.via (State.seqStop_keeps ..)
    | with_reducible apply Keeps.via (State.waveStallEnd_keeps ..)
    | with_reducible apply Keeps.via (State.wavePut_keeps ..)
    | with_reducible apply Keeps.via (State.waveDecide_keeps ..)
    | with_reducible apply Keeps.iteA
    | split
    | with_reducible refine Keeps.trans ?_ (Keeps.c_waveBuf _ ?_)

def State.edgeAct_w : Nat := fm H.CH_TERM_ON ||| fm H.CH_DRV_ON ||| fm H.CH_DRV_LVL
theorem State.edgeAct_keeps (s : State) (ball c e : Nat) : Keeps State.edgeAct_w s (s.edgeAct ball c e) := by
  unfold State.edgeAct
  repeat' first
    | (extract_lets +onlyGivenNames x1; clear_value (hx : x1 = _); refine Keeps.cut x1 ?_ (fun h => ?_); rw [hx]; clear hx x1; rotate_left; clear hx; rotate_right)
    | (extract_lets +onlyGivenNames x1; clear_value (hx : x1 = _); refine Keeps.cut1 x1 ?_ (fun h => ?_); rw [hx]; clear hx x1; rotate_left; clear hx; rotate_right)
    | (extract_lets +onlyGivenNames x1; clear_value (hx : x1 = _); refine Keeps.cut2 x1 ?_ (fun h => ?_); rw [hx]; clear hx x1; rotate_left; clear hx; rotate_right)
    | (extract_lets +onlyGivenNames x1; clear_value (hx : x1 = _); clear hx)
    | with_reducible assumption
    | with_reducible exact Keeps.refl _ _
    | decide +kernel
    | with_reducible apply Keeps.setBA
    | with_reducible apply Keeps.iteA
    | split

def State.playDrive_w : Nat := fm F.SITE_TSTAT_EDGE_RANGE ||| fm F.SITE_TSTAT_EDGE_ORDER ||| fm F.CH_STAT_CODE_ERR |||
    fm H.CH_TERM_ON ||| State.edgeAct_w
theorem State.playDrive_keeps (s : State) (i ball ch set lim c : Nat) : Keeps State.playDrive_w s (s.playDrive i ball ch set lim c) := by
  unfold State.playDrive
  repeat' first
    | (extract_lets +onlyGivenNames x1; clear_value (hx : x1 = _); refine Keeps.cut x1 ?_ (fun h => ?_); rw [hx]; clear hx x1; rotate_left; clear hx; rotate_right)
    | (extract_lets +onlyGivenNames x1; clear_value (hx : x1 = _); refine Keeps.cut1 x1 ?_ (fun h => ?_); rw [hx]; clear hx x1; rotate_left; clear hx; rotate_right)
    | (extract_lets +onlyGivenNames x1; clear_value (hx : x1 = _); refine Keeps.cut2 x1 ?_ (fun h => ?_); rw [hx]; clear hx x1; rotate_left; clear hx; rotate_right)
    | (extract_lets +onlyGivenNames x1; clear_value (hx : x1 = _); clear hx)
    | with_reducible assumption
    | with_reducible exact Keeps.refl _ _
    | decide +kernel
    | with_reducible apply Keeps.setBA
    | with_reducible refine Keeps.eachA ?_ (fun _ _ => ?_)
    | with_reducible apply Keeps.via (State.edgeAct_keeps ..)
    | with_reducible apply Keeps.iteA

def State.playPins_w : Nat := State.playDrive_w
theorem State.playPins_keeps (s : State) (i set p : Nat) (codes : List (Nat × Nat)) : Keeps State.playPins_w s (s.playPins i set p codes) := by
  unfold State.playPins
  repeat' first
    | with_reducible assumption
    | with_reducible exact Keeps.refl _ _
    | decide +kernel
    | with_reducible refine Keeps.eachA ?_ (fun _ _ => ?_)
    | with_reducible apply Keeps.via (State.playDrive_keeps ..)
    | with_reducible apply Keeps.iteA

def State.failPush_w : Nat := fm H.ST_PUSH_WAIT ||| fm H.ST_PUSHED ||| State.dqPush_w
theorem State.failPush_keeps (s : State) (i : Nat) (rest : Bool) : Keeps State.failPush_w s (s.failPush i rest) := by
  unfold State.failPush
  repeat' first
    | (extract_lets +onlyGivenNames x1; clear_value (hx : x1 = _); refine Keeps.cut x1 ?_ (fun h => ?_); rw [hx]; clear hx x1; rotate_left; clear hx; rotate_right)
    | (extract_lets +onlyGivenNames x1; clear_value (hx : x1 = _); refine Keeps.cut1 x1 ?_ (fun h => ?_); rw [hx]; clear hx x1; rotate_left; clear hx; rotate_right)
    | (extract_lets +onlyGivenNames x1; clear_value (hx : x1 = _); refine Keeps.cut2 x1 ?_ (fun h => ?_); rw [hx]; clear hx x1; rotate_left; clear hx; rotate_right)
    | (extract_lets +onlyGivenNames x1; clear_value (hx : x1 = _); clear hx)
    | with_reducible assumption
    | with_reducible exact Keeps.refl _ _
    | decide +kernel
    | with_reducible apply Keeps.putA
    | with_reducible apply Keeps.via (State.dqPush_keeps ..)
    | with_reducible apply Keeps.iteA

def State.failDrain_w : Nat := m_failq ||| fm F.SITE_FAILSTORED_COUNT ||| fm H.ST_FAIL_LIMIT ||| State.celStore_w ||| State.failPush_w
theorem State.failDrain_keeps (s : State) (i : Nat) (e : SiteEntry) (l : List (Nat × Nat)) :
    Keeps State.failDrain_w s (s.failDrain i e l) := by
  induction l generalizing s with
  | nil => exact Keeps.c_failq _ (by decide +kernel)
  | cons x xs ih =>
    have hr : Keeps State.failDrain_w s (s.celStore clsHearth (celOff e.failBase + s.get F.SITE_FAILSTORED_COUNT i * 16)
        (leBytes 8 x.1 ++ leBytes 8 x.2)).1 := (State.celStore_keeps ..).mono (by decide +kernel)
    rw [State.failDrain]
    refine Keeps.iteA ((Keeps.setBA (by decide +kernel) (Keeps.refl _ _)).trans (ih _)) (Keeps.iteA ?_ ?_)
    · exact (Keeps.via (State.failPush_keeps ..) (by decide +kernel) (Keeps.putA (by decide +kernel) hr)).trans (ih _)
    · exact hr.trans (Keeps.c_failq _ (by decide +kernel))

def State.failCapture_w : Nat := fm F.SITE_FSIG_FSIG ||| fm H.ST_FAIL_LIMIT ||| fm H.ST_FAIL_OVF ||| State.failDrain_w
theorem State.failCapture_keeps (s : State) (i vec mask : Nat) : Keeps State.failCapture_w s (s.failCapture i vec mask) := by
  unfold State.failCapture
  repeat' first
    | (extract_lets +onlyGivenNames x1; clear_value (hx : x1 = _); refine Keeps.cut x1 ?_ (fun h => ?_); rw [hx]; clear hx x1; rotate_left; clear hx; rotate_right)
    | (extract_lets +onlyGivenNames x1; clear_value (hx : x1 = _); refine Keeps.cut1 x1 ?_ (fun h => ?_); rw [hx]; clear hx x1; rotate_left; clear hx; rotate_right)
    | (extract_lets +onlyGivenNames x1; clear_value (hx : x1 = _); refine Keeps.cut2 x1 ?_ (fun h => ?_); rw [hx]; clear hx x1; rotate_left; clear hx; rotate_right)
    | (extract_lets +onlyGivenNames x1; clear_value (hx : x1 = _); clear hx)
    | with_reducible assumption
    | with_reducible exact Keeps.refl _ _
    | decide +kernel
    | with_reducible apply Keeps.putA
    | with_reducible apply Keeps.setBA
    | with_reducible apply Keeps.via (State.failDrain_keeps ..)
    | with_reducible apply Keeps.iteA
    | split

def State.chFail_w : Nat := fm F.CH_STAT_FAIL ||| fm F.CH_FAILCNT_COUNT ||| fm F.CH_FIRSTFAIL_LO_VEC_LO |||
    fm F.CH_FIRSTFAIL_HI_VEC_HI
theorem State.chFail_keeps (s : State) (ch vec : Nat) : Keeps State.chFail_w s (s.chFail ch vec) := by
  unfold State.chFail
  repeat' first
    | (extract_lets +onlyGivenNames x1; clear_value (hx : x1 = _); refine Keeps.cut x1 ?_ (fun h => ?_); rw [hx]; clear hx x1; rotate_left; clear hx; rotate_right)
    | (extract_lets +onlyGivenNames x1; clear_value (hx : x1 = _); refine Keeps.cut1 x1 ?_ (fun h => ?_); rw [hx]; clear hx x1; rotate_left; clear hx; rotate_right)
    | (extract_lets +onlyGivenNames x1; clear_value (hx : x1 = _); refine Keeps.cut2 x1 ?_ (fun h => ?_); rw [hx]; clear hx x1; rotate_left; clear hx; rotate_right)
    | (extract_lets +onlyGivenNames x1; clear_value (hx : x1 = _); clear hx)
    | with_reducible assumption
    | with_reducible exact Keeps.refl _ _
    | decide +kernel
    | with_reducible apply Keeps.setBA
    | with_reducible apply Keeps.incSatA
    | with_reducible apply Keeps.put2A
    | with_reducible apply Keeps.iteA

def State.failVector_w : Nat := fm F.SITE_FAILVEC_COUNT ||| fm H.ST_GFAIL ||| fm H.ST_FIRST_FAIL ||| fm H.ST_SITE_FAIL |||
    fm H.ST_MARK_FAIL ||| State.failCapture_w ||| State.pendTrap_w
theorem State.failVector_keeps (s : State) (i vec mask : Nat) : Keeps State.failVector_w s (s.failVector i vec mask) := by
  unfold State.failVector
  repeat' first
    | (extract_lets +onlyGivenNames x1; clear_value (hx : x1 = _); refine Keeps.cut x1 ?_ (fun h => ?_); rw [hx]; clear hx x1; rotate_left; clear hx; rotate_right)
    | (extract_lets +onlyGivenNames x1; clear_value (hx : x1 = _); refine Keeps.cut1 x1 ?_ (fun h => ?_); rw [hx]; clear hx x1; rotate_left; clear hx; rotate_right)
    | (extract_lets +onlyGivenNames x1; clear_value (hx : x1 = _); refine Keeps.cut2 x1 ?_ (fun h => ?_); rw [hx]; clear hx x1; rotate_left; clear hx; rotate_right)
    | (extract_lets +onlyGivenNames x1; clear_value (hx : x1 = _); clear hx)
    | with_reducible assumption
    | with_reducible exact Keeps.refl _ _
    | decide +kernel
    | with_reducible apply Keeps.putA
    | with_reducible apply Keeps.setBA
    | with_reducible apply Keeps.incSatA
    | with_reducible apply Keeps.via (State.failCapture_keeps ..)
    | with_reducible apply Keeps.via (State.pendTrap_keeps ..)
    | with_reducible apply Keeps.iteA

def State.playCompares_w : Nat := State.chFail_w ||| State.failVector_w
theorem State.playCompares_keeps (s : State) (i set p vec : Nat) (codes : List (Nat × Nat)) (seen : List CmpSeen) : Keeps State.playCompares_w s (s.playCompares i set p vec codes seen) := by
  unfold State.playCompares
  repeat' first
    | (extract_lets +onlyGivenNames x1; clear_value (hx : x1 = _); refine Keeps.cut x1 ?_ (fun h => ?_); rw [hx]; clear hx x1; rotate_left; clear hx; rotate_right)
    | (extract_lets +onlyGivenNames x1; clear_value (hx : x1 = _); refine Keeps.cut1 x1 ?_ (fun h => ?_); rw [hx]; clear hx x1; rotate_left; clear hx; rotate_right)
    | (extract_lets +onlyGivenNames x1; clear_value (hx : x1 = _); refine Keeps.cut2 x1 ?_ (fun h => ?_); rw [hx]; clear hx x1; rotate_left; clear hx; rotate_right)
    | (extract_lets +onlyGivenNames x1; clear_value (hx : x1 = _); clear hx)
    | with_reducible assumption
    | with_reducible exact Keeps.refl _ _
    | decide +kernel
    | with_reducible refine Keeps.eachA ?_ (fun _ _ => ?_)
    | with_reducible apply Keeps.via (State.chFail_keeps ..)
    | with_reducible apply Keeps.via (State.failVector_keeps ..)
    | with_reducible apply Keeps.iteA

def State.portTrim_w : Nat := m_ports
theorem State.portTrim_keeps (s : State) (i : Nat) : Keeps State.portTrim_w s (s.portTrim i) := by
  unfold State.portTrim
  repeat' first
    | (extract_lets +onlyGivenNames x1; clear_value (hx : x1 = _); refine Keeps.cut x1 ?_ (fun h => ?_); rw [hx]; clear hx x1; rotate_left; clear hx; rotate_right)
    | (extract_lets +onlyGivenNames x1; clear_value (hx : x1 = _); refine Keeps.cut1 x1 ?_ (fun h => ?_); rw [hx]; clear hx x1; rotate_left; clear hx; rotate_right)
    | (extract_lets +onlyGivenNames x1; clear_value (hx : x1 = _); refine Keeps.cut2 x1 ?_ (fun h => ?_); rw [hx]; clear hx x1; rotate_left; clear hx; rotate_right)
    | (extract_lets +onlyGivenNames x1; clear_value (hx : x1 = _); clear hx)
    | with_reducible assumption
    | with_reducible exact Keeps.refl _ _
    | decide +kernel
    | with_reducible refine Keeps.trans ?_ (Keeps.c_ports _ ?_)

def State.chooseNext_w : Nat := fm F.SEQ_CUR_DECIDED ||| fm H.SQ_ENTRY_BAD ||| fm F.PAN_OVERBUDGET_COUNT |||
    State.noteBad_w ||| State.irq_w
theorem State.chooseNext_keeps (s : State) (i n : Nat) : Keeps State.chooseNext_w s (s.chooseNext i n) := by
  unfold State.chooseNext
  repeat' first
    | (extract_lets +onlyGivenNames x1; clear_value (hx : x1 = _); refine Keeps.cut x1 ?_ (fun h => ?_); rw [hx]; clear hx x1; rotate_left; clear hx; rotate_right)
    | (extract_lets +onlyGivenNames x1; clear_value (hx : x1 = _); refine Keeps.cut1 x1 ?_ (fun h => ?_); rw [hx]; clear hx x1; rotate_left; clear hx; rotate_right)
    | (extract_lets +onlyGivenNames x1; clear_value (hx : x1 = _); refine Keeps.cut2 x1 ?_ (fun h => ?_); rw [hx]; clear hx x1; rotate_left; clear hx; rotate_right)
    | (extract_lets +onlyGivenNames x1; clear_value (hx : x1 = _); clear hx)
    | with_reducible assumption
    | with_reducible exact Keeps.refl _ _
    | decide +kernel
    | with_reducible apply Keeps.putA
    | with_reducible apply Keeps.incSatA
    | with_reducible apply Keeps.via (State.noteBad_keeps ..)
    | with_reducible apply Keeps.via (State.irq_keeps ..)
    | with_reducible apply Keeps.iteA

def State.passDecide_w : Nat := fm F.SEQ_JUMP_REQ_PENDING ||| fm H.SQ_DECIDED_JUMP ||| fm H.SQ_DECIDED_END |||
    State.chooseNext_w
theorem State.passDecide_keeps (s : State) (i : Nat) : Keeps State.passDecide_w s (s.passDecide i) := by
  unfold State.passDecide
  repeat' first
    | (extract_lets +onlyGivenNames x1; clear_value (hx : x1 = _); refine Keeps.cut x1 ?_ (fun h => ?_); rw [hx]; clear hx x1; rotate_left; clear hx; rotate_right)
    | (extract_lets +onlyGivenNames x1; clear_value (hx : x1 = _); refine Keeps.cut1 x1 ?_ (fun h => ?_); rw [hx]; clear hx x1; rotate_left; clear hx; rotate_right)
    | (extract_lets +onlyGivenNames x1; clear_value (hx : x1 = _); refine Keeps.cut2 x1 ?_ (fun h => ?_); rw [hx]; clear hx x1; rotate_left; clear hx; rotate_right)
    | (extract_lets +onlyGivenNames x1; clear_value (hx : x1 = _); clear hx)
    | with_reducible assumption
    | with_reducible exact Keeps.refl _ _
    | decide +kernel
    | with_reducible apply Keeps.setBA
    | with_reducible apply Keeps.via (State.chooseNext_keeps ..)
    | with_reducible apply Keeps.iteA

def State.sitePaused_w : Nat := fm H.SQ_PAUSE_REQ ||| State.toSiteState_w ||| State.pendTrap_w
theorem State.sitePaused_keeps (s : State) (i : Nat) : Keeps State.sitePaused_w s (s.sitePaused i) := by
  unfold State.sitePaused
  repeat' first
    | with_reducible assumption
    | with_reducible exact Keeps.refl _ _
    | decide +kernel
    | with_reducible apply Keeps.setBA
    | with_reducible apply Keeps.via (State.toSiteState_keeps ..)
    | with_reducible apply Keeps.via (State.pendTrap_keeps ..)

def State.chainEnd_w : Nat := fm F.SEQ_SSTAT_CHAIN_DONE ||| fm F.SEQ_JUMP_REQ_PENDING ||| fm H.SQ_DECIDED_END |||
    State.chainOff_w ||| State.unpinIdle_w ||| State.sitePaused_w
theorem State.chainEnd_keeps (s : State) (i : Nat) : Keeps State.chainEnd_w s (s.chainEnd i) := by
  unfold State.chainEnd
  repeat' first
    | (extract_lets +onlyGivenNames x1; clear_value (hx : x1 = _); refine Keeps.cut x1 ?_ (fun h => ?_); rw [hx]; clear hx x1; rotate_left; clear hx; rotate_right)
    | (extract_lets +onlyGivenNames x1; clear_value (hx : x1 = _); refine Keeps.cut1 x1 ?_ (fun h => ?_); rw [hx]; clear hx x1; rotate_left; clear hx; rotate_right)
    | (extract_lets +onlyGivenNames x1; clear_value (hx : x1 = _); refine Keeps.cut2 x1 ?_ (fun h => ?_); rw [hx]; clear hx x1; rotate_left; clear hx; rotate_right)
    | (extract_lets +onlyGivenNames x1; clear_value (hx : x1 = _); clear hx)
    | with_reducible assumption
    | with_reducible exact Keeps.refl _ _
    | decide +kernel
    | with_reducible apply Keeps.setBA
    | with_reducible apply Keeps.via (State.chainOff_keeps ..)
    | with_reducible apply Keeps.via (State.unpinIdle_keeps ..)
    | with_reducible apply Keeps.via (State.sitePaused_keeps ..)
    | with_reducible apply Keeps.iteA

def State.nextPass_w : Nat := fm F.SEQ_PASS_PASS ||| fm F.SEQ_CUR_ENTRY ||| fm F.SEQ_CUR_DECIDED ||| fm H.SQ_VPOS |||
    fm H.SQ_DECIDED_JUMP ||| State.pinEntry_w ||| State.unpinIdle_w
theorem State.nextPass_keeps (s : State) (i : Nat) : Keeps State.nextPass_w s (s.nextPass i) := by
  unfold State.nextPass
  repeat' first
    | (extract_lets +onlyGivenNames x1; clear_value (hx : x1 = _); refine Keeps.cut x1 ?_ (fun h => ?_); rw [hx]; clear hx x1; rotate_left; clear hx; rotate_right)
    | (extract_lets +onlyGivenNames x1; clear_value (hx : x1 = _); refine Keeps.cut1 x1 ?_ (fun h => ?_); rw [hx]; clear hx x1; rotate_left; clear hx; rotate_right)
    | (extract_lets +onlyGivenNames x1; clear_value (hx : x1 = _); refine Keeps.cut2 x1 ?_ (fun h => ?_); rw [hx]; clear hx x1; rotate_left; clear hx; rotate_right)
    | (extract_lets +onlyGivenNames x1; clear_value (hx : x1 = _); clear hx)
    | with_reducible assumption
    | with_reducible exact Keeps.refl _ _
    | decide +kernel
    | with_reducible apply Keeps.putA
    | with_reducible apply Keeps.setBA
    | with_reducible apply Keeps.incSatA
    | with_reducible apply Keeps.via (State.pinEntry_keeps ..)
    | with_reducible apply Keeps.via (State.unpinIdle_keeps ..)
    | with_reducible apply Keeps.iteA

def State.chainPause_w : Nat := fm H.SQ_PLAYING ||| fm H.SQ_CHAIN_PAUSED ||| fm H.SQ_T_END ||| fm H.SQ_MK0 |||
    fm H.SQ_MK1 ||| State.pendApply_w ||| State.sitePaused_w
theorem State.chainPause_keeps (s : State) (i : Nat) : Keeps State.chainPause_w s (s.chainPause i) := by
  unfold State.chainPause
  repeat' first
    | (extract_lets +onlyGivenNames x1; clear_value (hx : x1 = _); refine Keeps.cut x1 ?_ (fun h => ?_); rw [hx]; clear hx x1; rotate_left; clear hx; rotate_right)
    | (extract_lets +onlyGivenNames x1; clear_value (hx : x1 = _); refine Keeps.cut1 x1 ?_ (fun h => ?_); rw [hx]; clear hx x1; rotate_left; clear hx; rotate_right)
    | (extract_lets +onlyGivenNames x1; clear_value (hx : x1 = _); refine Keeps.cut2 x1 ?_ (fun h => ?_); rw [hx]; clear hx x1; rotate_left; clear hx; rotate_right)
    | (extract_lets +onlyGivenNames x1; clear_value (hx : x1 = _); clear hx)
    | with_reducible assumption
    | with_reducible exact Keeps.refl _ _
    | decide +kernel
    | with_reducible apply Keeps.putA
    | with_reducible apply Keeps.setBA
    | with_reducible apply Keeps.via (State.pendApply_keeps ..)
    | with_reducible apply Keeps.via (State.sitePaused_keeps ..)

def State.passEnd_w : Nat := State.calBoundary_w ||| State.seqStop_w ||| State.chainEnd_w ||| State.nextPass_w |||
    State.chainPause_w
theorem State.passEnd_keeps (s : State) (i : Nat) : Keeps State.passEnd_w s (s.passEnd i) := by
  unfold State.passEnd
  repeat' first
    | (extract_lets +onlyGivenNames x1; clear_value (hx : x1 = _); refine Keeps.cut x1 ?_ (fun h => ?_); rw [hx]; clear hx x1; rotate_left; clear hx; rotate_right)
    | (extract_lets +onlyGivenNames x1; clear_value (hx : x1 = _); refine Keeps.cut1 x1 ?_ (fun h => ?_); rw [hx]; clear hx x1; rotate_left; clear hx; rotate_right)
    | (extract_lets +onlyGivenNames x1; clear_value (hx : x1 = _); refine Keeps.cut2 x1 ?_ (fun h => ?_); rw [hx]; clear hx x1; rotate_left; clear hx; rotate_right)
    | (extract_lets +onlyGivenNames x1; clear_value (hx : x1 = _); clear hx)
    | with_reducible assumption
    | with_reducible exact Keeps.refl _ _
    | decide +kernel
    | with_reducible apply Keeps.via (State.calBoundary_keeps ..)
    | with_reducible apply Keeps.via (State.seqStop_keeps ..)
    | with_reducible apply Keeps.via (State.chainEnd_keeps ..)
    | with_reducible apply Keeps.via (State.nextPass_keeps ..)
    | with_reducible apply Keeps.via (State.chainPause_keeps ..)
    | with_reducible apply Keeps.iteA

def State.boundarySet_w : Nat := fm F.SITE_TSTAT_TSET_COLL ||| fm H.SQ_TSET_PIN ||| fm H.SQ_PERIOD |||
    fm F.SITE_TSTAT_RESTARTS ||| State.tsetUse_w
theorem State.boundarySet_keeps (s : State) (i : Nat) (entrySet : Option Nat) : Keeps State.boundarySet_w s (s.boundarySet i entrySet) := by
  unfold State.boundarySet
  repeat' first
    | (extract_lets +onlyGivenNames x1; clear_value (hx : x1 = _); refine Keeps.cut x1 ?_ (fun h => ?_); rw [hx]; clear hx x1; rotate_left; clear hx; rotate_right)
    | (extract_lets +onlyGivenNames x1; clear_value (hx : x1 = _); refine Keeps.cut1 x1 ?_ (fun h => ?_); rw [hx]; clear hx x1; rotate_left; clear hx; rotate_right)
    | (extract_lets +onlyGivenNames x1; clear_value (hx : x1 = _); refine Keeps.cut2 x1 ?_ (fun h => ?_); rw [hx]; clear hx x1; rotate_left; clear hx; rotate_right)
    | (extract_lets +onlyGivenNames x1; clear_value (hx : x1 = _); clear hx)
    | with_reducible assumption
    | with_reducible exact Keeps.refl _ _
    | decide +kernel
    | with_reducible apply Keeps.putA
    | with_reducible apply Keeps.setBA
    | with_reducible apply Keeps.incSatA
    | with_reducible apply Keeps.via (State.tsetUse_keeps ..)
    | with_reducible apply Keeps.iteA
    | split

def State.sitePulse_w : Nat := State.trigPulse_w
theorem State.sitePulse_keeps (s : State) (i t : Nat) : Keeps State.sitePulse_w s (s.sitePulse i t) := by
  unfold State.sitePulse
  repeat' first
    | with_reducible assumption
    | with_reducible exact Keeps.refl _ _
    | decide +kernel
    | with_reducible apply Keeps.via (State.trigPulse_keeps ..)

def State.pinPulse_w : Nat := fm H.SQ_TRIG_PIN ||| State.sitePulse_w
theorem State.pinPulse_keeps (s : State) (i t : Nat) : Keeps State.pinPulse_w s (s.pinPulse i t) := by
  unfold State.pinPulse
  repeat' first
    | with_reducible assumption
    | with_reducible exact Keeps.refl _ _
    | decide +kernel
    | with_reducible apply Keeps.setBA
    | with_reducible apply Keeps.via (State.sitePulse_keeps ..)
    | with_reducible apply Keeps.iteA

def State.marker_w : Nat := fm H.SQ_MK0 ||| fm H.SQ_MK1 ||| fm F.SEQ_MARK_MK0 ||| fm F.SEQ_MARK_MK1 ||| State.markerRise_w
theorem State.marker_keeps (s : State) (i mk t : Nat) (v : Bool) : Keeps State.marker_w s (s.marker i mk t v) := by
  have h1 : Keeps State.marker_w s (s.setB (if mk = 0 then H.SQ_MK0 else H.SQ_MK1) i v) :=
    Keeps.setBA (by split <;> decide +kernel) (Keeps.refl _ _)
  unfold State.marker
  exact Keeps.iteA (Keeps.via (State.markerRise_keeps ..) (by decide +kernel) (Keeps.incWA (by split <;> decide +kernel) h1)) h1

def State.stallVector_w : Nat := fm F.SEQ_SSTAT_STALLING ||| fm H.SQ_STALL_N ||| fm H.SQ_STALL_VEC ||| fm H.SQ_STALL_TS |||
    fm H.SQ_STALL_T0 ||| fm F.SEQ_SSTAT_TIMING_BROKEN ||| fm H.SQ_MK0 ||| fm H.SQ_MK1 ||| fm H.CH_TERM_ON |||
    fm H.SQ_NEWCHAIN ||| fm H.SQ_NEXT_T ||| fm F.SEQ_STALL_LO_ST_LO ||| fm F.SEQ_STALL_HI_ST_HI ||| State.boundarySet_w |||
    State.pinPulse_w ||| State.pendApply_w
theorem State.stallVector_keeps (s : State) (i t : Nat) : Keeps State.stallVector_w s (s.stallVector i t) := by
  unfold State.stallVector
  repeat' first
    | (extract_lets +onlyGivenNames x1; clear_value (hx : x1 = _); refine Keeps.cut x1 ?_ (fun h => ?_); rw [hx]; clear hx x1; rotate_left; clear hx; rotate_right)
    | (extract_lets +onlyGivenNames x1; clear_value (hx : x1 = _); refine Keeps.cut1 x1 ?_ (fun h => ?_); rw [hx]; clear hx x1; rotate_left; clear hx; rotate_right)
    | (extract_lets +onlyGivenNames x1; clear_value (hx : x1 = _); refine Keeps.cut2 x1 ?_ (fun h => ?_); rw [hx]; clear hx x1; rotate_left; clear hx; rotate_right)
    | (extract_lets +onlyGivenNames x1; clear_value (hx : x1 = _); clear hx)
    | with_reducible assumption
    | with_reducible exact Keeps.refl _ _
    | decide +kernel
    | with_reducible apply Keeps.putA
    | with_reducible apply Keeps.setBA
    | with_reducible apply Keeps.incWA
    | with_reducible apply Keeps.put2A
    | with_reducible refine Keeps.eachA ?_ (fun _ _ => ?_)
    | with_reducible apply Keeps.via (State.boundarySet_keeps ..)
    | with_reducible apply Keeps.via (State.pinPulse_keeps ..)
    | with_reducible apply Keeps.via (State.pendApply_keeps ..)
    | with_reducible apply Keeps.iteA

def State.underrun_w : Nat := State.underrunCount_w ||| State.seqStop_w ||| State.stallVector_w
theorem State.underrun_keeps (s : State) (i t : Nat) : Keeps State.underrun_w s (s.underrun i t) := by
  unfold State.underrun
  repeat' first
    | (extract_lets +onlyGivenNames x1; clear_value (hx : x1 = _); refine Keeps.cut x1 ?_ (fun h => ?_); rw [hx]; clear hx x1; rotate_left; clear hx; rotate_right)
    | (extract_lets +onlyGivenNames x1; clear_value (hx : x1 = _); refine Keeps.cut1 x1 ?_ (fun h => ?_); rw [hx]; clear hx x1; rotate_left; clear hx; rotate_right)
    | (extract_lets +onlyGivenNames x1; clear_value (hx : x1 = _); refine Keeps.cut2 x1 ?_ (fun h => ?_); rw [hx]; clear hx x1; rotate_left; clear hx; rotate_right)
    | (extract_lets +onlyGivenNames x1; clear_value (hx : x1 = _); clear hx)
    | with_reducible assumption
    | with_reducible exact Keeps.refl _ _
    | decide +kernel
    | with_reducible apply Keeps.via (State.underrunCount_keeps ..)
    | with_reducible apply Keeps.via (State.seqStop_keeps ..)
    | with_reducible apply Keeps.via (State.stallVector_keeps ..)
    | with_reducible apply Keeps.iteA

def State.startWaves_w : Nat := State.noteBad_w ||| State.waveStart_w
theorem State.startWaves_keeps (s : State) (i t : Nat) (e : List Byte) : Keeps State.startWaves_w s (s.startWaves i t e) := by
  unfold State.startWaves
  repeat' first
    | (extract_lets +onlyGivenNames x1; clear_value (hx : x1 = _); refine Keeps.cut x1 ?_ (fun h => ?_); rw [hx]; clear hx x1; rotate_left; clear hx; rotate_right)
    | (extract_lets +onlyGivenNames x1; clear_value (hx : x1 = _); refine Keeps.cut1 x1 ?_ (fun h => ?_); rw [hx]; clear hx x1; rotate_left; clear hx; rotate_right)
    | (extract_lets +onlyGivenNames x1; clear_value (hx : x1 = _); refine Keeps.cut2 x1 ?_ (fun h => ?_); rw [hx]; clear hx x1; rotate_left; clear hx; rotate_right)
    | (extract_lets +onlyGivenNames x1; clear_value (hx : x1 = _); clear hx)
    | with_reducible assumption
    | with_reducible exact Keeps.refl _ _
    | decide +kernel
    | with_reducible refine Keeps.eachA ?_ (fun _ _ => ?_)
    | with_reducible apply Keeps.via (State.noteBad_keeps ..)
    | with_reducible apply Keeps.via (State.waveStart_keeps ..)
    | with_reducible apply Keeps.iteA
    | split

def State.playVector_w : Nat := fm H.SQ_NEWCHAIN ||| fm H.SQ_T_FIRST ||| fm H.SQ_VPOS ||| fm H.SQ_NEXT_T |||
    fm F.SEQ_VEC_LO_VEC_LO ||| fm F.SEQ_VEC_HI_VEC_HI ||| State.stallEnd_w ||| State.boundarySet_w ||| State.sitePulse_w |||
    State.startWaves_w ||| State.pinPulse_w ||| State.pendApply_w ||| State.marker_w ||| State.playPins_w |||
    State.playCompares_w ||| State.passDecide_w ||| State.portTrim_w
theorem State.playVector_keeps (s : State) (i t : Nat) (line : List Byte) (seen : List CmpSeen) : Keeps State.playVector_w s (s.playVector i t line seen) := by
  unfold State.playVector
  repeat' first
    | (extract_lets +onlyGivenNames x1; clear_value (hx : x1 = _); refine Keeps.cut x1 ?_ (fun h => ?_); rw [hx]; clear hx x1; rotate_left; clear hx; rotate_right)
    | (extract_lets +onlyGivenNames x1; clear_value (hx : x1 = _); refine Keeps.cut1 x1 ?_ (fun h => ?_); rw [hx]; clear hx x1; rotate_left; clear hx; rotate_right)
    | (extract_lets +onlyGivenNames x1; clear_value (hx : x1 = _); refine Keeps.cut2 x1 ?_ (fun h => ?_); rw [hx]; clear hx x1; rotate_left; clear hx; rotate_right)
    | (extract_lets +onlyGivenNames x1; clear_value (hx : x1 = _); clear hx)
    | with_reducible assumption
    | with_reducible exact Keeps.refl _ _
    | decide +kernel
    | with_reducible apply Keeps.putA
    | with_reducible apply Keeps.setBA
    | with_reducible apply Keeps.put2A
    | with_reducible apply Keeps.via (State.stallEnd_keeps ..)
    | with_reducible apply Keeps.via (State.boundarySet_keeps ..)
    | with_reducible apply Keeps.via (State.sitePulse_keeps ..)
    | with_reducible apply Keeps.via (State.startWaves_keeps ..)
    | with_reducible apply Keeps.via (State.pinPulse_keeps ..)
    | with_reducible apply Keeps.via (State.pendApply_keeps ..)
    | with_reducible apply Keeps.via (State.marker_keeps ..)
    | with_reducible apply Keeps.via (State.playPins_keeps ..)
    | with_reducible apply Keeps.via (State.playCompares_keeps ..)
    | with_reducible apply Keeps.via (State.passDecide_keeps ..)
    | with_reducible apply Keeps.via (State.portTrim_keeps ..)
    | with_reducible apply Keeps.iteA

def State.boundaryPlay_w : Nat := fm F.SEQ_SSTAT_DECODE_ERR ||| State.underrun_w ||| State.bad_w ||| State.seqStop_w |||
    State.playVector_w
theorem State.boundaryPlay_keeps (s : State) (i t : Nat) (seen : List CmpSeen) : Keeps State.boundaryPlay_w s (s.boundaryPlay i t seen) := by
  unfold State.boundaryPlay
  repeat' first
    | (extract_lets +onlyGivenNames x1; clear_value (hx : x1 = _); refine Keeps.cut x1 ?_ (fun h => ?_); rw [hx]; clear hx x1; rotate_left; clear hx; rotate_right)
    | (extract_lets +onlyGivenNames x1; clear_value (hx : x1 = _); refine Keeps.cut1 x1 ?_ (fun h => ?_); rw [hx]; clear hx x1; rotate_left; clear hx; rotate_right)
    | (extract_lets +onlyGivenNames x1; clear_value (hx : x1 = _); refine Keeps.cut2 x1 ?_ (fun h => ?_); rw [hx]; clear hx x1; rotate_left; clear hx; rotate_right)
    | (extract_lets +onlyGivenNames x1; clear_value (hx : x1 = _); clear hx)
    | with_reducible assumption
    | with_reducible exact Keeps.refl _ _
    | decide +kernel
    | with_reducible apply Keeps.setBA
    | with_reducible apply Keeps.via (State.underrun_keeps ..)
    | with_reducible apply Keeps.via (State.bad_keeps ..)
    | with_reducible apply Keeps.via (State.seqStop_keeps ..)
    | with_reducible apply Keeps.via (State.playVector_keeps ..)
    | with_reducible apply Keeps.iteA
    | split

def State.clockStart_w : Nat := fm H.SQ_PLAYING ||| fm H.SQ_NEWCHAIN ||| fm H.SQ_CHAINED ||| fm H.SQ_CHAIN_PAUSED |||
    fm H.SQ_NEXT_T ||| fm H.SQ_PERIOD ||| State.waitDrop_w
theorem State.clockStart_keeps (s : State) (i t : Nat) : Keeps State.clockStart_w s (s.clockStart i t) := by
  unfold State.clockStart
  repeat' first
    | (extract_lets +onlyGivenNames x1; clear_value (hx : x1 = _); refine Keeps.cut x1 ?_ (fun h => ?_); rw [hx]; clear hx x1; rotate_left; clear hx; rotate_right)
    | (extract_lets +onlyGivenNames x1; clear_value (hx : x1 = _); refine Keeps.cut1 x1 ?_ (fun h => ?_); rw [hx]; clear hx x1; rotate_left; clear hx; rotate_right)
    | (extract_lets +onlyGivenNames x1; clear_value (hx : x1 = _); refine Keeps.cut2 x1 ?_ (fun h => ?_); rw [hx]; clear hx x1; rotate_left; clear hx; rotate_right)
    | (extract_lets +onlyGivenNames x1; clear_value (hx : x1 = _); clear hx)
    | with_reducible assumption
    | with_reducible exact Keeps.refl _ _
    | decide +kernel
    | with_reducible apply Keeps.putA
    | with_reducible apply Keeps.setBA
    | with_reducible apply Keeps.via (State.waitDrop_keeps ..)

def State.boundaryAt_w : Nat := State.chainStopNow_w ||| State.seqStop_w ||| State.passEnd_w ||| State.boundaryPlay_w
theorem State.boundaryAt_keeps (s : State) (i t : Nat) (seen : List CmpSeen) : Keeps State.boundaryAt_w s (s.boundaryAt i t seen) := by
  unfold State.boundaryAt
  repeat' first
    | (extract_lets +onlyGivenNames x1; clear_value (hx : x1 = _); refine Keeps.cut x1 ?_ (fun h => ?_); rw [hx]; clear hx x1; rotate_left; clear hx; rotate_right)
    | (extract_lets +onlyGivenNames x1; clear_value (hx : x1 = _); refine Keeps.cut1 x1 ?_ (fun h => ?_); rw [hx]; clear hx x1; rotate_left; clear hx; rotate_right)
    | (extract_lets +onlyGivenNames x1; clear_value (hx : x1 = _); refine Keeps.cut2 x1 ?_ (fun h => ?_); rw [hx]; clear hx x1; rotate_left; clear hx; rotate_right)
    | (extract_lets +onlyGivenNames x1; clear_value (hx : x1 = _); clear hx)
    | with_reducible assumption
    | with_reducible exact Keeps.refl _ _
    | decide +kernel
    | with_reducible apply Keeps.via (State.chainStopNow_keeps ..)
    | with_reducible apply Keeps.via (State.seqStop_keeps ..)
    | with_reducible apply Keeps.via (State.passEnd_keeps ..)
    | with_reducible apply Keeps.via (State.boundaryPlay_keeps ..)
    | with_reducible apply Keeps.iteA

def State.vectorBoundary_w : Nat := m_now ||| State.boundaryAt_w ||| State.clockStart_w
theorem State.vectorBoundary_keeps (s : State) (i : Nat) (seen : List CmpSeen) : Keeps State.vectorBoundary_w s (s.vectorBoundary i seen) := by
  unfold State.vectorBoundary
  repeat' first
    | (extract_lets +onlyGivenNames x1; clear_value (hx : x1 = _); refine Keeps.cut x1 ?_ (fun h => ?_); rw [hx]; clear hx x1; rotate_left; clear hx; rotate_right)
    | (extract_lets +onlyGivenNames x1; clear_value (hx : x1 = _); refine Keeps.cut1 x1 ?_ (fun h => ?_); rw [hx]; clear hx x1; rotate_left; clear hx; rotate_right)
    | (extract_lets +onlyGivenNames x1; clear_value (hx : x1 = _); refine Keeps.cut2 x1 ?_ (fun h => ?_); rw [hx]; clear hx x1; rotate_left; clear hx; rotate_right)
    | (extract_lets +onlyGivenNames x1; clear_value (hx : x1 = _); clear hx)
    | with_reducible assumption
    | with_reducible exact Keeps.refl _ _
    | decide +kernel
    | with_reducible apply Keeps.upToA
    | with_reducible apply Keeps.via (State.boundaryAt_keeps ..)
    | with_reducible apply Keeps.via (State.clockStart_keeps ..)
    | with_reducible apply Keeps.iteA

def State.chainAt_w : Nat := fm F.SEQ_CUR_ENTRY ||| fm F.SEQ_CUR_DECIDED ||| fm F.SEQ_PASS_PASS ||| fm H.SQ_VPOS |||
    fm H.SQ_DECIDED_END ||| fm H.SQ_DECIDED_JUMP ||| fm H.SQ_ENTRY_BAD ||| fm F.SEQ_SSTAT_CHAIN_DONE ||| fm H.SQ_STOP_REQ |||
    m_ports
theorem State.chainAt_keeps (s : State) (i entry : Nat) : Keeps State.chainAt_w s (s.chainAt i entry) := by
  unfold State.chainAt
  repeat' first
    | (extract_lets +onlyGivenNames x1; clear_value (hx : x1 = _); refine Keeps.cut x1 ?_ (fun h => ?_); rw [hx]; clear hx x1; rotate_left; clear hx; rotate_right)
    | (extract_lets +onlyGivenNames x1; clear_value (hx : x1 = _); refine Keeps.cut1 x1 ?_ (fun h => ?_); rw [hx]; clear hx x1; rotate_left; clear hx; rotate_right)
    | (extract_lets +onlyGivenNames x1; clear_value (hx : x1 = _); refine Keeps.cut2 x1 ?_ (fun h => ?_); rw [hx]; clear hx x1; rotate_left; clear hx; rotate_right)
    | (extract_lets +onlyGivenNames x1; clear_value (hx : x1 = _); clear hx)
    | with_reducible assumption
    | with_reducible exact Keeps.refl _ _
    | decide +kernel
    | with_reducible apply Keeps.putA
    | with_reducible apply Keeps.setBA
    | with_reducible refine Keeps.trans ?_ (Keeps.c_ports _ ?_)

def State.startGo_w : Nat := fm H.SQ_SRC_NEXT ||| fm H.SQ_WAIT ||| fm F.SITE_TSTAT_WAIT_START ||| fm H.SQ_START_AT |||
    fm F.SITE_TSTAT_TIMED_LATE ||| State.waitDrop_w ||| State.chainAt_w
theorem State.startGo_keeps (s : State) (i : Nat) : Keeps State.startGo_w s (s.startGo i) := by
  unfold State.startGo
  repeat' first
    | (extract_lets +onlyGivenNames x1; clear_value (hx : x1 = _); refine Keeps.cut x1 ?_ (fun h => ?_); rw [hx]; clear hx x1; rotate_left; clear hx; rotate_right)
    | (extract_lets +onlyGivenNames x1; clear_value (hx : x1 = _); refine Keeps.cut1 x1 ?_ (fun h => ?_); rw [hx]; clear hx x1; rotate_left; clear hx; rotate_right)
    | (extract_lets +onlyGivenNames x1; clear_value (hx : x1 = _); refine Keeps.cut2 x1 ?_ (fun h => ?_); rw [hx]; clear hx x1; rotate_left; clear hx; rotate_right)
    | (extract_lets +onlyGivenNames x1; clear_value (hx : x1 = _); clear hx)
    | with_reducible assumption
    | with_reducible exact Keeps.refl _ _
    | decide +kernel
    | with_reducible apply Keeps.putA
    | with_reducible apply Keeps.setBA
    | with_reducible apply Keeps.via (State.waitDrop_keeps ..)
    | with_reducible apply Keeps.via (State.chainAt_keeps ..)
    | with_reducible apply Keeps.iteA
    | split

def State.requestStart_w : Nat := fm H.SQ_START_ENTRY ||| fm H.SQ_START_BY ||| fm H.SQ_START_WORD ||| fm H.ST_ACCEPT_T |||
    fm H.SQ_WAIT ||| fm F.SEQ_SSTAT_START_DEFERRED ||| fm H.SQ_HOLD_END ||| State.startGo_w
theorem State.requestStart_keeps (s : State) (i entry by_ word : Nat) : Keeps State.requestStart_w s (s.requestStart i entry by_ word) := by
  unfold State.requestStart
  repeat' first
    | (extract_lets +onlyGivenNames x1; clear_value (hx : x1 = _); refine Keeps.cut x1 ?_ (fun h => ?_); rw [hx]; clear hx x1; rotate_left; clear hx; rotate_right)
    | (extract_lets +onlyGivenNames x1; clear_value (hx : x1 = _); refine Keeps.cut1 x1 ?_ (fun h => ?_); rw [hx]; clear hx x1; rotate_left; clear hx; rotate_right)
    | (extract_lets +onlyGivenNames x1; clear_value (hx : x1 = _); refine Keeps.cut2 x1 ?_ (fun h => ?_); rw [hx]; clear hx x1; rotate_left; clear hx; rotate_right)
    | (extract_lets +onlyGivenNames x1; clear_value (hx : x1 = _); clear hx)
    | with_reducible assumption
    | with_reducible exact Keeps.refl _ _
    | decide +kernel
    | with_reducible apply Keeps.putA
    | with_reducible apply Keeps.setBA
    | with_reducible apply Keeps.setDueA
    | with_reducible apply Keeps.via (State.startGo_keeps ..)
    | with_reducible apply Keeps.iteA

def State.deferredRelease_w : Nat := State.startGo_w
theorem State.deferredRelease_keeps (s : State) (i : Nat) : Keeps State.deferredRelease_w s (s.deferredRelease i) := by
  unfold State.deferredRelease
  repeat' first
    | with_reducible assumption
    | with_reducible exact Keeps.refl _ _
    | decide +kernel
    | with_reducible apply Keeps.via (State.startGo_keeps ..)
    | with_reducible apply Keeps.iteA

def State.startTimeout_w : Nat := m_now ||| State.waitDrop_w ||| State.refuse_w ||| State.seqStop_w
theorem State.startTimeout_keeps (s : State) (i : Nat) : Keeps State.startTimeout_w s (s.startTimeout i) := by
  unfold State.startTimeout
  repeat' first
    | (extract_lets +onlyGivenNames x1; clear_value (hx : x1 = _); refine Keeps.cut x1 ?_ (fun h => ?_); rw [hx]; clear hx x1; rotate_left; clear hx; rotate_right)
    | (extract_lets +onlyGivenNames x1; clear_value (hx : x1 = _); refine Keeps.cut1 x1 ?_ (fun h => ?_); rw [hx]; clear hx x1; rotate_left; clear hx; rotate_right)
    | (extract_lets +onlyGivenNames x1; clear_value (hx : x1 = _); refine Keeps.cut2 x1 ?_ (fun h => ?_); rw [hx]; clear hx x1; rotate_left; clear hx; rotate_right)
    | (extract_lets +onlyGivenNames x1; clear_value (hx : x1 = _); clear hx)
    | with_reducible assumption
    | with_reducible exact Keeps.refl _ _
    | decide +kernel
    | with_reducible apply Keeps.upToA
    | with_reducible apply Keeps.via (State.waitDrop_keeps ..)
    | with_reducible apply Keeps.via (State.refuse_keeps ..)
    | with_reducible apply Keeps.via (State.seqStop_keeps ..)
    | with_reducible apply Keeps.iteA
    | split

def State.timedStart_w : Nat := m_now ||| State.clockStart_w
theorem State.timedStart_keeps (s : State) (i : Nat) : Keeps State.timedStart_w s (s.timedStart i) := by
  unfold State.timedStart
  repeat' first
    | (extract_lets +onlyGivenNames x1; clear_value (hx : x1 = _); refine Keeps.cut x1 ?_ (fun h => ?_); rw [hx]; clear hx x1; rotate_left; clear hx; rotate_right)
    | (extract_lets +onlyGivenNames x1; clear_value (hx : x1 = _); refine Keeps.cut1 x1 ?_ (fun h => ?_); rw [hx]; clear hx x1; rotate_left; clear hx; rotate_right)
    | (extract_lets +onlyGivenNames x1; clear_value (hx : x1 = _); refine Keeps.cut2 x1 ?_ (fun h => ?_); rw [hx]; clear hx x1; rotate_left; clear hx; rotate_right)
    | (extract_lets +onlyGivenNames x1; clear_value (hx : x1 = _); clear hx)
    | with_reducible assumption
    | with_reducible exact Keeps.refl _ _
    | decide +kernel
    | with_reducible apply Keeps.upToA
    | with_reducible apply Keeps.via (State.clockStart_keeps ..)
    | with_reducible apply Keeps.iteA

def State.trigStarts_w : Nat := fm H.SQ_WAIT ||| fm H.SQ_START_AT ||| fm F.SITE_TSTAT_TIMED_LATE
theorem State.trigStarts_keeps (s : State) (line a : Nat) : Keeps State.trigStarts_w s (s.trigStarts line a) := by
  unfold State.trigStarts
  repeat' first
    | (extract_lets +onlyGivenNames x1; clear_value (hx : x1 = _); refine Keeps.cut x1 ?_ (fun h => ?_); rw [hx]; clear hx x1; rotate_left; clear hx; rotate_right)
    | (extract_lets +onlyGivenNames x1; clear_value (hx : x1 = _); refine Keeps.cut1 x1 ?_ (fun h => ?_); rw [hx]; clear hx x1; rotate_left; clear hx; rotate_right)
    | (extract_lets +onlyGivenNames x1; clear_value (hx : x1 = _); refine Keeps.cut2 x1 ?_ (fun h => ?_); rw [hx]; clear hx x1; rotate_left; clear hx; rotate_right)
    | (extract_lets +onlyGivenNames x1; clear_value (hx : x1 = _); clear hx)
    | with_reducible assumption
    | with_reducible exact Keeps.refl _ _
    | decide +kernel
    | with_reducible apply Keeps.putA
    | with_reducible apply Keeps.setBA
    | with_reducible refine Keeps.eachA ?_ (fun _ _ => ?_)
    | with_reducible apply Keeps.iteA

def State.trigAction_w : Nat := m_now ||| m_trigActs ||| State.trigStarts_w ||| State.trigReaches_w
theorem State.trigAction_keeps (s : State) (line : Nat) : Keeps State.trigAction_w s (s.trigAction line) := by
  unfold State.trigAction
  repeat' first
    | (extract_lets +onlyGivenNames x1; clear_value (hx : x1 = _); refine Keeps.cut x1 ?_ (fun h => ?_); rw [hx]; clear hx x1; rotate_left; clear hx; rotate_right)
    | (extract_lets +onlyGivenNames x1; clear_value (hx : x1 = _); refine Keeps.cut1 x1 ?_ (fun h => ?_); rw [hx]; clear hx x1; rotate_left; clear hx; rotate_right)
    | (extract_lets +onlyGivenNames x1; clear_value (hx : x1 = _); refine Keeps.cut2 x1 ?_ (fun h => ?_); rw [hx]; clear hx x1; rotate_left; clear hx; rotate_right)
    | (extract_lets +onlyGivenNames x1; clear_value (hx : x1 = _); clear hx)
    | with_reducible assumption
    | with_reducible exact Keeps.refl _ _
    | decide +kernel
    | with_reducible apply Keeps.upToA
    | with_reducible refine Keeps.foldlA ?_ (fun _ _ => ?_)
    | with_reducible apply Keeps.via (State.trigStarts_keeps ..)
    | with_reducible apply Keeps.via (State.trigReaches_keeps ..)
    | split
    | with_reducible refine Keeps.trans ?_ (Keeps.c_trigActs _ ?_)

def State.stallExpiry_w : Nat := fm H.SQ_STOP_REQ ||| m_now
theorem State.stallExpiry_keeps (s : State) (i : Nat) : Keeps State.stallExpiry_w s (s.stallExpiry i) := by
  unfold State.stallExpiry
  repeat' first
    | (extract_lets +onlyGivenNames x1; clear_value (hx : x1 = _); refine Keeps.cut x1 ?_ (fun h => ?_); rw [hx]; clear hx x1; rotate_left; clear hx; rotate_right)
    | (extract_lets +onlyGivenNames x1; clear_value (hx : x1 = _); refine Keeps.cut1 x1 ?_ (fun h => ?_); rw [hx]; clear hx x1; rotate_left; clear hx; rotate_right)
    | (extract_lets +onlyGivenNames x1; clear_value (hx : x1 = _); refine Keeps.cut2 x1 ?_ (fun h => ?_); rw [hx]; clear hx x1; rotate_left; clear hx; rotate_right)
    | (extract_lets +onlyGivenNames x1; clear_value (hx : x1 = _); clear hx)
    | with_reducible assumption
    | with_reducible exact Keeps.refl _ _
    | decide +kernel
    | with_reducible apply Keeps.putA
    | with_reducible apply Keeps.upToA
    | with_reducible apply Keeps.iteA

end Sys2Proof.Machine
end

