-- ==== Sys2Proof/Laws/KeepsSites.lean ====
section
/-!
SUPPORT. What every operation of Machine/Sites.lean can change: its mask and its Keeps lemma.
-/

set_option Elab.async false
set_option linter.all false

namespace Sys2Proof.Machine

def State.answer_w : Nat := m_replies ||| m_accepted
theorem State.answer_keeps (s : State) (h : Hdr) (op status site detail : Nat) (data : List Byte) : Keeps State.answer_w s (s.answer h op status site detail data) := by
  unfold State.answer
  repeat' first
    | (extract_lets +onlyGivenNames x1; clear_value (hx : x1 = _); refine Keeps.cut x1 ?_ (fun h => ?_); rw [hx]; clear hx x1; rotate_left; clear hx; rotate_right)
    | (extract_lets +onlyGivenNames x1; clear_value (hx : x1 = _); refine Keeps.cut1 x1 ?_ (fun h => ?_); rw [hx]; clear hx x1; rotate_left; clear hx; rotate_right)
    | (extract_lets +onlyGivenNames x1; clear_value (hx : x1 = _); refine Keeps.cut2 x1 ?_ (fun h => ?_); rw [hx]; clear hx x1; rotate_left; clear hx; rotate_right)
    | (extract_lets +onlyGivenNames x1; clear_value (hx : x1 = _); clear hx)
    | with_reducible assumption
    | with_reducible exact Keeps.refl _ _
    | decide +kernel
    | with_reducible apply Keeps.replyA
    | with_reducible refine Keeps.trans ?_ (Keeps.c_accepted _ ?_)

def State.answerOk_w : Nat := State.answer_w
theorem State.answerOk_keeps (s : State) (h : Hdr) (op : Nat) (data : List Byte) : Keeps State.answerOk_w s (s.answerOk h op data) := by
  unfold State.answerOk
  repeat' first
    | with_reducible assumption
    | with_reducible exact Keeps.refl _ _
    | decide +kernel
    | with_reducible apply Keeps.via (State.answer_keeps ..)

def State.answerErr_w : Nat := State.answer_w
theorem State.answerErr_keeps (s : State) (h : Hdr) (op status detail : Nat) : Keeps State.answerErr_w s (s.answerErr h op status detail) := by
  unfold State.answerErr
  repeat' first
    | with_reducible assumption
    | with_reducible exact Keeps.refl _ _
    | decide +kernel
    | with_reducible apply Keeps.via (State.answer_keeps ..)

def State.answerWrong_w : Nat := State.answerErr_w
theorem State.answerWrong_keeps (s : State) (h : Hdr) (op : Nat) : Keeps State.answerWrong_w s (s.answerWrong h op) := by
  unfold State.answerWrong
  repeat' first
    | with_reducible assumption
    | with_reducible exact Keeps.refl _ _
    | decide +kernel
    | with_reducible apply Keeps.via (State.answerErr_keeps ..)

def State.answerSites_w : Nat := State.answerWrong_w ||| State.answer_w
theorem State.answerSites_keeps (s : State) (h : Hdr) (op : Nat) (bad : List Nat) : Keeps State.answerSites_w s (s.answerSites h op bad) := by
  unfold State.answerSites
  repeat' first
    | with_reducible assumption
    | with_reducible exact Keeps.refl _ _
    | decide +kernel
    | with_reducible apply Keeps.via (State.answerWrong_keeps ..)
    | with_reducible apply Keeps.via (State.answer_keeps ..)
    | split

def State.serve_w : Nat := State.answerErr_w ||| State.answerSites_w
theorem State.serve_keeps {w : Nat} (hw : Sub State.serve_w w) {s : State} {h : Hdr} {op : Nat} {legal : State → Bool}
    {named : List Nat} {eff : State → State} (he : ∀ t, Keeps w t (eff t)) : Keeps w s (s.serve h op legal named eff) := by
  unfold State.serve
  split
  · exact (State.answerErr_keeps ..).mono (Sub.trans (by decide +kernel) hw)
  · exact Keeps.refl _ _
  · exact Keeps.iteA ((State.answerSites_keeps ..).mono (Sub.trans (by decide +kernel) hw)) (he _)

def State.stealUpdate_w : Nat := fm F.STL_CTRL_EN ||| fm H.STL_OFF_PEND
theorem State.stealUpdate_keeps (s : State) : Keeps State.stealUpdate_w s (s.stealUpdate) := by
  unfold State.stealUpdate
  repeat' first
    | with_reducible assumption
    | with_reducible exact Keeps.refl _ _
    | decide +kernel
    | with_reducible apply Keeps.setBA
    | with_reducible apply Keeps.iteA

def State.stealDisable_w : Nat := fm F.STL_CTRL_EN ||| fm H.STL_OFF_PEND
theorem State.stealDisable_keeps (s : State) : Keeps State.stealDisable_w s (s.stealDisable) := by
  unfold State.stealDisable
  repeat' first
    | with_reducible assumption
    | with_reducible exact Keeps.refl _ _
    | decide +kernel
    | with_reducible apply Keeps.setBA
    | with_reducible apply Keeps.iteA

def State.freeUnits_w : Nat := fm F.CH_CTRL_SITE ||| fm F.CH_CTRL_BOUND ||| fm F.CH_CTRL_PAIR ||| fm F.DPS_CTRL_SITE |||
    fm F.DPS_CTRL_BOUND ||| fm F.DPS_CTRL_LEAD ||| fm F.DPS_CTRL_MEMBERS ||| fm F.SMU_CTRL_SITE ||| fm F.SMU_CTRL_BOUND |||
    fm F.TDC_CTRL_SITE ||| fm F.TDC_CTRL_BOUND ||| fm F.ACQ_CTRL_SITE ||| fm F.ACQ_CTRL_BOUND ||| fm H.MON_MEM_BOUND |||
    fm H.MON_MEM_SITE
theorem State.freeUnits_keeps (s : State) (e : SiteEntry) : Keeps State.freeUnits_w s (s.freeUnits e) := by
  unfold State.freeUnits
  repeat' first
    | (extract_lets +onlyGivenNames x1; clear_value (hx : x1 = _); refine Keeps.cut x1 ?_ (fun h => ?_); rw [hx]; clear hx x1; rotate_left; clear hx; rotate_right)
    | (extract_lets +onlyGivenNames x1; clear_value (hx : x1 = _); refine Keeps.cut1 x1 ?_ (fun h => ?_); rw [hx]; clear hx x1; rotate_left; clear hx; rotate_right)
    | (extract_lets +onlyGivenNames x1; clear_value (hx : x1 = _); refine Keeps.cut2 x1 ?_ (fun h => ?_); rw [hx]; clear hx x1; rotate_left; clear hx; rotate_right)
    | (extract_lets +onlyGivenNames x1; clear_value (hx : x1 = _); clear hx)
    | with_reducible assumption
    | with_reducible exact Keeps.refl _ _
    | decide +kernel
    | with_reducible apply Keeps.clearA
    | with_reducible refine Keeps.eachA ?_ (fun _ _ => ?_)

def State.takeUnits_w : Nat := fm F.CH_CTRL_SITE ||| fm F.CH_CTRL_BOUND ||| fm F.CH_CTRL_PAIR ||| fm F.DPS_CTRL_SITE |||
    fm F.DPS_CTRL_BOUND ||| fm F.DPS_CTRL_LEAD ||| fm F.DPS_CTRL_MEMBERS ||| fm F.SMU_CTRL_SITE ||| fm F.SMU_CTRL_BOUND |||
    fm F.TDC_CTRL_SITE ||| fm F.TDC_CTRL_BOUND ||| fm F.ACQ_CTRL_SITE ||| fm F.ACQ_CTRL_BOUND ||| fm H.MON_MEM_BOUND |||
    fm H.MON_MEM_SITE
theorem State.takeUnits_keeps (s : State) (e : SiteEntry) : Keeps State.takeUnits_w s (s.takeUnits e) := by
  unfold State.takeUnits
  repeat' first
    | (extract_lets +onlyGivenNames x1; clear_value (hx : x1 = _); refine Keeps.cut x1 ?_ (fun h => ?_); rw [hx]; clear hx x1; rotate_left; clear hx; rotate_right)
    | (extract_lets +onlyGivenNames x1; clear_value (hx : x1 = _); refine Keeps.cut1 x1 ?_ (fun h => ?_); rw [hx]; clear hx x1; rotate_left; clear hx; rotate_right)
    | (extract_lets +onlyGivenNames x1; clear_value (hx : x1 = _); refine Keeps.cut2 x1 ?_ (fun h => ?_); rw [hx]; clear hx x1; rotate_left; clear hx; rotate_right)
    | (extract_lets +onlyGivenNames x1; clear_value (hx : x1 = _); clear hx)
    | with_reducible assumption
    | with_reducible exact Keeps.refl _ _
    | decide +kernel
    | with_reducible apply Keeps.putA
    | with_reducible apply Keeps.setBA
    | with_reducible refine Keeps.eachA ?_ (fun _ _ => ?_)
    | with_reducible apply Keeps.iteA

def State.siteRestore_w : Nat := fm F.SITE_RUN_RUN ||| fm F.SITE_REC_LOST_LOST ||| fm F.SITE_REC_WR_LO_WR_LO |||
    fm F.SITE_REC_WR_HI_WR_HI
theorem State.siteRestore_keeps (s : State) (e : SiteEntry) : Keeps State.siteRestore_w s (s.siteRestore e) := by
  unfold State.siteRestore
  repeat' first
    | (extract_lets +onlyGivenNames x1; clear_value (hx : x1 = _); refine Keeps.cut x1 ?_ (fun h => ?_); rw [hx]; clear hx x1; rotate_left; clear hx; rotate_right)
    | (extract_lets +onlyGivenNames x1; clear_value (hx : x1 = _); refine Keeps.cut1 x1 ?_ (fun h => ?_); rw [hx]; clear hx x1; rotate_left; clear hx; rotate_right)
    | (extract_lets +onlyGivenNames x1; clear_value (hx : x1 = _); refine Keeps.cut2 x1 ?_ (fun h => ?_); rw [hx]; clear hx x1; rotate_left; clear hx; rotate_right)
    | (extract_lets +onlyGivenNames x1; clear_value (hx : x1 = _); clear hx)
    | with_reducible assumption
    | with_reducible exact Keeps.refl _ _
    | decide +kernel
    | with_reducible apply Keeps.putA
    | with_reducible apply Keeps.put2A

def State.siteConfig_w : Nat := fm F.SEQ_UNDERRUN_POLICY ||| fm F.SEQ_UNDERRUN_STALL_LIMIT_US |||
    fm F.SEQ_START_TMO_TMO_MS ||| fm F.SEQ_START_ENTRY ||| fm F.ENG_CTRL_STEAL_EN ||| fm H.ENG_SITE |||
    fm F.SITE_STATE_STEAL_EN ||| fm F.SITE_STATE_END_SAFE ||| fm F.SITE_STATE_ENGINE ||| fm F.SITE_STATE_TILE
theorem State.siteConfig_keeps (s : State) (e : SiteEntry) : Keeps State.siteConfig_w s (s.siteConfig e) := by
  unfold State.siteConfig
  repeat' first
    | (extract_lets +onlyGivenNames x1; clear_value (hx : x1 = _); refine Keeps.cut x1 ?_ (fun h => ?_); rw [hx]; clear hx x1; rotate_left; clear hx; rotate_right)
    | (extract_lets +onlyGivenNames x1; clear_value (hx : x1 = _); refine Keeps.cut1 x1 ?_ (fun h => ?_); rw [hx]; clear hx x1; rotate_left; clear hx; rotate_right)
    | (extract_lets +onlyGivenNames x1; clear_value (hx : x1 = _); refine Keeps.cut2 x1 ?_ (fun h => ?_); rw [hx]; clear hx x1; rotate_left; clear hx; rotate_right)
    | (extract_lets +onlyGivenNames x1; clear_value (hx : x1 = _); clear hx)
    | with_reducible assumption
    | with_reducible exact Keeps.refl _ _
    | decide +kernel
    | with_reducible apply Keeps.putA
    | with_reducible apply Keeps.setBA
    | with_reducible apply Keeps.iteA

def State.freeEngine_w : Nat := fm H.ENG_SITE ||| fm F.ENG_CTRL_STEAL_EN
theorem State.freeEngine_keeps (s : State) (e : SiteEntry) : Keeps State.freeEngine_w s (s.freeEngine e) := by
  unfold State.freeEngine
  repeat' first
    | with_reducible assumption
    | with_reducible exact Keeps.refl _ _
    | decide +kernel
    | with_reducible apply Keeps.setBA
    | with_reducible apply Keeps.clearA

def State.bindEntry_w : Nat := m_entries ||| State.freeUnits_w ||| State.freeEngine_w ||| State.takeUnits_w |||
    State.siteConfig_w ||| State.siteRestore_w ||| State.toSiteState_w ||| State.calBoundary_w ||| State.stealUpdate_w |||
    State.engIdleStart_w
theorem State.bindEntry_keeps (s : State) (e : SiteEntry) : Keeps State.bindEntry_w s (s.bindEntry e) := by
  unfold State.bindEntry
  repeat' first
    | (extract_lets +onlyGivenNames x1; clear_value (hx : x1 = _); refine Keeps.cut x1 ?_ (fun h => ?_); rw [hx]; clear hx x1; rotate_left; clear hx; rotate_right)
    | (extract_lets +onlyGivenNames x1; clear_value (hx : x1 = _); refine Keeps.cut1 x1 ?_ (fun h => ?_); rw [hx]; clear hx x1; rotate_left; clear hx; rotate_right)
    | (extract_lets +onlyGivenNames x1; clear_value (hx : x1 = _); refine Keeps.cut2 x1 ?_ (fun h => ?_); rw [hx]; clear hx x1; rotate_left; clear hx; rotate_right)
    | (extract_lets +onlyGivenNames x1; clear_value (hx : x1 = _); clear hx)
    | with_reducible assumption
    | with_reducible exact Keeps.refl _ _
    | decide +kernel
    | with_reducible apply Keeps.via (State.freeUnits_keeps ..)
    | with_reducible apply Keeps.via (State.freeEngine_keeps ..)
    | with_reducible apply Keeps.via (State.takeUnits_keeps ..)
    | with_reducible apply Keeps.via (State.siteConfig_keeps ..)
    | with_reducible apply Keeps.via (State.siteRestore_keeps ..)
    | with_reducible apply Keeps.via (State.toSiteState_keeps ..)
    | with_reducible apply Keeps.via (State.calBoundary_keeps ..)
    | with_reducible apply Keeps.via (State.stealUpdate_keeps ..)
    | with_reducible apply Keeps.via (State.engIdleStart_keeps ..)
    | with_reducible apply Keeps.iteA
    | split
    | exact fun hw => by
        obtain ⟨w1, w2, w3, w4, w5, w6, w7, w8, w9, w10, w11⟩ := hw
        first | exact memSetBytes_wf _ _ _ ‹_› | exact memSetByte_wf _ _ _ ‹_› | exact memClear_wf _ _ _ ‹_› | exact keysRise_filter _ _ ‹_› | exact keysRise_insKey _ _ _ ‹_› | exact keysRise_storeKey _ _ _ ‹_› | exact storeWf_storeKey _ _ _ ‹_› | exact storeWf_filter _ _ ‹_› | rfl
    | with_reducible refine Keeps.trans ?_ (Keeps.c_entries _ ?_ ?_)

def State.unbindSite_w : Nat := fm F.SITE_STATE_STEAL_EN ||| fm F.SITE_STATE_END_SAFE ||| fm F.SITE_STATE_ENGINE |||
    fm F.SITE_STATE_TILE ||| m_entries ||| State.freeUnits_w ||| State.freeEngine_w ||| State.toSiteState_w |||
    State.stealUpdate_w
theorem State.unbindSite_keeps (s : State) (i : Nat) : Keeps State.unbindSite_w s (s.unbindSite i) := by
  unfold State.unbindSite
  repeat' first
    | (extract_lets +onlyGivenNames x1; clear_value (hx : x1 = _); refine Keeps.cut x1 ?_ (fun h => ?_); rw [hx]; clear hx x1; rotate_left; clear hx; rotate_right)
    | (extract_lets +onlyGivenNames x1; clear_value (hx : x1 = _); refine Keeps.cut1 x1 ?_ (fun h => ?_); rw [hx]; clear hx x1; rotate_left; clear hx; rotate_right)
    | (extract_lets +onlyGivenNames x1; clear_value (hx : x1 = _); refine Keeps.cut2 x1 ?_ (fun h => ?_); rw [hx]; clear hx x1; rotate_left; clear hx; rotate_right)
    | (extract_lets +onlyGivenNames x1; clear_value (hx : x1 = _); clear hx)
    | with_reducible assumption
    | with_reducible exact Keeps.refl _ _
    | decide +kernel
    | with_reducible apply Keeps.clearA
    | with_reducible apply Keeps.via (State.freeUnits_keeps ..)
    | with_reducible apply Keeps.via (State.freeEngine_keeps ..)
    | with_reducible apply Keeps.via (State.toSiteState_keeps ..)
    | with_reducible apply Keeps.via (State.stealUpdate_keeps ..)
    | split
    | exact fun hw => by
        obtain ⟨w1, w2, w3, w4, w5, w6, w7, w8, w9, w10, w11⟩ := hw
        first | exact memSetBytes_wf _ _ _ ‹_› | exact memSetByte_wf _ _ _ ‹_› | exact memClear_wf _ _ _ ‹_› | exact keysRise_filter _ _ ‹_› | exact keysRise_insKey _ _ _ ‹_› | exact keysRise_storeKey _ _ _ ‹_› | exact storeWf_storeKey _ _ _ ‹_› | exact storeWf_filter _ _ ‹_› | rfl
    | with_reducible refine Keeps.trans ?_ (Keeps.c_entries _ ?_ ?_)

def State.siteBind_w : Nat := State.serve_w ||| State.answerSites_w ||| State.bindEntry_w ||| State.answerOk_w |||
    State.answerErr_w
theorem State.siteBind_keeps (s : State) (h : Hdr) (l : List Byte) : Keeps State.siteBind_w s (s.siteBind h l) := by
  unfold State.siteBind
  repeat' first
    | (extract_lets +onlyGivenNames x1; clear_value (hx : x1 = _); refine Keeps.cut x1 ?_ (fun h => ?_); rw [hx]; clear hx x1; rotate_left; clear hx; rotate_right)
    | (extract_lets +onlyGivenNames x1; clear_value (hx : x1 = _); refine Keeps.cut1 x1 ?_ (fun h => ?_); rw [hx]; clear hx x1; rotate_left; clear hx; rotate_right)
    | (extract_lets +onlyGivenNames x1; clear_value (hx : x1 = _); refine Keeps.cut2 x1 ?_ (fun h => ?_); rw [hx]; clear hx x1; rotate_left; clear hx; rotate_right)
    | (extract_lets +onlyGivenNames x1; clear_value (hx : x1 = _); clear hx)
    | with_reducible assumption
    | with_reducible exact Keeps.refl _ _
    | decide +kernel
    | with_reducible apply Keeps.trans ?_ (State.serve_keeps ?_ ?_)
    | with_reducible apply Keeps.via (State.answerSites_keeps ..)
    | with_reducible apply Keeps.via (State.bindEntry_keeps ..)
    | with_reducible apply Keeps.via (State.answerOk_keeps ..)
    | with_reducible apply Keeps.via (State.answerErr_keeps ..)
    | with_reducible apply Keeps.iteA
    | with_reducible apply Keeps.ite1
    | intro _

def State.siteUnbind_w : Nat := m_safe ||| State.serve_w ||| State.answerErr_w ||| State.answerSites_w ||| State.answerOk_w
theorem State.siteUnbind_keeps (s : State) (h : Hdr) (mask : Nat) : Keeps State.siteUnbind_w s (s.siteUnbind h mask) := by
  unfold State.siteUnbind
  repeat' first
    | (extract_lets +onlyGivenNames x1; clear_value (hx : x1 = _); refine Keeps.cut x1 ?_ (fun h => ?_); rw [hx]; clear hx x1; rotate_left; clear hx; rotate_right)
    | (extract_lets +onlyGivenNames x1; clear_value (hx : x1 = _); refine Keeps.cut1 x1 ?_ (fun h => ?_); rw [hx]; clear hx x1; rotate_left; clear hx; rotate_right)
    | (extract_lets +onlyGivenNames x1; clear_value (hx : x1 = _); refine Keeps.cut2 x1 ?_ (fun h => ?_); rw [hx]; clear hx x1; rotate_left; clear hx; rotate_right)
    | (extract_lets +onlyGivenNames x1; clear_value (hx : x1 = _); clear hx)
    | with_reducible assumption
    | with_reducible exact Keeps.refl _ _
    | decide +kernel
    | with_reducible apply Keeps.trans ?_ (State.serve_keeps ?_ ?_)
    | with_reducible apply Keeps.via (State.answerErr_keeps ..)
    | with_reducible apply Keeps.via (State.answerSites_keeps ..)
    | with_reducible apply Keeps.via (State.answerOk_keeps ..)
    | with_reducible apply Keeps.iteA
    | with_reducible apply Keeps.ite1
    | split
    | with_reducible refine Keeps.trans ?_ (Keeps.c_safe _ ?_)
    | intro _

def State.beginTest_w : Nat := fm F.CH_FAILCNT_COUNT ||| fm F.CH_FIRSTFAIL_LO_VEC_LO ||| fm F.CH_FIRSTFAIL_HI_VEC_HI |||
    fm F.SMUW_JUMP_REQ_PENDING ||| fm F.SMUW_JUMP_REQ_JUMP_LATE ||| fm H.SW_STARTED ||| fm F.SITE_RUN_RUN |||
    fm H.ST_IS_RETEST ||| fm F.SITE_RUN_RETESTS ||| fm H.ST_THR ||| fm H.ENG_START_PEND ||| fm H.ENG_START_CUT |||
    fm H.SQ_SRC_NEXT ||| m_failq ||| fms testCleared ||| State.recHdr_w ||| State.recAppend_w ||| State.toSiteState_w |||
    State.tsetUse_w ||| State.requestStart_w
theorem State.beginTest_keeps (s : State) (i kind : Nat) : Keeps State.beginTest_w s (s.beginTest i kind) := by
  unfold State.beginTest
  repeat' first
    | (extract_lets +onlyGivenNames x1; clear_value (hx : x1 = _); refine Keeps.cut x1 ?_ (fun h => ?_); rw [hx]; clear hx x1; rotate_left; clear hx; rotate_right)
    | (extract_lets +onlyGivenNames x1; clear_value (hx : x1 = _); refine Keeps.cut1 x1 ?_ (fun h => ?_); rw [hx]; clear hx x1; rotate_left; clear hx; rotate_right)
    | (extract_lets +onlyGivenNames x1; clear_value (hx : x1 = _); refine Keeps.cut2 x1 ?_ (fun h => ?_); rw [hx]; clear hx x1; rotate_left; clear hx; rotate_right)
    | (extract_lets +onlyGivenNames x1; clear_value (hx : x1 = _); clear hx)
    | with_reducible assumption
    | with_reducible exact Keeps.refl _ _
    | decide +kernel
    | with_reducible apply Keeps.putA
    | with_reducible apply Keeps.setBA
    | with_reducible apply Keeps.incWA
    | with_reducible apply Keeps.incSatA
    | with_reducible apply Keeps.clearA
    | with_reducible apply Keeps.clearsA
    | with_reducible refine Keeps.eachA ?_ (fun _ _ => ?_)
    | with_reducible refine Keeps.foldlA ?_ (fun _ _ => ?_)
    | with_reducible apply Keeps.via (State.recHdr_keeps ..)
    | with_reducible apply Keeps.via (State.recAppend_keeps ..)
    | with_reducible apply Keeps.via (State.toSiteState_keeps ..)
    | with_reducible apply Keeps.via (State.tsetUse_keeps ..)
    | with_reducible apply Keeps.via (State.requestStart_keeps ..)
    | with_reducible apply Keeps.iteA
    | split
    | with_reducible refine Keeps.trans ?_ (Keeps.c_failq _ ?_)

def State.writeResult_w : Nat := fm F.SITE_BIN_BIN ||| fm F.SITE_BIN_CAUSE ||| State.recResult_w ||| State.recHdr_w
theorem State.writeResult_keeps (s : State) (i : Nat) : Keeps State.writeResult_w s (s.writeResult i) := by
  unfold State.writeResult
  repeat' first
    | (extract_lets +onlyGivenNames x1; clear_value (hx : x1 = _); refine Keeps.cut x1 ?_ (fun h => ?_); rw [hx]; clear hx x1; rotate_left; clear hx; rotate_right)
    | (extract_lets +onlyGivenNames x1; clear_value (hx : x1 = _); refine Keeps.cut1 x1 ?_ (fun h => ?_); rw [hx]; clear hx x1; rotate_left; clear hx; rotate_right)
    | (extract_lets +onlyGivenNames x1; clear_value (hx : x1 = _); refine Keeps.cut2 x1 ?_ (fun h => ?_); rw [hx]; clear hx x1; rotate_left; clear hx; rotate_right)
    | (extract_lets +onlyGivenNames x1; clear_value (hx : x1 = _); clear hx)
    | with_reducible assumption
    | with_reducible exact Keeps.refl _ _
    | decide +kernel
    | with_reducible apply Keeps.putA
    | with_reducible apply Keeps.via (State.recResult_keeps ..)
    | with_reducible apply Keeps.via (State.recHdr_keeps ..)
    | split

def State.siteDone_w : Nat := State.event_w
theorem State.siteDone_keeps (s : State) (i cause bin run : Nat) : Keeps State.siteDone_w s (s.siteDone i cause bin run) := by
  unfold State.siteDone
  repeat' first
    | with_reducible assumption
    | with_reducible exact Keeps.refl _ _
    | decide +kernel
    | with_reducible apply Keeps.via (State.event_keeps ..)

def State.testEnd_w : Nat := fm F.SITE_STATE_FINISHING ||| State.writeResult_w ||| State.beginTest_w |||
    State.toSiteState_w ||| State.calBoundary_w ||| State.siteDone_w
theorem State.testEnd_keeps (s : State) (i : Nat) : Keeps State.testEnd_w s (s.testEnd i) := by
  unfold State.testEnd
  repeat' first
    | (extract_lets +onlyGivenNames x1; clear_value (hx : x1 = _); refine Keeps.cut x1 ?_ (fun h => ?_); rw [hx]; clear hx x1; rotate_left; clear hx; rotate_right)
    | (extract_lets +onlyGivenNames x1; clear_value (hx : x1 = _); refine Keeps.cut1 x1 ?_ (fun h => ?_); rw [hx]; clear hx x1; rotate_left; clear hx; rotate_right)
    | (extract_lets +onlyGivenNames x1; clear_value (hx : x1 = _); refine Keeps.cut2 x1 ?_ (fun h => ?_); rw [hx]; clear hx x1; rotate_left; clear hx; rotate_right)
    | (extract_lets +onlyGivenNames x1; clear_value (hx : x1 = _); clear hx)
    | with_reducible assumption
    | with_reducible exact Keeps.refl _ _
    | decide +kernel
    | with_reducible apply Keeps.setBA
    | with_reducible apply Keeps.via (State.writeResult_keeps ..)
    | with_reducible apply Keeps.via (State.beginTest_keeps ..)
    | with_reducible apply Keeps.via (State.toSiteState_keeps ..)
    | with_reducible apply Keeps.via (State.calBoundary_keeps ..)
    | with_reducible apply Keeps.via (State.siteDone_keeps ..)
    | with_reducible apply Keeps.iteA

def State.finishUnits_w : Nat := State.waveStallEnd_w ||| State.acqSiteEnd_w ||| State.tdcDisarm_w ||| State.tdcDrain_w |||
    State.failDrain_w ||| State.failPush_w
theorem State.finishUnits_keeps (s : State) (i : Nat) : Keeps State.finishUnits_w s (s.finishUnits i) := by
  unfold State.finishUnits
  repeat' first
    | (extract_lets +onlyGivenNames x1; clear_value (hx : x1 = _); refine Keeps.cut x1 ?_ (fun h => ?_); rw [hx]; clear hx x1; rotate_left; clear hx; rotate_right)
    | (extract_lets +onlyGivenNames x1; clear_value (hx : x1 = _); refine Keeps.cut1 x1 ?_ (fun h => ?_); rw [hx]; clear hx x1; rotate_left; clear hx; rotate_right)
    | (extract_lets +onlyGivenNames x1; clear_value (hx : x1 = _); refine Keeps.cut2 x1 ?_ (fun h => ?_); rw [hx]; clear hx x1; rotate_left; clear hx; rotate_right)
    | (extract_lets +onlyGivenNames x1; clear_value (hx : x1 = _); clear hx)
    | with_reducible assumption
    | with_reducible exact Keeps.refl _ _
    | decide +kernel
    | with_reducible refine Keeps.eachA ?_ (fun _ _ => ?_)
    | with_reducible apply Keeps.via (State.waveStallEnd_keeps ..)
    | with_reducible apply Keeps.via (State.acqSiteEnd_keeps ..)
    | with_reducible apply Keeps.via (State.tdcDisarm_keeps ..)
    | with_reducible apply Keeps.via (State.tdcDrain_keeps ..)
    | with_reducible apply Keeps.via (State.failDrain_keeps ..)
    | with_reducible apply Keeps.via (State.failPush_keeps ..)
    | split

def State.siteFinish_w : Nat := State.finishUnits_w ||| State.testEnd_w
theorem State.siteFinish_keeps (s : State) (i : Nat) : Keeps State.siteFinish_w s (s.siteFinish i) := by
  unfold State.siteFinish
  repeat' first
    | (extract_lets +onlyGivenNames x1; clear_value (hx : x1 = _); refine Keeps.cut x1 ?_ (fun h => ?_); rw [hx]; clear hx x1; rotate_left; clear hx; rotate_right)
    | (extract_lets +onlyGivenNames x1; clear_value (hx : x1 = _); refine Keeps.cut1 x1 ?_ (fun h => ?_); rw [hx]; clear hx x1; rotate_left; clear hx; rotate_right)
    | (extract_lets +onlyGivenNames x1; clear_value (hx : x1 = _); refine Keeps.cut2 x1 ?_ (fun h => ?_); rw [hx]; clear hx x1; rotate_left; clear hx; rotate_right)
    | (extract_lets +onlyGivenNames x1; clear_value (hx : x1 = _); clear hx)
    | with_reducible assumption
    | with_reducible exact Keeps.refl _ _
    | decide +kernel
    | with_reducible apply Keeps.via (State.finishUnits_keeps ..)
    | with_reducible apply Keeps.via (State.testEnd_keeps ..)
    | with_reducible apply Keeps.iteA

def State.sitePause_w : Nat := fm H.SQ_PAUSE_REQ ||| fm H.SQ_CHAIN_PAUSED ||| State.waitDrop_w ||| State.sitePaused_w
theorem State.sitePause_keeps (s : State) (i : Nat) : Keeps State.sitePause_w s (s.sitePause i) := by
  unfold State.sitePause
  repeat' first
    | with_reducible assumption
    | with_reducible exact Keeps.refl _ _
    | decide +kernel
    | with_reducible apply Keeps.setBA
    | with_reducible apply Keeps.via (State.waitDrop_keeps ..)
    | with_reducible apply Keeps.via (State.sitePaused_keeps ..)
    | with_reducible apply Keeps.iteA

def State.siteResume_w : Nat := fm H.SQ_CHAIN_PAUSED ||| fm H.SQ_WAIT ||| fm F.SITE_TSTAT_RESTARTS ||| State.toSiteState_w
theorem State.siteResume_keeps (s : State) (i : Nat) : Keeps State.siteResume_w s (s.siteResume i) := by
  unfold State.siteResume
  repeat' first
    | (extract_lets +onlyGivenNames x1; clear_value (hx : x1 = _); refine Keeps.cut x1 ?_ (fun h => ?_); rw [hx]; clear hx x1; rotate_left; clear hx; rotate_right)
    | (extract_lets +onlyGivenNames x1; clear_value (hx : x1 = _); refine Keeps.cut1 x1 ?_ (fun h => ?_); rw [hx]; clear hx x1; rotate_left; clear hx; rotate_right)
    | (extract_lets +onlyGivenNames x1; clear_value (hx : x1 = _); refine Keeps.cut2 x1 ?_ (fun h => ?_); rw [hx]; clear hx x1; rotate_left; clear hx; rotate_right)
    | (extract_lets +onlyGivenNames x1; clear_value (hx : x1 = _); clear hx)
    | with_reducible assumption
    | with_reducible exact Keeps.refl _ _
    | decide +kernel
    | with_reducible apply Keeps.putA
    | with_reducible apply Keeps.setBA
    | with_reducible apply Keeps.incSatA
    | with_reducible apply Keeps.via (State.toSiteState_keeps ..)
    | with_reducible apply Keeps.iteA

def State.siteRetest_w : Nat := fm H.SQ_CHAIN_PAUSED ||| fm H.ST_HALTED ||| fm H.ST_NEXT ||| fm F.SITE_STATE_FINISHING |||
    State.testCause_w ||| State.waitDrop_w ||| State.toSiteState_w ||| State.beginTest_w
theorem State.siteRetest_keeps (s : State) (i : Nat) : Keeps State.siteRetest_w s (s.siteRetest i) := by
  unfold State.siteRetest
  repeat' first
    | (extract_lets +onlyGivenNames x1; clear_value (hx : x1 = _); refine Keeps.cut x1 ?_ (fun h => ?_); rw [hx]; clear hx x1; rotate_left; clear hx; rotate_right)
    | (extract_lets +onlyGivenNames x1; clear_value (hx : x1 = _); refine Keeps.cut1 x1 ?_ (fun h => ?_); rw [hx]; clear hx x1; rotate_left; clear hx; rotate_right)
    | (extract_lets +onlyGivenNames x1; clear_value (hx : x1 = _); refine Keeps.cut2 x1 ?_ (fun h => ?_); rw [hx]; clear hx x1; rotate_left; clear hx; rotate_right)
    | (extract_lets +onlyGivenNames x1; clear_value (hx : x1 = _); clear hx)
    | with_reducible assumption
    | with_reducible exact Keeps.refl _ _
    | decide +kernel
    | with_reducible apply Keeps.putA
    | with_reducible apply Keeps.setBA
    | with_reducible apply Keeps.via (State.testCause_keeps ..)
    | with_reducible apply Keeps.via (State.waitDrop_keeps ..)
    | with_reducible apply Keeps.via (State.toSiteState_keeps ..)
    | with_reducible apply Keeps.via (State.beginTest_keeps ..)
    | with_reducible apply Keeps.iteA

def State.siteAbort_w : Nat := fm H.ST_CAUSE ||| fm H.ST_BIN_FORCE ||| fm H.ST_TASKS_CUT ||| fm H.ST_NEXT ||| fm H.ST_OUT_SAFE ||| State.siteOutSafe_w |||
    State.toSiteState_w ||| State.calBoundary_w ||| State.dqDropSite_w ||| State.testCause_w ||| State.chainStopNext_w |||
    State.engAbort_w
theorem State.siteAbort_keeps (s : State) (i : Nat) : Keeps State.siteAbort_w s (s.siteAbort i) := by
  unfold State.siteAbort
  repeat' first
    | (extract_lets +onlyGivenNames x1; clear_value (hx : x1 = _); refine Keeps.cut x1 ?_ (fun h => ?_); rw [hx]; clear hx x1; rotate_left; clear hx; rotate_right)
    | (extract_lets +onlyGivenNames x1; clear_value (hx : x1 = _); refine Keeps.cut1 x1 ?_ (fun h => ?_); rw [hx]; clear hx x1; rotate_left; clear hx; rotate_right)
    | (extract_lets +onlyGivenNames x1; clear_value (hx : x1 = _); refine Keeps.cut2 x1 ?_ (fun h => ?_); rw [hx]; clear hx x1; rotate_left; clear hx; rotate_right)
    | (extract_lets +onlyGivenNames x1; clear_value (hx : x1 = _); clear hx)
    | with_reducible assumption
    | with_reducible exact Keeps.refl _ _
    | decide +kernel
    | with_reducible apply Keeps.putA
    | with_reducible apply Keeps.setBA
    | with_reducible apply Keeps.via (State.siteOutSafe_keeps ..)
    | with_reducible apply Keeps.via (State.toSiteState_keeps ..)
    | with_reducible apply Keeps.via (State.calBoundary_keeps ..)
    | with_reducible apply Keeps.via (State.dqDropSite_keeps ..)
    | with_reducible apply Keeps.via (State.testCause_keeps ..)
    | with_reducible apply Keeps.via (State.chainStopNext_keeps ..)
    | with_reducible apply Keeps.via (State.engAbort_keeps ..)
    | with_reducible apply Keeps.iteA

def State.siteCmd_w : Nat := State.beginTest_w ||| State.sitePause_w ||| State.siteResume_w ||| State.siteRetest_w |||
    State.siteAbort_w
theorem State.siteCmd_keeps (s : State) (cmd i : Nat) : Keeps State.siteCmd_w s (s.siteCmd cmd i) := by
  unfold State.siteCmd
  repeat' first
    | with_reducible assumption
    | with_reducible exact Keeps.refl _ _
    | decide +kernel
    | with_reducible apply Keeps.via (State.beginTest_keeps ..)
    | with_reducible apply Keeps.via (State.sitePause_keeps ..)
    | with_reducible apply Keeps.via (State.siteResume_keeps ..)
    | with_reducible apply Keeps.via (State.siteRetest_keeps ..)
    | with_reducible apply Keeps.via (State.siteAbort_keeps ..)
    | split

def State.siteCmds_w : Nat := State.siteCmd_w
theorem State.siteCmds_keeps (s : State) (cmd : Nat) (sites : List Nat) : Keeps State.siteCmds_w s (s.siteCmds cmd sites) := by
  unfold State.siteCmds
  repeat' first
    | with_reducible assumption
    | with_reducible exact Keeps.refl _ _
    | decide +kernel
    | with_reducible refine Keeps.eachA ?_ (fun _ _ => ?_)
    | with_reducible apply Keeps.via (State.siteCmd_keeps ..)

def State.siteControl_w : Nat := m_lastResp ||| State.serve_w ||| State.answerErr_w ||| State.answerSites_w |||
    State.siteCmds_w ||| State.answerOk_w
theorem State.siteControl_keeps (s : State) (o : SiteOrigin) (cmd mask : Nat) : Keeps State.siteControl_w s (s.siteControl o cmd mask) := by
  unfold State.siteControl
  repeat' first
    | (extract_lets +onlyGivenNames x1; clear_value (hx : x1 = _); refine Keeps.cut x1 ?_ (fun h => ?_); rw [hx]; clear hx x1; rotate_left; clear hx; rotate_right)
    | (extract_lets +onlyGivenNames x1; clear_value (hx : x1 = _); refine Keeps.cut1 x1 ?_ (fun h => ?_); rw [hx]; clear hx x1; rotate_left; clear hx; rotate_right)
    | (extract_lets +onlyGivenNames x1; clear_value (hx : x1 = _); refine Keeps.cut2 x1 ?_ (fun h => ?_); rw [hx]; clear hx x1; rotate_left; clear hx; rotate_right)
    | (extract_lets +onlyGivenNames x1; clear_value (hx : x1 = _); clear hx)
    | with_reducible assumption
    | with_reducible exact Keeps.refl _ _
    | decide +kernel
    | with_reducible apply Keeps.trans ?_ (State.serve_keeps ?_ ?_)
    | with_reducible apply Keeps.via (State.answerErr_keeps ..)
    | with_reducible apply Keeps.via (State.answerSites_keeps ..)
    | with_reducible apply Keeps.via (State.siteCmds_keeps ..)
    | with_reducible apply Keeps.via (State.answerOk_keeps ..)
    | with_reducible apply Keeps.iteA
    | with_reducible apply Keeps.ite1
    | split
    | with_reducible refine Keeps.trans ?_ (Keeps.c_lastResp _ ?_)
    | intro _

def State.headerClear_w : Nat := State.celPut_w
theorem State.headerClear_keeps (s : State) (e : SiteEntry) : Keeps State.headerClear_w s (s.headerClear e) := by
  unfold State.headerClear
  repeat' first
    | with_reducible assumption
    | with_reducible exact Keeps.refl _ _
    | decide +kernel
    | with_reducible apply Keeps.via (State.celPut_keeps ..)

def State.closeCut_w : Nat := fm F.SITE_BIN_BIN ||| fm F.SITE_BIN_CAUSE ||| State.recResult_w ||| State.recHdr_w |||
    State.siteDone_w
theorem State.closeCut_keeps (s : State) (e : SiteEntry) (held : Bool) : Keeps State.closeCut_w s (s.closeCut e held) := by
  unfold State.closeCut
  repeat' first
    | (extract_lets +onlyGivenNames x1; clear_value (hx : x1 = _); refine Keeps.cut x1 ?_ (fun h => ?_); rw [hx]; clear hx x1; rotate_left; clear hx; rotate_right)
    | (extract_lets +onlyGivenNames x1; clear_value (hx : x1 = _); refine Keeps.cut1 x1 ?_ (fun h => ?_); rw [hx]; clear hx x1; rotate_left; clear hx; rotate_right)
    | (extract_lets +onlyGivenNames x1; clear_value (hx : x1 = _); refine Keeps.cut2 x1 ?_ (fun h => ?_); rw [hx]; clear hx x1; rotate_left; clear hx; rotate_right)
    | (extract_lets +onlyGivenNames x1; clear_value (hx : x1 = _); clear hx)
    | with_reducible assumption
    | with_reducible exact Keeps.refl _ _
    | decide +kernel
    | with_reducible apply Keeps.putA
    | with_reducible apply Keeps.via (State.recResult_keeps ..)
    | with_reducible apply Keeps.via (State.recHdr_keeps ..)
    | with_reducible apply Keeps.via (State.siteDone_keeps ..)

def State.siteAfterReset_w : Nat := State.headerClear_w ||| State.closeCut_w ||| State.siteRestore_w ||| State.toSiteState_w
theorem State.siteAfterReset_keeps (s : State) (e : SiteEntry) (held lost : Bool) : Keeps State.siteAfterReset_w s (s.siteAfterReset e held lost) := by
  unfold State.siteAfterReset
  repeat' first
    | (extract_lets +onlyGivenNames x1; clear_value (hx : x1 = _); refine Keeps.cut x1 ?_ (fun h => ?_); rw [hx]; clear hx x1; rotate_left; clear hx; rotate_right)
    | (extract_lets +onlyGivenNames x1; clear_value (hx : x1 = _); refine Keeps.cut1 x1 ?_ (fun h => ?_); rw [hx]; clear hx x1; rotate_left; clear hx; rotate_right)
    | (extract_lets +onlyGivenNames x1; clear_value (hx : x1 = _); refine Keeps.cut2 x1 ?_ (fun h => ?_); rw [hx]; clear hx x1; rotate_left; clear hx; rotate_right)
    | (extract_lets +onlyGivenNames x1; clear_value (hx : x1 = _); clear hx)
    | with_reducible assumption
    | with_reducible exact Keeps.refl _ _
    | decide +kernel
    | with_reducible apply Keeps.via (State.headerClear_keeps ..)
    | with_reducible apply Keeps.via (State.closeCut_keeps ..)
    | with_reducible apply Keeps.via (State.siteRestore_keeps ..)
    | with_reducible apply Keeps.via (State.toSiteState_keeps ..)
    | with_reducible apply Keeps.iteA

end Sys2Proof.Machine
end

