-- ==== Sys2Proof/Laws/KeepsMonitors.lean ====
section
/-!
SUPPORT. What every operation of Machine/Monitors.lean can change: its mask and its Keeps lemma.
-/

set_option Elab.async false
set_option linter.all false

namespace Sys2Proof.Machine

def State.faultReach_w : Nat := State.seqStop_w ||| State.safeStart_w
theorem State.faultReach_keeps (s : State) (r : Nat) (site tile : Option Nat) : Keeps State.faultReach_w s (s.faultReach r site tile) := by
  unfold State.faultReach
  repeat' first
    | (extract_lets +onlyGivenNames x1; clear_value (hx : x1 = _); refine Keeps.cut x1 ?_ (fun h => ?_); rw [hx]; clear hx x1; rotate_left; clear hx; rotate_right)
    | (extract_lets +onlyGivenNames x1; clear_value (hx : x1 = _); refine Keeps.cut1 x1 ?_ (fun h => ?_); rw [hx]; clear hx x1; rotate_left; clear hx; rotate_right)
    | (extract_lets +onlyGivenNames x1; clear_value (hx : x1 = _); refine Keeps.cut2 x1 ?_ (fun h => ?_); rw [hx]; clear hx x1; rotate_left; clear hx; rotate_right)
    | (extract_lets +onlyGivenNames x1; clear_value (hx : x1 = _); clear hx)
    | with_reducible assumption
    | with_reducible exact Keeps.refl _ _
    | decide +kernel
    | with_reducible refine Keeps.eachA ?_ (fun _ _ => ?_)
    | with_reducible apply Keeps.via (State.seqStop_keeps ..)
    | with_reducible apply Keeps.via (State.safeStart_keeps ..)
    | with_reducible apply Keeps.iteA
    | split

def State.raiseFault_w : Nat := State.faultCore_w ||| State.faultReach_w
theorem State.raiseFault_keeps (s : State) (n unit : Nat) (site tile : Option Nat) (injected : Bool) : Keeps State.raiseFault_w s (s.raiseFault n unit site tile injected) := by
  unfold State.raiseFault
  repeat' first
    | (extract_lets +onlyGivenNames x1; clear_value (hx : x1 = _); refine Keeps.cut x1 ?_ (fun h => ?_); rw [hx]; clear hx x1; rotate_left; clear hx; rotate_right)
    | (extract_lets +onlyGivenNames x1; clear_value (hx : x1 = _); refine Keeps.cut1 x1 ?_ (fun h => ?_); rw [hx]; clear hx x1; rotate_left; clear hx; rotate_right)
    | (extract_lets +onlyGivenNames x1; clear_value (hx : x1 = _); refine Keeps.cut2 x1 ?_ (fun h => ?_); rw [hx]; clear hx x1; rotate_left; clear hx; rotate_right)
    | (extract_lets +onlyGivenNames x1; clear_value (hx : x1 = _); clear hx)
    | with_reducible assumption
    | with_reducible exact Keeps.refl _ _
    | decide +kernel
    | with_reducible apply Keeps.via (State.faultCore_keeps ..)
    | with_reducible apply Keeps.via (State.faultReach_keeps ..)

def State.faultRaise_w : Nat := State.raiseFault_w
theorem State.faultRaise_keeps (s : State) (n unit : Nat) (injected : Bool) : Keeps State.faultRaise_w s (s.faultRaise n unit injected) := by
  unfold State.faultRaise
  repeat' first
    | with_reducible assumption
    | with_reducible exact Keeps.refl _ _
    | decide +kernel
    | with_reducible apply Keeps.via (State.raiseFault_keeps ..)
    | with_reducible apply Keeps.iteA

def State.faultAck_w : Nat := fm F.FLT_SUM_BUSY ||| fm H.FLT_END ||| fm F.FLT_SUM_MERGED ||| State.ok_w ||| State.bad_w
theorem State.faultAck_keeps (s : State) (n : Nat) : Keeps State.faultAck_w s (s.faultAck n).1 := by
  unfold State.faultAck
  repeat' first
    | with_reducible assumption
    | with_reducible exact Keeps.refl _ _
    | decide +kernel
    | with_reducible apply Keeps.putA
    | with_reducible apply Keeps.setBA
    | with_reducible apply Keeps.noDueA
    | with_reducible apply Keeps.via (State.ok_keeps ..)
    | with_reducible apply Keeps.via (State.bad_keeps ..)
    | with_reducible apply Keeps.iteA
    | with_reducible apply Keeps.ite1

def State.faultMark_w : Nat := m_fltLog
theorem State.faultMark_keeps (s : State) (a : Nat) : Keeps State.faultMark_w s (s.faultMark a) :=
  Keeps.c_fltLog _ (by decide +kernel) (fun v => memSetByte_wf _ _ _ v.2.2.2.2.2.1)

def State.faultEscalate_w : Nat := fm H.FLT_END ||| fm F.FLT_SUM_ESCALATED ||| m_now ||| State.faultMark_w |||
    State.faultReach_w ||| State.irq_w
theorem State.faultEscalate_keeps (s : State) : Keeps State.faultEscalate_w s (s.faultEscalate) := by
  unfold State.faultEscalate
  repeat' first
    | (extract_lets +onlyGivenNames x1; clear_value (hx : x1 = _); refine Keeps.cut x1 ?_ (fun h => ?_); rw [hx]; clear hx x1; rotate_left; clear hx; rotate_right)
    | (extract_lets +onlyGivenNames x1; clear_value (hx : x1 = _); refine Keeps.cut1 x1 ?_ (fun h => ?_); rw [hx]; clear hx x1; rotate_left; clear hx; rotate_right)
    | (extract_lets +onlyGivenNames x1; clear_value (hx : x1 = _); refine Keeps.cut2 x1 ?_ (fun h => ?_); rw [hx]; clear hx x1; rotate_left; clear hx; rotate_right)
    | (extract_lets +onlyGivenNames x1; clear_value (hx : x1 = _); clear hx)
    | with_reducible assumption
    | with_reducible exact Keeps.refl _ _
    | decide +kernel
    | with_reducible apply Keeps.setBA
    | with_reducible apply Keeps.noDueA
    | with_reducible apply Keeps.upToA
    | with_reducible apply Keeps.via (State.faultMark_keeps ..)
    | with_reducible apply Keeps.via (State.faultReach_keeps ..)
    | with_reducible apply Keeps.via (State.irq_keeps ..)
    | with_reducible apply Keeps.iteA
    | split

def State.monSee_w : Nat := fm H.MON_IN
theorem State.monSee_keeps (s : State) (i : Nat) (x : Int) : Keeps State.monSee_w s (s.monSee i x) := by
  unfold State.monSee
  repeat' first
    | with_reducible assumption
    | with_reducible exact Keeps.refl _ _
    | decide +kernel
    | with_reducible apply Keeps.putA

def State.armHi_w : Nat := fm F.MON_STAT_ARM_HI
theorem State.armHi_keeps (s : State) (i : Nat) : Keeps State.armHi_w s (s.armHi i) := by
  unfold State.armHi
  repeat' first
    | (extract_lets +onlyGivenNames x1; clear_value (hx : x1 = _); refine Keeps.cut x1 ?_ (fun h => ?_); rw [hx]; clear hx x1; rotate_left; clear hx; rotate_right)
    | (extract_lets +onlyGivenNames x1; clear_value (hx : x1 = _); refine Keeps.cut1 x1 ?_ (fun h => ?_); rw [hx]; clear hx x1; rotate_left; clear hx; rotate_right)
    | (extract_lets +onlyGivenNames x1; clear_value (hx : x1 = _); refine Keeps.cut2 x1 ?_ (fun h => ?_); rw [hx]; clear hx x1; rotate_left; clear hx; rotate_right)
    | (extract_lets +onlyGivenNames x1; clear_value (hx : x1 = _); clear hx)
    | with_reducible assumption
    | with_reducible exact Keeps.refl _ _
    | decide +kernel
    | with_reducible apply Keeps.putA
    | with_reducible apply Keeps.iteA

def State.armLo_w : Nat := fm F.MON_STAT_ARM_LO
theorem State.armLo_keeps (s : State) (i : Nat) : Keeps State.armLo_w s (s.armLo i) := by
  unfold State.armLo
  repeat' first
    | (extract_lets +onlyGivenNames x1; clear_value (hx : x1 = _); refine Keeps.cut x1 ?_ (fun h => ?_); rw [hx]; clear hx x1; rotate_left; clear hx; rotate_right)
    | (extract_lets +onlyGivenNames x1; clear_value (hx : x1 = _); refine Keeps.cut1 x1 ?_ (fun h => ?_); rw [hx]; clear hx x1; rotate_left; clear hx; rotate_right)
    | (extract_lets +onlyGivenNames x1; clear_value (hx : x1 = _); refine Keeps.cut2 x1 ?_ (fun h => ?_); rw [hx]; clear hx x1; rotate_left; clear hx; rotate_right)
    | (extract_lets +onlyGivenNames x1; clear_value (hx : x1 = _); clear hx)
    | with_reducible assumption
    | with_reducible exact Keeps.refl _ _
    | decide +kernel
    | with_reducible apply Keeps.putA
    | with_reducible apply Keeps.iteA

def State.armBoth_w : Nat := State.armHi_w ||| State.armLo_w
theorem State.armBoth_keeps (s : State) (i : Nat) : Keeps State.armBoth_w s (s.armBoth i) := by
  unfold State.armBoth
  repeat' first
    | with_reducible assumption
    | with_reducible exact Keeps.refl _ _
    | decide +kernel
    | with_reducible apply Keeps.via (State.armHi_keeps ..)
    | with_reducible apply Keeps.via (State.armLo_keeps ..)

def State.thresholdArming_w : Nat := fm F.MON_STAT_ARM_HI ||| fm F.MON_STAT_ARM_LO ||| State.monSee_w
theorem State.thresholdArming_keeps (s : State) (i : Nat) (input : Int) : Keeps State.thresholdArming_w s (s.thresholdArming i input) := by
  unfold State.thresholdArming
  repeat' first
    | (extract_lets +onlyGivenNames x1; clear_value (hx : x1 = _); refine Keeps.cut x1 ?_ (fun h => ?_); rw [hx]; clear hx x1; rotate_left; clear hx; rotate_right)
    | (extract_lets +onlyGivenNames x1; clear_value (hx : x1 = _); refine Keeps.cut1 x1 ?_ (fun h => ?_); rw [hx]; clear hx x1; rotate_left; clear hx; rotate_right)
    | (extract_lets +onlyGivenNames x1; clear_value (hx : x1 = _); refine Keeps.cut2 x1 ?_ (fun h => ?_); rw [hx]; clear hx x1; rotate_left; clear hx; rotate_right)
    | (extract_lets +onlyGivenNames x1; clear_value (hx : x1 = _); clear hx)
    | with_reducible assumption
    | with_reducible exact Keeps.refl _ _
    | decide +kernel
    | with_reducible apply Keeps.putA
    | with_reducible apply Keeps.via (State.monSee_keeps ..)
    | with_reducible apply Keeps.iteA

def State.tripRemoves_w : Nat := State.dpsTrip_w ||| State.smuTrip_w ||| State.chTrip_w
theorem State.tripRemoves_keeps (s : State) (i : Nat) : Keeps State.tripRemoves_w s (s.tripRemoves i) := by
  unfold State.tripRemoves
  repeat' first
    | (extract_lets +onlyGivenNames x1; clear_value (hx : x1 = _); refine Keeps.cut x1 ?_ (fun h => ?_); rw [hx]; clear hx x1; rotate_left; clear hx; rotate_right)
    | (extract_lets +onlyGivenNames x1; clear_value (hx : x1 = _); refine Keeps.cut1 x1 ?_ (fun h => ?_); rw [hx]; clear hx x1; rotate_left; clear hx; rotate_right)
    | (extract_lets +onlyGivenNames x1; clear_value (hx : x1 = _); refine Keeps.cut2 x1 ?_ (fun h => ?_); rw [hx]; clear hx x1; rotate_left; clear hx; rotate_right)
    | (extract_lets +onlyGivenNames x1; clear_value (hx : x1 = _); clear hx)
    | with_reducible assumption
    | with_reducible exact Keeps.refl _ _
    | decide +kernel
    | with_reducible refine Keeps.eachA ?_ (fun _ _ => ?_)
    | with_reducible apply Keeps.via (State.dpsTrip_keeps ..)
    | with_reducible apply Keeps.via (State.smuTrip_keeps ..)
    | with_reducible apply Keeps.via (State.chTrip_keeps ..)
    | with_reducible apply Keeps.iteA
    | split

def State.tripTells_w : Nat := fm H.ST_TRIPPED ||| State.pendTrap_w ||| State.faultRaise_w
theorem State.tripTells_keeps (s : State) (i : Nat) : Keeps State.tripTells_w s (s.tripTells i) := by
  unfold State.tripTells
  repeat' first
    | (extract_lets +onlyGivenNames x1; clear_value (hx : x1 = _); refine Keeps.cut x1 ?_ (fun h => ?_); rw [hx]; clear hx x1; rotate_left; clear hx; rotate_right)
    | (extract_lets +onlyGivenNames x1; clear_value (hx : x1 = _); refine Keeps.cut1 x1 ?_ (fun h => ?_); rw [hx]; clear hx x1; rotate_left; clear hx; rotate_right)
    | (extract_lets +onlyGivenNames x1; clear_value (hx : x1 = _); refine Keeps.cut2 x1 ?_ (fun h => ?_); rw [hx]; clear hx x1; rotate_left; clear hx; rotate_right)
    | (extract_lets +onlyGivenNames x1; clear_value (hx : x1 = _); clear hx)
    | with_reducible assumption
    | with_reducible exact Keeps.refl _ _
    | decide +kernel
    | with_reducible apply Keeps.setBA
    | with_reducible apply Keeps.via (State.pendTrap_keeps ..)
    | with_reducible apply Keeps.via (State.faultRaise_keeps ..)
    | with_reducible apply Keeps.iteA
    | split

def State.monCross_w : Nat := fm F.MON_STAT_ARM_HI ||| fm F.MON_STAT_ARM_LO ||| fm F.MON_COUNT_CROSSINGS |||
    fm F.MON_STAT_LATCH_HI ||| fm F.MON_STAT_LATCH_LO ||| fm F.MON_STAT_LATCH ||| fm F.MON_TRIP_TS_LO_TS_LO |||
    fm F.MON_TRIP_TS_HI_TS_HI ||| State.monSee_w ||| State.tripRemoves_w ||| State.irq_w ||| State.latchReaches_w |||
    State.tripTells_w
theorem State.monCross_keeps (s : State) (i : Nat) (high : Bool) (input : Int) : Keeps State.monCross_w s (s.monCross i high input) := by
  unfold State.monCross
  repeat' first
    | (extract_lets +onlyGivenNames x1; clear_value (hx : x1 = _); refine Keeps.cut x1 ?_ (fun h => ?_); rw [hx]; clear hx x1; rotate_left; clear hx; rotate_right)
    | (extract_lets +onlyGivenNames x1; clear_value (hx : x1 = _); refine Keeps.cut1 x1 ?_ (fun h => ?_); rw [hx]; clear hx x1; rotate_left; clear hx; rotate_right)
    | (extract_lets +onlyGivenNames x1; clear_value (hx : x1 = _); refine Keeps.cut2 x1 ?_ (fun h => ?_); rw [hx]; clear hx x1; rotate_left; clear hx; rotate_right)
    | (extract_lets +onlyGivenNames x1; clear_value (hx : x1 = _); clear hx)
    | with_reducible assumption
    | with_reducible exact Keeps.refl _ _
    | decide +kernel
    | with_reducible apply Keeps.putA
    | with_reducible apply Keeps.setBA
    | with_reducible apply Keeps.incWA
    | with_reducible apply Keeps.put2A
    | with_reducible apply Keeps.via (State.monSee_keeps ..)
    | with_reducible apply Keeps.via (State.tripRemoves_keeps ..)
    | with_reducible apply Keeps.via (State.irq_keeps ..)
    | with_reducible apply Keeps.via (State.latchReaches_keeps ..)
    | with_reducible apply Keeps.via (State.tripTells_keeps ..)
    | with_reducible apply Keeps.iteA

def State.monClear_w : Nat := fm F.MON_STAT_LATCH ||| fm F.MON_STAT_LATCH_HI ||| fm F.MON_STAT_LATCH_LO ||| State.armBoth_w
theorem State.monClear_keeps (s : State) (i : Nat) : Keeps State.monClear_w s (s.monClear i) := by
  unfold State.monClear
  repeat' first
    | with_reducible assumption
    | with_reducible exact Keeps.refl _ _
    | decide +kernel
    | with_reducible apply Keeps.setBA
    | with_reducible apply Keeps.via (State.armBoth_keeps ..)
    | with_reducible apply Keeps.iteA

def State.monPeriod_w : Nat := m_now ||| State.monClear_w
theorem State.monPeriod_keeps (s : State) (i : Nat) : Keeps State.monPeriod_w s (s.monPeriod i) := by
  unfold State.monPeriod
  repeat' first
    | (extract_lets +onlyGivenNames x1; clear_value (hx : x1 = _); refine Keeps.cut x1 ?_ (fun h => ?_); rw [hx]; clear hx x1; rotate_left; clear hx; rotate_right)
    | (extract_lets +onlyGivenNames x1; clear_value (hx : x1 = _); refine Keeps.cut1 x1 ?_ (fun h => ?_); rw [hx]; clear hx x1; rotate_left; clear hx; rotate_right)
    | (extract_lets +onlyGivenNames x1; clear_value (hx : x1 = _); refine Keeps.cut2 x1 ?_ (fun h => ?_); rw [hx]; clear hx x1; rotate_left; clear hx; rotate_right)
    | (extract_lets +onlyGivenNames x1; clear_value (hx : x1 = _); clear hx)
    | with_reducible assumption
    | with_reducible exact Keeps.refl _ _
    | decide +kernel
    | with_reducible apply Keeps.upToA
    | with_reducible apply Keeps.via (State.monClear_keeps ..)
    | with_reducible apply Keeps.iteA

def State.monSettle_w : Nat := fm H.MON_OLD_HI ||| fm H.MON_OLD_LO ||| fm H.MON_CHG ||| fm H.MON_SET_END
theorem State.monSettle_keeps {w : Nat} (hw : Sub State.monSettle_w w) {s t u : State} {i chg : Nat} {hi lo : Int}
    (h : Keeps w u t) : Keeps w u (s.monSettle t i chg hi lo) := by
  have h1 : Keeps State.monSettle_w t (s.monSettle t i chg hi lo) := by
    unfold State.monSettle
    exact Keeps.setDueA (by decide +kernel) (Keeps.putA (by decide +kernel) (Keeps.putIA (by decide +kernel)
      (Keeps.putIA (by decide +kernel) (Keeps.refl _ _))))
  exact h.trans (h1.mono hw)

def State.writeMonCtrl_w : Nat := fm F.MON_CTRL_EN ||| fm F.MON_CTRL_TRIP_EN ||| fm F.MON_CTRL_SPEED |||
    fm F.MON_CTRL_CLR_MODE ||| fm F.MON_CTRL_HI_EN ||| fm F.MON_CTRL_LO_EN ||| fm F.MON_CTRL_SCOPE ||| fm F.MON_CTRL_SEL |||
    fm F.MON_CTRL_SCALE ||| fm F.MON_CTRL_SELFCHK ||| fm H.MON_EN_T ||| State.bad_w ||| State.monSettle_w |||
    State.armHi_w ||| State.armLo_w ||| State.ok_w
theorem State.writeMonCtrl_keeps (s : State) (i v : Nat) : Keeps State.writeMonCtrl_w s (s.writeMonCtrl i v).1 := by
  unfold State.writeMonCtrl
  repeat' first
    | (extract_lets +onlyGivenNames x1; clear_value (hx : x1 = _); refine Keeps.cut x1 ?_ (fun h => ?_); rw [hx]; clear hx x1; rotate_left; clear hx; rotate_right)
    | (extract_lets +onlyGivenNames x1; clear_value (hx : x1 = _); refine Keeps.cut1 x1 ?_ (fun h => ?_); rw [hx]; clear hx x1; rotate_left; clear hx; rotate_right)
    | (extract_lets +onlyGivenNames x1; clear_value (hx : x1 = _); refine Keeps.cut2 x1 ?_ (fun h => ?_); rw [hx]; clear hx x1; rotate_left; clear hx; rotate_right)
    | (extract_lets +onlyGivenNames x1; clear_value (hx : x1 = _); clear hx)
    | with_reducible assumption
    | with_reducible exact Keeps.refl _ _
    | decide +kernel
    | with_reducible apply Keeps.putA
    | with_reducible apply Keeps.setBA
    | with_reducible apply Keeps.via (State.bad_keeps ..)
    | with_reducible apply State.monSettle_keeps
    | with_reducible apply Keeps.via (State.armHi_keeps ..)
    | with_reducible apply Keeps.via (State.armLo_keeps ..)
    | with_reducible apply Keeps.via (State.ok_keeps ..)
    | with_reducible apply Keeps.iteA
    | with_reducible apply Keeps.ite1

def State.putThr_w (f : Field) : Nat := fm f
theorem State.putThr_keeps {w : Nat} {s u : State} {f : Field} {i v : Nat} (hw : Sub (State.putThr_w f) w) (h : Keeps w u s) :
    Keeps w u (s.putThr f i v) := Keeps.putA hw h

def State.monThrSet_w : Nat := fm F.MON_HYST_VALUE ||| State.monSettle_w ||| State.putThr_w F.MON_HI_VALUE |||
    State.putThr_w F.MON_LO_VALUE
theorem State.monThrSet_keeps (s : State) (r : MonReg) (i v : Nat) : Keeps State.monThrSet_w s (s.monThrSet r i v) := by
  unfold State.monThrSet
  repeat' first
    | (extract_lets +onlyGivenNames x1; clear_value (hx : x1 = _); refine Keeps.cut x1 ?_ (fun h => ?_); rw [hx]; clear hx x1; rotate_left; clear hx; rotate_right)
    | (extract_lets +onlyGivenNames x1; clear_value (hx : x1 = _); refine Keeps.cut1 x1 ?_ (fun h => ?_); rw [hx]; clear hx x1; rotate_left; clear hx; rotate_right)
    | (extract_lets +onlyGivenNames x1; clear_value (hx : x1 = _); refine Keeps.cut2 x1 ?_ (fun h => ?_); rw [hx]; clear hx x1; rotate_left; clear hx; rotate_right)
    | (extract_lets +onlyGivenNames x1; clear_value (hx : x1 = _); clear hx)
    | with_reducible assumption
    | with_reducible exact Keeps.refl _ _
    | decide +kernel
    | with_reducible apply Keeps.putA
    | with_reducible apply State.monSettle_keeps
    | with_reducible apply State.putThr_keeps
    | split

def State.monSettled_w : Nat := fm H.MON_SET_END ||| fm H.MON_CHG ||| m_now ||| State.armHi_w ||| State.armLo_w
theorem State.monSettled_keeps (s : State) (i : Nat) : Keeps State.monSettled_w s (s.monSettled i) := by
  unfold State.monSettled
  repeat' first
    | (extract_lets +onlyGivenNames x1; clear_value (hx : x1 = _); refine Keeps.cut x1 ?_ (fun h => ?_); rw [hx]; clear hx x1; rotate_left; clear hx; rotate_right)
    | (extract_lets +onlyGivenNames x1; clear_value (hx : x1 = _); refine Keeps.cut1 x1 ?_ (fun h => ?_); rw [hx]; clear hx x1; rotate_left; clear hx; rotate_right)
    | (extract_lets +onlyGivenNames x1; clear_value (hx : x1 = _); refine Keeps.cut2 x1 ?_ (fun h => ?_); rw [hx]; clear hx x1; rotate_left; clear hx; rotate_right)
    | (extract_lets +onlyGivenNames x1; clear_value (hx : x1 = _); clear hx)
    | with_reducible assumption
    | with_reducible exact Keeps.refl _ _
    | decide +kernel
    | with_reducible apply Keeps.putA
    | with_reducible apply Keeps.noDueA
    | with_reducible apply Keeps.upToA
    | with_reducible apply Keeps.via (State.armHi_keeps ..)
    | with_reducible apply Keeps.via (State.armLo_keeps ..)
    | with_reducible apply Keeps.iteA
    | split

end Sys2Proof.Machine
end

