-- ==== Sys2Proof/Laws/KeepsFabric.lean ====
section
/-!
SUPPORT. What every operation of Machine/Fabric.lean can change: its mask and its Keeps lemma.
-/

set_option Elab.async false
set_option linter.all false

namespace Sys2Proof.Machine

def State.porchTo_w : Nat := fm F.PORCH_STAT_STATE ||| State.irq_w
theorem State.porchTo_keeps (s : State) (p st : Nat) : Keeps State.porchTo_w s (s.porchTo p st) := by
  unfold State.porchTo
  repeat' first
    | with_reducible assumption
    | with_reducible exact Keeps.refl _ _
    | decide +kernel
    | with_reducible apply Keeps.putA
    | with_reducible apply Keeps.via (State.irq_keeps ..)
    | with_reducible apply Keeps.iteA

def State.slotUsed_w : Nat := fm H.TX_BUD
theorem State.slotUsed_keeps (s : State) (p vc : Nat) : Keeps State.slotUsed_w s (s.slotUsed p vc) := by
  unfold State.slotUsed
  repeat' first
    | (extract_lets +onlyGivenNames x1; clear_value (hx : x1 = _); refine Keeps.cut x1 ?_ (fun h => ?_); rw [hx]; clear hx x1; rotate_left; clear hx; rotate_right)
    | (extract_lets +onlyGivenNames x1; clear_value (hx : x1 = _); refine Keeps.cut1 x1 ?_ (fun h => ?_); rw [hx]; clear hx x1; rotate_left; clear hx; rotate_right)
    | (extract_lets +onlyGivenNames x1; clear_value (hx : x1 = _); refine Keeps.cut2 x1 ?_ (fun h => ?_); rw [hx]; clear hx x1; rotate_left; clear hx; rotate_right)
    | (extract_lets +onlyGivenNames x1; clear_value (hx : x1 = _); clear hx)
    | with_reducible assumption
    | with_reducible exact Keeps.refl _ _
    | decide +kernel
    | with_reducible apply Keeps.putA
    | with_reducible refine Keeps.foldlA ?_ (fun _ _ => ?_)
    | with_reducible apply Keeps.iteA

def State.send1_w : Nat := fm F.PORCH_SEQ_NEXT_TX ||| fm H.TX_CR ||| fm F.PORCH_FLITS_LO_N_LO |||
    fm F.PORCH_FLITS_HI_N_HI ||| m_outq ||| m_replay ||| State.slotUsed_w
theorem State.send1_keeps (s : State) (p : Nat) : Keeps State.send1_w s (s.send1 p) := by
  unfold State.send1
  repeat' first
    | (extract_lets +onlyGivenNames x1; clear_value (hx : x1 = _); refine Keeps.cut x1 ?_ (fun h => ?_); rw [hx]; clear hx x1; rotate_left; clear hx; rotate_right)
    | (extract_lets +onlyGivenNames x1; clear_value (hx : x1 = _); refine Keeps.cut1 x1 ?_ (fun h => ?_); rw [hx]; clear hx x1; rotate_left; clear hx; rotate_right)
    | (extract_lets +onlyGivenNames x1; clear_value (hx : x1 = _); refine Keeps.cut2 x1 ?_ (fun h => ?_); rw [hx]; clear hx x1; rotate_left; clear hx; rotate_right)
    | (extract_lets +onlyGivenNames x1; clear_value (hx : x1 = _); clear hx)
    | with_reducible assumption
    | with_reducible exact Keeps.refl _ _
    | decide +kernel
    | with_reducible apply Keeps.putA
    | with_reducible apply Keeps.put2A
    | with_reducible apply Keeps.via (State.slotUsed_keeps ..)
    | with_reducible apply Keeps.iteA
    | split
    | with_reducible refine Keeps.trans ?_ (Keeps.c_outq_replay _ _ ?_)

def State.drain_w : Nat := State.send1_w
theorem State.drain_keeps (s : State) (p n : Nat) : Keeps State.drain_w s (s.drain p n) := by
  induction n generalizing s with
  | zero => exact Keeps.refl _ _
  | succ n ih => exact Keeps.iteA ((State.send1_keeps s p).trans (ih _)) (Keeps.refl _ _)

def State.sendOut_w : Nat := m_outq ||| State.drain_w
theorem State.sendOut_keeps (s : State) (p : Nat) (f : Flit) : Keeps State.sendOut_w s (s.sendOut p f) := by
  unfold State.sendOut
  repeat' first
    | with_reducible assumption
    | with_reducible exact Keeps.refl _ _
    | decide +kernel
    | with_reducible apply Keeps.via (State.drain_keeps ..)
    | with_reducible refine Keeps.trans ?_ (Keeps.c_outq _ ?_)

def rtPorch_w : Nat := fm F.FAB_RT_PORCH0 ||| fm F.FAB_RT_PORCH1 ||| fm F.FAB_RT_PORCH2 ||| fm F.FAB_RT_PORCH3 |||
    fm F.FAB_RT_PORCH4 ||| fm F.FAB_RT_PORCH5 ||| fm F.FAB_RT_PORCH6 ||| fm F.FAB_RT_PORCH7
theorem rtPorch_sub (n : Nat) : Sub (fm (rtPorch n)) rtPorch_w := by
  unfold rtPorch
  split <;> decide +kernel

def rtValid_w : Nat := fm F.FAB_RT_VALID0 ||| fm F.FAB_RT_VALID1 ||| fm F.FAB_RT_VALID2 ||| fm F.FAB_RT_VALID3 |||
    fm F.FAB_RT_VALID4 ||| fm F.FAB_RT_VALID5 ||| fm F.FAB_RT_VALID6 ||| fm F.FAB_RT_VALID7
theorem rtValid_sub (n : Nat) : Sub (fm (rtValid n)) rtValid_w := by
  unfold rtValid
  split <;> decide +kernel

def State.dropRoutes_w : Nat := fm F.FAB_MC_PORCHES ||| rtValid_w
theorem State.dropRoutes_keeps (s : State) (p : Nat) : Keeps State.dropRoutes_w s (s.dropRoutes p) := by
  unfold State.dropRoutes
  repeat' first
    | (extract_lets +onlyGivenNames x1; clear_value (hx : x1 = _); refine Keeps.cut x1 ?_ (fun h => ?_); rw [hx]; clear hx x1; rotate_left; clear hx; rotate_right)
    | (extract_lets +onlyGivenNames x1; clear_value (hx : x1 = _); refine Keeps.cut1 x1 ?_ (fun h => ?_); rw [hx]; clear hx x1; rotate_left; clear hx; rotate_right)
    | (extract_lets +onlyGivenNames x1; clear_value (hx : x1 = _); refine Keeps.cut2 x1 ?_ (fun h => ?_); rw [hx]; clear hx x1; rotate_left; clear hx; rotate_right)
    | (extract_lets +onlyGivenNames x1; clear_value (hx : x1 = _); clear hx)
    | with_reducible assumption
    | with_reducible exact Keeps.refl _ _
    | decide +kernel
    | with_reducible apply Keeps.putA
    | with_reducible apply Keeps.setBA
    | exact (rtValid_sub ..).trans (by decide +kernel)
    | with_reducible refine Keeps.eachA ?_ (fun _ _ => ?_)

def State.rxReset_w : Nat := fm H.PO_FRESH ||| fm H.RX_EXP ||| fm H.RX_WAIT ||| fm H.RX_REQ_T
theorem State.rxReset_keeps (s : State) (p : Nat) : Keeps State.rxReset_w s (s.rxReset p) := by
  unfold State.rxReset
  repeat' first
    | with_reducible assumption
    | with_reducible exact Keeps.refl _ _
    | decide +kernel
    | with_reducible apply Keeps.putA
    | with_reducible apply Keeps.setBA
    | with_reducible apply Keeps.noDueA

def State.linkLoss_w : Nat := fm F.PORCH_LOST_FLITS ||| fm F.PORCH_STAT_PLANNED ||| fm H.PO_WAS_UP ||| m_outq |||
    m_replay ||| State.dropRoutes_w ||| State.event_w
theorem State.linkLoss_keeps (s : State) (p cause : Nat) (planned : Bool) : Keeps State.linkLoss_w s (s.linkLoss p cause planned) := by
  unfold State.linkLoss
  repeat' first
    | (extract_lets +onlyGivenNames x1; clear_value (hx : x1 = _); refine Keeps.cut x1 ?_ (fun h => ?_); rw [hx]; clear hx x1; rotate_left; clear hx; rotate_right)
    | (extract_lets +onlyGivenNames x1; clear_value (hx : x1 = _); refine Keeps.cut1 x1 ?_ (fun h => ?_); rw [hx]; clear hx x1; rotate_left; clear hx; rotate_right)
    | (extract_lets +onlyGivenNames x1; clear_value (hx : x1 = _); refine Keeps.cut2 x1 ?_ (fun h => ?_); rw [hx]; clear hx x1; rotate_left; clear hx; rotate_right)
    | (extract_lets +onlyGivenNames x1; clear_value (hx : x1 = _); clear hx)
    | with_reducible assumption
    | with_reducible exact Keeps.refl _ _
    | decide +kernel
    | with_reducible apply Keeps.setBA
    | with_reducible apply Keeps.addSatA
    | with_reducible apply Keeps.via (State.dropRoutes_keeps ..)
    | with_reducible apply Keeps.via (State.event_keeps ..)
    | with_reducible apply Keeps.iteA
    | split
    | with_reducible refine Keeps.trans ?_ (Keeps.c_outq_replay _ _ ?_)

def State.porchDown_w : Nat := fm F.PORCH_EVENTS_DOWN ||| fm H.PO_LEFT ||| fm H.PO_LEAVE_END ||| fm H.PO_WAKE_END |||
    fm F.PORCH_STAT_PARTNER ||| fm H.PO_DOWN_END ||| State.linkLoss_w ||| State.rxReset_w ||| State.porchTo_w
theorem State.porchDown_keeps (s : State) (p cause : Nat) (planned : Bool) : Keeps State.porchDown_w s (s.porchDown p cause planned) := by
  unfold State.porchDown
  repeat' first
    | (extract_lets +onlyGivenNames x1; clear_value (hx : x1 = _); refine Keeps.cut x1 ?_ (fun h => ?_); rw [hx]; clear hx x1; rotate_left; clear hx; rotate_right)
    | (extract_lets +onlyGivenNames x1; clear_value (hx : x1 = _); refine Keeps.cut1 x1 ?_ (fun h => ?_); rw [hx]; clear hx x1; rotate_left; clear hx; rotate_right)
    | (extract_lets +onlyGivenNames x1; clear_value (hx : x1 = _); refine Keeps.cut2 x1 ?_ (fun h => ?_); rw [hx]; clear hx x1; rotate_left; clear hx; rotate_right)
    | (extract_lets +onlyGivenNames x1; clear_value (hx : x1 = _); clear hx)
    | with_reducible assumption
    | with_reducible exact Keeps.refl _ _
    | decide +kernel
    | with_reducible apply Keeps.setBA
    | with_reducible apply Keeps.incWA
    | with_reducible apply Keeps.setDueA
    | with_reducible apply Keeps.noDueA
    | with_reducible apply Keeps.via (State.linkLoss_keeps ..)
    | with_reducible apply Keeps.via (State.rxReset_keeps ..)
    | with_reducible apply Keeps.via (State.porchTo_keeps ..)

def State.laneTake_w : Nat := fm H.PO_LANE ||| fm H.PO_LANE_T
theorem State.laneTake_keeps (s : State) (p : Nat) : Keeps State.laneTake_w s (s.laneTake p) := by
  unfold State.laneTake
  repeat' first
    | with_reducible assumption
    | with_reducible exact Keeps.refl _ _
    | decide +kernel
    | with_reducible apply Keeps.putA
    | with_reducible apply Keeps.noDueA

def State.newLink_w : Nat := fm H.PO_LEFT ||| fm H.PO_LEAVE_END ||| fm H.PO_SID ||| fm F.PORCH_SEQ_NEXT_TX ||| fm F.PORCH_SEQ_ACKED ||| fm H.RX_EXP ||| fm H.TX_CR |||
    fm H.TX_BUD ||| fm F.PORCH_EVENTS_UP ||| fm H.PO_WAS_UP ||| m_replay ||| State.event_w
theorem State.newLink_keeps (s : State) (p : Nat) : Keeps State.newLink_w s (s.newLink p) := by
  unfold State.newLink
  repeat' first
    | (extract_lets +onlyGivenNames x1; clear_value (hx : x1 = _); refine Keeps.cut x1 ?_ (fun h => ?_); rw [hx]; clear hx x1; rotate_left; clear hx; rotate_right)
    | (extract_lets +onlyGivenNames x1; clear_value (hx : x1 = _); refine Keeps.cut1 x1 ?_ (fun h => ?_); rw [hx]; clear hx x1; rotate_left; clear hx; rotate_right)
    | (extract_lets +onlyGivenNames x1; clear_value (hx : x1 = _); refine Keeps.cut2 x1 ?_ (fun h => ?_); rw [hx]; clear hx x1; rotate_left; clear hx; rotate_right)
    | (extract_lets +onlyGivenNames x1; clear_value (hx : x1 = _); clear hx)
    | with_reducible assumption
    | with_reducible exact Keeps.refl _ _
    | decide +kernel
    | with_reducible apply Keeps.putA
    | with_reducible apply Keeps.setBA
    | with_reducible apply Keeps.noDueA
    | with_reducible apply Keeps.incWA
    | with_reducible refine Keeps.foldlA ?_ (fun _ _ => ?_)
    | with_reducible apply Keeps.via (State.event_keeps ..)
    | with_reducible refine Keeps.trans ?_ (Keeps.c_replay _ ?_)

def State.ackBefore_w : Nat := fm F.PORCH_SEQ_ACKED ||| m_replay
theorem State.ackBefore_keeps (s : State) (p exp : Nat) : Keeps State.ackBefore_w s (s.ackBefore p exp) := by
  unfold State.ackBefore
  repeat' first
    | (extract_lets +onlyGivenNames x1; clear_value (hx : x1 = _); refine Keeps.cut x1 ?_ (fun h => ?_); rw [hx]; clear hx x1; rotate_left; clear hx; rotate_right)
    | (extract_lets +onlyGivenNames x1; clear_value (hx : x1 = _); refine Keeps.cut1 x1 ?_ (fun h => ?_); rw [hx]; clear hx x1; rotate_left; clear hx; rotate_right)
    | (extract_lets +onlyGivenNames x1; clear_value (hx : x1 = _); refine Keeps.cut2 x1 ?_ (fun h => ?_); rw [hx]; clear hx x1; rotate_left; clear hx; rotate_right)
    | (extract_lets +onlyGivenNames x1; clear_value (hx : x1 = _); clear hx)
    | with_reducible assumption
    | with_reducible exact Keeps.refl _ _
    | decide +kernel
    | with_reducible apply Keeps.putA
    | with_reducible apply Keeps.iteA
    | with_reducible refine Keeps.trans ?_ (Keeps.c_replay _ ?_)

def State.linkUp_w : Nat := fm F.PORCH_STAT_DEGRADED ||| fm H.PO_QREQ ||| fm H.PO_FRESH ||| fm H.RX_WAIT ||| fm H.RX_REQ_T ||| fm H.PO_WAKE_END ||| fm H.PO_DREQ |||
    fm H.PO_DPEND ||| State.linkLoss_w ||| State.ackBefore_w ||| State.newLink_w ||| State.laneTake_w ||| State.porchTo_w |||
    State.drain_w
theorem State.linkUp_keeps (s : State) (p : Nat) : Keeps State.linkUp_w s (s.linkUp p) := by
  unfold State.linkUp
  repeat' first
    | (extract_lets +onlyGivenNames x1; clear_value (hx : x1 = _); refine Keeps.cut x1 ?_ (fun h => ?_); rw [hx]; clear hx x1; rotate_left; clear hx; rotate_right)
    | (extract_lets +onlyGivenNames x1; clear_value (hx : x1 = _); refine Keeps.cut1 x1 ?_ (fun h => ?_); rw [hx]; clear hx x1; rotate_left; clear hx; rotate_right)
    | (extract_lets +onlyGivenNames x1; clear_value (hx : x1 = _); refine Keeps.cut2 x1 ?_ (fun h => ?_); rw [hx]; clear hx x1; rotate_left; clear hx; rotate_right)
    | (extract_lets +onlyGivenNames x1; clear_value (hx : x1 = _); clear hx)
    | with_reducible assumption
    | with_reducible exact Keeps.refl _ _
    | decide +kernel
    | with_reducible apply Keeps.setBA
    | with_reducible apply Keeps.noDueA
    | with_reducible apply Keeps.via (State.linkLoss_keeps ..)
    | with_reducible apply Keeps.via (State.ackBefore_keeps ..)
    | with_reducible apply Keeps.via (State.newLink_keeps ..)
    | with_reducible apply Keeps.via (State.laneTake_keeps ..)
    | with_reducible apply Keeps.via (State.porchTo_keeps ..)
    | with_reducible apply Keeps.via (State.drain_keeps ..)
    | with_reducible apply Keeps.iteA

def State.porchRetrain_w : Nat := fm H.PO_NRZ ||| fm H.PO_FULL ||| fm F.PORCH_EVENTS_RETRAINS ||| fm H.PO_STEP ||| fm H.PO_CAUSE ||| fm H.PO_INFO |||
    fm H.PO_T0 ||| fm H.PO_FAILS ||| fm H.PO_QREQ ||| fm F.PORCH_STAT_PARTNER ||| State.porchTo_w
theorem State.porchRetrain_keeps (s : State) (p cause : Nat) : Keeps State.porchRetrain_w s (s.porchRetrain p cause) := by
  unfold State.porchRetrain
  repeat' first
    | (extract_lets +onlyGivenNames x1; clear_value (hx : x1 = _); refine Keeps.cut x1 ?_ (fun h => ?_); rw [hx]; clear hx x1; rotate_left; clear hx; rotate_right)
    | (extract_lets +onlyGivenNames x1; clear_value (hx : x1 = _); refine Keeps.cut1 x1 ?_ (fun h => ?_); rw [hx]; clear hx x1; rotate_left; clear hx; rotate_right)
    | (extract_lets +onlyGivenNames x1; clear_value (hx : x1 = _); refine Keeps.cut2 x1 ?_ (fun h => ?_); rw [hx]; clear hx x1; rotate_left; clear hx; rotate_right)
    | (extract_lets +onlyGivenNames x1; clear_value (hx : x1 = _); clear hx)
    | with_reducible assumption
    | with_reducible exact Keeps.refl _ _
    | decide +kernel
    | with_reducible apply Keeps.putA
    | with_reducible apply Keeps.setBA
    | with_reducible apply Keeps.incWA
    | with_reducible apply Keeps.via (State.porchTo_keeps ..)
    | with_reducible apply Keeps.iteA

def State.retrainFor_w : Nat := State.porchDown_w ||| State.porchRetrain_w
theorem State.retrainFor_keeps (s : State) (p cause : Nat) : Keeps State.retrainFor_w s (s.retrainFor p cause) := by
  unfold State.retrainFor
  repeat' first
    | (extract_lets +onlyGivenNames x1; clear_value (hx : x1 = _); refine Keeps.cut x1 ?_ (fun h => ?_); rw [hx]; clear hx x1; rotate_left; clear hx; rotate_right)
    | (extract_lets +onlyGivenNames x1; clear_value (hx : x1 = _); refine Keeps.cut1 x1 ?_ (fun h => ?_); rw [hx]; clear hx x1; rotate_left; clear hx; rotate_right)
    | (extract_lets +onlyGivenNames x1; clear_value (hx : x1 = _); refine Keeps.cut2 x1 ?_ (fun h => ?_); rw [hx]; clear hx x1; rotate_left; clear hx; rotate_right)
    | (extract_lets +onlyGivenNames x1; clear_value (hx : x1 = _); clear hx)
    | with_reducible assumption
    | with_reducible exact Keeps.refl _ _
    | decide +kernel
    | with_reducible apply Keeps.via (State.porchDown_keeps ..)
    | with_reducible apply Keeps.via (State.porchRetrain_keeps ..)
    | with_reducible apply Keeps.iteA

def State.partnerDetect_w : Nat := fm F.PORCH_STAT_PARTNER ||| fm H.PO_STEP ||| fm H.PO_FAILS ||| fm H.PO_INFO |||
    fm H.PO_T0 ||| fm F.PORCH_STAT_DEGRADED ||| fm H.PO_WAS_UP ||| State.porchTo_w
theorem State.partnerDetect_keeps (s : State) (p : Nat) : Keeps State.partnerDetect_w s (s.partnerDetect p) := by
  unfold State.partnerDetect
  repeat' first
    | (extract_lets +onlyGivenNames x1; clear_value (hx : x1 = _); refine Keeps.cut x1 ?_ (fun h => ?_); rw [hx]; clear hx x1; rotate_left; clear hx; rotate_right)
    | (extract_lets +onlyGivenNames x1; clear_value (hx : x1 = _); refine Keeps.cut1 x1 ?_ (fun h => ?_); rw [hx]; clear hx x1; rotate_left; clear hx; rotate_right)
    | (extract_lets +onlyGivenNames x1; clear_value (hx : x1 = _); refine Keeps.cut2 x1 ?_ (fun h => ?_); rw [hx]; clear hx x1; rotate_left; clear hx; rotate_right)
    | (extract_lets +onlyGivenNames x1; clear_value (hx : x1 = _); clear hx)
    | with_reducible assumption
    | with_reducible exact Keeps.refl _ _
    | decide +kernel
    | with_reducible apply Keeps.putA
    | with_reducible apply Keeps.setBA
    | with_reducible apply Keeps.via (State.porchTo_keeps ..)
    | with_reducible apply Keeps.iteA

def State.linkInfo_w : Nat := fm F.PORCH_STAT_PARTNER_NODE ||| fm F.PORCH_STAT_PARTNER_PORCH ||| fm H.PO_RESUME |||
    fm H.PO_EXP ||| fm H.PO_BUF ||| fm H.PO_PAM4_OK ||| fm H.PO_INFO ||| fm F.PORCH_STAT_PARTNER ||| fm H.PO_STEP |||
    fm H.PO_NRZ ||| fm F.PORCH_PSID_LO_SID_LO ||| fm F.PORCH_PSID_HI_SID_HI
theorem State.linkInfo_keeps (s : State) (p : Nat) (i : LinkInfo) : Keeps State.linkInfo_w s (s.linkInfo p i) := by
  unfold State.linkInfo
  repeat' first
    | (extract_lets +onlyGivenNames x1; clear_value (hx : x1 = _); refine Keeps.cut x1 ?_ (fun h => ?_); rw [hx]; clear hx x1; rotate_left; clear hx; rotate_right)
    | (extract_lets +onlyGivenNames x1; clear_value (hx : x1 = _); refine Keeps.cut1 x1 ?_ (fun h => ?_); rw [hx]; clear hx x1; rotate_left; clear hx; rotate_right)
    | (extract_lets +onlyGivenNames x1; clear_value (hx : x1 = _); refine Keeps.cut2 x1 ?_ (fun h => ?_); rw [hx]; clear hx x1; rotate_left; clear hx; rotate_right)
    | (extract_lets +onlyGivenNames x1; clear_value (hx : x1 = _); clear hx)
    | with_reducible assumption
    | with_reducible exact Keeps.refl _ _
    | decide +kernel
    | with_reducible apply Keeps.putA
    | with_reducible apply Keeps.setBA
    | with_reducible apply Keeps.put2A
    | with_reducible apply Keeps.iteA

def State.pam4Fails_w : Nat := fm H.PO_STEP ||| fm H.PO_FAILS ||| fm F.PORCH_STAT_DEGRADED ||| fm H.PO_NRZ
theorem State.pam4Fails_keeps (s : State) (p : Nat) : Keeps State.pam4Fails_w s (s.pam4Fails p) := by
  unfold State.pam4Fails
  repeat' first
    | (extract_lets +onlyGivenNames x1; clear_value (hx : x1 = _); refine Keeps.cut x1 ?_ (fun h => ?_); rw [hx]; clear hx x1; rotate_left; clear hx; rotate_right)
    | (extract_lets +onlyGivenNames x1; clear_value (hx : x1 = _); refine Keeps.cut1 x1 ?_ (fun h => ?_); rw [hx]; clear hx x1; rotate_left; clear hx; rotate_right)
    | (extract_lets +onlyGivenNames x1; clear_value (hx : x1 = _); refine Keeps.cut2 x1 ?_ (fun h => ?_); rw [hx]; clear hx x1; rotate_left; clear hx; rotate_right)
    | (extract_lets +onlyGivenNames x1; clear_value (hx : x1 = _); clear hx)
    | with_reducible assumption
    | with_reducible exact Keeps.refl _ _
    | decide +kernel
    | with_reducible apply Keeps.putA
    | with_reducible apply Keeps.setBA
    | with_reducible apply Keeps.iteA

def State.resumeStep_w : Nat := fm H.PO_STEP ||| fm H.PO_FULL ||| fm F.PORCH_EVENTS_FULL_TRAIN ||| fm H.PO_INFO |||
    State.pam4Fails_w
theorem State.resumeStep_keeps (s : State) (p : Nat) (ok : Bool) : Keeps State.resumeStep_w s (s.resumeStep p ok) := by
  unfold State.resumeStep
  repeat' first
    | (extract_lets +onlyGivenNames x1; clear_value (hx : x1 = _); refine Keeps.cut x1 ?_ (fun h => ?_); rw [hx]; clear hx x1; rotate_left; clear hx; rotate_right)
    | (extract_lets +onlyGivenNames x1; clear_value (hx : x1 = _); refine Keeps.cut1 x1 ?_ (fun h => ?_); rw [hx]; clear hx x1; rotate_left; clear hx; rotate_right)
    | (extract_lets +onlyGivenNames x1; clear_value (hx : x1 = _); refine Keeps.cut2 x1 ?_ (fun h => ?_); rw [hx]; clear hx x1; rotate_left; clear hx; rotate_right)
    | (extract_lets +onlyGivenNames x1; clear_value (hx : x1 = _); clear hx)
    | with_reducible assumption
    | with_reducible exact Keeps.refl _ _
    | decide +kernel
    | with_reducible apply Keeps.putA
    | with_reducible apply Keeps.setBA
    | with_reducible apply Keeps.incWA
    | with_reducible apply Keeps.via (State.pam4Fails_keeps ..)
    | with_reducible apply Keeps.iteA

def State.trainingStep_w : Nat := fm H.PO_STEP ||| State.pam4Fails_w ||| State.resumeStep_w ||| State.porchTo_w
theorem State.trainingStep_keeps (s : State) (p : Nat) (ok : Bool) : Keeps State.trainingStep_w s (s.trainingStep p ok) := by
  unfold State.trainingStep
  repeat' first
    | (extract_lets +onlyGivenNames x1; clear_value (hx : x1 = _); refine Keeps.cut x1 ?_ (fun h => ?_); rw [hx]; clear hx x1; rotate_left; clear hx; rotate_right)
    | (extract_lets +onlyGivenNames x1; clear_value (hx : x1 = _); refine Keeps.cut1 x1 ?_ (fun h => ?_); rw [hx]; clear hx x1; rotate_left; clear hx; rotate_right)
    | (extract_lets +onlyGivenNames x1; clear_value (hx : x1 = _); refine Keeps.cut2 x1 ?_ (fun h => ?_); rw [hx]; clear hx x1; rotate_left; clear hx; rotate_right)
    | (extract_lets +onlyGivenNames x1; clear_value (hx : x1 = _); clear hx)
    | with_reducible assumption
    | with_reducible exact Keeps.refl _ _
    | decide +kernel
    | with_reducible apply Keeps.putA
    | with_reducible apply Keeps.setBA
    | with_reducible apply Keeps.incWA
    | with_reducible apply Keeps.via (State.pam4Fails_keeps ..)
    | with_reducible apply Keeps.via (State.resumeStep_keeps ..)
    | with_reducible apply Keeps.via (State.porchTo_keeps ..)
    | with_reducible apply Keeps.iteA

def State.linkDown_w : Nat := m_now ||| State.porchDown_w
theorem State.linkDown_keeps (s : State) (p : Nat) : Keeps State.linkDown_w s (s.linkDown p) := by
  unfold State.linkDown
  repeat' first
    | (extract_lets +onlyGivenNames x1; clear_value (hx : x1 = _); refine Keeps.cut x1 ?_ (fun h => ?_); rw [hx]; clear hx x1; rotate_left; clear hx; rotate_right)
    | (extract_lets +onlyGivenNames x1; clear_value (hx : x1 = _); refine Keeps.cut1 x1 ?_ (fun h => ?_); rw [hx]; clear hx x1; rotate_left; clear hx; rotate_right)
    | (extract_lets +onlyGivenNames x1; clear_value (hx : x1 = _); refine Keeps.cut2 x1 ?_ (fun h => ?_); rw [hx]; clear hx x1; rotate_left; clear hx; rotate_right)
    | (extract_lets +onlyGivenNames x1; clear_value (hx : x1 = _); clear hx)
    | with_reducible assumption
    | with_reducible exact Keeps.refl _ _
    | decide +kernel
    | with_reducible apply Keeps.upToA
    | with_reducible apply Keeps.via (State.porchDown_keeps ..)
    | with_reducible apply Keeps.iteA

def State.downExpiry_w : Nat := fm H.PO_DOWN_END ||| m_now ||| State.porchTo_w
theorem State.downExpiry_keeps (s : State) (p : Nat) : Keeps State.downExpiry_w s (s.downExpiry p) := by
  unfold State.downExpiry
  repeat' first
    | with_reducible assumption
    | with_reducible exact Keeps.refl _ _
    | decide +kernel
    | with_reducible apply Keeps.noDueA
    | with_reducible apply Keeps.upToA
    | with_reducible apply Keeps.via (State.porchTo_keeps ..)
    | with_reducible apply Keeps.iteA
    | split

def State.porchOff_w : Nat := fm H.PO_LEFT ||| fm H.PO_LEAVE_END ||| fm F.PORCH_EVENTS_DOWN ||| fm H.PO_DOWN_END ||| fm H.PO_WAKE_END |||
    fm F.PORCH_STAT_PARTNER ||| State.linkLoss_w ||| State.rxReset_w ||| State.porchTo_w
theorem State.porchOff_keeps (s : State) (p : Nat) : Keeps State.porchOff_w s (s.porchOff p) := by
  unfold State.porchOff
  repeat' first
    | (extract_lets +onlyGivenNames x1; clear_value (hx : x1 = _); refine Keeps.cut x1 ?_ (fun h => ?_); rw [hx]; clear hx x1; rotate_left; clear hx; rotate_right)
    | (extract_lets +onlyGivenNames x1; clear_value (hx : x1 = _); refine Keeps.cut1 x1 ?_ (fun h => ?_); rw [hx]; clear hx x1; rotate_left; clear hx; rotate_right)
    | (extract_lets +onlyGivenNames x1; clear_value (hx : x1 = _); refine Keeps.cut2 x1 ?_ (fun h => ?_); rw [hx]; clear hx x1; rotate_left; clear hx; rotate_right)
    | (extract_lets +onlyGivenNames x1; clear_value (hx : x1 = _); clear hx)
    | with_reducible assumption
    | with_reducible exact Keeps.refl _ _
    | decide +kernel
    | with_reducible apply Keeps.setBA
    | with_reducible apply Keeps.incWA
    | with_reducible apply Keeps.noDueA
    | with_reducible apply Keeps.via (State.linkLoss_keeps ..)
    | with_reducible apply Keeps.via (State.rxReset_keeps ..)
    | with_reducible apply Keeps.via (State.porchTo_keeps ..)
    | with_reducible apply Keeps.iteA

def State.porchOn_w : Nat := State.porchTo_w
theorem State.porchOn_keeps (s : State) (p : Nat) : Keeps State.porchOn_w s (s.porchOn p) := by
  unfold State.porchOn
  repeat' first
    | with_reducible assumption
    | with_reducible exact Keeps.refl _ _
    | decide +kernel
    | with_reducible apply Keeps.via (State.porchTo_keeps ..)
    | with_reducible apply Keeps.iteA

def State.writePorchCtrl_w : Nat := fm F.PORCH_CTRL_EN ||| fm F.PORCH_CTRL_FORCE_NRZ ||| fm F.PORCH_CTRL_QUIET_EN |||
    State.porchOff_w ||| State.porchOn_w ||| State.porchRetrain_w ||| State.ok_w
theorem State.writePorchCtrl_keeps (s : State) (p v : Nat) : Keeps State.writePorchCtrl_w s (s.writePorchCtrl p v).1 := by
  unfold State.writePorchCtrl
  repeat' first
    | (extract_lets +onlyGivenNames x1; clear_value (hx : x1 = _); refine Keeps.cut x1 ?_ (fun h => ?_); rw [hx]; clear hx x1; rotate_left; clear hx; rotate_right)
    | (extract_lets +onlyGivenNames x1; clear_value (hx : x1 = _); refine Keeps.cut1 x1 ?_ (fun h => ?_); rw [hx]; clear hx x1; rotate_left; clear hx; rotate_right)
    | (extract_lets +onlyGivenNames x1; clear_value (hx : x1 = _); refine Keeps.cut2 x1 ?_ (fun h => ?_); rw [hx]; clear hx x1; rotate_left; clear hx; rotate_right)
    | (extract_lets +onlyGivenNames x1; clear_value (hx : x1 = _); clear hx)
    | with_reducible assumption
    | with_reducible exact Keeps.refl _ _
    | decide +kernel
    | with_reducible apply Keeps.setBA
    | with_reducible apply Keeps.via (State.porchOff_keeps ..)
    | with_reducible apply Keeps.via (State.porchOn_keeps ..)
    | with_reducible apply Keeps.via (State.porchRetrain_keeps ..)
    | with_reducible apply Keeps.via (State.ok_keeps ..)
    | with_reducible apply Keeps.iteA
    | with_reducible apply Keeps.ite1

def State.quietReq_w : Nat := fm H.PO_QREQ ||| State.sendOut_w ||| State.porchTo_w
theorem State.quietReq_keeps (s : State) (p : Nat) (received : Bool) : Keeps State.quietReq_w s (s.quietReq p received) := by
  unfold State.quietReq
  repeat' first
    | with_reducible assumption
    | with_reducible exact Keeps.refl _ _
    | decide +kernel
    | with_reducible apply Keeps.setBA
    | with_reducible apply Keeps.via (State.sendOut_keeps ..)
    | with_reducible apply Keeps.via (State.porchTo_keeps ..)
    | with_reducible apply Keeps.iteA

def State.quietAck_w : Nat := fm H.PO_QREQ ||| State.porchTo_w
theorem State.quietAck_keeps (s : State) (p : Nat) (accept : Bool) : Keeps State.quietAck_w s (s.quietAck p accept) := by
  unfold State.quietAck
  repeat' first
    | (extract_lets +onlyGivenNames x1; clear_value (hx : x1 = _); refine Keeps.cut x1 ?_ (fun h => ?_); rw [hx]; clear hx x1; rotate_left; clear hx; rotate_right)
    | (extract_lets +onlyGivenNames x1; clear_value (hx : x1 = _); refine Keeps.cut1 x1 ?_ (fun h => ?_); rw [hx]; clear hx x1; rotate_left; clear hx; rotate_right)
    | (extract_lets +onlyGivenNames x1; clear_value (hx : x1 = _); refine Keeps.cut2 x1 ?_ (fun h => ?_); rw [hx]; clear hx x1; rotate_left; clear hx; rotate_right)
    | (extract_lets +onlyGivenNames x1; clear_value (hx : x1 = _); clear hx)
    | with_reducible assumption
    | with_reducible exact Keeps.refl _ _
    | decide +kernel
    | with_reducible apply Keeps.setBA
    | with_reducible apply Keeps.via (State.porchTo_keeps ..)
    | with_reducible apply Keeps.iteA

def State.quietExit_w : Nat := State.laneTake_w ||| State.porchTo_w ||| State.drain_w
theorem State.quietExit_keeps (s : State) (p : Nat) : Keeps State.quietExit_w s (s.quietExit p) := by
  unfold State.quietExit
  repeat' first
    | (extract_lets +onlyGivenNames x1; clear_value (hx : x1 = _); refine Keeps.cut x1 ?_ (fun h => ?_); rw [hx]; clear hx x1; rotate_left; clear hx; rotate_right)
    | (extract_lets +onlyGivenNames x1; clear_value (hx : x1 = _); refine Keeps.cut1 x1 ?_ (fun h => ?_); rw [hx]; clear hx x1; rotate_left; clear hx; rotate_right)
    | (extract_lets +onlyGivenNames x1; clear_value (hx : x1 = _); refine Keeps.cut2 x1 ?_ (fun h => ?_); rw [hx]; clear hx x1; rotate_left; clear hx; rotate_right)
    | (extract_lets +onlyGivenNames x1; clear_value (hx : x1 = _); clear hx)
    | with_reducible assumption
    | with_reducible exact Keeps.refl _ _
    | decide +kernel
    | with_reducible apply Keeps.via (State.laneTake_keeps ..)
    | with_reducible apply Keeps.via (State.porchTo_keeps ..)
    | with_reducible apply Keeps.via (State.drain_keeps ..)
    | with_reducible apply Keeps.iteA

def State.deepAnswer_w : Nat := fm H.PO_DPEND ||| State.sendOut_w ||| State.porchTo_w
theorem State.deepAnswer_keeps (s : State) (p : Nat) : Keeps State.deepAnswer_w s (s.deepAnswer p) := by
  unfold State.deepAnswer
  repeat' first
    | with_reducible assumption
    | with_reducible exact Keeps.refl _ _
    | decide +kernel
    | with_reducible apply Keeps.setBA
    | with_reducible apply Keeps.via (State.sendOut_keeps ..)
    | with_reducible apply Keeps.via (State.porchTo_keeps ..)
    | with_reducible apply Keeps.iteA

def State.deepReq_w : Nat := fm H.PO_DPEND ||| fm H.PO_DREQ ||| State.deepAnswer_w ||| State.sendOut_w
theorem State.deepReq_keeps (s : State) (p : Nat) (received : Bool) : Keeps State.deepReq_w s (s.deepReq p received) := by
  unfold State.deepReq
  repeat' first
    | with_reducible assumption
    | with_reducible exact Keeps.refl _ _
    | decide +kernel
    | with_reducible apply Keeps.setBA
    | with_reducible apply Keeps.via (State.deepAnswer_keeps ..)
    | with_reducible apply Keeps.via (State.sendOut_keeps ..)
    | with_reducible apply Keeps.iteA

def State.deepAck_w : Nat := fm H.PO_DREQ ||| State.porchTo_w
theorem State.deepAck_keeps (s : State) (p : Nat) : Keeps State.deepAck_w s (s.deepAck p) := by
  unfold State.deepAck
  repeat' first
    | with_reducible assumption
    | with_reducible exact Keeps.refl _ _
    | decide +kernel
    | with_reducible apply Keeps.setBA
    | with_reducible apply Keeps.via (State.porchTo_keeps ..)
    | with_reducible apply Keeps.iteA

def State.deepWake_w : Nat := fm H.PO_FULL ||| fm H.PO_WAKE_END ||| fm H.PO_INFO ||| fm H.PO_STEP
theorem State.deepWake_keeps (s : State) (p : Nat) : Keeps State.deepWake_w s (s.deepWake p) := by
  unfold State.deepWake
  repeat' first
    | with_reducible assumption
    | with_reducible exact Keeps.refl _ _
    | decide +kernel
    | with_reducible apply Keeps.putA
    | with_reducible apply Keeps.setBA
    | with_reducible apply Keeps.setDueA
    | with_reducible apply Keeps.iteA

def State.wakeTimeout_w : Nat := m_now ||| State.porchDown_w
theorem State.wakeTimeout_keeps (s : State) (p : Nat) : Keeps State.wakeTimeout_w s (s.wakeTimeout p) := by
  unfold State.wakeTimeout
  repeat' first
    | with_reducible assumption
    | with_reducible exact Keeps.refl _ _
    | decide +kernel
    | with_reducible apply Keeps.upToA
    | with_reducible apply Keeps.via (State.porchDown_keeps ..)
    | with_reducible apply Keeps.iteA
    | split

def State.lanePresetUpdate_w : Nat := m_now ||| State.laneTake_w
theorem State.lanePresetUpdate_keeps (s : State) (p : Nat) : Keeps State.lanePresetUpdate_w s (s.lanePresetUpdate p) := by
  unfold State.lanePresetUpdate
  repeat' first
    | with_reducible assumption
    | with_reducible exact Keeps.refl _ _
    | decide +kernel
    | with_reducible apply Keeps.upToA
    | with_reducible apply Keeps.via (State.laneTake_keeps ..)
    | with_reducible apply Keeps.iteA
    | split

def State.leave_w : Nat := fm F.PORCH_STAT_LEAVE_RX ||| fm H.PO_LEFT ||| fm H.PO_LEAVE_END ||| State.dropRoutes_w
theorem State.leave_keeps (s : State) (p : Nat) : Keeps State.leave_w s (s.leave p) := by
  unfold State.leave
  repeat' first
    | with_reducible assumption
    | with_reducible exact Keeps.refl _ _
    | decide +kernel
    | with_reducible apply Keeps.setBA
    | with_reducible apply Keeps.setDueA
    | with_reducible apply Keeps.via (State.dropRoutes_keeps ..)
    | with_reducible apply Keeps.iteA

def State.leaveSend_w : Nat := fm H.PO_IDLED ||| fm H.PO_LEAVE_END ||| State.porchTo_w ||| State.sendOut_w
theorem State.leaveSend_keeps (s : State) (p : Nat) : Keeps State.leaveSend_w s (s.leaveSend p) := by
  unfold State.leaveSend
  repeat' first
    | with_reducible assumption
    | with_reducible exact Keeps.refl _ _
    | decide +kernel
    | with_reducible apply Keeps.setBA
    | with_reducible apply Keeps.setDueA
    | with_reducible apply Keeps.via (State.porchTo_keeps ..)
    | with_reducible apply Keeps.via (State.sendOut_keeps ..)
    | with_reducible apply Keeps.iteA

def State.removeCheck_w : Nat := fm H.REMOVE_WAIT ||| fm F.MODE_STAT_REMOVE_READY ||| fm H.UNAVAIL ||| State.answerOk_w
theorem State.removeCheck_keeps (s : State) : Keeps State.removeCheck_w s (s.removeCheck) := by
  unfold State.removeCheck
  repeat' first
    | (extract_lets +onlyGivenNames x1; clear_value (hx : x1 = _); refine Keeps.cut x1 ?_ (fun h => ?_); rw [hx]; clear hx x1; rotate_left; clear hx; rotate_right)
    | (extract_lets +onlyGivenNames x1; clear_value (hx : x1 = _); refine Keeps.cut1 x1 ?_ (fun h => ?_); rw [hx]; clear hx x1; rotate_left; clear hx; rotate_right)
    | (extract_lets +onlyGivenNames x1; clear_value (hx : x1 = _); refine Keeps.cut2 x1 ?_ (fun h => ?_); rw [hx]; clear hx x1; rotate_left; clear hx; rotate_right)
    | (extract_lets +onlyGivenNames x1; clear_value (hx : x1 = _); clear hx)
    | with_reducible assumption
    | with_reducible exact Keeps.refl _ _
    | decide +kernel
    | with_reducible apply Keeps.setBA
    | with_reducible apply Keeps.via (State.answerOk_keeps ..)
    | with_reducible apply Keeps.iteA

def State.leaveDone_w : Nat := fm H.PO_LEAVE_END ||| fm H.PO_IDLED ||| State.removeCheck_w
theorem State.leaveDone_keeps (s : State) (p : Nat) : Keeps State.leaveDone_w s (s.leaveDone p) := by
  unfold State.leaveDone
  repeat' first
    | with_reducible assumption
    | with_reducible exact Keeps.refl _ _
    | decide +kernel
    | with_reducible apply Keeps.setBA
    | with_reducible apply Keeps.noDueA
    | with_reducible apply Keeps.via (State.removeCheck_keeps ..)
    | with_reducible apply Keeps.iteA

def State.leaveExpiry_w : Nat := m_now ||| State.leaveDone_w
theorem State.leaveExpiry_keeps (s : State) (p : Nat) : Keeps State.leaveExpiry_w s (s.leaveExpiry p) := by
  unfold State.leaveExpiry
  repeat' first
    | with_reducible assumption
    | with_reducible exact Keeps.refl _ _
    | decide +kernel
    | with_reducible apply Keeps.upToA
    | with_reducible apply Keeps.via (State.leaveDone_keeps ..)
    | split

def State.retryWait_w : Nat := fm H.RX_WAIT ||| fm H.RX_REQS ||| fm H.RX_REQ_T ||| fm F.PORCH_RETRY_REQ_SENT
theorem State.retryWait_keeps (s : State) (p : Nat) : Keeps State.retryWait_w s (s.retryWait p) := by
  unfold State.retryWait
  repeat' first
    | with_reducible assumption
    | with_reducible exact Keeps.refl _ _
    | decide +kernel
    | with_reducible apply Keeps.putA
    | with_reducible apply Keeps.setBA
    | with_reducible apply Keeps.incSatA
    | with_reducible apply Keeps.setDueA
    | with_reducible apply Keeps.iteA

def State.retryResend_w : Nat := fm F.PORCH_RETRY_REQ_SENT ||| fm H.RX_REQS ||| fm H.RX_REQ_T ||| m_now |||
    State.porchRetrain_w
theorem State.retryResend_keeps (s : State) (p : Nat) : Keeps State.retryResend_w s (s.retryResend p) := by
  unfold State.retryResend
  repeat' first
    | (extract_lets +onlyGivenNames x1; clear_value (hx : x1 = _); refine Keeps.cut x1 ?_ (fun h => ?_); rw [hx]; clear hx x1; rotate_left; clear hx; rotate_right)
    | (extract_lets +onlyGivenNames x1; clear_value (hx : x1 = _); refine Keeps.cut1 x1 ?_ (fun h => ?_); rw [hx]; clear hx x1; rotate_left; clear hx; rotate_right)
    | (extract_lets +onlyGivenNames x1; clear_value (hx : x1 = _); refine Keeps.cut2 x1 ?_ (fun h => ?_); rw [hx]; clear hx x1; rotate_left; clear hx; rotate_right)
    | (extract_lets +onlyGivenNames x1; clear_value (hx : x1 = _); clear hx)
    | with_reducible assumption
    | with_reducible exact Keeps.refl _ _
    | decide +kernel
    | with_reducible apply Keeps.putA
    | with_reducible apply Keeps.incSatA
    | with_reducible apply Keeps.setDueA
    | with_reducible apply Keeps.upToA
    | with_reducible apply Keeps.via (State.porchRetrain_keeps ..)
    | with_reducible apply Keeps.iteA
    | split

def State.retryReq_w : Nat := fm F.PORCH_RETRY_REPLAYS ||| State.ackBefore_w
theorem State.retryReq_keeps (s : State) (p exp : Nat) : Keeps State.retryReq_w s (s.retryReq p exp) := by
  unfold State.retryReq
  repeat' first
    | (extract_lets +onlyGivenNames x1; clear_value (hx : x1 = _); refine Keeps.cut x1 ?_ (fun h => ?_); rw [hx]; clear hx x1; rotate_left; clear hx; rotate_right)
    | (extract_lets +onlyGivenNames x1; clear_value (hx : x1 = _); refine Keeps.cut1 x1 ?_ (fun h => ?_); rw [hx]; clear hx x1; rotate_left; clear hx; rotate_right)
    | (extract_lets +onlyGivenNames x1; clear_value (hx : x1 = _); refine Keeps.cut2 x1 ?_ (fun h => ?_); rw [hx]; clear hx x1; rotate_left; clear hx; rotate_right)
    | (extract_lets +onlyGivenNames x1; clear_value (hx : x1 = _); clear hx)
    | with_reducible assumption
    | with_reducible exact Keeps.refl _ _
    | decide +kernel
    | with_reducible apply Keeps.incSatA
    | with_reducible apply Keeps.via (State.ackBefore_keeps ..)
    | with_reducible apply Keeps.iteA

def State.linkBlock_w : Nat := fm F.PORCH_FILL_INSERTED ||| fm F.PORCH_FILL_DELETED ||| fm F.PORCH_ERR_UNCORR |||
    fm F.PORCH_ERR_CRC ||| fm H.TX_CR ||| fm F.PORCH_FEC_LO_CORR_LO ||| fm F.PORCH_FEC_HI_CORR_HI ||| State.ok_w |||
    State.retryWait_w ||| State.ackBefore_w ||| State.drain_w ||| State.deepAnswer_w ||| State.leaveDone_w
theorem State.linkBlock_keeps (s : State) (p : Nat) (b : LinkBlock) : Keeps State.linkBlock_w s (s.linkBlock p b) := by
  unfold State.linkBlock
  repeat' first
    | (extract_lets +onlyGivenNames x1; clear_value (hx : x1 = _); refine Keeps.cut x1 ?_ (fun h => ?_); rw [hx]; clear hx x1; rotate_left; clear hx; rotate_right)
    | (extract_lets +onlyGivenNames x1; clear_value (hx : x1 = _); refine Keeps.cut1 x1 ?_ (fun h => ?_); rw [hx]; clear hx x1; rotate_left; clear hx; rotate_right)
    | (extract_lets +onlyGivenNames x1; clear_value (hx : x1 = _); refine Keeps.cut2 x1 ?_ (fun h => ?_); rw [hx]; clear hx x1; rotate_left; clear hx; rotate_right)
    | (extract_lets +onlyGivenNames x1; clear_value (hx : x1 = _); clear hx)
    | with_reducible assumption
    | with_reducible exact Keeps.refl _ _
    | decide +kernel
    | with_reducible apply Keeps.putA
    | with_reducible apply Keeps.addSatA
    | with_reducible apply Keeps.incSatA
    | with_reducible apply Keeps.put2A
    | with_reducible apply Keeps.via (State.ok_keeps ..)
    | with_reducible apply Keeps.via (State.retryWait_keeps ..)
    | with_reducible apply Keeps.via (State.ackBefore_keeps ..)
    | with_reducible apply Keeps.via (State.drain_keeps ..)
    | with_reducible apply Keeps.via (State.deepAnswer_keeps ..)
    | with_reducible apply Keeps.via (State.leaveDone_keeps ..)
    | with_reducible apply Keeps.iteA

def State.sendOwn_w : Nat := fm F.FAB_DROP_NOROUTE ||| State.sendOut_w
theorem State.sendOwn_keeps (s : State) (arrival : Option Nat) (f : Flit) : Keeps State.sendOwn_w s (s.sendOwn arrival f) := by
  unfold State.sendOwn
  repeat' first
    | (extract_lets +onlyGivenNames x1; clear_value (hx : x1 = _); refine Keeps.cut x1 ?_ (fun h => ?_); rw [hx]; clear hx x1; rotate_left; clear hx; rotate_right)
    | (extract_lets +onlyGivenNames x1; clear_value (hx : x1 = _); refine Keeps.cut1 x1 ?_ (fun h => ?_); rw [hx]; clear hx x1; rotate_left; clear hx; rotate_right)
    | (extract_lets +onlyGivenNames x1; clear_value (hx : x1 = _); refine Keeps.cut2 x1 ?_ (fun h => ?_); rw [hx]; clear hx x1; rotate_left; clear hx; rotate_right)
    | (extract_lets +onlyGivenNames x1; clear_value (hx : x1 = _); clear hx)
    | with_reducible assumption
    | with_reducible exact Keeps.refl _ _
    | decide +kernel
    | with_reducible apply Keeps.incSatA
    | with_reducible apply Keeps.via (State.sendOut_keeps ..)
    | with_reducible apply Keeps.iteA
    | split

def State.replyFlit_w : Nat := fm F.FAB_DROP2_BAD_SR ||| State.sendOwn_w
theorem State.replyFlit_keeps (s : State) (p : Nat) (req : Flit) (typ seg : Nat) (body : List Byte) : Keeps State.replyFlit_w s (s.replyFlit p req typ seg body) := by
  unfold State.replyFlit
  repeat' first
    | with_reducible assumption
    | with_reducible exact Keeps.refl _ _
    | decide +kernel
    | with_reducible apply Keeps.incSatA
    | with_reducible apply Keeps.via (State.sendOwn_keeps ..)
    | with_reducible apply Keeps.iteA

def State.noRoute_w : Nat := fm F.FAB_DROP_TTL ||| fm F.FAB_DROP_NOROUTE ||| State.replyFlit_w
theorem State.noRoute_keeps (s : State) (p reason : Nat) (f : Flit) : Keeps State.noRoute_w s (s.noRoute p reason f) := by
  unfold State.noRoute
  repeat' first
    | (extract_lets +onlyGivenNames x1; clear_value (hx : x1 = _); refine Keeps.cut x1 ?_ (fun h => ?_); rw [hx]; clear hx x1; rotate_left; clear hx; rotate_right)
    | (extract_lets +onlyGivenNames x1; clear_value (hx : x1 = _); refine Keeps.cut1 x1 ?_ (fun h => ?_); rw [hx]; clear hx x1; rotate_left; clear hx; rotate_right)
    | (extract_lets +onlyGivenNames x1; clear_value (hx : x1 = _); refine Keeps.cut2 x1 ?_ (fun h => ?_); rw [hx]; clear hx x1; rotate_left; clear hx; rotate_right)
    | (extract_lets +onlyGivenNames x1; clear_value (hx : x1 = _); clear hx)
    | with_reducible assumption
    | with_reducible exact Keeps.refl _ _
    | decide +kernel
    | with_reducible apply Keeps.incSatA
    | with_reducible apply Keeps.via (State.replyFlit_keeps ..)
    | with_reducible apply Keeps.iteA

def State.forward_w : Nat := State.noRoute_w ||| State.sendOut_w
theorem State.forward_keeps (s : State) (p q : Nat) (f : Flit) : Keeps State.forward_w s (s.forward p q f) := by
  unfold State.forward
  repeat' first
    | with_reducible assumption
    | with_reducible exact Keeps.refl _ _
    | decide +kernel
    | with_reducible apply Keeps.via (State.noRoute_keeps ..)
    | with_reducible apply Keeps.via (State.sendOut_keeps ..)
    | with_reducible apply Keeps.iteA

def State.forwardSr_w : Nat := State.noRoute_w ||| State.sendOut_w
theorem State.forwardSr_keeps (s : State) (p : Nat) (f : Flit) : Keeps State.forwardSr_w s (s.forwardSr p f) := by
  unfold State.forwardSr
  repeat' first
    | (extract_lets +onlyGivenNames x1; clear_value (hx : x1 = _); refine Keeps.cut x1 ?_ (fun h => ?_); rw [hx]; clear hx x1; rotate_left; clear hx; rotate_right)
    | (extract_lets +onlyGivenNames x1; clear_value (hx : x1 = _); refine Keeps.cut1 x1 ?_ (fun h => ?_); rw [hx]; clear hx x1; rotate_left; clear hx; rotate_right)
    | (extract_lets +onlyGivenNames x1; clear_value (hx : x1 = _); refine Keeps.cut2 x1 ?_ (fun h => ?_); rw [hx]; clear hx x1; rotate_left; clear hx; rotate_right)
    | (extract_lets +onlyGivenNames x1; clear_value (hx : x1 = _); clear hx)
    | with_reducible assumption
    | with_reducible exact Keeps.refl _ _
    | decide +kernel
    | with_reducible apply Keeps.via (State.noRoute_keeps ..)
    | with_reducible apply Keeps.via (State.sendOut_keeps ..)
    | with_reducible apply Keeps.iteA

def State.discoverReply_w : Nat := State.sendOwn_w
theorem State.discoverReply_keeps (s : State) (p : Nat) (f : Flit) : Keeps State.discoverReply_w s (s.discoverReply p f) := by
  unfold State.discoverReply
  repeat' first
    | (extract_lets +onlyGivenNames x1; clear_value (hx : x1 = _); refine Keeps.cut x1 ?_ (fun h => ?_); rw [hx]; clear hx x1; rotate_left; clear hx; rotate_right)
    | (extract_lets +onlyGivenNames x1; clear_value (hx : x1 = _); refine Keeps.cut1 x1 ?_ (fun h => ?_); rw [hx]; clear hx x1; rotate_left; clear hx; rotate_right)
    | (extract_lets +onlyGivenNames x1; clear_value (hx : x1 = _); refine Keeps.cut2 x1 ?_ (fun h => ?_); rw [hx]; clear hx x1; rotate_left; clear hx; rotate_right)
    | (extract_lets +onlyGivenNames x1; clear_value (hx : x1 = _); clear hx)
    | with_reducible assumption
    | with_reducible exact Keeps.refl _ _
    | decide +kernel
    | with_reducible apply Keeps.via (State.sendOwn_keeps ..)
    | with_reducible apply Keeps.iteA

def State.assign_w : Nat := fm F.FAB_NODE_NODE_ID ||| fm F.FAB_NODE_RT_VALID ||| fm F.FAB_NODE_HOST_NODE |||
    fm F.FAB_CTRL_TTL ||| fm F.FAB_NODE_HOME_PORCH ||| State.replyFlit_w
theorem State.assign_keeps (s : State) (p : Nat) (f : Flit) : Keeps State.assign_w s (s.assign p f) := by
  unfold State.assign
  repeat' first
    | (extract_lets +onlyGivenNames x1; clear_value (hx : x1 = _); refine Keeps.cut x1 ?_ (fun h => ?_); rw [hx]; clear hx x1; rotate_left; clear hx; rotate_right)
    | (extract_lets +onlyGivenNames x1; clear_value (hx : x1 = _); refine Keeps.cut1 x1 ?_ (fun h => ?_); rw [hx]; clear hx x1; rotate_left; clear hx; rotate_right)
    | (extract_lets +onlyGivenNames x1; clear_value (hx : x1 = _); refine Keeps.cut2 x1 ?_ (fun h => ?_); rw [hx]; clear hx x1; rotate_left; clear hx; rotate_right)
    | (extract_lets +onlyGivenNames x1; clear_value (hx : x1 = _); clear hx)
    | with_reducible assumption
    | with_reducible exact Keeps.refl _ _
    | decide +kernel
    | with_reducible apply Keeps.putA
    | with_reducible apply Keeps.setBA
    | with_reducible apply Keeps.via (State.replyFlit_keeps ..)
    | with_reducible apply Keeps.iteA

def State.routeWord_w : Nat := fm F.FAB_MC_PORCHES ||| fm F.FAB_MC_LOCAL ||| fm F.FAB_NODE_RT_VALID ||| fm F.FAB_CTRL_TTL |||
    rtPorch_w ||| rtValid_w
theorem State.routeWord_keeps (s : State) (n v : Nat) : Keeps State.routeWord_w s (s.routeWord n v) := by
  unfold State.routeWord
  repeat' first
    | with_reducible assumption
    | with_reducible exact Keeps.refl _ _
    | decide +kernel
    | with_reducible apply Keeps.putA
    | with_reducible apply Keeps.setBA
    | exact (rtPorch_sub ..).trans (by decide +kernel)
    | exact (rtValid_sub ..).trans (by decide +kernel)
    | with_reducible refine Keeps.foldlA ?_ (fun _ _ => ?_)
    | with_reducible apply Keeps.iteA

def State.routeSet_w : Nat := State.routeWord_w ||| State.replyFlit_w
theorem State.routeSet_keeps (s : State) (p : Nat) (f : Flit) : Keeps State.routeSet_w s (s.routeSet p f) := by
  unfold State.routeSet
  repeat' first
    | (extract_lets +onlyGivenNames x1; clear_value (hx : x1 = _); refine Keeps.cut x1 ?_ (fun h => ?_); rw [hx]; clear hx x1; rotate_left; clear hx; rotate_right)
    | (extract_lets +onlyGivenNames x1; clear_value (hx : x1 = _); refine Keeps.cut1 x1 ?_ (fun h => ?_); rw [hx]; clear hx x1; rotate_left; clear hx; rotate_right)
    | (extract_lets +onlyGivenNames x1; clear_value (hx : x1 = _); refine Keeps.cut2 x1 ?_ (fun h => ?_); rw [hx]; clear hx x1; rotate_left; clear hx; rotate_right)
    | (extract_lets +onlyGivenNames x1; clear_value (hx : x1 = _); clear hx)
    | with_reducible assumption
    | with_reducible exact Keeps.refl _ _
    | decide +kernel
    | with_reducible refine Keeps.eachA ?_ (fun _ _ => ?_)
    | with_reducible apply Keeps.via (State.routeWord_keeps ..)
    | with_reducible apply Keeps.via (State.replyFlit_keeps ..)
    | with_reducible apply Keeps.iteA

def State.message_w : Nat := m_accepted ||| State.answerErr_w
theorem State.message_keeps (s : State) (h : Hdr) (op : Nat) (data : List Byte) : Keeps State.message_w s (s.message h op data) := by
  unfold State.message
  repeat' first
    | with_reducible assumption
    | with_reducible exact Keeps.refl _ _
    | decide +kernel
    | with_reducible apply Keeps.via (State.answerErr_keeps ..)
    | with_reducible apply Keeps.iteA
    | split
    | with_reducible refine Keeps.trans ?_ (Keeps.c_accepted _ ?_)

def State.asmDrop_w : Nat := m_asm
theorem State.asmDrop_keeps (s : State) (src tag : Nat) : Keeps State.asmDrop_w s (s.asmDrop src tag) := by
  unfold State.asmDrop
  repeat' first
    | with_reducible assumption
    | with_reducible exact Keeps.refl _ _
    | decide +kernel
    | with_reducible refine Keeps.trans ?_ (Keeps.c_asm _ ?_)

def State.assemble_w : Nat := m_asm ||| State.asmDrop_w ||| State.answerErr_w ||| State.message_w
theorem State.assemble_keeps (s : State) (f : Flit) : Keeps State.assemble_w s (s.assemble f) := by
  unfold State.assemble
  repeat' first
    | (extract_lets +onlyGivenNames x1; clear_value (hx : x1 = _); refine Keeps.cut x1 ?_ (fun h => ?_); rw [hx]; clear hx x1; rotate_left; clear hx; rotate_right)
    | (extract_lets +onlyGivenNames x1; clear_value (hx : x1 = _); refine Keeps.cut1 x1 ?_ (fun h => ?_); rw [hx]; clear hx x1; rotate_left; clear hx; rotate_right)
    | (extract_lets +onlyGivenNames x1; clear_value (hx : x1 = _); refine Keeps.cut2 x1 ?_ (fun h => ?_); rw [hx]; clear hx x1; rotate_left; clear hx; rotate_right)
    | (extract_lets +onlyGivenNames x1; clear_value (hx : x1 = _); clear hx)
    | with_reducible assumption
    | with_reducible exact Keeps.refl _ _
    | decide +kernel
    | with_reducible apply Keeps.via (State.asmDrop_keeps ..)
    | with_reducible apply Keeps.via (State.answerErr_keeps ..)
    | with_reducible apply Keeps.via (State.message_keeps ..)
    | with_reducible apply Keeps.iteA
    | split
    | with_reducible refine Keeps.trans ?_ (Keeps.c_asm _ ?_)

def State.deliver_w : Nat := State.discoverReply_w ||| State.assign_w ||| State.routeSet_w ||| State.assemble_w
theorem State.deliver_keeps (s : State) (p : Nat) (f : Flit) : Keeps State.deliver_w s (s.deliver p f) := by
  unfold State.deliver
  repeat' first
    | with_reducible assumption
    | with_reducible exact Keeps.refl _ _
    | decide +kernel
    | with_reducible apply Keeps.via (State.discoverReply_keeps ..)
    | with_reducible apply Keeps.via (State.assign_keeps ..)
    | with_reducible apply Keeps.via (State.routeSet_keeps ..)
    | with_reducible apply Keeps.via (State.assemble_keeps ..)
    | with_reducible apply Keeps.iteA

def State.broadcast_w : Nat := m_bcasts ||| State.forward_w ||| State.deliver_w
theorem State.broadcast_keeps (s : State) (p : Nat) (f : Flit) : Keeps State.broadcast_w s (s.broadcast p f) := by
  unfold State.broadcast
  repeat' first
    | (extract_lets +onlyGivenNames x1; clear_value (hx : x1 = _); refine Keeps.cut x1 ?_ (fun h => ?_); rw [hx]; clear hx x1; rotate_left; clear hx; rotate_right)
    | (extract_lets +onlyGivenNames x1; clear_value (hx : x1 = _); refine Keeps.cut1 x1 ?_ (fun h => ?_); rw [hx]; clear hx x1; rotate_left; clear hx; rotate_right)
    | (extract_lets +onlyGivenNames x1; clear_value (hx : x1 = _); refine Keeps.cut2 x1 ?_ (fun h => ?_); rw [hx]; clear hx x1; rotate_left; clear hx; rotate_right)
    | (extract_lets +onlyGivenNames x1; clear_value (hx : x1 = _); clear hx)
    | with_reducible assumption
    | with_reducible exact Keeps.refl _ _
    | decide +kernel
    | with_reducible refine Keeps.foldlA ?_ (fun _ _ => ?_)
    | with_reducible apply Keeps.via (State.forward_keeps ..)
    | with_reducible apply Keeps.via (State.deliver_keeps ..)
    | with_reducible apply Keeps.iteA
    | split
    | with_reducible refine Keeps.trans ?_ (Keeps.c_bcasts _ ?_)

def State.route_w : Nat := fm F.FAB_CONFLICT_COUNT ||| fm F.FAB_CONFLICT_PORCH ||| fm F.FAB_DROP2_BAD_SR |||
    State.deliver_w ||| State.forward_w ||| State.forwardSr_w ||| State.noRoute_w ||| State.broadcast_w
theorem State.route_keeps (s : State) (p : Nat) (f : Flit) : Keeps State.route_w s (s.route p f) := by
  unfold State.route
  repeat' first
    | (extract_lets +onlyGivenNames x1; clear_value (hx : x1 = _); refine Keeps.cut x1 ?_ (fun h => ?_); rw [hx]; clear hx x1; rotate_left; clear hx; rotate_right)
    | (extract_lets +onlyGivenNames x1; clear_value (hx : x1 = _); refine Keeps.cut1 x1 ?_ (fun h => ?_); rw [hx]; clear hx x1; rotate_left; clear hx; rotate_right)
    | (extract_lets +onlyGivenNames x1; clear_value (hx : x1 = _); refine Keeps.cut2 x1 ?_ (fun h => ?_); rw [hx]; clear hx x1; rotate_left; clear hx; rotate_right)
    | (extract_lets +onlyGivenNames x1; clear_value (hx : x1 = _); clear hx)
    | with_reducible assumption
    | with_reducible exact Keeps.refl _ _
    | decide +kernel
    | with_reducible apply Keeps.putA
    | with_reducible apply Keeps.incSatA
    | with_reducible refine Keeps.foldlA ?_ (fun _ _ => ?_)
    | with_reducible apply Keeps.via (State.deliver_keeps ..)
    | with_reducible apply Keeps.via (State.forward_keeps ..)
    | with_reducible apply Keeps.via (State.forwardSr_keeps ..)
    | with_reducible apply Keeps.via (State.noRoute_keeps ..)
    | with_reducible apply Keeps.via (State.broadcast_keeps ..)
    | with_reducible apply Keeps.iteA
    | split

def State.flitAccepted_w : Nat := fm F.FAB_DROP2_BADTYPE ||| State.retryReq_w ||| State.linkInfo_w ||| State.leave_w |||
    State.quietReq_w ||| State.quietAck_w ||| State.deepReq_w ||| State.deepAck_w ||| State.route_w
theorem State.flitAccepted_keeps (s : State) (p : Nat) (f : Flit) : Keeps State.flitAccepted_w s (s.flitAccepted p f) := by
  unfold State.flitAccepted
  repeat' first
    | with_reducible assumption
    | with_reducible exact Keeps.refl _ _
    | decide +kernel
    | with_reducible apply Keeps.incSatA
    | with_reducible apply Keeps.via (State.retryReq_keeps ..)
    | with_reducible apply Keeps.via (State.linkInfo_keeps ..)
    | with_reducible apply Keeps.via (State.leave_keeps ..)
    | with_reducible apply Keeps.via (State.quietReq_keeps ..)
    | with_reducible apply Keeps.via (State.quietAck_keeps ..)
    | with_reducible apply Keeps.via (State.deepReq_keeps ..)
    | with_reducible apply Keeps.via (State.deepAck_keeps ..)
    | with_reducible apply Keeps.via (State.route_keeps ..)
    | with_reducible apply Keeps.iteA
    | split

def State.flitReceive_w : Nat := fm F.PORCH_ERR_CRC ||| fm H.RX_EXP ||| fm H.RX_WAIT ||| fm H.RX_REQS ||| fm H.RX_REQ_T |||
    State.retryWait_w ||| State.flitAccepted_w
theorem State.flitReceive_keeps (s : State) (p : Nat) (f : Flit) : Keeps State.flitReceive_w s (s.flitReceive p f) := by
  unfold State.flitReceive
  repeat' first
    | (extract_lets +onlyGivenNames x1; clear_value (hx : x1 = _); refine Keeps.cut x1 ?_ (fun h => ?_); rw [hx]; clear hx x1; rotate_left; clear hx; rotate_right)
    | (extract_lets +onlyGivenNames x1; clear_value (hx : x1 = _); refine Keeps.cut1 x1 ?_ (fun h => ?_); rw [hx]; clear hx x1; rotate_left; clear hx; rotate_right)
    | (extract_lets +onlyGivenNames x1; clear_value (hx : x1 = _); refine Keeps.cut2 x1 ?_ (fun h => ?_); rw [hx]; clear hx x1; rotate_left; clear hx; rotate_right)
    | (extract_lets +onlyGivenNames x1; clear_value (hx : x1 = _); clear hx)
    | with_reducible assumption
    | with_reducible exact Keeps.refl _ _
    | decide +kernel
    | with_reducible apply Keeps.putA
    | with_reducible apply Keeps.setBA
    | with_reducible apply Keeps.incSatA
    | with_reducible apply Keeps.noDueA
    | with_reducible apply Keeps.via (State.retryWait_keeps ..)
    | with_reducible apply Keeps.via (State.flitAccepted_keeps ..)
    | with_reducible apply Keeps.iteA

def State.eventSend_w : Nat := m_events ||| State.sendOut_w
theorem State.eventSend_keeps (s : State) : Keeps State.eventSend_w s (s.eventSend) := by
  unfold State.eventSend
  repeat' first
    | (extract_lets +onlyGivenNames x1; clear_value (hx : x1 = _); refine Keeps.cut x1 ?_ (fun h => ?_); rw [hx]; clear hx x1; rotate_left; clear hx; rotate_right)
    | (extract_lets +onlyGivenNames x1; clear_value (hx : x1 = _); refine Keeps.cut1 x1 ?_ (fun h => ?_); rw [hx]; clear hx x1; rotate_left; clear hx; rotate_right)
    | (extract_lets +onlyGivenNames x1; clear_value (hx : x1 = _); refine Keeps.cut2 x1 ?_ (fun h => ?_); rw [hx]; clear hx x1; rotate_left; clear hx; rotate_right)
    | (extract_lets +onlyGivenNames x1; clear_value (hx : x1 = _); clear hx)
    | with_reducible assumption
    | with_reducible exact Keeps.refl _ _
    | decide +kernel
    | with_reducible apply Keeps.via (State.sendOut_keeps ..)
    | with_reducible apply Keeps.iteA
    | split
    | with_reducible refine Keeps.trans ?_ (Keeps.c_events _ ?_)

end Sys2Proof.Machine
end

