-- ==== Sys2Proof/Laws/KeepsModes.lean ====
section
/-!
SUPPORT. What every operation of Machine/Modes.lean can change: its mask and its Keeps lemma.
-/

set_option Elab.async false
set_option linter.all false

namespace Sys2Proof.Machine

def State.safeStep_w : Nat := m_now ||| m_safe ||| State.safeStage_w ||| State.unbindSite_w ||| State.answer_w |||
    State.answerOk_w
theorem State.safeStep_keeps (s : State) : Keeps State.safeStep_w s (s.safeStep) := by
  unfold State.safeStep
  repeat' first
    | (extract_lets +onlyGivenNames x1; clear_value (hx : x1 = _); refine Keeps.cut x1 ?_ (fun h => ?_); rw [hx]; clear hx x1; rotate_left; clear hx; rotate_right)
    | (extract_lets +onlyGivenNames x1; clear_value (hx : x1 = _); refine Keeps.cut1 x1 ?_ (fun h => ?_); rw [hx]; clear hx x1; rotate_left; clear hx; rotate_right)
    | (extract_lets +onlyGivenNames x1; clear_value (hx : x1 = _); refine Keeps.cut2 x1 ?_ (fun h => ?_); rw [hx]; clear hx x1; rotate_left; clear hx; rotate_right)
    | (extract_lets +onlyGivenNames x1; clear_value (hx : x1 = _); clear hx)
    | with_reducible assumption
    | with_reducible exact Keeps.refl _ _
    | decide +kernel
    | with_reducible apply Keeps.upToA
    | with_reducible apply Keeps.via (State.safeStage_keeps ..)
    | with_reducible apply Keeps.via (State.unbindSite_keeps ..)
    | with_reducible apply Keeps.via (State.answer_keeps ..)
    | with_reducible apply Keeps.via (State.answerOk_keeps ..)
    | with_reducible apply Keeps.iteA
    | split
    | with_reducible refine Keeps.trans ?_ (Keeps.c_safe _ ?_)

def State.safeUntil_w : Nat := State.safeStep_w
theorem State.safeUntil_keeps (s : State) (t n : Nat) : Keeps State.safeUntil_w s (s.safeUntil t n) := by
  induction n generalizing s with
  | zero => exact Keeps.refl _ _
  | succ n ih =>
    rw [State.safeUntil]
    generalize s.safeFirst = o
    cases o with
    | none => exact Keeps.refl _ _
    | some q => exact Keeps.iteA ((State.safeStep_keeps s).trans (ih _)) (Keeps.refl _ _)

def State.safeFinish_w : Nat := State.safeStep_w
theorem State.safeFinish_keeps (s : State) (n : Nat) : Keeps State.safeFinish_w s (s.safeFinish n) := by
  induction n generalizing s with
  | zero => exact Keeps.refl _ _
  | succ n ih => exact Keeps.iteA (Keeps.refl _ _) ((State.safeStep_keeps s).trans (ih _))

def State.csClear_w : Nat := m_cstore
theorem State.csClear_keeps (s : State) (k : Nat) : Keeps State.csClear_w s (s.csClear k) := by
  unfold State.csClear
  repeat' first
    | with_reducible assumption
    | with_reducible exact Keeps.refl _ _
    | decide +kernel
    | exact fun hw => by
        obtain ⟨w1, w2, w3, w4, w5, w6, w7, w8, w9, w10, w11⟩ := hw
        first | exact memSetBytes_wf _ _ _ ‹_› | exact memSetByte_wf _ _ _ ‹_› | exact memClear_wf _ _ _ ‹_› | exact keysRise_filter _ _ ‹_› | exact keysRise_insKey _ _ _ ‹_› | exact keysRise_storeKey _ _ _ ‹_› | exact storeWf_storeKey _ _ _ ‹_› | exact storeWf_filter _ _ ‹_› | rfl
    | with_reducible refine Keeps.trans ?_ (Keeps.c_cstore _ ?_ ?_)

def State.h2eFlush_w : Nat := fm F.MBX_ENG_STAT_FLUSHED ||| m_h2e
theorem State.h2eFlush_keeps (s : State) (k : Nat) : Keeps State.h2eFlush_w s (s.h2eFlush k) := by
  unfold State.h2eFlush
  repeat' first
    | with_reducible assumption
    | with_reducible exact Keeps.refl _ _
    | decide +kernel
    | with_reducible apply Keeps.setBA
    | with_reducible apply Keeps.iteA
    | with_reducible refine Keeps.trans ?_ (Keeps.c_h2e _ ?_)

/-- The fields that an engine's reset drops. -/
def engDrops : List Field := H.ENG_G :: H.ENG_L :: ((engRegs ++ engHidden) ++ engArrays16)

theorem engOwns_off {f : Field} (h : Off (fm f) (fms engDrops)) (k i : Nat) : engOwns k (fkey f i) = false := by
  have h1 : ∀ g ∈ engDrops, g.id ≠ f.id := fun g hg => h.ne_of_mem hg
  have hc (l : List Field) (hl : ∀ g ∈ l, g ∈ engDrops) : (l.map (fun g => g.id.val)).contains f.id.val = false := by
    rw [Bool.eq_false_iff]
    intro hc
    obtain ⟨g, hg, e⟩ := List.mem_map.1 (List.contains_iff_mem.1 hc)
    exact h1 g (hl g hg) (Fin.ext e)
  have hg : f.id.val ≠ H.ENG_G.id.val := fun e => h1 H.ENG_G (.head _) (Fin.ext e.symm)
  have hl : f.id.val ≠ H.ENG_L.id.val := fun e => h1 H.ENG_L (.tail _ (.head _)) (Fin.ext e.symm)
  have hi : engIds.contains f.id.val = false := hc _ (fun g hg => .tail _ (.tail _ (List.mem_append_left _ hg)))
  have ha : engArrayIds.contains f.id.val = false := hc _ (fun g hg => .tail _ (.tail _ (List.mem_append_right _ hg)))
  rw [engOwns]
  simp only [fkey_mod, if_neg hg, if_neg hl, hi, ha, Bool.and_false, Bool.or_false]

def State.engReset_w : Nat := fms engDrops ||| m_cmdq ||| m_memq ||| m_refused ||| m_memErrs ||| m_evq ||| fm F.IRQ_ENG_LOST_COUNT |||
    State.csClear_w ||| State.semFreeAll_w ||| State.h2eFlush_w
theorem State.engReset_keeps (s : State) (k : Nat) : Keeps State.engReset_w s (s.engReset k) := by
  unfold State.engReset
  refine Keeps.via (State.h2eFlush_keeps ..) (by decide +kernel) (Keeps.via (State.semFreeAll_keeps ..) (by decide +kernel)
    (Keeps.trans (Keeps.addSatA (by decide +kernel) (Keeps.via (State.csClear_keeps ..) (by decide +kernel) ?_))
      (Keeps.c_cmdq_memq_refused_memErrs_evq _ _ _ _ _ (by decide +kernel))))
  exact Keeps.ffFilter (fun x => !engOwns k x) (fun f i o => by
    rw [engOwns_off (o.mono (by decide +kernel))]; rfl)

def State.csLoad_w : Nat := State.csPut_w
theorem State.csLoad_keeps (s : State) (k first : Nat) (words : List Nat) : Keeps State.csLoad_w s (s.csLoad k first words) := by
  unfold State.csLoad
  repeat' first
    | with_reducible assumption
    | with_reducible exact Keeps.refl _ _
    | decide +kernel
    | with_reducible refine Keeps.eachA ?_ (fun _ _ => ?_)
    | with_reducible apply Keeps.via (State.csPut_keeps ..)

def State.csReload_w : Nat := State.csLoad_w
theorem State.csReload_keeps (s : State) (k : Nat) : Keeps State.csReload_w s (s.csReload k) := by
  unfold State.csReload
  repeat' first
    | with_reducible assumption
    | with_reducible exact Keeps.refl _ _
    | decide +kernel
    | with_reducible refine Keeps.eachA ?_ (fun _ _ => ?_)
    | with_reducible apply Keeps.via (State.csLoad_keeps ..)

def State.engBegin_w : Nat := fm F.MBX_ENG_STAT_ENG_EPOCH ||| fm F.ENG_CTRL_STEAL_EN ||| State.engReset_w |||
    State.csReload_w
theorem State.engBegin_keeps (s : State) (k : Nat) : Keeps State.engBegin_w s (s.engBegin k) := by
  unfold State.engBegin
  repeat' first
    | with_reducible assumption
    | with_reducible exact Keeps.refl _ _
    | decide +kernel
    | with_reducible apply Keeps.setBA
    | with_reducible apply Keeps.incWA
    | with_reducible apply Keeps.via (State.engReset_keeps ..)
    | with_reducible apply Keeps.via (State.csReload_keeps ..)

def State.groupOn_w : Nat := fm H.PD_ENG ||| State.engBegin_w ||| State.engIdle_w
theorem State.groupOn_keeps (s : State) (g : Nat) : Keeps State.groupOn_w s (s.groupOn g) := by
  unfold State.groupOn
  repeat' first
    | with_reducible assumption
    | with_reducible exact Keeps.refl _ _
    | decide +kernel
    | with_reducible apply Keeps.setBA
    | with_reducible refine Keeps.eachA ?_ (fun _ _ => ?_)
    | with_reducible apply Keeps.via (State.engBegin_keeps ..)
    | with_reducible apply Keeps.via (State.engIdle_keeps ..)
    | with_reducible apply Keeps.iteA

def State.groupOff_w : Nat := fm H.PD_ENG ||| State.engReset_w
theorem State.groupOff_keeps (s : State) (g : Nat) : Keeps State.groupOff_w s (s.groupOff g) := by
  unfold State.groupOff
  repeat' first
    | with_reducible assumption
    | with_reducible exact Keeps.refl _ _
    | decide +kernel
    | with_reducible apply Keeps.setBA
    | with_reducible refine Keeps.eachA ?_ (fun _ _ => ?_)
    | with_reducible apply Keeps.via (State.engReset_keeps ..)

def State.autoStart_w : Nat := fm F.ENG_CEL_BASE_LO_BASE_LO ||| fm F.ENG_CEL_BASE_HI_BASE_HI ||| fm H.ENG_G |||
    fm F.ENG_STAT_AUTORUN ||| State.csLoad_w ||| State.engFresh_w
theorem State.autoStart_keeps (s : State) (k g1 : Nat) : Keeps State.autoStart_w s (s.autoStart k g1) := by
  unfold State.autoStart
  repeat' first
    | (extract_lets +onlyGivenNames x1; clear_value (hx : x1 = _); refine Keeps.cut x1 ?_ (fun h => ?_); rw [hx]; clear hx x1; rotate_left; clear hx; rotate_right)
    | (extract_lets +onlyGivenNames x1; clear_value (hx : x1 = _); refine Keeps.cut1 x1 ?_ (fun h => ?_); rw [hx]; clear hx x1; rotate_left; clear hx; rotate_right)
    | (extract_lets +onlyGivenNames x1; clear_value (hx : x1 = _); refine Keeps.cut2 x1 ?_ (fun h => ?_); rw [hx]; clear hx x1; rotate_left; clear hx; rotate_right)
    | (extract_lets +onlyGivenNames x1; clear_value (hx : x1 = _); clear hx)
    | with_reducible assumption
    | with_reducible exact Keeps.refl _ _
    | decide +kernel
    | with_reducible apply Keeps.putA
    | with_reducible apply Keeps.setBA
    | with_reducible apply Keeps.via (State.csLoad_keeps ..)
    | with_reducible apply Keeps.via (State.engFresh_keeps ..)

def State.enterMode_w : Nat := fm F.MODE_STAT_PREV_MODE ||| fm F.MODE_STAT_MODE ||| fm F.MODE_STAT_TARGET |||
    fm F.MODE_STAT_TRANSIT ||| fm H.MODE_END ||| fm F.MODE_ENTRY_LO_TS_LO ||| fm F.MODE_ENTRY_HI_TS_HI ||| State.event_w
theorem State.enterMode_keeps (s : State) (m cause prev : Nat) : Keeps State.enterMode_w s (s.enterMode m cause prev) := by
  unfold State.enterMode
  repeat' first
    | (extract_lets +onlyGivenNames x1; clear_value (hx : x1 = _); refine Keeps.cut x1 ?_ (fun h => ?_); rw [hx]; clear hx x1; rotate_left; clear hx; rotate_right)
    | (extract_lets +onlyGivenNames x1; clear_value (hx : x1 = _); refine Keeps.cut1 x1 ?_ (fun h => ?_); rw [hx]; clear hx x1; rotate_left; clear hx; rotate_right)
    | (extract_lets +onlyGivenNames x1; clear_value (hx : x1 = _); refine Keeps.cut2 x1 ?_ (fun h => ?_); rw [hx]; clear hx x1; rotate_left; clear hx; rotate_right)
    | (extract_lets +onlyGivenNames x1; clear_value (hx : x1 = _); clear hx)
    | with_reducible assumption
    | with_reducible exact Keeps.refl _ _
    | decide +kernel
    | with_reducible apply Keeps.putA
    | with_reducible apply Keeps.setBA
    | with_reducible apply Keeps.noDueA
    | with_reducible apply Keeps.put2A
    | with_reducible apply Keeps.via (State.event_keeps ..)
    | with_reducible apply Keeps.iteA

def State.setMode_w : Nat := State.enterMode_w
theorem State.setMode_keeps (s : State) (m cause : Nat) : Keeps State.setMode_w s (s.setMode m cause) := by
  unfold State.setMode
  repeat' first
    | with_reducible assumption
    | with_reducible exact Keeps.refl _ _
    | decide +kernel
    | with_reducible apply Keeps.via (State.enterMode_keeps ..)

def State.modeBegin_w : Nat := fm F.MODE_STAT_TRANSIT ||| fm F.MODE_STAT_TARGET ||| fm H.MODE_END ||| fm H.MODE_CAUSE
theorem State.modeBegin_keeps (s : State) (target time cause : Nat) : Keeps State.modeBegin_w s (s.modeBegin target time cause) := by
  unfold State.modeBegin
  repeat' first
    | with_reducible assumption
    | with_reducible exact Keeps.refl _ _
    | decide +kernel
    | with_reducible apply Keeps.putA
    | with_reducible apply Keeps.setBA
    | with_reducible apply Keeps.setDueA

def State.idleSafe_w : Nat := State.siteOutSafe_w
theorem State.idleSafe_keeps (s : State) : Keeps State.idleSafe_w s (s.idleSafe) := by
  unfold State.idleSafe
  repeat' first
    | with_reducible assumption
    | with_reducible exact Keeps.refl _ _
    | decide +kernel
    | with_reducible refine Keeps.eachA ?_ (fun _ _ => ?_)
    | with_reducible apply Keeps.via (State.siteOutSafe_keeps ..)

def State.sleepBegin_w : Nat := State.tdcDisarm_w ||| State.tdcDrain_w ||| State.acqCancel_w ||| State.deepReq_w
theorem State.sleepBegin_keeps (s : State) : Keeps State.sleepBegin_w s (s.sleepBegin) := by
  unfold State.sleepBegin
  repeat' first
    | (extract_lets +onlyGivenNames x1; clear_value (hx : x1 = _); refine Keeps.cut x1 ?_ (fun h => ?_); rw [hx]; clear hx x1; rotate_left; clear hx; rotate_right)
    | (extract_lets +onlyGivenNames x1; clear_value (hx : x1 = _); refine Keeps.cut1 x1 ?_ (fun h => ?_); rw [hx]; clear hx x1; rotate_left; clear hx; rotate_right)
    | (extract_lets +onlyGivenNames x1; clear_value (hx : x1 = _); refine Keeps.cut2 x1 ?_ (fun h => ?_); rw [hx]; clear hx x1; rotate_left; clear hx; rotate_right)
    | (extract_lets +onlyGivenNames x1; clear_value (hx : x1 = _); clear hx)
    | with_reducible assumption
    | with_reducible exact Keeps.refl _ _
    | decide +kernel
    | with_reducible refine Keeps.eachA ?_ (fun _ _ => ?_)
    | with_reducible apply Keeps.via (State.tdcDisarm_keeps ..)
    | with_reducible apply Keeps.via (State.tdcDrain_keeps ..)
    | with_reducible apply Keeps.via (State.acqCancel_keeps ..)
    | with_reducible apply Keeps.via (State.deepReq_keeps ..)

def State.modeAsker_w : Nat := fm H.MODE_SRC ||| fm H.MODE_TAG
theorem State.modeAsker_keeps (s : State) (h : Hdr) : Keeps State.modeAsker_w s (s.modeAsker h) := by
  unfold State.modeAsker
  repeat' first
    | with_reducible assumption
    | with_reducible exact Keeps.refl _ _
    | decide +kernel
    | with_reducible apply Keeps.putA

def State.modeCommand_w : Nat := State.serve_w ||| State.answerErr_w ||| State.modeBegin_w ||| State.modeAsker_w |||
    State.sleepBegin_w ||| State.idleSafe_w ||| State.answerWrong_w
theorem State.modeCommand_keeps (s : State) (h : Hdr) (target : Nat) : Keeps State.modeCommand_w s (s.modeCommand h target) := by
  unfold State.modeCommand
  repeat' first
    | with_reducible assumption
    | with_reducible exact Keeps.refl _ _
    | decide +kernel
    | with_reducible apply Keeps.trans ?_ (State.serve_keeps ?_ ?_)
    | with_reducible apply Keeps.via (State.answerErr_keeps ..)
    | with_reducible apply Keeps.via (State.modeBegin_keeps ..)
    | with_reducible apply Keeps.via (State.modeAsker_keeps ..)
    | with_reducible apply Keeps.via (State.sleepBegin_keeps ..)
    | with_reducible apply Keeps.via (State.idleSafe_keeps ..)
    | with_reducible apply Keeps.via (State.answerWrong_keeps ..)
    | with_reducible apply Keeps.iteA
    | with_reducible apply Keeps.ite1
    | intro _

def State.modeAnswer_w : Nat := fm H.MODE_SRC ||| State.answerOk_w
theorem State.modeAnswer_keeps (s : State) : Keeps State.modeAnswer_w s (s.modeAnswer) := by
  unfold State.modeAnswer
  repeat' first
    | with_reducible assumption
    | with_reducible exact Keeps.refl _ _
    | decide +kernel
    | with_reducible apply Keeps.putA
    | with_reducible apply Keeps.via (State.answerOk_keeps ..)
    | split

def State.sleepEnter_w : Nat := fm F.CEL_CFG_SELF_REF ||| State.groupOff_w
theorem State.sleepEnter_keeps (s : State) : Keeps State.sleepEnter_w s (s.sleepEnter) := by
  unfold State.sleepEnter
  repeat' first
    | with_reducible assumption
    | with_reducible exact Keeps.refl _ _
    | decide +kernel
    | with_reducible apply Keeps.setBA
    | with_reducible refine Keeps.eachA ?_ (fun _ _ => ?_)
    | with_reducible apply Keeps.via (State.groupOff_keeps ..)

def State.wakeEnd_w : Nat := fm F.CEL_CFG_SELF_REF ||| State.groupOn_w ||| State.autoStart_w
theorem State.wakeEnd_keeps (s : State) : Keeps State.wakeEnd_w s (s.wakeEnd) := by
  unfold State.wakeEnd
  repeat' first
    | (extract_lets +onlyGivenNames x1; clear_value (hx : x1 = _); refine Keeps.cut x1 ?_ (fun h => ?_); rw [hx]; clear hx x1; rotate_left; clear hx; rotate_right)
    | (extract_lets +onlyGivenNames x1; clear_value (hx : x1 = _); refine Keeps.cut1 x1 ?_ (fun h => ?_); rw [hx]; clear hx x1; rotate_left; clear hx; rotate_right)
    | (extract_lets +onlyGivenNames x1; clear_value (hx : x1 = _); refine Keeps.cut2 x1 ?_ (fun h => ?_); rw [hx]; clear hx x1; rotate_left; clear hx; rotate_right)
    | (extract_lets +onlyGivenNames x1; clear_value (hx : x1 = _); clear hx)
    | with_reducible assumption
    | with_reducible exact Keeps.refl _ _
    | decide +kernel
    | with_reducible apply Keeps.setBA
    | with_reducible refine Keeps.eachA ?_ (fun _ _ => ?_)
    | with_reducible apply Keeps.via (State.groupOn_keeps ..)
    | with_reducible apply Keeps.via (State.autoStart_keeps ..)
    | split

def State.idleStart_w : Nat := State.engIdleStart_w
theorem State.idleStart_keeps (s : State) : Keeps State.idleStart_w s (s.idleStart) := by
  unfold State.idleStart
  repeat' first
    | with_reducible assumption
    | with_reducible exact Keeps.refl _ _
    | decide +kernel
    | with_reducible refine Keeps.eachA ?_ (fun _ _ => ?_)
    | with_reducible apply Keeps.via (State.engIdleStart_keeps ..)

def State.idleStop_w : Nat := fm F.ENG_STAT_STATE ||| State.engNoWait_w
theorem State.idleStop_keeps (s : State) : Keeps State.idleStop_w s (s.idleStop) := by
  unfold State.idleStop
  repeat' first
    | with_reducible assumption
    | with_reducible exact Keeps.refl _ _
    | decide +kernel
    | with_reducible apply Keeps.putA
    | with_reducible refine Keeps.eachA ?_ (fun _ _ => ?_)
    | with_reducible apply Keeps.via (State.engNoWait_keeps ..)

def State.modeDone_w : Nat := m_now ||| State.safeUntil_w ||| State.sleepEnter_w ||| State.wakeEnd_w ||| State.setMode_w |||
    State.idleStart_w ||| State.idleStop_w ||| State.modeAnswer_w
theorem State.modeDone_keeps (s : State) : Keeps State.modeDone_w s (s.modeDone) := by
  unfold State.modeDone
  repeat' first
    | (extract_lets +onlyGivenNames x1; clear_value (hx : x1 = _); refine Keeps.cut x1 ?_ (fun h => ?_); rw [hx]; clear hx x1; rotate_left; clear hx; rotate_right)
    | (extract_lets +onlyGivenNames x1; clear_value (hx : x1 = _); refine Keeps.cut1 x1 ?_ (fun h => ?_); rw [hx]; clear hx x1; rotate_left; clear hx; rotate_right)
    | (extract_lets +onlyGivenNames x1; clear_value (hx : x1 = _); refine Keeps.cut2 x1 ?_ (fun h => ?_); rw [hx]; clear hx x1; rotate_left; clear hx; rotate_right)
    | (extract_lets +onlyGivenNames x1; clear_value (hx : x1 = _); clear hx)
    | with_reducible assumption
    | with_reducible exact Keeps.refl _ _
    | decide +kernel
    | with_reducible apply Keeps.upToA
    | with_reducible apply Keeps.via (State.safeUntil_keeps ..)
    | with_reducible apply Keeps.via (State.sleepEnter_keeps ..)
    | with_reducible apply Keeps.via (State.wakeEnd_keeps ..)
    | with_reducible apply Keeps.via (State.setMode_keeps ..)
    | with_reducible apply Keeps.via (State.idleStart_keeps ..)
    | with_reducible apply Keeps.via (State.idleStop_keeps ..)
    | with_reducible apply Keeps.via (State.modeAnswer_keeps ..)
    | with_reducible apply Keeps.iteA
    | split

def State.wakeUp_w : Nat := State.deepWake_w ||| State.modeBegin_w
theorem State.wakeUp_keeps (s : State) : Keeps State.wakeUp_w s (s.wakeUp) := by
  unfold State.wakeUp
  repeat' first
    | with_reducible assumption
    | with_reducible exact Keeps.refl _ _
    | decide +kernel
    | with_reducible refine Keeps.eachA ?_ (fun _ _ => ?_)
    | with_reducible apply Keeps.via (State.deepWake_keeps ..)
    | with_reducible apply Keeps.via (State.modeBegin_keeps ..)
    | with_reducible apply Keeps.iteA

def State.wakeIf_w : Nat := State.wakeUp_w
theorem State.wakeIf_keeps (s : State) (b : Bool) : Keeps State.wakeIf_w s (s.wakeIf b) := by
  unfold State.wakeIf
  repeat' first
    | with_reducible assumption
    | with_reducible exact Keeps.refl _ _
    | decide +kernel
    | with_reducible apply Keeps.via (State.wakeUp_keeps ..)
    | with_reducible apply Keeps.iteA

end Sys2Proof.Machine
end

