-- ==== Sys2Proof/Laws/KeepsCalibration.lean ====
section
/-!
SUPPORT. What every operation of Machine/Calibration.lean can change: its mask and its Keeps lemma.
-/

set_option Elab.async false
set_option linter.all false

namespace Sys2Proof.Machine

def State.calOwn_w : Nat := fm H.CH_CAL_OWNED ||| fm H.DPS_CAL_OWNED ||| fm H.SMU_CAL_OWNED ||| fm H.TDC_CAL_OWNED
theorem State.calOwn_keeps (s : State) (t u : Nat) (b : Bool) : Keeps State.calOwn_w s (s.calOwn t u b) := by
  unfold State.calOwn
  repeat' first
    | (extract_lets +onlyGivenNames x1; clear_value (hx : x1 = _); refine Keeps.cut x1 ?_ (fun h => ?_); rw [hx]; clear hx x1; rotate_left; clear hx; rotate_right)
    | (extract_lets +onlyGivenNames x1; clear_value (hx : x1 = _); refine Keeps.cut1 x1 ?_ (fun h => ?_); rw [hx]; clear hx x1; rotate_left; clear hx; rotate_right)
    | (extract_lets +onlyGivenNames x1; clear_value (hx : x1 = _); refine Keeps.cut2 x1 ?_ (fun h => ?_); rw [hx]; clear hx x1; rotate_left; clear hx; rotate_right)
    | (extract_lets +onlyGivenNames x1; clear_value (hx : x1 = _); clear hx)
    | with_reducible assumption
    | with_reducible exact Keeps.refl _ _
    | decide +kernel
    | with_reducible apply Keeps.setBA
    | split

def State.flowTake_w : Nat := State.tdcDisarm_w ||| State.tdcDrain_w ||| State.calOwn_w
theorem State.flowTake_keeps (s : State) (t u : Nat) : Keeps State.flowTake_w s (s.flowTake t u) := by
  unfold State.flowTake
  repeat' first
    | (extract_lets +onlyGivenNames x1; clear_value (hx : x1 = _); refine Keeps.cut x1 ?_ (fun h => ?_); rw [hx]; clear hx x1; rotate_left; clear hx; rotate_right)
    | (extract_lets +onlyGivenNames x1; clear_value (hx : x1 = _); refine Keeps.cut1 x1 ?_ (fun h => ?_); rw [hx]; clear hx x1; rotate_left; clear hx; rotate_right)
    | (extract_lets +onlyGivenNames x1; clear_value (hx : x1 = _); refine Keeps.cut2 x1 ?_ (fun h => ?_); rw [hx]; clear hx x1; rotate_left; clear hx; rotate_right)
    | (extract_lets +onlyGivenNames x1; clear_value (hx : x1 = _); clear hx)
    | with_reducible assumption
    | with_reducible exact Keeps.refl _ _
    | decide +kernel
    | with_reducible apply Keeps.via (State.tdcDisarm_keeps ..)
    | with_reducible apply Keeps.via (State.tdcDrain_keeps ..)
    | with_reducible apply Keeps.via (State.calOwn_keeps ..)
    | with_reducible apply Keeps.iteA

def State.flowRelease_w : Nat := State.calOwn_w ||| State.chSafe_w ||| State.dpsStageOff_w ||| State.smuSafe_w
theorem State.flowRelease_keeps (s : State) (t u : Nat) : Keeps State.flowRelease_w s (s.flowRelease t u) := by
  unfold State.flowRelease
  repeat' first
    | (extract_lets +onlyGivenNames x1; clear_value (hx : x1 = _); refine Keeps.cut x1 ?_ (fun h => ?_); rw [hx]; clear hx x1; rotate_left; clear hx; rotate_right)
    | (extract_lets +onlyGivenNames x1; clear_value (hx : x1 = _); refine Keeps.cut1 x1 ?_ (fun h => ?_); rw [hx]; clear hx x1; rotate_left; clear hx; rotate_right)
    | (extract_lets +onlyGivenNames x1; clear_value (hx : x1 = _); refine Keeps.cut2 x1 ?_ (fun h => ?_); rw [hx]; clear hx x1; rotate_left; clear hx; rotate_right)
    | (extract_lets +onlyGivenNames x1; clear_value (hx : x1 = _); clear hx)
    | with_reducible assumption
    | with_reducible exact Keeps.refl _ _
    | decide +kernel
    | with_reducible apply Keeps.via (State.calOwn_keeps ..)
    | with_reducible apply Keeps.via (State.chSafe_keeps ..)
    | with_reducible apply Keeps.via (State.dpsStageOff_keeps ..)
    | with_reducible apply Keeps.via (State.smuSafe_keeps ..)
    | split

def State.calTakeMon_w : Nat := State.calTake_w ||| State.monSettle_w
theorem State.calTakeMon_keeps (s : State) (t : Nat) (p : PendCorr) : Keeps State.calTakeMon_w s (s.calTakeMon t p) := by
  unfold State.calTakeMon
  repeat' first
    | (extract_lets +onlyGivenNames x1; clear_value (hx : x1 = _); refine Keeps.cut x1 ?_ (fun h => ?_); rw [hx]; clear hx x1; rotate_left; clear hx; rotate_right)
    | (extract_lets +onlyGivenNames x1; clear_value (hx : x1 = _); refine Keeps.cut1 x1 ?_ (fun h => ?_); rw [hx]; clear hx x1; rotate_left; clear hx; rotate_right)
    | (extract_lets +onlyGivenNames x1; clear_value (hx : x1 = _); refine Keeps.cut2 x1 ?_ (fun h => ?_); rw [hx]; clear hx x1; rotate_left; clear hx; rotate_right)
    | (extract_lets +onlyGivenNames x1; clear_value (hx : x1 = _); clear hx)
    | with_reducible assumption
    | with_reducible exact Keeps.refl _ _
    | decide +kernel
    | with_reducible apply Keeps.via (State.calTake_keeps ..)
    | with_reducible apply State.monSettle_keeps

def State.calTakeAny_w : Nat := State.calTakeMon_w ||| State.calTake_w
theorem State.calTakeAny_keeps (s : State) (t : Nat) (p : PendCorr) : Keeps State.calTakeAny_w s (s.calTakeAny t p) := by
  unfold State.calTakeAny
  repeat' first
    | with_reducible assumption
    | with_reducible exact Keeps.refl _ _
    | decide +kernel
    | with_reducible apply Keeps.via (State.calTakeMon_keeps ..)
    | with_reducible apply Keeps.via (State.calTake_keeps ..)
    | with_reducible apply Keeps.iteA

def State.calApplyReady_w : Nat := m_corrPend ||| State.calTakeAny_w
theorem State.calApplyReady_keeps (s : State) (t : Nat) : Keeps State.calApplyReady_w s (s.calApplyReady t) := by
  unfold State.calApplyReady
  repeat' first
    | (extract_lets +onlyGivenNames x1; clear_value (hx : x1 = _); refine Keeps.cut x1 ?_ (fun h => ?_); rw [hx]; clear hx x1; rotate_left; clear hx; rotate_right)
    | (extract_lets +onlyGivenNames x1; clear_value (hx : x1 = _); refine Keeps.cut1 x1 ?_ (fun h => ?_); rw [hx]; clear hx x1; rotate_left; clear hx; rotate_right)
    | (extract_lets +onlyGivenNames x1; clear_value (hx : x1 = _); refine Keeps.cut2 x1 ?_ (fun h => ?_); rw [hx]; clear hx x1; rotate_left; clear hx; rotate_right)
    | (extract_lets +onlyGivenNames x1; clear_value (hx : x1 = _); clear hx)
    | with_reducible assumption
    | with_reducible exact Keeps.refl _ _
    | decide +kernel
    | with_reducible refine Keeps.foldlA ?_ (fun _ _ => ?_)
    | with_reducible apply Keeps.via (State.calTakeAny_keeps ..)
    | with_reducible refine Keeps.trans ?_ (Keeps.c_corrPend _ ?_)

def State.calMonPeriod_w : Nat := m_corrPend ||| State.calTakeMon_w
theorem State.calMonPeriod_keeps (s : State) (i : Nat) : Keeps State.calMonPeriod_w s (s.calMonPeriod i) := by
  unfold State.calMonPeriod
  repeat' first
    | (extract_lets +onlyGivenNames x1; clear_value (hx : x1 = _); refine Keeps.cut x1 ?_ (fun h => ?_); rw [hx]; clear hx x1; rotate_left; clear hx; rotate_right)
    | (extract_lets +onlyGivenNames x1; clear_value (hx : x1 = _); refine Keeps.cut1 x1 ?_ (fun h => ?_); rw [hx]; clear hx x1; rotate_left; clear hx; rotate_right)
    | (extract_lets +onlyGivenNames x1; clear_value (hx : x1 = _); refine Keeps.cut2 x1 ?_ (fun h => ?_); rw [hx]; clear hx x1; rotate_left; clear hx; rotate_right)
    | (extract_lets +onlyGivenNames x1; clear_value (hx : x1 = _); clear hx)
    | with_reducible assumption
    | with_reducible exact Keeps.refl _ _
    | decide +kernel
    | with_reducible refine Keeps.foldlA ?_ (fun _ _ => ?_)
    | with_reducible apply Keeps.via (State.calTakeMon_keeps ..)
    | with_reducible refine Keeps.trans ?_ (Keeps.c_corrPend _ ?_)

def State.flowKeep_w : Nat := State.calPend_w
theorem State.flowKeep_keeps (s : State) (t : Nat) (f : Flow) (u : Nat) (r : Option CalSeen) : Keeps State.flowKeep_w s (s.flowKeep t f u r) := by
  unfold State.flowKeep
  repeat' first
    | (extract_lets +onlyGivenNames x1; clear_value (hx : x1 = _); refine Keeps.cut x1 ?_ (fun h => ?_); rw [hx]; clear hx x1; rotate_left; clear hx; rotate_right)
    | (extract_lets +onlyGivenNames x1; clear_value (hx : x1 = _); refine Keeps.cut1 x1 ?_ (fun h => ?_); rw [hx]; clear hx x1; rotate_left; clear hx; rotate_right)
    | (extract_lets +onlyGivenNames x1; clear_value (hx : x1 = _); refine Keeps.cut2 x1 ?_ (fun h => ?_); rw [hx]; clear hx x1; rotate_left; clear hx; rotate_right)
    | (extract_lets +onlyGivenNames x1; clear_value (hx : x1 = _); clear hx)
    | with_reducible assumption
    | with_reducible exact Keeps.refl _ _
    | decide +kernel
    | with_reducible apply Keeps.via (State.calPend_keeps ..)
    | with_reducible apply Keeps.iteA
    | split

def State.calFail_w : Nat := fm F.TCAL_STAT_FAILS ||| State.irq_w
theorem State.calFail_keeps (s : State) (t : Nat) : Keeps State.calFail_w s (s.calFail t) := by
  unfold State.calFail
  repeat' first
    | with_reducible assumption
    | with_reducible exact Keeps.refl _ _
    | decide +kernel
    | with_reducible apply Keeps.incSatA
    | with_reducible apply Keeps.via (State.irq_keeps ..)

def State.flowEnd_w : Nat := fm F.TCAL_STAT_LAST_FLOW ||| fm F.TCAL_STAT_LAST_RES ||| m_flows ||| State.calFail_w |||
    State.flowRelease_w ||| State.calApplyReady_w ||| State.answerOk_w
theorem State.flowEnd_keeps (s : State) (t : Nat) (f : Flow) (codes : List (Nat × Nat)) : Keeps State.flowEnd_w s (s.flowEnd t f codes) := by
  unfold State.flowEnd
  repeat' first
    | (extract_lets +onlyGivenNames x1; clear_value (hx : x1 = _); refine Keeps.cut x1 ?_ (fun h => ?_); rw [hx]; clear hx x1; rotate_left; clear hx; rotate_right)
    | (extract_lets +onlyGivenNames x1; clear_value (hx : x1 = _); refine Keeps.cut1 x1 ?_ (fun h => ?_); rw [hx]; clear hx x1; rotate_left; clear hx; rotate_right)
    | (extract_lets +onlyGivenNames x1; clear_value (hx : x1 = _); refine Keeps.cut2 x1 ?_ (fun h => ?_); rw [hx]; clear hx x1; rotate_left; clear hx; rotate_right)
    | (extract_lets +onlyGivenNames x1; clear_value (hx : x1 = _); clear hx)
    | with_reducible assumption
    | with_reducible exact Keeps.refl _ _
    | decide +kernel
    | with_reducible apply Keeps.putA
    | with_reducible refine Keeps.eachA ?_ (fun _ _ => ?_)
    | with_reducible refine Keeps.foldlA ?_ (fun _ _ => ?_)
    | with_reducible apply Keeps.via (State.calFail_keeps ..)
    | with_reducible apply Keeps.via (State.flowRelease_keeps ..)
    | with_reducible apply Keeps.via (State.calApplyReady_keeps ..)
    | with_reducible apply Keeps.via (State.answerOk_keeps ..)
    | with_reducible refine Keeps.trans ?_ (Keeps.c_flows _ ?_)

def State.calLeave_w : Nat := State.modeBegin_w
theorem State.calLeave_keeps (s : State) : Keeps State.calLeave_w s (s.calLeave) := by
  unfold State.calLeave
  repeat' first
    | with_reducible assumption
    | with_reducible exact Keeps.refl _ _
    | decide +kernel
    | with_reducible apply Keeps.via (State.modeBegin_keeps ..)
    | with_reducible apply Keeps.iteA

def State.flowDone_w : Nat := State.flowKeep_w ||| State.flowEnd_w ||| State.calLeave_w
theorem State.flowDone_keeps (s : State) (t flow : Nat) (results : List CalSeen) : Keeps State.flowDone_w s (s.flowDone t flow results) := by
  unfold State.flowDone
  repeat' first
    | (extract_lets +onlyGivenNames x1; clear_value (hx : x1 = _); refine Keeps.cut x1 ?_ (fun h => ?_); rw [hx]; clear hx x1; rotate_left; clear hx; rotate_right)
    | (extract_lets +onlyGivenNames x1; clear_value (hx : x1 = _); refine Keeps.cut1 x1 ?_ (fun h => ?_); rw [hx]; clear hx x1; rotate_left; clear hx; rotate_right)
    | (extract_lets +onlyGivenNames x1; clear_value (hx : x1 = _); refine Keeps.cut2 x1 ?_ (fun h => ?_); rw [hx]; clear hx x1; rotate_left; clear hx; rotate_right)
    | (extract_lets +onlyGivenNames x1; clear_value (hx : x1 = _); clear hx)
    | with_reducible assumption
    | with_reducible exact Keeps.refl _ _
    | decide +kernel
    | with_reducible refine Keeps.eachA ?_ (fun _ _ => ?_)
    | with_reducible apply Keeps.via (State.flowKeep_keeps ..)
    | with_reducible apply Keeps.via (State.flowEnd_keeps ..)
    | with_reducible apply Keeps.via (State.calLeave_keeps ..)
    | split

def State.flowsTripped_w : Nat := State.flowEnd_w ||| State.calLeave_w
theorem State.flowsTripped_keeps (s : State) (t : Nat) : Keeps State.flowsTripped_w s (s.flowsTripped t) := by
  unfold State.flowsTripped
  repeat' first
    | with_reducible assumption
    | with_reducible exact Keeps.refl _ _
    | decide +kernel
    | with_reducible refine Keeps.foldlA ?_ (fun _ _ => ?_)
    | with_reducible apply Keeps.via (State.flowEnd_keeps ..)
    | with_reducible apply Keeps.via (State.calLeave_keeps ..)

def State.calEnter_w : Nat := fm H.CAL_FROM ||| State.modeBegin_w
theorem State.calEnter_keeps (s : State) : Keeps State.calEnter_w s (s.calEnter) := by
  unfold State.calEnter
  repeat' first
    | with_reducible assumption
    | with_reducible exact Keeps.refl _ _
    | decide +kernel
    | with_reducible apply Keeps.putA
    | with_reducible apply Keeps.via (State.modeBegin_keeps ..)
    | with_reducible apply Keeps.iteA

def State.calibrate_w : Nat := m_flows ||| State.serve_w ||| State.answerErr_w ||| State.answerWrong_w |||
    State.flowTake_w ||| State.calEnter_w
theorem State.calibrate_keeps (s : State) (h : Hdr) (a : CalArgs) : Keeps State.calibrate_w s (s.calibrate h a) := by
  unfold State.calibrate
  repeat' first
    | (extract_lets +onlyGivenNames x1; clear_value (hx : x1 = _); refine Keeps.cut x1 ?_ (fun h => ?_); rw [hx]; clear hx x1; rotate_left; clear hx; rotate_right)
    | (extract_lets +onlyGivenNames x1; clear_value (hx : x1 = _); refine Keeps.cut1 x1 ?_ (fun h => ?_); rw [hx]; clear hx x1; rotate_left; clear hx; rotate_right)
    | (extract_lets +onlyGivenNames x1; clear_value (hx : x1 = _); refine Keeps.cut2 x1 ?_ (fun h => ?_); rw [hx]; clear hx x1; rotate_left; clear hx; rotate_right)
    | (extract_lets +onlyGivenNames x1; clear_value (hx : x1 = _); clear hx)
    | with_reducible assumption
    | with_reducible exact Keeps.refl _ _
    | decide +kernel
    | with_reducible refine Keeps.eachA ?_ (fun _ _ => ?_)
    | with_reducible apply Keeps.trans ?_ (State.serve_keeps ?_ ?_)
    | with_reducible apply Keeps.via (State.answerErr_keeps ..)
    | with_reducible apply Keeps.via (State.answerWrong_keeps ..)
    | with_reducible apply Keeps.via (State.flowTake_keeps ..)
    | with_reducible apply Keeps.via (State.calEnter_keeps ..)
    | with_reducible apply Keeps.iteA
    | with_reducible apply Keeps.ite1
    | with_reducible refine Keeps.trans ?_ (Keeps.c_flows _ ?_)
    | intro _

def State.calStop_w : Nat := m_flows ||| State.serve_w ||| State.answerErr_w ||| State.answerOk_w
theorem State.calStop_keeps (s : State) (h : Hdr) (tile : Nat) : Keeps State.calStop_w s (s.calStop h tile) := by
  unfold State.calStop
  repeat' first
    | (extract_lets +onlyGivenNames x1; clear_value (hx : x1 = _); refine Keeps.cut x1 ?_ (fun h => ?_); rw [hx]; clear hx x1; rotate_left; clear hx; rotate_right)
    | (extract_lets +onlyGivenNames x1; clear_value (hx : x1 = _); refine Keeps.cut1 x1 ?_ (fun h => ?_); rw [hx]; clear hx x1; rotate_left; clear hx; rotate_right)
    | (extract_lets +onlyGivenNames x1; clear_value (hx : x1 = _); refine Keeps.cut2 x1 ?_ (fun h => ?_); rw [hx]; clear hx x1; rotate_left; clear hx; rotate_right)
    | (extract_lets +onlyGivenNames x1; clear_value (hx : x1 = _); clear hx)
    | with_reducible assumption
    | with_reducible exact Keeps.refl _ _
    | decide +kernel
    | with_reducible refine Keeps.eachA ?_ (fun _ _ => ?_)
    | with_reducible apply Keeps.trans ?_ (State.serve_keeps ?_ ?_)
    | with_reducible apply Keeps.via (State.answerErr_keeps ..)
    | with_reducible apply Keeps.via (State.answerOk_keeps ..)
    | with_reducible apply Keeps.iteA
    | with_reducible apply Keeps.ite1
    | with_reducible refine Keeps.trans ?_ (Keeps.c_flows _ ?_)
    | intro _

def State.calRecord_w : Nat := fm F.TCAL_STAT_FAILS ||| State.calPend_w
theorem State.calRecord_keeps (s : State) (l : List Byte) : Keeps State.calRecord_w s (s.calRecord l).1 := by
  unfold State.calRecord
  repeat' first
    | (extract_lets +onlyGivenNames x1; clear_value (hx : x1 = _); refine Keeps.cut x1 ?_ (fun h => ?_); rw [hx]; clear hx x1; rotate_left; clear hx; rotate_right)
    | (extract_lets +onlyGivenNames x1; clear_value (hx : x1 = _); refine Keeps.cut1 x1 ?_ (fun h => ?_); rw [hx]; clear hx x1; rotate_left; clear hx; rotate_right)
    | (extract_lets +onlyGivenNames x1; clear_value (hx : x1 = _); refine Keeps.cut2 x1 ?_ (fun h => ?_); rw [hx]; clear hx x1; rotate_left; clear hx; rotate_right)
    | (extract_lets +onlyGivenNames x1; clear_value (hx : x1 = _); clear hx)
    | with_reducible assumption
    | with_reducible exact Keeps.refl _ _
    | decide +kernel
    | with_reducible apply Keeps.incSatA
    | with_reducible apply Keeps.via (State.calPend_keeps ..)
    | with_reducible apply Keeps.iteA
    | with_reducible apply Keeps.ite1
    | split

def State.calRecords_w : Nat := State.calRecord_w
theorem State.calRecords_keeps (s : State) (n : Nat) (l : List Byte) (a b : Nat) :
    Keeps State.calRecords_w s (s.calRecords n l a b).1 := by
  induction n generalizing s l a b with
  | zero => exact Keeps.refl _ _
  | succ n ih => exact Keeps.ite1 ((State.calRecord_keeps s l).trans (ih ..)) ((State.calRecord_keeps s l).trans (ih ..))

def State.calBody_w : Nat := State.calRecords_w ||| State.calApplyReady_w
theorem State.calBody_keeps (s : State) (l : List Byte) : Keeps State.calBody_w s (s.calBody l).1 := by
  unfold State.calBody
  repeat' first
    | (extract_lets +onlyGivenNames x1; clear_value (hx : x1 = _); refine Keeps.cut x1 ?_ (fun h => ?_); rw [hx]; clear hx x1; rotate_left; clear hx; rotate_right)
    | (extract_lets +onlyGivenNames x1; clear_value (hx : x1 = _); refine Keeps.cut1 x1 ?_ (fun h => ?_); rw [hx]; clear hx x1; rotate_left; clear hx; rotate_right)
    | (extract_lets +onlyGivenNames x1; clear_value (hx : x1 = _); refine Keeps.cut2 x1 ?_ (fun h => ?_); rw [hx]; clear hx x1; rotate_left; clear hx; rotate_right)
    | (extract_lets +onlyGivenNames x1; clear_value (hx : x1 = _); clear hx)
    | with_reducible assumption
    | with_reducible exact Keeps.refl _ _
    | decide +kernel
    | with_reducible refine Keeps.foldlA ?_ (fun _ _ => ?_)
    | with_reducible apply Keeps.via (State.calRecords_keeps ..)
    | with_reducible apply Keeps.via (State.calApplyReady_keeps ..)

def State.calLoad_w : Nat := State.serve_w ||| State.answerErr_w ||| State.celRead_w ||| State.calBody_w ||| State.answerOk_w
theorem State.calLoad_keeps (s : State) (h : Hdr) (addr : Nat) : Keeps State.calLoad_w s (s.calLoad h addr) := by
  unfold State.calLoad
  repeat' first
    | (extract_lets +onlyGivenNames x1; clear_value (hx : x1 = _); refine Keeps.cut x1 ?_ (fun h => ?_); rw [hx]; clear hx x1; rotate_left; clear hx; rotate_right)
    | (extract_lets +onlyGivenNames x1; clear_value (hx : x1 = _); refine Keeps.cut1 x1 ?_ (fun h => ?_); rw [hx]; clear hx x1; rotate_left; clear hx; rotate_right)
    | (extract_lets +onlyGivenNames x1; clear_value (hx : x1 = _); refine Keeps.cut2 x1 ?_ (fun h => ?_); rw [hx]; clear hx x1; rotate_left; clear hx; rotate_right)
    | (extract_lets +onlyGivenNames x1; clear_value (hx : x1 = _); clear hx)
    | with_reducible assumption
    | with_reducible exact Keeps.refl _ _
    | decide +kernel
    | with_reducible apply Keeps.trans ?_ (State.serve_keeps ?_ ?_)
    | with_reducible apply Keeps.via (State.answerErr_keeps ..)
    | with_reducible apply Keeps.via (State.celRead_keeps ..)
    | with_reducible apply Keeps.via (State.calBody_keeps ..)
    | with_reducible apply Keeps.via (State.answerOk_keeps ..)
    | with_reducible apply Keeps.iteA
    | with_reducible apply Keeps.ite1
    | split
    | intro _

end Sys2Proof.Machine
end

