-- ==== Sys2Proof/Laws/KeepsLoads.lean ====
section
/-!
SUPPORT. What every operation of Machine/Loads.lean can change: its mask and its Keeps lemma.
-/

set_option Elab.async false
set_option linter.all false

namespace Sys2Proof.Machine

def State.patCopy_w : Nat := State.dropPattern_w ||| State.celPut_w
theorem State.patCopy_keeps (s : State) (base : Nat) (ds : List (List Byte)) : Keeps State.patCopy_w s (s.patCopy base ds) := by
  unfold State.patCopy
  repeat' first
    | (extract_lets +onlyGivenNames x1; clear_value (hx : x1 = _); refine Keeps.cut x1 ?_ (fun h => ?_); rw [hx]; clear hx x1; rotate_left; clear hx; rotate_right)
    | (extract_lets +onlyGivenNames x1; clear_value (hx : x1 = _); refine Keeps.cut1 x1 ?_ (fun h => ?_); rw [hx]; clear hx x1; rotate_left; clear hx; rotate_right)
    | (extract_lets +onlyGivenNames x1; clear_value (hx : x1 = _); refine Keeps.cut2 x1 ?_ (fun h => ?_); rw [hx]; clear hx x1; rotate_left; clear hx; rotate_right)
    | (extract_lets +onlyGivenNames x1; clear_value (hx : x1 = _); clear hx)
    | with_reducible assumption
    | with_reducible exact Keeps.refl _ _
    | decide +kernel
    | with_reducible refine Keeps.eachA ?_ (fun _ _ => ?_)
    | with_reducible apply Keeps.via (State.dropPattern_keeps ..)
    | with_reducible apply Keeps.via (State.celPut_keeps ..)

def State.patLoadAt_w : Nat := State.celRead_w ||| State.bad_w ||| State.patCopy_w
theorem State.patLoadAt_keeps (s : State) (o space : Nat) : Keeps State.patLoadAt_w s (s.patLoadAt o space).1 := by
  unfold State.patLoadAt
  repeat' first
    | (extract_lets +onlyGivenNames x1; clear_value (hx : x1 = _); refine Keeps.cut x1 ?_ (fun h => ?_); rw [hx]; clear hx x1; rotate_left; clear hx; rotate_right)
    | (extract_lets +onlyGivenNames x1; clear_value (hx : x1 = _); refine Keeps.cut1 x1 ?_ (fun h => ?_); rw [hx]; clear hx x1; rotate_left; clear hx; rotate_right)
    | (extract_lets +onlyGivenNames x1; clear_value (hx : x1 = _); refine Keeps.cut2 x1 ?_ (fun h => ?_); rw [hx]; clear hx x1; rotate_left; clear hx; rotate_right)
    | (extract_lets +onlyGivenNames x1; clear_value (hx : x1 = _); clear hx)
    | with_reducible assumption
    | with_reducible exact Keeps.refl _ _
    | decide +kernel
    | with_reducible apply Keeps.via (State.celRead_keeps ..)
    | with_reducible apply Keeps.via (State.bad_keeps ..)
    | with_reducible apply Keeps.via (State.patCopy_keeps ..)
    | with_reducible apply Keeps.iteA
    | with_reducible apply Keeps.ite1
    | split

def State.loadAnswer_w : Nat := State.answerOk_w ||| State.answerErr_w ||| State.answerWrong_w
theorem State.loadAnswer_keeps (r : State × LoadEnd) (h : Hdr) (op : Nat) (data : Nat → List Byte) :
    Keeps State.loadAnswer_w r.1 (State.loadAnswer r h op data) := by
  unfold State.loadAnswer
  split
  · exact (State.answerOk_keeps ..).mono (by decide +kernel)
  · exact (State.answerErr_keeps ..).mono (by decide +kernel)
  · exact (State.answerWrong_keeps ..).mono (by decide +kernel)
  · exact (State.answerErr_keeps ..).mono (by decide +kernel)
  · exact (State.answerErr_keeps ..).mono (by decide +kernel)

def State.patLoad_w : Nat := State.serve_w ||| State.answerErr_w ||| State.loadAnswer_w ||| State.patLoadAt_w
theorem State.patLoad_keeps (s : State) (h : Hdr) (addr : Nat) : Keeps State.patLoad_w s (s.patLoad h addr) := by
  unfold State.patLoad
  repeat' first
    | with_reducible assumption
    | with_reducible exact Keeps.refl _ _
    | decide +kernel
    | with_reducible apply Keeps.trans ?_ (State.serve_keeps ?_ ?_)
    | with_reducible apply Keeps.via (State.answerErr_keeps ..)
    | with_reducible apply Keeps.via (State.loadAnswer_keeps ..)
    | with_reducible apply Keeps.via (State.patLoadAt_keeps ..)
    | with_reducible apply Keeps.iteA
    | with_reducible apply Keeps.ite1
    | split
    | intro _

def State.stabCount_w : Nat := fm F.SEQ_STAB_COUNT_COUNT
theorem State.stabCount_keeps (s : State) : Keeps State.stabCount_w s (s.stabCount) := by
  unfold State.stabCount
  repeat' first
    | (extract_lets +onlyGivenNames x1; clear_value (hx : x1 = _); refine Keeps.cut x1 ?_ (fun h => ?_); rw [hx]; clear hx x1; rotate_left; clear hx; rotate_right)
    | (extract_lets +onlyGivenNames x1; clear_value (hx : x1 = _); refine Keeps.cut1 x1 ?_ (fun h => ?_); rw [hx]; clear hx x1; rotate_left; clear hx; rotate_right)
    | (extract_lets +onlyGivenNames x1; clear_value (hx : x1 = _); refine Keeps.cut2 x1 ?_ (fun h => ?_); rw [hx]; clear hx x1; rotate_left; clear hx; rotate_right)
    | (extract_lets +onlyGivenNames x1; clear_value (hx : x1 = _); clear hx)
    | with_reducible assumption
    | with_reducible exact Keeps.refl _ _
    | decide +kernel
    | with_reducible apply Keeps.putA
    | with_reducible refine Keeps.foldlA ?_ (fun _ _ => ?_)
    | with_reducible apply Keeps.iteA

def State.segCopy_w : Nat := State.celPut_w ||| State.stabCount_w
theorem State.segCopy_keeps (s : State) (l : List Byte) : Keeps State.segCopy_w s (s.segCopy l) := by
  unfold State.segCopy
  repeat' first
    | with_reducible assumption
    | with_reducible exact Keeps.refl _ _
    | decide +kernel
    | with_reducible apply Keeps.via (State.celPut_keeps ..)
    | with_reducible apply Keeps.via (State.stabCount_keeps ..)

def State.segLoadAt_w : Nat := State.celRead_w ||| State.bad_w ||| State.segCopy_w
theorem State.segLoadAt_keeps (s : State) (o space : Nat) : Keeps State.segLoadAt_w s (s.segLoadAt o space).1 := by
  unfold State.segLoadAt
  repeat' first
    | (extract_lets +onlyGivenNames x1; clear_value (hx : x1 = _); refine Keeps.cut x1 ?_ (fun h => ?_); rw [hx]; clear hx x1; rotate_left; clear hx; rotate_right)
    | (extract_lets +onlyGivenNames x1; clear_value (hx : x1 = _); refine Keeps.cut1 x1 ?_ (fun h => ?_); rw [hx]; clear hx x1; rotate_left; clear hx; rotate_right)
    | (extract_lets +onlyGivenNames x1; clear_value (hx : x1 = _); refine Keeps.cut2 x1 ?_ (fun h => ?_); rw [hx]; clear hx x1; rotate_left; clear hx; rotate_right)
    | (extract_lets +onlyGivenNames x1; clear_value (hx : x1 = _); clear hx)
    | with_reducible assumption
    | with_reducible exact Keeps.refl _ _
    | decide +kernel
    | with_reducible apply Keeps.via (State.celRead_keeps ..)
    | with_reducible apply Keeps.via (State.bad_keeps ..)
    | with_reducible apply Keeps.via (State.segCopy_keeps ..)
    | with_reducible apply Keeps.iteA
    | with_reducible apply Keeps.ite1
    | split

def State.segLoad_w : Nat := State.serve_w ||| State.answerErr_w ||| State.segLoadAt_w ||| State.loadAnswer_w
theorem State.segLoad_keeps (s : State) (h : Hdr) (addr : Nat) : Keeps State.segLoad_w s (s.segLoad h addr) := by
  unfold State.segLoad
  repeat' first
    | (extract_lets +onlyGivenNames x1; clear_value (hx : x1 = _); refine Keeps.cut x1 ?_ (fun h => ?_); rw [hx]; clear hx x1; rotate_left; clear hx; rotate_right)
    | (extract_lets +onlyGivenNames x1; clear_value (hx : x1 = _); refine Keeps.cut1 x1 ?_ (fun h => ?_); rw [hx]; clear hx x1; rotate_left; clear hx; rotate_right)
    | (extract_lets +onlyGivenNames x1; clear_value (hx : x1 = _); refine Keeps.cut2 x1 ?_ (fun h => ?_); rw [hx]; clear hx x1; rotate_left; clear hx; rotate_right)
    | (extract_lets +onlyGivenNames x1; clear_value (hx : x1 = _); clear hx)
    | with_reducible assumption
    | with_reducible exact Keeps.refl _ _
    | decide +kernel
    | with_reducible apply Keeps.trans ?_ (State.serve_keeps ?_ ?_)
    | with_reducible apply Keeps.via (State.answerErr_keeps ..)
    | with_reducible apply Keeps.via (State.segLoadAt_keeps ..)
    | with_reducible apply Keeps.via (State.loadAnswer_keeps ..)
    | with_reducible apply Keeps.iteA
    | with_reducible apply Keeps.ite1
    | split
    | intro _

def State.csKeep_w : Nat := m_csBodies
theorem State.csKeep_keeps (s : State) (engines : List Nat) (l : List Byte) : Keeps State.csKeep_w s (s.csKeep engines l) := by
  unfold State.csKeep
  repeat' first
    | with_reducible assumption
    | with_reducible exact Keeps.refl _ _
    | decide +kernel
    | with_reducible refine Keeps.trans ?_ (Keeps.c_csBodies _ ?_)

def State.csWriteAll_w : Nat := State.csLoad_w
theorem State.csWriteAll_keeps (s : State) (l : List Byte) (ks : List Nat) :
    Keeps State.csWriteAll_w s (s.csWriteAll l ks).1 := by
  induction ks generalizing s with
  | nil => exact Keeps.refl _ _
  | cons k ks ih => exact Keeps.ite1 ((State.csLoad_keeps ..).trans (ih _)) (Keeps.refl _ _)

def State.csLoadCmd_w : Nat := State.serve_w ||| State.answerErr_w ||| State.celRead_w ||| State.answerWrong_w |||
    State.loadAnswer_w ||| State.csKeep_w ||| State.csWriteAll_w
theorem State.csLoadCmd_keeps (s : State) (h : Hdr) (k addr : Nat) : Keeps State.csLoadCmd_w s (s.csLoadCmd h k addr) := by
  unfold State.csLoadCmd
  repeat' first
    | (extract_lets +onlyGivenNames x1; clear_value (hx : x1 = _); refine Keeps.cut x1 ?_ (fun h => ?_); rw [hx]; clear hx x1; rotate_left; clear hx; rotate_right)
    | (extract_lets +onlyGivenNames x1; clear_value (hx : x1 = _); refine Keeps.cut1 x1 ?_ (fun h => ?_); rw [hx]; clear hx x1; rotate_left; clear hx; rotate_right)
    | (extract_lets +onlyGivenNames x1; clear_value (hx : x1 = _); refine Keeps.cut2 x1 ?_ (fun h => ?_); rw [hx]; clear hx x1; rotate_left; clear hx; rotate_right)
    | (extract_lets +onlyGivenNames x1; clear_value (hx : x1 = _); clear hx)
    | with_reducible assumption
    | with_reducible exact Keeps.refl _ _
    | decide +kernel
    | with_reducible apply Keeps.trans ?_ (State.serve_keeps ?_ ?_)
    | with_reducible apply Keeps.via (State.answerErr_keeps ..)
    | with_reducible apply Keeps.via (State.celRead_keeps ..)
    | with_reducible apply Keeps.via (State.answerWrong_keeps ..)
    | with_reducible apply Keeps.via (State.loadAnswer_keeps ..)
    | with_reducible apply Keeps.via (State.csKeep_keeps ..)
    | with_reducible apply Keeps.via (State.csWriteAll_keeps ..)
    | with_reducible apply Keeps.iteA
    | with_reducible apply Keeps.ite1
    | split
    | intro _

def State.levelsChan_w : Nat := fm F.PMU_ICLAMP_ICL ||| State.writeChCtrl_w ||| State.levelSet_w ||| State.pmuConfig_w |||
    State.pmuForceSet_w ||| State.pmuVclampSet_w
theorem State.levelsChan_keeps (s : State) (r : List Byte) (ch : Nat) : Keeps State.levelsChan_w s (s.levelsChan r ch) := by
  unfold State.levelsChan
  repeat' first
    | (extract_lets +onlyGivenNames x1; clear_value (hx : x1 = _); refine Keeps.cut x1 ?_ (fun h => ?_); rw [hx]; clear hx x1; rotate_left; clear hx; rotate_right)
    | (extract_lets +onlyGivenNames x1; clear_value (hx : x1 = _); refine Keeps.cut1 x1 ?_ (fun h => ?_); rw [hx]; clear hx x1; rotate_left; clear hx; rotate_right)
    | (extract_lets +onlyGivenNames x1; clear_value (hx : x1 = _); refine Keeps.cut2 x1 ?_ (fun h => ?_); rw [hx]; clear hx x1; rotate_left; clear hx; rotate_right)
    | (extract_lets +onlyGivenNames x1; clear_value (hx : x1 = _); clear hx)
    | with_reducible assumption
    | with_reducible exact Keeps.refl _ _
    | decide +kernel
    | with_reducible apply Keeps.putA
    | with_reducible refine Keeps.eachA ?_ (fun _ _ => ?_)
    | with_reducible apply Keeps.via (State.writeChCtrl_keeps ..)
    | with_reducible apply Keeps.via (State.levelSet_keeps ..)
    | with_reducible apply Keeps.via (State.pmuConfig_keeps ..)
    | with_reducible apply Keeps.via (State.pmuForceSet_keeps ..)
    | with_reducible apply Keeps.via (State.pmuVclampSet_keeps ..)
    | with_reducible apply Keeps.iteA
    | split

def State.levelsRecord_w : Nat := fm F.LVL_LOAD_STAT_SKIPPED ||| fm F.LVL_LOAD_STAT_APPLIED ||| State.levelsChan_w
theorem State.levelsRecord_keeps (s : State) (r : List Byte) : Keeps State.levelsRecord_w s (s.levelsRecord r) := by
  unfold State.levelsRecord
  repeat' first
    | (extract_lets +onlyGivenNames x1; clear_value (hx : x1 = _); refine Keeps.cut x1 ?_ (fun h => ?_); rw [hx]; clear hx x1; rotate_left; clear hx; rotate_right)
    | (extract_lets +onlyGivenNames x1; clear_value (hx : x1 = _); refine Keeps.cut1 x1 ?_ (fun h => ?_); rw [hx]; clear hx x1; rotate_left; clear hx; rotate_right)
    | (extract_lets +onlyGivenNames x1; clear_value (hx : x1 = _); refine Keeps.cut2 x1 ?_ (fun h => ?_); rw [hx]; clear hx x1; rotate_left; clear hx; rotate_right)
    | (extract_lets +onlyGivenNames x1; clear_value (hx : x1 = _); clear hx)
    | with_reducible assumption
    | with_reducible exact Keeps.refl _ _
    | decide +kernel
    | with_reducible apply Keeps.incSatA
    | with_reducible refine Keeps.eachA ?_ (fun _ _ => ?_)
    | with_reducible apply Keeps.via (State.levelsChan_keeps ..)
    | with_reducible apply Keeps.iteA

def State.levelsApply_w : Nat := State.levelsRecord_w
theorem State.levelsApply_keeps (s : State) (l : List Byte) : Keeps State.levelsApply_w s (s.levelsApply l) := by
  unfold State.levelsApply
  repeat' first
    | with_reducible assumption
    | with_reducible exact Keeps.refl _ _
    | decide +kernel
    | with_reducible refine Keeps.eachA ?_ (fun _ _ => ?_)
    | with_reducible apply Keeps.via (State.levelsRecord_keeps ..)

end Sys2Proof.Machine
end

