-- ==== Sys2Proof/Laws/KeepsResets.lean ====
section
/-!
SUPPORT. What every operation of Machine/Resets.lean can change: its mask and its Keeps lemma.
-/

set_option Elab.async false
set_option linter.all false

namespace Sys2Proof.Machine

/-- The fields of a warm reset's reach. -/
def warmDrops : List Field := allFields.filter Field.warmDrops

/-- The mask of those fields, as a number. -/
def warmDropMask : Nat := 0x1ffffe00000018d7fffffffffff9fe274003c7fff800001ffcfc0fc1e1fffffffffef9fffffe6180000000000000007ffffffc00187c000001fffffffffff9fff80000004ff000000013e1c380000000fffffe7ffffff1fb85fffffffff00007c3ffffe0000000000080001fff813febe860fdfffffdf7dffe31c01cbc005600007f0804806000001ee9c018

theorem warmDrops_mask : Sub (fms warmDrops) warmDropMask := by decide +kernel

def State.warmFields_w : Nat := warmDropMask ||| m_snaps
theorem State.warmFields_keeps (s : State) : Keeps State.warmFields_w s s.warmFields :=
  Keeps.trans (Keeps.ffFilter (fun k => !warmDropped.contains (k % 2048)) (fun f i o => by
      simp only [fkey_mod, warmDropped]
      exact congrArg (! ·) (Off.not_contains (l := warmDrops) (o.mono (warmDrops_mask.trans (by decide +kernel))))))
    (Keeps.c_snaps _ (by decide +kernel) (fun h => keysRise_filter _ _ h.2.1))

def State.queuesOff_w : Nat := m_heldEntries ||| m_pendW ||| m_ports ||| m_waveBuf ||| m_evicted ||| m_lines ||| m_reqs |||
    m_jobs ||| m_inval ||| m_cmdq ||| m_memq ||| m_refused ||| m_memErrs ||| m_evq ||| m_failq ||| m_asm ||| m_trigActs |||
    m_flows ||| m_corrPend ||| m_tdcq ||| State.flashCut_w
theorem State.queuesOff_keeps (s0 : State) : Keeps State.queuesOff_w s0 (s0.queuesOff) := by
  unfold State.queuesOff
  repeat' first
    | (extract_lets +onlyGivenNames x1; clear_value (hx : x1 = _); refine Keeps.cut x1 ?_ (fun h => ?_); rw [hx]; clear hx x1; rotate_left; clear hx; rotate_right)
    | (extract_lets +onlyGivenNames x1; clear_value (hx : x1 = _); refine Keeps.cut1 x1 ?_ (fun h => ?_); rw [hx]; clear hx x1; rotate_left; clear hx; rotate_right)
    | (extract_lets +onlyGivenNames x1; clear_value (hx : x1 = _); refine Keeps.cut2 x1 ?_ (fun h => ?_); rw [hx]; clear hx x1; rotate_left; clear hx; rotate_right)
    | (extract_lets +onlyGivenNames x1; clear_value (hx : x1 = _); clear hx)
    | with_reducible assumption
    | with_reducible exact Keeps.refl _ _
    | decide +kernel
    | with_reducible apply Keeps.via (State.flashCut_keeps ..)
    | with_reducible refine Keeps.trans ?_ (Keeps.c_heldEntries_pendW_ports_waveBuf_evicted_lines _ _ _ _ _ _ _ _ _ _ _ _ _ _ _ _ _ _ _ _ ?_)

def State.dropField_w (f : Field) : Nat := fm f
theorem State.dropField_keeps (s : State) (f : Field) : Keeps (State.dropField_w f) s (s.dropField f) :=
  Keeps.ffFilter (fun k => k % 2048 != f.id.val) (fun g i o => by
    simp only [fkey_mod, bne_iff_ne, ne_eq]
    exact fun e => (show Sub (fm g) (fm f) from by rw [fm, fm, e]; exact Nat.and_self _).not_off (fm_pos g) o)

def State.dropFields_w (l : List Field) : Nat := fms l
theorem State.dropFields_keeps (s : State) (l : List Field) : Keeps (State.dropFields_w l) s (s.dropFields l) := by
  induction l generalizing s with
  | nil => exact Keeps.refl _ _
  | cons f l ih => exact ((State.dropField_keeps s f).mono (Sub.or_left _ _)).trans ((ih _).mono (Sub.or_right _ _))

def State.warmHeldSet_w : Nat := fm F.WARM_HELD_LO_HELD ||| fm F.WARM_HELD_HI_HELD
theorem State.warmHeldSet_keeps (s : State) (l : List Nat) : Keeps State.warmHeldSet_w s (s.warmHeldSet l) := by
  unfold State.warmHeldSet
  repeat' first
    | with_reducible assumption
    | with_reducible exact Keeps.refl _ _
    | decide +kernel
    | with_reducible apply Keeps.putA

def State.dpsHold_w : Nat := fm F.DPS_VSET_VALUE ||| State.dpsFreeze_w
theorem State.dpsHold_keeps (s : State) (d : Nat) : Keeps State.dpsHold_w s (s.dpsHold d) := by
  unfold State.dpsHold
  repeat' first
    | (extract_lets +onlyGivenNames x1; clear_value (hx : x1 = _); refine Keeps.cut x1 ?_ (fun h => ?_); rw [hx]; clear hx x1; rotate_left; clear hx; rotate_right)
    | (extract_lets +onlyGivenNames x1; clear_value (hx : x1 = _); refine Keeps.cut1 x1 ?_ (fun h => ?_); rw [hx]; clear hx x1; rotate_left; clear hx; rotate_right)
    | (extract_lets +onlyGivenNames x1; clear_value (hx : x1 = _); refine Keeps.cut2 x1 ?_ (fun h => ?_); rw [hx]; clear hx x1; rotate_left; clear hx; rotate_right)
    | (extract_lets +onlyGivenNames x1; clear_value (hx : x1 = _); clear hx)
    | with_reducible assumption
    | with_reducible exact Keeps.refl _ _
    | decide +kernel
    | with_reducible apply Keeps.putA
    | with_reducible apply Keeps.via (State.dpsFreeze_keeps ..)
    | with_reducible apply Keeps.iteA

def State.warmOutputs_w : Nat := State.pendApply_w ||| State.smuHold_w ||| State.safeStart_w ||| State.dpsHold_w
theorem State.warmOutputs_keeps (s : State) : Keeps State.warmOutputs_w s (s.warmOutputs) := by
  unfold State.warmOutputs
  repeat' first
    | (extract_lets +onlyGivenNames x1; clear_value (hx : x1 = _); refine Keeps.cut x1 ?_ (fun h => ?_); rw [hx]; clear hx x1; rotate_left; clear hx; rotate_right)
    | (extract_lets +onlyGivenNames x1; clear_value (hx : x1 = _); refine Keeps.cut1 x1 ?_ (fun h => ?_); rw [hx]; clear hx x1; rotate_left; clear hx; rotate_right)
    | (extract_lets +onlyGivenNames x1; clear_value (hx : x1 = _); refine Keeps.cut2 x1 ?_ (fun h => ?_); rw [hx]; clear hx x1; rotate_left; clear hx; rotate_right)
    | (extract_lets +onlyGivenNames x1; clear_value (hx : x1 = _); clear hx)
    | with_reducible assumption
    | with_reducible exact Keeps.refl _ _
    | decide +kernel
    | with_reducible refine Keeps.eachA ?_ (fun _ _ => ?_)
    | with_reducible apply Keeps.via (State.pendApply_keeps ..)
    | with_reducible apply Keeps.via (State.smuHold_keeps ..)
    | with_reducible apply Keeps.via (State.safeStart_keeps ..)
    | with_reducible apply Keeps.via (State.dpsHold_keeps ..)
    | with_reducible apply Keeps.iteA

def State.mbxFlushed_w : Nat := fm F.MBX_HOST_FLUSH_COUNT ||| fm F.MBX_HOST_STAT_FLUSHED
theorem State.mbxFlushed_keeps (s : State) (b n : Nat) : Keeps State.mbxFlushed_w s (s.mbxFlushed b n) := by
  unfold State.mbxFlushed
  repeat' first
    | with_reducible assumption
    | with_reducible exact Keeps.refl _ _
    | decide +kernel
    | with_reducible apply Keeps.setBA
    | with_reducible apply Keeps.addSatA
    | with_reducible apply Keeps.iteA

def State.warmMailboxes_w : Nat := fm F.MBX_ENG_STAT_FLUSHED ||| fm F.MBX_ENG_STAT_ENG_EPOCH ||| m_h2d ||| m_h2e |||
    m_e2h ||| State.mbxFlushed_w
theorem State.warmMailboxes_keeps (s : State) : Keeps State.warmMailboxes_w s (s.warmMailboxes) := by
  unfold State.warmMailboxes
  repeat' first
    | (extract_lets +onlyGivenNames x1; clear_value (hx : x1 = _); refine Keeps.cut x1 ?_ (fun h => ?_); rw [hx]; clear hx x1; rotate_left; clear hx; rotate_right)
    | (extract_lets +onlyGivenNames x1; clear_value (hx : x1 = _); refine Keeps.cut1 x1 ?_ (fun h => ?_); rw [hx]; clear hx x1; rotate_left; clear hx; rotate_right)
    | (extract_lets +onlyGivenNames x1; clear_value (hx : x1 = _); refine Keeps.cut2 x1 ?_ (fun h => ?_); rw [hx]; clear hx x1; rotate_left; clear hx; rotate_right)
    | (extract_lets +onlyGivenNames x1; clear_value (hx : x1 = _); clear hx)
    | with_reducible assumption
    | with_reducible exact Keeps.refl _ _
    | decide +kernel
    | with_reducible apply Keeps.setBA
    | with_reducible apply Keeps.incWA
    | with_reducible refine Keeps.eachA ?_ (fun _ _ => ?_)
    | with_reducible refine Keeps.foldlA ?_ (fun _ _ => ?_)
    | with_reducible apply Keeps.via (State.mbxFlushed_keeps ..)
    | with_reducible refine Keeps.trans ?_ (Keeps.c_h2e_e2h _ _ ?_)
    | with_reducible refine Keeps.trans ?_ (Keeps.c_h2d _ ?_)

def State.abandon_w : Nat := fm F.CMDQ_STAT_ABANDONED ||| m_accepted ||| State.answerErr_w
theorem State.abandon_keeps (s : State) : Keeps State.abandon_w s (s.abandon) := by
  unfold State.abandon
  repeat' first
    | (extract_lets +onlyGivenNames x1; clear_value (hx : x1 = _); refine Keeps.cut x1 ?_ (fun h => ?_); rw [hx]; clear hx x1; rotate_left; clear hx; rotate_right)
    | (extract_lets +onlyGivenNames x1; clear_value (hx : x1 = _); refine Keeps.cut1 x1 ?_ (fun h => ?_); rw [hx]; clear hx x1; rotate_left; clear hx; rotate_right)
    | (extract_lets +onlyGivenNames x1; clear_value (hx : x1 = _); refine Keeps.cut2 x1 ?_ (fun h => ?_); rw [hx]; clear hx x1; rotate_left; clear hx; rotate_right)
    | (extract_lets +onlyGivenNames x1; clear_value (hx : x1 = _); clear hx)
    | with_reducible assumption
    | with_reducible exact Keeps.refl _ _
    | decide +kernel
    | with_reducible apply Keeps.addSatA
    | with_reducible refine Keeps.foldlA ?_ (fun _ _ => ?_)
    | with_reducible apply Keeps.via (State.answerErr_keeps ..)
    | with_reducible refine Keeps.trans ?_ (Keeps.c_accepted _ ?_)

def State.engsOff_w : Nat := fm H.PD_ENG ||| State.engReset_w
theorem State.engsOff_keeps (s : State) : Keeps State.engsOff_w s (s.engsOff) := by
  unfold State.engsOff
  repeat' first
    | with_reducible assumption
    | with_reducible exact Keeps.refl _ _
    | decide +kernel
    | with_reducible apply Keeps.setBA
    | with_reducible refine Keeps.eachA ?_ (fun _ _ => ?_)
    | with_reducible apply Keeps.via (State.engReset_keeps ..)

def State.celDrop_w : Nat := fm F.BOOT_REASON_CELLAR_LOST ||| fm F.CEL_CFG_READY ||| fm H.PD_CELLAR ||| m_cellar |||
    m_celErr ||| m_csBodies
theorem State.celDrop_keeps (s : State) : Keeps State.celDrop_w s (s.celDrop) := by
  unfold State.celDrop
  repeat' first
    | (extract_lets +onlyGivenNames x1; clear_value (hx : x1 = _); refine Keeps.cut x1 ?_ (fun h => ?_); rw [hx]; clear hx x1; rotate_left; clear hx; rotate_right)
    | (extract_lets +onlyGivenNames x1; clear_value (hx : x1 = _); refine Keeps.cut1 x1 ?_ (fun h => ?_); rw [hx]; clear hx x1; rotate_left; clear hx; rotate_right)
    | (extract_lets +onlyGivenNames x1; clear_value (hx : x1 = _); refine Keeps.cut2 x1 ?_ (fun h => ?_); rw [hx]; clear hx x1; rotate_left; clear hx; rotate_right)
    | (extract_lets +onlyGivenNames x1; clear_value (hx : x1 = _); clear hx)
    | with_reducible assumption
    | with_reducible exact Keeps.refl _ _
    | decide +kernel
    | with_reducible apply Keeps.setBA
    | exact fun hw => by
        obtain ⟨w1, w2, w3, w4, w5, w6, w7, w8, w9, w10, w11⟩ := hw
        first | exact memSetBytes_wf _ _ _ ‹_› | exact memSetByte_wf _ _ _ ‹_› | exact memClear_wf _ _ _ ‹_› | exact keysRise_filter _ _ ‹_› | exact keysRise_insKey _ _ _ ‹_› | exact keysRise_storeKey _ _ _ ‹_› | exact storeWf_storeKey _ _ _ ‹_› | exact storeWf_filter _ _ ‹_› | rfl
    | with_reducible refine Keeps.trans ?_ (Keeps.c_cellar_celErr_csBodies _ _ _ ?_ ?_ ?_)

def State.forcedEnd_w : Nat := fm F.THM_TEMP_FORCED
theorem State.forcedEnd_keeps (s : State) : Keeps State.forcedEnd_w s (s.forcedEnd) := by
  unfold State.forcedEnd
  repeat' first
    | with_reducible assumption
    | with_reducible exact Keeps.refl _ _
    | decide +kernel
    | with_reducible apply Keeps.setBA
    | with_reducible refine Keeps.eachA ?_ (fun _ _ => ?_)
    | with_reducible apply Keeps.iteA

def State.warmDrop_w : Nat := State.fuseCut_w ||| State.warmOutputs_w ||| State.warmMailboxes_w ||| State.engsOff_w ||| State.warmFields_w |||
    State.queuesOff_w ||| State.dropFields_w warmSite ||| State.trigCancel_w
theorem State.warmDrop_keeps (s : State) : Keeps State.warmDrop_w s (s.warmDrop) := by
  unfold State.warmDrop
  repeat' first
    | with_reducible assumption
    | with_reducible exact Keeps.refl _ _
    | decide +kernel
    | with_reducible apply Keeps.via (State.fuseCut_keeps ..)
    | with_reducible apply Keeps.via (State.warmOutputs_keeps ..)
    | with_reducible apply Keeps.via (State.warmMailboxes_keeps ..)
    | with_reducible apply Keeps.via (State.engsOff_keeps ..)
    | with_reducible apply Keeps.via (State.warmFields_keeps ..)
    | with_reducible apply Keeps.via (State.queuesOff_keeps ..)
    | with_reducible apply Keeps.via (State.dropFields_keeps ..)
    | with_reducible apply Keeps.via (State.trigCancel_keeps ..)

def State.warmMarks_w : Nat := fm F.MODE_STAT_PREV_MODE ||| fm H.BOOT_PHASE ||| fm H.WAS_WARM ||| fm F.MBX_EPOCH_HEARTH |||
    fm H.BOOT_T0 ||| fm H.PD_PANTRY ||| m_safe ||| State.warmHeldSet_w
theorem State.warmMarks_keeps (s : State) (mode : Nat) (held : List Nat) : Keeps State.warmMarks_w s (s.warmMarks mode held) := by
  unfold State.warmMarks
  repeat' first
    | (extract_lets +onlyGivenNames x1; clear_value (hx : x1 = _); refine Keeps.cut x1 ?_ (fun h => ?_); rw [hx]; clear hx x1; rotate_left; clear hx; rotate_right)
    | (extract_lets +onlyGivenNames x1; clear_value (hx : x1 = _); refine Keeps.cut1 x1 ?_ (fun h => ?_); rw [hx]; clear hx x1; rotate_left; clear hx; rotate_right)
    | (extract_lets +onlyGivenNames x1; clear_value (hx : x1 = _); refine Keeps.cut2 x1 ?_ (fun h => ?_); rw [hx]; clear hx x1; rotate_left; clear hx; rotate_right)
    | (extract_lets +onlyGivenNames x1; clear_value (hx : x1 = _); clear hx)
    | with_reducible assumption
    | with_reducible exact Keeps.refl _ _
    | decide +kernel
    | with_reducible apply Keeps.putA
    | with_reducible apply Keeps.setBA
    | with_reducible apply Keeps.via (State.warmHeldSet_keeps ..)
    | with_reducible refine Keeps.trans ?_ (Keeps.c_safe _ ?_)

def State.warmCellar_w : Nat := fm F.BOOT_REASON_CELLAR_LOST ||| State.celDrop_w
theorem State.warmCellar_keeps (s : State) (lost : Bool) : Keeps State.warmCellar_w s (s.warmCellar lost) := by
  unfold State.warmCellar
  repeat' first
    | with_reducible assumption
    | with_reducible exact Keeps.refl _ _
    | decide +kernel
    | with_reducible apply Keeps.setBA
    | with_reducible apply Keeps.via (State.celDrop_keeps ..)
    | with_reducible apply Keeps.iteA

def State.warmAct_w : Nat := fm F.RST_WARM_COUNT_COUNT ||| fm H.RST_T0 ||| State.warmDrop_w ||| State.warmMarks_w |||
    State.warmCellar_w ||| State.forcedEnd_w ||| State.wipeStart_w ||| State.abandon_w
theorem State.warmAct_keeps (s : State) : Keeps State.warmAct_w s (s.warmAct) := by
  unfold State.warmAct
  repeat' first
    | (extract_lets +onlyGivenNames x1; clear_value (hx : x1 = _); refine Keeps.cut x1 ?_ (fun h => ?_); rw [hx]; clear hx x1; rotate_left; clear hx; rotate_right)
    | (extract_lets +onlyGivenNames x1; clear_value (hx : x1 = _); refine Keeps.cut1 x1 ?_ (fun h => ?_); rw [hx]; clear hx x1; rotate_left; clear hx; rotate_right)
    | (extract_lets +onlyGivenNames x1; clear_value (hx : x1 = _); refine Keeps.cut2 x1 ?_ (fun h => ?_); rw [hx]; clear hx x1; rotate_left; clear hx; rotate_right)
    | (extract_lets +onlyGivenNames x1; clear_value (hx : x1 = _); clear hx)
    | with_reducible assumption
    | with_reducible exact Keeps.refl _ _
    | decide +kernel
    | with_reducible apply Keeps.putA
    | with_reducible apply Keeps.incSatA
    | with_reducible apply Keeps.via (State.warmDrop_keeps ..)
    | with_reducible apply Keeps.via (State.warmMarks_keeps ..)
    | with_reducible apply Keeps.via (State.warmCellar_keeps ..)
    | with_reducible apply Keeps.via (State.forcedEnd_keeps ..)
    | with_reducible apply Keeps.via (State.wipeStart_keeps ..)
    | with_reducible apply Keeps.via (State.abandon_keeps ..)

def State.warmDo_w (f : Field) : Nat := fm f ||| State.warmAct_w
theorem State.warmDo_keeps (s : State) (cause : Field) : Keeps (State.warmDo_w cause) s (s.warmDo cause) :=
  Keeps.via (State.warmAct_keeps ..) (Sub.or_right _ _) (Keeps.setBA (Sub.or_left _ _) (Keeps.refl _ _))

def State.warmReset_w (f : Field) : Nat := State.warmDo_w f
theorem State.warmReset_keeps (s : State) (cause : Field) : Keeps (State.warmReset_w cause) s (s.warmReset cause) := by
  unfold State.warmReset
  exact Keeps.iteA (Keeps.refl _ _) (Keeps.iteA (Keeps.incSatA ((show Sub _ State.warmAct_w by decide +kernel).trans (Sub.or_right _ _))
    (Keeps.setBA (Sub.or_left _ _) (Keeps.refl _ _))) (State.warmDo_keeps ..))

def State.attemptFails_w : Nat := fm F.BOOT_ATTEMPT_FAILS ||| fm F.BOOT_ATTEMPT_LAST_CODE
theorem State.attemptFails_keeps (s : State) (c : Nat) : Keeps State.attemptFails_w s (s.attemptFails c) := by
  unfold State.attemptFails
  repeat' first
    | with_reducible assumption
    | with_reducible exact Keeps.refl _ _
    | decide +kernel
    | with_reducible apply Keeps.putA

def State.failingReset_w (f : Field) : Nat := State.warmReset_w f ||| State.attemptFails_w
theorem State.failingReset_keeps (s : State) (cause : Field) (c : Nat) :
    Keeps (State.failingReset_w cause) s (s.failingReset cause c) :=
  Keeps.via (State.warmReset_keeps ..) (Sub.or_left _ _)
    (Keeps.iteA ((State.attemptFails_keeps ..).mono (Sub.or_right _ _)) (Keeps.refl _ _))

def State.resetPin_w : Nat := fm H.BOOT_T0 ||| m_now ||| m_free ||| State.warmReset_w F.RST_CAUSE_PIN
theorem State.resetPin_keeps (s : State) (widthPs : Nat) : Keeps State.resetPin_w s (s.resetPin widthPs) := by
  unfold State.resetPin
  repeat' first
    | (extract_lets +onlyGivenNames x1; clear_value (hx : x1 = _); refine Keeps.cut x1 ?_ (fun h => ?_); rw [hx]; clear hx x1; rotate_left; clear hx; rotate_right)
    | (extract_lets +onlyGivenNames x1; clear_value (hx : x1 = _); refine Keeps.cut1 x1 ?_ (fun h => ?_); rw [hx]; clear hx x1; rotate_left; clear hx; rotate_right)
    | (extract_lets +onlyGivenNames x1; clear_value (hx : x1 = _); refine Keeps.cut2 x1 ?_ (fun h => ?_); rw [hx]; clear hx x1; rotate_left; clear hx; rotate_right)
    | (extract_lets +onlyGivenNames x1; clear_value (hx : x1 = _); clear hx)
    | with_reducible assumption
    | with_reducible exact Keeps.refl _ _
    | decide +kernel
    | with_reducible apply Keeps.putA
    | with_reducible apply Keeps.upToA
    | with_reducible apply Keeps.drawA
    | with_reducible apply Keeps.via (State.warmReset_keeps ..)
    | with_reducible apply Keeps.iteA

def State.tbRestart_w : Nat := fm H.TB_ORIGIN ||| fm F.TB_EPOCH_EPOCH ||| fm H.TB_EPOCH_SEEN ||| fm F.SYNC_STAT_UNSYNCED |||
    fm F.SYNC_STAT_REF_LOST ||| fm H.TB_RELOAD
theorem State.tbRestart_keeps (s : State) (ref : Bool) : Keeps State.tbRestart_w s (s.tbRestart ref) := by
  unfold State.tbRestart
  repeat' first
    | (extract_lets +onlyGivenNames x1; clear_value (hx : x1 = _); refine Keeps.cut x1 ?_ (fun h => ?_); rw [hx]; clear hx x1; rotate_left; clear hx; rotate_right)
    | (extract_lets +onlyGivenNames x1; clear_value (hx : x1 = _); refine Keeps.cut1 x1 ?_ (fun h => ?_); rw [hx]; clear hx x1; rotate_left; clear hx; rotate_right)
    | (extract_lets +onlyGivenNames x1; clear_value (hx : x1 = _); refine Keeps.cut2 x1 ?_ (fun h => ?_); rw [hx]; clear hx x1; rotate_left; clear hx; rotate_right)
    | (extract_lets +onlyGivenNames x1; clear_value (hx : x1 = _); clear hx)
    | with_reducible assumption
    | with_reducible exact Keeps.refl _ _
    | decide +kernel
    | with_reducible apply Keeps.putA
    | with_reducible apply Keeps.setBA
    | with_reducible apply Keeps.clearA
    | with_reducible apply Keeps.iteA

def State.clkFail_w : Nat := State.warmReset_w F.RST_CAUSE_CLKFAIL ||| State.tbRestart_w ||| State.celDrop_w
theorem State.clkFail_keeps (s : State) (c : ClockLoss) : Keeps State.clkFail_w s (s.clkFail c) := by
  unfold State.clkFail
  repeat' first
    | (extract_lets +onlyGivenNames x1; clear_value (hx : x1 = _); refine Keeps.cut x1 ?_ (fun h => ?_); rw [hx]; clear hx x1; rotate_left; clear hx; rotate_right)
    | (extract_lets +onlyGivenNames x1; clear_value (hx : x1 = _); refine Keeps.cut1 x1 ?_ (fun h => ?_); rw [hx]; clear hx x1; rotate_left; clear hx; rotate_right)
    | (extract_lets +onlyGivenNames x1; clear_value (hx : x1 = _); refine Keeps.cut2 x1 ?_ (fun h => ?_); rw [hx]; clear hx x1; rotate_left; clear hx; rotate_right)
    | (extract_lets +onlyGivenNames x1; clear_value (hx : x1 = _); clear hx)
    | with_reducible assumption
    | with_reducible exact Keeps.refl _ _
    | decide +kernel
    | with_reducible apply Keeps.via (State.warmReset_keeps ..)
    | with_reducible apply Keeps.via (State.tbRestart_keeps ..)
    | with_reducible apply Keeps.via (State.celDrop_keeps ..)
    | with_reducible apply Keeps.iteA

def State.wdogReset_w : Nat := m_now ||| State.failingReset_w F.RST_CAUSE_WDOG
theorem State.wdogReset_keeps (s : State) : Keeps State.wdogReset_w s (s.wdogReset) := by
  unfold State.wdogReset
  repeat' first
    | with_reducible assumption
    | with_reducible exact Keeps.refl _ _
    | decide +kernel
    | with_reducible apply Keeps.upToA
    | with_reducible apply Keeps.via (State.failingReset_keeps ..)
    | with_reducible apply Keeps.iteA

def State.wdogHalf_w : Nat := fm H.WDOG_HALF_SEEN ||| m_now ||| State.irq_w
theorem State.wdogHalf_keeps (s : State) : Keeps State.wdogHalf_w s (s.wdogHalf) := by
  unfold State.wdogHalf
  repeat' first
    | with_reducible assumption
    | with_reducible exact Keeps.refl _ _
    | decide +kernel
    | with_reducible apply Keeps.setBA
    | with_reducible apply Keeps.upToA
    | with_reducible apply Keeps.via (State.irq_keeps ..)
    | with_reducible apply Keeps.iteA

def State.wdogKick_w : Nat := fm H.WDOG_T0 ||| fm H.WDOG_HALF_SEEN
theorem State.wdogKick_keeps (s : State) (v : Nat) : Keeps State.wdogKick_w s (s.wdogKick v) := by
  unfold State.wdogKick
  repeat' first
    | with_reducible assumption
    | with_reducible exact Keeps.refl _ _
    | decide +kernel
    | with_reducible apply Keeps.putA
    | with_reducible apply Keeps.setBA
    | with_reducible apply Keeps.iteA

def State.wdogCtl_w : Nat := fm F.RST_WDOG_CTL_TIMEOUT_MS ||| fm F.RST_WDOG_CTL_EN ||| fm H.WDOG_T0 ||| fm H.WDOG_HALF_SEEN
theorem State.wdogCtl_keeps (s : State) (v : Nat) : Keeps State.wdogCtl_w s (s.wdogCtl v) := by
  unfold State.wdogCtl
  repeat' first
    | (extract_lets +onlyGivenNames x1; clear_value (hx : x1 = _); refine Keeps.cut x1 ?_ (fun h => ?_); rw [hx]; clear hx x1; rotate_left; clear hx; rotate_right)
    | (extract_lets +onlyGivenNames x1; clear_value (hx : x1 = _); refine Keeps.cut1 x1 ?_ (fun h => ?_); rw [hx]; clear hx x1; rotate_left; clear hx; rotate_right)
    | (extract_lets +onlyGivenNames x1; clear_value (hx : x1 = _); refine Keeps.cut2 x1 ?_ (fun h => ?_); rw [hx]; clear hx x1; rotate_left; clear hx; rotate_right)
    | (extract_lets +onlyGivenNames x1; clear_value (hx : x1 = _); clear hx)
    | with_reducible assumption
    | with_reducible exact Keeps.refl _ _
    | decide +kernel
    | with_reducible apply Keeps.putA
    | with_reducible apply Keeps.setBA
    | with_reducible apply Keeps.iteA

def State.rstSoft_w : Nat := State.warmReset_w F.RST_CAUSE_SOFT
theorem State.rstSoft_keeps (s : State) (v : Nat) : Keeps State.rstSoft_w s (s.rstSoft v) := by
  unfold State.rstSoft
  repeat' first
    | with_reducible assumption
    | with_reducible exact Keeps.refl _ _
    | decide +kernel
    | with_reducible apply Keeps.via (State.warmReset_keeps ..)
    | with_reducible apply Keeps.iteA

def State.coldBase_w : Nat := m_cold
theorem State.coldBase_keeps (s : State) : Keeps State.coldBase_w s s.coldBase := by
  have hf : Keeps (State.flashCut_w ||| State.fuseCut_w) s s.flashCut.fuseCut :=
    ((State.flashCut_keeps s).mono (by decide +kernel)).trans ((State.fuseCut_keeps _).mono (by decide +kernel))
  unfold State.coldBase
  dsimp only
  refine Keeps.putA (by decide +kernel) ?_
  refine Keeps.cold hf.pending (hf.now (by decide +kernel)) (hf.replies (by decide +kernel))
    (hf.lastResp (by decide +kernel)) (fun h => ?_)
  have h1 := hf.wf h
  exact ⟨rfl, rfl, rfl, rfl, h1.2.2.2.2.1, rfl, rfl, rfl, h1.2.2.2.2.2.2.2.2.1, rfl, rfl⟩

def State.porReset_w : Nat := State.coldBase_w
theorem State.porReset_keeps (s : State) : Keeps State.porReset_w s (s.porReset) := by
  unfold State.porReset
  repeat' first
    | with_reducible assumption
    | with_reducible exact Keeps.refl _ _
    | decide +kernel
    | with_reducible apply Keeps.via (State.coldBase_keeps ..)

theorem Keeps.insKeys {s t : State} (l : List (Nat × Nat)) (h : Keeps m_cold s t) :
    Keeps m_cold s (l.foldl (fun (t : State) p => { t with ff := insKey p.1 p.2 t.ff }) t) := by
  induction l generalizing t with
  | nil => exact h
  | cons p l ih => exact ih (h.trans (Keeps.setff _ (fun f _ o => absurd o (fm_on_cold f)) (fun w => keysRise_insKey _ _ _ w.1)))

def State.borReset_w : Nat := m_cold
theorem State.borReset_keeps (s : State) : Keeps State.borReset_w s s.borReset := by
  unfold State.borReset
  dsimp only
  have h1 := Keeps.insKeys (s.ff.filter (fun p => borKept.contains (p.1 % 2048))) (State.coldBase_keeps s)
  exact Keeps.iteA (Keeps.putA (by decide +kernel) (Keeps.setBA (by decide +kernel) (Keeps.setBA (by decide +kernel) h1)))
    (Keeps.setBA (by decide +kernel) (Keeps.setBA (by decide +kernel) h1))

def State.porRelease_w : Nat := fm H.BOOT_T0 ||| fm H.BOOT_PHASE
theorem State.porRelease_keeps (s : State) : Keeps State.porRelease_w s (s.porRelease) := by
  unfold State.porRelease
  repeat' first
    | (extract_lets +onlyGivenNames x1; clear_value (hx : x1 = _); refine Keeps.cut x1 ?_ (fun h => ?_); rw [hx]; clear hx x1; rotate_left; clear hx; rotate_right)
    | (extract_lets +onlyGivenNames x1; clear_value (hx : x1 = _); refine Keeps.cut1 x1 ?_ (fun h => ?_); rw [hx]; clear hx x1; rotate_left; clear hx; rotate_right)
    | (extract_lets +onlyGivenNames x1; clear_value (hx : x1 = _); refine Keeps.cut2 x1 ?_ (fun h => ?_); rw [hx]; clear hx x1; rotate_left; clear hx; rotate_right)
    | (extract_lets +onlyGivenNames x1; clear_value (hx : x1 = _); clear hx)
    | with_reducible assumption
    | with_reducible exact Keeps.refl _ _
    | decide +kernel
    | with_reducible apply Keeps.putA
    | with_reducible apply Keeps.iteA

end Sys2Proof.Machine
end

