-- ==== Sys2Proof/Laws/KeepsThermal.lean ====
section
/-!
SUPPORT. What every operation of Machine/Thermal.lean can change: its mask and its Keeps lemma.
-/

set_option Elab.async false
set_option linter.all false

namespace Sys2Proof.Machine

def State.shutRecPut_w : Nat := fm F.THM_SHUT_REC_BYTES
theorem State.shutRecPut_keeps (s : State) (l : List Byte) : Keeps State.shutRecPut_w s (s.shutRecPut l) := by
  unfold State.shutRecPut
  repeat' first
    | with_reducible assumption
    | with_reducible exact Keeps.refl _ _
    | decide +kernel
    | with_reducible apply Keeps.putA
    | with_reducible refine Keeps.eachA ?_ (fun _ _ => ?_)

def State.logFind_w : Nat := fm H.THM_SLOT ||| fm H.THM_LSEQ ||| fm F.THM_LOG_SEQ_SEQ ||| fm F.THM_LOG_STAT_FREE
theorem State.logFind_keeps (s : State) : Keeps State.logFind_w s (s.logFind) := by
  unfold State.logFind
  repeat' first
    | (extract_lets +onlyGivenNames x1; clear_value (hx : x1 = _); refine Keeps.cut x1 ?_ (fun h => ?_); rw [hx]; clear hx x1; rotate_left; clear hx; rotate_right)
    | (extract_lets +onlyGivenNames x1; clear_value (hx : x1 = _); refine Keeps.cut1 x1 ?_ (fun h => ?_); rw [hx]; clear hx x1; rotate_left; clear hx; rotate_right)
    | (extract_lets +onlyGivenNames x1; clear_value (hx : x1 = _); refine Keeps.cut2 x1 ?_ (fun h => ?_); rw [hx]; clear hx x1; rotate_left; clear hx; rotate_right)
    | (extract_lets +onlyGivenNames x1; clear_value (hx : x1 = _); clear hx)
    | with_reducible assumption
    | with_reducible exact Keeps.refl _ _
    | decide +kernel
    | with_reducible apply Keeps.putA
    | with_reducible refine Keeps.foldlA ?_ (fun _ _ => ?_)
    | with_reducible apply Keeps.iteA
    | split

def State.logWrite_w : Nat := fm H.THM_SLOT ||| fm H.THM_LSEQ ||| m_flash
theorem State.logWrite_keeps (s : State) (l : List Byte) : Keeps State.logWrite_w s (s.logWrite l) := by
  unfold State.logWrite
  repeat' first
    | (extract_lets +onlyGivenNames x1; clear_value (hx : x1 = _); refine Keeps.cut x1 ?_ (fun h => ?_); rw [hx]; clear hx x1; rotate_left; clear hx; rotate_right)
    | (extract_lets +onlyGivenNames x1; clear_value (hx : x1 = _); refine Keeps.cut1 x1 ?_ (fun h => ?_); rw [hx]; clear hx x1; rotate_left; clear hx; rotate_right)
    | (extract_lets +onlyGivenNames x1; clear_value (hx : x1 = _); refine Keeps.cut2 x1 ?_ (fun h => ?_); rw [hx]; clear hx x1; rotate_left; clear hx; rotate_right)
    | (extract_lets +onlyGivenNames x1; clear_value (hx : x1 = _); clear hx)
    | with_reducible assumption
    | with_reducible exact Keeps.refl _ _
    | decide +kernel
    | with_reducible apply Keeps.putA
    | with_reducible apply Keeps.flProgramA

def State.logOr_w : Nat := fm F.THM_LOG_STAT_SKIPPED ||| State.logWrite_w
theorem State.logOr_keeps (s : State) (l : List Byte) : Keeps State.logOr_w s (s.logOr l) := by
  unfold State.logOr
  repeat' first
    | with_reducible assumption
    | with_reducible exact Keeps.refl _ _
    | decide +kernel
    | with_reducible apply Keeps.incSatA
    | with_reducible apply Keeps.via (State.logWrite_keeps ..)
    | with_reducible apply Keeps.iteA

def State.logErase_w : Nat := fm F.THM_LOG_STAT_ERASE_SKIP ||| m_flash
theorem State.logErase_keeps (s : State) : Keeps State.logErase_w s (s.logErase) := by
  unfold State.logErase
  repeat' first
    | with_reducible assumption
    | with_reducible exact Keeps.refl _ _
    | decide +kernel
    | with_reducible apply Keeps.setBA
    | with_reducible apply Keeps.flEraseA
    | with_reducible apply Keeps.iteA

def State.logCommit_w : Nat := fm F.THM_LOG_STAT_REC_VALID ||| State.logWrite_w
theorem State.logCommit_keeps (s : State) : Keeps State.logCommit_w s (s.logCommit) := by
  unfold State.logCommit
  repeat' first
    | with_reducible assumption
    | with_reducible exact Keeps.refl _ _
    | decide +kernel
    | with_reducible apply Keeps.setBA
    | with_reducible apply Keeps.via (State.logWrite_keeps ..)
    | with_reducible apply Keeps.iteA

def State.logPend_w (f : Field) : Nat := fm f ||| State.logOr_w
theorem State.logPend_keeps (s : State) (f : Field) (i : Nat) : Keeps (State.logPend_w f) s (s.logPend f i) :=
  Keeps.iteA (Keeps.refl _ _) (Keeps.putA (Sub.or_left _ _) ((State.logOr_keeps ..).mono (Sub.or_right _ _)))

def State.logBroken_w : Nat := State.logPend_w H.THM_BRK_REC ||| State.logPend_w H.THM_TILE_REC
theorem State.logBroken_keeps (s : State) : Keeps State.logBroken_w s (s.logBroken) := by
  unfold State.logBroken
  repeat' first
    | with_reducible assumption
    | with_reducible exact Keeps.refl _ _
    | decide +kernel
    | with_reducible refine Keeps.eachA ?_ (fun _ _ => ?_)
    | with_reducible apply Keeps.via (State.logPend_keeps ..)

def State.logSteps_w : Nat := fm F.THM_LOG_STAT_COMMIT_PEND ||| fm H.THM_LOG_STEP ||| fm H.THM_LOG_NEXT_T |||
    State.logCommit_w ||| State.logBroken_w
theorem State.logSteps_keeps (s : State) : Keeps State.logSteps_w s (s.logSteps) := by
  unfold State.logSteps
  repeat' first
    | with_reducible assumption
    | with_reducible exact Keeps.refl _ _
    | decide +kernel
    | with_reducible apply Keeps.putA
    | with_reducible apply Keeps.setBA
    | with_reducible apply Keeps.via (State.logCommit_keeps ..)
    | with_reducible apply Keeps.via (State.logBroken_keeps ..)
    | with_reducible apply Keeps.iteA

def State.logMaintain_w : Nat := State.logFind_w ||| State.logErase_w ||| State.logSteps_w
theorem State.logMaintain_keeps (s : State) : Keeps State.logMaintain_w s (s.logMaintain) := by
  unfold State.logMaintain
  repeat' first
    | with_reducible assumption
    | with_reducible exact Keeps.refl _ _
    | decide +kernel
    | with_reducible apply Keeps.via (State.logFind_keeps ..)
    | with_reducible apply Keeps.via (State.logErase_keeps ..)
    | with_reducible apply Keeps.via (State.logSteps_keeps ..)
    | with_reducible apply Keeps.iteA

def State.logRetry_w : Nat := m_now ||| State.logSteps_w
theorem State.logRetry_keeps (s : State) : Keeps State.logRetry_w s (s.logRetry) := by
  unfold State.logRetry
  repeat' first
    | with_reducible assumption
    | with_reducible exact Keeps.refl _ _
    | decide +kernel
    | with_reducible apply Keeps.upToA
    | with_reducible apply Keeps.via (State.logSteps_keeps ..)
    | with_reducible apply Keeps.iteA

def State.enterHold_w : Nat := State.allSafe_w ||| State.warmFields_w ||| State.queuesOff_w |||
    fms (F.PORCH_STAT_STATE :: holdDomains) ||| State.trigCancel_w ||| (m_safe ||| m_events ||| m_accepted ||| m_outq |||
    m_replay ||| m_h2d ||| m_d2h ||| m_h2e ||| m_e2h ||| m_entries ||| m_cstore ||| m_csBodies ||| m_cellar ||| m_celErr |||
    m_scratch) ||| fms warmSite ||| State.enterMode_w ||| fm F.THM_LOG_STAT_HOLD_EXIT
theorem State.enterHold_keeps (s : State) : Keeps State.enterHold_w s s.enterHold := by
  unfold State.enterHold
  dsimp only
  refine Keeps.setBA (by decide +kernel) (Keeps.via (State.enterMode_keeps ..) (by decide +kernel)
    (Keeps.via (State.dropFields_keeps ..) (by decide +kernel) (Keeps.trans ?_
      (Keeps.c_safe_events_accepted_outq_replay_h2d _ _ _ _ _ _ _ _ _ _ _ _ _ _ _ (by decide +kernel)
        (fun _ => rfl) (fun _ => rfl) (fun _ => rfl) (fun _ => rfl) (fun _ => rfl)))))
  exact Keeps.via (State.trigCancel_keeps ..) (by decide +kernel) (Keeps.via (State.dropFields_keeps ..) (by decide +kernel)
    (Keeps.via (State.queuesOff_keeps ..) (by decide +kernel) (Keeps.via (State.warmFields_keeps ..) (by decide +kernel)
      ((State.allSafe_keeps ..).mono (by decide +kernel)))))

def State.shutdown_w : Nat := fm F.THM_LOG_STAT_REC_VALID ||| fm H.THM_HOLD_T0 ||| State.shutRecPut_w ||| State.enterHold_w
theorem State.shutdown_keeps (s : State) (sensor : Nat) : Keeps State.shutdown_w s (s.shutdown sensor) := by
  unfold State.shutdown
  repeat' first
    | (extract_lets +onlyGivenNames x1; clear_value (hx : x1 = _); refine Keeps.cut x1 ?_ (fun h => ?_); rw [hx]; clear hx x1; rotate_left; clear hx; rotate_right)
    | (extract_lets +onlyGivenNames x1; clear_value (hx : x1 = _); refine Keeps.cut1 x1 ?_ (fun h => ?_); rw [hx]; clear hx x1; rotate_left; clear hx; rotate_right)
    | (extract_lets +onlyGivenNames x1; clear_value (hx : x1 = _); refine Keeps.cut2 x1 ?_ (fun h => ?_); rw [hx]; clear hx x1; rotate_left; clear hx; rotate_right)
    | (extract_lets +onlyGivenNames x1; clear_value (hx : x1 = _); clear hx)
    | with_reducible assumption
    | with_reducible exact Keeps.refl _ _
    | decide +kernel
    | with_reducible apply Keeps.putA
    | with_reducible apply Keeps.setBA
    | with_reducible apply Keeps.via (State.shutRecPut_keeps ..)
    | with_reducible apply Keeps.via (State.enterHold_keeps ..)
    | with_reducible apply Keeps.iteA

def State.backToHold_w : Nat := fm H.THM_HOLD_T0 ||| State.enterHold_w
theorem State.backToHold_keeps (s : State) : Keeps State.backToHold_w s (s.backToHold) := by
  unfold State.backToHold
  repeat' first
    | with_reducible assumption
    | with_reducible exact Keeps.refl _ _
    | decide +kernel
    | with_reducible apply Keeps.putA
    | with_reducible apply Keeps.via (State.enterHold_keeps ..)

def State.holdCount_w : Nat := State.shutRecPut_w
theorem State.holdCount_keeps (s : State) : Keeps State.holdCount_w s (s.holdCount) := by
  unfold State.holdCount
  repeat' first
    | (extract_lets +onlyGivenNames x1; clear_value (hx : x1 = _); refine Keeps.cut x1 ?_ (fun h => ?_); rw [hx]; clear hx x1; rotate_left; clear hx; rotate_right)
    | (extract_lets +onlyGivenNames x1; clear_value (hx : x1 = _); refine Keeps.cut1 x1 ?_ (fun h => ?_); rw [hx]; clear hx x1; rotate_left; clear hx; rotate_right)
    | (extract_lets +onlyGivenNames x1; clear_value (hx : x1 = _); refine Keeps.cut2 x1 ?_ (fun h => ?_); rw [hx]; clear hx x1; rotate_left; clear hx; rotate_right)
    | (extract_lets +onlyGivenNames x1; clear_value (hx : x1 = _); clear hx)
    | with_reducible assumption
    | with_reducible exact Keeps.refl _ _
    | decide +kernel
    | with_reducible apply Keeps.via (State.shutRecPut_keeps ..)
    | with_reducible apply Keeps.iteA

def State.openPeak_w : Nat := m_free
theorem State.openPeak_keeps (s : State) : Keeps State.openPeak_w s (s.openPeak).2 := by
  unfold State.openPeak
  repeat' first
    | (extract_lets +onlyGivenNames x1; clear_value (hx : x1 = _); refine Keeps.cut x1 ?_ (fun h => ?_); rw [hx]; clear hx x1; rotate_left; clear hx; rotate_right)
    | (extract_lets +onlyGivenNames x1; clear_value (hx : x1 = _); refine Keeps.cut1 x1 ?_ (fun h => ?_); rw [hx]; clear hx x1; rotate_left; clear hx; rotate_right)
    | (extract_lets +onlyGivenNames x1; clear_value (hx : x1 = _); refine Keeps.cut2 x1 ?_ (fun h => ?_); rw [hx]; clear hx x1; rotate_left; clear hx; rotate_right)
    | (extract_lets +onlyGivenNames x1; clear_value (hx : x1 = _); clear hx)
    | with_reducible assumption
    | with_reducible exact Keeps.refl _ _
    | decide +kernel
    | with_reducible apply Keeps.drawA

def State.breakSensor_w : Nat := fm F.THM_TEMP_BROKEN ||| fm F.THM_TEMP_CAUSE ||| fm F.THM_TEMP_READING |||
    fm F.THM_BROKEN_LO_SENS ||| fm F.THM_BROKEN_HI_SENS ||| fm F.THM_STAT_BROKEN_ANY ||| fm H.THM_BRK_REC |||
    State.openPeak_w ||| State.irq_w ||| State.faultRaise_w
theorem State.breakSensor_keeps (s : State) (n cause : Nat) : Keeps State.breakSensor_w s (s.breakSensor n cause) := by
  unfold State.breakSensor
  repeat' first
    | (extract_lets +onlyGivenNames x1; clear_value (hx : x1 = _); refine Keeps.cut x1 ?_ (fun h => ?_); rw [hx]; clear hx x1; rotate_left; clear hx; rotate_right)
    | (extract_lets +onlyGivenNames x1; clear_value (hx : x1 = _); refine Keeps.cut1 x1 ?_ (fun h => ?_); rw [hx]; clear hx x1; rotate_left; clear hx; rotate_right)
    | (extract_lets +onlyGivenNames x1; clear_value (hx : x1 = _); refine Keeps.cut2 x1 ?_ (fun h => ?_); rw [hx]; clear hx x1; rotate_left; clear hx; rotate_right)
    | (extract_lets +onlyGivenNames x1; clear_value (hx : x1 = _); clear hx)
    | with_reducible assumption
    | with_reducible exact Keeps.refl _ _
    | decide +kernel
    | with_reducible apply Keeps.putA
    | with_reducible apply Keeps.setBA
    | with_reducible apply Keeps.via (State.openPeak_keeps ..)
    | with_reducible apply Keeps.via (State.irq_keeps ..)
    | with_reducible apply Keeps.via (State.faultRaise_keeps ..)
    | with_reducible apply Keeps.iteA

def State.tileOff_w : Nat := fm F.TDC_CTRL_ARMED ||| fm H.PD_TILE ||| fm H.PD_TILE_BARRED ||| State.safeStage_w |||
    State.seqStop_w ||| State.tdcQueueSet_w ||| State.acqCancel_w
theorem State.tileOff_keeps (s : State) (t : Nat) : Keeps State.tileOff_w s (s.tileOff t) := by
  unfold State.tileOff
  repeat' first
    | (extract_lets +onlyGivenNames x1; clear_value (hx : x1 = _); refine Keeps.cut x1 ?_ (fun h => ?_); rw [hx]; clear hx x1; rotate_left; clear hx; rotate_right)
    | (extract_lets +onlyGivenNames x1; clear_value (hx : x1 = _); refine Keeps.cut1 x1 ?_ (fun h => ?_); rw [hx]; clear hx x1; rotate_left; clear hx; rotate_right)
    | (extract_lets +onlyGivenNames x1; clear_value (hx : x1 = _); refine Keeps.cut2 x1 ?_ (fun h => ?_); rw [hx]; clear hx x1; rotate_left; clear hx; rotate_right)
    | (extract_lets +onlyGivenNames x1; clear_value (hx : x1 = _); clear hx)
    | with_reducible assumption
    | with_reducible exact Keeps.refl _ _
    | decide +kernel
    | with_reducible apply Keeps.setBA
    | with_reducible refine Keeps.eachA ?_ (fun _ _ => ?_)
    | with_reducible apply Keeps.via (State.safeStage_keeps ..)
    | with_reducible apply Keeps.via (State.seqStop_keeps ..)
    | with_reducible apply Keeps.via (State.tdcQueueSet_keeps ..)
    | with_reducible apply Keeps.via (State.acqCancel_keeps ..)

def State.tileShut_w : Nat := fm H.THM_TILE_REC ||| fm F.THM_STAT_TILE_OFF ||| State.openPeak_w ||| State.tileOff_w
theorem State.tileShut_keeps (s : State) (t sensor : Nat) : Keeps State.tileShut_w s (s.tileShut t sensor) := by
  unfold State.tileShut
  repeat' first
    | (extract_lets +onlyGivenNames x1; clear_value (hx : x1 = _); refine Keeps.cut x1 ?_ (fun h => ?_); rw [hx]; clear hx x1; rotate_left; clear hx; rotate_right)
    | (extract_lets +onlyGivenNames x1; clear_value (hx : x1 = _); refine Keeps.cut1 x1 ?_ (fun h => ?_); rw [hx]; clear hx x1; rotate_left; clear hx; rotate_right)
    | (extract_lets +onlyGivenNames x1; clear_value (hx : x1 = _); refine Keeps.cut2 x1 ?_ (fun h => ?_); rw [hx]; clear hx x1; rotate_left; clear hx; rotate_right)
    | (extract_lets +onlyGivenNames x1; clear_value (hx : x1 = _); clear hx)
    | with_reducible assumption
    | with_reducible exact Keeps.refl _ _
    | decide +kernel
    | with_reducible apply Keeps.putA
    | with_reducible apply Keeps.via (State.openPeak_keeps ..)
    | with_reducible apply Keeps.via (State.tileOff_keeps ..)
    | with_reducible apply Keeps.iteA

def State.tilesCheck_w : Nat := State.tileShut_w
theorem State.tilesCheck_keeps (s : State) (sensor : Nat → Nat) : Keeps State.tilesCheck_w s (s.tilesCheck sensor) := by
  unfold State.tilesCheck
  repeat' first
    | with_reducible assumption
    | with_reducible exact Keeps.refl _ _
    | decide +kernel
    | with_reducible refine Keeps.eachA ?_ (fun _ _ => ?_)
    | with_reducible apply Keeps.via (State.tileShut_keeps ..)

def State.sampleTake_w : Nat := fm H.THM_IMPL ||| fm F.THM_TEMP_READING ||| fm F.THM_STAT_TJ
theorem State.sampleTake_keeps (s : State) (raw : List SensorRaw) : Keeps State.sampleTake_w s (s.sampleTake raw).1 := by
  unfold State.sampleTake
  repeat' first
    | (extract_lets +onlyGivenNames x1; clear_value (hx : x1 = _); refine Keeps.cut x1 ?_ (fun h => ?_); rw [hx]; clear hx x1; rotate_left; clear hx; rotate_right)
    | (extract_lets +onlyGivenNames x1; clear_value (hx : x1 = _); refine Keeps.cut1 x1 ?_ (fun h => ?_); rw [hx]; clear hx x1; rotate_left; clear hx; rotate_right)
    | (extract_lets +onlyGivenNames x1; clear_value (hx : x1 = _); refine Keeps.cut2 x1 ?_ (fun h => ?_); rw [hx]; clear hx x1; rotate_left; clear hx; rotate_right)
    | (extract_lets +onlyGivenNames x1; clear_value (hx : x1 = _); clear hx)
    | with_reducible assumption
    | with_reducible exact Keeps.refl _ _
    | decide +kernel
    | with_reducible apply Keeps.putA
    | with_reducible apply Keeps.setBA
    | with_reducible apply Keeps.putIA
    | with_reducible refine Keeps.eachA ?_ (fun _ _ => ?_)

def State.sampleNext_w : Nat := fm F.THM_STAT_FAST ||| fm H.THM_NEXT_T
theorem State.sampleNext_keeps (s : State) : Keeps State.sampleNext_w s (s.sampleNext) := by
  unfold State.sampleNext
  repeat' first
    | (extract_lets +onlyGivenNames x1; clear_value (hx : x1 = _); refine Keeps.cut x1 ?_ (fun h => ?_); rw [hx]; clear hx x1; rotate_left; clear hx; rotate_right)
    | (extract_lets +onlyGivenNames x1; clear_value (hx : x1 = _); refine Keeps.cut1 x1 ?_ (fun h => ?_); rw [hx]; clear hx x1; rotate_left; clear hx; rotate_right)
    | (extract_lets +onlyGivenNames x1; clear_value (hx : x1 = _); refine Keeps.cut2 x1 ?_ (fun h => ?_); rw [hx]; clear hx x1; rotate_left; clear hx; rotate_right)
    | (extract_lets +onlyGivenNames x1; clear_value (hx : x1 = _); clear hx)
    | with_reducible assumption
    | with_reducible exact Keeps.refl _ _
    | decide +kernel
    | with_reducible apply Keeps.putA
    | with_reducible apply Keeps.setBA
    | with_reducible apply Keeps.iteA

def State.bandCount_w : Nat := fm F.THM_BAND_CNT_COUNT ||| State.irq_w
theorem State.bandCount_keeps (s : State) (sensor : Nat) : Keeps State.bandCount_w s (s.bandCount sensor) := by
  unfold State.bandCount
  repeat' first
    | (extract_lets +onlyGivenNames x1; clear_value (hx : x1 = _); refine Keeps.cut x1 ?_ (fun h => ?_); rw [hx]; clear hx x1; rotate_left; clear hx; rotate_right)
    | (extract_lets +onlyGivenNames x1; clear_value (hx : x1 = _); refine Keeps.cut1 x1 ?_ (fun h => ?_); rw [hx]; clear hx x1; rotate_left; clear hx; rotate_right)
    | (extract_lets +onlyGivenNames x1; clear_value (hx : x1 = _); refine Keeps.cut2 x1 ?_ (fun h => ?_); rw [hx]; clear hx x1; rotate_left; clear hx; rotate_right)
    | (extract_lets +onlyGivenNames x1; clear_value (hx : x1 = _); clear hx)
    | with_reducible assumption
    | with_reducible exact Keeps.refl _ _
    | decide +kernel
    | with_reducible apply Keeps.incWA
    | with_reducible apply Keeps.via (State.irq_keeps ..)

def State.celRate_w : Nat := fm H.CEL_FACTOR ||| fm F.THM_BAND_CEL_MR
theorem State.celRate_keeps (s : State) : Keeps State.celRate_w s (s.celRate) := by
  unfold State.celRate
  repeat' first
    | (extract_lets +onlyGivenNames x1; clear_value (hx : x1 = _); refine Keeps.cut x1 ?_ (fun h => ?_); rw [hx]; clear hx x1; rotate_left; clear hx; rotate_right)
    | (extract_lets +onlyGivenNames x1; clear_value (hx : x1 = _); refine Keeps.cut1 x1 ?_ (fun h => ?_); rw [hx]; clear hx x1; rotate_left; clear hx; rotate_right)
    | (extract_lets +onlyGivenNames x1; clear_value (hx : x1 = _); refine Keeps.cut2 x1 ?_ (fun h => ?_); rw [hx]; clear hx x1; rotate_left; clear hx; rotate_right)
    | (extract_lets +onlyGivenNames x1; clear_value (hx : x1 = _); clear hx)
    | with_reducible assumption
    | with_reducible exact Keeps.refl _ _
    | decide +kernel
    | with_reducible apply Keeps.putA
    | with_reducible apply Keeps.setBA

def State.bandCel_w : Nat := fm F.THM_BAND_CEL ||| State.celRate_w ||| State.bandCount_w
theorem State.bandCel_keeps (s : State) : Keeps State.bandCel_w s (s.bandCel) := by
  unfold State.bandCel
  repeat' first
    | (extract_lets +onlyGivenNames x1; clear_value (hx : x1 = _); refine Keeps.cut x1 ?_ (fun h => ?_); rw [hx]; clear hx x1; rotate_left; clear hx; rotate_right)
    | (extract_lets +onlyGivenNames x1; clear_value (hx : x1 = _); refine Keeps.cut1 x1 ?_ (fun h => ?_); rw [hx]; clear hx x1; rotate_left; clear hx; rotate_right)
    | (extract_lets +onlyGivenNames x1; clear_value (hx : x1 = _); refine Keeps.cut2 x1 ?_ (fun h => ?_); rw [hx]; clear hx x1; rotate_left; clear hx; rotate_right)
    | (extract_lets +onlyGivenNames x1; clear_value (hx : x1 = _); clear hx)
    | with_reducible assumption
    | with_reducible exact Keeps.refl _ _
    | decide +kernel
    | with_reducible apply Keeps.putA
    | with_reducible apply Keeps.via (State.celRate_keeps ..)
    | with_reducible apply Keeps.via (State.bandCount_keeps ..)
    | with_reducible apply Keeps.iteA

def State.bandLane_w : Nat := fm F.THM_BAND_LANE ||| fm H.PO_LANE_T ||| State.bandCount_w
theorem State.bandLane_keeps (s : State) : Keeps State.bandLane_w s (s.bandLane) := by
  unfold State.bandLane
  repeat' first
    | (extract_lets +onlyGivenNames x1; clear_value (hx : x1 = _); refine Keeps.cut x1 ?_ (fun h => ?_); rw [hx]; clear hx x1; rotate_left; clear hx; rotate_right)
    | (extract_lets +onlyGivenNames x1; clear_value (hx : x1 = _); refine Keeps.cut1 x1 ?_ (fun h => ?_); rw [hx]; clear hx x1; rotate_left; clear hx; rotate_right)
    | (extract_lets +onlyGivenNames x1; clear_value (hx : x1 = _); refine Keeps.cut2 x1 ?_ (fun h => ?_); rw [hx]; clear hx x1; rotate_left; clear hx; rotate_right)
    | (extract_lets +onlyGivenNames x1; clear_value (hx : x1 = _); clear hx)
    | with_reducible assumption
    | with_reducible exact Keeps.refl _ _
    | decide +kernel
    | with_reducible apply Keeps.putA
    | with_reducible apply Keeps.setDueA
    | with_reducible apply Keeps.noDueA
    | with_reducible refine Keeps.eachA ?_ (fun _ _ => ?_)
    | with_reducible apply Keeps.via (State.bandCount_keeps ..)
    | with_reducible apply Keeps.iteA

def State.bandTdc_w : Nat := fm F.THM_BAND_TDC ||| fm F.TDC_CTRL_BAND_PEND ||| fm H.TDC_TRIM ||| State.bandCount_w
theorem State.bandTdc_keeps (s : State) (t : Nat) : Keeps State.bandTdc_w s (s.bandTdc t) := by
  unfold State.bandTdc
  repeat' first
    | (extract_lets +onlyGivenNames x1; clear_value (hx : x1 = _); refine Keeps.cut x1 ?_ (fun h => ?_); rw [hx]; clear hx x1; rotate_left; clear hx; rotate_right)
    | (extract_lets +onlyGivenNames x1; clear_value (hx : x1 = _); refine Keeps.cut1 x1 ?_ (fun h => ?_); rw [hx]; clear hx x1; rotate_left; clear hx; rotate_right)
    | (extract_lets +onlyGivenNames x1; clear_value (hx : x1 = _); refine Keeps.cut2 x1 ?_ (fun h => ?_); rw [hx]; clear hx x1; rotate_left; clear hx; rotate_right)
    | (extract_lets +onlyGivenNames x1; clear_value (hx : x1 = _); clear hx)
    | with_reducible assumption
    | with_reducible exact Keeps.refl _ _
    | decide +kernel
    | with_reducible apply Keeps.putA
    | with_reducible apply Keeps.setBA
    | with_reducible refine Keeps.eachA ?_ (fun _ _ => ?_)
    | with_reducible apply Keeps.via (State.bandCount_keeps ..)
    | with_reducible apply Keeps.iteA

def State.tileDrift_w : Nat := fm F.TCAL_STAT_DRIFT ||| State.irq_w
theorem State.tileDrift_keeps (s : State) (t : Nat) : Keeps State.tileDrift_w s (s.tileDrift t) := by
  unfold State.tileDrift
  repeat' first
    | (extract_lets +onlyGivenNames x1; clear_value (hx : x1 = _); refine Keeps.cut x1 ?_ (fun h => ?_); rw [hx]; clear hx x1; rotate_left; clear hx; rotate_right)
    | (extract_lets +onlyGivenNames x1; clear_value (hx : x1 = _); refine Keeps.cut1 x1 ?_ (fun h => ?_); rw [hx]; clear hx x1; rotate_left; clear hx; rotate_right)
    | (extract_lets +onlyGivenNames x1; clear_value (hx : x1 = _); refine Keeps.cut2 x1 ?_ (fun h => ?_); rw [hx]; clear hx x1; rotate_left; clear hx; rotate_right)
    | (extract_lets +onlyGivenNames x1; clear_value (hx : x1 = _); clear hx)
    | with_reducible assumption
    | with_reducible exact Keeps.refl _ _
    | decide +kernel
    | with_reducible apply Keeps.setBA
    | with_reducible apply Keeps.via (State.irq_keeps ..)
    | with_reducible apply Keeps.iteA

def State.warnCheck_w : Nat := fm F.THM_STAT_WARN ||| fm F.MODE_STAT_WARN ||| State.irq_w ||| State.wakeIf_w
theorem State.warnCheck_keeps (s : State) : Keeps State.warnCheck_w s (s.warnCheck) := by
  unfold State.warnCheck
  repeat' first
    | (extract_lets +onlyGivenNames x1; clear_value (hx : x1 = _); refine Keeps.cut x1 ?_ (fun h => ?_); rw [hx]; clear hx x1; rotate_left; clear hx; rotate_right)
    | (extract_lets +onlyGivenNames x1; clear_value (hx : x1 = _); refine Keeps.cut1 x1 ?_ (fun h => ?_); rw [hx]; clear hx x1; rotate_left; clear hx; rotate_right)
    | (extract_lets +onlyGivenNames x1; clear_value (hx : x1 = _); refine Keeps.cut2 x1 ?_ (fun h => ?_); rw [hx]; clear hx x1; rotate_left; clear hx; rotate_right)
    | (extract_lets +onlyGivenNames x1; clear_value (hx : x1 = _); clear hx)
    | with_reducible assumption
    | with_reducible exact Keeps.refl _ _
    | decide +kernel
    | with_reducible apply Keeps.setBA
    | with_reducible apply Keeps.via (State.irq_keeps ..)
    | with_reducible apply Keeps.via (State.wakeIf_keeps ..)
    | with_reducible apply Keeps.iteA

def State.throttleRise_w : Nat := fm F.THM_STAT_THROTTLE ||| fm F.MODE_STAT_THROTTLE ||| fm F.THM_THR_EPISODES |||
    fm H.THM_THR_T0 ||| fm H.THM_THR_REC ||| fm H.THM_THR_PEAK ||| fm H.ST_THR ||| State.irq_w
theorem State.throttleRise_keeps (s : State) : Keeps State.throttleRise_w s (s.throttleRise) := by
  unfold State.throttleRise
  repeat' first
    | (extract_lets +onlyGivenNames x1; clear_value (hx : x1 = _); refine Keeps.cut x1 ?_ (fun h => ?_); rw [hx]; clear hx x1; rotate_left; clear hx; rotate_right)
    | (extract_lets +onlyGivenNames x1; clear_value (hx : x1 = _); refine Keeps.cut1 x1 ?_ (fun h => ?_); rw [hx]; clear hx x1; rotate_left; clear hx; rotate_right)
    | (extract_lets +onlyGivenNames x1; clear_value (hx : x1 = _); refine Keeps.cut2 x1 ?_ (fun h => ?_); rw [hx]; clear hx x1; rotate_left; clear hx; rotate_right)
    | (extract_lets +onlyGivenNames x1; clear_value (hx : x1 = _); clear hx)
    | with_reducible assumption
    | with_reducible exact Keeps.refl _ _
    | decide +kernel
    | with_reducible apply Keeps.putA
    | with_reducible apply Keeps.setBA
    | with_reducible apply Keeps.putIA
    | with_reducible apply Keeps.incWA
    | with_reducible refine Keeps.eachA ?_ (fun _ _ => ?_)
    | with_reducible apply Keeps.via (State.irq_keeps ..)

def State.throttleFall_w : Nat := fm F.THM_STAT_THROTTLE ||| fm F.MODE_STAT_THROTTLE ||| fm F.THM_THR_MS_MS |||
    State.logOr_w ||| State.irq_w
theorem State.throttleFall_keeps (s : State) : Keeps State.throttleFall_w s (s.throttleFall) := by
  unfold State.throttleFall
  repeat' first
    | (extract_lets +onlyGivenNames x1; clear_value (hx : x1 = _); refine Keeps.cut x1 ?_ (fun h => ?_); rw [hx]; clear hx x1; rotate_left; clear hx; rotate_right)
    | (extract_lets +onlyGivenNames x1; clear_value (hx : x1 = _); refine Keeps.cut1 x1 ?_ (fun h => ?_); rw [hx]; clear hx x1; rotate_left; clear hx; rotate_right)
    | (extract_lets +onlyGivenNames x1; clear_value (hx : x1 = _); refine Keeps.cut2 x1 ?_ (fun h => ?_); rw [hx]; clear hx x1; rotate_left; clear hx; rotate_right)
    | (extract_lets +onlyGivenNames x1; clear_value (hx : x1 = _); clear hx)
    | with_reducible assumption
    | with_reducible exact Keeps.refl _ _
    | decide +kernel
    | with_reducible apply Keeps.setBA
    | with_reducible apply Keeps.addSatA
    | with_reducible apply Keeps.via (State.logOr_keeps ..)
    | with_reducible apply Keeps.via (State.irq_keeps ..)
    | with_reducible apply Keeps.iteA

def State.throttleCheck_w : Nat := fm H.THM_THR_PEAK ||| State.throttleFall_w ||| State.throttleRise_w
theorem State.throttleCheck_keeps (s : State) : Keeps State.throttleCheck_w s (s.throttleCheck) := by
  unfold State.throttleCheck
  repeat' first
    | (extract_lets +onlyGivenNames x1; clear_value (hx : x1 = _); refine Keeps.cut x1 ?_ (fun h => ?_); rw [hx]; clear hx x1; rotate_left; clear hx; rotate_right)
    | (extract_lets +onlyGivenNames x1; clear_value (hx : x1 = _); refine Keeps.cut1 x1 ?_ (fun h => ?_); rw [hx]; clear hx x1; rotate_left; clear hx; rotate_right)
    | (extract_lets +onlyGivenNames x1; clear_value (hx : x1 = _); refine Keeps.cut2 x1 ?_ (fun h => ?_); rw [hx]; clear hx x1; rotate_left; clear hx; rotate_right)
    | (extract_lets +onlyGivenNames x1; clear_value (hx : x1 = _); clear hx)
    | with_reducible assumption
    | with_reducible exact Keeps.refl _ _
    | decide +kernel
    | with_reducible apply Keeps.putIA
    | with_reducible apply Keeps.via (State.throttleFall_keeps ..)
    | with_reducible apply Keeps.via (State.throttleRise_keeps ..)
    | with_reducible apply Keeps.iteA

def State.sampleActs_w : Nat := State.warnCheck_w ||| State.throttleCheck_w ||| State.bandCel_w ||| State.bandLane_w |||
    State.bandTdc_w ||| State.tileDrift_w ||| State.driftCheck_w
theorem State.sampleActs_keeps (s : State) : Keeps State.sampleActs_w s (s.sampleActs) := by
  unfold State.sampleActs
  repeat' first
    | (extract_lets +onlyGivenNames x1; clear_value (hx : x1 = _); refine Keeps.cut x1 ?_ (fun h => ?_); rw [hx]; clear hx x1; rotate_left; clear hx; rotate_right)
    | (extract_lets +onlyGivenNames x1; clear_value (hx : x1 = _); refine Keeps.cut1 x1 ?_ (fun h => ?_); rw [hx]; clear hx x1; rotate_left; clear hx; rotate_right)
    | (extract_lets +onlyGivenNames x1; clear_value (hx : x1 = _); refine Keeps.cut2 x1 ?_ (fun h => ?_); rw [hx]; clear hx x1; rotate_left; clear hx; rotate_right)
    | (extract_lets +onlyGivenNames x1; clear_value (hx : x1 = _); clear hx)
    | with_reducible assumption
    | with_reducible exact Keeps.refl _ _
    | decide +kernel
    | with_reducible refine Keeps.eachA ?_ (fun _ _ => ?_)
    | with_reducible apply Keeps.via (State.warnCheck_keeps ..)
    | with_reducible apply Keeps.via (State.throttleCheck_keeps ..)
    | with_reducible apply Keeps.via (State.bandCel_keeps ..)
    | with_reducible apply Keeps.via (State.bandLane_keeps ..)
    | with_reducible apply Keeps.via (State.bandTdc_keeps ..)
    | with_reducible apply Keeps.via (State.tileDrift_keeps ..)
    | with_reducible apply Keeps.via (State.driftCheck_keeps ..)

def State.tmax_w : Nat := fm F.THM_TMAX_MAX
theorem State.tmax_keeps (s : State) : Keeps State.tmax_w s (s.tmax) := by
  unfold State.tmax
  repeat' first
    | with_reducible assumption
    | with_reducible exact Keeps.refl _ _
    | decide +kernel
    | with_reducible apply Keeps.putIA
    | with_reducible apply Keeps.iteA

def State.sampleLive_w : Nat := fm H.THM_SEEN ||| State.sampleTake_w ||| State.tmax_w ||| State.breakSensor_w |||
    State.sampleNext_w ||| State.shutdown_w ||| State.backToHold_w ||| State.tilesCheck_w ||| State.sampleActs_w
theorem State.sampleLive_keeps (s : State) (raw : List SensorRaw) : Keeps State.sampleLive_w s (s.sampleLive raw) := by
  unfold State.sampleLive
  repeat' first
    | (extract_lets +onlyGivenNames x1; clear_value (hx : x1 = _); refine Keeps.cut x1 ?_ (fun h => ?_); rw [hx]; clear hx x1; rotate_left; clear hx; rotate_right)
    | (extract_lets +onlyGivenNames x1; clear_value (hx : x1 = _); refine Keeps.cut1 x1 ?_ (fun h => ?_); rw [hx]; clear hx x1; rotate_left; clear hx; rotate_right)
    | (extract_lets +onlyGivenNames x1; clear_value (hx : x1 = _); refine Keeps.cut2 x1 ?_ (fun h => ?_); rw [hx]; clear hx x1; rotate_left; clear hx; rotate_right)
    | (extract_lets +onlyGivenNames x1; clear_value (hx : x1 = _); clear hx)
    | with_reducible assumption
    | with_reducible exact Keeps.refl _ _
    | decide +kernel
    | with_reducible apply Keeps.setBA
    | with_reducible refine Keeps.eachA ?_ (fun _ _ => ?_)
    | with_reducible apply Keeps.via (State.sampleTake_keeps ..)
    | with_reducible apply Keeps.via (State.tmax_keeps ..)
    | with_reducible apply Keeps.via (State.breakSensor_keeps ..)
    | with_reducible apply Keeps.via (State.sampleNext_keeps ..)
    | with_reducible apply Keeps.via (State.shutdown_keeps ..)
    | with_reducible apply Keeps.via (State.backToHold_keeps ..)
    | with_reducible apply Keeps.via (State.tilesCheck_keeps ..)
    | with_reducible apply Keeps.via (State.sampleActs_keeps ..)
    | with_reducible apply Keeps.iteA

def State.chimneySample_w : Nat := fm F.THM_TEMP_READING ||| fm F.THM_STAT_TJ ||| m_now ||| State.holdCount_w |||
    State.sampleNext_w ||| State.sampleLive_w
theorem State.chimneySample_keeps (s : State) (raw : List SensorRaw) : Keeps State.chimneySample_w s (s.chimneySample raw) := by
  unfold State.chimneySample
  repeat' first
    | (extract_lets +onlyGivenNames x1; clear_value (hx : x1 = _); refine Keeps.cut x1 ?_ (fun h => ?_); rw [hx]; clear hx x1; rotate_left; clear hx; rotate_right)
    | (extract_lets +onlyGivenNames x1; clear_value (hx : x1 = _); refine Keeps.cut1 x1 ?_ (fun h => ?_); rw [hx]; clear hx x1; rotate_left; clear hx; rotate_right)
    | (extract_lets +onlyGivenNames x1; clear_value (hx : x1 = _); refine Keeps.cut2 x1 ?_ (fun h => ?_); rw [hx]; clear hx x1; rotate_left; clear hx; rotate_right)
    | (extract_lets +onlyGivenNames x1; clear_value (hx : x1 = _); clear hx)
    | with_reducible assumption
    | with_reducible exact Keeps.refl _ _
    | decide +kernel
    | with_reducible apply Keeps.putIA
    | with_reducible apply Keeps.upToA
    | with_reducible refine Keeps.eachA ?_ (fun _ _ => ?_)
    | with_reducible apply Keeps.via (State.holdCount_keeps ..)
    | with_reducible apply Keeps.via (State.sampleNext_keeps ..)
    | with_reducible apply Keeps.via (State.sampleLive_keeps ..)
    | with_reducible apply Keeps.iteA

def State.refreshReport_w : Nat := fm H.CEL_REPORT ||| State.celRate_w
theorem State.refreshReport_keeps (s : State) (rate : Nat) : Keeps State.refreshReport_w s (s.refreshReport rate) := by
  unfold State.refreshReport
  repeat' first
    | with_reducible assumption
    | with_reducible exact Keeps.refl _ _
    | decide +kernel
    | with_reducible apply Keeps.putA
    | with_reducible apply Keeps.via (State.celRate_keeps ..)
    | with_reducible apply Keeps.iteA

def State.forceReading_w : Nat := fm F.THM_TEMP_FORCED ||| fm H.THM_FORCE_VAL ||| fm H.THM_FORCE_END
theorem State.forceReading_keeps (s : State) (n v holdMs : Nat) : Keeps State.forceReading_w s (s.forceReading n v holdMs) := by
  unfold State.forceReading
  repeat' first
    | (extract_lets +onlyGivenNames x1; clear_value (hx : x1 = _); refine Keeps.cut x1 ?_ (fun h => ?_); rw [hx]; clear hx x1; rotate_left; clear hx; rotate_right)
    | (extract_lets +onlyGivenNames x1; clear_value (hx : x1 = _); refine Keeps.cut1 x1 ?_ (fun h => ?_); rw [hx]; clear hx x1; rotate_left; clear hx; rotate_right)
    | (extract_lets +onlyGivenNames x1; clear_value (hx : x1 = _); refine Keeps.cut2 x1 ?_ (fun h => ?_); rw [hx]; clear hx x1; rotate_left; clear hx; rotate_right)
    | (extract_lets +onlyGivenNames x1; clear_value (hx : x1 = _); clear hx)
    | with_reducible assumption
    | with_reducible exact Keeps.refl _ _
    | decide +kernel
    | with_reducible apply Keeps.putA
    | with_reducible apply Keeps.setBA
    | with_reducible apply Keeps.setDueA
    | with_reducible apply Keeps.noDueA
    | with_reducible apply Keeps.iteA

def State.forceExpiry_w : Nat := fm F.THM_TEMP_FORCED ||| fm H.THM_FORCE_END ||| m_now
theorem State.forceExpiry_keeps (s : State) (n : Nat) : Keeps State.forceExpiry_w s (s.forceExpiry n) := by
  unfold State.forceExpiry
  repeat' first
    | with_reducible assumption
    | with_reducible exact Keeps.refl _ _
    | decide +kernel
    | with_reducible apply Keeps.setBA
    | with_reducible apply Keeps.noDueA
    | with_reducible apply Keeps.upToA
    | split

def State.forceBroken_w : Nat := State.breakSensor_w ||| State.shutdown_w ||| State.tilesCheck_w
theorem State.forceBroken_keeps (s : State) (n cause : Nat) : Keeps State.forceBroken_w s (s.forceBroken n cause) := by
  unfold State.forceBroken
  repeat' first
    | (extract_lets +onlyGivenNames x1; clear_value (hx : x1 = _); refine Keeps.cut x1 ?_ (fun h => ?_); rw [hx]; clear hx x1; rotate_left; clear hx; rotate_right)
    | (extract_lets +onlyGivenNames x1; clear_value (hx : x1 = _); refine Keeps.cut1 x1 ?_ (fun h => ?_); rw [hx]; clear hx x1; rotate_left; clear hx; rotate_right)
    | (extract_lets +onlyGivenNames x1; clear_value (hx : x1 = _); refine Keeps.cut2 x1 ?_ (fun h => ?_); rw [hx]; clear hx x1; rotate_left; clear hx; rotate_right)
    | (extract_lets +onlyGivenNames x1; clear_value (hx : x1 = _); clear hx)
    | with_reducible assumption
    | with_reducible exact Keeps.refl _ _
    | decide +kernel
    | with_reducible apply Keeps.via (State.breakSensor_keeps ..)
    | with_reducible apply Keeps.via (State.shutdown_keeps ..)
    | with_reducible apply Keeps.via (State.tilesCheck_keeps ..)
    | with_reducible apply Keeps.iteA

end Sys2Proof.Machine
end

