-- ==== Sys2Proof/Laws/KeepsSecurity.lean ====
section
/-!
SUPPORT. What every operation of Machine/Security.lean can change: its mask and its Keeps lemma.
-/

set_option Elab.async false
set_option linter.all false

namespace Sys2Proof.Machine

def State.secLoad_w : Nat := fm H.SEC_SPOIL ||| fm F.SEC_STAT_LC_STATE ||| fm F.SEC_STAT_SLOT_EMPTY |||
    fm F.SEC_STAT_SLOT_REVOKED ||| fm F.SEC_FUSE_STAT_RB_FREE ||| fm F.SEC_FUSE_STAT_LC_FREE |||
    fm F.SEC_FUSE_STAT_SPOILED ||| fm F.CFG_ROLLBACK_FUSE_CTR ||| fm F.SEC_STAT_KEY_LOADED
theorem State.secLoad_keeps (s : State) (spoiled : Option Nat) : Keeps State.secLoad_w s (s.secLoad spoiled) := by
  unfold State.secLoad
  repeat' first
    | (extract_lets +onlyGivenNames x1; clear_value (hx : x1 = _); refine Keeps.cut x1 ?_ (fun h => ?_); rw [hx]; clear hx x1; rotate_left; clear hx; rotate_right)
    | (extract_lets +onlyGivenNames x1; clear_value (hx : x1 = _); refine Keeps.cut1 x1 ?_ (fun h => ?_); rw [hx]; clear hx x1; rotate_left; clear hx; rotate_right)
    | (extract_lets +onlyGivenNames x1; clear_value (hx : x1 = _); refine Keeps.cut2 x1 ?_ (fun h => ?_); rw [hx]; clear hx x1; rotate_left; clear hx; rotate_right)
    | (extract_lets +onlyGivenNames x1; clear_value (hx : x1 = _); clear hx)
    | with_reducible assumption
    | with_reducible exact Keeps.refl _ _
    | decide +kernel
    | with_reducible apply Keeps.putA
    | with_reducible apply Keeps.setBA
    | split

def State.progRefused_w : Nat := fm F.SEC_STAT_PROG_RES ||| State.bad_w
theorem State.progRefused_keeps (s : State) (r : Nat) : Keeps State.progRefused_w s (s.progRefused r).1 := by
  unfold State.progRefused
  repeat' first
    | with_reducible assumption
    | with_reducible exact Keeps.refl _ _
    | decide +kernel
    | with_reducible apply Keeps.putA
    | with_reducible apply Keeps.via (State.bad_keeps ..)

def State.progStart_w : Nat := fm F.SEC_STAT_BUSY ||| fm H.SEC_PROG_BLK ||| fm H.SEC_PROG_D ||| fm H.SEC_PROG_END |||
    fm H.SEC_PROG_LC ||| fm F.SEC_STAT_PROG_RES ||| State.progRefused_w ||| State.ok_w
theorem State.progStart_keeps (s : State) (blocks : List Nat) (words : List Nat) (isLc : Bool) : Keeps State.progStart_w s (s.progStart blocks words isLc).1 := by
  unfold State.progStart
  repeat' first
    | (extract_lets +onlyGivenNames x1; clear_value (hx : x1 = _); refine Keeps.cut x1 ?_ (fun h => ?_); rw [hx]; clear hx x1; rotate_left; clear hx; rotate_right)
    | (extract_lets +onlyGivenNames x1; clear_value (hx : x1 = _); refine Keeps.cut1 x1 ?_ (fun h => ?_); rw [hx]; clear hx x1; rotate_left; clear hx; rotate_right)
    | (extract_lets +onlyGivenNames x1; clear_value (hx : x1 = _); refine Keeps.cut2 x1 ?_ (fun h => ?_); rw [hx]; clear hx x1; rotate_left; clear hx; rotate_right)
    | (extract_lets +onlyGivenNames x1; clear_value (hx : x1 = _); clear hx)
    | with_reducible assumption
    | with_reducible exact Keeps.refl _ _
    | decide +kernel
    | with_reducible apply Keeps.putA
    | with_reducible apply Keeps.setBA
    | with_reducible apply Keeps.setDueA
    | with_reducible apply Keeps.via (State.progRefused_keeps ..)
    | with_reducible apply Keeps.via (State.ok_keeps ..)
    | with_reducible apply Keeps.iteA
    | with_reducible apply Keeps.ite1
    | split

def State.progDone_w : Nat := fm F.SEC_STAT_BUSY ||| fm H.SEC_PROG_END ||| fm H.SEC_PROG_LC ||| fm H.RST_SOFT_DUE |||
    m_now ||| m_free ||| State.fuseOr_w
theorem State.progDone_keeps (s : State) (good : Bool) : Keeps State.progDone_w s (s.progDone good) := by
  unfold State.progDone
  repeat' first
    | (extract_lets +onlyGivenNames x1; clear_value (hx : x1 = _); refine Keeps.cut x1 ?_ (fun h => ?_); rw [hx]; clear hx x1; rotate_left; clear hx; rotate_right)
    | (extract_lets +onlyGivenNames x1; clear_value (hx : x1 = _); refine Keeps.cut1 x1 ?_ (fun h => ?_); rw [hx]; clear hx x1; rotate_left; clear hx; rotate_right)
    | (extract_lets +onlyGivenNames x1; clear_value (hx : x1 = _); refine Keeps.cut2 x1 ?_ (fun h => ?_); rw [hx]; clear hx x1; rotate_left; clear hx; rotate_right)
    | (extract_lets +onlyGivenNames x1; clear_value (hx : x1 = _); clear hx)
    | with_reducible assumption
    | with_reducible exact Keeps.refl _ _
    | decide +kernel
    | with_reducible apply Keeps.setBA
    | with_reducible apply Keeps.setDueA
    | with_reducible apply Keeps.noDueA
    | with_reducible apply Keeps.drawA
    | with_reducible apply Keeps.upToA
    | with_reducible refine Keeps.eachA ?_ (fun _ _ => ?_)
    | with_reducible apply Keeps.via (State.fuseOr_keeps ..)
    | with_reducible apply Keeps.iteA
    | split

def State.rbCommit_w : Nat := State.bad_w ||| State.ok_w ||| State.progRefused_w ||| State.progStart_w
theorem State.rbCommit_keeps (s : State) (v : Nat) : Keeps State.rbCommit_w s (s.rbCommit v).1 := by
  unfold State.rbCommit
  repeat' first
    | (extract_lets +onlyGivenNames x1; clear_value (hx : x1 = _); refine Keeps.cut x1 ?_ (fun h => ?_); rw [hx]; clear hx x1; rotate_left; clear hx; rotate_right)
    | (extract_lets +onlyGivenNames x1; clear_value (hx : x1 = _); refine Keeps.cut1 x1 ?_ (fun h => ?_); rw [hx]; clear hx x1; rotate_left; clear hx; rotate_right)
    | (extract_lets +onlyGivenNames x1; clear_value (hx : x1 = _); refine Keeps.cut2 x1 ?_ (fun h => ?_); rw [hx]; clear hx x1; rotate_left; clear hx; rotate_right)
    | (extract_lets +onlyGivenNames x1; clear_value (hx : x1 = _); clear hx)
    | with_reducible assumption
    | with_reducible exact Keeps.refl _ _
    | decide +kernel
    | with_reducible apply Keeps.via (State.bad_keeps ..)
    | with_reducible apply Keeps.via (State.ok_keeps ..)
    | with_reducible apply Keeps.via (State.progRefused_keeps ..)
    | with_reducible apply Keeps.via (State.progStart_keeps ..)
    | with_reducible apply Keeps.iteA
    | with_reducible apply Keeps.ite1

def State.lcReq_w : Nat := State.bad_w ||| State.progRefused_w ||| State.progStart_w
theorem State.lcReq_keeps (s : State) (v : Nat) : Keeps State.lcReq_w s (s.lcReq v).1 := by
  unfold State.lcReq
  repeat' first
    | (extract_lets +onlyGivenNames x1; clear_value (hx : x1 = _); refine Keeps.cut x1 ?_ (fun h => ?_); rw [hx]; clear hx x1; rotate_left; clear hx; rotate_right)
    | (extract_lets +onlyGivenNames x1; clear_value (hx : x1 = _); refine Keeps.cut1 x1 ?_ (fun h => ?_); rw [hx]; clear hx x1; rotate_left; clear hx; rotate_right)
    | (extract_lets +onlyGivenNames x1; clear_value (hx : x1 = _); refine Keeps.cut2 x1 ?_ (fun h => ?_); rw [hx]; clear hx x1; rotate_left; clear hx; rotate_right)
    | (extract_lets +onlyGivenNames x1; clear_value (hx : x1 = _); clear hx)
    | with_reducible assumption
    | with_reducible exact Keeps.refl _ _
    | decide +kernel
    | with_reducible apply Keeps.via (State.bad_keeps ..)
    | with_reducible apply Keeps.via (State.progRefused_keeps ..)
    | with_reducible apply Keeps.via (State.progStart_keeps ..)
    | with_reducible apply Keeps.iteA
    | with_reducible apply Keeps.ite1

def State.provClear_w : Nat := State.dropField_w F.SEC_PROV_DATA_WORD
theorem State.provClear_keeps (s : State) : Keeps State.provClear_w s (s.provClear) := by
  unfold State.provClear
  repeat' first
    | with_reducible assumption
    | with_reducible exact Keeps.refl _ _
    | decide +kernel
    | with_reducible apply Keeps.via (State.dropField_keeps ..)

def State.provCmd_w : Nat := State.progRefused_w ||| State.progStart_w ||| State.bad_w ||| State.ok_w ||| State.provClear_w
theorem State.provCmd_keeps (s : State) (v : Nat) : Keeps State.provCmd_w s (s.provCmd v).1 := by
  unfold State.provCmd
  repeat' first
    | (extract_lets +onlyGivenNames x1; clear_value (hx : x1 = _); refine Keeps.cut x1 ?_ (fun h => ?_); rw [hx]; clear hx x1; rotate_left; clear hx; rotate_right)
    | (extract_lets +onlyGivenNames x1; clear_value (hx : x1 = _); refine Keeps.cut1 x1 ?_ (fun h => ?_); rw [hx]; clear hx x1; rotate_left; clear hx; rotate_right)
    | (extract_lets +onlyGivenNames x1; clear_value (hx : x1 = _); refine Keeps.cut2 x1 ?_ (fun h => ?_); rw [hx]; clear hx x1; rotate_left; clear hx; rotate_right)
    | (extract_lets +onlyGivenNames x1; clear_value (hx : x1 = _); clear hx)
    | with_reducible assumption
    | with_reducible exact Keeps.refl _ _
    | decide +kernel
    | with_reducible apply Keeps.via (State.progRefused_keeps ..)
    | with_reducible apply Keeps.via (State.progStart_keeps ..)
    | with_reducible apply Keeps.via (State.bad_keeps ..)
    | with_reducible apply Keeps.via (State.ok_keeps ..)
    | with_reducible apply Keeps.via (State.provClear_keeps ..)
    | with_reducible apply Keeps.iteA
    | with_reducible apply Keeps.ite1

def State.secWipe_w : Nat := State.bad_w ||| State.wipeStart_w ||| State.ok_w
theorem State.secWipe_keeps (s : State) (v : Nat) : Keeps State.secWipe_w s (s.secWipe v).1 := by
  unfold State.secWipe
  repeat' first
    | with_reducible assumption
    | with_reducible exact Keeps.refl _ _
    | decide +kernel
    | with_reducible apply Keeps.via (State.bad_keeps ..)
    | with_reducible apply Keeps.via (State.wipeStart_keeps ..)
    | with_reducible apply Keeps.via (State.ok_keeps ..)
    | with_reducible apply Keeps.iteA
    | with_reducible apply Keeps.ite1

def State.wipeDone_w : Nat := fm H.WIPE_END ||| m_now ||| State.wipeNow_w
theorem State.wipeDone_keeps (s : State) : Keeps State.wipeDone_w s (s.wipeDone) := by
  unfold State.wipeDone
  repeat' first
    | with_reducible assumption
    | with_reducible exact Keeps.refl _ _
    | decide +kernel
    | with_reducible apply Keeps.noDueA
    | with_reducible apply Keeps.upToA
    | with_reducible apply Keeps.via (State.wipeNow_keeps ..)
    | split

def State.nonceDraw_w : Nat := fm F.SEC_DBG_NONCE_NONCE ||| m_free
theorem State.nonceDraw_keeps (s : State) : Keeps State.nonceDraw_w s (s.nonceDraw) := by
  unfold State.nonceDraw
  repeat' first
    | (extract_lets +onlyGivenNames x1; clear_value (hx : x1 = _); refine Keeps.cut x1 ?_ (fun h => ?_); rw [hx]; clear hx x1; rotate_left; clear hx; rotate_right)
    | (extract_lets +onlyGivenNames x1; clear_value (hx : x1 = _); refine Keeps.cut1 x1 ?_ (fun h => ?_); rw [hx]; clear hx x1; rotate_left; clear hx; rotate_right)
    | (extract_lets +onlyGivenNames x1; clear_value (hx : x1 = _); refine Keeps.cut2 x1 ?_ (fun h => ?_); rw [hx]; clear hx x1; rotate_left; clear hx; rotate_right)
    | (extract_lets +onlyGivenNames x1; clear_value (hx : x1 = _); clear hx)
    | with_reducible assumption
    | with_reducible exact Keeps.refl _ _
    | decide +kernel
    | with_reducible apply Keeps.putA
    | with_reducible apply Keeps.drawA
    | with_reducible refine Keeps.eachA ?_ (fun _ _ => ?_)

def State.tamperAct_w : Nat := State.nonceDraw_w ||| fm F.SEC_STAT_TAMPER ||| fm F.SEC_DBG_CTRL_RIGHTS ||| fm H.SEC_UNLOCK_END |||
    fm F.SEC_DBG_CTRL_RESULT ||| fm F.SEC_STAT_KEY_LOADED ||| State.wipeStart_w ||| State.faultRaise_w ||| State.wakeIf_w
theorem State.tamperAct_keeps (s : State) : Keeps State.tamperAct_w s (s.tamperAct) := by
  unfold State.tamperAct
  repeat' first
    | (extract_lets +onlyGivenNames x1; clear_value (hx : x1 = _); refine Keeps.cut x1 ?_ (fun h => ?_); rw [hx]; clear hx x1; rotate_left; clear hx; rotate_right)
    | (extract_lets +onlyGivenNames x1; clear_value (hx : x1 = _); refine Keeps.cut1 x1 ?_ (fun h => ?_); rw [hx]; clear hx x1; rotate_left; clear hx; rotate_right)
    | (extract_lets +onlyGivenNames x1; clear_value (hx : x1 = _); refine Keeps.cut2 x1 ?_ (fun h => ?_); rw [hx]; clear hx x1; rotate_left; clear hx; rotate_right)
    | (extract_lets +onlyGivenNames x1; clear_value (hx : x1 = _); clear hx)
    | with_reducible assumption
    | with_reducible exact Keeps.refl _ _
    | decide +kernel
    | with_reducible apply Keeps.putA
    | with_reducible apply Keeps.setBA
    | with_reducible apply Keeps.noDueA
    | with_reducible apply Keeps.via (State.nonceDraw_keeps ..)
    | with_reducible apply Keeps.via (State.wipeStart_keeps ..)
    | with_reducible apply Keeps.via (State.faultRaise_keeps ..)
    | with_reducible apply Keeps.via (State.wakeIf_keeps ..)
    | with_reducible apply Keeps.iteA
    | split

def State.tamper_w : Nat := m_now ||| m_free ||| State.tamperAct_w
theorem State.tamper_keeps (s : State) (widthPs : Nat) : Keeps State.tamper_w s (s.tamper widthPs) := by
  unfold State.tamper
  repeat' first
    | (extract_lets +onlyGivenNames x1; clear_value (hx : x1 = _); refine Keeps.cut x1 ?_ (fun h => ?_); rw [hx]; clear hx x1; rotate_left; clear hx; rotate_right)
    | (extract_lets +onlyGivenNames x1; clear_value (hx : x1 = _); refine Keeps.cut1 x1 ?_ (fun h => ?_); rw [hx]; clear hx x1; rotate_left; clear hx; rotate_right)
    | (extract_lets +onlyGivenNames x1; clear_value (hx : x1 = _); refine Keeps.cut2 x1 ?_ (fun h => ?_); rw [hx]; clear hx x1; rotate_left; clear hx; rotate_right)
    | (extract_lets +onlyGivenNames x1; clear_value (hx : x1 = _); clear hx)
    | with_reducible assumption
    | with_reducible exact Keeps.refl _ _
    | decide +kernel
    | with_reducible apply Keeps.upToA
    | with_reducible apply Keeps.drawA
    | with_reducible apply Keeps.via (State.tamperAct_keeps ..)
    | with_reducible apply Keeps.iteA

def State.dbgCtrl_w : Nat := fm F.SEC_DBG_CTRL_RIGHTS_REQ ||| fm H.SEC_UNLOCK_END ||| State.bad_w ||| State.ok_w
theorem State.dbgCtrl_keeps (s : State) (v : Nat) : Keeps State.dbgCtrl_w s (s.dbgCtrl v).1 := by
  unfold State.dbgCtrl
  repeat' first
    | (extract_lets +onlyGivenNames x1; clear_value (hx : x1 = _); refine Keeps.cut x1 ?_ (fun h => ?_); rw [hx]; clear hx x1; rotate_left; clear hx; rotate_right)
    | (extract_lets +onlyGivenNames x1; clear_value (hx : x1 = _); refine Keeps.cut1 x1 ?_ (fun h => ?_); rw [hx]; clear hx x1; rotate_left; clear hx; rotate_right)
    | (extract_lets +onlyGivenNames x1; clear_value (hx : x1 = _); refine Keeps.cut2 x1 ?_ (fun h => ?_); rw [hx]; clear hx x1; rotate_left; clear hx; rotate_right)
    | (extract_lets +onlyGivenNames x1; clear_value (hx : x1 = _); clear hx)
    | with_reducible assumption
    | with_reducible exact Keeps.refl _ _
    | decide +kernel
    | with_reducible apply Keeps.putA
    | with_reducible apply Keeps.setDueA
    | with_reducible apply Keeps.via (State.bad_keeps ..)
    | with_reducible apply Keeps.via (State.ok_keeps ..)
    | with_reducible apply Keeps.iteA
    | with_reducible apply Keeps.ite1

def State.unlockDone_w : Nat := fm H.SEC_UNLOCK_END ||| fm F.SEC_DBG_CTRL_RESULT ||| fm F.SEC_DBG_CTRL_RIGHTS ||| m_now |||
    State.nonceDraw_w
theorem State.unlockDone_keeps (s : State) : Keeps State.unlockDone_w s (s.unlockDone) := by
  unfold State.unlockDone
  repeat' first
    | (extract_lets +onlyGivenNames x1; clear_value (hx : x1 = _); refine Keeps.cut x1 ?_ (fun h => ?_); rw [hx]; clear hx x1; rotate_left; clear hx; rotate_right)
    | (extract_lets +onlyGivenNames x1; clear_value (hx : x1 = _); refine Keeps.cut1 x1 ?_ (fun h => ?_); rw [hx]; clear hx x1; rotate_left; clear hx; rotate_right)
    | (extract_lets +onlyGivenNames x1; clear_value (hx : x1 = _); refine Keeps.cut2 x1 ?_ (fun h => ?_); rw [hx]; clear hx x1; rotate_left; clear hx; rotate_right)
    | (extract_lets +onlyGivenNames x1; clear_value (hx : x1 = _); clear hx)
    | with_reducible assumption
    | with_reducible exact Keeps.refl _ _
    | decide +kernel
    | with_reducible apply Keeps.putA
    | with_reducible apply Keeps.noDueA
    | with_reducible apply Keeps.upToA
    | with_reducible apply Keeps.via (State.nonceDraw_keeps ..)
    | split

def State.debugReset_w : Nat := fm H.CORE0_HALT ||| State.warmReset_w F.RST_CAUSE_DEBUG
theorem State.debugReset_keeps (s : State) : Keeps State.debugReset_w s (s.debugReset) := by
  unfold State.debugReset
  repeat' first
    | (extract_lets +onlyGivenNames x1; clear_value (hx : x1 = _); refine Keeps.cut x1 ?_ (fun h => ?_); rw [hx]; clear hx x1; rotate_left; clear hx; rotate_right)
    | (extract_lets +onlyGivenNames x1; clear_value (hx : x1 = _); refine Keeps.cut1 x1 ?_ (fun h => ?_); rw [hx]; clear hx x1; rotate_left; clear hx; rotate_right)
    | (extract_lets +onlyGivenNames x1; clear_value (hx : x1 = _); refine Keeps.cut2 x1 ?_ (fun h => ?_); rw [hx]; clear hx x1; rotate_left; clear hx; rotate_right)
    | (extract_lets +onlyGivenNames x1; clear_value (hx : x1 = _); clear hx)
    | with_reducible assumption
    | with_reducible exact Keeps.refl _ _
    | decide +kernel
    | with_reducible apply Keeps.setBA
    | with_reducible apply Keeps.via (State.warmReset_keeps ..)
    | with_reducible apply Keeps.iteA

end Sys2Proof.Machine
end

