-- ==== Sys2Proof/Laws/KeepsSerial.lean ====
section
/-!
SUPPORT. What every operation of Machine/Serial.lean can change: its mask and its Keeps lemma.
-/

set_option Elab.async false
set_option linter.all false

namespace Sys2Proof.Machine

def State.cspHwPut_w (f : Field) : Nat := fm f
theorem State.cspHwPut_keeps (s : State) (f : Field) (n h v : Nat) : Keeps (State.cspHwPut_w f) s (s.cspHwPut f n h v) :=
  Keeps.putA (Nat.and_self _) (Keeps.refl _ _)

def State.cspReceive_w : Nat := State.cspHwPut_w F.CSP_RX_HW
theorem State.cspReceive_keeps (s : State) (n : Nat) (rx : List Bool) : Keeps State.cspReceive_w s (s.cspReceive n rx) := by
  unfold State.cspReceive
  repeat' first
    | with_reducible assumption
    | with_reducible exact Keeps.refl _ _
    | decide +kernel
    | with_reducible refine Keeps.eachA ?_ (fun _ _ => ?_)
    | with_reducible apply Keeps.via (State.cspHwPut_keeps ..)

def State.cspFrame_w : Nat := State.cspHwPut_w F.CSP_TX_HW
theorem State.cspFrame_keeps (s : State) (n : Nat) : Keeps State.cspFrame_w s (s.cspFrame n) := by
  unfold State.cspFrame
  repeat' first
    | (extract_lets +onlyGivenNames x1; clear_value (hx : x1 = _); refine Keeps.cut x1 ?_ (fun h => ?_); rw [hx]; clear hx x1; rotate_left; clear hx; rotate_right)
    | (extract_lets +onlyGivenNames x1; clear_value (hx : x1 = _); refine Keeps.cut1 x1 ?_ (fun h => ?_); rw [hx]; clear hx x1; rotate_left; clear hx; rotate_right)
    | (extract_lets +onlyGivenNames x1; clear_value (hx : x1 = _); refine Keeps.cut2 x1 ?_ (fun h => ?_); rw [hx]; clear hx x1; rotate_left; clear hx; rotate_right)
    | (extract_lets +onlyGivenNames x1; clear_value (hx : x1 = _); clear hx)
    | with_reducible assumption
    | with_reducible exact Keeps.refl _ _
    | decide +kernel
    | with_reducible apply Keeps.via (State.cspHwPut_keeps ..)
    | with_reducible apply Keeps.iteA

def State.cspRxClear_w : Nat := fm F.CSP_RX_HW
theorem State.cspRxClear_keeps (s : State) (n : Nat) : Keeps State.cspRxClear_w s (s.cspRxClear n) := by
  unfold State.cspRxClear
  repeat' first
    | with_reducible assumption
    | with_reducible exact Keeps.refl _ _
    | decide +kernel
    | with_reducible apply Keeps.putA
    | with_reducible refine Keeps.eachA ?_ (fun _ _ => ?_)

def State.cspBegin_w : Nat := fm F.CSP_CTRL_BUSY ||| fm H.CSP_T0 ||| fm H.CSP_LOST ||| fm H.CSP_ABT |||
    State.cspRxClear_w ||| State.cspFrame_w
theorem State.cspBegin_keeps (s : State) (n : Nat) : Keeps State.cspBegin_w s (s.cspBegin n) := by
  unfold State.cspBegin
  repeat' first
    | (extract_lets +onlyGivenNames x1; clear_value (hx : x1 = _); refine Keeps.cut x1 ?_ (fun h => ?_); rw [hx]; clear hx x1; rotate_left; clear hx; rotate_right)
    | (extract_lets +onlyGivenNames x1; clear_value (hx : x1 = _); refine Keeps.cut1 x1 ?_ (fun h => ?_); rw [hx]; clear hx x1; rotate_left; clear hx; rotate_right)
    | (extract_lets +onlyGivenNames x1; clear_value (hx : x1 = _); refine Keeps.cut2 x1 ?_ (fun h => ?_); rw [hx]; clear hx x1; rotate_left; clear hx; rotate_right)
    | (extract_lets +onlyGivenNames x1; clear_value (hx : x1 = _); clear hx)
    | with_reducible assumption
    | with_reducible exact Keeps.refl _ _
    | decide +kernel
    | with_reducible apply Keeps.putA
    | with_reducible apply Keeps.setBA
    | with_reducible apply Keeps.via (State.cspRxClear_keeps ..)
    | with_reducible apply Keeps.via (State.cspFrame_keeps ..)

def State.cspEn_w : Nat := fm F.CSP_CTRL_EN ||| fm H.CSP_LOST
theorem State.cspEn_keeps {s : State} {n : Nat} {b : Bool} {r : State} (h : s.cspEn n b = some r) : Keeps State.cspEn_w s r := by
  have h1 (x : Bool) : Keeps State.cspEn_w s (s.setB F.CSP_CTRL_EN n x) := Keeps.setBA (by decide +kernel) (Keeps.refl _ _)
  unfold State.cspEn at h
  split at h
  · cases h; exact Keeps.refl _ _
  · split at h
    · split at h
      · cases h
      · cases h; exact h1 _
    · cases h
      exact Keeps.iteA (Keeps.setBA (by decide +kernel) (h1 _)) (h1 _)

def State.writeCspCtrl_w : Nat := fm H.CSP_ABT ||| State.bad_w ||| State.cspEn_w ||| State.cspBegin_w ||| State.ok_w
theorem State.writeCspCtrl_keeps (s : State) (n v : Nat) : Keeps State.writeCspCtrl_w s (s.writeCspCtrl n v).1 := by
  unfold State.writeCspCtrl
  repeat' first
    | (extract_lets +onlyGivenNames x1; clear_value (hx : x1 = _); refine Keeps.cut x1 ?_ (fun h => ?_); rw [hx]; clear hx x1; rotate_left; clear hx; rotate_right)
    | (extract_lets +onlyGivenNames x1; clear_value (hx : x1 = _); refine Keeps.cut1 x1 ?_ (fun h => ?_); rw [hx]; clear hx x1; rotate_left; clear hx; rotate_right)
    | (extract_lets +onlyGivenNames x1; clear_value (hx : x1 = _); refine Keeps.cut2 x1 ?_ (fun h => ?_); rw [hx]; clear hx x1; rotate_left; clear hx; rotate_right)
    | (extract_lets +onlyGivenNames x1; clear_value (hx : x1 = _); clear hx)
    | with_reducible assumption
    | with_reducible exact Keeps.refl _ _
    | decide +kernel
    | with_reducible apply Keeps.setBA
    | with_reducible apply Keeps.via (State.bad_keeps ..)
    | with_reducible apply Keeps.via (State.cspBegin_keeps ..)
    | with_reducible apply Keeps.via (State.ok_keeps ..)
    | with_reducible apply Keeps.iteA
    | with_reducible apply Keeps.ite1
    | split
    | exact Keeps.via (State.cspEn_keeps (by with_reducible assumption : State.cspEn _ _ _ = some _)) (by decide +kernel) (by first | with_reducible assumption | exact Keeps.refl _ _)

def State.writeCspCfg_w : Nat := fm F.CSP_CFG_CPHA ||| fm F.CSP_CFG_CPOL ||| fm F.CSP_CFG_FRAME ||| fm F.CSP_CFG_SEL_HIGH |||
    fm F.CSP_CFG_SEL_GPIO ||| fm F.CSP_CFG_DIV ||| fm F.CSP_CFG_LEAD ||| fm F.CSP_CFG_TRAIL ||| State.bad_w ||| State.ok_w
theorem State.writeCspCfg_keeps (s : State) (n v : Nat) : Keeps State.writeCspCfg_w s (s.writeCspCfg n v).1 := by
  unfold State.writeCspCfg
  repeat' first
    | (extract_lets +onlyGivenNames x1; clear_value (hx : x1 = _); refine Keeps.cut x1 ?_ (fun h => ?_); rw [hx]; clear hx x1; rotate_left; clear hx; rotate_right)
    | (extract_lets +onlyGivenNames x1; clear_value (hx : x1 = _); refine Keeps.cut1 x1 ?_ (fun h => ?_); rw [hx]; clear hx x1; rotate_left; clear hx; rotate_right)
    | (extract_lets +onlyGivenNames x1; clear_value (hx : x1 = _); refine Keeps.cut2 x1 ?_ (fun h => ?_); rw [hx]; clear hx x1; rotate_left; clear hx; rotate_right)
    | (extract_lets +onlyGivenNames x1; clear_value (hx : x1 = _); clear hx)
    | with_reducible assumption
    | with_reducible exact Keeps.refl _ _
    | decide +kernel
    | with_reducible apply Keeps.putA
    | with_reducible apply Keeps.setBA
    | with_reducible apply Keeps.via (State.bad_keeps ..)
    | with_reducible apply Keeps.via (State.ok_keeps ..)
    | with_reducible apply Keeps.iteA
    | with_reducible apply Keeps.ite1

def State.writeCspLen_w : Nat := fm F.CSP_LEN_BITS ||| State.bad_w ||| State.ok_w
theorem State.writeCspLen_keeps (s : State) (n v : Nat) : Keeps State.writeCspLen_w s (s.writeCspLen n v).1 := by
  unfold State.writeCspLen
  repeat' first
    | with_reducible assumption
    | with_reducible exact Keeps.refl _ _
    | decide +kernel
    | with_reducible apply Keeps.putA
    | with_reducible apply Keeps.via (State.bad_keeps ..)
    | with_reducible apply Keeps.via (State.ok_keeps ..)
    | with_reducible apply Keeps.iteA
    | with_reducible apply Keeps.ite1

def State.writeCspTx_w : Nat := fm F.CSP_TX_HW ||| State.bad_w ||| State.ok_w
theorem State.writeCspTx_keeps (s : State) (n m v : Nat) : Keeps State.writeCspTx_w s (s.writeCspTx n m v).1 := by
  unfold State.writeCspTx
  repeat' first
    | with_reducible assumption
    | with_reducible exact Keeps.refl _ _
    | decide +kernel
    | with_reducible apply Keeps.putA
    | with_reducible apply Keeps.via (State.bad_keeps ..)
    | with_reducible apply Keeps.via (State.ok_keeps ..)
    | with_reducible apply Keeps.iteA
    | with_reducible apply Keeps.ite1

def State.readCspRx_w : Nat := m_free
theorem State.readCspRx_keeps (s : State) (n m : Nat) : Keeps State.readCspRx_w s (s.readCspRx n m).1 := by
  unfold State.readCspRx
  repeat' first
    | (extract_lets +onlyGivenNames x1; clear_value (hx : x1 = _); refine Keeps.cut x1 ?_ (fun h => ?_); rw [hx]; clear hx x1; rotate_left; clear hx; rotate_right)
    | (extract_lets +onlyGivenNames x1; clear_value (hx : x1 = _); refine Keeps.cut1 x1 ?_ (fun h => ?_); rw [hx]; clear hx x1; rotate_left; clear hx; rotate_right)
    | (extract_lets +onlyGivenNames x1; clear_value (hx : x1 = _); refine Keeps.cut2 x1 ?_ (fun h => ?_); rw [hx]; clear hx x1; rotate_left; clear hx; rotate_right)
    | (extract_lets +onlyGivenNames x1; clear_value (hx : x1 = _); clear hx)
    | with_reducible assumption
    | with_reducible exact Keeps.refl _ _
    | decide +kernel
    | with_reducible apply Keeps.drawA
    | with_reducible apply Keeps.iteA
    | with_reducible apply Keeps.ite1

def State.cspCheck_w : Nat := fm F.CSP_STAT_RX_LEN_ERR ||| fm F.CSP_STAT_RX_CRC_ERR ||| fm F.CSP_STAT_RX_ALIVE_ERR |||
    fm F.CSP_STAT_RX_FLAGS
theorem State.cspCheck_keeps (s : State) (n : Nat) : Keeps State.cspCheck_w s (s.cspCheck n) := by
  unfold State.cspCheck
  repeat' first
    | (extract_lets +onlyGivenNames x1; clear_value (hx : x1 = _); refine Keeps.cut x1 ?_ (fun h => ?_); rw [hx]; clear hx x1; rotate_left; clear hx; rotate_right)
    | (extract_lets +onlyGivenNames x1; clear_value (hx : x1 = _); refine Keeps.cut1 x1 ?_ (fun h => ?_); rw [hx]; clear hx x1; rotate_left; clear hx; rotate_right)
    | (extract_lets +onlyGivenNames x1; clear_value (hx : x1 = _); refine Keeps.cut2 x1 ?_ (fun h => ?_); rw [hx]; clear hx x1; rotate_left; clear hx; rotate_right)
    | (extract_lets +onlyGivenNames x1; clear_value (hx : x1 = _); clear hx)
    | with_reducible assumption
    | with_reducible exact Keeps.refl _ _
    | decide +kernel
    | with_reducible apply Keeps.setBA
    | with_reducible apply Keeps.iteA

def State.cspAlive_w : Nat := fm F.CSP_ALIVE_LAST ||| fm F.CSP_ALIVE_NEXT
theorem State.cspAlive_keeps (s : State) (n : Nat) : Keeps State.cspAlive_w s (s.cspAlive n) := by
  unfold State.cspAlive
  repeat' first
    | with_reducible assumption
    | with_reducible exact Keeps.refl _ _
    | decide +kernel
    | with_reducible apply Keeps.putA
    | with_reducible apply Keeps.incWA

def State.cspEnd_w : Nat := fm F.CSP_CTRL_BUSY ||| fm F.CSP_STAT_DONE ||| fm F.CSP_STAT_BITS ||| fm H.CSP_GAP_T |||
    State.irq_w
theorem State.cspEnd_keeps (s : State) (n count : Nat) : Keeps State.cspEnd_w s (s.cspEnd n count) := by
  unfold State.cspEnd
  repeat' first
    | (extract_lets +onlyGivenNames x1; clear_value (hx : x1 = _); refine Keeps.cut x1 ?_ (fun h => ?_); rw [hx]; clear hx x1; rotate_left; clear hx; rotate_right)
    | (extract_lets +onlyGivenNames x1; clear_value (hx : x1 = _); refine Keeps.cut1 x1 ?_ (fun h => ?_); rw [hx]; clear hx x1; rotate_left; clear hx; rotate_right)
    | (extract_lets +onlyGivenNames x1; clear_value (hx : x1 = _); refine Keeps.cut2 x1 ?_ (fun h => ?_); rw [hx]; clear hx x1; rotate_left; clear hx; rotate_right)
    | (extract_lets +onlyGivenNames x1; clear_value (hx : x1 = _); clear hx)
    | with_reducible assumption
    | with_reducible exact Keeps.refl _ _
    | decide +kernel
    | with_reducible apply Keeps.putA
    | with_reducible apply Keeps.setBA
    | with_reducible apply Keeps.via (State.irq_keeps ..)

def State.cspCut_w : Nat := fm F.CSP_STAT_SEL_LOST ||| fm F.CSP_STAT_ABORTED ||| fm H.CSP_LOST ||| m_now |||
    State.cspReceive_w ||| State.cspEnd_w
theorem State.cspCut_keeps (s : State) (n : Nat) (lost : Bool) (rx : List Bool) : Keeps State.cspCut_w s (s.cspCut n lost rx) := by
  unfold State.cspCut
  repeat' first
    | (extract_lets +onlyGivenNames x1; clear_value (hx : x1 = _); refine Keeps.cut x1 ?_ (fun h => ?_); rw [hx]; clear hx x1; rotate_left; clear hx; rotate_right)
    | (extract_lets +onlyGivenNames x1; clear_value (hx : x1 = _); refine Keeps.cut1 x1 ?_ (fun h => ?_); rw [hx]; clear hx x1; rotate_left; clear hx; rotate_right)
    | (extract_lets +onlyGivenNames x1; clear_value (hx : x1 = _); refine Keeps.cut2 x1 ?_ (fun h => ?_); rw [hx]; clear hx x1; rotate_left; clear hx; rotate_right)
    | (extract_lets +onlyGivenNames x1; clear_value (hx : x1 = _); clear hx)
    | with_reducible assumption
    | with_reducible exact Keeps.refl _ _
    | decide +kernel
    | with_reducible apply Keeps.setBA
    | with_reducible apply Keeps.upToA
    | with_reducible apply Keeps.via (State.cspReceive_keeps ..)
    | with_reducible apply Keeps.via (State.cspEnd_keeps ..)
    | with_reducible apply Keeps.iteA

def State.cspDone_w : Nat := fm F.CSP_ALIVE_FIRST ||| m_now ||| State.cspCut_w ||| State.cspReceive_w |||
    State.cspCheck_w ||| State.cspAlive_w ||| State.cspEnd_w
theorem State.cspDone_keeps (s : State) (n : Nat) (rx : List Bool) : Keeps State.cspDone_w s (s.cspDone n rx) := by
  unfold State.cspDone
  repeat' first
    | (extract_lets +onlyGivenNames x1; clear_value (hx : x1 = _); refine Keeps.cut x1 ?_ (fun h => ?_); rw [hx]; clear hx x1; rotate_left; clear hx; rotate_right)
    | (extract_lets +onlyGivenNames x1; clear_value (hx : x1 = _); refine Keeps.cut1 x1 ?_ (fun h => ?_); rw [hx]; clear hx x1; rotate_left; clear hx; rotate_right)
    | (extract_lets +onlyGivenNames x1; clear_value (hx : x1 = _); refine Keeps.cut2 x1 ?_ (fun h => ?_); rw [hx]; clear hx x1; rotate_left; clear hx; rotate_right)
    | (extract_lets +onlyGivenNames x1; clear_value (hx : x1 = _); clear hx)
    | with_reducible assumption
    | with_reducible exact Keeps.refl _ _
    | decide +kernel
    | with_reducible apply Keeps.setBA
    | with_reducible apply Keeps.upToA
    | with_reducible apply Keeps.via (State.cspCut_keeps ..)
    | with_reducible apply Keeps.via (State.cspReceive_keeps ..)
    | with_reducible apply Keeps.via (State.cspCheck_keeps ..)
    | with_reducible apply Keeps.via (State.cspAlive_keeps ..)
    | with_reducible apply Keeps.via (State.cspEnd_keeps ..)
    | with_reducible apply Keeps.iteA

def State.selectLost_w : Nat := State.cspCut_w
theorem State.selectLost_keeps (s : State) (n : Nat) (rx : List Bool) : Keeps State.selectLost_w s (s.selectLost n rx) := by
  unfold State.selectLost
  repeat' first
    | with_reducible assumption
    | with_reducible exact Keeps.refl _ _
    | decide +kernel
    | with_reducible apply Keeps.via (State.cspCut_keeps ..)
    | with_reducible apply Keeps.iteA

def State.readGpioIn_w : Nat := m_free
theorem State.readGpioIn_keeps (s : State) : Keeps State.readGpioIn_w s (s.readGpioIn).1 := by
  unfold State.readGpioIn
  repeat' first
    | (extract_lets +onlyGivenNames x1; clear_value (hx : x1 = _); refine Keeps.cut x1 ?_ (fun h => ?_); rw [hx]; clear hx x1; rotate_left; clear hx; rotate_right)
    | (extract_lets +onlyGivenNames x1; clear_value (hx : x1 = _); refine Keeps.cut1 x1 ?_ (fun h => ?_); rw [hx]; clear hx x1; rotate_left; clear hx; rotate_right)
    | (extract_lets +onlyGivenNames x1; clear_value (hx : x1 = _); refine Keeps.cut2 x1 ?_ (fun h => ?_); rw [hx]; clear hx x1; rotate_left; clear hx; rotate_right)
    | (extract_lets +onlyGivenNames x1; clear_value (hx : x1 = _); clear hx)
    | with_reducible assumption
    | with_reducible exact Keeps.refl _ _
    | decide +kernel
    | with_reducible apply Keeps.drawA
    | split

def State.ioSetup_w : Nat := fm F.GPIO_OUT_OUT ||| fm F.GPIO_OE_OE ||| fm F.GPIO_FUNC_LED31 ||| State.writeCspCfg_w |||
    State.writeCspCtrl_w
theorem State.ioSetup_keeps (s : State) (l : List Byte) : Keeps State.ioSetup_w s (s.ioSetup l) := by
  unfold State.ioSetup
  repeat' first
    | (extract_lets +onlyGivenNames x1; clear_value (hx : x1 = _); refine Keeps.cut x1 ?_ (fun h => ?_); rw [hx]; clear hx x1; rotate_left; clear hx; rotate_right)
    | (extract_lets +onlyGivenNames x1; clear_value (hx : x1 = _); refine Keeps.cut1 x1 ?_ (fun h => ?_); rw [hx]; clear hx x1; rotate_left; clear hx; rotate_right)
    | (extract_lets +onlyGivenNames x1; clear_value (hx : x1 = _); refine Keeps.cut2 x1 ?_ (fun h => ?_); rw [hx]; clear hx x1; rotate_left; clear hx; rotate_right)
    | (extract_lets +onlyGivenNames x1; clear_value (hx : x1 = _); clear hx)
    | with_reducible assumption
    | with_reducible exact Keeps.refl _ _
    | decide +kernel
    | with_reducible apply Keeps.putA
    | with_reducible apply Keeps.setBA
    | with_reducible apply Keeps.via (State.writeCspCfg_keeps ..)
    | with_reducible apply Keeps.via (State.writeCspCtrl_keeps ..)

end Sys2Proof.Machine
end

