-- ==== Sys2Proof/Laws/KeepsBoot.lean ====
section
/-!
SUPPORT. What every operation of Machine/Boot.lean can change: its mask and its Keeps lemma.
-/

set_option Elab.async false
set_option linter.all false

namespace Sys2Proof.Machine

def State.dirRewrite_w : Nat := fm F.BOOT_REASON_FLASH_WR_SKIP ||| fm F.CFG_DIR_GEN_GEN ||| m_flash
theorem State.dirRewrite_keeps (s : State) (slot : Nat) : Keeps State.dirRewrite_w s (s.dirRewrite slot) := by
  unfold State.dirRewrite
  repeat' first
    | (extract_lets +onlyGivenNames x1; clear_value (hx : x1 = _); refine Keeps.cut x1 ?_ (fun h => ?_); rw [hx]; clear hx x1; rotate_left; clear hx; rotate_right)
    | (extract_lets +onlyGivenNames x1; clear_value (hx : x1 = _); refine Keeps.cut1 x1 ?_ (fun h => ?_); rw [hx]; clear hx x1; rotate_left; clear hx; rotate_right)
    | (extract_lets +onlyGivenNames x1; clear_value (hx : x1 = _); refine Keeps.cut2 x1 ?_ (fun h => ?_); rw [hx]; clear hx x1; rotate_left; clear hx; rotate_right)
    | (extract_lets +onlyGivenNames x1; clear_value (hx : x1 = _); clear hx)
    | with_reducible assumption
    | with_reducible exact Keeps.refl _ _
    | decide +kernel
    | with_reducible apply Keeps.putA
    | with_reducible apply Keeps.setBA
    | with_reducible apply Keeps.flProgramA
    | with_reducible apply Keeps.flEraseA
    | with_reducible apply Keeps.iteA

def State.bootAppend_w : Nat := fm F.BOOT_REASON_FLASH_WR_SKIP ||| m_flash
theorem State.bootAppend_keeps (s : State) (typ slot c : Nat) : Keeps State.bootAppend_w s (s.bootAppend typ slot c) := by
  unfold State.bootAppend
  repeat' first
    | (extract_lets +onlyGivenNames x1; clear_value (hx : x1 = _); refine Keeps.cut x1 ?_ (fun h => ?_); rw [hx]; clear hx x1; rotate_left; clear hx; rotate_right)
    | (extract_lets +onlyGivenNames x1; clear_value (hx : x1 = _); refine Keeps.cut1 x1 ?_ (fun h => ?_); rw [hx]; clear hx x1; rotate_left; clear hx; rotate_right)
    | (extract_lets +onlyGivenNames x1; clear_value (hx : x1 = _); refine Keeps.cut2 x1 ?_ (fun h => ?_); rw [hx]; clear hx x1; rotate_left; clear hx; rotate_right)
    | (extract_lets +onlyGivenNames x1; clear_value (hx : x1 = _); clear hx)
    | with_reducible assumption
    | with_reducible exact Keeps.refl _ _
    | decide +kernel
    | with_reducible apply Keeps.setBA
    | with_reducible apply Keeps.flProgramA
    | with_reducible apply Keeps.flEraseA
    | with_reducible apply Keeps.iteA
    | split

def State.trimRetry_w : Nat := fm F.TRIM_STAT_RETRIED ||| fm F.TRIM_STAT_BLOCK ||| fm F.BOOT_REASON_TRIM_RETRY
theorem State.trimRetry_keeps (s : State) (b : Nat) : Keeps State.trimRetry_w s (s.trimRetry b) := by
  unfold State.trimRetry
  repeat' first
    | with_reducible assumption
    | with_reducible exact Keeps.refl _ _
    | decide +kernel
    | with_reducible apply Keeps.putA
    | with_reducible apply Keeps.setBA

def State.trimMismatch_w : Nat := fm F.TRIM_STAT_TILE_MISMATCH ||| State.faultRaise_w ||| State.tileOff_w
theorem State.trimMismatch_keeps (s : State) (t : Nat) : Keeps State.trimMismatch_w s (s.trimMismatch t) := by
  unfold State.trimMismatch
  repeat' first
    | with_reducible assumption
    | with_reducible exact Keeps.refl _ _
    | decide +kernel
    | with_reducible apply Keeps.putA
    | with_reducible apply Keeps.via (State.faultRaise_keeps ..)
    | with_reducible apply Keeps.via (State.tileOff_keeps ..)

def State.trimLoad_w : Nat := fm F.TRIM_STAT_DONE ||| State.trimRetry_w ||| State.secLoad_w ||| State.trimMismatch_w
theorem State.trimLoad_keeps (s : State) (w : BootWorld) : Keeps State.trimLoad_w s (s.trimLoad w) := by
  unfold State.trimLoad
  repeat' first
    | (extract_lets +onlyGivenNames x1; clear_value (hx : x1 = _); refine Keeps.cut x1 ?_ (fun h => ?_); rw [hx]; clear hx x1; rotate_left; clear hx; rotate_right)
    | (extract_lets +onlyGivenNames x1; clear_value (hx : x1 = _); refine Keeps.cut1 x1 ?_ (fun h => ?_); rw [hx]; clear hx x1; rotate_left; clear hx; rotate_right)
    | (extract_lets +onlyGivenNames x1; clear_value (hx : x1 = _); refine Keeps.cut2 x1 ?_ (fun h => ?_); rw [hx]; clear hx x1; rotate_left; clear hx; rotate_right)
    | (extract_lets +onlyGivenNames x1; clear_value (hx : x1 = _); clear hx)
    | with_reducible assumption
    | with_reducible exact Keeps.refl _ _
    | decide +kernel
    | with_reducible apply Keeps.setBA
    | with_reducible refine Keeps.eachA ?_ (fun _ _ => ?_)
    | with_reducible apply Keeps.via (State.trimRetry_keeps ..)
    | with_reducible apply Keeps.via (State.secLoad_keeps ..)
    | with_reducible apply Keeps.via (State.trimMismatch_keeps ..)
    | with_reducible apply Keeps.iteA
    | split

def State.tileUp_w : Nat := fm F.CH_DSK_DSK_DRV ||| fm F.CH_DSK_DSK_CMP ||| fm H.CH_DSK_USE_DRV ||| fm H.CH_DSK_USE_CMP |||
    fm H.PD_TILE ||| fm H.TDC_TRIM ||| State.calUse_w
theorem State.tileUp_keeps (s : State) (t : Nat) : Keeps State.tileUp_w s (s.tileUp t) := by
  unfold State.tileUp
  repeat' first
    | (extract_lets +onlyGivenNames x1; clear_value (hx : x1 = _); refine Keeps.cut x1 ?_ (fun h => ?_); rw [hx]; clear hx x1; rotate_left; clear hx; rotate_right)
    | (extract_lets +onlyGivenNames x1; clear_value (hx : x1 = _); refine Keeps.cut1 x1 ?_ (fun h => ?_); rw [hx]; clear hx x1; rotate_left; clear hx; rotate_right)
    | (extract_lets +onlyGivenNames x1; clear_value (hx : x1 = _); refine Keeps.cut2 x1 ?_ (fun h => ?_); rw [hx]; clear hx x1; rotate_left; clear hx; rotate_right)
    | (extract_lets +onlyGivenNames x1; clear_value (hx : x1 = _); clear hx)
    | with_reducible assumption
    | with_reducible exact Keeps.refl _ _
    | decide +kernel
    | with_reducible apply Keeps.putA
    | with_reducible apply Keeps.setBA
    | with_reducible refine Keeps.eachA ?_ (fun _ _ => ?_)
    | with_reducible refine Keeps.foldlA ?_ (fun _ _ => ?_)
    | with_reducible apply Keeps.via (State.calUse_keeps ..)
    | with_reducible apply Keeps.iteA

def State.arraysUp_w : Nat := fm H.PD_H123 ||| State.wipeNow_w
theorem State.arraysUp_keeps (s : State) : Keeps State.arraysUp_w s (s.arraysUp) := by
  unfold State.arraysUp
  repeat' first
    | with_reducible assumption
    | with_reducible exact Keeps.refl _ _
    | decide +kernel
    | with_reducible apply Keeps.setBA
    | with_reducible apply Keeps.via (State.wipeNow_keeps ..)
    | with_reducible apply Keeps.iteA

def State.cellarUp_w : Nat := fm F.CEL_CFG_SELF_REF ||| fm H.PD_CELLAR ||| fm F.CEL_CFG_DENSITY ||| fm F.CEL_CFG_CH_OK |||
    fm F.CEL_CFG_READY ||| fm F.CEL_TOP_LO_TOP_LO ||| fm F.CEL_TOP_HI_TOP_HI ||| m_cellar ||| m_celErr ||| m_csBodies
theorem State.cellarUp_keeps (s : State) (w : BootWorld) : Keeps State.cellarUp_w s (s.cellarUp w).1 := by
  unfold State.cellarUp
  repeat' first
    | (extract_lets +onlyGivenNames x1; clear_value (hx : x1 = _); refine Keeps.cut x1 ?_ (fun h => ?_); rw [hx]; clear hx x1; rotate_left; clear hx; rotate_right)
    | (extract_lets +onlyGivenNames x1; clear_value (hx : x1 = _); refine Keeps.cut1 x1 ?_ (fun h => ?_); rw [hx]; clear hx x1; rotate_left; clear hx; rotate_right)
    | (extract_lets +onlyGivenNames x1; clear_value (hx : x1 = _); refine Keeps.cut2 x1 ?_ (fun h => ?_); rw [hx]; clear hx x1; rotate_left; clear hx; rotate_right)
    | (extract_lets +onlyGivenNames x1; clear_value (hx : x1 = _); clear hx)
    | with_reducible assumption
    | with_reducible exact Keeps.refl _ _
    | decide +kernel
    | with_reducible apply Keeps.putA
    | with_reducible apply Keeps.setBA
    | with_reducible apply Keeps.put2A
    | with_reducible apply Keeps.iteA
    | with_reducible apply Keeps.ite1
    | exact fun hw => by
        obtain ⟨w1, w2, w3, w4, w5, w6, w7, w8, w9, w10, w11⟩ := hw
        first | exact memSetBytes_wf _ _ _ ‹_› | exact memSetByte_wf _ _ _ ‹_› | exact memClear_wf _ _ _ ‹_› | exact keysRise_filter _ _ ‹_› | exact keysRise_insKey _ _ _ ‹_› | exact keysRise_storeKey _ _ _ ‹_› | exact storeWf_storeKey _ _ _ ‹_› | exact storeWf_filter _ _ ‹_› | rfl
    | with_reducible refine Keeps.trans ?_ (Keeps.c_cellar_celErr_csBodies _ _ _ ?_ ?_ ?_)

def State.fabricUp_w : Nat := fm H.PD_FABRIC ||| fm H.PD_PORCH ||| State.porchOn_w
theorem State.fabricUp_keeps (s : State) (porches : List Nat) : Keeps State.fabricUp_w s (s.fabricUp porches) := by
  unfold State.fabricUp
  repeat' first
    | with_reducible assumption
    | with_reducible exact Keeps.refl _ _
    | decide +kernel
    | with_reducible apply Keeps.setBA
    | with_reducible refine Keeps.eachA ?_ (fun _ _ => ?_)
    | with_reducible apply Keeps.via (State.porchOn_keeps ..)

def State.powerUp_w : Nat := fm H.PD_PANTRY ||| fm H.PD_ENG ||| State.csReload_w ||| State.tileUp_w
theorem State.powerUp_keeps (s : State) : Keeps State.powerUp_w s (s.powerUp) := by
  unfold State.powerUp
  repeat' first
    | (extract_lets +onlyGivenNames x1; clear_value (hx : x1 = _); refine Keeps.cut x1 ?_ (fun h => ?_); rw [hx]; clear hx x1; rotate_left; clear hx; rotate_right)
    | (extract_lets +onlyGivenNames x1; clear_value (hx : x1 = _); refine Keeps.cut1 x1 ?_ (fun h => ?_); rw [hx]; clear hx x1; rotate_left; clear hx; rotate_right)
    | (extract_lets +onlyGivenNames x1; clear_value (hx : x1 = _); refine Keeps.cut2 x1 ?_ (fun h => ?_); rw [hx]; clear hx x1; rotate_left; clear hx; rotate_right)
    | (extract_lets +onlyGivenNames x1; clear_value (hx : x1 = _); clear hx)
    | with_reducible assumption
    | with_reducible exact Keeps.refl _ _
    | decide +kernel
    | with_reducible apply Keeps.setBA
    | with_reducible refine Keeps.eachA ?_ (fun _ _ => ?_)
    | with_reducible apply Keeps.via (State.csReload_keeps ..)
    | with_reducible apply Keeps.via (State.tileUp_keeps ..)

/-- The mask of an attempt: every field, and what no image can reach left out. -/
def m_boot : Nat := m_all ^^^ (m_now ||| m_fuses ||| m_replies ||| m_lastResp ||| m_snaps ||| m_accepted |||
  m_cmdq ||| m_memq ||| m_failq ||| m_bcasts ||| m_h2d ||| m_d2h)

/-- An attempt's state comes from s inside the mask. -/
abbrev BootKeeps (s : State) (b : Attempt) : Prop := Keeps m_boot s b.s

theorem BootKeeps.fail {s : State} {b : Attempt} {c st : Nat} (h : BootKeeps s b) : BootKeeps s (b.fail c st) := by
  unfold Attempt.fail BootKeeps; split <;> exact h

theorem BootKeeps.stage {s : State} {b : Attempt} {f : Attempt → Attempt} (h : BootKeeps s b) (hf : BootKeeps b.s (f b)) :
    BootKeeps s (b.stage f) := by
  unfold Attempt.stage BootKeeps; split
  · exact h.trans hf
  · exact h

theorem BootKeeps.need {s : State} {b : Attempt} {c st : Nat} {p : Bool} (h : BootKeeps s b) : BootKeeps s (b.need c st p) := by
  unfold Attempt.need; split
  · exact h
  · exact h.fail

theorem Attempt.header_keeps (b : Attempt) (w : BootWorld) : BootKeeps b.s (b.header w) :=
  BootKeeps.need (BootKeeps.need (BootKeeps.need (BootKeeps.need (BootKeeps.need (Keeps.refl _ b.s)))))

theorem Attempt.signature_keeps (b : Attempt) : BootKeeps b.s b.signature := by
  unfold Attempt.signature
  dsimp only
  split
  · exact Keeps.refl _ _
  · exact BootKeeps.fail (Keeps.refl _ _)
  · exact BootKeeps.fail (Keeps.refl _ _)

theorem Attempt.table_keeps (b : Attempt) : BootKeeps b.s b.table := BootKeeps.need (Keeps.refl _ b.s)





theorem Attempt.fwPlace_keeps (b : Attempt) (l : List Byte) : BootKeeps b.s (b.fwPlace l) :=
  Keeps.putA (by decide +kernel) (Keeps.spWriteA (by decide +kernel) (Keeps.spWriteA (by decide +kernel) (Keeps.refl _ _)))

theorem Attempt.firmware_keeps (b : Attempt) : BootKeeps b.s b.firmware := by
  have h0 : Keeps m_boot b.s b.s.arraysUp := (State.arraysUp_keeps ..).mono (by decide +kernel)
  unfold Attempt.firmware
  dsimp only
  split
  · exact Keeps.putA (by decide +kernel) h0
  · split
    · exact BootKeeps.fail h0
    · split
      · exact BootKeeps.fail h0
      · split
        · exact Keeps.trans h0 (Attempt.fwPlace_keeps ({ b with s := b.s.arraysUp } : Attempt) _)
        · exact BootKeeps.fail h0
  · exact BootKeeps.fail h0

theorem Attempt.cellar_keeps (b : Attempt) (w : BootWorld) : BootKeeps b.s (b.cellar w) := by
  have h1 : Keeps m_boot b.s (b.s.cellarUp w).1 := (State.cellarUp_keeps ..).mono (by decide +kernel)
  exact BootKeeps.need (Keeps.iteA (Keeps.via (State.fabricUp_keeps ..) (by decide +kernel) h1) h1)

def State.placeBody_w : Nat := State.celStore_w
theorem State.placeBody_keeps (s : State) (target : Nat) (l : List Byte) : Keeps State.placeBody_w s (s.placeBody target l).1 := by
  unfold State.placeBody
  repeat' first
    | with_reducible assumption
    | with_reducible exact Keeps.refl _ _
    | decide +kernel
    | with_reducible apply Keeps.via (State.celStore_keeps ..)
    | with_reducible apply Keeps.iteA
    | with_reducible apply Keeps.ite1

def loadGood_w : Nat := 0
theorem loadGood_keeps {w : Nat} {s : State} {r : State × LoadEnd} (h : Keeps w s r.1) : Keeps w s (loadGood r).1 := h

def State.bootPattern_w : Nat := State.placeBody_w ||| State.patLoadAt_w
theorem State.bootPattern_keeps (s : State) (target : Nat) (l : List Byte) :
    Keeps State.bootPattern_w s (s.bootPattern target l).1 := by
  have h1 : Keeps State.bootPattern_w s (s.placeBody target l).1 := (State.placeBody_keeps ..).mono (by decide +kernel)
  unfold State.bootPattern
  exact Keeps.ite1 (loadGood_keeps (Keeps.via (State.patLoadAt_keeps ..) (by decide +kernel) h1)) h1

def State.bootSegments_w : Nat := State.placeBody_w ||| State.segLoadAt_w
theorem State.bootSegments_keeps (s : State) (target : Nat) (l : List Byte) :
    Keeps State.bootSegments_w s (s.bootSegments target l).1 := by
  have h1 : Keeps State.bootSegments_w s (s.placeBody target l).1 := (State.placeBody_keeps ..).mono (by decide +kernel)
  unfold State.bootSegments
  exact Keeps.ite1 (loadGood_keeps (Keeps.via (State.segLoadAt_keeps ..) (by decide +kernel) h1)) h1

theorem Attempt.take_keeps (b : Attempt) (e l : List Byte) : BootKeeps b.s (b.take e l) := by
  unfold Attempt.take
  split
  · exact BootKeeps.need (Keeps.refl _ _)
  · exact Keeps.refl _ _
  · split
    · exact BootKeeps.fail (Keeps.refl _ _)
    · exact BootKeeps.need (Keeps.refl _ _)
  · exact BootKeeps.need ((State.bootPattern_keeps ..).mono (by decide +kernel))
  · exact BootKeeps.need ((State.bootSegments_keeps ..).mono (by decide +kernel))
  · exact BootKeeps.need (Keeps.refl _ _)
  · exact BootKeeps.need (Keeps.refl _ _)
  · exact BootKeeps.need ((State.placeBody_keeps ..).mono (by decide +kernel))
  · exact BootKeeps.need (Keeps.refl _ _)



theorem Attempt.scrub_keeps (b : Attempt) (c : Nat) (e : List Byte) : BootKeeps b.s (b.scrub c e) := by
  unfold Attempt.scrub
  split
  · exact (State.placeBody_keeps ..).mono (by decide +kernel)
  · exact Keeps.refl _ _

theorem Attempt.section1_keeps (b : Attempt) (lost : Bool) (e : List Byte) (n : Nat) : BootKeeps b.s (b.section1 lost e n) := by
  unfold Attempt.section1
  split
  · exact Keeps.refl _ _
  · split
    · split
      · exact BootKeeps.fail (Keeps.refl _ _)
      · exact Keeps.refl _ _
    · split
      · exact BootKeeps.fail (Attempt.scrub_keeps ..)
      · exact Attempt.take_keeps ..

theorem BootKeeps.foldl {α : Type} {s : State} {b : Attempt} (l : List α) {f : Attempt → α → Attempt} (h : BootKeeps s b)
    (hf : ∀ x p, BootKeeps x.s (f x p)) : BootKeeps s (l.foldl f b) := by
  induction l generalizing b with
  | nil => exact h
  | cons a l ih => exact ih (h.trans (hf b a))

theorem Attempt.sections_keeps (b : Attempt) (lost : Bool) : BootKeeps b.s (b.sections lost) :=
  BootKeeps.foldl _ (Keeps.refl _ _) (fun _ _ => BootKeeps.stage (Keeps.refl _ _) (Attempt.section1_keeps ..))

theorem Attempt.mapCheck_keeps (b : Attempt) : BootKeeps b.s b.mapCheck :=
  BootKeeps.need (BootKeeps.need (BootKeeps.need (Keeps.refl _ b.s)))

theorem Attempt.storeLoad_keeps (b : Attempt) (es : List Nat) (l : List Byte) : BootKeeps b.s (b.storeLoad es l) := by
  unfold Attempt.storeLoad
  split
  · exact Keeps.refl _ _
  · split
    · exact BootKeeps.fail (Keeps.refl _ _)
    · exact Keeps.eachA ((State.csKeep_keeps ..).mono (by decide +kernel)) (fun _ _ => (State.csLoad_keeps ..).mono (by decide +kernel))

theorem Attempt.storesLoad_keeps (b : Attempt) : BootKeeps b.s b.storesLoad := by
  have h1 := BootKeeps.foldl b.stores (Keeps.refl m_boot b.s) (f := fun (x : Attempt) p =>
    x.stage (fun y => y.storeLoad (csEngines p.1 p.2) p.2)) (fun _ _ => BootKeeps.stage (Keeps.refl _ _) (Attempt.storeLoad_keeps ..))
  unfold Attempt.storesLoad
  dsimp only
  split
  · exact h1
  · exact BootKeeps.stage h1 (Attempt.storeLoad_keeps ..)

def State.dropEntry_w : Nat := State.safeStage_w ||| State.unbindSite_w
theorem State.dropEntry_keeps (s : State) (e : SiteEntry) : Keeps State.dropEntry_w s (s.dropEntry e) := by
  unfold State.dropEntry
  repeat' first
    | (extract_lets +onlyGivenNames x1; clear_value (hx : x1 = _); refine Keeps.cut x1 ?_ (fun h => ?_); rw [hx]; clear hx x1; rotate_left; clear hx; rotate_right)
    | (extract_lets +onlyGivenNames x1; clear_value (hx : x1 = _); refine Keeps.cut1 x1 ?_ (fun h => ?_); rw [hx]; clear hx x1; rotate_left; clear hx; rotate_right)
    | (extract_lets +onlyGivenNames x1; clear_value (hx : x1 = _); refine Keeps.cut2 x1 ?_ (fun h => ?_); rw [hx]; clear hx x1; rotate_left; clear hx; rotate_right)
    | (extract_lets +onlyGivenNames x1; clear_value (hx : x1 = _); clear hx)
    | with_reducible assumption
    | with_reducible exact Keeps.refl _ _
    | decide +kernel
    | with_reducible apply Keeps.via (State.safeStage_keeps ..)
    | with_reducible apply Keeps.via (State.unbindSite_keeps ..)

def State.bindAll_w : Nat := fm F.ENG_CTRL_STEAL_EN ||| State.bindEntry_w ||| State.siteAfterReset_w ||| State.stealUpdate_w
theorem State.bindAll_keeps (s : State) (es : List SiteEntry) (lost : Bool) : Keeps State.bindAll_w s (s.bindAll es lost) := by
  unfold State.bindAll
  repeat' first
    | (extract_lets +onlyGivenNames x1; clear_value (hx : x1 = _); refine Keeps.cut x1 ?_ (fun h => ?_); rw [hx]; clear hx x1; rotate_left; clear hx; rotate_right)
    | (extract_lets +onlyGivenNames x1; clear_value (hx : x1 = _); refine Keeps.cut1 x1 ?_ (fun h => ?_); rw [hx]; clear hx x1; rotate_left; clear hx; rotate_right)
    | (extract_lets +onlyGivenNames x1; clear_value (hx : x1 = _); refine Keeps.cut2 x1 ?_ (fun h => ?_); rw [hx]; clear hx x1; rotate_left; clear hx; rotate_right)
    | (extract_lets +onlyGivenNames x1; clear_value (hx : x1 = _); clear hx)
    | with_reducible assumption
    | with_reducible exact Keeps.refl _ _
    | decide +kernel
    | with_reducible apply Keeps.setBA
    | with_reducible refine Keeps.eachA ?_ (fun _ _ => ?_)
    | with_reducible apply Keeps.via (State.bindEntry_keeps ..)
    | with_reducible apply Keeps.via (State.siteAfterReset_keeps ..)
    | with_reducible apply Keeps.via (State.stealUpdate_keeps ..)

theorem Attempt.mapApply_keeps (b : Attempt) : BootKeeps b.s b.mapApply := by
  unfold Attempt.mapApply
  dsimp only
  have h (l : List SiteEntry) (v : Nat) : Keeps m_boot b.s ((b.s.each l State.dropEntry).put H.SITE_FREE 0 v) :=
    Keeps.putA (by decide +kernel) (Keeps.eachA (Keeps.refl _ _) (fun _ _ => (State.dropEntry_keeps ..).mono (by decide +kernel)))
  exact Keeps.iteA (Keeps.setBA (by decide +kernel) (Keeps.setBA (by decide +kernel) ((h _ _).trans (Keeps.c_heldEntries _ (by decide +kernel)))))
    (Keeps.via (State.bindAll_keeps ..) (by decide +kernel) (h _ _))

theorem Attempt.apply_keeps (b : Attempt) (lost : Bool) : BootKeeps b.s (b.apply lost) := by
  have h0 : Keeps m_boot b.s (if lost || !b.s.on H.WAS_WARM 0 then b.s else b.s.stabCount) :=
    Keeps.iteA (Keeps.refl _ _) ((State.stabCount_keeps ..).mono (by decide +kernel))
  have h1 (t : State) (h : Keeps m_boot b.s t) : Keeps m_boot b.s (({ b with s := t } : Attempt).mapApply).s :=
    h.trans (Attempt.mapApply_keeps ({ b with s := t } : Attempt))
  have h2 (t : State) (h : Keeps m_boot b.s t) (l : List Byte) : Keeps m_boot b.s (if l.isEmpty then t else t.levelsApply l) :=
    Keeps.iteA h (Keeps.via (State.levelsApply_keeps ..) (by decide +kernel) h)
  have h3 (t : State) (h : Keeps m_boot b.s t) (l : List Byte) : Keeps m_boot b.s (if l.isEmpty then t else (t.calBody l).1) :=
    Keeps.iteA h (Keeps.via (State.calBody_keeps ..) (by decide +kernel) h)
  exact Keeps.putA (by decide +kernel) (Keeps.putA (by decide +kernel) (Keeps.setBA (by decide +kernel) (h3 _ (h2 _ (h1 _ h0) _) _)))

theorem Attempt.autoNote_keeps (b : Attempt) : BootKeeps b.s b.autoNote := by
  have h0 (c : Bool) : Keeps m_boot b.s (if c then b.s else b.s.dropField H.ENG_AUTO_ON) :=
    Keeps.iteA (Keeps.refl _ _) ((State.dropField_keeps ..).mono (by decide +kernel))
  unfold Attempt.autoNote
  dsimp only
  split
  · exact h0 _
  · exact Keeps.putA (by decide +kernel) (Keeps.putA (by decide +kernel) (Keeps.putA (by decide +kernel)
      (Keeps.setBA (by decide +kernel) (h0 _))))

theorem State.attempt_keeps (s : State) (w : BootWorld) (slot : Nat) : BootKeeps s (s.attempt w slot) := by
  have h0 : Keeps m_boot s ((s.put F.BOOT_ATTEMPT_SLOT 0 slot).bootAppend 1 slot 0) :=
    Keeps.via (State.bootAppend_keeps ..) (by decide +kernel) (Keeps.putA (by decide +kernel) (Keeps.refl _ _))
  unfold State.attempt
  dsimp only
  have h1 (b : Attempt) (h : Keeps m_boot s b.s) :
      BootKeeps s ((((b.header w).stage Attempt.signature).stage Attempt.table).stage Attempt.firmware) :=
    BootKeeps.stage (BootKeeps.stage (BootKeeps.stage (h.trans (Attempt.header_keeps b w)) (Attempt.signature_keeps _))
      (Attempt.table_keeps _)) (Attempt.firmware_keeps _)
  have hp (t : State) : Keeps m_boot t t.powerUp := (State.powerUp_keeps t).mono (by decide +kernel)
  have hq (c : Attempt) : BootKeeps c.s ((fun (b : Attempt) => ({ b with s := b.s.powerUp } : Attempt)) c) := by
    unfold BootKeeps
    dsimp only
    exact hp _
  have h2 (b : Attempt) (h : BootKeeps s b) :
      BootKeeps s ((b.stage (fun b => b.cellar w)).stage (fun b => { b with s := b.s.powerUp })) :=
    BootKeeps.stage (BootKeeps.stage h (Attempt.cellar_keeps ..)) (hq _)
  have h3 (b : Attempt) (h : BootKeeps s b) (lost : Bool) :
      BootKeeps s ((b.stage (fun b => b.sections lost)).stage Attempt.mapCheck) :=
    BootKeeps.stage (BootKeeps.stage h (Attempt.sections_keeps ..)) (Attempt.mapCheck_keeps _)
  refine BootKeeps.stage (BootKeeps.stage (BootKeeps.stage (h3 _ ?_ _) (Attempt.storesLoad_keeps _))
    (Attempt.apply_keeps ..)) (Attempt.autoNote_keeps _)
  refine h2 _ ?_
  exact h1 ⟨_, _, _, _, _, _, _, _, _, _, _, _, _, _, _, _, _⟩ h0

def State.autoBegin_w : Nat := State.autoStart_w
theorem State.autoBegin_keeps (s : State) : Keeps State.autoBegin_w s (s.autoBegin) := by
  unfold State.autoBegin
  repeat' first
    | with_reducible assumption
    | with_reducible exact Keeps.refl _ _
    | decide +kernel
    | with_reducible apply Keeps.via (State.autoStart_keeps ..)
    | with_reducible apply Keeps.iteA
    | split

def State.contactBegin_w : Nat := fm F.CONTACT_CTL_BUSY ||| fm H.CONTACT_END
theorem State.contactBegin_keeps (s : State) : Keeps State.contactBegin_w s (s.contactBegin) := by
  unfold State.contactBegin
  repeat' first
    | with_reducible assumption
    | with_reducible exact Keeps.refl _ _
    | decide +kernel
    | with_reducible apply Keeps.setBA
    | with_reducible apply Keeps.setDueA

def State.standby_w : Nat := fm H.BOOT_TMR_END ||| fm F.BOOT_ATTEMPT_FAILS ||| fm F.BOOT_REASON_OUTCOME |||
    fm F.BOOT_REASON_SLOT ||| fm F.BOOT_TIME_TIME_US ||| fm F.RST_WDOG_CTL_TIMEOUT_MS ||| fm F.RST_WDOG_CTL_EN |||
    fm H.WDOG_T0 ||| fm H.WDOG_HALF_SEEN ||| fm H.BOOT_PHASE ||| fm H.STAT_LED ||| fm F.THM_LOG_STAT_HOLD_EXIT |||
    State.bootAppend_w ||| State.enterMode_w ||| State.logMaintain_w ||| State.idleStart_w
theorem State.standby_keeps (s : State) (w : BootWorld) (outcome slot : Nat) : Keeps State.standby_w s (s.standby w outcome slot) := by
  unfold State.standby
  repeat' first
    | (extract_lets +onlyGivenNames x1; clear_value (hx : x1 = _); refine Keeps.cut x1 ?_ (fun h => ?_); rw [hx]; clear hx x1; rotate_left; clear hx; rotate_right)
    | (extract_lets +onlyGivenNames x1; clear_value (hx : x1 = _); refine Keeps.cut1 x1 ?_ (fun h => ?_); rw [hx]; clear hx x1; rotate_left; clear hx; rotate_right)
    | (extract_lets +onlyGivenNames x1; clear_value (hx : x1 = _); refine Keeps.cut2 x1 ?_ (fun h => ?_); rw [hx]; clear hx x1; rotate_left; clear hx; rotate_right)
    | (extract_lets +onlyGivenNames x1; clear_value (hx : x1 = _); clear hx)
    | with_reducible assumption
    | with_reducible exact Keeps.refl _ _
    | decide +kernel
    | with_reducible apply Keeps.putA
    | with_reducible apply Keeps.setBA
    | with_reducible apply Keeps.noDueA
    | with_reducible apply Keeps.via (State.bootAppend_keeps ..)
    | with_reducible apply Keeps.via (State.enterMode_keeps ..)
    | with_reducible apply Keeps.via (State.logMaintain_keeps ..)
    | with_reducible apply Keeps.via (State.idleStart_keeps ..)
    | with_reducible apply Keeps.iteA

def State.holdLimit_w : Nat := fm H.WARM_HOLD_END
theorem State.holdLimit_keeps (s : State) : Keeps State.holdLimit_w s (s.holdLimit) := by
  unfold State.holdLimit
  repeat' first
    | with_reducible assumption
    | with_reducible exact Keeps.refl _ _
    | decide +kernel
    | with_reducible apply Keeps.setDueA
    | with_reducible apply Keeps.iteA

theorem Attempt.describe_keeps (b : Attempt) : Keeps m_boot b.s b.describe := by
  unfold Attempt.describe
  dsimp only
  iterate 9 refine Keeps.putA (by decide +kernel) ?_
  exact Keeps.refl _ _

def State.heldApply_w : Nat := fm H.HDR_CONTACT ||| m_heldEntries ||| State.bindAll_w
theorem State.heldApply_keeps (s : State) : Keeps State.heldApply_w s (s.heldApply) := by
  unfold State.heldApply
  repeat' first
    | with_reducible assumption
    | with_reducible exact Keeps.refl _ _
    | decide +kernel
    | with_reducible apply Keeps.setBA
    | with_reducible apply Keeps.via (State.bindAll_keeps ..)
    | with_reducible apply Keeps.iteA
    | with_reducible refine Keeps.trans ?_ (Keeps.c_heldEntries _ ?_)

theorem Attempt.succeed_keeps (b : Attempt) (w : BootWorld) : Keeps m_boot b.s (b.succeed w) := by
  have h1 (o : Nat) : Keeps m_boot b.s (b.describe.standby w o b.slot) :=
    Keeps.via (State.standby_keeps ..) (by decide +kernel) (Attempt.describe_keeps b)
  have h2 (c : Prop) [Decidable c] (t : State) (h : Keeps m_boot b.s t) : Keeps m_boot b.s (if c then t.dirRewrite b.slot else t) :=
    Keeps.iteA (Keeps.via (State.dirRewrite_keeps ..) (by decide +kernel) h) h
  have h3 (t : State) (h : Keeps m_boot b.s t) : Keeps m_boot b.s (if b.io.isEmpty then t else t.ioSetup b.io).holdLimit :=
    Keeps.via (State.holdLimit_keeps ..) (by decide +kernel) (Keeps.iteA h (Keeps.via (State.ioSetup_keeps ..) (by decide +kernel) h))
  have h4 (t : State) (h : Keeps m_boot b.s t) : Keeps m_boot b.s (if t.mode ≠ mSTANDBY then t.heldApply
      else if t.on H.HDR_CONTACT 0 then t.contactBegin else t.autoBegin) :=
    Keeps.iteA (Keeps.via (State.heldApply_keeps ..) (by decide +kernel) h)
      (Keeps.iteA (Keeps.via (State.contactBegin_keeps ..) (by decide +kernel) h) (Keeps.via (State.autoBegin_keeps ..) (by decide +kernel) h))
  exact h4 _ (h3 _ (h2 _ _ (h1 _)))

def State.bootDefaults_w : Nat := fm F.BOOT_REASON_CODE ||| fm F.SEC_FW_VER_VERSION ||| fm F.BOOT_REASON_CELLAR_LOST |||
    fm H.SITE_FREE ||| fm F.CFG_STAT_SOURCE ||| State.bootAppend_w ||| State.arraysUp_w ||| State.cellarUp_w |||
    State.fabricUp_w ||| State.powerUp_w ||| State.stabCount_w ||| State.dropEntry_w ||| State.dropField_w H.ENG_AUTO_ON |||
    State.standby_w ||| State.contactBegin_w
theorem State.bootDefaults_keeps (s : State) (w : BootWorld) (c : Nat) : Keeps State.bootDefaults_w s (s.bootDefaults w c) := by
  unfold State.bootDefaults
  repeat' first
    | (extract_lets +onlyGivenNames x1; clear_value (hx : x1 = _); refine Keeps.cut x1 ?_ (fun h => ?_); rw [hx]; clear hx x1; rotate_left; clear hx; rotate_right)
    | (extract_lets +onlyGivenNames x1; clear_value (hx : x1 = _); refine Keeps.cut1 x1 ?_ (fun h => ?_); rw [hx]; clear hx x1; rotate_left; clear hx; rotate_right)
    | (extract_lets +onlyGivenNames x1; clear_value (hx : x1 = _); refine Keeps.cut2 x1 ?_ (fun h => ?_); rw [hx]; clear hx x1; rotate_left; clear hx; rotate_right)
    | (extract_lets +onlyGivenNames x1; clear_value (hx : x1 = _); clear hx)
    | with_reducible assumption
    | with_reducible exact Keeps.refl _ _
    | decide +kernel
    | with_reducible apply Keeps.putA
    | with_reducible apply Keeps.setBA
    | with_reducible refine Keeps.eachA ?_ (fun _ _ => ?_)
    | with_reducible apply Keeps.via (State.bootAppend_keeps ..)
    | with_reducible apply Keeps.via (State.arraysUp_keeps ..)
    | with_reducible apply Keeps.via (State.cellarUp_keeps ..)
    | with_reducible apply Keeps.via (State.fabricUp_keeps ..)
    | with_reducible apply Keeps.via (State.powerUp_keeps ..)
    | with_reducible apply Keeps.via (State.stabCount_keeps ..)
    | with_reducible apply Keeps.via (State.dropEntry_keeps ..)
    | with_reducible apply Keeps.via (State.dropField_keeps ..)
    | with_reducible apply Keeps.via (State.standby_keeps ..)
    | with_reducible apply Keeps.via (State.contactBegin_keeps ..)
    | with_reducible apply Keeps.iteA

/-- The fields that MINIMAL drops. -/
def minimalDrops : List Field := [H.PD_PANTRY, H.PD_H123, H.PD_ENG, H.PD_TILE] ++ tileHidden
    ++ ((regsCHAN ++ regsDPS ++ regsSMU ++ regsTDC ++ regsACQ).map RegName.fields).flatten

def State.minimal_w : Nat := m_boot
theorem State.minimal_keeps (s : State) (cause : Nat) : Keeps State.minimal_w s (s.minimal cause) := by
  have h1 : Keeps m_boot s (s.allSafe.each (s.entries.map (fun p => p.2)) (fun t e => (t.freeUnits e).freeEngine e)).celDrop :=
    Keeps.via (State.celDrop_keeps ..) (by decide +kernel) (Keeps.eachA ((State.allSafe_keeps ..).mono (by decide +kernel))
      (fun _ _ => Keeps.via (State.freeEngine_keeps ..) (by decide +kernel) ((State.freeUnits_keeps ..).mono (by decide +kernel))))
  have h2 (t : State) (h : Keeps m_boot s t) : Keeps m_boot s
      ((t.each [1, 2, 3, 4, 5, 6, 7] (fun t p => (t.porchOff p).setB H.PD_PORCH p false)).fabricUp [0]) :=
    Keeps.via (State.fabricUp_keeps ..) (by decide +kernel) (Keeps.eachA h
      (fun _ _ => Keeps.setBA (by decide +kernel) ((State.porchOff_keeps ..).mono (by decide +kernel))))
  have h3 (t : State) (h : Keeps m_boot s t) : Keeps m_boot s (t.dropFields minimalDrops) :=
    Keeps.via (State.dropFields_keeps ..) (by decide +kernel) h
  have h4 (t : State) (h : Keeps m_boot s t) : Keeps m_boot s ({ t with entries := [], heldEntries := [], corr := [], cstore := [], scratch := memClear t.scratch 0x20000 0x1E0000 }) :=
    h.trans (Keeps.c_scratch_corr_cstore_entries_heldEntries _ _ _ _ _ (by decide +kernel) (fun w => memClear_wf _ _ _ w.2.2.1) (fun _ => rfl)
      (fun _ => rfl) (fun _ => rfl))
  unfold State.minimal
  dsimp only
  exact Keeps.via (State.enterMode_keeps ..) (by decide +kernel) (Keeps.putA (by decide +kernel) (Keeps.putA (by decide +kernel)
    (Keeps.putA (by decide +kernel) (Keeps.noDueA (by decide +kernel) (h4 _ (h3 _ (h2 _ h1)))))))

def State.attemptFailed_w : Nat := fm F.BOOT_REASON_CODE ||| fm F.BOOT_REASON_STEP ||| State.attemptFails_w |||
    State.bootAppend_w
theorem State.attemptFailed_keeps (s : State) (slot c st : Nat) : Keeps State.attemptFailed_w s (s.attemptFailed slot c st) := by
  unfold State.attemptFailed
  repeat' first
    | with_reducible assumption
    | with_reducible exact Keeps.refl _ _
    | decide +kernel
    | with_reducible apply Keeps.putA
    | with_reducible apply Keeps.via (State.attemptFails_keeps ..)
    | with_reducible apply Keeps.via (State.bootAppend_keeps ..)

def State.attempts_w : Nat := m_boot
theorem State.attempts_keeps (s : State) (w : BootWorld) (n : Nat) : Keeps State.attempts_w s (s.attempts w n) := by
  have hm (t : State) (c : Nat) : Keeps m_boot t (t.minimal c) := (State.minimal_keeps ..).mono (by decide +kernel)
  induction n generalizing s with
  | zero => exact hm _ _
  | succ n ih =>
    rw [State.attempts]
    dsimp only
    have h1 := State.attempt_keeps s w s.slotChosen
    generalize s.attempt w s.slotChosen = b at h1
    refine Keeps.iteA (hm _ _) (Keeps.iteA ?_ ?_)
    · have h2 (t : State) (h : Keeps m_boot s t) : Keeps m_boot s (({ b with s := t } : Attempt).succeed w) :=
        h.trans (Attempt.succeed_keeps ({ b with s := t } : Attempt) w)
      exact h2 _ (Keeps.iteA (Keeps.setBA (by decide +kernel) h1) h1)
    · exact (Keeps.via (State.attemptFailed_keeps ..) (by decide +kernel) h1).trans (ih _)

def State.attemptCount_w : Nat := fm F.BOOT_ATTEMPT_FAILS ||| fm F.BOOT_ATTEMPT_SLOT ||| fm F.BOOT_ATTEMPT_FROM_FLASH |||
    State.attemptFails_w
theorem State.attemptCount_keeps (s : State) : Keeps State.attemptCount_w s (s.attemptCount) := by
  unfold State.attemptCount
  repeat' first
    | (extract_lets +onlyGivenNames x1; clear_value (hx : x1 = _); refine Keeps.cut x1 ?_ (fun h => ?_); rw [hx]; clear hx x1; rotate_left; clear hx; rotate_right)
    | (extract_lets +onlyGivenNames x1; clear_value (hx : x1 = _); refine Keeps.cut1 x1 ?_ (fun h => ?_); rw [hx]; clear hx x1; rotate_left; clear hx; rotate_right)
    | (extract_lets +onlyGivenNames x1; clear_value (hx : x1 = _); refine Keeps.cut2 x1 ?_ (fun h => ?_); rw [hx]; clear hx x1; rotate_left; clear hx; rotate_right)
    | (extract_lets +onlyGivenNames x1; clear_value (hx : x1 = _); clear hx)
    | with_reducible assumption
    | with_reducible exact Keeps.refl _ _
    | decide +kernel
    | with_reducible apply Keeps.putA
    | with_reducible apply Keeps.setBA
    | with_reducible apply Keeps.via (State.attemptFails_keeps ..)
    | with_reducible apply Keeps.iteA
    | split

def State.bootStep4_w : Nat := fm H.FLASH_SIZE ||| fm F.BOOT_REASON_CODE ||| fm F.CFG_DIR_GEN_GEN ||| State.minimal_w |||
    State.bootDefaults_w ||| State.attemptCount_w ||| State.attemptFailed_w ||| State.attempts_w
theorem State.bootStep4_keeps (s : State) (w : BootWorld) : Keeps State.bootStep4_w s (s.bootStep4 w) := by
  unfold State.bootStep4
  repeat' first
    | (extract_lets +onlyGivenNames x1; clear_value (hx : x1 = _); refine Keeps.cut x1 ?_ (fun h => ?_); rw [hx]; clear hx x1; rotate_left; clear hx; rotate_right)
    | (extract_lets +onlyGivenNames x1; clear_value (hx : x1 = _); refine Keeps.cut1 x1 ?_ (fun h => ?_); rw [hx]; clear hx x1; rotate_left; clear hx; rotate_right)
    | (extract_lets +onlyGivenNames x1; clear_value (hx : x1 = _); refine Keeps.cut2 x1 ?_ (fun h => ?_); rw [hx]; clear hx x1; rotate_left; clear hx; rotate_right)
    | (extract_lets +onlyGivenNames x1; clear_value (hx : x1 = _); clear hx)
    | with_reducible assumption
    | with_reducible exact Keeps.refl _ _
    | decide +kernel
    | with_reducible apply Keeps.putA
    | with_reducible apply Keeps.via (State.minimal_keeps ..)
    | with_reducible apply Keeps.via (State.bootDefaults_keeps ..)
    | with_reducible apply Keeps.via (State.attemptCount_keeps ..)
    | with_reducible apply Keeps.via (State.attemptFailed_keeps ..)
    | with_reducible apply Keeps.via (State.attempts_keeps ..)
    | with_reducible apply Keeps.iteA
    | split

def State.bringup_w : Nat := fm H.PD_CORE ||| fm H.PD_H0 ||| fm H.BOOT_PHASE ||| fm H.STAT_LED ||| State.wipeDone_w |||
    State.nonceDraw_w
theorem State.bringup_keeps (s : State) : Keeps State.bringup_w s (s.bringup) := by
  unfold State.bringup
  repeat' first
    | (extract_lets +onlyGivenNames x1; clear_value (hx : x1 = _); refine Keeps.cut x1 ?_ (fun h => ?_); rw [hx]; clear hx x1; rotate_left; clear hx; rotate_right)
    | (extract_lets +onlyGivenNames x1; clear_value (hx : x1 = _); refine Keeps.cut1 x1 ?_ (fun h => ?_); rw [hx]; clear hx x1; rotate_left; clear hx; rotate_right)
    | (extract_lets +onlyGivenNames x1; clear_value (hx : x1 = _); refine Keeps.cut2 x1 ?_ (fun h => ?_); rw [hx]; clear hx x1; rotate_left; clear hx; rotate_right)
    | (extract_lets +onlyGivenNames x1; clear_value (hx : x1 = _); clear hx)
    | with_reducible assumption
    | with_reducible exact Keeps.refl _ _
    | decide +kernel
    | with_reducible apply Keeps.putA
    | with_reducible apply Keeps.setBA
    | with_reducible apply Keeps.via (State.wipeDone_keeps ..)
    | with_reducible apply Keeps.via (State.nonceDraw_keeps ..)
    | with_reducible apply Keeps.iteA

def State.refDetect_w : Nat := fm H.BOOT_PHASE ||| fm H.BOOT_TMR_END ||| fm H.STAT_LED
theorem State.refDetect_keeps (s : State) : Keeps State.refDetect_w s (s.refDetect) := by
  unfold State.refDetect
  repeat' first
    | with_reducible assumption
    | with_reducible exact Keeps.refl _ _
    | decide +kernel
    | with_reducible apply Keeps.putA
    | with_reducible apply Keeps.setDueA
    | with_reducible apply Keeps.iteA

def State.bootExpiry_w : Nat := m_now ||| State.failingReset_w F.RST_CAUSE_WDOG
theorem State.bootExpiry_keeps (s : State) : Keeps State.bootExpiry_w s (s.bootExpiry) := by
  unfold State.bootExpiry
  repeat' first
    | with_reducible assumption
    | with_reducible exact Keeps.refl _ _
    | decide +kernel
    | with_reducible apply Keeps.upToA
    | with_reducible apply Keeps.via (State.failingReset_keeps ..)
    | with_reducible apply Keeps.iteA
    | split

def State.standbyEntry_w : Nat := State.bootExpiry_w ||| State.safeUntil_w ||| State.trimLoad_w ||| State.bootStep4_w
theorem State.standbyEntry_keeps (s : State) (w : BootWorld) : Keeps State.standbyEntry_w s (s.standbyEntry w) := by
  unfold State.standbyEntry
  repeat' first
    | with_reducible assumption
    | with_reducible exact Keeps.refl _ _
    | decide +kernel
    | with_reducible apply Keeps.via (State.bootExpiry_keeps ..)
    | with_reducible apply Keeps.via (State.safeUntil_keeps ..)
    | with_reducible apply Keeps.via (State.trimLoad_keeps ..)
    | with_reducible apply Keeps.via (State.bootStep4_keeps ..)
    | with_reducible apply Keeps.iteA
    | split

def State.warmHoldExpiry_w : Nat := fm H.WARM_HOLD_END ||| m_now ||| State.siteAbort_w
theorem State.warmHoldExpiry_keeps (s : State) : Keeps State.warmHoldExpiry_w s (s.warmHoldExpiry) := by
  unfold State.warmHoldExpiry
  repeat' first
    | (extract_lets +onlyGivenNames x1; clear_value (hx : x1 = _); refine Keeps.cut x1 ?_ (fun h => ?_); rw [hx]; clear hx x1; rotate_left; clear hx; rotate_right)
    | (extract_lets +onlyGivenNames x1; clear_value (hx : x1 = _); refine Keeps.cut1 x1 ?_ (fun h => ?_); rw [hx]; clear hx x1; rotate_left; clear hx; rotate_right)
    | (extract_lets +onlyGivenNames x1; clear_value (hx : x1 = _); refine Keeps.cut2 x1 ?_ (fun h => ?_); rw [hx]; clear hx x1; rotate_left; clear hx; rotate_right)
    | (extract_lets +onlyGivenNames x1; clear_value (hx : x1 = _); clear hx)
    | with_reducible assumption
    | with_reducible exact Keeps.refl _ _
    | decide +kernel
    | with_reducible apply Keeps.noDueA
    | with_reducible apply Keeps.upToA
    | with_reducible refine Keeps.eachA ?_ (fun _ _ => ?_)
    | with_reducible apply Keeps.via (State.siteAbort_keeps ..)
    | split

def State.writeContactCtl_w : Nat := fm F.CONTACT_CTL_DONE ||| fm F.CONTACT_CTL_REFUSED ||| State.contactBegin_w |||
    State.ok_w
theorem State.writeContactCtl_keeps (s : State) (v : Nat) : Keeps State.writeContactCtl_w s (s.writeContactCtl v).1 := by
  unfold State.writeContactCtl
  repeat' first
    | (extract_lets +onlyGivenNames x1; clear_value (hx : x1 = _); refine Keeps.cut x1 ?_ (fun h => ?_); rw [hx]; clear hx x1; rotate_left; clear hx; rotate_right)
    | (extract_lets +onlyGivenNames x1; clear_value (hx : x1 = _); refine Keeps.cut1 x1 ?_ (fun h => ?_); rw [hx]; clear hx x1; rotate_left; clear hx; rotate_right)
    | (extract_lets +onlyGivenNames x1; clear_value (hx : x1 = _); refine Keeps.cut2 x1 ?_ (fun h => ?_); rw [hx]; clear hx x1; rotate_left; clear hx; rotate_right)
    | (extract_lets +onlyGivenNames x1; clear_value (hx : x1 = _); clear hx)
    | with_reducible assumption
    | with_reducible exact Keeps.refl _ _
    | decide +kernel
    | with_reducible apply Keeps.setBA
    | with_reducible apply Keeps.via (State.contactBegin_keeps ..)
    | with_reducible apply Keeps.via (State.ok_keeps ..)
    | with_reducible apply Keeps.iteA
    | with_reducible apply Keeps.ite1

def State.heldDone_w : Nat := State.heldApply_w ||| State.autoBegin_w
theorem State.heldDone_keeps (s : State) : Keeps State.heldDone_w s (s.heldDone) := by
  unfold State.heldDone
  repeat' first
    | with_reducible assumption
    | with_reducible exact Keeps.refl _ _
    | decide +kernel
    | with_reducible apply Keeps.via (State.heldApply_keeps ..)
    | with_reducible apply Keeps.via (State.autoBegin_keeps ..)
    | with_reducible apply Keeps.iteA

def State.contactDone_w : Nat := fm H.CONTACT_END ||| fm F.CONTACT_CTL_BUSY ||| fm F.CONTACT_CTL_DONE ||| fm H.STAT_LED |||
    m_now ||| m_scratch ||| State.chSafe_w ||| State.event_w ||| State.heldDone_w
theorem State.contactDone_keeps (s : State) (seen : List ContactSeen) : Keeps State.contactDone_w s (s.contactDone seen) := by
  unfold State.contactDone
  repeat' first
    | (extract_lets +onlyGivenNames x1; clear_value (hx : x1 = _); refine Keeps.cut x1 ?_ (fun h => ?_); rw [hx]; clear hx x1; rotate_left; clear hx; rotate_right)
    | (extract_lets +onlyGivenNames x1; clear_value (hx : x1 = _); refine Keeps.cut1 x1 ?_ (fun h => ?_); rw [hx]; clear hx x1; rotate_left; clear hx; rotate_right)
    | (extract_lets +onlyGivenNames x1; clear_value (hx : x1 = _); refine Keeps.cut2 x1 ?_ (fun h => ?_); rw [hx]; clear hx x1; rotate_left; clear hx; rotate_right)
    | (extract_lets +onlyGivenNames x1; clear_value (hx : x1 = _); clear hx)
    | with_reducible assumption
    | with_reducible exact Keeps.refl _ _
    | decide +kernel
    | with_reducible apply Keeps.putA
    | with_reducible apply Keeps.setBA
    | with_reducible apply Keeps.noDueA
    | with_reducible apply Keeps.upToA
    | with_reducible apply Keeps.spWriteA
    | with_reducible refine Keeps.eachA ?_ (fun _ _ => ?_)
    | with_reducible apply Keeps.via (State.chSafe_keeps ..)
    | with_reducible apply Keeps.via (State.event_keeps ..)
    | with_reducible apply Keeps.via (State.heldDone_keeps ..)
    | split

end Sys2Proof.Machine
end

