-- ==== Sys2Proof/Laws/KeepsSupply.lean ====
section
/-!
SUPPORT. What every operation of Machine/Supply.lean can change: its mask and its Keeps lemma.
-/

set_option Elab.async false
set_option linter.all false

namespace Sys2Proof.Machine

def State.levelSettled_w : Nat := fm H.CH_SETTLE_END ||| fm H.CH_SETTLE_END1 ||| m_now
theorem State.levelSettled_keeps (s : State) (ch : Nat) : Keeps State.levelSettled_w s (s.levelSettled ch) := by
  unfold State.levelSettled
  repeat' first
    | with_reducible assumption
    | with_reducible exact Keeps.refl _ _
    | decide +kernel
    | with_reducible apply Keeps.noDueA
    | with_reducible apply Keeps.upToA
    | split

def State.pmuConnectDone_w : Nat := m_now ||| State.pmuMoved_w
theorem State.pmuConnectDone_keeps (s : State) (ch : Nat) : Keeps State.pmuConnectDone_w s (s.pmuConnectDone ch) := by
  unfold State.pmuConnectDone
  repeat' first
    | with_reducible assumption
    | with_reducible exact Keeps.refl _ _
    | decide +kernel
    | with_reducible apply Keeps.upToA
    | with_reducible apply Keeps.via (State.pmuMoved_keeps ..)
    | split

def State.pmuRangeDone_w : Nat := fm H.CH_PMU_RNG_END ||| fm F.PMU_CTRL_RANGING ||| fm H.CH_PMU_MEAS_WAIT |||
    fm H.CH_PMU_MEAS_END ||| m_now
theorem State.pmuRangeDone_keeps (s : State) (ch : Nat) : Keeps State.pmuRangeDone_w s (s.pmuRangeDone ch) := by
  unfold State.pmuRangeDone
  repeat' first
    | (extract_lets +onlyGivenNames x1; clear_value (hx : x1 = _); refine Keeps.cut x1 ?_ (fun h => ?_); rw [hx]; clear hx x1; rotate_left; clear hx; rotate_right)
    | (extract_lets +onlyGivenNames x1; clear_value (hx : x1 = _); refine Keeps.cut1 x1 ?_ (fun h => ?_); rw [hx]; clear hx x1; rotate_left; clear hx; rotate_right)
    | (extract_lets +onlyGivenNames x1; clear_value (hx : x1 = _); refine Keeps.cut2 x1 ?_ (fun h => ?_); rw [hx]; clear hx x1; rotate_left; clear hx; rotate_right)
    | (extract_lets +onlyGivenNames x1; clear_value (hx : x1 = _); clear hx)
    | with_reducible assumption
    | with_reducible exact Keeps.refl _ _
    | decide +kernel
    | with_reducible apply Keeps.setBA
    | with_reducible apply Keeps.setDueA
    | with_reducible apply Keeps.noDueA
    | with_reducible apply Keeps.upToA
    | with_reducible apply Keeps.iteA
    | split

def State.pmuMeasDone_w : Nat := m_now ||| State.pmuDone_w ||| State.engMeasured_w
theorem State.pmuMeasDone_keeps (s : State) (ch : Nat) (mean : Int) (clamped beyond : Bool) : Keeps State.pmuMeasDone_w s (s.pmuMeasDone ch mean clamped beyond) := by
  unfold State.pmuMeasDone
  repeat' first
    | with_reducible assumption
    | with_reducible exact Keeps.refl _ _
    | decide +kernel
    | with_reducible apply Keeps.upToA
    | with_reducible apply Keeps.via (State.pmuDone_keeps ..)
    | with_reducible apply Keeps.via (State.engMeasured_keeps ..)
    | split

def State.rampEnd_w : Nat := m_now ||| State.dpsFreeze_w
theorem State.rampEnd_keeps (s : State) (d : Nat) : Keeps State.rampEnd_w s (s.rampEnd d) := by
  unfold State.rampEnd
  repeat' first
    | (extract_lets +onlyGivenNames x1; clear_value (hx : x1 = _); refine Keeps.cut x1 ?_ (fun h => ?_); rw [hx]; clear hx x1; rotate_left; clear hx; rotate_right)
    | (extract_lets +onlyGivenNames x1; clear_value (hx : x1 = _); refine Keeps.cut1 x1 ?_ (fun h => ?_); rw [hx]; clear hx x1; rotate_left; clear hx; rotate_right)
    | (extract_lets +onlyGivenNames x1; clear_value (hx : x1 = _); refine Keeps.cut2 x1 ?_ (fun h => ?_); rw [hx]; clear hx x1; rotate_left; clear hx; rotate_right)
    | (extract_lets +onlyGivenNames x1; clear_value (hx : x1 = _); clear hx)
    | with_reducible assumption
    | with_reducible exact Keeps.refl _ _
    | decide +kernel
    | with_reducible apply Keeps.upToA
    | with_reducible apply Keeps.via (State.dpsFreeze_keeps ..)
    | split

def State.dpsSettled_w : Nat := fm F.DPS_STAT_SETTLED ||| m_now
theorem State.dpsSettled_keeps (s : State) (d : Nat) : Keeps State.dpsSettled_w s (s.dpsSettled d) := by
  unfold State.dpsSettled
  repeat' first
    | (extract_lets +onlyGivenNames x1; clear_value (hx : x1 = _); refine Keeps.cut x1 ?_ (fun h => ?_); rw [hx]; clear hx x1; rotate_left; clear hx; rotate_right)
    | (extract_lets +onlyGivenNames x1; clear_value (hx : x1 = _); refine Keeps.cut1 x1 ?_ (fun h => ?_); rw [hx]; clear hx x1; rotate_left; clear hx; rotate_right)
    | (extract_lets +onlyGivenNames x1; clear_value (hx : x1 = _); refine Keeps.cut2 x1 ?_ (fun h => ?_); rw [hx]; clear hx x1; rotate_left; clear hx; rotate_right)
    | (extract_lets +onlyGivenNames x1; clear_value (hx : x1 = _); clear hx)
    | with_reducible assumption
    | with_reducible exact Keeps.refl _ _
    | decide +kernel
    | with_reducible apply Keeps.setBA
    | with_reducible apply Keeps.upToA
    | with_reducible apply Keeps.iteA

def State.regLoss_w : Nat := fm F.DPS_STAT_REG_LOSS ||| fm F.DPS_STAT_SETTLED ||| State.faultRaise_w ||| State.wakeIf_w
theorem State.regLoss_keeps (s : State) (d : Nat) : Keeps State.regLoss_w s (s.regLoss d) := by
  unfold State.regLoss
  repeat' first
    | (extract_lets +onlyGivenNames x1; clear_value (hx : x1 = _); refine Keeps.cut x1 ?_ (fun h => ?_); rw [hx]; clear hx x1; rotate_left; clear hx; rotate_right)
    | (extract_lets +onlyGivenNames x1; clear_value (hx : x1 = _); refine Keeps.cut1 x1 ?_ (fun h => ?_); rw [hx]; clear hx x1; rotate_left; clear hx; rotate_right)
    | (extract_lets +onlyGivenNames x1; clear_value (hx : x1 = _); refine Keeps.cut2 x1 ?_ (fun h => ?_); rw [hx]; clear hx x1; rotate_left; clear hx; rotate_right)
    | (extract_lets +onlyGivenNames x1; clear_value (hx : x1 = _); clear hx)
    | with_reducible assumption
    | with_reducible exact Keeps.refl _ _
    | decide +kernel
    | with_reducible apply Keeps.setBA
    | with_reducible apply Keeps.via (State.faultRaise_keeps ..)
    | with_reducible apply Keeps.via (State.wakeIf_keeps ..)
    | with_reducible apply Keeps.iteA

def State.senseDrop_w : Nat := fm F.DPS_STAT_SENSE_DROP
theorem State.senseDrop_keeps (s : State) (d : Nat) : Keeps State.senseDrop_w s (s.senseDrop d) := by
  unfold State.senseDrop
  repeat' first
    | with_reducible assumption
    | with_reducible exact Keeps.refl _ _
    | decide +kernel
    | with_reducible apply Keeps.setBA
    | with_reducible apply Keeps.iteA

def State.share_w : Nat := fm F.DPS_STAT_SHARE
theorem State.share_keeps (s : State) (d : Nat) : Keeps State.share_w s (s.share d) := by
  unfold State.share
  repeat' first
    | with_reducible assumption
    | with_reducible exact Keeps.refl _ _
    | decide +kernel
    | with_reducible apply Keeps.setBA
    | with_reducible apply Keeps.iteA

def State.dpsRangeDone_w : Nat := fm H.DPS_RNG_END ||| m_now
theorem State.dpsRangeDone_keeps (s : State) (d : Nat) : Keeps State.dpsRangeDone_w s (s.dpsRangeDone d) := by
  unfold State.dpsRangeDone
  repeat' first
    | with_reducible assumption
    | with_reducible exact Keeps.refl _ _
    | decide +kernel
    | with_reducible apply Keeps.noDueA
    | with_reducible apply Keeps.upToA
    | split

def State.currentLimit_w : Nat := fm F.DPS_STAT_IN_LIMIT ||| fm F.DPS_STAT_ILIM_SEEN ||| fm H.DPS_HELD |||
    fm F.DPS_STAT_RAMP_HELD ||| State.dpsFreeze_w
theorem State.currentLimit_keeps (s : State) (d : Nat) (limited : Bool) : Keeps State.currentLimit_w s (s.currentLimit d limited) := by
  unfold State.currentLimit
  repeat' first
    | (extract_lets +onlyGivenNames x1; clear_value (hx : x1 = _); refine Keeps.cut x1 ?_ (fun h => ?_); rw [hx]; clear hx x1; rotate_left; clear hx; rotate_right)
    | (extract_lets +onlyGivenNames x1; clear_value (hx : x1 = _); refine Keeps.cut1 x1 ?_ (fun h => ?_); rw [hx]; clear hx x1; rotate_left; clear hx; rotate_right)
    | (extract_lets +onlyGivenNames x1; clear_value (hx : x1 = _); refine Keeps.cut2 x1 ?_ (fun h => ?_); rw [hx]; clear hx x1; rotate_left; clear hx; rotate_right)
    | (extract_lets +onlyGivenNames x1; clear_value (hx : x1 = _); clear hx)
    | with_reducible assumption
    | with_reducible exact Keeps.refl _ _
    | decide +kernel
    | with_reducible apply Keeps.setBA
    | with_reducible apply Keeps.via (State.dpsFreeze_keeps ..)
    | with_reducible apply Keeps.iteA

def State.smuRangeDone_w : Nat := fm H.SMU_RNG_END ||| m_now
theorem State.smuRangeDone_keeps (s : State) (u : Nat) : Keeps State.smuRangeDone_w s (s.smuRangeDone u) := by
  unfold State.smuRangeDone
  repeat' first
    | with_reducible assumption
    | with_reducible exact Keeps.refl _ _
    | decide +kernel
    | with_reducible apply Keeps.noDueA
    | with_reducible apply Keeps.upToA
    | split

def State.smuCompliance_w : Nat := fm F.SMU_STAT_IN_COMP ||| fm F.SMU_STAT_COMP_SEEN
theorem State.smuCompliance_keeps (s : State) (u : Nat) (limited : Bool) : Keeps State.smuCompliance_w s (s.smuCompliance u limited) := by
  unfold State.smuCompliance
  repeat' first
    | with_reducible assumption
    | with_reducible exact Keeps.refl _ _
    | decide +kernel
    | with_reducible apply Keeps.setBA
    | with_reducible apply Keeps.iteA

def State.supervision_w : Nat := fm F.SMU_STAT_MISMATCH ||| fm H.SMU_DAC0 ||| State.smuOff_w ||| State.faultRaise_w |||
    State.wakeIf_w
theorem State.supervision_keeps (s : State) (u : Nat) : Keeps State.supervision_w s (s.supervision u) := by
  unfold State.supervision
  repeat' first
    | (extract_lets +onlyGivenNames x1; clear_value (hx : x1 = _); refine Keeps.cut x1 ?_ (fun h => ?_); rw [hx]; clear hx x1; rotate_left; clear hx; rotate_right)
    | (extract_lets +onlyGivenNames x1; clear_value (hx : x1 = _); refine Keeps.cut1 x1 ?_ (fun h => ?_); rw [hx]; clear hx x1; rotate_left; clear hx; rotate_right)
    | (extract_lets +onlyGivenNames x1; clear_value (hx : x1 = _); refine Keeps.cut2 x1 ?_ (fun h => ?_); rw [hx]; clear hx x1; rotate_left; clear hx; rotate_right)
    | (extract_lets +onlyGivenNames x1; clear_value (hx : x1 = _); clear hx)
    | with_reducible assumption
    | with_reducible exact Keeps.refl _ _
    | decide +kernel
    | with_reducible apply Keeps.setBA
    | with_reducible apply Keeps.via (State.smuOff_keeps ..)
    | with_reducible apply Keeps.via (State.faultRaise_keeps ..)
    | with_reducible apply Keeps.via (State.wakeIf_keeps ..)
    | with_reducible apply Keeps.iteA

def State.smuStatClear_w : Nat := fm F.SMU_STAT_CLAMP ||| fm F.SMU_STAT_COMP_SEEN ||| fm F.SMU_STAT_CLIP |||
    fm F.SMU_STAT_MISMATCH ||| fm F.SMU_STAT_TRIP_SEEN
theorem State.smuStatClear_keeps (s : State) (u v : Nat) : Keeps State.smuStatClear_w s (s.smuStatClear u v) := by
  unfold State.smuStatClear
  repeat' first
    | (extract_lets +onlyGivenNames x1; clear_value (hx : x1 = _); refine Keeps.cut x1 ?_ (fun h => ?_); rw [hx]; clear hx x1; rotate_left; clear hx; rotate_right)
    | (extract_lets +onlyGivenNames x1; clear_value (hx : x1 = _); refine Keeps.cut1 x1 ?_ (fun h => ?_); rw [hx]; clear hx x1; rotate_left; clear hx; rotate_right)
    | (extract_lets +onlyGivenNames x1; clear_value (hx : x1 = _); refine Keeps.cut2 x1 ?_ (fun h => ?_); rw [hx]; clear hx x1; rotate_left; clear hx; rotate_right)
    | (extract_lets +onlyGivenNames x1; clear_value (hx : x1 = _); clear hx)
    | with_reducible assumption
    | with_reducible exact Keeps.refl _ _
    | decide +kernel
    | with_reducible apply Keeps.setBA
    | with_reducible apply Keeps.iteA

def State.sineFreqSet_w : Nat := fm F.SMU_SINE_FREQ_FREQ ||| fm H.SMU_LOAD_PH
theorem State.sineFreqSet_keeps (s : State) (u v : Nat) : Keeps State.sineFreqSet_w s (s.sineFreqSet u v) := by
  unfold State.sineFreqSet
  repeat' first
    | with_reducible assumption
    | with_reducible exact Keeps.refl _ _
    | decide +kernel
    | with_reducible apply Keeps.putA
    | with_reducible apply Keeps.setBA

def State.sineValue_w : Nat := State.mean_w
theorem State.sineValue_keeps (s : State) (u : Nat) : Keeps State.sineValue_w s (s.sineValue u).2 := by
  unfold State.sineValue
  repeat' first
    | (extract_lets +onlyGivenNames x1; clear_value (hx : x1 = _); refine Keeps.cut x1 ?_ (fun h => ?_); rw [hx]; clear hx x1; rotate_left; clear hx; rotate_right)
    | (extract_lets +onlyGivenNames x1; clear_value (hx : x1 = _); refine Keeps.cut1 x1 ?_ (fun h => ?_); rw [hx]; clear hx x1; rotate_left; clear hx; rotate_right)
    | (extract_lets +onlyGivenNames x1; clear_value (hx : x1 = _); refine Keeps.cut2 x1 ?_ (fun h => ?_); rw [hx]; clear hx x1; rotate_left; clear hx; rotate_right)
    | (extract_lets +onlyGivenNames x1; clear_value (hx : x1 = _); clear hx)
    | with_reducible assumption
    | with_reducible exact Keeps.refl _ _
    | decide +kernel
    | with_reducible apply Keeps.via (State.mean_keeps ..)

def State.sineStep_w : Nat := fm H.SMU_MOD_T ||| fm H.SMU_PHASE ||| fm H.SMU_LOAD_PH ||| fm H.SMU_DAC |||
    fm F.SMU_STAT_CLIP ||| m_now ||| State.sineValue_w
theorem State.sineStep_keeps (s : State) (u : Nat) : Keeps State.sineStep_w s (s.sineStep u) := by
  unfold State.sineStep
  repeat' first
    | (extract_lets +onlyGivenNames x1; clear_value (hx : x1 = _); refine Keeps.cut x1 ?_ (fun h => ?_); rw [hx]; clear hx x1; rotate_left; clear hx; rotate_right)
    | (extract_lets +onlyGivenNames x1; clear_value (hx : x1 = _); refine Keeps.cut1 x1 ?_ (fun h => ?_); rw [hx]; clear hx x1; rotate_left; clear hx; rotate_right)
    | (extract_lets +onlyGivenNames x1; clear_value (hx : x1 = _); refine Keeps.cut2 x1 ?_ (fun h => ?_); rw [hx]; clear hx x1; rotate_left; clear hx; rotate_right)
    | (extract_lets +onlyGivenNames x1; clear_value (hx : x1 = _); clear hx)
    | with_reducible assumption
    | with_reducible exact Keeps.refl _ _
    | decide +kernel
    | with_reducible apply Keeps.putA
    | with_reducible apply Keeps.setBA
    | with_reducible apply Keeps.putIA
    | with_reducible apply Keeps.setDueA
    | with_reducible apply Keeps.upToA
    | with_reducible apply Keeps.via (State.sineValue_keeps ..)
    | with_reducible apply Keeps.iteA

def State.sumTake_w (left sumV sumI lim ovr : Field) : Nat := fms [left, sumV, sumI, lim, ovr]
theorem State.sumTake_keeps (s : State) (left sumV sumI lim ovr : Field) (i : Nat) (v c : Int) (limited beyond : Bool) :
    Keeps (State.sumTake_w left sumV sumI lim ovr) s (s.sumTake left sumV sumI lim ovr i v c limited beyond) := by
  have hm (f : Field) (h : f ∈ [left, sumV, sumI, lim, ovr]) : Sub (fm f) (State.sumTake_w left sumV sumI lim ovr) := fms_mem h
  have h1 : Keeps (State.sumTake_w left sumV sumI lim ovr) s
      (((s.put left i (s.get left i - 1)).put sumV i ((s.get sumV i : Int) + v).toNat).put sumI i
        ((((s.put left i (s.get left i - 1)).put sumV i ((s.get sumV i : Int) + v).toNat).get sumI i : Int) + c).toNat) :=
    Keeps.putA (hm _ (by simp)) (Keeps.putA (hm _ (by simp)) (Keeps.putA (hm _ (by simp)) (Keeps.refl _ _)))
  unfold State.sumTake
  have h2 (t : State) (h : Keeps (State.sumTake_w left sumV sumI lim ovr) s t) (f : Field) (hf : f ∈ [left, sumV, sumI, lim, ovr])
      (b : Bool) : Keeps (State.sumTake_w left sumV sumI lim ovr) s (if b then t.setB f i true else t) :=
    Keeps.iteA (Keeps.setBA (hm _ hf) h) h
  exact h2 _ (h2 _ h1 _ (by simp) _) _ (by simp) _

def State.dpsSample_w : Nat := fm H.DPS_SAMP_T ||| fm F.DPS_MON_V_VALUE ||| fm F.DPS_MON_I_VALUE ||| m_now |||
    State.sumTake_w H.DPS_MEAS_LEFT H.DPS_SUM_V H.DPS_SUM_I H.DPS_ACC_LIM H.DPS_ACC_OVER
theorem State.dpsSample_keeps (s : State) (d : Nat) (v c : Int) (limited beyond : Bool) : Keeps State.dpsSample_w s (s.dpsSample d v c limited beyond) := by
  unfold State.dpsSample
  repeat' first
    | (extract_lets +onlyGivenNames x1; clear_value (hx : x1 = _); refine Keeps.cut x1 ?_ (fun h => ?_); rw [hx]; clear hx x1; rotate_left; clear hx; rotate_right)
    | (extract_lets +onlyGivenNames x1; clear_value (hx : x1 = _); refine Keeps.cut1 x1 ?_ (fun h => ?_); rw [hx]; clear hx x1; rotate_left; clear hx; rotate_right)
    | (extract_lets +onlyGivenNames x1; clear_value (hx : x1 = _); refine Keeps.cut2 x1 ?_ (fun h => ?_); rw [hx]; clear hx x1; rotate_left; clear hx; rotate_right)
    | (extract_lets +onlyGivenNames x1; clear_value (hx : x1 = _); clear hx)
    | with_reducible assumption
    | with_reducible exact Keeps.refl _ _
    | decide +kernel
    | with_reducible apply Keeps.putIA
    | with_reducible apply Keeps.setDueA
    | with_reducible apply Keeps.upToA
    | with_reducible apply Keeps.via (State.sumTake_keeps ..)
    | with_reducible apply Keeps.iteA

def State.readBack_w : Nat := fm F.SMU_RB_RAW ||| State.mean_w
theorem State.readBack_keeps (s : State) (u : Nat) (v c : Int) : Keeps State.readBack_w s (s.readBack u v c) := by
  unfold State.readBack
  repeat' first
    | (extract_lets +onlyGivenNames x1; clear_value (hx : x1 = _); refine Keeps.cut x1 ?_ (fun h => ?_); rw [hx]; clear hx x1; rotate_left; clear hx; rotate_right)
    | (extract_lets +onlyGivenNames x1; clear_value (hx : x1 = _); refine Keeps.cut1 x1 ?_ (fun h => ?_); rw [hx]; clear hx x1; rotate_left; clear hx; rotate_right)
    | (extract_lets +onlyGivenNames x1; clear_value (hx : x1 = _); refine Keeps.cut2 x1 ?_ (fun h => ?_); rw [hx]; clear hx x1; rotate_left; clear hx; rotate_right)
    | (extract_lets +onlyGivenNames x1; clear_value (hx : x1 = _); clear hx)
    | with_reducible assumption
    | with_reducible exact Keeps.refl _ _
    | decide +kernel
    | with_reducible apply Keeps.putIA
    | with_reducible apply Keeps.via (State.mean_keeps ..)
    | with_reducible apply Keeps.iteA

def State.smuSample_w : Nat := fm H.SMU_SAMP_T ||| fm F.SMU_MON_V_VALUE ||| fm F.SMU_MON_I_VALUE ||| m_now |||
    State.readBack_w ||| State.sumTake_w H.SMU_MEAS_LEFT H.SMU_SUM_V H.SMU_SUM_I H.SMU_ACC_LIM H.SMU_ACC_OVER
theorem State.smuSample_keeps (s : State) (u : Nat) (v c : Int) (limited beyond : Bool) : Keeps State.smuSample_w s (s.smuSample u v c limited beyond) := by
  unfold State.smuSample
  repeat' first
    | (extract_lets +onlyGivenNames x1; clear_value (hx : x1 = _); refine Keeps.cut x1 ?_ (fun h => ?_); rw [hx]; clear hx x1; rotate_left; clear hx; rotate_right)
    | (extract_lets +onlyGivenNames x1; clear_value (hx : x1 = _); refine Keeps.cut1 x1 ?_ (fun h => ?_); rw [hx]; clear hx x1; rotate_left; clear hx; rotate_right)
    | (extract_lets +onlyGivenNames x1; clear_value (hx : x1 = _); refine Keeps.cut2 x1 ?_ (fun h => ?_); rw [hx]; clear hx x1; rotate_left; clear hx; rotate_right)
    | (extract_lets +onlyGivenNames x1; clear_value (hx : x1 = _); clear hx)
    | with_reducible assumption
    | with_reducible exact Keeps.refl _ _
    | decide +kernel
    | with_reducible apply Keeps.putIA
    | with_reducible apply Keeps.setDueA
    | with_reducible apply Keeps.upToA
    | with_reducible apply Keeps.via (State.readBack_keeps ..)
    | with_reducible apply Keeps.via (State.sumTake_keeps ..)
    | with_reducible apply Keeps.iteA

def State.monitorSample_w : Nat := State.dpsSample_w ||| State.smuSample_w
theorem State.monitorSample_keeps (s : State) (u : Supply) (v c : Int) (limited beyond : Bool) : Keeps State.monitorSample_w s (s.monitorSample u v c limited beyond) := by
  unfold State.monitorSample
  repeat' first
    | with_reducible assumption
    | with_reducible exact Keeps.refl _ _
    | decide +kernel
    | with_reducible apply Keeps.via (State.dpsSample_keeps ..)
    | with_reducible apply Keeps.via (State.smuSample_keeps ..)
    | with_reducible apply Keeps.iteA
    | split

def State.dpsMeasDone_w : Nat := fm F.DPS_MEAS_BUSY ||| fm F.DPS_RES_STAT_VALID ||| fm F.DPS_RES_STAT_STALE |||
    fm F.DPS_RES_V_VALUE ||| fm F.DPS_RES_I_VALUE ||| fm F.DPS_RES_STAT_LIMITED ||| fm F.DPS_RES_STAT_OVER |||
    State.mean_w ||| State.engMeasured_w
theorem State.dpsMeasDone_keeps (s : State) (d : Nat) : Keeps State.dpsMeasDone_w s (s.dpsMeasDone d) := by
  unfold State.dpsMeasDone
  repeat' first
    | (extract_lets +onlyGivenNames x1; clear_value (hx : x1 = _); refine Keeps.cut x1 ?_ (fun h => ?_); rw [hx]; clear hx x1; rotate_left; clear hx; rotate_right)
    | (extract_lets +onlyGivenNames x1; clear_value (hx : x1 = _); refine Keeps.cut1 x1 ?_ (fun h => ?_); rw [hx]; clear hx x1; rotate_left; clear hx; rotate_right)
    | (extract_lets +onlyGivenNames x1; clear_value (hx : x1 = _); refine Keeps.cut2 x1 ?_ (fun h => ?_); rw [hx]; clear hx x1; rotate_left; clear hx; rotate_right)
    | (extract_lets +onlyGivenNames x1; clear_value (hx : x1 = _); clear hx)
    | with_reducible assumption
    | with_reducible exact Keeps.refl _ _
    | decide +kernel
    | with_reducible apply Keeps.setBA
    | with_reducible apply Keeps.putIA
    | with_reducible apply Keeps.via (State.mean_keeps ..)
    | with_reducible apply Keeps.via (State.engMeasured_keeps ..)
    | with_reducible apply Keeps.iteA

def State.smuMeasDone_w : Nat := fm F.SMU_MEAS_BUSY ||| fm F.SMU_RES_STAT_VALID ||| fm F.SMU_RES_STAT_STALE |||
    fm F.SMU_RES_V_VALUE ||| fm F.SMU_RES_I_VALUE ||| fm F.SMU_RES_STAT_LIMITED ||| fm F.SMU_RES_STAT_OVER |||
    State.mean_w ||| State.engMeasured_w
theorem State.smuMeasDone_keeps (s : State) (u : Nat) : Keeps State.smuMeasDone_w s (s.smuMeasDone u) := by
  unfold State.smuMeasDone
  repeat' first
    | (extract_lets +onlyGivenNames x1; clear_value (hx : x1 = _); refine Keeps.cut x1 ?_ (fun h => ?_); rw [hx]; clear hx x1; rotate_left; clear hx; rotate_right)
    | (extract_lets +onlyGivenNames x1; clear_value (hx : x1 = _); refine Keeps.cut1 x1 ?_ (fun h => ?_); rw [hx]; clear hx x1; rotate_left; clear hx; rotate_right)
    | (extract_lets +onlyGivenNames x1; clear_value (hx : x1 = _); refine Keeps.cut2 x1 ?_ (fun h => ?_); rw [hx]; clear hx x1; rotate_left; clear hx; rotate_right)
    | (extract_lets +onlyGivenNames x1; clear_value (hx : x1 = _); clear hx)
    | with_reducible assumption
    | with_reducible exact Keeps.refl _ _
    | decide +kernel
    | with_reducible apply Keeps.setBA
    | with_reducible apply Keeps.putIA
    | with_reducible apply Keeps.via (State.mean_keeps ..)
    | with_reducible apply Keeps.via (State.engMeasured_keeps ..)
    | with_reducible apply Keeps.iteA

def State.measurementDone_w : Nat := State.dpsMeasDone_w ||| State.smuMeasDone_w
theorem State.measurementDone_keeps (s : State) (u : Supply) : Keeps State.measurementDone_w s (s.measurementDone u) := by
  unfold State.measurementDone
  repeat' first
    | with_reducible assumption
    | with_reducible exact Keeps.refl _ _
    | decide +kernel
    | with_reducible apply Keeps.via (State.dpsMeasDone_keeps ..)
    | with_reducible apply Keeps.via (State.smuMeasDone_keeps ..)
    | split

end Sys2Proof.Machine
end

