-- ==== Sys2Proof/Laws/KeepsRegBus.lean ====
section
/-!
SUPPORT. What every operation of Machine/RegBus.lean can change: its mask and its Keeps lemma.
-/

set_option Elab.async false
set_option linter.all false

namespace Sys2Proof.Machine

def State.mbxHostTake_w : Nat := fm F.MBX_HOST_RXEP_VALID ||| fm F.MBX_HOST_RXEP_EPOCH ||| m_h2d
theorem State.mbxHostTake_keeps (s : State) (b : Nat) : Keeps State.mbxHostTake_w s (s.mbxHostTake b).1 := by
  unfold State.mbxHostTake
  repeat' first
    | (extract_lets +onlyGivenNames x1; clear_value (hx : x1 = _); refine Keeps.cut x1 ?_ (fun h => ?_); rw [hx]; clear hx x1; rotate_left; clear hx; rotate_right)
    | (extract_lets +onlyGivenNames x1; clear_value (hx : x1 = _); refine Keeps.cut1 x1 ?_ (fun h => ?_); rw [hx]; clear hx x1; rotate_left; clear hx; rotate_right)
    | (extract_lets +onlyGivenNames x1; clear_value (hx : x1 = _); refine Keeps.cut2 x1 ?_ (fun h => ?_); rw [hx]; clear hx x1; rotate_left; clear hx; rotate_right)
    | (extract_lets +onlyGivenNames x1; clear_value (hx : x1 = _); clear hx)
    | with_reducible assumption
    | with_reducible exact Keeps.refl _ _
    | decide +kernel
    | with_reducible apply Keeps.putA
    | with_reducible apply Keeps.setBA
    | split
    | with_reducible refine Keeps.trans ?_ (Keeps.c_h2d _ ?_)

def State.mbxHostPost_w : Nat := m_d2h ||| State.bad_w ||| State.ok_w
theorem State.mbxHostPost_keeps (s : State) (b v : Nat) : Keeps State.mbxHostPost_w s (s.mbxHostPost b v).1 := by
  unfold State.mbxHostPost
  repeat' first
    | with_reducible assumption
    | with_reducible exact Keeps.refl _ _
    | decide +kernel
    | with_reducible apply Keeps.via (State.bad_keeps ..)
    | with_reducible apply Keeps.via (State.ok_keeps ..)
    | with_reducible apply Keeps.iteA
    | with_reducible apply Keeps.ite1
    | with_reducible refine Keeps.trans ?_ (Keeps.c_d2h _ ?_)

def State.mbxHostBell_w : Nat := fm F.MBX_HOST_DB_RX_DB ||| State.event_w ||| State.ok_w
theorem State.mbxHostBell_keeps (s : State) (b v : Nat) : Keeps State.mbxHostBell_w s (s.mbxHostBell b v).1 := by
  unfold State.mbxHostBell
  repeat' first
    | (extract_lets +onlyGivenNames x1; clear_value (hx : x1 = _); refine Keeps.cut x1 ?_ (fun h => ?_); rw [hx]; clear hx x1; rotate_left; clear hx; rotate_right)
    | (extract_lets +onlyGivenNames x1; clear_value (hx : x1 = _); refine Keeps.cut1 x1 ?_ (fun h => ?_); rw [hx]; clear hx x1; rotate_left; clear hx; rotate_right)
    | (extract_lets +onlyGivenNames x1; clear_value (hx : x1 = _); refine Keeps.cut2 x1 ?_ (fun h => ?_); rw [hx]; clear hx x1; rotate_left; clear hx; rotate_right)
    | (extract_lets +onlyGivenNames x1; clear_value (hx : x1 = _); clear hx)
    | with_reducible assumption
    | with_reducible exact Keeps.refl _ _
    | decide +kernel
    | with_reducible apply Keeps.setBA
    | with_reducible apply Keeps.via (State.event_keeps ..)
    | with_reducible apply Keeps.via (State.ok_keeps ..)
    | with_reducible apply Keeps.iteA
    | with_reducible apply Keeps.ite1

def State.mbxEngPost_w : Nat := m_h2e ||| State.bad_w ||| State.pendTrap_w ||| State.ok_w
theorem State.mbxEngPost_keeps (s : State) (k v : Nat) : Keeps State.mbxEngPost_w s (s.mbxEngPost k v).1 := by
  unfold State.mbxEngPost
  repeat' first
    | (extract_lets +onlyGivenNames x1; clear_value (hx : x1 = _); refine Keeps.cut x1 ?_ (fun h => ?_); rw [hx]; clear hx x1; rotate_left; clear hx; rotate_right)
    | (extract_lets +onlyGivenNames x1; clear_value (hx : x1 = _); refine Keeps.cut1 x1 ?_ (fun h => ?_); rw [hx]; clear hx x1; rotate_left; clear hx; rotate_right)
    | (extract_lets +onlyGivenNames x1; clear_value (hx : x1 = _); refine Keeps.cut2 x1 ?_ (fun h => ?_); rw [hx]; clear hx x1; rotate_left; clear hx; rotate_right)
    | (extract_lets +onlyGivenNames x1; clear_value (hx : x1 = _); clear hx)
    | with_reducible assumption
    | with_reducible exact Keeps.refl _ _
    | decide +kernel
    | with_reducible apply Keeps.via (State.bad_keeps ..)
    | with_reducible apply Keeps.via (State.pendTrap_keeps ..)
    | with_reducible apply Keeps.via (State.ok_keeps ..)
    | with_reducible apply Keeps.iteA
    | with_reducible apply Keeps.ite1
    | with_reducible refine Keeps.trans ?_ (Keeps.c_h2e _ ?_)

def State.mbxEngTake_w : Nat := m_e2h
theorem State.mbxEngTake_keeps (s : State) (k : Nat) : Keeps State.mbxEngTake_w s (s.mbxEngTake k).1 := by
  unfold State.mbxEngTake
  repeat' first
    | with_reducible assumption
    | with_reducible exact Keeps.refl _ _
    | decide +kernel
    | split
    | with_reducible refine Keeps.trans ?_ (Keeps.c_e2h _ ?_)

def State.mbxEngBell_w : Nat := State.ok_w ||| State.pendTrap_w ||| State.groupOn_w ||| State.bad_w
theorem State.mbxEngBell_keeps (s : State) (k v : Nat) : Keeps State.mbxEngBell_w s (s.mbxEngBell k v).1 := by
  unfold State.mbxEngBell
  repeat' first
    | with_reducible assumption
    | with_reducible exact Keeps.refl _ _
    | decide +kernel
    | with_reducible apply Keeps.via (State.ok_keeps ..)
    | with_reducible apply Keeps.via (State.pendTrap_keeps ..)
    | with_reducible apply Keeps.via (State.groupOn_keeps ..)
    | with_reducible apply Keeps.via (State.bad_keeps ..)
    | with_reducible apply Keeps.iteA
    | with_reducible apply Keeps.ite1

-- its result shows the bus; State.readPlain keeps none of it but the free-value counter

def State.snapTake_w : Nat := m_snaps
theorem State.snapTake_keeps (s t : State) (r : RegName) (i : Nat) : Keeps State.snapTake_w s (s.snapTake t r i) := by
  unfold State.snapTake
  generalize snapOf r = o
  cases o with
  | none => exact Keeps.refl _ _
  | some f => exact Keeps.c_snaps _ (by decide +kernel) (fun h => keysRise_storeKey _ _ _ h.2.1)

def State.rcClear_w : Nat := m_fields
theorem State.rcClear_keeps (s : State) (r : RegName) (i : Nat) : Keeps State.rcClear_w s (s.rcClear r i) :=
  Keeps.eachA (Keeps.refl _ _) (fun _ _ => Keeps.putA (fm_any _) (Keeps.refl _ _))

def State.readPlain_w : Nat := m_free ||| m_snaps ||| m_fields
theorem State.readPlain_keeps (s : State) (r : RegName) (i : Nat) : Keeps State.readPlain_w s (s.readPlain r i).1 :=
  Keeps.via (State.rcClear_keeps ..) (by decide +kernel)
    (Keeps.via (State.snapTake_keeps ..) (by decide +kernel) (Keeps.c_free _ (by decide +kernel)))

def State.regRead_w : Nat := State.mbxHostTake_w ||| State.mbxEngTake_w ||| State.semReadBy_w ||| State.readCspRx_w |||
    State.readGpioIn_w ||| State.readPlain_w
theorem State.regRead_keeps (s : State) (m : Master) (r : RegName) (i : Nat) : Keeps State.regRead_w s (s.regRead m r i).1 := by
  unfold State.regRead
  repeat' first
    | with_reducible assumption
    | with_reducible exact Keeps.refl _ _
    | decide +kernel
    | with_reducible apply Keeps.via (State.mbxHostTake_keeps ..)
    | with_reducible apply Keeps.via (State.mbxEngTake_keeps ..)
    | with_reducible apply Keeps.via (State.semReadBy_keeps ..)
    | with_reducible apply Keeps.via (State.readCspRx_keeps ..)
    | with_reducible apply Keeps.via (State.readGpioIn_keeps ..)
    | with_reducible apply Keeps.via (State.readPlain_keeps ..)
    | split

def State.fieldWrite_w (f : Field) : Nat := fm f
theorem State.fieldWrite_keeps (s : State) (i v : Nat) (f : Field) : Keeps (State.fieldWrite_w f) s (s.fieldWrite i v f) := by
  have h (x : Nat) : Keeps (State.fieldWrite_w f) s (s.put f i x) := Keeps.putA (Nat.and_self _) (Keeps.refl _ _)
  unfold State.fieldWrite
  dsimp only
  split
  · exact h _
  · exact h _
  · exact h _
  · exact Keeps.refl _ _

def State.writePlain_w (r : RegName) : Nat := fms r.fields
theorem State.fieldWrites_keeps (i v : Nat) (l : List Field) (s : State) :
    Keeps (fms l) s (s.each l (fun t f => t.fieldWrite i v f)) := by
  induction l generalizing s with
  | nil => exact Keeps.refl _ _
  | cons f l ih => exact ((State.fieldWrite_keeps s i v f).mono (Sub.or_left _ _)).trans ((ih _).mono (Sub.or_right _ _))
theorem State.writePlain_keeps (s : State) (r : RegName) (i v : Nat) : Keeps (State.writePlain_w r) s (s.writePlain r i v) :=
  State.fieldWrites_keeps i v r.fields s
theorem State.writePlain_any (s : State) (r : RegName) (i v : Nat) : Keeps m_fields s (s.writePlain r i v) :=
  (State.writePlain_keeps s r i v).mono (fms_any _)

def State.writeRstCtrl_w : Nat := fm H.CORE0_HALT ||| State.bad_w ||| State.writePlain_w .RST_CTRL ||| State.ok_w
theorem State.writeRstCtrl_keeps (s : State) (v : Nat) : Keeps State.writeRstCtrl_w s (s.writeRstCtrl v).1 := by
  unfold State.writeRstCtrl
  repeat' first
    | (extract_lets +onlyGivenNames x1; clear_value (hx : x1 = _); refine Keeps.cut x1 ?_ (fun h => ?_); rw [hx]; clear hx x1; rotate_left; clear hx; rotate_right)
    | (extract_lets +onlyGivenNames x1; clear_value (hx : x1 = _); refine Keeps.cut1 x1 ?_ (fun h => ?_); rw [hx]; clear hx x1; rotate_left; clear hx; rotate_right)
    | (extract_lets +onlyGivenNames x1; clear_value (hx : x1 = _); refine Keeps.cut2 x1 ?_ (fun h => ?_); rw [hx]; clear hx x1; rotate_left; clear hx; rotate_right)
    | (extract_lets +onlyGivenNames x1; clear_value (hx : x1 = _); clear hx)
    | with_reducible assumption
    | with_reducible exact Keeps.refl _ _
    | decide +kernel
    | with_reducible apply Keeps.setBA
    | with_reducible apply Keeps.via (State.bad_keeps ..)
    | with_reducible apply Keeps.via (State.writePlain_keeps ..)
    | with_reducible apply Keeps.via (State.ok_keeps ..)
    | with_reducible apply Keeps.iteA
    | with_reducible apply Keeps.ite1

def State.writeFltReact_w : Nat := reactField_w ||| escField_w
theorem State.writeFltReact_keeps (s : State) (i v : Nat) : Keeps State.writeFltReact_w s (s.writeFltReact i v) := by
  unfold State.writeFltReact
  repeat' first
    | with_reducible assumption
    | with_reducible exact Keeps.refl _ _
    | decide +kernel
    | with_reducible apply Keeps.putA
    | exact (reactField_sub ..).trans (by decide +kernel)
    | exact (escField_sub ..).trans (by decide +kernel)
    | with_reducible refine Keeps.eachA ?_ (fun _ _ => ?_)

def State.writeFltInj_w : Nat := State.bad_w ||| State.faultRaise_w ||| State.ok_w
theorem State.writeFltInj_keeps (s : State) (v : Nat) : Keeps State.writeFltInj_w s (s.writeFltInj v).1 := by
  unfold State.writeFltInj
  repeat' first
    | with_reducible assumption
    | with_reducible exact Keeps.refl _ _
    | decide +kernel
    | with_reducible apply Keeps.via (State.bad_keeps ..)
    | with_reducible apply Keeps.via (State.faultRaise_keeps ..)
    | with_reducible apply Keeps.via (State.ok_keeps ..)
    | with_reducible apply Keeps.iteA
    | with_reducible apply Keeps.ite1

def State.writeIrqSwset_w : Nat := State.irq_w ||| State.ok_w ||| State.bad_w
theorem State.writeIrqSwset_keeps (s : State) (m : Master) (v : Nat) : Keeps State.writeIrqSwset_w s (s.writeIrqSwset m v).1 := by
  unfold State.writeIrqSwset
  repeat' first
    | (extract_lets +onlyGivenNames x1; clear_value (hx : x1 = _); refine Keeps.cut x1 ?_ (fun h => ?_); rw [hx]; clear hx x1; rotate_left; clear hx; rotate_right)
    | (extract_lets +onlyGivenNames x1; clear_value (hx : x1 = _); refine Keeps.cut1 x1 ?_ (fun h => ?_); rw [hx]; clear hx x1; rotate_left; clear hx; rotate_right)
    | (extract_lets +onlyGivenNames x1; clear_value (hx : x1 = _); refine Keeps.cut2 x1 ?_ (fun h => ?_); rw [hx]; clear hx x1; rotate_left; clear hx; rotate_right)
    | (extract_lets +onlyGivenNames x1; clear_value (hx : x1 = _); clear hx)
    | with_reducible assumption
    | with_reducible exact Keeps.refl _ _
    | decide +kernel
    | with_reducible apply Keeps.via (State.irq_keeps ..)
    | with_reducible apply Keeps.via (State.ok_keeps ..)
    | with_reducible apply Keeps.via (State.bad_keeps ..)
    | with_reducible apply Keeps.iteA
    | with_reducible apply Keeps.ite1
    | split

def State.writeSiteCmd_w : Nat := State.siteControl_w ||| State.ok_w
theorem State.writeSiteCmd_keeps (s : State) (m : Master) (i v : Nat) : Keeps State.writeSiteCmd_w s (s.writeSiteCmd m i v).1 := by
  unfold State.writeSiteCmd
  repeat' first
    | (extract_lets +onlyGivenNames x1; clear_value (hx : x1 = _); refine Keeps.cut x1 ?_ (fun h => ?_); rw [hx]; clear hx x1; rotate_left; clear hx; rotate_right)
    | (extract_lets +onlyGivenNames x1; clear_value (hx : x1 = _); refine Keeps.cut1 x1 ?_ (fun h => ?_); rw [hx]; clear hx x1; rotate_left; clear hx; rotate_right)
    | (extract_lets +onlyGivenNames x1; clear_value (hx : x1 = _); refine Keeps.cut2 x1 ?_ (fun h => ?_); rw [hx]; clear hx x1; rotate_left; clear hx; rotate_right)
    | (extract_lets +onlyGivenNames x1; clear_value (hx : x1 = _); clear hx)
    | with_reducible assumption
    | with_reducible exact Keeps.refl _ _
    | decide +kernel
    | with_reducible apply Keeps.via (State.siteControl_keeps ..)
    | with_reducible apply Keeps.via (State.ok_keeps ..)
    | with_reducible apply Keeps.iteA
    | with_reducible apply Keeps.ite1

def State.writeSeqJump_w : Nat := fm F.SEQ_JUMP_REQ_JUMP_LATE ||| State.jumpCancel_w ||| State.jumpRequest_w ||| State.ok_w
theorem State.writeSeqJump_keeps (s : State) (i v : Nat) : Keeps State.writeSeqJump_w s (s.writeSeqJump i v).1 := by
  unfold State.writeSeqJump
  repeat' first
    | (extract_lets +onlyGivenNames x1; clear_value (hx : x1 = _); refine Keeps.cut x1 ?_ (fun h => ?_); rw [hx]; clear hx x1; rotate_left; clear hx; rotate_right)
    | (extract_lets +onlyGivenNames x1; clear_value (hx : x1 = _); refine Keeps.cut1 x1 ?_ (fun h => ?_); rw [hx]; clear hx x1; rotate_left; clear hx; rotate_right)
    | (extract_lets +onlyGivenNames x1; clear_value (hx : x1 = _); refine Keeps.cut2 x1 ?_ (fun h => ?_); rw [hx]; clear hx x1; rotate_left; clear hx; rotate_right)
    | (extract_lets +onlyGivenNames x1; clear_value (hx : x1 = _); clear hx)
    | with_reducible assumption
    | with_reducible exact Keeps.refl _ _
    | decide +kernel
    | with_reducible apply Keeps.setBA
    | with_reducible apply Keeps.via (State.jumpCancel_keeps ..)
    | with_reducible apply Keeps.via (State.jumpRequest_keeps ..)
    | with_reducible apply Keeps.via (State.ok_keeps ..)
    | with_reducible apply Keeps.iteA
    | with_reducible apply Keeps.ite1

def State.writeSmuJump_w : Nat := fm F.SMUW_JUMP_REQ_JUMP_LATE ||| State.waveJumpCancel_w ||| State.waveJump_w ||| State.ok_w
theorem State.writeSmuJump_keeps (s : State) (u v : Nat) : Keeps State.writeSmuJump_w s (s.writeSmuJump u v).1 := by
  unfold State.writeSmuJump
  repeat' first
    | (extract_lets +onlyGivenNames x1; clear_value (hx : x1 = _); refine Keeps.cut x1 ?_ (fun h => ?_); rw [hx]; clear hx x1; rotate_left; clear hx; rotate_right)
    | (extract_lets +onlyGivenNames x1; clear_value (hx : x1 = _); refine Keeps.cut1 x1 ?_ (fun h => ?_); rw [hx]; clear hx x1; rotate_left; clear hx; rotate_right)
    | (extract_lets +onlyGivenNames x1; clear_value (hx : x1 = _); refine Keeps.cut2 x1 ?_ (fun h => ?_); rw [hx]; clear hx x1; rotate_left; clear hx; rotate_right)
    | (extract_lets +onlyGivenNames x1; clear_value (hx : x1 = _); clear hx)
    | with_reducible assumption
    | with_reducible exact Keeps.refl _ _
    | decide +kernel
    | with_reducible apply Keeps.setBA
    | with_reducible apply Keeps.via (State.waveJumpCancel_keeps ..)
    | with_reducible apply Keeps.via (State.waveJump_keeps ..)
    | with_reducible apply Keeps.via (State.ok_keeps ..)
    | with_reducible apply Keeps.iteA
    | with_reducible apply Keeps.ite1

def State.writePanCtrl_w : Nat := fm F.PAN_CTRL_RESIDENCY_US ||| fm F.PAN_CTRL_AHEAD ||| fm F.PAN_CTRL_PIN_EN
theorem State.writePanCtrl_keeps (s : State) (v : Nat) : Keeps State.writePanCtrl_w s (s.writePanCtrl v) := by
  unfold State.writePanCtrl
  repeat' first
    | with_reducible assumption
    | with_reducible exact Keeps.refl _ _
    | decide +kernel
    | with_reducible apply Keeps.putA
    | with_reducible apply Keeps.setBA

def State.writePanInval_w : Nat := State.bad_w ||| State.invalStart_w ||| State.ok_w
theorem State.writePanInval_keeps (s : State) (v : Nat) : Keeps State.writePanInval_w s (s.writePanInval v).1 := by
  unfold State.writePanInval
  repeat' first
    | with_reducible assumption
    | with_reducible exact Keeps.refl _ _
    | decide +kernel
    | with_reducible apply Keeps.via (State.bad_keeps ..)
    | with_reducible apply Keeps.via (State.invalStart_keeps ..)
    | with_reducible apply Keeps.via (State.ok_keeps ..)
    | with_reducible apply Keeps.iteA
    | with_reducible apply Keeps.ite1

def State.acqForceIn_w : Nat := fm H.ACQ_FORCE_P
theorem State.acqForceIn_keeps (s : State) (u : Nat) : Keeps State.acqForceIn_w s (s.acqForceIn u) := by
  unfold State.acqForceIn
  repeat' first
    | with_reducible assumption
    | with_reducible exact Keeps.refl _ _
    | decide +kernel
    | with_reducible apply Keeps.setBA
    | with_reducible apply Keeps.iteA

def State.writeAcqCfg_w : Nat := State.bad_w ||| State.acqCfgSet_w ||| State.ok_w
theorem State.writeAcqCfg_keeps (s : State) (u v : Nat) : Keeps State.writeAcqCfg_w s (s.writeAcqCfg u v).1 := by
  unfold State.writeAcqCfg
  repeat' first
    | with_reducible assumption
    | with_reducible exact Keeps.refl _ _
    | decide +kernel
    | with_reducible apply Keeps.via (State.bad_keeps ..)
    | with_reducible apply Keeps.via (State.acqCfgSet_keeps ..)
    | with_reducible apply Keeps.via (State.ok_keeps ..)
    | with_reducible apply Keeps.iteA
    | with_reducible apply Keeps.ite1

def State.writeAcqCtrl_w : Nat := State.bad_w ||| State.acqArm_w ||| State.acqForceIn_w ||| State.acqCancel_w ||| State.ok_w
theorem State.writeAcqCtrl_keeps (s : State) (u v : Nat) : Keeps State.writeAcqCtrl_w s (s.writeAcqCtrl u v).1 := by
  unfold State.writeAcqCtrl
  repeat' first
    | (extract_lets +onlyGivenNames x1; clear_value (hx : x1 = _); refine Keeps.cut x1 ?_ (fun h => ?_); rw [hx]; clear hx x1; rotate_left; clear hx; rotate_right)
    | (extract_lets +onlyGivenNames x1; clear_value (hx : x1 = _); refine Keeps.cut1 x1 ?_ (fun h => ?_); rw [hx]; clear hx x1; rotate_left; clear hx; rotate_right)
    | (extract_lets +onlyGivenNames x1; clear_value (hx : x1 = _); refine Keeps.cut2 x1 ?_ (fun h => ?_); rw [hx]; clear hx x1; rotate_left; clear hx; rotate_right)
    | (extract_lets +onlyGivenNames x1; clear_value (hx : x1 = _); clear hx)
    | with_reducible assumption
    | with_reducible exact Keeps.refl _ _
    | decide +kernel
    | with_reducible apply Keeps.via (State.bad_keeps ..)
    | with_reducible apply Keeps.via (State.acqArm_keeps ..)
    | with_reducible apply Keeps.via (State.acqForceIn_keeps ..)
    | with_reducible apply Keeps.via (State.acqCancel_keeps ..)
    | with_reducible apply Keeps.via (State.ok_keeps ..)
    | with_reducible apply Keeps.iteA
    | with_reducible apply Keeps.ite1

def State.writeTdcCtrl_w : Nat := State.bad_w ||| State.tdcArm_w ||| State.tdcDisarm_w ||| State.ok_w
theorem State.writeTdcCtrl_keeps (s : State) (j v : Nat) : Keeps State.writeTdcCtrl_w s (s.writeTdcCtrl j v).1 := by
  unfold State.writeTdcCtrl
  repeat' first
    | (extract_lets +onlyGivenNames x1; clear_value (hx : x1 = _); refine Keeps.cut x1 ?_ (fun h => ?_); rw [hx]; clear hx x1; rotate_left; clear hx; rotate_right)
    | (extract_lets +onlyGivenNames x1; clear_value (hx : x1 = _); refine Keeps.cut1 x1 ?_ (fun h => ?_); rw [hx]; clear hx x1; rotate_left; clear hx; rotate_right)
    | (extract_lets +onlyGivenNames x1; clear_value (hx : x1 = _); refine Keeps.cut2 x1 ?_ (fun h => ?_); rw [hx]; clear hx x1; rotate_left; clear hx; rotate_right)
    | (extract_lets +onlyGivenNames x1; clear_value (hx : x1 = _); clear hx)
    | with_reducible assumption
    | with_reducible exact Keeps.refl _ _
    | decide +kernel
    | with_reducible apply Keeps.via (State.bad_keeps ..)
    | with_reducible apply Keeps.via (State.tdcArm_keeps ..)
    | with_reducible apply Keeps.via (State.tdcDisarm_keeps ..)
    | with_reducible apply Keeps.via (State.ok_keeps ..)
    | with_reducible apply Keeps.iteA
    | with_reducible apply Keeps.ite1

def State.writeTdcCfg_w : Nat := State.bad_w ||| State.tdcCfgSet_w ||| State.ok_w
theorem State.writeTdcCfg_keeps (s : State) (j v : Nat) : Keeps State.writeTdcCfg_w s (s.writeTdcCfg j v).1 := by
  unfold State.writeTdcCfg
  repeat' first
    | with_reducible assumption
    | with_reducible exact Keeps.refl _ _
    | decide +kernel
    | with_reducible apply Keeps.via (State.bad_keeps ..)
    | with_reducible apply Keeps.via (State.tdcCfgSet_keeps ..)
    | with_reducible apply Keeps.via (State.ok_keeps ..)
    | with_reducible apply Keeps.iteA
    | with_reducible apply Keeps.ite1

def State.writeTdcThr_w : Nat := fm H.TDC_THR_T ||| State.bad_w ||| State.writePlain_w .TDC_THR ||| State.ok_w
theorem State.writeTdcThr_keeps (s : State) (j v : Nat) : Keeps State.writeTdcThr_w s (s.writeTdcThr j v).1 := by
  unfold State.writeTdcThr
  repeat' first
    | with_reducible assumption
    | with_reducible exact Keeps.refl _ _
    | decide +kernel
    | with_reducible apply Keeps.setDueA
    | with_reducible apply Keeps.via (State.bad_keeps ..)
    | with_reducible apply Keeps.via (State.writePlain_keeps ..)
    | with_reducible apply Keeps.via (State.ok_keeps ..)
    | with_reducible apply Keeps.iteA
    | with_reducible apply Keeps.ite1

def State.writeTdcAux_w : Nat := fm H.TDC_THR_T ||| State.bad_w ||| State.writePlain_w .TDC_AUX ||| State.ok_w
theorem State.writeTdcAux_keeps (s : State) (j v : Nat) : Keeps State.writeTdcAux_w s (s.writeTdcAux j v).1 := by
  unfold State.writeTdcAux
  repeat' first
    | (extract_lets +onlyGivenNames x1; clear_value (hx : x1 = _); refine Keeps.cut x1 ?_ (fun h => ?_); rw [hx]; clear hx x1; rotate_left; clear hx; rotate_right)
    | (extract_lets +onlyGivenNames x1; clear_value (hx : x1 = _); refine Keeps.cut1 x1 ?_ (fun h => ?_); rw [hx]; clear hx x1; rotate_left; clear hx; rotate_right)
    | (extract_lets +onlyGivenNames x1; clear_value (hx : x1 = _); refine Keeps.cut2 x1 ?_ (fun h => ?_); rw [hx]; clear hx x1; rotate_left; clear hx; rotate_right)
    | (extract_lets +onlyGivenNames x1; clear_value (hx : x1 = _); clear hx)
    | with_reducible assumption
    | with_reducible exact Keeps.refl _ _
    | decide +kernel
    | with_reducible apply Keeps.setDueA
    | with_reducible apply Keeps.via (State.bad_keeps ..)
    | with_reducible apply Keeps.via (State.writePlain_keeps ..)
    | with_reducible apply Keeps.via (State.ok_keeps ..)
    | with_reducible apply Keeps.iteA
    | with_reducible apply Keeps.ite1

def State.writeDpsMeas_w : Nat := fm F.DPS_MEAS_AVG ||| State.dpsMeasStart_w
theorem State.writeDpsMeas_keeps (s : State) (d v : Nat) : Keeps State.writeDpsMeas_w s (s.writeDpsMeas d v) := by
  unfold State.writeDpsMeas
  repeat' first
    | (extract_lets +onlyGivenNames x1; clear_value (hx : x1 = _); refine Keeps.cut x1 ?_ (fun h => ?_); rw [hx]; clear hx x1; rotate_left; clear hx; rotate_right)
    | (extract_lets +onlyGivenNames x1; clear_value (hx : x1 = _); refine Keeps.cut1 x1 ?_ (fun h => ?_); rw [hx]; clear hx x1; rotate_left; clear hx; rotate_right)
    | (extract_lets +onlyGivenNames x1; clear_value (hx : x1 = _); refine Keeps.cut2 x1 ?_ (fun h => ?_); rw [hx]; clear hx x1; rotate_left; clear hx; rotate_right)
    | (extract_lets +onlyGivenNames x1; clear_value (hx : x1 = _); clear hx)
    | with_reducible assumption
    | with_reducible exact Keeps.refl _ _
    | decide +kernel
    | with_reducible apply Keeps.putA
    | with_reducible apply Keeps.via (State.dpsMeasStart_keeps ..)
    | with_reducible apply Keeps.iteA

def State.writeSmuMeas_w : Nat := fm F.SMU_MEAS_AVG ||| State.smuMeasStart_w
theorem State.writeSmuMeas_keeps (s : State) (u v : Nat) : Keeps State.writeSmuMeas_w s (s.writeSmuMeas u v) := by
  unfold State.writeSmuMeas
  repeat' first
    | (extract_lets +onlyGivenNames x1; clear_value (hx : x1 = _); refine Keeps.cut x1 ?_ (fun h => ?_); rw [hx]; clear hx x1; rotate_left; clear hx; rotate_right)
    | (extract_lets +onlyGivenNames x1; clear_value (hx : x1 = _); refine Keeps.cut1 x1 ?_ (fun h => ?_); rw [hx]; clear hx x1; rotate_left; clear hx; rotate_right)
    | (extract_lets +onlyGivenNames x1; clear_value (hx : x1 = _); refine Keeps.cut2 x1 ?_ (fun h => ?_); rw [hx]; clear hx x1; rotate_left; clear hx; rotate_right)
    | (extract_lets +onlyGivenNames x1; clear_value (hx : x1 = _); clear hx)
    | with_reducible assumption
    | with_reducible exact Keeps.refl _ _
    | decide +kernel
    | with_reducible apply Keeps.putA
    | with_reducible apply Keeps.via (State.smuMeasStart_keeps ..)
    | with_reducible apply Keeps.iteA

def State.smuFree_w : Nat := State.bad_w ||| State.ok_w
theorem State.smuFree_keeps {w : Nat} {s v t : State} {u : Nat} (hw : Sub State.smuFree_w w) (h0 : Keeps w v s)
    (h : Keeps w v t) : Keeps w v (s.smuFree u t).1 := by
  unfold State.smuFree
  exact Keeps.ite1 (Keeps.via (State.bad_keeps ..) ((by decide +kernel : Sub _ State.smuFree_w).trans hw) h0)
    (Keeps.via (State.ok_keeps ..) ((by decide +kernel : Sub _ State.smuFree_w).trans hw) h)

def State.writeSmuSup_w : Nat := fm F.SMU_SUP_TOL ||| fm F.SMU_SUP_TIME
theorem State.writeSmuSup_keeps (s : State) (u v : Nat) : Keeps State.writeSmuSup_w s (s.writeSmuSup u v) := by
  unfold State.writeSmuSup
  repeat' first
    | with_reducible assumption
    | with_reducible exact Keeps.refl _ _
    | decide +kernel
    | with_reducible apply Keeps.putA

def State.writeEngCtrl_w : Nat := fm H.ENG_STEPPING ||| State.bad_w ||| State.writePlain_w .ENG_CTRL |||
    State.engIdleStart_w ||| State.engGoOn_w ||| State.engStopCheck_w ||| State.ok_w
theorem State.writeEngCtrl_keeps (s : State) (k v : Nat) : Keeps State.writeEngCtrl_w s (s.writeEngCtrl k v).1 := by
  unfold State.writeEngCtrl
  repeat' first
    | (extract_lets +onlyGivenNames x1; clear_value (hx : x1 = _); refine Keeps.cut x1 ?_ (fun h => ?_); rw [hx]; clear hx x1; rotate_left; clear hx; rotate_right)
    | (extract_lets +onlyGivenNames x1; clear_value (hx : x1 = _); refine Keeps.cut1 x1 ?_ (fun h => ?_); rw [hx]; clear hx x1; rotate_left; clear hx; rotate_right)
    | (extract_lets +onlyGivenNames x1; clear_value (hx : x1 = _); refine Keeps.cut2 x1 ?_ (fun h => ?_); rw [hx]; clear hx x1; rotate_left; clear hx; rotate_right)
    | (extract_lets +onlyGivenNames x1; clear_value (hx : x1 = _); clear hx)
    | with_reducible assumption
    | with_reducible exact Keeps.refl _ _
    | decide +kernel
    | with_reducible apply Keeps.setBA
    | with_reducible apply Keeps.via (State.bad_keeps ..)
    | with_reducible apply Keeps.via (State.writePlain_keeps ..)
    | with_reducible apply Keeps.via (State.engIdleStart_keeps ..)
    | with_reducible apply Keeps.via (State.engGoOn_keeps ..)
    | with_reducible apply Keeps.via (State.engStopCheck_keeps ..)
    | with_reducible apply Keeps.via (State.ok_keeps ..)
    | with_reducible apply Keeps.iteA
    | with_reducible apply Keeps.ite1

def State.writeEngGo_w : Nat := State.engFresh_w ||| State.engStopCheck_w ||| State.ok_w ||| State.bad_w
theorem State.writeEngGo_keeps (s : State) (k v : Nat) : Keeps State.writeEngGo_w s (s.writeEngGo k v).1 := by
  unfold State.writeEngGo
  repeat' first
    | (extract_lets +onlyGivenNames x1; clear_value (hx : x1 = _); refine Keeps.cut x1 ?_ (fun h => ?_); rw [hx]; clear hx x1; rotate_left; clear hx; rotate_right)
    | (extract_lets +onlyGivenNames x1; clear_value (hx : x1 = _); refine Keeps.cut1 x1 ?_ (fun h => ?_); rw [hx]; clear hx x1; rotate_left; clear hx; rotate_right)
    | (extract_lets +onlyGivenNames x1; clear_value (hx : x1 = _); refine Keeps.cut2 x1 ?_ (fun h => ?_); rw [hx]; clear hx x1; rotate_left; clear hx; rotate_right)
    | (extract_lets +onlyGivenNames x1; clear_value (hx : x1 = _); clear hx)
    | with_reducible assumption
    | with_reducible exact Keeps.refl _ _
    | decide +kernel
    | with_reducible apply Keeps.via (State.engFresh_keeps ..)
    | with_reducible apply Keeps.via (State.engStopCheck_keeps ..)
    | with_reducible apply Keeps.via (State.ok_keeps ..)
    | with_reducible apply Keeps.via (State.bad_keeps ..)
    | with_reducible apply Keeps.iteA
    | with_reducible apply Keeps.ite1
    | split

def State.regWrite_w : Nat := m_all ^^^ (m_now ||| m_entries ||| m_bcasts)
theorem State.regWrite_keeps (s : State) (m : Master) (r : RegName) (i v : Nat) : Keeps State.regWrite_w s (s.regWrite m r i v).1 := by
  unfold State.regWrite
  repeat' first
    | (extract_lets +onlyGivenNames x1; clear_value (hx : x1 = _); refine Keeps.cut x1 ?_ (fun h => ?_); rw [hx]; clear hx x1; rotate_left; clear hx; rotate_right)
    | (extract_lets +onlyGivenNames x1; clear_value (hx : x1 = _); refine Keeps.cut1 x1 ?_ (fun h => ?_); rw [hx]; clear hx x1; rotate_left; clear hx; rotate_right)
    | (extract_lets +onlyGivenNames x1; clear_value (hx : x1 = _); refine Keeps.cut2 x1 ?_ (fun h => ?_); rw [hx]; clear hx x1; rotate_left; clear hx; rotate_right)
    | (extract_lets +onlyGivenNames x1; clear_value (hx : x1 = _); clear hx)
    | with_reducible assumption
    | with_reducible exact Keeps.refl _ _
    | decide +kernel
    | with_reducible apply Keeps.putA
    | with_reducible apply Keeps.via (State.writeRstCtrl_keeps ..)
    | with_reducible apply Keeps.via (State.rstSoft_keeps ..)
    | with_reducible apply Keeps.via (State.ok_keeps ..)
    | with_reducible apply Keeps.via (State.wdogCtl_keeps ..)
    | with_reducible apply Keeps.via (State.wdogKick_keeps ..)
    | with_reducible apply Keeps.via (State.offsetSet_keeps ..)
    | with_reducible apply Keeps.via (State.trigArm_keeps ..)
    | with_reducible apply Keeps.via (State.trigAccSet_keeps ..)
    | with_reducible apply Keeps.via (State.periodSet_keeps ..)
    | with_reducible apply Keeps.via (State.faultAck_keeps ..)
    | with_reducible apply Keeps.via (State.writeFltInj_keeps ..)
    | with_reducible apply Keeps.via (State.writeFltReact_keeps ..)
    | with_reducible apply Keeps.via (State.rbCommit_keeps ..)
    | with_reducible apply Keeps.via (State.lcReq_keeps ..)
    | with_reducible apply Keeps.via (State.provCmd_keeps ..)
    | with_reducible apply Keeps.via (State.secWipe_keeps ..)
    | with_reducible apply Keeps.via (State.dbgCtrl_keeps ..)
    | with_reducible apply Keeps.via (State.writeCspCfg_keeps ..)
    | with_reducible apply Keeps.via (State.writeCspLen_keeps ..)
    | with_reducible apply Keeps.via (State.writeCspCtrl_keeps ..)
    | with_reducible apply Keeps.via (State.writeCspTx_keeps ..)
    | with_reducible apply Keeps.via (State.mbxHostPost_keeps ..)
    | with_reducible apply Keeps.via (State.mbxHostBell_keeps ..)
    | with_reducible apply Keeps.via (State.mbxEngPost_keeps ..)
    | with_reducible apply Keeps.via (State.mbxEngBell_keeps ..)
    | with_reducible apply Keeps.via (State.semWriteBy_keeps ..)
    | with_reducible apply Keeps.via (State.semForce_keeps ..)
    | with_reducible apply Keeps.via (State.writeIrqSwset_keeps ..)
    | with_reducible apply Keeps.via (State.writePlain_any ..)
    | with_reducible apply Keeps.via (State.writePorchCtrl_keeps ..)
    | with_reducible apply Keeps.via (State.writeContactCtl_keeps ..)
    | with_reducible apply Keeps.via (State.writeSeqJump_keeps ..)
    | with_reducible apply Keeps.via (State.writeSmuJump_keeps ..)
    | with_reducible apply Keeps.via (State.writeSiteCmd_keeps ..)
    | with_reducible apply Keeps.via (State.writePanCtrl_keeps ..)
    | with_reducible apply Keeps.via (State.writePanInval_keeps ..)
    | with_reducible apply Keeps.via (State.writeAcqCfg_keeps ..)
    | with_reducible apply Keeps.via (State.writeAcqCtrl_keeps ..)
    | with_reducible apply Keeps.via (State.writeChCtrl_keeps ..)
    | with_reducible apply Keeps.via (State.writePmuCtrl_keeps ..)
    | with_reducible apply Keeps.via (State.pmuForceSet_keeps ..)
    | with_reducible apply Keeps.via (State.pmuVclampSet_keeps ..)
    | with_reducible apply Keeps.via (State.dskSet_keeps ..)
    | with_reducible apply Keeps.via (State.writeDpsCtrl_keeps ..)
    | with_reducible apply Keeps.via (State.bad_keeps ..)
    | with_reducible apply Keeps.via (State.dpsVsetSet_keeps ..)
    | with_reducible apply Keeps.via (State.dpsIlimSet_keeps ..)
    | with_reducible apply Keeps.via (State.writeDpsMeas_keeps ..)
    | with_reducible apply Keeps.via (State.writeSmuCtrl_keeps ..)
    | with_reducible apply State.smuFree_keeps
    | with_reducible apply Keeps.via (State.smuSetSet_keeps ..)
    | with_reducible apply Keeps.via (State.smuCompSet_keeps ..)
    | with_reducible apply Keeps.via (State.smuStatClear_keeps ..)
    | with_reducible apply Keeps.via (State.sineFreqSet_keeps ..)
    | with_reducible apply Keeps.via (State.writeSmuSup_keeps ..)
    | with_reducible apply Keeps.via (State.writeSmuMeas_keeps ..)
    | with_reducible apply Keeps.via (State.writeTdcCtrl_keeps ..)
    | with_reducible apply Keeps.via (State.writeTdcCfg_keeps ..)
    | with_reducible apply Keeps.via (State.writeTdcThr_keeps ..)
    | with_reducible apply Keeps.via (State.writeTdcAux_keeps ..)
    | with_reducible apply Keeps.via (State.writeMonCtrl_keeps ..)
    | with_reducible apply Keeps.via (State.monThrSet_keeps ..)
    | with_reducible apply Keeps.via (State.monClear_keeps ..)
    | with_reducible apply Keeps.via (State.writeEngCtrl_keeps ..)
    | with_reducible apply Keeps.via (State.writeEngGo_keeps ..)
    | with_reducible apply Keeps.via (State.levelSet_keeps ..)
    | with_reducible apply Keeps.iteA
    | with_reducible apply Keeps.ite1
    | split

def State.writeCstore_w : Nat := fm H.ENG_STAGE ||| fm F.ENG_CS_STAT_BADPAR_WR ||| State.bad_w ||| State.ok_w |||
    State.csPut_w
theorem State.writeCstore_keeps (s : State) (k w part v : Nat) : Keeps State.writeCstore_w s (s.writeCstore k w part v).1 := by
  unfold State.writeCstore
  repeat' first
    | (extract_lets +onlyGivenNames x1; clear_value (hx : x1 = _); refine Keeps.cut x1 ?_ (fun h => ?_); rw [hx]; clear hx x1; rotate_left; clear hx; rotate_right)
    | (extract_lets +onlyGivenNames x1; clear_value (hx : x1 = _); refine Keeps.cut1 x1 ?_ (fun h => ?_); rw [hx]; clear hx x1; rotate_left; clear hx; rotate_right)
    | (extract_lets +onlyGivenNames x1; clear_value (hx : x1 = _); refine Keeps.cut2 x1 ?_ (fun h => ?_); rw [hx]; clear hx x1; rotate_left; clear hx; rotate_right)
    | (extract_lets +onlyGivenNames x1; clear_value (hx : x1 = _); clear hx)
    | with_reducible assumption
    | with_reducible exact Keeps.refl _ _
    | decide +kernel
    | with_reducible apply Keeps.putA
    | with_reducible apply Keeps.setBA
    | with_reducible apply Keeps.via (State.bad_keeps ..)
    | with_reducible apply Keeps.via (State.ok_keeps ..)
    | with_reducible apply Keeps.via (State.csPut_keeps ..)
    | with_reducible apply Keeps.iteA
    | with_reducible apply Keeps.ite1

def State.engWindowRead_w : Nat := State.engRegTake_w
theorem State.engWindowRead_keeps (s : State) (k x : Nat) : Keeps State.engWindowRead_w s (s.engWindowRead k x).1 := by
  unfold State.engWindowRead
  repeat' first
    | (extract_lets +onlyGivenNames x1; clear_value (hx : x1 = _); refine Keeps.cut x1 ?_ (fun h => ?_); rw [hx]; clear hx x1; rotate_left; clear hx; rotate_right)
    | (extract_lets +onlyGivenNames x1; clear_value (hx : x1 = _); refine Keeps.cut1 x1 ?_ (fun h => ?_); rw [hx]; clear hx x1; rotate_left; clear hx; rotate_right)
    | (extract_lets +onlyGivenNames x1; clear_value (hx : x1 = _); refine Keeps.cut2 x1 ?_ (fun h => ?_); rw [hx]; clear hx x1; rotate_left; clear hx; rotate_right)
    | (extract_lets +onlyGivenNames x1; clear_value (hx : x1 = _); clear hx)
    | with_reducible assumption
    | with_reducible exact Keeps.refl _ _
    | decide +kernel
    | with_reducible apply Keeps.via (State.engRegTake_keeps ..)
    | with_reducible apply Keeps.iteA
    | with_reducible apply Keeps.ite1

def State.engWindowWrite_w : Nat := fm H.ENG_FRAME ||| State.writeCstore_w ||| State.engRegPut_w ||| State.ok_w |||
    State.bad_w
theorem State.engWindowWrite_keeps (s : State) (k x v : Nat) : Keeps State.engWindowWrite_w s (s.engWindowWrite k x v).1 := by
  unfold State.engWindowWrite
  repeat' first
    | with_reducible assumption
    | with_reducible exact Keeps.refl _ _
    | decide +kernel
    | with_reducible apply Keeps.putA
    | with_reducible apply Keeps.via (State.writeCstore_keeps ..)
    | with_reducible apply Keeps.via (State.engRegPut_keeps ..)
    | with_reducible apply Keeps.via (State.ok_keeps ..)
    | with_reducible apply Keeps.via (State.bad_keeps ..)
    | with_reducible apply Keeps.iteA
    | with_reducible apply Keeps.ite1

def State.windowRead_w : Nat := State.engWindowRead_w
theorem State.windowRead_keeps (s : State) (a : Nat) : Keeps State.windowRead_w s (s.windowRead a).1 := by
  unfold State.windowRead
  repeat' first
    | (extract_lets +onlyGivenNames x1; clear_value (hx : x1 = _); refine Keeps.cut x1 ?_ (fun h => ?_); rw [hx]; clear hx x1; rotate_left; clear hx; rotate_right)
    | (extract_lets +onlyGivenNames x1; clear_value (hx : x1 = _); refine Keeps.cut1 x1 ?_ (fun h => ?_); rw [hx]; clear hx x1; rotate_left; clear hx; rotate_right)
    | (extract_lets +onlyGivenNames x1; clear_value (hx : x1 = _); refine Keeps.cut2 x1 ?_ (fun h => ?_); rw [hx]; clear hx x1; rotate_left; clear hx; rotate_right)
    | (extract_lets +onlyGivenNames x1; clear_value (hx : x1 = _); clear hx)
    | with_reducible assumption
    | with_reducible exact Keeps.refl _ _
    | decide +kernel
    | with_reducible apply Keeps.via (State.engWindowRead_keeps ..)
    | with_reducible apply Keeps.iteA
    | with_reducible apply Keeps.ite1
    | split

def State.windowWrite_w : Nat := State.engWindowWrite_w ||| State.corrPut_w ||| State.ok_w ||| State.bad_w
theorem State.windowWrite_keeps (s : State) (m : Master) (a v : Nat) : Keeps State.windowWrite_w s (s.windowWrite m a v).1 := by
  unfold State.windowWrite
  repeat' first
    | (extract_lets +onlyGivenNames x1; clear_value (hx : x1 = _); refine Keeps.cut x1 ?_ (fun h => ?_); rw [hx]; clear hx x1; rotate_left; clear hx; rotate_right)
    | (extract_lets +onlyGivenNames x1; clear_value (hx : x1 = _); refine Keeps.cut1 x1 ?_ (fun h => ?_); rw [hx]; clear hx x1; rotate_left; clear hx; rotate_right)
    | (extract_lets +onlyGivenNames x1; clear_value (hx : x1 = _); refine Keeps.cut2 x1 ?_ (fun h => ?_); rw [hx]; clear hx x1; rotate_left; clear hx; rotate_right)
    | (extract_lets +onlyGivenNames x1; clear_value (hx : x1 = _); clear hx)
    | with_reducible assumption
    | with_reducible exact Keeps.refl _ _
    | decide +kernel
    | with_reducible apply Keeps.via (State.engWindowWrite_keeps ..)
    | with_reducible apply Keeps.via (State.corrPut_keeps ..)
    | with_reducible apply Keeps.via (State.ok_keeps ..)
    | with_reducible apply Keeps.via (State.bad_keeps ..)
    | with_reducible apply Keeps.iteA
    | with_reducible apply Keeps.ite1
    | split

def State.blockRead_w : Nat := State.bad_w ||| State.regRead_w ||| State.windowRead_w
theorem State.blockRead_keeps (s : State) (m : Master) (a : Nat) : Keeps State.blockRead_w s (s.blockRead m a).1 := by
  unfold State.blockRead
  repeat' first
    | with_reducible assumption
    | with_reducible exact Keeps.refl _ _
    | decide +kernel
    | with_reducible apply Keeps.via (State.bad_keeps ..)
    | with_reducible apply Keeps.via (State.regRead_keeps ..)
    | with_reducible apply Keeps.via (State.windowRead_keeps ..)
    | with_reducible apply Keeps.iteA
    | with_reducible apply Keeps.ite1
    | split

def State.blockWrite_w : Nat := State.bad_w ||| State.ok_w ||| State.regWrite_w ||| State.windowWrite_w
theorem State.blockWrite_keeps (s : State) (m : Master) (a v : Nat) : Keeps State.blockWrite_w s (s.blockWrite m a v).1 := by
  unfold State.blockWrite
  repeat' first
    | with_reducible assumption
    | with_reducible exact Keeps.refl _ _
    | decide +kernel
    | with_reducible apply Keeps.via (State.bad_keeps ..)
    | with_reducible apply Keeps.via (State.ok_keeps ..)
    | with_reducible apply Keeps.via (State.regWrite_keeps ..)
    | with_reducible apply Keeps.via (State.windowWrite_keeps ..)
    | with_reducible apply Keeps.iteA
    | with_reducible apply Keeps.ite1
    | split

def State.busRead_w : Nat := State.bad_w ||| State.spReadWord_w ||| State.celReadWord_w ||| State.blockRead_w
theorem State.busRead_keeps (s : State) (m : Master) (a : Nat) : Keeps State.busRead_w s (s.busRead m a).1 := by
  unfold State.busRead
  repeat' first
    | with_reducible assumption
    | with_reducible exact Keeps.refl _ _
    | decide +kernel
    | with_reducible apply Keeps.via (State.bad_keeps ..)
    | with_reducible apply Keeps.via (State.spReadWord_keeps ..)
    | with_reducible apply Keeps.via (State.celReadWord_keeps ..)
    | with_reducible apply Keeps.via (State.blockRead_keeps ..)
    | with_reducible apply Keeps.iteA
    | with_reducible apply Keeps.ite1
    | split

def State.busWrite_w : Nat := State.bad_w ||| State.spWriteWord_w ||| State.aliasPut_w ||| State.celWriteWord_w |||
    State.blockWrite_w
theorem State.busWrite_keeps (s : State) (m : Master) (a v : Nat) : Keeps State.busWrite_w s (s.busWrite m a v).1 := by
  unfold State.busWrite
  repeat' first
    | with_reducible assumption
    | with_reducible exact Keeps.refl _ _
    | decide +kernel
    | with_reducible apply Keeps.via (State.bad_keeps ..)
    | with_reducible apply Keeps.via (State.spWriteWord_keeps ..)
    | with_reducible apply Keeps.via (State.aliasPut_keeps ..)
    | with_reducible apply Keeps.via (State.celWriteWord_keeps ..)
    | with_reducible apply Keeps.via (State.blockWrite_keeps ..)
    | with_reducible apply Keeps.iteA
    | with_reducible apply Keeps.ite1
    | split

def answered_w : Nat := m_lastResp
theorem answered_keeps {w : Nat} {s : State} {r : State × Resp} (hw : Sub answered_w w) (h : Keeps w s r.1) :
    Keeps w s (answered r) := h.trans (Keeps.c_lastResp _ hw)

def State.swRead_w : Nat := State.busRead_w ||| answered_w
theorem State.swRead_keeps (s : State) (m : Master) (r : RegName) (i : Nat) : Keeps State.swRead_w s (s.swRead m r i) := by
  unfold State.swRead
  repeat' first
    | with_reducible assumption
    | with_reducible exact Keeps.refl _ _
    | decide +kernel
    | with_reducible apply Keeps.via (State.busRead_keeps ..)
    | with_reducible apply answered_keeps

def State.swWrite_w : Nat := State.busWrite_w ||| answered_w
theorem State.swWrite_keeps (s : State) (m : Master) (r : RegName) (i v : Nat) : Keeps State.swWrite_w s (s.swWrite m r i v) := by
  unfold State.swWrite
  repeat' first
    | with_reducible assumption
    | with_reducible exact Keeps.refl _ _
    | decide +kernel
    | with_reducible apply Keeps.via (State.busWrite_keeps ..)
    | with_reducible apply answered_keeps

end Sys2Proof.Machine
end

