-- ==== Sys2Proof/Laws/KeepsHost.lean ====
section
/-!
SUPPORT. What every operation of Machine/Host.lean can change: its mask and its Keeps lemma.
-/

set_option Elab.async false
set_option linter.all false

namespace Sys2Proof.Machine

def State.answerStill_w : Nat := State.answerOk_w
theorem State.answerStill_keeps (s : State) (h : Hdr) (op : Nat) (data : List Byte) : Keeps State.answerStill_w s (s.answerStill h op data) := by
  unfold State.answerStill
  repeat' first
    | with_reducible assumption
    | with_reducible exact Keeps.refl _ _
    | decide +kernel
    | with_reducible apply Keeps.via (State.answerOk_keeps ..)
    | with_reducible apply Keeps.iteA

def State.statusCmd_w : Nat := State.serve_w ||| State.answerOk_w
theorem State.statusCmd_keeps (s : State) (h : Hdr) : Keeps State.statusCmd_w s (s.statusCmd h) := by
  unfold State.statusCmd
  repeat' first
    | with_reducible assumption
    | with_reducible exact Keeps.refl _ _
    | decide +kernel
    | with_reducible apply Keeps.trans ?_ (State.serve_keeps ?_ ?_)
    | with_reducible apply Keeps.via (State.answerOk_keeps ..)
    | intro _

def State.readAll_w : Nat := State.busRead_w
theorem State.readAll_keeps (s : State) (l : List Nat) (n : Nat) (acc : List Byte) :
    Keeps State.readAll_w s (s.readAll l n acc).1 := by
  induction l generalizing s n acc with
  | nil => exact Keeps.refl _ _
  | cons a l ih =>
    have h := State.busRead_keeps s .fabric a
    rw [State.readAll]
    generalize s.busRead .fabric a = r at h
    obtain ⟨t, x⟩ := r
    cases x with
    | value v => exact h.trans (ih ..)
    | done => exact h
    | error => exact h

def State.regRdCmd_w : Nat := State.serve_w ||| State.answerErr_w ||| State.answerWrong_w ||| State.readAll_w |||
    State.answerOk_w
theorem State.regRdCmd_keeps (s : State) (h : Hdr) (addrs : List Nat) : Keeps State.regRdCmd_w s (s.regRdCmd h addrs) := by
  unfold State.regRdCmd
  repeat' first
    | (extract_lets +onlyGivenNames x1; clear_value (hx : x1 = _); refine Keeps.cut x1 ?_ (fun h => ?_); rw [hx]; clear hx x1; rotate_left; clear hx; rotate_right)
    | (extract_lets +onlyGivenNames x1; clear_value (hx : x1 = _); refine Keeps.cut1 x1 ?_ (fun h => ?_); rw [hx]; clear hx x1; rotate_left; clear hx; rotate_right)
    | (extract_lets +onlyGivenNames x1; clear_value (hx : x1 = _); refine Keeps.cut2 x1 ?_ (fun h => ?_); rw [hx]; clear hx x1; rotate_left; clear hx; rotate_right)
    | (extract_lets +onlyGivenNames x1; clear_value (hx : x1 = _); clear hx)
    | with_reducible assumption
    | with_reducible exact Keeps.refl _ _
    | decide +kernel
    | with_reducible apply Keeps.trans ?_ (State.serve_keeps ?_ ?_)
    | with_reducible apply Keeps.via (State.answerErr_keeps ..)
    | with_reducible apply Keeps.via (State.answerWrong_keeps ..)
    | with_reducible apply Keeps.via (State.readAll_keeps ..)
    | with_reducible apply Keeps.via (State.answerOk_keeps ..)
    | with_reducible apply Keeps.iteA
    | with_reducible apply Keeps.ite1
    | split
    | intro _

def State.writeItem_w : Nat := State.busWrite_w
theorem State.writeItem_keeps (s : State) (a v : Nat) : Keeps State.writeItem_w s (s.writeItem a v).1 := by
  have h := State.busWrite_keeps s .fabric a v
  unfold State.writeItem
  generalize s.busWrite .fabric a v = r at h
  obtain ⟨t, x⟩ := r
  cases x <;> exact h

def State.writeAll_w : Nat := State.writeItem_w
theorem State.writeAll_keeps (s : State) (l : List (Nat × Nat)) (n : Nat) : Keeps State.writeAll_w s (s.writeAll l n).1 := by
  induction l generalizing s n with
  | nil => exact Keeps.refl _ _
  | cons p l ih =>
    have h := State.writeItem_keeps s p.1 p.2
    rw [State.writeAll]
    generalize s.writeItem p.1 p.2 = r at h
    obtain ⟨t, x⟩ := r
    cases x with
    | some c => exact h
    | none => exact Keeps.ite1 (h.trans (ih ..)) h

def State.writeAnswer_w : Nat := State.writeAll_w ||| State.answerErr_w ||| State.answerStill_w
theorem State.writeAnswer_keeps (s : State) (h : Hdr) (op : Nat) (l : List (Nat × Nat)) : Keeps State.writeAnswer_w s (s.writeAnswer h op l) := by
  unfold State.writeAnswer
  repeat' first
    | (extract_lets +onlyGivenNames x1; clear_value (hx : x1 = _); refine Keeps.cut x1 ?_ (fun h => ?_); rw [hx]; clear hx x1; rotate_left; clear hx; rotate_right)
    | (extract_lets +onlyGivenNames x1; clear_value (hx : x1 = _); refine Keeps.cut1 x1 ?_ (fun h => ?_); rw [hx]; clear hx x1; rotate_left; clear hx; rotate_right)
    | (extract_lets +onlyGivenNames x1; clear_value (hx : x1 = _); refine Keeps.cut2 x1 ?_ (fun h => ?_); rw [hx]; clear hx x1; rotate_left; clear hx; rotate_right)
    | (extract_lets +onlyGivenNames x1; clear_value (hx : x1 = _); clear hx)
    | with_reducible assumption
    | with_reducible exact Keeps.refl _ _
    | decide +kernel
    | with_reducible apply Keeps.via (State.writeAll_keeps ..)
    | with_reducible apply Keeps.via (State.answerErr_keeps ..)
    | with_reducible apply Keeps.via (State.answerStill_keeps ..)
    | split

def State.regWrCmd_w : Nat := State.serve_w ||| State.answerErr_w ||| State.answerSites_w ||| State.writeAnswer_w
theorem State.regWrCmd_keeps (s : State) (h : Hdr) (items : List RegItem) : Keeps State.regWrCmd_w s (s.regWrCmd h items) := by
  unfold State.regWrCmd
  repeat' first
    | (extract_lets +onlyGivenNames x1; clear_value (hx : x1 = _); refine Keeps.cut x1 ?_ (fun h => ?_); rw [hx]; clear hx x1; rotate_left; clear hx; rotate_right)
    | (extract_lets +onlyGivenNames x1; clear_value (hx : x1 = _); refine Keeps.cut1 x1 ?_ (fun h => ?_); rw [hx]; clear hx x1; rotate_left; clear hx; rotate_right)
    | (extract_lets +onlyGivenNames x1; clear_value (hx : x1 = _); refine Keeps.cut2 x1 ?_ (fun h => ?_); rw [hx]; clear hx x1; rotate_left; clear hx; rotate_right)
    | (extract_lets +onlyGivenNames x1; clear_value (hx : x1 = _); clear hx)
    | with_reducible assumption
    | with_reducible exact Keeps.refl _ _
    | decide +kernel
    | with_reducible apply Keeps.trans ?_ (State.serve_keeps ?_ ?_)
    | with_reducible apply Keeps.via (State.answerErr_keeps ..)
    | with_reducible apply Keeps.via (State.answerSites_keeps ..)
    | with_reducible apply Keeps.via (State.writeAnswer_keeps ..)
    | with_reducible apply Keeps.iteA
    | with_reducible apply Keeps.ite1
    | split
    | intro _

def State.celReadAll_w : Nat := State.celRead_w
theorem State.celReadAll_keeps (s : State) (l : List (Nat × Nat)) (n : Nat) (acc : List Byte) :
    Keeps State.celReadAll_w s (s.celReadAll l n acc).1 := by
  induction l generalizing s n acc with
  | nil => exact Keeps.refl _ _
  | cons p l ih =>
    have h := State.celRead_keeps s clsHost p.1 p.2
    rw [State.celReadAll]
    generalize s.celRead clsHost p.1 p.2 = r at h
    obtain ⟨t, x⟩ := r
    cases x with
    | some b => exact h.trans (ih ..)
    | none => exact h

def State.celWriteAll_w : Nat := State.celStore_w
theorem State.celWriteAll_keeps (s : State) (l : List (Nat × Nat)) (n : Nat) (d : List Byte) :
    Keeps State.celWriteAll_w s (s.celWriteAll l n d).1 := by
  induction l generalizing s n d with
  | nil => exact Keeps.refl _ _
  | cons p l ih =>
    have h := State.celStore_keeps s clsHost p.1 (d.take p.2)
    rw [State.celWriteAll]
    exact Keeps.ite1 (h.trans (ih ..)) h

def State.blkRdCmd_w : Nat := State.serve_w ||| State.answerErr_w ||| State.answerWrong_w ||| State.celReadAll_w |||
    State.readAll_w ||| State.answerOk_w
theorem State.blkRdCmd_keeps (s : State) (h : Hdr) (addr len : Nat) : Keeps State.blkRdCmd_w s (s.blkRdCmd h addr len) := by
  unfold State.blkRdCmd
  repeat' first
    | (extract_lets +onlyGivenNames x1; clear_value (hx : x1 = _); refine Keeps.cut x1 ?_ (fun h => ?_); rw [hx]; clear hx x1; rotate_left; clear hx; rotate_right)
    | (extract_lets +onlyGivenNames x1; clear_value (hx : x1 = _); refine Keeps.cut1 x1 ?_ (fun h => ?_); rw [hx]; clear hx x1; rotate_left; clear hx; rotate_right)
    | (extract_lets +onlyGivenNames x1; clear_value (hx : x1 = _); refine Keeps.cut2 x1 ?_ (fun h => ?_); rw [hx]; clear hx x1; rotate_left; clear hx; rotate_right)
    | (extract_lets +onlyGivenNames x1; clear_value (hx : x1 = _); clear hx)
    | with_reducible assumption
    | with_reducible exact Keeps.refl _ _
    | decide +kernel
    | with_reducible apply Keeps.trans ?_ (State.serve_keeps ?_ ?_)
    | with_reducible apply Keeps.via (State.answerErr_keeps ..)
    | with_reducible apply Keeps.via (State.answerWrong_keeps ..)
    | with_reducible apply Keeps.via (State.celReadAll_keeps ..)
    | with_reducible apply Keeps.via (State.readAll_keeps ..)
    | with_reducible apply Keeps.via (State.answerOk_keeps ..)
    | with_reducible apply Keeps.iteA
    | with_reducible apply Keeps.ite1
    | split
    | intro _

def State.blkWrCellar_w : Nat := State.answerWrong_w ||| State.answerErr_w ||| State.celWriteAll_w ||| State.answerOk_w
theorem State.blkWrCellar_keeps (s : State) (h : Hdr) (o : Nat) (data : List Byte) : Keeps State.blkWrCellar_w s (s.blkWrCellar h o data) := by
  unfold State.blkWrCellar
  repeat' first
    | (extract_lets +onlyGivenNames x1; clear_value (hx : x1 = _); refine Keeps.cut x1 ?_ (fun h => ?_); rw [hx]; clear hx x1; rotate_left; clear hx; rotate_right)
    | (extract_lets +onlyGivenNames x1; clear_value (hx : x1 = _); refine Keeps.cut1 x1 ?_ (fun h => ?_); rw [hx]; clear hx x1; rotate_left; clear hx; rotate_right)
    | (extract_lets +onlyGivenNames x1; clear_value (hx : x1 = _); refine Keeps.cut2 x1 ?_ (fun h => ?_); rw [hx]; clear hx x1; rotate_left; clear hx; rotate_right)
    | (extract_lets +onlyGivenNames x1; clear_value (hx : x1 = _); clear hx)
    | with_reducible assumption
    | with_reducible exact Keeps.refl _ _
    | decide +kernel
    | with_reducible apply Keeps.via (State.answerWrong_keeps ..)
    | with_reducible apply Keeps.via (State.answerErr_keeps ..)
    | with_reducible apply Keeps.via (State.celWriteAll_keeps ..)
    | with_reducible apply Keeps.via (State.answerOk_keeps ..)
    | with_reducible apply Keeps.iteA
    | split

def State.blkWrCmd_w : Nat := State.serve_w ||| State.answerErr_w ||| State.blkWrCellar_w ||| State.answerSites_w |||
    State.writeAnswer_w
theorem State.blkWrCmd_keeps (s : State) (h : Hdr) (addr : Nat) (data : List Byte) : Keeps State.blkWrCmd_w s (s.blkWrCmd h addr data) := by
  unfold State.blkWrCmd
  repeat' first
    | (extract_lets +onlyGivenNames x1; clear_value (hx : x1 = _); refine Keeps.cut x1 ?_ (fun h => ?_); rw [hx]; clear hx x1; rotate_left; clear hx; rotate_right)
    | (extract_lets +onlyGivenNames x1; clear_value (hx : x1 = _); refine Keeps.cut1 x1 ?_ (fun h => ?_); rw [hx]; clear hx x1; rotate_left; clear hx; rotate_right)
    | (extract_lets +onlyGivenNames x1; clear_value (hx : x1 = _); refine Keeps.cut2 x1 ?_ (fun h => ?_); rw [hx]; clear hx x1; rotate_left; clear hx; rotate_right)
    | (extract_lets +onlyGivenNames x1; clear_value (hx : x1 = _); clear hx)
    | with_reducible assumption
    | with_reducible exact Keeps.refl _ _
    | decide +kernel
    | with_reducible apply Keeps.trans ?_ (State.serve_keeps ?_ ?_)
    | with_reducible apply Keeps.via (State.answerErr_keeps ..)
    | with_reducible apply Keeps.via (State.blkWrCellar_keeps ..)
    | with_reducible apply Keeps.via (State.answerSites_keeps ..)
    | with_reducible apply Keeps.via (State.writeAnswer_keeps ..)
    | with_reducible apply Keeps.iteA
    | with_reducible apply Keeps.ite1
    | split
    | intro _

def State.flashBegin_w : Nat := m_flashOps ||| State.answerErr_w
theorem State.flashBegin_keeps (s : State) (op : Nat) (o : FlashOp) : Keeps State.flashBegin_w s (s.flashBegin op o) := by
  unfold State.flashBegin
  repeat' first
    | with_reducible assumption
    | with_reducible exact Keeps.refl _ _
    | decide +kernel
    | with_reducible apply Keeps.via (State.answerErr_keeps ..)
    | with_reducible apply Keeps.iteA
    | with_reducible refine Keeps.trans ?_ (Keeps.c_flashOps _ ?_)

def State.flashWrCmd_w : Nat := State.serve_w ||| State.answerErr_w ||| State.flashBegin_w
theorem State.flashWrCmd_keeps (s : State) (h : Hdr) (off : Nat) (data : List Byte) : Keeps State.flashWrCmd_w s (s.flashWrCmd h off data) := by
  unfold State.flashWrCmd
  repeat' first
    | with_reducible assumption
    | with_reducible exact Keeps.refl _ _
    | decide +kernel
    | with_reducible apply Keeps.trans ?_ (State.serve_keeps ?_ ?_)
    | with_reducible apply Keeps.via (State.answerErr_keeps ..)
    | with_reducible apply Keeps.via (State.flashBegin_keeps ..)
    | with_reducible apply Keeps.iteA
    | with_reducible apply Keeps.ite1
    | intro _

def State.flashEraseCmd_w : Nat := State.serve_w ||| State.answerErr_w ||| State.flashBegin_w
theorem State.flashEraseCmd_keeps (s : State) (h : Hdr) (off sectors : Nat) : Keeps State.flashEraseCmd_w s (s.flashEraseCmd h off sectors) := by
  unfold State.flashEraseCmd
  repeat' first
    | with_reducible assumption
    | with_reducible exact Keeps.refl _ _
    | decide +kernel
    | with_reducible apply Keeps.trans ?_ (State.serve_keeps ?_ ?_)
    | with_reducible apply Keeps.via (State.answerErr_keeps ..)
    | with_reducible apply Keeps.via (State.flashBegin_keeps ..)
    | with_reducible apply Keeps.iteA
    | with_reducible apply Keeps.ite1
    | intro _

def State.flashDone_w : Nat := m_flashOps ||| State.flashAct_w ||| State.answerOk_w ||| State.flashPart_w |||
    State.answerErr_w
theorem State.flashDone_keeps (s : State) (ok : Bool) : Keeps State.flashDone_w s (s.flashDone ok) := by
  unfold State.flashDone
  repeat' first
    | (extract_lets +onlyGivenNames x1; clear_value (hx : x1 = _); refine Keeps.cut x1 ?_ (fun h => ?_); rw [hx]; clear hx x1; rotate_left; clear hx; rotate_right)
    | (extract_lets +onlyGivenNames x1; clear_value (hx : x1 = _); refine Keeps.cut1 x1 ?_ (fun h => ?_); rw [hx]; clear hx x1; rotate_left; clear hx; rotate_right)
    | (extract_lets +onlyGivenNames x1; clear_value (hx : x1 = _); refine Keeps.cut2 x1 ?_ (fun h => ?_); rw [hx]; clear hx x1; rotate_left; clear hx; rotate_right)
    | (extract_lets +onlyGivenNames x1; clear_value (hx : x1 = _); clear hx)
    | with_reducible assumption
    | with_reducible exact Keeps.refl _ _
    | decide +kernel
    | with_reducible apply Keeps.via (State.flashAct_keeps ..)
    | with_reducible apply Keeps.via (State.answerOk_keeps ..)
    | with_reducible apply Keeps.via (State.flashPart_keeps ..)
    | with_reducible apply Keeps.via (State.answerErr_keeps ..)
    | with_reducible apply Keeps.iteA
    | split
    | with_reducible refine Keeps.trans ?_ (Keeps.c_flashOps _ ?_)

def State.hostJumpCmd_w : Nat := State.serve_w ||| State.answerErr_w ||| State.answerSites_w ||| State.jumpCancel_w |||
    State.jumpRequest_w ||| State.waveJumpCancel_w ||| State.waveJump_w ||| State.answerOk_w
theorem State.hostJumpCmd_keeps (s : State) (h : Hdr) (cancel smu : Bool) (mask : Nat) : Keeps State.hostJumpCmd_w s (s.hostJumpCmd h cancel smu mask) := by
  unfold State.hostJumpCmd
  repeat' first
    | (extract_lets +onlyGivenNames x1; clear_value (hx : x1 = _); refine Keeps.cut x1 ?_ (fun h => ?_); rw [hx]; clear hx x1; rotate_left; clear hx; rotate_right)
    | (extract_lets +onlyGivenNames x1; clear_value (hx : x1 = _); refine Keeps.cut1 x1 ?_ (fun h => ?_); rw [hx]; clear hx x1; rotate_left; clear hx; rotate_right)
    | (extract_lets +onlyGivenNames x1; clear_value (hx : x1 = _); refine Keeps.cut2 x1 ?_ (fun h => ?_); rw [hx]; clear hx x1; rotate_left; clear hx; rotate_right)
    | (extract_lets +onlyGivenNames x1; clear_value (hx : x1 = _); clear hx)
    | with_reducible assumption
    | with_reducible exact Keeps.refl _ _
    | decide +kernel
    | with_reducible refine Keeps.eachA ?_ (fun _ _ => ?_)
    | with_reducible apply Keeps.trans ?_ (State.serve_keeps ?_ ?_)
    | with_reducible apply Keeps.via (State.answerErr_keeps ..)
    | with_reducible apply Keeps.via (State.answerSites_keeps ..)
    | with_reducible apply Keeps.via (State.jumpCancel_keeps ..)
    | with_reducible apply Keeps.via (State.jumpRequest_keeps ..)
    | with_reducible apply Keeps.via (State.waveJumpCancel_keeps ..)
    | with_reducible apply Keeps.via (State.waveJump_keeps ..)
    | with_reducible apply Keeps.via (State.answerOk_keeps ..)
    | with_reducible apply Keeps.iteA
    | with_reducible apply Keeps.ite1
    | intro _

def State.softResetCmd_w : Nat := fm H.RST_SOFT_DUE ||| State.answerErr_w ||| State.serve_w ||| State.answerOk_w
theorem State.softResetCmd_keeps (s : State) (h : Hdr) (key : Nat) : Keeps State.softResetCmd_w s (s.softResetCmd h key) := by
  unfold State.softResetCmd
  repeat' first
    | with_reducible assumption
    | with_reducible exact Keeps.refl _ _
    | decide +kernel
    | with_reducible apply Keeps.setDueA
    | with_reducible apply Keeps.via (State.answerErr_keeps ..)
    | with_reducible apply Keeps.trans ?_ (State.serve_keeps ?_ ?_)
    | with_reducible apply Keeps.via (State.answerOk_keeps ..)
    | with_reducible apply Keeps.iteA
    | with_reducible apply Keeps.ite1
    | intro _

def State.softReset_w : Nat := fm H.RST_SOFT_DUE ||| m_now ||| State.warmReset_w F.RST_CAUSE_SOFT
theorem State.softReset_keeps (s : State) : Keeps State.softReset_w s (s.softReset) := by
  unfold State.softReset
  repeat' first
    | with_reducible assumption
    | with_reducible exact Keeps.refl _ _
    | decide +kernel
    | with_reducible apply Keeps.noDueA
    | with_reducible apply Keeps.upToA
    | with_reducible apply Keeps.via (State.warmReset_keeps ..)
    | split

def State.bootClearCmd_w : Nat := fm F.BOOT_ATTEMPT_FAILS ||| State.serve_w ||| State.answerErr_w ||| State.bootAppend_w |||
    State.answerOk_w
theorem State.bootClearCmd_keeps (s : State) (h : Hdr) : Keeps State.bootClearCmd_w s (s.bootClearCmd h) := by
  unfold State.bootClearCmd
  repeat' first
    | (extract_lets +onlyGivenNames x1; clear_value (hx : x1 = _); refine Keeps.cut x1 ?_ (fun h => ?_); rw [hx]; clear hx x1; rotate_left; clear hx; rotate_right)
    | (extract_lets +onlyGivenNames x1; clear_value (hx : x1 = _); refine Keeps.cut1 x1 ?_ (fun h => ?_); rw [hx]; clear hx x1; rotate_left; clear hx; rotate_right)
    | (extract_lets +onlyGivenNames x1; clear_value (hx : x1 = _); refine Keeps.cut2 x1 ?_ (fun h => ?_); rw [hx]; clear hx x1; rotate_left; clear hx; rotate_right)
    | (extract_lets +onlyGivenNames x1; clear_value (hx : x1 = _); clear hx)
    | with_reducible assumption
    | with_reducible exact Keeps.refl _ _
    | decide +kernel
    | with_reducible apply Keeps.putA
    | with_reducible apply Keeps.trans ?_ (State.serve_keeps ?_ ?_)
    | with_reducible apply Keeps.via (State.answerErr_keeps ..)
    | with_reducible apply Keeps.via (State.bootAppend_keeps ..)
    | with_reducible apply Keeps.via (State.answerOk_keeps ..)
    | with_reducible apply Keeps.iteA
    | with_reducible apply Keeps.ite1
    | intro _

def State.prepareRemoveCmd_w : Nat := fm H.REMOVE_SRC ||| fm H.REMOVE_TAG ||| fm H.REMOVE_WAIT ||| State.answerErr_w |||
    State.serve_w ||| State.answerSites_w ||| State.answerWrong_w ||| State.leaveSend_w ||| State.removeCheck_w
theorem State.prepareRemoveCmd_keeps (s : State) (h : Hdr) : Keeps State.prepareRemoveCmd_w s (s.prepareRemoveCmd h) := by
  unfold State.prepareRemoveCmd
  repeat' first
    | (extract_lets +onlyGivenNames x1; clear_value (hx : x1 = _); refine Keeps.cut x1 ?_ (fun h => ?_); rw [hx]; clear hx x1; rotate_left; clear hx; rotate_right)
    | (extract_lets +onlyGivenNames x1; clear_value (hx : x1 = _); refine Keeps.cut1 x1 ?_ (fun h => ?_); rw [hx]; clear hx x1; rotate_left; clear hx; rotate_right)
    | (extract_lets +onlyGivenNames x1; clear_value (hx : x1 = _); refine Keeps.cut2 x1 ?_ (fun h => ?_); rw [hx]; clear hx x1; rotate_left; clear hx; rotate_right)
    | (extract_lets +onlyGivenNames x1; clear_value (hx : x1 = _); clear hx)
    | with_reducible assumption
    | with_reducible exact Keeps.refl _ _
    | decide +kernel
    | with_reducible apply Keeps.putA
    | with_reducible apply Keeps.setBA
    | with_reducible refine Keeps.eachA ?_ (fun _ _ => ?_)
    | with_reducible apply Keeps.via (State.answerErr_keeps ..)
    | with_reducible apply Keeps.trans ?_ (State.serve_keeps ?_ ?_)
    | with_reducible apply Keeps.via (State.answerSites_keeps ..)
    | with_reducible apply Keeps.via (State.answerWrong_keeps ..)
    | with_reducible apply Keeps.via (State.leaveSend_keeps ..)
    | with_reducible apply Keeps.via (State.removeCheck_keeps ..)
    | with_reducible apply Keeps.iteA
    | with_reducible apply Keeps.ite1
    | intro _

def State.mbxPostCmd_w : Nat := m_h2d ||| State.answerErr_w ||| State.serve_w ||| State.irq_w ||| State.answerOk_w
theorem State.mbxPostCmd_keeps (s : State) (h : Hdr) (mbx epoch : Nat) (words : List Nat) : Keeps State.mbxPostCmd_w s (s.mbxPostCmd h mbx epoch words) := by
  unfold State.mbxPostCmd
  repeat' first
    | (extract_lets +onlyGivenNames x1; clear_value (hx : x1 = _); refine Keeps.cut x1 ?_ (fun h => ?_); rw [hx]; clear hx x1; rotate_left; clear hx; rotate_right)
    | (extract_lets +onlyGivenNames x1; clear_value (hx : x1 = _); refine Keeps.cut1 x1 ?_ (fun h => ?_); rw [hx]; clear hx x1; rotate_left; clear hx; rotate_right)
    | (extract_lets +onlyGivenNames x1; clear_value (hx : x1 = _); refine Keeps.cut2 x1 ?_ (fun h => ?_); rw [hx]; clear hx x1; rotate_left; clear hx; rotate_right)
    | (extract_lets +onlyGivenNames x1; clear_value (hx : x1 = _); clear hx)
    | with_reducible assumption
    | with_reducible exact Keeps.refl _ _
    | decide +kernel
    | with_reducible refine Keeps.eachA ?_ (fun _ _ => ?_)
    | with_reducible apply Keeps.via (State.answerErr_keeps ..)
    | with_reducible apply Keeps.trans ?_ (State.serve_keeps ?_ ?_)
    | with_reducible apply Keeps.via (State.irq_keeps ..)
    | with_reducible apply Keeps.via (State.answerOk_keeps ..)
    | with_reducible apply Keeps.iteA
    | with_reducible apply Keeps.ite1
    | with_reducible refine Keeps.trans ?_ (Keeps.c_h2d _ ?_)
    | intro _

def State.mbxReadCmd_w : Nat := m_d2h ||| State.answerErr_w ||| State.serve_w ||| State.answerOk_w
theorem State.mbxReadCmd_keeps (s : State) (h : Hdr) (mbx max : Nat) : Keeps State.mbxReadCmd_w s (s.mbxReadCmd h mbx max) := by
  unfold State.mbxReadCmd
  repeat' first
    | (extract_lets +onlyGivenNames x1; clear_value (hx : x1 = _); refine Keeps.cut x1 ?_ (fun h => ?_); rw [hx]; clear hx x1; rotate_left; clear hx; rotate_right)
    | (extract_lets +onlyGivenNames x1; clear_value (hx : x1 = _); refine Keeps.cut1 x1 ?_ (fun h => ?_); rw [hx]; clear hx x1; rotate_left; clear hx; rotate_right)
    | (extract_lets +onlyGivenNames x1; clear_value (hx : x1 = _); refine Keeps.cut2 x1 ?_ (fun h => ?_); rw [hx]; clear hx x1; rotate_left; clear hx; rotate_right)
    | (extract_lets +onlyGivenNames x1; clear_value (hx : x1 = _); clear hx)
    | with_reducible assumption
    | with_reducible exact Keeps.refl _ _
    | decide +kernel
    | with_reducible apply Keeps.via (State.answerErr_keeps ..)
    | with_reducible apply Keeps.trans ?_ (State.serve_keeps ?_ ?_)
    | with_reducible apply Keeps.via (State.answerOk_keeps ..)
    | with_reducible apply Keeps.iteA
    | with_reducible apply Keeps.ite1
    | with_reducible refine Keeps.trans ?_ (Keeps.c_d2h _ ?_)
    | intro _

def State.doorbellCmd_w : Nat := fm F.MBX_HOST_DB_RX_DB ||| State.answerErr_w ||| State.wakeUp_w ||| State.serve_w |||
    State.irq_w ||| State.answerOk_w
theorem State.doorbellCmd_keeps (s : State) (h : Hdr) (mbx : Nat) : Keeps State.doorbellCmd_w s (s.doorbellCmd h mbx) := by
  unfold State.doorbellCmd
  repeat' first
    | with_reducible assumption
    | with_reducible exact Keeps.refl _ _
    | decide +kernel
    | with_reducible apply Keeps.setBA
    | with_reducible apply Keeps.via (State.answerErr_keeps ..)
    | with_reducible apply Keeps.via (State.wakeUp_keeps ..)
    | with_reducible apply Keeps.trans ?_ (State.serve_keeps ?_ ?_)
    | with_reducible apply Keeps.via (State.irq_keeps ..)
    | with_reducible apply Keeps.via (State.answerOk_keeps ..)
    | with_reducible apply Keeps.iteA
    | with_reducible apply Keeps.ite1
    | intro _

def State.mbxResetCmd_w : Nat := fm F.MBX_HOST_STAT_HOST_EPOCH ||| m_d2h ||| State.answerErr_w ||| State.serve_w |||
    State.mbxFlushed_w ||| State.answerOk_w
theorem State.mbxResetCmd_keeps (s : State) (h : Hdr) (mbx epoch : Nat) : Keeps State.mbxResetCmd_w s (s.mbxResetCmd h mbx epoch) := by
  unfold State.mbxResetCmd
  repeat' first
    | (extract_lets +onlyGivenNames x1; clear_value (hx : x1 = _); refine Keeps.cut x1 ?_ (fun h => ?_); rw [hx]; clear hx x1; rotate_left; clear hx; rotate_right)
    | (extract_lets +onlyGivenNames x1; clear_value (hx : x1 = _); refine Keeps.cut1 x1 ?_ (fun h => ?_); rw [hx]; clear hx x1; rotate_left; clear hx; rotate_right)
    | (extract_lets +onlyGivenNames x1; clear_value (hx : x1 = _); refine Keeps.cut2 x1 ?_ (fun h => ?_); rw [hx]; clear hx x1; rotate_left; clear hx; rotate_right)
    | (extract_lets +onlyGivenNames x1; clear_value (hx : x1 = _); clear hx)
    | with_reducible assumption
    | with_reducible exact Keeps.refl _ _
    | decide +kernel
    | with_reducible apply Keeps.putA
    | with_reducible apply Keeps.via (State.answerErr_keeps ..)
    | with_reducible apply Keeps.trans ?_ (State.serve_keeps ?_ ?_)
    | with_reducible apply Keeps.via (State.mbxFlushed_keeps ..)
    | with_reducible apply Keeps.via (State.answerOk_keeps ..)
    | with_reducible apply Keeps.iteA
    | with_reducible apply Keeps.ite1
    | with_reducible refine Keeps.trans ?_ (Keeps.c_d2h _ ?_)
    | intro _

def State.reservedCmd_w : Nat := State.answerErr_w
theorem State.reservedCmd_keeps (s : State) (h : Hdr) (op : Nat) : Keeps State.reservedCmd_w s (s.reservedCmd h op) := by
  unfold State.reservedCmd
  repeat' first
    | with_reducible assumption
    | with_reducible exact Keeps.refl _ _
    | decide +kernel
    | with_reducible apply Keeps.via (State.answerErr_keeps ..)
    | split

def State.injectFault_w : Nat := State.serve_w ||| State.answerErr_w ||| State.faultRaise_w ||| State.answerStill_w
theorem State.injectFault_keeps (s : State) (h : Hdr) (index unit : Nat) : Keeps State.injectFault_w s (s.injectFault h index unit) := by
  unfold State.injectFault
  repeat' first
    | with_reducible assumption
    | with_reducible exact Keeps.refl _ _
    | decide +kernel
    | with_reducible apply Keeps.trans ?_ (State.serve_keeps ?_ ?_)
    | with_reducible apply Keeps.via (State.answerErr_keeps ..)
    | with_reducible apply Keeps.via (State.faultRaise_keeps ..)
    | with_reducible apply Keeps.via (State.answerStill_keeps ..)
    | with_reducible apply Keeps.iteA
    | with_reducible apply Keeps.ite1
    | intro _

def State.injectIrq_w : Nat := State.serve_w ||| State.irq_w ||| State.answerOk_w ||| State.answerErr_w
theorem State.injectIrq_keeps (s : State) (h : Hdr) (index : Nat) : Keeps State.injectIrq_w s (s.injectIrq h index) := by
  unfold State.injectIrq
  repeat' first
    | with_reducible assumption
    | with_reducible exact Keeps.refl _ _
    | decide +kernel
    | with_reducible apply Keeps.trans ?_ (State.serve_keeps ?_ ?_)
    | with_reducible apply Keeps.via (State.irq_keeps ..)
    | with_reducible apply Keeps.via (State.answerOk_keeps ..)
    | with_reducible apply Keeps.via (State.answerErr_keeps ..)
    | with_reducible apply Keeps.iteA
    | with_reducible apply Keeps.ite1
    | intro _

def State.injectReading_w : Nat := State.serve_w ||| State.answerErr_w ||| State.forceReading_w ||| State.answerStill_w
theorem State.injectReading_keeps (s : State) (h : Hdr) (index value holdMs : Nat) : Keeps State.injectReading_w s (s.injectReading h index value holdMs) := by
  unfold State.injectReading
  repeat' first
    | with_reducible assumption
    | with_reducible exact Keeps.refl _ _
    | decide +kernel
    | with_reducible apply Keeps.trans ?_ (State.serve_keeps ?_ ?_)
    | with_reducible apply Keeps.via (State.answerErr_keeps ..)
    | with_reducible apply Keeps.via (State.forceReading_keeps ..)
    | with_reducible apply Keeps.via (State.answerStill_keeps ..)
    | with_reducible apply Keeps.iteA
    | with_reducible apply Keeps.ite1
    | intro _

def State.injectBroken_w : Nat := State.serve_w ||| State.answerErr_w ||| State.forceBroken_w ||| State.answerStill_w
theorem State.injectBroken_keeps (s : State) (h : Hdr) (index cause : Nat) : Keeps State.injectBroken_w s (s.injectBroken h index cause) := by
  unfold State.injectBroken
  repeat' first
    | with_reducible assumption
    | with_reducible exact Keeps.refl _ _
    | decide +kernel
    | with_reducible apply Keeps.trans ?_ (State.serve_keeps ?_ ?_)
    | with_reducible apply Keeps.via (State.answerErr_keeps ..)
    | with_reducible apply Keeps.via (State.forceBroken_keeps ..)
    | with_reducible apply Keeps.via (State.answerStill_keeps ..)
    | with_reducible apply Keeps.iteA
    | with_reducible apply Keeps.ite1
    | intro _

def State.fuseReadCmd_w : Nat := State.serve_w ||| State.answerErr_w ||| State.answerOk_w
theorem State.fuseReadCmd_keeps (s : State) (h : Hdr) (word : Nat) : Keeps State.fuseReadCmd_w s (s.fuseReadCmd h word) := by
  unfold State.fuseReadCmd
  repeat' first
    | with_reducible assumption
    | with_reducible exact Keeps.refl _ _
    | decide +kernel
    | with_reducible apply Keeps.trans ?_ (State.serve_keeps ?_ ?_)
    | with_reducible apply Keeps.via (State.answerErr_keeps ..)
    | with_reducible apply Keeps.via (State.answerOk_keeps ..)
    | with_reducible apply Keeps.iteA
    | with_reducible apply Keeps.ite1
    | intro _

def State.fuseOrCmd_w : Nat := State.serve_w ||| State.answerErr_w ||| State.fuseOr_w ||| State.answerOk_w
theorem State.fuseOrCmd_keeps (s : State) (h : Hdr) (word v : Nat) : Keeps State.fuseOrCmd_w s (s.fuseOrCmd h word v) := by
  unfold State.fuseOrCmd
  repeat' first
    | with_reducible assumption
    | with_reducible exact Keeps.refl _ _
    | decide +kernel
    | with_reducible apply Keeps.trans ?_ (State.serve_keeps ?_ ?_)
    | with_reducible apply Keeps.via (State.answerErr_keeps ..)
    | with_reducible apply Keeps.via (State.fuseOr_keeps ..)
    | with_reducible apply Keeps.via (State.answerOk_keeps ..)
    | with_reducible apply Keeps.iteA
    | with_reducible apply Keeps.ite1
    | intro _

def State.versionCmd_w : Nat := State.serve_w ||| State.answerOk_w
theorem State.versionCmd_keeps (s : State) (h : Hdr) : Keeps State.versionCmd_w s (s.versionCmd h) := by
  unfold State.versionCmd
  repeat' first
    | with_reducible assumption
    | with_reducible exact Keeps.refl _ _
    | decide +kernel
    | with_reducible apply Keeps.trans ?_ (State.serve_keeps ?_ ?_)
    | with_reducible apply Keeps.via (State.answerOk_keeps ..)
    | intro _

def State.cmdWriteBack_w : Nat := m_scratch ||| m_h2e ||| State.pendTrap_w
theorem State.cmdWriteBack_keeps (s : State) (k off : Nat) (data : List Byte) : Keeps State.cmdWriteBack_w s (s.cmdWriteBack k off data) := by
  unfold State.cmdWriteBack
  repeat' first
    | (extract_lets +onlyGivenNames x1; clear_value (hx : x1 = _); refine Keeps.cut x1 ?_ (fun h => ?_); rw [hx]; clear hx x1; rotate_left; clear hx; rotate_right)
    | (extract_lets +onlyGivenNames x1; clear_value (hx : x1 = _); refine Keeps.cut1 x1 ?_ (fun h => ?_); rw [hx]; clear hx x1; rotate_left; clear hx; rotate_right)
    | (extract_lets +onlyGivenNames x1; clear_value (hx : x1 = _); refine Keeps.cut2 x1 ?_ (fun h => ?_); rw [hx]; clear hx x1; rotate_left; clear hx; rotate_right)
    | (extract_lets +onlyGivenNames x1; clear_value (hx : x1 = _); clear hx)
    | with_reducible assumption
    | with_reducible exact Keeps.refl _ _
    | decide +kernel
    | with_reducible apply Keeps.spWriteA
    | with_reducible apply Keeps.via (State.pendTrap_keeps ..)
    | with_reducible apply Keeps.iteA
    | with_reducible refine Keeps.trans ?_ (Keeps.c_h2e _ ?_)

def State.cmdReply_w : Nat := m_replies ||| State.cmdWriteBack_w
theorem State.cmdReply_keeps (s : State) (k : Nat) : Keeps State.cmdReply_w s (s.cmdReply k) := by
  unfold State.cmdReply
  repeat' first
    | with_reducible assumption
    | with_reducible exact Keeps.refl _ _
    | decide +kernel
    | with_reducible apply Keeps.via (State.cmdWriteBack_keeps ..)
    | split
    | with_reducible refine Keeps.trans ?_ (Keeps.c_replies _ ?_)

def State.cmdSubmit_w : Nat := m_accepted ||| State.answerErr_w
theorem State.cmdSubmit_keeps (s : State) (k off : Nat) : Keeps State.cmdSubmit_w s (s.cmdSubmit k off) := by
  unfold State.cmdSubmit
  repeat' first
    | (extract_lets +onlyGivenNames x1; clear_value (hx : x1 = _); refine Keeps.cut x1 ?_ (fun h => ?_); rw [hx]; clear hx x1; rotate_left; clear hx; rotate_right)
    | (extract_lets +onlyGivenNames x1; clear_value (hx : x1 = _); refine Keeps.cut1 x1 ?_ (fun h => ?_); rw [hx]; clear hx x1; rotate_left; clear hx; rotate_right)
    | (extract_lets +onlyGivenNames x1; clear_value (hx : x1 = _); refine Keeps.cut2 x1 ?_ (fun h => ?_); rw [hx]; clear hx x1; rotate_left; clear hx; rotate_right)
    | (extract_lets +onlyGivenNames x1; clear_value (hx : x1 = _); clear hx)
    | with_reducible assumption
    | with_reducible exact Keeps.refl _ _
    | decide +kernel
    | with_reducible apply Keeps.via (State.answerErr_keeps ..)
    | with_reducible apply Keeps.iteA
    | with_reducible refine Keeps.trans ?_ (Keeps.c_accepted _ ?_)

end Sys2Proof.Machine
end

