-- ==== Sys2Proof/Laws/KeepsCommands.lean ====
section
/-!
SUPPORT. What every operation of Machine/Commands.lean can change: its mask and its Keeps lemma.
-/

set_option Elab.async false
set_option linter.all false

namespace Sys2Proof.Machine

def State.onChans_w : Nat := 0
theorem State.onChans_keeps {w : Nat} {s : State} {l : List Nat} {why : State → Nat → Nat} {act : State → Nat → State}
    (he : ∀ t c, Keeps w t (act t c)) : Keeps w s (s.onChans l why act).1 := Keeps.eachA (Keeps.refl _ _) he

def State.pinCmd_w : Nat := State.tileCmd_w
theorem State.pinCmd_keeps {w : Nat} (hw : Sub State.pinCmd_w w) {s : State} {k op : Nat}
    {eff : State → Nat → SiteEntry → State × Nat} (he : ∀ t i e, Keeps w t (eff t i e).1) : Keeps w s (s.pinCmd k op eff) :=
  State.tileCmd_keeps hw he

def State.pinStart_w : Nat := State.pinCmd_w ||| State.requestStart_w
theorem State.pinStart_keeps (s : State) (k entry : Nat) : Keeps State.pinStart_w s (s.pinStart k entry) := by
  unfold State.pinStart
  repeat' first
    | with_reducible assumption
    | with_reducible exact Keeps.refl _ _
    | decide +kernel
    | with_reducible apply Keeps.trans ?_ (State.pinCmd_keeps ?_ ?_)
    | with_reducible apply Keeps.via (State.requestStart_keeps ..)
    | with_reducible apply Keeps.iteA
    | with_reducible apply Keeps.ite1
    | intro _

def State.pinJumpCmd_w : Nat := State.pinCmd_w ||| State.jumpRequest_w
theorem State.pinJumpCmd_keeps (s : State) (k : Nat) : Keeps State.pinJumpCmd_w s (s.pinJumpCmd k) := by
  unfold State.pinJumpCmd
  repeat' first
    | with_reducible assumption
    | with_reducible exact Keeps.refl _ _
    | decide +kernel
    | with_reducible apply Keeps.trans ?_ (State.pinCmd_keeps ?_ ?_)
    | with_reducible apply Keeps.via (State.jumpRequest_keeps ..)
    | intro _

def State.pinCancelCmd_w : Nat := State.pinCmd_w ||| State.jumpCancel_w
theorem State.pinCancelCmd_keeps (s : State) (k : Nat) : Keeps State.pinCancelCmd_w s (s.pinCancelCmd k) := by
  unfold State.pinCancelCmd
  repeat' first
    | with_reducible assumption
    | with_reducible exact Keeps.refl _ _
    | decide +kernel
    | with_reducible apply Keeps.trans ?_ (State.pinCmd_keeps ?_ ?_)
    | with_reducible apply Keeps.via (State.jumpCancel_keeps ..)
    | intro _

def State.pinTset_w : Nat := fm H.SQ_TSET_PIN ||| State.pinCmd_w
theorem State.pinTset_keeps (s : State) (k set : Nat) : Keeps State.pinTset_w s (s.pinTset k set) := by
  unfold State.pinTset
  repeat' first
    | with_reducible assumption
    | with_reducible exact Keeps.refl _ _
    | decide +kernel
    | with_reducible apply Keeps.putA
    | with_reducible apply Keeps.trans ?_ (State.pinCmd_keeps ?_ ?_)
    | intro _

def State.pinBank_w : Nat := State.pinCmd_w ||| State.onChans_w ||| State.bankSet_w
theorem State.pinBank_keeps (s : State) (k h v mask : Nat) : Keeps State.pinBank_w s (s.pinBank k h v mask) := by
  unfold State.pinBank
  repeat' first
    | with_reducible assumption
    | with_reducible exact Keeps.refl _ _
    | decide +kernel
    | with_reducible apply Keeps.trans ?_ (State.pinCmd_keeps ?_ ?_)
    | with_reducible apply Keeps.trans ?_ (State.onChans_keeps ?_)
    | with_reducible apply Keeps.via (State.bankSet_keeps ..)
    | intro _

def State.pinCmask_w : Nat := fm H.CH_CMASK ||| State.pinCmd_w ||| State.onChans_w
theorem State.pinCmask_keeps (s : State) (k h mask : Nat) : Keeps State.pinCmask_w s (s.pinCmask k h mask) := by
  unfold State.pinCmask
  repeat' first
    | (extract_lets +onlyGivenNames x1; clear_value (hx : x1 = _); refine Keeps.cut x1 ?_ (fun h => ?_); rw [hx]; clear hx x1; rotate_left; clear hx; rotate_right)
    | (extract_lets +onlyGivenNames x1; clear_value (hx : x1 = _); refine Keeps.cut1 x1 ?_ (fun h => ?_); rw [hx]; clear hx x1; rotate_left; clear hx; rotate_right)
    | (extract_lets +onlyGivenNames x1; clear_value (hx : x1 = _); refine Keeps.cut2 x1 ?_ (fun h => ?_); rw [hx]; clear hx x1; rotate_left; clear hx; rotate_right)
    | (extract_lets +onlyGivenNames x1; clear_value (hx : x1 = _); clear hx)
    | with_reducible assumption
    | with_reducible exact Keeps.refl _ _
    | decide +kernel
    | with_reducible apply Keeps.setBA
    | with_reducible apply Keeps.trans ?_ (State.pinCmd_keeps ?_ ?_)
    | with_reducible apply Keeps.trans ?_ (State.onChans_keeps ?_)
    | intro _

def State.pinDrv_w : Nat := State.pinCmd_w ||| State.onChans_w ||| State.drvEnSet_w
theorem State.pinDrv_keeps (s : State) (k h : Nat) (v : Bool) (mask : Nat) : Keeps State.pinDrv_w s (s.pinDrv k h v mask) := by
  unfold State.pinDrv
  repeat' first
    | with_reducible assumption
    | with_reducible exact Keeps.refl _ _
    | decide +kernel
    | with_reducible apply Keeps.trans ?_ (State.pinCmd_keeps ?_ ?_)
    | with_reducible apply Keeps.trans ?_ (State.onChans_keeps ?_)
    | with_reducible apply Keeps.via (State.drvEnSet_keeps ..)
    | with_reducible apply Keeps.iteA
    | with_reducible apply Keeps.ite1
    | intro _

def State.pinTrig_w : Nat := fm H.SQ_TRIG_PIN ||| State.pinCmd_w
theorem State.pinTrig_keeps (s : State) (k : Nat) : Keeps State.pinTrig_w s (s.pinTrig k) := by
  unfold State.pinTrig
  repeat' first
    | with_reducible assumption
    | with_reducible exact Keeps.refl _ _
    | decide +kernel
    | with_reducible apply Keeps.setBA
    | with_reducible apply Keeps.trans ?_ (State.pinCmd_keeps ?_ ?_)
    | intro _

def State.pinClrfail_w : Nat := fm H.ST_MARK_FAIL ||| fm H.ST_GFAIL ||| State.pinCmd_w
theorem State.pinClrfail_keeps (s : State) (k : Nat) : Keeps State.pinClrfail_w s (s.pinClrfail k) := by
  unfold State.pinClrfail
  repeat' first
    | with_reducible assumption
    | with_reducible exact Keeps.refl _ _
    | decide +kernel
    | with_reducible apply Keeps.putA
    | with_reducible apply Keeps.setBA
    | with_reducible apply Keeps.trans ?_ (State.pinCmd_keeps ?_ ?_)
    | intro _

def State.pinLevel_w : Nat := State.pinCmd_w ||| State.onChans_w ||| State.levelSet_w
theorem State.pinLevel_keeps (s : State) (k lvl : Nat) (bank all : Bool) (chan v : Nat) : Keeps State.pinLevel_w s (s.pinLevel k lvl bank all chan v) := by
  unfold State.pinLevel
  repeat' first
    | with_reducible assumption
    | with_reducible exact Keeps.refl _ _
    | decide +kernel
    | with_reducible apply Keeps.trans ?_ (State.pinCmd_keeps ?_ ?_)
    | with_reducible apply Keeps.trans ?_ (State.onChans_keeps ?_)
    | with_reducible apply Keeps.via (State.levelSet_keeps ..)
    | with_reducible apply Keeps.iteA
    | with_reducible apply Keeps.ite1
    | split
    | intro _

def State.pinTerm_w : Nat := fm F.CH_CTRL_TERM_MODE ||| State.pinCmd_w ||| State.onChans_w
theorem State.pinTerm_keeps (s : State) (k h mode mask : Nat) : Keeps State.pinTerm_w s (s.pinTerm k h mode mask) := by
  unfold State.pinTerm
  repeat' first
    | with_reducible assumption
    | with_reducible exact Keeps.refl _ _
    | decide +kernel
    | with_reducible apply Keeps.putA
    | with_reducible apply Keeps.trans ?_ (State.pinCmd_keeps ?_ ?_)
    | with_reducible apply Keeps.trans ?_ (State.onChans_keeps ?_)
    | intro _

def State.dpsFree_w : Nat := 0
theorem State.dpsFree_keeps {w : Nat} {s u : State} {d : Nat} {t : State × Nat} (h0 : Keeps w u s) (h : Keeps w u t.1) :
    Keeps w u (s.dpsFree d t).1 := by
  unfold State.dpsFree
  exact Keeps.ite1 h0 h

def State.smuOpen_w : Nat := 0
theorem State.smuOpen_keeps {w : Nat} {s v : State} {u : Nat} {t : State × Nat} (h0 : Keeps w v s) (h : Keeps w v t.1) :
    Keeps w v (s.smuOpen u t).1 := by
  unfold State.smuOpen
  exact Keeps.ite1 h0 h

def State.anaDpsSet_w : Nat := State.unitCmd_w ||| State.dpsFree_w ||| State.dpsVsetSet_w
theorem State.anaDpsSet_keeps (s : State) (k idx imm : Nat) : Keeps State.anaDpsSet_w s (s.anaDpsSet k idx imm) := by
  unfold State.anaDpsSet
  repeat' first
    | with_reducible assumption
    | with_reducible exact Keeps.refl _ _
    | decide +kernel
    | with_reducible apply Keeps.trans ?_ (State.unitCmd_keeps ?_ ?_)
    | with_reducible apply State.dpsFree_keeps
    | with_reducible apply Keeps.via (State.dpsVsetSet_keeps ..)
    | intro _

def State.anaDpsIlim_w : Nat := State.unitCmd_w ||| State.dpsFree_w ||| State.dpsIlimSet_w
theorem State.anaDpsIlim_keeps (s : State) (k idx imm : Nat) : Keeps State.anaDpsIlim_w s (s.anaDpsIlim k idx imm) := by
  unfold State.anaDpsIlim
  repeat' first
    | with_reducible assumption
    | with_reducible exact Keeps.refl _ _
    | decide +kernel
    | with_reducible apply Keeps.trans ?_ (State.unitCmd_keeps ?_ ?_)
    | with_reducible apply State.dpsFree_keeps
    | with_reducible apply Keeps.via (State.dpsIlimSet_keeps ..)
    | intro _

def State.anaDpsEn_w : Nat := State.unitCmd_w ||| State.dpsFree_w ||| State.dpsEnSet_w
theorem State.anaDpsEn_keeps (s : State) (k idx : Nat) (b : Bool) : Keeps State.anaDpsEn_w s (s.anaDpsEn k idx b) := by
  unfold State.anaDpsEn
  repeat' first
    | with_reducible assumption
    | with_reducible exact Keeps.refl _ _
    | decide +kernel
    | with_reducible apply Keeps.trans ?_ (State.unitCmd_keeps ?_ ?_)
    | with_reducible apply State.dpsFree_keeps
    | with_reducible apply Keeps.via (State.dpsEnSet_keeps ..)
    | intro _

def State.anaDpsRamp_w : Nat := State.unitCmd_w ||| State.dpsFree_w ||| State.dpsSlewSet_w ||| State.dpsVsetSet_w
theorem State.anaDpsRamp_keeps (s : State) (k idx slew imm : Nat) : Keeps State.anaDpsRamp_w s (s.anaDpsRamp k idx slew imm) := by
  unfold State.anaDpsRamp
  repeat' first
    | with_reducible assumption
    | with_reducible exact Keeps.refl _ _
    | decide +kernel
    | with_reducible apply Keeps.trans ?_ (State.unitCmd_keeps ?_ ?_)
    | with_reducible apply State.dpsFree_keeps
    | with_reducible apply Keeps.via (State.dpsSlewSet_keeps ..)
    | with_reducible apply Keeps.via (State.dpsVsetSet_keeps ..)
    | intro _

def State.anaSmuSet_w : Nat := State.unitCmd_w ||| State.smuOpen_w ||| State.smuSetSet_w
theorem State.anaSmuSet_keeps (s : State) (k idx imm : Nat) : Keeps State.anaSmuSet_w s (s.anaSmuSet k idx imm) := by
  unfold State.anaSmuSet
  repeat' first
    | with_reducible assumption
    | with_reducible exact Keeps.refl _ _
    | decide +kernel
    | with_reducible apply Keeps.trans ?_ (State.unitCmd_keeps ?_ ?_)
    | with_reducible apply State.smuOpen_keeps
    | with_reducible apply Keeps.via (State.smuSetSet_keeps ..)
    | intro _

def State.anaSmuClamp_w : Nat := State.unitCmd_w ||| State.smuOpen_w ||| State.smuCompSet_w F.SMU_ICOMP_VALUE |||
    State.smuCompSet_w F.SMU_VCOMP_VALUE
theorem State.anaSmuClamp_keeps (s : State) (k idx imm : Nat) : Keeps State.anaSmuClamp_w s (s.anaSmuClamp k idx imm) := by
  unfold State.anaSmuClamp
  refine State.unitCmd_keeps (by decide +kernel) (fun t u => State.smuOpen_keeps (Keeps.refl _ _) ?_)
  exact (State.smuCompSet_keeps ..).mono (by split <;> decide +kernel)

def State.anaSmuRange_w : Nat := State.unitCmd_w ||| State.smuOpen_w ||| State.smuRangeSet_w
theorem State.anaSmuRange_keeps (s : State) (k idx rng : Nat) : Keeps State.anaSmuRange_w s (s.anaSmuRange k idx rng) := by
  unfold State.anaSmuRange
  repeat' first
    | (extract_lets +onlyGivenNames x1; clear_value (hx : x1 = _); refine Keeps.cut x1 ?_ (fun h => ?_); rw [hx]; clear hx x1; rotate_left; clear hx; rotate_right)
    | (extract_lets +onlyGivenNames x1; clear_value (hx : x1 = _); refine Keeps.cut1 x1 ?_ (fun h => ?_); rw [hx]; clear hx x1; rotate_left; clear hx; rotate_right)
    | (extract_lets +onlyGivenNames x1; clear_value (hx : x1 = _); refine Keeps.cut2 x1 ?_ (fun h => ?_); rw [hx]; clear hx x1; rotate_left; clear hx; rotate_right)
    | (extract_lets +onlyGivenNames x1; clear_value (hx : x1 = _); clear hx)
    | with_reducible assumption
    | with_reducible exact Keeps.refl _ _
    | decide +kernel
    | with_reducible apply Keeps.trans ?_ (State.unitCmd_keeps ?_ ?_)
    | with_reducible apply State.smuOpen_keeps
    | with_reducible apply Keeps.via (State.smuRangeSet_keeps ..)
    | with_reducible apply Keeps.iteA
    | with_reducible apply Keeps.ite1
    | intro _

def State.anaSmuEn_w : Nat := State.unitCmd_w ||| State.smuOpen_w ||| State.smuEnSet_w
theorem State.anaSmuEn_keeps (s : State) (k idx : Nat) (b : Bool) : Keeps State.anaSmuEn_w s (s.anaSmuEn k idx b) := by
  unfold State.anaSmuEn
  repeat' first
    | with_reducible assumption
    | with_reducible exact Keeps.refl _ _
    | decide +kernel
    | with_reducible apply Keeps.trans ?_ (State.unitCmd_keeps ?_ ?_)
    | with_reducible apply State.smuOpen_keeps
    | with_reducible apply Keeps.via (State.smuEnSet_keeps ..)
    | intro _

def State.anaSmuWave_w : Nat := State.unitCmd_w ||| State.smuOpen_w ||| State.waveStart_w
theorem State.anaSmuWave_keeps (s : State) (k idx entry : Nat) : Keeps State.anaSmuWave_w s (s.anaSmuWave k idx entry) := by
  unfold State.anaSmuWave
  repeat' first
    | with_reducible assumption
    | with_reducible exact Keeps.refl _ _
    | decide +kernel
    | with_reducible apply Keeps.trans ?_ (State.unitCmd_keeps ?_ ?_)
    | with_reducible apply State.smuOpen_keeps
    | with_reducible apply Keeps.via (State.waveStart_keeps ..)
    | with_reducible apply Keeps.iteA
    | with_reducible apply Keeps.ite1
    | intro _

def State.anaSmuStop_w : Nat := State.unitCmd_w ||| State.smuOpen_w ||| State.waveStop_w
theorem State.anaSmuStop_keeps (s : State) (k idx : Nat) : Keeps State.anaSmuStop_w s (s.anaSmuStop k idx) := by
  unfold State.anaSmuStop
  repeat' first
    | with_reducible assumption
    | with_reducible exact Keeps.refl _ _
    | decide +kernel
    | with_reducible apply Keeps.trans ?_ (State.unitCmd_keeps ?_ ?_)
    | with_reducible apply State.smuOpen_keeps
    | with_reducible apply Keeps.via (State.waveStop_keeps ..)
    | intro _

def State.anaPmuCfg_w : Nat := State.unitCmd_w ||| State.pmuConfig_w
theorem State.anaPmuCfg_keeps (s : State) (k idx imm : Nat) : Keeps State.anaPmuCfg_w s (s.anaPmuCfg k idx imm) := by
  unfold State.anaPmuCfg
  repeat' first
    | with_reducible assumption
    | with_reducible exact Keeps.refl _ _
    | decide +kernel
    | with_reducible apply Keeps.trans ?_ (State.unitCmd_keeps ?_ ?_)
    | with_reducible apply Keeps.via (State.pmuConfig_keeps ..)
    | with_reducible apply Keeps.iteA
    | with_reducible apply Keeps.ite1
    | intro _

def State.anaPmuForce_w : Nat := State.unitCmd_w ||| State.pmuForceSet_w
theorem State.anaPmuForce_keeps (s : State) (k idx imm : Nat) : Keeps State.anaPmuForce_w s (s.anaPmuForce k idx imm) := by
  unfold State.anaPmuForce
  repeat' first
    | with_reducible assumption
    | with_reducible exact Keeps.refl _ _
    | decide +kernel
    | with_reducible apply Keeps.trans ?_ (State.unitCmd_keeps ?_ ?_)
    | with_reducible apply Keeps.via (State.pmuForceSet_keeps ..)
    | with_reducible apply Keeps.iteA
    | with_reducible apply Keeps.ite1
    | intro _

def State.listCmd_w : Nat := State.tileCmd_w
theorem State.listCmd_keeps {w : Nat} (hw : Sub State.listCmd_w w) {s : State} {k op busy : Nat} {sel : SiteEntry → Option Nat}
    {eff : State → Nat → State × Nat} (he : ∀ t u, Keeps w t (eff t u).1) : Keeps w s (s.listCmd k op busy sel eff) := by
  unfold State.listCmd
  refine Keeps.iteA (Keeps.refl _ _) (State.tileCmd_keeps hw (fun t i e => ?_))
  split
  · exact Keeps.refl _ _
  · exact he _ _

def State.anaTdcArm_w : Nat := State.listCmd_w ||| State.tdcCfgSet_w ||| State.tdcArm_w
theorem State.anaTdcArm_keeps (s : State) (k idx imm : Nat) : Keeps State.anaTdcArm_w s (s.anaTdcArm k idx imm) := by
  unfold State.anaTdcArm
  repeat' first
    | (extract_lets +onlyGivenNames x1; clear_value (hx : x1 = _); refine Keeps.cut x1 ?_ (fun h => ?_); rw [hx]; clear hx x1; rotate_left; clear hx; rotate_right)
    | (extract_lets +onlyGivenNames x1; clear_value (hx : x1 = _); refine Keeps.cut1 x1 ?_ (fun h => ?_); rw [hx]; clear hx x1; rotate_left; clear hx; rotate_right)
    | (extract_lets +onlyGivenNames x1; clear_value (hx : x1 = _); refine Keeps.cut2 x1 ?_ (fun h => ?_); rw [hx]; clear hx x1; rotate_left; clear hx; rotate_right)
    | (extract_lets +onlyGivenNames x1; clear_value (hx : x1 = _); clear hx)
    | with_reducible assumption
    | with_reducible exact Keeps.refl _ _
    | decide +kernel
    | with_reducible apply Keeps.trans ?_ (State.listCmd_keeps ?_ ?_)
    | with_reducible apply Keeps.via (State.tdcCfgSet_keeps ..)
    | with_reducible apply Keeps.via (State.tdcArm_keeps ..)
    | with_reducible apply Keeps.iteA
    | with_reducible apply Keeps.ite1
    | intro _

def State.anaTdcStop_w : Nat := State.listCmd_w ||| State.tdcDisarm_w
theorem State.anaTdcStop_keeps (s : State) (k idx : Nat) : Keeps State.anaTdcStop_w s (s.anaTdcStop k idx) := by
  unfold State.anaTdcStop
  repeat' first
    | with_reducible assumption
    | with_reducible exact Keeps.refl _ _
    | decide +kernel
    | with_reducible apply Keeps.trans ?_ (State.listCmd_keeps ?_ ?_)
    | with_reducible apply Keeps.via (State.tdcDisarm_keeps ..)
    | with_reducible apply Keeps.iteA
    | with_reducible apply Keeps.ite1
    | intro _

def State.anaAcqArm_w : Nat := State.listCmd_w ||| State.acqCfgSet_w ||| State.acqArm_w
theorem State.anaAcqArm_keeps (s : State) (k idx imm : Nat) : Keeps State.anaAcqArm_w s (s.anaAcqArm k idx imm) := by
  unfold State.anaAcqArm
  repeat' first
    | (extract_lets +onlyGivenNames x1; clear_value (hx : x1 = _); refine Keeps.cut x1 ?_ (fun h => ?_); rw [hx]; clear hx x1; rotate_left; clear hx; rotate_right)
    | (extract_lets +onlyGivenNames x1; clear_value (hx : x1 = _); refine Keeps.cut1 x1 ?_ (fun h => ?_); rw [hx]; clear hx x1; rotate_left; clear hx; rotate_right)
    | (extract_lets +onlyGivenNames x1; clear_value (hx : x1 = _); refine Keeps.cut2 x1 ?_ (fun h => ?_); rw [hx]; clear hx x1; rotate_left; clear hx; rotate_right)
    | (extract_lets +onlyGivenNames x1; clear_value (hx : x1 = _); clear hx)
    | with_reducible assumption
    | with_reducible exact Keeps.refl _ _
    | decide +kernel
    | with_reducible apply Keeps.trans ?_ (State.listCmd_keeps ?_ ?_)
    | with_reducible apply Keeps.via (State.acqCfgSet_keeps ..)
    | with_reducible apply Keeps.via (State.acqArm_keeps ..)
    | with_reducible apply Keeps.iteA
    | with_reducible apply Keeps.ite1
    | intro _

def State.anaAcqForce_w : Nat := State.listCmd_w ||| State.acqForceIn_w
theorem State.anaAcqForce_keeps (s : State) (k idx : Nat) : Keeps State.anaAcqForce_w s (s.anaAcqForce k idx) := by
  unfold State.anaAcqForce
  repeat' first
    | with_reducible assumption
    | with_reducible exact Keeps.refl _ _
    | decide +kernel
    | with_reducible apply Keeps.trans ?_ (State.listCmd_keeps ?_ ?_)
    | with_reducible apply Keeps.via (State.acqForceIn_keeps ..)
    | intro _

def State.longAlone_w : Nat := fm H.ENG_NEXT ||| State.waitBegin_w
theorem State.longAlone_keeps (s : State) (k op kind idx qty imm : Nat) : Keeps State.longAlone_w s (s.longAlone k op kind idx qty imm) := by
  unfold State.longAlone
  repeat' first
    | with_reducible assumption
    | with_reducible exact Keeps.refl _ _
    | decide +kernel
    | with_reducible apply Keeps.putA
    | with_reducible apply Keeps.via (State.waitBegin_keeps ..)
    | with_reducible apply Keeps.iteA

def State.anaWaitCmd_w : Nat := State.longAlone_w ||| State.tileCmd_w
theorem State.anaWaitCmd_keeps (s : State) (k imm : Nat) : Keeps State.anaWaitCmd_w s (s.anaWaitCmd k imm) := by
  unfold State.anaWaitCmd
  repeat' first
    | with_reducible assumption
    | with_reducible exact Keeps.refl _ _
    | decide +kernel
    | with_reducible apply Keeps.via (State.longAlone_keeps ..)
    | with_reducible apply Keeps.trans ?_ (State.tileCmd_keeps ?_ ?_)
    | intro _

def State.qtyCmd_w : Nat := State.tileCmd_w ||| State.reissue_w
theorem State.qtyCmd_keeps {w : Nat} (hw : Sub State.qtyCmd_w w) {s : State} {k op idx qty : Nat}
    {eff : State → Nat → State × Nat} (he : ∀ t u, Keeps w t (eff t u).1) : Keeps w s (s.qtyCmd k op idx qty eff) := by
  have ht : Sub State.tileCmd_w w := Sub.trans (by decide +kernel) hw
  unfold State.qtyCmd
  split
  · exact State.tileCmd_keeps ht (fun _ _ _ => Keeps.refl _ _)
  · split
    · exact Keeps.refl _ _
    · exact Keeps.iteA (Keeps.refl _ _) (State.tileCmd_keeps ht (fun t _ _ =>
        ((State.reissue_keeps ..).mono (Sub.trans (by decide +kernel) hw)).trans (he _ _)))

def State.anaSettle_w : Nat := State.longAlone_w ||| State.qtyCmd_w
theorem State.anaSettle_keeps (s : State) (k idx qty imm : Nat) : Keeps State.anaSettle_w s (s.anaSettle k idx qty imm) := by
  unfold State.anaSettle
  repeat' first
    | with_reducible assumption
    | with_reducible exact Keeps.refl _ _
    | decide +kernel
    | with_reducible apply Keeps.via (State.longAlone_keeps ..)
    | with_reducible apply Keeps.trans ?_ (State.qtyCmd_keeps ?_ ?_)
    | with_reducible apply Keeps.iteA
    | with_reducible apply Keeps.ite1
    | intro _

def State.unitMeasure_w : Nat := fm F.DPS_RES_STAT_STALE ||| fm F.SMU_RES_STAT_STALE ||| fm F.PMU_RESULT_STALE |||
    State.engMeasured_w ||| State.dpsMeasStart_w ||| State.smuMeasStart_w ||| State.pmuStart_w
theorem State.unitMeasure_keeps (s : State) (u : Nat) : Keeps State.unitMeasure_w s (s.unitMeasure u) := by
  unfold State.unitMeasure
  repeat' first
    | with_reducible assumption
    | with_reducible exact Keeps.refl _ _
    | decide +kernel
    | with_reducible apply Keeps.setBA
    | with_reducible apply Keeps.via (State.engMeasured_keeps ..)
    | with_reducible apply Keeps.via (State.dpsMeasStart_keeps ..)
    | with_reducible apply Keeps.via (State.smuMeasStart_keeps ..)
    | with_reducible apply Keeps.via (State.pmuStart_keeps ..)
    | with_reducible apply Keeps.iteA

def State.anaMeasure_w : Nat := State.longAlone_w ||| State.qtyCmd_w ||| State.unitMeasure_w
theorem State.anaMeasure_keeps (s : State) (k idx qty imm : Nat) : Keeps State.anaMeasure_w s (s.anaMeasure k idx qty imm) := by
  unfold State.anaMeasure
  repeat' first
    | with_reducible assumption
    | with_reducible exact Keeps.refl _ _
    | decide +kernel
    | with_reducible apply Keeps.via (State.longAlone_keeps ..)
    | with_reducible apply Keeps.trans ?_ (State.qtyCmd_keeps ?_ ?_)
    | with_reducible apply Keeps.via (State.unitMeasure_keeps ..)
    | intro _

def State.anaRead_w : Nat := State.qtyCmd_w ||| State.engResult_w ||| State.waitOver_w
theorem State.anaRead_keeps (s : State) (k idx qty : Nat) : Keeps State.anaRead_w s (s.anaRead k idx qty) := by
  unfold State.anaRead
  repeat' first
    | (extract_lets +onlyGivenNames x1; clear_value (hx : x1 = _); refine Keeps.cut x1 ?_ (fun h => ?_); rw [hx]; clear hx x1; rotate_left; clear hx; rotate_right)
    | (extract_lets +onlyGivenNames x1; clear_value (hx : x1 = _); refine Keeps.cut1 x1 ?_ (fun h => ?_); rw [hx]; clear hx x1; rotate_left; clear hx; rotate_right)
    | (extract_lets +onlyGivenNames x1; clear_value (hx : x1 = _); refine Keeps.cut2 x1 ?_ (fun h => ?_); rw [hx]; clear hx x1; rotate_left; clear hx; rotate_right)
    | (extract_lets +onlyGivenNames x1; clear_value (hx : x1 = _); clear hx)
    | with_reducible assumption
    | with_reducible exact Keeps.refl _ _
    | decide +kernel
    | with_reducible apply Keeps.trans ?_ (State.qtyCmd_keeps ?_ ?_)
    | with_reducible apply Keeps.via (State.engResult_keeps ..)
    | with_reducible apply Keeps.via (State.waitOver_keeps ..)
    | with_reducible apply Keeps.iteA
    | with_reducible apply Keeps.ite1
    | split
    | intro _

def State.semCmd_w : Nat := State.memTake_w ||| State.memFail_w ||| State.semRead_w ||| State.engRegPut_w ||| State.flagSet_w
theorem State.semCmd_keeps (s : State) (k n dst : Nat) : Keeps State.semCmd_w s (s.semCmd k n dst) := by
  unfold State.semCmd
  repeat' first
    | (extract_lets +onlyGivenNames x1; clear_value (hx : x1 = _); refine Keeps.cut x1 ?_ (fun h => ?_); rw [hx]; clear hx x1; rotate_left; clear hx; rotate_right)
    | (extract_lets +onlyGivenNames x1; clear_value (hx : x1 = _); refine Keeps.cut1 x1 ?_ (fun h => ?_); rw [hx]; clear hx x1; rotate_left; clear hx; rotate_right)
    | (extract_lets +onlyGivenNames x1; clear_value (hx : x1 = _); refine Keeps.cut2 x1 ?_ (fun h => ?_); rw [hx]; clear hx x1; rotate_left; clear hx; rotate_right)
    | (extract_lets +onlyGivenNames x1; clear_value (hx : x1 = _); clear hx)
    | with_reducible assumption
    | with_reducible exact Keeps.refl _ _
    | decide +kernel
    | with_reducible apply Keeps.via (State.memTake_keeps ..)
    | with_reducible apply Keeps.via (State.memFail_keeps ..)
    | with_reducible apply Keeps.via (State.semRead_keeps ..)
    | with_reducible apply Keeps.via (State.engRegPut_keeps ..)
    | with_reducible apply Keeps.via (State.flagSet_keeps ..)
    | with_reducible apply Keeps.iteA

def State.semrelCmd_w : Nat := State.memTake_w ||| State.memFail_w ||| State.semRelease_w
theorem State.semrelCmd_keeps (s : State) (k n : Nat) : Keeps State.semrelCmd_w s (s.semrelCmd k n) := by
  unfold State.semrelCmd
  repeat' first
    | (extract_lets +onlyGivenNames x1; clear_value (hx : x1 = _); refine Keeps.cut x1 ?_ (fun h => ?_); rw [hx]; clear hx x1; rotate_left; clear hx; rotate_right)
    | (extract_lets +onlyGivenNames x1; clear_value (hx : x1 = _); refine Keeps.cut1 x1 ?_ (fun h => ?_); rw [hx]; clear hx x1; rotate_left; clear hx; rotate_right)
    | (extract_lets +onlyGivenNames x1; clear_value (hx : x1 = _); refine Keeps.cut2 x1 ?_ (fun h => ?_); rw [hx]; clear hx x1; rotate_left; clear hx; rotate_right)
    | (extract_lets +onlyGivenNames x1; clear_value (hx : x1 = _); clear hx)
    | with_reducible assumption
    | with_reducible exact Keeps.refl _ _
    | decide +kernel
    | with_reducible apply Keeps.via (State.memTake_keeps ..)
    | with_reducible apply Keeps.via (State.memFail_keeps ..)
    | with_reducible apply Keeps.via (State.semRelease_keeps ..)
    | with_reducible apply Keeps.iteA

def State.recordCmd_w : Nat := State.memTake_w ||| State.memFail_w ||| State.recAppend_w
theorem State.recordCmd_keeps (s : State) (k off n : Nat) : Keeps State.recordCmd_w s (s.recordCmd k off n) := by
  unfold State.recordCmd
  repeat' first
    | (extract_lets +onlyGivenNames x1; clear_value (hx : x1 = _); refine Keeps.cut x1 ?_ (fun h => ?_); rw [hx]; clear hx x1; rotate_left; clear hx; rotate_right)
    | (extract_lets +onlyGivenNames x1; clear_value (hx : x1 = _); refine Keeps.cut1 x1 ?_ (fun h => ?_); rw [hx]; clear hx x1; rotate_left; clear hx; rotate_right)
    | (extract_lets +onlyGivenNames x1; clear_value (hx : x1 = _); refine Keeps.cut2 x1 ?_ (fun h => ?_); rw [hx]; clear hx x1; rotate_left; clear hx; rotate_right)
    | (extract_lets +onlyGivenNames x1; clear_value (hx : x1 = _); clear hx)
    | with_reducible assumption
    | with_reducible exact Keeps.refl _ _
    | decide +kernel
    | with_reducible apply Keeps.via (State.memTake_keeps ..)
    | with_reducible apply Keeps.via (State.memFail_keeps ..)
    | with_reducible apply Keeps.via (State.recAppend_keeps ..)
    | with_reducible apply Keeps.iteA
    | split

def State.cmdCmd_w : Nat := State.memTake_w ||| State.memFail_w ||| State.cmdSubmit_w
theorem State.cmdCmd_keeps (s : State) (k off : Nat) : Keeps State.cmdCmd_w s (s.cmdCmd k off) := by
  unfold State.cmdCmd
  repeat' first
    | (extract_lets +onlyGivenNames x1; clear_value (hx : x1 = _); refine Keeps.cut x1 ?_ (fun h => ?_); rw [hx]; clear hx x1; rotate_left; clear hx; rotate_right)
    | (extract_lets +onlyGivenNames x1; clear_value (hx : x1 = _); refine Keeps.cut1 x1 ?_ (fun h => ?_); rw [hx]; clear hx x1; rotate_left; clear hx; rotate_right)
    | (extract_lets +onlyGivenNames x1; clear_value (hx : x1 = _); refine Keeps.cut2 x1 ?_ (fun h => ?_); rw [hx]; clear hx x1; rotate_left; clear hx; rotate_right)
    | (extract_lets +onlyGivenNames x1; clear_value (hx : x1 = _); clear hx)
    | with_reducible assumption
    | with_reducible exact Keeps.refl _ _
    | decide +kernel
    | with_reducible apply Keeps.via (State.memTake_keeps ..)
    | with_reducible apply Keeps.via (State.memFail_keeps ..)
    | with_reducible apply Keeps.via (State.cmdSubmit_keeps ..)
    | with_reducible apply Keeps.iteA

def State.fldCmd_w : Nat := State.memTake_w ||| State.engRegPut_w
theorem State.fldCmd_keeps (s : State) (k w dst : Nat) : Keeps State.fldCmd_w s (s.fldCmd k w dst) := by
  unfold State.fldCmd
  repeat' first
    | (extract_lets +onlyGivenNames x1; clear_value (hx : x1 = _); refine Keeps.cut x1 ?_ (fun h => ?_); rw [hx]; clear hx x1; rotate_left; clear hx; rotate_right)
    | (extract_lets +onlyGivenNames x1; clear_value (hx : x1 = _); refine Keeps.cut1 x1 ?_ (fun h => ?_); rw [hx]; clear hx x1; rotate_left; clear hx; rotate_right)
    | (extract_lets +onlyGivenNames x1; clear_value (hx : x1 = _); refine Keeps.cut2 x1 ?_ (fun h => ?_); rw [hx]; clear hx x1; rotate_left; clear hx; rotate_right)
    | (extract_lets +onlyGivenNames x1; clear_value (hx : x1 = _); clear hx)
    | with_reducible assumption
    | with_reducible exact Keeps.refl _ _
    | decide +kernel
    | with_reducible apply Keeps.via (State.memTake_keeps ..)
    | with_reducible apply Keeps.via (State.engRegPut_keeps ..)

def State.fstCmd_w : Nat := State.memTake_w ||| State.framePut_w
theorem State.fstCmd_keeps (s : State) (k w v : Nat) : Keeps State.fstCmd_w s (s.fstCmd k w v) := by
  unfold State.fstCmd
  repeat' first
    | with_reducible assumption
    | with_reducible exact Keeps.refl _ _
    | decide +kernel
    | with_reducible apply Keeps.via (State.memTake_keeps ..)
    | with_reducible apply Keeps.via (State.framePut_keeps ..)

def State.pushReduces_w : Nat := fm F.ACQ_CTRL_STATE
theorem State.pushReduces_keeps (s : State) (d : List Byte) : Keeps State.pushReduces_w s (s.pushReduces d) := by
  unfold State.pushReduces
  repeat' first
    | with_reducible assumption
    | with_reducible exact Keeps.refl _ _
    | decide +kernel
    | with_reducible apply Keeps.putA
    | with_reducible apply Keeps.iteA

def State.pushtCmd_w : Nat := State.memTake_w ||| State.engRegPut_w ||| State.dqPush_w ||| State.pushReduces_w
theorem State.pushtCmd_keeps (s : State) (k dst : Nat) : Keeps State.pushtCmd_w s (s.pushtCmd k dst) := by
  unfold State.pushtCmd
  repeat' first
    | (extract_lets +onlyGivenNames x1; clear_value (hx : x1 = _); refine Keeps.cut x1 ?_ (fun h => ?_); rw [hx]; clear hx x1; rotate_left; clear hx; rotate_right)
    | (extract_lets +onlyGivenNames x1; clear_value (hx : x1 = _); refine Keeps.cut1 x1 ?_ (fun h => ?_); rw [hx]; clear hx x1; rotate_left; clear hx; rotate_right)
    | (extract_lets +onlyGivenNames x1; clear_value (hx : x1 = _); refine Keeps.cut2 x1 ?_ (fun h => ?_); rw [hx]; clear hx x1; rotate_left; clear hx; rotate_right)
    | (extract_lets +onlyGivenNames x1; clear_value (hx : x1 = _); clear hx)
    | with_reducible assumption
    | with_reducible exact Keeps.refl _ _
    | decide +kernel
    | with_reducible apply Keeps.via (State.memTake_keeps ..)
    | with_reducible apply Keeps.via (State.engRegPut_keeps ..)
    | with_reducible apply Keeps.via (State.dqPush_keeps ..)
    | with_reducible apply Keeps.via (State.pushReduces_keeps ..)
    | with_reducible apply Keeps.iteA
    | split

def State.engineEntry_w : Nat := State.engEnter_w ||| State.engStopCheck_w
theorem State.engineEntry_keeps (s : State) (k : Nat) : Keeps State.engineEntry_w s (s.engineEntry k) := by
  unfold State.engineEntry
  repeat' first
    | with_reducible assumption
    | with_reducible exact Keeps.refl _ _
    | decide +kernel
    | with_reducible apply Keeps.via (State.engEnter_keeps ..)
    | with_reducible apply Keeps.via (State.engStopCheck_keeps ..)
    | with_reducible apply Keeps.iteA

def State.trapTake_w : Nat := m_evq ||| State.takeAbort_w ||| State.takeTrap_w ||| State.pendTrap_w
theorem State.trapTake_keeps (s : State) (k v : Nat) : Keeps State.trapTake_w s (s.trapTake k v) := by
  unfold State.trapTake
  repeat' first
    | (extract_lets +onlyGivenNames x1; clear_value (hx : x1 = _); refine Keeps.cut x1 ?_ (fun h => ?_); rw [hx]; clear hx x1; rotate_left; clear hx; rotate_right)
    | (extract_lets +onlyGivenNames x1; clear_value (hx : x1 = _); refine Keeps.cut1 x1 ?_ (fun h => ?_); rw [hx]; clear hx x1; rotate_left; clear hx; rotate_right)
    | (extract_lets +onlyGivenNames x1; clear_value (hx : x1 = _); refine Keeps.cut2 x1 ?_ (fun h => ?_); rw [hx]; clear hx x1; rotate_left; clear hx; rotate_right)
    | (extract_lets +onlyGivenNames x1; clear_value (hx : x1 = _); clear hx)
    | with_reducible assumption
    | with_reducible exact Keeps.refl _ _
    | decide +kernel
    | with_reducible apply Keeps.via (State.takeAbort_keeps ..)
    | with_reducible apply Keeps.via (State.takeTrap_keeps ..)
    | with_reducible apply Keeps.via (State.pendTrap_keeps ..)
    | with_reducible apply Keeps.iteA
    | with_reducible refine Keeps.trans ?_ (Keeps.c_evq _ ?_)

def State.trapEntry_w : Nat := State.trapTake_w ||| State.engStopCheck_w
theorem State.trapEntry_keeps (s : State) (k : Nat) : Keeps State.trapEntry_w s (s.trapEntry k) := by
  unfold State.trapEntry
  repeat' first
    | with_reducible assumption
    | with_reducible exact Keeps.refl _ _
    | decide +kernel
    | with_reducible apply Keeps.via (State.trapTake_keeps ..)
    | with_reducible apply Keeps.via (State.engStopCheck_keeps ..)
    | with_reducible apply Keeps.iteA
    | split

def State.parityError_w : Nat := fm F.ENG_CS_STAT_PERR ||| fm F.ENG_CS_STAT_PERR_WORD ||| State.faultRaise_w |||
    State.trapStop_w
theorem State.parityError_keeps (s : State) (k : Nat) : Keeps State.parityError_w s (s.parityError k) := by
  unfold State.parityError
  repeat' first
    | (extract_lets +onlyGivenNames x1; clear_value (hx : x1 = _); refine Keeps.cut x1 ?_ (fun h => ?_); rw [hx]; clear hx x1; rotate_left; clear hx; rotate_right)
    | (extract_lets +onlyGivenNames x1; clear_value (hx : x1 = _); refine Keeps.cut1 x1 ?_ (fun h => ?_); rw [hx]; clear hx x1; rotate_left; clear hx; rotate_right)
    | (extract_lets +onlyGivenNames x1; clear_value (hx : x1 = _); refine Keeps.cut2 x1 ?_ (fun h => ?_); rw [hx]; clear hx x1; rotate_left; clear hx; rotate_right)
    | (extract_lets +onlyGivenNames x1; clear_value (hx : x1 = _); clear hx)
    | with_reducible assumption
    | with_reducible exact Keeps.refl _ _
    | decide +kernel
    | with_reducible apply Keeps.putA
    | with_reducible apply Keeps.setBA
    | with_reducible apply Keeps.via (State.faultRaise_keeps ..)
    | with_reducible apply Keeps.via (State.trapStop_keeps ..)
    | with_reducible apply Keeps.iteA

def State.abortTimeout_w : Nat := m_now ||| State.engHalt_w
theorem State.abortTimeout_keeps (s : State) (k : Nat) : Keeps State.abortTimeout_w s (s.abortTimeout k) := by
  unfold State.abortTimeout
  repeat' first
    | with_reducible assumption
    | with_reducible exact Keeps.refl _ _
    | decide +kernel
    | with_reducible apply Keeps.upToA
    | with_reducible apply Keeps.via (State.engHalt_keeps ..)
    | with_reducible apply Keeps.iteA
    | split

end Sys2Proof.Machine
end

