-- ==== Sys2Proof/Laws/KeepsExec.lean ====
section
/-!
SUPPORT. What every operation of Machine/Exec.lean can change: its mask and its Keeps lemma.
-/

set_option Elab.async false
set_option linter.all false

namespace Sys2Proof.Machine

def execCalibrate_w : Nat := State.calibrate_w
theorem execCalibrate_keeps {h : Hdr} {a : CalArgs} {s : State} {nx : State}
    (hn : execCalibrate h a s = .next nx) : Keeps execCalibrate_w s nx := Keeps.ofNext (State.calibrate_keeps ..) hn

def execCalStop_w : Nat := State.calStop_w
theorem execCalStop_keeps {h : Hdr} {tile : Nat} {s : State} {nx : State}
    (hn : execCalStop h tile s = .next nx) : Keeps execCalStop_w s nx := Keeps.ofNext (State.calStop_keeps ..) hn

def execCalFlowDone_w : Nat := State.flowDone_w
theorem execCalFlowDone_keeps {t : Fin 8} {flow : Nat} {results : List CalSeen} {s : State} {nx : State}
    (hn : execCalFlowDone t flow results s = .next nx) : Keeps execCalFlowDone_w s nx := Keeps.ofNext (State.flowDone_keeps ..) hn

def execCorrectionApply_w : Nat := State.calApplyReady_w
theorem execCorrectionApply_keeps {t : Fin 8} {s : State} {nx : State}
    (hn : execCorrectionApply t s = .next nx) : Keeps execCorrectionApply_w s nx := Keeps.ofNext (State.calApplyReady_keeps ..) hn

def execCalLoad_w : Nat := State.calLoad_w
theorem execCalLoad_keeps {h : Hdr} {addr : Nat} {s : State} {nx : State}
    (hn : execCalLoad h addr s = .next nx) : Keeps execCalLoad_w s nx := Keeps.ofNext (State.calLoad_keeps ..) hn

def execPatLoad_w : Nat := State.patLoad_w
theorem execPatLoad_keeps {h : Hdr} {addr : Nat} {s : State} {nx : State}
    (hn : execPatLoad h addr s = .next nx) : Keeps execPatLoad_w s nx := Keeps.ofNext (State.patLoad_keeps ..) hn

def execSegLoad_w : Nat := State.segLoad_w
theorem execSegLoad_keeps {h : Hdr} {addr : Nat} {s : State} {nx : State}
    (hn : execSegLoad h addr s = .next nx) : Keeps execSegLoad_w s nx := Keeps.ofNext (State.segLoad_keeps ..) hn

def execCsLoad_w : Nat := State.csLoadCmd_w
theorem execCsLoad_keeps {h : Hdr} {k : Nat} {addr : Nat} {s : State} {nx : State}
    (hn : execCsLoad h k addr s = .next nx) : Keeps execCsLoad_w s nx := Keeps.ofNext (State.csLoadCmd_keeps ..) hn

def State.tdcOpens_w : Nat := fm H.TDC_OPEN_DUE ||| fm F.TDC_CTRL_OPEN ||| m_now
theorem State.tdcOpens_keeps (s : State) (j : Nat) : Keeps State.tdcOpens_w s (s.tdcOpens j) := by
  unfold State.tdcOpens
  repeat' first
    | with_reducible assumption
    | with_reducible exact Keeps.refl _ _
    | decide +kernel
    | with_reducible apply Keeps.setBA
    | with_reducible apply Keeps.noDueA
    | with_reducible apply Keeps.upToA
    | with_reducible apply Keeps.iteA
    | split

def State.pairTimeout_w : Nat := fm H.TDC_START_P ||| fm F.TDC_CNT_B_PAIR_TMO ||| fm F.TDC_STAT_PAIR_SEEN ||| m_now
theorem State.pairTimeout_keeps (s : State) (j : Nat) : Keeps State.pairTimeout_w s (s.pairTimeout j) := by
  unfold State.pairTimeout
  repeat' first
    | (extract_lets +onlyGivenNames x1; clear_value (hx : x1 = _); refine Keeps.cut x1 ?_ (fun h => ?_); rw [hx]; clear hx x1; rotate_left; clear hx; rotate_right)
    | (extract_lets +onlyGivenNames x1; clear_value (hx : x1 = _); refine Keeps.cut1 x1 ?_ (fun h => ?_); rw [hx]; clear hx x1; rotate_left; clear hx; rotate_right)
    | (extract_lets +onlyGivenNames x1; clear_value (hx : x1 = _); refine Keeps.cut2 x1 ?_ (fun h => ?_); rw [hx]; clear hx x1; rotate_left; clear hx; rotate_right)
    | (extract_lets +onlyGivenNames x1; clear_value (hx : x1 = _); clear hx)
    | with_reducible assumption
    | with_reducible exact Keeps.refl _ _
    | decide +kernel
    | with_reducible apply Keeps.setBA
    | with_reducible apply Keeps.incSatA
    | with_reducible apply Keeps.upToA
    | with_reducible apply Keeps.iteA

def State.ringRecheck_w : Nat := fm F.TDC_STAT_RING_FULL
theorem State.ringRecheck_keeps (s : State) (j : Nat) : Keeps State.ringRecheck_w s (s.ringRecheck j) := by
  unfold State.ringRecheck
  repeat' first
    | with_reducible assumption
    | with_reducible exact Keeps.refl _ _
    | decide +kernel
    | with_reducible apply Keeps.setBA
    | with_reducible apply Keeps.iteA

def State.acqComplete_w : Nat := State.acqFinish_w
theorem State.acqComplete_keeps (s : State) (u : Nat) : Keeps State.acqComplete_w s (s.acqComplete u) := by
  unfold State.acqComplete
  repeat' first
    | with_reducible assumption
    | with_reducible exact Keeps.refl _ _
    | decide +kernel
    | with_reducible apply Keeps.via (State.acqFinish_keeps ..)
    | with_reducible apply Keeps.iteA

def State.pushRetry_w : Nat := State.failPush_w ||| State.acqPush_w
theorem State.pushRetry_keeps (s : State) (p : Pusher) : Keeps State.pushRetry_w s (s.pushRetry p) := by
  unfold State.pushRetry
  repeat' first
    | with_reducible assumption
    | with_reducible exact Keeps.refl _ _
    | decide +kernel
    | with_reducible apply Keeps.via (State.failPush_keeps ..)
    | with_reducible apply Keeps.via (State.acqPush_keeps ..)
    | with_reducible apply Keeps.iteA
    | split

def State.taskTakeover_w : Nat := State.dqTake_w ||| State.runTask_w ||| State.dqDone_w
theorem State.taskTakeover_keeps (s : State) (k : Nat) : Keeps State.taskTakeover_w s (s.taskTakeover k) := by
  unfold State.taskTakeover
  repeat' first
    | with_reducible assumption
    | with_reducible exact Keeps.refl _ _
    | decide +kernel
    | with_reducible apply Keeps.via (State.runTask_keeps ..)
    | with_reducible apply Keeps.via (State.dqDone_keeps ..)
    | with_reducible apply Keeps.iteA
    | split
    | exact Keeps.via (State.dqTake_keeps (by with_reducible assumption : State.dqTake _ _ = some _)) (by decide +kernel) (by first | with_reducible assumption | exact Keeps.refl _ _)

def execTdcCtrlArm_w : Nat := State.swWrite_w
theorem execTdcCtrlArm_keeps {m : Master} {j : Fin 128} {v : Nat} {s : State} {nx : State}
    (hn : execTdcCtrlArm m j v s = .next nx) : Keeps execTdcCtrlArm_w s nx := Keeps.ofNext (State.swWrite_keeps ..) hn

def execTdcCtrlDisarm_w : Nat := State.swWrite_w
theorem execTdcCtrlDisarm_keeps {m : Master} {j : Fin 128} {v : Nat} {s : State} {nx : State}
    (hn : execTdcCtrlDisarm m j v s = .next nx) : Keeps execTdcCtrlDisarm_w s nx := Keeps.ofNext (State.swWrite_keeps ..) hn

def execTdcOpen_w : Nat := State.tdcOpens_w
theorem execTdcOpen_keeps {j : Fin 128} {s : State} {nx : State}
    (hn : execTdcOpen j s = .next nx) : Keeps execTdcOpen_w s nx := Keeps.ofNext (State.tdcOpens_keeps ..) hn

def execTdcEvent_w : Nat := State.tdcEdge_w
theorem execTdcEvent_keeps {j : Fin 128} {e : TdcEdge} {s : State} {nx : State}
    (hn : execTdcEvent j e s = .next nx) : Keeps execTdcEvent_w s nx := Keeps.ofNext (State.tdcEdge_keeps ..) hn

def execPairTimeout_w : Nat := State.pairTimeout_w
theorem execPairTimeout_keeps {j : Fin 128} {s : State} {nx : State}
    (hn : execPairTimeout j s = .next nx) : Keeps execPairTimeout_w s nx := Keeps.ofNext (State.pairTimeout_keeps ..) hn

def execTdcSpill_w : Nat := State.tdcSpill_w
theorem execTdcSpill_keeps {j : Fin 128} {n : Nat} {s : State} {nx : State}
    (hn : execTdcSpill j n s = .next nx) : Keeps execTdcSpill_w s nx := Keeps.ofNext (State.tdcSpill_keeps ..) hn

def execRingRecheck_w : Nat := State.ringRecheck_w
theorem execRingRecheck_keeps {j : Fin 128} {s : State} {nx : State}
    (hn : execRingRecheck j s = .next nx) : Keeps execRingRecheck_w s nx := Keeps.ofNext (State.ringRecheck_keeps ..) hn

def execAcqCtrlArm_w : Nat := State.swWrite_w
theorem execAcqCtrlArm_keeps {m : Master} {u : Fin 96} {v : Nat} {s : State} {nx : State}
    (hn : execAcqCtrlArm m u v s = .next nx) : Keeps execAcqCtrlArm_w s nx := Keeps.ofNext (State.swWrite_keeps ..) hn

def execAcqCtrlForce_w : Nat := State.swWrite_w
theorem execAcqCtrlForce_keeps {m : Master} {u : Fin 96} {v : Nat} {s : State} {nx : State}
    (hn : execAcqCtrlForce m u v s = .next nx) : Keeps execAcqCtrlForce_w s nx := Keeps.ofNext (State.swWrite_keeps ..) hn

def execAcqCtrlCancel_w : Nat := State.swWrite_w
theorem execAcqCtrlCancel_keeps {m : Master} {u : Fin 96} {v : Nat} {s : State} {nx : State}
    (hn : execAcqCtrlCancel m u v s = .next nx) : Keeps execAcqCtrlCancel_w s nx := Keeps.ofNext (State.swWrite_keeps ..) hn

def execAcqSample_w : Nat := State.acqSample_w
theorem execAcqSample_keeps {u : Fin 96} {a : AcqSeen} {s : State} {nx : State}
    (hn : execAcqSample u a s = .next nx) : Keeps execAcqSample_w s nx := Keeps.ofNext (State.acqSample_keeps ..) hn

def execAcqComplete_w : Nat := State.acqComplete_w
theorem execAcqComplete_keeps {u : Fin 96} {s : State} {nx : State}
    (hn : execAcqComplete u s = .next nx) : Keeps execAcqComplete_w s nx := Keeps.ofNext (State.acqComplete_keeps ..) hn

def execFailCompress_w : Nat := State.taskRow_w
theorem execFailCompress_keeps {r : TaskRunner} {s : State} {nx : State}
    (hn : execFailCompress r s = .next nx) : Keeps execFailCompress_w s nx := Keeps.ofNext (State.taskRow_keeps ..) hn

def execCaptureReduce_w : Nat := State.taskRow_w
theorem execCaptureReduce_keeps {r : TaskRunner} {s : State} {nx : State}
    (hn : execCaptureReduce r s = .next nx) : Keeps execCaptureReduce_w s nx := Keeps.ofNext (State.taskRow_keeps ..) hn

def execResultPack_w : Nat := State.taskRow_w
theorem execResultPack_keeps {r : TaskRunner} {s : State} {nx : State}
    (hn : execResultPack r s = .next nx) : Keeps execResultPack_w s nx := Keeps.ofNext (State.taskRow_keeps ..) hn

def execDequePushRetry_w : Nat := State.pushRetry_w
theorem execDequePushRetry_keeps {p : Pusher} {s : State} {nx : State}
    (hn : execDequePushRetry p s = .next nx) : Keeps execDequePushRetry_w s nx := Keeps.ofNext (State.pushRetry_keeps ..) hn

def execHearthTaskTakeover_w : Nat := State.taskTakeover_w
theorem execHearthTaskTakeover_keeps {k : Fin 64} {s : State} {nx : State}
    (hn : execHearthTaskTakeover k s = .next nx) : Keeps execHearthTaskTakeover_w s nx := Keeps.ofNext (State.taskTakeover_keeps ..) hn

def execStealDisable_w : Nat := State.stealDisable_w
theorem execStealDisable_keeps {s : State} {nx : State}
    (hn : execStealDisable s = .next nx) : Keeps execStealDisable_w s nx := Keeps.ofNext (State.stealDisable_keeps ..) hn

def execStartChain_w : Nat := State.pinStart_w
theorem execStartChain_keeps {k : Fin 64} {entry : Nat} {s : State} {nx : State}
    (hn : execStartChain k entry s = .next nx) : Keeps execStartChain_w s nx := Keeps.ofNext (State.pinStart_keeps ..) hn

def execPinJump_w : Nat := State.pinJumpCmd_w
theorem execPinJump_keeps {k : Fin 64} {s : State} {nx : State}
    (hn : execPinJump k s = .next nx) : Keeps execPinJump_w s nx := Keeps.ofNext (State.pinJumpCmd_keeps ..) hn

def execPinCancel_w : Nat := State.pinCancelCmd_w
theorem execPinCancel_keeps {k : Fin 64} {s : State} {nx : State}
    (hn : execPinCancel k s = .next nx) : Keeps execPinCancel_w s nx := Keeps.ofNext (State.pinCancelCmd_keeps ..) hn

def execTset_w : Nat := State.pinTset_w
theorem execTset_keeps {k : Fin 64} {set : Fin 16} {s : State} {nx : State}
    (hn : execTset k set s = .next nx) : Keeps execTset_w s nx := Keeps.ofNext (State.pinTset_keeps ..) hn

def execBank_w : Nat := State.pinBank_w
theorem execBank_keeps {k : Fin 64} {half : Fin 2} {value : Bool} {mask : Nat} {s : State} {nx : State}
    (hn : execBank k half value mask s = .next nx) : Keeps execBank_w s nx := Keeps.ofNext (State.pinBank_keeps ..) hn

def execCmask_w : Nat := State.pinCmask_w
theorem execCmask_keeps {k : Fin 64} {half : Fin 2} {mask : Nat} {s : State} {nx : State}
    (hn : execCmask k half mask s = .next nx) : Keeps execCmask_w s nx := Keeps.ofNext (State.pinCmask_keeps ..) hn

def execDrv_w : Nat := State.pinDrv_w
theorem execDrv_keeps {k : Fin 64} {half : Fin 2} {value : Bool} {mask : Nat} {s : State} {nx : State}
    (hn : execDrv k half value mask s = .next nx) : Keeps execDrv_w s nx := Keeps.ofNext (State.pinDrv_keeps ..) hn

def execTrig_w : Nat := State.pinTrig_w
theorem execTrig_keeps {k : Fin 64} {s : State} {nx : State}
    (hn : execTrig k s = .next nx) : Keeps execTrig_w s nx := Keeps.ofNext (State.pinTrig_keeps ..) hn

def execClrfail_w : Nat := State.pinClrfail_w
theorem execClrfail_keeps {k : Fin 64} {s : State} {nx : State}
    (hn : execClrfail k s = .next nx) : Keeps execClrfail_w s nx := Keeps.ofNext (State.pinClrfail_keeps ..) hn

def execLevel_w : Nat := State.pinLevel_w
theorem execLevel_keeps {k : Fin 64} {lvl : Fin 5} {bankSel all : Bool} {chan : Fin 64} {value : Nat} {s : State} {nx : State}
    (hn : execLevel k lvl bankSel all chan value s = .next nx) : Keeps execLevel_w s nx := Keeps.ofNext (State.pinLevel_keeps ..) hn

def execTerm_w : Nat := State.pinTerm_w
theorem execTerm_keeps {k : Fin 64} {half : Fin 2} {termMode : Fin 4} {mask : Nat} {s : State} {nx : State}
    (hn : execTerm k half termMode mask s = .next nx) : Keeps execTerm_w s nx := Keeps.ofNext (State.pinTerm_keeps ..) hn

def execDpsSet_w : Nat := State.anaDpsSet_w
theorem execDpsSet_keeps {k : Fin 64} {idx : Fin 64} {imm : Nat} {s : State} {nx : State}
    (hn : execDpsSet k idx imm s = .next nx) : Keeps execDpsSet_w s nx := Keeps.ofNext (State.anaDpsSet_keeps ..) hn

def execDpsIlim_w : Nat := State.anaDpsIlim_w
theorem execDpsIlim_keeps {k : Fin 64} {idx : Fin 64} {imm : Nat} {s : State} {nx : State}
    (hn : execDpsIlim k idx imm s = .next nx) : Keeps execDpsIlim_w s nx := Keeps.ofNext (State.anaDpsIlim_keeps ..) hn

def execDpsEn_w : Nat := State.anaDpsEn_w
theorem execDpsEn_keeps {k : Fin 64} {idx : Fin 64} {value : Bool} {s : State} {nx : State}
    (hn : execDpsEn k idx value s = .next nx) : Keeps execDpsEn_w s nx := Keeps.ofNext (State.anaDpsEn_keeps ..) hn

def execDpsRamp_w : Nat := State.anaDpsRamp_w
theorem execDpsRamp_keeps {k : Fin 64} {idx : Fin 64} {slew : Fin 32} {imm : Nat} {s : State} {nx : State}
    (hn : execDpsRamp k idx slew imm s = .next nx) : Keeps execDpsRamp_w s nx := Keeps.ofNext (State.anaDpsRamp_keeps ..) hn

def execSmuSet_w : Nat := State.anaSmuSet_w
theorem execSmuSet_keeps {k : Fin 64} {idx : Fin 64} {imm : Nat} {s : State} {nx : State}
    (hn : execSmuSet k idx imm s = .next nx) : Keeps execSmuSet_w s nx := Keeps.ofNext (State.anaSmuSet_keeps ..) hn

def execSmuClamp_w : Nat := State.anaSmuClamp_w
theorem execSmuClamp_keeps {k : Fin 64} {idx : Fin 64} {imm : Nat} {s : State} {nx : State}
    (hn : execSmuClamp k idx imm s = .next nx) : Keeps execSmuClamp_w s nx := Keeps.ofNext (State.anaSmuClamp_keeps ..) hn

def execSmuRange_w : Nat := State.anaSmuRange_w
theorem execSmuRange_keeps {k : Fin 64} {idx : Fin 64} {rng : Fin 32} {s : State} {nx : State}
    (hn : execSmuRange k idx rng s = .next nx) : Keeps execSmuRange_w s nx := Keeps.ofNext (State.anaSmuRange_keeps ..) hn

def execSmuEn_w : Nat := State.anaSmuEn_w
theorem execSmuEn_keeps {k : Fin 64} {idx : Fin 64} {value : Bool} {s : State} {nx : State}
    (hn : execSmuEn k idx value s = .next nx) : Keeps execSmuEn_w s nx := Keeps.ofNext (State.anaSmuEn_keeps ..) hn

def execSmuWave_w : Nat := State.anaSmuWave_w
theorem execSmuWave_keeps {k : Fin 64} {idx : Fin 64} {entry : Nat} {s : State} {nx : State}
    (hn : execSmuWave k idx entry s = .next nx) : Keeps execSmuWave_w s nx := Keeps.ofNext (State.anaSmuWave_keeps ..) hn

def execSmuStop_w : Nat := State.anaSmuStop_w
theorem execSmuStop_keeps {k : Fin 64} {idx : Fin 64} {s : State} {nx : State}
    (hn : execSmuStop k idx s = .next nx) : Keeps execSmuStop_w s nx := Keeps.ofNext (State.anaSmuStop_keeps ..) hn

def execPmuCfg_w : Nat := State.anaPmuCfg_w
theorem execPmuCfg_keeps {k : Fin 64} {idx : Fin 64} {imm : Nat} {s : State} {nx : State}
    (hn : execPmuCfg k idx imm s = .next nx) : Keeps execPmuCfg_w s nx := Keeps.ofNext (State.anaPmuCfg_keeps ..) hn

def execPmuForce_w : Nat := State.anaPmuForce_w
theorem execPmuForce_keeps {k : Fin 64} {idx : Fin 64} {imm : Nat} {s : State} {nx : State}
    (hn : execPmuForce k idx imm s = .next nx) : Keeps execPmuForce_w s nx := Keeps.ofNext (State.anaPmuForce_keeps ..) hn

def execTdcArm_w : Nat := State.anaTdcArm_w
theorem execTdcArm_keeps {k : Fin 64} {idx : Fin 64} {imm : Nat} {s : State} {nx : State}
    (hn : execTdcArm k idx imm s = .next nx) : Keeps execTdcArm_w s nx := Keeps.ofNext (State.anaTdcArm_keeps ..) hn

def execTdcStop_w : Nat := State.anaTdcStop_w
theorem execTdcStop_keeps {k : Fin 64} {idx : Fin 64} {s : State} {nx : State}
    (hn : execTdcStop k idx s = .next nx) : Keeps execTdcStop_w s nx := Keeps.ofNext (State.anaTdcStop_keeps ..) hn

def execAcqArm_w : Nat := State.anaAcqArm_w
theorem execAcqArm_keeps {k : Fin 64} {idx : Fin 64} {imm : Nat} {s : State} {nx : State}
    (hn : execAcqArm k idx imm s = .next nx) : Keeps execAcqArm_w s nx := Keeps.ofNext (State.anaAcqArm_keeps ..) hn

def execAcqForce_w : Nat := State.anaAcqForce_w
theorem execAcqForce_keeps {k : Fin 64} {idx : Fin 64} {s : State} {nx : State}
    (hn : execAcqForce k idx s = .next nx) : Keeps execAcqForce_w s nx := Keeps.ofNext (State.anaAcqForce_keeps ..) hn

def execWait_w : Nat := State.anaWaitCmd_w
theorem execWait_keeps {k : Fin 64} {ns : Nat} {s : State} {nx : State}
    (hn : execWait k ns s = .next nx) : Keeps execWait_w s nx := Keeps.ofNext (State.anaWaitCmd_keeps ..) hn

def execSettle_w : Nat := State.anaSettle_w
theorem execSettle_keeps {k : Fin 64} {idx : Fin 64} {qty : Fin 5} {ns : Nat} {s : State} {nx : State}
    (hn : execSettle k idx qty ns s = .next nx) : Keeps execSettle_w s nx := Keeps.ofNext (State.anaSettle_keeps ..) hn

def execMeasure_w : Nat := State.anaMeasure_w
theorem execMeasure_keeps {k : Fin 64} {idx : Fin 64} {qty : Fin 5} {ns : Nat} {s : State} {nx : State}
    (hn : execMeasure k idx qty ns s = .next nx) : Keeps execMeasure_w s nx := Keeps.ofNext (State.anaMeasure_keeps ..) hn

def execRead_w : Nat := State.anaRead_w
theorem execRead_keeps {k : Fin 64} {idx : Fin 64} {qty : Fin 5} {s : State} {nx : State}
    (hn : execRead k idx qty s = .next nx) : Keeps execRead_w s nx := Keeps.ofNext (State.anaRead_keeps ..) hn

def execLongOperationEnd_w : Nat := State.longEnd_w
theorem execLongOperationEnd_keeps {k : Fin 64} {s : State} {nx : State}
    (hn : execLongOperationEnd k s = .next nx) : Keeps execLongOperationEnd_w s nx := Keeps.ofNext (State.longEnd_keeps ..) hn

def execCommandRefused_w : Nat := State.refusalNext_w
theorem execCommandRefused_keeps {k : Fin 64} {s : State} {nx : State}
    (hn : execCommandRefused k s = .next nx) : Keeps execCommandRefused_w s nx := Keeps.ofNext (State.refusalNext_keeps ..) hn

def execCommandAcknowledge_w : Nat := State.cmdAck_w
theorem execCommandAcknowledge_keeps {k : Fin 64} {s : State} {nx : State}
    (hn : execCommandAcknowledge k s = .next nx) : Keeps execCommandAcknowledge_w s nx := Keeps.ofNext (State.cmdAck_keeps ..) hn

def execLinkBlockReceive_w : Nat := State.linkBlock_w
theorem execLinkBlockReceive_keeps {p : Fin 8} {b : LinkBlock} {s : State} {nx : State}
    (hn : execLinkBlockReceive p b s = .next nx) : Keeps execLinkBlockReceive_w s nx := Keeps.ofNext (State.linkBlock_keeps ..) hn

def execFlitReceive_w : Nat := State.flitReceive_w
theorem execFlitReceive_keeps {p : Fin 8} {f : Flit} {s : State} {nx : State}
    (hn : execFlitReceive p f s = .next nx) : Keeps execFlitReceive_w s nx := Keeps.ofNext (State.flitReceive_keeps ..) hn

def execRetryReq_w : Nat := State.retryReq_w
theorem execRetryReq_keeps {p : Fin 8} {expected : Nat} {s : State} {nx : State}
    (hn : execRetryReq p expected s = .next nx) : Keeps execRetryReq_w s nx := Keeps.ofNext (State.retryReq_keeps ..) hn

def execRetryReqResend_w : Nat := State.retryResend_w
theorem execRetryReqResend_keeps {p : Fin 8} {s : State} {nx : State}
    (hn : execRetryReqResend p s = .next nx) : Keeps execRetryReqResend_w s nx := Keeps.ofNext (State.retryResend_keeps ..) hn

def execPartnerDetect_w : Nat := State.partnerDetect_w
theorem execPartnerDetect_keeps {p : Fin 8} {s : State} {nx : State}
    (hn : execPartnerDetect p s = .next nx) : Keeps execPartnerDetect_w s nx := Keeps.ofNext (State.partnerDetect_keeps ..) hn

def execLinkInfo_w : Nat := State.linkInfo_w
theorem execLinkInfo_keeps {p : Fin 8} {info : LinkInfo} {s : State} {nx : State}
    (hn : execLinkInfo p info s = .next nx) : Keeps execLinkInfo_w s nx := Keeps.ofNext (State.linkInfo_keeps ..) hn

def execTrainingStepDone_w : Nat := State.trainingStep_w
theorem execTrainingStepDone_keeps {p : Fin 8} {ok : Bool} {s : State} {nx : State}
    (hn : execTrainingStepDone p ok s = .next nx) : Keeps execTrainingStepDone_w s nx := Keeps.ofNext (State.trainingStep_keeps ..) hn

def execLinkUp_w : Nat := State.linkUp_w
theorem execLinkUp_keeps {p : Fin 8} {s : State} {nx : State}
    (hn : execLinkUp p s = .next nx) : Keeps execLinkUp_w s nx := Keeps.ofNext (State.linkUp_keeps ..) hn

def execRetrain_w : Nat := State.retrainFor_w
theorem execRetrain_keeps {p : Fin 8} {c : RetrainCause} {s : State} {nx : State}
    (hn : execRetrain p c s = .next nx) : Keeps execRetrain_w s nx := Keeps.ofNext (State.retrainFor_keeps ..) hn

def execLinkDown_w : Nat := State.linkDown_w
theorem execLinkDown_keeps {p : Fin 8} {s : State} {nx : State}
    (hn : execLinkDown p s = .next nx) : Keeps execLinkDown_w s nx := Keeps.ofNext (State.linkDown_keeps ..) hn

def execDownExpiry_w : Nat := State.downExpiry_w
theorem execDownExpiry_keeps {p : Fin 8} {s : State} {nx : State}
    (hn : execDownExpiry p s = .next nx) : Keeps execDownExpiry_w s nx := Keeps.ofNext (State.downExpiry_keeps ..) hn

def execPorchEnWrite_w : Nat := State.swWrite_w
theorem execPorchEnWrite_keeps {m : Master} {p : Fin 8} {v : Nat} {s : State} {nx : State}
    (hn : execPorchEnWrite m p v s = .next nx) : Keeps execPorchEnWrite_w s nx := Keeps.ofNext (State.swWrite_keeps ..) hn

def execQuietReq_w : Nat := State.quietReq_w
theorem execQuietReq_keeps {p : Fin 8} {received : Bool} {s : State} {nx : State}
    (hn : execQuietReq p received s = .next nx) : Keeps execQuietReq_w s nx := Keeps.ofNext (State.quietReq_keeps ..) hn

def execQuietAck_w : Nat := State.quietAck_w
theorem execQuietAck_keeps {p : Fin 8} {accept : Bool} {s : State} {nx : State}
    (hn : execQuietAck p accept s = .next nx) : Keeps execQuietAck_w s nx := Keeps.ofNext (State.quietAck_keeps ..) hn

def execQuietExit_w : Nat := State.quietExit_w
theorem execQuietExit_keeps {p : Fin 8} {s : State} {nx : State}
    (hn : execQuietExit p s = .next nx) : Keeps execQuietExit_w s nx := Keeps.ofNext (State.quietExit_keeps ..) hn

def execDeepReq_w : Nat := State.deepReq_w
theorem execDeepReq_keeps {p : Fin 8} {received : Bool} {s : State} {nx : State}
    (hn : execDeepReq p received s = .next nx) : Keeps execDeepReq_w s nx := Keeps.ofNext (State.deepReq_keeps ..) hn

def execDeepAck_w : Nat := State.deepAck_w
theorem execDeepAck_keeps {p : Fin 8} {s : State} {nx : State}
    (hn : execDeepAck p s = .next nx) : Keeps execDeepAck_w s nx := Keeps.ofNext (State.deepAck_keeps ..) hn

def execDeepWake_w : Nat := State.deepWake_w
theorem execDeepWake_keeps {p : Fin 8} {s : State} {nx : State}
    (hn : execDeepWake p s = .next nx) : Keeps execDeepWake_w s nx := Keeps.ofNext (State.deepWake_keeps ..) hn

def execWakeTimeout_w : Nat := State.wakeTimeout_w
theorem execWakeTimeout_keeps {p : Fin 8} {s : State} {nx : State}
    (hn : execWakeTimeout p s = .next nx) : Keeps execWakeTimeout_w s nx := Keeps.ofNext (State.wakeTimeout_keeps ..) hn

def execLeave_w : Nat := State.leave_w
theorem execLeave_keeps {p : Fin 8} {s : State} {nx : State}
    (hn : execLeave p s = .next nx) : Keeps execLeave_w s nx := Keeps.ofNext (State.leave_keeps ..) hn

def execLeaveWaitExpiry_w : Nat := State.leaveExpiry_w
theorem execLeaveWaitExpiry_keeps {p : Fin 8} {s : State} {nx : State}
    (hn : execLeaveWaitExpiry p s = .next nx) : Keeps execLeaveWaitExpiry_w s nx := Keeps.ofNext (State.leaveExpiry_keeps ..) hn

def execDiscover_w : Nat := State.route_w
theorem execDiscover_keeps {p : Fin 8} {f : Flit} {s : State} {nx : State}
    (hn : execDiscover p f s = .next nx) : Keeps execDiscover_w s nx := by
  unfold execDiscover at hn
  refine Keeps.ofNext ?_ hn
  repeat' first
    | with_reducible assumption
    | with_reducible exact Keeps.refl _ _
    | decide +kernel
    | with_reducible apply Keeps.via (State.route_keeps ..)
    | with_reducible apply Keeps.iteA

def execAssign_w : Nat := State.assign_w
theorem execAssign_keeps {p : Fin 8} {f : Flit} {s : State} {nx : State}
    (hn : execAssign p f s = .next nx) : Keeps execAssign_w s nx := by
  unfold execAssign at hn
  refine Keeps.ofNext ?_ hn
  repeat' first
    | with_reducible assumption
    | with_reducible exact Keeps.refl _ _
    | decide +kernel
    | with_reducible apply Keeps.via (State.assign_keeps ..)
    | with_reducible apply Keeps.iteA

def execRouteSet_w : Nat := State.routeSet_w
theorem execRouteSet_keeps {p : Fin 8} {f : Flit} {s : State} {nx : State}
    (hn : execRouteSet p f s = .next nx) : Keeps execRouteSet_w s nx := by
  unfold execRouteSet at hn
  refine Keeps.ofNext ?_ hn
  repeat' first
    | with_reducible assumption
    | with_reducible exact Keeps.refl _ _
    | decide +kernel
    | with_reducible apply Keeps.via (State.routeSet_keeps ..)
    | with_reducible apply Keeps.iteA

def execStatus_w : Nat := State.statusCmd_w
theorem execStatus_keeps {h : Hdr} {s : State} {nx : State}
    (hn : execStatus h s = .next nx) : Keeps execStatus_w s nx := Keeps.ofNext (State.statusCmd_keeps ..) hn

def execRegRd_w : Nat := State.regRdCmd_w
theorem execRegRd_keeps {h : Hdr} {addrs : List Nat} {s : State} {nx : State}
    (hn : execRegRd h addrs s = .next nx) : Keeps execRegRd_w s nx := Keeps.ofNext (State.regRdCmd_keeps ..) hn

def execRegWr_w : Nat := State.regWrCmd_w
theorem execRegWr_keeps {h : Hdr} {items : List RegItem} {s : State} {nx : State}
    (hn : execRegWr h items s = .next nx) : Keeps execRegWr_w s nx := Keeps.ofNext (State.regWrCmd_keeps ..) hn

def execBlkRd_w : Nat := State.blkRdCmd_w
theorem execBlkRd_keeps {h : Hdr} {addr len : Nat} {s : State} {nx : State}
    (hn : execBlkRd h addr len s = .next nx) : Keeps execBlkRd_w s nx := Keeps.ofNext (State.blkRdCmd_keeps ..) hn

def execBlkWr_w : Nat := State.blkWrCmd_w
theorem execBlkWr_keeps {h : Hdr} {addr : Nat} {data : List Byte} {s : State} {nx : State}
    (hn : execBlkWr h addr data s = .next nx) : Keeps execBlkWr_w s nx := Keeps.ofNext (State.blkWrCmd_keeps ..) hn

def execFlashWr_w : Nat := State.flashWrCmd_w
theorem execFlashWr_keeps {h : Hdr} {off : Nat} {data : List Byte} {s : State} {nx : State}
    (hn : execFlashWr h off data s = .next nx) : Keeps execFlashWr_w s nx := Keeps.ofNext (State.flashWrCmd_keeps ..) hn

def execFlashErase_w : Nat := State.flashEraseCmd_w
theorem execFlashErase_keeps {h : Hdr} {off sectors : Nat} {s : State} {nx : State}
    (hn : execFlashErase h off sectors s = .next nx) : Keeps execFlashErase_w s nx := Keeps.ofNext (State.flashEraseCmd_keeps ..) hn

def execFlashOperationDone_w : Nat := State.flashDone_w
theorem execFlashOperationDone_keeps {ok : Bool} {s : State} {nx : State}
    (hn : execFlashOperationDone ok s = .next nx) : Keeps execFlashOperationDone_w s nx := Keeps.ofNext (State.flashDone_keeps ..) hn

def execHostJump_w : Nat := State.hostJumpCmd_w
theorem execHostJump_keeps {h : Hdr} {cancel smu : Bool} {mask : Nat} {s : State} {nx : State}
    (hn : execHostJump h cancel smu mask s = .next nx) : Keeps execHostJump_w s nx := Keeps.ofNext (State.hostJumpCmd_keeps ..) hn

def execSoftReset_w : Nat := State.softResetCmd_w
theorem execSoftReset_keeps {h : Hdr} {key : Nat} {s : State} {nx : State}
    (hn : execSoftReset h key s = .next nx) : Keeps execSoftReset_w s nx := Keeps.ofNext (State.softResetCmd_keeps ..) hn

def execBootClear_w : Nat := State.bootClearCmd_w
theorem execBootClear_keeps {h : Hdr} {s : State} {nx : State}
    (hn : execBootClear h s = .next nx) : Keeps execBootClear_w s nx := Keeps.ofNext (State.bootClearCmd_keeps ..) hn

def execPrepareRemove_w : Nat := State.prepareRemoveCmd_w
theorem execPrepareRemove_keeps {h : Hdr} {s : State} {nx : State}
    (hn : execPrepareRemove h s = .next nx) : Keeps execPrepareRemove_w s nx := Keeps.ofNext (State.prepareRemoveCmd_keeps ..) hn

def execMbxPost_w : Nat := State.mbxPostCmd_w
theorem execMbxPost_keeps {h : Hdr} {mbx epoch : Nat} {words : List Nat} {s : State} {nx : State}
    (hn : execMbxPost h mbx epoch words s = .next nx) : Keeps execMbxPost_w s nx := Keeps.ofNext (State.mbxPostCmd_keeps ..) hn

def execMbxRead_w : Nat := State.mbxReadCmd_w
theorem execMbxRead_keeps {h : Hdr} {mbx max : Nat} {s : State} {nx : State}
    (hn : execMbxRead h mbx max s = .next nx) : Keeps execMbxRead_w s nx := Keeps.ofNext (State.mbxReadCmd_keeps ..) hn

def execDoorbell_w : Nat := State.doorbellCmd_w
theorem execDoorbell_keeps {h : Hdr} {mbx : Nat} {s : State} {nx : State}
    (hn : execDoorbell h mbx s = .next nx) : Keeps execDoorbell_w s nx := Keeps.ofNext (State.doorbellCmd_keeps ..) hn

def execMbxReset_w : Nat := State.mbxResetCmd_w
theorem execMbxReset_keeps {h : Hdr} {mbx epoch : Nat} {s : State} {nx : State}
    (hn : execMbxReset h mbx epoch s = .next nx) : Keeps execMbxReset_w s nx := Keeps.ofNext (State.mbxResetCmd_keeps ..) hn

def execReservedOpcode_w : Nat := State.reservedCmd_w
theorem execReservedOpcode_keeps {h : Hdr} {op : Nat} {s : State} {nx : State}
    (hn : execReservedOpcode h op s = .next nx) : Keeps execReservedOpcode_w s nx := Keeps.ofNext (State.reservedCmd_keeps ..) hn

def execInjectFault_w : Nat := State.injectFault_w
theorem execInjectFault_keeps {h : Hdr} {index unit : Nat} {s : State} {nx : State}
    (hn : execInjectFault h index unit s = .next nx) : Keeps execInjectFault_w s nx := Keeps.ofNext (State.injectFault_keeps ..) hn

def execInjectInterrupt_w : Nat := State.injectIrq_w
theorem execInjectInterrupt_keeps {h : Hdr} {index : Nat} {s : State} {nx : State}
    (hn : execInjectInterrupt h index s = .next nx) : Keeps execInjectInterrupt_w s nx := Keeps.ofNext (State.injectIrq_keeps ..) hn

def execInjectSensorReading_w : Nat := State.injectReading_w
theorem execInjectSensorReading_keeps {h : Hdr} {index value holdMs : Nat} {s : State} {nx : State}
    (hn : execInjectSensorReading h index value holdMs s = .next nx) : Keeps execInjectSensorReading_w s nx := Keeps.ofNext (State.injectReading_keeps ..) hn

def execInjectSensorBroken_w : Nat := State.injectBroken_w
theorem execInjectSensorBroken_keeps {h : Hdr} {index cause : Nat} {s : State} {nx : State}
    (hn : execInjectSensorBroken h index cause s = .next nx) : Keeps execInjectSensorBroken_w s nx := Keeps.ofNext (State.injectBroken_keeps ..) hn

def execFuseRead_w : Nat := State.fuseReadCmd_w
theorem execFuseRead_keeps {h : Hdr} {word : Nat} {s : State} {nx : State}
    (hn : execFuseRead h word s = .next nx) : Keeps execFuseRead_w s nx := Keeps.ofNext (State.fuseReadCmd_keeps ..) hn

def execFuseOr_w : Nat := State.fuseOrCmd_w
theorem execFuseOr_keeps {h : Hdr} {word v : Nat} {s : State} {nx : State}
    (hn : execFuseOr h word v s = .next nx) : Keeps execFuseOr_w s nx := Keeps.ofNext (State.fuseOrCmd_keeps ..) hn

def execVersionRead_w : Nat := State.versionCmd_w
theorem execVersionRead_keeps {h : Hdr} {s : State} {nx : State}
    (hn : execVersionRead h s = .next nx) : Keeps execVersionRead_w s nx := Keeps.ofNext (State.versionCmd_keeps ..) hn

def execEventSend_w : Nat := State.eventSend_w
theorem execEventSend_keeps {s : State} {nx : State}
    (hn : execEventSend s = .next nx) : Keeps execEventSend_w s nx := Keeps.ofNext (State.eventSend_keeps ..) hn

def execMbxHostRx_w : Nat := State.swRead_w
theorem execMbxHostRx_keeps {m : Master} {b : Fin 4} {s : State} {nx : State}
    (hn : execMbxHostRx m b s = .next nx) : Keeps execMbxHostRx_w s nx := Keeps.ofNext (State.swRead_keeps ..) hn

def execMbxHostTx_w : Nat := State.swWrite_w
theorem execMbxHostTx_keeps {m : Master} {b : Fin 4} {v : Nat} {s : State} {nx : State}
    (hn : execMbxHostTx m b v s = .next nx) : Keeps execMbxHostTx_w s nx := Keeps.ofNext (State.swWrite_keeps ..) hn

def execMbxHostDb_w : Nat := State.swWrite_w
theorem execMbxHostDb_keeps {m : Master} {b : Fin 4} {v : Nat} {s : State} {nx : State}
    (hn : execMbxHostDb m b v s = .next nx) : Keeps execMbxHostDb_w s nx := Keeps.ofNext (State.swWrite_keeps ..) hn

def execMbxEngTx_w : Nat := State.swWrite_w
theorem execMbxEngTx_keeps {m : Master} {k : Fin 64} {v : Nat} {s : State} {nx : State}
    (hn : execMbxEngTx m k v s = .next nx) : Keeps execMbxEngTx_w s nx := Keeps.ofNext (State.swWrite_keeps ..) hn

def execMbxEngRx_w : Nat := State.swRead_w
theorem execMbxEngRx_keeps {m : Master} {k : Fin 64} {s : State} {nx : State}
    (hn : execMbxEngRx m k s = .next nx) : Keeps execMbxEngRx_w s nx := Keeps.ofNext (State.swRead_keeps ..) hn

def execMbxEngDb_w : Nat := State.swWrite_w
theorem execMbxEngDb_keeps {m : Master} {k : Fin 64} {v : Nat} {s : State} {nx : State}
    (hn : execMbxEngDb m k v s = .next nx) : Keeps execMbxEngDb_w s nx := Keeps.ofNext (State.swWrite_keeps ..) hn

def execRegWrite_w : Nat := State.busWrite_w ||| answered_w
theorem execRegWrite_keeps {m : Master} {addr v : Nat} {s : State} {nx : State}
    (hn : execRegWrite m addr v s = .next nx) : Keeps execRegWrite_w s nx := by
  unfold execRegWrite at hn
  refine Keeps.ofNext ?_ hn
  repeat' first
    | with_reducible assumption
    | with_reducible exact Keeps.refl _ _
    | decide +kernel
    | with_reducible apply Keeps.via (State.busWrite_keeps ..)
    | with_reducible apply answered_keeps

def State.semReads_w : Nat := State.bad_w ||| State.semReadBy_w
theorem State.semReads_keeps (s : State) (n : Nat) (readers : List Master) : Keeps State.semReads_w s (s.semReads n readers).1 := by
  unfold State.semReads
  repeat' first
    | with_reducible assumption
    | with_reducible exact Keeps.refl _ _
    | decide +kernel
    | with_reducible apply Keeps.via (State.bad_keeps ..)
    | with_reducible apply Keeps.via (State.semReadBy_keeps ..)
    | with_reducible apply Keeps.iteA
    | with_reducible apply Keeps.ite1

def execLd_w : Nat := State.loadRow_w
theorem execLd_keeps {k : Fin 64} {space : Fin 2} {off : Nat} {dst : Fin 64} {s : State} {nx : State}
    (hn : execLd k space off dst s = .next nx) : Keeps execLd_w s nx := Keeps.ofNext (State.loadRow_keeps ..) hn

def execSt_w : Nat := State.storeRow_w
theorem execSt_keeps {k : Fin 64} {space : Fin 2} {off : Nat} {v : Nat} {s : State} {nx : State}
    (hn : execSt k space off v s = .next nx) : Keeps execSt_w s nx := Keeps.ofNext (State.storeRow_keeps ..) hn

def execLdp_w : Nat := State.loadRow_w
theorem execLdp_keeps {k : Fin 64} {space : Fin 2} {off : Nat} {dst : Fin 64} {s : State} {nx : State}
    (hn : execLdp k space off dst s = .next nx) : Keeps execLdp_w s nx := Keeps.ofNext (State.loadRow_keeps ..) hn

def execStp_w : Nat := State.storeRow_w
theorem execStp_keeps {k : Fin 64} {space : Fin 2} {off : Nat} {v0 v1 : Nat} {s : State} {nx : State}
    (hn : execStp k space off v0 v1 s = .next nx) : Keeps execStp_w s nx := Keeps.ofNext (State.storeRow_keeps ..) hn

def execLoadComplete_w : Nat := State.loadDone_w
theorem execLoadComplete_keeps {k : Fin 64} {s : State} {nx : State}
    (hn : execLoadComplete k s = .next nx) : Keeps execLoadComplete_w s nx := Keeps.ofNext (State.loadDone_keeps ..) hn

def execMemoryError_w : Nat := State.memErrNext_w
theorem execMemoryError_keeps {k : Fin 64} {s : State} {nx : State}
    (hn : execMemoryError k s = .next nx) : Keeps execMemoryError_w s nx := Keeps.ofNext (State.memErrNext_keeps ..) hn

def execSem_w : Nat := State.semCmd_w
theorem execSem_keeps {k : Fin 64} {n : Fin 64} {dst : Fin 64} {s : State} {nx : State}
    (hn : execSem k n dst s = .next nx) : Keeps execSem_w s nx := Keeps.ofNext (State.semCmd_keeps ..) hn

def execSemrel_w : Nat := State.semrelCmd_w
theorem execSemrel_keeps {k : Fin 64} {n : Fin 64} {s : State} {nx : State}
    (hn : execSemrel k n s = .next nx) : Keeps execSemrel_w s nx := Keeps.ofNext (State.semrelCmd_keeps ..) hn

def execRecord_w : Nat := State.recordCmd_w
theorem execRecord_keeps {k : Fin 64} {off : Nat} {n : Fin 16} {s : State} {nx : State}
    (hn : execRecord k off n s = .next nx) : Keeps execRecord_w s nx := Keeps.ofNext (State.recordCmd_keeps ..) hn

def execCmd_w : Nat := State.cmdCmd_w
theorem execCmd_keeps {k : Fin 64} {off : Nat} {s : State} {nx : State}
    (hn : execCmd k off s = .next nx) : Keeps execCmd_w s nx := Keeps.ofNext (State.cmdCmd_keeps ..) hn

def execCmdReply_w : Nat := State.cmdReply_w
theorem execCmdReply_keeps {k : Fin 64} {s : State} {nx : State}
    (hn : execCmdReply k s = .next nx) : Keeps execCmdReply_w s nx := Keeps.ofNext (State.cmdReply_keeps ..) hn

def execFld_w : Nat := State.fldCmd_w
theorem execFld_keeps {k : Fin 64} {w : Fin 16} {dst : Fin 64} {s : State} {nx : State}
    (hn : execFld k w dst s = .next nx) : Keeps execFld_w s nx := Keeps.ofNext (State.fldCmd_keeps ..) hn

def execFst_w : Nat := State.fstCmd_w
theorem execFst_keeps {k : Fin 64} {w : Fin 16} {v : Nat} {s : State} {nx : State}
    (hn : execFst k w v s = .next nx) : Keeps execFst_w s nx := Keeps.ofNext (State.fstCmd_keeps ..) hn

def execPusht_w : Nat := State.pushtCmd_w
theorem execPusht_keeps {k : Fin 64} {dst : Fin 64} {s : State} {nx : State}
    (hn : execPusht k dst s = .next nx) : Keeps execPusht_w s nx := Keeps.ofNext (State.pushtCmd_keeps ..) hn

def execSemAcqRead_w : Nat := State.semReads_w ||| answered_w
theorem execSemAcqRead_keeps {n : Fin 64} {readers : List Master} {s : State} {nx : State}
    (hn : execSemAcqRead n readers s = .next nx) : Keeps execSemAcqRead_w s nx := by
  unfold execSemAcqRead at hn
  refine Keeps.ofNext ?_ hn
  repeat' first
    | with_reducible assumption
    | with_reducible exact Keeps.refl _ _
    | decide +kernel
    | with_reducible apply Keeps.via (State.semReads_keeps ..)
    | with_reducible apply answered_keeps

def execSemAcqWrite_w : Nat := State.swWrite_w
theorem execSemAcqWrite_keeps {m : Master} {n : Fin 64} {s : State} {nx : State}
    (hn : execSemAcqWrite m n s = .next nx) : Keeps execSemAcqWrite_w s nx := Keeps.ofNext (State.swWrite_keeps ..) hn

def execSemForce_w : Nat := State.swWrite_w
theorem execSemForce_keeps {m : Master} {v : Nat} {s : State} {nx : State}
    (hn : execSemForce m v s = .next nx) : Keeps execSemForce_w s nx := Keeps.ofNext (State.swWrite_keeps ..) hn

def execBitSetAliasWrite_w : Nat := State.aliasWrite_w ||| answered_w
theorem execBitSetAliasWrite_keeps {m : Master} {x v : Nat} {b : Option PortB} {s : State} {nx : State}
    (hn : execBitSetAliasWrite m x v b s = .next nx) : Keeps execBitSetAliasWrite_w s nx := by
  unfold execBitSetAliasWrite at hn
  refine Keeps.ofNext ?_ hn
  repeat' first
    | with_reducible assumption
    | with_reducible exact Keeps.refl _ _
    | decide +kernel
    | with_reducible apply Keeps.via (State.aliasWrite_keeps ..)
    | with_reducible apply answered_keeps

def execBitClearAliasWrite_w : Nat := State.aliasWrite_w ||| answered_w
theorem execBitClearAliasWrite_keeps {m : Master} {x v : Nat} {b : Option PortB} {s : State} {nx : State}
    (hn : execBitClearAliasWrite m x v b s = .next nx) : Keeps execBitClearAliasWrite_w s nx := by
  unfold execBitClearAliasWrite at hn
  refine Keeps.ofNext ?_ hn
  repeat' first
    | with_reducible assumption
    | with_reducible exact Keeps.refl _ _
    | decide +kernel
    | with_reducible apply Keeps.via (State.aliasWrite_keeps ..)
    | with_reducible apply answered_keeps

def execScrubRead_w : Nat := State.scrubRead_w
theorem execScrubRead_keeps {err : EccSeen} {s : State} {nx : State}
    (hn : execScrubRead err s = .next nx) : Keeps execScrubRead_w s nx := Keeps.ofNext (State.scrubRead_keeps ..) hn

def State.wakeBy_w : Nat := State.wakeUp_w
theorem State.wakeBy_keeps (s : State) (c : WakeCause) : Keeps State.wakeBy_w s (s.wakeBy c) := by
  unfold State.wakeBy
  repeat' first
    | with_reducible assumption
    | with_reducible exact Keeps.refl _ _
    | decide +kernel
    | with_reducible apply Keeps.via (State.wakeUp_keeps ..)
    | split

def execMode_w : Nat := State.modeCommand_w
theorem execMode_keeps {h : Hdr} {target : Nat} {s : State} {nx : State}
    (hn : execMode h target s = .next nx) : Keeps execMode_w s nx := Keeps.ofNext (State.modeCommand_keeps ..) hn

def execModeTransitionDone_w : Nat := State.modeDone_w ||| State.calLeave_w
theorem execModeTransitionDone_keeps {s : State} {nx : State}
    (hn : execModeTransitionDone s = .next nx) : Keeps execModeTransitionDone_w s nx := by
  unfold execModeTransitionDone at hn
  refine Keeps.ofNext ?_ hn
  repeat' first
    | with_reducible assumption
    | with_reducible exact Keeps.refl _ _
    | decide +kernel
    | with_reducible apply Keeps.via (State.modeDone_keeps ..)
    | with_reducible apply Keeps.via (State.calLeave_keeps ..)

def execWake_w : Nat := State.wakeBy_w
theorem execWake_keeps {c : WakeCause} {s : State} {nx : State}
    (hn : execWake c s = .next nx) : Keeps execWake_w s nx := Keeps.ofNext (State.wakeBy_keeps ..) hn

def execChimneySample_w : Nat := State.chimneySample_w
theorem execChimneySample_keeps {raw : List SensorRaw} {s : State} {nx : State}
    (hn : execChimneySample raw s = .next nx) : Keeps execChimneySample_w s nx := by
  unfold execChimneySample at hn
  split at hn
  · refine Keeps.ofNext ?_ hn
    repeat' first
      | with_reducible assumption
      | with_reducible exact Keeps.refl _ _
      | decide +kernel
      | with_reducible apply Keeps.via (State.chimneySample_keeps ..)
      | with_reducible apply Keeps.iteA
  · cases hn

def execThermalLogRetry_w : Nat := State.logRetry_w
theorem execThermalLogRetry_keeps {s : State} {nx : State}
    (hn : execThermalLogRetry s = .next nx) : Keeps execThermalLogRetry_w s nx := Keeps.ofNext (State.logRetry_keeps ..) hn

def execLanePresetUpdate_w : Nat := State.lanePresetUpdate_w
theorem execLanePresetUpdate_keeps {p : Fin 8} {s : State} {nx : State}
    (hn : execLanePresetUpdate p s = .next nx) : Keeps execLanePresetUpdate_w s nx := Keeps.ofNext (State.lanePresetUpdate_keeps ..) hn

def execForcedReadingExpiry_w : Nat := State.forceExpiry_w
theorem execForcedReadingExpiry_keeps {n : Fin 40} {s : State} {nx : State}
    (hn : execForcedReadingExpiry n s = .next nx) : Keeps execForcedReadingExpiry_w s nx := Keeps.ofNext (State.forceExpiry_keeps ..) hn

def execRefreshRateReport_w : Nat := State.refreshReport_w
theorem execRefreshRateReport_keeps {rate : Fin 3} {s : State} {nx : State}
    (hn : execRefreshRateReport rate s = .next nx) : Keeps execRefreshRateReport_w s nx := Keeps.ofNext (State.refreshReport_keeps ..) hn

def State.lineDone_w : Nat := State.decodeDone_w ||| State.faultRaise_w ||| State.wakeIf_w
theorem State.lineDone_keeps (s : State) (pat line : Nat) : Keeps State.lineDone_w s (s.lineDone pat line) := by
  unfold State.lineDone
  repeat' first
    | (extract_lets +onlyGivenNames x1; clear_value (hx : x1 = _); refine Keeps.cut x1 ?_ (fun h => ?_); rw [hx]; clear hx x1; rotate_left; clear hx; rotate_right)
    | (extract_lets +onlyGivenNames x1; clear_value (hx : x1 = _); refine Keeps.cut1 x1 ?_ (fun h => ?_); rw [hx]; clear hx x1; rotate_left; clear hx; rotate_right)
    | (extract_lets +onlyGivenNames x1; clear_value (hx : x1 = _); refine Keeps.cut2 x1 ?_ (fun h => ?_); rw [hx]; clear hx x1; rotate_left; clear hx; rotate_right)
    | (extract_lets +onlyGivenNames x1; clear_value (hx : x1 = _); clear hx)
    | with_reducible assumption
    | with_reducible exact Keeps.refl _ _
    | decide +kernel
    | with_reducible apply Keeps.via (State.decodeDone_keeps ..)
    | with_reducible apply Keeps.via (State.faultRaise_keeps ..)
    | with_reducible apply Keeps.via (State.wakeIf_keeps ..)
    | with_reducible apply Keeps.iteA
    | split

def execDeferredStartRelease_w : Nat := State.deferredRelease_w
theorem execDeferredStartRelease_keeps {site : Fin 64} {s : State} {nx : State}
    (hn : execDeferredStartRelease site s = .next nx) : Keeps execDeferredStartRelease_w s nx := Keeps.ofNext (State.deferredRelease_keeps ..) hn

def execStartTimeout_w : Nat := State.startTimeout_w
theorem execStartTimeout_keeps {site : Fin 64} {s : State} {nx : State}
    (hn : execStartTimeout site s = .next nx) : Keeps execStartTimeout_w s nx := Keeps.ofNext (State.startTimeout_keeps ..) hn

def execVectorBoundary_w : Nat := State.vectorBoundary_w
theorem execVectorBoundary_keeps {site : Fin 64} {seen : List CmpSeen} {s : State} {nx : State}
    (hn : execVectorBoundary site seen s = .next nx) : Keeps execVectorBoundary_w s nx := Keeps.ofNext (State.vectorBoundary_keeps ..) hn

def execStallLimitExpiry_w : Nat := State.stallExpiry_w
theorem execStallLimitExpiry_keeps {site : Fin 64} {s : State} {nx : State}
    (hn : execStallLimitExpiry site s = .next nx) : Keeps execStallLimitExpiry_w s nx := Keeps.ofNext (State.stallExpiry_keeps ..) hn

def execTimedStart_w : Nat := State.timedStart_w
theorem execTimedStart_keeps {site : Fin 64} {s : State} {nx : State}
    (hn : execTimedStart site s = .next nx) : Keeps execTimedStart_w s nx := Keeps.ofNext (State.timedStart_keeps ..) hn

def execPantryLineGrant_w : Nat := State.lineGrant_w
theorem execPantryLineGrant_keeps {s : State} {nx : State}
    (hn : execPantryLineGrant s = .next nx) : Keeps execPantryLineGrant_w s nx := Keeps.ofNext (State.lineGrant_keeps ..) hn

def execLineDecodeStart_w : Nat := State.decodeStart_w
theorem execLineDecodeStart_keeps {s : State} {nx : State}
    (hn : execLineDecodeStart s = .next nx) : Keeps execLineDecodeStart_w s nx := Keeps.ofNext (State.decodeStart_keeps ..) hn

def execLineDecodeDone_w : Nat := State.lineDone_w
theorem execLineDecodeDone_keeps {pat line : Nat} {s : State} {nx : State}
    (hn : execLineDecodeDone pat line s = .next nx) : Keeps execLineDecodeDone_w s nx := Keeps.ofNext (State.lineDone_keeps ..) hn

def execPanInval_w : Nat := State.swWrite_w
theorem execPanInval_keeps {m : Master} {v : Nat} {s : State} {nx : State}
    (hn : execPanInval m v s = .next nx) : Keeps execPanInval_w s nx := Keeps.ofNext (State.swWrite_keeps ..) hn

def execInvalidationDone_w : Nat := State.invalEnd_w
theorem execInvalidationDone_keeps {s : State} {nx : State}
    (hn : execInvalidationDone s = .next nx) : Keeps execInvalidationDone_w s nx := by
  unfold execInvalidationDone at hn
  refine Keeps.ofNext ?_ hn
  repeat' first
    | with_reducible assumption
    | with_reducible exact Keeps.refl _ _
    | decide +kernel
    | with_reducible apply Keeps.via (State.invalEnd_keeps ..)
    | with_reducible apply Keeps.iteA

def execPanCounterRead_w : Nat := State.swRead_w
theorem execPanCounterRead_keeps {m : Master} {c : PanCounter} {s : State} {nx : State}
    (hn : execPanCounterRead m c s = .next nx) : Keeps execPanCounterRead_w s nx := Keeps.ofNext (State.swRead_keeps ..) hn

def execJumpReqWrite_w : Nat := State.swWrite_w
theorem execJumpReqWrite_keeps {m : Master} {t : JumpTarget} {v : Nat} {s : State} {nx : State}
    (hn : execJumpReqWrite m t v s = .next nx) : Keeps execJumpReqWrite_w s nx := by
  unfold execJumpReqWrite at hn
  refine Keeps.ofNext ?_ hn
  repeat' first
    | with_reducible assumption
    | with_reducible exact Keeps.refl _ _
    | decide +kernel
    | with_reducible apply Keeps.via (State.swWrite_keeps ..)
    | split

def execJumpReqCancel_w : Nat := State.swWrite_w
theorem execJumpReqCancel_keeps {m : Master} {t : JumpTarget} {v : Nat} {s : State} {nx : State}
    (hn : execJumpReqCancel m t v s = .next nx) : Keeps execJumpReqCancel_w s nx := by
  unfold execJumpReqCancel at hn
  refine Keeps.ofNext ?_ hn
  repeat' first
    | with_reducible assumption
    | with_reducible exact Keeps.refl _ _
    | decide +kernel
    | with_reducible apply Keeps.via (State.swWrite_keeps ..)
    | split

def execSmuWaveSample_w : Nat := State.waveSample_w
theorem execSmuWaveSample_keeps {u : Fin 32} {s : State} {nx : State}
    (hn : execSmuWaveSample u s = .next nx) : Keeps execSmuWaveSample_w s nx := Keeps.ofNext (State.waveSample_keeps ..) hn

def State.crossing_w : Nat := State.monCross_w ||| State.flowsTripped_w ||| State.wakeIf_w
theorem State.crossing_keeps (s : State) (i : Nat) (high : Bool) (input : Int) : Keeps State.crossing_w s (s.crossing i high input) := by
  unfold State.crossing
  repeat' first
    | (extract_lets +onlyGivenNames x1; clear_value (hx : x1 = _); refine Keeps.cut x1 ?_ (fun h => ?_); rw [hx]; clear hx x1; rotate_left; clear hx; rotate_right)
    | (extract_lets +onlyGivenNames x1; clear_value (hx : x1 = _); refine Keeps.cut1 x1 ?_ (fun h => ?_); rw [hx]; clear hx x1; rotate_left; clear hx; rotate_right)
    | (extract_lets +onlyGivenNames x1; clear_value (hx : x1 = _); refine Keeps.cut2 x1 ?_ (fun h => ?_); rw [hx]; clear hx x1; rotate_left; clear hx; rotate_right)
    | (extract_lets +onlyGivenNames x1; clear_value (hx : x1 = _); clear hx)
    | with_reducible assumption
    | with_reducible exact Keeps.refl _ _
    | decide +kernel
    | with_reducible apply Keeps.via (State.monCross_keeps ..)
    | with_reducible apply Keeps.via (State.flowsTripped_keeps ..)
    | with_reducible apply Keeps.via (State.wakeIf_keeps ..)
    | with_reducible apply Keeps.iteA

def execChCtrlWrite_w : Nat := State.swWrite_w
theorem execChCtrlWrite_keeps {m : Master} {ch : Fin 512} {v : Nat} {s : State} {nx : State}
    (hn : execChCtrlWrite m ch v s = .next nx) : Keeps execChCtrlWrite_w s nx := Keeps.ofNext (State.swWrite_keeps ..) hn

def execLevelWrite_w : Nat := State.swWrite_w
theorem execLevelWrite_keeps {m : Master} {ch : Fin 512} {lvl : Fin 10} {v : Nat} {s : State} {nx : State}
    (hn : execLevelWrite m ch lvl v s = .next nx) : Keeps execLevelWrite_w s nx := Keeps.ofNext (State.swWrite_keeps ..) hn

def execLevelSettled_w : Nat := State.levelSettled_w
theorem execLevelSettled_keeps {ch : Fin 512} {s : State} {nx : State}
    (hn : execLevelSettled ch s = .next nx) : Keeps execLevelSettled_w s nx := Keeps.ofNext (State.levelSettled_keeps ..) hn

def execPmuCtrlWrite_w : Nat := State.swWrite_w
theorem execPmuCtrlWrite_keeps {m : Master} {ch : Fin 512} {v : Nat} {s : State} {nx : State}
    (hn : execPmuCtrlWrite m ch v s = .next nx) : Keeps execPmuCtrlWrite_w s nx := Keeps.ofNext (State.swWrite_keeps ..) hn

def execPmuConnectDone_w : Nat := State.pmuConnectDone_w
theorem execPmuConnectDone_keeps {ch : Fin 512} {s : State} {nx : State}
    (hn : execPmuConnectDone ch s = .next nx) : Keeps execPmuConnectDone_w s nx := Keeps.ofNext (State.pmuConnectDone_keeps ..) hn

def execPmuRangeDone_w : Nat := State.pmuRangeDone_w
theorem execPmuRangeDone_keeps {ch : Fin 512} {s : State} {nx : State}
    (hn : execPmuRangeDone ch s = .next nx) : Keeps execPmuRangeDone_w s nx := Keeps.ofNext (State.pmuRangeDone_keeps ..) hn

def execPmuMeas_w : Nat := State.swWrite_w
theorem execPmuMeas_keeps {m : Master} {ch : Fin 512} {v : Nat} {s : State} {nx : State}
    (hn : execPmuMeas m ch v s = .next nx) : Keeps execPmuMeas_w s nx := Keeps.ofNext (State.swWrite_keeps ..) hn

def execPmuMeasDone_w : Nat := State.pmuMeasDone_w
theorem execPmuMeasDone_keeps {ch : Fin 512} {mean : Int} {clamped beyond : Bool} {s : State} {nx : State}
    (hn : execPmuMeasDone ch mean clamped beyond s = .next nx) : Keeps execPmuMeasDone_w s nx := Keeps.ofNext (State.pmuMeasDone_keeps ..) hn

def execMonitorCrossing_w : Nat := State.crossing_w
theorem execMonitorCrossing_keeps {i : Fin 160} {high : Bool} {input : Int} {s : State} {nx : State}
    (hn : execMonitorCrossing i high input s = .next nx) : Keeps execMonitorCrossing_w s nx := Keeps.ofNext (State.crossing_keeps ..) hn

def execMonLatchClear_w : Nat := State.swWrite_w
theorem execMonLatchClear_keeps {m : Master} {i : Fin 160} {v : Nat} {s : State} {nx : State}
    (hn : execMonLatchClear m i v s = .next nx) : Keeps execMonLatchClear_w s nx := Keeps.ofNext (State.swWrite_keeps ..) hn

def execMonPeriodBoundary_w : Nat := State.monPeriod_w ||| State.calMonPeriod_w
theorem execMonPeriodBoundary_keeps {i : Fin 160} {s : State} {nx : State}
    (hn : execMonPeriodBoundary i s = .next nx) : Keeps execMonPeriodBoundary_w s nx := by
  unfold execMonPeriodBoundary at hn
  refine Keeps.ofNext ?_ hn
  repeat' first
    | with_reducible assumption
    | with_reducible exact Keeps.refl _ _
    | decide +kernel
    | with_reducible apply Keeps.via (State.monPeriod_keeps ..)
    | with_reducible apply Keeps.via (State.calMonPeriod_keeps ..)

def execMonCtrlWrite_w : Nat := State.swWrite_w
theorem execMonCtrlWrite_keeps {m : Master} {i : Fin 160} {v : Nat} {s : State} {nx : State}
    (hn : execMonCtrlWrite m i v s = .next nx) : Keeps execMonCtrlWrite_w s nx := Keeps.ofNext (State.swWrite_keeps ..) hn

def execMonThresholdWrite_w : Nat := State.swWrite_w
theorem execMonThresholdWrite_keeps {m : Master} {i : Fin 160} {r : MonReg} {v : Nat} {s : State} {nx : State}
    (hn : execMonThresholdWrite m i r v s = .next nx) : Keeps execMonThresholdWrite_w s nx := Keeps.ofNext (State.swWrite_keeps ..) hn

def execThresholdSettled_w : Nat := State.monSettled_w
theorem execThresholdSettled_keeps {i : Fin 160} {s : State} {nx : State}
    (hn : execThresholdSettled i s = .next nx) : Keeps execThresholdSettled_w s nx := Keeps.ofNext (State.monSettled_keeps ..) hn

def execThresholdArming_w : Nat := State.thresholdArming_w
theorem execThresholdArming_keeps {i : Fin 160} {input : Int} {s : State} {nx : State}
    (hn : execThresholdArming i input s = .next nx) : Keeps execThresholdArming_w s nx := Keeps.ofNext (State.thresholdArming_keeps ..) hn

def State.lockup_w : Nat := State.failingReset_w F.RST_CAUSE_LOCKUP
theorem State.lockup_keeps (s : State) : Keeps State.lockup_w s (s.lockup) := by
  unfold State.lockup
  repeat' first
    | with_reducible assumption
    | with_reducible exact Keeps.refl _ _
    | decide +kernel
    | with_reducible apply Keeps.via (State.failingReset_keeps ..)
    | with_reducible apply Keeps.iteA

def State.porchUnclocked_w : Nat := fm F.PORCH_STAT_PARTNER ||| fm F.PORCH_EVENTS_DOWN ||| fm H.PO_DOWN_END |||
    State.porchDown_w ||| State.rxReset_w ||| State.porchTo_w
theorem State.porchUnclocked_keeps (s : State) (p : Nat) : Keeps State.porchUnclocked_w s (s.porchUnclocked p) := by
  unfold State.porchUnclocked
  repeat' first
    | with_reducible assumption
    | with_reducible exact Keeps.refl _ _
    | decide +kernel
    | with_reducible apply Keeps.setBA
    | with_reducible apply Keeps.incWA
    | with_reducible apply Keeps.setDueA
    | with_reducible apply Keeps.via (State.porchDown_keeps ..)
    | with_reducible apply Keeps.via (State.rxReset_keeps ..)
    | with_reducible apply Keeps.via (State.porchTo_keeps ..)
    | with_reducible apply Keeps.iteA

def State.laneRefLost_w : Nat := State.porchUnclocked_w ||| State.faultRaise_w ||| State.wakeIf_w
theorem State.laneRefLost_keeps (s : State) : Keeps State.laneRefLost_w s (s.laneRefLost) := by
  unfold State.laneRefLost
  repeat' first
    | (extract_lets +onlyGivenNames x1; clear_value (hx : x1 = _); refine Keeps.cut x1 ?_ (fun h => ?_); rw [hx]; clear hx x1; rotate_left; clear hx; rotate_right)
    | (extract_lets +onlyGivenNames x1; clear_value (hx : x1 = _); refine Keeps.cut1 x1 ?_ (fun h => ?_); rw [hx]; clear hx x1; rotate_left; clear hx; rotate_right)
    | (extract_lets +onlyGivenNames x1; clear_value (hx : x1 = _); refine Keeps.cut2 x1 ?_ (fun h => ?_); rw [hx]; clear hx x1; rotate_left; clear hx; rotate_right)
    | (extract_lets +onlyGivenNames x1; clear_value (hx : x1 = _); clear hx)
    | with_reducible assumption
    | with_reducible exact Keeps.refl _ _
    | decide +kernel
    | with_reducible refine Keeps.eachA ?_ (fun _ _ => ?_)
    | with_reducible apply Keeps.via (State.porchUnclocked_keeps ..)
    | with_reducible apply Keeps.via (State.faultRaise_keeps ..)
    | with_reducible apply Keeps.via (State.wakeIf_keeps ..)

def execPor_w : Nat := State.porReset_w
theorem execPor_keeps {s : State} {nx : State}
    (hn : execPor s = .next nx) : Keeps execPor_w s nx := Keeps.ofNext (State.porReset_keeps ..) hn

def execBor_w : Nat := State.borReset_w
theorem execBor_keeps {s : State} {nx : State}
    (hn : execBor s = .next nx) : Keeps execBor_w s nx := Keeps.ofNext (State.borReset_keeps ..) hn

def execPorRelease_w : Nat := State.porRelease_w
theorem execPorRelease_keeps {s : State} {nx : State}
    (hn : execPorRelease s = .next nx) : Keeps execPorRelease_w s nx := Keeps.ofNext (State.porRelease_keeps ..) hn

def execPin_w : Nat := State.resetPin_w
theorem execPin_keeps {widthPs : Nat} {s : State} {nx : State}
    (hn : execPin widthPs s = .next nx) : Keeps execPin_w s nx := Keeps.ofNext (State.resetPin_keeps ..) hn

def execWdog_w : Nat := State.wdogReset_w
theorem execWdog_keeps {s : State} {nx : State}
    (hn : execWdog s = .next nx) : Keeps execWdog_w s nx := Keeps.ofNext (State.wdogReset_keeps ..) hn

def execWdogHalf_w : Nat := State.wdogHalf_w
theorem execWdogHalf_keeps {s : State} {nx : State}
    (hn : execWdogHalf s = .next nx) : Keeps execWdogHalf_w s nx := Keeps.ofNext (State.wdogHalf_keeps ..) hn

def execSoft_w : Nat := State.softReset_w
theorem execSoft_keeps {s : State} {nx : State}
    (hn : execSoft s = .next nx) : Keeps execSoft_w s nx := Keeps.ofNext (State.softReset_keeps ..) hn

def execDebugReset_w : Nat := State.debugReset_w
theorem execDebugReset_keeps {s : State} {nx : State}
    (hn : execDebugReset s = .next nx) : Keeps execDebugReset_w s nx := Keeps.ofNext (State.debugReset_keeps ..) hn

def execClkfail_w : Nat := State.clkFail_w
theorem execClkfail_keeps {loss : ClockLoss} {s : State} {nx : State}
    (hn : execClkfail loss s = .next nx) : Keeps execClkfail_w s nx := Keeps.ofNext (State.clkFail_keeps ..) hn

def execLockup_w : Nat := State.lockup_w
theorem execLockup_keeps {s : State} {nx : State}
    (hn : execLockup s = .next nx) : Keeps execLockup_w s nx := Keeps.ofNext (State.lockup_keeps ..) hn

def execLaneRef_w : Nat := State.laneRefLost_w
theorem execLaneRef_keeps {s : State} {nx : State}
    (hn : execLaneRef s = .next nx) : Keeps execLaneRef_w s nx := Keeps.ofNext (State.laneRefLost_keeps ..) hn

def execSafeStateSequence_w : Nat := State.safeStep_w
theorem execSafeStateSequence_keeps {s : State} {nx : State}
    (hn : execSafeStateSequence s = .next nx) : Keeps execSafeStateSequence_w s nx := Keeps.ofNext (State.safeStep_keeps ..) hn

def execRstSoft_w : Nat := State.swWrite_w
theorem execRstSoft_keeps {m : Master} {v : Nat} {s : State} {nx : State}
    (hn : execRstSoft m v s = .next nx) : Keeps execRstSoft_w s nx := Keeps.ofNext (State.swWrite_keeps ..) hn

def execWdogStart_w : Nat := State.swWrite_w
theorem execWdogStart_keeps {m : Master} {v : Nat} {s : State} {nx : State}
    (hn : execWdogStart m v s = .next nx) : Keeps execWdogStart_w s nx := Keeps.ofNext (State.swWrite_keeps ..) hn

def execRstWdogKick_w : Nat := State.swWrite_w
theorem execRstWdogKick_keeps {m : Master} {v : Nat} {s : State} {nx : State}
    (hn : execRstWdogKick m v s = .next nx) : Keeps execRstWdogKick_w s nx := Keeps.ofNext (State.swWrite_keeps ..) hn

def execBringup_w : Nat := State.bringup_w
theorem execBringup_keeps {s : State} {nx : State}
    (hn : execBringup s = .next nx) : Keeps execBringup_w s nx := Keeps.ofNext (State.bringup_keeps ..) hn

def execRefDetect_w : Nat := State.refDetect_w
theorem execRefDetect_keeps {s : State} {nx : State}
    (hn : execRefDetect s = .next nx) : Keeps execRefDetect_w s nx := Keeps.ofNext (State.refDetect_keeps ..) hn

def execBootTimerExpiry_w : Nat := State.bootExpiry_w
theorem execBootTimerExpiry_keeps {s : State} {nx : State}
    (hn : execBootTimerExpiry s = .next nx) : Keeps execBootTimerExpiry_w s nx := Keeps.ofNext (State.bootExpiry_keeps ..) hn

def execStandbyEntry_w : Nat := State.standbyEntry_w
theorem execStandbyEntry_keeps {w : BootWorld} {s : State} {nx : State}
    (hn : execStandbyEntry w s = .next nx) : Keeps execStandbyEntry_w s nx := Keeps.ofNext (State.standbyEntry_keeps ..) hn

def execContactCtlStart_w : Nat := State.swWrite_w
theorem execContactCtlStart_keeps {m : Master} {v : Nat} {s : State} {nx : State}
    (hn : execContactCtlStart m v s = .next nx) : Keeps execContactCtlStart_w s nx := Keeps.ofNext (State.swWrite_keeps ..) hn

def execWarmHoldExpiry_w : Nat := State.warmHoldExpiry_w
theorem execWarmHoldExpiry_keeps {s : State} {nx : State}
    (hn : execWarmHoldExpiry s = .next nx) : Keeps execWarmHoldExpiry_w s nx := Keeps.ofNext (State.warmHoldExpiry_keeps ..) hn

def execContactCheckDone_w : Nat := State.contactDone_w
theorem execContactCheckDone_keeps {seen : List ContactSeen} {s : State} {nx : State}
    (hn : execContactCheckDone seen s = .next nx) : Keeps execContactCheckDone_w s nx := by
  unfold execContactCheckDone at hn
  split at hn
  · refine Keeps.ofNext ?_ hn
    repeat' first
      | with_reducible assumption
      | with_reducible exact Keeps.refl _ _
      | decide +kernel
      | with_reducible apply Keeps.via (State.contactDone_keeps ..)
      | with_reducible apply Keeps.iteA
  · cases hn

def State.siteRow_w : Nat := m_lastResp ||| State.siteControl_w
theorem State.siteRow_keeps (s : State) (o : SiteOrigin) (cmd mask : Nat) : Keeps State.siteRow_w s (s.siteRow o cmd mask) := by
  unfold State.siteRow
  repeat' first
    | with_reducible assumption
    | with_reducible exact Keeps.refl _ _
    | decide +kernel
    | with_reducible apply Keeps.via (State.siteControl_keeps ..)
    | with_reducible apply Keeps.iteA
    | split
    | with_reducible refine Keeps.trans ?_ (Keeps.c_lastResp _ ?_)

def execStart_w : Nat := State.siteRow_w
theorem execStart_keeps {o : SiteOrigin} {mask : Nat} {s : State} {nx : State}
    (hn : execStart o mask s = .next nx) : Keeps execStart_w s nx := Keeps.ofNext (State.siteRow_keeps ..) hn

def execPause_w : Nat := State.siteRow_w
theorem execPause_keeps {o : SiteOrigin} {mask : Nat} {s : State} {nx : State}
    (hn : execPause o mask s = .next nx) : Keeps execPause_w s nx := Keeps.ofNext (State.siteRow_keeps ..) hn

def execResume_w : Nat := State.siteRow_w
theorem execResume_keeps {o : SiteOrigin} {mask : Nat} {s : State} {nx : State}
    (hn : execResume o mask s = .next nx) : Keeps execResume_w s nx := Keeps.ofNext (State.siteRow_keeps ..) hn

def execRetest_w : Nat := State.siteRow_w
theorem execRetest_keeps {o : SiteOrigin} {mask : Nat} {s : State} {nx : State}
    (hn : execRetest o mask s = .next nx) : Keeps execRetest_w s nx := Keeps.ofNext (State.siteRow_keeps ..) hn

def execAbort_w : Nat := State.siteRow_w
theorem execAbort_keeps {o : SiteOrigin} {mask : Nat} {s : State} {nx : State}
    (hn : execAbort o mask s = .next nx) : Keeps execAbort_w s nx := Keeps.ofNext (State.siteRow_keeps ..) hn

def execSiteFinish_w : Nat := State.siteFinish_w
theorem execSiteFinish_keeps {site : Fin 64} {s : State} {nx : State}
    (hn : execSiteFinish site s = .next nx) : Keeps execSiteFinish_w s nx := Keeps.ofNext (State.siteFinish_keeps ..) hn

def execSiteBind_w : Nat := State.siteBind_w
theorem execSiteBind_keeps {h : Hdr} {entry : List Byte} {s : State} {nx : State}
    (hn : execSiteBind h entry s = .next nx) : Keeps execSiteBind_w s nx := by
  unfold execSiteBind at hn
  split at hn
  · refine Keeps.ofNext ?_ hn
    repeat' first
      | with_reducible assumption
      | with_reducible exact Keeps.refl _ _
      | decide +kernel
      | with_reducible apply Keeps.via (State.siteBind_keeps ..)
      | with_reducible apply Keeps.iteA
  · cases hn

def execSiteUnbind_w : Nat := State.siteUnbind_w
theorem execSiteUnbind_keeps {h : Hdr} {mask : Nat} {s : State} {nx : State}
    (hn : execSiteUnbind h mask s = .next nx) : Keeps execSiteUnbind_w s nx := Keeps.ofNext (State.siteUnbind_keeps ..) hn

def execDpsCtrlWrite_w : Nat := State.swWrite_w
theorem execDpsCtrlWrite_keeps {m : Master} {d : Fin 64} {v : Nat} {s : State} {nx : State}
    (hn : execDpsCtrlWrite m d v s = .next nx) : Keeps execDpsCtrlWrite_w s nx := Keeps.ofNext (State.swWrite_keeps ..) hn

def execVsetWrite_w : Nat := State.swWrite_w
theorem execVsetWrite_keeps {m : Master} {d : Fin 64} {v : Nat} {s : State} {nx : State}
    (hn : execVsetWrite m d v s = .next nx) : Keeps execVsetWrite_w s nx := Keeps.ofNext (State.swWrite_keeps ..) hn

def execRampEnd_w : Nat := State.rampEnd_w
theorem execRampEnd_keeps {d : Fin 64} {s : State} {nx : State}
    (hn : execRampEnd d s = .next nx) : Keeps execRampEnd_w s nx := Keeps.ofNext (State.rampEnd_keeps ..) hn

def execDpsSettled_w : Nat := State.dpsSettled_w
theorem execDpsSettled_keeps {d : Fin 64} {s : State} {nx : State}
    (hn : execDpsSettled d s = .next nx) : Keeps execDpsSettled_w s nx := Keeps.ofNext (State.dpsSettled_keeps ..) hn

def execRegLoss_w : Nat := State.regLoss_w
theorem execRegLoss_keeps {d : Fin 64} {s : State} {nx : State}
    (hn : execRegLoss d s = .next nx) : Keeps execRegLoss_w s nx := Keeps.ofNext (State.regLoss_keeps ..) hn

def execSenseDrop_w : Nat := State.senseDrop_w
theorem execSenseDrop_keeps {d : Fin 64} {s : State} {nx : State}
    (hn : execSenseDrop d s = .next nx) : Keeps execSenseDrop_w s nx := Keeps.ofNext (State.senseDrop_keeps ..) hn

def execShare_w : Nat := State.share_w
theorem execShare_keeps {d : Fin 64} {s : State} {nx : State}
    (hn : execShare d s = .next nx) : Keeps execShare_w s nx := Keeps.ofNext (State.share_keeps ..) hn

def execDpsRangeDone_w : Nat := State.dpsRangeDone_w
theorem execDpsRangeDone_keeps {d : Fin 64} {s : State} {nx : State}
    (hn : execDpsRangeDone d s = .next nx) : Keeps execDpsRangeDone_w s nx := Keeps.ofNext (State.dpsRangeDone_keeps ..) hn

def execCurrentLimit_w : Nat := State.currentLimit_w
theorem execCurrentLimit_keeps {d : Fin 64} {limited : Bool} {s : State} {nx : State}
    (hn : execCurrentLimit d limited s = .next nx) : Keeps execCurrentLimit_w s nx := Keeps.ofNext (State.currentLimit_keeps ..) hn

def execMonitorSample_w : Nat := State.monitorSample_w
theorem execMonitorSample_keeps {u : Supply} {volt curr : Int} {limited beyond : Bool} {s : State} {nx : State}
    (hn : execMonitorSample u volt curr limited beyond s = .next nx) : Keeps execMonitorSample_w s nx := Keeps.ofNext (State.monitorSample_keeps ..) hn

def execDpsMeas_w : Nat := State.swWrite_w
theorem execDpsMeas_keeps {m : Master} {d : Fin 64} {v : Nat} {s : State} {nx : State}
    (hn : execDpsMeas m d v s = .next nx) : Keeps execDpsMeas_w s nx := Keeps.ofNext (State.swWrite_keeps ..) hn

def execSmuMeas_w : Nat := State.swWrite_w
theorem execSmuMeas_keeps {m : Master} {u : Fin 32} {v : Nat} {s : State} {nx : State}
    (hn : execSmuMeas m u v s = .next nx) : Keeps execSmuMeas_w s nx := Keeps.ofNext (State.swWrite_keeps ..) hn

def execMeasurementDone_w : Nat := State.measurementDone_w
theorem execMeasurementDone_keeps {u : Supply} {s : State} {nx : State}
    (hn : execMeasurementDone u s = .next nx) : Keeps execMeasurementDone_w s nx := Keeps.ofNext (State.measurementDone_keeps ..) hn

def execSmuCtrlWrite_w : Nat := State.swWrite_w
theorem execSmuCtrlWrite_keeps {m : Master} {u : Fin 32} {v : Nat} {s : State} {nx : State}
    (hn : execSmuCtrlWrite m u v s = .next nx) : Keeps execSmuCtrlWrite_w s nx := Keeps.ofNext (State.swWrite_keeps ..) hn

def execSmuRangeDone_w : Nat := State.smuRangeDone_w
theorem execSmuRangeDone_keeps {u : Fin 32} {s : State} {nx : State}
    (hn : execSmuRangeDone u s = .next nx) : Keeps execSmuRangeDone_w s nx := Keeps.ofNext (State.smuRangeDone_keeps ..) hn

def execSmuCompliance_w : Nat := State.smuCompliance_w
theorem execSmuCompliance_keeps {u : Fin 32} {limited : Bool} {s : State} {nx : State}
    (hn : execSmuCompliance u limited s = .next nx) : Keeps execSmuCompliance_w s nx := Keeps.ofNext (State.smuCompliance_keeps ..) hn

def execSineFreqWrite_w : Nat := State.swWrite_w
theorem execSineFreqWrite_keeps {m : Master} {u : Fin 32} {v : Nat} {s : State} {nx : State}
    (hn : execSineFreqWrite m u v s = .next nx) : Keeps execSineFreqWrite_w s nx := Keeps.ofNext (State.swWrite_keeps ..) hn

def execSineGeneratorStep_w : Nat := State.sineStep_w
theorem execSineGeneratorStep_keeps {u : Fin 32} {s : State} {nx : State}
    (hn : execSineGeneratorStep u s = .next nx) : Keeps execSineGeneratorStep_w s nx := Keeps.ofNext (State.sineStep_keeps ..) hn

def execSupervisionMismatch_w : Nat := State.supervision_w
theorem execSupervisionMismatch_keeps {u : Fin 32} {s : State} {nx : State}
    (hn : execSupervisionMismatch u s = .next nx) : Keeps execSupervisionMismatch_w s nx := Keeps.ofNext (State.supervision_keeps ..) hn

def execMismatchClear_w : Nat := State.swWrite_w
theorem execMismatchClear_keeps {m : Master} {u : Fin 32} {v : Nat} {s : State} {nx : State}
    (hn : execMismatchClear m u v s = .next nx) : Keeps execMismatchClear_w s nx := Keeps.ofNext (State.swWrite_keeps ..) hn

def State.faultRow_w : Nat := State.faultRaise_w ||| State.wakeIf_w
theorem State.faultRow_keeps (s : State) (src : Fin 128) (unit : Nat) : Keeps State.faultRow_w s (s.faultRow src unit) := by
  unfold State.faultRow
  repeat' first
    | with_reducible assumption
    | with_reducible exact Keeps.refl _ _
    | decide +kernel
    | with_reducible apply Keeps.via (State.faultRaise_keeps ..)
    | with_reducible apply Keeps.via (State.wakeIf_keeps ..)

def execCspStart_w : Nat := State.swWrite_w
theorem execCspStart_keeps {m : Master} {n : Fin 2} {v : Nat} {s : State} {nx : State}
    (hn : execCspStart m n v s = .next nx) : Keeps execCspStart_w s nx := Keeps.ofNext (State.swWrite_keeps ..) hn

def execCspAbort_w : Nat := State.swWrite_w
theorem execCspAbort_keeps {m : Master} {n : Fin 2} {v : Nat} {s : State} {nx : State}
    (hn : execCspAbort m n v s = .next nx) : Keeps execCspAbort_w s nx := Keeps.ofNext (State.swWrite_keeps ..) hn

def execCspEnWrite_w : Nat := State.swWrite_w
theorem execCspEnWrite_keeps {m : Master} {n : Fin 2} {v : Nat} {s : State} {nx : State}
    (hn : execCspEnWrite m n v s = .next nx) : Keeps execCspEnWrite_w s nx := Keeps.ofNext (State.swWrite_keeps ..) hn

def execCspTransferDone_w : Nat := State.cspDone_w
theorem execCspTransferDone_keeps {n : Fin 2} {rx : List Bool} {s : State} {nx : State}
    (hn : execCspTransferDone n rx s = .next nx) : Keeps execCspTransferDone_w s nx := Keeps.ofNext (State.cspDone_keeps ..) hn

def execSelectLost_w : Nat := State.selectLost_w
theorem execSelectLost_keeps {n : Fin 2} {rx : List Bool} {s : State} {nx : State}
    (hn : execSelectLost n rx s = .next nx) : Keeps execSelectLost_w s nx := Keeps.ofNext (State.selectLost_keeps ..) hn

def execFaultRaise_w : Nat := State.faultRow_w
theorem execFaultRaise_keeps {src : Fin 128} {unit : Nat} {s : State} {nx : State}
    (hn : execFaultRaise src unit s = .next nx) : Keeps execFaultRaise_w s nx := Keeps.ofNext (State.faultRow_keeps ..) hn

def execFltAck_w : Nat := State.swWrite_w
theorem execFltAck_keeps {m : Master} {v : Nat} {s : State} {nx : State}
    (hn : execFltAck m v s = .next nx) : Keeps execFltAck_w s nx := Keeps.ofNext (State.swWrite_keeps ..) hn

def execFaultEscalation_w : Nat := State.faultEscalate_w
theorem execFaultEscalation_keeps {s : State} {nx : State}
    (hn : execFaultEscalation s = .next nx) : Keeps execFaultEscalation_w s nx := Keeps.ofNext (State.faultEscalate_keeps ..) hn

def execFltInj_w : Nat := State.swWrite_w
theorem execFltInj_keeps {m : Master} {v : Nat} {s : State} {nx : State}
    (hn : execFltInj m v s = .next nx) : Keeps execFltInj_w s nx := Keeps.ofNext (State.swWrite_keeps ..) hn

def execIrqSwset_w : Nat := State.swWrite_w
theorem execIrqSwset_keeps {m : Master} {v : Nat} {s : State} {nx : State}
    (hn : execIrqSwset m v s = .next nx) : Keeps execIrqSwset_w s nx := Keeps.ofNext (State.swWrite_keeps ..) hn

def execSecRbCommit_w : Nat := State.swWrite_w
theorem execSecRbCommit_keeps {m : Master} {v : Nat} {s : State} {nx : State}
    (hn : execSecRbCommit m v s = .next nx) : Keeps execSecRbCommit_w s nx := Keeps.ofNext (State.swWrite_keeps ..) hn

def execSecLcReq_w : Nat := State.swWrite_w
theorem execSecLcReq_keeps {m : Master} {v : Nat} {s : State} {nx : State}
    (hn : execSecLcReq m v s = .next nx) : Keeps execSecLcReq_w s nx := Keeps.ofNext (State.swWrite_keeps ..) hn

def execSecProvCmd_w : Nat := State.swWrite_w
theorem execSecProvCmd_keeps {m : Master} {v : Nat} {s : State} {nx : State}
    (hn : execSecProvCmd m v s = .next nx) : Keeps execSecProvCmd_w s nx := Keeps.ofNext (State.swWrite_keeps ..) hn

def execFuseProgramDone_w : Nat := State.progDone_w
theorem execFuseProgramDone_keeps {ok : Bool} {s : State} {nx : State}
    (hn : execFuseProgramDone ok s = .next nx) : Keeps execFuseProgramDone_w s nx := Keeps.ofNext (State.progDone_keeps ..) hn

def execDebugUnlock_w : Nat := State.swWrite_w
theorem execDebugUnlock_keeps {m : Master} {v : Nat} {s : State} {nx : State}
    (hn : execDebugUnlock m v s = .next nx) : Keeps execDebugUnlock_w s nx := Keeps.ofNext (State.swWrite_keeps ..) hn

def execDebugUnlockDone_w : Nat := State.unlockDone_w
theorem execDebugUnlockDone_keeps {s : State} {nx : State}
    (hn : execDebugUnlockDone s = .next nx) : Keeps execDebugUnlockDone_w s nx := Keeps.ofNext (State.unlockDone_keeps ..) hn

def execSecWipe_w : Nat := State.swWrite_w
theorem execSecWipe_keeps {m : Master} {v : Nat} {s : State} {nx : State}
    (hn : execSecWipe m v s = .next nx) : Keeps execSecWipe_w s nx := Keeps.ofNext (State.swWrite_keeps ..) hn

def execWipeDone_w : Nat := State.wipeDone_w
theorem execWipeDone_keeps {s : State} {nx : State}
    (hn : execWipeDone s = .next nx) : Keeps execWipeDone_w s nx := Keeps.ofNext (State.wipeDone_keeps ..) hn

def execTamper_w : Nat := State.tamper_w
theorem execTamper_keeps {widthPs : Nat} {s : State} {nx : State}
    (hn : execTamper widthPs s = .next nx) : Keeps execTamper_w s nx := Keeps.ofNext (State.tamper_keeps ..) hn

def State.timebaseWrap_w : Nat := fm H.TB_EPOCH_SEEN ||| fm F.TB_EPOCH_EPOCH ||| m_now ||| State.tdcEpoch_w |||
    State.recAppend_w
theorem State.timebaseWrap_keeps (s : State) : Keeps State.timebaseWrap_w s (s.timebaseWrap) := by
  unfold State.timebaseWrap
  repeat' first
    | (extract_lets +onlyGivenNames x1; clear_value (hx : x1 = _); refine Keeps.cut x1 ?_ (fun h => ?_); rw [hx]; clear hx x1; rotate_left; clear hx; rotate_right)
    | (extract_lets +onlyGivenNames x1; clear_value (hx : x1 = _); refine Keeps.cut1 x1 ?_ (fun h => ?_); rw [hx]; clear hx x1; rotate_left; clear hx; rotate_right)
    | (extract_lets +onlyGivenNames x1; clear_value (hx : x1 = _); refine Keeps.cut2 x1 ?_ (fun h => ?_); rw [hx]; clear hx x1; rotate_left; clear hx; rotate_right)
    | (extract_lets +onlyGivenNames x1; clear_value (hx : x1 = _); clear hx)
    | with_reducible assumption
    | with_reducible exact Keeps.refl _ _
    | decide +kernel
    | with_reducible apply Keeps.putA
    | with_reducible apply Keeps.incWA
    | with_reducible apply Keeps.upToA
    | with_reducible refine Keeps.eachA ?_ (fun _ _ => ?_)
    | with_reducible apply Keeps.via (State.tdcEpoch_keeps ..)
    | with_reducible apply Keeps.via (State.recAppend_keeps ..)

def execTilePhaseMeasure_w : Nat := State.tilePhase_w
theorem execTilePhaseMeasure_keeps {t : Fin 8} {err corr : Int} {s : State} {nx : State}
    (hn : execTilePhaseMeasure t err corr s = .next nx) : Keeps execTilePhaseMeasure_w s nx := Keeps.ofNext (State.tilePhase_keeps ..) hn

def execSyncEvent_w : Nat := State.syncEvent_w
theorem execSyncEvent_keeps {s : State} {nx : State}
    (hn : execSyncEvent s = .next nx) : Keeps execSyncEvent_w s nx := Keeps.ofNext (State.syncEvent_keeps ..) hn

def execTimebaseWrap_w : Nat := State.timebaseWrap_w
theorem execTimebaseWrap_keeps {s : State} {nx : State}
    (hn : execTimebaseWrap s = .next nx) : Keeps execTimebaseWrap_w s nx := Keeps.ofNext (State.timebaseWrap_keeps ..) hn

def execChipOffsetWrite_w : Nat := State.swWrite_w
theorem execChipOffsetWrite_keeps {m : Master} {v : Nat} {s : State} {nx : State}
    (hn : execChipOffsetWrite m v s = .next nx) : Keeps execChipOffsetWrite_w s nx := Keeps.ofNext (State.swWrite_keeps ..) hn

def execTrigFire_w : Nat := State.swWrite_w
theorem execTrigFire_keeps {m : Master} {i : Fin 8} {v : Nat} {s : State} {nx : State}
    (hn : execTrigFire m i v s = .next nx) : Keeps execTrigFire_w s nx := Keeps.ofNext (State.swWrite_keeps ..) hn

def execTrigEmit_w : Nat := State.trigEmit_w
theorem execTrigEmit_keeps {i : Fin 8} {s : State} {nx : State}
    (hn : execTrigEmit i s = .next nx) : Keeps execTrigEmit_w s nx := Keeps.ofNext (State.trigEmit_keeps ..) hn

def execTrigArrival_w : Nat := State.trigArrive_w
theorem execTrigArrival_keeps {i : Fin 8} {t : Nat} {s : State} {nx : State}
    (hn : execTrigArrival i t s = .next nx) : Keeps execTrigArrival_w s nx := Keeps.ofNext (State.trigArrive_keeps ..) hn

def execTrigAction_w : Nat := State.trigAction_w
theorem execTrigAction_keeps {i : Fin 8} {s : State} {nx : State}
    (hn : execTrigAction i s = .next nx) : Keeps execTrigAction_w s nx := Keeps.ofNext (State.trigAction_keeps ..) hn

def execTrigAccEnable_w : Nat := State.swWrite_w
theorem execTrigAccEnable_keeps {m : Master} {i : Fin 8} {v : Nat} {s : State} {nx : State}
    (hn : execTrigAccEnable m i v s = .next nx) : Keeps execTrigAccEnable_w s nx := Keeps.ofNext (State.swWrite_keeps ..) hn

def execTimingSetWrite_w : Nat := State.swWrite_w
theorem execTimingSetWrite_keeps {m : Master} {r : TimingReg} {v : Nat} {s : State} {nx : State}
    (hn : execTimingSetWrite m r v s = .next nx) : Keeps execTimingSetWrite_w s nx := by
  unfold execTimingSetWrite at hn
  refine Keeps.ofNext ?_ hn
  repeat' first
    | with_reducible assumption
    | with_reducible exact Keeps.refl _ _
    | decide +kernel
    | with_reducible apply Keeps.via (State.swWrite_keeps ..)
    | split

def execChDskWrite_w : Nat := State.swWrite_w
theorem execChDskWrite_keeps {m : Master} {ch : Fin 512} {v : Nat} {s : State} {nx : State}
    (hn : execChDskWrite m ch v s = .next nx) : Keeps execChDskWrite_w s nx := Keeps.ofNext (State.swWrite_keeps ..) hn

def execNext_w : Nat := State.wordRow_w
theorem execNext_keeps {k : Fin 64} {s : State} {nx : State}
    (hn : execNext k s = .next nx) : Keeps execNext_w s nx := Keeps.ofNext (State.wordRow_keeps ..) hn

def execJump_w : Nat := State.wordRow_w
theorem execJump_keeps {k : Fin 64} {s : State} {nx : State}
    (hn : execJump k s = .next nx) : Keeps execJump_w s nx := Keeps.ofNext (State.wordRow_keeps ..) hn

def execCall_w : Nat := State.wordRow_w
theorem execCall_keeps {k : Fin 64} {s : State} {nx : State}
    (hn : execCall k s = .next nx) : Keeps execCall_w s nx := Keeps.ofNext (State.wordRow_keeps ..) hn

def execRet_w : Nat := State.wordRow_w
theorem execRet_keeps {k : Fin 64} {s : State} {nx : State}
    (hn : execRet k s = .next nx) : Keeps execRet_w s nx := Keeps.ofNext (State.wordRow_keeps ..) hn

def execBrt_w : Nat := State.wordRow_w
theorem execBrt_keeps {k : Fin 64} {s : State} {nx : State}
    (hn : execBrt k s = .next nx) : Keeps execBrt_w s nx := Keeps.ofNext (State.wordRow_keeps ..) hn

def execBrf_w : Nat := State.wordRow_w
theorem execBrf_keeps {k : Fin 64} {s : State} {nx : State}
    (hn : execBrf k s = .next nx) : Keeps execBrf_w s nx := Keeps.ofNext (State.wordRow_keeps ..) hn

def execLoop_w : Nat := State.wordRow_w
theorem execLoop_keeps {k : Fin 64} {s : State} {nx : State}
    (hn : execLoop k s = .next nx) : Keeps execLoop_w s nx := Keeps.ofNext (State.wordRow_keeps ..) hn

def execWaitev_w : Nat := State.wordRow_w
theorem execWaitev_keeps {k : Fin 64} {s : State} {nx : State}
    (hn : execWaitev k s = .next nx) : Keeps execWaitev_w s nx := Keeps.ofNext (State.wordRow_keeps ..) hn

def execDispatch_w : Nat := State.wordRow_w
theorem execDispatch_keeps {k : Fin 64} {s : State} {nx : State}
    (hn : execDispatch k s = .next nx) : Keeps execDispatch_w s nx := Keeps.ofNext (State.wordRow_keeps ..) hn

def execYield_w : Nat := State.wordRow_w
theorem execYield_keeps {k : Fin 64} {s : State} {nx : State}
    (hn : execYield k s = .next nx) : Keeps execYield_w s nx := Keeps.ofNext (State.wordRow_keeps ..) hn

def execTrap_w : Nat := State.wordRow_w
theorem execTrap_keeps {k : Fin 64} {s : State} {nx : State}
    (hn : execTrap k s = .next nx) : Keeps execTrap_w s nx := Keeps.ofNext (State.wordRow_keeps ..) hn

def execMret_w : Nat := State.wordRow_w
theorem execMret_keeps {k : Fin 64} {s : State} {nx : State}
    (hn : execMret k s = .next nx) : Keeps execMret_w s nx := Keeps.ofNext (State.wordRow_keeps ..) hn

def execHalt_w : Nat := State.wordRow_w
theorem execHalt_keeps {k : Fin 64} {s : State} {nx : State}
    (hn : execHalt k s = .next nx) : Keeps execHalt_w s nx := Keeps.ofNext (State.wordRow_keeps ..) hn

def execWaitevEnd_w : Nat := State.waitevOver_w
theorem execWaitevEnd_keeps {k : Fin 64} {s : State} {nx : State}
    (hn : execWaitevEnd k s = .next nx) : Keeps execWaitevEnd_w s nx := Keeps.ofNext (State.waitevOver_keeps ..) hn

def execParityError_w : Nat := State.parityError_w
theorem execParityError_keeps {k : Fin 64} {s : State} {nx : State}
    (hn : execParityError k s = .next nx) : Keeps execParityError_w s nx := Keeps.ofNext (State.parityError_keeps ..) hn

def execTrapEntry_w : Nat := State.trapEntry_w
theorem execTrapEntry_keeps {k : Fin 64} {s : State} {nx : State}
    (hn : execTrapEntry k s = .next nx) : Keeps execTrapEntry_w s nx := Keeps.ofNext (State.trapEntry_keeps ..) hn

def execAbortTimeout_w : Nat := State.abortTimeout_w
theorem execAbortTimeout_keeps {k : Fin 64} {s : State} {nx : State}
    (hn : execAbortTimeout k s = .next nx) : Keeps execAbortTimeout_w s nx := Keeps.ofNext (State.abortTimeout_keeps ..) hn

def execEngineEntry_w : Nat := State.engineEntry_w
theorem execEngineEntry_keeps {k : Fin 64} {s : State} {nx : State}
    (hn : execEngineEntry k s = .next nx) : Keeps execEngineEntry_w s nx := Keeps.ofNext (State.engineEntry_keeps ..) hn

def execEngGo_w : Nat := State.swWrite_w
theorem execEngGo_keeps {m : Master} {k : Fin 64} {v : Nat} {s : State} {nx : State}
    (hn : execEngGo m k v s = .next nx) : Keeps execEngGo_w s nx := Keeps.ofNext (State.swWrite_keeps ..) hn

def execEngStop_w : Nat := State.swWrite_w
theorem execEngStop_keeps {m : Master} {k : Fin 64} {v : Nat} {s : State} {nx : State}
    (hn : execEngStop m k v s = .next nx) : Keeps execEngStop_w s nx := Keeps.ofNext (State.swWrite_keeps ..) hn

def execEngStep_w : Nat := State.swWrite_w
theorem execEngStep_keeps {m : Master} {k : Fin 64} {v : Nat} {s : State} {nx : State}
    (hn : execEngStep m k v s = .next nx) : Keeps execEngStep_w s nx := Keeps.ofNext (State.swWrite_keeps ..) hn

def execControlStoreWrite_w : Nat := State.busWrite_w ||| answered_w
theorem execControlStoreWrite_keeps {m : Master} {k : Fin 64} {w : Fin 4096} {part : Fin 4} {v : Nat} {s : State} {nx : State}
    (hn : execControlStoreWrite m k w part v s = .next nx) : Keeps execControlStoreWrite_w s nx := by
  unfold execControlStoreWrite at hn
  refine Keeps.ofNext ?_ hn
  repeat' first
    | with_reducible assumption
    | with_reducible exact Keeps.refl _ _
    | decide +kernel
    | with_reducible apply Keeps.via (State.busWrite_keeps ..)
    | with_reducible apply answered_keeps

end Sys2Proof.Machine
end

