-- ==== Sys2Proof/Laws/Commands.lean ====
section
/-!
SUPPORT. What any command can change: every meaning lies inside a mask, so every command leaves the waiting
commands alone and keeps the canonical form.
-/

set_option Elab.async false
set_option linter.all false

namespace Sys2Proof.Machine

/-- A command leaves the waiting commands alone and keeps the canonical form. -/
theorem exec_keeps {i : Instr} {s nx : State} (hn : exec i s = .next nx) : Keeps m_all s nx := by
  cases i with
  | pin => exact (execPin_keeps hn).mono (by decide +kernel)
  | clkfail => exact (execClkfail_keeps hn).mono (by decide +kernel)
  | rstSoft => exact (execRstSoft_keeps hn).mono (by decide +kernel)
  | wdogStart => exact (execWdogStart_keeps hn).mono (by decide +kernel)
  | rstWdogKick => exact (execRstWdogKick_keeps hn).mono (by decide +kernel)
  | standbyEntry => exact (execStandbyEntry_keeps hn).mono (by decide +kernel)
  | contactCheckDone => exact (execContactCheckDone_keeps hn).mono (by decide +kernel)
  | contactCtlStart => exact (execContactCtlStart_keeps hn).mono (by decide +kernel)
  | mode => exact (execMode_keeps hn).mono (by decide +kernel)
  | wake => exact (execWake_keeps hn).mono (by decide +kernel)
  | chimneySample => exact (execChimneySample_keeps hn).mono (by decide +kernel)
  | lanePresetUpdate => exact (execLanePresetUpdate_keeps hn).mono (by decide +kernel)
  | deferredStartRelease => exact (execDeferredStartRelease_keeps hn).mono (by decide +kernel)
  | startTimeout => exact (execStartTimeout_keeps hn).mono (by decide +kernel)
  | vectorBoundary => exact (execVectorBoundary_keeps hn).mono (by decide +kernel)
  | stallLimitExpiry => exact (execStallLimitExpiry_keeps hn).mono (by decide +kernel)
  | lineDecodeDone => exact (execLineDecodeDone_keeps hn).mono (by decide +kernel)
  | panInval => exact (execPanInval_keeps hn).mono (by decide +kernel)
  | panCounterRead => exact (execPanCounterRead_keeps hn).mono (by decide +kernel)
  | jumpReqWrite => exact (execJumpReqWrite_keeps hn).mono (by decide +kernel)
  | jumpReqCancel => exact (execJumpReqCancel_keeps hn).mono (by decide +kernel)
  | smuWaveSample => exact (execSmuWaveSample_keeps hn).mono (by decide +kernel)
  | timedStart => exact (execTimedStart_keeps hn).mono (by decide +kernel)
  | tilePhaseMeasure => exact (execTilePhaseMeasure_keeps hn).mono (by decide +kernel)
  | chipOffsetWrite => exact (execChipOffsetWrite_keeps hn).mono (by decide +kernel)
  | trigFire => exact (execTrigFire_keeps hn).mono (by decide +kernel)
  | trigEmit => exact (execTrigEmit_keeps hn).mono (by decide +kernel)
  | trigArrival => exact (execTrigArrival_keeps hn).mono (by decide +kernel)
  | trigAction => exact (execTrigAction_keeps hn).mono (by decide +kernel)
  | trigAccEnable => exact (execTrigAccEnable_keeps hn).mono (by decide +kernel)
  | timingSetWrite => exact (execTimingSetWrite_keeps hn).mono (by decide +kernel)
  | chDskWrite => exact (execChDskWrite_keeps hn).mono (by decide +kernel)
  | chCtrlWrite => exact (execChCtrlWrite_keeps hn).mono (by decide +kernel)
  | levelWrite => exact (execLevelWrite_keeps hn).mono (by decide +kernel)
  | levelSettled => exact (execLevelSettled_keeps hn).mono (by decide +kernel)
  | pmuCtrlWrite => exact (execPmuCtrlWrite_keeps hn).mono (by decide +kernel)
  | pmuConnectDone => exact (execPmuConnectDone_keeps hn).mono (by decide +kernel)
  | pmuRangeDone => exact (execPmuRangeDone_keeps hn).mono (by decide +kernel)
  | pmuMeas => exact (execPmuMeas_keeps hn).mono (by decide +kernel)
  | pmuMeasDone => exact (execPmuMeasDone_keeps hn).mono (by decide +kernel)
  | monitorCrossing => exact (execMonitorCrossing_keeps hn).mono (by decide +kernel)
  | monLatchClear => exact (execMonLatchClear_keeps hn).mono (by decide +kernel)
  | monPeriodBoundary => exact (execMonPeriodBoundary_keeps hn).mono (by decide +kernel)
  | monCtrlWrite => exact (execMonCtrlWrite_keeps hn).mono (by decide +kernel)
  | monThresholdWrite => exact (execMonThresholdWrite_keeps hn).mono (by decide +kernel)
  | thresholdSettled => exact (execThresholdSettled_keeps hn).mono (by decide +kernel)
  | dpsCtrlWrite => exact (execDpsCtrlWrite_keeps hn).mono (by decide +kernel)
  | vsetWrite => exact (execVsetWrite_keeps hn).mono (by decide +kernel)
  | rampEnd => exact (execRampEnd_keeps hn).mono (by decide +kernel)
  | dpsSettled => exact (execDpsSettled_keeps hn).mono (by decide +kernel)
  | regLoss => exact (execRegLoss_keeps hn).mono (by decide +kernel)
  | senseDrop => exact (execSenseDrop_keeps hn).mono (by decide +kernel)
  | share => exact (execShare_keeps hn).mono (by decide +kernel)
  | dpsRangeDone => exact (execDpsRangeDone_keeps hn).mono (by decide +kernel)
  | monitorSample => exact (execMonitorSample_keeps hn).mono (by decide +kernel)
  | dpsMeas => exact (execDpsMeas_keeps hn).mono (by decide +kernel)
  | smuMeas => exact (execSmuMeas_keeps hn).mono (by decide +kernel)
  | measurementDone => exact (execMeasurementDone_keeps hn).mono (by decide +kernel)
  | smuCtrlWrite => exact (execSmuCtrlWrite_keeps hn).mono (by decide +kernel)
  | smuRangeDone => exact (execSmuRangeDone_keeps hn).mono (by decide +kernel)
  | sineFreqWrite => exact (execSineFreqWrite_keeps hn).mono (by decide +kernel)
  | supervisionMismatch => exact (execSupervisionMismatch_keeps hn).mono (by decide +kernel)
  | mismatchClear => exact (execMismatchClear_keeps hn).mono (by decide +kernel)
  | tdcCtrlArm => exact (execTdcCtrlArm_keeps hn).mono (by decide +kernel)
  | tdcCtrlDisarm => exact (execTdcCtrlDisarm_keeps hn).mono (by decide +kernel)
  | tdcOpen => exact (execTdcOpen_keeps hn).mono (by decide +kernel)
  | tdcEvent => exact (execTdcEvent_keeps hn).mono (by decide +kernel)
  | pairTimeout => exact (execPairTimeout_keeps hn).mono (by decide +kernel)
  | tdcSpill => exact (execTdcSpill_keeps hn).mono (by decide +kernel)
  | ringRecheck => exact (execRingRecheck_keeps hn).mono (by decide +kernel)
  | acqCtrlArm => exact (execAcqCtrlArm_keeps hn).mono (by decide +kernel)
  | acqCtrlForce => exact (execAcqCtrlForce_keeps hn).mono (by decide +kernel)
  | acqCtrlCancel => exact (execAcqCtrlCancel_keeps hn).mono (by decide +kernel)
  | acqSample => exact (execAcqSample_keeps hn).mono (by decide +kernel)
  | acqComplete => exact (execAcqComplete_keeps hn).mono (by decide +kernel)
  | failCompress => exact (execFailCompress_keeps hn).mono (by decide +kernel)
  | captureReduce => exact (execCaptureReduce_keeps hn).mono (by decide +kernel)
  | resultPack => exact (execResultPack_keeps hn).mono (by decide +kernel)
  | dequePushRetry => exact (execDequePushRetry_keeps hn).mono (by decide +kernel)
  | hearthTaskTakeover => exact (execHearthTaskTakeover_keeps hn).mono (by decide +kernel)
  | start => exact (execStart_keeps hn).mono (by decide +kernel)
  | pause => exact (execPause_keeps hn).mono (by decide +kernel)
  | resume => exact (execResume_keeps hn).mono (by decide +kernel)
  | retest => exact (execRetest_keeps hn).mono (by decide +kernel)
  | abort => exact (execAbort_keeps hn).mono (by decide +kernel)
  | siteFinish => exact (execSiteFinish_keeps hn).mono (by decide +kernel)
  | siteBind => exact (execSiteBind_keeps hn).mono (by decide +kernel)
  | siteUnbind => exact (execSiteUnbind_keeps hn).mono (by decide +kernel)
  | startChain => exact (execStartChain_keeps hn).mono (by decide +kernel)
  | pinJump => exact (execPinJump_keeps hn).mono (by decide +kernel)
  | pinCancel => exact (execPinCancel_keeps hn).mono (by decide +kernel)
  | tset => exact (execTset_keeps hn).mono (by decide +kernel)
  | bank => exact (execBank_keeps hn).mono (by decide +kernel)
  | cmask => exact (execCmask_keeps hn).mono (by decide +kernel)
  | drv => exact (execDrv_keeps hn).mono (by decide +kernel)
  | trig => exact (execTrig_keeps hn).mono (by decide +kernel)
  | clrfail => exact (execClrfail_keeps hn).mono (by decide +kernel)
  | level => exact (execLevel_keeps hn).mono (by decide +kernel)
  | term => exact (execTerm_keeps hn).mono (by decide +kernel)
  | dpsSet => exact (execDpsSet_keeps hn).mono (by decide +kernel)
  | dpsIlim => exact (execDpsIlim_keeps hn).mono (by decide +kernel)
  | dpsEn => exact (execDpsEn_keeps hn).mono (by decide +kernel)
  | dpsRamp => exact (execDpsRamp_keeps hn).mono (by decide +kernel)
  | smuSet => exact (execSmuSet_keeps hn).mono (by decide +kernel)
  | smuClamp => exact (execSmuClamp_keeps hn).mono (by decide +kernel)
  | smuRange => exact (execSmuRange_keeps hn).mono (by decide +kernel)
  | smuEn => exact (execSmuEn_keeps hn).mono (by decide +kernel)
  | smuWave => exact (execSmuWave_keeps hn).mono (by decide +kernel)
  | smuStop => exact (execSmuStop_keeps hn).mono (by decide +kernel)
  | pmuCfg => exact (execPmuCfg_keeps hn).mono (by decide +kernel)
  | pmuForce => exact (execPmuForce_keeps hn).mono (by decide +kernel)
  | tdcArm => exact (execTdcArm_keeps hn).mono (by decide +kernel)
  | tdcStop => exact (execTdcStop_keeps hn).mono (by decide +kernel)
  | acqArm => exact (execAcqArm_keeps hn).mono (by decide +kernel)
  | acqForce => exact (execAcqForce_keeps hn).mono (by decide +kernel)
  | wait => exact (execWait_keeps hn).mono (by decide +kernel)
  | settle => exact (execSettle_keeps hn).mono (by decide +kernel)
  | measure => exact (execMeasure_keeps hn).mono (by decide +kernel)
  | read => exact (execRead_keeps hn).mono (by decide +kernel)
  | longOperationEnd => exact (execLongOperationEnd_keeps hn).mono (by decide +kernel)
  | commandRefused => exact (execCommandRefused_keeps hn).mono (by decide +kernel)
  | next => exact (execNext_keeps hn).mono (by decide +kernel)
  | jump => exact (execJump_keeps hn).mono (by decide +kernel)
  | call => exact (execCall_keeps hn).mono (by decide +kernel)
  | ret => exact (execRet_keeps hn).mono (by decide +kernel)
  | brt => exact (execBrt_keeps hn).mono (by decide +kernel)
  | brf => exact (execBrf_keeps hn).mono (by decide +kernel)
  | loop => exact (execLoop_keeps hn).mono (by decide +kernel)
  | waitev => exact (execWaitev_keeps hn).mono (by decide +kernel)
  | waitevEnd => exact (execWaitevEnd_keeps hn).mono (by decide +kernel)
  | dispatch => exact (execDispatch_keeps hn).mono (by decide +kernel)
  | yield => exact (execYield_keeps hn).mono (by decide +kernel)
  | trap => exact (execTrap_keeps hn).mono (by decide +kernel)
  | mret => exact (execMret_keeps hn).mono (by decide +kernel)
  | halt => exact (execHalt_keeps hn).mono (by decide +kernel)
  | parityError => exact (execParityError_keeps hn).mono (by decide +kernel)
  | trapEntry => exact (execTrapEntry_keeps hn).mono (by decide +kernel)
  | abortTimeout => exact (execAbortTimeout_keeps hn).mono (by decide +kernel)
  | engineEntry => exact (execEngineEntry_keeps hn).mono (by decide +kernel)
  | ld => exact (execLd_keeps hn).mono (by decide +kernel)
  | st => exact (execSt_keeps hn).mono (by decide +kernel)
  | ldp => exact (execLdp_keeps hn).mono (by decide +kernel)
  | stp => exact (execStp_keeps hn).mono (by decide +kernel)
  | loadComplete => exact (execLoadComplete_keeps hn).mono (by decide +kernel)
  | memoryError => exact (execMemoryError_keeps hn).mono (by decide +kernel)
  | sem => exact (execSem_keeps hn).mono (by decide +kernel)
  | semrel => exact (execSemrel_keeps hn).mono (by decide +kernel)
  | record => exact (execRecord_keeps hn).mono (by decide +kernel)
  | cmd => exact (execCmd_keeps hn).mono (by decide +kernel)
  | cmdReply => exact (execCmdReply_keeps hn).mono (by decide +kernel)
  | fld => exact (execFld_keeps hn).mono (by decide +kernel)
  | fst => exact (execFst_keeps hn).mono (by decide +kernel)
  | pusht => exact (execPusht_keeps hn).mono (by decide +kernel)
  | engGo => exact (execEngGo_keeps hn).mono (by decide +kernel)
  | engStop => exact (execEngStop_keeps hn).mono (by decide +kernel)
  | engStep => exact (execEngStep_keeps hn).mono (by decide +kernel)
  | controlStoreWrite => exact (execControlStoreWrite_keeps hn).mono (by decide +kernel)
  | semAcqRead => exact (execSemAcqRead_keeps hn).mono (by decide +kernel)
  | semAcqWrite => exact (execSemAcqWrite_keeps hn).mono (by decide +kernel)
  | semForce => exact (execSemForce_keeps hn).mono (by decide +kernel)
  | bitSetAliasWrite => exact (execBitSetAliasWrite_keeps hn).mono (by decide +kernel)
  | bitClearAliasWrite => exact (execBitClearAliasWrite_keeps hn).mono (by decide +kernel)
  | secWipe => exact (execSecWipe_keeps hn).mono (by decide +kernel)
  | tamper => exact (execTamper_keeps hn).mono (by decide +kernel)
  | scrubRead => exact (execScrubRead_keeps hn).mono (by decide +kernel)
  | calibrate => exact (execCalibrate_keeps hn).mono (by decide +kernel)
  | calStop => exact (execCalStop_keeps hn).mono (by decide +kernel)
  | calFlowDone => exact (execCalFlowDone_keeps hn).mono (by decide +kernel)
  | correctionApply => exact (execCorrectionApply_keeps hn).mono (by decide +kernel)
  | calLoad => exact (execCalLoad_keeps hn).mono (by decide +kernel)
  | patLoad => exact (execPatLoad_keeps hn).mono (by decide +kernel)
  | segLoad => exact (execSegLoad_keeps hn).mono (by decide +kernel)
  | csLoad => exact (execCsLoad_keeps hn).mono (by decide +kernel)
  | status => exact (execStatus_keeps hn).mono (by decide +kernel)
  | regRd => exact (execRegRd_keeps hn).mono (by decide +kernel)
  | regWr => exact (execRegWr_keeps hn).mono (by decide +kernel)
  | blkRd => exact (execBlkRd_keeps hn).mono (by decide +kernel)
  | blkWr => exact (execBlkWr_keeps hn).mono (by decide +kernel)
  | flashWr => exact (execFlashWr_keeps hn).mono (by decide +kernel)
  | flashErase => exact (execFlashErase_keeps hn).mono (by decide +kernel)
  | hostJump => exact (execHostJump_keeps hn).mono (by decide +kernel)
  | softReset => exact (execSoftReset_keeps hn).mono (by decide +kernel)
  | bootClear => exact (execBootClear_keeps hn).mono (by decide +kernel)
  | prepareRemove => exact (execPrepareRemove_keeps hn).mono (by decide +kernel)
  | mbxPost => exact (execMbxPost_keeps hn).mono (by decide +kernel)
  | mbxRead => exact (execMbxRead_keeps hn).mono (by decide +kernel)
  | doorbell => exact (execDoorbell_keeps hn).mono (by decide +kernel)
  | mbxReset => exact (execMbxReset_keeps hn).mono (by decide +kernel)
  | reservedOpcode => exact (execReservedOpcode_keeps hn).mono (by decide +kernel)
  | injectFault => exact (execInjectFault_keeps hn).mono (by decide +kernel)
  | injectInterrupt => exact (execInjectInterrupt_keeps hn).mono (by decide +kernel)
  | injectSensorReading => exact (execInjectSensorReading_keeps hn).mono (by decide +kernel)
  | injectSensorBroken => exact (execInjectSensorBroken_keeps hn).mono (by decide +kernel)
  | forcedReadingExpiry => exact (execForcedReadingExpiry_keeps hn).mono (by decide +kernel)
  | fuseRead => exact (execFuseRead_keeps hn).mono (by decide +kernel)
  | fuseOr => exact (execFuseOr_keeps hn).mono (by decide +kernel)
  | versionRead => exact (execVersionRead_keeps hn).mono (by decide +kernel)
  | mbxHostRx => exact (execMbxHostRx_keeps hn).mono (by decide +kernel)
  | mbxHostTx => exact (execMbxHostTx_keeps hn).mono (by decide +kernel)
  | mbxHostDb => exact (execMbxHostDb_keeps hn).mono (by decide +kernel)
  | mbxEngTx => exact (execMbxEngTx_keeps hn).mono (by decide +kernel)
  | mbxEngRx => exact (execMbxEngRx_keeps hn).mono (by decide +kernel)
  | mbxEngDb => exact (execMbxEngDb_keeps hn).mono (by decide +kernel)
  | cspStart => exact (execCspStart_keeps hn).mono (by decide +kernel)
  | cspAbort => exact (execCspAbort_keeps hn).mono (by decide +kernel)
  | cspEnWrite => exact (execCspEnWrite_keeps hn).mono (by decide +kernel)
  | cspTransferDone => exact (execCspTransferDone_keeps hn).mono (by decide +kernel)
  | selectLost => exact (execSelectLost_keeps hn).mono (by decide +kernel)
  | faultRaise => exact (execFaultRaise_keeps hn).mono (by decide +kernel)
  | fltAck => exact (execFltAck_keeps hn).mono (by decide +kernel)
  | fltInj => exact (execFltInj_keeps hn).mono (by decide +kernel)
  | irqSwset => exact (execIrqSwset_keeps hn).mono (by decide +kernel)
  | secRbCommit => exact (execSecRbCommit_keeps hn).mono (by decide +kernel)
  | secLcReq => exact (execSecLcReq_keeps hn).mono (by decide +kernel)
  | secProvCmd => exact (execSecProvCmd_keeps hn).mono (by decide +kernel)
  | fuseProgramDone => exact (execFuseProgramDone_keeps hn).mono (by decide +kernel)
  | debugUnlock => exact (execDebugUnlock_keeps hn).mono (by decide +kernel)
  | linkBlockReceive => exact (execLinkBlockReceive_keeps hn).mono (by decide +kernel)
  | flitReceive => exact (execFlitReceive_keeps hn).mono (by decide +kernel)
  | retryReq => exact (execRetryReq_keeps hn).mono (by decide +kernel)
  | retryReqResend => exact (execRetryReqResend_keeps hn).mono (by decide +kernel)
  | partnerDetect => exact (execPartnerDetect_keeps hn).mono (by decide +kernel)
  | linkInfo => exact (execLinkInfo_keeps hn).mono (by decide +kernel)
  | trainingStepDone => exact (execTrainingStepDone_keeps hn).mono (by decide +kernel)
  | linkUp => exact (execLinkUp_keeps hn).mono (by decide +kernel)
  | retrain => exact (execRetrain_keeps hn).mono (by decide +kernel)
  | linkDown => exact (execLinkDown_keeps hn).mono (by decide +kernel)
  | downExpiry => exact (execDownExpiry_keeps hn).mono (by decide +kernel)
  | porchEnWrite => exact (execPorchEnWrite_keeps hn).mono (by decide +kernel)
  | quietReq => exact (execQuietReq_keeps hn).mono (by decide +kernel)
  | quietAck => exact (execQuietAck_keeps hn).mono (by decide +kernel)
  | quietExit => exact (execQuietExit_keeps hn).mono (by decide +kernel)
  | deepReq => exact (execDeepReq_keeps hn).mono (by decide +kernel)
  | deepAck => exact (execDeepAck_keeps hn).mono (by decide +kernel)
  | deepWake => exact (execDeepWake_keeps hn).mono (by decide +kernel)
  | wakeTimeout => exact (execWakeTimeout_keeps hn).mono (by decide +kernel)
  | leave => exact (execLeave_keeps hn).mono (by decide +kernel)
  | discover => exact (execDiscover_keeps hn).mono (by decide +kernel)
  | assign => exact (execAssign_keeps hn).mono (by decide +kernel)
  | routeSet => exact (execRouteSet_keeps hn).mono (by decide +kernel)
  | regWrite => exact (execRegWrite_keeps hn).mono (by decide +kernel)
  | thresholdArming => exact (execThresholdArming_keeps hn).mono (by decide +kernel)
  | currentLimit => exact (execCurrentLimit_keeps hn).mono (by decide +kernel)
  | smuCompliance => exact (execSmuCompliance_keeps hn).mono (by decide +kernel)
  | flashOperationDone => exact (execFlashOperationDone_keeps hn).mono (by decide +kernel)
  | leaveWaitExpiry => exact (execLeaveWaitExpiry_keeps hn).mono (by decide +kernel)
  | sineGeneratorStep => exact (execSineGeneratorStep_keeps hn).mono (by decide +kernel)
  | refreshRateReport => exact (execRefreshRateReport_keeps hn).mono (by decide +kernel)
  | commandAcknowledge => exact (execCommandAcknowledge_keeps hn).mono (by decide +kernel)
  | por => exact (execPor_keeps hn).mono (by decide +kernel)
  | bor => exact (execBor_keeps hn).mono (by decide +kernel)
  | porRelease => exact (execPorRelease_keeps hn).mono (by decide +kernel)
  | wdog => exact (execWdog_keeps hn).mono (by decide +kernel)
  | wdogHalf => exact (execWdogHalf_keeps hn).mono (by decide +kernel)
  | soft => exact (execSoft_keeps hn).mono (by decide +kernel)
  | debugReset => exact (execDebugReset_keeps hn).mono (by decide +kernel)
  | lockup => exact (execLockup_keeps hn).mono (by decide +kernel)
  | laneRef => exact (execLaneRef_keeps hn).mono (by decide +kernel)
  | safeStateSequence => exact (execSafeStateSequence_keeps hn).mono (by decide +kernel)
  | bringup => exact (execBringup_keeps hn).mono (by decide +kernel)
  | refDetect => exact (execRefDetect_keeps hn).mono (by decide +kernel)
  | bootTimerExpiry => exact (execBootTimerExpiry_keeps hn).mono (by decide +kernel)
  | thermalLogRetry => exact (execThermalLogRetry_keeps hn).mono (by decide +kernel)
  | warmHoldExpiry => exact (execWarmHoldExpiry_keeps hn).mono (by decide +kernel)
  | modeTransitionDone => exact (execModeTransitionDone_keeps hn).mono (by decide +kernel)
  | pantryLineGrant => exact (execPantryLineGrant_keeps hn).mono (by decide +kernel)
  | lineDecodeStart => exact (execLineDecodeStart_keeps hn).mono (by decide +kernel)
  | invalidationDone => exact (execInvalidationDone_keeps hn).mono (by decide +kernel)
  | syncEvent => exact (execSyncEvent_keeps hn).mono (by decide +kernel)
  | timebaseWrap => exact (execTimebaseWrap_keeps hn).mono (by decide +kernel)
  | stealDisable => exact (execStealDisable_keeps hn).mono (by decide +kernel)
  | wipeDone => exact (execWipeDone_keeps hn).mono (by decide +kernel)
  | eventSend => exact (execEventSend_keeps hn).mono (by decide +kernel)
  | faultEscalation => exact (execFaultEscalation_keeps hn).mono (by decide +kernel)
  | debugUnlockDone => exact (execDebugUnlockDone_keeps hn).mono (by decide +kernel)

end Sys2Proof.Machine
end

