-- ==== Sys2Proof/Laws/Frames.lean ====
section
/-!
SUPPORT. Frames from masks: an operation whose mask lies in the fields and the parts listed leaves the rest alone.
-/

set_option Elab.async false
set_option linter.all false

namespace Sys2Proof.Machine

/-- The mask of a part. -/
def Part.mask : Part → Nat
  | .now => m_now
  | .free => m_free
  | .snaps => m_snaps
  | .lastResp => m_lastResp
  | .scratch => m_scratch
  | .cellar => m_cellar
  | .celErr => m_celErr
  | .flash => m_flash
  | .fltLog => m_fltLog
  | .corr => m_corr
  | .fuses => m_fuses
  | .cstore => m_cstore
  | .csBodies => m_csBodies
  | .entries => m_entries
  | .heldEntries => m_heldEntries
  | .pendW => m_pendW
  | .ports => m_ports
  | .waveBuf => m_waveBuf
  | .evicted => m_evicted
  | .lines => m_lines
  | .reqs => m_reqs
  | .jobs => m_jobs
  | .inval => m_inval
  | .cmdq => m_cmdq
  | .memq => m_memq
  | .refused => m_refused
  | .memErrs => m_memErrs
  | .evq => m_evq
  | .failq => m_failq
  | .events => m_events
  | .replies => m_replies
  | .accepted => m_accepted
  | .outq => m_outq
  | .replay => m_replay
  | .bcasts => m_bcasts
  | .asm => m_asm
  | .h2d => m_h2d
  | .d2h => m_d2h
  | .h2e => m_h2e
  | .e2h => m_e2h
  | .safe => m_safe
  | .trigActs => m_trigActs
  | .flows => m_flows
  | .corrPend => m_corrPend
  | .tdcq => m_tdcq
  | .flashOps => m_flashOps

/-- The mask of some parts. -/
def pms (l : List Part) : Nat := l.foldr (fun p a => p.mask ||| a) 0

theorem Off.or {m a b : Nat} (ha : Off m a) (hb : Off m b) : Off m (a ||| b) := by
  unfold Off at *
  rw [Nat.and_or_distrib_left, ha, hb]; rfl

theorem fm_off_mask (f : Field) (p : Part) : Off (fm f) p.mask := by
  have h : Off m_fields p.mask := by cases p <;> decide +kernel
  unfold Off at *
  rw [← fm_any f, Nat.and_assoc, h, Nat.and_zero]

theorem fm_off_pms (f : Field) (l : List Part) : Off (fm f) (pms l) := by
  induction l with
  | nil => exact Nat.and_zero _
  | cons p l ih => exact (fm_off_mask f p).or ih

theorem fm_off_fm {f g : Field} (h : f.id ≠ g.id) : Off (fm f) (fm g) := by
  apply Nat.eq_of_testBit_eq
  intro i
  simp only [fm, Nat.testBit_and, Nat.testBit_two_pow, Nat.zero_testBit, Bool.and_eq_false_iff, decide_eq_false_iff_not]
  by_cases e : f.id.val = i
  · exact .inr (fun e' => h (Fin.ext (e.trans e'.symm)))
  · exact .inl e

theorem fm_off_fms {f : Field} {l : List Field} (h : f.id ∉ l.map (fun g => g.id)) : Off (fm f) (fms l) := by
  induction l with
  | nil => exact Nat.and_zero _
  | cons g l ih =>
    simp only [List.map_cons, List.mem_cons, not_or] at h
    exact (fm_off_fm h.1).or (ih h.2)

theorem mask_off_mask {p q : Part} (h : p ≠ q) : Off p.mask q.mask := by
  have hq : ∀ p q : Part, p ≠ q → p.mask &&& q.mask = 0 := by
    intro p q h
    cases p <;> cases q <;> first | exact absurd rfl h | decide +kernel
  exact hq p q h

theorem mask_off_pms {p : Part} {l : List Part} (h : p ∉ l) : Off p.mask (pms l) := by
  induction l with
  | nil => exact Nat.and_zero _
  | cons q l ih =>
    simp only [List.mem_cons, not_or] at h
    exact (mask_off_mask h.1).or (ih h.2)

theorem mask_off_fms (p : Part) (l : List Field) : Off p.mask (fms l) := by
  induction l with
  | nil => exact Nat.and_zero _
  | cons f l ih => exact Off.or ((Nat.and_comm _ _).trans (fm_off_mask f p)) ih

/-- A part off the mask is as before. -/
theorem Keeps.part {w : Nat} {s t : State} (h : Keeps w s t) {p : Part} (o : Off p.mask w) : p.same s t := by
  cases p
  · exact h.now o
  · exact h.free o
  · exact h.snaps o
  · exact h.lastResp o
  · exact h.scratch o
  · exact h.cellar o
  · exact h.celErr o
  · exact h.flash o
  · exact h.fltLog o
  · exact h.corr o
  · exact h.fuses o
  · exact h.cstore o
  · exact h.csBodies o
  · exact h.entries o
  · exact h.heldEntries o
  · exact h.pendW o
  · exact h.ports o
  · exact h.waveBuf o
  · exact h.evicted o
  · exact h.lines o
  · exact h.reqs o
  · exact h.jobs o
  · exact h.inval o
  · exact h.cmdq o
  · exact h.memq o
  · exact h.refused o
  · exact h.memErrs o
  · exact h.evq o
  · exact h.failq o
  · exact h.events o
  · exact h.replies o
  · exact h.accepted o
  · exact h.outq o
  · exact h.replay o
  · exact h.bcasts o
  · exact h.asm o
  · exact h.h2d o
  · exact h.d2h o
  · exact h.h2e o
  · exact h.e2h o
  · exact h.safe o
  · exact h.trigActs o
  · exact h.flows o
  · exact h.corrPend o
  · exact h.tdcq o
  · exact h.flashOps o

/-- The frame of an operation whose mask lies in the fields and parts listed. -/
theorem Keeps.frame {w : Nat} {s t : State} {fs : List Field} {ps : List Part} (h : Keeps w s t)
    (hw : Sub w (fms fs ||| pms ps)) : Frame fs ps s t :=
  ⟨fun _ i hf => h.get _ i (((fm_off_fms hf).or (fm_off_pms _ _)).mono hw),
    fun _ hp => h.part (((mask_off_fms _ _).or (mask_off_pms hp)).mono hw), h.pending⟩

/-- The parts that an operation leaves alone, with nothing said of the fields. -/
theorem Keeps.frameParts {w : Nat} {s t : State} {ps : List Part} (h : Keeps w s t) (hw : Sub w (m_fields ||| pms ps)) :
    FrameParts ps s t :=
  ⟨fun p hp => h.part (((by cases p <;> decide +kernel : Off p.mask m_fields).or (mask_off_pms hp)).mono hw), h.pending⟩

/-! ## Frames of single instances -/

@[simp] theorem b2n_bne (b : Bool) : (b2n b != 0) = b := by cases b <;> rfl
@[simp] theorem b2n_true : b2n true = 1 := rfl
@[simp] theorem b2n_false : b2n false = 0 := rfl

theorem FieldsBut.refl (l : List (Field × Nat)) (s : State) : FieldsBut l s s := fun _ _ _ => rfl

theorem FieldsBut.put {l : List (Field × Nat)} {s t : State} {f : Field} {i v : Nat}
    (hm : fkey f i ∈ l.map (fun p => fkey p.1 p.2)) (h : FieldsBut l s t) : FieldsBut l s (t.put f i v) := by
  intro g j hg
  have hne : fkey g j ≠ fkey f i := fun e => hg (by rw [e]; exact hm)
  rw [State.get_put_ne t hne]
  exact h g j hg

/-- Only the field file counts. -/
theorem FieldsBut.congr {l : List (Field × Nat)} {s t u : State} (h : FieldsBut l s t) (e : u.ff = t.ff) : FieldsBut l s u :=
  fun g j hg => by
    have h1 := h g j hg
    unfold State.get at *
    rw [e]; exact h1

end Sys2Proof.Machine
end

