-- ==== Sys2Proof/Laws/Bus.lean ====
section
/-!
SUPPORT. Register accesses through the bus: where the bus takes an access, a register row is the register's own
action, and where it does not, only the answer changes.
-/

set_option Elab.async false
set_option linter.all false

namespace Sys2Proof.Machine

theorem regRegion_cases {s : State} {a : Nat} (h : regRegion a) :
    s.regionOf a = .system ∨ (∃ t, s.regionOf a = .tile t) ∨ ∃ k, s.regionOf a = .engine k := by
  unfold regRegion at h
  unfold State.regionOf
  rcases h with h | ⟨h1, h2, h3⟩ | ⟨h1, h2, h3⟩
  · exact .inl (if_pos h)
  · exact .inr (.inl ⟨_, by rw [if_neg (by omega), if_pos ⟨h1, h2⟩, if_pos h3]⟩)
  · exact .inr (.inr ⟨_, by rw [if_neg (by omega), if_neg (by omega), if_pos ⟨h1, h2⟩, if_pos h3]⟩)

theorem busWrite_reg {s : State} {m : Master} {r : RegName} {i v : Nat} (ho : RegOk r i) (ht : s.tapBarred m = false) :
    s.busWrite m (addrOf r i) v = s.blockWrite m (addrOf r i) (v % 2 ^ 32) := by
  obtain ⟨h4, _, hr⟩ := ho
  have hc : ¬(addrOf r i % 4 ≠ 0 ∨ s.tapBarred m = true) := by simp [h4, ht]
  unfold State.busWrite
  rw [if_neg hc]
  rcases regRegion_cases (s := s) hr with h | ⟨t, h⟩ | ⟨k, h⟩ <;> rw [h]

theorem busRead_reg {s : State} {m : Master} {r : RegName} {i : Nat} (ho : RegOk r i) (ht : s.tapBarred m = false) :
    s.busRead m (addrOf r i) = s.blockRead m (addrOf r i) := by
  obtain ⟨h4, _, hr⟩ := ho
  have hc : ¬(addrOf r i % 4 ≠ 0 ∨ s.tapBarred m = true) := by simp [h4, ht]
  unfold State.busRead
  rw [if_neg hc]
  rcases regRegion_cases (s := s) hr with h | ⟨t, h⟩ | ⟨k, h⟩ <;> rw [h]

/-- A register row that the bus takes is the register's own action. -/
theorem swWrite_taken {s : State} {m : Master} {r : RegName} {i v : Nat} (ho : RegOk r i) (h : BusTakes s m r i) :
    s.swWrite m r i v = answered (s.regWrite m r i (v % 2 ^ 32)) := by
  rw [State.swWrite, busWrite_reg ho h.1]
  simp only [State.blockWrite, h.2.1, h.2.2, ho.2.1, Bool.not_true, Bool.false_eq_true, if_false]

/-- A register read that the bus takes. -/
theorem swRead_taken {s : State} {m : Master} {r : RegName} {i : Nat} (ho : RegOk r i) (h : BusTakes s m r i) :
    s.swRead m r i = answered (s.regRead m r i) := by
  rw [State.swRead, busRead_reg ho h.1]
  simp only [State.blockRead, h.2.1, h.2.2, ho.2.1, Bool.not_true, Bool.false_eq_true, if_false]

/-- A register row that the bus does not take changes nothing but the answer. -/
theorem swWrite_barred {s : State} {m : Master} {r : RegName} {i v : Nat} (ho : RegOk r i) (h : ¬ BusTakes s m r i) :
    ∃ x, s.swWrite m r i v = { s with lastResp := x } := by
  cases ht : s.tapBarred m with
  | true =>
    refine ⟨.error, ?_⟩
    simp [State.swWrite, State.busWrite, ht, answered, State.bad]
  | false =>
    rw [State.swWrite, busWrite_reg ho ht]
    unfold State.blockWrite
    by_cases hb : s.busOff = true
    · exact ⟨.error, by simp [hb, answered, State.bad]⟩
    · by_cases ha : s.addrOn (addrOf r i) = true
      · exact absurd ⟨ht, by simpa using hb, ha⟩ h
      · exact ⟨.done, by simp [hb, ha, answered, State.ok]⟩

/-- What a register row can change: what the register's own write changes, and the answer. -/
theorem swWrite_keeps {w : Nat} {s : State} {m : Master} {r : RegName} {i v : Nat} (ho : RegOk r i)
    (h : Keeps w s (s.regWrite m r i (v % 2 ^ 32)).1) : Keeps (w ||| m_lastResp) s (s.swWrite m r i v) := by
  by_cases ht : BusTakes s m r i
  · rw [swWrite_taken ho ht]
    exact answered_keeps (Sub.or_right _ _) (h.mono (Sub.or_left _ _))
  · obtain ⟨x, e⟩ := swWrite_barred (v := v) ho ht
    rw [e]
    exact Keeps.c_lastResp _ (Sub.or_right _ _)

/-- A register read that the bus does not take changes nothing but the answer. -/
theorem swRead_barred {s : State} {m : Master} {r : RegName} {i : Nat} (ho : RegOk r i) (h : ¬ BusTakes s m r i) :
    ∃ x, s.swRead m r i = { s with lastResp := x } := by
  cases ht : s.tapBarred m with
  | true =>
    refine ⟨.error, ?_⟩
    simp [State.swRead, State.busRead, ht, answered, State.bad]
  | false =>
    rw [State.swRead, busRead_reg ho ht]
    unfold State.blockRead
    by_cases hb : s.busOff = true
    · exact ⟨.error, by simp [hb, answered, State.bad]⟩
    · by_cases ha : s.addrOn (addrOf r i) = true
      · exact absurd ⟨ht, by simpa using hb, ha⟩ h
      · exact ⟨.value 0, by simp [hb, ha, answered]⟩

/-- What a register read row can change. -/
theorem swRead_keeps {w : Nat} {s : State} {m : Master} {r : RegName} {i : Nat} (ho : RegOk r i)
    (h : Keeps w s (s.regRead m r i).1) : Keeps (w ||| m_lastResp) s (s.swRead m r i) := by
  by_cases ht : BusTakes s m r i
  · rw [swRead_taken ho ht]
    exact answered_keeps (Sub.or_right _ _) (h.mono (Sub.or_left _ _))
  · obtain ⟨x, e⟩ := swRead_barred ho ht
    rw [e]
    exact Keeps.c_lastResp _ (Sub.or_right _ _)

/-! ## The registers of the rows -/

theorem regOk_RST_SOFT : RegOk .RST_SOFT 0 :=
  regOk_of rfl blockRST_ok (sl := ⟨4, [], .RST_SOFT⟩) (by decide +kernel) rfl (by decide +kernel) (by decide)
theorem regOk_RST_WDOG_CTL : RegOk .RST_WDOG_CTL 0 :=
  regOk_of rfl blockRST_ok (sl := ⟨0x20, [], .RST_WDOG_CTL⟩) (by decide +kernel) rfl (by decide +kernel) (by decide)
theorem regOk_RST_WDOG_KICK : RegOk .RST_WDOG_KICK 0 :=
  regOk_of rfl blockRST_ok (sl := ⟨0x24, [], .RST_WDOG_KICK⟩) (by decide +kernel) rfl (by decide +kernel) (by decide)
theorem regOk_CONTACT_CTL : RegOk .CONTACT_CTL 0 :=
  regOk_of rfl blockCFG_ok (sl := ⟨0x20, [], .CONTACT_CTL⟩) (by decide +kernel) rfl (by decide +kernel) (by decide)
theorem regOk_FLT_ACK : RegOk .FLT_ACK 0 :=
  regOk_of rfl blockFLT_ok (sl := ⟨0x14, [], .FLT_ACK⟩) (by decide +kernel) rfl (by decide +kernel) (by decide)
theorem regOk_FLT_INJ : RegOk .FLT_INJ 0 :=
  regOk_of rfl blockFLT_ok (sl := ⟨0x24, [], .FLT_INJ⟩) (by decide +kernel) rfl (by decide +kernel) (by decide)
theorem regOk_IRQ_SWSET : RegOk .IRQ_SWSET 0 :=
  regOk_of rfl blockIRQ_ok (sl := ⟨0x460, [], .IRQ_SWSET⟩) (by decide +kernel) rfl (by decide +kernel) (by decide)
theorem regOk_SEC_RB_COMMIT : RegOk .SEC_RB_COMMIT 0 :=
  regOk_of rfl blockSEC_ok (sl := ⟨0x10, [], .SEC_RB_COMMIT⟩) (by decide +kernel) rfl (by decide +kernel) (by decide)
theorem regOk_SEC_LC_REQ : RegOk .SEC_LC_REQ 0 :=
  regOk_of rfl blockSEC_ok (sl := ⟨0x14, [], .SEC_LC_REQ⟩) (by decide +kernel) rfl (by decide +kernel) (by decide)
theorem regOk_SEC_PROV_CMD : RegOk .SEC_PROV_CMD 0 :=
  regOk_of rfl blockSEC_ok (sl := ⟨0x18, [], .SEC_PROV_CMD⟩) (by decide +kernel) rfl (by decide +kernel) (by decide)
theorem regOk_SEC_DBG_CTRL : RegOk .SEC_DBG_CTRL 0 :=
  regOk_of rfl blockSEC_ok (sl := ⟨0xa4, [], .SEC_DBG_CTRL⟩) (by decide +kernel) rfl (by decide +kernel) (by decide)
theorem regOk_SEC_WIPE : RegOk .SEC_WIPE 0 :=
  regOk_of rfl blockSEC_ok (sl := ⟨0x1c, [], .SEC_WIPE⟩) (by decide +kernel) rfl (by decide +kernel) (by decide)
theorem regOk_CHIP_OFFSET : RegOk .CHIP_OFFSET 0 :=
  regOk_of rfl blockCLK_ok (sl := ⟨0x130, [], .CHIP_OFFSET⟩) (by decide +kernel) rfl (by decide +kernel) (by decide)
theorem regOk_SEM_FORCE : RegOk .SEM_FORCE 0 :=
  regOk_of rfl blockSEM_ok (sl := ⟨0x200, [], .SEM_FORCE⟩) (by decide +kernel) rfl (by decide +kernel) (by decide)
theorem regOk_PAN_INVAL : RegOk .PAN_INVAL 0 :=
  regOk_of rfl blockPAN_ok (sl := ⟨0x18, [], .PAN_INVAL⟩) (by decide +kernel) rfl (by decide +kernel) (by decide)
theorem regOk_PAN_UNDERRUN : RegOk .PAN_UNDERRUN 0 :=
  regOk_of rfl blockPAN_ok (sl := ⟨0xc, [], .PAN_UNDERRUN⟩) (by decide +kernel) rfl (by decide +kernel) (by decide)
theorem regOk_PAN_EVICT : RegOk .PAN_EVICT 0 :=
  regOk_of rfl blockPAN_ok (sl := ⟨0x14, [], .PAN_EVICT⟩) (by decide +kernel) rfl (by decide +kernel) (by decide)
theorem regOk_PAN_OVERBUDGET : RegOk .PAN_OVERBUDGET 0 :=
  regOk_of rfl blockPAN_ok (sl := ⟨0x1c, [], .PAN_OVERBUDGET⟩) (by decide +kernel) rfl (by decide +kernel) (by decide)
theorem regOk_PAN_DECODE_ERR : RegOk .PAN_DECODE_ERR 0 :=
  regOk_of rfl blockPAN_ok (sl := ⟨0x10, [], .PAN_DECODE_ERR⟩) (by decide +kernel) rfl (by decide +kernel) (by decide)
theorem regOk_CSP_CTRL {i : Nat} (h : i < 2) : RegOk .CSP_CTRL i :=
  regOk_of rfl blockCSP_ok (sl := ⟨8, [], .CSP_CTRL⟩) (by decide +kernel) rfl (by decide +kernel) h
theorem regOk_MBX_HOST_RX {i : Nat} (h : i < 4) : RegOk .MBX_HOST_RX i :=
  regOk_of rfl blockMBX_ok (sl := ⟨0, [⟨4, 0x20⟩], .MBX_HOST_RX⟩) (by decide +kernel) rfl (by decide +kernel) h
theorem regOk_MBX_HOST_TX {i : Nat} (h : i < 4) : RegOk .MBX_HOST_TX i :=
  regOk_of rfl blockMBX_ok (sl := ⟨8, [⟨4, 0x20⟩], .MBX_HOST_TX⟩) (by decide +kernel) rfl (by decide +kernel) h
theorem regOk_MBX_HOST_DB {i : Nat} (h : i < 4) : RegOk .MBX_HOST_DB i :=
  regOk_of rfl blockMBX_ok (sl := ⟨0x14, [⟨4, 0x20⟩], .MBX_HOST_DB⟩) (by decide +kernel) rfl (by decide +kernel) h
theorem regOk_PORCH_CTRL {i : Nat} (h : i < 8) : RegOk .PORCH_CTRL i :=
  regOk_of rfl blockFAB_ok (sl := ⟨0x100, [⟨8, 0x40⟩], .PORCH_CTRL⟩) (by decide +kernel) rfl (by decide +kernel) h
theorem regOk_TRIG_FIRE_LO {i : Nat} (h : i < 8) : RegOk .TRIG_FIRE_LO i :=
  regOk_of rfl blockCLK_ok (sl := ⟨0x208, [⟨8, 0x40⟩], .TRIG_FIRE_LO⟩) (by decide +kernel) rfl (by decide +kernel) h
theorem regOk_TRIG_ACC_CTRL {i : Nat} (h : i < 8) : RegOk .TRIG_ACC_CTRL i :=
  regOk_of rfl blockCLK_ok (sl := ⟨0x228, [⟨8, 0x40⟩], .TRIG_ACC_CTRL⟩) (by decide +kernel) rfl (by decide +kernel) h
theorem regOk_SMUW_JUMP_REQ {i : Nat} (h : i < 32) : RegOk .SMUW_JUMP_REQ i :=
  regOk_of rfl blockSEQ_ok (sl := ⟨0x3004, [⟨32, 0x10⟩], .SMUW_JUMP_REQ⟩) (by decide +kernel) rfl (by decide +kernel) h
theorem regOk_SMU_MEAS {i : Nat} (h : i < 32) : RegOk .SMU_MEAS i :=
  regOk_of rfl blockSMU_ok (sl := ⟨0x30, [], .SMU_MEAS⟩) (by decide +kernel) rfl (by decide +kernel) h
theorem regOk_SMU_CTRL {i : Nat} (h : i < 32) : RegOk .SMU_CTRL i :=
  regOk_of rfl blockSMU_ok (sl := ⟨0, [], .SMU_CTRL⟩) (by decide +kernel) rfl (by decide +kernel) h
theorem regOk_SMU_SINE_FREQ {i : Nat} (h : i < 32) : RegOk .SMU_SINE_FREQ i :=
  regOk_of rfl blockSMU_ok (sl := ⟨0x14, [], .SMU_SINE_FREQ⟩) (by decide +kernel) rfl (by decide +kernel) h
theorem regOk_SMU_STAT {i : Nat} (h : i < 32) : RegOk .SMU_STAT i :=
  regOk_of rfl blockSMU_ok (sl := ⟨0x10, [], .SMU_STAT⟩) (by decide +kernel) rfl (by decide +kernel) h
theorem regOk_MBX_ENG_TX {i : Nat} (h : i < 64) : RegOk .MBX_ENG_TX i :=
  regOk_of rfl blockMBX_ok (sl := ⟨0x1000, [⟨64, 0x10⟩], .MBX_ENG_TX⟩) (by decide +kernel) rfl (by decide +kernel) h
theorem regOk_MBX_ENG_RX {i : Nat} (h : i < 64) : RegOk .MBX_ENG_RX i :=
  regOk_of rfl blockMBX_ok (sl := ⟨0x1004, [⟨64, 0x10⟩], .MBX_ENG_RX⟩) (by decide +kernel) rfl (by decide +kernel) h
theorem regOk_MBX_ENG_DB {i : Nat} (h : i < 64) : RegOk .MBX_ENG_DB i :=
  regOk_of rfl blockMBX_ok (sl := ⟨0x100c, [⟨64, 0x10⟩], .MBX_ENG_DB⟩) (by decide +kernel) rfl (by decide +kernel) h
theorem regOk_SEM_ACQ {i : Nat} (h : i < 64) : RegOk .SEM_ACQ i :=
  regOk_of rfl blockSEM_ok (sl := ⟨0, [⟨64, 4⟩], .SEM_ACQ⟩) (by decide +kernel) rfl (by decide +kernel) h
theorem regOk_SEQ_JUMP_REQ {i : Nat} (h : i < 64) : RegOk .SEQ_JUMP_REQ i :=
  regOk_of rfl blockSEQ_ok (sl := ⟨0x100c, [⟨64, 0x40⟩], .SEQ_JUMP_REQ⟩) (by decide +kernel) rfl (by decide +kernel) h
theorem regOk_DPS_CTRL {i : Nat} (h : i < 64) : RegOk .DPS_CTRL i :=
  regOk_of rfl blockDPS_ok (sl := ⟨0, [], .DPS_CTRL⟩) (by decide +kernel) rfl (by decide +kernel) h
theorem regOk_DPS_VSET {i : Nat} (h : i < 64) : RegOk .DPS_VSET i :=
  regOk_of rfl blockDPS_ok (sl := ⟨4, [], .DPS_VSET⟩) (by decide +kernel) rfl (by decide +kernel) h
theorem regOk_DPS_MEAS {i : Nat} (h : i < 64) : RegOk .DPS_MEAS i :=
  regOk_of rfl blockDPS_ok (sl := ⟨0x1c, [], .DPS_MEAS⟩) (by decide +kernel) rfl (by decide +kernel) h
theorem regOk_ENG_GO {i : Nat} (h : i < 64) : RegOk .ENG_GO i :=
  regOk_of rfl blockENG_ok (sl := ⟨0xc, [], .ENG_GO⟩) (by decide +kernel) rfl (by decide +kernel) h
theorem regOk_ENG_CTRL {i : Nat} (h : i < 64) : RegOk .ENG_CTRL i :=
  regOk_of rfl blockENG_ok (sl := ⟨0, [], .ENG_CTRL⟩) (by decide +kernel) rfl (by decide +kernel) h
theorem regOk_ACQ_CTRL {i : Nat} (h : i < 96) : RegOk .ACQ_CTRL i :=
  regOk_of rfl blockACQ_ok (sl := ⟨4, [], .ACQ_CTRL⟩) (by decide +kernel) rfl (by decide +kernel) h
theorem regOk_TDC_CTRL {i : Nat} (h : i < 128) : RegOk .TDC_CTRL i :=
  regOk_of rfl blockTDC_ok (sl := ⟨0, [], .TDC_CTRL⟩) (by decide +kernel) rfl (by decide +kernel) h
theorem regOk_MON_STAT {i : Nat} (h : i < 160) : RegOk .MON_STAT i :=
  regOk_of rfl blockMON_ok (sl := ⟨0x14, [], .MON_STAT⟩) (by decide +kernel) rfl (by decide +kernel) h
theorem regOk_MON_CTRL {i : Nat} (h : i < 160) : RegOk .MON_CTRL i :=
  regOk_of rfl blockMON_ok (sl := ⟨0, [], .MON_CTRL⟩) (by decide +kernel) rfl (by decide +kernel) h
theorem regOk_MON_HI {i : Nat} (h : i < 160) : RegOk .MON_HI i :=
  regOk_of rfl blockMON_ok (sl := ⟨4, [], .MON_HI⟩) (by decide +kernel) rfl (by decide +kernel) h
theorem regOk_MON_LO {i : Nat} (h : i < 160) : RegOk .MON_LO i :=
  regOk_of rfl blockMON_ok (sl := ⟨8, [], .MON_LO⟩) (by decide +kernel) rfl (by decide +kernel) h
theorem regOk_MON_HYST {i : Nat} (h : i < 160) : RegOk .MON_HYST i :=
  regOk_of rfl blockMON_ok (sl := ⟨0xc, [], .MON_HYST⟩) (by decide +kernel) rfl (by decide +kernel) h
theorem regOk_CH_CTRL {i : Nat} (h : i < 512) : RegOk .CH_CTRL i :=
  regOk_of rfl blockCHAN_ok (sl := ⟨0, [], .CH_CTRL⟩) (by decide +kernel) rfl (by decide +kernel) h
theorem regOk_PMU_CTRL {i : Nat} (h : i < 512) : RegOk .PMU_CTRL i :=
  regOk_of rfl blockCHAN_ok (sl := ⟨0x100, [], .PMU_CTRL⟩) (by decide +kernel) rfl (by decide +kernel) h
theorem regOk_CH_DSK {i : Nat} (h : i < 512) : RegOk .CH_DSK i :=
  regOk_of rfl blockCHAN_ok (sl := ⟨0x180, [], .CH_DSK⟩) (by decide +kernel) rfl (by decide +kernel) h
theorem regOk_CH_VIH0 {i : Nat} (h : i < 512) : RegOk .CH_VIH0 i :=
  regOk_of rfl blockCHAN_ok (sl := ⟨0x10, [], .CH_VIH0⟩) (by decide +kernel) rfl (by decide +kernel) h
theorem regOk_CH_VIL0 {i : Nat} (h : i < 512) : RegOk .CH_VIL0 i :=
  regOk_of rfl blockCHAN_ok (sl := ⟨0x14, [], .CH_VIL0⟩) (by decide +kernel) rfl (by decide +kernel) h
theorem regOk_CH_VOH0 {i : Nat} (h : i < 512) : RegOk .CH_VOH0 i :=
  regOk_of rfl blockCHAN_ok (sl := ⟨0x18, [], .CH_VOH0⟩) (by decide +kernel) rfl (by decide +kernel) h
theorem regOk_CH_VOL0 {i : Nat} (h : i < 512) : RegOk .CH_VOL0 i :=
  regOk_of rfl blockCHAN_ok (sl := ⟨0x1c, [], .CH_VOL0⟩) (by decide +kernel) rfl (by decide +kernel) h
theorem regOk_CH_VT0 {i : Nat} (h : i < 512) : RegOk .CH_VT0 i :=
  regOk_of rfl blockCHAN_ok (sl := ⟨0x20, [], .CH_VT0⟩) (by decide +kernel) rfl (by decide +kernel) h
theorem regOk_CH_VIH1 {i : Nat} (h : i < 512) : RegOk .CH_VIH1 i :=
  regOk_of rfl blockCHAN_ok (sl := ⟨0x30, [], .CH_VIH1⟩) (by decide +kernel) rfl (by decide +kernel) h
theorem regOk_CH_VIL1 {i : Nat} (h : i < 512) : RegOk .CH_VIL1 i :=
  regOk_of rfl blockCHAN_ok (sl := ⟨0x34, [], .CH_VIL1⟩) (by decide +kernel) rfl (by decide +kernel) h
theorem regOk_CH_VOH1 {i : Nat} (h : i < 512) : RegOk .CH_VOH1 i :=
  regOk_of rfl blockCHAN_ok (sl := ⟨0x38, [], .CH_VOH1⟩) (by decide +kernel) rfl (by decide +kernel) h
theorem regOk_CH_VOL1 {i : Nat} (h : i < 512) : RegOk .CH_VOL1 i :=
  regOk_of rfl blockCHAN_ok (sl := ⟨0x3c, [], .CH_VOL1⟩) (by decide +kernel) rfl (by decide +kernel) h
theorem regOk_CH_VT1 {i : Nat} (h : i < 512) : RegOk .CH_VT1 i :=
  regOk_of rfl blockCHAN_ok (sl := ⟨0x40, [], .CH_VT1⟩) (by decide +kernel) rfl (by decide +kernel) h
theorem regOk_TSET_PER {i : Nat} (h : i < 1024) : RegOk .TSET_PER i :=
  regOk_of rfl blockCLK_ok (sl := ⟨0x1000, [⟨64, 0x40⟩, ⟨16, 4⟩], .TSET_PER⟩) (by decide +kernel) rfl (by decide +kernel) h
theorem regOk_TS_EDGE {i : Nat} (h : i < 49152) : RegOk .TS_EDGE i :=
  regOk_of rfl blockCHAN_ok (sl := ⟨0x200, [⟨16, 0x20⟩, ⟨6, 4⟩], .TS_EDGE⟩) (by decide +kernel) rfl (by decide +kernel) h

end Sys2Proof.Machine
end

