-- ==== Sys2Proof/Laws/Resets.lean ====
section
/-!
SUPPORT. What a warm reset does: the mode, the count, the queues it empties.
-/

set_option Elab.async false
set_option linter.all false

namespace Sys2Proof.Machine

theorem lookKey_cut {α : Type} (q : Nat → Bool) (l : List (Nat × α)) (k : Nat) :
    lookKey k (l.filter (fun p => q p.1)) = if q k then lookKey k l else none := by
  induction l with
  | nil => simp [lookKey]
  | cons p l ih =>
    by_cases h : q p.1 = true
    · rw [List.filter_cons_of_pos (by simpa using h)]
      by_cases e : p.1 = k
      · subst e; simp [lookKey, h]
      · simp only [lookKey, e, if_false]; exact ih
    · rw [List.filter_cons_of_neg (by simpa using h), ih]
      by_cases e : p.1 = k
      · subst e; simp [h]
      · simp only [lookKey, e, if_false]

theorem warmFields_drop (s : State) (f : Field) (i : Nat) (h : warmDropped.contains f.id.val = true) : s.warmFields.get f i = coldAt f i := by
  unfold State.warmFields
  unfold State.get
  dsimp only
  rw [lookKey_cut (fun k => !warmDropped.contains (k % 2048)), fkey_mod, h]; rfl
theorem satAt_lt (w v : Nat) : satAt w v < 2 ^ w := by
  unfold satAt; split
  · assumption
  · have := Nat.two_pow_pos w; omega
theorem abandon_acc (s : State) : s.abandon.accepted = [] := by unfold State.abandon; rfl
theorem queuesOff_empty (s : State) : s.queuesOff.lines = [] ∧ s.queuesOff.reqs = [] ∧ s.queuesOff.jobs = [] ∧ s.queuesOff.flows = [] ∧ s.queuesOff.tdcq = [] ∧ s.queuesOff.pendW = [] :=
  ⟨rfl, rfl, rfl, rfl, rfl, rfl⟩
theorem engReset_h2e (s : State) (k : Nat) (h : s.h2e = []) : (s.engReset k).h2e = [] := by
  unfold State.engReset
  extract_lets s4 s5 s6
  have h4 : s4.h2e = [] := h
  have h5 : s5.h2e = [] := ((show Keeps (State.csClear_w ||| fm F.IRQ_ENG_LOST_COUNT) s4 s5 from Keeps.addSatA (by decide +kernel) (Keeps.via (State.csClear_keeps ..) (by decide +kernel) (Keeps.refl _ _))).h2e (by decide +kernel)).trans h4
  have h6 : s6.h2e = [] := h5
  have h7 : (s6.semFreeAll k).h2e = [] := ((State.semFreeAll_keeps s6 k).h2e (by decide +kernel)).trans h6
  unfold State.h2eFlush
  rw [if_pos (by rw [h7]; rfl), h7]
theorem engsOff_h2e (s : State) (h : s.h2e = []) : s.engsOff.h2e = [] := by
  unfold State.engsOff
  have h1 : ∀ (l : List Nat) (t : State), t.h2e = [] → (t.each l State.engReset).h2e = [] := by
    intro l; induction l with
    | nil => intro t ht; exact ht
    | cons k l ih => intro t ht; unfold State.each at ih ⊢; rw [List.foldl_cons]; exact ih (t.engReset k) (engReset_h2e t k ht)
  have h2 := h1 (List.range 64) s h
  generalize s.each (List.range 64) State.engReset = u at h2
  exact ((show Keeps (fm H.PD_ENG) _ (u.each allGroups (fun t g => t.setB H.PD_ENG g false)) from
    Keeps.eachA (Keeps.refl _ _) (fun _ _ => Keeps.setBA (by decide +kernel) (Keeps.refl _ _))).h2e (by decide +kernel)).trans h2
theorem warmMailboxes_h2d (s : State) : s.warmMailboxes.h2d = [] := by
  unfold State.warmMailboxes
  extract_lets s1 s2
  have h1 : Keeps (fm F.MBX_HOST_FLUSH_COUNT ||| fm F.MBX_HOST_STAT_FLUSHED) ({ s with h2d := [] } : State) s1 :=
    Keeps.foldlA (Keeps.refl _ _) (fun _ _ => Keeps.via (State.mbxFlushed_keeps ..) (by decide +kernel) (Keeps.refl _ _))
  have h2 : Keeps (fm F.MBX_ENG_STAT_FLUSHED ||| fm F.MBX_ENG_STAT_ENG_EPOCH) s1 s2 :=
    Keeps.eachA (Keeps.refl _ _) (fun _ _ => Keeps.incWA (by decide +kernel) (Keeps.setBA (by decide +kernel) (Keeps.refl _ _)))
  clear_value s2
  exact (h2.h2d (by decide +kernel)).trans (h1.h2d (by decide +kernel))
theorem State.warmDrop_queues (s : State) :
    let t := s.warmDrop
    t.h2d = [] ∧ t.h2e = [] ∧ t.e2h = [] ∧ t.lines = [] ∧ t.reqs = [] ∧ t.jobs = [] ∧ t.flows = [] ∧ t.tdcq = [] ∧ t.pendW = [] := by
  unfold State.warmDrop
  generalize s.fuseCut.warmOutputs = u
  have hm := warmMailboxes_h2d u
  have he : u.warmMailboxes.h2e = [] := rfl
  have hh : u.warmMailboxes.e2h = [] := rfl
  generalize u.warmMailboxes = v at *
  have h1 := engsOff_h2e v he
  have ko := State.engsOff_keeps v
  have hd := (ko.h2d (by decide +kernel)).trans hm
  have hf := (ko.e2h (by decide +kernel)).trans hh
  generalize v.engsOff = w at *
  have kw := State.warmFields_keeps w
  have h2 := (kw.h2d (by decide +kernel)).trans hd
  have h3 := (kw.h2e (by decide +kernel)).trans h1
  have h4 := (kw.e2h (by decide +kernel)).trans hf
  generalize w.warmFields = x at *
  have kq := State.queuesOff_keeps x
  have q := queuesOff_empty x
  have h5 := (kq.h2d (by decide +kernel)).trans h2
  have h6 := (kq.h2e (by decide +kernel)).trans h3
  have h7 := (kq.e2h (by decide +kernel)).trans h4
  generalize x.queuesOff = y at *
  have kz : Keeps (State.dropFields_w warmSite ||| State.trigCancel_w) y (y.dropFields warmSite).trigCancel :=
    Keeps.via (State.trigCancel_keeps ..) (by decide +kernel) (Keeps.via (State.dropFields_keeps ..) (by decide +kernel) (Keeps.refl _ _))
  generalize (y.dropFields warmSite).trigCancel = z at *
  obtain ⟨q1, q2, q3, q4, q5, q6⟩ := q
  exact ⟨(kz.h2d (by decide +kernel)).trans h5, (kz.h2e (by decide +kernel)).trans h6, (kz.e2h (by decide +kernel)).trans h7,
    (kz.lines (by decide +kernel)).trans q1, (kz.reqs (by decide +kernel)).trans q2, (kz.jobs (by decide +kernel)).trans q3,
    (kz.flows (by decide +kernel)).trans q4, (kz.tdcq (by decide +kernel)).trans q5, (kz.pendW (by decide +kernel)).trans q6⟩

theorem State.warmDrop_mode (s : State) : s.warmDrop.mode = mBRINGUP := by
  unfold State.warmDrop State.mode
  rw [(State.trigCancel_keeps _).get _ _ (by decide +kernel), (State.dropFields_keeps _ _).get _ _ (by decide +kernel),
    (State.queuesOff_keeps _).get _ _ (by decide +kernel), warmFields_drop _ _ _ (by decide +kernel)]
  decide +kernel

theorem State.warmDrop_count (s : State) : s.warmDrop.get F.RST_WARM_COUNT_COUNT 0 = s.get F.RST_WARM_COUNT_COUNT 0 := by
  have h := State.warmDrop_keeps s
  exact h.get _ _ (by decide +kernel)

/-- What stands after the tail of a warm reset. -/
theorem State.warmMarks_done (s : State) (mode : Nat) (held : List Nat) :
    (s.warmMarks mode held).mode = s.mode ∧ (s.warmMarks mode held).get F.MODE_STAT_PREV_MODE 0 = mode % 2 ^ 3
      ∧ (s.warmMarks mode held).get F.RST_WARM_COUNT_COUNT 0 = s.get F.RST_WARM_COUNT_COUNT 0
      ∧ (s.warmMarks mode held).get H.BOOT_PHASE 0 = 1 := by
  unfold State.warmMarks State.warmHeldSet State.mode
  dsimp only
  refine ⟨?_, ?_, ?_, ?_⟩
  · simp (disch := decide +kernel) only [State.setB_eq, State.get_put_field]; rfl
  · simp (disch := decide +kernel) only [State.setB_eq, State.get_put_field, State.get_put_self]; rfl
  · simp (disch := decide +kernel) only [State.setB_eq, State.get_put_field]; rfl
  · simp (disch := decide +kernel) only [State.setB_eq, State.get_put_field, State.get_put_self]; rfl

theorem State.warmAct_done (s : State) :
    s.warmAct.mode = mBRINGUP ∧ s.warmAct.get F.MODE_STAT_PREV_MODE 0 = s.mode % 2 ^ 3
      ∧ s.warmAct.get F.RST_WARM_COUNT_COUNT 0 = satAt 16 (s.get F.RST_WARM_COUNT_COUNT 0 + 1) ∧ s.warmAct.get H.BOOT_PHASE 0 = 1
      ∧ s.warmAct.accepted = [] ∧ s.warmAct.h2d = [] ∧ s.warmAct.h2e = [] ∧ s.warmAct.e2h = [] ∧ s.warmAct.lines = []
      ∧ s.warmAct.reqs = [] ∧ s.warmAct.jobs = [] ∧ s.warmAct.flows = [] ∧ s.warmAct.tdcq = [] ∧ s.warmAct.pendW = [] := by
  unfold State.warmAct
  dsimp only
  have hq := State.warmDrop_queues ((s.incSat F.RST_WARM_COUNT_COUNT 0).put H.RST_T0 0 s.now)
  have hm := State.warmDrop_mode ((s.incSat F.RST_WARM_COUNT_COUNT 0).put H.RST_T0 0 s.now)
  have hc := State.warmDrop_count ((s.incSat F.RST_WARM_COUNT_COUNT 0).put H.RST_T0 0 s.now)
  have hc' : ((s.incSat F.RST_WARM_COUNT_COUNT 0).put H.RST_T0 0 s.now).get F.RST_WARM_COUNT_COUNT 0 =
      satAt 16 (s.get F.RST_WARM_COUNT_COUNT 0 + 1) := by
    simp (disch := decide +kernel) only [State.incSat, State.addSat, State.get_put_field, State.get_put_self]
    exact Nat.mod_eq_of_lt (satAt_lt 16 _)
  rw [hc'] at hc
  generalize ((s.incSat F.RST_WARM_COUNT_COUNT 0).put H.RST_T0 0 s.now).warmDrop = a at *
  have kb := State.warmMarks_keeps a s.mode s.warmHolds
  obtain ⟨b1, b2, b3, b4⟩ := State.warmMarks_done a s.mode s.warmHolds
  generalize a.warmMarks s.mode s.warmHolds = b at *
  have kt : Keeps (State.warmCellar_w ||| State.forcedEnd_w ||| State.wipeStart_w) b ((b.warmCellar (!s.on H.PD_CELLAR 0)).forcedEnd.wipeStart) :=
    Keeps.via (State.wipeStart_keeps ..) (by decide +kernel) (Keeps.via (State.forcedEnd_keeps ..) (by decide +kernel)
      (Keeps.via (State.warmCellar_keeps ..) (by decide +kernel) (Keeps.refl _ _)))
  generalize (b.warmCellar (!s.on H.PD_CELLAR 0)).forcedEnd.wipeStart = c at *
  have kz := State.abandon_keeps c
  have hz := abandon_acc c
  generalize c.abandon = d at *
  have kk : Keeps (State.warmCellar_w ||| State.forcedEnd_w ||| State.wipeStart_w ||| State.abandon_w) b d :=
    Keeps.trans (kt.mono (by decide +kernel)) (kz.mono (by decide +kernel))
  obtain ⟨q1, q2, q3, q4, q5, q6, q7, q8, q9⟩ := hq
  refine ⟨?_, ?_, ?_, ?_, hz, ?_, ?_, ?_, ?_, ?_, ?_, ?_, ?_, ?_⟩
  · exact (kk.get _ _ (by decide +kernel)).trans (b1.trans hm)
  · exact (kk.get _ _ (by decide +kernel)).trans b2
  · exact (kk.get _ _ (by decide +kernel)).trans (b3.trans hc)
  · exact (kk.get _ _ (by decide +kernel)).trans b4
  · exact (kk.h2d (by decide +kernel)).trans ((kb.h2d (by decide +kernel)).trans q1)
  · exact (kk.h2e (by decide +kernel)).trans ((kb.h2e (by decide +kernel)).trans q2)
  · exact (kk.e2h (by decide +kernel)).trans ((kb.e2h (by decide +kernel)).trans q3)
  · exact (kk.lines (by decide +kernel)).trans ((kb.lines (by decide +kernel)).trans q4)
  · exact (kk.reqs (by decide +kernel)).trans ((kb.reqs (by decide +kernel)).trans q5)
  · exact (kk.jobs (by decide +kernel)).trans ((kb.jobs (by decide +kernel)).trans q6)
  · exact (kk.flows (by decide +kernel)).trans ((kb.flows (by decide +kernel)).trans q7)
  · exact (kk.tdcq (by decide +kernel)).trans ((kb.tdcq (by decide +kernel)).trans q8)
  · exact (kk.pendW (by decide +kernel)).trans ((kb.pendW (by decide +kernel)).trans q9)

end Sys2Proof.Machine
end

