-- ==== Sys2Proof/Laws/Rows.lean ====
section
/-!
SUPPORT. What each register row can change: the mask of the register it accesses, and the answer.
-/

set_option Elab.async false
set_option linter.all false

namespace Sys2Proof.Machine

theorem monIdx_lt (i : Fin 160) : monIdx i < 160 := by revert i; decide +kernel

theorem levelReg_ok (lvl : Fin 10) {i : Nat} (h : i < 512) : RegOk (levelReg lvl) i := by
  have e : levelReg lvl = .CH_VIH0 ∨ levelReg lvl = .CH_VIL0 ∨ levelReg lvl = .CH_VOH0 ∨ levelReg lvl = .CH_VOL0 ∨ levelReg lvl = .CH_VT0 ∨
      levelReg lvl = .CH_VIH1 ∨ levelReg lvl = .CH_VIL1 ∨ levelReg lvl = .CH_VOH1 ∨ levelReg lvl = .CH_VOL1 ∨ levelReg lvl = .CH_VT1 := by
    revert lvl; decide +kernel
  rcases e with e | e | e | e | e | e | e | e | e | e <;> rw [e]
  · exact regOk_CH_VIH0 h
  · exact regOk_CH_VIL0 h
  · exact regOk_CH_VOH0 h
  · exact regOk_CH_VOL0 h
  · exact regOk_CH_VT0 h
  · exact regOk_CH_VIH1 h
  · exact regOk_CH_VIL1 h
  · exact regOk_CH_VOH1 h
  · exact regOk_CH_VOL1 h
  · exact regOk_CH_VT1 h

theorem levelReg_write (s : State) (m : Master) (lvl : Fin 10) (i v : Nat) :
    s.regWrite m (levelReg lvl) i v = (s.levelSet i lvl v).ok := by
  match lvl with
  | ⟨0, _⟩ => rfl
  | ⟨1, _⟩ => rfl
  | ⟨2, _⟩ => rfl
  | ⟨3, _⟩ => rfl
  | ⟨4, _⟩ => rfl
  | ⟨5, _⟩ => rfl
  | ⟨6, _⟩ => rfl
  | ⟨7, _⟩ => rfl
  | ⟨8, _⟩ => rfl
  | ⟨9, _⟩ => rfl

theorem State.rcClear_fields (s : State) (r : RegName) (i : Nat) : Keeps (fms r.fields) s (s.rcClear r i) := by
  have h : ∀ l : List Field, (∀ f ∈ l, f ∈ r.fields) → ∀ t, Keeps (fms r.fields) s t →
      Keeps (fms r.fields) s (t.each l (fun t f => t.put f i 0)) := by
    intro l
    induction l with
    | nil => intro _ t ht; exact ht
    | cons f l ih =>
      intro hl t ht
      exact ih (fun g hg => hl g (List.mem_cons_of_mem _ hg)) _ (Keeps.putA (fms_mem (hl f List.mem_cons_self)) ht)
  exact h _ (fun f hf => (List.mem_filter.1 hf).1) s (Keeps.refl _ _)

theorem State.readPlain_fields (s : State) (r : RegName) (i : Nat) :
    Keeps (m_free ||| m_snaps ||| fms r.fields) s (s.readPlain r i).1 := by
  have h0 : Sub (m_free ||| m_snaps) (m_free ||| m_snaps ||| fms r.fields) := Sub.or_left _ _
  exact Keeps.via (State.rcClear_fields ..) (Sub.or_right _ _)
    (Keeps.via (State.snapTake_keeps ..) ((by decide +kernel : Sub State.snapTake_w (m_free ||| m_snaps)).trans h0)
      (Keeps.c_free _ ((by decide +kernel : Sub m_free (m_free ||| m_snaps)).trans h0)))

/-- The mask of a read of MBX_ENG_RX. -/
def regRead_MBX_ENG_RX_w : Nat := State.mbxEngTake_w
theorem regRead_MBX_ENG_RX_keeps (s : State) (m : Master) (i : Nat) : Keeps regRead_MBX_ENG_RX_w s (s.regRead m .MBX_ENG_RX i).1 := by
  unfold State.regRead
  dsimp only
  repeat' first
    | with_reducible assumption
    | with_reducible exact Keeps.refl _ _
    | decide +kernel
    | with_reducible apply Keeps.via (State.mbxEngTake_keeps ..)
    | with_reducible apply Keeps.via (State.ok_keeps ..)
    | with_reducible apply Keeps.via (State.bad_keeps ..)
    | with_reducible apply Keeps.iteA
    | with_reducible apply Keeps.ite1


/-- The mask of a read of MBX_HOST_RX. -/
def regRead_MBX_HOST_RX_w : Nat := State.mbxHostTake_w
theorem regRead_MBX_HOST_RX_keeps (s : State) (m : Master) (i : Nat) : Keeps regRead_MBX_HOST_RX_w s (s.regRead m .MBX_HOST_RX i).1 := by
  unfold State.regRead
  dsimp only
  repeat' first
    | with_reducible assumption
    | with_reducible exact Keeps.refl _ _
    | decide +kernel
    | with_reducible apply Keeps.via (State.mbxHostTake_keeps ..)
    | with_reducible apply Keeps.via (State.ok_keeps ..)
    | with_reducible apply Keeps.via (State.bad_keeps ..)
    | with_reducible apply Keeps.iteA
    | with_reducible apply Keeps.ite1


/-- The mask of a write of ACQ_CTRL. -/
def regWrite_ACQ_CTRL_w : Nat := State.writeAcqCtrl_w
theorem regWrite_ACQ_CTRL_keeps (s : State) (m : Master) (i v : Nat) : Keeps regWrite_ACQ_CTRL_w s (s.regWrite m .ACQ_CTRL i v).1 := by
  unfold State.regWrite
  dsimp only
  repeat' first
    | with_reducible assumption
    | with_reducible exact Keeps.refl _ _
    | decide +kernel
    | with_reducible apply Keeps.via (State.writeAcqCtrl_keeps ..)
    | with_reducible apply Keeps.via (State.ok_keeps ..)
    | with_reducible apply Keeps.via (State.bad_keeps ..)
    | with_reducible apply Keeps.iteA
    | with_reducible apply Keeps.ite1


/-- The mask of a write of CHIP_OFFSET. -/
def regWrite_CHIP_OFFSET_w : Nat := State.offsetSet_w
theorem regWrite_CHIP_OFFSET_keeps (s : State) (m : Master) (i v : Nat) : Keeps regWrite_CHIP_OFFSET_w s (s.regWrite m .CHIP_OFFSET i v).1 := by
  unfold State.regWrite
  dsimp only
  repeat' first
    | with_reducible assumption
    | with_reducible exact Keeps.refl _ _
    | decide +kernel
    | with_reducible apply Keeps.via (State.offsetSet_keeps ..)
    | with_reducible apply Keeps.via (State.ok_keeps ..)
    | with_reducible apply Keeps.via (State.bad_keeps ..)
    | with_reducible apply Keeps.iteA
    | with_reducible apply Keeps.ite1


/-- The mask of a write of CH_CTRL. -/
def regWrite_CH_CTRL_w : Nat := State.writeChCtrl_w
theorem regWrite_CH_CTRL_keeps (s : State) (m : Master) (i v : Nat) : Keeps regWrite_CH_CTRL_w s (s.regWrite m .CH_CTRL i v).1 := by
  unfold State.regWrite
  dsimp only
  repeat' first
    | with_reducible assumption
    | with_reducible exact Keeps.refl _ _
    | decide +kernel
    | with_reducible apply Keeps.via (State.writeChCtrl_keeps ..)
    | with_reducible apply Keeps.via (State.ok_keeps ..)
    | with_reducible apply Keeps.via (State.bad_keeps ..)
    | with_reducible apply Keeps.iteA
    | with_reducible apply Keeps.ite1


/-- The mask of a write of CH_DSK. -/
def regWrite_CH_DSK_w : Nat := State.dskSet_w
theorem regWrite_CH_DSK_keeps (s : State) (m : Master) (i v : Nat) : Keeps regWrite_CH_DSK_w s (s.regWrite m .CH_DSK i v).1 := by
  unfold State.regWrite
  dsimp only
  repeat' first
    | with_reducible assumption
    | with_reducible exact Keeps.refl _ _
    | decide +kernel
    | with_reducible apply Keeps.via (State.dskSet_keeps ..)
    | with_reducible apply Keeps.via (State.ok_keeps ..)
    | with_reducible apply Keeps.via (State.bad_keeps ..)
    | with_reducible apply Keeps.iteA
    | with_reducible apply Keeps.ite1


/-- The mask of a write of CONTACT_CTL. -/
def regWrite_CONTACT_CTL_w : Nat := State.writeContactCtl_w
theorem regWrite_CONTACT_CTL_keeps (s : State) (m : Master) (i v : Nat) : Keeps regWrite_CONTACT_CTL_w s (s.regWrite m .CONTACT_CTL i v).1 := by
  unfold State.regWrite
  dsimp only
  repeat' first
    | with_reducible assumption
    | with_reducible exact Keeps.refl _ _
    | decide +kernel
    | with_reducible apply Keeps.via (State.writeContactCtl_keeps ..)
    | with_reducible apply Keeps.via (State.ok_keeps ..)
    | with_reducible apply Keeps.via (State.bad_keeps ..)
    | with_reducible apply Keeps.iteA
    | with_reducible apply Keeps.ite1


/-- The mask of a write of CSP_CTRL. -/
def regWrite_CSP_CTRL_w : Nat := State.writeCspCtrl_w
theorem regWrite_CSP_CTRL_keeps (s : State) (m : Master) (i v : Nat) : Keeps regWrite_CSP_CTRL_w s (s.regWrite m .CSP_CTRL i v).1 := by
  unfold State.regWrite
  dsimp only
  repeat' first
    | with_reducible assumption
    | with_reducible exact Keeps.refl _ _
    | decide +kernel
    | with_reducible apply Keeps.via (State.writeCspCtrl_keeps ..)
    | with_reducible apply Keeps.via (State.ok_keeps ..)
    | with_reducible apply Keeps.via (State.bad_keeps ..)
    | with_reducible apply Keeps.iteA
    | with_reducible apply Keeps.ite1


/-- The mask of a write of DPS_CTRL. -/
def regWrite_DPS_CTRL_w : Nat := State.writeDpsCtrl_w
theorem regWrite_DPS_CTRL_keeps (s : State) (m : Master) (i v : Nat) : Keeps regWrite_DPS_CTRL_w s (s.regWrite m .DPS_CTRL i v).1 := by
  unfold State.regWrite
  dsimp only
  repeat' first
    | with_reducible assumption
    | with_reducible exact Keeps.refl _ _
    | decide +kernel
    | with_reducible apply Keeps.via (State.writeDpsCtrl_keeps ..)
    | with_reducible apply Keeps.via (State.ok_keeps ..)
    | with_reducible apply Keeps.via (State.bad_keeps ..)
    | with_reducible apply Keeps.iteA
    | with_reducible apply Keeps.ite1


/-- The mask of a write of DPS_MEAS. -/
def regWrite_DPS_MEAS_w : Nat := State.writeDpsMeas_w
theorem regWrite_DPS_MEAS_keeps (s : State) (m : Master) (i v : Nat) : Keeps regWrite_DPS_MEAS_w s (s.regWrite m .DPS_MEAS i v).1 := by
  unfold State.regWrite
  dsimp only
  repeat' first
    | with_reducible assumption
    | with_reducible exact Keeps.refl _ _
    | decide +kernel
    | with_reducible apply Keeps.via (State.writeDpsMeas_keeps ..)
    | with_reducible apply Keeps.via (State.ok_keeps ..)
    | with_reducible apply Keeps.via (State.bad_keeps ..)
    | with_reducible apply Keeps.iteA
    | with_reducible apply Keeps.ite1


/-- The mask of a write of DPS_VSET. -/
def regWrite_DPS_VSET_w : Nat := State.dpsVsetSet_w
theorem regWrite_DPS_VSET_keeps (s : State) (m : Master) (i v : Nat) : Keeps regWrite_DPS_VSET_w s (s.regWrite m .DPS_VSET i v).1 := by
  unfold State.regWrite
  dsimp only
  repeat' first
    | with_reducible assumption
    | with_reducible exact Keeps.refl _ _
    | decide +kernel
    | with_reducible apply Keeps.via (State.dpsVsetSet_keeps ..)
    | with_reducible apply Keeps.via (State.ok_keeps ..)
    | with_reducible apply Keeps.via (State.bad_keeps ..)
    | with_reducible apply Keeps.iteA
    | with_reducible apply Keeps.ite1


/-- The mask of a write of ENG_CTRL. -/
def regWrite_ENG_CTRL_w : Nat := State.writeEngCtrl_w
theorem regWrite_ENG_CTRL_keeps (s : State) (m : Master) (i v : Nat) : Keeps regWrite_ENG_CTRL_w s (s.regWrite m .ENG_CTRL i v).1 := by
  unfold State.regWrite
  dsimp only
  repeat' first
    | with_reducible assumption
    | with_reducible exact Keeps.refl _ _
    | decide +kernel
    | with_reducible apply Keeps.via (State.writeEngCtrl_keeps ..)
    | with_reducible apply Keeps.via (State.ok_keeps ..)
    | with_reducible apply Keeps.via (State.bad_keeps ..)
    | with_reducible apply Keeps.iteA
    | with_reducible apply Keeps.ite1


/-- The mask of a write of ENG_GO. -/
def regWrite_ENG_GO_w : Nat := State.writeEngGo_w
theorem regWrite_ENG_GO_keeps (s : State) (m : Master) (i v : Nat) : Keeps regWrite_ENG_GO_w s (s.regWrite m .ENG_GO i v).1 := by
  unfold State.regWrite
  dsimp only
  repeat' first
    | with_reducible assumption
    | with_reducible exact Keeps.refl _ _
    | decide +kernel
    | with_reducible apply Keeps.via (State.writeEngGo_keeps ..)
    | with_reducible apply Keeps.via (State.ok_keeps ..)
    | with_reducible apply Keeps.via (State.bad_keeps ..)
    | with_reducible apply Keeps.iteA
    | with_reducible apply Keeps.ite1


/-- The mask of a write of FLT_ACK. -/
def regWrite_FLT_ACK_w : Nat := State.faultAck_w
theorem regWrite_FLT_ACK_keeps (s : State) (m : Master) (i v : Nat) : Keeps regWrite_FLT_ACK_w s (s.regWrite m .FLT_ACK i v).1 := by
  unfold State.regWrite
  dsimp only
  repeat' first
    | with_reducible assumption
    | with_reducible exact Keeps.refl _ _
    | decide +kernel
    | with_reducible apply Keeps.via (State.faultAck_keeps ..)
    | with_reducible apply Keeps.via (State.ok_keeps ..)
    | with_reducible apply Keeps.via (State.bad_keeps ..)
    | with_reducible apply Keeps.iteA
    | with_reducible apply Keeps.ite1


/-- The mask of a write of FLT_INJ. -/
def regWrite_FLT_INJ_w : Nat := State.writeFltInj_w
theorem regWrite_FLT_INJ_keeps (s : State) (m : Master) (i v : Nat) : Keeps regWrite_FLT_INJ_w s (s.regWrite m .FLT_INJ i v).1 := by
  unfold State.regWrite
  dsimp only
  repeat' first
    | with_reducible assumption
    | with_reducible exact Keeps.refl _ _
    | decide +kernel
    | with_reducible apply Keeps.via (State.writeFltInj_keeps ..)
    | with_reducible apply Keeps.via (State.ok_keeps ..)
    | with_reducible apply Keeps.via (State.bad_keeps ..)
    | with_reducible apply Keeps.iteA
    | with_reducible apply Keeps.ite1


/-- The mask of a write of IRQ_SWSET. -/
def regWrite_IRQ_SWSET_w : Nat := State.writeIrqSwset_w
theorem regWrite_IRQ_SWSET_keeps (s : State) (m : Master) (i v : Nat) : Keeps regWrite_IRQ_SWSET_w s (s.regWrite m .IRQ_SWSET i v).1 := by
  unfold State.regWrite
  dsimp only
  repeat' first
    | with_reducible assumption
    | with_reducible exact Keeps.refl _ _
    | decide +kernel
    | with_reducible apply Keeps.via (State.writeIrqSwset_keeps ..)
    | with_reducible apply Keeps.via (State.ok_keeps ..)
    | with_reducible apply Keeps.via (State.bad_keeps ..)
    | with_reducible apply Keeps.iteA
    | with_reducible apply Keeps.ite1


/-- The mask of a write of MBX_ENG_DB. -/
def regWrite_MBX_ENG_DB_w : Nat := State.mbxEngBell_w
theorem regWrite_MBX_ENG_DB_keeps (s : State) (m : Master) (i v : Nat) : Keeps regWrite_MBX_ENG_DB_w s (s.regWrite m .MBX_ENG_DB i v).1 := by
  unfold State.regWrite
  dsimp only
  repeat' first
    | with_reducible assumption
    | with_reducible exact Keeps.refl _ _
    | decide +kernel
    | with_reducible apply Keeps.via (State.mbxEngBell_keeps ..)
    | with_reducible apply Keeps.via (State.ok_keeps ..)
    | with_reducible apply Keeps.via (State.bad_keeps ..)
    | with_reducible apply Keeps.iteA
    | with_reducible apply Keeps.ite1


/-- The mask of a write of MBX_ENG_TX. -/
def regWrite_MBX_ENG_TX_w : Nat := State.mbxEngPost_w
theorem regWrite_MBX_ENG_TX_keeps (s : State) (m : Master) (i v : Nat) : Keeps regWrite_MBX_ENG_TX_w s (s.regWrite m .MBX_ENG_TX i v).1 := by
  unfold State.regWrite
  dsimp only
  repeat' first
    | with_reducible assumption
    | with_reducible exact Keeps.refl _ _
    | decide +kernel
    | with_reducible apply Keeps.via (State.mbxEngPost_keeps ..)
    | with_reducible apply Keeps.via (State.ok_keeps ..)
    | with_reducible apply Keeps.via (State.bad_keeps ..)
    | with_reducible apply Keeps.iteA
    | with_reducible apply Keeps.ite1


/-- The mask of a write of MBX_HOST_DB. -/
def regWrite_MBX_HOST_DB_w : Nat := State.mbxHostBell_w
theorem regWrite_MBX_HOST_DB_keeps (s : State) (m : Master) (i v : Nat) : Keeps regWrite_MBX_HOST_DB_w s (s.regWrite m .MBX_HOST_DB i v).1 := by
  unfold State.regWrite
  dsimp only
  repeat' first
    | with_reducible assumption
    | with_reducible exact Keeps.refl _ _
    | decide +kernel
    | with_reducible apply Keeps.via (State.mbxHostBell_keeps ..)
    | with_reducible apply Keeps.via (State.ok_keeps ..)
    | with_reducible apply Keeps.via (State.bad_keeps ..)
    | with_reducible apply Keeps.iteA
    | with_reducible apply Keeps.ite1


/-- The mask of a write of MBX_HOST_TX. -/
def regWrite_MBX_HOST_TX_w : Nat := State.mbxHostPost_w
theorem regWrite_MBX_HOST_TX_keeps (s : State) (m : Master) (i v : Nat) : Keeps regWrite_MBX_HOST_TX_w s (s.regWrite m .MBX_HOST_TX i v).1 := by
  unfold State.regWrite
  dsimp only
  repeat' first
    | with_reducible assumption
    | with_reducible exact Keeps.refl _ _
    | decide +kernel
    | with_reducible apply Keeps.via (State.mbxHostPost_keeps ..)
    | with_reducible apply Keeps.via (State.ok_keeps ..)
    | with_reducible apply Keeps.via (State.bad_keeps ..)
    | with_reducible apply Keeps.iteA
    | with_reducible apply Keeps.ite1


/-- The mask of a write of MON_CTRL. -/
def regWrite_MON_CTRL_w : Nat := State.writeMonCtrl_w
theorem regWrite_MON_CTRL_keeps (s : State) (m : Master) (i v : Nat) : Keeps regWrite_MON_CTRL_w s (s.regWrite m .MON_CTRL i v).1 := by
  unfold State.regWrite
  dsimp only
  repeat' first
    | with_reducible assumption
    | with_reducible exact Keeps.refl _ _
    | decide +kernel
    | with_reducible apply Keeps.via (State.writeMonCtrl_keeps ..)
    | with_reducible apply Keeps.via (State.ok_keeps ..)
    | with_reducible apply Keeps.via (State.bad_keeps ..)
    | with_reducible apply Keeps.iteA
    | with_reducible apply Keeps.ite1


/-- The mask of a write of MON_STAT. -/
def regWrite_MON_STAT_w : Nat := State.monClear_w
theorem regWrite_MON_STAT_keeps (s : State) (m : Master) (i v : Nat) : Keeps regWrite_MON_STAT_w s (s.regWrite m .MON_STAT i v).1 := by
  unfold State.regWrite
  dsimp only
  repeat' first
    | with_reducible assumption
    | with_reducible exact Keeps.refl _ _
    | decide +kernel
    | with_reducible apply Keeps.via (State.monClear_keeps ..)
    | with_reducible apply Keeps.via (State.ok_keeps ..)
    | with_reducible apply Keeps.via (State.bad_keeps ..)
    | with_reducible apply Keeps.iteA
    | with_reducible apply Keeps.ite1


/-- The mask of a write of PAN_INVAL. -/
def regWrite_PAN_INVAL_w : Nat := State.writePanInval_w
theorem regWrite_PAN_INVAL_keeps (s : State) (m : Master) (i v : Nat) : Keeps regWrite_PAN_INVAL_w s (s.regWrite m .PAN_INVAL i v).1 := by
  unfold State.regWrite
  dsimp only
  repeat' first
    | with_reducible assumption
    | with_reducible exact Keeps.refl _ _
    | decide +kernel
    | with_reducible apply Keeps.via (State.writePanInval_keeps ..)
    | with_reducible apply Keeps.via (State.ok_keeps ..)
    | with_reducible apply Keeps.via (State.bad_keeps ..)
    | with_reducible apply Keeps.iteA
    | with_reducible apply Keeps.ite1


/-- The mask of a write of PMU_CTRL. -/
def regWrite_PMU_CTRL_w : Nat := State.writePmuCtrl_w
theorem regWrite_PMU_CTRL_keeps (s : State) (m : Master) (i v : Nat) : Keeps regWrite_PMU_CTRL_w s (s.regWrite m .PMU_CTRL i v).1 := by
  unfold State.regWrite
  dsimp only
  repeat' first
    | with_reducible assumption
    | with_reducible exact Keeps.refl _ _
    | decide +kernel
    | with_reducible apply Keeps.via (State.writePmuCtrl_keeps ..)
    | with_reducible apply Keeps.via (State.ok_keeps ..)
    | with_reducible apply Keeps.via (State.bad_keeps ..)
    | with_reducible apply Keeps.iteA
    | with_reducible apply Keeps.ite1


/-- The mask of a write of PORCH_CTRL. -/
def regWrite_PORCH_CTRL_w : Nat := State.writePorchCtrl_w
theorem regWrite_PORCH_CTRL_keeps (s : State) (m : Master) (i v : Nat) : Keeps regWrite_PORCH_CTRL_w s (s.regWrite m .PORCH_CTRL i v).1 := by
  unfold State.regWrite
  dsimp only
  repeat' first
    | with_reducible assumption
    | with_reducible exact Keeps.refl _ _
    | decide +kernel
    | with_reducible apply Keeps.via (State.writePorchCtrl_keeps ..)
    | with_reducible apply Keeps.via (State.ok_keeps ..)
    | with_reducible apply Keeps.via (State.bad_keeps ..)
    | with_reducible apply Keeps.iteA
    | with_reducible apply Keeps.ite1


/-- The mask of a write of RST_SOFT. -/
def regWrite_RST_SOFT_w : Nat := State.rstSoft_w
theorem regWrite_RST_SOFT_keeps (s : State) (m : Master) (i v : Nat) : Keeps regWrite_RST_SOFT_w s (s.regWrite m .RST_SOFT i v).1 := by
  unfold State.regWrite
  dsimp only
  repeat' first
    | with_reducible assumption
    | with_reducible exact Keeps.refl _ _
    | decide +kernel
    | with_reducible apply Keeps.via (State.rstSoft_keeps ..)
    | with_reducible apply Keeps.via (State.ok_keeps ..)
    | with_reducible apply Keeps.via (State.bad_keeps ..)
    | with_reducible apply Keeps.iteA
    | with_reducible apply Keeps.ite1


/-- The mask of a write of RST_WDOG_CTL. -/
def regWrite_RST_WDOG_CTL_w : Nat := State.wdogCtl_w
theorem regWrite_RST_WDOG_CTL_keeps (s : State) (m : Master) (i v : Nat) : Keeps regWrite_RST_WDOG_CTL_w s (s.regWrite m .RST_WDOG_CTL i v).1 := by
  unfold State.regWrite
  dsimp only
  repeat' first
    | with_reducible assumption
    | with_reducible exact Keeps.refl _ _
    | decide +kernel
    | with_reducible apply Keeps.via (State.wdogCtl_keeps ..)
    | with_reducible apply Keeps.via (State.ok_keeps ..)
    | with_reducible apply Keeps.via (State.bad_keeps ..)
    | with_reducible apply Keeps.iteA
    | with_reducible apply Keeps.ite1


/-- The mask of a write of RST_WDOG_KICK. -/
def regWrite_RST_WDOG_KICK_w : Nat := State.wdogKick_w
theorem regWrite_RST_WDOG_KICK_keeps (s : State) (m : Master) (i v : Nat) : Keeps regWrite_RST_WDOG_KICK_w s (s.regWrite m .RST_WDOG_KICK i v).1 := by
  unfold State.regWrite
  dsimp only
  repeat' first
    | with_reducible assumption
    | with_reducible exact Keeps.refl _ _
    | decide +kernel
    | with_reducible apply Keeps.via (State.wdogKick_keeps ..)
    | with_reducible apply Keeps.via (State.ok_keeps ..)
    | with_reducible apply Keeps.via (State.bad_keeps ..)
    | with_reducible apply Keeps.iteA
    | with_reducible apply Keeps.ite1


/-- The mask of a write of SEC_DBG_CTRL. -/
def regWrite_SEC_DBG_CTRL_w : Nat := State.dbgCtrl_w
theorem regWrite_SEC_DBG_CTRL_keeps (s : State) (m : Master) (i v : Nat) : Keeps regWrite_SEC_DBG_CTRL_w s (s.regWrite m .SEC_DBG_CTRL i v).1 := by
  unfold State.regWrite
  dsimp only
  repeat' first
    | with_reducible assumption
    | with_reducible exact Keeps.refl _ _
    | decide +kernel
    | with_reducible apply Keeps.via (State.dbgCtrl_keeps ..)
    | with_reducible apply Keeps.via (State.ok_keeps ..)
    | with_reducible apply Keeps.via (State.bad_keeps ..)
    | with_reducible apply Keeps.iteA
    | with_reducible apply Keeps.ite1


/-- The mask of a write of SEC_LC_REQ. -/
def regWrite_SEC_LC_REQ_w : Nat := State.lcReq_w
theorem regWrite_SEC_LC_REQ_keeps (s : State) (m : Master) (i v : Nat) : Keeps regWrite_SEC_LC_REQ_w s (s.regWrite m .SEC_LC_REQ i v).1 := by
  unfold State.regWrite
  dsimp only
  repeat' first
    | with_reducible assumption
    | with_reducible exact Keeps.refl _ _
    | decide +kernel
    | with_reducible apply Keeps.via (State.lcReq_keeps ..)
    | with_reducible apply Keeps.via (State.ok_keeps ..)
    | with_reducible apply Keeps.via (State.bad_keeps ..)
    | with_reducible apply Keeps.iteA
    | with_reducible apply Keeps.ite1


/-- The mask of a write of SEC_PROV_CMD. -/
def regWrite_SEC_PROV_CMD_w : Nat := State.provCmd_w
theorem regWrite_SEC_PROV_CMD_keeps (s : State) (m : Master) (i v : Nat) : Keeps regWrite_SEC_PROV_CMD_w s (s.regWrite m .SEC_PROV_CMD i v).1 := by
  unfold State.regWrite
  dsimp only
  repeat' first
    | with_reducible assumption
    | with_reducible exact Keeps.refl _ _
    | decide +kernel
    | with_reducible apply Keeps.via (State.provCmd_keeps ..)
    | with_reducible apply Keeps.via (State.ok_keeps ..)
    | with_reducible apply Keeps.via (State.bad_keeps ..)
    | with_reducible apply Keeps.iteA
    | with_reducible apply Keeps.ite1


/-- The mask of a write of SEC_RB_COMMIT. -/
def regWrite_SEC_RB_COMMIT_w : Nat := State.rbCommit_w
theorem regWrite_SEC_RB_COMMIT_keeps (s : State) (m : Master) (i v : Nat) : Keeps regWrite_SEC_RB_COMMIT_w s (s.regWrite m .SEC_RB_COMMIT i v).1 := by
  unfold State.regWrite
  dsimp only
  repeat' first
    | with_reducible assumption
    | with_reducible exact Keeps.refl _ _
    | decide +kernel
    | with_reducible apply Keeps.via (State.rbCommit_keeps ..)
    | with_reducible apply Keeps.via (State.ok_keeps ..)
    | with_reducible apply Keeps.via (State.bad_keeps ..)
    | with_reducible apply Keeps.iteA
    | with_reducible apply Keeps.ite1


/-- The mask of a write of SEC_WIPE. -/
def regWrite_SEC_WIPE_w : Nat := State.secWipe_w
theorem regWrite_SEC_WIPE_keeps (s : State) (m : Master) (i v : Nat) : Keeps regWrite_SEC_WIPE_w s (s.regWrite m .SEC_WIPE i v).1 := by
  unfold State.regWrite
  dsimp only
  repeat' first
    | with_reducible assumption
    | with_reducible exact Keeps.refl _ _
    | decide +kernel
    | with_reducible apply Keeps.via (State.secWipe_keeps ..)
    | with_reducible apply Keeps.via (State.ok_keeps ..)
    | with_reducible apply Keeps.via (State.bad_keeps ..)
    | with_reducible apply Keeps.iteA
    | with_reducible apply Keeps.ite1


/-- The mask of a write of SEM_ACQ. -/
def regWrite_SEM_ACQ_w : Nat := State.semWriteBy_w
theorem regWrite_SEM_ACQ_keeps (s : State) (m : Master) (i v : Nat) : Keeps regWrite_SEM_ACQ_w s (s.regWrite m .SEM_ACQ i v).1 := by
  unfold State.regWrite
  dsimp only
  repeat' first
    | with_reducible assumption
    | with_reducible exact Keeps.refl _ _
    | decide +kernel
    | with_reducible apply Keeps.via (State.semWriteBy_keeps ..)
    | with_reducible apply Keeps.via (State.ok_keeps ..)
    | with_reducible apply Keeps.via (State.bad_keeps ..)
    | with_reducible apply Keeps.iteA
    | with_reducible apply Keeps.ite1


/-- The mask of a write of SEM_FORCE. -/
def regWrite_SEM_FORCE_w : Nat := State.semForce_w
theorem regWrite_SEM_FORCE_keeps (s : State) (m : Master) (i v : Nat) : Keeps regWrite_SEM_FORCE_w s (s.regWrite m .SEM_FORCE i v).1 := by
  unfold State.regWrite
  dsimp only
  repeat' first
    | with_reducible assumption
    | with_reducible exact Keeps.refl _ _
    | decide +kernel
    | with_reducible apply Keeps.via (State.semForce_keeps ..)
    | with_reducible apply Keeps.via (State.ok_keeps ..)
    | with_reducible apply Keeps.via (State.bad_keeps ..)
    | with_reducible apply Keeps.iteA
    | with_reducible apply Keeps.ite1


/-- The mask of a write of SEQ_JUMP_REQ. -/
def regWrite_SEQ_JUMP_REQ_w : Nat := State.writeSeqJump_w
theorem regWrite_SEQ_JUMP_REQ_keeps (s : State) (m : Master) (i v : Nat) : Keeps regWrite_SEQ_JUMP_REQ_w s (s.regWrite m .SEQ_JUMP_REQ i v).1 := by
  unfold State.regWrite
  dsimp only
  repeat' first
    | with_reducible assumption
    | with_reducible exact Keeps.refl _ _
    | decide +kernel
    | with_reducible apply Keeps.via (State.writeSeqJump_keeps ..)
    | with_reducible apply Keeps.via (State.ok_keeps ..)
    | with_reducible apply Keeps.via (State.bad_keeps ..)
    | with_reducible apply Keeps.iteA
    | with_reducible apply Keeps.ite1


/-- The mask of a write of SMUW_JUMP_REQ. -/
def regWrite_SMUW_JUMP_REQ_w : Nat := State.writeSmuJump_w
theorem regWrite_SMUW_JUMP_REQ_keeps (s : State) (m : Master) (i v : Nat) : Keeps regWrite_SMUW_JUMP_REQ_w s (s.regWrite m .SMUW_JUMP_REQ i v).1 := by
  unfold State.regWrite
  dsimp only
  repeat' first
    | with_reducible assumption
    | with_reducible exact Keeps.refl _ _
    | decide +kernel
    | with_reducible apply Keeps.via (State.writeSmuJump_keeps ..)
    | with_reducible apply Keeps.via (State.ok_keeps ..)
    | with_reducible apply Keeps.via (State.bad_keeps ..)
    | with_reducible apply Keeps.iteA
    | with_reducible apply Keeps.ite1


/-- The mask of a write of SMU_CTRL. -/
def regWrite_SMU_CTRL_w : Nat := State.writeSmuCtrl_w
theorem regWrite_SMU_CTRL_keeps (s : State) (m : Master) (i v : Nat) : Keeps regWrite_SMU_CTRL_w s (s.regWrite m .SMU_CTRL i v).1 := by
  unfold State.regWrite
  dsimp only
  repeat' first
    | with_reducible assumption
    | with_reducible exact Keeps.refl _ _
    | decide +kernel
    | with_reducible apply Keeps.via (State.writeSmuCtrl_keeps ..)
    | with_reducible apply Keeps.via (State.ok_keeps ..)
    | with_reducible apply Keeps.via (State.bad_keeps ..)
    | with_reducible apply Keeps.iteA
    | with_reducible apply Keeps.ite1


/-- The mask of a write of SMU_MEAS. -/
def regWrite_SMU_MEAS_w : Nat := State.writeSmuMeas_w
theorem regWrite_SMU_MEAS_keeps (s : State) (m : Master) (i v : Nat) : Keeps regWrite_SMU_MEAS_w s (s.regWrite m .SMU_MEAS i v).1 := by
  unfold State.regWrite
  dsimp only
  repeat' first
    | with_reducible assumption
    | with_reducible exact Keeps.refl _ _
    | decide +kernel
    | with_reducible apply Keeps.via (State.writeSmuMeas_keeps ..)
    | with_reducible apply Keeps.via (State.ok_keeps ..)
    | with_reducible apply Keeps.via (State.bad_keeps ..)
    | with_reducible apply Keeps.iteA
    | with_reducible apply Keeps.ite1


/-- The mask of a write of SMU_SINE_FREQ. -/
def regWrite_SMU_SINE_FREQ_w : Nat := State.smuFree_w ||| State.sineFreqSet_w
theorem regWrite_SMU_SINE_FREQ_keeps (s : State) (m : Master) (i v : Nat) : Keeps regWrite_SMU_SINE_FREQ_w s (s.regWrite m .SMU_SINE_FREQ i v).1 := by
  unfold State.regWrite
  dsimp only
  repeat' first
    | with_reducible assumption
    | with_reducible exact Keeps.refl _ _
    | decide +kernel
    | with_reducible apply State.smuFree_keeps
    | with_reducible apply Keeps.via (State.sineFreqSet_keeps ..)
    | with_reducible apply Keeps.via (State.ok_keeps ..)
    | with_reducible apply Keeps.via (State.bad_keeps ..)
    | with_reducible apply Keeps.iteA
    | with_reducible apply Keeps.ite1


/-- The mask of a write of SMU_STAT. -/
def regWrite_SMU_STAT_w : Nat := State.smuStatClear_w
theorem regWrite_SMU_STAT_keeps (s : State) (m : Master) (i v : Nat) : Keeps regWrite_SMU_STAT_w s (s.regWrite m .SMU_STAT i v).1 := by
  unfold State.regWrite
  dsimp only
  repeat' first
    | with_reducible assumption
    | with_reducible exact Keeps.refl _ _
    | decide +kernel
    | with_reducible apply Keeps.via (State.smuStatClear_keeps ..)
    | with_reducible apply Keeps.via (State.ok_keeps ..)
    | with_reducible apply Keeps.via (State.bad_keeps ..)
    | with_reducible apply Keeps.iteA
    | with_reducible apply Keeps.ite1


/-- The mask of a write of TDC_CTRL. -/
def regWrite_TDC_CTRL_w : Nat := State.writeTdcCtrl_w
theorem regWrite_TDC_CTRL_keeps (s : State) (m : Master) (i v : Nat) : Keeps regWrite_TDC_CTRL_w s (s.regWrite m .TDC_CTRL i v).1 := by
  unfold State.regWrite
  dsimp only
  repeat' first
    | with_reducible assumption
    | with_reducible exact Keeps.refl _ _
    | decide +kernel
    | with_reducible apply Keeps.via (State.writeTdcCtrl_keeps ..)
    | with_reducible apply Keeps.via (State.ok_keeps ..)
    | with_reducible apply Keeps.via (State.bad_keeps ..)
    | with_reducible apply Keeps.iteA
    | with_reducible apply Keeps.ite1


/-- The mask of a write of TRIG_ACC_CTRL. -/
def regWrite_TRIG_ACC_CTRL_w : Nat := State.trigAccSet_w
theorem regWrite_TRIG_ACC_CTRL_keeps (s : State) (m : Master) (i v : Nat) : Keeps regWrite_TRIG_ACC_CTRL_w s (s.regWrite m .TRIG_ACC_CTRL i v).1 := by
  unfold State.regWrite
  dsimp only
  repeat' first
    | with_reducible assumption
    | with_reducible exact Keeps.refl _ _
    | decide +kernel
    | with_reducible apply Keeps.via (State.trigAccSet_keeps ..)
    | with_reducible apply Keeps.via (State.ok_keeps ..)
    | with_reducible apply Keeps.via (State.bad_keeps ..)
    | with_reducible apply Keeps.iteA
    | with_reducible apply Keeps.ite1


/-- The mask of a write of TRIG_FIRE_LO. -/
def regWrite_TRIG_FIRE_LO_w : Nat := State.trigArm_w
theorem regWrite_TRIG_FIRE_LO_keeps (s : State) (m : Master) (i v : Nat) : Keeps regWrite_TRIG_FIRE_LO_w s (s.regWrite m .TRIG_FIRE_LO i v).1 := by
  unfold State.regWrite
  dsimp only
  repeat' first
    | with_reducible assumption
    | with_reducible exact Keeps.refl _ _
    | decide +kernel
    | with_reducible apply Keeps.via (State.trigArm_keeps ..)
    | with_reducible apply Keeps.via (State.ok_keeps ..)
    | with_reducible apply Keeps.via (State.bad_keeps ..)
    | with_reducible apply Keeps.iteA
    | with_reducible apply Keeps.ite1


/-- The mask of a write of TSET_PER. -/
def regWrite_TSET_PER_w : Nat := State.periodSet_w
theorem regWrite_TSET_PER_keeps (s : State) (m : Master) (i v : Nat) : Keeps regWrite_TSET_PER_w s (s.regWrite m .TSET_PER i v).1 := by
  unfold State.regWrite
  dsimp only
  repeat' first
    | with_reducible assumption
    | with_reducible exact Keeps.refl _ _
    | decide +kernel
    | with_reducible apply Keeps.via (State.periodSet_keeps ..)
    | with_reducible apply Keeps.via (State.ok_keeps ..)
    | with_reducible apply Keeps.via (State.bad_keeps ..)
    | with_reducible apply Keeps.iteA
    | with_reducible apply Keeps.ite1


/-- The mask of a write of TS_EDGE. -/
def regWrite_TS_EDGE_w : Nat := fms RegName.TS_EDGE.fields
theorem regWrite_TS_EDGE_keeps (s : State) (m : Master) (i v : Nat) :
    Keeps regWrite_TS_EDGE_w s (s.regWrite m .TS_EDGE i v).1 := State.writePlain_keeps s .TS_EDGE i v

/-- The mask of the row. -/
def execTdcCtrlArm_f : Nat := regWrite_TDC_CTRL_w ||| m_lastResp
theorem execTdcCtrlArm_frame {m : Master} {j : Fin 128} {v : Nat} {s : State} {nx : State}
    (hn : exec (.tdcCtrlArm m j v) s = .next nx) : Keeps execTdcCtrlArm_f s nx := by
  refine Keeps.ofNext ?_ (hn : execTdcCtrlArm m j v s = _)
  exact swWrite_keeps (regOk_TDC_CTRL (Fin.isLt _)) (regWrite_TDC_CTRL_keeps ..)

/-- The mask of the row. -/
def execTdcCtrlDisarm_f : Nat := regWrite_TDC_CTRL_w ||| m_lastResp
theorem execTdcCtrlDisarm_frame {m : Master} {j : Fin 128} {v : Nat} {s : State} {nx : State}
    (hn : exec (.tdcCtrlDisarm m j v) s = .next nx) : Keeps execTdcCtrlDisarm_f s nx := by
  refine Keeps.ofNext ?_ (hn : execTdcCtrlDisarm m j v s = _)
  exact swWrite_keeps (regOk_TDC_CTRL (Fin.isLt _)) (regWrite_TDC_CTRL_keeps ..)

/-- The mask of the row. -/
def execAcqCtrlArm_f : Nat := regWrite_ACQ_CTRL_w ||| m_lastResp
theorem execAcqCtrlArm_frame {m : Master} {u : Fin 96} {v : Nat} {s : State} {nx : State}
    (hn : exec (.acqCtrlArm m u v) s = .next nx) : Keeps execAcqCtrlArm_f s nx := by
  refine Keeps.ofNext ?_ (hn : execAcqCtrlArm m u v s = _)
  exact swWrite_keeps (regOk_ACQ_CTRL (Fin.isLt _)) (regWrite_ACQ_CTRL_keeps ..)

/-- The mask of the row. -/
def execAcqCtrlForce_f : Nat := regWrite_ACQ_CTRL_w ||| m_lastResp
theorem execAcqCtrlForce_frame {m : Master} {u : Fin 96} {v : Nat} {s : State} {nx : State}
    (hn : exec (.acqCtrlForce m u v) s = .next nx) : Keeps execAcqCtrlForce_f s nx := by
  refine Keeps.ofNext ?_ (hn : execAcqCtrlForce m u v s = _)
  exact swWrite_keeps (regOk_ACQ_CTRL (Fin.isLt _)) (regWrite_ACQ_CTRL_keeps ..)

/-- The mask of the row. -/
def execAcqCtrlCancel_f : Nat := regWrite_ACQ_CTRL_w ||| m_lastResp
theorem execAcqCtrlCancel_frame {m : Master} {u : Fin 96} {v : Nat} {s : State} {nx : State}
    (hn : exec (.acqCtrlCancel m u v) s = .next nx) : Keeps execAcqCtrlCancel_f s nx := by
  refine Keeps.ofNext ?_ (hn : execAcqCtrlCancel m u v s = _)
  exact swWrite_keeps (regOk_ACQ_CTRL (Fin.isLt _)) (regWrite_ACQ_CTRL_keeps ..)

/-- The mask of the row. -/
def execPorchEnWrite_f : Nat := regWrite_PORCH_CTRL_w ||| m_lastResp
theorem execPorchEnWrite_frame {m : Master} {p : Fin 8} {v : Nat} {s : State} {nx : State}
    (hn : exec (.porchEnWrite m p v) s = .next nx) : Keeps execPorchEnWrite_f s nx := by
  refine Keeps.ofNext ?_ (hn : execPorchEnWrite m p v s = _)
  exact swWrite_keeps (regOk_PORCH_CTRL (Fin.isLt _)) (regWrite_PORCH_CTRL_keeps ..)

/-- The mask of the row. -/
def execMbxHostRx_f : Nat := regRead_MBX_HOST_RX_w ||| m_lastResp
theorem execMbxHostRx_frame {m : Master} {b : Fin 4} {s : State} {nx : State}
    (hn : exec (.mbxHostRx m b) s = .next nx) : Keeps execMbxHostRx_f s nx := by
  refine Keeps.ofNext ?_ (hn : execMbxHostRx m b s = _)
  exact swRead_keeps (regOk_MBX_HOST_RX (Fin.isLt _)) (regRead_MBX_HOST_RX_keeps ..)

/-- The mask of the row. -/
def execMbxHostTx_f : Nat := regWrite_MBX_HOST_TX_w ||| m_lastResp
theorem execMbxHostTx_frame {m : Master} {b : Fin 4} {v : Nat} {s : State} {nx : State}
    (hn : exec (.mbxHostTx m b v) s = .next nx) : Keeps execMbxHostTx_f s nx := by
  refine Keeps.ofNext ?_ (hn : execMbxHostTx m b v s = _)
  exact swWrite_keeps (regOk_MBX_HOST_TX (Fin.isLt _)) (regWrite_MBX_HOST_TX_keeps ..)

/-- The mask of the row. -/
def execMbxHostDb_f : Nat := regWrite_MBX_HOST_DB_w ||| m_lastResp
theorem execMbxHostDb_frame {m : Master} {b : Fin 4} {v : Nat} {s : State} {nx : State}
    (hn : exec (.mbxHostDb m b v) s = .next nx) : Keeps execMbxHostDb_f s nx := by
  refine Keeps.ofNext ?_ (hn : execMbxHostDb m b v s = _)
  exact swWrite_keeps (regOk_MBX_HOST_DB (Fin.isLt _)) (regWrite_MBX_HOST_DB_keeps ..)

/-- The mask of the row. -/
def execMbxEngTx_f : Nat := regWrite_MBX_ENG_TX_w ||| m_lastResp
theorem execMbxEngTx_frame {m : Master} {k : Fin 64} {v : Nat} {s : State} {nx : State}
    (hn : exec (.mbxEngTx m k v) s = .next nx) : Keeps execMbxEngTx_f s nx := by
  refine Keeps.ofNext ?_ (hn : execMbxEngTx m k v s = _)
  exact swWrite_keeps (regOk_MBX_ENG_TX (Fin.isLt _)) (regWrite_MBX_ENG_TX_keeps ..)

/-- The mask of the row. -/
def execMbxEngRx_f : Nat := regRead_MBX_ENG_RX_w ||| m_lastResp
theorem execMbxEngRx_frame {m : Master} {k : Fin 64} {s : State} {nx : State}
    (hn : exec (.mbxEngRx m k) s = .next nx) : Keeps execMbxEngRx_f s nx := by
  refine Keeps.ofNext ?_ (hn : execMbxEngRx m k s = _)
  exact swRead_keeps (regOk_MBX_ENG_RX (Fin.isLt _)) (regRead_MBX_ENG_RX_keeps ..)

/-- The mask of the row. -/
def execMbxEngDb_f : Nat := regWrite_MBX_ENG_DB_w ||| m_lastResp
theorem execMbxEngDb_frame {m : Master} {k : Fin 64} {v : Nat} {s : State} {nx : State}
    (hn : exec (.mbxEngDb m k v) s = .next nx) : Keeps execMbxEngDb_f s nx := by
  refine Keeps.ofNext ?_ (hn : execMbxEngDb m k v s = _)
  exact swWrite_keeps (regOk_MBX_ENG_DB (Fin.isLt _)) (regWrite_MBX_ENG_DB_keeps ..)

/-- The mask of the row. -/
def execSemAcqWrite_f : Nat := regWrite_SEM_ACQ_w ||| m_lastResp
theorem execSemAcqWrite_frame {m : Master} {n : Fin 64} {s : State} {nx : State}
    (hn : exec (.semAcqWrite m n) s = .next nx) : Keeps execSemAcqWrite_f s nx := by
  refine Keeps.ofNext ?_ (hn : execSemAcqWrite m n s = _)
  exact swWrite_keeps (regOk_SEM_ACQ (Fin.isLt _)) (regWrite_SEM_ACQ_keeps ..)

/-- The mask of the row. -/
def execSemForce_f : Nat := regWrite_SEM_FORCE_w ||| m_lastResp
theorem execSemForce_frame {m : Master} {v : Nat} {s : State} {nx : State}
    (hn : exec (.semForce m v) s = .next nx) : Keeps execSemForce_f s nx := by
  refine Keeps.ofNext ?_ (hn : execSemForce m v s = _)
  exact swWrite_keeps regOk_SEM_FORCE (regWrite_SEM_FORCE_keeps ..)

/-- The mask of the row. -/
def execPanInval_f : Nat := regWrite_PAN_INVAL_w ||| m_lastResp
theorem execPanInval_frame {m : Master} {v : Nat} {s : State} {nx : State}
    (hn : exec (.panInval m v) s = .next nx) : Keeps execPanInval_f s nx := by
  refine Keeps.ofNext ?_ (hn : execPanInval m v s = _)
  exact swWrite_keeps regOk_PAN_INVAL (regWrite_PAN_INVAL_keeps ..)

/-- The fields of the four counters. -/
def panCounterFields : List Field := fieldsOf [.PAN_UNDERRUN, .PAN_EVICT, .PAN_OVERBUDGET, .PAN_DECODE_ERR]

/-- The mask of the row. -/
def execPanCounterRead_f : Nat := (m_free ||| m_snaps ||| fms panCounterFields) ||| m_lastResp
theorem execPanCounterRead_frame {m : Master} {c : PanCounter} {s : State} {nx : State}
    (hn : exec (.panCounterRead m c) s = .next nx) : Keeps execPanCounterRead_f s nx := by
  refine Keeps.ofNext ?_ (hn : execPanCounterRead m c s = _)
  cases c
  · exact (swRead_keeps regOk_PAN_UNDERRUN (State.readPlain_fields ..)).mono (by decide +kernel)
  · exact (swRead_keeps regOk_PAN_EVICT (State.readPlain_fields ..)).mono (by decide +kernel)
  · exact (swRead_keeps regOk_PAN_OVERBUDGET (State.readPlain_fields ..)).mono (by decide +kernel)
  · exact (swRead_keeps regOk_PAN_DECODE_ERR (State.readPlain_fields ..)).mono (by decide +kernel)

/-- The mask of the row. -/
def execJumpReqWrite_f : Nat := (regWrite_SEQ_JUMP_REQ_w ||| regWrite_SMUW_JUMP_REQ_w) ||| m_lastResp
theorem execJumpReqWrite_frame {m : Master} {t : JumpTarget} {v : Nat} {s : State} {nx : State}
    (hn : exec (.jumpReqWrite m t v) s = .next nx) : Keeps execJumpReqWrite_f s nx := by
  refine Keeps.ofNext ?_ (hn : execJumpReqWrite m t v s = _)
  cases t
  · exact (swWrite_keeps (regOk_SEQ_JUMP_REQ (Fin.isLt _)) (regWrite_SEQ_JUMP_REQ_keeps ..)).mono (by decide +kernel)
  · exact (swWrite_keeps (regOk_SMUW_JUMP_REQ (Fin.isLt _)) (regWrite_SMUW_JUMP_REQ_keeps ..)).mono (by decide +kernel)

/-- The mask of the row. -/
def execJumpReqCancel_f : Nat := (regWrite_SEQ_JUMP_REQ_w ||| regWrite_SMUW_JUMP_REQ_w) ||| m_lastResp
theorem execJumpReqCancel_frame {m : Master} {t : JumpTarget} {v : Nat} {s : State} {nx : State}
    (hn : exec (.jumpReqCancel m t v) s = .next nx) : Keeps execJumpReqCancel_f s nx := by
  refine Keeps.ofNext ?_ (hn : execJumpReqCancel m t v s = _)
  cases t
  · exact (swWrite_keeps (regOk_SEQ_JUMP_REQ (Fin.isLt _)) (regWrite_SEQ_JUMP_REQ_keeps ..)).mono (by decide +kernel)
  · exact (swWrite_keeps (regOk_SMUW_JUMP_REQ (Fin.isLt _)) (regWrite_SMUW_JUMP_REQ_keeps ..)).mono (by decide +kernel)

/-- The mask of the row. -/
def execChCtrlWrite_f : Nat := regWrite_CH_CTRL_w ||| m_lastResp
theorem execChCtrlWrite_frame {m : Master} {ch : Fin 512} {v : Nat} {s : State} {nx : State}
    (hn : exec (.chCtrlWrite m ch v) s = .next nx) : Keeps execChCtrlWrite_f s nx := by
  refine Keeps.ofNext ?_ (hn : execChCtrlWrite m ch v s = _)
  exact swWrite_keeps (regOk_CH_CTRL (Fin.isLt _)) (regWrite_CH_CTRL_keeps ..)

/-- The mask of the row. -/
def execLevelWrite_f : Nat := (State.levelSet_w) ||| m_lastResp
theorem execLevelWrite_frame {m : Master} {ch : Fin 512} {lvl : Fin 10} {v : Nat} {s : State} {nx : State}
    (hn : exec (.levelWrite m ch lvl v) s = .next nx) : Keeps execLevelWrite_f s nx := by
  refine Keeps.ofNext ?_ (hn : execLevelWrite m ch lvl v s = _)
  refine swWrite_keeps (levelReg_ok lvl ch.isLt) ?_
  rw [levelReg_write]
  exact State.levelSet_keeps ..

/-- The mask of the row. -/
def execPmuCtrlWrite_f : Nat := regWrite_PMU_CTRL_w ||| m_lastResp
theorem execPmuCtrlWrite_frame {m : Master} {ch : Fin 512} {v : Nat} {s : State} {nx : State}
    (hn : exec (.pmuCtrlWrite m ch v) s = .next nx) : Keeps execPmuCtrlWrite_f s nx := by
  refine Keeps.ofNext ?_ (hn : execPmuCtrlWrite m ch v s = _)
  exact swWrite_keeps (regOk_PMU_CTRL (Fin.isLt _)) (regWrite_PMU_CTRL_keeps ..)

/-- The mask of the row. -/
def execPmuMeas_f : Nat := regWrite_PMU_CTRL_w ||| m_lastResp
theorem execPmuMeas_frame {m : Master} {ch : Fin 512} {v : Nat} {s : State} {nx : State}
    (hn : exec (.pmuMeas m ch v) s = .next nx) : Keeps execPmuMeas_f s nx := by
  refine Keeps.ofNext ?_ (hn : execPmuMeas m ch v s = _)
  exact swWrite_keeps (regOk_PMU_CTRL (Fin.isLt _)) (regWrite_PMU_CTRL_keeps ..)

/-- The mask of the row. -/
def execMonLatchClear_f : Nat := regWrite_MON_STAT_w ||| m_lastResp
theorem execMonLatchClear_frame {m : Master} {i : Fin 160} {v : Nat} {s : State} {nx : State}
    (hn : exec (.monLatchClear m i v) s = .next nx) : Keeps execMonLatchClear_f s nx := by
  refine Keeps.ofNext ?_ (hn : execMonLatchClear m i v s = _)
  exact swWrite_keeps (regOk_MON_STAT (monIdx_lt i)) (regWrite_MON_STAT_keeps ..)

/-- The mask of the row. -/
def execMonCtrlWrite_f : Nat := regWrite_MON_CTRL_w ||| m_lastResp
theorem execMonCtrlWrite_frame {m : Master} {i : Fin 160} {v : Nat} {s : State} {nx : State}
    (hn : exec (.monCtrlWrite m i v) s = .next nx) : Keeps execMonCtrlWrite_f s nx := by
  refine Keeps.ofNext ?_ (hn : execMonCtrlWrite m i v s = _)
  exact swWrite_keeps (regOk_MON_CTRL (monIdx_lt i)) (regWrite_MON_CTRL_keeps ..)

/-- The mask of the row. -/
def execMonThresholdWrite_f : Nat := (State.monThrSet_w) ||| m_lastResp
theorem execMonThresholdWrite_frame {m : Master} {i : Fin 160} {r : MonReg} {v : Nat} {s : State} {nx : State}
    (hn : exec (.monThresholdWrite m i r v) s = .next nx) : Keeps execMonThresholdWrite_f s nx := by
  refine Keeps.ofNext ?_ (hn : execMonThresholdWrite m i r v s = _)
  have hi : monIdx i < 160 := monIdx_lt i
  cases r
  · exact swWrite_keeps (r := .MON_HI) (regOk_MON_HI hi) (State.monThrSet_keeps s .hi (monIdx i) (v % 2 ^ 32))
  · exact swWrite_keeps (r := .MON_LO) (regOk_MON_LO hi) (State.monThrSet_keeps s .lo (monIdx i) (v % 2 ^ 32))
  · exact swWrite_keeps (r := .MON_HYST) (regOk_MON_HYST hi) (State.monThrSet_keeps s .hyst (monIdx i) (v % 2 ^ 32))

/-- The mask of the row. -/
def execRstSoft_f : Nat := regWrite_RST_SOFT_w ||| m_lastResp
theorem execRstSoft_frame {m : Master} {v : Nat} {s : State} {nx : State}
    (hn : exec (.rstSoft m v) s = .next nx) : Keeps execRstSoft_f s nx := by
  refine Keeps.ofNext ?_ (hn : execRstSoft m v s = _)
  exact swWrite_keeps regOk_RST_SOFT (regWrite_RST_SOFT_keeps ..)

/-- The mask of the row. -/
def execWdogStart_f : Nat := regWrite_RST_WDOG_CTL_w ||| m_lastResp
theorem execWdogStart_frame {m : Master} {v : Nat} {s : State} {nx : State}
    (hn : exec (.wdogStart m v) s = .next nx) : Keeps execWdogStart_f s nx := by
  refine Keeps.ofNext ?_ (hn : execWdogStart m v s = _)
  exact swWrite_keeps regOk_RST_WDOG_CTL (regWrite_RST_WDOG_CTL_keeps ..)

/-- The mask of the row. -/
def execRstWdogKick_f : Nat := regWrite_RST_WDOG_KICK_w ||| m_lastResp
theorem execRstWdogKick_frame {m : Master} {v : Nat} {s : State} {nx : State}
    (hn : exec (.rstWdogKick m v) s = .next nx) : Keeps execRstWdogKick_f s nx := by
  refine Keeps.ofNext ?_ (hn : execRstWdogKick m v s = _)
  exact swWrite_keeps regOk_RST_WDOG_KICK (regWrite_RST_WDOG_KICK_keeps ..)

/-- The mask of the row. -/
def execContactCtlStart_f : Nat := regWrite_CONTACT_CTL_w ||| m_lastResp
theorem execContactCtlStart_frame {m : Master} {v : Nat} {s : State} {nx : State}
    (hn : exec (.contactCtlStart m v) s = .next nx) : Keeps execContactCtlStart_f s nx := by
  refine Keeps.ofNext ?_ (hn : execContactCtlStart m v s = _)
  exact swWrite_keeps regOk_CONTACT_CTL (regWrite_CONTACT_CTL_keeps ..)

/-- The mask of the row. -/
def execDpsCtrlWrite_f : Nat := regWrite_DPS_CTRL_w ||| m_lastResp
theorem execDpsCtrlWrite_frame {m : Master} {d : Fin 64} {v : Nat} {s : State} {nx : State}
    (hn : exec (.dpsCtrlWrite m d v) s = .next nx) : Keeps execDpsCtrlWrite_f s nx := by
  refine Keeps.ofNext ?_ (hn : execDpsCtrlWrite m d v s = _)
  exact swWrite_keeps (regOk_DPS_CTRL (Fin.isLt _)) (regWrite_DPS_CTRL_keeps ..)

/-- The mask of the row. -/
def execVsetWrite_f : Nat := regWrite_DPS_VSET_w ||| m_lastResp
theorem execVsetWrite_frame {m : Master} {d : Fin 64} {v : Nat} {s : State} {nx : State}
    (hn : exec (.vsetWrite m d v) s = .next nx) : Keeps execVsetWrite_f s nx := by
  refine Keeps.ofNext ?_ (hn : execVsetWrite m d v s = _)
  exact swWrite_keeps (regOk_DPS_VSET (Fin.isLt _)) (regWrite_DPS_VSET_keeps ..)

/-- The mask of the row. -/
def execDpsMeas_f : Nat := regWrite_DPS_MEAS_w ||| m_lastResp
theorem execDpsMeas_frame {m : Master} {d : Fin 64} {v : Nat} {s : State} {nx : State}
    (hn : exec (.dpsMeas m d v) s = .next nx) : Keeps execDpsMeas_f s nx := by
  refine Keeps.ofNext ?_ (hn : execDpsMeas m d v s = _)
  exact swWrite_keeps (regOk_DPS_MEAS (Fin.isLt _)) (regWrite_DPS_MEAS_keeps ..)

/-- The mask of the row. -/
def execSmuMeas_f : Nat := regWrite_SMU_MEAS_w ||| m_lastResp
theorem execSmuMeas_frame {m : Master} {u : Fin 32} {v : Nat} {s : State} {nx : State}
    (hn : exec (.smuMeas m u v) s = .next nx) : Keeps execSmuMeas_f s nx := by
  refine Keeps.ofNext ?_ (hn : execSmuMeas m u v s = _)
  exact swWrite_keeps (regOk_SMU_MEAS (Fin.isLt _)) (regWrite_SMU_MEAS_keeps ..)

/-- The mask of the row. -/
def execSmuCtrlWrite_f : Nat := regWrite_SMU_CTRL_w ||| m_lastResp
theorem execSmuCtrlWrite_frame {m : Master} {u : Fin 32} {v : Nat} {s : State} {nx : State}
    (hn : exec (.smuCtrlWrite m u v) s = .next nx) : Keeps execSmuCtrlWrite_f s nx := by
  refine Keeps.ofNext ?_ (hn : execSmuCtrlWrite m u v s = _)
  exact swWrite_keeps (regOk_SMU_CTRL (Fin.isLt _)) (regWrite_SMU_CTRL_keeps ..)

/-- The mask of the row. -/
def execSineFreqWrite_f : Nat := regWrite_SMU_SINE_FREQ_w ||| m_lastResp
theorem execSineFreqWrite_frame {m : Master} {u : Fin 32} {v : Nat} {s : State} {nx : State}
    (hn : exec (.sineFreqWrite m u v) s = .next nx) : Keeps execSineFreqWrite_f s nx := by
  refine Keeps.ofNext ?_ (hn : execSineFreqWrite m u v s = _)
  exact swWrite_keeps (regOk_SMU_SINE_FREQ (Fin.isLt _)) (regWrite_SMU_SINE_FREQ_keeps ..)

/-- The mask of the row. -/
def execMismatchClear_f : Nat := regWrite_SMU_STAT_w ||| m_lastResp
theorem execMismatchClear_frame {m : Master} {u : Fin 32} {v : Nat} {s : State} {nx : State}
    (hn : exec (.mismatchClear m u v) s = .next nx) : Keeps execMismatchClear_f s nx := by
  refine Keeps.ofNext ?_ (hn : execMismatchClear m u v s = _)
  exact swWrite_keeps (regOk_SMU_STAT (Fin.isLt _)) (regWrite_SMU_STAT_keeps ..)

/-- The mask of the row. -/
def execCspStart_f : Nat := regWrite_CSP_CTRL_w ||| m_lastResp
theorem execCspStart_frame {m : Master} {n : Fin 2} {v : Nat} {s : State} {nx : State}
    (hn : exec (.cspStart m n v) s = .next nx) : Keeps execCspStart_f s nx := by
  refine Keeps.ofNext ?_ (hn : execCspStart m n v s = _)
  exact swWrite_keeps (regOk_CSP_CTRL (Fin.isLt _)) (regWrite_CSP_CTRL_keeps ..)

/-- The mask of the row. -/
def execCspAbort_f : Nat := regWrite_CSP_CTRL_w ||| m_lastResp
theorem execCspAbort_frame {m : Master} {n : Fin 2} {v : Nat} {s : State} {nx : State}
    (hn : exec (.cspAbort m n v) s = .next nx) : Keeps execCspAbort_f s nx := by
  refine Keeps.ofNext ?_ (hn : execCspAbort m n v s = _)
  exact swWrite_keeps (regOk_CSP_CTRL (Fin.isLt _)) (regWrite_CSP_CTRL_keeps ..)

/-- The mask of the row. -/
def execCspEnWrite_f : Nat := regWrite_CSP_CTRL_w ||| m_lastResp
theorem execCspEnWrite_frame {m : Master} {n : Fin 2} {v : Nat} {s : State} {nx : State}
    (hn : exec (.cspEnWrite m n v) s = .next nx) : Keeps execCspEnWrite_f s nx := by
  refine Keeps.ofNext ?_ (hn : execCspEnWrite m n v s = _)
  exact swWrite_keeps (regOk_CSP_CTRL (Fin.isLt _)) (regWrite_CSP_CTRL_keeps ..)

/-- The mask of the row. -/
def execFltAck_f : Nat := regWrite_FLT_ACK_w ||| m_lastResp
theorem execFltAck_frame {m : Master} {v : Nat} {s : State} {nx : State}
    (hn : exec (.fltAck m v) s = .next nx) : Keeps execFltAck_f s nx := by
  refine Keeps.ofNext ?_ (hn : execFltAck m v s = _)
  exact swWrite_keeps regOk_FLT_ACK (regWrite_FLT_ACK_keeps ..)

/-- The mask of the row. -/
def execFltInj_f : Nat := regWrite_FLT_INJ_w ||| m_lastResp
theorem execFltInj_frame {m : Master} {v : Nat} {s : State} {nx : State}
    (hn : exec (.fltInj m v) s = .next nx) : Keeps execFltInj_f s nx := by
  refine Keeps.ofNext ?_ (hn : execFltInj m v s = _)
  exact swWrite_keeps regOk_FLT_INJ (regWrite_FLT_INJ_keeps ..)

/-- The mask of the row. -/
def execIrqSwset_f : Nat := regWrite_IRQ_SWSET_w ||| m_lastResp
theorem execIrqSwset_frame {m : Master} {v : Nat} {s : State} {nx : State}
    (hn : exec (.irqSwset m v) s = .next nx) : Keeps execIrqSwset_f s nx := by
  refine Keeps.ofNext ?_ (hn : execIrqSwset m v s = _)
  exact swWrite_keeps regOk_IRQ_SWSET (regWrite_IRQ_SWSET_keeps ..)

/-- The mask of the row. -/
def execSecRbCommit_f : Nat := regWrite_SEC_RB_COMMIT_w ||| m_lastResp
theorem execSecRbCommit_frame {m : Master} {v : Nat} {s : State} {nx : State}
    (hn : exec (.secRbCommit m v) s = .next nx) : Keeps execSecRbCommit_f s nx := by
  refine Keeps.ofNext ?_ (hn : execSecRbCommit m v s = _)
  exact swWrite_keeps regOk_SEC_RB_COMMIT (regWrite_SEC_RB_COMMIT_keeps ..)

/-- The mask of the row. -/
def execSecLcReq_f : Nat := regWrite_SEC_LC_REQ_w ||| m_lastResp
theorem execSecLcReq_frame {m : Master} {v : Nat} {s : State} {nx : State}
    (hn : exec (.secLcReq m v) s = .next nx) : Keeps execSecLcReq_f s nx := by
  refine Keeps.ofNext ?_ (hn : execSecLcReq m v s = _)
  exact swWrite_keeps regOk_SEC_LC_REQ (regWrite_SEC_LC_REQ_keeps ..)

/-- The mask of the row. -/
def execSecProvCmd_f : Nat := regWrite_SEC_PROV_CMD_w ||| m_lastResp
theorem execSecProvCmd_frame {m : Master} {v : Nat} {s : State} {nx : State}
    (hn : exec (.secProvCmd m v) s = .next nx) : Keeps execSecProvCmd_f s nx := by
  refine Keeps.ofNext ?_ (hn : execSecProvCmd m v s = _)
  exact swWrite_keeps regOk_SEC_PROV_CMD (regWrite_SEC_PROV_CMD_keeps ..)

/-- The mask of the row. -/
def execDebugUnlock_f : Nat := regWrite_SEC_DBG_CTRL_w ||| m_lastResp
theorem execDebugUnlock_frame {m : Master} {v : Nat} {s : State} {nx : State}
    (hn : exec (.debugUnlock m v) s = .next nx) : Keeps execDebugUnlock_f s nx := by
  refine Keeps.ofNext ?_ (hn : execDebugUnlock m v s = _)
  exact swWrite_keeps regOk_SEC_DBG_CTRL (regWrite_SEC_DBG_CTRL_keeps ..)

/-- The mask of the row. -/
def execSecWipe_f : Nat := regWrite_SEC_WIPE_w ||| m_lastResp
theorem execSecWipe_frame {m : Master} {v : Nat} {s : State} {nx : State}
    (hn : exec (.secWipe m v) s = .next nx) : Keeps execSecWipe_f s nx := by
  refine Keeps.ofNext ?_ (hn : execSecWipe m v s = _)
  exact swWrite_keeps regOk_SEC_WIPE (regWrite_SEC_WIPE_keeps ..)

/-- The mask of the row. -/
def execChipOffsetWrite_f : Nat := regWrite_CHIP_OFFSET_w ||| m_lastResp
theorem execChipOffsetWrite_frame {m : Master} {v : Nat} {s : State} {nx : State}
    (hn : exec (.chipOffsetWrite m v) s = .next nx) : Keeps execChipOffsetWrite_f s nx := by
  refine Keeps.ofNext ?_ (hn : execChipOffsetWrite m v s = _)
  exact swWrite_keeps regOk_CHIP_OFFSET (regWrite_CHIP_OFFSET_keeps ..)

/-- The mask of the row. -/
def execTrigFire_f : Nat := regWrite_TRIG_FIRE_LO_w ||| m_lastResp
theorem execTrigFire_frame {m : Master} {i : Fin 8} {v : Nat} {s : State} {nx : State}
    (hn : exec (.trigFire m i v) s = .next nx) : Keeps execTrigFire_f s nx := by
  refine Keeps.ofNext ?_ (hn : execTrigFire m i v s = _)
  exact swWrite_keeps (regOk_TRIG_FIRE_LO (Fin.isLt _)) (regWrite_TRIG_FIRE_LO_keeps ..)

/-- The mask of the row. -/
def execTrigAccEnable_f : Nat := regWrite_TRIG_ACC_CTRL_w ||| m_lastResp
theorem execTrigAccEnable_frame {m : Master} {i : Fin 8} {v : Nat} {s : State} {nx : State}
    (hn : exec (.trigAccEnable m i v) s = .next nx) : Keeps execTrigAccEnable_f s nx := by
  refine Keeps.ofNext ?_ (hn : execTrigAccEnable m i v s = _)
  exact swWrite_keeps (regOk_TRIG_ACC_CTRL (Fin.isLt _)) (regWrite_TRIG_ACC_CTRL_keeps ..)

/-- The mask of the row. -/
def execTimingSetWrite_f : Nat := (regWrite_TSET_PER_w ||| regWrite_TS_EDGE_w) ||| m_lastResp
theorem execTimingSetWrite_frame {m : Master} {r : TimingReg} {v : Nat} {s : State} {nx : State}
    (hn : exec (.timingSetWrite m r v) s = .next nx) : Keeps execTimingSetWrite_f s nx := by
  refine Keeps.ofNext ?_ (hn : execTimingSetWrite m r v s = _)
  cases r
  · exact (swWrite_keeps (regOk_TSET_PER (by omega)) (regWrite_TSET_PER_keeps ..)).mono (by decide +kernel)
  · exact (swWrite_keeps (regOk_TS_EDGE (by omega)) (regWrite_TS_EDGE_keeps ..)).mono (by decide +kernel)

/-- The mask of the row. -/
def execChDskWrite_f : Nat := regWrite_CH_DSK_w ||| m_lastResp
theorem execChDskWrite_frame {m : Master} {ch : Fin 512} {v : Nat} {s : State} {nx : State}
    (hn : exec (.chDskWrite m ch v) s = .next nx) : Keeps execChDskWrite_f s nx := by
  refine Keeps.ofNext ?_ (hn : execChDskWrite m ch v s = _)
  exact swWrite_keeps (regOk_CH_DSK (Fin.isLt _)) (regWrite_CH_DSK_keeps ..)

/-- The mask of the row. -/
def execEngGo_f : Nat := regWrite_ENG_GO_w ||| m_lastResp
theorem execEngGo_frame {m : Master} {k : Fin 64} {v : Nat} {s : State} {nx : State}
    (hn : exec (.engGo m k v) s = .next nx) : Keeps execEngGo_f s nx := by
  refine Keeps.ofNext ?_ (hn : execEngGo m k v s = _)
  exact swWrite_keeps (regOk_ENG_GO (Fin.isLt _)) (regWrite_ENG_GO_keeps ..)

/-- The mask of the row. -/
def execEngStop_f : Nat := regWrite_ENG_CTRL_w ||| m_lastResp
theorem execEngStop_frame {m : Master} {k : Fin 64} {v : Nat} {s : State} {nx : State}
    (hn : exec (.engStop m k v) s = .next nx) : Keeps execEngStop_f s nx := by
  refine Keeps.ofNext ?_ (hn : execEngStop m k v s = _)
  exact swWrite_keeps (regOk_ENG_CTRL (Fin.isLt _)) (regWrite_ENG_CTRL_keeps ..)

/-- The mask of the row. -/
def execEngStep_f : Nat := regWrite_ENG_CTRL_w ||| m_lastResp
theorem execEngStep_frame {m : Master} {k : Fin 64} {v : Nat} {s : State} {nx : State}
    (hn : exec (.engStep m k v) s = .next nx) : Keeps execEngStep_f s nx := by
  refine Keeps.ofNext ?_ (hn : execEngStep m k v s = _)
  exact swWrite_keeps (regOk_ENG_CTRL (Fin.isLt _)) (regWrite_ENG_CTRL_keeps ..)

end Sys2Proof.Machine
end

