-- ==== Sys2Proof/Laws/Shared.lean ====
section
/-!
SUPPORT. What the shared operations do: an interrupt pends its bit, a fault sets its sticky bit, an event and a reply
are the last of their queues, an action on every element of a list acts on each.
-/

set_option Elab.async false
set_option linter.all false

namespace Sys2Proof.Machine

theorem testBit_bit (v i : Nat) : bit v i = v.testBit i := by
  unfold bit
  rw [Nat.testBit_eq_decide_div_mod_eq, Bool.eq_iff_iff]
  simp

theorem bit_setBit (v i : Nat) : bit (setBit v i) i = true := by
  rw [testBit_bit, setBit, Nat.testBit_or, Nat.testBit_two_pow_self, Bool.or_true]

theorem bit_setBit_mod (v i w : Nat) (h : i < w) : bit (setBit v i % 2 ^ w) i = true := by
  have := bit_setBit v i
  rw [testBit_bit] at this ⊢
  rw [Nat.testBit_mod_two_pow]
  simp [h, this]

/-- What holds after an element's action and is kept by every other action holds after all of them. -/
theorem each_mem {α : Type} {P : State → Prop} {g : State → α → State} {x : α} {l : List α} (hx : x ∈ l) (h1 : ∀ t, P (g t x))
    (h2 : ∀ t a, P t → P (g t a)) (s : State) : P (s.each l g) := by
  have keep : ∀ (l : List α) (t : State), P t → P (t.each l g) := by
    intro l
    induction l with
    | nil => intro t h; exact h
    | cons b l ih =>
      intro t h
      unfold State.each at ih ⊢
      rw [List.foldl_cons]
      exact ih _ (h2 t b h)
  induction l generalizing s with
  | nil => cases hx
  | cons a l ih =>
    unfold State.each at ih keep ⊢
    rw [List.foldl_cons]
    rcases List.mem_cons.1 hx with rfl | h
    · exact keep _ _ (h1 s)
    · exact ih h _

theorem each_inv {α : Type} {P : State → Prop} {g : State → α → State} (h2 : ∀ t a, P t → P (g t a)) (l : List α) (s : State)
    (h : P s) : P (s.each l g) := by
  induction l generalizing s with
  | nil => exact h
  | cons b l ih =>
    unfold State.each at ih ⊢
    rw [List.foldl_cons]
    exact ih _ (h2 s b h)

/-- As each_mem, where the element's action needs what held before and the others keep. -/
theorem each_mem_of {α : Type} {P I : State → Prop} {g : State → α → State} {x : α} {l : List α} (hx : x ∈ l)
    (h0 : ∀ t a, a ≠ x → I t → I (g t a)) (h1 : ∀ t, I t → P (g t x)) (h2 : ∀ t a, P t → P (g t a)) (s : State) (hs : I s) :
    P (s.each l g) := by
  classical
  induction l generalizing s with
  | nil => cases hx
  | cons a l ih =>
    by_cases e : a = x
    · subst e
      have := each_inv h2 l (g s a) (h1 s hs)
      unfold State.each at this ⊢
      rw [List.foldl_cons]
      exact this
    · have := ih (by exact (List.mem_cons.1 hx).resolve_left (fun h => e h.symm)) (g s a) (h0 s a e hs)
      unfold State.each at this ⊢
      rw [List.foldl_cons]
      exact this

/-- Outside HOLD an interrupt sets its pending bit and no other. -/
theorem State.irq_pend (s : State) (n : Nat) (d : List Byte) (h : s.mode ≠ mHOLD) :
    (s.irq n d).get F.IRQ_PEND_PEND (n / 32) = setBit (s.get F.IRQ_PEND_PEND (n / 32)) (n % 32) % 2 ^ 32 := by
  unfold State.irq
  rw [if_neg h]
  extract_lets s1 s2
  have k2 : Keeps (State.irqToEngine_w) s1 s2 :=
    Keeps.iteA (State.irqToEngine_keeps ..) (Keeps.refl _ _)
  have k3 : Keeps State.event_w s2 (if s.on F.IRQ_ROUTE_HOST_EN n then s2.event (0x0500 + n) d else s2) :=
    Keeps.iteA (State.event_keeps ..) (Keeps.refl _ _)
  rw [k3.get _ _ (by decide +kernel), k2.get _ _ (by decide +kernel), State.get_put_self]
  rfl

theorem State.irq_bit (s : State) (n : Nat) (d : List Byte) (h : s.mode ≠ mHOLD) :
    bit ((s.irq n d).get F.IRQ_PEND_PEND (n / 32)) (n % 32) = true := by
  rw [State.irq_pend s n d h]
  exact bit_setBit_mod _ _ _ (Nat.mod_lt _ (by decide))

/-- An event is the last of the queue. -/
theorem State.event_last (s : State) (c : Nat) (d : List Byte) :
    (s.event c d).events.getLast? = some ⟨c, s.get F.EVT_STAT_EVSEQ 0, s.ts, d⟩ := by
  unfold State.event
  dsimp only
  split
  · simp
  · simp

theorem State.faultReach_none (s : State) (r : Nat) : s.faultReach r none none = s := rfl

theorem State.faultReach_low (s : State) (r : Nat) (si ti : Option Nat) (h : r < 3) : s.faultReach r si ti = s := by
  unfold State.faultReach
  cases si <;> cases ti <;> simp [show ¬ 3 ≤ r by omega, show ¬ 4 ≤ r by omega]

/-- What the first part of raising a fault leaves: its sticky bit set. -/
theorem State.faultCore_bit (s : State) (n unit : Nat) (si ti : Option Nat) (inj : Bool) (h : s.mode ≠ mHOLD) :
    bit ((s.faultCore n unit si ti inj).1.get F.FLT_STAT_STICKY (n / 32)) (n % 32) = true := by
  unfold State.faultCore
  rw [if_neg h]
  extract_lets s1 r seq s2 s3 s4
  have h1 : bit (s1.get F.FLT_STAT_STICKY (n / 32)) (n % 32) = true := by
    show bit ((s.put _ _ _).get _ _) _ = true
    rw [State.get_put_self]
    exact bit_setBit_mod _ _ _ (Nat.mod_lt _ (by decide))
  have k2 : Keeps State.faultLog_w s1 s2 := Keeps.iteA (State.faultLog_keeps ..) (Keeps.refl _ _)
  have k4 : Keeps (fm F.FLT_SUM_BUSY ||| fm F.FLT_SUM_ACTIVE ||| fm F.FLT_SUM_MERGED ||| fm F.FLT_SUM_ESCALATED ||| fm H.FLT_END |||
      fm H.FLT_SEQ ||| fm H.FLT_SITE ||| fm H.FLT_TILE) s2 s4 := by
    refine Keeps.putA (by decide +kernel) (Keeps.putA (by decide +kernel) (Keeps.putA (by decide +kernel) ?_))
    refine Keeps.setDueA (by decide +kernel) (Keeps.setBA (by decide +kernel) (Keeps.putA (by decide +kernel) ?_))
    exact Keeps.putA (by decide +kernel) (Keeps.setBA (by decide +kernel) (Keeps.refl _ _))
  split
  · dsimp only [State.incSat, State.addSat]
    rw [State.get_put_field _ (by decide +kernel)]; exact h1
  · split
    · dsimp only
      rw [(State.irq_keeps _ _ _).get _ _ (by decide +kernel), k4.get _ _ (by decide +kernel), k2.get _ _ (by decide +kernel)]
      exact h1
    · dsimp only
      rw [k2.get _ _ (by decide +kernel)]; exact h1

/-- A fault source below 117 without a site and a tile that is raised outside HOLD leaves its sticky bit set. -/
theorem State.fault_bit (s : State) (n unit : Nat) (inj : Bool) (h : s.mode ≠ mHOLD) (hn : n < 117)
    (hs : s.faultSite n unit = none) (ht : s.faultTile n = none) :
    bit ((s.faultRaise n unit inj).get F.FLT_STAT_STICKY (n / 32)) (n % 32) = true := by
  unfold State.faultRaise State.raiseFault
  rw [if_neg (by omega), hs, ht]
  exact State.faultCore_bit s n unit none none inj h

theorem State.faultCore_react (s : State) (n unit : Nat) (si ti : Option Nat) (inj : Bool) :
    (s.faultCore n unit si ti inj).2 = 0 ∨ (s.faultCore n unit si ti inj).2 = s.react n := by
  unfold State.faultCore
  split
  · exact .inl rfl
  · extract_lets s1 r seq s2 s3 s4
    have hr : r = s.react n := by
      show s1.react n = s.react n
      unfold State.react
      have hf : reactField n = F.FLT_REACT_REACT0 ∨ reactField n = F.FLT_REACT_REACT1 ∨ reactField n = F.FLT_REACT_REACT2 ∨
          reactField n = F.FLT_REACT_REACT3 := by
        unfold reactField; split <;> simp
      rcases hf with e | e | e | e <;> rw [e] <;> exact State.get_put_field _ (by decide +kernel) _ _ _
    split
    · exact .inl rfl
    · split <;> exact .inr hr

/-- As State.fault_bit for a source whose reaction is a log entry or an interrupt. -/
theorem State.fault_bit_low (s : State) (n unit : Nat) (inj : Bool) (h : s.mode ≠ mHOLD) (hn : n < 117) (hr : s.react n < 3) :
    bit ((s.faultRaise n unit inj).get F.FLT_STAT_STICKY (n / 32)) (n % 32) = true := by
  unfold State.faultRaise State.raiseFault
  rw [if_neg (by omega)]
  dsimp only
  rw [State.faultReach_low _ _ _ _ (by
    rcases State.faultCore_react s n unit (s.faultSite n unit) (s.faultTile n) inj with e | e <;> rw [e] <;> omega)]
  exact State.faultCore_bit s n unit _ _ inj h

/-- A served command is its own effect. -/
theorem State.serve_done {s : State} {h : Hdr} {op : Nat} {legal : State → Bool} {l : List Nat} {f : State → State}
    (hs : HostServes s legal) : s.serve h op legal l f = f s := by
  obtain ⟨h1, h2, h3, h4⟩ := hs
  unfold State.serve
  split
  · rename_i e; exact absurd e h1
  · rename_i e; exact absurd e h2
  · rw [h3, h4]; rfl

theorem leBytes_length (n v : Nat) : (leBytes n v).length = n := by
  induction n generalizing v with
  | zero => rfl
  | succ n ih => simp [leBytes, ih]

theorem State.answer_replied (s : State) (h : Hdr) (op st site detail : Nat) (data : List Byte) :
    Replied h op st data s (s.answer h op st site detail data) :=
  ⟨leBytes 1 (s.mode + 8 * s.get F.MODE_STAT_THROTTLE 0) ++ leBytes 1 site ++ leBytes 1 detail, by simp [leBytes_length], by
    unfold State.answer State.reply
    simp only [List.append_assoc]⟩

theorem Replied.before {h : Hdr} {op st : Nat} {data : List Byte} {s u t : State} (r : Replied h op st data u t)
    (e : u.replies = s.replies) : Replied h op st data s t := by
  obtain ⟨m, h1, h2⟩ := r
  exact ⟨m, h1, by rw [h2, e]⟩

theorem Replied.after {h : Hdr} {op st : Nat} {data : List Byte} {s u t : State} (r : Replied h op st data s t)
    (e : u.replies = t.replies) : Replied h op st data s u := by
  obtain ⟨m, h1, h2⟩ := r
  exact ⟨m, h1, by rw [e, h2]⟩

/-- Entering a mode: its code, the mode before it, and no transition in progress. -/
theorem State.enterMode_done (s : State) (m cause prev : Nat) :
    (s.enterMode m cause prev).mode = m % 2 ^ 3 ∧ (s.enterMode m cause prev).get F.MODE_STAT_PREV_MODE 0 = prev % 2 ^ 3
      ∧ (s.enterMode m cause prev).on F.MODE_STAT_TRANSIT 0 = false ∧ (s.enterMode m cause prev).get H.MODE_END 0 = 0 := by
  unfold State.enterMode
  extract_lets s1 s2 s3
  have h3 : s3.mode = m % 2 ^ 3 ∧ s3.get F.MODE_STAT_PREV_MODE 0 = prev % 2 ^ 3 ∧ s3.on F.MODE_STAT_TRANSIT 0 = false
      ∧ s3.get H.MODE_END 0 = 0 := by
    unfold State.mode State.on
    refine ⟨?_, ?_, ?_, ?_⟩ <;>
      simp (disch := decide +kernel) only [s3, s2, s1, State.put2, State.noDue, State.setB_eq, State.get_put_field, State.get_put_self,
        Nat.zero_mod] <;> rfl
  split
  · exact h3
  · have k := State.event_keeps s3 0x0102 (leBytes 1 m ++ leBytes 1 prev ++ leBytes 1 cause ++ zeros 5 ++ leBytes 8 s.ts)
    obtain ⟨a, b, c, d⟩ := h3
    unfold State.mode State.on at *
    exact ⟨(k.get _ _ (by decide +kernel)).trans a, (k.get _ _ (by decide +kernel)).trans b,
      by rw [k.get _ _ (by decide +kernel)]; exact c, (k.get _ _ (by decide +kernel)).trans d⟩

end Sys2Proof.Machine
end

