-- ==== Sys2Proof/WellFormed.lean ====
section
/-!
DEFINITION. Which commands can exist: every operand fits the field that carries it (the widths are those
of the registers, the micro-word fields, the message layouts of R491 to R507 and the flit header of R450),
and every list has the length the spec gives it.
-/

namespace Sys2Proof

/-- The number fits w bits. -/
def fitsBits (w v : Nat) : Bool := decide (v < 2 ^ w)
def u8 (v : Nat) : Bool := fitsBits 8 v
def u16 (v : Nat) : Bool := fitsBits 16 v
def u32 (v : Nat) : Bool := fitsBits 32 v
def u40 (v : Nat) : Bool := fitsBits 40 v
def u64 (v : Nat) : Bool := fitsBits 64 v
/-- A sequence number of the link layer (R452). -/
def seq12 (v : Nat) : Bool := fitsBits 12 v
/-- The integer fits w bits in two's complement. -/
def fitsSigned (w : Nat) (x : Int) : Bool := decide (-(2 ^ (w - 1) : Int) ≤ x) && decide (x < (2 ^ (w - 1) : Int))
def i16 (x : Int) : Bool := fitsSigned 16 x
def i32 (x : Int) : Bool := fitsSigned 32 x
/-- The offset of a scratchpad word (R544). -/
def spWordAddr (x : Nat) : Bool := decide (x < 0x200000) && decide (x % 4 = 0)

/-- A source node and a 16-bit tag (R491), or 256 + k for the CMD of engine k and the offset of its block (R287, R504). -/
def Hdr.wf (h : Hdr) : Bool := decide (h.src < 320) && (if h.src < 256 then u16 h.tag else spWordAddr h.tag)
def SiteOrigin.wf : SiteOrigin → Bool
  | .host h => h.wf
  | .reg _ => true
/-- A tile mask of eight tiles, and a flash of at most 2^32 bytes. -/
def BootWorld.wf (w : BootWorld) : Bool := u8 w.tileMismatch && u8 w.trained && fitsBits 33 w.flashSize
def RegItem.wf (x : RegItem) : Bool := u64 x.addr && u32 x.value
def PortB.wf (b : PortB) : Bool := spWordAddr b.x && u32 b.v
/-- The unit of a tile, a result code of R434 and at most a whole correction record of one unit. -/
def CalSeen.wf (c : CalSeen) : Bool := decide (c.unit < 112) && decide (c.code ≤ 5) && decide (c.bytes.length ≤ 80)
def CalArgs.wf (a : CalArgs) : Bool :=
  u8 a.flow && u8 a.tile && u16 a.vmax && u16 a.tdc && u8 a.dps && u8 a.smu && u64 a.chan && u32 a.mon
/-- Raw codes of 12 bits (R381). -/
def TdcEdge.wf (e : TdcEdge) : Bool := seq12 e.r && seq12 e.n1 && seq12 e.n2
def AcqSeen.wf (a : AcqSeen) : Bool := i32 a.volt && i32 a.curr
/-- The header fields of R450 and a payload whose length fits LEN. -/
def Flit.wf (f : Flit) : Bool :=
  u8 f.typ && u8 f.dst && u8 f.src && seq12 f.seq && fitsBits 2 f.vc && fitsBits 2 f.seg && u8 f.ttl
    && fitsBits 7 f.payload.length
def LinkBlock.wf (b : LinkBlock) : Bool := seq12 b.ack && fitsBits 4 b.cr0 && fitsBits 4 b.cr1 && fitsBits 4 b.cr2
def LinkInfo.wf (i : LinkInfo) : Bool :=
  u64 i.sid && u8 i.node && seq12 i.expected && u8 i.buf0 && u8 i.buf1 && u8 i.buf2

/-- The command can exist. -/
def Instr.wf : Instr → Bool
  | .pin widthPs => decide (0 < widthPs)
  | .clkfail _ => true
  | .rstSoft _ v => u32 v
  | .wdogStart _ v => u32 v
  | .rstWdogKick _ v => u32 v
  | .standbyEntry w => w.wf
  | .contactCheckDone seen => seen.length == 512
  | .contactCtlStart _ v => u32 v
  | .mode h target => h.wf && u8 target
  | .wake _ => true
  | .chimneySample raw => raw.length == 40
  | .lanePresetUpdate _ => true
  | .deferredStartRelease _ => true
  | .startTimeout _ => true
  | .vectorBoundary _ seen => decide (seen.length ≤ 64)
  | .stallLimitExpiry _ => true
  | .lineDecodeDone pat line => u16 pat && u32 line
  | .panInval _ v => u32 v
  | .panCounterRead _ _ => true
  | .jumpReqWrite _ _ v => u32 v
  | .jumpReqCancel _ _ v => u32 v
  | .smuWaveSample _ => true
  | .timedStart _ => true
  | .tilePhaseMeasure _ err corr => i16 err && i16 corr
  | .chipOffsetWrite _ v => u32 v
  | .trigFire _ _ v => u32 v
  | .trigEmit _ => true
  | .trigArrival _ t => u64 t
  | .trigAction _ => true
  | .trigAccEnable _ _ v => u32 v
  | .timingSetWrite _ _ v => u32 v
  | .chDskWrite _ _ v => u32 v
  | .chCtrlWrite _ _ v => u32 v
  | .levelWrite _ _ _ v => u32 v
  | .levelSettled _ => true
  | .pmuCtrlWrite _ _ v => u32 v
  | .pmuConnectDone _ => true
  | .pmuRangeDone _ => true
  | .pmuMeas _ _ v => u32 v
  | .pmuMeasDone _ mean _ _ => i32 mean
  | .monitorCrossing _ _ input => i32 input
  | .monLatchClear _ _ v => u32 v
  | .monPeriodBoundary _ => true
  | .monCtrlWrite _ _ v => u32 v
  | .monThresholdWrite _ _ _ v => u32 v
  | .thresholdSettled _ => true
  | .dpsCtrlWrite _ _ v => u32 v
  | .vsetWrite _ _ v => u32 v
  | .rampEnd _ => true
  | .dpsSettled _ => true
  | .regLoss _ => true
  | .senseDrop _ => true
  | .share _ => true
  | .dpsRangeDone _ => true
  | .monitorSample _ volt curr _ _ => i32 volt && i32 curr
  | .dpsMeas _ _ v => u32 v
  | .smuMeas _ _ v => u32 v
  | .measurementDone _ => true
  | .smuCtrlWrite _ _ v => u32 v
  | .smuRangeDone _ => true
  | .sineFreqWrite _ _ v => u32 v
  | .supervisionMismatch _ => true
  | .mismatchClear _ _ v => u32 v
  | .tdcCtrlArm _ _ v => u32 v
  | .tdcCtrlDisarm _ _ v => u32 v
  | .tdcOpen _ => true
  | .tdcEvent _ e => e.wf
  | .pairTimeout _ => true
  | .tdcSpill _ n => decide (n ≤ 516)
  | .ringRecheck _ => true
  | .acqCtrlArm _ _ v => u32 v
  | .acqCtrlForce _ _ v => u32 v
  | .acqCtrlCancel _ _ v => u32 v
  | .acqSample _ a => a.wf
  | .acqComplete _ => true
  | .failCompress _ => true
  | .captureReduce _ => true
  | .resultPack _ => true
  | .dequePushRetry _ => true
  | .hearthTaskTakeover _ => true
  | .start o mask => o.wf && u64 mask
  | .pause o mask => o.wf && u64 mask
  | .resume o mask => o.wf && u64 mask
  | .retest o mask => o.wf && u64 mask
  | .abort o mask => o.wf && u64 mask
  | .siteFinish _ => true
  | .siteBind h entry => h.wf && entry.length == 64
  | .siteUnbind h mask => h.wf && u64 mask
  | .startChain _ entry => u16 entry
  | .pinJump _ => true
  | .pinCancel _ => true
  | .tset _ _ => true
  | .bank _ _ _ mask => u32 mask
  | .cmask _ _ mask => u32 mask
  | .drv _ _ _ mask => u32 mask
  | .trig _ => true
  | .clrfail _ => true
  | .level _ _ _ _ _ value => u16 value
  | .term _ _ _ mask => u32 mask
  | .dpsSet _ _ imm => u32 imm
  | .dpsIlim _ _ imm => u32 imm
  | .dpsEn _ _ _ => true
  | .dpsRamp _ _ _ imm => u32 imm
  | .smuSet _ _ imm => u32 imm
  | .smuClamp _ _ imm => u32 imm
  | .smuRange _ _ _ => true
  | .smuEn _ _ _ => true
  | .smuWave _ _ entry => u16 entry
  | .smuStop _ _ => true
  | .pmuCfg _ _ imm => u32 imm
  | .pmuForce _ _ imm => u32 imm
  | .tdcArm _ _ imm => u32 imm
  | .tdcStop _ _ => true
  | .acqArm _ _ imm => u32 imm
  | .acqForce _ _ => true
  | .wait _ ns => u32 ns
  | .settle _ _ _ ns => u32 ns
  | .measure _ _ _ ns => u32 ns
  | .read _ _ _ => true
  | .longOperationEnd _ => true
  | .commandRefused _ => true
  | .next _ => true
  | .jump _ => true
  | .call _ => true
  | .ret _ => true
  | .brt _ => true
  | .brf _ => true
  | .loop _ => true
  | .waitev _ => true
  | .waitevEnd _ => true
  | .dispatch _ => true
  | .yield _ => true
  | .trap _ => true
  | .mret _ => true
  | .halt _ => true
  | .parityError _ => true
  | .trapEntry _ => true
  | .abortTimeout _ => true
  | .engineEntry _ => true
  | .ld _ _ off _ => u32 off
  | .st _ _ off v => u32 off && u32 v
  | .ldp _ _ off _ => u32 off
  | .stp _ _ off v0 v1 => u32 off && u32 v0 && u32 v1
  | .loadComplete _ => true
  | .memoryError _ => true
  | .sem _ _ _ => true
  | .semrel _ _ => true
  | .record _ off _ => u32 off
  | .cmd _ off => u32 off
  | .cmdReply _ => true
  | .fld _ _ _ => true
  | .fst _ _ v => u32 v
  | .pusht _ _ => true
  | .engGo _ _ v => u32 v
  | .engStop _ _ v => u32 v
  | .engStep _ _ v => u32 v
  | .controlStoreWrite _ _ _ _ v => u32 v
  | .semAcqRead _ readers => !readers.isEmpty
  | .semAcqWrite _ _ => true
  | .semForce _ v => u32 v
  | .bitSetAliasWrite _ x v b => spWordAddr x && u32 v && b.all PortB.wf
  | .bitClearAliasWrite _ x v b => spWordAddr x && u32 v && b.all PortB.wf
  | .secWipe _ v => u32 v
  | .tamper widthPs => decide (0 < widthPs)
  | .scrubRead _ => true
  | .calibrate h a => h.wf && a.wf
  | .calStop h tile => h.wf && u8 tile
  | .calFlowDone _ flow results => u8 flow && results.all CalSeen.wf
  | .correctionApply _ => true
  | .calLoad h addr => h.wf && u64 addr
  | .patLoad h addr => h.wf && u64 addr
  | .segLoad h addr => h.wf && u64 addr
  | .csLoad h k addr => h.wf && u8 k && u64 addr
  | .status h => h.wf
  | .regRd h addrs => h.wf && addrs.all u64
  | .regWr h items => h.wf && items.all RegItem.wf
  | .blkRd h addr len => h.wf && u64 addr && u32 len
  | .blkWr h addr data => h.wf && u64 addr && u32 data.length
  | .flashWr h off data => h.wf && u32 off && u32 data.length
  | .flashErase h off sectors => h.wf && u32 off && u16 sectors
  | .hostJump h _ _ mask => h.wf && u64 mask
  | .softReset h key => h.wf && u32 key
  | .bootClear h => h.wf
  | .prepareRemove h => h.wf
  | .mbxPost h mbx epoch words => h.wf && u8 mbx && u8 epoch && words.all u32 && u8 words.length
  | .mbxRead h mbx max => h.wf && u8 mbx && u8 max
  | .doorbell h mbx => h.wf && u8 mbx
  | .mbxReset h mbx epoch => h.wf && u8 mbx && u8 epoch
  | .reservedOpcode h op => h.wf && u8 op
  | .injectFault h index unit => h.wf && u8 index && u8 unit
  | .injectInterrupt h index => h.wf && u8 index
  | .injectSensorReading h index value holdMs => h.wf && u8 index && u16 value && u16 holdMs
  | .injectSensorBroken h index cause => h.wf && u8 index && u8 cause
  | .forcedReadingExpiry _ => true
  | .fuseRead h word => h.wf && u16 word
  | .fuseOr h word v => h.wf && u16 word && u32 v
  | .versionRead h => h.wf
  | .mbxHostRx _ _ => true
  | .mbxHostTx _ _ v => u32 v
  | .mbxHostDb _ _ v => u32 v
  | .mbxEngTx _ _ v => u32 v
  | .mbxEngRx _ _ => true
  | .mbxEngDb _ _ v => u32 v
  | .cspStart _ _ v => u32 v
  | .cspAbort _ _ v => u32 v
  | .cspEnWrite _ _ v => u32 v
  | .cspTransferDone _ rx => decide (rx.length ≤ 4096)
  | .selectLost _ rx => decide (rx.length ≤ 4096)
  | .faultRaise _ unit => u8 unit
  | .fltAck _ v => u32 v
  | .fltInj _ v => u32 v
  | .irqSwset _ v => u32 v
  | .secRbCommit _ v => u32 v
  | .secLcReq _ v => u32 v
  | .secProvCmd _ v => u32 v
  | .fuseProgramDone _ => true
  | .debugUnlock _ v => u32 v
  | .linkBlockReceive _ b => b.wf
  | .flitReceive _ f => f.wf
  | .retryReq _ expected => seq12 expected
  | .retryReqResend _ => true
  | .partnerDetect _ => true
  | .linkInfo _ info => info.wf
  | .trainingStepDone _ _ => true
  | .linkUp _ => true
  | .retrain _ _ => true
  | .linkDown _ => true
  | .downExpiry _ => true
  | .porchEnWrite _ _ v => u32 v
  | .quietReq _ _ => true
  | .quietAck _ _ => true
  | .quietExit _ => true
  | .deepReq _ _ => true
  | .deepAck _ => true
  | .deepWake _ => true
  | .wakeTimeout _ => true
  | .leave _ => true
  | .discover _ f => f.wf
  | .assign _ f => f.wf
  | .routeSet _ f => f.wf
  | .regWrite _ addr v => u40 addr && u32 v
  | .thresholdArming _ input => i32 input
  | .currentLimit _ _ => true
  | .smuCompliance _ _ => true
  | .flashOperationDone _ => true
  | .leaveWaitExpiry _ => true
  | .sineGeneratorStep _ => true
  | .refreshRateReport _ => true
  | .commandAcknowledge _ => true
  | .por => true
  | .bor => true
  | .porRelease => true
  | .wdog => true
  | .wdogHalf => true
  | .soft => true
  | .debugReset => true
  | .lockup => true
  | .laneRef => true
  | .safeStateSequence => true
  | .bringup => true
  | .refDetect => true
  | .bootTimerExpiry => true
  | .thermalLogRetry => true
  | .warmHoldExpiry => true
  | .modeTransitionDone => true
  | .pantryLineGrant => true
  | .lineDecodeStart => true
  | .invalidationDone => true
  | .syncEvent => true
  | .timebaseWrap => true
  | .stealDisable => true
  | .wipeDone => true
  | .eventSend => true
  | .faultEscalation => true
  | .debugUnlockDone => true

end Sys2Proof
end

