-- ==== Sys2Proof/Tests/Slice0.lean ====
section
/-!
SUPPORT. Small checks of the model by the kernel: ill-formed commands that WellFormed refuses, values that the spec
gives, and for each statement with hypotheses states and operands that meet them.
-/

set_option Elab.async false
set_option linter.all false

namespace Sys2Proof.Machine
/-- A state with fields at the values listed. -/
def with_ (s : State) (l : List (Field × Nat × Nat)) : State := l.foldl (fun t x => t.put x.1 x.2.1 x.2.2) s

/-- A device whose bring-up is over, in a mode given, with every domain on and the smallest Cellar trained. -/
def upIn (m : Nat) : State :=
  with_ State.reset
    ([(H.BOOT_PHASE, 0, 4), (F.MODE_STAT_MODE, 0, m), (H.PD_CORE, 0, 1), (H.PD_H0, 0, 1), (H.PD_H123, 0, 1),
      (H.PD_PANTRY, 0, 1), (H.PD_FABRIC, 0, 1), (H.PD_CELLAR, 0, 1), (F.CEL_CFG_READY, 0, 1), (F.CEL_CFG_DENSITY, 0, 1),
      (F.CEL_CFG_CH_OK, 0, 255), (F.CEL_TOP_LO_TOP_LO, 0, 0xE0000000), (F.CEL_TOP_HI_TOP_HI, 0, 0x83)]
      ++ (List.range 8).map (fun t => (H.PD_TILE, t, 1)) ++ (List.range 8).map (fun g => (H.PD_ENG, g, 1))
      ++ (List.range 8).map (fun p => (H.PD_PORCH, p, 1)))


/-! ## Ill-formed commands, one for each check of WellFormed -/

/-- Register values of 32 bits, addresses, micro-word operands. -/
theorem test_illformed_registers :
    [(.rstSoft .fabric (2 ^ 32) : Instr), .regWrite .fabric (2 ^ 40) 0, .regWrite .fabric 0 (2 ^ 32), .startChain 0 0x10000,
      .bank 0 0 false (2 ^ 32), .ld 0 0 (2 ^ 32) 0, .st 0 0 0 (2 ^ 32), .stp 0 0 0 0 (2 ^ 32), .record 0 (2 ^ 32) 0,
      .tdcArm 0 0 (2 ^ 32), .wait 0 (2 ^ 32), .controlStoreWrite .fabric 0 0 0 (2 ^ 32)].all (fun c => !c.wf) = true := by decide

/-- Pulses of no width, codes of an analog part, times and list lengths. -/
theorem test_illformed_events :
    [(.pin 0 : Instr), .tamper 0, .contactCheckDone [], .chimneySample [], .tilePhaseMeasure 0 0x8000 0,
      .pmuMeasDone 0 0x80000000 false false, .monitorCrossing 0 false (-0x80000001), .trigArrival 0 (2 ^ 64), .tdcSpill 0 517,
      .tdcEvent 0 ⟨false, false, 0, 4096, 0, 0⟩, .acqSample 0 ⟨0x80000000, 0, false, false⟩, .lineDecodeDone 0x10000 0,
      .semAcqRead 0 [], .bitSetAliasWrite .fabric 2 0 none, .bitClearAliasWrite .fabric 0x200000 0 none,
      .bitSetAliasWrite .fabric 0 0 (some ⟨0, 1, 0⟩), .retryReq 0 4096, .faultRaise 0 256].all (fun c => !c.wf) = true := by decide

/-- Lists with one element too many. -/
theorem test_illformed_lists :
    Instr.wf (.vectorBoundary 0 (List.replicate 65 ⟨false, false, false⟩)) = false
      ∧ Instr.wf (.cspTransferDone 0 (List.replicate 4097 false)) = false
      ∧ Instr.wf (.selectLost 0 (List.replicate 4097 false)) = false := by decide +kernel

/-- Headers and arguments of host commands. -/
theorem test_illformed_host :
    [(.status ⟨320, 0⟩ : Instr), .status ⟨1, 0x10000⟩, .status ⟨256, 2⟩, .status ⟨256, 0x200000⟩, .mode ⟨1, 0⟩ 256,
      .regRd ⟨1, 0⟩ [2 ^ 64], .regWr ⟨1, 0⟩ [⟨0, 2 ^ 32⟩], .regWr ⟨1, 0⟩ [⟨2 ^ 64, 0⟩], .blkRd ⟨1, 0⟩ (2 ^ 64) 0, .patLoad ⟨1, 0⟩ (2 ^ 64),
      .csLoad ⟨1, 0⟩ 256 0, .flashErase ⟨1, 0⟩ 0 0x10000, .start (.host ⟨1, 0⟩) (2 ^ 64), .siteBind ⟨1, 0⟩ [], .calStop ⟨1, 0⟩ 256,
      .calibrate ⟨1, 0⟩ ⟨0, 0, 0x10000, 0, 0, 0, 0, 0⟩, .mbxPost ⟨1, 0⟩ 0 256 [], .mbxPost ⟨1, 0⟩ 0 0 [2 ^ 32], .reservedOpcode ⟨1, 0⟩ 256,
      .injectSensorReading ⟨1, 0⟩ 0 0x10000 0, .fuseOr ⟨1, 0⟩ 0x10000 0, .calFlowDone 0 1 [⟨112, 0, []⟩], .calFlowDone 0 1 [⟨0, 6, []⟩],
      .calFlowDone 0 1 [⟨0, 0, List.replicate 81 0⟩]].all (fun c => !c.wf) = true := by decide

/-- Flits, link blocks, LINK_INFO and what a bring-up shows. -/
theorem test_illformed_links :
    let f : Flit := ⟨0x30, 9, 1, 0, 0, false, false, 0, 8, true, []⟩
    let w : BootWorld := ⟨true, 2 ^ 28, false, none, none, 0, 1, 255, false⟩
    Instr.wf (.flitReceive 0 f) = true ∧ Instr.wf (.standbyEntry w) = true ∧ Instr.wf (.status ⟨256, 4⟩) = true
      ∧ [(.flitReceive 0 { f with typ := 256 } : Instr), .flitReceive 0 { f with seq := 4096 }, .flitReceive 0 { f with vc := 4 },
        .assign 0 { f with payload := List.replicate 128 0 }, .linkBlockReceive 0 ⟨true, false, 0, 0, 4096, 0, 0, 0⟩,
        .linkBlockReceive 0 ⟨true, false, 0, 0, 0, 16, 0, 0⟩, .linkInfo 0 ⟨2 ^ 64, 0, 0, false, true, 0, 0, 0, 0⟩,
        .linkInfo 0 ⟨0, 0, 0, false, true, 0, 256, 0, 0⟩, .standbyEntry { w with tileMismatch := 256 },
        .standbyEntry { w with flashSize := 2 ^ 33 }].all (fun c => !c.wf) = true := by decide +kernel

/-- No word spells a command, since the table gives no bits; a step takes the command at the front. -/
theorem test_no_word_spells_a_command : decodeTableWord 32 0 = none ∧ State.withFetchWord State.reset 32 0 = State.reset := ⟨rfl, rfl⟩

/-- Met by the reset state, with one command and another behind it, and with none. -/
theorem test_wit_StepRunsFront : (∃ (s : State) (c : Instr) (rest : List Instr), s.pending = c :: rest) ∧ State.reset.pending = [] :=
  ⟨⟨{ State.reset with pending := [.por, .bor] }, .por, [.bor], rfl⟩, rfl⟩

/-- Met by the reset state, and by one with a command waiting. -/
theorem test_wit_StepKeepsCanonicalForm : ∃ s t : State, s.Wf ∧ step s = .next t :=
  ⟨{ State.reset with pending := [.porRelease] }, _, by unfold State.Wf; decide +kernel, rfl⟩

theorem test_wit_PinResetByPulseWidth : 400000 < 500000 ∧ 500000 ≤ 700000 ∧ 700000 < 1000000
    ∧ (upIn mRUN).mode ≠ mHOLD ∧ (upIn mRUN).coldHeld = false := by decide +kernel

/-- A state that meets each hypothesis: RUN with the watchdog armed, a reset asked for, in life cycle DEVELOP; and an attempt. -/
theorem test_wit_WarmSourcesReset :
    let s := (((upIn mRUN).setB F.RST_WDOG_CTL_EN 0 true).put H.RST_SOFT_DUE 0 5).put F.SEC_STAT_LC_STATE 0 lcDEVELOP
    let u := ((State.reset.put H.BOOT_PHASE 0 3).put H.BOOT_TMR_END 0 9)
    (s.mode ≠ mHOLD ∧ s.coldHeld = false ∧ s.on F.RST_WDOG_CTL_EN 0 = true ∧ s.get H.RST_SOFT_DUE 0 ≠ 0 ∧ s.right 3 = true
      ∧ s.on F.RST_CTRL_LOCKUP_EN 0 = true ∧ bit 0xA5C30001 0 = true ∧ bits 0xA5C30001 16 16 = 0xA5C3)
      ∧ BusTakes s (.hearth 0) .RST_SOFT 0
      ∧ (u.mode ≠ mHOLD ∧ u.coldHeld = false ∧ u.inAttempt = true ∧ u.get H.BOOT_TMR_END 0 ≠ 0) := by
  refine ⟨by decide +kernel, ⟨by decide +kernel, by decide +kernel, by decide +kernel⟩, by decide +kernel⟩

theorem test_wit_ColdResets : State.reset.Wf ∧ State.reset.coldHeld = true ∧ State.reset.mode ≠ mHOLD ∧ F.RST_CAUSE_PIN ∈ aonFields
    ∧ F.MODE_STAT_MODE.id.val ∉ borKept := by
  unfold State.Wf; decide +kernel

theorem test_wit_BringupBegins : (State.reset.put H.BOOT_PHASE 0 1).mode = mBRINGUP
    ∧ (State.reset.put H.BOOT_PHASE 0 1).get H.BOOT_PHASE 0 = 1
    ∧ (State.reset.put H.BOOT_PHASE 0 2).mode = mBRINGUP ∧ (State.reset.put H.BOOT_PHASE 0 2).get H.BOOT_PHASE 0 = 2 := by
  decide +kernel

theorem test_wit_BringupEndsInAMode :
    let s := (State.reset.put H.BOOT_PHASE 0 3).put H.BOOT_TMR_END 0 9
    s.inAttempt = true ∧ s.on H.CORE0_HALT 0 = false ∧ s.now + 1 < s.get H.BOOT_TMR_END 0 := by decide +kernel

/-- A witness for each row at the value where the rows meet. -/
theorem test_wit_ContactClasses : contactClass ⟨-1200, 0⟩ = 1 ∧ contactClass ⟨-149, 0⟩ = 2 ∧ contactClass ⟨-150, -149⟩ = 3
    ∧ contactClass ⟨-1199, -150⟩ = 0 := by decide

theorem test_wit_ContactCheckRuns :
    BusTakes (upIn mSTANDBY) (.hearth 1) .CONTACT_CTL 0 ∧ bit 1 0 = true ∧ bit 1 2 = false ∧ (upIn mSTANDBY).entries = []
      ∧ (upIn mSTANDBY).mode = mSTANDBY ∧ (upIn mRUN).mode ≠ mSTANDBY
      ∧ (List.replicate 512 (⟨-700, -700⟩ : ContactSeen)).length = 512
      ∧ ((upIn mSTANDBY).put H.CONTACT_END 0 7).get H.CONTACT_END 0 ≠ 0
      ∧ ((upIn mSTANDBY).put H.CONTACT_END 0 7).on H.HDR_CONTACT 0 = false :=
  ⟨⟨by decide +kernel, by decide +kernel, by decide +kernel⟩, by decide +kernel, by decide +kernel, rfl, by decide +kernel,
    by decide +kernel, List.length_replicate, by decide +kernel, by decide +kernel⟩

theorem test_wit_WatchdogRegisters :
    (BusTakes (upIn mRUN) (.hearth 0) .RST_WDOG_CTL 0 ∧ BusTakes (upIn mRUN) (.hearth 0) .RST_WDOG_KICK 0)
      ∧ (upIn mRUN).on F.RST_WDOG_CTL_EN 0 = false ∧ bit 0xFFFF0001 0 = true ∧ bit 0xFFFF0000 0 = false
      ∧ 0x5A5A % 65536 = 0x5A5A ∧ 0 % 65536 ≠ 0x5A5A
      ∧ ((upIn mRUN).setB F.RST_WDOG_CTL_EN 0 true).on F.RST_WDOG_CTL_EN 0 = true
      ∧ ((upIn mRUN).setB F.RST_WDOG_CTL_EN 0 true).on H.WDOG_HALF_SEEN 0 = false
      ∧ ((upIn mRUN).setB F.RST_WDOG_CTL_EN 0 true).mode ≠ mHOLD :=
  ⟨⟨⟨by decide +kernel, by decide +kernel, by decide +kernel⟩, ⟨by decide +kernel, by decide +kernel, by decide +kernel⟩⟩,
    by decide +kernel⟩

theorem test_wit_OnlyTheseChangeMode : mayChangeMode .laneRef = false ∧ exec .laneRef State.reset = .next State.reset.laneRefLost :=
  ⟨rfl, rfl⟩

theorem test_wit_HoldLeftOnlyByColdReset : (upIn mHOLD).mode = mHOLD ∧ HoldAtRest (upIn mHOLD) := by
  unfold HoldAtRest; decide +kernel

theorem test_wit_HoldHasNoTransition : ∃ s t : State, HoldAtRest s ∧ step s = .next t :=
  ⟨upIn mHOLD, _, by unfold HoldAtRest; decide +kernel, rfl⟩

theorem test_wit_ModeCommandBegins : HostServes (upIn mSTANDBY) legalMode ∧ HostServes (upIn mRUN) legalMode
    ∧ (upIn mSTANDBY).mode = mSTANDBY ∧ (upIn mRUN).mode = mRUN ∧ (upIn mRUN).anyActive = false
    ∧ ((upIn mRUN).put F.SITE_STATE_STATE 5 sRUNNING).anyActive = true := by
  unfold HostServes; decide +kernel

theorem test_wit_ModeTransitionEnds :
    let s := with_ (upIn mSTANDBY) [(H.MODE_END, 0, 7), (F.MODE_STAT_TARGET, 0, mSLEEP)]
    let u := with_ (upIn mSLEEP) [(H.MODE_END, 0, 7), (F.MODE_STAT_TARGET, 0, mSTANDBY)]
    (s.get H.MODE_END 0 ≠ 0 ∧ s.safe = [] ∧ s.get F.MODE_STAT_TARGET 0 = mSLEEP)
      ∧ u.get H.MODE_END 0 ≠ 0 ∧ u.safe = [] ∧ u.get F.MODE_STAT_TARGET 0 ≠ mSLEEP ∧ u.mode = mSLEEP := by decide +kernel

theorem test_wit_WakeLeavesSleep : (upIn mSLEEP).mode = mSLEEP ∧ (upIn mSLEEP).on F.MODE_STAT_TRANSIT 0 = false
    ∧ (upIn mRUN).mode ≠ mSLEEP := by decide +kernel

theorem test_wit_FaultTaken :
    ((upIn mRUN).mode ≠ mHOLD ∧ (upIn mRUN).mode ≠ mSLEEP ∧ (upIn mRUN).on F.FLT_SUM_BUSY 0 = false ∧ (upIn mRUN).react 115 = 2)
      ∧ ((upIn mRUN).setB F.FLT_SUM_BUSY 0 true).on F.FLT_SUM_BUSY 0 = true
      ∧ ((upIn mRUN).put (reactField 116) 29 0).react 116 = 0 ∧ ((upIn mRUN).put (reactField 116) 29 1).react 116 = 1 := by
  decide +kernel

theorem test_wit_FaultAcknowledged :
    (BusTakes (upIn mRUN) (.hearth 0) .FLT_ACK 0 ∧ BusTakes (upIn mFACTORY) (.hearth 0) .FLT_INJ 0)
      ∧ (let s := with_ (upIn mRUN) [(F.FLT_SUM_BUSY, 0, 1), (F.FLT_SUM_ACTIVE, 0, 115), (H.FLT_END, 0, 9)]
         s.on F.FLT_SUM_BUSY 0 = true ∧ 115 % 128 = s.get F.FLT_SUM_ACTIVE 0 ∧ 3 % 128 ≠ s.get F.FLT_SUM_ACTIVE 0 ∧ s.get H.FLT_END 0 ≠ 0
           ∧ s.mode ≠ mHOLD ∧ s.esc (s.get F.FLT_SUM_ACTIVE 0) ≤ s.react (s.get F.FLT_SUM_ACTIVE 0))
      ∧ (upIn mFACTORY).mode = mFACTORY ∧ bit 0x10073 16 = true ∧ bits 0x10073 0 7 < 117 ∧ (upIn mFACTORY).react (bits 0x10073 0 7) < 3
      ∧ (upIn mRUN).mode ≠ mFACTORY := by
  refine ⟨⟨⟨?_, ?_, ?_⟩, ⟨?_, ?_, ?_⟩⟩, ?_⟩ <;> decide +kernel

theorem test_wit_SoftwareInterrupts : BusTakes (upIn mRUN) .fabric .IRQ_SWSET 0 ∧ 135 % 256 = 135 ∧ 192 % 256 = 192 ∧ 136 % 256 = 136 := by
  refine ⟨⟨?_, ?_, ?_⟩, ?_⟩ <;> decide +kernel

theorem test_wit_ChimneySampleTaken :
    let r : List SensorRaw := List.replicate 40 ⟨485, false, false, false⟩
    r.length = 40 ∧ (upIn mRUN).coldHeld = false ∧ (upIn mRUN).on F.THM_TEMP_BROKEN 29 = false ∧ (upIn mRUN).on F.THM_TEMP_FORCED 29 = false
      ∧ (upIn mRUN).on H.THM_IMPL 29 = false ∧ r[29]? = some ⟨485, false, false, false⟩
      ∧ (List.replicate 40 (⟨0, true, false, false⟩ : SensorRaw))[39]? = some ⟨0, true, false, false⟩
      ∧ (upIn mRUN).mode ≠ mHOLD := by decide +kernel

theorem test_wit_ThermalUpkeep :
    (let s := with_ (upIn mSTANDBY) [(H.THM_LOG_STEP, 0, 2), (F.THM_LOG_STAT_REC_VALID, 0, 1), (F.THM_TEMP_BROKEN, 0, 1)]
     s.get H.THM_LOG_STEP 0 ≠ 0 ∧ s.logWaits = true ∧ s.coreCold = true)
      ∧ (let s := (upIn mSTANDBY).put H.THM_LOG_STEP 0 2
         s.get H.THM_LOG_STEP 0 ≠ 0 ∧ s.coreCold = false)
      ∧ ((upIn mRUN).put H.THM_FORCE_END 39 8).get H.THM_FORCE_END 39 ≠ 0 ∧ (upIn mRUN).on H.PD_CELLAR 0 = true
      ∧ (let s := with_ (upIn mRUN) [(H.PO_LANE_T, 7, 8), (F.PORCH_STAT_STATE, 7, 5)]
         s.get H.PO_LANE_T 7 ≠ 0 ∧ s.carries 7 = true)
      ∧ (upIn mRUN).mode ≠ mHOLD ∧ (upIn mRUN).react 115 < 3 := by decide +kernel

theorem test_wit_ChannelControlWritten : BusTakes (upIn mRUN) .fabric .CH_CTRL 6 ∧ (upIn mRUN).chTripHeld 6 = false
    ∧ (upIn mRUN).pairOk 6 = true ∧ ((upIn mRUN).setB F.CH_CTRL_BOUND 6 true).pairOk 6 = false := by
  unfold BusTakes; decide +kernel

theorem test_chCtrl : ((upIn mRUN).swWrite .fabric .CH_CTRL 6 0x9).get F.CH_CTRL_KEEP_MODE 6 = 1
    ∧ ((upIn mRUN).swWrite .fabric .CH_CTRL 6 0x9).get F.CH_CTRL_DRV_EN 6 = 1 := by decide +kernel

theorem test_wit_LevelsWritten : BusTakes (upIn mRUN) .fabric (levelReg 7) 300
    ∧ (upIn mRUN).chSite 300 = none
    ∧ ((upIn mRUN).put H.CH_SETTLE_END 300 41).due H.CH_SETTLE_END 300 = some 40
    ∧ ((upIn mRUN).put H.CH_SETTLE_END1 300 41).due H.CH_SETTLE_END1 300 = some 40
    ∧ (upIn mRUN).due H.CH_SETTLE_END 300 = none ∧ (upIn mRUN).due H.CH_SETTLE_END1 300 = none := by
  unfold BusTakes; decide +kernel

theorem test_level_clamped : ((upIn mRUN).swWrite .fabric .CH_VIH0 300 0x7FFF).get F.CH_VIH0_VALUE 300 = 26000 := by
  decide +kernel

theorem test_wit_PmuControlled : BusTakes (upIn mRUN) .fabric .PMU_CTRL 77 ∧ (upIn mRUN).pmuBarred 77 0x1101 = false
    ∧ ((upIn mRUN).setB F.CH_CTRL_PAIR 76 true).pmuBarred 77 0x1101 = true ∧ bit 0x1101 12 = true
    ∧ bits 0x1101 4 3 = (upIn mRUN).get F.PMU_CTRL_RANGE 77 ∧ (upIn mRUN).on F.PMU_CTRL_BUSY 77 = false
    ∧ ((upIn mRUN).put H.CH_PMU_SW_END 77 41).due H.CH_PMU_SW_END 77 = some 40
    ∧ ((upIn mRUN).put H.CH_PMU_RNG_END 77 41).due H.CH_PMU_RNG_END 77 = some 40
    ∧ ((upIn mRUN).put H.CH_PMU_MEAS_END 77 41).due H.CH_PMU_MEAS_END 77 = some 40 := by
  unfold BusTakes; decide +kernel

theorem test_wit_ChannelRowsKeepToTheirChannel : ∃ t, exec (.pmuRangeDone 3) (upIn mRUN) = .next t := ⟨_, rfl⟩

theorem test_wit_SupplyControlled :
    let s := (upIn mRUN).setB F.DPS_CTRL_LEAD 9 true
    let u := (s.setB F.DPS_CTRL_EN 9 true).setB F.DPS_STAT_ON 9 true
    let h := s.put F.THM_TEMP_READING 14 421
    (BusTakes s .fabric .DPS_CTRL 9 ∧ BusTakes s .fabric .DPS_VSET 9) ∧ s.dpsBarred 9 = false ∧ dpsCtrlOpen s 9 1
      ∧ s.on F.DPS_CTRL_EN 9 = false ∧ s.dpsEnRefusal 9 = 0 ∧ u.on F.DPS_CTRL_EN 9 = true ∧ dpsCtrlOpen u 9 0
      ∧ (s.setB F.DPS_CTRL_LEAD 9 false).dpsBarred 9 = true ∧ h.dpsEnRefusal 9 = 1
      ∧ ((s.setB F.MON_STAT_LATCH (monIdx 18) true).dpsEnRefusal 9 = 2) := by
  unfold BusTakes dpsCtrlOpen; decide +kernel

theorem test_wit_SupplyEvents :
    let s := with_ (upIn mRUN) [(F.DPS_CTRL_LEAD, 9, 1), (F.DPS_CTRL_EN, 9, 1), (F.DPS_STAT_ON, 9, 1)]
    let r := s.put F.DPS_VSET_VALUE 9 100
    let g := with_ s [(F.DPS_CTRL_MEMBERS, 9, 1), (F.DPS_STAT_ON, 10, 1), (F.DPS_CTRL_LEAD, 10, 0)]
    s.on F.DPS_STAT_ON 9 = true ∧ s.ramping 9 = false ∧ s.rampEndAt (s.leadOf 9) = none ∧ r.rampEndAt (r.leadOf 9) = some 7680000
      ∧ r.ramping 9 = true ∧ s.getI H.DPS_POINT 9 = s.getI F.DPS_VSET_VALUE 9 ∧ g.leadOf 10 = 9
      ∧ (s.put H.DPS_RNG_END 9 41).due H.DPS_RNG_END 9 = some 40 := by decide +kernel

theorem test_wit_MeasurementsRun :
    let s := upIn mRUN
    (BusTakes s .fabric .DPS_MEAS 63 ∧ BusTakes s .fabric .SMU_MEAS 31) ∧ bit 8 3 = true ∧ s.on F.DPS_MEAS_BUSY 63 = false
      ∧ s.on F.SMU_MEAS_BUSY 31 = false ∧ s.on H.DPS_CAL_OWNED 63 = false ∧ s.on H.SMU_CAL_OWNED 31 = false ∧ s.tileOn 7 = true
      ∧ (s.setB F.DPS_MEAS_BUSY 63 true).get H.DPS_MEAS_LEFT 63 = 0
      ∧ ((s.setB F.DPS_MEAS_BUSY 63 true).put H.DPS_MEAS_LEFT 63 4).get H.DPS_MEAS_LEFT 63 ≠ 0
      ∧ (s.setB F.SMU_MEAS_BUSY 31 true).get H.SMU_MEAS_LEFT 31 = 0 := by
  unfold BusTakes; decide +kernel

theorem test_wit_SmuControlled :
    let s := upIn mRUN
    let n := s.setB F.SMU_CTRL_EN 31 true
    (BusTakes s .fabric .SMU_CTRL 31 ∧ BusTakes s .fabric .SMU_STAT 31)
      ∧ bits 145 5 3 = s.get F.SMU_CTRL_IRANGE 31 ∧ bits 145 1 2 = 0 ∧ bit 145 0 = true ∧ s.get F.SMU_CTRL_SRC 31 = 0
      ∧ bits 145 4 1 = s.get F.SMU_CTRL_VRANGE 31 ∧ bits 145 3 1 = s.get F.SMU_CTRL_FMODE 31
      ∧ s.smuEnRefusal 31 = 0 ∧ (s.setB F.SMU_STAT_MISMATCH 31 true).smuEnRefusal 31 ≠ 0 ∧ n.on F.SMU_CTRL_EN 31 = true
      ∧ n.smuRanging 31 = false ∧ (n.put H.SMU_RNG_END 31 41).due H.SMU_RNG_END 31 = some 40 := by
  unfold BusTakes; decide +kernel

theorem test_wit_SineGenerated : BusTakes (upIn mRUN) .fabric .SMU_SINE_FREQ 0 ∧ (upIn mRUN).on H.SMU_CAL_OWNED 0 = false
    ∧ ((upIn mRUN).put F.SMU_CTRL_SRC 0 2).get F.SMU_CTRL_SRC 0 = 2 := by
  unfold BusTakes; decide +kernel

theorem test_wit_SafeSequenceRuns : ∃ s : State, s.safe = [⟨.tile 2, 7, 1, none, none⟩] :=
  ⟨{ upIn mRUN with safe := [⟨.tile 2, 7, 1, none, none⟩] }, rfl⟩

theorem test_wit_InjectionAndFuses : HostServes (upIn mFACTORY) legalFactory ∧ (upIn mFACTORY).coreCold = false
    ∧ (upIn mFACTORY).lc = lcDEVELOP := by
  unfold HostServes; decide +kernel

theorem test_wit_MonitorsLatchAndTrip :
    let j := monIdx 53
    let s := with_ (upIn mRUN) [(F.MON_CTRL_EN, j, 1), (F.MON_CTRL_TRIP_EN, j, 1), (F.MON_STAT_ARM_HI, j, 0), (F.MON_HI_VALUE, j, 24000)]
    crossingCounts s j true 24001 ∧ ¬ crossingCounts s j true 24000 ∧ s.latched j = false ∧ s.monOwned j = false
      ∧ (s.setB F.MON_STAT_LATCH j true).latched j = true ∧ s.on F.MON_CTRL_TRIP_EN j = true ∧ monIsDps j = true
      ∧ monIsDps (monIdx 130) = false
      ∧ ((s.setB H.MON_MEM_BOUND j true).put H.MON_MEM_SITE j 20).monSite j = some 20 := by
  unfold crossingCounts; decide +kernel

theorem test_monitor_cold_window : State.reset.monLo 0 = -32768 ∧ State.reset.monHi 0 = 32767
    ∧ ((State.reset.monThrSet .lo 0 0xFFFF).regShown .MON_LO 0) = 0xFFFF := by decide +kernel

theorem test_wit_MonitorsSetAndArm :
    let j := monIdx 159
    let s := with_ (upIn mRUN) [(F.MON_CTRL_EN, j, 1), (F.MON_CTRL_CLR_MODE, j, 1), (F.MON_PERIOD_US, j, 65535), (H.MON_SET_END, j, 41),
      (H.MON_CHG, j, 3), (F.MON_STAT_ARM_HI, j, 2)]
    (BusTakes s .fabric .MON_CTRL j ∧ BusTakes s .fabric .MON_HI j ∧ BusTakes s .fabric .MON_LO j ∧ BusTakes s .fabric .MON_HYST j
      ∧ BusTakes s .fabric .MON_STAT j) ∧ ¬ monCtrlRefused s j 1 ∧ s.due H.MON_SET_END j = some 40
      ∧ monCtrlRefused ((upIn mRUN).setB F.DPS_CTRL_EXT 0 true) (monIdx 3) 1 := by
  unfold BusTakes monCtrlRefused; decide +kernel

theorem test_wit_TimingSetsAndDeskew :
    let s := upIn mRUN
    let b := with_ s [(F.CH_CTRL_BOUND, 511, 1), (F.CH_CTRL_SITE, 511, 63)]
    (BusTakes s .fabric .TSET_PER 1023 ∧ BusTakes s .fabric .TS_EDGE 49151 ∧ BusTakes s .fabric .CH_DSK 511
      ∧ BusTakes s .fabric .CHIP_OFFSET 0) ∧ s.anyActive = false ∧ (b.put F.SITE_STATE_STATE 63 sRUNNING).anyActive = true
      ∧ b.chSite 511 = some 63 ∧ b.active 63 = false ∧ (b.put F.SITE_STATE_STATE 63 sPAUSED).active 63 = true := by
  unfold BusTakes; decide +kernel

theorem test_period_clamp : ((upIn mRUN).swWrite .fabric .TSET_PER 17 0x3FF00000).get F.TSET_PER_FINE 17 = 666 := by decide +kernel

theorem test_wit_TimebaseAndTriggers :
    let s := upIn mRUN
    let a := s.put F.TRIG_STAT_ARMED 7 1
    (BusTakes s .fabric .TRIG_FIRE_LO 7 ∧ BusTakes s .fabric .TRIG_ACC_CTRL 7)
      ∧ (s.put F.TB_CTRL_SYNC_MODE 0 1).loadBarred = false ∧ a.loadBarred = true ∧ s.unsynced = false
      ∧ (s.put F.TB_CTRL_SYNC_MODE 0 1).unsynced = true ∧ a.on F.TRIG_STAT_ARMED 7 = true ∧ s.on H.TB_RELOAD 0 = false
      ∧ s.now < 2 ^ 128 ∧ s.get2 F.SYNC_LOAD_LO_LOAD_LO F.SYNC_LOAD_HI_LOAD_HI 0 < 2 ^ 52
      ∧ qGet ({ s with trigActs := [(7, [5, 3])] } : State).trigActs 7 = [5, 3] := by
  unfold BusTakes; decide +kernel

theorem test_wit_PantryServes :
    let s := upIn mRUN
    let j : DecJob := ⟨⟨7, 0, 1, 0, false⟩, 3, none, none, none⟩
    (BusTakes s .fabric .PAN_INVAL 0 ∧ BusTakes s .fabric .PAN_UNDERRUN 0 ∧ BusTakes s .fabric .PAN_EVICT 0
      ∧ BusTakes s .fabric .PAN_OVERBUDGET 0 ∧ BusTakes s .fabric .PAN_DECODE_ERR 0)
      ∧ s.on F.PAN_INVAL_BUSY 0 = false ∧ s.invalBarred true 0 = false ∧ (s.setB F.PAN_INVAL_BUSY 0 true).on F.PAN_INVAL_BUSY 0 = true
      ∧ ({ s with jobs := [j] } : State).jobs.find? (fun j => j.req.pat == 7 && j.req.line == 0) = some j
      ∧ ({ s with jobs := [j] } : State).jobLine j = none := by
  unfold BusTakes; decide +kernel

/-- A site 0 of one channel whose chain is at entry 0 of pattern 0, S = 1, which wants its first line. -/
def wantsLine : State :=
  let s := with_ (upIn mRUN) [(H.SQ_WAIT, 0, 1), (F.SITE_STATE_STATE, 0, sRUNNING), (F.SEQ_STAB_COUNT_COUNT, 0, 1)]
  { s with cellar := memSetBytes ramByte (memSetBytes ramByte [] 2 ([0, 1, 0, 1] ++ zeros 3 ++ [4]) ) 0x40000 ([0, 0, 1] ++ zeros 5 ++ [4]) }

theorem test_wit_PantryServes_lines :
    (wantsLine.reqsNow.jobs.length < 16 ∧ (wantsLine.reqsNow.nextReq).isSome = true ∧ wantsLine.reqsNow.freeSlot = some 0)
      ∧ (({ wantsLine with lines := [⟨0, 0, 5, false, [], 0, []⟩] } : State).portReady 0).isSome = true := by decide +kernel

/-- The worked block of 07_pattern_store.md: 512 vectors, of which vector 5 reads 11 01 11 11 55 55 54 55. -/
theorem test_block_example :
    (decodeToks ⟨8, 16, 16, false⟩ [] 0 6 22
      [0x60, 0x04, 0x10, 0x01, 0x11, 0x11, 0x11, 0x11, 0x55, 0x55, 0x55, 0x55, 0x51, 0x03, 0x00, 0x0C, 0x04, 0x00] []).map
        (fun l => nthD l 5 []) = some [0x11, 0x01, 0x11, 0x11, 0x55, 0x55, 0x54, 0x55] := by decide +kernel

theorem test_wit_SequencerRuns :
    let s := with_ wantsLine [(H.SQ_WAIT, 0, 0), (H.SQ_PLAYING, 0, 1), (H.SQ_NEXT_T, 0, 9)]
    let w := wantsLine
    (s.on H.SQ_PLAYING 0 = true ∧ s.get H.SQ_STOP_REQ 0 = 0 ∧ s.curPos 0 < sgVecs (s.segEntry (s.curEntry 0))
        ∧ s.stallOver 0 (s.get H.SQ_NEXT_T 0) = false ∧ s.on F.SEQ_SSTAT_STALLING 0 = false
        ∧ pdVpl (s.patDesc (sgPat (s.segEntry (s.curEntry 0)))) = 4096)
      ∧ ((w.put H.SQ_WAIT 0 2).get H.SQ_WAIT 0 = 2 ∧ w.active 0 = true)
      ∧ (let x := w.put H.SQ_WAIT 0 4
         x.siteState 0 = sRUNNING ∧ x.throttleHolds 0 = false ∧ x.startFits 0 = true)
      ∧ (let y := with_ s [(F.SEQ_SSTAT_STALLING, 0, 1), (F.SEQ_UNDERRUN_STALL_LIMIT_US, 0, 65535)]
         y.on F.SEQ_SSTAT_STALLING 0 = true ∧ y.get F.SEQ_UNDERRUN_STALL_LIMIT_US 0 ≠ 0) := by decide +kernel

theorem test_wit_SequencerRuns_jumps :
    let s := with_ wantsLine [(H.SQ_WAIT, 0, 0), (H.SQ_PLAYING, 0, 1)]
    let v := with_ s [(F.SMUW_CUR_PLAYING, 31, 1), (F.SMU_CTRL_SITE, 31, 0)]
    (BusTakes s .fabric (jumpReg (.site 63)) (jumpIdx (.site 63)) ∧ BusTakes s .fabric (jumpReg (.smu 31)) (jumpIdx (.smu 31)))
      ∧ jumpTaken s (.site 0) = true ∧ jumpTaken s (.site 63) = false ∧ jumpDecided s (.site 0) = false ∧ jumpTaken v (.smu 31) = true
      ∧ (let e := s.segEntry 0; s.get H.SW_POS 31 < sgVecs e ∧ v.wavePlays 31 = true)
      ∧ (qGet ({ s with waveBuf := [(31, [⟨0, 0, false, []⟩])] } : State).waveBuf 31).find? (fun b => b.pat == 0 && b.line == 0)
          = some ⟨0, 0, false, []⟩ := by
  unfold BusTakes; decide +kernel

/-- A micro-word of good parity from its fields (R245): SEQ [127:124], COND [123:118], TGT [117:106], ALU [105:100], SA
[99:94], SB [93:88], DST [87:82], IMM [81:50], PIN [49:34], ANA [33:18], MEM [17:10], CNT [9:4]. -/
def mkWord (seq cond tgt al sa sb dst imm pin ana mem cnt : Nat) : Nat :=
  let w := seq * 2 ^ 124 + cond * 2 ^ 118 + tgt * 2 ^ 106 + al * 2 ^ 100 + sa * 2 ^ 94 + sb * 2 ^ 88 + dst * 2 ^ 82 + imm * 2 ^ 50
    + pin * 2 ^ 34 + ana * 2 ^ 18 + mem * 2 ^ 10 + cnt * 2 ^ 4
  if parityOk w then w else w + 1

/-- Site 5 on tile 2: engine 3, channels 128 to 131, DPS 16 and 17, SMU 8, TDC 32. -/
def entry5 : SiteEntry :=
  { site := 5, engine := 3, tile := 2, flags := 0, pair := 0, chMask := 15, dps := 3, gang := 0, smu := 1, tdc := 1,
    stallLimit := 0, startTmo := 0, startEntry := 0xFFFF, recBase := 0x8010000000, recSize := 0x10000, failLimit := 0,
    failBase := 0x8010100000, failSize := 1024 }

/-- A device in RUN whose site 5 is bound and RUNNING, with its engine 3 running at word 100, which is w. -/
def runAt (w : Nat) : State :=
  let s := with_ (upIn mRUN)
    ([(H.ENG_SITE, 3, 5), (F.ENG_STAT_STATE, 3, eRUN), (F.ENG_STAT_PC, 3, 100), (F.SITE_STATE_STATE, 5, sRUNNING),
      (F.SITE_STATE_ENGINE, 5, 3), (F.SITE_STATE_TILE, 5, 2), (H.ENG_FLAGS, 3, 16), (F.DPS_CTRL_LEAD, 16, 1), (F.DPS_CTRL_LEAD, 17, 1)]
      ++ [128, 129, 130, 131].map (fun c => (F.CH_CTRL_BOUND, c, 1)) ++ [128, 129, 130, 131].map (fun c => (F.CH_CTRL_SITE, c, 5))
      ++ [16, 17].map (fun d => (F.DPS_CTRL_BOUND, d, 1)) ++ [16, 17].map (fun d => (F.DPS_CTRL_SITE, d, 5))
      ++ [(F.SMU_CTRL_BOUND, 8, 1), (F.SMU_CTRL_SITE, 8, 5), (F.TDC_CTRL_BOUND, 32, 1), (F.TDC_CTRL_SITE, 32, 5)])
  { s with entries := [(5, entry5)], cstore := [(3 * 4096 + 100, w)] }

/-- Each SEQ value once, on engine 3; CALL with an ALU and a PINOP, LOOP at counter 1. -/
theorem test_wit_WordsRun :
    ∀ seq : Fin 13, seq.val ≠ 11 →
      let s := runAt (mkWord seq (if seq.val = 6 then 1 else 0) 200 2 1 2 3 7 0x8000 0 0 0)
      wordReady s 3 ∧ wordAtOnce (wordAt s 3) ∧ wSEQ (wordAt s 3) = seq.val ∧ s.rspOf 3 < 16 ∧ s.on F.ENG_STAT_TASK_HELD 3 = false
        ∧ s.on H.ENG_START_PEND 3 = false ∧ s.aborting 3 = false ∧ s.depthOf 3 < 8 ∧ wDST (wordAt s 3) < 48
        ∧ s.engSite 3 = some 5 ∧ s.active 5 = true ∧ s.on H.ST_HALTED 5 = false := by
  unfold wordReady wordAtOnce noStop; decide +kernel

theorem test_wit_WordsRun_more :
    (let s := with_ (runAt (mkWord 11 0 0 0 0 0 0 0 0 0 0 0)) [(F.ENG_STAT_DEPTH, 3, 1), (H.ENG_FRAME, 48, 7)]
     wordReady s 3 ∧ wordAtOnce (wordAt s 3) ∧ wSEQ (wordAt s 3) = 11 ∧ s.frameW 3 6 = 0)
      ∧ (let s := with_ (runAt (mkWord 3 0 0 0 0 0 0 0 0 0 0 0)) [(F.ENG_STAT_RSP, 3, 16)]
         wordReady s 3 ∧ s.rspOf 3 ≠ 0)
      ∧ (let s := runAt (mkWord 7 1 200 0 0 0 0 9 0 0 0 0)
         wordReady s 3 ∧ s.cond 3 (wCOND (wordAt s 3)) = false)
      ∧ (let s := (runAt (mkWord 9 0 200 0 0 0 0 0 0 0 0 0)).setB F.ENG_CTRL_STEAL_EN 3 true
         let t := (s.dqPush 3 (mkTask 1 5 0 0 1 0)).1
         wordReady t 3 ∧ t.on F.ENG_CTRL_STEAL_EN 3 = true ∧ t.dqLen 3 ≠ 0) := by
  unfold wordReady wordAtOnce noStop; decide +kernel

/-- CALL of word 200 by word 100 with ADD G3 = G1 + G2 and a TRIG (R252, R253): the sum, the return address, the command. -/
theorem test_call_word :
    let s := with_ (runAt (mkWord 2 0 200 2 1 2 3 0 0x8000 0 0 0)) [(H.ENG_G, 193, 0xFFFFFFFF), (H.ENG_G, 194, 2)]
    (s.wordRow 3 2).get H.ENG_G 195 = 1 ∧ (s.wordRow 3 2).get H.ENG_RSTK 48 = 101 ∧ (s.wordRow 3 2).pcOf 3 = 200
      ∧ (qGet (s.wordRow 3 2).cmdq 3).map (fun c => c.op) = [0x8000] ∧ flC ((s.wordRow 3 2).get H.ENG_FLAGS 3) = true := by
  decide +kernel

theorem test_wit_LongOperationsRun :
    let s := runAt (mkWord 0 0 0 0 0 0 0 0 0 0 0 0)
    let l := with_ s [(H.ENG_WAIT, 3, 1), (H.ENG_WAIT_END, 3, 41), (H.ENG_NEXT, 3, 101)]
    (servesSite s 3 5 entry5 ∧ s.atBoundary 3 = true ∧ qMatch (qGet s.cmdq 3) true 24 = none ∧ s.unitOf 3 1 0 = some 17
        ∧ s.unitOf 3 0 2 = some 72 ∧ s.unitOf 3 3 4 = some 259 ∧ s.unitCal 72 = false)
      ∧ (goesOn l 3 ∧ l.due H.ENG_WAIT_END 3 = some 40 ∧ l.get H.ENG_WAIT 3 = 1)
      ∧ (goesOn (l.put H.ENG_WAIT 3 3) 3 ∧ (l.put H.ENG_WAIT 3 3).on H.ENG_WAIT_DONE 3 = false)
      ∧ (let x := with_ (l.put H.ENG_WAIT 3 2) [(H.ENG_WAIT_UNIT, 3, 17), (F.DPS_STAT_SETTLED, 17, 1)]
         goesOn x 3 ∧ x.get H.ENG_WAIT_UNIT 3 = 17 ∧ x.on F.DPS_STAT_SETTLED 17 = true)
      ∧ (let x := with_ (runAt (mkWord 7 1 9 0 0 0 0 0 0 0 0 0)) [(H.ENG_WAIT, 3, 4), (H.ENG_WAIT_END, 3, 41)]
         noStop x 3 ∧ wSEQ (wordAt x 3) = 7 ∧ x.cond 3 (wCOND (wordAt x 3)) = false
           ∧ (x.put H.ENG_FLAGS 3 17).cond 3 (wCOND (wordAt x 3)) = true)
      ∧ (let x := s.setB H.ENG_LD_ON 3 true
         wSEQ (wordAt x 3) ∈ [0, 1, 4, 5, 6, 8] ∧ (qGet x.memq 3).any (fun m => memLoads (m.op * 16)) = false)
      ∧ (let x : State := { s with cmdq := [(3, [⟨false, 0x8000, 0, 99, true⟩])], refused := [(3, [⟨99, 4, true⟩])] }
         qGet x.cmdq 3 = [⟨false, 0x8000, 0, 99, true⟩] ∧ qGet x.refused 3 = [⟨99, 4, true⟩] ∧ servesSite x 3 5 entry5) := by
  unfold servesSite goesOn noStop; decide +kernel

theorem test_wit_PinCommandsAct :
    let s := runAt 0
    (serves s 3 5 entry5 ∧ chansFree s entry5 ∧ s.on H.SQ_PLAYING 5 = false ∧ s.get H.SQ_WAIT 5 = 0 ∧ s.siteState 5 ≠ sPAUSED
        ∧ s.pinBad 5 0 ≠ 0 ∧ (∀ c ∈ entry5.channels, s.chTripHeld c = false) ∧ entry5.channels[3]? = some 131
        ∧ maskChans entry5 0 9 = [128, 131] ∧ s.engSite 4 = none)
      ∧ (let x := with_ wantsLine [(H.ENG_SITE, 3, 0), (H.SQ_WAIT, 0, 0)]
         let y : State := { x with entries := [(0, { entry5 with site := 0 })] }
         serves y 3 0 { entry5 with site := 0 } ∧ y.pinBad 0 0 = 0 ∧ y.budgetAllows 0 (y.entryPeriod 0 0) = true
           ∧ (y.setB F.MODE_STAT_THROTTLE 0 true).on F.MODE_STAT_THROTTLE 0 = true)
      ∧ (let x := s.setB H.SQ_PLAYING 5 true
         (x.active 5 && (x.hasPass 5 || x.get H.SQ_WAIT 5 == 4)) = true) := by
  unfold serves chansFree; decide +kernel

theorem test_wit_AnalogCommandsAct :
    let s := runAt 0
    (servesSite s 3 5 entry5 ∧ entry5.dpsList[1]? = some 17 ∧ s.dpsBarred 17 = false ∧ s.on F.DPS_CTRL_EN 17 = false ∧ s.dpsEnRefusal 17 = 0
        ∧ (s.setB F.DPS_CTRL_EN 17 true).on F.DPS_CTRL_EN 17 = true ∧ (s.setB F.DPS_CTRL_LEAD 17 false).dpsBarred 17 = true
        ∧ (s.put F.MON_CTRL_SELFCHK (monIdx 34) 1).dpsEnRefusal 17 = 4)
      ∧ (entry5.smuList[0]? = some 8 ∧ s.on H.SMU_CAL_OWNED 8 = false ∧ s.get F.SMU_CTRL_SRC 8 = 0 ∧ bits 3 4 1 = s.get F.SMU_CTRL_FMODE 8
        ∧ s.smuEnRefusal 8 = 0)
      ∧ (entry5.channels[3]? = some 131 ∧ s.pmuBarred 131 0x101 = false)
      ∧ (entry5.tdcList[0]? = some 32 ∧ s.tdcArmRefusal 32 0xF00F0 = 0 ∧ s.on H.TDC_CAL_OWNED 32 = false)
      ∧ (let x := with_ s [(F.ACQ_BUF_HI_LOG2, 17, 10), (F.ACQ_BUF_LO_BASE_LO, 17, 0x20000), (F.ACQ_BUF_HI_BASE_HI, 17, 0x80)]
         acqOf entry5 1 = some 17 ∧ x.acqArmRefusal 17 0 = 0 ∧ servesSite x 3 5 entry5
           ∧ (x.put F.ACQ_CTRL_STATE 17 aREADY).acqState 17 = aREADY) := by
  unfold servesSite; decide +kernel

/-- runAt with a word that does nothing. -/
def idleRun : State := runAt (mkWord 0 0 0 0 0 0 0 0 0 0 0 0)

/-- A record area of 64 KiB, empty and backed. -/
def recAt (s : State) : Prop := s.recFits entry5 16 = true ∧ s.celErr = [] ∧ s.celBacked (celOff entry5.recBase) 0x11000 = true

theorem test_wit_MemoryOperations :
    let s := idleRun
    memGood 0 0x1000 8 ∧ memGood 1 0x1000 8 ∧ inSecure (0x3F0000 % scratchSize) = true
      ∧ (let c := s.put F.ENG_CEL_BASE_HI_BASE_HI 3 0x80
         (c.celRead clsHearth (c.engCel 3 64) 4).2 = some [0, 0, 0, 0] ∧ c.celBacked (c.engCel 3 64) 8 = true
           ∧ c.celStuck (c.engCel 3 64) 8 = [] ∧ s.celBacked (s.engCel 3 64) 4 = true
           ∧ (c.put F.ENG_CEL_BASE_HI_BASE_HI 3 0xFF).celBacked ((c.put F.ENG_CEL_BASE_HI_BASE_HI 3 0xFF).engCel 3 64) 4 = false)
      ∧ s.semReserved 60 = false ∧ s.semHeld 60 = false ∧ (s.semTake 60 3).semHeld 60 = true
      ∧ (s.semTake 60 3).get F.SEM_PEEK_OWNER 60 = 3 ∧ s.storesOut 3 = false
      ∧ s.engStream 3 = some (5, 0) ∧ s.entryOf 5 = some entry5 ∧ recAt s ∧ meetsSecure 0x100 16 = false
      ∧ s.dqLen 3 ≠ 32 ∧ ((s.spPut (dqBotA 3) 32).dqLen 3 = 32) ∧ s.engStream 4 = none
      ∧ (let x : State := { s with memErrs := [(3, [⟨100, true, 2, 8⟩])] }; qGet x.memErrs 3 = [⟨100, true, 2, 8⟩])
      ∧ (let x : State := { s with replies := [⟨259, 0x100, 0x50, [0, 3, 15, 0]⟩] }
         x.replies.find? (fun r => r.dst == 256 + 3) = some ⟨259, 0x100, 0x50, [0, 3, 15, 0]⟩ ∧ (qGet x.h2e 3).length < 8)
      ∧ (let x := s.spPut 0x100 0x20
         x.blockOp 0x100 = 0x20 ∧ x.blockBad 0x100 = false ∧ ¬ x.blockLen 0x100 < needBytes 0x20 (x.blockData 0x100)
           ∧ (x.spPut 0x100 (0x20 + 500 * 65536)).blockBad 0x100 = true) := by
  unfold memGood recAt; decide +kernel

/-- RECORD of 8 bytes 0x70 0 1 2 ... by site 5 (R309): byte 0 is 0xF0 and byte 1 the site. -/
theorem test_record_head : recordBytes (idleRun.spPut 0x100 0x02010070) 5 0x100 0 = [0xF0, 5, 1, 2, 0, 0, 0, 0] := by decide +kernel

/-- A store to 0x200000 + 8 lands at 8 (R260), little-endian. -/
theorem test_st_wraps : (idleRun.storeRow 3 2 0 0x200008 (leBytes 4 0x11223344)).spRead 8 4 = [0x44, 0x33, 0x22, 0x11] := by
  decide +kernel

theorem test_wit_MemoryUnits :
    let s := upIn mSTANDBY
    (s.busOff = false ∧ s.tapBarred (.hearth 1) = false ∧ s.semMay 7 (.hearth 1) = true ∧ s.semHeld 7 = false
        ∧ (s.semTake 7 0x41).semHeld 7 = true ∧ (s.semTake 7 0x41).get F.SEM_PEEK_OWNER 7 = masterId (.hearth 1)
        ∧ BusTakes s (.hearth 1) .SEM_ACQ 7 ∧ BusTakes s (.hearth 0) .SEM_FORCE 0 ∧ bits 0x5E3F0007 16 16 = 0x5E3F)
      ∧ semWinner ((s.put F.SEM_PEEK_PTR 7 4).get F.SEM_PEEK_PTR 7) ([.engine 3, .hearth 1].map masterId) = some 65
      ∧ (inSecure 0x100 = false ∧ s.bankOn 0x100 = true ∧ portsMeet 0x100 1 ⟨3, 0x100, 9⟩ = true)
      ∧ (let x := s.put F.CEL_SCRUB_HOURS 0 24
         x.get F.CEL_SCRUB_HOURS 0 ≠ 0 ∧ x.celReady = true ∧ x.celTop ≠ 0 ∧ lookKey (x.get H.SCRUB_ADDR 0 / 64) x.celErr = none
           ∧ x.get H.SCRUB_ADDR 0 + 64 < x.celTop ∧ x.celTop ≤ (x.put H.SCRUB_ADDR 0 (x.celTop - 64)).get H.SCRUB_ADDR 0 + 64)
      ∧ (BusTakes s (.hearth 0) .SEC_WIPE 0 ∧ bits 0x9D420001 16 16 = 0x9D42 ∧ bit 0x9D420001 0 = true ∧ bit 0x9D420000 0 = false)
      ∧ (s.put H.WIPE_END 0 41).due H.WIPE_END 0 = some 40 := by
  unfold BusTakes; decide +kernel

/-- runAt's site 5 in a site state. -/
def siteIn (st : Nat) : State := with_ idleRun [(F.SITE_STATE_STATE, 5, st), (F.SEQ_START_ENTRY, 5, 0xFFFF)]

theorem test_wit_EngineEvents :
    let s := idleRun
    (let x : State := { s with cstore := [] }
     x.atBoundary 3 = true ∧ parityOk (wordAt x 3) = false ∧ x.aborting 3 = false ∧ x.depthOf 3 < 8 ∧ x.mode ≠ mHOLD)
      ∧ (let x := with_ s [(F.ENG_TMASK_MASK, 3, 0x25E0), (F.ENG_TMASK_PEND, 3, 0x20)]; x.trapDue 3 = some 5 ∧ x.interruptible 3 = true)
      ∧ (let x := with_ s [(F.ENG_TMASK_MASK, 3, 0x25E0), (F.ENG_TMASK_PEND, 3, 0x2000)]; x.trapDue 3 = some 13 ∧ x.interruptible 3 = true)
      ∧ (let x := s.put F.ENG_TMASK_PEND 3 0x800; x.trapDue 3 = some 11 ∧ x.interruptible 3 = true ∧ x.on F.ENG_CTRL_STOP 3 = false)
      ∧ (let x := with_ s [(F.ENG_TMASK_PEND, 3, 0x200), (F.ENG_STAT_STATE, 3, eABORTING)]
         x.trapDue 3 = some 9 ∧ x.aborting 3 = true ∧ x.interruptible 3 = true)
      ∧ (let x := with_ s [(F.ENG_TMASK_PEND, 3, 0x200), (F.ENG_STAT_DEPTH, 3, 8)]; x.trapDue 3 = some 9 ∧ 8 ≤ x.depthOf 3)
      ∧ (let x := with_ s [(H.ENG_ABORT, 3, 1), (H.ENG_ABORT_END, 3, 41)]; x.due H.ENG_ABORT_END 3 = some 40 ∧ x.get H.ENG_ABORT 3 ≠ 0)
      ∧ (let x := s.put H.ENG_START_PEND 3 1
         x.interruptible 3 = true ∧ x.on H.ENG_START_CUT 3 = false ∧ (x.put H.ENG_START_CUT 3 1).on H.ENG_START_CUT 3 = true)
      ∧ (EngTakes s .tap 4 ∧ s.engRests 4 = true ∧ s.engSite 4 = none ∧ s.engRests 3 = false ∧ s.right 2 = true ∧ s.csOpen 4 = true
          ∧ s.csOpen 3 = false ∧ (s.engStopNow 3).engState 3 = eSTOPPED
          ∧ (s.put F.SEC_STAT_LC_STATE 0 2).right 2 = false) := by
  unfold EngTakes; decide +kernel

/-- The end of a TRAP handler's frame by hand: trap 5 at word 100 with RSP 2 (R272): PC, RSP and VECTOR of frame word 0. -/
theorem test_frame_word0 :
    let s := with_ idleRun [(F.ENG_TMASK_MASK, 3, 0x25E0), (F.ENG_TMASK_PEND, 3, 0x20), (F.ENG_STAT_RSP, 3, 2)]
    (s.trapEntry 3).frameW 3 0 = 100 + 2 * 4096 + 5 * 2 ^ 20 ∧ (s.trapEntry 3).pcOf 3 = 5 := by decide +kernel

/-- Word 0 of engine 4 written in four parts (R265): the fourth commits 128 bits. -/
theorem test_cs_window :
    let w (s : State) (p v : Nat) : State := (s.writeCstore 4 7 p v).1
    (w (w (w (w idleRun 0 0x11111111) 1 0x22222222) 2 0x33333333) 3 0x44444444).csWord 4 7 = 0x44444444333333332222222211111111 := by
  decide +kernel

theorem test_wit_SiteCommands :
    (∀ c : Fin 6, 1 ≤ c.val → siteOpen idleRun c (.host ⟨1, 7⟩) ∧ siteOpen idleRun c (.reg (.hearth 0)))
      ∧ (siteIn sIDLE).siteRefuses 1 5 = false ∧ (siteIn sIDLE).startBad 5 = false ∧ (siteIn sIDLE).recFull 5 = false
      ∧ idleRun.siteRefuses 1 5 = true
      ∧ (let x := (siteIn sIDLE).recHdr entry5 0 8 0xFFFF; x.recFull 5 = true ∧ x.siteRefuses 1 5 = false)
      ∧ (let x := (siteIn sIDLE).put F.SEQ_START_ENTRY 5 9; x.startBad 5 = true ∧ x.siteRefuses 1 5 = false)
      ∧ (siteIn sENDED).siteRefuses 4 5 = false ∧ (siteIn sPAUSED).siteRefuses 4 5 = false
      ∧ idleRun.siteRefuses 2 5 = false ∧ (siteIn sPAUSED).siteRefuses 3 5 = false
      ∧ idleRun.siteRefuses 5 5 = false ∧ (siteIn sHELD).siteRefuses 5 5 = false
      ∧ (let x := with_ idleRun [(F.SITE_STATE_FINISHING, 5, 1), (H.ST_CAUSE, 5, 1)]
         x.siteRefuses 5 5 = false ∧ x.siteRefuses 2 5 = false ∧ x.get H.ST_HALT_T 5 / 8192 = x.ts / 8192) := by
  unfold siteOpen HostServes; decide +kernel

theorem test_wit_SiteCommands_finish :
    let s := with_ idleRun [(F.SITE_STATE_FINISHING, 5, 1), (H.ST_HALTED, 5, 1), (H.ST_CAUSE, 5, 1)]
    s.siteSafeBusy 5 = false ∧ s.on H.SQ_PLAYING 5 = false ∧ (s.finishUnits 5).tasksDone 5 = true
      ∧ (s.finishUnits 5).get H.ST_NEXT 5 ≠ 2 ∧ ((s.put H.ST_NEXT 5 2).finishUnits 5).get H.ST_NEXT 5 = 2
      ∧ (let x := s.put F.ENG_STAT_TASK_HELD 9 1; (x.put H.ENG_TASK_SITE 9 5).siteHeld 5 = 1) := by
  decide +kernel

/-- The bytes of entry 9: site 9, engine 9, tile 3, channels 0 to 3, DPS 2 and 3 in a gang, no SMU and no TDC. -/
def entryBytes : List Byte :=
  [9, 0xFF, 3, 1] ++ leBytes 4 0 ++ leBytes 8 15 ++ [12, 8, 0, 0] ++ leBytes 2 0 ++ leBytes 2 100 ++ leBytes 2 0 ++ leBytes 2 7
    ++ zeros 4 ++ leBytes 8 0x8020000000 ++ leBytes 4 0x10000 ++ leBytes 4 16 ++ leBytes 8 0x8020100000 ++ leBytes 4 1024 ++ zeros 4

theorem test_wit_Bindings :
    entryBytes.length = 64 ∧ HostServes idleRun legalLoad ∧ (parseEntry entryBytes).site < 64
      ∧ idleRun.bindBarred (parseEntry entryBytes) = false ∧ idleRun.entryOk entryBytes (parseEntry entryBytes) = true
      ∧ idleRun.bindBarred entry5 = true ∧ idleRun.unbindBarred 5 = true ∧ idleRun.unbindBarred 9 = false ∧ idleRun.entryOf 9 = none
      ∧ (let x := siteIn sIDLE; (x.put F.MODE_STAT_MODE 0 mSTANDBY).unbindBarred 5 = false ∧ x.entryOf 5 = some entry5)
      ∧ (idleRun.entryOk (entryBytes.set 2 8) (parseEntry (entryBytes.set 2 8)) = false
          ∧ idleRun.bindBarred (parseEntry (entryBytes.set 2 8)) = false)
      ∧ (∀ k : Fin 64, idleRun.dqLen k = 0 ∧ idleRun.on F.ENG_STAT_TASK_HELD k = false) := by
  unfold HostServes; decide +kernel

/-- The gang of entry 9 (R290): DPS 26 leads with one member, 27 does not. -/
theorem test_bind_gang :
    let t := idleRun.bindEntry (parseEntry entryBytes)
    (t.get F.DPS_CTRL_LEAD 26, t.get F.DPS_CTRL_MEMBERS 26, t.get F.DPS_CTRL_LEAD 27, t.get F.DPS_CTRL_SITE 27) = (1, 1, 0, 9) := by
  decide +kernel

/-- idleRun's TDC 32 armed and open on the channel inputs in a mode, with events and values stored. -/
def tdcOn (mode : Nat) : State :=
  with_ idleRun [(F.TDC_CTRL_ARMED, 32, 1), (F.TDC_CTRL_OPEN, 32, 1), (F.TDC_CFG_MODE, 32, mode), (F.TDC_CFG_START_SRC, 32, 0),
    (F.TDC_CFG_STOP_SRC, 32, 0), (F.TDC_CFG_STOP_CH, 32, 1), (F.TDC_CFG_ST_EV, 32, 1), (F.TDC_RING_BASE_LO_BASE_LO, 32, 0x20000),
    (F.TDC_RING_BASE_HI_BASE_HI, 32, 0x80), (F.TDC_RING_SIZE_LOG2, 32, 12)]
/-- idleRun's acquisition unit 16, of site 5, in a state, with a buffer of 1,024 entries. -/
def acqIn (st : Nat) : State :=
  with_ idleRun [(F.ACQ_CTRL_STATE, 16, st), (F.ACQ_CTRL_BOUND, 16, 1), (F.ACQ_CTRL_SITE, 16, 5), (F.ACQ_BUF_LO_BASE_LO, 16, 0x30000),
    (F.ACQ_BUF_HI_BASE_HI, 16, 0x80), (F.ACQ_BUF_HI_LOG2, 16, 10), (F.ACQ_POST_N, 16, 8), (F.ACQ_PRE_N, 16, 4)]
/-- idleRun's engine 9 with a task held. -/
def holds9 (d : List Byte) : State := with_ idleRun [(F.ENG_STAT_TASK_HELD, 9, 1), (H.ENG_TASK_D, 9, ofLe d)]

theorem test_wit_TimeMeasurementRuns :
    let s := tdcOn 1
    let start : TdcEdge := ⟨false, false, 90000000, 500, 1000, 2026⟩
    let stop : TdcEdge := ⟨true, false, 90000000, 500, 1000, 3000⟩
    (BusTakes s (.hearth 0) .TDC_CTRL 32 ∧ (s.put F.TDC_CTRL_ARMED 32 0).tdcArmRefusal 32 ((s.put F.TDC_CTRL_ARMED 32 0).tdcWord 32) = 0
        ∧ s.tdcArmRefusal 32 (s.tdcWord 32) = 4 ∧ tdcAtEase s 32 ∧ s.on F.TDC_CTRL_ARMED 33 = false)
      ∧ (s.put H.TDC_OPEN_DUE 32 41).due H.TDC_OPEN_DUE 32 = some 40
      ∧ (tdcHears s 32 start ∧ tdcHears s 32 stop ∧ tdcSrc s 32 true = 0 ∧ s.tdcSame 32 = false ∧ refPairOk 1000 2026 = true
          ∧ refPairOk 1000 3000 = false ∧ s.get H.TDC_T2 32 + 10 * coreCycle ≤ start.time
          ∧ ¬ (s.put H.TDC_T2 32 90000000).get H.TDC_T2 32 + 10 * coreCycle ≤ start.time)
      ∧ (tdcHears (tdcOn 2) 32 start ∧ ¬ tdcHears (tdcOn 2) 32 stop ∧ tdcHears (tdcOn 0) 32 stop ∧ ¬ tdcHears idleRun 32 stop)
      ∧ tdcHears (with_ s [(F.TDC_CFG_START_SRC, 32, 2)]) 32 start := by
  unfold BusTakes tdcAtEase tdcHears; decide +kernel

theorem test_wit_TimeMeasurementRuns_more :
    let s := tdcOn 1
    let stop : TdcEdge := ⟨true, false, 90000000, 500, 1000, 3000⟩
    (let p := with_ s [(H.TDC_START_P, 32, 1), (F.TDC_AUX_PAIR_TMO_US, 32, 9)]
     p.on H.TDC_START_P 32 = true ∧ p.get F.TDC_AUX_PAIR_TMO_US 32 ≠ 0 ∧ 4 < tdcSpan (p.get H.TDC_START_U 32) (tdcTimeOf p 32 stop)
       ∧ tdcSpan 8 6 ≥ coarseWrap / 2)
      ∧ (let x := s.tdcQueueSet 32 [⟨5⟩]
         x.tdcQueue 32 = [⟨5⟩] ∧ x.ringValid 32 = true ∧ x.celReady = true ∧ x.celErr = [] ∧ tdcAtEase x 32
           ∧ x.ringWr 32 - x.ringRd 32 < x.ringSize 32
           ∧ x.celBacked (celOff (x.ringBase 32) + 0x1000 + x.ringWr 32 % x.ringSize 32) 8 = true
           ∧ (let y := x.put F.TDC_WR_LO_WR_LO 32 4096; y.ringSize 32 ≤ y.ringWr 32 - y.ringRd 32)) := by
  unfold tdcAtEase; decide +kernel

/-- A duration of 1.5 cycles in the layout of R379, and the fine value of R381 at a quarter of the period. -/
theorem test_tdc_units : unitsWord 1536 = 4096 + 512 * 4 ∧ fineOf 1744 1000 2000 = 262 := by decide +kernel

theorem test_wit_AcquisitionRuns :
    (BusTakes idleRun (.hearth 0) .ACQ_CTRL 16 ∧ (acqIn aIDLE).acqArmRefusal 16 0 = 0 ∧ (acqIn aPOST).acqArmRefusal 16 0 = 4
        ∧ (acqIn aREADY).acqLive 16 = true ∧ (acqIn aIDLE).acqLive 16 = false)
      ∧ (let s := acqIn aREADY
         acqTakes s 16 ∧ s.get H.ACQ_N 16 + 1 < 2 ^ 32 ∧ s.celErr = [] ∧ s.celBacked (acqAt s 16 0) 8 = true
           ∧ (s.acqRanges 16).2.2 = false ∧ (s.put F.ACQ_BUF_HI_BASE_HI 16 0xFF).celBacked (acqAt (s.put F.ACQ_BUF_HI_BASE_HI 16 0xFF) 16 0) 8 = false
           ∧ acqTakes (acqIn aPRE) 16 ∧ acqTakes ((acqIn aPOST).put H.ACQ_LEFT 16 3) 16 ∧ ¬ acqTakes (acqIn aIDLE) 16)
      ∧ (let s := acqIn aPOST
         s.get H.ACQ_LEFT 16 = 0 ∧ s.celBacked (celOff (s.acqBase 16)) 64 = true
           ∧ (s.put F.ACQ_CFG_AUTO_REDUCE 16 1).on F.ACQ_CFG_AUTO_REDUCE 16 = true ∧ s.siteEngine (s.get F.ACQ_CTRL_SITE 16) = 3
           ∧ s.dqLen 3 ≠ 32) := by
  unfold BusTakes acqTakes; decide +kernel

/-- A sample of -1 mV codes (R407): voltage [23:0], current [47:24], OVER bit 53 where the code was clipped. -/
theorem test_acq_entry : acqEntry (-1) 5 2 1 false true false false false = 0xFFFFFF + 5 * 2 ^ 24 + 2 * 2 ^ 48 + 2 ^ 51 + 2 ^ 53 := by
  decide +kernel

theorem test_wit_TasksRun :
    (let s := (holds9 (mkTask 1 5 0 0 2 0)).put F.SITE_FAILSTORED_COUNT 5 2
     taskOf s (.engine 9) = some (mkTask 1 5 0 0 2 0) ∧ taskSite (mkTask 1 5 0 0 2 0) = 5 ∧ taskArg (mkTask 1 5 0 0 2 0) 1 = 2
       ∧ s.celBacked (celOff entry5.failBase) 32 = true
       ∧ s.recFits entry5 (faillogBytes 5 0 0 (rawEntries (s.celRaw (celOff entry5.failBase) 32) 2)).length = true ∧ recAt s)
      ∧ (let d := mkTask 3 5 0 0x100 2 0
         taskOf (holds9 d) (.engine 9) = some d ∧ taskArg d 0 = 0x100 ∧ (holds9 d).recFits entry5 (measureBytes (holds9 d) d).length = true)
      ∧ (let d := mkTask 2 5 0 16 0 0
         taskOf (holds9 d) (.engine 9) = some d ∧ redUnit d = 16 ∧ redSeq d = fieldB ((holds9 d).capHeader 16) 0 2
           ∧ fieldB ((holds9 d).capHeader 16) 0xC 4 ≤ 4096)
      ∧ (let s := (idleRun.dqPush 4 (mkTask 0 5 0 0 0 0)).1
         s.dqLen 4 = 1 ∧ s.hearthMay 4 = true ∧ taskOf s (.hearth 4) = some (mkTask 0 5 0 0 0 0) ∧ idleRun.hearthMay 3 = false
           ∧ idleRun.dqLen 5 = 0 ∧ idleRun.hearthMay 5 = true)
      ∧ (let s := with_ idleRun [(H.ST_PUSH_WAIT, 5, 1), (F.SITE_FAILSTORED_COUNT, 5, 600)]
         s.get H.ST_PUSH_WAIT 5 ≠ 0 ∧ 512 ≤ s.get F.SITE_FAILSTORED_COUNT 5 - s.get H.ST_PUSHED 5 ∧ s.siteEngine 5 = 3
           ∧ (s.spPut (dqBotA 3) 32).dqLen 3 = 32)
      ∧ (let s := (acqIn aDONE).put H.ACQ_PUSH_WAIT 16 1; s.on H.ACQ_PUSH_WAIT 16 = true ∧ s.siteEngine (s.get F.ACQ_CTRL_SITE 16) = 3) := by
  unfold recAt; decide +kernel

/-- A capture header of 5,000 samples: slice 0 is not the last, slice 1 is (R420). -/
theorem test_wit_TasksRun_slices :
    let s := idleRun.celWrite (celOff ((acqIn aREDUCING).acqBase 16)) (zeros 12 ++ leBytes 4 5000)
    let t : State := { acqIn aREDUCING with cellar := s.cellar }
    ¬ fieldB (t.capHeader 16) 0xC 4 ≤ (redSlice (mkTask 2 5 0 16 0 0) + 1) * 4096
      ∧ fieldB (t.capHeader 16) 0xC 4 ≤ (redSlice (nextSlice (mkTask 2 5 0 16 0 0)) + 1) * 4096 := by decide +kernel

/-- Two entries at vectors 7 and 8 with channel 3 alone (R317): ONE 4 with delta 0, RUN of one, END. -/
theorem test_fail_tokens : failTokens [(7, 8), (8, 8)] = [0x04, 0x00, 0x80, 0x42] := by decide +kernel

/-- idleRun with bytes in the Cellar. -/
def inCellar (o : Nat) (l : List Byte) : State := { idleRun with cellar := memSetBytes ramByte idleRun.cellar o l }

/-- The arguments of a flow 4 of DPS 0 of tile 6, and that flow in progress in CALIBRATE. -/
def dpsArgs : CalArgs := ⟨4, 6, 5000, 0, 1, 0, 0, 0⟩
def flowOn : State :=
  { with_ idleRun [(F.MODE_STAT_MODE, 0, mCALIBRATE), (H.DPS_CAL_OWNED, 48, 1), (H.CAL_FROM, 0, mSTANDBY)] with
    flows := [(6, [⟨4, dpsArgs, 1, 7, false⟩])] }

/-- A CAL body with one record of DPS 0 of tile 6, all terms 0, and the same with a gain above its limit. -/
def calBodyOf (g : Nat) : List Byte :=
  leBytes 4 0x4C414354 ++ leBytes 2 1 ++ leBytes 2 1 ++ zeros 8 ++ [6, 2, 0, 4, 25, 0, 9, 0] ++ leBytes 2 g ++ zeros 62

theorem test_wit_CalibrationRuns :
    HostServes idleRun legalFlow ∧ HostServes idleRun legalCal
      ∧ idleRun.tileOn 6 = true ∧ (∀ u ∈ flowUnits 4 dpsArgs, idleRun.flowBarred 6 u = false)
      ∧ (∃ u ∈ flowUnits 4 dpsArgs, flowOn.flowBarred 6 u = true)
      ∧ (flowOn.flows = [(6, [⟨4, dpsArgs, 1, 7, false⟩])] ∧ flowOn.on F.MODE_STAT_TRANSIT 0 = false)
      ∧ flowOn.flowCode 6 ⟨4, dpsArgs, 1, 7, false⟩ 64 (some ⟨64, 0, zeros 64⟩) = 0
      ∧ flowOn.flowCode 6 ⟨4, dpsArgs, 1, 7, false⟩ 64 (some ⟨64, 2, zeros 64⟩) = 2
      ∧ flowOn.flowCode 6 ⟨4, dpsArgs, 1, 7, false⟩ 64 none = 4
      ∧ takesNow idleRun 6 ⟨64, zeros 64, 4, 25⟩ = true
      ∧ takesNow flowOn 6 ⟨64, zeros 64, 4, 25⟩ = false := by
  unfold HostServes; decide +kernel

theorem test_wit_CalibrationRuns_load :
    (idleRun.celReady && decide (idleRun.celErr = []) && Memory.wf ramByte (inCellar 0x400000 (calBodyOf 0)).cellar) = true
      ∧ (inCellar 0x400000 (calBodyOf 0)).argBody 0x8000400000 16 1 = some 0x400000
      ∧ idleRun.argBody 0x100000 16 1 = none
      ∧ calHeadBad (calBodyOf 0) = 0 ∧ calHeadBad (zeros 16) ≠ 0
      ∧ (calRecs 1 ((calBodyOf 0).drop 16)).map recordUnit = [some (6, 64)]
      ∧ (calRecs 1 ((calBodyOf 0).drop 16)).map calRecGood = [true]
      ∧ (calRecs 1 ((calBodyOf 5001).drop 16)).map calRecGood = [false]
      ∧ (inCellar 0x400000 (calBodyOf 0)).calLen 0x400000 1 = 88
      ∧ idleRun.corrPend = [] := by
  decide +kernel

/-- The descriptor of a pattern of 1,024 vectors in one slot, whose data stands in its image of 2,048 bytes. -/
def descBytes (n : Nat) : List Byte :=
  leBytes 2 n ++ [0, 1, 0, 0] ++ leBytes 2 0 ++ leBytes 8 1024 ++ leBytes 4 1 ++ zeros 4 ++ leBytes 4 1000 ++ zeros 4
    ++ leBytes 8 0 ++ leBytes 8 128 ++ leBytes 8 192 ++ leBytes 4 64 ++ zeros 4

/-- The header of a pattern image of one pattern. -/
def imageHead : List Byte :=
  let l := leBytes 4 0x4E525450 ++ leBytes 2 1 ++ leBytes 2 1 ++ leBytes 8 2048 ++ zeros 44
  l ++ leBytes 4 (crc32c l)

/-- A segment table of one VALID entry of pattern 7, for entry 3. -/
def segBytes : List Byte :=
  leBytes 4 0x54425453 ++ leBytes 2 1 ++ leBytes 2 1 ++ leBytes 2 3 ++ zeros 6 ++ leBytes 2 7 ++ [1] ++ zeros 29

/-- A control-store body of one word of good parity for engine 4, at word 16, and for the engines of a mask. -/
def csBytes (mask : Nat) : List Byte :=
  leBytes 4 0x53434D52 ++ leBytes 2 1 ++ leBytes 2 16 ++ leBytes 2 1 ++ zeros 6 ++ leBytes 8 mask ++ zeros 8
    ++ leBytes 16 0x44444444333333332222222211111110

theorem test_wit_LoadsFromCellar_pat :
    let s := inCellar 0x400000 (imageHead ++ descBytes 7)
    s.argBody 0x8000400000 64 64 = some 0x400000 ∧ idleRun.argBody 0x8000400020 64 64 = none
      ∧ patHeadBad (s.celRaw 0x400000 64) (s.celTop - 0x400000) = 0 ∧ patHeadBad (zeros 64) 4096 = 1
      ∧ (imageDescs (s.celRaw 0x400040 64) 1).all (fun d => descOk d 2048) = true
      ∧ s.patBusy 7 = false := by
  decide +kernel

theorem test_wit_LoadsFromCellar_seg :
    let s := inCellar 0x400000 segBytes
    s.argBody 0x8000400000 16 1 = some 0x400000 ∧ segHeadBad (s.celRaw 0x400000 16) = 0 ∧ segHeadBad (zeros 16) = 1
      ∧ s.segBusy segBytes = false
      ∧ ((with_ s [(F.SEQ_CUR_ENTRY, 5, 3), (F.SEQ_PASS_PASS, 5, 1), (H.SQ_PLAYING, 5, 1)]).segBusy segBytes = true) := by
  decide +kernel

theorem test_wit_LoadsFromCellar_cs :
    let s := inCellar 0x400000 (csBytes 16)
    s.argBody 0x8000400000 0x20 1 = some 0x400000 ∧ csHeadBad (csBytes 16) = 0 ∧ csHeadBad (zeros 32) = 1
      ∧ csEngines 4 (csBytes 16) = [4] ∧ csEngines 4 (csBytes 8) = [4, 3]
      ∧ s.csBarred 4 = false ∧ s.csBarred 3 = true ∧ s.csBad [4] (csBytes 16) = 0 ∧ s.csOpen 4 = true
      ∧ s.csBad [4] ((csBytes 16).set 32 0x11) = 3
      ∧ s.csOver 48 = false ∧ (State.csOver { s with csBodies := [⟨1, zeros 20⟩] } 0x17FFFF) = true := by
  decide +kernel

/-- The entry that SEG_LOAD copies, and the count. -/
theorem test_seg_load :
    let s := inCellar 0x400000 segBytes
    (s.segLoad ⟨1, 7⟩ 0x8000400000).get F.SEQ_STAB_COUNT_COUNT 0 = 4
      ∧ sgPat ((s.segLoad ⟨1, 7⟩ 0x8000400000).segEntry 3) = 7 := by decide +kernel

theorem test_wit_HostAccess_turns :
    (with_ State.reset [(H.BOOT_PHASE, 0, 2), (H.WAS_WARM, 0, 1)]).portPhase = 1 ∧ (upIn mHOLD).portPhase = 2 ∧ idleRun.portPhase = 0
      ∧ legalFlash idleRun = false ∧ (idleRun.put H.UNAVAIL 0 1).on H.UNAVAIL 0 = true
      ∧ HostServes idleRun legalAny ∧ HostServes idleRun legalWrite ∧ HostServes (upIn mMINIMAL) legalWrite := by
  unfold HostServes; decide +kernel

theorem test_wit_HostAccess_reg :
    let s := idleRun
    s.argBad 0x10000 = false ∧ s.argBad 0x10001 = true ∧ s.guarded 0x10000 = false ∧ s.guarded 0x8000000000 = true
      ∧ s.debugBarred 0x10000 5 = false ∧ s.itemBar 0x10000 5 = .free
      ∧ systemOnly s = false ∧ systemOnly (upIn mMINIMAL) = true
      ∧ s.lc ≠ lcRETIRED ∧ (s.put F.SEC_STAT_LC_STATE 0 lcRETIRED).lc = lcRETIRED
      ∧ s.debugBarred 0x20080200 5 = !s.right 2 ∧ (upIn mMINIMAL).itemBar 0x20000000 0 = .barred
      ∧ coldEnable s (0x10000, 1) = false := by
  decide +kernel

theorem test_wit_HostAccess_reads :
    ReadsAll idleRun [0x40000000, 0x40000004] idleRun [0, 0] ∧ (idleRun.busRead .fabric 0x50000000).2 = .error :=
  ⟨⟨0, [0], rfl, by decide +kernel, ⟨0, [], rfl, by decide +kernel, ⟨by decide +kernel, rfl⟩⟩⟩, by decide +kernel⟩

theorem test_wit_HostAccess_writes :
    (idleRun.busWrite .fabric 0x40000000 5).2 = .done ∧ (idleRun.busWrite .fabric 0x40000000 5).1.portPhase = 0
      ∧ (idleRun.busWrite .fabric 0x50000000 5).2 = .error := by
  decide +kernel

theorem test_wit_HostAccess_blk :
    let s := idleRun
    s.blkArg 0x10000 8 = some 0x10000 ∧ s.blkArg 0x10000 6 = none ∧ s.blkArg 0x8000400000 64 = some 0x8000400000
      ∧ s.regionOf 0x10000 = .system ∧ s.regionOf 0x8000400000 = .cellar 0x400000 ∧ s.celReady = true
      ∧ s.celInUse 0x400000 64 = false ∧ legalLoad s = true ∧ legalLoad (upIn mMINIMAL) = false ∧ s.writeBar 0x10000 = .free
      ∧ (upIn mMINIMAL).writeBar 0x20000 = .barred ∧ (s.put F.CEL_CFG_READY 0 0).celReady = false
      ∧ s.regionOf 0x40000010 = .scratch 16 ∧ inSecure 16 = false ∧ s.bankOn 16 = true ∧ (s.put H.PD_H0 0 0).bankOn 16 = false
      ∧ s.regionOf 0x50000000 = .nowhere ∧ s.regionOf 0x80000010 = .pantry 16
      ∧ decodeAddr (addrOf .CH_CTRL 0) = some (.CH_CTRL, 0) ∧ s.addrOn (addrOf .CH_CTRL 0) = true ∧ (s.put H.PD_TILE 0 0).addrOn (addrOf .CH_CTRL 0) = false
      ∧ (upIn mHOLD).busOff = true := by
  decide +kernel

/-- REG_WR of one scratchpad word and REG_RD of it. -/
theorem test_reg_wr_rd :
    let t := idleRun.regWrCmd ⟨1, 7⟩ [⟨0x40000010, 0x12345678⟩]
    (t.replies.getLast?.map (fun r => (r.typ, r.data))) = some (0x52, [0, 3, 15, 0]) ∧ t.spWord 16 = 0x12345678 := by
  decide +kernel

/-- idleRun with Porch 2 up in NRZ, a credit of each kind, node number 9, and the host behind it. -/
def linkOn : State :=
  with_ idleRun [(F.PORCH_STAT_STATE, 2, pUPNRZ), (F.PORCH_CTRL_EN, 2, 1), (H.TX_CR, 6, 1), (H.TX_CR, 7, 1), (H.TX_CR, 8, 1),
    (F.FAB_NODE_NODE_ID, 0, 9), (F.FAB_NODE_HOST_NODE, 0, 1), (F.FAB_NODE_HOME_PORCH, 0, 2), (F.FAB_CTRL_TTL, 0, 8), (H.PO_NRZ, 2, 1)]

theorem test_wit_HostServices :
    (let s := (upIn mSTANDBY).put H.FLASH_SIZE 0 0x1000000
     HostServes s legalFlash ∧ HostServes s legalRemove ∧ flashOpen s 0x100000 256 ∧ s.flashGuarded 0x2000 256 = true
       ∧ (s.removeSites = [] ∧ s.suppliesOff = true) ∧ s.allIdled = true ∧ (s.put F.SMU_CTRL_EN 3 1).suppliesOff = false
       ∧ (∀ p : Fin 8, s.inService p = false) ∧ (s.put F.PORCH_STAT_STATE 2 pUPNRZ).inService 2 = true)
      ∧ HostServes idleRun legalSite ∧ HostServes idleRun legalAny ∧ HostServes (upIn mMINIMAL) legalMinimal
      ∧ (let x := (upIn mMINIMAL).put H.FLASH_SIZE 0 0x1000000; x.hasFlash = true ∧ x.coreCold = false ∧ x.lc ≠ lcRETIRED)
      ∧ jumpTaken idleRun (.site 0) = false ∧ jumpTaken (with_ idleRun [(F.SEQ_PASS_PASS, 5, 1), (H.SQ_PLAYING, 5, 1)]) (.site 5) = true
      ∧ jumpOwned idleRun (.smu 3) = false
      ∧ ((flowOn.put H.SMU_CAL_OWNED 3 1).mode = mCALIBRATE ∧ jumpOwned (flowOn.put H.SMU_CAL_OWNED 3 1) (.smu 3) = true)
      ∧ eventMay linkOn 2 ∧ canSend linkOn 2 2 ∧ linkOn.on F.FAB_NODE_RT_VALID 0 = false ∧ ¬ eventMay idleRun 0
      ∧ (linkOn.put F.PORCH_STAT_STATE 2 pQUIET).carries 2 = false
      ∧ idleRun.portPhase = 0 := by
  unfold HostServes flashOpen eventMay canSend; decide +kernel

theorem test_wit_HostServices_bootRoom : ((upIn mMINIMAL).put H.FLASH_SIZE 0 0x1000000).bootLatest = none := by decide +kernel

/-- A program of the flash clears bits and sets none (R502). -/
theorem test_flash_program :
    let s : State := { (upIn mSTANDBY) with flashOps := [⟨⟨1, 7⟩, true, 0x100, 1, [0x0F]⟩], flash := [(0x100, 0x3C)] }
    (s.flashDone true).flRead 0x100 2 = [0x0C, 0xFF] := by decide +kernel

/-- idleRun with words in mailbox 1 and in the mailboxes of engine 3, and a transfer of serial port 1 in progress. -/
def boxesOn : State :=
  { with_ idleRun [(F.CSP_CTRL_EN, 1, 1), (F.CSP_CTRL_BUSY, 1, 1), (F.CSP_LEN_BITS, 1, 16), (F.CSP_CFG_SEL_GPIO, 1, 4)] with
    h2d := [(1, [⟨5, 0⟩])], d2h := [(1, [⟨6, 0⟩])], h2e := [(3, [⟨7, 0⟩])], e2h := [(3, [⟨8, 0⟩])] }

theorem test_wit_MailboxesAndSerialPort :
    HostServes boxesOn legalAny ∧ HostServes boxesOn legalBox ∧ (upIn mSLEEP).mode = mSLEEP
      ∧ (∀ b : Fin 4, BusTakes boxesOn (.hearth 0) .MBX_HOST_RX b ∧ BusTakes boxesOn (.hearth 0) .MBX_HOST_TX b
          ∧ BusTakes boxesOn (.hearth 0) .MBX_HOST_DB b)
      ∧ BusTakes boxesOn (.hearth 0) .MBX_ENG_TX 3 ∧ BusTakes boxesOn (.hearth 0) .MBX_ENG_RX 3 ∧ BusTakes boxesOn (.hearth 0) .MBX_ENG_DB 3
      ∧ qGet boxesOn.h2d 1 = [⟨5, 0⟩] ∧ qGet boxesOn.h2d 0 = [] ∧ qGet boxesOn.d2h 1 = [⟨6, 0⟩] ∧ qGet boxesOn.e2h 3 = [⟨8, 0⟩]
      ∧ boxesOn.engPowered 3 = true ∧ (boxesOn.put H.PD_ENG 0 0).engPowered 3 = false := by
  unfold HostServes BusTakes; decide +kernel

theorem test_wit_MailboxesAndSerialPort_csp :
    BusTakes boxesOn (.hearth 0) .CSP_CTRL 1 ∧ boxesOn.on F.CSP_CTRL_BUSY 1 = true ∧ boxesOn.on F.CSP_CTRL_BUSY 0 = false
      ∧ boxesOn.cspLenBad 0 = false ∧ (with_ boxesOn [(F.CSP_CFG_FRAME, 0, 1), (F.CSP_LEN_BITS, 0, 40)]).cspLenBad 0 = true
      ∧ cspEnMay boxesOn 1 true ∧ cspEnMay boxesOn 1 false ∧ ¬ cspEnMay (boxesOn.put F.CSP_CFG_SEL_GPIO 0 4) 0 true
      ∧ (boxesOn.put H.CSP_LOST 1 1).on H.CSP_LOST 1 = true ∧ (boxesOn.put H.CSP_ABT 1 1).on H.CSP_ABT 1 = true
      ∧ (with_ boxesOn [(F.CSP_CFG_FRAME, 1, 1), (F.CSP_LEN_BITS, 1, 4096)]).cspLenBad 1 = false := by
  unfold BusTakes cspEnMay; decide +kernel

/-- Sixteen bits 1010 0101 0000 1111 received, most significant first (R517). -/
theorem test_csp_receive :
    (boxesOn.cspDone 1 [true, false, true, false, false, true, false, true, false, false, false, false, true, true, true, true]).get
      F.CSP_RX_HW 128 = 0xA50F := by decide +kernel

theorem test_wit_SecurityRuns :
    let s := with_ (upIn mSTANDBY) [(F.CFG_ROLLBACK_IMAGE_CTR, 0, 3), (F.CFG_STAT_SOURCE, 0, 0)]
    BusTakes s .security .SEC_RB_COMMIT 0 ∧ BusTakes s .security .SEC_LC_REQ 0 ∧ BusTakes s .security .SEC_PROV_CMD 0
      ∧ BusTakes s .security .SEC_DBG_CTRL 0 ∧ s.get F.CFG_STAT_SOURCE 0 < 2 ∧ s.get F.CFG_ROLLBACK_FUSE_CTR 0 < 3
      ∧ s.on F.SEC_STAT_BUSY 0 = false ∧ s.coreCold = false ∧ rbBlocks.find? s.fuseBlank = some 114
      ∧ s.lcIdle = true ∧ lcAllowed s.lc 1 = true ∧ lcAllowed s.lc 2 = false ∧ lcBlocks.find? s.fuseBlank = some 111
      ∧ s.lc ≠ lcRETIRED ∧ s.lc ≠ lcSECURE ∧ (s.put F.SEC_STAT_LC_STATE 0 lcSECURE).lc = lcSECURE
      ∧ bits 0x3A710001 16 16 = 0x3A71 ∧ bit 0x3A710001 0 = true ∧ bits 0x7E1C0001 16 16 = 0x7E1C ∧ bits 0x61F50010 16 16 = 0x61F5
      ∧ bit 0x61F50010 4 = true ∧ (s.put H.SEC_PROG_END 0 6).due H.SEC_PROG_END 0 = some 5
      ∧ (s.put H.SEC_UNLOCK_END 0 6).due H.SEC_UNLOCK_END 0 = some 5 ∧ (s.put H.WARM_HOLD_END 0 6).due H.WARM_HOLD_END 0 = some 5
      ∧ (upIn mHOLD).mode = mHOLD ∧ s.mode ≠ mHOLD ∧ (siteIn sHELD).siteState 5 = sHELD := by
  unfold BusTakes; decide +kernel

theorem test_wit_SecurityRuns_noSpace :
    let s : State := { (upIn mSTANDBY) with fuses := [(111 * 32, 1), (112 * 32, 1), (113 * 32, 1)] }
    lcBlocks.any s.fuseBlank = false := by decide +kernel

/-- A rollback record of 3 programmed (R598, R612): word 0 of block 114. -/
theorem test_rb_commit :
    let s := with_ (upIn mSTANDBY) [(F.CFG_ROLLBACK_IMAGE_CTR, 0, 3), (F.CFG_STAT_SOURCE, 0, 0)]
    ((s.rbCommit 0x3A710001).1.progDone true).fuse (32 * 114) = 3 := by decide +kernel

/-- A flit of a type as it arrives at Porch 2. -/
def anyFlit (typ vc dst : Nat) (l : List Byte) : Flit :=
  { typ := typ, dst := dst, src := 1, seq := 0, vc := vc, mc := false, sr := false, seg := 0, ttl := 8, crcOk := true, payload := l }

theorem test_wit_LinksAndFabric_links :
    linkOn.inService 2 = true ∧ linkOn.carries 2 = true ∧ linkOn.outQ 2 = [] ∧ linkOn.idlePorch 2 = true
      ∧ flitTaken linkOn 2 (anyFlit 0x30 0 9 (zeros 8)) ∧ noConflict linkOn (anyFlit 0x30 0 9 (zeros 8))
      ∧ needBytes 0x30 ((zeros 8).drop 4) ≤ 4
      ∧ (let s := with_ linkOn [(F.FAB_NODE_RT_VALID, 0, 1), (rtValid 17, 2, 1), (rtPorch 17, 2, 3), (F.PORCH_STAT_STATE, 3, pUPPAM4)]
         s.tableRoute 17 = some 3 ∧ s.inService 3 = true ∧ flitTaken s 2 (anyFlit 0x30 0 17 (zeros 8)))
      ∧ (let s := with_ linkOn [(H.RX_WAIT, 2, 1), (H.RX_REQS, 2, 15), (H.RX_REQ_T, 2, 1)]
         s.due H.RX_REQ_T 2 = some 0 ∧ s.on H.RX_WAIT 2 = true ∧ s.get H.RX_REQS 2 = 15)
      ∧ ((linkOn.put F.PORCH_CTRL_QUIET_EN 2 0).on F.PORCH_CTRL_QUIET_EN 2 = false
        ∧ (with_ linkOn [(F.PORCH_CTRL_QUIET_EN, 2, 1), (F.FAB_CTRL_QUIET_IDLE_US, 0, 1)]).get F.FAB_CTRL_QUIET_IDLE_US 0 = 1)
      ∧ BusTakes (linkOn.put H.PD_FABRIC 0 1) .fabric .PORCH_CTRL 2 ∧ canSend (linkOn.put F.FAB_NODE_NODE_ID 0 0) 2 1 := by
  unfold flitTaken noConflict BusTakes canSend; decide +kernel

theorem test_wit_LinksAndFabric_training :
    (let st (x : Nat) := with_ linkOn [(F.PORCH_STAT_STATE, 2, x), (H.PO_INFO, 2, 1), (H.PO_STEP, 2, 4)]
     (st pTRAINPAM4).porch 2 = pTRAINPAM4 ∧ 4 ≤ (st pTRAINPAM4).get H.PO_STEP 2 ∧ (st pTRAINPAM4).on H.PO_INFO 2 = true
       ∧ (st pTRAINNRZ).on H.PO_NRZ 2 = true ∧ ((st pTRAINNRZ).put H.PO_NRZ 2 0).on H.PO_NRZ 2 = false
       ∧ infoReads (st pRETRAIN) 2 ∧ (st pRETRAIN).on H.PO_RESUME 2 = false ∧ ((st pRETRAIN).put H.PO_RESUME 2 1).on H.PO_RESUME 2 = true
       ∧ ((st pRETRAIN).put H.PO_CAUSE 2 1).get H.PO_CAUSE 2 = 1 ∧ (st pRETRAIN).on F.PORCH_STAT_PARTNER 2 = false
       ∧ ((st pDEEP).put H.PO_WAKE_END 2 1).due H.PO_WAKE_END 2 = some 0 ∧ ((st pDOWN).put H.PO_DOWN_END 2 1).due H.PO_DOWN_END 2 = some 0
       ∧ ((st pLEAVING).put H.PO_LEAVE_END 2 1).due H.PO_LEAVE_END 2 = some 0 ∧ (linkOn.put H.PO_LEFT 2 1).on H.PO_LEFT 2 = true
       ∧ (with_ linkOn [(F.PORCH_STAT_STATE, 2, pOFF), (H.PD_PORCH, 2, 1)]).on H.PD_PORCH 2 = true) := by
  unfold infoReads; decide +kernel

theorem test_wit_LinksAndFabric_discovery :
    let s := linkOn.put F.PORCH_STAT_STATE 2 pQUIET
    s.inService 2 = true ∧ s.carries 2 = false ∧ s.on H.PO_LEFT 2 = false ∧ (∀ q : Fin 8, q ≠ 2 → s.inService q = false) ∧ s.bcasts = [] := by
  decide +kernel

theorem test_wit_LinksAndFabric_copy : copySeen { linkOn with bcasts := [⟨1, 0, linkOn.now⟩] } (anyFlit 0x10 0 255 (zeros 42)) :=
  ⟨_, List.mem_singleton.2 rfl, rfl, by decide +kernel, Nat.lt_add_of_pos_right (by decide)⟩

theorem test_wit_LinksAndFabric_assign :
    let s : State := { linkOn with ff := (fkey F.FAB_SID_LO_SID_LO 0, 5) :: (fkey F.FAB_SID_HI_SID_HI 0, 0) :: linkOn.ff }
    assignStatus s (anyFlit 0x12 0 9 (leBytes 8 5 ++ [12, 1, 8, 0])) = 0
      ∧ assignStatus s (anyFlit 0x12 0 9 (leBytes 8 5 ++ [255, 1, 8, 0])) = 2 := by decide +kernel

theorem test_wit_LinksAndFabric_routeSet :
    let f := anyFlit 0x14 0 9 ([48, 1, 0, 0] ++ leBytes 4 0x801)
    ¬ notHost linkOn f ∧ fieldB (flitBody f) 0 1 + fieldB (flitBody f) 1 1 = 49 ∧ notHost linkOn { f with src := 5 } := by
  unfold notHost; decide +kernel

/-- A flit for another node leaves with TTL one less (R473). -/
theorem test_flit_forwarded :
    let s := with_ linkOn [(F.FAB_NODE_RT_VALID, 0, 1), (rtValid 17, 2, 1), (rtPorch 17, 2, 3), (F.PORCH_STAT_STATE, 3, pQUIET)]
    (s.flitReceive 2 (anyFlit 0x30 0 17 (zeros 8))).outQ 3 = [{ anyFlit 0x30 0 17 (zeros 8) with ttl := 7 }] := by decide +kernel

/-- A flit out of sequence asks for the missing ones once (R453). -/
theorem test_flit_gap :
    let t := linkOn.flitReceive 2 { anyFlit 0x30 0 9 (zeros 8) with seq := 1 }
    t.on H.RX_WAIT 2 = true ∧ t.get F.PORCH_RETRY_REQ_SENT 2 = 1 ∧ t.accepted = [] := by decide +kernel

theorem test_wit_EveryCommandKeepsTheRest :
    anyField (.quietExit 2) = false ∧ (∃ t, exec (.quietExit 2) idleRun = .next t)
      ∧ anyField (.por) = true ∧ (∃ t, exec .por idleRun = .next t) := ⟨rfl, ⟨_, rfl⟩, rfl, ⟨_, rfl⟩⟩

end Sys2Proof.Machine
end

section
/-! # The canonical form and the state after reset -/

namespace Sys2Proof.Machine

/-! ## What a step is -/

theorem step_of_pending_nil {s : State} (h : s.pending = []) : step s = .next { s with now := s.now + 2000 } := by
  unfold step
  rw [h]

theorem step_of_pending_cons {s : State} {c : Instr} {rest : List Instr} (h : s.pending = c :: rest) :
    step s = exec c { s with pending := rest } := by
  unfold step
  rw [h]

/-- The canonical form says nothing of the time. -/
theorem State.Wf.with_now {s : State} (h : s.Wf) (n : Nat) : State.Wf { s with now := n } := h

/-- The canonical form says nothing of the commands that wait. -/
theorem State.Wf.with_pending {s : State} (h : s.Wf) (l : List Instr) : State.Wf { s with pending := l } := h

theorem exec_keeps_wf {c : Instr} {s t : State} (hs : s.Wf) (h : exec c s = .next t) : t.Wf := (exec_keeps h).wf hs

/-- Settles O2: the idle step changes only the time, and a command that acts keeps the canonical form. -/
theorem stepKeepsCanonicalForm : Obligations.StepKeepsCanonicalForm := by
  intro s t hs ht
  cases hp : s.pending with
  | nil =>
    rw [step_of_pending_nil hp] at ht
    cases ht
    exact hs.with_now _
  | cons c rest =>
    rw [step_of_pending_cons hp] at ht
    exact exec_keeps_wf (hs.with_pending rest) ht

/-! ## The state after reset -/

theorem State.reset_wf : State.reset.Wf := ⟨rfl, rfl, rfl, rfl, rfl, rfl, rfl, rfl, rfl, rfl, rfl⟩

/-- Settles O3: State.reset lists nothing (log entries 3 and 4), and an empty list is canonical. -/
theorem resetIsCanonical : Obligations.ResetIsCanonical :=
  ⟨State.reset_wf, rfl, rfl, rfl, rfl, rfl, rfl, rfl, rfl⟩

/-- Nothing is listed after reset, so each field reads its Cold value. -/
theorem State.reset_get (f : Field) (i : Nat) : State.reset.get f i = coldAt f i := rfl

/-! ## Cold values that depend on the instance -/

theorem coldAt_MON_HI (i : Nat) :
    coldAt F.MON_HI_VALUE i = if i % 20 < 16 && i % 2 == 0 then 0x7FFF else 0x7FFFFFFF := if_pos rfl

theorem coldAt_MON_LO (i : Nat) :
    coldAt F.MON_LO_VALUE i = if i % 20 < 16 && i % 2 == 0 then 0x8000 else 0x80000000 :=
  (if_neg (by decide)).trans (if_pos rfl)

/-- The register of a voltage monitor of a DPS has a 16-bit threshold (R364). -/
theorem monIdx_voltage {g : Nat} (hg : g < 128) (h2 : g % 2 = 0) :
    (decide (monIdx g % 20 < 16) && monIdx g % 2 == 0) = true := by
  unfold monIdx
  rw [if_pos hg, Bool.and_eq_true, decide_eq_true_eq, beq_iff_eq]
  omega

/-- A fault source reacts after reset as its class says (R578): its field holds the reaction of the source 4 i + j. -/
theorem State.reset_react (n : Nat) : State.reset.react n = (faultCold n).1 := by
  have hd : 4 * (n / 4) + n % 4 = n := Nat.div_add_mod n 4
  have hlt : n % 4 < 4 := Nat.mod_lt _ (by decide)
  have hj : n % 4 = 0 ∨ n % 4 = 1 ∨ n % 4 = 2 ∨ n % 4 = 3 := by omega
  unfold State.react reactField
  rcases hj with h | h | h | h <;> rw [h] at hd ⊢
  all_goals
    conv => rhs; rw [← hd]
    rfl

theorem State.reset_siteState (i : Nat) : State.reset.siteState i = sUNBOUND := rfl

theorem reset_named_colds : Shows [(F.RST_CAUSE_POR, 0, 1), (F.RST_CAUSE_BOR, 0, 0), (F.RST_CAUSE_PIN, 0, 0), (F.RST_CAUSE_WDOG, 0, 0),
        (F.RST_CTRL_LOCKUP_EN, 0, 1), (F.RST_CTRL_SAFE_ON_WARM, 0, 0), (F.RST_WDOG_CTL_EN, 0, 0),
        (F.RST_WDOG_CTL_TIMEOUT_MS, 0, 1000), (F.BOOT_ATTEMPT_FAILS, 0, 0), (F.MODE_STAT_MODE, 0, 0),
        (F.CH_CTRL_DRV_EN, 511, 0), (F.DPS_STAT_ON, 63, 0), (F.FLT_SUM_ACTIVE, 0, 0)] State.reset := by
  unfold Shows
  decide +kernel

/-- Settles O4: each field reads its Cold value, and the Cold values named are those of the Cold columns; the hidden fields and the
Cold values that come from the fuses are as log entries 3 and 37 choose. -/
theorem resetShowsColdValues : Obligations.ResetShowsColdValues := by
  refine ⟨State.reset_get, reset_named_colds, fun g h2 => ⟨?_, ?_⟩, fun n => ⟨State.reset_react n, State.reset_siteState _⟩⟩
  · rw [State.reset_get, coldAt_MON_HI, if_pos (monIdx_voltage g.isLt h2)]
  · rw [State.reset_get, coldAt_MON_LO, if_pos (monIdx_voltage g.isLt h2)]

end Sys2Proof.Machine
end

section
/-!
# The frame of every command

The mask of each row's meaning (KeepsExec, Rows) lies in the fields and the parts that are listed for the row.
-/

namespace Sys2Proof.Machine

/-- What the lists of a row leave alone (R6, R7). -/
def RowFrame (c : Instr) (s t : State) : Prop :=
  (anyField c = false → Frame (rowFields c) (rowParts c) s t) ∧ (anyField c = true → FrameParts (rowParts c) s t)

theorem RowFrame.of_listed {w : Nat} {c : Instr} {s t : State} (ha : anyField c = false) (hk : Keeps w s t)
    (hw : Sub w (fms (rowFields c) ||| pms (rowParts c))) : RowFrame c s t :=
  ⟨fun _ => hk.frame hw, fun h => absurd (ha.symm.trans h) (by decide)⟩

theorem RowFrame.of_anyField {w : Nat} {c : Instr} {s t : State} (ha : anyField c = true) (hk : Keeps w s t)
    (hw : Sub w (m_fields ||| pms (rowParts c))) : RowFrame c s t :=
  ⟨fun h => absurd (ha.symm.trans h) (by decide), fun _ => hk.frameParts hw⟩

/-- Every command keeps to the lists of its row. -/
theorem exec_rowFrame {c : Instr} {s t : State} (hn : exec c s = .next t) : RowFrame c s t := by
  cases c with
  | pin => exact RowFrame.of_listed rfl (execPin_keeps hn) (by dsimp only [rowFields, rowParts]; decide +kernel)
  | clkfail => exact RowFrame.of_listed rfl (execClkfail_keeps hn) (by dsimp only [rowFields, rowParts]; decide +kernel)
  | rstSoft => exact RowFrame.of_listed rfl (execRstSoft_frame hn) (by dsimp only [rowFields, rowParts]; decide +kernel)
  | wdogStart => exact RowFrame.of_listed rfl (execWdogStart_frame hn) (by dsimp only [rowFields, rowParts]; decide +kernel)
  | rstWdogKick => exact RowFrame.of_listed rfl (execRstWdogKick_frame hn) (by dsimp only [rowFields, rowParts]; decide +kernel)
  | standbyEntry => exact RowFrame.of_anyField rfl (execStandbyEntry_keeps hn) (by dsimp only [rowParts]; decide +kernel)
  | contactCheckDone => exact RowFrame.of_listed rfl (execContactCheckDone_keeps hn) (by dsimp only [rowFields, rowParts]; decide +kernel)
  | contactCtlStart => exact RowFrame.of_listed rfl (execContactCtlStart_frame hn) (by dsimp only [rowFields, rowParts]; decide +kernel)
  | mode => exact RowFrame.of_listed rfl (execMode_keeps hn) (by dsimp only [rowFields, rowParts]; decide +kernel)
  | wake => exact RowFrame.of_listed rfl (execWake_keeps hn) (by dsimp only [rowFields, rowParts]; decide +kernel)
  | chimneySample => exact RowFrame.of_listed rfl (execChimneySample_keeps hn) (by dsimp only [rowFields, rowParts]; decide +kernel)
  | lanePresetUpdate => exact RowFrame.of_listed rfl (execLanePresetUpdate_keeps hn) (by dsimp only [rowFields, rowParts]; decide +kernel)
  | deferredStartRelease => exact RowFrame.of_listed rfl (execDeferredStartRelease_keeps hn) (by dsimp only [rowFields, rowParts]; decide +kernel)
  | startTimeout => exact RowFrame.of_listed rfl (execStartTimeout_keeps hn) (by dsimp only [rowFields, rowParts]; decide +kernel)
  | vectorBoundary => exact RowFrame.of_listed rfl (execVectorBoundary_keeps hn) (by dsimp only [rowFields, rowParts]; decide +kernel)
  | stallLimitExpiry => exact RowFrame.of_listed rfl (execStallLimitExpiry_keeps hn) (by dsimp only [rowFields, rowParts]; decide +kernel)
  | lineDecodeDone => exact RowFrame.of_listed rfl (execLineDecodeDone_keeps hn) (by dsimp only [rowFields, rowParts]; decide +kernel)
  | panInval => exact RowFrame.of_listed rfl (execPanInval_frame hn) (by dsimp only [rowFields, rowParts]; decide +kernel)
  | panCounterRead => exact RowFrame.of_listed rfl (execPanCounterRead_frame hn) (by dsimp only [rowFields, rowParts]; decide +kernel)
  | jumpReqWrite => exact RowFrame.of_listed rfl (execJumpReqWrite_frame hn) (by dsimp only [rowFields, rowParts]; decide +kernel)
  | jumpReqCancel => exact RowFrame.of_listed rfl (execJumpReqCancel_frame hn) (by dsimp only [rowFields, rowParts]; decide +kernel)
  | smuWaveSample => exact RowFrame.of_listed rfl (execSmuWaveSample_keeps hn) (by dsimp only [rowFields, rowParts]; decide +kernel)
  | timedStart => exact RowFrame.of_listed rfl (execTimedStart_keeps hn) (by dsimp only [rowFields, rowParts]; decide +kernel)
  | tilePhaseMeasure => exact RowFrame.of_listed rfl (execTilePhaseMeasure_keeps hn) (by dsimp only [rowFields, rowParts]; decide +kernel)
  | chipOffsetWrite => exact RowFrame.of_listed rfl (execChipOffsetWrite_frame hn) (by dsimp only [rowFields, rowParts]; decide +kernel)
  | trigFire => exact RowFrame.of_listed rfl (execTrigFire_frame hn) (by dsimp only [rowFields, rowParts]; decide +kernel)
  | trigEmit => exact RowFrame.of_listed rfl (execTrigEmit_keeps hn) (by dsimp only [rowFields, rowParts]; decide +kernel)
  | trigArrival => exact RowFrame.of_listed rfl (execTrigArrival_keeps hn) (by dsimp only [rowFields, rowParts]; decide +kernel)
  | trigAction => exact RowFrame.of_listed rfl (execTrigAction_keeps hn) (by dsimp only [rowFields, rowParts]; decide +kernel)
  | trigAccEnable => exact RowFrame.of_listed rfl (execTrigAccEnable_frame hn) (by dsimp only [rowFields, rowParts]; decide +kernel)
  | timingSetWrite => exact RowFrame.of_listed rfl (execTimingSetWrite_frame hn) (by dsimp only [rowFields, rowParts]; decide +kernel)
  | chDskWrite => exact RowFrame.of_listed rfl (execChDskWrite_frame hn) (by dsimp only [rowFields, rowParts]; decide +kernel)
  | chCtrlWrite => exact RowFrame.of_listed rfl (execChCtrlWrite_frame hn) (by dsimp only [rowFields, rowParts]; decide +kernel)
  | levelWrite => exact RowFrame.of_listed rfl (execLevelWrite_frame hn) (by dsimp only [rowFields, rowParts]; decide +kernel)
  | levelSettled => exact RowFrame.of_listed rfl (execLevelSettled_keeps hn) (by dsimp only [rowFields, rowParts]; decide +kernel)
  | pmuCtrlWrite => exact RowFrame.of_listed rfl (execPmuCtrlWrite_frame hn) (by dsimp only [rowFields, rowParts]; decide +kernel)
  | pmuConnectDone => exact RowFrame.of_listed rfl (execPmuConnectDone_keeps hn) (by dsimp only [rowFields, rowParts]; decide +kernel)
  | pmuRangeDone => exact RowFrame.of_listed rfl (execPmuRangeDone_keeps hn) (by dsimp only [rowFields, rowParts]; decide +kernel)
  | pmuMeas => exact RowFrame.of_listed rfl (execPmuMeas_frame hn) (by dsimp only [rowFields, rowParts]; decide +kernel)
  | pmuMeasDone => exact RowFrame.of_listed rfl (execPmuMeasDone_keeps hn) (by dsimp only [rowFields, rowParts]; decide +kernel)
  | monitorCrossing => exact RowFrame.of_listed rfl (execMonitorCrossing_keeps hn) (by dsimp only [rowFields, rowParts]; decide +kernel)
  | monLatchClear => exact RowFrame.of_listed rfl (execMonLatchClear_frame hn) (by dsimp only [rowFields, rowParts]; decide +kernel)
  | monPeriodBoundary => exact RowFrame.of_listed rfl (execMonPeriodBoundary_keeps hn) (by dsimp only [rowFields, rowParts]; decide +kernel)
  | monCtrlWrite => exact RowFrame.of_listed rfl (execMonCtrlWrite_frame hn) (by dsimp only [rowFields, rowParts]; decide +kernel)
  | monThresholdWrite => exact RowFrame.of_listed rfl (execMonThresholdWrite_frame hn) (by dsimp only [rowFields, rowParts]; decide +kernel)
  | thresholdSettled => exact RowFrame.of_listed rfl (execThresholdSettled_keeps hn) (by dsimp only [rowFields, rowParts]; decide +kernel)
  | dpsCtrlWrite => exact RowFrame.of_listed rfl (execDpsCtrlWrite_frame hn) (by dsimp only [rowFields, rowParts]; decide +kernel)
  | vsetWrite => exact RowFrame.of_listed rfl (execVsetWrite_frame hn) (by dsimp only [rowFields, rowParts]; decide +kernel)
  | rampEnd => exact RowFrame.of_listed rfl (execRampEnd_keeps hn) (by dsimp only [rowFields, rowParts]; decide +kernel)
  | dpsSettled => exact RowFrame.of_listed rfl (execDpsSettled_keeps hn) (by dsimp only [rowFields, rowParts]; decide +kernel)
  | regLoss => exact RowFrame.of_listed rfl (execRegLoss_keeps hn) (by dsimp only [rowFields, rowParts]; decide +kernel)
  | senseDrop => exact RowFrame.of_listed rfl (execSenseDrop_keeps hn) (by dsimp only [rowFields, rowParts]; decide +kernel)
  | share => exact RowFrame.of_listed rfl (execShare_keeps hn) (by dsimp only [rowFields, rowParts]; decide +kernel)
  | dpsRangeDone => exact RowFrame.of_listed rfl (execDpsRangeDone_keeps hn) (by dsimp only [rowFields, rowParts]; decide +kernel)
  | monitorSample => exact RowFrame.of_listed rfl (execMonitorSample_keeps hn) (by dsimp only [rowFields, rowParts]; decide +kernel)
  | dpsMeas => exact RowFrame.of_listed rfl (execDpsMeas_frame hn) (by dsimp only [rowFields, rowParts]; decide +kernel)
  | smuMeas => exact RowFrame.of_listed rfl (execSmuMeas_frame hn) (by dsimp only [rowFields, rowParts]; decide +kernel)
  | measurementDone => exact RowFrame.of_listed rfl (execMeasurementDone_keeps hn) (by dsimp only [rowFields, rowParts]; decide +kernel)
  | smuCtrlWrite => exact RowFrame.of_listed rfl (execSmuCtrlWrite_frame hn) (by dsimp only [rowFields, rowParts]; decide +kernel)
  | smuRangeDone => exact RowFrame.of_listed rfl (execSmuRangeDone_keeps hn) (by dsimp only [rowFields, rowParts]; decide +kernel)
  | sineFreqWrite => exact RowFrame.of_listed rfl (execSineFreqWrite_frame hn) (by dsimp only [rowFields, rowParts]; decide +kernel)
  | supervisionMismatch => exact RowFrame.of_listed rfl (execSupervisionMismatch_keeps hn) (by dsimp only [rowFields, rowParts]; decide +kernel)
  | mismatchClear => exact RowFrame.of_listed rfl (execMismatchClear_frame hn) (by dsimp only [rowFields, rowParts]; decide +kernel)
  | tdcCtrlArm => exact RowFrame.of_listed rfl (execTdcCtrlArm_frame hn) (by dsimp only [rowFields, rowParts]; decide +kernel)
  | tdcCtrlDisarm => exact RowFrame.of_listed rfl (execTdcCtrlDisarm_frame hn) (by dsimp only [rowFields, rowParts]; decide +kernel)
  | tdcOpen => exact RowFrame.of_listed rfl (execTdcOpen_keeps hn) (by dsimp only [rowFields, rowParts]; decide +kernel)
  | tdcEvent => exact RowFrame.of_listed rfl (execTdcEvent_keeps hn) (by dsimp only [rowFields, rowParts]; decide +kernel)
  | pairTimeout => exact RowFrame.of_listed rfl (execPairTimeout_keeps hn) (by dsimp only [rowFields, rowParts]; decide +kernel)
  | tdcSpill => exact RowFrame.of_listed rfl (execTdcSpill_keeps hn) (by dsimp only [rowFields, rowParts]; decide +kernel)
  | ringRecheck => exact RowFrame.of_listed rfl (execRingRecheck_keeps hn) (by dsimp only [rowFields, rowParts]; decide +kernel)
  | acqCtrlArm => exact RowFrame.of_listed rfl (execAcqCtrlArm_frame hn) (by dsimp only [rowFields, rowParts]; decide +kernel)
  | acqCtrlForce => exact RowFrame.of_listed rfl (execAcqCtrlForce_frame hn) (by dsimp only [rowFields, rowParts]; decide +kernel)
  | acqCtrlCancel => exact RowFrame.of_listed rfl (execAcqCtrlCancel_frame hn) (by dsimp only [rowFields, rowParts]; decide +kernel)
  | acqSample => exact RowFrame.of_listed rfl (execAcqSample_keeps hn) (by dsimp only [rowFields, rowParts]; decide +kernel)
  | acqComplete => exact RowFrame.of_listed rfl (execAcqComplete_keeps hn) (by dsimp only [rowFields, rowParts]; decide +kernel)
  | failCompress => exact RowFrame.of_listed rfl (execFailCompress_keeps hn) (by dsimp only [rowFields, rowParts]; decide +kernel)
  | captureReduce => exact RowFrame.of_listed rfl (execCaptureReduce_keeps hn) (by dsimp only [rowFields, rowParts]; decide +kernel)
  | resultPack => exact RowFrame.of_listed rfl (execResultPack_keeps hn) (by dsimp only [rowFields, rowParts]; decide +kernel)
  | dequePushRetry => exact RowFrame.of_listed rfl (execDequePushRetry_keeps hn) (by dsimp only [rowFields, rowParts]; decide +kernel)
  | hearthTaskTakeover => exact RowFrame.of_listed rfl (execHearthTaskTakeover_keeps hn) (by dsimp only [rowFields, rowParts]; decide +kernel)
  | start => exact RowFrame.of_listed rfl (execStart_keeps hn) (by dsimp only [rowFields, rowParts]; decide +kernel)
  | pause => exact RowFrame.of_listed rfl (execPause_keeps hn) (by dsimp only [rowFields, rowParts]; decide +kernel)
  | resume => exact RowFrame.of_listed rfl (execResume_keeps hn) (by dsimp only [rowFields, rowParts]; decide +kernel)
  | retest => exact RowFrame.of_listed rfl (execRetest_keeps hn) (by dsimp only [rowFields, rowParts]; decide +kernel)
  | abort => exact RowFrame.of_listed rfl (execAbort_keeps hn) (by dsimp only [rowFields, rowParts]; decide +kernel)
  | siteFinish => exact RowFrame.of_listed rfl (execSiteFinish_keeps hn) (by dsimp only [rowFields, rowParts]; decide +kernel)
  | siteBind => exact RowFrame.of_listed rfl (execSiteBind_keeps hn) (by dsimp only [rowFields, rowParts]; decide +kernel)
  | siteUnbind => exact RowFrame.of_listed rfl (execSiteUnbind_keeps hn) (by dsimp only [rowFields, rowParts]; decide +kernel)
  | startChain => exact RowFrame.of_listed rfl (execStartChain_keeps hn) (by dsimp only [rowFields, rowParts]; decide +kernel)
  | pinJump => exact RowFrame.of_listed rfl (execPinJump_keeps hn) (by dsimp only [rowFields, rowParts]; decide +kernel)
  | pinCancel => exact RowFrame.of_listed rfl (execPinCancel_keeps hn) (by dsimp only [rowFields, rowParts]; decide +kernel)
  | tset => exact RowFrame.of_listed rfl (execTset_keeps hn) (by dsimp only [rowFields, rowParts]; decide +kernel)
  | bank => exact RowFrame.of_listed rfl (execBank_keeps hn) (by dsimp only [rowFields, rowParts]; decide +kernel)
  | cmask => exact RowFrame.of_listed rfl (execCmask_keeps hn) (by dsimp only [rowFields, rowParts]; decide +kernel)
  | drv => exact RowFrame.of_listed rfl (execDrv_keeps hn) (by dsimp only [rowFields, rowParts]; decide +kernel)
  | trig => exact RowFrame.of_listed rfl (execTrig_keeps hn) (by dsimp only [rowFields, rowParts]; decide +kernel)
  | clrfail => exact RowFrame.of_listed rfl (execClrfail_keeps hn) (by dsimp only [rowFields, rowParts]; decide +kernel)
  | level => exact RowFrame.of_listed rfl (execLevel_keeps hn) (by dsimp only [rowFields, rowParts]; decide +kernel)
  | term => exact RowFrame.of_listed rfl (execTerm_keeps hn) (by dsimp only [rowFields, rowParts]; decide +kernel)
  | dpsSet => exact RowFrame.of_listed rfl (execDpsSet_keeps hn) (by dsimp only [rowFields, rowParts]; decide +kernel)
  | dpsIlim => exact RowFrame.of_listed rfl (execDpsIlim_keeps hn) (by dsimp only [rowFields, rowParts]; decide +kernel)
  | dpsEn => exact RowFrame.of_listed rfl (execDpsEn_keeps hn) (by dsimp only [rowFields, rowParts]; decide +kernel)
  | dpsRamp => exact RowFrame.of_listed rfl (execDpsRamp_keeps hn) (by dsimp only [rowFields, rowParts]; decide +kernel)
  | smuSet => exact RowFrame.of_listed rfl (execSmuSet_keeps hn) (by dsimp only [rowFields, rowParts]; decide +kernel)
  | smuClamp => exact RowFrame.of_listed rfl (execSmuClamp_keeps hn) (by dsimp only [rowFields, rowParts]; decide +kernel)
  | smuRange => exact RowFrame.of_listed rfl (execSmuRange_keeps hn) (by dsimp only [rowFields, rowParts]; decide +kernel)
  | smuEn => exact RowFrame.of_listed rfl (execSmuEn_keeps hn) (by dsimp only [rowFields, rowParts]; decide +kernel)
  | smuWave => exact RowFrame.of_listed rfl (execSmuWave_keeps hn) (by dsimp only [rowFields, rowParts]; decide +kernel)
  | smuStop => exact RowFrame.of_listed rfl (execSmuStop_keeps hn) (by dsimp only [rowFields, rowParts]; decide +kernel)
  | pmuCfg => exact RowFrame.of_listed rfl (execPmuCfg_keeps hn) (by dsimp only [rowFields, rowParts]; decide +kernel)
  | pmuForce => exact RowFrame.of_listed rfl (execPmuForce_keeps hn) (by dsimp only [rowFields, rowParts]; decide +kernel)
  | tdcArm => exact RowFrame.of_listed rfl (execTdcArm_keeps hn) (by dsimp only [rowFields, rowParts]; decide +kernel)
  | tdcStop => exact RowFrame.of_listed rfl (execTdcStop_keeps hn) (by dsimp only [rowFields, rowParts]; decide +kernel)
  | acqArm => exact RowFrame.of_listed rfl (execAcqArm_keeps hn) (by dsimp only [rowFields, rowParts]; decide +kernel)
  | acqForce => exact RowFrame.of_listed rfl (execAcqForce_keeps hn) (by dsimp only [rowFields, rowParts]; decide +kernel)
  | wait => exact RowFrame.of_listed rfl (execWait_keeps hn) (by dsimp only [rowFields, rowParts]; decide +kernel)
  | settle => exact RowFrame.of_listed rfl (execSettle_keeps hn) (by dsimp only [rowFields, rowParts]; decide +kernel)
  | measure => exact RowFrame.of_listed rfl (execMeasure_keeps hn) (by dsimp only [rowFields, rowParts]; decide +kernel)
  | read => exact RowFrame.of_listed rfl (execRead_keeps hn) (by dsimp only [rowFields, rowParts]; decide +kernel)
  | longOperationEnd => exact RowFrame.of_listed rfl (execLongOperationEnd_keeps hn) (by dsimp only [rowFields, rowParts]; decide +kernel)
  | commandRefused => exact RowFrame.of_listed rfl (execCommandRefused_keeps hn) (by dsimp only [rowFields, rowParts]; decide +kernel)
  | next => exact RowFrame.of_listed rfl (execNext_keeps hn) (by dsimp only [rowFields, rowParts]; decide +kernel)
  | jump => exact RowFrame.of_listed rfl (execJump_keeps hn) (by dsimp only [rowFields, rowParts]; decide +kernel)
  | call => exact RowFrame.of_listed rfl (execCall_keeps hn) (by dsimp only [rowFields, rowParts]; decide +kernel)
  | ret => exact RowFrame.of_listed rfl (execRet_keeps hn) (by dsimp only [rowFields, rowParts]; decide +kernel)
  | brt => exact RowFrame.of_listed rfl (execBrt_keeps hn) (by dsimp only [rowFields, rowParts]; decide +kernel)
  | brf => exact RowFrame.of_listed rfl (execBrf_keeps hn) (by dsimp only [rowFields, rowParts]; decide +kernel)
  | loop => exact RowFrame.of_listed rfl (execLoop_keeps hn) (by dsimp only [rowFields, rowParts]; decide +kernel)
  | waitev => exact RowFrame.of_listed rfl (execWaitev_keeps hn) (by dsimp only [rowFields, rowParts]; decide +kernel)
  | waitevEnd => exact RowFrame.of_listed rfl (execWaitevEnd_keeps hn) (by dsimp only [rowFields, rowParts]; decide +kernel)
  | dispatch => exact RowFrame.of_listed rfl (execDispatch_keeps hn) (by dsimp only [rowFields, rowParts]; decide +kernel)
  | yield => exact RowFrame.of_listed rfl (execYield_keeps hn) (by dsimp only [rowFields, rowParts]; decide +kernel)
  | trap => exact RowFrame.of_listed rfl (execTrap_keeps hn) (by dsimp only [rowFields, rowParts]; decide +kernel)
  | mret => exact RowFrame.of_listed rfl (execMret_keeps hn) (by dsimp only [rowFields, rowParts]; decide +kernel)
  | halt => exact RowFrame.of_listed rfl (execHalt_keeps hn) (by dsimp only [rowFields, rowParts]; decide +kernel)
  | parityError => exact RowFrame.of_listed rfl (execParityError_keeps hn) (by dsimp only [rowFields, rowParts]; decide +kernel)
  | trapEntry => exact RowFrame.of_listed rfl (execTrapEntry_keeps hn) (by dsimp only [rowFields, rowParts]; decide +kernel)
  | abortTimeout => exact RowFrame.of_listed rfl (execAbortTimeout_keeps hn) (by dsimp only [rowFields, rowParts]; decide +kernel)
  | engineEntry => exact RowFrame.of_listed rfl (execEngineEntry_keeps hn) (by dsimp only [rowFields, rowParts]; decide +kernel)
  | ld => exact RowFrame.of_listed rfl (execLd_keeps hn) (by dsimp only [rowFields, rowParts]; decide +kernel)
  | st => exact RowFrame.of_listed rfl (execSt_keeps hn) (by dsimp only [rowFields, rowParts]; decide +kernel)
  | ldp => exact RowFrame.of_listed rfl (execLdp_keeps hn) (by dsimp only [rowFields, rowParts]; decide +kernel)
  | stp => exact RowFrame.of_listed rfl (execStp_keeps hn) (by dsimp only [rowFields, rowParts]; decide +kernel)
  | loadComplete => exact RowFrame.of_listed rfl (execLoadComplete_keeps hn) (by dsimp only [rowFields, rowParts]; decide +kernel)
  | memoryError => exact RowFrame.of_listed rfl (execMemoryError_keeps hn) (by dsimp only [rowFields, rowParts]; decide +kernel)
  | sem => exact RowFrame.of_listed rfl (execSem_keeps hn) (by dsimp only [rowFields, rowParts]; decide +kernel)
  | semrel => exact RowFrame.of_listed rfl (execSemrel_keeps hn) (by dsimp only [rowFields, rowParts]; decide +kernel)
  | record => exact RowFrame.of_listed rfl (execRecord_keeps hn) (by dsimp only [rowFields, rowParts]; decide +kernel)
  | cmd => exact RowFrame.of_listed rfl (execCmd_keeps hn) (by dsimp only [rowFields, rowParts]; decide +kernel)
  | cmdReply => exact RowFrame.of_listed rfl (execCmdReply_keeps hn) (by dsimp only [rowFields, rowParts]; decide +kernel)
  | fld => exact RowFrame.of_listed rfl (execFld_keeps hn) (by dsimp only [rowFields, rowParts]; decide +kernel)
  | fst => exact RowFrame.of_listed rfl (execFst_keeps hn) (by dsimp only [rowFields, rowParts]; decide +kernel)
  | pusht => exact RowFrame.of_listed rfl (execPusht_keeps hn) (by dsimp only [rowFields, rowParts]; decide +kernel)
  | engGo => exact RowFrame.of_listed rfl (execEngGo_frame hn) (by dsimp only [rowFields, rowParts]; decide +kernel)
  | engStop => exact RowFrame.of_listed rfl (execEngStop_frame hn) (by dsimp only [rowFields, rowParts]; decide +kernel)
  | engStep => exact RowFrame.of_listed rfl (execEngStep_frame hn) (by dsimp only [rowFields, rowParts]; decide +kernel)
  | controlStoreWrite => exact RowFrame.of_anyField rfl (execControlStoreWrite_keeps hn) (by dsimp only [rowParts]; decide +kernel)
  | semAcqRead => exact RowFrame.of_listed rfl (execSemAcqRead_keeps hn) (by dsimp only [rowFields, rowParts]; decide +kernel)
  | semAcqWrite => exact RowFrame.of_listed rfl (execSemAcqWrite_frame hn) (by dsimp only [rowFields, rowParts]; decide +kernel)
  | semForce => exact RowFrame.of_listed rfl (execSemForce_frame hn) (by dsimp only [rowFields, rowParts]; decide +kernel)
  | bitSetAliasWrite => exact RowFrame.of_listed rfl (execBitSetAliasWrite_keeps hn) (by dsimp only [rowFields, rowParts]; decide +kernel)
  | bitClearAliasWrite => exact RowFrame.of_listed rfl (execBitClearAliasWrite_keeps hn) (by dsimp only [rowFields, rowParts]; decide +kernel)
  | secWipe => exact RowFrame.of_listed rfl (execSecWipe_frame hn) (by dsimp only [rowFields, rowParts]; decide +kernel)
  | tamper => exact RowFrame.of_listed rfl (execTamper_keeps hn) (by dsimp only [rowFields, rowParts]; decide +kernel)
  | scrubRead => exact RowFrame.of_listed rfl (execScrubRead_keeps hn) (by dsimp only [rowFields, rowParts]; decide +kernel)
  | calibrate => exact RowFrame.of_listed rfl (execCalibrate_keeps hn) (by dsimp only [rowFields, rowParts]; decide +kernel)
  | calStop => exact RowFrame.of_listed rfl (execCalStop_keeps hn) (by dsimp only [rowFields, rowParts]; decide +kernel)
  | calFlowDone => exact RowFrame.of_listed rfl (execCalFlowDone_keeps hn) (by dsimp only [rowFields, rowParts]; decide +kernel)
  | correctionApply => exact RowFrame.of_listed rfl (execCorrectionApply_keeps hn) (by dsimp only [rowFields, rowParts]; decide +kernel)
  | calLoad => exact RowFrame.of_listed rfl (execCalLoad_keeps hn) (by dsimp only [rowFields, rowParts]; decide +kernel)
  | patLoad => exact RowFrame.of_listed rfl (execPatLoad_keeps hn) (by dsimp only [rowFields, rowParts]; decide +kernel)
  | segLoad => exact RowFrame.of_listed rfl (execSegLoad_keeps hn) (by dsimp only [rowFields, rowParts]; decide +kernel)
  | csLoad => exact RowFrame.of_listed rfl (execCsLoad_keeps hn) (by dsimp only [rowFields, rowParts]; decide +kernel)
  | status => exact RowFrame.of_listed rfl (execStatus_keeps hn) (by dsimp only [rowFields, rowParts]; decide +kernel)
  | regRd => exact RowFrame.of_anyField rfl (execRegRd_keeps hn) (by dsimp only [rowParts]; decide +kernel)
  | regWr => exact RowFrame.of_anyField rfl (execRegWr_keeps hn) (by dsimp only [rowParts]; decide +kernel)
  | blkRd => exact RowFrame.of_anyField rfl (execBlkRd_keeps hn) (by dsimp only [rowParts]; decide +kernel)
  | blkWr => exact RowFrame.of_anyField rfl (execBlkWr_keeps hn) (by dsimp only [rowParts]; decide +kernel)
  | flashWr => exact RowFrame.of_listed rfl (execFlashWr_keeps hn) (by dsimp only [rowFields, rowParts]; decide +kernel)
  | flashErase => exact RowFrame.of_listed rfl (execFlashErase_keeps hn) (by dsimp only [rowFields, rowParts]; decide +kernel)
  | hostJump => exact RowFrame.of_listed rfl (execHostJump_keeps hn) (by dsimp only [rowFields, rowParts]; decide +kernel)
  | softReset => exact RowFrame.of_listed rfl (execSoftReset_keeps hn) (by dsimp only [rowFields, rowParts]; decide +kernel)
  | bootClear => exact RowFrame.of_listed rfl (execBootClear_keeps hn) (by dsimp only [rowFields, rowParts]; decide +kernel)
  | prepareRemove => exact RowFrame.of_listed rfl (execPrepareRemove_keeps hn) (by dsimp only [rowFields, rowParts]; decide +kernel)
  | mbxPost => exact RowFrame.of_listed rfl (execMbxPost_keeps hn) (by dsimp only [rowFields, rowParts]; decide +kernel)
  | mbxRead => exact RowFrame.of_listed rfl (execMbxRead_keeps hn) (by dsimp only [rowFields, rowParts]; decide +kernel)
  | doorbell => exact RowFrame.of_listed rfl (execDoorbell_keeps hn) (by dsimp only [rowFields, rowParts]; decide +kernel)
  | mbxReset => exact RowFrame.of_listed rfl (execMbxReset_keeps hn) (by dsimp only [rowFields, rowParts]; decide +kernel)
  | reservedOpcode => exact RowFrame.of_listed rfl (execReservedOpcode_keeps hn) (by dsimp only [rowFields, rowParts]; decide +kernel)
  | injectFault => exact RowFrame.of_listed rfl (execInjectFault_keeps hn) (by dsimp only [rowFields, rowParts]; decide +kernel)
  | injectInterrupt => exact RowFrame.of_listed rfl (execInjectInterrupt_keeps hn) (by dsimp only [rowFields, rowParts]; decide +kernel)
  | injectSensorReading => exact RowFrame.of_listed rfl (execInjectSensorReading_keeps hn) (by dsimp only [rowFields, rowParts]; decide +kernel)
  | injectSensorBroken => exact RowFrame.of_listed rfl (execInjectSensorBroken_keeps hn) (by dsimp only [rowFields, rowParts]; decide +kernel)
  | forcedReadingExpiry => exact RowFrame.of_listed rfl (execForcedReadingExpiry_keeps hn) (by dsimp only [rowFields, rowParts]; decide +kernel)
  | fuseRead => exact RowFrame.of_listed rfl (execFuseRead_keeps hn) (by dsimp only [rowFields, rowParts]; decide +kernel)
  | fuseOr => exact RowFrame.of_listed rfl (execFuseOr_keeps hn) (by dsimp only [rowFields, rowParts]; decide +kernel)
  | versionRead => exact RowFrame.of_listed rfl (execVersionRead_keeps hn) (by dsimp only [rowFields, rowParts]; decide +kernel)
  | mbxHostRx => exact RowFrame.of_listed rfl (execMbxHostRx_frame hn) (by dsimp only [rowFields, rowParts]; decide +kernel)
  | mbxHostTx => exact RowFrame.of_listed rfl (execMbxHostTx_frame hn) (by dsimp only [rowFields, rowParts]; decide +kernel)
  | mbxHostDb => exact RowFrame.of_listed rfl (execMbxHostDb_frame hn) (by dsimp only [rowFields, rowParts]; decide +kernel)
  | mbxEngTx => exact RowFrame.of_listed rfl (execMbxEngTx_frame hn) (by dsimp only [rowFields, rowParts]; decide +kernel)
  | mbxEngRx => exact RowFrame.of_listed rfl (execMbxEngRx_frame hn) (by dsimp only [rowFields, rowParts]; decide +kernel)
  | mbxEngDb => exact RowFrame.of_listed rfl (execMbxEngDb_frame hn) (by dsimp only [rowFields, rowParts]; decide +kernel)
  | cspStart => exact RowFrame.of_listed rfl (execCspStart_frame hn) (by dsimp only [rowFields, rowParts]; decide +kernel)
  | cspAbort => exact RowFrame.of_listed rfl (execCspAbort_frame hn) (by dsimp only [rowFields, rowParts]; decide +kernel)
  | cspEnWrite => exact RowFrame.of_listed rfl (execCspEnWrite_frame hn) (by dsimp only [rowFields, rowParts]; decide +kernel)
  | cspTransferDone => exact RowFrame.of_listed rfl (execCspTransferDone_keeps hn) (by dsimp only [rowFields, rowParts]; decide +kernel)
  | selectLost => exact RowFrame.of_listed rfl (execSelectLost_keeps hn) (by dsimp only [rowFields, rowParts]; decide +kernel)
  | faultRaise => exact RowFrame.of_listed rfl (execFaultRaise_keeps hn) (by dsimp only [rowFields, rowParts]; decide +kernel)
  | fltAck => exact RowFrame.of_listed rfl (execFltAck_frame hn) (by dsimp only [rowFields, rowParts]; decide +kernel)
  | fltInj => exact RowFrame.of_listed rfl (execFltInj_frame hn) (by dsimp only [rowFields, rowParts]; decide +kernel)
  | irqSwset => exact RowFrame.of_listed rfl (execIrqSwset_frame hn) (by dsimp only [rowFields, rowParts]; decide +kernel)
  | secRbCommit => exact RowFrame.of_listed rfl (execSecRbCommit_frame hn) (by dsimp only [rowFields, rowParts]; decide +kernel)
  | secLcReq => exact RowFrame.of_listed rfl (execSecLcReq_frame hn) (by dsimp only [rowFields, rowParts]; decide +kernel)
  | secProvCmd => exact RowFrame.of_listed rfl (execSecProvCmd_frame hn) (by dsimp only [rowFields, rowParts]; decide +kernel)
  | fuseProgramDone => exact RowFrame.of_listed rfl (execFuseProgramDone_keeps hn) (by dsimp only [rowFields, rowParts]; decide +kernel)
  | debugUnlock => exact RowFrame.of_listed rfl (execDebugUnlock_frame hn) (by dsimp only [rowFields, rowParts]; decide +kernel)
  | linkBlockReceive => exact RowFrame.of_listed rfl (execLinkBlockReceive_keeps hn) (by dsimp only [rowFields, rowParts]; decide +kernel)
  | flitReceive => exact RowFrame.of_listed rfl (execFlitReceive_keeps hn) (by dsimp only [rowFields, rowParts]; decide +kernel)
  | retryReq => exact RowFrame.of_listed rfl (execRetryReq_keeps hn) (by dsimp only [rowFields, rowParts]; decide +kernel)
  | retryReqResend => exact RowFrame.of_listed rfl (execRetryReqResend_keeps hn) (by dsimp only [rowFields, rowParts]; decide +kernel)
  | partnerDetect => exact RowFrame.of_listed rfl (execPartnerDetect_keeps hn) (by dsimp only [rowFields, rowParts]; decide +kernel)
  | linkInfo => exact RowFrame.of_listed rfl (execLinkInfo_keeps hn) (by dsimp only [rowFields, rowParts]; decide +kernel)
  | trainingStepDone => exact RowFrame.of_listed rfl (execTrainingStepDone_keeps hn) (by dsimp only [rowFields, rowParts]; decide +kernel)
  | linkUp => exact RowFrame.of_listed rfl (execLinkUp_keeps hn) (by dsimp only [rowFields, rowParts]; decide +kernel)
  | retrain => exact RowFrame.of_listed rfl (execRetrain_keeps hn) (by dsimp only [rowFields, rowParts]; decide +kernel)
  | linkDown => exact RowFrame.of_listed rfl (execLinkDown_keeps hn) (by dsimp only [rowFields, rowParts]; decide +kernel)
  | downExpiry => exact RowFrame.of_listed rfl (execDownExpiry_keeps hn) (by dsimp only [rowFields, rowParts]; decide +kernel)
  | porchEnWrite => exact RowFrame.of_listed rfl (execPorchEnWrite_frame hn) (by dsimp only [rowFields, rowParts]; decide +kernel)
  | quietReq => exact RowFrame.of_listed rfl (execQuietReq_keeps hn) (by dsimp only [rowFields, rowParts]; decide +kernel)
  | quietAck => exact RowFrame.of_listed rfl (execQuietAck_keeps hn) (by dsimp only [rowFields, rowParts]; decide +kernel)
  | quietExit => exact RowFrame.of_listed rfl (execQuietExit_keeps hn) (by dsimp only [rowFields, rowParts]; decide +kernel)
  | deepReq => exact RowFrame.of_listed rfl (execDeepReq_keeps hn) (by dsimp only [rowFields, rowParts]; decide +kernel)
  | deepAck => exact RowFrame.of_listed rfl (execDeepAck_keeps hn) (by dsimp only [rowFields, rowParts]; decide +kernel)
  | deepWake => exact RowFrame.of_listed rfl (execDeepWake_keeps hn) (by dsimp only [rowFields, rowParts]; decide +kernel)
  | wakeTimeout => exact RowFrame.of_listed rfl (execWakeTimeout_keeps hn) (by dsimp only [rowFields, rowParts]; decide +kernel)
  | leave => exact RowFrame.of_listed rfl (execLeave_keeps hn) (by dsimp only [rowFields, rowParts]; decide +kernel)
  | discover => exact RowFrame.of_listed rfl (execDiscover_keeps hn) (by dsimp only [rowFields, rowParts]; decide +kernel)
  | assign => exact RowFrame.of_listed rfl (execAssign_keeps hn) (by dsimp only [rowFields, rowParts]; decide +kernel)
  | routeSet => exact RowFrame.of_listed rfl (execRouteSet_keeps hn) (by dsimp only [rowFields, rowParts]; decide +kernel)
  | regWrite => exact RowFrame.of_anyField rfl (execRegWrite_keeps hn) (by dsimp only [rowParts]; decide +kernel)
  | thresholdArming => exact RowFrame.of_listed rfl (execThresholdArming_keeps hn) (by dsimp only [rowFields, rowParts]; decide +kernel)
  | currentLimit => exact RowFrame.of_listed rfl (execCurrentLimit_keeps hn) (by dsimp only [rowFields, rowParts]; decide +kernel)
  | smuCompliance => exact RowFrame.of_listed rfl (execSmuCompliance_keeps hn) (by dsimp only [rowFields, rowParts]; decide +kernel)
  | flashOperationDone => exact RowFrame.of_listed rfl (execFlashOperationDone_keeps hn) (by dsimp only [rowFields, rowParts]; decide +kernel)
  | leaveWaitExpiry => exact RowFrame.of_listed rfl (execLeaveWaitExpiry_keeps hn) (by dsimp only [rowFields, rowParts]; decide +kernel)
  | sineGeneratorStep => exact RowFrame.of_listed rfl (execSineGeneratorStep_keeps hn) (by dsimp only [rowFields, rowParts]; decide +kernel)
  | refreshRateReport => exact RowFrame.of_listed rfl (execRefreshRateReport_keeps hn) (by dsimp only [rowFields, rowParts]; decide +kernel)
  | commandAcknowledge => exact RowFrame.of_listed rfl (execCommandAcknowledge_keeps hn) (by dsimp only [rowFields, rowParts]; decide +kernel)
  | por => exact RowFrame.of_anyField rfl (execPor_keeps hn) (by dsimp only [rowParts]; decide +kernel)
  | bor => exact RowFrame.of_anyField rfl (execBor_keeps hn) (by dsimp only [rowParts]; decide +kernel)
  | porRelease => exact RowFrame.of_listed rfl (execPorRelease_keeps hn) (by dsimp only [rowFields, rowParts]; decide +kernel)
  | wdog => exact RowFrame.of_listed rfl (execWdog_keeps hn) (by dsimp only [rowFields, rowParts]; decide +kernel)
  | wdogHalf => exact RowFrame.of_listed rfl (execWdogHalf_keeps hn) (by dsimp only [rowFields, rowParts]; decide +kernel)
  | soft => exact RowFrame.of_listed rfl (execSoft_keeps hn) (by dsimp only [rowFields, rowParts]; decide +kernel)
  | debugReset => exact RowFrame.of_listed rfl (execDebugReset_keeps hn) (by dsimp only [rowFields, rowParts]; decide +kernel)
  | lockup => exact RowFrame.of_listed rfl (execLockup_keeps hn) (by dsimp only [rowFields, rowParts]; decide +kernel)
  | laneRef => exact RowFrame.of_listed rfl (execLaneRef_keeps hn) (by dsimp only [rowFields, rowParts]; decide +kernel)
  | safeStateSequence => exact RowFrame.of_listed rfl (execSafeStateSequence_keeps hn) (by dsimp only [rowFields, rowParts]; decide +kernel)
  | bringup => exact RowFrame.of_listed rfl (execBringup_keeps hn) (by dsimp only [rowFields, rowParts]; decide +kernel)
  | refDetect => exact RowFrame.of_listed rfl (execRefDetect_keeps hn) (by dsimp only [rowFields, rowParts]; decide +kernel)
  | bootTimerExpiry => exact RowFrame.of_listed rfl (execBootTimerExpiry_keeps hn) (by dsimp only [rowFields, rowParts]; decide +kernel)
  | thermalLogRetry => exact RowFrame.of_listed rfl (execThermalLogRetry_keeps hn) (by dsimp only [rowFields, rowParts]; decide +kernel)
  | warmHoldExpiry => exact RowFrame.of_listed rfl (execWarmHoldExpiry_keeps hn) (by dsimp only [rowFields, rowParts]; decide +kernel)
  | modeTransitionDone => exact RowFrame.of_listed rfl (execModeTransitionDone_keeps hn) (by dsimp only [rowFields, rowParts]; decide +kernel)
  | pantryLineGrant => exact RowFrame.of_listed rfl (execPantryLineGrant_keeps hn) (by dsimp only [rowFields, rowParts]; decide +kernel)
  | lineDecodeStart => exact RowFrame.of_listed rfl (execLineDecodeStart_keeps hn) (by dsimp only [rowFields, rowParts]; decide +kernel)
  | invalidationDone => exact RowFrame.of_listed rfl (execInvalidationDone_keeps hn) (by dsimp only [rowFields, rowParts]; decide +kernel)
  | syncEvent => exact RowFrame.of_listed rfl (execSyncEvent_keeps hn) (by dsimp only [rowFields, rowParts]; decide +kernel)
  | timebaseWrap => exact RowFrame.of_listed rfl (execTimebaseWrap_keeps hn) (by dsimp only [rowFields, rowParts]; decide +kernel)
  | stealDisable => exact RowFrame.of_listed rfl (execStealDisable_keeps hn) (by dsimp only [rowFields, rowParts]; decide +kernel)
  | wipeDone => exact RowFrame.of_listed rfl (execWipeDone_keeps hn) (by dsimp only [rowFields, rowParts]; decide +kernel)
  | eventSend => exact RowFrame.of_listed rfl (execEventSend_keeps hn) (by dsimp only [rowFields, rowParts]; decide +kernel)
  | faultEscalation => exact RowFrame.of_listed rfl (execFaultEscalation_keeps hn) (by dsimp only [rowFields, rowParts]; decide +kernel)
  | debugUnlockDone => exact RowFrame.of_listed rfl (execDebugUnlockDone_keeps hn) (by dsimp only [rowFields, rowParts]; decide +kernel)

/-- Settles O60: the mask of every command lies in the lists of its row. -/
theorem everyCommandKeepsTheRest : Obligations.EveryCommandKeepsTheRest := fun _ _ _ hn => exec_rowFrame hn

end Sys2Proof.Machine
end

section
/-! # Access by the host: who is turned away, STATUS, REG_RD and REG_WR -/

namespace Sys2Proof.Machine

/-! ## Answers -/

theorem State.answer_onlyReplied (s : State) (h : Hdr) (op st site detail : Nat) (data : List Byte) :
    OnlyReplied h op st data s (s.answer h op st site detail data) :=
  ⟨State.answer_replied s h op st site detail data, rfl⟩

theorem State.answerOk_onlyReplied (s : State) (h : Hdr) (op : Nat) (data : List Byte) :
    OnlyReplied h op stOK data s (s.answerOk h op data) := State.answer_onlyReplied ..

theorem State.answerErr_onlyReplied (s : State) (h : Hdr) (op st detail : Nat) :
    OnlyReplied h op st [] s (s.answerErr h op st detail) := State.answer_onlyReplied ..

theorem State.answerWrong_onlyReplied (s : State) (h : Hdr) (op : Nat) :
    OnlyReplied h op stWRONG [] s (s.answerWrong h op) := State.answer_onlyReplied ..

/-- Whichever sites refuse, the status is WRONG_STATE (R122). -/
theorem State.answerSites_onlyReplied (s : State) (h : Hdr) (op : Nat) (l : List Nat) :
    OnlyReplied h op stWRONG [] s (s.answerSites h op l) := by
  cases l with
  | nil => exact State.answerWrong_onlyReplied s h op
  | cons i _ => exact State.answer_onlyReplied ..

theorem State.answerOk_cellar (s : State) (h : Hdr) (op : Nat) (data : List Byte) :
    (s.answerOk h op data).cellar = s.cellar := rfl

/-- A command whose meaning is known completes with what is known of that meaning. -/
theorem Completes.of_eq {c : Instr} {s t : State} {P : State → Prop} (e : exec c s = .next t) (h : P t) : Completes c s P :=
  ⟨t, e, h⟩

/-! ## Who is turned away -/

theorem State.serve_inReset {s : State} (h : Hdr) (op : Nat) (legal : State → Bool) (named : List Nat) (eff : State → State)
    (hp : s.portPhase = 1) : s.serve h op legal named eff = s.answerErr h op stINRESET 0 := by
  unfold State.serve
  rw [hp]
  rfl

theorem State.serve_down {s : State} (h : Hdr) (op : Nat) (legal : State → Bool) (named : List Nat) (eff : State → State)
    (hp : s.portPhase = 2) : s.serve h op legal named eff = s := by
  unfold State.serve
  rw [hp]
  rfl

theorem State.serve_illegal {s : State} (h : Hdr) (op : Nat) {legal : State → Bool} (named : List Nat) (eff : State → State)
    (hp : s.portPhase = 0) (hl : s.on H.UNAVAIL 0 = true ∨ legal s = false) :
    s.serve h op legal named eff = s.answerSites h op named := by
  have hc : (s.on H.UNAVAIL 0 || !legal s) = true := by
    rcases hl with hl | hl <;> simp [hl]
  unfold State.serve
  rw [hp]
  exact if_pos hc

/-- A command that Hearth serves is turned away as its port and its mode say. -/
theorem hostTurns_of_serve {c : Instr} {h : Hdr} {op : Nat} {legal : State → Bool} {s : State} {named : List Nat}
    {eff : State → State} (e : exec c s = .next (s.serve h op legal named eff)) : HostTurns c h op legal s := by
  refine ⟨fun hp => ?_, fun hp => ?_, fun hp hl => ?_⟩
  · rw [State.serve_inReset h op legal named eff hp] at e
    exact .of_eq e (State.answerErr_onlyReplied ..)
  · rw [State.serve_down h op legal named eff hp] at e
    exact .of_eq e rfl
  · rw [State.serve_illegal h op named eff hp hl] at e
    exact .of_eq e (State.answerSites_onlyReplied ..)

theorem siteBind_turns {s : State} {h : Hdr} {data : List Byte} (hd : data.length = 64) :
    HostTurns (.siteBind h data) h 0x2B legalLoad s := by
  apply hostTurns_of_serve
  rw [show exec (.siteBind h data) s = .next (s.siteBind h data) from if_pos hd]
  unfold State.siteBind
  rfl

theorem siteUnbind_turns (s : State) (h : Hdr) (mask : Nat) : HostTurns (.siteUnbind h mask) h 0x2C legalLoad s := by
  apply hostTurns_of_serve
  rw [show exec (.siteUnbind h mask) s = .next (s.siteUnbind h mask) from rfl]
  unfold State.siteUnbind
  rfl

theorem siteControl_turns {c : Instr} {s : State} {h : Hdr} {cmd mask : Nat}
    (e : exec c s = .next (s.siteControl (.host h) cmd mask)) : HostTurns c h 0x2D (legalCmd cmd) s := by
  unfold State.siteControl at e
  exact hostTurns_of_serve e

theorem hostJump_turns (s : State) (h : Hdr) (cancel smu : Bool) (mask : Nat) :
    HostTurns (.hostJump h cancel smu mask) h 0x2E legalSite s := by
  apply hostTurns_of_serve
  rw [show exec (.hostJump h cancel smu mask) s = .next (s.hostJumpCmd h cancel smu mask) from rfl]
  unfold State.hostJumpCmd
  rfl

theorem hostRows_turn (s : State) (h : Hdr) (n m v : Nat) (b : Bool) (ns : List Nat) (items : List RegItem) (data : List Byte)
    (a : CalArgs) : ∀ r ∈ hostRows h n m v b ns items data a, HostTurns r.1 h r.2.1 r.2.2 s := by
  simp only [hostRows, List.forall_mem_cons]
  refine ⟨hostTurns_of_serve rfl, hostTurns_of_serve rfl, hostTurns_of_serve rfl, hostTurns_of_serve rfl,
    hostTurns_of_serve rfl, hostTurns_of_serve rfl, hostTurns_of_serve rfl, hostTurns_of_serve rfl,
    hostTurns_of_serve rfl, hostTurns_of_serve rfl, hostTurns_of_serve rfl, siteUnbind_turns s h n,
    siteControl_turns rfl, siteControl_turns rfl, siteControl_turns rfl, siteControl_turns rfl, siteControl_turns rfl,
    hostJump_turns s h b _ n, hostTurns_of_serve rfl, hostTurns_of_serve rfl, hostTurns_of_serve rfl,
    hostTurns_of_serve rfl, hostTurns_of_serve rfl, hostTurns_of_serve rfl, hostTurns_of_serve rfl,
    hostTurns_of_serve rfl, hostTurns_of_serve rfl, hostTurns_of_serve rfl, hostTurns_of_serve rfl, ?_⟩
  exact fun _ h => absurd h List.not_mem_nil

/-- A command that an engine may not send (R504): served for a host, OPCODE for an engine. -/
theorem hostOnly_turns {c : Instr} {h : Hdr} {op : Nat} {legal : State → Bool} {s : State} {named : List Nat}
    {eff : State → State}
    (e : exec c s = .next (if 256 ≤ h.src then s.answerErr h op stOPCODE 0 else s.serve h op legal named eff)) :
    (h.src < 256 → HostTurns c h op legal s) ∧ (256 ≤ h.src → Completes c s (OnlyReplied h op stOPCODE [] s)) := by
  refine ⟨fun hh => ?_, fun hh => ?_⟩
  · rw [if_neg (Nat.not_le.2 hh)] at e
    exact hostTurns_of_serve e
  · rw [if_pos hh] at e
    exact .of_eq e (State.answerErr_onlyReplied ..)

theorem hostOnlyRows_turn (s : State) (h : Hdr) (n m : Nat) (ns : List Nat) : ∀ r ∈ hostOnlyRows h n m ns,
    (h.src < 256 → HostTurns r.1 h r.2.1 r.2.2 s) ∧ (256 ≤ h.src → Completes r.1 s (OnlyReplied h r.2.1 stOPCODE [] s)) := by
  simp only [hostOnlyRows, List.forall_mem_cons]
  exact ⟨hostOnly_turns rfl, hostOnly_turns rfl, hostOnly_turns rfl, hostOnly_turns rfl, hostOnly_turns rfl,
    fun _ h => absurd h List.not_mem_nil⟩

/-! ## The first of a list with a property -/

theorem firstIdx_none {α : Type} {p : α → Bool} {l : List α} : firstIdx p l = none ↔ ∀ a ∈ l, p a = false := by
  unfold firstIdx
  rw [Option.map_eq_none_iff, List.find?_eq_none]
  constructor
  · intro h a ha
    rw [← List.zipIdx_map_fst 0 l] at ha
    obtain ⟨q, hq, rfl⟩ := List.mem_map.1 ha
    simpa using h q hq
  · intro h q hq
    have : q.1 ∈ l := List.fst_mem_of_mem_zipIdx hq
    simp [h q.1 this]

theorem firstIdx_some {α : Type} {p : α → Bool} {l : List α} (h : ∃ a ∈ l, p a = true) : ∃ n, firstIdx p l = some n := by
  rw [← Option.ne_none_iff_exists']
  intro hn
  obtain ⟨a, ha, hp⟩ := h
  exact absurd (firstIdx_none.1 hn a ha) (by simp [hp])

/-! ## Reads in turn -/

/-- Reads that all answer are done, and those after them follow. -/
theorem State.readAll_append {s u : State} {pre : List Nat} {vs : List Nat} (h : ReadsAll s pre u vs) (rest : List Nat) (n : Nat)
    (acc : List Byte) : s.readAll (pre ++ rest) n acc = u.readAll rest (n + pre.length) (acc ++ wordsBytes vs) := by
  induction pre generalizing s n acc vs with
  | nil =>
    obtain ⟨rfl, rfl⟩ := h
    simp [wordsBytes]
  | cons a pre ih =>
    obtain ⟨v, vs', rfl, hv, h'⟩ := h
    rw [List.cons_append, State.readAll]
    simp only [hv]
    rw [ih h']
    simp [wordsBytes, Nat.add_comm, Nat.add_left_comm]

theorem State.readAll_of_readsAll {s u : State} {l : List Nat} {vs : List Nat} (h : ReadsAll s l u vs) :
    s.readAll l 0 [] = (u, none, wordsBytes vs) := by
  have := State.readAll_append h [] 0 []
  simpa [State.readAll] using this

theorem State.readAll_error {u : State} {a : Nat} (h : (u.busRead .fabric a).2 = .error) (rest : List Nat) (n : Nat)
    (acc : List Byte) : u.readAll (a :: rest) n acc = ((u.busRead .fabric a).1, some n, acc) := by
  rw [State.readAll]
  simp only [h]

end Sys2Proof.Machine
end

section
namespace Sys2Proof.Machine

/-! ## REG_RD (R497-R500, R120) -/

/-- A number of items that REG_RD and REG_WR take, none of which the argument check refuses (R500). -/
def ArgsGood {α : Type} (bad : α → Bool) (l : List α) : Prop := 1 ≤ l.length ∧ l.length ≤ 64 ∧ l.any bad = false

theorem ArgsGood.count {α : Type} {bad : α → Bool} {l : List α} (h : ArgsGood bad l) : ¬ (l.length = 0 ∨ 64 < l.length) := by
  obtain ⟨h1, h2, _⟩ := h
  omega

theorem ArgsGood.firstIdx_bad {α : Type} {bad : α → Bool} {l : List α} (h : ArgsGood bad l) : firstIdx bad l = none := by
  obtain ⟨_, _, hb⟩ := h
  exact firstIdx_none.2 (by simpa using hb)

/-- A list of addresses that BRINGUP and MINIMAL do not refuse (R120). -/
theorem systemOnly_near {s : State} {l : List Nat} (hm : systemOnly s = false ∨ ∀ a ∈ l, localOf a < 0x100000) :
    ¬ (systemOnly s && l.any (fun a => decide (0x100000 ≤ localOf a))) = true := by
  rw [Bool.and_eq_true_iff, List.any_eq_true]
  rintro ⟨h1, a, ha, hf⟩
  rcases hm with hm | hm
  · exact absurd h1 (by simp [hm])
  · exact absurd (of_decide_eq_true hf) (Nat.not_le.2 (hm a ha))

theorem exec_regRd {s t : State} {h : Hdr} {l : List Nat} (e : s.regRdCmd h l = t) : exec (.regRd h l) s = .next t :=
  congrArg Host.Outcome.next e

section RegRd
variable {s : State} {h : Hdr} {l : List Nat} (hs : HostServes s legalAny)
include hs

theorem regRd_argBad (hl : l.length = 0 ∨ 64 < l.length ∨ l.any s.argBad = true) :
    Completes (.regRd h l) s (OnlyReplied h 0x21 stARG [] s) := by
  by_cases hc : l.length = 0 ∨ 64 < l.length
  · refine .of_eq (exec_regRd ?_) (State.answerErr_onlyReplied s h 0x21 stARG 0)
    unfold State.regRdCmd
    rw [State.serve_done hs]
    exact if_pos hc
  · obtain ⟨n, hn⟩ := firstIdx_some (List.any_eq_true.1 ((or_assoc.2 hl).resolve_left hc))
    refine .of_eq (exec_regRd ?_) (State.answerErr_onlyReplied s h 0x21 stARG n)
    unfold State.regRdCmd
    rw [State.serve_done hs]
    dsimp only
    rw [if_neg hc, hn]

variable (hl : ArgsGood s.argBad l)
include hl

theorem regRd_far (hm : systemOnly s = true) (hf : ∃ a ∈ l, 0x100000 ≤ localOf a) :
    Completes (.regRd h l) s (OnlyReplied h 0x21 stWRONG [] s) := by
  refine .of_eq (exec_regRd ?_) (State.answerWrong_onlyReplied s h 0x21)
  have hc : (systemOnly s && l.any (fun a => decide (0x100000 ≤ localOf a))) = true :=
    Bool.and_eq_true_iff.2 ⟨hm, by simpa using hf⟩
  unfold State.regRdCmd
  rw [State.serve_done hs]
  dsimp only
  rw [if_neg hl.count, hl.firstIdx_bad]
  exact if_pos hc

variable (hm : systemOnly s = false ∨ ∀ a ∈ l, localOf a < 0x100000)
include hm

theorem regRd_guarded (hg : ∃ a ∈ l, s.guarded (localOf a) = true) :
    Completes (.regRd h l) s (OnlyReplied h 0x21 stPROTECTED [] s) := by
  obtain ⟨n, hn⟩ := firstIdx_some hg
  refine .of_eq (exec_regRd ?_) (State.answerErr_onlyReplied s h 0x21 stPROTECTED n)
  unfold State.regRdCmd
  rw [State.serve_done hs]
  dsimp only
  rw [if_neg hl.count, hl.firstIdx_bad]
  dsimp only
  rw [← systemOnly, if_neg (systemOnly_near hm), hn]

variable (hg : ∀ a ∈ l, s.guarded (localOf a) = false)
include hg

theorem regRd_reads {u : State} {vs : List Nat} (hu : ReadsAll s (l.map localOf) u vs) :
    Completes (.regRd h l) s (OnlyReplied h 0x21 stOK (wordsBytes vs) u) := by
  have hr := State.readAll_of_readsAll hu
  refine .of_eq (exec_regRd ?_) (State.answerOk_onlyReplied u h 0x21 (wordsBytes vs))
  unfold State.regRdCmd
  rw [State.serve_done hs]
  dsimp only
  rw [if_neg hl.count, hl.firstIdx_bad]
  dsimp only
  rw [← systemOnly, if_neg (systemOnly_near hm), firstIdx_none.2 hg, hr]

/-- The first read that fails ends the list, after what stood before it has acted. -/
theorem regRd_stops {u : State} {vs pre post : List Nat} {a : Nat} (hp : l = pre ++ a :: post)
    (hu : ReadsAll s (pre.map localOf) u vs) (he : (u.busRead .fabric (localOf a)).2 = .error) :
    Completes (.regRd h l) s (OnlyReplied h 0x21 stACCESS [] (u.busRead .fabric (localOf a)).1) := by
  have hr := (State.readAll_append hu (localOf a :: post.map localOf) 0 []).trans (State.readAll_error he _ _ _)
  rw [← List.map_cons, ← List.map_append, ← hp] at hr
  refine .of_eq (exec_regRd ?_) (State.answerErr_onlyReplied _ h 0x21 stACCESS (0 + (pre.map localOf).length))
  unfold State.regRdCmd
  rw [State.serve_done hs]
  dsimp only
  rw [if_neg hl.count, hl.firstIdx_bad]
  dsimp only
  rw [← systemOnly, if_neg (systemOnly_near hm), firstIdx_none.2 hg, hr]

end RegRd

/-! ## Writes in turn -/

theorem State.writeItem_error {s : State} {a v : Nat} (h : (s.busWrite .fabric a v).2 = .error) :
    s.writeItem a v = ((s.busWrite .fabric a v).1, some (if coldEnable s (a, v) then stTHERMAL else stACCESS)) := by
  unfold State.writeItem
  dsimp only
  rw [h]
  rfl

theorem State.writeItem_done {s : State} {a v : Nat} (h : (s.busWrite .fabric a v).2 ≠ .error) :
    s.writeItem a v = ((s.busWrite .fabric a v).1, none) := by
  unfold State.writeItem
  dsimp only
  cases hr : (s.busWrite .fabric a v).2 with
  | error => exact absurd hr h
  | done => rfl
  | value _ => rfl

/-- Writes that all complete are done, and those after them follow. -/
theorem State.writeAll_append {s u : State} {pre : List (Nat × Nat)} (h : WritesAll s pre u) (rest : List (Nat × Nat)) (n : Nat) :
    s.writeAll (pre ++ rest) n = u.writeAll rest (n + pre.length) := by
  induction pre generalizing s n with
  | nil =>
    obtain rfl := h
    rfl
  | cons p pre ih =>
    obtain ⟨h1, h2, h3⟩ := h
    rw [List.cons_append, State.writeAll, State.writeItem_done h1]
    dsimp only
    rw [if_pos h2, ih h3, List.length_cons, Nat.add_assoc, Nat.add_comm 1]

/-- Writes that complete leave the port up. -/
theorem WritesAll.portPhase {s u : State} {l : List (Nat × Nat)} (h : WritesAll s l u) (hs : s.portPhase = 0) : u.portPhase = 0 := by
  induction l generalizing s with
  | nil =>
    obtain rfl := h
    exact hs
  | cons p l ih =>
    obtain ⟨_, h2, h3⟩ := h
    exact ih h3 h2

theorem State.portPhase_cases (s : State) : s.portPhase = 0 ∨ s.portPhase = 1 ∨ s.portPhase = 2 := by
  unfold State.portPhase
  split
  · exact .inr (.inr rfl)
  · split
    · split
      · exact .inr (.inl rfl)
      · exact .inr (.inr rfl)
    · exact .inl rfl

theorem HostServes.portPhase {s : State} {legal : State → Bool} (hs : HostServes s legal) : s.portPhase = 0 := by
  obtain ⟨h1, h2, _⟩ := hs
  exact s.portPhase_cases.resolve_right (not_or.2 ⟨h1, h2⟩)

theorem State.writeAnswer_done {s u : State} {l : List (Nat × Nat)} (h : Hdr) (op : Nat) (hs : s.portPhase = 0) (hw : WritesAll s l u) :
    s.writeAnswer h op l = u.answerOk h op [] := by
  have hr : s.writeAll l 0 = (u, none) := by simpa [State.writeAll] using State.writeAll_append hw [] 0
  unfold State.writeAnswer
  dsimp only
  rw [hr]
  exact if_pos (hw.portPhase hs)

/-- The first write that fails ends the list: its status, after what stood before it has acted. -/
theorem State.writeAnswer_error {s u : State} {pre post : List (Nat × Nat)} {p : Nat × Nat} (h : Hdr) (op : Nat)
    (hw : WritesAll s pre u) (he : (u.busWrite .fabric p.1 p.2).2 = .error) :
    s.writeAnswer h op (pre ++ p :: post)
      = (u.busWrite .fabric p.1 p.2).1.answerErr h op (if coldEnable u p then stTHERMAL else stACCESS) pre.length := by
  have hr : s.writeAll (pre ++ p :: post) 0
      = ((u.busWrite .fabric p.1 p.2).1, some (if coldEnable u p then stTHERMAL else stACCESS, pre.length)) := by
    rw [State.writeAll_append hw, State.writeAll, State.writeItem_error he, Nat.zero_add]
  unfold State.writeAnswer
  dsimp only
  rw [hr]

/-! ## REG_WR (R497-R500, R120, R121, R601) -/

theorem regItems_free {s : State} {items : List RegItem} (hb : ∀ p ∈ regItems items, s.itemBar p.1 p.2 = .free) :
    ¬ ((regItems items).map (fun p => s.itemBar p.1 p.2)).any (fun b => b != .free) = true := by
  simpa using hb

theorem exec_regWr {s t : State} {h : Hdr} {items : List RegItem} (e : s.regWrCmd h items = t) :
    exec (.regWr h items) s = .next t := congrArg Host.Outcome.next e

section RegWr
variable {s : State} {h : Hdr} {items : List RegItem} (hs : HostServes s legalWrite)
include hs

theorem regWr_retired (hr : s.lc = lcRETIRED) : Completes (.regWr h items) s (OnlyReplied h 0x22 stPROTECTED [] s) := by
  refine .of_eq (exec_regWr ?_) (State.answerErr_onlyReplied s h 0x22 stPROTECTED 0)
  unfold State.regWrCmd
  rw [State.serve_done hs]
  exact if_pos hr

variable (hr : s.lc ≠ lcRETIRED)
include hr

theorem regWr_argBad (hl : items.length = 0 ∨ 64 < items.length ∨ items.any (fun p => s.argBad p.addr) = true) :
    Completes (.regWr h items) s (OnlyReplied h 0x22 stARG [] s) := by
  by_cases hc : items.length = 0 ∨ 64 < items.length
  · refine .of_eq (exec_regWr ?_) (State.answerErr_onlyReplied s h 0x22 stARG 0)
    unfold State.regWrCmd
    rw [State.serve_done hs]
    dsimp only
    rw [if_neg hr, if_pos hc]
  · obtain ⟨n, hn⟩ := firstIdx_some (List.any_eq_true.1 ((or_assoc.2 hl).resolve_left hc))
    refine .of_eq (exec_regWr ?_) (State.answerErr_onlyReplied s h 0x22 stARG n)
    unfold State.regWrCmd
    rw [State.serve_done hs]
    dsimp only
    rw [if_neg hr, if_neg hc, hn]

variable (hl : ArgsGood (fun (p : RegItem) => s.argBad p.addr) items)
include hl

theorem regWr_barred (hb : ∃ p ∈ regItems items, s.itemBar p.1 p.2 ≠ .free) :
    Completes (.regWr h items) s (OnlyReplied h 0x22 stWRONG [] s) := by
  refine .of_eq (exec_regWr ?_)
    (State.answerSites_onlyReplied s h 0x22 (lowestSite ((regItems items).map (fun p => s.itemBar p.1 p.2))))
  unfold State.regWrCmd
  rw [State.serve_done hs]
  dsimp only
  rw [if_neg hr, if_neg hl.count, hl.firstIdx_bad]
  exact if_pos (by simpa using hb : ((regItems items).map (fun p => s.itemBar p.1 p.2)).any (fun b => b != .free) = true)

variable (hb : ∀ p ∈ regItems items, s.itemBar p.1 p.2 = .free)
include hb

theorem regWr_guarded (hg : ∃ p ∈ regItems items, s.guarded p.1 = true ∨ s.debugBarred p.1 p.2 = true) :
    Completes (.regWr h items) s (OnlyReplied h 0x22 stPROTECTED [] s) := by
  obtain ⟨n, hn⟩ := firstIdx_some (p := fun (p : Nat × Nat) => s.guarded p.1 || s.debugBarred p.1 p.2) (by simpa using hg)
  refine .of_eq (exec_regWr ?_) (State.answerErr_onlyReplied s h 0x22 stPROTECTED n)
  unfold State.regWrCmd
  rw [State.serve_done hs]
  dsimp only
  rw [if_neg hr, if_neg hl.count, hl.firstIdx_bad]
  dsimp only
  rw [← regItems, if_neg (regItems_free hb), hn]

variable (hg : ∀ p ∈ regItems items, s.guarded p.1 = false ∧ s.debugBarred p.1 p.2 = false)
include hg

/-- Items that no check refuses are written in turn. -/
theorem regWr_acts : s.regWrCmd h items = s.writeAnswer h 0x22 (regItems items) := by
  unfold State.regWrCmd
  rw [State.serve_done hs]
  dsimp only
  rw [if_neg hr, if_neg hl.count, hl.firstIdx_bad]
  dsimp only
  rw [← regItems, if_neg (regItems_free hb), firstIdx_none.2 (fun p hp => by simp [hg p hp])]

theorem regWr_writes {u : State} (hu : WritesAll s (regItems items) u) :
    Completes (.regWr h items) s (OnlyReplied h 0x22 stOK [] u) :=
  .of_eq (exec_regWr ((regWr_acts hs hr hl hb hg).trans (State.writeAnswer_done h 0x22 hs.portPhase hu)))
    (State.answerOk_onlyReplied ..)

theorem regWr_stops {u : State} {pre post : List (Nat × Nat)} {p : Nat × Nat} (hp : regItems items = pre ++ p :: post)
    (hu : WritesAll s pre u) (he : (u.busWrite .fabric p.1 p.2).2 = .error) :
    Completes (.regWr h items) s
      (OnlyReplied h 0x22 (if coldEnable u p then stTHERMAL else stACCESS) [] (u.busWrite .fabric p.1 p.2).1) := by
  have e := regWr_acts (h := h) hs hr hl hb hg
  rw [hp] at e
  exact .of_eq (exec_regWr (e.trans (State.writeAnswer_error h 0x22 hu he))) (State.answerErr_onlyReplied ..)

end RegWr

end Sys2Proof.Machine
end

section
/-! # Ranges of the Cellar read and written piece by piece -/

namespace Sys2Proof.Machine

/-! ## Byte ranges -/

theorem memBytes_length (d : Byte) (m : Memory) (a n : Nat) : (memBytes d m a n).length = n := by
  induction n generalizing a with
  | zero => rfl
  | succ n ih => rw [memBytes, List.length_cons, ih]

theorem memBytes_append (d : Byte) (m : Memory) (a x y : Nat) :
    memBytes d m a (x + y) = memBytes d m a x ++ memBytes d m (a + x) y := by
  induction x generalizing a with
  | zero => simp [memBytes]
  | succ x ih =>
    rw [Nat.add_right_comm, memBytes, ih, memBytes, List.cons_append, Nat.add_assoc a 1 x, Nat.add_comm 1 x]

theorem memSetBytes_append (d : Byte) (m : Memory) (a : Nat) (l r : List Byte) :
    memSetBytes d m a (l ++ r) = memSetBytes d (memSetBytes d m a l) (a + l.length) r := by
  induction l generalizing m a with
  | nil => rfl
  | cons b l ih => rw [List.cons_append, memSetBytes, ih, memSetBytes, List.length_cons, Nat.add_assoc, Nat.add_comm 1]

theorem getElem_memBytes (d : Byte) (m : Memory) (a n j : Nat) (h : j < (memBytes d m a n).length) :
    (memBytes d m a n)[j] = memByte d m (a + j) := by
  induction n generalizing a j with
  | zero => simp [memBytes] at h
  | succ n ih =>
    cases j with
    | zero => rfl
    | succ j =>
      simp only [memBytes, List.getElem_cons_succ]
      rw [ih, Nat.add_assoc, Nat.add_comm 1]

/-- A range reads as it was written. -/
theorem memBytes_setBytes_self (d : Byte) (m : Memory) (a : Nat) (l : List Byte) :
    memBytes d (memSetBytes d m a l) a l.length = l := by
  refine List.ext_getElem (memBytes_length ..) fun j h1 h2 => ?_
  rw [getElem_memBytes, memByte_setBytes_in d l m a j h2]

/-! ## The pieces of a range -/

/-- The ranges listed follow one another from a on, and hold n bytes. -/
def Tiles : Nat → List (Nat × Nat) → Nat → Prop
  | _, [], n => n = 0
  | a, p :: ps, n => p.1 = a ∧ p.2 ≤ n ∧ Tiles (a + p.2) ps (n - p.2)

/-- The piece of a range that lies in a 64-byte block. -/
def celPiece (o n b : Nat) : Nat × Nat := (max o (b * 64), min (o + n) (b * 64 + 64) - max o (b * 64))

/-- The pieces in k blocks from b on hold what is left of the range from b on. -/
theorem tiles_celPiece (o n k b : Nat) (hb : o / 64 ≤ b) (h1 : o + n ≤ (b + k) * 64) (h2 : (b + k) * 64 < o + n + 64) :
    Tiles (max o (b * 64)) ((List.range' b k).map (celPiece o n)) (o + n - max o (b * 64)) := by
  induction k generalizing b with
  | zero =>
    show o + n - max o (b * 64) = 0
    omega
  | succ k ih =>
    have ih := ih (b + 1) (by omega) (by omega) (by omega)
    rw [List.range'_succ, List.map_cons]
    refine ⟨rfl, by simp only [celPiece]; omega, ?_⟩
    cases k with
    | zero =>
      show _ = 0
      simp only [celPiece]
      omega
    | succ k =>
      have e1 : max o (b * 64) + (celPiece o n b).2 = max o ((b + 1) * 64) := by simp only [celPiece]; omega
      have e2 : o + n - max o (b * 64) - (celPiece o n b).2 = o + n - max o ((b + 1) * 64) := by simp only [celPiece]; omega
      rw [e1, e2]
      exact ih

theorem celPieces_tiles (o n : Nat) (hn : 0 < n) : Tiles o (celPieces o n) n := by
  have h := tiles_celPiece o n ((o + n + 63) / 64 - o / 64) (o / 64) (Nat.le_refl _) (by omega) (by omega)
  rw [show max o (o / 64 * 64) = o by omega, Nat.add_sub_cancel_left] at h
  have e : celPieces o n = (List.range' (o / 64) ((o + n + 63) / 64 - o / 64)).map (celPiece o n) := by
    unfold celPieces celBlocks celPiece
    rw [List.range'_eq_map_range]
  rw [e]
  exact h

theorem celPieces_ne_nil (o n : Nat) (hn : 0 < n) : celPieces o n ≠ [] := by
  intro e
  have h := celPieces_tiles o n hn
  rw [e] at h
  exact absurd h (Nat.pos_iff_ne_zero.1 hn)

/-! ## A Cellar without errors -/

/-- The fields that tell whether and how far the Cellar answers. -/
def celWindowFields : List Field :=
  [F.CEL_CFG_READY, H.PD_CELLAR, F.CEL_CFG_SELF_REF, F.CEL_TOP_LO_TOP_LO, F.CEL_TOP_HI_TOP_HI]

/-- An operation that leaves those fields alone leaves the window alone. -/
theorem Keeps.celBacked {w : Nat} {s t : State} (k : Keeps w s t) (hw : ∀ f ∈ celWindowFields, Off (fm f) w) (o n : Nat) :
    t.celBacked o n = s.celBacked o n := by
  have g : ∀ f ∈ celWindowFields, t.get f 0 = s.get f 0 := fun f hf => k.get f 0 (hw f hf)
  rw [celWindowFields, List.forall_mem_cons, List.forall_mem_cons, List.forall_mem_cons, List.forall_mem_cons,
    List.forall_mem_cons] at g
  obtain ⟨h1, h2, h3, h4, h5, _⟩ := g
  have hr : t.celReady = s.celReady := by
    unfold State.celReady State.on
    rw [h1, h2, h3]
  have ht : t.celTop = s.celTop := by
    unfold State.celTop
    rw [h4, h5]
  unfold State.celBacked
  rw [hr, ht]

theorem State.celBlocksOk_clean {s : State} (he : s.celErr = []) (cls : Nat) (l : List Nat) : s.celBlocksOk cls l = (s, true) := by
  induction l with
  | nil => rfl
  | cons b l ih =>
    have hb : s.celBlock cls b = (s, true) := by
      unfold State.celBlock
      rw [he]
      rfl
    rw [State.celBlocksOk, hb]
    dsimp only
    rw [ih]
    rfl

theorem State.celCount_celErr (s : State) (cls n : Nat) : (s.celCount cls n).celErr = s.celErr :=
  (State.celCount_keeps s cls n).celErr (by decide +kernel)

theorem State.celCount_cellar (s : State) (cls n : Nat) : (s.celCount cls n).cellar = s.cellar :=
  (State.celCount_keeps s cls n).cellar (by decide +kernel)

theorem State.celWrite_cellar (s : State) (o : Nat) (l : List Byte) :
    (s.celWrite o l).cellar = memSetBytes ramByte s.cellar o l := rfl

theorem State.celWrite_celErr (s : State) (o : Nat) (l : List Byte) : (s.celWrite o l).celErr = s.celErr := rfl

/-- A backed read of a Cellar without errors answers what stands there; only its bytes are counted. -/
theorem State.celRead_clean {s : State} {cls o n : Nat} (he : s.celErr = []) (hb : s.celBacked o n = true) :
    s.celRead cls o n = (s.celCount cls n, some (s.celRaw o n)) := by
  unfold State.celRead
  rw [if_pos hb, State.celBlocksOk_clean ((State.celCount_celErr s cls n).trans he)]
  rfl

theorem State.celRead_unbacked {s : State} {cls o n : Nat} (hb : s.celBacked o n = false) : s.celRead cls o n = (s, none) := by
  unfold State.celRead
  rw [hb]
  rfl

/-- A backed write of a Cellar without errors: counted, and the bytes stand as given. -/
theorem State.celStore_clean {s : State} {cls o : Nat} {l : List Byte} (he : s.celErr = []) (hb : s.celBacked o l.length = true) :
    s.celStore cls o l = ((s.celCount cls l.length).celWrite o l, true) := by
  have hc := (State.celCount_celErr s cls l.length).trans he
  have hstuck : s.celStuck o l.length = [] := by simp [State.celStuck, he, lookKey]
  have hwalk : (celBlocks o l.length).filter (fun b => !coversBlock o l.length b && decide (lookKey b s.celErr = some 1)) = [] := by
    rw [List.filter_eq_nil_iff]
    simp [he, lookKey]
  have hsame : { s.celCount cls l.length with celErr := [] } = s.celCount cls l.length := by rw [← hc]
  unfold State.celStore
  rw [if_pos hb, hstuck]
  dsimp only
  rw [hwalk]
  simp only [State.each, List.foldl_nil, hc, List.filter_nil]
  rw [hsame]

theorem State.celStore_unbacked {s : State} {cls o : Nat} {l : List Byte} (hb : s.celBacked o l.length = false) :
    s.celStore cls o l = (s, false) := by
  unfold State.celStore
  rw [hb]
  rfl

theorem State.celBacked_of_not_ready {s : State} (h : s.celReady = false) (o n : Nat) : s.celBacked o n = false := by
  unfold State.celBacked
  rw [h]
  rfl

theorem State.celBacked_sub {s : State} {a n o k : Nat} (h : s.celBacked a n = true) (hk : o + k ≤ a + n) : s.celBacked o k = true := by
  simp only [State.celBacked, Bool.and_eq_true, decide_eq_true_eq] at h ⊢
  exact ⟨h.1, by omega⟩

theorem celSound.backed {s : State} (h : celSound s) {o n : Nat} (hn : o + n ≤ s.celTop) : s.celBacked o n = true := by
  obtain ⟨hr, _, _⟩ := h
  simp [State.celBacked, hr, hn]

theorem celSound.celErr {s : State} (h : celSound s) : s.celErr = [] := h.2.1

/-! ## Pieces in turn -/

/-- Pieces that fill a backed range of a Cellar without errors read as the range. -/
theorem State.celReadAll_clean {s : State} {a n : Nat} {ps : List (Nat × Nat)} (ht : Tiles a ps n) (he : s.celErr = [])
    (hb : s.celBacked a n = true) (k : Nat) (acc : List Byte) :
    (s.celReadAll ps k acc).2 = (none, acc ++ s.celRaw a n) := by
  induction ps generalizing s a n k acc with
  | nil =>
    obtain rfl : n = 0 := ht
    simp [State.celReadAll, State.celRaw, memBytes]
  | cons p ps ih =>
    obtain ⟨rfl, hle, ht⟩ := ht
    have kc := State.celCount_keeps s clsHost p.2
    have hb' := (kc.celBacked (by decide +kernel) (p.1 + p.2) (n - p.2)).trans (State.celBacked_sub hb (by omega))
    rw [State.celReadAll, State.celRead_clean he (State.celBacked_sub hb (by omega))]
    dsimp only
    rw [ih ht ((State.celCount_celErr ..).trans he) hb']
    simp only [State.celRaw, State.celCount_cellar, List.append_assoc, ← memBytes_append, Nat.add_sub_cancel' hle]

/-- Pieces that fill a backed range of a Cellar without errors are written as the range. -/
theorem State.celWriteAll_clean {s : State} {a : Nat} {l : List Byte} {ps : List (Nat × Nat)} (ht : Tiles a ps l.length)
    (he : s.celErr = []) (hb : s.celBacked a l.length = true) (k : Nat) :
    (s.celWriteAll ps k l).2 = none ∧ (s.celWriteAll ps k l).1.cellar = memSetBytes ramByte s.cellar a l := by
  induction ps generalizing s a l k with
  | nil =>
    obtain rfl : l = [] := List.eq_nil_of_length_eq_zero ht
    exact ⟨rfl, rfl⟩
  | cons p ps ih =>
    obtain ⟨rfl, hle, ht⟩ := ht
    have hlen : (l.take p.2).length = p.2 := List.length_take_of_le hle
    rw [State.celWriteAll, State.celStore_clean he (State.celBacked_sub hb (by omega))]
    dsimp only
    rw [if_pos rfl]
    have hue : ((s.celCount clsHost (l.take p.2).length).celWrite p.1 (l.take p.2)).celErr = [] := by
      rw [State.celWrite_celErr, State.celCount_celErr, he]
    have huc : ((s.celCount clsHost (l.take p.2).length).celWrite p.1 (l.take p.2)).cellar
        = memSetBytes ramByte s.cellar p.1 (l.take p.2) := by
      rw [State.celWrite_cellar, State.celCount_cellar]
    have ku : Keeps (State.celCount_w ||| m_cellar) s ((s.celCount clsHost (l.take p.2).length).celWrite p.1 (l.take p.2)) :=
      Keeps.celWriteA (Sub.or_right _ _) ((State.celCount_keeps ..).mono (Sub.or_left _ _))
    generalize (s.celCount clsHost (l.take p.2).length).celWrite p.1 (l.take p.2) = u at hue huc ku ⊢
    have hub := ku.celBacked (by decide +kernel)
    have ht' : Tiles (p.1 + p.2) ps (l.drop p.2).length := by rwa [List.length_drop]
    have hb' : s.celBacked (p.1 + p.2) (l.drop p.2).length = true :=
      State.celBacked_sub hb (by rw [List.length_drop]; omega)
    obtain ⟨h1, h2⟩ := ih ht' hue ((hub _ _).trans hb') (k + 1)
    refine ⟨h1, ?_⟩
    have hsum : p.1 + p.2 = p.1 + (l.take p.2).length := by rw [hlen]
    rw [h2, huc, hsum, ← memSetBytes_append, List.take_append_drop]

/-- Bytes that stand in the Cellar as written, and nothing else changed there. -/
theorem celledOnly_of_setBytes {s t : State} {o : Nat} {l : List Byte} (h : t.cellar = memSetBytes ramByte s.cellar o l) :
    t.celRaw o l.length = l ∧ CelledOnly [(o, l.length)] s t := by
  refine ⟨?_, fun a ha => ?_⟩
  · unfold State.celRaw
    rw [h, memBytes_setBytes_self]
  · rw [h, memByte_setBytes_out _ _ _ _ _ (ha _ List.mem_cons_self)]

theorem State.celReadAll_unready {s : State} (h : s.celReady = false) {ps : List (Nat × Nat)} (hp : ps ≠ []) (k : Nat)
    (acc : List Byte) : s.celReadAll ps k acc = (s, some k, acc) := by
  obtain ⟨p, ps, rfl⟩ := List.exists_cons_of_ne_nil hp
  rw [State.celReadAll, State.celRead_unbacked (State.celBacked_of_not_ready h _ _)]

theorem State.celWriteAll_unready {s : State} (h : s.celReady = false) {ps : List (Nat × Nat)} (hp : ps ≠ []) (k : Nat)
    (l : List Byte) : s.celWriteAll ps k l = (s, some k) := by
  obtain ⟨p, ps, rfl⟩ := List.exists_cons_of_ne_nil hp
  rw [State.celWriteAll, State.celStore_unbacked (State.celBacked_of_not_ready h _ _)]
  rfl

end Sys2Proof.Machine
end

section
/-! # Access by the host: BLK_RD, BLK_WR and writes by address -/

namespace Sys2Proof.Machine

/-! ## BLK_RD (R498-R500) -/

theorem State.blkArg_pos {s : State} {addr n a : Nat} (h : s.blkArg addr n = some a) : 0 < n := by
  unfold State.blkArg at h
  split at h
  · cases h
  · split at h
    next hc => exact Nat.lt_of_lt_of_le (by decide) hc.1
    next => cases h

/-- A range that BRINGUP and MINIMAL do not refuse (R120). -/
theorem systemOnly_system {s : State} {r : Region} (hm : systemOnly s = false ∨ r = .system) :
    ¬ (systemOnly s && r != .system) = true := by
  rcases hm with hm | hm <;> simp [hm]

theorem exec_blkRd {s t : State} {h : Hdr} {addr n : Nat} (e : s.blkRdCmd h addr n = t) : exec (.blkRd h addr n) s = .next t :=
  congrArg Host.Outcome.next e

section BlkRd
variable {s : State} {h : Hdr} {addr n : Nat} (hs : HostServes s legalAny)
include hs

theorem blkRd_argBad (ha : s.blkArg addr n = none) : Completes (.blkRd h addr n) s (OnlyReplied h 0x23 stARG [] s) := by
  refine .of_eq (exec_blkRd ?_) (State.answerErr_onlyReplied s h 0x23 stARG 0)
  unfold State.blkRdCmd
  rw [State.serve_done hs]
  dsimp only
  rw [ha]

variable {a : Nat} (ha : s.blkArg addr n = some a)
include ha

theorem blkRd_far (hm : systemOnly s = true) (hf : s.regionOf a ≠ .system) :
    Completes (.blkRd h addr n) s (OnlyReplied h 0x23 stWRONG [] s) := by
  refine .of_eq (exec_blkRd ?_) (State.answerWrong_onlyReplied s h 0x23)
  have hc : (systemOnly s && s.regionOf a != .system) = true := by simp [hm, hf]
  unfold State.blkRdCmd
  rw [State.serve_done hs]
  dsimp only
  rw [ha]
  exact if_pos hc

variable (hm : systemOnly s = false ∨ s.regionOf a = .system)
include hm

theorem blkRd_guarded (hg : s.guarded a = true ∨ s.guarded (a + n - 4) = true) :
    Completes (.blkRd h addr n) s (OnlyReplied h 0x23 stPROTECTED [] s) := by
  refine .of_eq (exec_blkRd ?_) (State.answerErr_onlyReplied s h 0x23 stPROTECTED 0)
  unfold State.blkRdCmd
  rw [State.serve_done hs]
  dsimp only
  rw [ha]
  dsimp only
  rw [← systemOnly, if_neg (systemOnly_system hm), if_pos (by simpa using hg)]

variable (hg : s.guarded a = false) (hg' : s.guarded (a + n - 4) = false)
include hg hg'

theorem blkRd_words {u : State} {vs : List Nat} (hr : ∀ o, s.regionOf a ≠ .cellar o) (hu : ReadsAll s (wordAddrs a n) u vs) :
    Completes (.blkRd h addr n) s (OnlyReplied h 0x23 stOK (wordsBytes vs) u) := by
  have hd := State.readAll_of_readsAll hu
  refine .of_eq (exec_blkRd ?_) (State.answerOk_onlyReplied u h 0x23 (wordsBytes vs))
  unfold State.blkRdCmd
  rw [State.serve_done hs]
  dsimp only
  rw [ha]
  dsimp only
  rw [← systemOnly, if_neg (systemOnly_system hm), if_neg (by simp [hg, hg'])]
  cases e : s.regionOf a with
  | cellar o => exact absurd e (hr o)
  | _ =>
    dsimp only
    rw [hd]

/-- BLK_RD of the Cellar answers what stands there and changes none of it. -/
theorem blkRd_cellar {o : Nat} (hr : s.regionOf a = .cellar o) (hc : celSound s) (ho : o + n ≤ s.celTop) :
    Completes (.blkRd h addr n) s (fun t => Replied h 0x23 stOK (s.celRaw o n) s t ∧ t.cellar = s.cellar) := by
  have hd := State.celReadAll_clean (celPieces_tiles o n (State.blkArg_pos ha)) hc.celErr (hc.backed ho) 0 []
  have k := State.celReadAll_keeps s (celPieces o n) 0 []
  have hP : Replied h 0x23 stOK (s.celRaw o n) s ((s.celReadAll (celPieces o n) 0 []).1.answerOk h 0x23 (s.celRaw o n)) :=
    (State.answer_replied ..).before (k.replies (by decide +kernel))
  refine .of_eq (exec_blkRd ?_) ⟨hP, (State.answerOk_cellar ..).trans (k.cellar (by decide +kernel))⟩
  unfold State.blkRdCmd
  rw [State.serve_done hs]
  dsimp only
  rw [ha]
  dsimp only
  rw [← systemOnly, if_neg (systemOnly_system hm), if_neg (by simp [hg, hg']), hr]
  dsimp only
  rw [hd]
  rfl

theorem blkRd_unready {o : Nat} (hr : s.regionOf a = .cellar o) (hc : s.celReady = false) :
    Completes (.blkRd h addr n) s (OnlyReplied h 0x23 stACCESS [] s) := by
  refine .of_eq (exec_blkRd ?_) (State.answerErr_onlyReplied s h 0x23 stACCESS 0)
  unfold State.blkRdCmd
  rw [State.serve_done hs]
  dsimp only
  rw [ha]
  dsimp only
  rw [← systemOnly, if_neg (systemOnly_system hm), if_neg (by simp [hg, hg']), hr]
  dsimp only
  rw [State.celReadAll_unready hc (celPieces_ne_nil o n (State.blkArg_pos ha))]

end BlkRd

/-! ## BLK_WR (R498-R500, R120, R601) -/

theorem blkItems_free {s : State} {l : List (Nat × Nat)} (hb : ∀ p ∈ l, s.writeBar p.1 = .free) :
    ¬ (l.map (fun p => s.writeBar p.1)).any (fun b => b != .free) = true := by
  simpa using hb

theorem exec_blkWr {s t : State} {h : Hdr} {addr : Nat} {data : List Byte} (e : s.blkWrCmd h addr data = t) :
    exec (.blkWr h addr data) s = .next t := congrArg Host.Outcome.next e

section BlkWr
variable {s : State} {h : Hdr} {addr : Nat} {data : List Byte} (hs : HostServes s legalWrite)
include hs

theorem blkWr_retired (hr : s.lc = lcRETIRED) : Completes (.blkWr h addr data) s (OnlyReplied h 0x24 stPROTECTED [] s) := by
  refine .of_eq (exec_blkWr ?_) (State.answerErr_onlyReplied s h 0x24 stPROTECTED 0)
  unfold State.blkWrCmd
  rw [State.serve_done hs]
  exact if_pos hr

variable (hr : s.lc ≠ lcRETIRED)
include hr

theorem blkWr_argBad (ha : s.blkArg addr data.length = none) :
    Completes (.blkWr h addr data) s (OnlyReplied h 0x24 stARG [] s) := by
  refine .of_eq (exec_blkWr ?_) (State.answerErr_onlyReplied s h 0x24 stARG 0)
  unfold State.blkWrCmd
  rw [State.serve_done hs]
  dsimp only
  rw [if_neg hr, ha]

variable {a : Nat} (ha : s.blkArg addr data.length = some a)
include ha

section Cellar
variable {o : Nat} (ho : s.regionOf a = .cellar o)
include ho

theorem blkWr_cellar : s.blkWrCmd h addr data = s.blkWrCellar h o data := by
  unfold State.blkWrCmd
  rw [State.serve_done hs]
  dsimp only
  rw [if_neg hr, ha]
  dsimp only
  rw [ho]

theorem blkWr_cellar_refused (hc : legalLoad s = false ∨ s.celInUse o data.length = true) :
    Completes (.blkWr h addr data) s (OnlyReplied h 0x24 stWRONG [] s) := by
  refine .of_eq (exec_blkWr ((blkWr_cellar hs hr ha ho).trans ?_)) (State.answerWrong_onlyReplied s h 0x24)
  unfold State.blkWrCellar
  exact if_pos (by simpa using hc)

variable (hl : legalLoad s = true) (hu : s.celInUse o data.length = false)
include hl hu

theorem blkWr_sequencer (hq : o < 0x400000) : Completes (.blkWr h addr data) s (OnlyReplied h 0x24 stPROTECTED [] s) := by
  refine .of_eq (exec_blkWr ((blkWr_cellar hs hr ha ho).trans ?_)) (State.answerErr_onlyReplied s h 0x24 stPROTECTED 0)
  unfold State.blkWrCellar
  rw [if_neg (by simp [hl, hu]), if_pos hq]

variable (hq : 0x400000 ≤ o)
include hq

theorem blkWr_unready (hc : s.celReady = false) : Completes (.blkWr h addr data) s (OnlyReplied h 0x24 stACCESS [] s) := by
  refine .of_eq (exec_blkWr ((blkWr_cellar hs hr ha ho).trans ?_)) (State.answerErr_onlyReplied s h 0x24 stACCESS 0)
  unfold State.blkWrCellar
  rw [if_neg (by simp [hl, hu]), if_neg (Nat.not_lt.2 hq)]
  dsimp only
  rw [State.celWriteAll_unready hc (celPieces_ne_nil _ _ (State.blkArg_pos ha))]

/-- BLK_WR of the Cellar writes its bytes and no others. -/
theorem blkWr_cellar_written (hc : celSound s) (ht : o + data.length ≤ s.celTop) :
    Completes (.blkWr h addr data) s (fun t =>
      Replied h 0x24 stOK [] s t ∧ t.celRaw o data.length = data ∧ CelledOnly [(o, data.length)] s t) := by
  obtain ⟨hw, hm⟩ := State.celWriteAll_clean (celPieces_tiles o data.length (State.blkArg_pos ha)) hc.celErr (hc.backed ht) 0
  have k := State.celWriteAll_keeps s (celPieces o data.length) 0 data
  have hP : Replied h 0x24 stOK [] s ((s.celWriteAll (celPieces o data.length) 0 data).1.answerOk h 0x24 []) :=
    (State.answer_replied ..).before (k.replies (by decide +kernel))
  refine .of_eq (exec_blkWr ((blkWr_cellar hs hr ha ho).trans ?_))
    ⟨hP, celledOnly_of_setBytes ((State.answerOk_cellar ..).trans hm)⟩
  unfold State.blkWrCellar
  rw [if_neg (by simp [hl, hu]), if_neg (Nat.not_lt.2 hq)]
  dsimp only
  rw [hw]

end Cellar

variable (ho : ∀ o, s.regionOf a ≠ .cellar o)
include ho

theorem blkWr_barred (hb : ∃ p ∈ blkItems a data, s.writeBar p.1 ≠ .free) :
    Completes (.blkWr h addr data) s (OnlyReplied h 0x24 stWRONG [] s) := by
  refine .of_eq (exec_blkWr ?_)
    (State.answerSites_onlyReplied s h 0x24 (lowestSite ((blkItems a data).map (fun p => s.writeBar p.1))))
  have hc : ((blkItems a data).map (fun p => s.writeBar p.1)).any (fun b => b != .free) = true := by simpa using hb
  unfold State.blkWrCmd
  rw [State.serve_done hs]
  dsimp only
  rw [if_neg hr, ha]
  dsimp only
  split
  next o e => exact absurd e (ho o)
  next => exact if_pos hc

variable (hb : ∀ p ∈ blkItems a data, s.writeBar p.1 = .free)
include hb

theorem blkWr_guarded
    (hg : (s.guarded a || s.guarded (a + data.length - 4) || (blkItems a data).any (fun p => s.debugBarred p.1 p.2)) = true) :
    Completes (.blkWr h addr data) s (OnlyReplied h 0x24 stPROTECTED [] s) := by
  refine .of_eq (exec_blkWr ?_) (State.answerErr_onlyReplied s h 0x24 stPROTECTED 0)
  unfold State.blkWrCmd
  rw [State.serve_done hs]
  dsimp only
  rw [if_neg hr, ha]
  dsimp only
  rw [← blkItems, if_neg (blkItems_free hb), if_pos hg]
  split
  next o e => exact absurd e (ho o)
  next => rfl

theorem blkWr_writes
    (hg : (s.guarded a || s.guarded (a + data.length - 4) || (blkItems a data).any (fun p => s.debugBarred p.1 p.2)) = false)
    {u : State} (hu : WritesAll s (blkItems a data) u) : Completes (.blkWr h addr data) s (OnlyReplied h 0x24 stOK [] u) := by
  have hw := State.writeAnswer_done h 0x24 hs.portPhase hu
  refine .of_eq (exec_blkWr (Eq.trans ?_ hw)) (State.answerOk_onlyReplied u h 0x24 [])
  unfold State.blkWrCmd
  rw [State.serve_done hs]
  dsimp only
  rw [if_neg hr, ha]
  dsimp only
  rw [← blkItems, if_neg (blkItems_free hb), if_neg (by simp [hg])]
  split
  next o e => exact absurd e (ho o)
  next => rfl

end BlkWr

end Sys2Proof.Machine
end

section
namespace Sys2Proof.Machine

/-! ## Writes by address (R7, R38, R536, R622, R623) -/

theorem ofLe_leBytes (n v : Nat) : ofLe (leBytes n v) = v % 256 ^ n := by
  induction n generalizing v with
  | zero => simp [leBytes, ofLe, Nat.mod_one]
  | succ n ih =>
    rw [leBytes, ofLe, ih, BitVec.toNat_ofNat, show 256 ^ (n + 1) = 256 * 256 ^ n from Nat.pow_succ', Nat.mod_mul]

theorem leBytes_mod (n v : Nat) : leBytes n (v % 256 ^ n) = leBytes n v := by
  induction n generalizing v with
  | zero => rfl
  | succ n ih =>
    have h1 : BitVec.ofNat 8 (v % 256 ^ (n + 1)) = BitVec.ofNat 8 v := by
      apply BitVec.eq_of_toNat_eq
      rw [BitVec.toNat_ofNat, BitVec.toNat_ofNat]
      exact Nat.mod_mod_of_dvd v ⟨256 ^ n, Nat.pow_succ'⟩
    have h2 : v % 256 ^ (n + 1) / 256 = v / 256 % 256 ^ n := by rw [Nat.pow_succ', Nat.mod_mul_right_div_self]
    rw [leBytes, h1, h2, ih, leBytes]

theorem exec_regWrite {s t : State} {r : Resp} {m : Master} {a v : Nat} (h : s.busWrite m a v = (t, r)) :
    exec (.regWrite m a v) s = .next { t with lastResp := r } := by
  show Host.Outcome.next (answered (s.busWrite m a v)) = _
  rw [h]
  rfl

theorem turnedAway_of_error {s : State} {m : Master} {a v : Nat} (h : s.busWrite m a v = (s, .error)) :
    TurnedAway (.regWrite m a v) s := .of_eq (exec_regWrite h) ⟨rfl, rfl⟩

/-- A write that completes without effect: only the answer of the bus is new. -/
theorem onlyAnswer_of_done {s : State} {m : Master} {a v : Nat} (h : s.busWrite m a v = (s, .done)) :
    Completes (.regWrite m a v) s (fun t => t.lastResp = .done ∧ OnlyFieldsResp [] s t) :=
  .of_eq (exec_regWrite h) ⟨rfl, rfl, .refl _ _⟩

theorem busWrite_error {s : State} {m : Master} {a v : Nat}
    (h : a % 4 ≠ 0 ∨ s.tapBarred m = true ∨ s.regionOf a = .nowhere ∨ ∃ x, s.regionOf a = .pantry x) :
    s.busWrite m a v = (s, .error) := by
  unfold State.busWrite
  by_cases hc : a % 4 ≠ 0 ∨ s.tapBarred m = true
  · exact if_pos hc
  · rw [if_neg hc]
    obtain h | ⟨x, h⟩ : s.regionOf a = .nowhere ∨ ∃ x, s.regionOf a = .pantry x := (or_assoc.2 h).resolve_left hc
    · rw [h]
      rfl
    · rw [h]
      rfl

section Taken
variable {s : State} {m : Master} {a v : Nat} (h4 : a % 4 = 0) (ht : s.tapBarred m = false)
include h4 ht

theorem bus_open : ¬ (a % 4 ≠ 0 ∨ s.tapBarred m = true) := by simp [h4, ht]

theorem busWrite_scratch {x : Nat} (hr : s.regionOf a = .scratch x) :
    s.busWrite m a v = s.spWriteWord m x (v % 2 ^ 32) := by
  unfold State.busWrite
  rw [if_neg (bus_open h4 ht), hr]

theorem busWrite_cellar {o : Nat} (hr : s.regionOf a = .cellar o) : s.busWrite m a v = s.celWriteWord m o (v % 2 ^ 32) := by
  unfold State.busWrite
  rw [if_neg (bus_open h4 ht), hr]

theorem busWrite_block
    (hr : s.regionOf a = .system ∨ ∃ j, s.regionOf a = .tile j ∨ s.regionOf a = .engine j) :
    s.busWrite m a v = s.blockWrite m a (v % 2 ^ 32) := by
  unfold State.busWrite
  rw [if_neg (bus_open h4 ht)]
  obtain hr | ⟨j, hr | hr⟩ := hr <;> rw [hr]

end Taken

section Block
variable {s : State} {m : Master} {a v : Nat}

theorem blockWrite_busOff (hb : s.busOff = true) : s.blockWrite m a v = (s, .error) := by
  unfold State.blockWrite
  rw [hb]
  rfl

theorem blockWrite_unpowered (hb : s.busOff = false) (hp : s.addrOn a = false) : s.blockWrite m a v = (s, .done) := by
  unfold State.blockWrite
  rw [hb, hp]
  rfl

theorem blockWrite_register {r : RegName} {i : Nat} (hb : s.busOff = false) (hp : s.addrOn a = true)
    (hd : decodeAddr a = some (r, i)) : s.blockWrite m a v = s.regWrite m r i v := by
  unfold State.blockWrite
  rw [hb, hp, hd]
  rfl

end Block

theorem State.spWriteWord_off {s : State} (m : Master) {x : Nat} (v : Nat) (hb : s.bankOn x = false) :
    s.spWriteWord m x v = (s, .done) := by
  unfold State.spWriteWord
  rw [hb]
  rfl

theorem State.spWriteWord_on {s : State} (m : Master) {x : Nat} (v : Nat) (hx : inSecure x = false) (hb : s.bankOn x = true) :
    s.spWriteWord m x v = (s.spPut x v, .done) := by
  unfold State.spWriteWord State.spOpen
  rw [hb, hx]
  rfl

theorem State.spWord_spPut (s : State) (x v : Nat) : (s.spPut x v).spWord x = v % 2 ^ 32 := by
  have h := memBytes_setBytes_self ramByte s.scratch x (leBytes 4 v)
  rw [leBytes_length] at h
  show ofLe (memBytes ramByte (memSetBytes ramByte s.scratch x (leBytes 4 v)) x 4) = _
  rw [h]
  exact ofLe_leBytes 4 v

theorem State.spPut_bytesBut (s : State) (x v : Nat) : BytesBut ramByte s.scratch (s.spPut x v).scratch x 4 := fun _ ha =>
  memByte_setBytes_out _ _ _ _ _ (by rwa [leBytes_length])

/-- A word of the scratchpad outside the secure region, in a bank with power, is written (R544, R545). -/
theorem regWrite_scratch {s : State} {m : Master} {a v x : Nat} (h4 : a % 4 = 0) (ht : s.tapBarred m = false)
    (hr : s.regionOf a = .scratch x) (hx : inSecure x = false) (hb : s.bankOn x = true) :
    Completes (.regWrite m a v) s (fun t => t.lastResp = .done ∧ t.spWord x = v % 2 ^ 32
      ∧ BytesBut ramByte s.scratch t.scratch x 4 ∧ OnlyFieldsResp [] s { t with scratch := s.scratch }) := by
  have e := (busWrite_scratch (v := v) h4 ht hr).trans (State.spWriteWord_on m _ hx hb)
  refine .of_eq (exec_regWrite e) ⟨rfl, ?_, State.spPut_bytesBut s x _, rfl, .refl _ _⟩
  exact (State.spWord_spPut s x _).trans (Nat.mod_mod _ _)

/-- A word of the Cellar is written (R536, R539). -/
theorem regWrite_cellar {s : State} {m : Master} {a v o : Nat} (h4 : a % 4 = 0) (ht : s.tapBarred m = false)
    (hr : s.regionOf a = .cellar o) (hc : celSound s) (ho : o + 4 ≤ s.celTop) :
    Completes (.regWrite m a v) s (fun t => t.lastResp = .done ∧ t.celRaw o 4 = leBytes 4 v ∧ CelledOnly [(o, 4)] s t) := by
  have hv : leBytes 4 (v % 2 ^ 32) = leBytes 4 v := leBytes_mod 4 v
  have e : s.busWrite m a v = ((s.celCount (masterClass m) (leBytes 4 v).length).celWrite o (leBytes 4 v), .done) := by
    rw [busWrite_cellar h4 ht hr, State.celWriteWord, hv,
      State.celStore_clean hc.celErr (hc.backed (by rwa [leBytes_length]))]
    rfl
  refine .of_eq (exec_regWrite e) ⟨rfl, ?_⟩
  have hm := celledOnly_of_setBytes (s := s) (t := (s.celCount (masterClass m) (leBytes 4 v).length).celWrite o (leBytes 4 v))
    (o := o) (l := leBytes 4 v) (by rw [State.celWrite_cellar, State.celCount_cellar])
  rwa [leBytes_length] at hm

/-- Off a word's border, for a barred master and where nothing a write acts on lies, the write is an error (R622). -/
theorem regWrite_refused {s : State} {m : Master} {a v : Nat}
    (h : a % 4 ≠ 0 ∨ s.tapBarred m = true ∨ s.regionOf a = .nowhere ∨ ∃ x, s.regionOf a = .pantry x) :
    TurnedAway (.regWrite m a v) s :=
  turnedAway_of_error (busWrite_error h)

/-- A word of a bank without power: the write is lost (R548). -/
theorem regWrite_scratch_off {s : State} {m : Master} {a v x : Nat} (h4 : a % 4 = 0) (ht : s.tapBarred m = false)
    (hr : s.regionOf a = .scratch x) (hb : s.bankOn x = false) :
    Completes (.regWrite m a v) s (fun t => t.lastResp = .done ∧ OnlyFieldsResp [] s t) :=
  onlyAnswer_of_done ((busWrite_scratch h4 ht hr).trans (State.spWriteWord_off m _ hb))

section Register
variable {s : State} {m : Master} {a v : Nat} (h4 : a % 4 = 0) (ht : s.tapBarred m = false)
  (hr : s.regionOf a = .system ∨ ∃ j, s.regionOf a = .tile j ∨ s.regionOf a = .engine j)
include h4 ht hr

theorem regWrite_busOff (hb : s.busOff = true) : TurnedAway (.regWrite m a v) s :=
  turnedAway_of_error ((busWrite_block h4 ht hr).trans (blockWrite_busOff hb))

theorem regWrite_unpowered (hb : s.busOff = false) (hp : s.addrOn a = false) :
    Completes (.regWrite m a v) s (fun t => t.lastResp = .done ∧ OnlyFieldsResp [] s t) :=
  onlyAnswer_of_done ((busWrite_block h4 ht hr).trans (blockWrite_unpowered hb hp))

/-- A register with power: the write is the register's own (R7). -/
theorem regWrite_register {r : RegName} {i : Nat} (hd : decodeAddr a = some (r, i)) (hb : s.busOff = false)
    (hp : s.addrOn a = true) :
    Completes (.regWrite m a v) s
      (fun t => t = { (s.regWrite m r i (v % 2 ^ 32)).1 with lastResp := (s.regWrite m r i (v % 2 ^ 32)).2 }) :=
  .of_eq (exec_regWrite ((busWrite_block h4 ht hr).trans (blockWrite_register hb hp hd))) rfl

end Register

end Sys2Proof.Machine
end

section
namespace Sys2Proof.Machine

/-! ## The statement -/

/-- STATUS answers its 64 bytes (R499). -/
theorem status_served (s : State) (h : Hdr) (hs : HostServes s legalAny) : Completes (.status h) s (OnlyReplied h 0x20 stOK
    (s.regBytes .MODE_STAT 0 ++ s.regBytes .BOOT_REASON 0 ++ s.regBytes .CFG_STAT 0 ++ s.regBytes .RST_CAUSE 0
      ++ s.regBytes .FAB_NODE 0 ++ zeros 4 ++ leBytes 8 s.ts ++ s.siteNibbles) s) := by
  have e : exec (.status h) s = .next (s.answerOk h 0x20 s.statusData) := congrArg Host.Outcome.next (State.serve_done hs)
  exact .of_eq e (State.answerOk_onlyReplied ..)

/-- Settles O55: who is turned away, then STATUS, REG_RD, REG_WR, BLK_RD and BLK_WR with their checks in order, then writes by
address. -/
theorem hostAccess : Obligations.HostAccess := by
  refine ⟨fun s h n m v b ns items data a => ?_, status_served, fun s h l hs => ?_, fun s h items hs => ?_, fun s h addr n hs => ?_,
    fun s h addr data hs => ?_, fun s m a v => ?_⟩
  · exact ⟨hostRows_turn s h n m v b ns items data a, siteBind_turns, hostOnlyRows_turn s h n m ns⟩
  · refine ⟨regRd_argBad hs, fun h1 h2 h3 => ?_⟩
    have hl : ArgsGood s.argBad l := ⟨h1, h2, h3⟩
    exact ⟨regRd_far hs hl, fun hm => ⟨regRd_guarded hs hl hm, fun hg =>
      ⟨fun _ _ => regRd_reads hs hl hm hg, fun _ _ _ _ _ => regRd_stops hs hl hm hg⟩⟩⟩
  · refine ⟨regWr_retired hs, fun hr => ⟨regWr_argBad hs hr, fun h1 h2 h3 => ?_⟩⟩
    have hl : ArgsGood (fun (p : RegItem) => s.argBad p.addr) items := ⟨h1, h2, h3⟩
    exact ⟨regWr_barred hs hr hl, fun hb => ⟨regWr_guarded hs hr hl hb, fun hg =>
      ⟨fun _ => regWr_writes hs hr hl hb hg, fun _ _ _ _ => regWr_stops hs hr hl hb hg⟩⟩⟩
  · refine ⟨blkRd_argBad hs, fun a ha => ⟨blkRd_far hs ha, fun hm => ⟨blkRd_guarded hs ha hm, fun hg hg' => ?_⟩⟩⟩
    exact ⟨fun _ _ => blkRd_words hs ha hm hg hg', fun _ => blkRd_cellar hs ha hm hg hg', fun _ => blkRd_unready hs ha hm hg hg'⟩
  · refine ⟨blkWr_retired hs, blkWr_argBad hs, fun a o hr ha ho => ?_, fun a hr ha ho => ?_⟩
    · exact ⟨blkWr_cellar_refused hs hr ha ho, fun hl hu => ⟨blkWr_sequencer hs hr ha ho hl hu, blkWr_unready hs hr ha ho hl hu,
        blkWr_cellar_written hs hr ha ho hl hu⟩⟩
    · exact ⟨blkWr_barred hs hr ha ho, fun hb => ⟨blkWr_guarded hs hr ha ho hb, fun hg _ => blkWr_writes hs hr ha ho hb hg⟩⟩
  · refine ⟨regWrite_refused, fun h4 ht => ⟨fun x hr hx => ?_, fun _ => regWrite_cellar h4 ht, fun r i hd hr => ?_⟩⟩
    · exact ⟨regWrite_scratch h4 ht hr hx, regWrite_scratch_off h4 ht hr⟩
    · exact ⟨regWrite_busOff h4 ht hr, regWrite_unpowered h4 ht hr, regWrite_register h4 ht hr hd⟩

end Sys2Proof.Machine
end

section
/-! # What acts on one channel, DPS or SMU leaves the fields of every other number as they were -/

namespace Sys2Proof.Machine

theorem State.get_ite {c : Prop} [Decidable c] (a b : State) (f : Field) (i : Nat) :
    (if c then a else b).get f i = if c then a.get f i else b.get f i := apply_ite (fun s => s.get f i) c a b

/-! ## The field writes, read at another number -/

section Write
variable {i j : Nat} (h : j ≠ i)
include h

@[simp] theorem State.putI_get_index (s : State) (f g : Field) (x : Int) : (s.putI f i x).get g j = s.get g j :=
  s.get_put_index f g h _

@[simp] theorem State.setDue_get_index (s : State) (f g : Field) (x : Nat) : (s.setDue f i x).get g j = s.get g j :=
  s.get_put_index f g h _

@[simp] theorem State.noDue_get_index (s : State) (f g : Field) : (s.noDue f i).get g j = s.get g j :=
  s.get_put_index f g h _

end Write

@[simp] theorem State.pend_get (s : State) (site : Nat) (w : PendWrite) (f : Field) (i : Nat) :
    (s.pend site w).get f i = s.get f i := rfl

theorem State.withWaveBuf_get (s : State) (x : List (Nat × List BufLine)) (f : Field) (i : Nat) :
    { s with waveBuf := x }.get f i = s.get f i := rfl

/-! ## The safe state of each kind of output (R62) -/

section Unit
variable {s : State} {f : Field} {i n : Nat} (h : i ≠ n)
include h

@[simp] theorem State.drvOff_get_index : (s.drvOff n).get f i = s.get f i := by
  simp [State.drvOff, h]

@[simp] theorem State.chSafe_get_index : (s.chSafe n).get f i = s.get f i := by
  simp [State.chSafe, h]

@[simp] theorem State.dpsStageOff_get_index : (s.dpsStageOff n).get f i = s.get f i := by
  simp [State.dpsStageOff, State.dpsFreeze, h]

@[simp] theorem State.smuHold_get_index : (s.smuHold n).get f i = s.get f i := by
  unfold State.smuHold
  extract_lets s1 s2
  have h1 : s1.get f i = s.get f i := by simp [s1, State.get_ite, h]
  have h2 : s2.get f i = s1.get f i := by simp [s2, h]
  exact (State.withWaveBuf_get s2 _ f i).trans (h2.trans h1)

@[simp] theorem State.smuSafe_get_index : (s.smuSafe n).get f i = s.get f i := by
  simp [State.smuSafe, State.smuOff, State.smuSwitch, h]

/-! ## Levels and banks of a channel (R133 to R137) -/

@[simp] theorem State.levelNow_get_index (lvl : Nat) : (s.levelNow n lvl).get f i = s.get f i := by
  simp [State.levelNow, State.get_ite, h]

@[simp] theorem State.levelSet_get_index (lvl v : Nat) : (s.levelSet n lvl v).get f i = s.get f i := by
  unfold State.levelSet
  split <;> simp [State.get_ite, h]

@[simp] theorem State.bankNow_get_index (v : Nat) : (s.bankNow n v).get f i = s.get f i := by
  simp [State.bankNow, State.get_ite, h]

@[simp] theorem State.bankSet_get_index (v : Nat) : (s.bankSet n v).get f i = s.get f i := by
  unfold State.bankSet
  split <;> simp [State.get_ite, h]

@[simp] theorem State.drvEnSet_get_index (b : Bool) : (s.drvEnSet n b).get f i = s.get f i := by
  simp [State.drvEnSet, State.get_ite, h]

@[simp] theorem State.levelSettled_get_index : (s.levelSettled n).get f i = s.get f i := by
  unfold State.levelSettled
  split <;> simp [h]

/-! ## The PMU of a channel (R148 to R152) -/

@[simp] theorem State.pmuMove_get_index (was : Bool) : (s.pmuMove n was).get f i = s.get f i := by
  simp [State.pmuMove, State.get_ite, h]

@[simp] theorem State.pmuDisplace_get_index : (s.pmuDisplace n).get f i = s.get f i := by
  simp [State.pmuDisplace, State.get_ite, h]

@[simp] theorem State.pmuStart_get_index : (s.pmuStart n).get f i = s.get f i := by
  unfold State.pmuStart
  dsimp only
  split
  · rfl
  · split <;> simp [h]

@[simp] theorem State.pmuConfig_get_index (v : Nat) : (s.pmuConfig n v).get f i = s.get f i := by
  simp [State.pmuConfig, State.get_ite, h]

theorem State.writePmuCtrl_get_index (v : Nat) : (s.writePmuCtrl n v).1.get f i = s.get f i := by
  unfold State.writePmuCtrl
  split
  · rfl
  · simp [State.ok, State.get_ite, h]

theorem State.pmuConnectDone_get_index : (s.pmuConnectDone n).get f i = s.get f i := by
  unfold State.pmuConnectDone
  split
  · rfl
  · simp [State.pmuMoved, h]

theorem State.pmuRangeDone_get_index : (s.pmuRangeDone n).get f i = s.get f i := by
  unfold State.pmuRangeDone
  split
  · rfl
  · dsimp only
    split <;> simp [h]

/-- A write of CH_CTRL that pairs an even channel puts the one above it in the safe state (R154). -/
theorem State.writeChCtrl_get_index (h' : i ≠ n + 1) (v : Nat) : (s.writeChCtrl n v).1.get f i = s.get f i := by
  unfold State.writeChCtrl
  dsimp only
  split
  · rfl
  · split
    · rfl
    · simp [State.ok, State.get_ite, h, h']

end Unit

end Sys2Proof.Machine
end

section
/-! # The frame of the channel rows -/

namespace Sys2Proof.Machine

/-- A register row reads a field as before where the register's own write does. -/
theorem swWrite_get {s : State} {m : Master} {r : RegName} {k v : Nat} {f : Field} {i : Nat} (ho : RegOk r k)
    (h : ∀ x, (s.regWrite m r k x).1.get f i = s.get f i) : (s.swWrite m r k v).get f i = s.get f i := by
  by_cases hb : BusTakes s m r k
  · rw [swWrite_taken ho hb]
    exact h _
  · obtain ⟨x, e⟩ := swWrite_barred (v := v) ho hb
    rw [e]
    rfl

/-- The rows that act on one channel. -/
def channelRows (m : Master) (ch : Fin 512) (lvl : Fin 10) (v : Nat) : List Instr :=
  [.chCtrlWrite m ch v, .levelWrite m ch lvl v, .pmuCtrlWrite m ch v, .pmuMeas m ch v, .levelSettled ch, .pmuConnectDone ch,
    .pmuRangeDone ch]

section Rows
variable {s t : State} {m : Master} {ch : Fin 512} {lvl : Fin 10} {v : Nat} {c : Instr}

/-- The parts in the frame of a channel row (EveryCommandKeepsTheRest) are the time, the answer and the writes that wait. -/
theorem channelRow_frameParts (hc : c ∈ channelRows m ch lvl v) (hn : exec c s = .next t) :
    FrameParts [.now, .lastResp, .pendW] s t := by
  have hr : anyField c = false ∧ rowParts c ⊆ [.now, .lastResp, .pendW] := by
    simp only [channelRows, List.mem_cons, List.not_mem_nil, or_false] at hc
    rcases hc with rfl | rfl | rfl | rfl | rfl | rfl | rfl <;> exact ⟨rfl, by dsimp only [rowParts]; decide⟩
  obtain ⟨-, hparts, hpending⟩ := (exec_rowFrame hn).1 hr.1
  exact ⟨fun p hp => hparts p (fun hm => hp (hr.2 hm)), hpending⟩

theorem channelRow_get_index (hc : c ∈ channelRows m ch lvl v) (hn : exec c s = .next t) (f : Field) {i : Nat} (h : i ≠ ch)
    (h' : i ≠ ch + 1) : t.get f i = s.get f i := by
  simp only [channelRows, List.mem_cons, List.not_mem_nil, or_false] at hc
  rcases hc with rfl | rfl | rfl | rfl | rfl | rfl | rfl <;> cases hn
  · exact swWrite_get (regOk_CH_CTRL ch.isLt) (State.writeChCtrl_get_index h h')
  · refine swWrite_get (levelReg_ok lvl ch.isLt) (fun x => ?_)
    rw [levelReg_write]
    exact State.levelSet_get_index h _ _
  · exact swWrite_get (regOk_PMU_CTRL ch.isLt) (State.writePmuCtrl_get_index h)
  · exact swWrite_get (regOk_PMU_CTRL ch.isLt) (State.writePmuCtrl_get_index h)
  · exact State.levelSettled_get_index h
  · exact State.pmuConnectDone_get_index h
  · exact State.pmuRangeDone_get_index h

end Rows

/-- Settles O27: each operation writes fields of its own channel, and of the one above it where a pair forms (R154). -/
theorem channelRowsKeepToTheirChannel : Obligations.ChannelRowsKeepToTheirChannel :=
  fun _ _ _ _ _ _ _ hc hn =>
    ⟨fun f _ h h' => channelRow_get_index hc hn f h h', channelRow_frameParts hc hn⟩

end Sys2Proof.Machine
end

section
/-! # Output removal, stage by stage (R74) -/

namespace Sys2Proof.Machine

/-! ## The safe state of each kind of output (R62) -/

theorem State.chSafe_shows (s : State) (ch : Nat) : Shows [(F.CH_CTRL_DRV_EN, ch, 0), (F.PMU_CTRL_CONNECT, ch, 0),
    (H.CH_DRV_ON, ch, 0), (H.CH_TERM_ON, ch, 0), (H.CH_PMU_ON, ch, 0)] (s.chSafe ch) := by
  simp (disch := decide +kernel) [Shows, State.chSafe, State.drvOff, State.noDue]

theorem State.dpsStageOff_shows (s : State) (d : Nat) :
    Shows [(F.DPS_CTRL_EN, d, 0), (F.DPS_STAT_ON, d, 0), (H.DPS_DISCH, d, 1)] (s.dpsStageOff d) := by
  simp (disch := decide +kernel) [Shows, State.dpsStageOff]

theorem State.smuSafe_shows (s : State) (u : Nat) :
    Shows [(F.SMU_CTRL_EN, u, 0), (F.SMU_STAT_CLOSED, u, 0), (H.SMU_DAC0, u, 1)] (s.smuSafe u) := by
  simp (disch := decide +kernel) [Shows, State.smuSafe, State.smuOff, State.smuSwitch, State.setDue, State.noDue]

/-- What an action on one unit shows of that unit stands after it has acted on every unit of a list. -/
theorem shows_each {g : State → Nat → State} {x : Nat} {l : List Nat} {vals : List (Field × Nat × Nat)} (hx : x ∈ l)
    (hv : ∀ y ∈ vals, y.2.1 = x) (hg : ∀ s, Shows vals (g s x))
    (ho : ∀ {s f i n}, i ≠ n → (g s n).get f i = s.get f i) (s : State) : Shows vals (s.each l g) := by
  refine each_mem hx hg (fun t a ht => ?_) s
  by_cases ha : a = x
  · exact ha ▸ hg t
  · intro y hy
    rw [ho (by rw [hv y hy]; exact Ne.symm ha)]
    exact ht y hy

/-! ## The removal in progress -/

theorem State.safeStep_nil {s : State} (h : s.safe = []) : s.safeStep = s := by
  unfold State.safeStep State.safeFirst
  rw [h]
  rfl

theorem State.safeStage_safe (s : State) (sc : SafeScope) (n : Nat) : (s.safeStage sc n).safe = s.safe :=
  (State.safeStage_keeps s sc n).safe (by decide +kernel)

theorem State.safeStage_now (s : State) (sc : SafeScope) (n : Nat) : (s.safeStage sc n).now = s.now :=
  (State.safeStage_keeps s sc n).now (by decide +kernel)

section Removal
variable {s : State} {sc : SafeScope} {t0 n : Nat} (hq : s.safe = [⟨sc, t0, n, none, none⟩])
include hq

theorem State.safeFirst_singleton : s.safeFirst = some ⟨sc, t0, n, none, none⟩ := by
  unfold State.safeFirst
  rw [hq]
  rfl

/-- A stage before the last acts when it is due, and the removal goes on to the next. -/
theorem State.safeStep_stage (hn : n < 3) : s.safeStep =
    { (s.upTo (t0 + safeStageTime n)).safeStage sc n with safe := [⟨sc, t0, n + 1, none, none⟩] } := by
  unfold State.safeStep
  rw [State.safeFirst_singleton hq]
  simp [hn, safeDue, State.safeStage_safe, hq, replaceSeq]

/-- The last stage acts when it is due, and ends the removal, which is answered to nobody. -/
theorem State.safeStep_last (hn : ¬ n < 3) : s.safeStep =
    { (s.upTo (t0 + safeStageTime n)).safeStage sc n with safe := [] } := by
  unfold State.safeStep
  rw [State.safeFirst_singleton hq]
  simp [hn, safeDue, State.safeStage_safe, hq]

section Stage
variable {d : Nat} (hd : safeStageTime n = d) {l : List Nat} {vals : Nat → List (Field × Nat × Nat)}
  (hv : ∀ x ∈ l, Shows (vals x) ((s.upTo (t0 + safeStageTime n)).safeStage sc n))
include hd hv

/-- What a stage before the last shows of the units it acts on stands after the command. -/
theorem safeStateSequence_stage (hn : n < 3) : Completes .safeStateSequence s (fun t => t.now = laterOf s (t0 + d)
    ∧ t.safe = [⟨sc, t0, n + 1, none, none⟩] ∧ ∀ x ∈ l, Shows (vals x) t) :=
  hd ▸ .of_eq (congrArg Host.Outcome.next (State.safeStep_stage hq hn)) ⟨State.safeStage_now .., rfl, hv⟩

/-- As safeStateSequence_stage for the last stage. -/
theorem safeStateSequence_last (hn : ¬ n < 3) : Completes .safeStateSequence s (fun t => t.now = laterOf s (t0 + d)
    ∧ t.safe = [] ∧ ∀ x ∈ l, Shows (vals x) t) :=
  hd ▸ .of_eq (congrArg Host.Outcome.next (State.safeStep_last hq hn)) ⟨State.safeStage_now .., rfl, hv⟩

end Stage

end Removal

/-- Settles O33: each stage acts on every unit of its list (shows_each) at its time from the start (R74). -/
theorem safeSequenceRuns : Obligations.SafeSequenceRuns := by
  refine fun s sc t0 => ⟨fun h => ?_, fun h => ?_, fun h => ?_, fun h => ?_⟩
  · exact .of_eq rfl (State.safeStep_nil h)
  · exact safeStateSequence_stage h rfl (fun ch hc => shows_each hc (by simp) (State.chSafe_shows · ch)
      State.chSafe_get_index _) (by decide)
  · exact safeStateSequence_stage h rfl (fun d hd => shows_each hd (by simp) (State.dpsStageOff_shows · d)
      State.dpsStageOff_get_index _) (by decide)
  · exact safeStateSequence_last h rfl (fun u hu => shows_each hu (by simp) (State.smuSafe_shows · u)
      State.smuSafe_get_index _) (by decide)

end Sys2Proof.Machine
end

section
/-! # Register rows that the bus takes, and rows that move the time on -/

set_option Elab.async false

namespace Sys2Proof.Machine

/-! ## Register rows -/

section RegisterRow
variable {c : Instr} {s t : State} {m : Master} {r : RegName} {i v : Nat} (hc : exec c s = .next (s.swWrite m r i v))
  (ho : RegOk r i) (hb : BusTakes s m r i)
include hc ho hb

/-- A register row that the bus takes ends as the register's own write does. -/
theorem exec_registerRow {x : Resp} (hw : s.regWrite m r i (v % 2 ^ 32) = (t, x)) : exec c s = .next { t with lastResp := x } := by
  rw [hc, swWrite_taken ho hb, hw]
  rfl

theorem turnedAway_of_bad (hw : s.regWrite m r i (v % 2 ^ 32) = s.bad) : TurnedAway c s :=
  .of_eq (exec_registerRow hc ho hb hw) ⟨rfl, rfl⟩

end RegisterRow

/-! ## What fields show -/

theorem shows_cons {f : Field} {i x : Nat} {l : List (Field × Nat × Nat)} {t : State} :
    Shows ((f, i, x) :: l) t ↔ t.get f i = x % 2 ^ f.width ∧ Shows l t := List.forall_mem_cons

/-- An operation leaves what is shown of the fields that it does not write. -/
theorem Keeps.shows {w : Nat} {s t : State} {l : List (Field × Nat × Nat)} (h : Keeps w s t) (hs : Shows l s)
    (ho : ∀ x ∈ l, Off (fm x.1) w) : Shows l t := fun x hx => (h.get _ _ (ho x hx)).trans (hs x hx)

/-- An operation leaves a flag that it does not write. -/
theorem Keeps.on {w : Nat} {s t : State} (h : Keeps w s t) (f : Field) (i : Nat) (ho : Off (fm f) w) : t.on f i = s.on f i :=
  congrArg (· != 0) (h.get f i ho)

theorem b2n_bit (v i : Nat) : b2n (bit v i) = bits v i 1 := by
  unfold b2n bit bits
  rcases Nat.mod_two_eq_zero_or_one (v / 2 ^ i) with h | h <;> simp [h]

/-! ## Rows that act at a time of their own -/

theorem OnlyFieldsNow.upTo (l : List (Field × Nat)) (s : State) (a : Nat) : OnlyFieldsNow l s (s.upTo a) :=
  ⟨rfl, fun _ _ _ => rfl⟩

theorem OnlyFieldsNow.put {l : List (Field × Nat)} {s t : State} {f : Field} {i v : Nat} (h : OnlyFieldsNow l s t)
    (hm : (f, i) ∈ l) : OnlyFieldsNow l s (t.put f i v) :=
  ⟨h.1, h.2.put (List.mem_map.2 ⟨(f, i), hm, rfl⟩)⟩

end Sys2Proof.Machine
end

section
/-! # CH_CTRL written (R132, R137, R154, R156) -/

set_option Elab.async false

namespace Sys2Proof.Machine

/-! ## The steps of the write -/

/-- PAIR of an even channel. -/
def State.chPairStored (s : State) (ch v : Nat) : State := if ch % 2 == 0 then s.setB F.CH_CTRL_PAIR ch (bit v 6) else s

/-- TERM_MODE, KEEP_MODE, CMP_MODE and MASK. -/
def State.chModesStored (s : State) (ch v : Nat) : State :=
  (((s.put F.CH_CTRL_TERM_MODE ch (bits v 1 2)).put F.CH_CTRL_KEEP_MODE ch (bits v 3 2)).setB
    F.CH_CTRL_CMP_MODE ch (bit v 5)).setB F.CH_CTRL_MASK ch (bit v 8)

/-- The odd channel of a pair that the value asks for goes to the safe state (R154). -/
def State.chPairSafe (s : State) (ch v : Nat) : State := if bit v 6 && ch % 2 == 0 then s.chSafe (ch + 1) else s

/-- BANK, where the value asks for another than the one before (R137). -/
def State.chBankStored (s : State) (ch old v : Nat) : State := if bits v 7 1 = old then s else s.bankSet ch (bits v 7 1)

/-- CH_CTRL before its bank and the odd channel of a pair. -/
def State.chCtrlStored (s : State) (ch v : Nat) : State := ((s.chPairStored ch v).drvEnSet ch (bit v 0)).chModesStored ch v

/-- CH_CTRL as a write that is not turned away leaves it. -/
def State.chCtrlSet (s : State) (ch v : Nat) : State :=
  ((s.chCtrlStored ch v).chPairSafe ch v).chBankStored ch (s.get F.CH_CTRL_BANK ch) v

/-- What turns a write of CH_CTRL away: a trip held with DRV_EN 1 (R156), or a pair that may not change (R154). -/
def State.chCtrlBarred (s : State) (ch v : Nat) : Prop :=
  (bit v 0 = true ∧ s.chTripHeld ch = true) ∨ (ch % 2 = 0 ∧ bit v 6 ≠ s.on F.CH_CTRL_PAIR ch ∧ s.pairOk ch = false)

section Write
variable {s : State} {ch v : Nat}

theorem State.writeChCtrl_barred (h : s.chCtrlBarred ch v) : s.writeChCtrl ch v = s.bad := by
  unfold State.writeChCtrl
  by_cases ht : bit v 0 = true ∧ s.chTripHeld ch = true
  · exact if_pos (by simpa using ht)
  · rw [if_neg (by simpa using ht)]
    exact if_pos (by simpa [and_assoc] using h.resolve_left ht)

theorem State.writeChCtrl_set (h : ¬ s.chCtrlBarred ch v) : s.writeChCtrl ch v = (s.chCtrlSet ch v).ok := by
  obtain ⟨ht, hp⟩ := not_or.1 h
  unfold State.writeChCtrl
  rw [if_neg (by simpa using ht), if_neg (by simpa [and_assoc] using hp)]
  rfl

end Write

/-! ## What each step writes -/

theorem State.chPairStored_keeps (s : State) (ch v : Nat) : Keeps (fm F.CH_CTRL_PAIR) s (s.chPairStored ch v) :=
  .iteA (.put _ _ _ _ (by decide +kernel)) (.refl _ _)

def State.chModesStored_w : Nat := fm F.CH_CTRL_TERM_MODE ||| fm F.CH_CTRL_KEEP_MODE ||| fm F.CH_CTRL_CMP_MODE ||| fm F.CH_CTRL_MASK

theorem State.chModesStored_keeps (s : State) (ch v : Nat) : Keeps State.chModesStored_w s (s.chModesStored ch v) :=
  .setBA (by decide +kernel) (.setBA (by decide +kernel) (.putA (by decide +kernel) (.put _ _ _ _ (by decide +kernel))))

theorem State.chBankStored_keeps (s : State) (ch old v : Nat) : Keeps State.bankSet_w s (s.chBankStored ch old v) :=
  .iteA (.refl _ _) (State.bankSet_keeps ..)

theorem State.chPairSafe_get (s : State) (ch v : Nat) (f : Field) : (s.chPairSafe ch v).get f ch = s.get f ch := by
  simp [State.chPairSafe, State.get_ite]

section Steps
variable (s : State) (ch v : Nat)

/-- What CH_CTRL shows of its own channel, but the bank, stands after the steps for the pair and the bank. -/
theorem State.chCtrlSet_get {f : Field} (h : Off (fm f) State.bankSet_w) :
    (s.chCtrlSet ch v).get f ch = (s.chCtrlStored ch v).get f ch :=
  ((State.chBankStored_keeps ..).get f ch h).trans (State.chPairSafe_get ..)

theorem State.chCtrlSet_on {f : Field} (h : Off (fm f) State.bankSet_w) :
    (s.chCtrlSet ch v).on f ch = (s.chCtrlStored ch v).on f ch := congrArg (· != 0) (s.chCtrlSet_get ch v h)

theorem State.chCtrlSet_shows {l : List (Field × Nat × Nat)} (hs : Shows l (s.chCtrlStored ch v)) (hi : ∀ x ∈ l, x.2.1 = ch)
    (ho : ∀ x ∈ l, Off (fm x.1) State.bankSet_w) : Shows l (s.chCtrlSet ch v) := by
  rintro ⟨f, i, x⟩ hx
  obtain rfl : i = ch := hi _ hx
  exact (s.chCtrlSet_get i v (ho _ hx)).trans (hs _ hx)

/-! ## PAIR, DRV_EN and the modes -/

theorem State.drvEnSet_drvEn (b : Bool) : (s.drvEnSet ch b).on F.CH_CTRL_DRV_EN ch = b := by
  cases b with
  | true =>
    by_cases h : s.get F.CH_CTRL_DRV_EN ch = 0 <;> simp (disch := decide +kernel) [State.drvEnSet, State.on, State.drvOff, h]
  | false => simp (disch := decide +kernel) [State.drvEnSet, State.on, State.drvOff]

theorem State.drvEnSet_tripped : (s.drvEnSet ch true).on F.CH_STAT_TRIPPED ch = false := by
  by_cases h : s.get F.CH_CTRL_DRV_EN ch = 0 <;> simp [State.drvEnSet, State.on, h]

theorem State.drvEnSet_off : Shows [(H.CH_DRV_ON, ch, 0), (H.CH_TERM_ON, ch, 0)] (s.drvEnSet ch false) := by
  simp (disch := decide +kernel) [Shows, State.drvEnSet, State.drvOff]

theorem State.chCtrlStored_drvEn : (s.chCtrlStored ch v).on F.CH_CTRL_DRV_EN ch = bit v 0 :=
  ((State.chModesStored_keeps ..).on _ _ (by decide +kernel)).trans (State.drvEnSet_drvEn ..)

theorem State.chCtrlStored_tripped (h : bit v 0 = true) : (s.chCtrlStored ch v).on F.CH_STAT_TRIPPED ch = false := by
  rw [State.chCtrlStored, h]
  exact ((State.chModesStored_keeps ..).on _ _ (by decide +kernel)).trans (State.drvEnSet_tripped ..)

theorem State.chCtrlStored_off (h : bit v 0 = false) :
    Shows [(H.CH_DRV_ON, ch, 0), (H.CH_TERM_ON, ch, 0)] (s.chCtrlStored ch v) := by
  rw [State.chCtrlStored, h]
  exact (State.chModesStored_keeps ..).shows (State.drvEnSet_off _ ch) (by simp only [List.forall_mem_cons]; decide +kernel)

theorem State.chCtrlStored_modes : Shows [(F.CH_CTRL_TERM_MODE, ch, bits v 1 2), (F.CH_CTRL_KEEP_MODE, ch, bits v 3 2),
    (F.CH_CTRL_CMP_MODE, ch, bits v 5 1), (F.CH_CTRL_MASK, ch, bits v 8 1)] (s.chCtrlStored ch v) := by
  simp (disch := decide +kernel) [Shows, State.chCtrlStored, State.chModesStored, b2n_bit]

theorem State.chCtrlStored_pair (h : ch % 2 = 0) : (s.chCtrlStored ch v).on F.CH_CTRL_PAIR ch = bit v 6 := by
  have hp : (s.chPairStored ch v).on F.CH_CTRL_PAIR ch = bit v 6 := by
    simp [State.chPairStored, h, State.on_setB _ _ _ _ (by decide : 0 < F.CH_CTRL_PAIR.width), -State.setB_eq]
  exact ((State.chModesStored_keeps ..).on _ _ (by decide +kernel)).trans
    (((State.drvEnSet_keeps ..).on _ _ (by decide +kernel)).trans hp)

/-! ## BANK and the odd channel of a pair -/

theorem State.bankSet_bank (b : Nat) : (s.bankSet ch b).get F.CH_CTRL_BANK ch = b % 2 ^ F.CH_CTRL_BANK.width := by
  have hb : ((s.put F.CH_CTRL_BANK ch b).bankNow ch b).get F.CH_CTRL_BANK ch = b % 2 ^ F.CH_CTRL_BANK.width :=
    ((State.bankNow_keeps ..).get _ _ (by decide +kernel)).trans (s.get_put_self ..)
  unfold State.bankSet
  split
  · exact hb
  · split
    · exact s.get_put_self ..
    · exact hb

theorem State.chCtrlStored_bank : (s.chCtrlStored ch v).get F.CH_CTRL_BANK ch = s.get F.CH_CTRL_BANK ch :=
  ((State.chModesStored_keeps ..).get _ _ (by decide +kernel)).trans
    (((State.drvEnSet_keeps ..).get _ _ (by decide +kernel)).trans ((State.chPairStored_keeps ..).get _ _ (by decide +kernel)))

theorem State.chCtrlSet_bank : (s.chCtrlSet ch v).get F.CH_CTRL_BANK ch = bits v 7 1 % 2 ^ F.CH_CTRL_BANK.width := by
  unfold State.chCtrlSet State.chBankStored
  split
  case isTrue h =>
    rw [State.chPairSafe_get, State.chCtrlStored_bank, ← h]
    exact (Nat.mod_mod _ _).symm
  case isFalse => exact State.bankSet_bank ..

theorem State.chCtrlSet_pairSafe (h2 : ch % 2 = 0) (h6 : bit v 6 = true) : Shows [(F.CH_CTRL_DRV_EN, ch + 1, 0),
    (F.PMU_CTRL_CONNECT, ch + 1, 0), (H.CH_DRV_ON, ch + 1, 0), (H.CH_TERM_ON, ch + 1, 0), (H.CH_PMU_ON, ch + 1, 0)]
    (s.chCtrlSet ch v) := by
  have hp : (s.chCtrlStored ch v).chPairSafe ch v = (s.chCtrlStored ch v).chSafe (ch + 1) := if_pos (by simp [h2, h6])
  refine (State.chBankStored_keeps ..).shows ?_ (by simp only [List.forall_mem_cons]; decide +kernel)
  rw [hp]
  exact State.chSafe_shows _ _

theorem State.chCtrlSet_modes : Shows [(F.CH_CTRL_TERM_MODE, ch, bits v 1 2), (F.CH_CTRL_KEEP_MODE, ch, bits v 3 2),
    (F.CH_CTRL_CMP_MODE, ch, bits v 5 1), (F.CH_CTRL_BANK, ch, bits v 7 1), (F.CH_CTRL_MASK, ch, bits v 8 1)]
    (s.chCtrlSet ch v) := by
  have hm := s.chCtrlSet_shows ch v (s.chCtrlStored_modes ch v) (by simp) (by simp only [List.forall_mem_cons]; decide +kernel)
  rw [shows_cons, shows_cons, shows_cons] at hm
  obtain ⟨hterm, hkeep, hcmp, hmask⟩ := hm
  rw [shows_cons, shows_cons, shows_cons, shows_cons]
  exact ⟨hterm, hkeep, hcmp, s.chCtrlSet_bank ch v, hmask⟩

end Steps

/-- Settles O24: the write is barred (R154, R156), or stores its fields step by step (chCtrlSet). -/
theorem channelControlWritten : Obligations.ChannelControlWritten := by
  intro s m ch v hv hb
  have hm : v % 2 ^ 32 = v := Nat.mod_eq_of_lt hv
  refine ⟨fun h => ?_, fun ht hp => ?_⟩
  · exact turnedAway_of_bad rfl (regOk_CH_CTRL ch.isLt) hb (hm.symm ▸ State.writeChCtrl_barred h)
  · have e : exec (.chCtrlWrite m ch v) s = .next { s.chCtrlSet ch v with lastResp := .done } :=
      exec_registerRow rfl (regOk_CH_CTRL ch.isLt) hb (hm.symm ▸ State.writeChCtrl_set (not_or.2 ⟨ht, hp⟩))
    refine .of_eq e ⟨rfl, ?_, ?_, fun h2 => ?_, fun h0 => ?_, fun h0 => ?_, fun h2 h6 => ?_⟩
    · exact (s.chCtrlSet_on ch v (by decide +kernel)).trans (s.chCtrlStored_drvEn ch v)
    · exact s.chCtrlSet_modes ch v
    · exact (s.chCtrlSet_on ch v (by decide +kernel)).trans (s.chCtrlStored_pair ch v h2)
    · exact (s.chCtrlSet_on ch v (by decide +kernel)).trans (s.chCtrlStored_tripped ch v h0)
    · exact s.chCtrlSet_shows ch v (s.chCtrlStored_off ch v h0) (by simp) (by simp only [List.forall_mem_cons]; decide +kernel)
    · exact s.chCtrlSet_pairSafe ch v h2 h6

end Sys2Proof.Machine
end

section
/-! # The levels of a channel (R133, R136) -/

set_option Elab.async false

namespace Sys2Proof.Machine

/-! ## The register fields of the levels -/

section Field
variable (lvl : Fin 10)

theorem levelField_width : (levelField lvl).width = 16 := by
  revert lvl
  decide +kernel

theorem levelField_ne_lvlClamp : (levelField lvl).id ≠ F.CH_STAT_LVL_CLAMP.id := by
  revert lvl
  decide +kernel

theorem levelField_ne_bankNow : (levelField lvl).id ≠ H.CH_BANK_NOW.id := by
  revert lvl
  decide +kernel

theorem levelField_off_levelNow : Off (fm (levelField lvl)) State.levelNow_w := by
  revert lvl
  decide +kernel

end Field

theorem sext_mod (v : Nat) {w n : Nat} (h : w ≤ n) : sext w (v % 2 ^ n) = sext w v := by
  unfold sext
  rw [Nat.mod_mod_of_dvd v (Nat.pow_dvd_pow 2 h)]

theorem State.levelSet_mod (s : State) (ch lvl v : Nat) : s.levelSet ch lvl (v % 2 ^ 32) = s.levelSet ch lvl v := by
  unfold State.levelSet
  rw [sext_mod v (by decide)]

/-! ## A level stored -/

/-- A value of a level at its nearest limit (R133). -/
def State.levelLimited (s : State) (ch lvl v : Nat) : Int :=
  clampI (levelLimits (s.paired ch) lvl).1 (levelLimits (s.paired ch) lvl).2 (sext 16 v)

/-- A level stored at its nearest limit, and LVL_CLAMP where the limit changed the value (R133). -/
def State.levelKept (s : State) (ch lvl v : Nat) : State :=
  let s1 := s.putI (levelField lvl) ch (s.levelLimited ch lvl v)
  if sext 16 v = s.levelLimited ch lvl v then s1 else s1.setB F.CH_STAT_LVL_CLAMP ch true

section Kept
variable (s : State) (ch : Nat) (lvl : Fin 10) (v : Nat)

theorem State.levelKept_of_within (h : s.levelLimited ch lvl v = sext 16 v) :
    s.levelKept ch lvl v = s.putI (levelField lvl) ch (s.levelLimited ch lvl v) := if_pos h.symm

theorem State.levelKept_of_beyond (h : s.levelLimited ch lvl v ≠ sext 16 v) :
    s.levelKept ch lvl v = (s.putI (levelField lvl) ch (s.levelLimited ch lvl v)).setB F.CH_STAT_LVL_CLAMP ch true :=
  if_neg h.symm

theorem State.levelKept_now : (s.levelKept ch lvl v).now = s.now := by
  unfold State.levelKept
  split <;> rfl

theorem State.levelKept_level : (s.levelKept ch lvl v).get (levelField lvl) ch = code 16 (s.levelLimited ch lvl v) % 2 ^ 16 := by
  have hp : (s.putI (levelField lvl) ch (s.levelLimited ch lvl v)).get (levelField lvl) ch
      = code 16 (s.levelLimited ch lvl v) % 2 ^ 16 := by
    rw [State.putI, State.get_put_self, levelField_width]
  by_cases h : s.levelLimited ch lvl v = sext 16 v
  · rw [s.levelKept_of_within ch lvl v h, hp]
  · rw [s.levelKept_of_beyond ch lvl v h, State.setB_eq, State.get_put_field _ (levelField_ne_lvlClamp lvl), hp]

theorem State.levelKept_clamps (h : s.levelLimited ch lvl v ≠ sext 16 v) :
    (s.levelKept ch lvl v).on F.CH_STAT_LVL_CLAMP ch = true := by
  rw [s.levelKept_of_beyond ch lvl v h]
  exact State.on_setB _ _ _ _ (by decide)

theorem State.levelKept_lvlClamp (h : s.levelLimited ch lvl v = sext 16 v) :
    (s.levelKept ch lvl v).get F.CH_STAT_LVL_CLAMP ch = s.get F.CH_STAT_LVL_CLAMP ch := by
  rw [s.levelKept_of_within ch lvl v h]
  exact s.get_put_field (levelField_ne_lvlClamp lvl).symm ..

theorem State.levelKept_bankNow : (s.levelKept ch lvl v).get H.CH_BANK_NOW ch = s.get H.CH_BANK_NOW ch := by
  have hp := s.get_put_field (levelField_ne_bankNow lvl).symm ch ch (code (levelField lvl).width (s.levelLimited ch lvl v))
  by_cases h : s.levelLimited ch lvl v = sext 16 v
  · rw [s.levelKept_of_within ch lvl v h]
    exact hp
  · rw [s.levelKept_of_beyond ch lvl v h]
    exact ((State.put _ _ _ _).get_put_field (by decide) ..).trans hp

/-! ## A level written -/

/-- A level is stored, and takes effect at once or at the next vector boundary of its site (R136). -/
theorem State.levelSet_cases : s.levelSet ch lvl v = (s.levelKept ch lvl v).levelNow ch lvl
    ∨ ∃ i, s.chSite ch = some i ∧ s.plays i = true
      ∧ s.levelSet ch lvl v = (s.levelKept ch lvl v).pend i (.level ch lvl) := by
  unfold State.levelSet
  dsimp only
  split
  · exact .inl rfl
  · next i hi =>
    split
    · next hp => exact .inr ⟨i, hi, (Bool.and_eq_true_iff.1 hp).1, rfl⟩
    · exact .inl rfl

theorem State.levelSet_get {f : Field} (ho : Off (fm f) State.levelNow_w) (i : Nat) :
    (s.levelSet ch lvl v).get f i = (s.levelKept ch lvl v).get f i := by
  obtain h | ⟨_, _, _, h⟩ := s.levelSet_cases ch lvl v
  · rw [h]
    exact (State.levelNow_keeps ..).get f i ho
  · rw [h]
    exact State.pend_get ..

theorem State.levelSet_level : Shows [(levelField lvl, ch, code 16 (s.levelLimited ch lvl v))] (s.levelSet ch lvl v) := by
  refine shows_cons.2 ⟨?_, nofun⟩
  rw [s.levelSet_get ch lvl v (levelField_off_levelNow lvl), levelField_width]
  exact s.levelKept_level ch lvl v

/-- The bank that a level belongs to settles. -/
theorem State.levelNow_settles : Shows [(if lvl.val / 5 = s.get H.CH_BANK_NOW ch then H.CH_SETTLE_END else H.CH_SETTLE_END1, ch,
    s.now + 2 * us + 1)] (s.levelNow ch lvl) := by
  unfold State.levelNow
  split <;> simp [Shows, State.setDue]

theorem State.levelSet_settles (h : ∀ i : Nat, s.chSite ch = some i → s.plays i = false) :
    Shows [(if lvl.val / 5 = s.get H.CH_BANK_NOW ch then H.CH_SETTLE_END else H.CH_SETTLE_END1, ch,
      s.now + 2 * us + 1)] (s.levelSet ch lvl v) := by
  obtain e | ⟨i, hi, hp, _⟩ := s.levelSet_cases ch lvl v
  · have hs := (s.levelKept ch lvl v).levelNow_settles ch lvl
    rwa [s.levelKept_bankNow, s.levelKept_now, ← e] at hs
  · exact absurd (h i hi) (by simp [hp])

end Kept

/-! ## The end of settling -/

section Settled
variable {s : State} {ch a b : Nat}

theorem State.levelSettled_active (ha : s.due H.CH_SETTLE_END ch = some a) (hb : s.due H.CH_SETTLE_END1 ch = none) :
    s.levelSettled ch = (s.upTo a).noDue H.CH_SETTLE_END ch := by
  unfold State.levelSettled
  rw [ha, hb]

theorem State.levelSettled_other (ha : s.due H.CH_SETTLE_END ch = none) (hb : s.due H.CH_SETTLE_END1 ch = some b) :
    s.levelSettled ch = (s.upTo b).noDue H.CH_SETTLE_END1 ch := by
  unfold State.levelSettled
  rw [ha, hb]

theorem State.levelSettled_both (ha : s.due H.CH_SETTLE_END ch = some a) (hb : s.due H.CH_SETTLE_END1 ch = some b) :
    s.levelSettled ch = ((s.upTo (max a b)).noDue H.CH_SETTLE_END ch).noDue H.CH_SETTLE_END1 ch := by
  unfold State.levelSettled
  rw [ha, hb]
  simp only [State.upTo, Nat.max_assoc]

theorem State.levelSettled_none (ha : s.due H.CH_SETTLE_END ch = none) (hb : s.due H.CH_SETTLE_END1 ch = none) :
    s.levelSettled ch = s := by
  unfold State.levelSettled
  rw [ha, hb]

end Settled

/-- Settles O25: a level is kept at its nearest limit, then settles (levelSet_cases); the end of settling goes by the banks that
settle. -/
theorem levelsWritten : Obligations.LevelsWritten := by
  intro s m ch lvl v
  refine ⟨fun hb => ?_, fun a ha hb => ?_, fun b ha hb => ?_, fun a b ha hb => ?_, fun ha hb => ?_⟩
  · have hw : s.regWrite m (levelReg lvl) ch (v % 2 ^ 32) = (s.levelSet ch lvl v).ok := by
      rw [levelReg_write, State.levelSet_mod]
    refine .of_eq (exec_registerRow rfl (levelReg_ok lvl ch.isLt) hb hw) ⟨?_, fun h => ?_, fun h => ?_, fun h => ?_⟩
    · exact s.levelSet_level ch lvl v
    · exact (congrArg (· != 0) (s.levelSet_get ch lvl v (by decide +kernel) ch)).trans (s.levelKept_clamps ch lvl v h)
    · exact (s.levelSet_get ch lvl v (by decide +kernel) ch).trans (s.levelKept_lvlClamp ch lvl v h)
    · exact s.levelSet_settles ch lvl v h
  · refine .of_eq (congrArg Host.Outcome.next (State.levelSettled_active ha hb))
      ⟨rfl, ?_, (OnlyFieldsNow.upTo _ s a).put (.head _)⟩
    simp [Shows, State.noDue]
  · refine .of_eq (congrArg Host.Outcome.next (State.levelSettled_other ha hb))
      ⟨rfl, ?_, (OnlyFieldsNow.upTo _ s b).put (.head _)⟩
    simp [Shows, State.noDue]
  · refine .of_eq (congrArg Host.Outcome.next (State.levelSettled_both ha hb))
      ⟨rfl, ?_, ((OnlyFieldsNow.upTo _ s _).put (.head _)).put (.tail _ (.head _))⟩
    simp (disch := decide +kernel) [Shows, State.noDue]
  · exact .of_eq (congrArg Host.Outcome.next (State.levelSettled_none ha hb)) rfl

end Sys2Proof.Machine
end

section
/-! # The per-pin PMU (R148 to R152, R155, R156) -/

set_option Elab.async false

namespace Sys2Proof.Machine

/-! ## PMU_CTRL stored -/

/-- MODE as stored: a code over 4 reads as 0 (R148). -/
def pmuModeCode (v : Nat) : Nat := if bits v 0 3 ≤ 4 then bits v 0 3 else 0

/-- RANGE as stored: a code over 4 reads as 4 (R151). -/
def pmuRangeCode (v : Nat) : Nat := if bits v 4 3 ≤ 4 then bits v 4 3 else 4

/-- MODE and AVG. -/
def State.pmuModeStored (s : State) (ch v : Nat) : State :=
  (s.put F.PMU_CTRL_MODE ch (pmuModeCode v)).put F.PMU_CTRL_AVG ch (bits v 9 3)

/-- CONNECT, whose 1 clears TRIPPED (R156). -/
def State.pmuConnectStored (s : State) (ch v : Nat) : State :=
  if bit v 8 then (s.setB F.PMU_CTRL_CONNECT ch true).setB F.CH_STAT_TRIPPED ch false else s.setB F.PMU_CTRL_CONNECT ch false

/-- RANGE, whose change from the one before takes 10 µs (R151). -/
def State.pmuRangeStored (s : State) (ch old now v : Nat) : State :=
  if pmuRangeCode v = old then s
  else (((s.put H.CH_PMU_OLD_RANGE ch old).put F.PMU_CTRL_RANGE ch (pmuRangeCode v)).setB F.PMU_CTRL_RANGING ch true).setDue
    H.CH_PMU_RNG_END ch (now + 10 * us)

/-- The fields of PMU_CTRL stored, before the switch moves. -/
def State.pmuStored (s : State) (ch v : Nat) : State :=
  ((s.pmuModeStored ch v).pmuConnectStored ch v).pmuRangeStored ch (s.get F.PMU_CTRL_RANGE ch) s.now v

/-- A measurement that MEAS asks for. -/
def State.pmuMeasAsked (s : State) (ch v : Nat) : State := if bit v 12 then s.pmuStart ch else s

section Ctrl
variable (s : State) (ch v : Nat)

theorem State.writePmuCtrl_barred (h : s.pmuBarred ch v = true) : s.writePmuCtrl ch v = s.bad := if_pos h

theorem State.writePmuCtrl_set (h : s.pmuBarred ch v = false) :
    s.writePmuCtrl ch v = ((s.pmuConfig ch v).pmuMeasAsked ch v).ok := if_neg (by simp [h])

/-! ## What each step writes -/

def State.pmuModeStored_w : Nat := fm F.PMU_CTRL_MODE ||| fm F.PMU_CTRL_AVG

theorem State.pmuModeStored_keeps : Keeps State.pmuModeStored_w s (s.pmuModeStored ch v) :=
  .putA (by decide +kernel) (.put _ _ _ _ (by decide +kernel))

def State.pmuConnectStored_w : Nat := fm F.PMU_CTRL_CONNECT ||| fm F.CH_STAT_TRIPPED

theorem State.pmuConnectStored_keeps : Keeps State.pmuConnectStored_w s (s.pmuConnectStored ch v) :=
  .iteA (.setBA (by decide +kernel) (.put _ _ _ _ (by decide +kernel))) (.put _ _ _ _ (by decide +kernel))

def State.pmuRangeStored_w : Nat := fm H.CH_PMU_OLD_RANGE ||| fm F.PMU_CTRL_RANGE ||| fm F.PMU_CTRL_RANGING ||| fm H.CH_PMU_RNG_END

theorem State.pmuRangeStored_keeps (old now : Nat) : Keeps State.pmuRangeStored_w s (s.pmuRangeStored ch old now v) :=
  .iteA (.refl _ _) (.setDueA (by decide +kernel) (.setBA (by decide +kernel) (.putA (by decide +kernel)
    (.put _ _ _ _ (by decide +kernel)))))

theorem State.pmuMeasAsked_keeps : Keeps State.pmuStart_w s (s.pmuMeasAsked ch v) := .iteA (State.pmuStart_keeps ..) (.refl _ _)

/-- After the fields, the switch moves and a forcing PMU displaces the other outputs (R131, R150). -/
theorem State.pmuConfig_keeps_stored :
    Keeps (State.pmuMove_w ||| State.pmuDisplace_w) (s.pmuStored ch v) (s.pmuConfig ch v) :=
  (State.pmuDisplace_keeps ..).via (Sub.or_right _ _) ((State.pmuMove_keeps ..).mono (Sub.or_left _ _))

/-- PMU_CTRL as a write that is not turned away leaves it. -/
def State.pmuSet (s : State) (ch v : Nat) : State := (s.pmuConfig ch v).pmuMeasAsked ch v

theorem State.pmuSet_keeps_stored :
    Keeps (State.pmuMove_w ||| State.pmuDisplace_w ||| State.pmuStart_w) (s.pmuStored ch v) (s.pmuSet ch v) :=
  (State.pmuMeasAsked_keeps ..).via (Sub.or_right _ _) ((s.pmuConfig_keeps_stored ch v).mono (Sub.or_left _ _))

/-! ## MODE, AVG, CONNECT and RANGE -/

theorem State.pmuModeStored_shows :
    Shows [(F.PMU_CTRL_MODE, ch, pmuModeCode v), (F.PMU_CTRL_AVG, ch, bits v 9 3)] (s.pmuModeStored ch v) := by
  simp (disch := decide +kernel) [Shows, State.pmuModeStored]

theorem State.pmuConnectStored_connect :
    (s.pmuConnectStored ch v).get F.PMU_CTRL_CONNECT ch = bits v 8 1 % 2 ^ F.PMU_CTRL_CONNECT.width := by
  rw [← b2n_bit]
  unfold State.pmuConnectStored
  cases bit v 8 <;> simp (disch := decide +kernel)

theorem pmuRangeCode_mod : pmuRangeCode v % 2 ^ F.PMU_CTRL_RANGE.width = pmuRangeCode v := by
  have h : pmuRangeCode v ≤ 4 := by
    unfold pmuRangeCode
    split <;> omega
  exact Nat.mod_eq_of_lt (Nat.lt_of_le_of_lt h (by decide))

/-- RANGE before the write. -/
theorem State.pmuConnectStored_range :
    ((s.pmuModeStored ch v).pmuConnectStored ch v).get F.PMU_CTRL_RANGE ch = s.get F.PMU_CTRL_RANGE ch :=
  ((State.pmuConnectStored_keeps ..).get _ _ (by decide +kernel)).trans ((State.pmuModeStored_keeps ..).get _ _ (by decide +kernel))

theorem State.pmuStored_of_same (h : pmuRangeCode v = s.get F.PMU_CTRL_RANGE ch) :
    s.pmuStored ch v = (s.pmuModeStored ch v).pmuConnectStored ch v := if_pos h

theorem State.pmuStored_range : (s.pmuStored ch v).get F.PMU_CTRL_RANGE ch = pmuRangeCode v % 2 ^ F.PMU_CTRL_RANGE.width := by
  by_cases h : pmuRangeCode v = s.get F.PMU_CTRL_RANGE ch
  · rw [s.pmuStored_of_same ch v h, s.pmuConnectStored_range, ← h, pmuRangeCode_mod]
  · simp (disch := decide +kernel) [State.pmuStored, State.pmuRangeStored, State.setDue, h]

/-- A range that changes takes 10 µs (R151). -/
theorem State.pmuStored_ranging (h : pmuRangeCode v ≠ s.get F.PMU_CTRL_RANGE ch) :
    Shows [(F.PMU_CTRL_RANGING, ch, 1), (H.CH_PMU_RNG_END, ch, s.now + 10 * us + 1)] (s.pmuStored ch v) := by
  simp (disch := decide +kernel) [Shows, State.pmuStored, State.pmuRangeStored, State.setDue, h]

theorem State.pmuStored_shows : Shows [(F.PMU_CTRL_MODE, ch, pmuModeCode v), (F.PMU_CTRL_AVG, ch, bits v 9 3),
    (F.PMU_CTRL_CONNECT, ch, bits v 8 1), (F.PMU_CTRL_RANGE, ch, pmuRangeCode v)] (s.pmuStored ch v) := by
  have hm := (State.pmuConnectStored_keeps _ ch v).shows (s.pmuModeStored_shows ch v)
    (by simp only [List.forall_mem_cons]; decide +kernel)
  have hc := shows_cons.2 ⟨State.pmuConnectStored_connect (s.pmuModeStored ch v) ch v, hm⟩
  have hs := (State.pmuRangeStored_keeps _ ch v (s.get F.PMU_CTRL_RANGE ch) s.now).shows hc
    (by simp only [List.forall_mem_cons]; decide +kernel)
  simp only [shows_cons] at hs ⊢
  obtain ⟨hconnect, hmode, havg, hnil⟩ := hs
  exact ⟨hmode, havg, hconnect, s.pmuStored_range ch v, hnil⟩

/-! ## MEAS (R152) -/

theorem State.pmuStart_begins (hb : s.on F.PMU_CTRL_BUSY ch = false) (hr : s.on F.PMU_CTRL_RANGING ch = false) :
    Shows [(F.PMU_CTRL_BUSY, ch, 1), (F.PMU_RESULT_VALID, ch, 0),
      (H.CH_PMU_MEAS_END, ch, s.now + 2 ^ s.get F.PMU_CTRL_AVG ch * (2 * us) + 1)] (s.pmuStart ch) := by
  have hr' : s.get F.PMU_CTRL_RANGING ch = 0 := by simpa [State.on] using hr
  unfold State.pmuStart
  rw [if_neg (by simp [hb])]
  simp (disch := decide +kernel) [Shows, State.on, State.setDue, hr']

theorem State.pmuConfig_avg : (s.pmuConfig ch v).get F.PMU_CTRL_AVG ch = bits v 9 3 := by
  have h := (State.pmuConfig_keeps_stored s ch v).shows (s.pmuStored_shows ch v)
    (by simp only [List.forall_mem_cons]; decide +kernel)
  simp only [shows_cons] at h
  obtain ⟨_, havg, _⟩ := h
  exact havg.trans (Nat.mod_mod _ _)

theorem State.pmuConfig_ranging (h : pmuRangeCode v = s.get F.PMU_CTRL_RANGE ch) :
    (s.pmuConfig ch v).on F.PMU_CTRL_RANGING ch = s.on F.PMU_CTRL_RANGING ch := by
  rw [(s.pmuConfig_keeps_stored ch v).on _ _ (by decide +kernel), s.pmuStored_of_same ch v h,
    (State.pmuConnectStored_keeps ..).on _ _ (by decide +kernel), (State.pmuModeStored_keeps ..).on _ _ (by decide +kernel)]

theorem State.pmuSet_measures (hm : bit v 12 = true) (h : pmuRangeCode v = s.get F.PMU_CTRL_RANGE ch)
    (hr : s.on F.PMU_CTRL_RANGING ch = false) (hb : s.on F.PMU_CTRL_BUSY ch = false) :
    Shows [(F.PMU_CTRL_BUSY, ch, 1), (F.PMU_RESULT_VALID, ch, 0),
      (H.CH_PMU_MEAS_END, ch, s.now + 2 ^ bits v 9 3 * (2 * us) + 1)] (s.pmuSet ch v) := by
  have hs := State.pmuStart_begins (s.pmuConfig ch v) ch
    (((State.pmuConfig_keeps ..).on _ _ (by decide +kernel)).trans hb) ((s.pmuConfig_ranging ch v h).trans hr)
  rw [s.pmuConfig_avg, (State.pmuConfig_keeps ..).now (by decide +kernel)] at hs
  rwa [State.pmuSet, State.pmuMeasAsked, if_pos hm]

theorem State.pmuSet_shows : Shows [(F.PMU_CTRL_MODE, ch, pmuModeCode v), (F.PMU_CTRL_AVG, ch, bits v 9 3),
    (F.PMU_CTRL_CONNECT, ch, bits v 8 1), (F.PMU_CTRL_RANGE, ch, pmuRangeCode v)] (s.pmuSet ch v) :=
  (s.pmuSet_keeps_stored ch v).shows (s.pmuStored_shows ch v) (by simp only [List.forall_mem_cons]; decide +kernel)

theorem State.pmuSet_ranging (h : pmuRangeCode v ≠ s.get F.PMU_CTRL_RANGE ch) :
    Shows [(F.PMU_CTRL_RANGING, ch, 1), (H.CH_PMU_RNG_END, ch, s.now + 10 * us + 1)] (s.pmuSet ch v) :=
  (s.pmuSet_keeps_stored ch v).shows (s.pmuStored_ranging ch v h) (by simp only [List.forall_mem_cons]; decide +kernel)

end Ctrl

/-! ## The ends of what a write begins -/

section Ends
variable {s : State} {ch a : Nat}

theorem State.pmuConnectDone_due (h : s.due H.CH_PMU_SW_END ch = some a) : s.pmuConnectDone ch = (s.upTo a).pmuMoved ch := by
  unfold State.pmuConnectDone
  rw [h]

theorem State.pmuMoved_on : (s.pmuMoved ch).on H.CH_PMU_ON ch = s.pmuWanted ch := by
  have h : ((s.setB H.CH_PMU_ON ch (s.pmuWanted ch)).noDue H.CH_PMU_SW_END ch).on H.CH_PMU_ON ch = s.pmuWanted ch :=
    (congrArg (· != 0) (State.get_put_field _ (by decide) ..)).trans (State.on_setB _ _ _ _ (by decide))
  exact ((State.pmuDisplace_keeps ..).on _ _ (by decide +kernel)).trans h

theorem State.pmuMoved_swEnd : (s.pmuMoved ch).get H.CH_PMU_SW_END ch = 0 :=
  ((State.pmuDisplace_keeps ..).get _ _ (by decide +kernel)).trans (State.get_put_self ..)

theorem State.pmuDisplace_forcing : (s.pmuDisplace ch).pmuForcing ch = s.pmuForcing ch := by
  unfold State.pmuForcing
  rw [(State.pmuDisplace_keeps ..).on _ _ (by decide +kernel), (State.pmuDisplace_keeps ..).get _ _ (by decide +kernel)]

/-- A PMU that forces has displaced driver and termination (R131). -/
theorem State.pmuDisplace_displaces (h : (s.pmuDisplace ch).pmuForcing ch = true) :
    (s.pmuDisplace ch).on H.CH_DRV_ON ch = false ∧ (s.pmuDisplace ch).on H.CH_TERM_ON ch = false := by
  rw [State.pmuDisplace_forcing] at h
  rw [State.pmuDisplace, if_pos h]
  simp (disch := decide +kernel) [State.drvOff, State.on]

/-! ## The end of a range change (R151) -/

/-- The range has changed. -/
def State.pmuRanged (s : State) (ch a : Nat) : State :=
  ((s.upTo a).noDue H.CH_PMU_RNG_END ch).setB F.PMU_CTRL_RANGING ch false

theorem State.pmuRanged_keeps (s : State) (ch a : Nat) :
    Keeps (m_now ||| fm H.CH_PMU_RNG_END ||| fm F.PMU_CTRL_RANGING) s (s.pmuRanged ch a) :=
  .setBA (by decide +kernel) (.noDueA (by decide +kernel) (.upToA (by decide +kernel) (.refl _ _)))

theorem State.pmuRangeDone_idle (h : s.due H.CH_PMU_RNG_END ch = some a) (hw : s.on H.CH_PMU_MEAS_WAIT ch = false) :
    s.pmuRangeDone ch = s.pmuRanged ch a := by
  have hw' : (s.pmuRanged ch a).on H.CH_PMU_MEAS_WAIT ch = false :=
    ((State.pmuRanged_keeps ..).on _ _ (by decide +kernel)).trans hw
  unfold State.pmuRangeDone
  rw [h]
  exact if_neg (by rw [Bool.not_eq_true]; exact hw')

/-- A measurement that waited for the range begins. -/
theorem State.pmuRangeDone_waited (h : s.due H.CH_PMU_RNG_END ch = some a) (hw : s.on H.CH_PMU_MEAS_WAIT ch = true) :
    s.pmuRangeDone ch = ((s.pmuRanged ch a).setB H.CH_PMU_MEAS_WAIT ch false).setDue H.CH_PMU_MEAS_END ch
      (laterOf s a + 2 ^ s.get F.PMU_CTRL_AVG ch * (2 * us)) := by
  have hw' : (s.pmuRanged ch a).on H.CH_PMU_MEAS_WAIT ch = true :=
    ((State.pmuRanged_keeps ..).on _ _ (by decide +kernel)).trans hw
  have havg : (s.pmuRanged ch a).get F.PMU_CTRL_AVG ch = s.get F.PMU_CTRL_AVG ch :=
    (State.pmuRanged_keeps ..).get _ _ (by decide +kernel)
  rw [← havg]
  unfold State.pmuRangeDone
  rw [h]
  exact if_pos hw'

theorem State.pmuRanged_setsNow (s : State) (ch a : Nat) :
    SetsNow [(H.CH_PMU_RNG_END, ch, 0), (F.PMU_CTRL_RANGING, ch, 0)] s (s.pmuRanged ch a) := by
  refine ⟨?_, ((OnlyFieldsNow.upTo _ s a).put (.head _)).put (.tail _ (.head _))⟩
  simp (disch := decide +kernel) [Shows, State.pmuRanged, State.noDue]

theorem State.pmuRanged_waited_setsNow (s : State) (ch a d : Nat) : SetsNow [(H.CH_PMU_RNG_END, ch, 0),
    (F.PMU_CTRL_RANGING, ch, 0), (H.CH_PMU_MEAS_WAIT, ch, 0), (H.CH_PMU_MEAS_END, ch, d + 1)] s
    (((s.pmuRanged ch a).setB H.CH_PMU_MEAS_WAIT ch false).setDue H.CH_PMU_MEAS_END ch d) := by
  refine ⟨?_, ((((OnlyFieldsNow.upTo _ s a).put (.head _)).put (.tail _ (.head _))).put
    (.tail _ (.tail _ (.head _)))).put (.tail _ (.tail _ (.tail _ (.head _))))⟩
  simp (disch := decide +kernel) [Shows, State.pmuRanged, State.noDue, State.setDue]

/-! ## The end of a measurement (R152) -/

theorem State.pmuMeasDone_due (mean : Int) (clamped beyond : Bool) (h : s.due H.CH_PMU_MEAS_END ch = some a) :
    s.pmuMeasDone ch mean clamped beyond = ((s.upTo a).pmuDone ch mean clamped beyond).engMeasured (unitChan ch) := by
  unfold State.pmuMeasDone
  rw [h]

variable (mean : Int) (clamped beyond : Bool)

theorem State.pmuDone_ends : Shows [(F.PMU_CTRL_BUSY, ch, 0), (H.CH_PMU_MEAS_END, ch, 0), (F.PMU_RESULT_VALID, ch, 1)]
    (s.pmuDone ch mean clamped beyond) := by
  unfold State.pmuDone
  cases s.on H.CH_CAL_OWNED ch <;> cases clamped <;> simp (disch := decide +kernel) [Shows, State.noDue, State.putI]

/-- A channel that no calibration flow owns takes the result. -/
theorem State.pmuDone_stores (h : s.on H.CH_CAL_OWNED ch = false) :
    Shows [(F.PMU_RESULT_VALUE, ch, code 16 (clampI (-32768) 32767 mean)), (F.PMU_RESULT_CLAMPED, ch, b2n clamped),
      (F.PMU_RESULT_OVER, ch, b2n beyond), (F.PMU_RESULT_STALE, ch, 0)] (s.pmuDone ch mean clamped beyond) := by
  have hw : F.PMU_RESULT_VALUE.width = 16 := rfl
  unfold State.pmuDone
  rw [h]
  cases clamped <;> simp (disch := decide +kernel) [Shows, State.noDue, State.putI, hw]

/-- A channel that a calibration flow owns keeps its value, which goes stale. -/
theorem State.pmuDone_owned (h : s.on H.CH_CAL_OWNED ch = true) :
    (s.pmuDone ch mean clamped beyond).on F.PMU_RESULT_STALE ch = true
      ∧ (s.pmuDone ch mean clamped beyond).get F.PMU_RESULT_VALUE ch = s.get F.PMU_RESULT_VALUE ch := by
  unfold State.pmuDone
  rw [if_pos h]
  simp (disch := decide +kernel) [State.on, State.noDue]

end Ends

/-! ## The statement -/

/-- The rows that write PMU_CTRL. -/
def pmuCtrlRows (m : Master) (ch : Fin 512) (v : Nat) : List Instr := [.pmuCtrlWrite m ch v, .pmuMeas m ch v]

theorem exec_pmuCtrlRow {c : Instr} {m : Master} {ch : Fin 512} {v : Nat} (hc : c ∈ pmuCtrlRows m ch v) (s : State) :
    exec c s = .next (s.swWrite m .PMU_CTRL ch v) := by
  simp only [pmuCtrlRows, List.mem_cons, List.not_mem_nil, or_false] at hc
  rcases hc with rfl | rfl <;> rfl

/-- Settles O26: a write is barred, or stores its fields, moves the switch and starts a measurement (pmuSet); each end acts at the
time it was due. -/
theorem pmuControlled : Obligations.PmuControlled := by
  intro s m ch v hv
  have hmod : v % 2 ^ 32 = v := Nat.mod_eq_of_lt hv
  refine ⟨fun hb => ⟨fun h => ?_, fun h c hc => ?_⟩, fun a ha => ?_, fun a ha hw => ?_, fun a ha hw => ?_,
    fun a mean clamped beyond ha => ?_⟩
  · have hw : s.regWrite m .PMU_CTRL ch (v % 2 ^ 32) = s.bad := hmod.symm ▸ State.writePmuCtrl_barred s ch v h
    exact ⟨turnedAway_of_bad rfl (regOk_PMU_CTRL ch.isLt) hb hw, turnedAway_of_bad rfl (regOk_PMU_CTRL ch.isLt) hb hw⟩
  · have hw : s.regWrite m .PMU_CTRL ch (v % 2 ^ 32) = (s.pmuSet ch v).ok := hmod.symm ▸ State.writePmuCtrl_set s ch v h
    exact .of_eq (exec_registerRow (exec_pmuCtrlRow hc s) (regOk_PMU_CTRL ch.isLt) hb hw)
      ⟨rfl, s.pmuSet_shows ch v, s.pmuSet_ranging ch v, s.pmuSet_measures ch v⟩
  · refine .of_eq (congrArg Host.Outcome.next (State.pmuConnectDone_due ha)) ⟨?_, State.pmuMoved_on, State.pmuMoved_swEnd,
      State.pmuDisplace_displaces⟩
    exact (State.pmuMoved_keeps ..).now (by decide +kernel)
  · exact .of_eq (congrArg Host.Outcome.next (State.pmuRangeDone_idle ha hw)) ⟨rfl, State.pmuRanged_setsNow ..⟩
  · exact .of_eq (congrArg Host.Outcome.next (State.pmuRangeDone_waited ha hw)) ⟨rfl, State.pmuRanged_waited_setsNow ..⟩
  · have hk := ((s.upTo a).pmuDone ch mean clamped beyond).engMeasured_keeps (unitChan ch)
    refine .of_eq (congrArg Host.Outcome.next (State.pmuMeasDone_due mean clamped beyond ha)) ⟨?_, ?_, fun h => ?_, fun h => ?_⟩
    · exact (hk.now (by decide +kernel)).trans ((State.pmuDone_keeps ..).now (by decide +kernel))
    · exact hk.shows (State.pmuDone_ends mean clamped beyond) (by simp only [List.forall_mem_cons]; decide +kernel)
    · exact hk.shows (State.pmuDone_stores mean clamped beyond h) (by simp only [List.forall_mem_cons]; decide +kernel)
    · obtain ⟨hstale, hvalue⟩ := State.pmuDone_owned (s := s.upTo a) mean clamped beyond h
      exact ⟨(hk.on _ _ (by decide +kernel)).trans hstale, (hk.get _ _ (by decide +kernel)).trans hvalue⟩

end Sys2Proof.Machine
end
